-- ==== Sys2Proof/Word.lean ====
section
/-! DEFINITION. The word and byte types of the registers, buffers and structures (R13, R22). -/

namespace Sys2Proof

/-- A 32-bit register or payload word (R13, R101). -/
abbrev Word := BitVec 32

/-- One byte of a buffer, a packet or a memory. -/
abbrev Byte := BitVec 8

/-- A 64-bit array time, address or count, held in a _LO and _HI pair (R20). -/
abbrev DWord := BitVec 64

end Sys2Proof
end

