-- ==== Sys2Proof/Syntax.lean ====
section
/-! DEFINITION. The commands and events of the device: one constructor of `Instr` per row of the table, with the operands each carries. -/

namespace Sys2Proof.Machine

/-- The three requesters of R20, each with its own shadow copies and staged halves. -/
inductive Requester where
  | cp | bar0 | mgmt
  deriving DecidableEq, Repr

/-- Where a Pelusk packet came from, and so where its replies go (R390). -/
inductive Transport where
  /-- Mailbox slot `k`: 0–3 from the host, 4 from the management port. -/
  | slot (k : Nat)
  /-- A datagram received on port `n` from this MAC address, IP address and UDP port. -/
  | udp (n : Nat) (mac : Nat) (ip : Word) (port : Nat)
  /-- Relayed by the peer over the Miltia link. -/
  | miltia
  /-- A profile script, run as source 0 (R418). -/
  | script
  /-- A mailbox command whose replies a function level reset discards (R393). -/
  | muted
  deriving DecidableEq, Repr

/-- A Pelusk command as Nieth takes it from the queue: the header fields of R398 that the opcode does not fix, and the payload. -/
structure Cmd where
  source : Word
  seq : Word
  ack : Bool
  scheduled : Bool
  relayed : Bool
  transport : Transport
  crc : Word
  payload : List Word
  deriving DecidableEq, Repr

/-- A reply of R399: the header fields it copies from its command, the status word's parts, and the words after it. `extra` is flags [7:4], which only a BAD_CRC reply keeps as received (R401). -/
structure Reply where
  op : Nat
  source : Word
  seq : Word
  ack : Bool
  scheduled : Bool
  relayed : Bool
  status : Nat
  kind : Nat
  word : Nat
  words : List Word
  extra : Nat := 0
  deriving DecidableEq, Repr

/-- One cached reply of a source: the sequence, the packet CRC and the latest reply (R404). -/
structure CacheEntry where
  seq : Word
  crc : Word
  reply : Option Reply
  deriving DecidableEq, Repr

/-- The sequence state of one source (R403, R404): its last accepted sequence and the 64 most recent accepted non-query sequences, newest first. -/
structure SourceSt where
  id : Word
  last : Word
  cache : List CacheEntry
  deriving DecidableEq, Repr

/-- What SECDED finds in the words that a slice reads in one issue (R104): single-bit errors, which it corrects; a double-bit error in instruction memory, X or Y; and the sample groups with a double-bit error, as path of the slice and floor(t / 4). -/
structure Ecc where
  corrected : Nat
  double : Bool
  groups : List (Nat × Nat)
  deriving DecidableEq, Repr

/-- No memory error. -/
def Ecc.clean : Ecc := { corrected := 0, double := false, groups := [] }

/-- An issue of a slice, with what its memories' ECC finds in the bundle's reads (R104, R107). -/
structure Issue where
  slice : Nat
  ecc : Ecc
  deriving DecidableEq, Repr

/-- A read of a run of bytes of DRAM: its length, and what each codeword of it holds, in order: no error (0), a single-bit error (1) or a double-bit error (2) (R337, R338). -/
structure MemRead where
  len : Nat
  found : List Nat
  deriving DecidableEq, Repr

/-- An access of a DMA channel: the fetch in flight, beat `i` of descriptor `j`, its read or its write, or the DONE write-back of descriptor `j` (R383). -/
inductive DmAccess where
  | fetch
  | beat (j i : Nat) (read : Bool)
  | writeBack (j : Nat)
  deriving DecidableEq, Repr

/-- One queued event of the scheduler (R413). -/
structure Event where
  handle : Nat
  /-- Scheduled array time T. -/
  t : Nat
  /-- Firing boundary F, current. -/
  f : Nat
  op : Nat
  alignI : Bool
  committed : Bool
  cmd : Cmd
  deriving DecidableEq, Repr

end Sys2Proof.Machine

namespace Sys2Proof

open Machine

/-- One constructor per row of the table. -/
inductive Instr where
  /-- A write to a register that has no row of its own; a write the host may not make, or one to a reserved or undecoded address, is ignored and logged (R19). Offset, byte enables of the word, and the word. -/
  | registerWrite (r : Requester) (off be : Nat) (v : Word)
  /-- A read of the _LO half of a 64-bit pair latches _HI into the shadow copy of that requester (R20). -/
  | pairLoRead (r : Requester) (off : Nat)
  /-- A read of _HI returns and consumes the requester's shadow copy, or returns the live value when the requester holds no shadow copy (R20). -/
  | pairHiRead (r : Requester) (off : Nat)
  /-- A write of _LO stages the low half for that requester (R20). Offset of the _LO half. -/
  | pairLoWrite (r : Requester) (off : Nat) (v : Word)
  /-- A write of _HI commits the staged low half and the written high half in one step (R20). Offset of the _HI half. -/
  | pairHiWrite (r : Requester) (off : Nat) (v : Word)
  /-- While violations continue, a further 0x0101 log entry carrying GLB_AV_COUNT is written at most once per second (R551). -/
  | avLogRepeat
  /-- A write of GLB_CNT_CLR.AV clears GLB_AV_COUNT and GLB_AV_STAT.VALID (R551). -/
  | glbCntClrAv
  /-- An accepted PPS edge of a source updates ATC_AT_PPS and the wander measurement, and serves an armed epoch load or a switch (R304). Of source `k`, `pos` units of 0.3125 ns after the second grid and `phase` sixteenths into its sample period. -/
  | ppsEdge (k : Nat) (pos : Int) (phase : Nat)
  /-- At the first accepted PPS edge after ARM, the ATC takes the load value, the staged TAI mapping is written, and the ATC state becomes or stays RUNNING (R50). The gate that closes with the load, as GATE_CLOSE gives it (R303). -/
  | epochLoad (offs : List Int) (base phase ferr : Int)
  /-- After a load has been armed for 1.1 s without a PPS edge, MISSED_PPS is set and the load stays armed (R51). -/
  | missedPps
  /-- At the commit point of a queued event, checks 9–11 are repeated, and the event is either committed or discarded, logged and counted (R411). Handle of the event whose commit point has come. -/
  | eventCommit (h : Nat)
  /-- A committed event fires at its firing boundary and applies to data of that array time onwards, in the order of R58 (R57). -/
  | eventFire
  /-- When 1 µs has passed since the last C0 message on a port, the next queued C0 message is sent (R44). On port `n`. -/
  | c0SpacingRelease (n : Nat)
  /-- A data block on a locked data lane is taken whole, and its samples are counted and delivered to the path of its lane (R68). On physical lane `j` of octet `o`, the 16 bytes as received. -/
  | dataBlockReceived (o j : Nat) (raw : List Byte)
  /-- An idle block is taken into the frame's CRC16 and carries no samples (R69). -/
  | idleBlockReceived (o j : Nat) (raw : List Byte)
  /-- A check block is verified against the running block count and the frame CRC16, and its FMT and ADC flags are taken (R72). -/
  | checkBlockReceived (o j : Nat) (raw : List Byte)
  /-- DEGRADED clears after 4,096 frames with no CRC failure (R95). -/
  | degradedClear (o j : Nat)
  /-- The first copy of a control reply with a correct BCRC and a matching TAG completes the exchange, and the other copies are discarded (R85). -/
  | controlReplyReceived (o j : Nat) (raw : List Byte)
  /-- After 64 consistent consecutive blocks, a data lane gains block lock (R74). With header bit [7], LANE, the SEQ, COUNT and sample index of the next block, the lead in 10 ps, and the offset derived from the release point. `o` is an octet, or 64 for the Miltia link (R434, R435). -/
  | blockLockGained (o j : Nat) (b7 : Bool) (lane seq count idx : Nat) (lead : Int) (ofs : Nat)
  /-- A lane that loses lock flags its frame, then substitutes zeros with lane loss from the next release, and keeps trying to relock (R94). `o` is an octet, or 64 for the Miltia link (R434, R435). -/
  | blockLockLost (o j : Nat)
  /-- An amplitude below 60 mV p-p for 1 µs declares loss of signal on a lane or forwarded clock (R75). On a data lane, or on the forwarded clock. `o` is an octet, or 64 for the Miltia link (R434, R435). -/
  | lossOfSignal (o : Nat) (lane : Option Nat)
  /-- An amplitude above 100 mV p-p for 10 µs clears loss of signal (R75). `o` is an octet, or 64 for the Miltia link (R434, R435). -/
  | lossOfSignalClear (o : Nat) (lane : Option Nat)
  /-- Loss of the forwarded clock, or its frequency out of range for 100 ns, sets FCK_LOSS, and all eight lanes lose lock (R95). `o` is an octet, or 64 for the Miltia link (R434, R435). -/
  | forwardedClockLost (o : Nat)
  /-- A locked lane whose lead leaves the 0–16 ns window loses lock and sets SLIP (R80). -/
  | laneSlip (o j : Nat) (lead : Int)
  /-- When the first ladder has ended on every octet that is not excluded or asleep, the release point is set on the latest in-service lane (R79). Leads by octet × 8 + lane, in 10 ps. -/
  | releasePointSet (leads : List (Nat × Int))
  /-- The samples of one sample period are released with their array time to Saffron, the Madder stores and Umber (R78). -/
  | sampleRelease
  /-- With no matching reply after 100 µs, the message is sent again, up to three times, and CTL_FAULT is set after the fourth attempt (R86). `o` is an octet, or 64 for the Miltia link (R434, R435). -/
  | controlReplyTimeout (o : Nat)
  /-- Every 1 ms, a STATUS message is sent to each RUNNING octet (R88). -/
  | statusPoll
  /-- A STATUS message unanswered for 100 µs counts as unanswered, and three in a row set CTL_FAULT (R88). -/
  | statusReplyTimeout (o : Nat)
  /-- After cold reset, RELADDER or LANE_LADDER, the octet is brought up at L0 and its HELLO is exchanged (R89). -/
  | ladderStart (o : Nat)
  /-- A ladder step past its bound fails the attempt; the octet returns to rung r, retries, or ends RUNG_LIMITED or DOWN (R90). `o` is an octet, or 64 for the Miltia link (R434). -/
  | ladderStepTimeout (o : Nat)
  /-- 10 µs after the commit reply, the control lane and receivers switch to the new rung (R89). `o` is an octet, or 64 for the Miltia link (R434, R435). -/
  | rungSwitch (o : Nat)
  /-- Lock on SL_FCK at the new rate ends step 4 of the ladder (R89). `o` is an octet, or 64 for the Miltia link (R434, R435). -/
  | forwardedClockLock (o : Nat)
  /-- 4,096 consecutive clean frames record the rung, and the ladder proposes the next rung or ends (R89). `o` is an octet, or 64 for the Miltia link (R434). -/
  | dwellPassed (o : Nat)
  /-- An octet in DOWN retries step 0 of the ladder every 100 ms (R91). `o` is an octet, or 64 for the Miltia link (R434, R435). -/
  | octetDownRetry (o : Nat)
  /-- A transition density below 1/32 over 8,192 UI freezes equaliser adaptation and sets EQ_FROZEN (R93). -/
  | eqFreeze (o j : Nat)
  /-- A density above 1/16 for 8,192 UI resumes adaptation and clears EQ_FROZEN (R93). -/
  | eqResume (o j : Nat)
  /-- After relock and 64 clean frames, a path rejoins at the next integration boundary, or at the next spectrum boundary when no integration runs (R94). Path index `p` of octet `o`. -/
  | pathRejoin (o p : Nat)
  /-- After 20 µs of idle blocks on a woken control direction, the pending control message is sent (R99). -/
  | controlWakeDone (o : Nat)
  /-- The command restarts the ladder of each octet in its mask (R101). -/
  | laneLadder (c : Cmd)
  /-- The command puts the receive and control directions of the masked octets to sleep, or wakes them (R99). -/
  | laneSleep (c : Cmd)
  /-- The command sets SL_OCT_PRBS and sends PRBS to the board (R101). -/
  | lanePrbs (c : Cmd)
  /-- The query replies with the octet and lane status registers (R101). -/
  | laneStatus (c : Cmd)
  /-- The command sends REG_WRITE or REG_READ to the board, and replies once the exchange has ended (R101). -/
  | adcAccess (c : Cmd)
  /-- The command sets the release point again, ends the open integration with a flag, and re-derives every octet's offset (R83). -/
  | releaseSet (c : Cmd)
  /-- A write of SL_CNT_CLR.ALL clears every SL counter (R100). -/
  | slCntClrAll
  /-- A write of SL_CNT_CLR.GO clears the counters of one octet (R100). -/
  | slCntClrOctet (o : Nat)
  /-- A slice issues one bundle, and all its slots read their sources before any slot writes (R107). On slice `k`, with the memory errors `e` found. -/
  | bundleIssue (i : Issue)
  /-- A VLDS that stalled for an unwritten sample resumes once that sample has been released (R128). On slice `k`, with the memory errors `e` found. -/
  | vldsStallEnd (i : Issue)
  /-- A last-block OUT completes once the check blocks covering the path's newest sample have been checked, and the flag word is attached (R132). -/
  | outComplete (k : Nat)
  /-- Nieth reloads the image of a faulted slice, which restarts at the next spectrum boundary, and its paths rejoin (R137). -/
  | sliceAutoRestart (k : Nat)
  /-- When the swap load is complete, the new program starts at ENTRY with ST equal to S (R142). -/
  | programSwapLoadDone (k : Nat)
  /-- The command accumulates a program image, and the last chunk checks it and stores it in a slot (R139). -/
  | mdProgStore (c : Cmd)
  /-- The scheduled command queues a Madder program swap for the masked slices (R145). -/
  | mdProgSwap (c : Cmd)
  /-- The query replies with the slice's status, counters and path status (R145). -/
  | mdSliceStatus (c : Cmd)
  /-- The command restarts HALTED or DEAD slices under R137 (R145). -/
  | mdSliceRestart (c : Cmd)
  /-- The query lists the store slots and the standard program with their measurements (R145). -/
  | mdProgList (c : Cmd)
  /-- The command empties a store slot (R145). -/
  | mdProgErase (c : Cmd)
  /-- A write of MD_CNT_CLR.ALL clears every MD counter and MD_SL_CYC.MAX (R144). -/
  | mdCntClrAll
  /-- A write of MD_CNT_CLR.GO clears the counters of one slice (R144). -/
  | mdCntClrSlice (k : Nat)
  /-- At a scale-epoch boundary, each path and group takes its new exponent from the accumulated RMS and the target (R163). On slice `k`. -/
  | scaleEpochBoundary (k : Nat)
  /-- The copy of the new active calibration bank into the other bank completes (R156). -/
  | calBankCopyDone (k : Nat)
  /-- The scheduled command queues delay changes for the listed paths (R170). -/
  | chDelaySet (c : Cmd)
  /-- The command writes calibration entries into the loading bank of a path's slice (R170). -/
  | chCalLoad (c : Cmd)
  /-- The scheduled command queues a calibration swap for the masked slices (R170). -/
  | chCalSwap (c : Cmd)
  /-- The command starts copying a stored calibration set into the loading banks (R170). -/
  | chCalFetch (c : Cmd)
  /-- The calibration fetch completes and its final reply is sent (R170). -/
  | chCalFetchDone
  /-- The command starts writing the active banks to a stored set (R170). -/
  | chCalStore (c : Cmd)
  /-- The calibration store completes and its final reply is sent (R170). -/
  | chCalStoreDone
  /-- The scheduled command queues a change of the scale target (R170). -/
  | chTargetSet (c : Cmd)
  /-- The query replies with the path's last closing scale record (R170). -/
  | chScaleRead (c : Cmd)
  /-- A spectrum's staging fill, or a scale record, arrives and is placed in staging by array time, path and channel (R176). The oldest staging fill, or with `rec` the oldest scale record. -/
  | stagingFillArrival (rec : Bool)
  /-- A pass starts over a complete staging half once the die's previous pass has ended (R177). On die `d`. -/
  | indigoPassStart (d : Nat)
  /-- A pass ends: the bin sums are added to the VAT entries, and the half is released once Woad has read it too (R177). -/
  | indigoPassEnd (d : Nat)
  /-- The deadline of a pass passes, two spectrum periods after the other half becomes complete (R177). Of a staging half. -/
  | passDeadline (h : Bool)
  /-- An integration boundary falls due on the grid (R185). -/
  | integrationBoundary
  /-- When the pass holding the last spectrum ends, the open bank closes, the other bank opens, and the drain starts (R185). -/
  | bankClose
  /-- The drain completes its dump record; an IDLE transition or deferred close follows (R192). -/
  | drainEnd
  /-- A drain waiting for ring space resumes once a record is released (R193). -/
  | drainRingSpace
  /-- The scheduled command checks and queues a product set (R205). -/
  | ixProductSet (c : Cmd)
  /-- The query evaluates a product set without change (R205). -/
  | ixBudgetCheck (c : Cmd)
  /-- The scheduled command queues an integration stop (R205). -/
  | ixIntegStop (c : Cmd)
  /-- The query replies with the correlator status and counters (R205). -/
  | ixStatus (c : Cmd)
  /-- The command releases dump records up to a SEQ (R193). -/
  | ixDumpRelease (c : Cmd)
  /-- The query replies with a tile's groups (R205). -/
  | ixTileMap (c : Cmd)
  /-- The command sets the dump ring while IDLE (R205). -/
  | ixDumpRing (c : Cmd)
  /-- A write of IX_CNT_CLR.ALL clears every IX counter (R204). -/
  | ixCntClrAll
  /-- A write of IX_CNT_CLR.SAT clears IX_TILE_SAT0–31 (R204). -/
  | ixCntClrSat
  /-- Woad starts a pass over a staging half with its capacity under the thermal step (R229). -/
  | woadPassStart
  /-- A completed voltage packet of a beam is sent on its port (R227). -/
  | beamPacketEmit (b : Nat)
  /-- At a multiple of NINT × 8,192, a total-power integration closes and its packet is sent (R222). -/
  | totalPowerClose (b : Nat)
  /-- When formation resumes after an outage, each enabled beam sends one gap packet (R231). -/
  | woadResumeGap
  /-- The copy of the new active polynomial table into the standby table completes (R213). -/
  | polyTableCopyDone
  /-- The command starts copying polynomial slots from DRAM into the standby table (R234). -/
  | wdPolyLoad (c : Cmd)
  /-- The polynomial load completes and its final reply is sent (R234). -/
  | wdPolyLoadDone
  /-- The scheduled command queues a polynomial segment swap (R234). -/
  | wdPolySwap (c : Cmd)
  /-- The scheduled command checks and queues a beam configuration (R234). -/
  | wdBeamConfig (c : Cmd)
  /-- The query evaluates a beam configuration without change (R234). -/
  | wdBudgetCheck (c : Cmd)
  /-- The query replies with the Woad status and counters (R234). -/
  | wdStatus (c : Cmd)
  /-- The command starts copying a stored polynomial set into the standby table (R234). -/
  | wdPolyFetch (c : Cmd)
  /-- The polynomial fetch completes and its final reply is sent (R234). -/
  | wdPolyFetchDone
  /-- The command starts writing the active table to a stored set (R234). -/
  | wdPolyStore (c : Cmd)
  /-- The polynomial store completes and its final reply is sent (R234). -/
  | wdPolyStoreDone
  /-- A write of WD_CNT_CLR.ALL clears every WD counter (R233). -/
  | wdCntClrAll
  /-- After 2^A sample periods of training, the beam may fire and TRAINING clears (R240). Of trigger beam `t`. -/
  | trainingEnd (t : Nat)
  /-- A path's hit ends after CW sample periods (R242). Of path `p` in unit `c`. -/
  | hitHoldExpire (c p : Nat)
  /-- PW Saffron cycles after its output becomes false, the TRIG pin goes inactive (R244). Of output `o`. -/
  | trigPulseEnd (o : Nat)
  /-- An active edge on a TRIGIN input is timestamped and acts as timestamp, veto, arm, message or freeze event (R246). On input `x`, to its active level or away from it, `sub` steps of 0.5 ns into the sample period. -/
  | triginEdge (x : Nat) (asserted : Bool) (sub : Nat)
  /-- When a 1 µs span ends with coalesced events, the follow-on message is offered and a new span opens (R250). -/
  | messageSpanEnd
  /-- When every covering check block has been checked, the trigger message is offered in SEQ order (R251). For the message of SEQ `q`. -/
  | messageCheckDone (q : Nat)
  /-- A check block that does not arrive within the bound lets the message go out with UNCHECKED set (R251). For the message of SEQ `q`. -/
  | messageCheckTimeout (q : Nat)
  /-- Once its check blocks have been checked, a slab is written with its trailer, and WR and SPAN advance (R257). -/
  | umberSlabWrite
  /-- A host write of SF_UB_ARM rearms a FROZEN ring (R260). -/
  | sfUbArm (v : Word)
  /-- A host write of SF_UB_LEN commits base and length as one change, to fire at least 10 µs later (R261). -/
  | sfUbLenWrite (r : Requester) (v : Word)
  /-- The scheduled command queues a trigger configuration change (R264). -/
  | sfTrigConfig (c : Cmd)
  /-- The command writes entries of the pending delay table (R264). -/
  | sfTbpLoad (c : Cmd)
  /-- The query replies with the Saffron status and counters (R264). -/
  | sfStatus (c : Cmd)
  /-- The scheduled command queues an Umber ring change (R264). -/
  | sfUbConfig (c : Cmd)
  /-- The command rearms a FROZEN Umber ring (R264). -/
  | sfUbRearm (c : Cmd)
  /-- The query replies with the Umber status and counters (R264). -/
  | sfUbStatus (c : Cmd)
  /-- A write of SF_CNT_CLR.ALL clears every SF counter, the Umber counters included (R263). -/
  | sfCntClrAll
  /-- A received frame is checked for length and FCS, filtered, classified and stored in its class partition (R269). On port `n`: the bytes from the destination address to the FCS, and whether the PCS signalled a coding error. -/
  | frameReceive (n : Nat) (bytes : List Byte) (coding : Bool)
  /-- Every 20 µs while the partition stays above 50 %, the XOFF PFC frame is repeated (R281). Of class `cls` on port `n`. -/
  | pfcRefresh (n cls : Nat)
  /-- When the partition falls to 50 % or below, PFC with time 0 is sent (R281). Of class `cls` on port `n`. -/
  | pfcXon (n cls : Nat)
  /-- A PAUSE frame sets the pause timer of all priorities (R279). The oldest one that port `n` holds. -/
  | pauseFrameReceived (n : Nat)
  /-- A PFC frame sets the pause timer of each enabled priority (R279). The oldest one that port `n` holds. -/
  | pfcFrameReceived (n : Nat)
  /-- A pause timer runs out and the priority is released (R279). Of priority `q` on port `n`. -/
  | pauseTimerExpire (n q : Nat)
  /-- An ARP request for ET_P_IP is answered by the port (R273). The oldest one that port `n` holds. -/
  | arpRequestReceived (n : Nat)
  /-- A corner-turn block is checked, placed in staging by array time, and its stream's missing SEQs are updated (R290). The oldest one that port `n` holds. -/
  | ctBlockReceived (n : Nat)
  /-- The sender resends the held blocks of a NAK and sends GONE for the rest (R293). The oldest one that port `n` holds. -/
  | ctNakReceived (n : Nat)
  /-- A GONE frame declares the listed blocks lost at once (R293). The oldest one that port `n` holds. -/
  | ctGoneReceived (n : Nat)
  /-- A corner-turn block is written into the resend SRAM and queued on its port, or left unsent when the partition is full (R288). To member `m`: path block `b` in 512-channel run `r` of the oldest spectrum, or a block of scale records. -/
  | ctBlockQueue (m b r : Nat) (rec : Bool)
  /-- NAK_DELAY after a SEQ went missing, a NAK is sent for the stream (R291). Of the stream from port `p` of member `m`. -/
  | nakDelayExpire (m p : Nat)
  /-- Every NAK_RETRY while a SEQ stays missing, the NAK is repeated (R291). Of the stream from port `p` of member `m`. -/
  | nakRetryExpire (m p : Nat)
  /-- At the end of GRACE, the still-missing blocks of a spectrum are declared lost, zero-filled and flagged (R294). Of the spectrum of array time `st`. -/
  | graceExpire (st : Nat)
  /-- A frame finishes transmission and is counted; a late C0 message is counted as late (R267). On port `n`; a C0 message may be `late`, and a C1 frame past its admitted rate (`extra`). -/
  | frameTransmitEnd (n : Nat) (late extra : Bool)
  /-- A port's link comes up, held frames leave, and the preemption verify starts (R282). -/
  | linkUp (n : Nat)
  /-- A port's link goes down, the frame in transmission is lost, and the event is logged (R266). -/
  | linkDown (n : Nat)
  /-- 10 ms after a verify mPacket without response, another is sent, up to three (R282). -/
  | preemptVerifyRetry (n : Nat)
  /-- A respond mPacket sets PREEMPT_OK (R282). -/
  | respondMpacketReceived (n : Nat)
  /-- A dump record in the ring is sent as C2 UDP packets, and released after its last packet when HOLD is 0 (R296). -/
  | dumpStreamSend
  /-- The command sets a port's mode, priorities and addresses (R299). -/
  | etPortConfig (c : Cmd)
  /-- The command replaces a port's address filter between frames (R299). -/
  | etFilterSet (c : Cmd)
  /-- The scheduled command queues a corner-turn configuration, the operating-mode change (R299). -/
  | etCtConfig (c : Cmd)
  /-- The query replies with the port status and counters (R299). -/
  | etPortStatus (c : Cmd)
  /-- The query replies with the corner-turn status and counters (R299). -/
  | etCtStatus (c : Cmd)
  /-- The command sets the dump stream from the next record (R299). -/
  | etDsConfig (c : Cmd)
  /-- The command resends a span of a record still in the ring, with RESENT set (R299). -/
  | etDumpResend (c : Cmd)
  /-- A write of ET_CNT_CLR.ALL clears every ET counter (R298). -/
  | etCntClrAll
  /-- A write of ET_CNT_CLR.CT clears the ET_CT counters (R298). -/
  | etCntClrCt
  /-- A write of ET_CNT_CLR.PORTS clears the counters of the selected ports (R298). -/
  | etCntClrPorts (mask : Nat)
  /-- At each second boundary, the measurements of each source are updated and qualification checked (R302). The mean offsets of sources 0–5 over the gate and that of the time base, in units of 0.01 ppb; the residual phase in ps and the frequency error in units of 0.01 ppb. -/
  | gateClose (offs : List Int) (base phase ferr : Int)
  /-- A source that has passed every check at QUAL consecutive gates becomes QUALIFIED or enters WTR (R306). Of source `k`. -/
  | qualCountReached (k : Nat)
  /-- A source in SOFT_ALARM for PERSIST seconds becomes DISQUALIFIED (R306). Of source `k`. -/
  | persistExpire (k : Nat)
  /-- A source that has spent WTR seconds in WTR with every check passed becomes QUALIFIED (R306). Of source `k`. -/
  | wtrExpire (k : Nat)
  /-- No edge, or a frequency 2 % off for 1 µs, declares clock loss and a hard failure (R304). Of source `k`. -/
  | refClockLoss (k : Nat)
  /-- No accepted PPS edge for 1.1 s declares PPS loss (R304). Of source `k`. -/
  | ppsLoss (k : Nat)
  /-- Missing Announce or Sync messages for the stated intervals declare PTP loss (R304). In domain `d`, of Announce messages or of Sync messages. -/
  | ptpLoss (d : Nat) (announce : Bool)
  /-- A source's signal appears, and it moves from ABSENT to QUALIFYING (R306). Of source `k`. -/
  | sourceSignalPresent (k : Nat)
  /-- The 10 ms coarse frequency measurement completes and may make the source provisionally usable (R307). Of source `k`: its offset in units of 0.01 ppb. -/
  | coarseFreqDone (k : Nat) (off : Int)
  /-- While the ATC is not RUNNING, the core reaches LOCKED on a newly selected source (R310). The core stepped its phase by `move` units of 0.3125 ns; the short gate that this closes measured the rest, as for GATE_CLOSE. -/
  | initialLockDone (offs : List Int) (base phase ferr move : Int)
  /-- After 10 gates within phase and frequency limits, the transition ends LOCKED, and any queued switch runs (R311). -/
  | switchLocked
  /-- After a change of FREQ or EN, the output starts with its first edge aligned (R316). Of CLKOUTn. -/
  | clkoutStart (n : Nat)
  /-- At each second boundary shifted by OFFSET, FRAMEn goes active (R317). Of FRAMEn. -/
  | framePulseStart (n : Nat)
  /-- After WIDTH µs, FRAMEn goes inactive (R317). Of FRAMEn. -/
  | framePulseEnd (n : Nat)
  /-- A Sync message of a domain is timestamped and fed to its servo (R318). The oldest one that port `n` holds. -/
  | ptpSyncReceived (n : Nat)
  /-- A Follow_Up message completes a two-step Sync (R318). The oldest one that port `n` holds. -/
  | ptpFollowUpReceived (n : Nat)
  /-- A Delay_Resp completes a delay exchange and updates the domain's offset (R318). The oldest one that port `n` holds. -/
  | ptpDelayRespReceived (n : Nat)
  /-- An Announce message feeds the best master clock algorithm of its domain (R318). The oldest one that port `n` holds. -/
  | ptpAnnounceReceived (n : Nat)
  /-- A management or signalling message is discarded (R318). The oldest one that port `n` holds. -/
  | ptpOtherDiscard (n : Nat)
  /-- A domain sends its Delay_Req at its interval (R318). Of domain `d`. -/
  | ptpDelayReqSend (d : Nat)
  /-- An offset over 1 ms for 10 s sets LARGE_OFFSET (R321). -/
  | ptpLargeOffset
  /-- At every PTP second boundary, the seconds and the 32-bit time are latched (R320). -/
  | ptpSecondSnapshot
  /-- A read of TM_PTP_SNAP_SEC_LO latches the _HI and T32 shadow copies (R320). -/
  | ptpSnapSecLoRead (r : Requester)
  /-- The command configures a source from the next gate (R325). -/
  | tmSrcConfig (c : Cmd)
  /-- The command sets TM_CTL and selection runs at the next gate (R325). -/
  | tmRefSelect (c : Cmd)
  /-- The command sets holdover and LOCOSC parameters (R325). -/
  | tmHoConfig (c : Cmd)
  /-- The command configures the CLKOUT and FRAME outputs in its masks (R325). -/
  | tmOutConfig (c : Cmd)
  /-- The command writes the load value, stages the TAI mapping and arms the epoch load (R325). -/
  | tmEpochLoad (c : Cmd)
  /-- The scheduled command queues a TAI mapping change (R325). -/
  | tmTaiMap (c : Cmd)
  /-- The command configures the PTP domains (R325). -/
  | tmPtpConfig (c : Cmd)
  /-- The scheduled command queues a PTP clock maintenance step (R325). -/
  | tmPtpStep (c : Cmd)
  /-- The query replies with the timing status (R325). -/
  | tmStatus (c : Cmd)
  /-- The query replies with the snapshot and the newest event timestamps of a port (R325). -/
  | tmPtpTsRead (c : Cmd)
  /-- A write of TM_CNT_CLR.ALL clears TM_SWITCHES and every TM_SRC_DISQ (R324). -/
  | tmCntClrAll
  /-- A request enters its channel's queue partition, or its master is held while the partition is full (R341). By master `m` (numbered as SRC of R551) in class `cls`: a write of `bs`, or a read of `n` bytes, at DRAM address `a`; `extra` where it passes the admitted rate of its C1 stream. -/
  | dramRequest (m cls : Nat) (w : Bool) (a : Nat) (bs : List Byte) (n : Nat) (extra : Bool)
  /-- A read returns data, correcting a single-bit error or poisoning a double-bit error (R337). On channel `n`; each codeword of the read, in order, holds no error (0), a single-bit error (1) or a double-bit error (2). -/
  | dramReadComplete (n : Nat) (found : List Nat)
  /-- A request that has waited AGE_c in the queue is promoted and counted (R344). The `x`-th request of channel `n`, oldest first. -/
  | requestAgePromote (n x : Nat)
  /-- A rank's refresh falls due, and it is issued, postponed or forced (R351). For rank `r` of channel `n`. -/
  | refreshDue (n r : Nat)
  /-- In a slot left free, one postponed refresh is made up (R352). -/
  | postponedRefreshMakeup (n r : Nat)
  /-- A rank with no queued request for PD_IDLE enters power-down (R356). -/
  | rankPowerDown (n r : Nat)
  /-- An open row whose bank has had no queued request for 100 ns is closed (R348). Of bank `b` of rank `r` of channel `n`. -/
  | rowIdleClose (n r b : Nat)
  /-- The patrol reads the next codeword so that every codeword is read once in SCRUB_H hours (R340). It finds no error, a single-bit error (1) or a double-bit error (2). -/
  | scrubPatrolRead (found : Nat)
  /-- A memory rail fault switches off all three rails and sets DR_STAT to FAIL (R330). -/
  | memoryRailFault
  /-- The query replies with the memory status and counters (R366). -/
  | drStatus (c : Cmd)
  /-- The command writes a new board record, which takes effect at the next cold reset (R366). -/
  | drBoardSet (c : Cmd)
  /-- The command starts the commissioning sweep of the masked channels (R361). -/
  | drSweep (c : Cmd)
  /-- The sweep completes and replies with one result word per channel (R363). -/
  | drSweepDone
  /-- The command starts writing the delay table (R366). -/
  | drTableStore (c : Cmd)
  /-- The delay table store completes (R364). -/
  | drTableStoreDone
  /-- The command sets the ages and SCRUB_H, and restarts the patrol (R366). -/
  | drSchedConfig (c : Cmd)
  /-- A write of DR_CNT_CLR.ALL clears every DR counter (R365). -/
  | drCntClrAll
  /-- A write of DR_CNT_CLR.CH clears the counters of the selected channels (R365). -/
  | drCntClrCh (mask : Nat)
  /-- A write of GO starts a chain at DM_CH_DESC in IDLE or HALTED (R376). To channel `n`; `v` is the word written, GO apart. -/
  | dmChCtlGo (r : Requester) (n : Nat) (v : Word)
  /-- A write of ABORT stops issuing beats in RUNNING or WAITING (R376). To channel `n`; `v` is the word written, ABORT apart. -/
  | dmChCtlAbort (r : Requester) (n : Nat) (v : Word)
  /-- A write of KICK fetches the waiting descriptor again (R376). To channel `n`; `v` is the word written, KICK apart. -/
  | dmChCtlKick (r : Requester) (n : Nat) (v : Word)
  /-- A write of DM_CH_DESC sets the first descriptor, and is refused while RUNNING or WAITING (R376). To the _HI or the _LO half of channel `n`. -/
  | dmChDescWrite (r : Requester) (n : Nat) (hi : Bool) (v : Word)
  /-- A W1C write clears end-of-count interrupt bits (R388). -/
  | dmIntStatClear (v : Word)
  /-- A W1C write clears halt interrupt bits (R388). -/
  | dmHaltStatClear (v : Word)
  /-- A write of DM_INT_EN may signal a channel vector whose status bit is set (R554). -/
  | dmIntEnWrite (v : Word)
  /-- A write of DM_HALT_EN may signal a channel vector whose halt bit is set (R554). -/
  | dmHaltEnWrite (v : Word)
  /-- A write of DM_CNT_CLR clears the done and retry counters of the selected channels (R388). -/
  | dmCntClrWrite (v : Word)
  /-- A fetched descriptor is checked and its beats issued, or the channel waits or halts with DESC_ERROR (R371). On channel `n`, with what host memory returned where the descriptor lies there. -/
  | descriptorFetchDone (n : Nat) (host : List Byte)
  /-- A beat's write or read completes (R380). The oldest beat of descriptor `j` of channel `n`, with what host memory returned for its source and its checked data; for data in DRAM the byte at place i tells what codeword i of the read holds: no error, a single-bit error (1) or a double-bit error (2). -/
  | dmaBeatDone (n j : Nat) (src dst : List Byte)
  /-- A beat, fetch or write-back gets a bus or decode error and is retried or halts the channel (R383). On channel `n`. -/
  | dmaBeatError (n : Nat) (x : DmAccess)
  /-- A read or non-posted access with no response within DM_TIMEOUT counts as a bus error (R383). On channel `n`. -/
  | dmaBeatTimeout (n : Nat) (x : DmAccess)
  /-- 1 µs after a bus error, the access is issued again (R383). On channel `n`. -/
  | dmaRetryIssue (n : Nat) (x : DmAccess)
  /-- A descriptor completes when its count is 0 and every write is complete; it is counted and its interrupt set (R380). Descriptor `j` of channel `n`, oldest first. -/
  | descriptorComplete (n j : Nat)
  /-- After an abort, once the beats in flight have ended, the channel halts with ABORTED (R376). Of channel `n`. -/
  | abortHalt (n : Nat)
  /-- The command writes the descriptor address and fields of a channel, then GO (R389). -/
  | dmStart (c : Cmd)
  /-- The command kicks a WAITING channel (R389). -/
  | dmKick (c : Cmd)
  /-- The command aborts a channel and replies once it is HALTED (R389). -/
  | dmAbort (c : Cmd)
  /-- The query replies with the channel status and counters (R389). -/
  | dmStatus (c : Cmd)
  /-- A write into a request slot adds to its packet, or is ignored and logged when BUSY (R394). Into request slot `k` at a slot offset. -/
  | requestSlotWrite (r : Requester) (k off : Nat) (bs : List Byte)
  /-- A write of k to CP_MB_DB sets BUSY and checks the packet in slot k (R395). For slot `k`. -/
  | mailboxDoorbell (r : Requester) (k : Nat)
  /-- A write of 1 to REPLY[k] clears BUSY and REPLY of slot k (R395). The REPLY bits written. -/
  | mailboxReplyRelease (mask : Nat)
  /-- A write of CP_NT_H_RD or CP_NT_M_RD advances the reader and lets held notices be written (R396). Of the management or the host ring. -/
  | noticeRingReadAdvance (mgmt : Bool) (v : Word)
  /-- A write of CP_CNT_CLR.ALL clears every CP counter (R429). -/
  | cpCntClrAll
  /-- A management register-write transaction writes a BAR0 offset under R19 (R397). -/
  | mgmtRegisterWrite (off : Nat) (v : Word)
  /-- A management register-read transaction returns a 32-bit register (R397). -/
  | mgmtRegisterRead (off : Nat)
  /-- A management block-read transaction returns consecutive bytes from an offset (R397). `n` bytes. -/
  | mgmtBlockRead (off n : Nat)
  /-- A management slot-write transaction writes bytes into request slot 4 (R397). -/
  | mgmtSlotWrite (off : Nat) (bs : List Byte)
  /-- A management doorbell transaction rings slot 4 (R397). -/
  | mgmtDoorbell
  /-- A transaction with an unknown code byte is NACKed (R397). -/
  | mgmtUnknownCode (code : Nat)
  /-- A UDP datagram to the Pelusk port is taken as one packet and checked (R390). The oldest one that port `n` holds. -/
  | peluskDatagramReceived (n : Nat)
  /-- A BAR2 read returns DRAM data at CP_AP_BASE plus offset, or Unsupported Request beyond the installed size (R392). The read `r` at BAR2 offset `o`. -/
  | bar2Read (o : Nat) (r : MemRead)
  /-- A BAR2 write reaches DRAM, or is dropped whole and logged (R392). At BAR2 offset `o`. -/
  | bar2Write (o : Nat) (bs : List Byte)
  /-- An FLR aborts DMA channels, frees mailbox slots 0–3 and empties the host notice ring (R393). -/
  | functionLevelReset
  /-- A loss of the PCIe link without an FLR changes nothing in the device (R393). -/
  | pcieLinkLoss
  /-- The query replies with system status, firmware, life-cycle state and uptime (R415). -/
  | sysInfo (c : Cmd)
  /-- The command replies OK, then restarts Nieth as a warm reset (R424). -/
  | sysResetWarm (c : Cmd)
  /-- The command replies OK, then powers the compute dies down and up (R425). -/
  | sysResetCompute (c : Cmd)
  /-- The command clears the sender's sequence state and cache (R406). -/
  | sysSession (c : Cmd)
  /-- In a start-up profile script, the command writes the profile fields of registers (R415). -/
  | sysRegWrite (c : Cmd)
  /-- The command moves the BAR2 DRAM base (R392). -/
  | sysAperture (c : Cmd)
  /-- The query lists scheduler entries in firing order (R415). -/
  | scList (c : Cmd)
  /-- The command removes an event before its commit point (R411). -/
  | scCancel (c : Cmd)
  /-- The command accumulates a profile image and checks and stores it on the last chunk (R417). -/
  | profStore (c : Cmd)
  /-- The scheduled command queues a profile activation (R422). -/
  | profActivate (c : Cmd)
  /-- The query lists the four profiles with their measurements (R415). -/
  | profList (c : Cmd)
  /-- A write of SC_CNT_CLR.ALL clears every SC counter (R430). -/
  | scCntClrAll
  /-- After a warm reset, Nieth serves again and takes the held packets in order of arrival (R424). -/
  | niethServing
  /-- The compute dies are powered again, and integrations resume at the next grid boundary (R425). -/
  | computeRestartDone
  /-- VIN at or above 8.8 V for 10 ms starts the power-on sequence (R460). VIN has stayed at or above 8.8 V for 10 ms; PROF[1:0] as sampled at step 2, or not yet stable (R460, R542). -/
  | vinValid (pins : Option Nat)
  /-- RESET_N held low past its 10 µs filter asserts cold reset (R541). -/
  | coldResetAssert
  /-- RESET_N released past its filter starts the start-up sequence (R426). RESET_N is released past its filter; PROF[1:0] as sampled at step 2, or not yet stable (R426, R542). -/
  | coldResetRelease (pins : Option Nat)
  /-- Once the diode reads below 95 °C, the start-up sequence continues (R426). The diode's reading in 0.0625 °C. -/
  | startupDiodeOk (t : Int)
  /-- When every wipe item and the start-up check are done, the wipe count rises and the profile step runs (R511). Items of R510 that failed, channels that failed step 5 of R331, and the wipe's duration in ms. -/
  | wipeComplete (fails chans ms : Nat)
  /-- The selected source is QUALIFIED, with holdover trained when REF_WAIT is 2, and step 7 ends (R428). -/
  | refWaitDone
  /-- REF_WAIT_MAX expires, the sequence continues, and REF_WAIT_EXPIRED is set (R428). -/
  | refWaitExpire
  /-- Once ladders and source lock are done, the epoch is armed according to the profile's EPOCH field (R427). -/
  | startupEpochArm
  /-- PROF pins not stable within 10 ms make no profile run and log 0x0B09 (R542). PROF[1:0] has not been stable within 10 ms: its last four samples, newest in bits [1:0] (R542, R557). -/
  | profilePinsUnstable (samples : Nat)
  /-- A DATA block is accepted in sequence, or discarded with a NAK (R436). The 256 bytes of the block. -/
  | miltiaDataBlockReceived (b : List Byte)
  /-- An ACK block acknowledges DATA blocks (R436). The 256 bytes of the block. -/
  | miltiaAckBlockReceived (b : List Byte)
  /-- A LINK block carries ladder negotiation (R434). The 256 bytes of the block. -/
  | miltiaLinkBlockReceived (b : List Byte)
  /-- An IDLE block carries only its ACK field (R435). The 256 bytes of the block. -/
  | miltiaIdleBlockReceived (b : List Byte)
  /-- With nothing else to send, an ACK block goes out within 2 µs (R436). -/
  | miltiaAckTimer
  /-- 20 µs without ACK progress resends every unacknowledged block (R436). -/
  | miltiaResendTimeout
  /-- Loss of lock or 8 consecutive resends take the link down (R437). With the receive lanes still locked. -/
  | miltiaLinkDown (lock : Nat)
  /-- Without relock within 10 ms, the full ladder runs from L0 (R437). -/
  | miltiaRelockTimeout
  /-- The link comes up, SEQ restarts at 0, partial messages are resent whole, and a full checkpoint is sent (R437). At the rung reached by a ladder, with the peer's CKPT_VER and CKPT_MIN. -/
  | miltiaLinkUp (rung ver min_ : Nat)
  /-- Every 10 µs, a heartbeat word is sent on each of the three paths (R446). -/
  | heartbeatSend
  /-- A heartbeat word on a path is validated and updates the peer state and epoch (R448). On path `p`: 0 the bytes of a HEARTBEAT block, 1 the sync byte and bytes 2–15 on the pins, 2 the oldest beacon that port `n` holds. -/
  | heartbeatWordReceived (p n : Nat) (bs : List Byte)
  /-- A path with no valid word for 30 µs goes down (R448). Of path `p`: 0 Miltia, 1 pins, 2 beacon. -/
  | hbPathTimeout (p : Nat)
  /-- A standby with no ACTIVE word for 30 µs, or after a FENCED word, promotes with a new epoch (R449). -/
  | promotion
  /-- 1 ms after a fence, the unit enters LAMPBLACK or WARM (R451). -/
  | fenceSettle
  /-- A unit stops holding its lease at END − g, and the active fences (R450). -/
  | leaseExpire
  /-- Every 60 s, the active sends a full checkpoint (R438). -/
  | checkpointFullSend
  /-- Every 50 ms in LAMPBLACK, the next Verdigris item is powered and tested (R444). -/
  | verdigrisItemStart
  /-- An item's signature comparison completes and updates the health report (R444). Whether its signature matches. -/
  | verdigrisItemDone (pass : Bool)
  /-- The compute dies are powered and the last checkpoint applied after promotion (R452). -/
  | takeoverComputeReady
  /-- At the next spectrum boundary, slices start as a rejoin and new-epoch outputs begin (R452). -/
  | takeoverBoundary
  /-- 150 µs after S, the old active discards frames not yet started (R454). -/
  | handoverDiscardQueued
  /-- The query replies with the pair status (R459). -/
  | roleStatus (c : Cmd)
  /-- The command sets ML_CTL and the beacon address (R459). -/
  | roleConfig (c : Cmd)
  /-- The command sets the lease (R459). -/
  | roleLease (c : Cmd)
  /-- The command starts moving a standby to WARM or back to LAMPBLACK (R453). -/
  | roleWarm (c : Cmd)
  /-- The WARM or LAMPBLACK change completes and its final reply is sent (R453). -/
  | roleWarmDone
  /-- The scheduled command is relayed to the peer and queues a planned handover (R454). -/
  | roleHandover (c : Cmd)
  /-- The command fences an ACTIVE unit (R459). -/
  | roleFence (c : Cmd)
  /-- The command relays a Pelusk packet to the peer (R459). -/
  | mlRelay (c : Cmd)
  /-- The peer's reply arrives and is sent as the final reply (R459). -/
  | mlRelayReply
  /-- The query replies with the health report (R445). -/
  | roleHealth (c : Cmd)
  /-- The command restarts the Miltia ladder (R459). -/
  | mlLadder (c : Cmd)
  /-- A write of ML_CNT_CLR.ALL clears every ML counter (R458). -/
  | mlCntClrAll
  /-- VIN below 8.5 V sets POWER_WARN and writes a power-fail log entry (R461). VIN in units of 10 mV. -/
  | vinPowerWarn (vin : Nat)
  /-- VIN below 8.2 V for 20 µs switches off every rail (R460). -/
  | undervoltageLockout
  /-- VIN above 63 V for 1 µs switches off every rail (R460). -/
  | overvoltageLockout
  /-- An over-current on V3P3_AUX switches it off, counts it and sets FAULT (R464). Voltage and current of V3P3_AUX, in units of 10 mV and 10 mA. -/
  | auxRailFault (v a : Nat)
  /-- Every 1 s, a faulted V3P3_AUX is retried (R464). Whether the rail holds; else its voltage and current. -/
  | auxRailRetry (ok : Bool) (v a : Nat)
  /-- An open memory-rail sense wire moves regulation to the internal point and sets SNS_OPEN (R465). Rail 9, 10 or 11. -/
  | senseWireOpen (r : Nat)
  /-- A sag of more than 35 mV within 50 ns stretches the die's stretchable clocks to 1.25 times (R468). Droop sensor: 0 the I/O-and-control die, 1 and 2 compute dies 0 and 1. -/
  | droopSag (d : Nat)
  /-- After 2 µs within 15 mV of the set point, the stretch ends (R469). Droop sensor, and how long the stretch lasted in µs. -/
  | droopStretchEnd (d us : Nat)
  /-- Every 10 ms, every powered sensor, the diode, VIN, current, rails and thermistor are read (R472). Readings of TS0–TS63 (none: no answer), the diode, VIN, IIN, PIN, the rails within tolerance, and the thermistor: 0 with its reading, 1 open, 2 shorted. -/
  | slowRound (raws : List (Option Int)) (diode : Int) (vin iin pin good bth : Nat) (board : Int)
  /-- Every 100 µs, a sensor within 8 °C of a limit is read on its own (R472). Reading of TSn. -/
  | fastReading (n : Nat) (raw : Option Int)
  /-- K_S rises each 1 ms while a compute die is at step 7 and hot, and falls each 100 ms otherwise (R477). -/
  | ksStepTick
  /-- Once the shutdown entry is written, VCORE_C0 and VCORE_C1 switch off (R481). -/
  | shutdownLogWritten
  /-- After a critical shutdown, housekeeping restarts the device as a power-on (R486). Housekeeping reads the diode after a critical shutdown, in 0.0625 °C, and restarts the device where R486 lets it; PROF[1:0] as sampled at step 2. -/
  | criticalRestart (diode : Int) (pins : Option Nat)
  /-- The query replies with the power status and counters (R488). -/
  | pwStatus (c : Cmd)
  /-- The query replies with PW_TS0–63 (R488). -/
  | pwTempRead (c : Cmd)
  /-- The command sets PW_CTL and PW_SLEW (R488). -/
  | pwConfig (c : Cmd)
  /-- The command recovers from COMPUTE_OFF or CORE_STOP (R485). -/
  | pwRestart (c : Cmd)
  /-- The query replies with event-log entries (R488). -/
  | pwLogRead (c : Cmd)
  /-- The command takes a diode reading at once (R488). The diode's reading in units of 0.0625 °C. -/
  | pwDiodeRead (c : Cmd) (diode : Int)
  /-- A write of PW_CNT_CLR.ALL clears every PW counter (R487). -/
  | pwCntClrAll
  /-- The command accumulates a firmware image and checks and writes the inactive slot on the last chunk (R497). -/
  | fwStore (c : Cmd)
  /-- The scheduled command queues a firmware activation (R498). -/
  | fwActivate (c : Cmd)
  /-- The new Nieth serves commands and sends the activation's completion notice (R499). -/
  | niethHandoffDone
  /-- The command commits the trial slot and may raise SVN_MIN (R500). -/
  | fwCommit (c : Cmd)
  /-- 3,600 s after TRIAL without a fault, the trial slot is committed (R500). -/
  | trialAutoCommit
  /-- A watchdog fault is a warm reset, rolling back from a trial slot (R500). -/
  | watchdogFault
  /-- A lockstep fault is a warm reset, rolling back from a trial slot (R500). -/
  | lockstepFault
  /-- The query lists the firmware slots (R516). -/
  | fwList (c : Cmd)
  /-- The query replies with the life-cycle and firmware status (R516). -/
  | lcStatus (c : Cmd)
  /-- The query replies with the identity and owner public keys (R516). -/
  | lcIdentity (c : Cmd)
  /-- The command issues a new live nonce (R505). -/
  | lcNonce (c : Cmd)
  /-- The command generates the identity key and enrols the owner key (R507). -/
  | lcProvision (c : Cmd)
  /-- The command starts an authorised life-cycle transition (R507). -/
  | lcTransition (c : Cmd)
  /-- The command starts replacing the owner key in MAINTENANCE (R508). -/
  | lcOwnerRotate (c : Cmd)
  /-- The new state is written, logged, and the final reply sent (R507). Whether the entropy source passed its health tests while LC_PROVISION generated a key. -/
  | lcTransitionDone (entropyOk : Bool)
  /-- 100 ms after the final reply, the device runs a cold reset with a wipe (R507). 100 ms after a transition's final reply; PROF[1:0] as sampled at step 2 (R507). -/
  | transitionReset (pins : Option Nat)
  /-- A nonce stops being live 600 s after issue (R505). -/
  | nonceExpire
  /-- The query returns a signed attestation report (R513). -/
  | lcAttest (c : Cmd)
  /-- PE_PERST_N asserted in operation takes the link down with the effects of an FLR (R546). -/
  | pePerstAssert
  /-- PE_PERST_N released makes the endpoint answer configuration requests (R546). -/
  | pePerstRelease
  /-- A pad disagreeing with its drive for 1 µs sets its PW_PAD bit and logs 0x0B08 (R544). Bit of PW_PAD, the driven level and the ball's level or common mode. -/
  | padFault (b driven ball : Nat)
  /-- A TAP instruction permitted in the life-cycle state is executed (R530). 0 IDCODE, 1 BYPASS, 2 SAMPLE, 3 PRELOAD, 4 EXTEST. -/
  | tapInstruction (n : Nat)
  /-- A W1C write clears interrupt bits of vectors 32–47 (R554). -/
  | evIntStatClear (v : Word)
  /-- A write of EV_INT_EN enables vectors, signalling those whose status bit is set (R554). -/
  | evIntEnWrite (v : Word)
  /-- A W1C write clears slice exception bits (R555). Of register EV_MD_EXCq. -/
  | evMdExcClear (q : Nat) (v : Word)
  /-- A W1C write clears slice event bits (R555). Of register EV_MD_EVTq. -/
  | evMdEvtClear (q : Nat) (v : Word)
  /-- Unmasking a vector in the MSI-X table sends its pending message (R554). -/
  | msixUnmask (v : Nat)
  /-- On a lane in PRBS mode, the checker synchronises to the received pattern within 64 bits, sets POL for an inverted pattern, and counts each bit that differs (R97). -/
  | prbsPatternReceived (o j : Nat) (bs : List Bool)
  /-- Woad's reads of a staging half end, and the half is released for refilling when the Indigo pass on it has also ended (R177). -/
  | woadPassEnd
  /-- Every 100 ms while no integration runs, the active sends a state record to the standby (R438). -/
  | stateRecordPeriod
  /-- When the ATC reaches the lease START, the unit begins to hold its lease, and a standby whose heartbeat condition already holds may promote (R450). -/
  | leaseStart
  /-- An UNPAIRED unit made paired by ROLE_CONFIG that hears no ACTIVE word within 30 µs enters ACTIVE with the epoch of R432 (R459). -/
  | pairingWaitExpire
  /-- When VIN exceeds 6.0 V, VHK and housekeeping are powered, the diode becomes readable, and every signal ball is held at high impedance with its termination (R460). -/
  | housekeepingPowerOn
  deriving DecidableEq, Repr

end Sys2Proof
end

