-- ==== Sys2Proof/Machine/Bytes.lean ====
section
/-! DEFINITION. Byte orders (R22, R23), bit fields of words, and the CRCs the specification defines. -/

namespace Sys2Proof.Machine

/-- `n` bytes of `v`, most significant first: the order of a link (R22). -/
def be : Nat → Nat → List Byte
  | 0, _ => []
  | n + 1, v => BitVec.ofNat 8 (v / 256 ^ n) :: be n v

/-- `n` bytes of `v`, least significant first: the order of a memory structure (R22). -/
def le : Nat → Nat → List Byte
  | 0, _ => []
  | n + 1, v => BitVec.ofNat 8 v :: le n (v / 256)

/-- The number that bytes sent most significant first carry. -/
def beVal (bs : List Byte) : Nat := bs.foldl (fun a b => a * 256 + b.toNat) 0

/-- The number that bytes stored least significant first hold. -/
def leVal : List Byte → Nat
  | [] => 0
  | b :: bs => b.toNat + 256 * leVal bs

/-- `n` bytes from offset `o`, zero where the list is shorter. -/
def slice (bs : List Byte) (o n : Nat) : List Byte :=
  let t := (bs.drop o).take n
  t ++ List.replicate (n - t.length) 0

/-- The number that `n` bytes from offset `o` carry on a link. -/
def beAt (bs : List Byte) (o n : Nat) : Nat := beVal (slice bs o n)

/-- The number that `n` bytes from offset `o` hold in a memory structure. -/
def leAt (bs : List Byte) (o n : Nat) : Nat := leVal (slice bs o n)

/-- Words as bytes, each word most significant byte first. -/
def wordsBE (ws : List Word) : List Byte := ws.flatMap fun w => be 4 w.toNat

/-- Words as bytes, each word least significant byte first. -/
def wordsLE (ws : List Word) : List Byte := ws.flatMap fun w => le 4 w.toNat

/-- `n` words read from bytes sent most significant byte first. -/
def bytesToWordsBE (bs : List Byte) : Nat → List Word
  | 0 => []
  | n + 1 => BitVec.ofNat 32 (beAt bs 0 4) :: bytesToWordsBE (bs.drop 4) n

/-- `n` words read from a memory structure. -/
def bytesToWordsLE (bs : List Byte) : Nat → List Word
  | 0 => []
  | n + 1 => BitVec.ofNat 32 (leAt bs 0 4) :: bytesToWordsLE (bs.drop 4) n

/-- Bytes as words in byte order, the last padded with zeros: byte 0 of a word is its most significant on a link. -/
def packWordsBE (bs : List Byte) : List Word := bytesToWordsBE bs ((bs.length + 3) / 4)

/-- Bits `hi` to `lo` of a number. -/
def bits (v hi lo : Nat) : Nat := v / 2 ^ lo % 2 ^ (hi + 1 - lo)

/-- Bit `i` of a number. -/
def bit (v i : Nat) : Bool := v / 2 ^ i % 2 == 1

/-- A number with bit `i` set. -/
def setBit (v i : Nat) : Nat := if bit v i then v else v + 2 ^ i

/-- A number with bit `i` clear. -/
def clrBit (v i : Nat) : Nat := if bit v i then v - 2 ^ i else v

/-- 1 for true. -/
def b2n (b : Bool) : Nat := if b then 1 else 0

/-- `v` as a signed number of `w` bits. -/
def sext (w v : Nat) : Int := if v % 2 ^ w < 2 ^ (w - 1) then (v % 2 ^ w : Nat) else (v % 2 ^ w : Nat) - 2 ^ w

/-- A signed number as `w` bits. -/
def toBits (w : Nat) (x : Int) : Nat := (x % 2 ^ w).toNat

/-- A signed number held within `w` bits, and whether it had to be (saturation). -/
def satS (w : Nat) (x : Int) : Int := max (-(2 ^ (w - 1))) (min (2 ^ (w - 1) - 1) x)

/-- Ceiling of a quotient; 0 for a zero divisor. -/
def cdiv (a b : Nat) : Nat := (a + b - 1) / b

/-- One bit step of a reflected CRC with polynomial `p`. -/
def crcStep (p c : Nat) : Nat := if c % 2 = 1 then Nat.xor (c / 2) p else c / 2

/-- One byte of a reflected CRC. -/
def crcByte (p c : Nat) (b : Byte) : Nat :=
  crcStep p (crcStep p (crcStep p (crcStep p (crcStep p (crcStep p (crcStep p (crcStep p (Nat.xor c b.toNat))))))))

/-- CRC-32C of R283: Castagnoli polynomial, reflected, initial value and final XOR all ones. -/
def crc32c (bs : List Byte) : Nat := Nat.xor (bs.foldl (crcByte 0x82F63B78) 0xFFFFFFFF) 0xFFFFFFFF

/-- The CRC-32 of IEEE 802.3, as the FCS uses it (R267, R272). -/
def crc32 (bs : List Byte) : Nat := Nat.xor (bs.foldl (crcByte 0xEDB88320) 0xFFFFFFFF) 0xFFFFFFFF

/-- One bit step of the CRC16 of R71. -/
def crc16Step (c : Nat) : Nat := if c / 32768 % 2 = 1 then Nat.xor (c * 2 % 65536) 0x1021 else c * 2 % 65536

/-- One byte of the CRC16 of R71. -/
def crc16Byte (c : Nat) (b : Byte) : Nat :=
  crc16Step (crc16Step (crc16Step (crc16Step (crc16Step (crc16Step (crc16Step (crc16Step (Nat.xor c (b.toNat * 256)))))))))

/-- CRC16 of R71 from a running value: polynomial 0x1021, no reflection, no final XOR. The initial value is 0xFFFF. -/
def crc16 (c : Nat) (bs : List Byte) : Nat := bs.foldl crc16Byte c

/-- The 16-bit ones' complement sum that IPv4 uses (RFC 791). -/
def onesSum : List Byte → Nat → Nat
  | [], a => a
  | [x], a => let t := a + x.toNat * 256; t % 65536 + t / 65536
  | x :: y :: r, a => let t := a + x.toNat * 256 + y.toNat; onesSum r (t % 65536 + t / 65536)

end Sys2Proof.Machine
end

