-- ==== Sys2Proof/Config.lean ====
section
/-! DEFINITION. What the specification leaves to the part or leaves open: constants without a body, so that no proof can see their value. -/

namespace Sys2Proof.Config

/-- GLB_UID bits [31:0] and [63:32], fixed at manufacture (R550). -/
opaque uidLo : Word
opaque uidHi : Word

/-- The retry delay in µs that a BUSY reply carries (R403, R407): the specification gives no value. -/
opaque retryDelay : Nat → Word

/-- SHAKE256 of FIPS 202 with 512-bit output, as 16 words in byte order (R489). -/
opaque shake256 : List Byte → List Word

/-- Falcon-1024 verification of a signature over bytes under a public key (R489). -/
opaque falconVerify : List Byte → List Byte → List Byte → Bool

/-- A Falcon-1024 signature in padded format, made by the device's identity key (R489, R513). -/
opaque falconSign : List Byte → List Byte → List Byte

/-- The identity public key that the entropy source yields at the n-th generation, 1,793 bytes (R491). -/
opaque identityKey : Nat → List Byte

/-- The words of the n-th nonce (R505). -/
opaque nonceWord : Nat → Nat → Word

/-- The public key that a firmware image presents (R494): the image layout of R493 names no place for it. -/
opaque presentedKey : List Byte → List Byte

/-- SHAKE256 digests of the two vendor keys in the boot ROM (R490). -/
opaque vendorDigest : Nat → List Word

/-- Measurement of the firmware image that the device was made with. -/
opaque factoryMeasurement : List Word

/-- IPv4 identification, time to live and type of service of the frames the device builds: the specification gives none (R274). -/
opaque ipIdent : Nat → Nat
opaque ipTtl : Nat
opaque ipTos : Nat

/-- Error of the standard program's z[k] for the 32,768 samples of a window: real and imaginary part, in units of 2^-40 CU. R153 bounds it and gives no value. -/
opaque chanError : List Int → Nat → Int × Int

/-- The lane that VSUB with M[0] = 1 leaves for the one difference whose half rounds to 131,072, outside a lane (R114). -/
opaque halfOver : Int

/-- The phase of channel `k` that Woad's accumulator holds, less the exact phase, in units of 2^-48 turn, for a first phase and a step in those units; R216 bounds it by 2^-24 turn. -/
opaque phaseError : Rat → Rat → Int × Int

/-- Spectra of the n-th abandoned pass that Woad had formed by its deadline (R230). -/
opaque formedBy : Nat → Nat

/-- What the n-th commissioning sweep finds on a lane of a channel: whether RD step s passes at VREF v and WR guess w, and whether WR step s passes (R362). -/
opaque sweepRd : Nat → Nat → Nat → Nat → Nat → Nat → Bool
opaque sweepWr : Nat → Nat → Nat → Nat → Bool

/-- The result word of the n-th sweep for a channel of its mask that is not populated: the specification gives none. -/
opaque sweepAbsent : Nat → Nat → BitVec 32

/-- The memory rail that faults in the n-th free draw, 0 to 2 for VMEM_EXT, VMEM_CORE and VMEM_Q, and the voltage and current that it shows: MEMORY_RAIL_FAULT carries none of them (R330, R557). -/
opaque railFault : Nat → Nat × Nat × Nat

/-- The byte that the n-th sweep leaves at a DRAM address of the test area (R361). -/
opaque sweepByte : Nat → Nat → BitVec 8

/-- What TM_SRC_OFFS (0) and TM_SRC_DRIFT.DRIFT (1) read for a measured value that their two's complement does not hold. -/
opaque overRange : Nat → Int → Nat

/-- What LEAD reads for a lead that its 16 bits do not hold (R100). -/
opaque leadOver : Nat → Nat

/-- The filtered offset of a PTP domain in ns after its n-th measurement of a free run, which found the given offset: R300 names the filter and gives no law for it. -/
opaque ptpFilter : Nat → Int → Int

/-- The rate that the n-th update of the PTP servo sets, in units of 10^-9 ns per Saffron cycle; R321 bounds it. -/
opaque ptpServo : Nat → Int

/-- Port identity of the device in a PTP domain, 80 bits: the specification gives none. -/
opaque portIdentity : Nat → Nat

/-- ATC of the peer's promotion that the n-th free value of a fence logs: a heartbeat word carries none (R456). -/
opaque dualStart : Nat → Nat

/-- Cause that the log gives for a critical shutdown of the power-conversion die: PW_STAT.CAUSE has no encoding for it (R483, R557). -/
opaque powerDieCause : Nat

/-- Hottest sensor reading that PW_DIODE_READ reports while no sensor is available (R488). -/
opaque noHottest : Nat → Word

/-- Which of the blocks that its spectra lack a SEQ of the n-th GONE is: the specification does not order the blocks of a stream (R287, R293). -/
opaque ctGoneAt : Nat → Nat

/-- The i-th of the four halfwords of Y memory in which the standard program keeps a group's RMS sum and exponent, and what it takes from four halfwords that another program has written there: the specification gives the region and no layout of it (R155). -/
opaque scaleHalf : Nat → Nat → Nat → Nat
opaque scaleOf : List Nat → Nat × Nat

end Sys2Proof.Config
end

