-- ==== Sys2Proof/Machine/Regs.lean ====
section
/-! DEFINITION. The register map: every register of the device at its BAR0 offset, with its fields, their access codes and their reset values (R13 to R19, R556).
A register is a function of its indices to its offset, and a field is its lowest bit and its width. -/

namespace Sys2Proof.Machine

/-- A field of a register: its lowest bit and its width. -/
structure Fld where
  lo : Nat
  w : Nat
  deriving DecidableEq, Repr

/-- The access codes of R14. RWS is stored as `rw`: no field of the map carries it. -/
inductive Acc where
  | rw | ro | wo | w1c | w1s
  deriving DecidableEq, Repr

/-- A field as its register table lists it: place, access, whether its Reset column reads FW and belongs to the profile, and the encodings it defines (no range listed: every encoding). -/
structure FieldDesc where
  fld : Fld
  acc : Acc
  profile : Bool
  enc : List (Nat × Nat)
  deriving DecidableEq, Repr

/-- A register of R556: the offset of its first copy, the counts and strides of its indices, whether the host may write it (R19), its Reset column (R16) and its fields. -/
structure RegDesc where
  base : Nat
  dims : List (Nat × Nat)
  host : Bool
  rst : Nat
  fields : List FieldDesc
  deriving DecidableEq, Repr

/-- R550, 17_register_map.md. -/
def GLB_ID : Nat := 0x0
def GLB_ID_VENDOR : Fld := ⟨16, 16⟩
def GLB_ID_PART : Fld := ⟨0, 16⟩
/-- R550, 17_register_map.md. -/
def GLB_REV : Nat := 0x4
def GLB_REV_IO_STEP : Fld := ⟨24, 8⟩
def GLB_REV_CD_STEP : Fld := ⟨16, 8⟩
def GLB_REV_PW_STEP : Fld := ⟨8, 8⟩
def GLB_REV_PKG : Fld := ⟨0, 8⟩
/-- R550, 17_register_map.md. -/
def GLB_UID_LO : Nat := 0x8
def GLB_UID_LO_UID : Fld := ⟨0, 32⟩
/-- R550, 17_register_map.md. -/
def GLB_UID_HI : Nat := 0xC
def GLB_UID_HI_UID : Fld := ⟨0, 32⟩
/-- R550, 17_register_map.md. -/
def GLB_CAP : Nat := 0x10
def GLB_CAP_SLICES : Fld := ⟨24, 8⟩
def GLB_CAP_TILES_M1 : Fld := ⟨12, 12⟩
def GLB_CAP_PORTS : Fld := ⟨8, 4⟩
def GLB_CAP_NCH : Fld := ⟨0, 5⟩
/-- R550, 17_register_map.md. -/
def GLB_RST_STAT : Nat := 0x20
def GLB_RST_STAT_WARM : Fld := ⟨24, 8⟩
def GLB_RST_STAT_COMPUTE : Fld := ⟨16, 8⟩
def GLB_RST_STAT_FLR : Fld := ⟨8, 8⟩
def GLB_RST_STAT_PERST : Fld := ⟨0, 8⟩
/-- R551, 17_register_map.md. -/
def GLB_AV_STAT : Nat := 0x40
def GLB_AV_STAT_VALID : Fld := ⟨31, 1⟩
def GLB_AV_STAT_SRC : Fld := ⟨28, 3⟩
def GLB_AV_STAT_KIND : Fld := ⟨24, 4⟩
/-- R551, 17_register_map.md. -/
def GLB_AV_ADDR_LO : Nat := 0x44
def GLB_AV_ADDR_LO_ADDR : Fld := ⟨0, 32⟩
/-- R551, 17_register_map.md. -/
def GLB_AV_ADDR_HI : Nat := 0x48
def GLB_AV_ADDR_HI_ADDR : Fld := ⟨0, 32⟩
/-- R551, 17_register_map.md. -/
def GLB_AV_DATA : Nat := 0x4C
def GLB_AV_DATA_DATA : Fld := ⟨0, 32⟩
/-- R551, 17_register_map.md. -/
def GLB_AV_COUNT : Nat := 0x50
def GLB_AV_COUNT_COUNT : Fld := ⟨0, 32⟩
/-- R551, 17_register_map.md, host-writable. -/
def GLB_CNT_CLR : Nat := 0x54
def GLB_CNT_CLR_AV : Fld := ⟨31, 1⟩
/-- R100, 02_sample_lanes.md. -/
def SL_REL_STAT : Nat := 0x100000
def SL_REL_STAT_SET : Fld := ⟨31, 1⟩
def SL_REL_STAT_REL_RUNG : Fld := ⟨26, 2⟩
def SL_REL_STAT_SPREAD : Fld := ⟨0, 16⟩
/-- R100, 02_sample_lanes.md, host-writable. -/
def SL_CNT_CLR : Nat := 0x100010
def SL_CNT_CLR_ALL : Fld := ⟨31, 1⟩
def SL_CNT_CLR_GO : Fld := ⟨6, 1⟩
def SL_CNT_CLR_OCT : Fld := ⟨0, 6⟩
/-- R100, 02_sample_lanes.md. -/
def SL_OCT_CTL (o : Nat) : Nat := 0x101000 + 0x400 * o
def SL_OCT_CTL_TARGET_RUNG : Fld := ⟨30, 2⟩
def SL_OCT_CTL_FMT : Fld := ⟨29, 1⟩
def SL_OCT_CTL_RX_SLEEP : Fld := ⟨28, 1⟩
def SL_OCT_CTL_CTL_SLEEP : Fld := ⟨27, 1⟩
def SL_OCT_CTL_RELADDER : Fld := ⟨26, 1⟩
def SL_OCT_CTL_EXCLUDE_WEAK : Fld := ⟨25, 1⟩
/-- R100, 02_sample_lanes.md. -/
def SL_OCT_STAT (o : Nat) : Nat := 0x101004 + 0x400 * o
def SL_OCT_STAT_RUNG : Fld := ⟨30, 2⟩
def SL_OCT_STAT_STATE : Fld := ⟨27, 3⟩
def SL_OCT_STAT_FCK_LOSS : Fld := ⟨26, 1⟩
def SL_OCT_STAT_CTL_FAULT : Fld := ⟨25, 1⟩
def SL_OCT_STAT_ORDER_FAULT : Fld := ⟨24, 1⟩
def SL_OCT_STAT_OFFSET_CHANGED : Fld := ⟨23, 1⟩
def SL_OCT_STAT_FCK_LOST_SEEN : Fld := ⟨22, 1⟩
def SL_OCT_STAT_IN_SERVICE : Fld := ⟨0, 8⟩
/-- R100, 02_sample_lanes.md. -/
def SL_OCT_MAP (o : Nat) : Nat := 0x101008 + 0x400 * o
def SL_OCT_MAP_POL : Fld := ⟨24, 8⟩
def SL_OCT_MAP_MAP : Fld := ⟨0, 24⟩
/-- R100, 02_sample_lanes.md. -/
def SL_OCT_OFS_LO (o : Nat) : Nat := 0x10100C + 0x400 * o
def SL_OCT_OFS_LO_OFS : Fld := ⟨0, 32⟩
/-- R100, 02_sample_lanes.md. -/
def SL_OCT_OFS_HI (o : Nat) : Nat := 0x101010 + 0x400 * o
def SL_OCT_OFS_HI_OFS : Fld := ⟨0, 32⟩
/-- R100, 02_sample_lanes.md. -/
def SL_OCT_PRBS (o : Nat) : Nat := 0x101020 + 0x400 * o
def SL_OCT_PRBS_PAT : Fld := ⟨30, 2⟩
def SL_OCT_PRBS_GEN_EN : Fld := ⟨29, 1⟩
def SL_OCT_PRBS_CHK_EN : Fld := ⟨28, 1⟩
def SL_OCT_PRBS_INJ_ONE : Fld := ⟨27, 1⟩
def SL_OCT_PRBS_INJ_RATE : Fld := ⟨24, 3⟩
def SL_OCT_PRBS_CHK_INJ : Fld := ⟨23, 1⟩
def SL_OCT_PRBS_CHK_LANES : Fld := ⟨0, 8⟩
/-- R100, 02_sample_lanes.md. -/
def SL_OCT_CTLRETRY (o : Nat) : Nat := 0x101024 + 0x400 * o
def SL_OCT_CTLRETRY_COUNT : Fld := ⟨0, 32⟩
/-- R100, 02_sample_lanes.md. -/
def SL_LANE_STAT (o : Nat) (j : Nat) : Nat := 0x101100 + 0x400 * o + 0x20 * j
def SL_LANE_STAT_LOS : Fld := ⟨31, 1⟩
def SL_LANE_STAT_LOCK : Fld := ⟨30, 1⟩
def SL_LANE_STAT_EQ_FROZEN : Fld := ⟨29, 1⟩
def SL_LANE_STAT_SKEW_RANGE : Fld := ⟨28, 1⟩
def SL_LANE_STAT_SLIP : Fld := ⟨27, 1⟩
def SL_LANE_STAT_DEGRADED : Fld := ⟨26, 1⟩
def SL_LANE_STAT_EXCLUDED : Fld := ⟨25, 1⟩
def SL_LANE_STAT_LEAD : Fld := ⟨0, 16⟩
/-- R100, 02_sample_lanes.md. -/
def SL_LANE_CRCERR (o : Nat) (j : Nat) : Nat := 0x101104 + 0x400 * o + 0x20 * j
def SL_LANE_CRCERR_COUNT : Fld := ⟨0, 32⟩
/-- R100, 02_sample_lanes.md. -/
def SL_LANE_HDRERR (o : Nat) (j : Nat) : Nat := 0x101108 + 0x400 * o + 0x20 * j
def SL_LANE_HDRERR_COUNT : Fld := ⟨0, 32⟩
/-- R100, 02_sample_lanes.md. -/
def SL_LANE_LOCKLOSS (o : Nat) (j : Nat) : Nat := 0x10110C + 0x400 * o + 0x20 * j
def SL_LANE_LOCKLOSS_COUNT : Fld := ⟨0, 32⟩
/-- R100, 02_sample_lanes.md. -/
def SL_LANE_PRBSERR (o : Nat) (j : Nat) : Nat := 0x101110 + 0x400 * o + 0x20 * j
def SL_LANE_PRBSERR_COUNT : Fld := ⟨0, 32⟩
/-- R100, 02_sample_lanes.md. -/
def SL_LANE_OVR (o : Nat) (j : Nat) : Nat := 0x101114 + 0x400 * o + 0x20 * j
def SL_LANE_OVR_COUNT : Fld := ⟨0, 32⟩
/-- R144, 03_madder_slices.md. -/
def MD_STORE_STAT : Nat := 0x200000
def MD_STORE_STAT_VALID : Fld := ⟨0, 16⟩
/-- R144, 03_madder_slices.md, host-writable. -/
def MD_CNT_CLR : Nat := 0x200010
def MD_CNT_CLR_ALL : Fld := ⟨31, 1⟩
def MD_CNT_CLR_GO : Fld := ⟨6, 1⟩
def MD_CNT_CLR_SLICE : Fld := ⟨0, 6⟩
/-- R144, 03_madder_slices.md. -/
def MD_SL_CTL (o : Nat) : Nat := 0x201000 + 0x400 * o
def MD_SL_CTL_RUN : Fld := ⟨31, 1⟩
def MD_SL_CTL_AUTO_RESTART : Fld := ⟨30, 1⟩
def MD_SL_CTL_SLOT : Fld := ⟨0, 5⟩
/-- R144, 03_madder_slices.md. -/
def MD_SL_STAT (o : Nat) : Nat := 0x201004 + 0x400 * o
def MD_SL_STAT_STATE : Fld := ⟨29, 3⟩
def MD_SL_STAT_GOV : Fld := ⟨28, 1⟩
def MD_SL_STAT_SSAT : Fld := ⟨27, 1⟩
def MD_SL_STAT_ECC_CORR : Fld := ⟨26, 1⟩
/-- R144, 03_madder_slices.md. -/
def MD_SL_EXC (o : Nat) : Nat := 0x201008 + 0x400 * o
def MD_SL_EXC_CODE : Fld := ⟨24, 8⟩
def MD_SL_EXC_RESTARTS : Fld := ⟨20, 4⟩
def MD_SL_EXC_ADDR : Fld := ⟨0, 12⟩
/-- R144, 03_madder_slices.md. -/
def MD_SL_ST_LO (o : Nat) : Nat := 0x20100C + 0x400 * o
def MD_SL_ST_LO_ST : Fld := ⟨0, 32⟩
/-- R144, 03_madder_slices.md. -/
def MD_SL_ST_HI (o : Nat) : Nat := 0x201010 + 0x400 * o
def MD_SL_ST_HI_ST : Fld := ⟨0, 32⟩
/-- R144, 03_madder_slices.md. -/
def MD_SL_CYC (o : Nat) : Nat := 0x201014 + 0x400 * o
def MD_SL_CYC_MAX : Fld := ⟨16, 16⟩
def MD_SL_CYC_LAST : Fld := ⟨0, 16⟩
/-- R144, 03_madder_slices.md. -/
def MD_SL_GOVCNT (o : Nat) : Nat := 0x201018 + 0x400 * o
def MD_SL_GOVCNT_COUNT : Fld := ⟨0, 32⟩
/-- R144, 03_madder_slices.md. -/
def MD_SL_SATCNT (o : Nat) : Nat := 0x20101C + 0x400 * o
def MD_SL_SATCNT_COUNT : Fld := ⟨0, 32⟩
/-- R144, 03_madder_slices.md. -/
def MD_SL_ECCCNT (o : Nat) : Nat := 0x201020 + 0x400 * o
def MD_SL_ECCCNT_COUNT : Fld := ⟨0, 32⟩
/-- R144, 03_madder_slices.md. -/
def MD_SL_MARKCNT (o : Nat) : Nat := 0x201024 + 0x400 * o
def MD_SL_MARKCNT_COUNT : Fld := ⟨0, 32⟩
/-- R144, 03_madder_slices.md. -/
def MD_SL_EVT (o : Nat) : Nat := 0x201028 + 0x400 * o
def MD_SL_EVT_COUNT : Fld := ⟨16, 16⟩
def MD_SL_EVT_LAST : Fld := ⟨0, 16⟩
/-- R144, 03_madder_slices.md. -/
def MD_SL_RING_BASE_LO (o : Nat) : Nat := 0x201030 + 0x400 * o
def MD_SL_RING_BASE_LO_BASE : Fld := ⟨0, 32⟩
/-- R144, 03_madder_slices.md. -/
def MD_SL_RING_BASE_HI (o : Nat) : Nat := 0x201034 + 0x400 * o
def MD_SL_RING_BASE_HI_BASE : Fld := ⟨0, 32⟩
/-- R144, 03_madder_slices.md. -/
def MD_SL_RING_LEN (o : Nat) : Nat := 0x201038 + 0x400 * o
def MD_SL_RING_LEN_LEN : Fld := ⟨0, 32⟩
/-- R144, 03_madder_slices.md. -/
def MD_SL_RING_SEQ (o : Nat) : Nat := 0x20103C + 0x400 * o
def MD_SL_RING_SEQ_SEQ : Fld := ⟨0, 32⟩
/-- R144, 03_madder_slices.md. -/
def MD_PATH_DELAY (o : Nat) (j : Nat) : Nat := 0x201100 + 0x400 * o + 0x10 * j
def MD_PATH_DELAY_DELAY : Fld := ⟨0, 16⟩
/-- R144, 03_madder_slices.md. -/
def MD_PATH_STAT (o : Nat) (j : Nat) : Nat := 0x201104 + 0x400 * o + 0x10 * j
def MD_PATH_STAT_ARITH_SEEN : Fld := ⟨31, 1⟩
def MD_PATH_STAT_STALE_SEEN : Fld := ⟨30, 1⟩
def MD_PATH_STAT_DCONT_SEEN : Fld := ⟨29, 1⟩
/-- R169, 04_channelizer.md. -/
def MD_CH_TARGET : Nat := 0x240000
def MD_CH_TARGET_TARGET : Fld := ⟨0, 8⟩
/-- R169, 04_channelizer.md. -/
def MD_CH_EPOCH_LO : Nat := 0x240008
def MD_CH_EPOCH_LO_EPOCH : Fld := ⟨0, 32⟩
/-- R169, 04_channelizer.md. -/
def MD_CH_EPOCH_HI : Nat := 0x24000C
def MD_CH_EPOCH_HI_EPOCH : Fld := ⟨0, 32⟩
/-- R169, 04_channelizer.md. -/
def MD_CH_SL_STAT (o : Nat) : Nat := 0x241000 + 0x20 * o
def MD_CH_SL_STAT_BANK : Fld := ⟨31, 1⟩
def MD_CH_SL_STAT_COPYING : Fld := ⟨30, 1⟩
def MD_CH_SL_STAT_SWAP_QUEUED : Fld := ⟨29, 1⟩
def MD_CH_SL_STAT_SEEDED : Fld := ⟨0, 8⟩
/-- R169, 04_channelizer.md. -/
def MD_CH_SL_CLIPS (o : Nat) : Nat := 0x241004 + 0x20 * o
def MD_CH_SL_CLIPS_COUNT : Fld := ⟨0, 32⟩
/-- R169, 04_channelizer.md. -/
def MD_CH_SL_SEEDS (o : Nat) : Nat := 0x241008 + 0x20 * o
def MD_CH_SL_SEEDS_COUNT : Fld := ⟨0, 32⟩
/-- R169, 04_channelizer.md. -/
def MD_CH_SL_WARM (o : Nat) : Nat := 0x24100C + 0x20 * o
def MD_CH_SL_WARM_COUNT : Fld := ⟨0, 32⟩
/-- R204, 05_correlator.md. -/
def IX_CTL : Nat := 0x300000
def IX_CTL_RUN : Fld := ⟨31, 1⟩
def IX_CTL_FMT : Fld := ⟨30, 1⟩
def IX_CTL_EXPORT_ETH : Fld := ⟨29, 1⟩
/-- R204, 05_correlator.md. -/
def IX_STAT : Nat := 0x300004
def IX_STAT_STATE : Fld := ⟨30, 2⟩
def IX_STAT_OVERRUN_SEEN : Fld := ⟨29, 1⟩
def IX_STAT_SHED_SEEN : Fld := ⟨28, 1⟩
def IX_STAT_SAT_SEEN : Fld := ⟨27, 1⟩
def IX_STAT_DROP_SEEN : Fld := ⟨26, 1⟩
def IX_STAT_LOST_SEEN : Fld := ⟨25, 1⟩
/-- R204, 05_correlator.md. -/
def IX_BANK_STAT : Nat := 0x300008
def IX_BANK_STAT_OPEN : Fld := ⟨31, 1⟩
def IX_BANK_STAT_DRAINING : Fld := ⟨30, 1⟩
def IX_BANK_STAT_DRAIN_WAIT : Fld := ⟨29, 1⟩
def IX_BANK_STAT_DRAIN_LEFT : Fld := ⟨0, 28⟩
/-- R204, 05_correlator.md. -/
def IX_INT_LEN : Nat := 0x30000C
def IX_INT_LEN_NSPEC : Fld := ⟨0, 25⟩
/-- R204, 05_correlator.md. -/
def IX_INT_START_LO : Nat := 0x300010
def IX_INT_START_LO_START : Fld := ⟨0, 32⟩
/-- R204, 05_correlator.md. -/
def IX_INT_START_HI : Nat := 0x300014
def IX_INT_START_HI_START : Fld := ⟨0, 32⟩
/-- R204, 05_correlator.md. -/
def IX_NEXT_CLOSE_LO : Nat := 0x300018
def IX_NEXT_CLOSE_LO_CLOSE : Fld := ⟨0, 32⟩
/-- R204, 05_correlator.md. -/
def IX_NEXT_CLOSE_HI : Nat := 0x30001C
def IX_NEXT_CLOSE_HI_CLOSE : Fld := ⟨0, 32⟩
/-- R204, 05_correlator.md. -/
def IX_INT_SEQ : Nat := 0x300020
def IX_INT_SEQ_SEQ : Fld := ⟨0, 32⟩
/-- R204, 05_correlator.md. -/
def IX_STAGE : Nat := 0x300024
def IX_STAGE_T : Fld := ⟨0, 13⟩
/-- R204, 05_correlator.md. -/
def IX_STAGE_CH : Nat := 0x300028
def IX_STAGE_CH_FIRST : Fld := ⟨16, 16⟩
def IX_STAGE_CH_COUNT : Fld := ⟨0, 16⟩
/-- R204, 05_correlator.md. -/
def IX_SHED : Nat := 0x300038
def IX_SHED_DIE1 : Fld := ⟨4, 4⟩
def IX_SHED_DIE0 : Fld := ⟨0, 4⟩
/-- R204, 05_correlator.md. -/
def IX_DUMP_BASE_LO : Nat := 0x300040
def IX_DUMP_BASE_LO_BASE : Fld := ⟨0, 32⟩
/-- R204, 05_correlator.md. -/
def IX_DUMP_BASE_HI : Nat := 0x300044
def IX_DUMP_BASE_HI_BASE : Fld := ⟨0, 32⟩
/-- R204, 05_correlator.md. -/
def IX_DUMP_LEN : Nat := 0x300048
def IX_DUMP_LEN_LEN : Fld := ⟨0, 32⟩
/-- R204, 05_correlator.md. -/
def IX_DUMP_WR : Nat := 0x30004C
def IX_DUMP_WR_OFFSET : Fld := ⟨0, 32⟩
/-- R204, 05_correlator.md. -/
def IX_DUMP_RD : Nat := 0x300050
def IX_DUMP_RD_OFFSET : Fld := ⟨0, 32⟩
/-- R204, 05_correlator.md, host-writable. -/
def IX_CNT_CLR : Nat := 0x300060
def IX_CNT_CLR_ALL : Fld := ⟨31, 1⟩
def IX_CNT_CLR_SAT : Fld := ⟨30, 1⟩
/-- R204, 05_correlator.md. -/
def IX_OVERRUNS : Nat := 0x300064
def IX_OVERRUNS_COUNT : Fld := ⟨0, 32⟩
/-- R204, 05_correlator.md. -/
def IX_SHED_PASSES : Nat := 0x300068
def IX_SHED_PASSES_COUNT : Fld := ⟨0, 32⟩
/-- R204, 05_correlator.md. -/
def IX_STAGE_DROPS : Nat := 0x30006C
def IX_STAGE_DROPS_COUNT : Fld := ⟨0, 32⟩
/-- R204, 05_correlator.md. -/
def IX_SAT_ENTRIES : Nat := 0x300070
def IX_SAT_ENTRIES_COUNT : Fld := ⟨0, 32⟩
/-- R204, 05_correlator.md. -/
def IX_LOST_INTEG : Nat := 0x300074
def IX_LOST_INTEG_COUNT : Fld := ⟨0, 32⟩
/-- R204, 05_correlator.md. -/
def IX_UTIL (o : Nat) : Nat := 0x300030 + 0x4 * o
def IX_UTIL_U3 : Fld := ⟨24, 8⟩
def IX_UTIL_U2 : Fld := ⟨16, 8⟩
def IX_UTIL_U1 : Fld := ⟨8, 8⟩
def IX_UTIL_U0 : Fld := ⟨0, 8⟩
/-- R204, 05_correlator.md. -/
def IX_TILE_SAT (o : Nat) : Nat := 0x300100 + 0x4 * o
def IX_TILE_SAT_SAT : Fld := ⟨0, 32⟩
/-- R204, 05_correlator.md. -/
def IX_RG_CTL (o : Nat) : Nat := 0x301000 + 0x20 * o
def IX_RG_CTL_EN : Fld := ⟨31, 1⟩
def IX_RG_CTL_PRIO : Fld := ⟨29, 2⟩
def IX_RG_CTL_SAT_RISK : Fld := ⟨28, 1⟩
def IX_RG_CTL_N_BINS : Fld := ⟨8, 13⟩
def IX_RG_CTL_BIN_W : Fld := ⟨0, 8⟩
/-- R204, 05_correlator.md. -/
def IX_RG_BL_FIRST (o : Nat) : Nat := 0x301004 + 0x20 * o
def IX_RG_BL_FIRST_VALUE : Fld := ⟨0, 24⟩
/-- R204, 05_correlator.md. -/
def IX_RG_BL_COUNT (o : Nat) : Nat := 0x301008 + 0x20 * o
def IX_RG_BL_COUNT_VALUE : Fld := ⟨0, 24⟩
/-- R204, 05_correlator.md. -/
def IX_RG_CH (o : Nat) : Nat := 0x30100C + 0x20 * o
def IX_RG_CH_CH_FIRST : Fld := ⟨16, 12⟩
def IX_RG_CH_SPLIT_BIN : Fld := ⟨0, 13⟩
/-- R204, 05_correlator.md. -/
def IX_RG_VATBASE (o : Nat) : Nat := 0x301010 + 0x20 * o
def IX_RG_VATBASE_VATBASE : Fld := ⟨0, 25⟩
/-- R233, 06_beamformer.md. -/
def WD_CTL : Nat := 0x400000
def WD_CTL_RUN : Fld := ⟨31, 1⟩
def WD_CTL_SB : Fld := ⟨30, 1⟩
/-- R233, 06_beamformer.md. -/
def WD_STAT : Nat := 0x400004
def WD_STAT_SHED_SEEN : Fld := ⟨31, 1⟩
def WD_STAT_DROP_SEEN : Fld := ⟨30, 1⟩
def WD_STAT_POLY_AGE_SEEN : Fld := ⟨29, 1⟩
def WD_STAT_CLIP_SEEN : Fld := ⟨28, 1⟩
def WD_STAT_SHED : Fld := ⟨0, 4⟩
/-- R233, 06_beamformer.md. -/
def WD_CH : Nat := 0x400008
def WD_CH_FIRST : Fld := ⟨16, 12⟩
def WD_CH_COUNT : Fld := ⟨0, 13⟩
/-- R233, 06_beamformer.md. -/
def WD_FREQ_LO : Nat := 0x400010
def WD_FREQ_LO_F0 : Fld := ⟨0, 32⟩
/-- R233, 06_beamformer.md. -/
def WD_FREQ_HI : Nat := 0x400014
def WD_FREQ_HI_F0 : Fld := ⟨0, 32⟩
/-- R233, 06_beamformer.md. -/
def WD_TABLE : Nat := 0x400018
def WD_TABLE_ACTIVE : Fld := ⟨31, 1⟩
def WD_TABLE_LOADING : Fld := ⟨30, 1⟩
def WD_TABLE_COPYING : Fld := ⟨29, 1⟩
def WD_TABLE_SWAP_QUEUED : Fld := ⟨28, 1⟩
def WD_TABLE_SEG : Fld := ⟨0, 16⟩
/-- R233, 06_beamformer.md. -/
def WD_UTIL : Nat := 0x40001C
def WD_UTIL_U3 : Fld := ⟨24, 8⟩
def WD_UTIL_U2 : Fld := ⟨16, 8⟩
def WD_UTIL_U1 : Fld := ⟨8, 8⟩
def WD_UTIL_U0 : Fld := ⟨0, 8⟩
/-- R233, 06_beamformer.md, host-writable. -/
def WD_CNT_CLR : Nat := 0x400020
def WD_CNT_CLR_ALL : Fld := ⟨31, 1⟩
/-- R233, 06_beamformer.md. -/
def WD_DROP_SPEC : Nat := 0x400024
def WD_DROP_SPEC_COUNT : Fld := ⟨0, 32⟩
/-- R233, 06_beamformer.md. -/
def WD_SHED_PASSES : Nat := 0x400028
def WD_SHED_PASSES_COUNT : Fld := ⟨0, 32⟩
/-- R233, 06_beamformer.md. -/
def WD_CLIPS : Nat := 0x40002C
def WD_CLIPS_COUNT : Fld := ⟨0, 32⟩
/-- R233, 06_beamformer.md. -/
def WD_GAP_PKTS : Nat := 0x400030
def WD_GAP_PKTS_COUNT : Fld := ⟨0, 32⟩
/-- R233, 06_beamformer.md. -/
def WD_BM_CTL (o : Nat) : Nat := 0x401000 + 0x20 * o
def WD_BM_CTL_EN : Fld := ⟨31, 1⟩
def WD_BM_CTL_FMT : Fld := ⟨29, 2⟩
def WD_BM_CTL_PRIO : Fld := ⟨27, 2⟩
def WD_BM_CTL_SHIFT : Fld := ⟨23, 4⟩
def WD_BM_CTL_PORT : Fld := ⟨21, 2⟩
/-- R233, 06_beamformer.md. -/
def WD_BM_PKT (o : Nat) : Nat := 0x401004 + 0x20 * o
def WD_BM_PKT_CPK : Fld := ⟨29, 3⟩
def WD_BM_PKT_PBIN : Fld := ⟨25, 4⟩
def WD_BM_PKT_SPK : Fld := ⟨16, 6⟩
def WD_BM_PKT_NINT : Fld := ⟨0, 16⟩
/-- R233, 06_beamformer.md. -/
def WD_BM_DMAC_LO (o : Nat) : Nat := 0x401008 + 0x20 * o
def WD_BM_DMAC_LO_MAC : Fld := ⟨0, 32⟩
/-- R233, 06_beamformer.md. -/
def WD_BM_DMAC_HI (o : Nat) : Nat := 0x40100C + 0x20 * o
def WD_BM_DMAC_HI_MAC : Fld := ⟨0, 16⟩
/-- R233, 06_beamformer.md. -/
def WD_BM_DIP (o : Nat) : Nat := 0x401010 + 0x20 * o
def WD_BM_DIP_IP : Fld := ⟨0, 32⟩
/-- R233, 06_beamformer.md. -/
def WD_BM_UDP (o : Nat) : Nat := 0x401014 + 0x20 * o
def WD_BM_UDP_DPORT : Fld := ⟨16, 16⟩
def WD_BM_UDP_SPORT : Fld := ⟨0, 16⟩
/-- R233, 06_beamformer.md. -/
def WD_BM_SEQ (o : Nat) : Nat := 0x401018 + 0x20 * o
def WD_BM_SEQ_SEQ : Fld := ⟨0, 32⟩
/-- R263, 07_trigger.md. -/
def SF_CTL : Nat := 0x500000
def SF_CTL_RUN : Fld := ⟨31, 1⟩
def SF_CTL_STANDBY_OUT : Fld := ⟨30, 1⟩
def SF_CTL_MSG_PORTS : Fld := ⟨26, 4⟩
def SF_CTL_PW : Fld := ⟨0, 8⟩
/-- R263, 07_trigger.md. -/
def SF_STAT : Nat := 0x500004
def SF_STAT_CLIP_SEEN : Fld := ⟨31, 1⟩
def SF_STAT_COALESCE_SEEN : Fld := ⟨30, 1⟩
def SF_STAT_UNCHECKED_SEEN : Fld := ⟨29, 1⟩
def SF_STAT_TRIG_NOW : Fld := ⟨0, 8⟩
/-- R263, 07_trigger.md. -/
def SF_TRIGIN : Nat := 0x500008
def SF_TRIGIN_ARM_TGT : Fld := ⟨24, 8⟩
def SF_TRIGIN_VETO_TGT : Fld := ⟨16, 8⟩
def SF_TRIGIN_IN : Fld := ⟨0, 16⟩
/-- R263, 07_trigger.md. -/
def SF_TI_SUB : Nat := 0x50000C
def SF_TI_SUB_SUB : Fld := ⟨0, 32⟩
/-- R263, 07_trigger.md. -/
def SF_MSG_DMAC_LO : Nat := 0x500010
def SF_MSG_DMAC_LO_MAC : Fld := ⟨0, 32⟩
/-- R263, 07_trigger.md. -/
def SF_MSG_DMAC_HI : Nat := 0x500014
def SF_MSG_DMAC_HI_MAC : Fld := ⟨0, 16⟩
/-- R263, 07_trigger.md, host-writable. -/
def SF_CNT_CLR : Nat := 0x500020
def SF_CNT_CLR_ALL : Fld := ⟨31, 1⟩
/-- R263, 07_trigger.md. -/
def SF_MSGS : Nat := 0x500024
def SF_MSGS_COUNT : Fld := ⟨0, 32⟩
/-- R263, 07_trigger.md. -/
def SF_COALESCED : Nat := 0x500028
def SF_COALESCED_COUNT : Fld := ⟨0, 32⟩
/-- R263, 07_trigger.md. -/
def SF_SEL_CLIPS : Nat := 0x50002C
def SF_SEL_CLIPS_COUNT : Fld := ⟨0, 32⟩
/-- R263, 07_trigger.md. -/
def SF_TRIG (o : Nat) : Nat := 0x500040 + 0x4 * o
def SF_TRIG_EN : Fld := ⟨31, 1⟩
def SF_TRIG_POL : Fld := ⟨30, 1⟩
def SF_TRIG_MSG : Fld := ⟨29, 1⟩
def SF_TRIG_MASK : Fld := ⟨0, 24⟩
/-- R263, 07_trigger.md. -/
def SF_TI_ATC_LO (o : Nat) : Nat := 0x500060 + 0x8 * o
def SF_TI_ATC_LO_ATC : Fld := ⟨0, 32⟩
/-- R263, 07_trigger.md. -/
def SF_TI_ATC_HI (o : Nat) : Nat := 0x500064 + 0x8 * o
def SF_TI_ATC_HI_ATC : Fld := ⟨0, 32⟩
/-- R263, 07_trigger.md. -/
def SF_TB_CTL (o : Nat) : Nat := 0x501000 + 0x20 * o
def SF_TB_CTL_EN : Fld := ⟨31, 1⟩
def SF_TB_CTL_WSEL : Fld := ⟨29, 2⟩
def SF_TB_CTL_A : Fld := ⟨24, 5⟩
def SF_TB_CTL_K : Fld := ⟨8, 8⟩
/-- R263, 07_trigger.md. -/
def SF_TB_OFS (o : Nat) : Nat := 0x501004 + 0x20 * o
def SF_TB_OFS_OFS : Fld := ⟨0, 30⟩
/-- R263, 07_trigger.md. -/
def SF_TB_BASE (o : Nat) : Nat := 0x501008 + 0x20 * o
def SF_TB_BASE_BASE : Fld := ⟨0, 30⟩
/-- R263, 07_trigger.md. -/
def SF_TB_STAT (o : Nat) : Nat := 0x50100C + 0x20 * o
def SF_TB_STAT_TRAINING : Fld := ⟨31, 1⟩
def SF_TB_STAT_RETRAIN_SEEN : Fld := ⟨30, 1⟩
def SF_TB_STAT_FIRING : Fld := ⟨29, 1⟩
def SF_TB_STAT_ZERO_PATHS : Fld := ⟨0, 10⟩
/-- R263, 07_trigger.md. -/
def SF_TB_FIRES (o : Nat) : Nat := 0x501010 + 0x20 * o
def SF_TB_FIRES_COUNT : Fld := ⟨0, 32⟩
/-- R263, 07_trigger.md. -/
def SF_CU_CTL (o : Nat) : Nat := 0x501800 + 0x10 * o
def SF_CU_CTL_EN : Fld := ⟨31, 1⟩
def SF_CU_CTL_GSZ : Fld := ⟨29, 2⟩
def SF_CU_CTL_M : Fld := ⟨23, 6⟩
def SF_CU_CTL_CW : Fld := ⟨15, 8⟩
def SF_CU_CTL_FIRST : Fld := ⟨0, 9⟩
/-- R263, 07_trigger.md. -/
def SF_CU_FIRES (o : Nat) : Nat := 0x501804 + 0x10 * o
def SF_CU_FIRES_COUNT : Fld := ⟨0, 32⟩
/-- R263, 07_trigger.md. -/
def SF_PATH (o : Nat) : Nat := 0x502000 + 0x4 * o
def SF_PATH_HIT_EN : Fld := ⟨31, 1⟩
def SF_PATH_SEL : Fld := ⟨4, 4⟩
def SF_PATH_HLEV : Fld := ⟨0, 4⟩
/-- R263, 07_trigger.md. -/
def SF_TBP (o : Nat) : Nat := 0x540000 + 0x4 * o
def SF_TBP_WT : Fld := ⟨8, 2⟩
def SF_TBP_DELAY : Fld := ⟨0, 8⟩
/-- R263, 07_trigger.md. -/
def SF_TBP_ACT (o : Nat) : Nat := 0x560000 + 0x4 * o
def SF_TBP_ACT_WT : Fld := ⟨8, 2⟩
def SF_TBP_ACT_DELAY : Fld := ⟨0, 8⟩
/-- R263, 07_trigger.md. -/
def SF_UB_CTL : Nat := 0x580000
def SF_UB_CTL_EN : Fld := ⟨31, 1⟩
def SF_UB_CTL_FRZ_SRC : Fld := ⟨16, 12⟩
/-- R263, 07_trigger.md. -/
def SF_UB_STAT : Nat := 0x580004
def SF_UB_STAT_STATE : Fld := ⟨30, 2⟩
def SF_UB_STAT_CUT_SEEN : Fld := ⟨29, 1⟩
def SF_UB_STAT_CHG_HELD : Fld := ⟨28, 1⟩
def SF_UB_STAT_CHG_PENDING : Fld := ⟨27, 1⟩
def SF_UB_STAT_DROP_SEEN : Fld := ⟨26, 1⟩
/-- R263, 07_trigger.md, host-writable. -/
def SF_UB_BASE_LO : Nat := 0x580008
def SF_UB_BASE_LO_BASE : Fld := ⟨0, 32⟩
/-- R263, 07_trigger.md, host-writable. -/
def SF_UB_BASE_HI : Nat := 0x58000C
def SF_UB_BASE_HI_BASE : Fld := ⟨0, 32⟩
/-- R263, 07_trigger.md, host-writable. -/
def SF_UB_LEN : Nat := 0x580010
def SF_UB_LEN_LEN : Fld := ⟨0, 24⟩
/-- R263, 07_trigger.md. -/
def SF_UB_WR : Nat := 0x580014
def SF_UB_WR_VALUE : Fld := ⟨0, 24⟩
/-- R263, 07_trigger.md. -/
def SF_UB_SPAN : Nat := 0x580018
def SF_UB_SPAN_VALUE : Fld := ⟨0, 24⟩
/-- R263, 07_trigger.md. -/
def SF_UB_GEN : Nat := 0x58001C
def SF_UB_GEN_GEN : Fld := ⟨0, 16⟩
/-- R263, 07_trigger.md. -/
def SF_UB_FRZ_ATC_LO : Nat := 0x580020
def SF_UB_FRZ_ATC_LO_ATC : Fld := ⟨0, 32⟩
/-- R263, 07_trigger.md. -/
def SF_UB_FRZ_ATC_HI : Nat := 0x580024
def SF_UB_FRZ_ATC_HI_ATC : Fld := ⟨0, 32⟩
/-- R263, 07_trigger.md. -/
def SF_UB_FRZ_WR : Nat := 0x580028
def SF_UB_FRZ_WR_VALUE : Fld := ⟨0, 24⟩
/-- R263, 07_trigger.md. -/
def SF_UB_FRZ_SPAN : Nat := 0x58002C
def SF_UB_FRZ_SPAN_VALUE : Fld := ⟨0, 24⟩
/-- R263, 07_trigger.md, host-writable. -/
def SF_UB_ARM : Nat := 0x580030
def SF_UB_ARM_ARM : Fld := ⟨0, 1⟩
/-- R263, 07_trigger.md. -/
def SF_UB_SLAB : Nat := 0x580034
def SF_UB_SLAB_SLAB : Fld := ⟨0, 16⟩
/-- R263, 07_trigger.md. -/
def SF_UB_DROPS : Nat := 0x580038
def SF_UB_DROPS_COUNT : Fld := ⟨0, 32⟩
/-- R263, 07_trigger.md. -/
def SF_UB_FRZ_IGN : Nat := 0x58003C
def SF_UB_FRZ_IGN_COUNT : Fld := ⟨0, 32⟩
/-- R263, 07_trigger.md. -/
def SF_UB_CUT : Nat := 0x580040
def SF_UB_CUT_COUNT : Fld := ⟨0, 32⟩
/-- R263, 07_trigger.md. -/
def SF_UB_POST : Nat := 0x580044
def SF_UB_POST_POST : Fld := ⟨0, 24⟩
/-- R263, 07_trigger.md. -/
def SF_UB_SEL (o : Nat) : Nat := 0x580080 + 0x4 * o
def SF_UB_SEL_EN_B : Fld := ⟨31, 1⟩
def SF_UB_SEL_PATH_B : Fld := ⟨16, 9⟩
def SF_UB_SEL_EN_A : Fld := ⟨15, 1⟩
def SF_UB_SEL_PATH_A : Fld := ⟨0, 9⟩
/-- R298, 08_ethernet_corner_turn.md. -/
def ET_CT_CTL : Nat := 0x600000
def ET_CT_CTL_RUN : Fld := ⟨31, 1⟩
def ET_CT_CTL_MODE : Fld := ⟨29, 2⟩
def ET_CT_CTL_MEMBER : Fld := ⟨26, 3⟩
def ET_CT_CTL_PORTS : Fld := ⟨22, 4⟩
/-- R298, 08_ethernet_corner_turn.md. -/
def ET_CT_STAT : Nat := 0x600004
def ET_CT_STAT_LOSS_SEEN : Fld := ⟨31, 1⟩
def ET_CT_STAT_RESYNC_SEEN : Fld := ⟨30, 1⟩
def ET_CT_STAT_STALE_SEEN : Fld := ⟨29, 1⟩
def ET_CT_STAT_UNSENT_SEEN : Fld := ⟨28, 1⟩
def ET_CT_STAT_MISSING : Fld := ⟨0, 16⟩
/-- R298, 08_ethernet_corner_turn.md. -/
def ET_CT_GRACE : Nat := 0x600008
def ET_CT_GRACE_GRACE : Fld := ⟨0, 14⟩
/-- R298, 08_ethernet_corner_turn.md. -/
def ET_CT_NAK : Nat := 0x60000C
def ET_CT_NAK_REORDER : Fld := ⟨24, 8⟩
def ET_CT_NAK_DELAY : Fld := ⟨16, 8⟩
def ET_CT_NAK_RETRY : Fld := ⟨8, 8⟩
/-- R298, 08_ethernet_corner_turn.md, host-writable. -/
def ET_CNT_CLR : Nat := 0x600010
def ET_CNT_CLR_ALL : Fld := ⟨31, 1⟩
def ET_CNT_CLR_CT : Fld := ⟨30, 1⟩
def ET_CNT_CLR_PORTS : Fld := ⟨0, 4⟩
/-- R298, 08_ethernet_corner_turn.md. -/
def ET_CT_GMAC_LO : Nat := 0x600018
def ET_CT_GMAC_LO_MAC : Fld := ⟨0, 32⟩
/-- R298, 08_ethernet_corner_turn.md. -/
def ET_CT_GMAC_HI : Nat := 0x60001C
def ET_CT_GMAC_HI_MAC : Fld := ⟨0, 16⟩
/-- R298, 08_ethernet_corner_turn.md. -/
def ET_DS_CTL : Nat := 0x600020
def ET_DS_CTL_HOLD : Fld := ⟨31, 1⟩
def ET_DS_CTL_PORT : Fld := ⟨29, 2⟩
def ET_DS_CTL_SEG : Fld := ⟨0, 14⟩
/-- R298, 08_ethernet_corner_turn.md. -/
def ET_DS_DMAC_LO : Nat := 0x600024
def ET_DS_DMAC_LO_MAC : Fld := ⟨0, 32⟩
/-- R298, 08_ethernet_corner_turn.md. -/
def ET_DS_DMAC_HI : Nat := 0x600028
def ET_DS_DMAC_HI_MAC : Fld := ⟨0, 16⟩
/-- R298, 08_ethernet_corner_turn.md. -/
def ET_DS_DIP : Nat := 0x60002C
def ET_DS_DIP_IP : Fld := ⟨0, 32⟩
/-- R298, 08_ethernet_corner_turn.md. -/
def ET_DS_UDP : Nat := 0x600030
def ET_DS_UDP_DPORT : Fld := ⟨16, 16⟩
def ET_DS_UDP_SPORT : Fld := ⟨0, 16⟩
/-- R298, 08_ethernet_corner_turn.md. -/
def ET_DS_SEQ : Nat := 0x600034
def ET_DS_SEQ_PKT_SEQ : Fld := ⟨0, 32⟩
/-- R298, 08_ethernet_corner_turn.md. -/
def ET_CT_TX_BLOCKS_LO : Nat := 0x600040
def ET_CT_TX_BLOCKS_LO_COUNT : Fld := ⟨0, 32⟩
/-- R298, 08_ethernet_corner_turn.md. -/
def ET_CT_TX_BLOCKS_HI : Nat := 0x600044
def ET_CT_TX_BLOCKS_HI_COUNT : Fld := ⟨0, 32⟩
/-- R298, 08_ethernet_corner_turn.md. -/
def ET_CT_RX_BLOCKS_LO : Nat := 0x600048
def ET_CT_RX_BLOCKS_LO_COUNT : Fld := ⟨0, 32⟩
/-- R298, 08_ethernet_corner_turn.md. -/
def ET_CT_RX_BLOCKS_HI : Nat := 0x60004C
def ET_CT_RX_BLOCKS_HI_COUNT : Fld := ⟨0, 32⟩
/-- R298, 08_ethernet_corner_turn.md. -/
def ET_CT_NAK_TX : Nat := 0x600050
def ET_CT_NAK_TX_COUNT : Fld := ⟨0, 32⟩
/-- R298, 08_ethernet_corner_turn.md. -/
def ET_CT_NAK_RX : Nat := 0x600054
def ET_CT_NAK_RX_COUNT : Fld := ⟨0, 32⟩
/-- R298, 08_ethernet_corner_turn.md. -/
def ET_CT_RESENT : Nat := 0x600058
def ET_CT_RESENT_COUNT : Fld := ⟨0, 32⟩
/-- R298, 08_ethernet_corner_turn.md. -/
def ET_CT_GONE : Nat := 0x60005C
def ET_CT_GONE_COUNT : Fld := ⟨0, 32⟩
/-- R298, 08_ethernet_corner_turn.md. -/
def ET_CT_LOST : Nat := 0x600060
def ET_CT_LOST_COUNT : Fld := ⟨0, 32⟩
/-- R298, 08_ethernet_corner_turn.md. -/
def ET_CT_LATE : Nat := 0x600064
def ET_CT_LATE_COUNT : Fld := ⟨0, 32⟩
/-- R298, 08_ethernet_corner_turn.md. -/
def ET_CT_DUP : Nat := 0x600068
def ET_CT_DUP_COUNT : Fld := ⟨0, 32⟩
/-- R298, 08_ethernet_corner_turn.md. -/
def ET_CT_CRC : Nat := 0x60006C
def ET_CT_CRC_COUNT : Fld := ⟨0, 32⟩
/-- R298, 08_ethernet_corner_turn.md. -/
def ET_CT_OFFGRID : Nat := 0x600070
def ET_CT_OFFGRID_COUNT : Fld := ⟨0, 32⟩
/-- R298, 08_ethernet_corner_turn.md. -/
def ET_CT_STALE : Nat := 0x600074
def ET_CT_STALE_COUNT : Fld := ⟨0, 32⟩
/-- R298, 08_ethernet_corner_turn.md. -/
def ET_CT_MALFORMED : Nat := 0x600078
def ET_CT_MALFORMED_COUNT : Fld := ⟨0, 32⟩
/-- R298, 08_ethernet_corner_turn.md. -/
def ET_CT_UNSENT : Nat := 0x60007C
def ET_CT_UNSENT_COUNT : Fld := ⟨0, 32⟩
/-- R298, 08_ethernet_corner_turn.md. -/
def ET_CT_RESYNC : Nat := 0x600080
def ET_CT_RESYNC_COUNT : Fld := ⟨0, 32⟩
/-- R298, 08_ethernet_corner_turn.md. -/
def ET_CT_MISSING_MAX : Nat := 0x600084
def ET_CT_MISSING_MAX_COUNT : Fld := ⟨0, 32⟩
/-- R298, 08_ethernet_corner_turn.md. -/
def ET_P_CTL (o : Nat) : Nat := 0x601000 + 0x400 * o
def ET_P_CTL_EN : Fld := ⟨31, 1⟩
def ET_P_CTL_SPEED : Fld := ⟨30, 1⟩
def ET_P_CTL_FC_MODE : Fld := ⟨28, 2⟩
def ET_P_CTL_TX_PFC : Fld := ⟨27, 1⟩
def ET_P_CTL_PREEMPT : Fld := ⟨26, 1⟩
def ET_P_CTL_BCAST : Fld := ⟨25, 1⟩
def ET_P_CTL_MAXFRAME : Fld := ⟨0, 14⟩
/-- R298, 08_ethernet_corner_turn.md. -/
def ET_P_STAT (o : Nat) : Nat := 0x601004 + 0x400 * o
def ET_P_STAT_LINK : Fld := ⟨31, 1⟩
def ET_P_STAT_PREEMPT_OK : Fld := ⟨30, 1⟩
def ET_P_STAT_LINK_DOWN_SEEN : Fld := ⟨29, 1⟩
def ET_P_STAT_FCS_SEEN : Fld := ⟨28, 1⟩
def ET_P_STAT_DROP_SEEN : Fld := ⟨27, 1⟩
def ET_P_STAT_C0_LATE_SEEN : Fld := ⟨26, 1⟩
def ET_P_STAT_PAUSED : Fld := ⟨8, 8⟩
def ET_P_STAT_XOFF : Fld := ⟨0, 8⟩
/-- R298, 08_ethernet_corner_turn.md. -/
def ET_P_PRIO (o : Nat) : Nat := 0x601008 + 0x400 * o
def ET_P_PRIO_VID : Fld := ⟨20, 12⟩
def ET_P_PRIO_C0 : Fld := ⟨9, 3⟩
def ET_P_PRIO_C1 : Fld := ⟨6, 3⟩
def ET_P_PRIO_C2 : Fld := ⟨3, 3⟩
def ET_P_PRIO_C3 : Fld := ⟨0, 3⟩
/-- R298, 08_ethernet_corner_turn.md. -/
def ET_P_MAC_LO (o : Nat) : Nat := 0x601010 + 0x400 * o
def ET_P_MAC_LO_MAC : Fld := ⟨0, 32⟩
/-- R298, 08_ethernet_corner_turn.md. -/
def ET_P_MAC_HI (o : Nat) : Nat := 0x601014 + 0x400 * o
def ET_P_MAC_HI_MAC : Fld := ⟨0, 16⟩
/-- R298, 08_ethernet_corner_turn.md. -/
def ET_P_IP (o : Nat) : Nat := 0x601018 + 0x400 * o
def ET_P_IP_IP : Fld := ⟨0, 32⟩
/-- R298, 08_ethernet_corner_turn.md. -/
def ET_P_UDP (o : Nat) : Nat := 0x60101C + 0x400 * o
def ET_P_UDP_UDP : Fld := ⟨0, 16⟩
/-- R298, 08_ethernet_corner_turn.md. -/
def ET_P_TX_FRAMES_LO (o : Nat) : Nat := 0x601040 + 0x400 * o
def ET_P_TX_FRAMES_LO_COUNT : Fld := ⟨0, 32⟩
/-- R298, 08_ethernet_corner_turn.md. -/
def ET_P_TX_FRAMES_HI (o : Nat) : Nat := 0x601044 + 0x400 * o
def ET_P_TX_FRAMES_HI_COUNT : Fld := ⟨0, 32⟩
/-- R298, 08_ethernet_corner_turn.md. -/
def ET_P_TX_OCTETS_LO (o : Nat) : Nat := 0x601048 + 0x400 * o
def ET_P_TX_OCTETS_LO_COUNT : Fld := ⟨0, 32⟩
/-- R298, 08_ethernet_corner_turn.md. -/
def ET_P_TX_OCTETS_HI (o : Nat) : Nat := 0x60104C + 0x400 * o
def ET_P_TX_OCTETS_HI_COUNT : Fld := ⟨0, 32⟩
/-- R298, 08_ethernet_corner_turn.md. -/
def ET_P_RX_FRAMES_LO (o : Nat) : Nat := 0x601050 + 0x400 * o
def ET_P_RX_FRAMES_LO_COUNT : Fld := ⟨0, 32⟩
/-- R298, 08_ethernet_corner_turn.md. -/
def ET_P_RX_FRAMES_HI (o : Nat) : Nat := 0x601054 + 0x400 * o
def ET_P_RX_FRAMES_HI_COUNT : Fld := ⟨0, 32⟩
/-- R298, 08_ethernet_corner_turn.md. -/
def ET_P_RX_OCTETS_LO (o : Nat) : Nat := 0x601058 + 0x400 * o
def ET_P_RX_OCTETS_LO_COUNT : Fld := ⟨0, 32⟩
/-- R298, 08_ethernet_corner_turn.md. -/
def ET_P_RX_OCTETS_HI (o : Nat) : Nat := 0x60105C + 0x400 * o
def ET_P_RX_OCTETS_HI_COUNT : Fld := ⟨0, 32⟩
/-- R298, 08_ethernet_corner_turn.md. -/
def ET_P_RX_FCS_ERR (o : Nat) : Nat := 0x601060 + 0x400 * o
def ET_P_RX_FCS_ERR_COUNT : Fld := ⟨0, 32⟩
/-- R298, 08_ethernet_corner_turn.md. -/
def ET_P_RX_RUNT (o : Nat) : Nat := 0x601064 + 0x400 * o
def ET_P_RX_RUNT_COUNT : Fld := ⟨0, 32⟩
/-- R298, 08_ethernet_corner_turn.md. -/
def ET_P_RX_OVERSIZE (o : Nat) : Nat := 0x601068 + 0x400 * o
def ET_P_RX_OVERSIZE_COUNT : Fld := ⟨0, 32⟩
/-- R298, 08_ethernet_corner_turn.md. -/
def ET_P_RX_FILTERED (o : Nat) : Nat := 0x60106C + 0x400 * o
def ET_P_RX_FILTERED_COUNT : Fld := ⟨0, 32⟩
/-- R298, 08_ethernet_corner_turn.md. -/
def ET_P_RX_UNCLAIMED (o : Nat) : Nat := 0x601070 + 0x400 * o
def ET_P_RX_UNCLAIMED_COUNT : Fld := ⟨0, 32⟩
/-- R298, 08_ethernet_corner_turn.md. -/
def ET_P_RX_DROP_C0 (o : Nat) : Nat := 0x601074 + 0x400 * o
def ET_P_RX_DROP_C0_COUNT : Fld := ⟨0, 32⟩
/-- R298, 08_ethernet_corner_turn.md. -/
def ET_P_RX_DROP_C1 (o : Nat) : Nat := 0x601078 + 0x400 * o
def ET_P_RX_DROP_C1_COUNT : Fld := ⟨0, 32⟩
/-- R298, 08_ethernet_corner_turn.md. -/
def ET_P_RX_DROP_C2 (o : Nat) : Nat := 0x60107C + 0x400 * o
def ET_P_RX_DROP_C2_COUNT : Fld := ⟨0, 32⟩
/-- R298, 08_ethernet_corner_turn.md. -/
def ET_P_RX_DROP_C3 (o : Nat) : Nat := 0x601080 + 0x400 * o
def ET_P_RX_DROP_C3_COUNT : Fld := ⟨0, 32⟩
/-- R298, 08_ethernet_corner_turn.md. -/
def ET_P_RX_PAUSE (o : Nat) : Nat := 0x601084 + 0x400 * o
def ET_P_RX_PAUSE_COUNT : Fld := ⟨0, 32⟩
/-- R298, 08_ethernet_corner_turn.md. -/
def ET_P_RX_PFC (o : Nat) : Nat := 0x601088 + 0x400 * o
def ET_P_RX_PFC_COUNT : Fld := ⟨0, 32⟩
/-- R298, 08_ethernet_corner_turn.md. -/
def ET_P_RX_FC_IGN (o : Nat) : Nat := 0x60108C + 0x400 * o
def ET_P_RX_FC_IGN_COUNT : Fld := ⟨0, 32⟩
/-- R298, 08_ethernet_corner_turn.md. -/
def ET_P_TX_PFC (o : Nat) : Nat := 0x601090 + 0x400 * o
def ET_P_TX_PFC_COUNT : Fld := ⟨0, 32⟩
/-- R298, 08_ethernet_corner_turn.md. -/
def ET_P_TX_DISC_C1 (o : Nat) : Nat := 0x601094 + 0x400 * o
def ET_P_TX_DISC_C1_COUNT : Fld := ⟨0, 32⟩
/-- R298, 08_ethernet_corner_turn.md. -/
def ET_P_C0_LATE (o : Nat) : Nat := 0x601098 + 0x400 * o
def ET_P_C0_LATE_COUNT : Fld := ⟨0, 32⟩
/-- R298, 08_ethernet_corner_turn.md. -/
def ET_P_C0_OVERFLOW (o : Nat) : Nat := 0x60109C + 0x400 * o
def ET_P_C0_OVERFLOW_COUNT : Fld := ⟨0, 32⟩
/-- R298, 08_ethernet_corner_turn.md. -/
def ET_P_C1_OVERRUN (o : Nat) : Nat := 0x6010A0 + 0x400 * o
def ET_P_C1_OVERRUN_COUNT : Fld := ⟨0, 32⟩
/-- R298, 08_ethernet_corner_turn.md. -/
def ET_P_TX_PREEMPT (o : Nat) : Nat := 0x6010A4 + 0x400 * o
def ET_P_TX_PREEMPT_COUNT : Fld := ⟨0, 32⟩
/-- R298, 08_ethernet_corner_turn.md. -/
def ET_P_RX_IP_DISC (o : Nat) : Nat := 0x6010A8 + 0x400 * o
def ET_P_RX_IP_DISC_COUNT : Fld := ⟨0, 32⟩
/-- R298, 08_ethernet_corner_turn.md. -/
def ET_P_HASH (o : Nat) (j : Nat) : Nat := 0x601100 + 0x400 * o + 0x4 * j
def ET_P_HASH_HASH : Fld := ⟨0, 32⟩
/-- R298, 08_ethernet_corner_turn.md. -/
def ET_P_EM_LO (o : Nat) (j : Nat) : Nat := 0x601200 + 0x400 * o + 0x8 * j
def ET_P_EM_LO_MAC : Fld := ⟨0, 32⟩
/-- R298, 08_ethernet_corner_turn.md. -/
def ET_P_EM_HI (o : Nat) (j : Nat) : Nat := 0x601204 + 0x400 * o + 0x8 * j
def ET_P_EM_HI_VALID : Fld := ⟨31, 1⟩
def ET_P_EM_HI_MAC : Fld := ⟨0, 16⟩
/-- R324, 09_timing.md. -/
def TM_CTL : Nat := 0x700000
def TM_CTL_MANUAL : Fld := ⟨31, 1⟩
def TM_CTL_MSEL : Fld := ⟨28, 3⟩
def TM_CTL_REVERT : Fld := ⟨27, 1⟩
def TM_CTL_SLEW : Fld := ⟨0, 8⟩
/-- R324, 09_timing.md. -/
def TM_STAT : Nat := 0x700004
def TM_STAT_CORE : Fld := ⟨29, 3⟩
def TM_STAT_SEL : Fld := ⟨26, 3⟩
def TM_STAT_PROVISIONAL : Fld := ⟨25, 1⟩
def TM_STAT_SWITCH_QUEUED : Fld := ⟨24, 1⟩
def TM_STAT_HO_SEEN : Fld := ⟨23, 1⟩
def TM_STAT_FREE_RUN_SEEN : Fld := ⟨22, 1⟩
def TM_STAT_HO_EXCEEDED : Fld := ⟨21, 1⟩
def TM_STAT_SOFT_SEEN : Fld := ⟨20, 1⟩
def TM_STAT_BUILD_OUT : Fld := ⟨0, 20⟩
/-- R324, 09_timing.md. -/
def TM_LOCOSC : Nat := 0x700008
def TM_LOCOSC_FREQ : Fld := ⟨0, 27⟩
/-- R324, 09_timing.md. -/
def TM_HO_CFG : Nat := 0x70000C
def TM_HO_CFG_SPEC : Fld := ⟨16, 16⟩
def TM_HO_CFG_AGE : Fld := ⟨0, 16⟩
/-- R324, 09_timing.md. -/
def TM_HO_STAT : Nat := 0x700010
def TM_HO_STAT_TRAINED : Fld := ⟨31, 1⟩
def TM_HO_STAT_TRAIN_S : Fld := ⟨16, 14⟩
def TM_HO_STAT_U : Fld := ⟨0, 16⟩
/-- R324, 09_timing.md. -/
def TM_HO_ERR : Nat := 0x700014
def TM_HO_ERR_ERR : Fld := ⟨0, 32⟩
/-- R324, 09_timing.md, host-writable. -/
def TM_CNT_CLR : Nat := 0x700018
def TM_CNT_CLR_ALL : Fld := ⟨31, 1⟩
/-- R324, 09_timing.md. -/
def TM_SWITCHES : Nat := 0x70001C
def TM_SWITCHES_COUNT : Fld := ⟨0, 32⟩
/-- R324, 09_timing.md. -/
def TM_SRC_CTL (o : Nat) : Nat := 0x700100 + 0x40 * o
def TM_SRC_CTL_EN : Fld := ⟨31, 1⟩
def TM_SRC_CTL_PRIO : Fld := ⟨28, 3⟩
def TM_SRC_CTL_PPS_EN : Fld := ⟨27, 1⟩
def TM_SRC_CTL_PPS_POL : Fld := ⟨26, 1⟩
def TM_SRC_CTL_BW : Fld := ⟨23, 3⟩
def TM_SRC_CTL_QUAL : Fld := ⟨0, 10⟩
/-- R324, 09_timing.md. -/
def TM_SRC_FREQ (o : Nat) : Nat := 0x700104 + 0x40 * o
def TM_SRC_FREQ_FREQ : Fld := ⟨0, 30⟩
/-- R324, 09_timing.md. -/
def TM_SRC_LIM (o : Nat) : Nat := 0x700108 + 0x40 * o
def TM_SRC_LIM_SOFT : Fld := ⟨16, 16⟩
def TM_SRC_LIM_HARD : Fld := ⟨0, 16⟩
/-- R324, 09_timing.md. -/
def TM_SRC_TIME (o : Nat) : Nat := 0x70010C + 0x40 * o
def TM_SRC_TIME_PERSIST : Fld := ⟨20, 12⟩
def TM_SRC_TIME_WTR : Fld := ⟨8, 12⟩
def TM_SRC_TIME_DRIFT : Fld := ⟨0, 8⟩
/-- R324, 09_timing.md. -/
def TM_SRC_PPS (o : Nat) : Nat := 0x700110 + 0x40 * o
def TM_SRC_PPS_PPS_LIM : Fld := ⟨16, 16⟩
def TM_SRC_PPS_PPSDLY : Fld := ⟨0, 16⟩
/-- R324, 09_timing.md. -/
def TM_SRC_STAT (o : Nat) : Nat := 0x700114 + 0x40 * o
def TM_SRC_STAT_QSTATE : Fld := ⟨29, 3⟩
def TM_SRC_STAT_CLK_LOSS : Fld := ⟨28, 1⟩
def TM_SRC_STAT_PPS_LOSS : Fld := ⟨27, 1⟩
def TM_SRC_STAT_SOFT_F : Fld := ⟨26, 1⟩
def TM_SRC_STAT_HARD_F : Fld := ⟨25, 1⟩
def TM_SRC_STAT_DRIFT_F : Fld := ⟨24, 1⟩
def TM_SRC_STAT_PPS_F : Fld := ⟨23, 1⟩
def TM_SRC_STAT_CLASS_F : Fld := ⟨22, 1⟩
def TM_SRC_STAT_DISQ_SEEN : Fld := ⟨21, 1⟩
def TM_SRC_STAT_SOFT_SEEN : Fld := ⟨20, 1⟩
def TM_SRC_STAT_LEFT : Fld := ⟨0, 12⟩
/-- R324, 09_timing.md. -/
def TM_SRC_OFFS (o : Nat) : Nat := 0x700118 + 0x40 * o
def TM_SRC_OFFS_OFFS : Fld := ⟨0, 32⟩
/-- R324, 09_timing.md. -/
def TM_SRC_DRIFT (o : Nat) : Nat := 0x70011C + 0x40 * o
def TM_SRC_DRIFT_DRIFT : Fld := ⟨16, 16⟩
def TM_SRC_DRIFT_WANDER : Fld := ⟨0, 16⟩
/-- R324, 09_timing.md. -/
def TM_SRC_DISQ (o : Nat) : Nat := 0x700120 + 0x40 * o
def TM_SRC_DISQ_COUNT : Fld := ⟨0, 32⟩
/-- R324, 09_timing.md. -/
def TM_CK_CTL (o : Nat) : Nat := 0x700300 + 0x10 * o
def TM_CK_CTL_EN : Fld := ⟨31, 1⟩
def TM_CK_CTL_FREQ : Fld := ⟨0, 22⟩
/-- R324, 09_timing.md. -/
def TM_FR_CTL (o : Nat) : Nat := 0x700340 + 0x10 * o
def TM_FR_CTL_EN : Fld := ⟨31, 1⟩
def TM_FR_CTL_POL : Fld := ⟨30, 1⟩
def TM_FR_CTL_WIDTH : Fld := ⟨0, 19⟩
/-- R324, 09_timing.md. -/
def TM_FR_OFS (o : Nat) : Nat := 0x700344 + 0x10 * o
def TM_FR_OFS_OFFSET : Fld := ⟨0, 32⟩
/-- R324, 09_timing.md. -/
def TM_PTP_CTL : Nat := 0x700380
def TM_PTP_CTL_ENA : Fld := ⟨31, 1⟩
def TM_PTP_CTL_ENB : Fld := ⟨30, 1⟩
def TM_PTP_CTL_PORTA : Fld := ⟨28, 2⟩
def TM_PTP_CTL_PORTB : Fld := ⟨26, 2⟩
def TM_PTP_CTL_TRANSA : Fld := ⟨25, 1⟩
def TM_PTP_CTL_TRANSB : Fld := ⟨24, 1⟩
def TM_PTP_CTL_DOMA : Fld := ⟨16, 8⟩
def TM_PTP_CTL_DOMB : Fld := ⟨8, 8⟩
def TM_PTP_CTL_CLASS_MAX : Fld := ⟨0, 8⟩
/-- R324, 09_timing.md. -/
def TM_PTP_STAT : Nat := 0x700384
def TM_PTP_STAT_SET : Fld := ⟨31, 1⟩
def TM_PTP_STAT_STEER : Fld := ⟨29, 2⟩
def TM_PTP_STAT_LARGE_OFFSET : Fld := ⟨28, 1⟩
def TM_PTP_STAT_STEP_DONE : Fld := ⟨27, 1⟩
def TM_PTP_STAT_DOMAIN_SWITCH_SEEN : Fld := ⟨26, 1⟩
/-- R324, 09_timing.md. -/
def TM_PTP_SNAP_SEC_LO : Nat := 0x700388
def TM_PTP_SNAP_SEC_LO_SEC : Fld := ⟨0, 32⟩
/-- R324, 09_timing.md. -/
def TM_PTP_SNAP_SEC_HI : Nat := 0x70038C
def TM_PTP_SNAP_SEC_HI_SEC : Fld := ⟨0, 16⟩
/-- R324, 09_timing.md. -/
def TM_PTP_SNAP_T32 : Nat := 0x700390
def TM_PTP_SNAP_T32_T32 : Fld := ⟨0, 32⟩
/-- R54, 01_architecture.md. -/
def TM_ATC_LO : Nat := 0x700400
def TM_ATC_LO_ATC : Fld := ⟨0, 32⟩
/-- R54, 01_architecture.md. -/
def TM_ATC_HI : Nat := 0x700404
def TM_ATC_HI_ATC : Fld := ⟨0, 32⟩
/-- R54, 01_architecture.md. -/
def TM_ATC_PPS_LO : Nat := 0x700408
def TM_ATC_PPS_LO_ATC_AT_PPS : Fld := ⟨0, 32⟩
/-- R54, 01_architecture.md. -/
def TM_ATC_PPS_HI : Nat := 0x70040C
def TM_ATC_PPS_HI_ATC_AT_PPS : Fld := ⟨0, 32⟩
/-- R54, 01_architecture.md. -/
def TM_ATC_LOAD_LO : Nat := 0x700410
def TM_ATC_LOAD_LO_LOAD : Fld := ⟨0, 32⟩
/-- R54, 01_architecture.md. -/
def TM_ATC_LOAD_HI : Nat := 0x700414
def TM_ATC_LOAD_HI_LOAD : Fld := ⟨0, 32⟩
/-- R54, 01_architecture.md. -/
def TM_ATC_CTL : Nat := 0x700418
def TM_ATC_CTL_ARM : Fld := ⟨31, 1⟩
def TM_ATC_CTL_RATE_N : Fld := ⟨0, 8⟩
/-- R54, 01_architecture.md. -/
def TM_ATC_STAT : Nat := 0x70041C
def TM_ATC_STAT_STATE : Fld := ⟨30, 2⟩
def TM_ATC_STAT_REEPOCH : Fld := ⟨29, 1⟩
def TM_ATC_STAT_MISSED_PPS : Fld := ⟨28, 1⟩
def TM_ATC_STAT_EPOCH_PHASE : Fld := ⟨0, 4⟩
/-- R54, 01_architecture.md. -/
def TM_TAI_ATC_LO : Nat := 0x700420
def TM_TAI_ATC_LO_MAP_ATC : Fld := ⟨0, 32⟩
/-- R54, 01_architecture.md. -/
def TM_TAI_ATC_HI : Nat := 0x700424
def TM_TAI_ATC_HI_MAP_ATC : Fld := ⟨0, 32⟩
/-- R54, 01_architecture.md. -/
def TM_TAI_SEC_LO : Nat := 0x700428
def TM_TAI_SEC_LO_MAP_SEC : Fld := ⟨0, 32⟩
/-- R54, 01_architecture.md. -/
def TM_TAI_SEC_HI : Nat := 0x70042C
def TM_TAI_SEC_HI_MAP_SEC : Fld := ⟨0, 32⟩
/-- R365, 10_memory.md. -/
def DR_CFG : Nat := 0x800000
def DR_CFG_NCH : Fld := ⟨30, 2⟩
def DR_CFG_RANKS : Fld := ⟨29, 1⟩
def DR_CFG_DENS : Fld := ⟨27, 2⟩
def DR_CFG_RATE : Fld := ⟨25, 2⟩
def DR_CFG_DEV_PRE : Fld := ⟨24, 1⟩
def DR_CFG_PAGE_PRED : Fld := ⟨23, 1⟩
def DR_CFG_PD_IDLE : Fld := ⟨0, 16⟩
/-- R365, 10_memory.md. -/
def DR_STAT : Nat := 0x800004
def DR_STAT_STATE : Fld := ⟨30, 2⟩
def DR_STAT_NO_TABLE : Fld := ⟨29, 1⟩
def DR_STAT_SWEEP_RUN : Fld := ⟨28, 1⟩
def DR_STAT_CE_SEEN : Fld := ⟨27, 1⟩
def DR_STAT_UE_SEEN : Fld := ⟨26, 1⟩
def DR_STAT_FORCED_SEEN : Fld := ⟨25, 1⟩
def DR_STAT_RAIL_FAULT : Fld := ⟨24, 1⟩
def DR_STAT_FAIL_CH : Fld := ⟨0, 16⟩
/-- R365, 10_memory.md. -/
def DR_TIM : Nat := 0x800008
def DR_TIM_TRFC : Fld := ⟨24, 8⟩
def DR_TIM_TRC : Fld := ⟨16, 8⟩
def DR_TIM_RL : Fld := ⟨8, 8⟩
def DR_TIM_WL : Fld := ⟨0, 8⟩
/-- R365, 10_memory.md. -/
def DR_MAINT : Nat := 0x80000C
def DR_MAINT_SCRUB_H : Fld := ⟨16, 16⟩
def DR_MAINT_REFI : Fld := ⟨0, 16⟩
/-- R365, 10_memory.md. -/
def DR_SCHED : Nat := 0x800010
def DR_SCHED_AGE_C1 : Fld := ⟨24, 8⟩
def DR_SCHED_AGE_C2 : Fld := ⟨16, 8⟩
def DR_SCHED_AGE_C3 : Fld := ⟨8, 8⟩
/-- R365, 10_memory.md, host-writable. -/
def DR_CNT_CLR : Nat := 0x800014
def DR_CNT_CLR_ALL : Fld := ⟨31, 1⟩
def DR_CNT_CLR_CH : Fld := ⟨0, 16⟩
/-- R365, 10_memory.md. -/
def DR_C1_OVERRUN : Nat := 0x800018
def DR_C1_OVERRUN_COUNT : Fld := ⟨0, 32⟩
/-- R365, 10_memory.md. -/
def DR_CH_CFG (o : Nat) : Nat := 0x801000 + 0x400 * o
def DR_CH_CFG_TOFS : Fld := ⟨24, 8⟩
def DR_CH_CFG_CA : Fld := ⟨8, 7⟩
/-- R365, 10_memory.md. -/
def DR_CH_STAT (o : Nat) : Nat := 0x801004 + 0x400 * o
def DR_CH_STAT_BAND : Fld := ⟨30, 2⟩
def DR_CH_STAT_BAND_UNSWEPT : Fld := ⟨29, 1⟩
def DR_CH_STAT_TSENS_F : Fld := ⟨28, 1⟩
def DR_CH_STAT_POSTPONED : Fld := ⟨24, 4⟩
def DR_CH_STAT_TEMP : Fld := ⟨8, 8⟩
/-- R365, 10_memory.md. -/
def DR_CH_UEADDR_LO (o : Nat) : Nat := 0x801008 + 0x400 * o
def DR_CH_UEADDR_LO_ADDR : Fld := ⟨0, 32⟩
/-- R365, 10_memory.md. -/
def DR_CH_UEADDR_HI (o : Nat) : Nat := 0x80100C + 0x400 * o
def DR_CH_UEADDR_HI_ADDR : Fld := ⟨0, 32⟩
/-- R365, 10_memory.md. -/
def DR_CH_CE (o : Nat) : Nat := 0x801010 + 0x400 * o
def DR_CH_CE_COUNT : Fld := ⟨0, 32⟩
/-- R365, 10_memory.md. -/
def DR_CH_UE (o : Nat) : Nat := 0x801014 + 0x400 * o
def DR_CH_UE_COUNT : Fld := ⟨0, 32⟩
/-- R365, 10_memory.md. -/
def DR_CH_FORCED (o : Nat) : Nat := 0x801018 + 0x400 * o
def DR_CH_FORCED_COUNT : Fld := ⟨0, 32⟩
/-- R365, 10_memory.md. -/
def DR_CH_PROMOTED (o : Nat) : Nat := 0x80101C + 0x400 * o
def DR_CH_PROMOTED_COUNT : Fld := ⟨0, 32⟩
/-- R365, 10_memory.md. -/
def DR_DLY (o : Nat) (j : Nat) : Nat := 0x801100 + 0x400 * o + 0x4 * j
def DR_DLY_VALID : Fld := ⟨31, 1⟩
def DR_DLY_VREF : Fld := ⟨24, 7⟩
def DR_DLY_SLEW : Fld := ⟨16, 2⟩
def DR_DLY_WR : Fld := ⟨8, 7⟩
def DR_DLY_RD : Fld := ⟨0, 7⟩
/-- R388, 11_dma.md, host-writable. -/
def DM_INT_STAT : Nat := 0x900000
def DM_INT_STAT_CH : Fld := ⟨0, 32⟩
/-- R388, 11_dma.md, host-writable. -/
def DM_INT_EN : Nat := 0x900004
def DM_INT_EN_CH : Fld := ⟨0, 32⟩
/-- R388, 11_dma.md, host-writable. -/
def DM_HALT_STAT : Nat := 0x900008
def DM_HALT_STAT_CH : Fld := ⟨0, 32⟩
/-- R388, 11_dma.md, host-writable. -/
def DM_HALT_EN : Nat := 0x90000C
def DM_HALT_EN_CH : Fld := ⟨0, 32⟩
/-- R388, 11_dma.md, host-writable. -/
def DM_TIMEOUT : Nat := 0x900010
def DM_TIMEOUT_TIMEOUT : Fld := ⟨0, 16⟩
/-- R388, 11_dma.md, host-writable. -/
def DM_CNT_CLR : Nat := 0x900014
def DM_CNT_CLR_CH : Fld := ⟨0, 32⟩
/-- R388, 11_dma.md, host-writable. -/
def DM_CH_CTL (o : Nat) : Nat := 0x901000 + 0x40 * o
def DM_CH_CTL_GO : Fld := ⟨31, 1⟩
def DM_CH_CTL_ABORT : Fld := ⟨30, 1⟩
def DM_CH_CTL_KICK : Fld := ⟨29, 1⟩
def DM_CH_CTL_RETRY : Fld := ⟨24, 4⟩
def DM_CH_CTL_HOP_LIMIT : Fld := ⟨0, 16⟩
/-- R388, 11_dma.md, host-writable. -/
def DM_CH_STAT (o : Nat) : Nat := 0x901004 + 0x40 * o
def DM_CH_STAT_STATE : Fld := ⟨29, 3⟩
def DM_CH_STAT_CODE : Fld := ⟨24, 5⟩
def DM_CH_STAT_FW_OWNED : Fld := ⟨23, 1⟩
def DM_CH_STAT_OVERLAP : Fld := ⟨22, 1⟩
def DM_CH_STAT_DESC_FETCH : Fld := ⟨21, 1⟩
def DM_CH_STAT_CMP_FAIL : Fld := ⟨20, 1⟩
/-- R388, 11_dma.md, host-writable. -/
def DM_CH_DESC_LO (o : Nat) : Nat := 0x901008 + 0x40 * o
def DM_CH_DESC_LO_DESC : Fld := ⟨0, 32⟩
/-- R388, 11_dma.md, host-writable. -/
def DM_CH_DESC_HI (o : Nat) : Nat := 0x90100C + 0x40 * o
def DM_CH_DESC_HI_DESC : Fld := ⟨0, 32⟩
/-- R388, 11_dma.md, host-writable. -/
def DM_CH_CUR_LO (o : Nat) : Nat := 0x901010 + 0x40 * o
def DM_CH_CUR_LO_ADDR : Fld := ⟨0, 32⟩
/-- R388, 11_dma.md, host-writable. -/
def DM_CH_CUR_HI (o : Nat) : Nat := 0x901014 + 0x40 * o
def DM_CH_CUR_HI_ADDR : Fld := ⟨0, 32⟩
/-- R388, 11_dma.md, host-writable. -/
def DM_CH_REMAIN (o : Nat) : Nat := 0x901018 + 0x40 * o
def DM_CH_REMAIN_REMAIN : Fld := ⟨0, 32⟩
/-- R388, 11_dma.md, host-writable. -/
def DM_CH_ERRADDR_LO (o : Nat) : Nat := 0x901020 + 0x40 * o
def DM_CH_ERRADDR_LO_ADDR : Fld := ⟨0, 32⟩
/-- R388, 11_dma.md, host-writable. -/
def DM_CH_ERRADDR_HI (o : Nat) : Nat := 0x901024 + 0x40 * o
def DM_CH_ERRADDR_HI_ADDR : Fld := ⟨0, 32⟩
/-- R388, 11_dma.md, host-writable. -/
def DM_CH_CMPADDR_LO (o : Nat) : Nat := 0x901028 + 0x40 * o
def DM_CH_CMPADDR_LO_ADDR : Fld := ⟨0, 32⟩
/-- R388, 11_dma.md, host-writable. -/
def DM_CH_CMPADDR_HI (o : Nat) : Nat := 0x90102C + 0x40 * o
def DM_CH_CMPADDR_HI_ADDR : Fld := ⟨0, 32⟩
/-- R388, 11_dma.md, host-writable. -/
def DM_CH_DONE (o : Nat) : Nat := 0x901030 + 0x40 * o
def DM_CH_DONE_COUNT : Fld := ⟨0, 32⟩
/-- R388, 11_dma.md, host-writable. -/
def DM_CH_RETRIES (o : Nat) : Nat := 0x901034 + 0x40 * o
def DM_CH_RETRIES_COUNT : Fld := ⟨0, 32⟩
/-- R429, 12_command_interface.md. -/
def CP_SYS_STAT : Nat := 0xA00000
def CP_SYS_STAT_PHASE : Fld := ⟨28, 4⟩
def CP_SYS_STAT_PROFILE : Fld := ⟨26, 2⟩
def CP_SYS_STAT_PROF_VALID : Fld := ⟨25, 1⟩
def CP_SYS_STAT_PROF_FAULT : Fld := ⟨24, 1⟩
def CP_SYS_STAT_REF_WAIT_EXPIRED : Fld := ⟨23, 1⟩
def CP_SYS_STAT_CAUSE : Fld := ⟨20, 3⟩
def CP_SYS_STAT_PINS : Fld := ⟨16, 2⟩
def CP_SYS_STAT_FAIL_INDEX : Fld := ⟨0, 16⟩
/-- R429, 12_command_interface.md, host-writable. -/
def CP_MB_DB : Nat := 0xA00004
def CP_MB_DB_SLOT : Fld := ⟨0, 3⟩
/-- R429, 12_command_interface.md, host-writable. -/
def CP_MB_STAT : Nat := 0xA00008
def CP_MB_STAT_REPLY : Fld := ⟨16, 5⟩
def CP_MB_STAT_NOTE_HELD : Fld := ⟨12, 1⟩
def CP_MB_STAT_BUSY : Fld := ⟨0, 5⟩
/-- R429, 12_command_interface.md. -/
def CP_NT_WR : Nat := 0xA0000C
def CP_NT_WR_M_WR : Fld := ⟨8, 2⟩
def CP_NT_WR_H_WR : Fld := ⟨0, 4⟩
/-- R429, 12_command_interface.md, host-writable. -/
def CP_NT_H_RD : Nat := 0xA00010
def CP_NT_H_RD_RD : Fld := ⟨0, 4⟩
/-- R429, 12_command_interface.md, host-writable. -/
def CP_NT_M_RD : Nat := 0xA00014
def CP_NT_M_RD_RD : Fld := ⟨0, 2⟩
/-- R429, 12_command_interface.md. -/
def CP_Q_STAT : Nat := 0xA00018
def CP_Q_STAT_DEPTH : Fld := ⟨16, 7⟩
def CP_Q_STAT_INPROG : Fld := ⟨8, 4⟩
def CP_Q_STAT_SOURCES : Fld := ⟨0, 8⟩
/-- R429, 12_command_interface.md. -/
def CP_AP_BASE_LO : Nat := 0xA00020
def CP_AP_BASE_LO_BASE : Fld := ⟨0, 32⟩
/-- R429, 12_command_interface.md. -/
def CP_AP_BASE_HI : Nat := 0xA00024
def CP_AP_BASE_HI_BASE : Fld := ⟨0, 32⟩
/-- R429, 12_command_interface.md, host-writable. -/
def CP_CNT_CLR : Nat := 0xA00030
def CP_CNT_CLR_ALL : Fld := ⟨31, 1⟩
/-- R429, 12_command_interface.md. -/
def CP_CMDS : Nat := 0xA00034
def CP_CMDS_COUNT : Fld := ⟨0, 32⟩
/-- R429, 12_command_interface.md. -/
def CP_BUSY : Nat := 0xA00038
def CP_BUSY_COUNT : Fld := ⟨0, 32⟩
/-- R429, 12_command_interface.md. -/
def CP_DUPS : Nat := 0xA0003C
def CP_DUPS_COUNT : Fld := ⟨0, 32⟩
/-- R429, 12_command_interface.md. -/
def CP_BADCRC : Nat := 0xA00040
def CP_BADCRC_COUNT : Fld := ⟨0, 32⟩
/-- R429, 12_command_interface.md. -/
def CP_DISCARDS : Nat := 0xA00044
def CP_DISCARDS_COUNT : Fld := ⟨0, 32⟩
/-- R429, 12_command_interface.md. -/
def CP_EVICT : Nat := 0xA00048
def CP_EVICT_COUNT : Fld := ⟨0, 32⟩
/-- R515, 15_security_lifecycle.md. -/
def CP_LC_STAT : Nat := 0xA60000
def CP_LC_STAT_STATE : Fld := ⟨29, 3⟩
def CP_LC_STAT_OWNER : Fld := ⟨28, 1⟩
def CP_LC_STAT_NONCE_LIVE : Fld := ⟨27, 1⟩
def CP_LC_STAT_PREV : Fld := ⟨24, 3⟩
def CP_LC_STAT_TRANSITIONS : Fld := ⟨0, 16⟩
/-- R515, 15_security_lifecycle.md. -/
def CP_FW_STAT : Nat := 0xA60004
def CP_FW_STAT_ACTIVE_SLOT : Fld := ⟨31, 1⟩
def CP_FW_STAT_TRIAL : Fld := ⟨30, 1⟩
def CP_FW_STAT_A_VALID : Fld := ⟨29, 1⟩
def CP_FW_STAT_B_VALID : Fld := ⟨28, 1⟩
def CP_FW_STAT_ACT_QUEUED : Fld := ⟨27, 1⟩
def CP_FW_STAT_AUTO_COMMIT : Fld := ⟨26, 1⟩
def CP_FW_STAT_ROLLBACK_SEEN : Fld := ⟨25, 1⟩
def CP_FW_STAT_BOOT_FALLBACK : Fld := ⟨24, 1⟩
def CP_FW_STAT_COMMITTED : Fld := ⟨23, 1⟩
def CP_FW_STAT_CKPT_MISMATCH : Fld := ⟨22, 1⟩
def CP_FW_STAT_TRIAL_LEFT : Fld := ⟨0, 16⟩
/-- R515, 15_security_lifecycle.md. -/
def CP_FW_SVN : Nat := 0xA60008
def CP_FW_SVN_SVN_MIN : Fld := ⟨16, 16⟩
def CP_FW_SVN_SVN : Fld := ⟨0, 16⟩
/-- R515, 15_security_lifecycle.md. -/
def CP_WIPE_STAT : Nat := 0xA6000C
def CP_WIPE_STAT_DONE : Fld := ⟨31, 1⟩
def CP_WIPE_STAT_FAIL : Fld := ⟨30, 1⟩
def CP_WIPE_STAT_ITEMS : Fld := ⟨24, 6⟩
def CP_WIPE_STAT_DURATION : Fld := ⟨0, 16⟩
/-- R515, 15_security_lifecycle.md. -/
def CP_SEC_FAILS : Nat := 0xA60010
def CP_SEC_FAILS_COUNT : Fld := ⟨0, 32⟩
/-- R458, 13_redundancy.md. -/
def ML_CTL : Nat := 0xB00000
def ML_CTL_PAIRED : Fld := ⟨31, 1⟩
def ML_CTL_LEASE : Fld := ⟨30, 1⟩
def ML_CTL_UNIT : Fld := ⟨29, 1⟩
def ML_CTL_SYNC_ACK : Fld := ⟨28, 1⟩
def ML_CTL_BEACON_PORTS : Fld := ⟨24, 4⟩
def ML_CTL_TARGET_RUNG : Fld := ⟨22, 2⟩
def ML_CTL_PAIR_ID : Fld := ⟨0, 16⟩
/-- R458, 13_redundancy.md. -/
def ML_STAT : Nat := 0xB00004
def ML_STAT_STATE : Fld := ⟨29, 3⟩
def ML_STAT_LINK_UP : Fld := ⟨28, 1⟩
def ML_STAT_UNCONFIRMED : Fld := ⟨27, 1⟩
def ML_STAT_STALE_PROMOTE : Fld := ⟨26, 1⟩
def ML_STAT_LINK_DOWN_SEEN : Fld := ⟨25, 1⟩
def ML_STAT_DUAL_SEEN : Fld := ⟨24, 1⟩
def ML_STAT_HEALTH_FAIL : Fld := ⟨23, 1⟩
def ML_STAT_LEASE_HELD : Fld := ⟨22, 1⟩
def ML_STAT_NO_PROMOTE : Fld := ⟨21, 1⟩
/-- R458, 13_redundancy.md. -/
def ML_LINK_STAT : Nat := 0xB00008
def ML_LINK_STAT_RUNG : Fld := ⟨30, 2⟩
def ML_LINK_STAT_STATE : Fld := ⟨27, 3⟩
def ML_LINK_STAT_LOCK : Fld := ⟨23, 4⟩
/-- R458, 13_redundancy.md. -/
def ML_HB_STAT : Nat := 0xB0000C
def ML_HB_STAT_PEER_ACTIVE : Fld := ⟨31, 1⟩
def ML_HB_STAT_PATH_UP : Fld := ⟨28, 3⟩
def ML_HB_STAT_PEER_STATE : Fld := ⟨25, 3⟩
/-- R458, 13_redundancy.md. -/
def ML_EPOCH : Nat := 0xB00010
def ML_EPOCH_VALUE : Fld := ⟨0, 32⟩
/-- R458, 13_redundancy.md. -/
def ML_PEER_EPOCH : Nat := 0xB00014
def ML_PEER_EPOCH_VALUE : Fld := ⟨0, 32⟩
/-- R458, 13_redundancy.md. -/
def ML_CKPT_AGE : Nat := 0xB00018
def ML_CKPT_AGE_VALUE : Fld := ⟨0, 32⟩
/-- R458, 13_redundancy.md. -/
def ML_LEASE_END_LO : Nat := 0xB00020
def ML_LEASE_END_LO_END : Fld := ⟨0, 32⟩
/-- R458, 13_redundancy.md. -/
def ML_LEASE_END_HI : Nat := 0xB00024
def ML_LEASE_END_HI_END : Fld := ⟨0, 32⟩
/-- R458, 13_redundancy.md. -/
def ML_BEACON_DMAC_LO : Nat := 0xB00028
def ML_BEACON_DMAC_LO_MAC : Fld := ⟨0, 32⟩
/-- R458, 13_redundancy.md. -/
def ML_BEACON_DMAC_HI : Nat := 0xB0002C
def ML_BEACON_DMAC_HI_MAC : Fld := ⟨0, 16⟩
/-- R458, 13_redundancy.md, host-writable. -/
def ML_CNT_CLR : Nat := 0xB00030
def ML_CNT_CLR_ALL : Fld := ⟨31, 1⟩
/-- R458, 13_redundancy.md. -/
def ML_CRCERR : Nat := 0xB00034
def ML_CRCERR_COUNT : Fld := ⟨0, 32⟩
/-- R458, 13_redundancy.md. -/
def ML_RESENT : Nat := 0xB00038
def ML_RESENT_COUNT : Fld := ⟨0, 32⟩
/-- R458, 13_redundancy.md. -/
def ML_LINKDOWN : Nat := 0xB0003C
def ML_LINKDOWN_COUNT : Fld := ⟨0, 32⟩
/-- R458, 13_redundancy.md. -/
def ML_HB_MISS : Nat := 0xB00040
def ML_HB_MISS_COUNT : Fld := ⟨0, 32⟩
/-- R458, 13_redundancy.md. -/
def ML_PROMOTIONS : Nat := 0xB00044
def ML_PROMOTIONS_COUNT : Fld := ⟨0, 32⟩
/-- R458, 13_redundancy.md. -/
def ML_FENCES : Nat := 0xB00048
def ML_FENCES_COUNT : Fld := ⟨0, 32⟩
/-- R458, 13_redundancy.md. -/
def ML_DUAL : Nat := 0xB0004C
def ML_DUAL_COUNT : Fld := ⟨0, 32⟩
/-- R487, 14_power_thermal.md. -/
def PW_CTL : Nat := 0xC00000
def PW_CTL_AUTO_RESTART : Fld := ⟨31, 1⟩
/-- R487, 14_power_thermal.md. -/
def PW_STAT : Nat := 0xC00004
def PW_STAT_STATE : Fld := ⟨29, 3⟩
def PW_STAT_POWER_WARN : Fld := ⟨28, 1⟩
def PW_STAT_NEAR_SEEN : Fld := ⟨27, 1⟩
def PW_STAT_SHUTDOWN_SEEN : Fld := ⟨26, 1⟩
def PW_STAT_SENS_DEGRADED : Fld := ⟨25, 1⟩
def PW_STAT_RESTART_BLOCKED : Fld := ⟨24, 1⟩
def PW_STAT_UNLOGGED_LOSS : Fld := ⟨23, 1⟩
def PW_STAT_CAUSE : Fld := ⟨20, 3⟩
def PW_STAT_IO_BAND : Fld := ⟨18, 2⟩
/-- R487, 14_power_thermal.md. -/
def PW_VIN : Nat := 0xC00008
def PW_VIN_IIN : Fld := ⟨16, 16⟩
def PW_VIN_VIN : Fld := ⟨0, 16⟩
/-- R487, 14_power_thermal.md. -/
def PW_PIN : Nat := 0xC0000C
def PW_PIN_PIN : Fld := ⟨0, 16⟩
/-- R487, 14_power_thermal.md. -/
def PW_RAIL : Nat := 0xC00010
def PW_RAIL_SNS_OPEN : Fld := ⟨31, 1⟩
def PW_RAIL_FAULT : Fld := ⟨16, 12⟩
def PW_RAIL_GOOD : Fld := ⟨0, 12⟩
/-- R487, 14_power_thermal.md. -/
def PW_DROOP : Nat := 0xC00014
def PW_DROOP_NOW : Fld := ⟨29, 3⟩
def PW_DROOP_SEEN : Fld := ⟨26, 3⟩
/-- R487, 14_power_thermal.md. -/
def PW_THROT : Nat := 0xC00018
def PW_THROT_K_C0 : Fld := ⟨29, 3⟩
def PW_THROT_K_C1 : Fld := ⟨26, 3⟩
def PW_THROT_K_IO : Fld := ⟨23, 3⟩
def PW_THROT_K_S : Fld := ⟨20, 3⟩
def PW_THROT_K_W : Fld := ⟨17, 3⟩
/-- R487, 14_power_thermal.md. -/
def PW_DIODE : Nat := 0xC0001C
def PW_DIODE_VALID : Fld := ⟨31, 1⟩
def PW_DIODE_TEMP : Fld := ⟨0, 16⟩
/-- R487, 14_power_thermal.md. -/
def PW_BTH : Nat := 0xC00020
def PW_BTH_VALID : Fld := ⟨31, 1⟩
def PW_BTH_OPEN : Fld := ⟨30, 1⟩
def PW_BTH_SHORT : Fld := ⟨29, 1⟩
def PW_BTH_TEMP : Fld := ⟨0, 16⟩
/-- R487, 14_power_thermal.md. -/
def PW_SLEW : Nat := 0xC00024
def PW_SLEW_CODE : Fld := ⟨0, 8⟩
/-- R487, 14_power_thermal.md. -/
def PW_LOG_SEQ : Nat := 0xC00028
def PW_LOG_SEQ_SEQ : Fld := ⟨0, 32⟩
/-- R487, 14_power_thermal.md, host-writable. -/
def PW_CNT_CLR : Nat := 0xC00030
def PW_CNT_CLR_ALL : Fld := ⟨31, 1⟩
/-- R487, 14_power_thermal.md. -/
def PW_DROOP_IO : Nat := 0xC00034
def PW_DROOP_IO_COUNT : Fld := ⟨0, 32⟩
/-- R487, 14_power_thermal.md. -/
def PW_DROOP_C0 : Nat := 0xC00038
def PW_DROOP_C0_COUNT : Fld := ⟨0, 32⟩
/-- R487, 14_power_thermal.md. -/
def PW_DROOP_C1 : Nat := 0xC0003C
def PW_DROOP_C1_COUNT : Fld := ⟨0, 32⟩
/-- R487, 14_power_thermal.md. -/
def PW_STRETCH_US : Nat := 0xC00040
def PW_STRETCH_US_COUNT : Fld := ⟨0, 32⟩
/-- R487, 14_power_thermal.md. -/
def PW_THR_UP : Nat := 0xC00044
def PW_THR_UP_COUNT : Fld := ⟨0, 32⟩
/-- R487, 14_power_thermal.md. -/
def PW_NEAR : Nat := 0xC00048
def PW_NEAR_COUNT : Fld := ⟨0, 32⟩
/-- R487, 14_power_thermal.md. -/
def PW_SHUTDOWNS : Nat := 0xC0004C
def PW_SHUTDOWNS_COUNT : Fld := ⟨0, 32⟩
/-- R487, 14_power_thermal.md. -/
def PW_RAIL_FAULTS : Nat := 0xC00050
def PW_RAIL_FAULTS_COUNT : Fld := ⟨0, 32⟩
/-- R540, 16_electrical_package.md. -/
def PW_SSC : Nat := 0xC00060
def PW_SSC_MADDER : Fld := ⟨31, 1⟩
def PW_SSC_INDIGO : Fld := ⟨30, 1⟩
def PW_SSC_CP : Fld := ⟨29, 1⟩
def PW_SSC_DRAM : Fld := ⟨28, 1⟩
def PW_SSC_DEPTH : Fld := ⟨0, 3⟩
/-- R544, 16_electrical_package.md. -/
def PW_PAD : Nat := 0xC00064
def PW_PAD_TRIG : Fld := ⟨24, 8⟩
def PW_PAD_FRAME : Fld := ⟨20, 4⟩
def PW_PAD_CLKOUT : Fld := ⟨16, 4⟩
def PW_PAD_HB_OUT : Fld := ⟨15, 1⟩
def PW_PAD_TDO : Fld := ⟨14, 1⟩
/-- R487, 14_power_thermal.md. -/
def PW_TS (o : Nat) : Nat := 0xC00100 + 0x4 * o
def PW_TS_STATUS : Fld := ⟨30, 2⟩
def PW_TS_FAST : Fld := ⟨29, 1⟩
def PW_TS_TEMP : Fld := ⟨0, 16⟩
/-- R430, 12_command_interface.md. -/
def SC_STAT : Nat := 0xD00000
def SC_STAT_COUNT : Fld := ⟨16, 9⟩
def SC_STAT_NEXT_HANDLE : Fld := ⟨0, 16⟩
/-- R430, 12_command_interface.md. -/
def SC_NEXT_LO : Nat := 0xD00008
def SC_NEXT_LO_F : Fld := ⟨0, 32⟩
/-- R430, 12_command_interface.md. -/
def SC_NEXT_HI : Nat := 0xD0000C
def SC_NEXT_HI_F : Fld := ⟨0, 32⟩
/-- R430, 12_command_interface.md, host-writable. -/
def SC_CNT_CLR : Nat := 0xD00010
def SC_CNT_CLR_ALL : Fld := ⟨31, 1⟩
/-- R430, 12_command_interface.md. -/
def SC_FIRED : Nat := 0xD00014
def SC_FIRED_COUNT : Fld := ⟨0, 32⟩
/-- R430, 12_command_interface.md. -/
def SC_LATE : Nat := 0xD00018
def SC_LATE_COUNT : Fld := ⟨0, 32⟩
/-- R430, 12_command_interface.md. -/
def SC_FULL : Nat := 0xD0001C
def SC_FULL_COUNT : Fld := ⟨0, 32⟩
/-- R430, 12_command_interface.md. -/
def SC_CANCELLED : Nat := 0xD00020
def SC_CANCELLED_COUNT : Fld := ⟨0, 32⟩
/-- R430, 12_command_interface.md. -/
def SC_FAILED : Nat := 0xD00024
def SC_FAILED_COUNT : Fld := ⟨0, 32⟩
/-- R555, 17_register_map.md, host-writable. -/
def EV_INT_STAT : Nat := 0xE00000
def EV_INT_STAT_PEND : Fld := ⟨0, 16⟩
/-- R555, 17_register_map.md, host-writable. -/
def EV_INT_EN : Nat := 0xE00004
def EV_INT_EN_EN : Fld := ⟨0, 16⟩
/-- R555, 17_register_map.md, host-writable. -/
def EV_MD_EXC0 : Nat := 0xE00008
def EV_MD_EXC0_SLICE : Fld := ⟨0, 32⟩
/-- R555, 17_register_map.md, host-writable. -/
def EV_MD_EXC1 : Nat := 0xE0000C
def EV_MD_EXC1_SLICE : Fld := ⟨0, 32⟩
/-- R555, 17_register_map.md, host-writable. -/
def EV_MD_EVT0 : Nat := 0xE00010
def EV_MD_EVT0_SLICE : Fld := ⟨0, 32⟩
/-- R555, 17_register_map.md, host-writable. -/
def EV_MD_EVT1 : Nat := 0xE00014
def EV_MD_EVT1_SLICE : Fld := ⟨0, 32⟩

def regsGLB0 : List RegDesc := [
  ⟨0x0, [], false, 0x4F4C0512, [⟨GLB_ID_VENDOR, .ro, false, []⟩, ⟨GLB_ID_PART, .ro, false, []⟩]⟩,
  ⟨0x4, [], false, 0x1010101, [⟨GLB_REV_IO_STEP, .ro, false, []⟩, ⟨GLB_REV_CD_STEP, .ro, false, []⟩, ⟨GLB_REV_PW_STEP, .ro, false, []⟩, ⟨GLB_REV_PKG, .ro, false, []⟩]⟩,
  ⟨0x8, [], false, 0x0, [⟨GLB_UID_LO_UID, .ro, false, []⟩]⟩,
  ⟨0xC, [], false, 0x0, [⟨GLB_UID_HI_UID, .ro, false, []⟩]⟩,
  ⟨0x10, [], false, 0x403FF400, [⟨GLB_CAP_SLICES, .ro, false, []⟩, ⟨GLB_CAP_TILES_M1, .ro, false, []⟩, ⟨GLB_CAP_PORTS, .ro, false, []⟩, ⟨GLB_CAP_NCH, .ro, false, []⟩]⟩,
  ⟨0x20, [], false, 0x0, [⟨GLB_RST_STAT_WARM, .ro, false, []⟩, ⟨GLB_RST_STAT_COMPUTE, .ro, false, []⟩, ⟨GLB_RST_STAT_FLR, .ro, false, []⟩, ⟨GLB_RST_STAT_PERST, .ro, false, []⟩]⟩,
  ⟨0x40, [], false, 0x0, [⟨GLB_AV_STAT_VALID, .ro, false, []⟩, ⟨GLB_AV_STAT_SRC, .ro, false, []⟩, ⟨GLB_AV_STAT_KIND, .ro, false, []⟩]⟩,
  ⟨0x44, [], false, 0x0, [⟨GLB_AV_ADDR_LO_ADDR, .ro, false, []⟩]⟩,
  ⟨0x48, [], false, 0x0, [⟨GLB_AV_ADDR_HI_ADDR, .ro, false, []⟩]⟩,
  ⟨0x4C, [], false, 0x0, [⟨GLB_AV_DATA_DATA, .ro, false, []⟩]⟩,
  ⟨0x50, [], false, 0x0, [⟨GLB_AV_COUNT_COUNT, .ro, false, []⟩]⟩,
  ⟨0x54, [], true, 0x0, [⟨GLB_CNT_CLR_AV, .wo, false, []⟩]⟩]
def regsSL0 : List RegDesc := [
  ⟨0x100000, [], false, 0x0, [⟨SL_REL_STAT_SET, .ro, false, []⟩, ⟨SL_REL_STAT_REL_RUNG, .ro, false, []⟩, ⟨SL_REL_STAT_SPREAD, .ro, false, []⟩]⟩,
  ⟨0x100010, [], true, 0x0, [⟨SL_CNT_CLR_ALL, .wo, false, []⟩, ⟨SL_CNT_CLR_GO, .wo, false, []⟩, ⟨SL_CNT_CLR_OCT, .wo, false, []⟩]⟩,
  ⟨0x101000, [(64, 0x400)], false, 0x0, [⟨SL_OCT_CTL_TARGET_RUNG, .rw, true, []⟩, ⟨SL_OCT_CTL_FMT, .rw, true, []⟩, ⟨SL_OCT_CTL_RX_SLEEP, .rw, false, []⟩, ⟨SL_OCT_CTL_CTL_SLEEP, .rw, false, []⟩, ⟨SL_OCT_CTL_RELADDER, .w1s, false, []⟩, ⟨SL_OCT_CTL_EXCLUDE_WEAK, .rw, true, []⟩]⟩,
  ⟨0x101004, [(64, 0x400)], false, 0x0, [⟨SL_OCT_STAT_RUNG, .ro, false, []⟩, ⟨SL_OCT_STAT_STATE, .ro, false, []⟩, ⟨SL_OCT_STAT_FCK_LOSS, .ro, false, []⟩, ⟨SL_OCT_STAT_CTL_FAULT, .ro, false, []⟩, ⟨SL_OCT_STAT_ORDER_FAULT, .ro, false, []⟩, ⟨SL_OCT_STAT_OFFSET_CHANGED, .w1c, false, []⟩, ⟨SL_OCT_STAT_FCK_LOST_SEEN, .w1c, false, []⟩, ⟨SL_OCT_STAT_IN_SERVICE, .ro, false, []⟩]⟩,
  ⟨0x101008, [(64, 0x400)], false, 0x0, [⟨SL_OCT_MAP_POL, .ro, false, []⟩, ⟨SL_OCT_MAP_MAP, .ro, false, []⟩]⟩,
  ⟨0x10100C, [(64, 0x400)], false, 0x0, [⟨SL_OCT_OFS_LO_OFS, .ro, false, []⟩]⟩,
  ⟨0x101010, [(64, 0x400)], false, 0x0, [⟨SL_OCT_OFS_HI_OFS, .ro, false, []⟩]⟩,
  ⟨0x101020, [(64, 0x400)], false, 0xC0000000, [⟨SL_OCT_PRBS_PAT, .rw, false, []⟩, ⟨SL_OCT_PRBS_GEN_EN, .rw, false, []⟩, ⟨SL_OCT_PRBS_CHK_EN, .rw, false, []⟩, ⟨SL_OCT_PRBS_INJ_ONE, .w1s, false, []⟩, ⟨SL_OCT_PRBS_INJ_RATE, .rw, false, []⟩, ⟨SL_OCT_PRBS_CHK_INJ, .w1s, false, []⟩, ⟨SL_OCT_PRBS_CHK_LANES, .rw, false, []⟩]⟩,
  ⟨0x101024, [(64, 0x400)], false, 0x0, [⟨SL_OCT_CTLRETRY_COUNT, .ro, false, []⟩]⟩,
  ⟨0x101100, [(64, 0x400), (8, 0x20)], false, 0x0, [⟨SL_LANE_STAT_LOS, .ro, false, []⟩, ⟨SL_LANE_STAT_LOCK, .ro, false, []⟩, ⟨SL_LANE_STAT_EQ_FROZEN, .ro, false, []⟩, ⟨SL_LANE_STAT_SKEW_RANGE, .ro, false, []⟩, ⟨SL_LANE_STAT_SLIP, .w1c, false, []⟩, ⟨SL_LANE_STAT_DEGRADED, .ro, false, []⟩, ⟨SL_LANE_STAT_EXCLUDED, .ro, false, []⟩, ⟨SL_LANE_STAT_LEAD, .ro, false, []⟩]⟩,
  ⟨0x101104, [(64, 0x400), (8, 0x20)], false, 0x0, [⟨SL_LANE_CRCERR_COUNT, .ro, false, []⟩]⟩,
  ⟨0x101108, [(64, 0x400), (8, 0x20)], false, 0x0, [⟨SL_LANE_HDRERR_COUNT, .ro, false, []⟩]⟩,
  ⟨0x10110C, [(64, 0x400), (8, 0x20)], false, 0x0, [⟨SL_LANE_LOCKLOSS_COUNT, .ro, false, []⟩]⟩,
  ⟨0x101110, [(64, 0x400), (8, 0x20)], false, 0x0, [⟨SL_LANE_PRBSERR_COUNT, .ro, false, []⟩]⟩,
  ⟨0x101114, [(64, 0x400), (8, 0x20)], false, 0x0, [⟨SL_LANE_OVR_COUNT, .ro, false, []⟩]⟩]
def regsMD0 : List RegDesc := [
  ⟨0x200000, [], false, 0x0, [⟨MD_STORE_STAT_VALID, .ro, false, []⟩]⟩,
  ⟨0x200010, [], true, 0x0, [⟨MD_CNT_CLR_ALL, .wo, false, []⟩, ⟨MD_CNT_CLR_GO, .wo, false, []⟩, ⟨MD_CNT_CLR_SLICE, .wo, false, []⟩]⟩,
  ⟨0x201000, [(64, 0x400)], false, 0x0, [⟨MD_SL_CTL_RUN, .rw, true, []⟩, ⟨MD_SL_CTL_AUTO_RESTART, .rw, true, []⟩, ⟨MD_SL_CTL_SLOT, .rw, true, [(0, 16)]⟩]⟩,
  ⟨0x201004, [(64, 0x400)], false, 0x0, [⟨MD_SL_STAT_STATE, .ro, false, []⟩, ⟨MD_SL_STAT_GOV, .w1c, false, []⟩, ⟨MD_SL_STAT_SSAT, .w1c, false, []⟩, ⟨MD_SL_STAT_ECC_CORR, .w1c, false, []⟩]⟩,
  ⟨0x201008, [(64, 0x400)], false, 0x0, [⟨MD_SL_EXC_CODE, .ro, false, []⟩, ⟨MD_SL_EXC_RESTARTS, .ro, false, []⟩, ⟨MD_SL_EXC_ADDR, .ro, false, []⟩]⟩,
  ⟨0x20100C, [(64, 0x400)], false, 0x0, [⟨MD_SL_ST_LO_ST, .ro, false, []⟩]⟩,
  ⟨0x201010, [(64, 0x400)], false, 0x0, [⟨MD_SL_ST_HI_ST, .ro, false, []⟩]⟩,
  ⟨0x201014, [(64, 0x400)], false, 0x0, [⟨MD_SL_CYC_MAX, .ro, false, []⟩, ⟨MD_SL_CYC_LAST, .ro, false, []⟩]⟩,
  ⟨0x201018, [(64, 0x400)], false, 0x0, [⟨MD_SL_GOVCNT_COUNT, .ro, false, []⟩]⟩,
  ⟨0x20101C, [(64, 0x400)], false, 0x0, [⟨MD_SL_SATCNT_COUNT, .ro, false, []⟩]⟩,
  ⟨0x201020, [(64, 0x400)], false, 0x0, [⟨MD_SL_ECCCNT_COUNT, .ro, false, []⟩]⟩,
  ⟨0x201024, [(64, 0x400)], false, 0x0, [⟨MD_SL_MARKCNT_COUNT, .ro, false, []⟩]⟩,
  ⟨0x201028, [(64, 0x400)], false, 0x0, [⟨MD_SL_EVT_COUNT, .ro, false, []⟩, ⟨MD_SL_EVT_LAST, .ro, false, []⟩]⟩,
  ⟨0x201030, [(64, 0x400)], false, 0x0, [⟨MD_SL_RING_BASE_LO_BASE, .rw, true, []⟩]⟩,
  ⟨0x201034, [(64, 0x400)], false, 0x0, [⟨MD_SL_RING_BASE_HI_BASE, .rw, true, []⟩]⟩,
  ⟨0x201038, [(64, 0x400)], false, 0x0, [⟨MD_SL_RING_LEN_LEN, .rw, true, []⟩]⟩]
def regsMD1 : List RegDesc := [
  ⟨0x20103C, [(64, 0x400)], false, 0x0, [⟨MD_SL_RING_SEQ_SEQ, .ro, false, []⟩]⟩,
  ⟨0x201100, [(64, 0x400), (8, 0x10)], false, 0x0, [⟨MD_PATH_DELAY_DELAY, .rw, true, []⟩]⟩,
  ⟨0x201104, [(64, 0x400), (8, 0x10)], false, 0x0, [⟨MD_PATH_STAT_ARITH_SEEN, .w1c, false, []⟩, ⟨MD_PATH_STAT_STALE_SEEN, .w1c, false, []⟩, ⟨MD_PATH_STAT_DCONT_SEEN, .w1c, false, []⟩]⟩,
  ⟨0x240000, [], false, 0x0, [⟨MD_CH_TARGET_TARGET, .rw, true, [(128, 192)]⟩]⟩,
  ⟨0x240008, [], false, 0x0, [⟨MD_CH_EPOCH_LO_EPOCH, .ro, false, []⟩]⟩,
  ⟨0x24000C, [], false, 0x0, [⟨MD_CH_EPOCH_HI_EPOCH, .ro, false, []⟩]⟩,
  ⟨0x241000, [(64, 0x20)], false, 0x0, [⟨MD_CH_SL_STAT_BANK, .ro, false, []⟩, ⟨MD_CH_SL_STAT_COPYING, .ro, false, []⟩, ⟨MD_CH_SL_STAT_SWAP_QUEUED, .ro, false, []⟩, ⟨MD_CH_SL_STAT_SEEDED, .ro, false, []⟩]⟩,
  ⟨0x241004, [(64, 0x20)], false, 0x0, [⟨MD_CH_SL_CLIPS_COUNT, .ro, false, []⟩]⟩,
  ⟨0x241008, [(64, 0x20)], false, 0x0, [⟨MD_CH_SL_SEEDS_COUNT, .ro, false, []⟩]⟩,
  ⟨0x24100C, [(64, 0x20)], false, 0x0, [⟨MD_CH_SL_WARM_COUNT, .ro, false, []⟩]⟩]
def regsIX0 : List RegDesc := [
  ⟨0x300000, [], false, 0x0, [⟨IX_CTL_RUN, .rw, true, []⟩, ⟨IX_CTL_FMT, .rw, true, []⟩, ⟨IX_CTL_EXPORT_ETH, .rw, true, []⟩]⟩,
  ⟨0x300004, [], false, 0x0, [⟨IX_STAT_STATE, .ro, false, []⟩, ⟨IX_STAT_OVERRUN_SEEN, .w1c, false, []⟩, ⟨IX_STAT_SHED_SEEN, .w1c, false, []⟩, ⟨IX_STAT_SAT_SEEN, .w1c, false, []⟩, ⟨IX_STAT_DROP_SEEN, .w1c, false, []⟩, ⟨IX_STAT_LOST_SEEN, .w1c, false, []⟩]⟩,
  ⟨0x300008, [], false, 0x0, [⟨IX_BANK_STAT_OPEN, .ro, false, []⟩, ⟨IX_BANK_STAT_DRAINING, .ro, false, []⟩, ⟨IX_BANK_STAT_DRAIN_WAIT, .ro, false, []⟩, ⟨IX_BANK_STAT_DRAIN_LEFT, .ro, false, []⟩]⟩,
  ⟨0x30000C, [], false, 0x0, [⟨IX_INT_LEN_NSPEC, .rw, true, [(1, 33554431)]⟩]⟩,
  ⟨0x300010, [], false, 0x0, [⟨IX_INT_START_LO_START, .ro, false, []⟩]⟩,
  ⟨0x300014, [], false, 0x0, [⟨IX_INT_START_HI_START, .ro, false, []⟩]⟩,
  ⟨0x300018, [], false, 0x0, [⟨IX_NEXT_CLOSE_LO_CLOSE, .ro, false, []⟩]⟩,
  ⟨0x30001C, [], false, 0x0, [⟨IX_NEXT_CLOSE_HI_CLOSE, .ro, false, []⟩]⟩,
  ⟨0x300020, [], false, 0x0, [⟨IX_INT_SEQ_SEQ, .ro, false, []⟩]⟩,
  ⟨0x300024, [], false, 0x0, [⟨IX_STAGE_T, .ro, false, []⟩]⟩,
  ⟨0x300028, [], false, 0x0, [⟨IX_STAGE_CH_FIRST, .ro, false, []⟩, ⟨IX_STAGE_CH_COUNT, .ro, false, []⟩]⟩,
  ⟨0x300038, [], false, 0x0, [⟨IX_SHED_DIE1, .ro, false, []⟩, ⟨IX_SHED_DIE0, .ro, false, []⟩]⟩,
  ⟨0x300040, [], false, 0x0, [⟨IX_DUMP_BASE_LO_BASE, .rw, true, []⟩]⟩,
  ⟨0x300044, [], false, 0x0, [⟨IX_DUMP_BASE_HI_BASE, .rw, true, []⟩]⟩,
  ⟨0x300048, [], false, 0x0, [⟨IX_DUMP_LEN_LEN, .rw, true, []⟩]⟩,
  ⟨0x30004C, [], false, 0x0, [⟨IX_DUMP_WR_OFFSET, .ro, false, []⟩]⟩]
def regsIX1 : List RegDesc := [
  ⟨0x300050, [], false, 0x0, [⟨IX_DUMP_RD_OFFSET, .ro, false, []⟩]⟩,
  ⟨0x300060, [], true, 0x0, [⟨IX_CNT_CLR_ALL, .wo, false, []⟩, ⟨IX_CNT_CLR_SAT, .wo, false, []⟩]⟩,
  ⟨0x300064, [], false, 0x0, [⟨IX_OVERRUNS_COUNT, .ro, false, []⟩]⟩,
  ⟨0x300068, [], false, 0x0, [⟨IX_SHED_PASSES_COUNT, .ro, false, []⟩]⟩,
  ⟨0x30006C, [], false, 0x0, [⟨IX_STAGE_DROPS_COUNT, .ro, false, []⟩]⟩,
  ⟨0x300070, [], false, 0x0, [⟨IX_SAT_ENTRIES_COUNT, .ro, false, []⟩]⟩,
  ⟨0x300074, [], false, 0x0, [⟨IX_LOST_INTEG_COUNT, .ro, false, []⟩]⟩,
  ⟨0x300030, [(2, 0x4)], false, 0x0, [⟨IX_UTIL_U3, .ro, false, []⟩, ⟨IX_UTIL_U2, .ro, false, []⟩, ⟨IX_UTIL_U1, .ro, false, []⟩, ⟨IX_UTIL_U0, .ro, false, []⟩]⟩,
  ⟨0x300100, [(32, 0x4)], false, 0x0, [⟨IX_TILE_SAT_SAT, .w1c, false, []⟩]⟩,
  ⟨0x301000, [(16, 0x20)], false, 0x0, [⟨IX_RG_CTL_EN, .ro, false, []⟩, ⟨IX_RG_CTL_PRIO, .ro, false, []⟩, ⟨IX_RG_CTL_SAT_RISK, .ro, false, []⟩, ⟨IX_RG_CTL_N_BINS, .ro, false, []⟩, ⟨IX_RG_CTL_BIN_W, .ro, false, []⟩]⟩,
  ⟨0x301004, [(16, 0x20)], false, 0x0, [⟨IX_RG_BL_FIRST_VALUE, .ro, false, []⟩]⟩,
  ⟨0x301008, [(16, 0x20)], false, 0x0, [⟨IX_RG_BL_COUNT_VALUE, .ro, false, []⟩]⟩,
  ⟨0x30100C, [(16, 0x20)], false, 0x0, [⟨IX_RG_CH_CH_FIRST, .ro, false, []⟩, ⟨IX_RG_CH_SPLIT_BIN, .ro, false, []⟩]⟩,
  ⟨0x301010, [(16, 0x20)], false, 0x0, [⟨IX_RG_VATBASE_VATBASE, .ro, false, []⟩]⟩]
def regsWD0 : List RegDesc := [
  ⟨0x400000, [], false, 0x0, [⟨WD_CTL_RUN, .rw, true, []⟩, ⟨WD_CTL_SB, .rw, true, []⟩]⟩,
  ⟨0x400004, [], false, 0x0, [⟨WD_STAT_SHED_SEEN, .w1c, false, []⟩, ⟨WD_STAT_DROP_SEEN, .w1c, false, []⟩, ⟨WD_STAT_POLY_AGE_SEEN, .w1c, false, []⟩, ⟨WD_STAT_CLIP_SEEN, .w1c, false, []⟩, ⟨WD_STAT_SHED, .ro, false, []⟩]⟩,
  ⟨0x400008, [], false, 0x0, [⟨WD_CH_FIRST, .rw, true, []⟩, ⟨WD_CH_COUNT, .rw, true, []⟩]⟩,
  ⟨0x400010, [], false, 0x0, [⟨WD_FREQ_LO_F0, .rw, true, []⟩]⟩,
  ⟨0x400014, [], false, 0x0, [⟨WD_FREQ_HI_F0, .rw, true, []⟩]⟩,
  ⟨0x400018, [], false, 0x0, [⟨WD_TABLE_ACTIVE, .ro, false, []⟩, ⟨WD_TABLE_LOADING, .ro, false, []⟩, ⟨WD_TABLE_COPYING, .ro, false, []⟩, ⟨WD_TABLE_SWAP_QUEUED, .ro, false, []⟩, ⟨WD_TABLE_SEG, .ro, false, []⟩]⟩,
  ⟨0x40001C, [], false, 0x0, [⟨WD_UTIL_U3, .ro, false, []⟩, ⟨WD_UTIL_U2, .ro, false, []⟩, ⟨WD_UTIL_U1, .ro, false, []⟩, ⟨WD_UTIL_U0, .ro, false, []⟩]⟩,
  ⟨0x400020, [], true, 0x0, [⟨WD_CNT_CLR_ALL, .wo, false, []⟩]⟩,
  ⟨0x400024, [], false, 0x0, [⟨WD_DROP_SPEC_COUNT, .ro, false, []⟩]⟩,
  ⟨0x400028, [], false, 0x0, [⟨WD_SHED_PASSES_COUNT, .ro, false, []⟩]⟩,
  ⟨0x40002C, [], false, 0x0, [⟨WD_CLIPS_COUNT, .ro, false, []⟩]⟩,
  ⟨0x400030, [], false, 0x0, [⟨WD_GAP_PKTS_COUNT, .ro, false, []⟩]⟩,
  ⟨0x401000, [(64, 0x20)], false, 0x0, [⟨WD_BM_CTL_EN, .rw, true, []⟩, ⟨WD_BM_CTL_FMT, .rw, true, [(0, 2)]⟩, ⟨WD_BM_CTL_PRIO, .rw, true, []⟩, ⟨WD_BM_CTL_SHIFT, .rw, true, []⟩, ⟨WD_BM_CTL_PORT, .rw, true, []⟩]⟩,
  ⟨0x401004, [(64, 0x20)], false, 0x0, [⟨WD_BM_PKT_CPK, .rw, true, [(0, 5)]⟩, ⟨WD_BM_PKT_PBIN, .rw, true, [(0, 8)]⟩, ⟨WD_BM_PKT_SPK, .rw, true, []⟩, ⟨WD_BM_PKT_NINT, .rw, true, []⟩]⟩,
  ⟨0x401008, [(64, 0x20)], false, 0x0, [⟨WD_BM_DMAC_LO_MAC, .rw, true, []⟩]⟩,
  ⟨0x40100C, [(64, 0x20)], false, 0x0, [⟨WD_BM_DMAC_HI_MAC, .rw, true, []⟩]⟩]
def regsWD1 : List RegDesc := [
  ⟨0x401010, [(64, 0x20)], false, 0x0, [⟨WD_BM_DIP_IP, .rw, true, []⟩]⟩,
  ⟨0x401014, [(64, 0x20)], false, 0x0, [⟨WD_BM_UDP_DPORT, .rw, true, []⟩, ⟨WD_BM_UDP_SPORT, .rw, true, []⟩]⟩,
  ⟨0x401018, [(64, 0x20)], false, 0x0, [⟨WD_BM_SEQ_SEQ, .ro, false, []⟩]⟩]
def regsSF0 : List RegDesc := [
  ⟨0x500000, [], false, 0x0, [⟨SF_CTL_RUN, .rw, true, []⟩, ⟨SF_CTL_STANDBY_OUT, .rw, true, []⟩, ⟨SF_CTL_MSG_PORTS, .rw, true, []⟩, ⟨SF_CTL_PW, .rw, true, [(1, 255)]⟩]⟩,
  ⟨0x500004, [], false, 0x0, [⟨SF_STAT_CLIP_SEEN, .w1c, false, []⟩, ⟨SF_STAT_COALESCE_SEEN, .w1c, false, []⟩, ⟨SF_STAT_UNCHECKED_SEEN, .w1c, false, []⟩, ⟨SF_STAT_TRIG_NOW, .ro, false, []⟩]⟩,
  ⟨0x500008, [], false, 0x0, [⟨SF_TRIGIN_ARM_TGT, .rw, true, []⟩, ⟨SF_TRIGIN_VETO_TGT, .rw, true, []⟩, ⟨SF_TRIGIN_IN, .rw, true, []⟩]⟩,
  ⟨0x50000C, [], false, 0x0, [⟨SF_TI_SUB_SUB, .ro, false, []⟩]⟩,
  ⟨0x500010, [], false, 0x0, [⟨SF_MSG_DMAC_LO_MAC, .rw, true, []⟩]⟩,
  ⟨0x500014, [], false, 0x0, [⟨SF_MSG_DMAC_HI_MAC, .rw, true, []⟩]⟩,
  ⟨0x500020, [], true, 0x0, [⟨SF_CNT_CLR_ALL, .wo, false, []⟩]⟩,
  ⟨0x500024, [], false, 0x0, [⟨SF_MSGS_COUNT, .ro, false, []⟩]⟩,
  ⟨0x500028, [], false, 0x0, [⟨SF_COALESCED_COUNT, .ro, false, []⟩]⟩,
  ⟨0x50002C, [], false, 0x0, [⟨SF_SEL_CLIPS_COUNT, .ro, false, []⟩]⟩,
  ⟨0x500040, [(8, 0x4)], false, 0x0, [⟨SF_TRIG_EN, .rw, true, []⟩, ⟨SF_TRIG_POL, .rw, true, []⟩, ⟨SF_TRIG_MSG, .rw, true, []⟩, ⟨SF_TRIG_MASK, .rw, true, []⟩]⟩,
  ⟨0x500060, [(4, 0x8)], false, 0x0, [⟨SF_TI_ATC_LO_ATC, .ro, false, []⟩]⟩,
  ⟨0x500064, [(4, 0x8)], false, 0x0, [⟨SF_TI_ATC_HI_ATC, .ro, false, []⟩]⟩,
  ⟨0x501000, [(16, 0x20)], false, 0x0, [⟨SF_TB_CTL_EN, .rw, true, []⟩, ⟨SF_TB_CTL_WSEL, .rw, true, []⟩, ⟨SF_TB_CTL_A, .rw, true, [(8, 24)]⟩, ⟨SF_TB_CTL_K, .rw, true, [(1, 255)]⟩]⟩,
  ⟨0x501004, [(16, 0x20)], false, 0x0, [⟨SF_TB_OFS_OFS, .rw, true, []⟩]⟩,
  ⟨0x501008, [(16, 0x20)], false, 0x0, [⟨SF_TB_BASE_BASE, .ro, false, []⟩]⟩]
def regsSF1 : List RegDesc := [
  ⟨0x50100C, [(16, 0x20)], false, 0x0, [⟨SF_TB_STAT_TRAINING, .ro, false, []⟩, ⟨SF_TB_STAT_RETRAIN_SEEN, .w1c, false, []⟩, ⟨SF_TB_STAT_FIRING, .ro, false, []⟩, ⟨SF_TB_STAT_ZERO_PATHS, .ro, false, []⟩]⟩,
  ⟨0x501010, [(16, 0x20)], false, 0x0, [⟨SF_TB_FIRES_COUNT, .ro, false, []⟩]⟩,
  ⟨0x501800, [(8, 0x10)], false, 0x0, [⟨SF_CU_CTL_EN, .rw, true, []⟩, ⟨SF_CU_CTL_GSZ, .rw, true, []⟩, ⟨SF_CU_CTL_M, .rw, true, []⟩, ⟨SF_CU_CTL_CW, .rw, true, []⟩, ⟨SF_CU_CTL_FIRST, .rw, true, []⟩]⟩,
  ⟨0x501804, [(8, 0x10)], false, 0x0, [⟨SF_CU_FIRES_COUNT, .ro, false, []⟩]⟩,
  ⟨0x502000, [(512, 0x4)], false, 0x0, [⟨SF_PATH_HIT_EN, .rw, true, []⟩, ⟨SF_PATH_SEL, .rw, true, [(0, 8)]⟩, ⟨SF_PATH_HLEV, .rw, true, [(1, 8)]⟩]⟩,
  ⟨0x540000, [(8192, 0x4)], false, 0x0, [⟨SF_TBP_WT, .rw, true, [(0, 1), (3, 3)]⟩, ⟨SF_TBP_DELAY, .rw, true, []⟩]⟩,
  ⟨0x560000, [(8192, 0x4)], false, 0x0, [⟨SF_TBP_ACT_WT, .ro, true, []⟩, ⟨SF_TBP_ACT_DELAY, .ro, true, []⟩]⟩,
  ⟨0x580000, [], false, 0x0, [⟨SF_UB_CTL_EN, .rw, true, []⟩, ⟨SF_UB_CTL_FRZ_SRC, .rw, true, []⟩]⟩,
  ⟨0x580004, [], false, 0x0, [⟨SF_UB_STAT_STATE, .ro, false, []⟩, ⟨SF_UB_STAT_CUT_SEEN, .w1c, false, []⟩, ⟨SF_UB_STAT_CHG_HELD, .ro, false, []⟩, ⟨SF_UB_STAT_CHG_PENDING, .ro, false, []⟩, ⟨SF_UB_STAT_DROP_SEEN, .w1c, false, []⟩]⟩,
  ⟨0x580008, [], true, 0x0, [⟨SF_UB_BASE_LO_BASE, .rw, true, []⟩]⟩,
  ⟨0x58000C, [], true, 0x0, [⟨SF_UB_BASE_HI_BASE, .rw, true, []⟩]⟩,
  ⟨0x580010, [], true, 0x0, [⟨SF_UB_LEN_LEN, .rw, true, []⟩]⟩,
  ⟨0x580014, [], false, 0x0, [⟨SF_UB_WR_VALUE, .ro, false, []⟩]⟩,
  ⟨0x580018, [], false, 0x0, [⟨SF_UB_SPAN_VALUE, .ro, false, []⟩]⟩,
  ⟨0x58001C, [], false, 0x0, [⟨SF_UB_GEN_GEN, .ro, false, []⟩]⟩,
  ⟨0x580020, [], false, 0x0, [⟨SF_UB_FRZ_ATC_LO_ATC, .ro, false, []⟩]⟩]
def regsSF2 : List RegDesc := [
  ⟨0x580024, [], false, 0x0, [⟨SF_UB_FRZ_ATC_HI_ATC, .ro, false, []⟩]⟩,
  ⟨0x580028, [], false, 0x0, [⟨SF_UB_FRZ_WR_VALUE, .ro, false, []⟩]⟩,
  ⟨0x58002C, [], false, 0x0, [⟨SF_UB_FRZ_SPAN_VALUE, .ro, false, []⟩]⟩,
  ⟨0x580030, [], true, 0x0, [⟨SF_UB_ARM_ARM, .wo, false, []⟩]⟩,
  ⟨0x580034, [], false, 0x0, [⟨SF_UB_SLAB_SLAB, .ro, false, []⟩]⟩,
  ⟨0x580038, [], false, 0x0, [⟨SF_UB_DROPS_COUNT, .ro, false, []⟩]⟩,
  ⟨0x58003C, [], false, 0x0, [⟨SF_UB_FRZ_IGN_COUNT, .ro, false, []⟩]⟩,
  ⟨0x580040, [], false, 0x0, [⟨SF_UB_CUT_COUNT, .ro, false, []⟩]⟩,
  ⟨0x580044, [], false, 0x0, [⟨SF_UB_POST_POST, .rw, true, []⟩]⟩,
  ⟨0x580080, [(24, 0x4)], false, 0x0, [⟨SF_UB_SEL_EN_B, .rw, true, []⟩, ⟨SF_UB_SEL_PATH_B, .rw, true, []⟩, ⟨SF_UB_SEL_EN_A, .rw, true, []⟩, ⟨SF_UB_SEL_PATH_A, .rw, true, []⟩]⟩]
def regsET0 : List RegDesc := [
  ⟨0x600000, [], false, 0x0, [⟨ET_CT_CTL_RUN, .rw, true, []⟩, ⟨ET_CT_CTL_MODE, .rw, true, []⟩, ⟨ET_CT_CTL_MEMBER, .rw, true, []⟩, ⟨ET_CT_CTL_PORTS, .rw, true, []⟩]⟩,
  ⟨0x600004, [], false, 0x0, [⟨ET_CT_STAT_LOSS_SEEN, .w1c, false, []⟩, ⟨ET_CT_STAT_RESYNC_SEEN, .w1c, false, []⟩, ⟨ET_CT_STAT_STALE_SEEN, .w1c, false, []⟩, ⟨ET_CT_STAT_UNSENT_SEEN, .w1c, false, []⟩, ⟨ET_CT_STAT_MISSING, .ro, false, []⟩]⟩,
  ⟨0x600008, [], false, 0x0, [⟨ET_CT_GRACE_GRACE, .rw, true, [(10, 10000)]⟩]⟩,
  ⟨0x60000C, [], false, 0x0, [⟨ET_CT_NAK_REORDER, .rw, true, [(1, 255)]⟩, ⟨ET_CT_NAK_DELAY, .rw, true, [(1, 255)]⟩, ⟨ET_CT_NAK_RETRY, .rw, true, [(10, 255)]⟩]⟩,
  ⟨0x600010, [], true, 0x0, [⟨ET_CNT_CLR_ALL, .wo, false, []⟩, ⟨ET_CNT_CLR_CT, .wo, false, []⟩, ⟨ET_CNT_CLR_PORTS, .wo, false, []⟩]⟩,
  ⟨0x600018, [], false, 0x0, [⟨ET_CT_GMAC_LO_MAC, .rw, true, []⟩]⟩,
  ⟨0x60001C, [], false, 0x0, [⟨ET_CT_GMAC_HI_MAC, .rw, true, []⟩]⟩,
  ⟨0x600020, [], false, 0x0, [⟨ET_DS_CTL_HOLD, .rw, true, []⟩, ⟨ET_DS_CTL_PORT, .rw, true, []⟩, ⟨ET_DS_CTL_SEG, .rw, true, (List.range 113).map fun i => (1024 + 64 * i, 1024 + 64 * i)⟩]⟩,
  ⟨0x600024, [], false, 0x0, [⟨ET_DS_DMAC_LO_MAC, .rw, true, []⟩]⟩,
  ⟨0x600028, [], false, 0x0, [⟨ET_DS_DMAC_HI_MAC, .rw, true, []⟩]⟩,
  ⟨0x60002C, [], false, 0x0, [⟨ET_DS_DIP_IP, .rw, true, []⟩]⟩,
  ⟨0x600030, [], false, 0x0, [⟨ET_DS_UDP_DPORT, .rw, true, []⟩, ⟨ET_DS_UDP_SPORT, .rw, true, []⟩]⟩,
  ⟨0x600034, [], false, 0x0, [⟨ET_DS_SEQ_PKT_SEQ, .ro, false, []⟩]⟩,
  ⟨0x600040, [], false, 0x0, [⟨ET_CT_TX_BLOCKS_LO_COUNT, .ro, false, []⟩]⟩,
  ⟨0x600044, [], false, 0x0, [⟨ET_CT_TX_BLOCKS_HI_COUNT, .ro, false, []⟩]⟩,
  ⟨0x600048, [], false, 0x0, [⟨ET_CT_RX_BLOCKS_LO_COUNT, .ro, false, []⟩]⟩]
def regsET1 : List RegDesc := [
  ⟨0x60004C, [], false, 0x0, [⟨ET_CT_RX_BLOCKS_HI_COUNT, .ro, false, []⟩]⟩,
  ⟨0x600050, [], false, 0x0, [⟨ET_CT_NAK_TX_COUNT, .ro, false, []⟩]⟩,
  ⟨0x600054, [], false, 0x0, [⟨ET_CT_NAK_RX_COUNT, .ro, false, []⟩]⟩,
  ⟨0x600058, [], false, 0x0, [⟨ET_CT_RESENT_COUNT, .ro, false, []⟩]⟩,
  ⟨0x60005C, [], false, 0x0, [⟨ET_CT_GONE_COUNT, .ro, false, []⟩]⟩,
  ⟨0x600060, [], false, 0x0, [⟨ET_CT_LOST_COUNT, .ro, false, []⟩]⟩,
  ⟨0x600064, [], false, 0x0, [⟨ET_CT_LATE_COUNT, .ro, false, []⟩]⟩,
  ⟨0x600068, [], false, 0x0, [⟨ET_CT_DUP_COUNT, .ro, false, []⟩]⟩,
  ⟨0x60006C, [], false, 0x0, [⟨ET_CT_CRC_COUNT, .ro, false, []⟩]⟩,
  ⟨0x600070, [], false, 0x0, [⟨ET_CT_OFFGRID_COUNT, .ro, false, []⟩]⟩,
  ⟨0x600074, [], false, 0x0, [⟨ET_CT_STALE_COUNT, .ro, false, []⟩]⟩,
  ⟨0x600078, [], false, 0x0, [⟨ET_CT_MALFORMED_COUNT, .ro, false, []⟩]⟩,
  ⟨0x60007C, [], false, 0x0, [⟨ET_CT_UNSENT_COUNT, .ro, false, []⟩]⟩,
  ⟨0x600080, [], false, 0x0, [⟨ET_CT_RESYNC_COUNT, .ro, false, []⟩]⟩,
  ⟨0x600084, [], false, 0x0, [⟨ET_CT_MISSING_MAX_COUNT, .ro, false, []⟩]⟩,
  ⟨0x601000, [(4, 0x400)], false, 0x0, [⟨ET_P_CTL_EN, .rw, true, []⟩, ⟨ET_P_CTL_SPEED, .rw, true, []⟩, ⟨ET_P_CTL_FC_MODE, .rw, true, [(0, 2)]⟩, ⟨ET_P_CTL_TX_PFC, .rw, true, []⟩, ⟨ET_P_CTL_PREEMPT, .rw, true, []⟩, ⟨ET_P_CTL_BCAST, .rw, true, []⟩, ⟨ET_P_CTL_MAXFRAME, .rw, true, [(1518, 9216)]⟩]⟩]
def regsET2 : List RegDesc := [
  ⟨0x601004, [(4, 0x400)], false, 0x0, [⟨ET_P_STAT_LINK, .ro, false, []⟩, ⟨ET_P_STAT_PREEMPT_OK, .ro, false, []⟩, ⟨ET_P_STAT_LINK_DOWN_SEEN, .w1c, false, []⟩, ⟨ET_P_STAT_FCS_SEEN, .w1c, false, []⟩, ⟨ET_P_STAT_DROP_SEEN, .w1c, false, []⟩, ⟨ET_P_STAT_C0_LATE_SEEN, .w1c, false, []⟩, ⟨ET_P_STAT_PAUSED, .ro, false, []⟩, ⟨ET_P_STAT_XOFF, .ro, false, []⟩]⟩,
  ⟨0x601008, [(4, 0x400)], false, 0x0, [⟨ET_P_PRIO_VID, .rw, true, [(0, 4094)]⟩, ⟨ET_P_PRIO_C0, .rw, true, []⟩, ⟨ET_P_PRIO_C1, .rw, true, []⟩, ⟨ET_P_PRIO_C2, .rw, true, []⟩, ⟨ET_P_PRIO_C3, .rw, true, []⟩]⟩,
  ⟨0x601010, [(4, 0x400)], false, 0x0, [⟨ET_P_MAC_LO_MAC, .rw, true, []⟩]⟩,
  ⟨0x601014, [(4, 0x400)], false, 0x0, [⟨ET_P_MAC_HI_MAC, .rw, true, []⟩]⟩,
  ⟨0x601018, [(4, 0x400)], false, 0x0, [⟨ET_P_IP_IP, .rw, true, []⟩]⟩,
  ⟨0x60101C, [(4, 0x400)], false, 0x0, [⟨ET_P_UDP_UDP, .rw, true, []⟩]⟩,
  ⟨0x601040, [(4, 0x400)], false, 0x0, [⟨ET_P_TX_FRAMES_LO_COUNT, .ro, false, []⟩]⟩,
  ⟨0x601044, [(4, 0x400)], false, 0x0, [⟨ET_P_TX_FRAMES_HI_COUNT, .ro, false, []⟩]⟩,
  ⟨0x601048, [(4, 0x400)], false, 0x0, [⟨ET_P_TX_OCTETS_LO_COUNT, .ro, false, []⟩]⟩,
  ⟨0x60104C, [(4, 0x400)], false, 0x0, [⟨ET_P_TX_OCTETS_HI_COUNT, .ro, false, []⟩]⟩,
  ⟨0x601050, [(4, 0x400)], false, 0x0, [⟨ET_P_RX_FRAMES_LO_COUNT, .ro, false, []⟩]⟩,
  ⟨0x601054, [(4, 0x400)], false, 0x0, [⟨ET_P_RX_FRAMES_HI_COUNT, .ro, false, []⟩]⟩,
  ⟨0x601058, [(4, 0x400)], false, 0x0, [⟨ET_P_RX_OCTETS_LO_COUNT, .ro, false, []⟩]⟩,
  ⟨0x60105C, [(4, 0x400)], false, 0x0, [⟨ET_P_RX_OCTETS_HI_COUNT, .ro, false, []⟩]⟩,
  ⟨0x601060, [(4, 0x400)], false, 0x0, [⟨ET_P_RX_FCS_ERR_COUNT, .ro, false, []⟩]⟩,
  ⟨0x601064, [(4, 0x400)], false, 0x0, [⟨ET_P_RX_RUNT_COUNT, .ro, false, []⟩]⟩]
def regsET3 : List RegDesc := [
  ⟨0x601068, [(4, 0x400)], false, 0x0, [⟨ET_P_RX_OVERSIZE_COUNT, .ro, false, []⟩]⟩,
  ⟨0x60106C, [(4, 0x400)], false, 0x0, [⟨ET_P_RX_FILTERED_COUNT, .ro, false, []⟩]⟩,
  ⟨0x601070, [(4, 0x400)], false, 0x0, [⟨ET_P_RX_UNCLAIMED_COUNT, .ro, false, []⟩]⟩,
  ⟨0x601074, [(4, 0x400)], false, 0x0, [⟨ET_P_RX_DROP_C0_COUNT, .ro, false, []⟩]⟩,
  ⟨0x601078, [(4, 0x400)], false, 0x0, [⟨ET_P_RX_DROP_C1_COUNT, .ro, false, []⟩]⟩,
  ⟨0x60107C, [(4, 0x400)], false, 0x0, [⟨ET_P_RX_DROP_C2_COUNT, .ro, false, []⟩]⟩,
  ⟨0x601080, [(4, 0x400)], false, 0x0, [⟨ET_P_RX_DROP_C3_COUNT, .ro, false, []⟩]⟩,
  ⟨0x601084, [(4, 0x400)], false, 0x0, [⟨ET_P_RX_PAUSE_COUNT, .ro, false, []⟩]⟩,
  ⟨0x601088, [(4, 0x400)], false, 0x0, [⟨ET_P_RX_PFC_COUNT, .ro, false, []⟩]⟩,
  ⟨0x60108C, [(4, 0x400)], false, 0x0, [⟨ET_P_RX_FC_IGN_COUNT, .ro, false, []⟩]⟩,
  ⟨0x601090, [(4, 0x400)], false, 0x0, [⟨ET_P_TX_PFC_COUNT, .ro, false, []⟩]⟩,
  ⟨0x601094, [(4, 0x400)], false, 0x0, [⟨ET_P_TX_DISC_C1_COUNT, .ro, false, []⟩]⟩,
  ⟨0x601098, [(4, 0x400)], false, 0x0, [⟨ET_P_C0_LATE_COUNT, .ro, false, []⟩]⟩,
  ⟨0x60109C, [(4, 0x400)], false, 0x0, [⟨ET_P_C0_OVERFLOW_COUNT, .ro, false, []⟩]⟩,
  ⟨0x6010A0, [(4, 0x400)], false, 0x0, [⟨ET_P_C1_OVERRUN_COUNT, .ro, false, []⟩]⟩,
  ⟨0x6010A4, [(4, 0x400)], false, 0x0, [⟨ET_P_TX_PREEMPT_COUNT, .ro, false, []⟩]⟩]
def regsET4 : List RegDesc := [
  ⟨0x6010A8, [(4, 0x400)], false, 0x0, [⟨ET_P_RX_IP_DISC_COUNT, .ro, false, []⟩]⟩,
  ⟨0x601100, [(4, 0x400), (16, 0x4)], false, 0x0, [⟨ET_P_HASH_HASH, .rw, true, []⟩]⟩,
  ⟨0x601200, [(4, 0x400), (64, 0x8)], false, 0x0, [⟨ET_P_EM_LO_MAC, .rw, true, []⟩]⟩,
  ⟨0x601204, [(4, 0x400), (64, 0x8)], false, 0x0, [⟨ET_P_EM_HI_VALID, .rw, true, []⟩, ⟨ET_P_EM_HI_MAC, .rw, true, []⟩]⟩]
def regsTM0 : List RegDesc := [
  ⟨0x700000, [], false, 0x0, [⟨TM_CTL_MANUAL, .rw, true, []⟩, ⟨TM_CTL_MSEL, .rw, true, [(0, 5)]⟩, ⟨TM_CTL_REVERT, .rw, true, []⟩, ⟨TM_CTL_SLEW, .rw, true, [(0, 100)]⟩]⟩,
  ⟨0x700004, [], false, 0x1C000000, [⟨TM_STAT_CORE, .ro, false, []⟩, ⟨TM_STAT_SEL, .ro, false, []⟩, ⟨TM_STAT_PROVISIONAL, .ro, false, []⟩, ⟨TM_STAT_SWITCH_QUEUED, .ro, false, []⟩, ⟨TM_STAT_HO_SEEN, .w1c, false, []⟩, ⟨TM_STAT_FREE_RUN_SEEN, .w1c, false, []⟩, ⟨TM_STAT_HO_EXCEEDED, .w1c, false, []⟩, ⟨TM_STAT_SOFT_SEEN, .w1c, false, []⟩, ⟨TM_STAT_BUILD_OUT, .ro, false, []⟩]⟩,
  ⟨0x700008, [], false, 0x0, [⟨TM_LOCOSC_FREQ, .rw, true, [(10000000, 100000000)]⟩]⟩,
  ⟨0x70000C, [], false, 0x0, [⟨TM_HO_CFG_SPEC, .rw, true, [(1, 65535)]⟩, ⟨TM_HO_CFG_AGE, .rw, true, []⟩]⟩,
  ⟨0x700010, [], false, 0x0, [⟨TM_HO_STAT_TRAINED, .ro, false, []⟩, ⟨TM_HO_STAT_TRAIN_S, .ro, false, []⟩, ⟨TM_HO_STAT_U, .ro, false, []⟩]⟩,
  ⟨0x700014, [], false, 0x0, [⟨TM_HO_ERR_ERR, .ro, false, []⟩]⟩,
  ⟨0x700018, [], true, 0x0, [⟨TM_CNT_CLR_ALL, .wo, false, []⟩]⟩,
  ⟨0x70001C, [], false, 0x0, [⟨TM_SWITCHES_COUNT, .ro, false, []⟩]⟩,
  ⟨0x700100, [(6, 0x40)], false, 0x0, [⟨TM_SRC_CTL_EN, .rw, true, []⟩, ⟨TM_SRC_CTL_PRIO, .rw, true, []⟩, ⟨TM_SRC_CTL_PPS_EN, .rw, true, []⟩, ⟨TM_SRC_CTL_PPS_POL, .rw, true, []⟩, ⟨TM_SRC_CTL_BW, .rw, true, [(0, 4)]⟩, ⟨TM_SRC_CTL_QUAL, .rw, true, [(16, 600)]⟩]⟩,
  ⟨0x700104, [(6, 0x40)], false, 0x0, [⟨TM_SRC_FREQ_FREQ, .rw, true, [(10000000, 800000000)]⟩]⟩,
  ⟨0x700108, [(6, 0x40)], false, 0x0, [⟨TM_SRC_LIM_SOFT, .rw, true, [(1, 65535)]⟩, ⟨TM_SRC_LIM_HARD, .rw, true, []⟩]⟩,
  ⟨0x70010C, [(6, 0x40)], false, 0x0, [⟨TM_SRC_TIME_PERSIST, .rw, true, [(1, 3600)]⟩, ⟨TM_SRC_TIME_WTR, .rw, true, [(0, 3600)]⟩, ⟨TM_SRC_TIME_DRIFT, .rw, true, [(1, 255)]⟩]⟩,
  ⟨0x700110, [(6, 0x40)], false, 0x0, [⟨TM_SRC_PPS_PPS_LIM, .rw, true, [(1, 65535)]⟩, ⟨TM_SRC_PPS_PPSDLY, .rw, true, []⟩]⟩,
  ⟨0x700114, [(6, 0x40)], false, 0x0, [⟨TM_SRC_STAT_QSTATE, .ro, false, []⟩, ⟨TM_SRC_STAT_CLK_LOSS, .ro, false, []⟩, ⟨TM_SRC_STAT_PPS_LOSS, .ro, false, []⟩, ⟨TM_SRC_STAT_SOFT_F, .ro, false, []⟩, ⟨TM_SRC_STAT_HARD_F, .ro, false, []⟩, ⟨TM_SRC_STAT_DRIFT_F, .ro, false, []⟩, ⟨TM_SRC_STAT_PPS_F, .ro, false, []⟩, ⟨TM_SRC_STAT_CLASS_F, .ro, false, []⟩, ⟨TM_SRC_STAT_DISQ_SEEN, .w1c, false, []⟩, ⟨TM_SRC_STAT_SOFT_SEEN, .w1c, false, []⟩, ⟨TM_SRC_STAT_LEFT, .ro, false, []⟩]⟩,
  ⟨0x700118, [(6, 0x40)], false, 0x80000000, [⟨TM_SRC_OFFS_OFFS, .ro, false, []⟩]⟩,
  ⟨0x70011C, [(6, 0x40)], false, 0x8000FFFF, [⟨TM_SRC_DRIFT_DRIFT, .ro, false, []⟩, ⟨TM_SRC_DRIFT_WANDER, .ro, false, []⟩]⟩]
def regsTM1 : List RegDesc := [
  ⟨0x700120, [(6, 0x40)], false, 0x0, [⟨TM_SRC_DISQ_COUNT, .ro, false, []⟩]⟩,
  ⟨0x700300, [(4, 0x10)], false, 0x0, [⟨TM_CK_CTL_EN, .rw, true, []⟩, ⟨TM_CK_CTL_FREQ, .rw, true, [(10000, 3200000)]⟩]⟩,
  ⟨0x700340, [(4, 0x10)], false, 0x0, [⟨TM_FR_CTL_EN, .rw, true, []⟩, ⟨TM_FR_CTL_POL, .rw, true, []⟩, ⟨TM_FR_CTL_WIDTH, .rw, true, [(1, 500000)]⟩]⟩,
  ⟨0x700344, [(4, 0x10)], false, 0x0, [⟨TM_FR_OFS_OFFSET, .rw, true, [(0, 1600000000), (2694967296, 4294967295)]⟩]⟩,
  ⟨0x700380, [], false, 0x0, [⟨TM_PTP_CTL_ENA, .rw, true, []⟩, ⟨TM_PTP_CTL_ENB, .rw, true, []⟩, ⟨TM_PTP_CTL_PORTA, .rw, true, []⟩, ⟨TM_PTP_CTL_PORTB, .rw, true, []⟩, ⟨TM_PTP_CTL_TRANSA, .rw, true, []⟩, ⟨TM_PTP_CTL_TRANSB, .rw, true, []⟩, ⟨TM_PTP_CTL_DOMA, .rw, true, []⟩, ⟨TM_PTP_CTL_DOMB, .rw, true, []⟩, ⟨TM_PTP_CTL_CLASS_MAX, .rw, true, []⟩]⟩,
  ⟨0x700384, [], false, 0x0, [⟨TM_PTP_STAT_SET, .ro, false, []⟩, ⟨TM_PTP_STAT_STEER, .ro, false, []⟩, ⟨TM_PTP_STAT_LARGE_OFFSET, .ro, false, []⟩, ⟨TM_PTP_STAT_STEP_DONE, .w1c, false, []⟩, ⟨TM_PTP_STAT_DOMAIN_SWITCH_SEEN, .w1c, false, []⟩]⟩,
  ⟨0x700388, [], false, 0x0, [⟨TM_PTP_SNAP_SEC_LO_SEC, .ro, false, []⟩]⟩,
  ⟨0x70038C, [], false, 0x0, [⟨TM_PTP_SNAP_SEC_HI_SEC, .ro, false, []⟩]⟩,
  ⟨0x700390, [], false, 0x0, [⟨TM_PTP_SNAP_T32_T32, .ro, false, []⟩]⟩,
  ⟨0x700400, [], false, 0x0, [⟨TM_ATC_LO_ATC, .ro, false, []⟩]⟩,
  ⟨0x700404, [], false, 0x0, [⟨TM_ATC_HI_ATC, .ro, false, []⟩]⟩,
  ⟨0x700408, [], false, 0x0, [⟨TM_ATC_PPS_LO_ATC_AT_PPS, .ro, false, []⟩]⟩,
  ⟨0x70040C, [], false, 0x0, [⟨TM_ATC_PPS_HI_ATC_AT_PPS, .ro, false, []⟩]⟩,
  ⟨0x700410, [], false, 0x0, [⟨TM_ATC_LOAD_LO_LOAD, .rw, false, []⟩]⟩,
  ⟨0x700414, [], false, 0x0, [⟨TM_ATC_LOAD_HI_LOAD, .rw, false, []⟩]⟩,
  ⟨0x700418, [], false, 0x0, [⟨TM_ATC_CTL_ARM, .w1s, false, []⟩, ⟨TM_ATC_CTL_RATE_N, .rw, true, [(40, 200)]⟩]⟩]
def regsTM2 : List RegDesc := [
  ⟨0x70041C, [], false, 0x0, [⟨TM_ATC_STAT_STATE, .ro, false, []⟩, ⟨TM_ATC_STAT_REEPOCH, .w1c, false, []⟩, ⟨TM_ATC_STAT_MISSED_PPS, .w1c, false, []⟩, ⟨TM_ATC_STAT_EPOCH_PHASE, .ro, false, []⟩]⟩,
  ⟨0x700420, [], false, 0x0, [⟨TM_TAI_ATC_LO_MAP_ATC, .rw, false, []⟩]⟩,
  ⟨0x700424, [], false, 0x0, [⟨TM_TAI_ATC_HI_MAP_ATC, .rw, false, []⟩]⟩,
  ⟨0x700428, [], false, 0x0, [⟨TM_TAI_SEC_LO_MAP_SEC, .rw, false, []⟩]⟩,
  ⟨0x70042C, [], false, 0x0, [⟨TM_TAI_SEC_HI_MAP_SEC, .rw, false, []⟩]⟩]
def regsDR0 : List RegDesc := [
  ⟨0x800000, [], false, 0x0, [⟨DR_CFG_NCH, .rw, false, [(0, 2)]⟩, ⟨DR_CFG_RANKS, .rw, false, []⟩, ⟨DR_CFG_DENS, .rw, false, [(0, 2)]⟩, ⟨DR_CFG_RATE, .rw, false, [(0, 2)]⟩, ⟨DR_CFG_DEV_PRE, .rw, false, []⟩, ⟨DR_CFG_PAGE_PRED, .rw, false, []⟩, ⟨DR_CFG_PD_IDLE, .rw, false, []⟩]⟩,
  ⟨0x800004, [], false, 0x0, [⟨DR_STAT_STATE, .ro, false, []⟩, ⟨DR_STAT_NO_TABLE, .ro, false, []⟩, ⟨DR_STAT_SWEEP_RUN, .ro, false, []⟩, ⟨DR_STAT_CE_SEEN, .w1c, false, []⟩, ⟨DR_STAT_UE_SEEN, .w1c, false, []⟩, ⟨DR_STAT_FORCED_SEEN, .w1c, false, []⟩, ⟨DR_STAT_RAIL_FAULT, .ro, false, []⟩, ⟨DR_STAT_FAIL_CH, .ro, false, []⟩]⟩,
  ⟨0x800008, [], false, 0x0, [⟨DR_TIM_TRFC, .rw, false, [(1, 10)]⟩, ⟨DR_TIM_TRC, .rw, false, [(1, 15)]⟩, ⟨DR_TIM_RL, .rw, false, [(3, 24)]⟩, ⟨DR_TIM_WL, .rw, false, [(1, 24)]⟩]⟩,
  ⟨0x80000C, [], false, 0x0, [⟨DR_MAINT_SCRUB_H, .rw, false, []⟩, ⟨DR_MAINT_REFI, .rw, false, [(50, 1000)]⟩]⟩,
  ⟨0x800010, [], false, 0x0, [⟨DR_SCHED_AGE_C1, .rw, false, [(10, 255)]⟩, ⟨DR_SCHED_AGE_C2, .rw, false, [(10, 255)]⟩, ⟨DR_SCHED_AGE_C3, .rw, false, [(1, 255)]⟩]⟩,
  ⟨0x800014, [], true, 0x0, [⟨DR_CNT_CLR_ALL, .wo, false, []⟩, ⟨DR_CNT_CLR_CH, .wo, false, []⟩]⟩,
  ⟨0x800018, [], false, 0x0, [⟨DR_C1_OVERRUN_COUNT, .ro, false, []⟩]⟩,
  ⟨0x801000, [(16, 0x400)], false, 0x0, [⟨DR_CH_CFG_TOFS, .rw, false, []⟩, ⟨DR_CH_CFG_CA, .rw, false, []⟩]⟩,
  ⟨0x801004, [(16, 0x400)], false, 0x0, [⟨DR_CH_STAT_BAND, .ro, false, []⟩, ⟨DR_CH_STAT_BAND_UNSWEPT, .w1c, false, []⟩, ⟨DR_CH_STAT_TSENS_F, .ro, false, []⟩, ⟨DR_CH_STAT_POSTPONED, .ro, false, []⟩, ⟨DR_CH_STAT_TEMP, .ro, false, []⟩]⟩,
  ⟨0x801008, [(16, 0x400)], false, 0x0, [⟨DR_CH_UEADDR_LO_ADDR, .ro, false, []⟩]⟩,
  ⟨0x80100C, [(16, 0x400)], false, 0x0, [⟨DR_CH_UEADDR_HI_ADDR, .ro, false, []⟩]⟩,
  ⟨0x801010, [(16, 0x400)], false, 0x0, [⟨DR_CH_CE_COUNT, .ro, false, []⟩]⟩,
  ⟨0x801014, [(16, 0x400)], false, 0x0, [⟨DR_CH_UE_COUNT, .ro, false, []⟩]⟩,
  ⟨0x801018, [(16, 0x400)], false, 0x0, [⟨DR_CH_FORCED_COUNT, .ro, false, []⟩]⟩,
  ⟨0x80101C, [(16, 0x400)], false, 0x0, [⟨DR_CH_PROMOTED_COUNT, .ro, false, []⟩]⟩,
  ⟨0x801100, [(16, 0x400), (16, 0x4)], false, 0x0, [⟨DR_DLY_VALID, .rw, false, []⟩, ⟨DR_DLY_VREF, .rw, false, []⟩, ⟨DR_DLY_SLEW, .rw, false, []⟩, ⟨DR_DLY_WR, .rw, false, []⟩, ⟨DR_DLY_RD, .rw, false, []⟩]⟩]
def regsDM0 : List RegDesc := [
  ⟨0x900000, [], true, 0x0, [⟨DM_INT_STAT_CH, .w1c, false, []⟩]⟩,
  ⟨0x900004, [], true, 0x0, [⟨DM_INT_EN_CH, .rw, false, []⟩]⟩,
  ⟨0x900008, [], true, 0x0, [⟨DM_HALT_STAT_CH, .w1c, false, []⟩]⟩,
  ⟨0x90000C, [], true, 0xFFFFFFFF, [⟨DM_HALT_EN_CH, .rw, false, []⟩]⟩,
  ⟨0x900010, [], true, 0x0, [⟨DM_TIMEOUT_TIMEOUT, .rw, true, [(1, 65535)]⟩]⟩,
  ⟨0x900014, [], true, 0x0, [⟨DM_CNT_CLR_CH, .wo, false, []⟩]⟩,
  ⟨0x901000, [(32, 0x40)], true, 0x3001000, [⟨DM_CH_CTL_GO, .w1s, false, []⟩, ⟨DM_CH_CTL_ABORT, .w1s, false, []⟩, ⟨DM_CH_CTL_KICK, .w1s, false, []⟩, ⟨DM_CH_CTL_RETRY, .rw, false, []⟩, ⟨DM_CH_CTL_HOP_LIMIT, .rw, false, [(1, 65535)]⟩]⟩,
  ⟨0x901004, [(32, 0x40)], true, 0x0, [⟨DM_CH_STAT_STATE, .ro, false, []⟩, ⟨DM_CH_STAT_CODE, .ro, false, []⟩, ⟨DM_CH_STAT_FW_OWNED, .ro, false, []⟩, ⟨DM_CH_STAT_OVERLAP, .ro, false, []⟩, ⟨DM_CH_STAT_DESC_FETCH, .ro, false, []⟩, ⟨DM_CH_STAT_CMP_FAIL, .w1c, false, []⟩]⟩,
  ⟨0x901008, [(32, 0x40)], true, 0x0, [⟨DM_CH_DESC_LO_DESC, .rw, false, []⟩]⟩,
  ⟨0x90100C, [(32, 0x40)], true, 0x0, [⟨DM_CH_DESC_HI_DESC, .rw, false, []⟩]⟩,
  ⟨0x901010, [(32, 0x40)], true, 0x0, [⟨DM_CH_CUR_LO_ADDR, .ro, false, []⟩]⟩,
  ⟨0x901014, [(32, 0x40)], true, 0x0, [⟨DM_CH_CUR_HI_ADDR, .ro, false, []⟩]⟩,
  ⟨0x901018, [(32, 0x40)], true, 0x0, [⟨DM_CH_REMAIN_REMAIN, .ro, false, []⟩]⟩,
  ⟨0x901020, [(32, 0x40)], true, 0x0, [⟨DM_CH_ERRADDR_LO_ADDR, .ro, false, []⟩]⟩,
  ⟨0x901024, [(32, 0x40)], true, 0x0, [⟨DM_CH_ERRADDR_HI_ADDR, .ro, false, []⟩]⟩,
  ⟨0x901028, [(32, 0x40)], true, 0x0, [⟨DM_CH_CMPADDR_LO_ADDR, .ro, false, []⟩]⟩]
def regsDM1 : List RegDesc := [
  ⟨0x90102C, [(32, 0x40)], true, 0x0, [⟨DM_CH_CMPADDR_HI_ADDR, .ro, false, []⟩]⟩,
  ⟨0x901030, [(32, 0x40)], true, 0x0, [⟨DM_CH_DONE_COUNT, .ro, false, []⟩]⟩,
  ⟨0x901034, [(32, 0x40)], true, 0x0, [⟨DM_CH_RETRIES_COUNT, .ro, false, []⟩]⟩]
def regsCP0 : List RegDesc := [
  ⟨0xA00000, [], false, 0x10000000, [⟨CP_SYS_STAT_PHASE, .ro, false, []⟩, ⟨CP_SYS_STAT_PROFILE, .ro, false, []⟩, ⟨CP_SYS_STAT_PROF_VALID, .ro, false, []⟩, ⟨CP_SYS_STAT_PROF_FAULT, .ro, false, []⟩, ⟨CP_SYS_STAT_REF_WAIT_EXPIRED, .ro, false, []⟩, ⟨CP_SYS_STAT_CAUSE, .ro, false, []⟩, ⟨CP_SYS_STAT_PINS, .ro, false, []⟩, ⟨CP_SYS_STAT_FAIL_INDEX, .ro, false, []⟩]⟩,
  ⟨0xA00004, [], true, 0x0, [⟨CP_MB_DB_SLOT, .wo, false, [(0, 4)]⟩]⟩,
  ⟨0xA00008, [], true, 0x0, [⟨CP_MB_STAT_REPLY, .w1c, false, []⟩, ⟨CP_MB_STAT_NOTE_HELD, .ro, false, []⟩, ⟨CP_MB_STAT_BUSY, .ro, false, []⟩]⟩,
  ⟨0xA0000C, [], false, 0x0, [⟨CP_NT_WR_M_WR, .ro, false, []⟩, ⟨CP_NT_WR_H_WR, .ro, false, []⟩]⟩,
  ⟨0xA00010, [], true, 0x0, [⟨CP_NT_H_RD_RD, .rw, false, []⟩]⟩,
  ⟨0xA00014, [], true, 0x0, [⟨CP_NT_M_RD_RD, .rw, false, []⟩]⟩,
  ⟨0xA00018, [], false, 0x0, [⟨CP_Q_STAT_DEPTH, .ro, false, []⟩, ⟨CP_Q_STAT_INPROG, .ro, false, []⟩, ⟨CP_Q_STAT_SOURCES, .ro, false, []⟩]⟩,
  ⟨0xA00020, [], false, 0x0, [⟨CP_AP_BASE_LO_BASE, .ro, false, []⟩]⟩,
  ⟨0xA00024, [], false, 0x0, [⟨CP_AP_BASE_HI_BASE, .ro, false, []⟩]⟩,
  ⟨0xA00030, [], true, 0x0, [⟨CP_CNT_CLR_ALL, .wo, false, []⟩]⟩,
  ⟨0xA00034, [], false, 0x0, [⟨CP_CMDS_COUNT, .ro, false, []⟩]⟩,
  ⟨0xA00038, [], false, 0x0, [⟨CP_BUSY_COUNT, .ro, false, []⟩]⟩,
  ⟨0xA0003C, [], false, 0x0, [⟨CP_DUPS_COUNT, .ro, false, []⟩]⟩,
  ⟨0xA00040, [], false, 0x0, [⟨CP_BADCRC_COUNT, .ro, false, []⟩]⟩,
  ⟨0xA00044, [], false, 0x0, [⟨CP_DISCARDS_COUNT, .ro, false, []⟩]⟩,
  ⟨0xA00048, [], false, 0x0, [⟨CP_EVICT_COUNT, .ro, false, []⟩]⟩]
def regsCP1 : List RegDesc := [
  ⟨0xA60000, [], false, 0x0, [⟨CP_LC_STAT_STATE, .ro, false, []⟩, ⟨CP_LC_STAT_OWNER, .ro, false, []⟩, ⟨CP_LC_STAT_NONCE_LIVE, .ro, false, []⟩, ⟨CP_LC_STAT_PREV, .ro, false, []⟩, ⟨CP_LC_STAT_TRANSITIONS, .ro, false, []⟩]⟩,
  ⟨0xA60004, [], false, 0x0, [⟨CP_FW_STAT_ACTIVE_SLOT, .ro, false, []⟩, ⟨CP_FW_STAT_TRIAL, .ro, false, []⟩, ⟨CP_FW_STAT_A_VALID, .ro, false, []⟩, ⟨CP_FW_STAT_B_VALID, .ro, false, []⟩, ⟨CP_FW_STAT_ACT_QUEUED, .ro, false, []⟩, ⟨CP_FW_STAT_AUTO_COMMIT, .ro, false, []⟩, ⟨CP_FW_STAT_ROLLBACK_SEEN, .w1c, false, []⟩, ⟨CP_FW_STAT_BOOT_FALLBACK, .w1c, false, []⟩, ⟨CP_FW_STAT_COMMITTED, .ro, false, []⟩, ⟨CP_FW_STAT_CKPT_MISMATCH, .ro, false, []⟩, ⟨CP_FW_STAT_TRIAL_LEFT, .ro, false, []⟩]⟩,
  ⟨0xA60008, [], false, 0x0, [⟨CP_FW_SVN_SVN_MIN, .ro, false, []⟩, ⟨CP_FW_SVN_SVN, .ro, false, []⟩]⟩,
  ⟨0xA6000C, [], false, 0x0, [⟨CP_WIPE_STAT_DONE, .ro, false, []⟩, ⟨CP_WIPE_STAT_FAIL, .ro, false, []⟩, ⟨CP_WIPE_STAT_ITEMS, .ro, false, []⟩, ⟨CP_WIPE_STAT_DURATION, .ro, false, []⟩]⟩,
  ⟨0xA60010, [], false, 0x0, [⟨CP_SEC_FAILS_COUNT, .ro, false, []⟩]⟩]
def regsML0 : List RegDesc := [
  ⟨0xB00000, [], false, 0x0, [⟨ML_CTL_PAIRED, .rw, true, []⟩, ⟨ML_CTL_LEASE, .rw, true, []⟩, ⟨ML_CTL_UNIT, .rw, true, []⟩, ⟨ML_CTL_SYNC_ACK, .rw, true, []⟩, ⟨ML_CTL_BEACON_PORTS, .rw, true, []⟩, ⟨ML_CTL_TARGET_RUNG, .rw, true, []⟩, ⟨ML_CTL_PAIR_ID, .rw, true, []⟩]⟩,
  ⟨0xB00004, [], false, 0x0, [⟨ML_STAT_STATE, .ro, false, []⟩, ⟨ML_STAT_LINK_UP, .ro, false, []⟩, ⟨ML_STAT_UNCONFIRMED, .ro, false, []⟩, ⟨ML_STAT_STALE_PROMOTE, .w1c, false, []⟩, ⟨ML_STAT_LINK_DOWN_SEEN, .w1c, false, []⟩, ⟨ML_STAT_DUAL_SEEN, .w1c, false, []⟩, ⟨ML_STAT_HEALTH_FAIL, .ro, false, []⟩, ⟨ML_STAT_LEASE_HELD, .ro, false, []⟩, ⟨ML_STAT_NO_PROMOTE, .ro, false, []⟩]⟩,
  ⟨0xB00008, [], false, 0x0, [⟨ML_LINK_STAT_RUNG, .ro, false, []⟩, ⟨ML_LINK_STAT_STATE, .ro, false, []⟩, ⟨ML_LINK_STAT_LOCK, .ro, false, []⟩]⟩,
  ⟨0xB0000C, [], false, 0x0, [⟨ML_HB_STAT_PEER_ACTIVE, .ro, false, []⟩, ⟨ML_HB_STAT_PATH_UP, .ro, false, []⟩, ⟨ML_HB_STAT_PEER_STATE, .ro, false, []⟩]⟩,
  ⟨0xB00010, [], false, 0x0, [⟨ML_EPOCH_VALUE, .ro, false, []⟩]⟩,
  ⟨0xB00014, [], false, 0x0, [⟨ML_PEER_EPOCH_VALUE, .ro, false, []⟩]⟩,
  ⟨0xB00018, [], false, 0xFFFFFFFF, [⟨ML_CKPT_AGE_VALUE, .ro, false, []⟩]⟩,
  ⟨0xB00020, [], false, 0x0, [⟨ML_LEASE_END_LO_END, .ro, false, []⟩]⟩,
  ⟨0xB00024, [], false, 0x0, [⟨ML_LEASE_END_HI_END, .ro, false, []⟩]⟩,
  ⟨0xB00028, [], false, 0x0, [⟨ML_BEACON_DMAC_LO_MAC, .rw, true, []⟩]⟩,
  ⟨0xB0002C, [], false, 0x0, [⟨ML_BEACON_DMAC_HI_MAC, .rw, true, []⟩]⟩,
  ⟨0xB00030, [], true, 0x0, [⟨ML_CNT_CLR_ALL, .wo, false, []⟩]⟩,
  ⟨0xB00034, [], false, 0x0, [⟨ML_CRCERR_COUNT, .ro, false, []⟩]⟩,
  ⟨0xB00038, [], false, 0x0, [⟨ML_RESENT_COUNT, .ro, false, []⟩]⟩,
  ⟨0xB0003C, [], false, 0x0, [⟨ML_LINKDOWN_COUNT, .ro, false, []⟩]⟩,
  ⟨0xB00040, [], false, 0x0, [⟨ML_HB_MISS_COUNT, .ro, false, []⟩]⟩]
def regsML1 : List RegDesc := [
  ⟨0xB00044, [], false, 0x0, [⟨ML_PROMOTIONS_COUNT, .ro, false, []⟩]⟩,
  ⟨0xB00048, [], false, 0x0, [⟨ML_FENCES_COUNT, .ro, false, []⟩]⟩,
  ⟨0xB0004C, [], false, 0x0, [⟨ML_DUAL_COUNT, .ro, false, []⟩]⟩]
def regsPW0 : List RegDesc := [
  ⟨0xC00000, [], false, 0x0, [⟨PW_CTL_AUTO_RESTART, .rw, true, []⟩]⟩,
  ⟨0xC00004, [], false, 0x0, [⟨PW_STAT_STATE, .ro, false, []⟩, ⟨PW_STAT_POWER_WARN, .w1c, false, []⟩, ⟨PW_STAT_NEAR_SEEN, .w1c, false, []⟩, ⟨PW_STAT_SHUTDOWN_SEEN, .w1c, false, []⟩, ⟨PW_STAT_SENS_DEGRADED, .ro, false, []⟩, ⟨PW_STAT_RESTART_BLOCKED, .ro, false, []⟩, ⟨PW_STAT_UNLOGGED_LOSS, .w1c, false, []⟩, ⟨PW_STAT_CAUSE, .ro, false, []⟩, ⟨PW_STAT_IO_BAND, .ro, false, []⟩]⟩,
  ⟨0xC00008, [], false, 0x0, [⟨PW_VIN_IIN, .ro, false, []⟩, ⟨PW_VIN_VIN, .ro, false, []⟩]⟩,
  ⟨0xC0000C, [], false, 0x0, [⟨PW_PIN_PIN, .ro, false, []⟩]⟩,
  ⟨0xC00010, [], false, 0x0, [⟨PW_RAIL_SNS_OPEN, .ro, false, []⟩, ⟨PW_RAIL_FAULT, .w1c, false, []⟩, ⟨PW_RAIL_GOOD, .ro, false, []⟩]⟩,
  ⟨0xC00014, [], false, 0x0, [⟨PW_DROOP_NOW, .ro, false, []⟩, ⟨PW_DROOP_SEEN, .w1c, false, []⟩]⟩,
  ⟨0xC00018, [], false, 0x0, [⟨PW_THROT_K_C0, .ro, false, []⟩, ⟨PW_THROT_K_C1, .ro, false, []⟩, ⟨PW_THROT_K_IO, .ro, false, []⟩, ⟨PW_THROT_K_S, .ro, false, []⟩, ⟨PW_THROT_K_W, .ro, false, []⟩]⟩,
  ⟨0xC0001C, [], false, 0x0, [⟨PW_DIODE_VALID, .ro, false, []⟩, ⟨PW_DIODE_TEMP, .ro, false, []⟩]⟩,
  ⟨0xC00020, [], false, 0x0, [⟨PW_BTH_VALID, .ro, false, []⟩, ⟨PW_BTH_OPEN, .ro, false, []⟩, ⟨PW_BTH_SHORT, .ro, false, []⟩, ⟨PW_BTH_TEMP, .ro, false, []⟩]⟩,
  ⟨0xC00024, [], false, 0x0, [⟨PW_SLEW_CODE, .rw, true, []⟩]⟩,
  ⟨0xC00028, [], false, 0x0, [⟨PW_LOG_SEQ_SEQ, .ro, false, []⟩]⟩,
  ⟨0xC00030, [], true, 0x0, [⟨PW_CNT_CLR_ALL, .wo, false, []⟩]⟩,
  ⟨0xC00034, [], false, 0x0, [⟨PW_DROOP_IO_COUNT, .ro, false, []⟩]⟩,
  ⟨0xC00038, [], false, 0x0, [⟨PW_DROOP_C0_COUNT, .ro, false, []⟩]⟩,
  ⟨0xC0003C, [], false, 0x0, [⟨PW_DROOP_C1_COUNT, .ro, false, []⟩]⟩,
  ⟨0xC00040, [], false, 0x0, [⟨PW_STRETCH_US_COUNT, .ro, false, []⟩]⟩]
def regsPW1 : List RegDesc := [
  ⟨0xC00044, [], false, 0x0, [⟨PW_THR_UP_COUNT, .ro, false, []⟩]⟩,
  ⟨0xC00048, [], false, 0x0, [⟨PW_NEAR_COUNT, .ro, false, []⟩]⟩,
  ⟨0xC0004C, [], false, 0x0, [⟨PW_SHUTDOWNS_COUNT, .ro, false, []⟩]⟩,
  ⟨0xC00050, [], false, 0x0, [⟨PW_RAIL_FAULTS_COUNT, .ro, false, []⟩]⟩,
  ⟨0xC00060, [], false, 0x0, [⟨PW_SSC_MADDER, .rw, true, []⟩, ⟨PW_SSC_INDIGO, .rw, true, []⟩, ⟨PW_SSC_CP, .rw, true, []⟩, ⟨PW_SSC_DRAM, .rw, true, []⟩, ⟨PW_SSC_DEPTH, .rw, true, [(1, 5)]⟩]⟩,
  ⟨0xC00064, [], false, 0x0, [⟨PW_PAD_TRIG, .w1c, false, []⟩, ⟨PW_PAD_FRAME, .w1c, false, []⟩, ⟨PW_PAD_CLKOUT, .w1c, false, []⟩, ⟨PW_PAD_HB_OUT, .w1c, false, []⟩, ⟨PW_PAD_TDO, .w1c, false, []⟩]⟩,
  ⟨0xC00100, [(64, 0x4)], false, 0x80000000, [⟨PW_TS_STATUS, .ro, false, []⟩, ⟨PW_TS_FAST, .ro, false, []⟩, ⟨PW_TS_TEMP, .ro, false, []⟩]⟩]
def regsSC0 : List RegDesc := [
  ⟨0xD00000, [], false, 0x0, [⟨SC_STAT_COUNT, .ro, false, []⟩, ⟨SC_STAT_NEXT_HANDLE, .ro, false, []⟩]⟩,
  ⟨0xD00008, [], false, 0xFFFFFFFF, [⟨SC_NEXT_LO_F, .ro, false, []⟩]⟩,
  ⟨0xD0000C, [], false, 0xFFFFFFFF, [⟨SC_NEXT_HI_F, .ro, false, []⟩]⟩,
  ⟨0xD00010, [], true, 0x0, [⟨SC_CNT_CLR_ALL, .wo, false, []⟩]⟩,
  ⟨0xD00014, [], false, 0x0, [⟨SC_FIRED_COUNT, .ro, false, []⟩]⟩,
  ⟨0xD00018, [], false, 0x0, [⟨SC_LATE_COUNT, .ro, false, []⟩]⟩,
  ⟨0xD0001C, [], false, 0x0, [⟨SC_FULL_COUNT, .ro, false, []⟩]⟩,
  ⟨0xD00020, [], false, 0x0, [⟨SC_CANCELLED_COUNT, .ro, false, []⟩]⟩,
  ⟨0xD00024, [], false, 0x0, [⟨SC_FAILED_COUNT, .ro, false, []⟩]⟩]
def regsEV0 : List RegDesc := [
  ⟨0xE00000, [], true, 0x0, [⟨EV_INT_STAT_PEND, .w1c, false, []⟩]⟩,
  ⟨0xE00004, [], true, 0x0, [⟨EV_INT_EN_EN, .rw, false, []⟩]⟩,
  ⟨0xE00008, [], true, 0x0, [⟨EV_MD_EXC0_SLICE, .w1c, false, []⟩]⟩,
  ⟨0xE0000C, [], true, 0x0, [⟨EV_MD_EXC1_SLICE, .w1c, false, []⟩]⟩,
  ⟨0xE00010, [], true, 0x0, [⟨EV_MD_EVT0_SLICE, .w1c, false, []⟩]⟩,
  ⟨0xE00014, [], true, 0x0, [⟨EV_MD_EVT1_SLICE, .w1c, false, []⟩]⟩]

/-- Every register of the device, in address order of its blocks (R556). -/
def regMap : List RegDesc :=
  regsGLB0 ++ regsSL0 ++ regsMD0 ++ regsMD1 ++ regsIX0 ++ regsIX1 ++ regsWD0 ++ regsWD1 ++ regsSF0 ++ regsSF1 ++ regsSF2 ++ regsET0 ++ regsET1 ++ regsET2 ++ regsET3 ++ regsET4 ++ regsTM0 ++ regsTM1 ++ regsTM2 ++ regsDR0 ++ regsDM0 ++ regsDM1 ++ regsCP0 ++ regsCP1 ++ regsML0 ++ regsML1 ++ regsPW0 ++ regsPW1 ++ regsSC0 ++ regsEV0

/-- The _LO half of every 64-bit pair, with its indices (R20). -/
def pairMap : List (Nat × List (Nat × Nat)) := [
  (0x8, []),
  (0x44, []),
  (0x10100C, [(64, 0x400)]),
  (0x20100C, [(64, 0x400)]),
  (0x201030, [(64, 0x400)]),
  (0x240008, []),
  (0x300010, []),
  (0x300018, []),
  (0x300040, []),
  (0x400010, []),
  (0x401008, [(64, 0x20)]),
  (0x500010, []),
  (0x500060, [(4, 0x8)]),
  (0x580008, []),
  (0x580020, []),
  (0x600018, []),
  (0x600024, []),
  (0x600040, []),
  (0x600048, []),
  (0x601010, [(4, 0x400)]),
  (0x601040, [(4, 0x400)]),
  (0x601048, [(4, 0x400)]),
  (0x601050, [(4, 0x400)]),
  (0x601058, [(4, 0x400)]),
  (0x601200, [(4, 0x400), (64, 0x8)]),
  (0x700388, []),
  (0x700400, []),
  (0x700408, []),
  (0x700410, []),
  (0x700420, []),
  (0x700428, []),
  (0x801008, [(16, 0x400)]),
  (0x901008, [(32, 0x40)]),
  (0x901010, [(32, 0x40)]),
  (0x901020, [(32, 0x40)]),
  (0x901028, [(32, 0x40)]),
  (0xA00020, []),
  (0xB00020, []),
  (0xB00028, []),
  (0xD00008, [])]

/-- The offsets that the copies of a register with indices `dims` from `base` on take. -/
def regCopies : Nat → List (Nat × Nat) → List Nat
  | base, [] => [base]
  | base, (n, st) :: ds => (List.range n).flatMap fun i => regCopies (base + st * i) ds

/-- Whether `off` is one of the copies: each stride is larger than the extent of the indices inside it, so the index is the quotient. -/
def regHas : Nat → List (Nat × Nat) → Nat → Bool
  | base, [], off => base == off
  | base, (n, st) :: ds, off => decide (base ≤ off) && decide ((off - base) / st < n) && regHas (base + st * ((off - base) / st)) ds off

/-- The register at a BAR0 offset; none where the map holds none. -/
def regAt (off : Nat) : Option RegDesc := regMap.find? fun d => regHas d.base d.dims off

end Sys2Proof.Machine
end

