-- ==== Sys2Proof/Machine/Tbl.lean ====
section
/-! DEFINITION. Sparse tables in one canonical form: keys strictly rising, no entry equal to what an unlisted key reads as.
Every register file, memory and table of the device is one of these. -/

namespace Sys2Proof.Machine

/-- A sparse table: the listed entries in rising key order. -/
abbrev Tbl (α : Type) := List (Nat × α)

/-- What key `k` reads as: its entry, or the default `d` of an unlisted key. -/
def tblGet {α : Type} (d : α) : Tbl α → Nat → α
  | [], _ => d
  | (j, v) :: t, k => if j = k then v else tblGet d t k

/-- The table without key `k`. -/
def tblErase {α : Type} : Tbl α → Nat → Tbl α
  | [], _ => []
  | (j, v) :: t, k => if j = k then tblErase t k else (j, v) :: tblErase t k

/-- The table with key `k` listed as `v`, in its place in the rising order; `k` is not listed before. -/
def tblInsert {α : Type} : Tbl α → Nat → α → Tbl α
  | [], k, v => [(k, v)]
  | (j, u) :: t, k, v => if k < j then (k, v) :: (j, u) :: t else (j, u) :: tblInsert t k v

/-- Write `v` at key `k`; writing the default removes the entry, so equal tables are equal lists. -/
def tblSet {α : Type} [DecidableEq α] (d : α) (t : Tbl α) (k : Nat) (v : α) : Tbl α :=
  if v = d then tblErase t k else tblInsert (tblErase t k) k v

/-- Apply `f` to what key `k` reads as and write the result back. -/
def tblUpd {α : Type} [DecidableEq α] (d : α) (t : Tbl α) (k : Nat) (f : α → α) : Tbl α :=
  tblSet d t k (f (tblGet d t k))

/-- Write one value at every key of a list, in order. -/
def tblSetAll {α : Type} [DecidableEq α] (d : α) : Tbl α → List Nat → α → Tbl α
  | t, [], _ => t
  | t, k :: ks, v => tblSetAll d (tblSet d t k v) ks v

/-- Write consecutive values at keys `k`, `k + 1`, … -/
def tblSetRun {α : Type} [DecidableEq α] (d : α) : Tbl α → Nat → List α → Tbl α
  | t, _, [] => t
  | t, k, v :: vs => tblSetRun d (tblSet d t k v) (k + 1) vs

/-- The values at keys `k` to `k + n - 1`. -/
def tblRun {α : Type} (d : α) (t : Tbl α) (k : Nat) : Nat → List α
  | 0 => []
  | n + 1 => tblGet d t k :: tblRun d t (k + 1) n

/-- Keys strictly rising from `lo` on, no entry equal to the default. -/
def tblWfFrom {α : Type} [DecidableEq α] (d : α) : Nat → Tbl α → Bool
  | _, [] => true
  | lo, (j, v) :: t => decide (lo ≤ j) && !decide (v = d) && tblWfFrom d (j + 1) t

/-- The canonical form of a table. -/
def tblWf {α : Type} [DecidableEq α] (d : α) (t : Tbl α) : Bool := tblWfFrom d 0 t

end Sys2Proof.Machine
end

