-- ==== Sys2Proof/Machine/State.lean ====
section
/-! DEFINITION. The whole state of the device, as plain data, and its value right after reset. -/

namespace Sys2Proof.Machine

/-- Why a command stops with a fault. No command of this device does: every row of the table has an effect, and an event whose trigger does not hold leaves the state as it is. -/
inductive Fault where
  /-- Raised by no command: the specification names no event that stops the device without a described effect. Safe. -/
  | unreachable
  deriving DecidableEq, Repr

/-- Why a command has no meaning. -/
inductive Refusal where
  /-- Raised by the dispatch for a row that has no meaning yet. Safe: nothing can be proved of such a row. -/
  | notModelled (mnemonic : String)
  deriving DecidableEq, Repr

/-! ### Sample lanes (02_sample_lanes.md) -/

/-- A sample that a lane has received and not yet released: its value, a CRC failure of its frame, and whether its check block has been checked (R73). -/
structure LaneSmp where
  v : Int
  crc : Bool
  chk : Bool
  deriving DecidableEq, Repr

/-- One data lane's receiver (R61 to R95). LOCK, SLIP, DEGRADED and the other bits of SL_LANE_STAT are in the register file. -/
structure LaneSt where
  /-- The lane locked with header bit [7] equal to 0: every bit is inverted (R76). -/
  inv : Bool
  /-- LANE value with which the lane gained lock (R77, R559). -/
  idx : Nat
  /-- SEQ that the next block must carry (R67). -/
  seq : Nat
  /-- The previous block was a SEQ break (R74). -/
  broke : Bool
  /-- Header errors among the last 64 blocks, newest first (R74). -/
  hdr : List Bool
  /-- Running count of data blocks, 48 bits (R72). -/
  count : Nat
  /-- COUNT that the covering check block must carry: the running count before the frame's first block (R70). -/
  frameCount : Nat
  /-- Running CRC16 of the frame's covered blocks (R71). -/
  crc : Nat
  /-- A header error in the frame in progress (R559). -/
  frameErr : Bool
  /-- The frame in progress began before lock was gained, so its CRC16 cannot be checked. -/
  part : Bool
  /-- COUNT less the running count at the last check block, where they differed; a second difference equal to it agrees with it (R72). -/
  jump : Option Nat
  /-- CRC failures among the last 64 frames, newest first (R95). -/
  fails : List Bool
  /-- Consecutive frames with no CRC failure (R89, R94, R95). -/
  clean : Nat
  /-- 8-bit format now, and from the frame after the next check block (R68, R87). -/
  fmt8 : Bool
  fmtNext : Option Bool
  /-- Sample index of the oldest sample not yet released, and those samples, oldest first (R81). -/
  head : Nat
  fifo : List LaneSmp
  /-- Sample index of the first sample of the frame in progress. -/
  frameIdx : Nat
  /-- Saffron cycle in which the newest data block reached the pins (R78). -/
  arrived : Nat
  /-- Array times under which samples of the frame in progress have been released, newest first; and those released before an epoch load (R53, R73). -/
  rel : List Nat
  relOld : List Nat
  /-- The path waits to rejoin after relock (R94). -/
  wait : Bool
  /-- Loss of signal on the lane now is SL_LANE_STAT.LOS; the checker is in PRBS mode and synchronised, with the next bits it expects (R97). -/
  prbs : Option (List Bool)
  deriving DecidableEq, Repr

/-- What a control exchange is for, and so what its reply leads to (R87, R89, R99, R101). -/
inductive CtlFor where
  | hello
  | propose (r : Nat)
  | commit (r : Nat)
  | format (b : Bool)
  | prbs
  | rxSleep (thenCtl : Bool)
  | rxWake
  | access (c : Cmd)
  deriving DecidableEq, Repr

/-- A control message outstanding, with its arguments and the attempt (R84, R86). -/
structure CtlMsg where
  why : CtlFor
  msg : Nat
  tag : Nat
  args : List Byte
  attempt : Nat
  deriving DecidableEq, Repr

/-- Step of an octet's ladder (R89). -/
inductive Ladder where
  /-- No ladder runs. -/
  | idle
  /-- Step 0: waiting for the forwarded clock and block lock at L0, then HELLO. -/
  | lock0
  | hello
  /-- Steps 1 to 3 towards a rung. -/
  | propose
  | commit
  | switching
  /-- Step 4. -/
  | clock
  /-- Step 5. -/
  | lanes
  /-- Step 6. -/
  | dwell
  deriving DecidableEq, Repr

/-- One octet's control side (R84 to R99). -/
structure OctSt where
  step : Ladder
  /-- Last accepted rung r, the rung being tried, and whether the octet is returning to r (R89, R90). -/
  r : Nat
  goal : Nat
  back : Bool
  /-- Attempts made at the rung (R90). -/
  tries : Nat
  /-- Target rung and EXCLUDE_WEAK of the ladder that runs (R89, R90, R101). -/
  target : Nat
  weak : Bool
  /-- The board's highest rung, formats and fitted lanes, from its HELLO (R87). -/
  top : Nat
  formats : Nat
  fitted : Nat
  /-- 8-bit format in force at the board: the last FORMAT_SET that it accepted (R68, R87). -/
  fmt8 : Bool
  /-- Lanes that failed in the attempt (R90). -/
  failed : Nat
  /-- Forwarded clock locked at the octet's rung (R89, R95). -/
  fck : Bool
  /-- The octet's first ladder since reset has ended (R79). -/
  first : Bool
  /-- The octet is DOWN and its ladder starts again after 100 ms (R90, R91). -/
  retry : Bool
  /-- OFS has been stored (R81). -/
  ofsSet : Bool
  /-- TAG of the next message (R84). -/
  tag : Nat
  /-- SEQ of the next block on the control lane (R67). -/
  seq : Nat
  /-- The PRBS generator: its last bits, newest first, the bits it has put out, and an error to inject (R97, R98). -/
  gen : List Bool
  genN : Nat
  inject : Bool
  /-- Exchange outstanding (R86). -/
  x : Option CtlMsg
  /-- Messages waiting for the exchange before them, oldest first. -/
  todo : List CtlMsg
  /-- The control direction sends idle blocks for 20 µs before its pending message (R99). -/
  waking : Bool
  /-- The exchange woke a sleeping control direction, which sleeps again after it (R99). -/
  woken : Bool
  /-- TAG of the STATUS message outstanding (R88). -/
  poll : Option Nat
  /-- A STATUS message waits for the control direction to be awake (R88, R99). -/
  pollDue : Bool
  /-- STATUS messages unanswered in a row (R88). -/
  missed : Nat
  /-- SL_OCT_STAT.STATE before the octet went to SLEEP (R99). -/
  before : Nat
  deriving DecidableEq, Repr

/-- The lanes, the octets and the release of samples. -/
structure SlSt where
  lanes : Tbl LaneSt
  octs : Tbl OctSt
  /-- Array time of the next sample period to be released (R78). -/
  next : Nat
  deriving DecidableEq, Repr

/-! ### Madder slices (03_madder_slices.md) -/

/-- A sample in a path's ring of the sample store: its array time, its value, its lane-loss and CRC-failure flags, whether its check block has been checked (R73, R127), and whether the slice reads it as zero after a double-bit error in the store (R104). -/
structure Smp where
  t : Nat
  v : Int
  loss : Bool
  crc : Bool
  chk : Bool
  ecc : Bool
  deriving DecidableEq, Repr

/-- A loop of the loop stack: its first and last bundle and the iterations left, the present one counted (R126). -/
structure LoopSt where
  first : Nat
  last : Nat
  left : Nat
  deriving DecidableEq, Repr

/-- A program image's header fields as a slice runs it (R138). -/
structure ProgHdr where
  stage : Bool
  ring : Bool
  cps : Nat
  entry : Nat
  icount : Nat
  ringBw : Nat
  preserve : List (Nat × Nat)
  deriving DecidableEq, Repr

/-- A block in a slice's output port (R132): path, target, whether it is the last of its path's spectrum, the flag word that a last one carries, the data, the ST of the spectrum and the array-time ranges read. -/
structure OutWait where
  path : Nat
  ring : Bool
  last : Bool
  flags : Nat
  data : List Byte
  st : Nat
  reads : List (Nat × Nat)
  newest : Nat
  deriving DecidableEq, Repr

/-- One Madder slice (R102, R106). -/
structure MdSlice where
  /-- Instruction memory: 4,096 bundles of 128 bits. -/
  imem : Tbl Nat
  /-- X and Y data memories: 262,144 halfwords each. -/
  x : Tbl Nat
  y : Tbl Nat
  /-- V0–V15: 128 lanes of 18 bits, two's complement; an unlisted register is all zero. -/
  v : Tbl (List Int)
  /-- A0–A7: 128 lanes of 44 bits with their GOV bits; an unlisted register is all zero and clear. -/
  a : Tbl (List (Int × Bool))
  /-- S0–S15, 32 bits. -/
  s : Tbl Nat
  /-- I0–I7, N0–N7, CB0–CB7, CL0–CL7, 18 bits. -/
  i : Tbl Nat
  n : Tbl Nat
  cb : Tbl Nat
  cl : Tbl Nat
  cp : Nat
  /-- ST: array time of the spectrum being computed. -/
  st : Nat
  /-- The loop stack, innermost first, at most 4 (R126). -/
  loops : List LoopSt
  /-- The CALL stack, newest first, at most 8 (R126). -/
  calls : List Nat
  sr : Nat
  pc : Nat
  hdr : ProgHdr
  /-- Cycles since the last NEXT (R131). -/
  cyc : Nat
  /-- Flag word of each path (R129). -/
  flags : Tbl Nat
  /-- Discontinuity time Xj of each path (R130), plus one; 0 when no change has been made. -/
  xj : Tbl Nat
  /-- Delay changes that have fired and wait for the NEXT that reaches S: S, path, delay (R130). -/
  delays : List (Nat × Nat × Nat)
  /-- Bytes handed over to staging for each path since NEXT (R133). -/
  outB : Tbl Nat
  /-- One more than the bytes handed over to staging for each path when its last block was marked, 1 for a last block to the ring; 0 before (R133, R135). -/
  outL : Tbl Nat
  /-- Bytes of each path's spectrum that have left the output port for staging ahead of its last block (R133). -/
  sent : Tbl (List Byte)
  /-- Array-time ranges that VLDS has read for each path's spectrum in progress (R129, R132). -/
  reads : Tbl (List (Nat × Nat))
  /-- The output port's queue of 64 KiB, oldest first (R102, R132). -/
  waits : List OutWait
  /-- The bundle at pc is stalled at a VLDS for a sample not yet written (R128). -/
  stall : Bool
  /-- Saffron cycles of the exceptions of the last 60 s, newest first (R137). -/
  excs : List Nat
  /-- Saffron cycles of the automatic restarts of the last 60 s, newest first (R144). -/
  rst : List Nat
  /-- Program swaps that have fired and wait for the spectrum they apply from, or are loading, in the order of their boundaries: S and the program (R142). -/
  swap : List (Nat × Nat)
  /-- The faulting ST of the last exception, or a later one before it: spectra before it have been delivered, and it and those behind are delivered as zeros until the paths rejoin (R136). -/
  fault : Nat
  /-- Paths that deliver zeros with lane loss until they rejoin, bit j for path j (R136). -/
  mute : Nat
  /-- Boundary at which each path rejoins, plus one, while its spectra before it are still due (R94, R136). -/
  back : Tbl Nat
  /-- Offset in the DRAM ring of the next block (R134). -/
  ringPos : Nat
  deriving DecidableEq, Repr

/-- A program image in a store slot (R138, R139): its bytes and its measurement. -/
structure ProgSlot where
  valid : Bool
  bytes : List Byte
  measurement : List Word
  deriving DecidableEq, Repr

/-- A spectrum of one local path on its way to staging (R133): its array time, 4,096 bytes in channel order, its flags of R29 as a flag word, and the scale exponents it was quantised with. -/
structure Fill where
  path : Nat
  st : Nat
  data : List Byte
  loss : Bool
  crc : Bool
  warm : Bool
  seeded : Bool
  deriving DecidableEq, Repr

/-- The 64 slices, their sample stores and the program store. -/
structure MdSt where
  sl : Tbl MdSlice
  /-- The rings of the sample stores, keyed by path × 131,072 + t mod 131,072; none reads as EMPTY (R127). -/
  store : Tbl (Option Smp)
  /-- The rings as the last epoch load found them: what Saffron and Umber took before it and still wait for (R53, R251, R257). -/
  past : Tbl (Option Smp)
  /-- W: newest array time written, plus one; 0 when nothing has been written (R127). -/
  w : Nat
  /-- Store slots 0–15 in the flash die (R139). -/
  progs : Tbl ProgSlot
  /-- Image bytes accumulated in DRAM, by slot × 2 MiB + offset (R145). -/
  acc : Tbl Byte
  /-- Staging fills on their way, oldest first (R133, R176). -/
  fills : List Fill
  deriving DecidableEq, Repr

/-! ### Channeliser (04_channelizer.md) -/

/-- The scale state of one path (R160 to R164). Group G keys each table. -/
structure ScaleSt where
  /-- Sum of z² over the epoch's clean spectra, in units of 2^-28 CU² (R163). -/
  sums : Tbl Nat
  /-- Spectra taken into the sums (R163). -/
  n : Nat
  /-- Scale exponents of the epoch (R158). -/
  exps : Tbl Nat
  /-- Clipped components of the epoch (R160). -/
  clips : Tbl Nat
  /-- The epoch is seeded, and its seed spectrum has been computed (R164). -/
  seeded : Bool
  found : Bool
  /-- The path has a history: its last epoch had clean spectra (R164). -/
  hist : Bool
  /-- The epoch after the coming boundary is seeded: a rejoin, or a calibration swap without KEEP_SCALE (R164). -/
  seedNext : Bool
  /-- EXP_LOW and EXP_HIGH of the exponents in force (R163, R166). -/
  low : Bool
  high : Bool
  /-- The opening record of the epoch has been sent (R166). -/
  opened : Bool
  /-- Closing record of the last completed epoch; empty before the first (R170). -/
  closing : List Byte
  deriving DecidableEq, Repr

/-- A scale record on its way to staging: its path, the spectrum it goes with, its kind and epoch, and its bytes (R166). -/
structure ScaleRec where
  path : Nat
  st : Nat
  closing : Bool
  epoch : Nat
  bytes : List Byte
  deriving DecidableEq, Repr

/-- The channeliser. Calibration banks lie in the Y memory of the slices (R155). -/
structure ChSt where
  /-- Scale state by device path. -/
  paths : Tbl ScaleSt
  /-- First boundary of the scale epoch in progress, plus one, by slice; 0 before the first (R162). -/
  epoch : Tbl Nat
  /-- Boundaries at which integrations have ended or begun, newest first, and whether one runs from there on (R162). -/
  bounds : List (Nat × Bool)
  /-- Scale records on their way to staging, oldest first (R166). -/
  recs : List ScaleRec
  /-- Calibration swaps that have fired and wait for the spectrum they apply from, by slice: boundary plus one (R156). -/
  swapAt : Tbl Nat
  /-- Scale targets replaced by CH_TARGET_SET, newest first: the boundary from which the next one applies, and the target in force before it (R57, R165). -/
  tgts : List (Nat × Nat)
  /-- Stored calibration sets 0–7: set × 2^21 + path × 4,096 + channel, 32 bits with the real part low (R157). -/
  cal : Tbl Nat
  /-- The sets that CH_CAL_FETCH commands copy and their slice masks, oldest first; the set that CH_CAL_STORE writes (R170). -/
  fetch : List (Nat × Nat)
  store : Option Nat
  deriving DecidableEq, Repr

/-! ### Staging and Indigo correlator (05_correlator.md) -/

/-- A path's spectrum in staging: its byte by channel and its flags of R29 (R28, R29, R173). -/
structure StPath where
  data : Tbl Byte
  /-- The local fill, or for a remote path any block, has arrived. -/
  here : Bool
  loss : Bool
  crc : Bool
  warm : Bool
  seeded : Bool
  /-- Runs of 512 channels zero-filled after a lost corner-turn block, as a mask (R294). -/
  lost : Nat
  /-- First boundary of the path's scale epoch, divided by 8,192, low 32 bits, as its blocks carry it (R284). -/
  scale : Nat
  deriving DecidableEq, Repr

/-- One spectrum in staging. -/
structure StSpec where
  st : Nat
  /-- By array path. -/
  paths : Tbl StPath
  /-- Corner-turn pieces that have arrived or are declared lost: path block of the array and 512-channel run (R283, R294). -/
  pieces : List (Nat × Nat)
  /-- GRACE has ended (R294). -/
  graced : Bool
  /-- Some block of it has been declared lost (R290). -/
  short : Bool := false
  deriving DecidableEq, Repr

/-- Where a pass over a half stands on one reader of it. -/
inductive PassSt where
  | waiting | busy | over
  deriving DecidableEq, Repr

/-- What fixes how a spectrum is staged: T, the first selected channel, C_sel, MODE and MEMBER (R30, R31, R174, R175). -/
structure StCfg where
  t : Nat
  first : Nat
  count : Nat
  mode : Nat
  member : Nat
  deriving DecidableEq, Repr

/-- One staging half (R175 to R177). -/
structure Half where
  /-- Array time of the first spectrum; none while the half is free. -/
  base : Option Nat
  /-- Spectra it may hold: T, or fewer up to an integration boundary. -/
  cap : Nat
  specs : List StSpec
  /-- The half is complete (R176). -/
  full : Bool
  die0 : PassSt
  die1 : PassSt
  woad : PassSt
  /-- Priorities shed by die 0, die 1 and Woad in their passes, bit p for priority p (R190, R229). -/
  shed0 : Nat
  shed1 : Nat
  shedW : Nat
  /-- Channel selection, MODE and MEMBER in force for its spectra (R30, R31, R174). -/
  first : Nat
  count : Nat
  mode : Nat
  member : Nat
  deriving DecidableEq, Repr

/-- A product region (R181, R182). -/
structure Region where
  prio : Nat
  binW : Nat
  bFirst : Nat
  bCount : Nat
  chFirst : Nat
  nBins : Nat
  deriving DecidableEq, Repr

/-- Spectra of one path with each flag in an integration (R200). -/
structure PathCnt where
  loss : Nat
  warm : Nat
  crc : Nat
  lost : Nat
  split : Bool
  /-- Scale epoch that a remote path's blocks name for the first spectrum that arrived, divided by 8,192, low 32 bits; none for a local path (R200, R284). -/
  epoch : Option Nat
  deriving DecidableEq, Repr

/-- A VAT bank with its spectrometer table and what its record will say (R183, R185, R197 to R200). -/
structure Bank where
  /-- First spectrum; none while the bank holds no integration. -/
  start : Option Nat
  /-- Closing boundary, once it has fallen (R185). -/
  stop : Option Nat
  /-- The bank has closed and drains. -/
  draining : Bool
  /-- VAT components: 2 × entry + 0 real, + 1 imaginary (R182). -/
  vat : Tbl Int
  /-- Spectrometer entries (R183). -/
  spec : Tbl Int
  /-- Entries that have saturated: the VAT entry, or 2^25 + the spectrometer index (R188). -/
  sat : Tbl Bool
  /-- Tiles that have saturated an entry (R196). -/
  tiles : Tbl Bool
  paths : Tbl PathCnt
  /-- Spectra accumulated: region × 2 + die (R191). -/
  acc : Tbl Nat
  /-- Regions shed in some pass, as a mask (R199). -/
  shedRg : Nat
  shedPasses : Nat
  stageDrops : Nat
  /-- FLAGS bits [4:0] and [14] of R198 decided so far. -/
  flags : Nat
  regions : List Region
  first : Nat
  count : Nat
  t : Nat
  mode : Nat
  member : Nat
  /-- NSPEC of the set, for SAT_RISK (R189). -/
  nspec : Nat
  /-- Packed format, as IX_CTL.FMT read at the close (R192). -/
  packed : Bool
  deriving DecidableEq, Repr

/-- A dump record in the ring (R193): its SEQ, offset and length. -/
structure DumpRec where
  seq : Nat
  off : Nat
  len : Nat
  /-- Bytes already queued on the dump stream, and whether it is to be sent on it (R296). -/
  sent : Nat
  stream : Bool
  /-- Released by the Ethernet export while an older record is not (R193, R296). -/
  freed : Bool := false
  deriving DecidableEq, Repr

/-- Staging, the grid, the banks and the dump ring. -/
structure IxSt where
  half0 : Half
  half1 : Half
  /-- Array time at which the next half to be opened starts. -/
  nextBase : Nat
  bankA : Bank
  bankB : Bank
  /-- Regions in force (R181). -/
  regions : List Region
  /-- G_0 of R184. -/
  anchor : Nat
  /-- The close that waits for the end of a drain (R194). -/
  deferred : Bool
  /-- Array time up to which every spectrum has been passed over, or found no room. -/
  done : Nat
  /-- Array times of spectra that staging discarded, newest first (R177). -/
  drops : List Nat
  /-- Staging configurations whose successors have fired and whose last spectra may still arrive, oldest first: the boundary at which each ends (R57, R174). -/
  olds : List (Nat × StCfg)
  /-- Scale records by path, kind and epoch (R176). -/
  recs : List ScaleRec
  /-- Dump records in the ring, oldest first (R193). -/
  ring : List DumpRec
  /-- Integrations lost whose LOST records wait for room in the ring, oldest first, with their bank letter (R193, R195). -/
  lostQ : List (Bank × Bool)
  /-- After a compute restart: the grid boundary at which integrations resume, until it is reached (R425). -/
  resumeAt : Option Nat := none
  deriving DecidableEq, Repr

/-! ### Woad beamformer (06_beamformer.md) -/

/-- A beam configuration (R232, R234): sideband, channel range, F0 and, for each enabled beam, the images of its six registers from WD_BM_CTL to WD_BM_UDP. -/
structure WdCfg where
  sb : Bool
  first : Nat
  count : Nat
  f0 : Nat
  beams : List (Nat × List Word)
  /-- Beams that a WD_BEAM_CONFIG describes with EN 0, and so leaves disabled. -/
  others : List (Nat × List Word) := []
  deriving DecidableEq, Repr

/-- A polynomial slot (R210), its fields as stored. -/
structure PolySlot where
  t0 : Nat
  c0 : Nat
  c1 : Nat
  c2 : Nat
  taper : Nat
  deriving DecidableEq, Repr

/-- One spectrum of a beam, formed or dropped (R226). -/
structure BeamSpec where
  st : Nat
  /-- WD_TABLE.SEG for the spectrum (R225). -/
  seg : Nat
  /-- Bits [31:25] of the info word (R226), DROPPED and SEG_SWAP among them, CT_LOST apart. -/
  info : Nat
  /-- For each run of CPK channels: ZERO_PATHS, and whether CT_LOST is set. -/
  zero : List (Nat × Bool)
  age : Bool
  /-- y(b, k) over the beam channel range (R206). -/
  y : List (Int × Int)
  deriving DecidableEq, Repr

/-- A packet of a beam waiting to be sent: header fields that its spectra fix, and its payload (R225). -/
structure BeamPkt where
  format : Nat
  /-- MODE and MEMBER of its spectra. -/
  mode : Nat
  member : Nat
  atc : Nat
  firstCh : Nat
  nch : Nat
  nspec : Nat
  pbin : Nat
  shift : Nat
  seg : Nat
  flags : Nat
  countA : Nat
  countB : Nat
  payload : List Byte
  /-- The beam's six register images for it. -/
  regs : List Word
  deriving DecidableEq, Repr

/-- One beam. -/
structure BeamSt where
  /-- Spectra of the open voltage packet, oldest first (R224). -/
  opened : List BeamSpec
  /-- Completed packets, oldest first. -/
  ready : List BeamPkt
  /-- Open total-power integration: its sums by bin, spectra summed, for each run of CPK channels those with a zeroed path and the flags, and whether it is PARTIAL (R222). -/
  tp : Tbl Nat
  tpStart : Option Nat
  tpN : Nat
  tpZero : Tbl Nat
  tpFlags : Tbl Nat
  tpPartial : Bool
  tpSeg : Nat
  /-- Integrations that have closed and whose packets have not been sent, oldest first (R222). -/
  tpDone : List BeamPkt
  deriving DecidableEq, Repr

/-- The tables and beams of Woad. -/
structure WdSt where
  /-- Slots of table 0 and table 1: table × 262,144 + slot (R210). -/
  tab : Tbl PolySlot
  /-- Stored polynomial sets 0–5: set × 262,144 + slot (R214). -/
  sets : Tbl PolySlot
  beams : Tbl BeamSt
  /-- Load in progress: DRAM address, first slot and count (R234). -/
  load : Option (Nat × Nat × Nat)
  /-- Sets that WD_POLY_FETCH and WD_POLY_STORE are copying. -/
  fetch : Option Nat
  store : Option Nat
  /-- Fired segment swaps that Woad's spectra have not reached, oldest first: the boundary, and the slots of the table in force before it (R213). -/
  swaps : List (Nat × Tbl PolySlot)
  /-- Beam configurations whose successors have fired and whose last spectra are still to be formed, oldest first: the boundary at which each ends (R232). -/
  olds : List (Nat × WdCfg)
  /-- Array time of the next spectrum to be formed. -/
  next : Nat
  /-- First spectrum not formed in an outage (R231). -/
  gap : Option Nat
  /-- Beams that the pass in progress leaves out, bit b for beam b (R229). -/
  shedB : Nat := 0
  deriving DecidableEq, Repr

/-! ### Saffron and Umber (07_trigger.md) -/

/-- A trigger beam's running state (R238 to R240). -/
structure TbSt where
  /-- B in UQ30.8 (R239). -/
  base : Nat
  /-- Sample periods of training done, plus one; 0 when the beam does not train (R240). -/
  train : Nat
  /-- Consecutive sample periods in which the beam has fired (R239). -/
  run : Nat
  /-- The beam was active in the sample period before (R240, R249). -/
  live : Bool
  deriving DecidableEq, Repr

/-- A trigger message, formed or forming (R250 to R253). -/
structure TrigMsg where
  seq : Nat
  /-- A trigger event is among its events. -/
  trig : Bool
  atc : Nat
  sub : Nat
  first : Nat
  all : Nat
  tin : Nat
  src : Nat
  extra : Nat
  loss : Bool
  unchecked : Bool
  froze : Bool
  power : Nat
  base : Nat
  /-- Sample ranges its events used: path, first and last array time (R251). -/
  uses : List (Nat × Nat × Nat)
  /-- Those from before the last epoch load, in the array times of the time line that it ended (R53). -/
  usesOld : List (Nat × Nat × Nat)
  /-- Its check wait has ended (R250, R251). -/
  ready : Bool
  deriving DecidableEq, Repr

/-- A slab waiting in the slab buffer, or found no room there (R255 to R258). -/
structure Slab where
  atc : Nat
  /-- It was filled before the last epoch load (R53). -/
  old : Bool
  dropped : Bool
  newgen : Bool
  freeze : Bool
  deriving DecidableEq, Repr

/-- A change of the Umber ring (R261): base, length, path list as the SF_UB_SEL words, and the SF_UB_CTL and SF_UB_POST that SF_UB_CONFIG sets with it. -/
structure UbChange where
  base : Nat
  len : Nat
  sel : Option (List Word)
  ctl : Option (Word × Word)
  deriving DecidableEq, Repr

/-- What waits for the slabs from before a boundary to be written: a change of the ring, or the new generation that an epoch load begins (R53, R261). -/
structure UbTurn where
  /-- The boundary, and whether an epoch load has come since. -/
  b : Nat
  old : Bool
  chg : Option UbChange
  deriving DecidableEq, Repr

/-- Saffron's history, beams, units, pins and messages, and Umber's writer. -/
structure SfSt where
  /-- Sample periods released since Saffron was powered: the place of the newest in the history. -/
  idx : Nat
  /-- 4-bit values of the last sample periods: path × 512 + place mod 512 (R236). -/
  hist : Tbl Int
  /-- Paths replaced by zeros in the newest sample period (R241). -/
  repl : Tbl Bool
  tb : Tbl TbSt
  /-- Places at which held hits end: unit × 512 + path (R242). -/
  hits : Tbl Nat
  /-- Outputs true in the newest sample period, bit o (R243). -/
  outs : Nat
  /-- Outputs that drive their pins active, bit o; the pins themselves stay inactive while the unit holds them (R244, R249). -/
  pins : Nat := 0
  /-- Saffron cycle in which each output last turned false, and cycle from which each pin may go active again (R244). -/
  fell : Tbl Nat
  quiet : Tbl Nat
  /-- Levels of the TRIGIN pins, bit i; an open pin is low (R245, R528, R543). -/
  tin : Nat
  /-- SEQ of the next trigger message (R253). -/
  seq : Nat
  /-- A span is open (R250). -/
  span : Bool
  /-- Events coalesced in the open span (R250). -/
  follow : Option TrigMsg
  /-- Messages not yet offered, in SEQ order (R250, R251). -/
  msgs : List TrigMsg
  /-- Slabs not yet written, oldest first (R257, R258). -/
  slabs : List Slab
  /-- Array time of the next slab to be filled; none while Umber does not write. -/
  fillAt : Option Nat
  /-- SEQ of the next slab (R256). -/
  slabSeq : Nat
  /-- Array time of the slab last written (R257). -/
  lastWrit : Option Nat
  /-- The next slab is the first of its generation (R256). -/
  newgen : Bool
  /-- Array time of the last slab before the freeze completes, in state POST (R259). -/
  lastSlab : Option Nat
  /-- Changes that are committed and whose boundary array time has not reached, in firing order: the boundary, the handle of the event, 0 for a host write, and the change (R58, R261). -/
  chgs : List (Nat × Nat × UbChange)
  /-- Changes whose boundary array time has reached while slabs from before it are still to be written: new slabs follow them, in order (R53, R261). -/
  turn : List UbTurn
  /-- A change held until the rearm (R261). -/
  held : Option UbChange
  /-- Trigger configurations that have fired and wait for the sample period they apply from: S and the payload from W2 on (R254). -/
  cfgs : List (Nat × List Word)
  /-- The last epoch load while RUNNING: its load value, and the array time that the sample released next had before it (R53). -/
  jump : Option (Nat × Nat)
  deriving DecidableEq, Repr

/-! ### Ethernet ports and corner turn (08_ethernet_corner_turn.md) -/

/-- A frame waiting to leave a port, from its destination address up to the byte before the FCS (R267). -/
structure TxFrame where
  /-- Service class 0–3 (R38), or 4 for a PFC frame, which goes first (R281). -/
  cls : Nat
  bytes : List Byte
  /-- A trigger message, whose lateness is counted (R43, R44). -/
  c0Message : Bool
  /-- A corner-turn block sent again (R293). -/
  resend : Bool := false
  /-- The dump record whose last packet it carries (R296). -/
  record : Option Nat := none
  /-- A PTP event message, timestamped as it starts: its messageType, domain and sequence (R319). -/
  ptp : Option (Nat × Nat × Nat) := none
  deriving DecidableEq, Repr

/-- A received frame held in its class's receive partition until its consumer takes it (R267, R273). -/
structure RxFrame where
  cls : Nat
  /-- EtherType after any 802.1Q tag. -/
  etype : Nat
  src : Nat
  /-- The bytes after the EtherType, without the FCS. -/
  body : List Byte
  /-- Frame length of R268, which the partition holds. -/
  len : Nat
  /-- The PTP clock when it was received, in units of 10^-9 ns (R319). -/
  ptp : Nat := 0
  deriving DecidableEq, Repr

/-- One Ethernet port. -/
structure PortSt where
  /-- Frames queued for the port, oldest first, of every class (R275). -/
  tx : List TxFrame
  /-- Frames of classes C2 and C3 whose producers are held until their partition has room, oldest first (R41, R277). -/
  held : List TxFrame
  /-- C1 runs above its admitted rate (R39). -/
  excess : Bool
  /-- The frame in transmission (R267). -/
  inTx : Option TxFrame
  /-- A preemptable frame that an express frame has interrupted (R282). -/
  cut : Option TxFrame
  /-- Pause timers by priority, in quanta; 0 while none runs (R279). -/
  timers : Tbl Nat
  /-- Received frames not yet taken, oldest first (R275). -/
  rx : List RxFrame
  /-- MAC-control frames received and not yet acted on, oldest first (R279). -/
  ctl : List (List Byte)
  /-- The queue of C0 messages waiting for their spacing, at most 64 (R44). -/
  c0q : List TxFrame
  /-- Less than 1 µs has passed since the last C0 message (R44). -/
  c0Gap : Bool
  /-- Turns C2 has taken since C3 last did, for the ratio of R39. -/
  turns : Nat
  /-- Verify mPackets sent in the exchange of R282; 0 when none runs. -/
  verify : Nat
  /-- The port takes its link down for a change of SPEED (R299). -/
  speedChange : Bool
  /-- Classes whose receive partition holds its priority off (R281). -/
  xoff : List Nat := []
  deriving DecidableEq, Repr

/-- A block in the resend SRAM (R288): the group it went to, its port, SEQ, and the frame payload from the block header on. -/
structure CtBlock where
  member : Nat
  port : Nat
  seq : Nat
  bytes : List Byte
  deriving DecidableEq, Repr

/-- A SEQ missing from a stream, and the spectra it may belong to: those of the blocks before and after the gap, and all between (R290, R294). -/
structure CtMissing where
  seq : Nat
  lo : Nat
  hi : Nat
  deriving DecidableEq, Repr

/-- A received stream: its next expected SEQ and its missing ones, oldest first (R290). -/
structure CtStream where
  e : Nat
  missing : List CtMissing
  /-- A NAK for the first of them has been sent (R291). -/
  naked : Bool
  /-- The stream was reset by a higher EPOCH: the next block is accepted whatever its SEQ (R289). -/
  any : Bool
  /-- Spectrum of the block that brought `e` to its place. -/
  last : Nat := 0
  deriving DecidableEq, Repr

/-- A scale record of a local path to send: the members that have had it, and whether its spectrum lies before an epoch load (R53, R285). -/
structure CtRec where
  what : ScaleRec
  had : List Nat
  old : Bool
  deriving DecidableEq, Repr

/-- The corner turn (R283 to R294). A stream's key is MODE × 32 + member × 4 + port. -/
structure CtSt where
  /-- Spectra of local paths whose blocks have not all been queued, oldest first. -/
  src : List Fill
  /-- Pieces queued: array time, path block 0–31 and 512-channel run (R283). -/
  queued : List (Nat × Nat × Nat)
  /-- Array time up to which every block of a path block's spectra has been queued, by path block 0–31 (R285). -/
  sentTo : Tbl Nat
  /-- Scale records of local paths to send, oldest first (R285). -/
  recs : List CtRec
  /-- SEQ of the next first send of each stream (R287). -/
  txSeq : Tbl Nat
  /-- The resend SRAM, newest first, at most 2,032 (R288). -/
  sram : List CtBlock
  /-- Streams received (R287). -/
  rx : Tbl CtStream
  /-- Highest EPOCH accepted from each member, plus one: MODE × 8 + member (R289). -/
  epochs : Tbl Nat
  /-- Blocks of a spectrum declared lost at the end of GRACE whose SEQs have not shown themselves missing: array time × 8 + sending member (R294). -/
  owed : Tbl Nat
  /-- Configurations that later ones have replaced, oldest first: the boundary, and the registers of `ctRegs` in force for the spectra before it (R57). -/
  olds : List (Nat × List Word)
  /-- Source MAC of each stream's blocks, plus 2^48 times the port they arrive on (R291). -/
  macs : Tbl Nat
  deriving DecidableEq, Repr

/-! ### Memory controller (10_memory.md) -/

/-- A request in a channel's queue (R341). A read has a length and no data; a corrected codeword written back has neither (R337). -/
structure DrReq where
  /-- Master, numbered as SRC of R551. -/
  master : Nat
  cls : Nat
  write : Bool
  addr : Nat
  data : List Byte
  len : Nat
  promoted : Bool
  /-- Times a younger request of its class has gone before it (R343). -/
  passed : Nat
  /-- Bytes served so far, burst by burst; a read holds in `data` what they returned (R342, R346). -/
  done : Nat := 0
  deriving DecidableEq, Repr

/-- A bank's predictor and row (R348). -/
structure DrBank where
  p : Nat
  tag : Option Nat
  opened : Bool
  deriving DecidableEq, Repr

/-- The delay table of flash (R364): the DR_DLY images, the sweep temperatures and the data rate. -/
structure DrTable where
  regs : List Word
  temps : List Int
  rate : Nat
  deriving DecidableEq, Repr

/-- One of the two copies of the board record: its age, newer ones being larger, and the CRC-32C stored with it (R364). -/
structure BoardCopy where
  age : Nat
  words : List Word
  crc : Nat
  deriving DecidableEq, Repr

/-- One of the two copies of the delay table (R364). -/
structure TableCopy where
  age : Nat
  tab : DrTable
  crc : Nat
  deriving DecidableEq, Repr

/-- The memory controller. Ranks are numbered channel × 2 + rank. -/
structure DrSt where
  /-- Each channel's queue, oldest first (R341). -/
  q : Tbl (List DrReq)
  /-- Requests whose masters are held, oldest first (R341). -/
  held : List DrReq
  /-- Banks by rank × 32 + bank. -/
  banks : Tbl DrBank
  /-- Postponed refreshes by rank (R351). -/
  post : Tbl Nat
  /-- Ranks in power-down (R356). -/
  pd : Tbl Bool
  /-- C2 requests served since the channel last served a C3 one (R39). -/
  turns : Tbl Nat
  /-- Codewords that hold a double-bit error, by DRAM address divided by 8 (R338, R339). -/
  poison : Tbl Bool
  /-- Next codeword of the patrol (R340). -/
  patrol : Nat
  /-- The copies in flash of the board record: DR_CFG, DR_TIM, DR_MAINT and 16 DR_CH_CFG images (R329, R364). -/
  boards : List BoardCopy
  /-- The copies of the delay table in flash (R364). -/
  tables : List TableCopy
  /-- Temperature in °C of each set's sweep: channel × 4 + band (R363). -/
  temps : Tbl Int
  /-- The four lanes of the set each channel's PHY runs with (R359). -/
  phy : Tbl (List Word)
  /-- The next set that each channel's PHY holds, to which it switches between two bursts (R359). -/
  phyNext : Tbl (List Word) := []
  /-- A sweep in progress: channel mask and load at once (R361). -/
  sweep : Option (Nat × Bool)
  /-- A delay-table store in progress (R366). -/
  storing : Bool
  deriving DecidableEq, Repr

/-! ### References, holdover and network time (09_timing.md) -/

/-- One source of R300: its measurements and the progress of its qualification. Its QSTATE and flags are in TM_SRC_STAT. -/
structure SrcSt where
  /-- Offsets of the last 16 counted gates, newest first, in units of 0.01 ppb (R302). -/
  offs : List Int
  /-- Positions of the last 16 PPS edges against the second grid, less PPSDLY, newest first, in units of 0.3125 ns (R302). -/
  edges : List Int
  /-- Positions of the edges that arrived in the gate in progress, newest first. -/
  cur : List Int
  /-- The signal is present: no clock loss or PTP loss (R304). -/
  present : Bool
  /-- It was present throughout the gate in progress, with no loss of R304 (R302). -/
  whole : Bool
  /-- Consecutive gates of SOFT_ALARM within 0.8 of every limit (R306). -/
  calm : Nat
  /-- The coarse measurement lay within HARD and no check has failed since (R307). -/
  coarse : Bool
  deriving DecidableEq, Repr

/-- A foreign master of a PTP domain (R318): its data set as one number that compares as IEEE 1588-2019 orders it, its port identity, clockClass, the Saffron cycles of its last two Announce messages, and the cycles of its announce interval. -/
structure Foreign where
  key : Nat
  id : Nat
  cls : Nat
  last : Nat
  prev : Option Nat
  every : Nat
  deriving DecidableEq, Repr

/-- One PTP domain (R318 to R322). Times are in ns. -/
structure PtpDom where
  foreign : List Foreign
  /-- Port identity of the chosen master. -/
  master : Option Nat
  /-- The last Sync: sequence, receive time and correction; its origin time once known. -/
  syncSeq : Nat
  t2 : Int
  corr : Int
  t1 : Option Int
  /-- A Sync has been received whose exchange is not yet complete. -/
  synced : Bool
  /-- The Delay_Req in flight: its sequence and transmit time. -/
  reqSeq : Nat
  t3 : Option Int
  /-- Offset of the chosen master, as last measured; whether an exchange has completed with it. -/
  offs : Int
  done : Bool
  /-- The filtered offset in ns, and the domain's time at the last gate in units of 10^-9 ns: the PTP clock less it (R300). -/
  filt : Int := 0
  virt : Int := 0
  /-- delayAsymmetry (R319). -/
  asym : Int
  deriving DecidableEq, Repr

/-- One event timestamp of a port (R325, TM_PTP_TS_READ). -/
structure PtpTs where
  tx : Bool
  kind : Nat
  dom : Nat
  seq : Nat
  ts : Nat
  deriving DecidableEq, Repr

/-- The timing core, the outputs and the PTP clock. -/
structure TmSt where
  /-- Sources 0–5. -/
  src : Tbl SrcSt
  /-- TM_SRC_CONFIG payloads that wait for the next gate, by source (R325). -/
  cfgs : Tbl (List Word)
  /-- Some source has reached QUALIFIED since power-on or cold reset (R307). -/
  anyQual : Bool
  /-- Residual phase at the last gate, in ps (R311, R314). -/
  phase : Int
  /-- Since the last gate the core has stayed LOCKED on a QUALIFIED source (R313). -/
  whole : Bool
  /-- Offsets of the time base over the 300 most recent counted seconds, newest first, in units of 0.01 ppb (R313). -/
  counted : List Int
  /-- The holdover estimate at the last entry to HOLDOVER: the sum of its 300 offsets, in units of 0.01 ppb / 300. -/
  fh : Int
  /-- E0 in ps and seconds spent in the present HOLDOVER (R314). -/
  e0 : Nat
  hoT : Nat
  /-- u of the present HOLDOVER, as 300 Σx² − (Σx)² of the offsets it was trained on, at least what 0.01 ppb gives; whether E(t) has exceeded SPEC in it (R313, R314). -/
  hoV : Nat := 0
  hoOver : Bool := false
  /-- SWITCHING is an initial lock of R310, not a transition of R311. -/
  initial : Bool
  /-- Δ of the transition, in units of 0.3125 ns, once measured (R311 step 3). -/
  delta : Option Int
  /-- Consecutive gates within the limits of step 5 (R311). -/
  calm : Nat
  /-- A PPS edge that serves the armed epoch load: its position within the sample period, in sixteenths, and on the old second grid in units of 0.3125 ns (R50, R303). -/
  edge : Option (Nat × Int)
  /-- EPOCH 2 of R427 is armed: the load waits for a PPS of a TAI second that fits. -/
  epoch2 : Bool
  /-- The PTP clock in units of 10^-9 ns, and its rate correction in those units per Saffron cycle (R321). -/
  ptp : Nat
  ptpRate : Int
  /-- Domains A and B. -/
  dom : Tbl PtpDom
  /-- B of R322, in ns. -/
  b : Int
  /-- Frequency in kHz that CLKOUTn carries, 0 while held low or disabled; whether it waits to start (R316). -/
  ck : Tbl Nat
  ckWait : Nat
  /-- FRAMEn outputs now active (R317). -/
  frames : Nat
  /-- The Saffron cycle at which the pulse of FRAMEn ends (R317). -/
  frameEnd : Tbl Nat := []
  /-- While the ATC is not RUNNING: where the second grid lies, in sixteenths of a ns of the timing core's run (R303). -/
  grid : Int := 0
  /-- The Saffron cycle of the last gate (R302). -/
  gateAt : Nat := 0
  /-- The 64 newest event timestamps of each port, newest first (R325). -/
  ts : Tbl (List PtpTs)
  deriving DecidableEq, Repr
/-! ### Replies, the command queue and the scheduler (12_command_interface.md) -/

/-- A command waiting in the queue of R407, or running after its IN_PROGRESS reply. -/
structure QEntry where
  op : Nat
  cmd : Cmd
  deriving DecidableEq, Repr

/-- A packet that arrived while Nieth was restarting, held in order of arrival (R424). -/
structure HeldPacket where
  transport : Transport
  bytes : List Byte
  deriving DecidableEq, Repr

/-- A profile image in flash (R416): its bytes, and whether the profile holds an image at all. -/
structure ProfSlot where
  valid : Bool
  bytes : List Byte
  measurement : List Word
  deriving DecidableEq, Repr

/-- The command interface: buffers, queue, sources, running operations, held notices and profiles. -/
structure CpSt where
  /-- Bytes of the request slots, reply slots and notice rings, keyed by BAR0 offset (R394, R396). Reset 0. -/
  buf : Tbl Byte
  /-- Length of the packet written in request slot k: one more than the highest offset written since the slot was freed (R394). -/
  reqLen : Tbl Nat
  /-- The command queue, oldest first, at most 64 entries (R407). -/
  queue : List QEntry
  /-- The table of sources, most recently active first, at most 32 (R403). -/
  sources : List SourceSt
  /-- Source 0's sequence state during a script run; none outside one (R418). -/
  script : Option SourceSt
  /-- Operations that replied IN_PROGRESS, oldest first, at most 8 (R407). -/
  running : List QEntry
  /-- Notices held for the host ring, oldest first (R396). -/
  heldH : List Reply
  /-- Notices held for the management ring, oldest first (R396). -/
  heldM : List Reply
  /-- Nieth takes commands from the queue: false before boot, during a warm reset and during a hand-off (R424, R426, R499). -/
  serving : Bool
  /-- In recovery the boot ROM answers alone (R496). -/
  recovery : Bool
  /-- Packets held while Nieth restarts, oldest first (R424). -/
  held : List HeldPacket
  /-- Profiles PROF0–PROF3 in the flash die (R416). -/
  profiles : Tbl ProfSlot
  /-- Profile image bytes accumulated in DRAM, keyed by profile × 2 MiB + offset (R415, PROF_STORE). -/
  profAcc : Tbl Byte
  /-- A profile script is running (R424). -/
  scriptRun : Bool
  /-- The script that runs: the activation's handle or none for the start-up script, its profile, and the index of its next packet (R418, R420). -/
  scriptOf : Option Nat
  scriptProf : Nat
  scriptPos : Nat
  /-- The activation boundary A of a script that runs at runtime; none for the start-up script, whose A is not known yet (R418). -/
  scriptAt : Option Nat
  /-- The immediate reply to the script packet last taken, if it has been given (R420). -/
  scriptReply : Option Reply
  /-- Activations whose script was refused: handle, packet index and status (R420). -/
  scriptFails : List (Nat × Nat × Nat)
  /-- Start-up has stopped at a wait for PROF pins that never settled, or they read these two bits (R421, R542). -/
  pins : Option Nat
  /-- The running profile's START, REF_WAIT_MAX, EPOCH_LOAD and EPOCH_BASE_SEC of R416 during start-up: REF_WAIT, EPOCH, maximum wait, load value and base second. -/
  startRefWait : Nat
  startEpoch : Nat
  startRefMax : Nat
  startLoad : Nat
  startBase : Nat
  /-- Start-up steps 6 (ladders) and 7 (reference) have ended (R426). -/
  step7Done : Bool
  /-- Saffron cycle of the last reset of any type (R415, SYS_INFO). -/
  resetAt : Nat
  /-- The PCIe link is up and PE_PERST_N released (R546). -/
  pcieUp : Bool
  /-- An access violation came after the last 0x0101 entry (R551). -/
  avSince : Bool
  deriving DecidableEq, Repr

/-! ### Array time (01_architecture.md) -/

/-- The Array Time Counter and the clock it runs on (R45 to R53). -/
structure TimeSt where
  /-- Saffron cycles of 0.5 ns since the start-up that ran R426 from step 1 (R35, R466). -/
  cycles : Nat
  /-- The ATC, a count below 2^64 (R45). -/
  atc : Nat
  /-- Sample periods accrue at RATE_N / 200 per Saffron cycle: the remainder, 0–199 (R45). -/
  phase : Nat
  /-- RATE_N in force: a register change takes effect at the next epoch load (R54). -/
  rateN : Nat
  /-- Staged TAI mapping: MAP_ATC and MAP_SEC, written at the load (R48). -/
  stagedAtc : Nat
  stagedSec : Nat
  /-- The staged MAP_SEC is taken from the PTP clock's second at the load (R325, TAI_FROM_PTP; R427). -/
  stagedPtp : Bool
  /-- L of R317: the load value of the last epoch. -/
  epoch : Nat := 0
  /-- Saffron cycle in which ARM was set: an edge accepted in that cycle does not count (R50). -/
  armedAt : Nat
  deriving DecidableEq, Repr

/-! ### DMA engine (11_dma.md) -/

/-- A beat in flight: its offset within the descriptor, its length, the source data that it holds for a write that is resent, and its retries (R367, R382, R383). -/
structure DmBeat where
  off : Nat
  len : Nat
  src : List Byte
  tries : Nat
  /-- It waits 1 µs for its retry; on a channel that is to halt there is none. -/
  wait : Bool
  /-- Its write has failed: the retry resends the data it holds (R383). -/
  keep : Bool
  deriving DecidableEq, Repr

/-- A descriptor in progress (R370). -/
structure DmDesc where
  addr : Nat
  src : Nat
  dst : Nat
  next : Nat
  count : Nat
  ctl : Nat
  /-- Bytes issued so far. -/
  issued : Nat
  beats : List DmBeat
  /-- Retries of the DONE write-back, and whether it waits for one (R378, R383). -/
  wbTries : Nat
  wbWait : Bool
  /-- The channel is to halt for it or for one before it: it does not complete (R385, R386). -/
  dead : Bool
  deriving DecidableEq, Repr

/-- How a channel is about to halt, once its beats in flight have ended (R376, R385). -/
structure DmHalt where
  code : Nat
  cur : Nat
  err : Nat
  remain : Nat
  fetch : Bool
  overlap : Bool
  deriving DecidableEq, Repr

/-- A DMA channel's chain. -/
structure DmChan where
  /-- Descriptors in progress, oldest first. -/
  descs : List DmDesc
  /-- The fetch in flight: its address, retries made, and whether it waits for one. -/
  fetch : Option (Nat × Nat × Bool)
  /-- Where the chain goes on to once the descriptors before it are complete, the hop limit being reached (R379). -/
  go : Option Nat
  /-- The fetch repeats one of R378, and so counts no hop (R379). -/
  again : Bool
  hops : Nat
  /-- RETRY and HOP_LIMIT in force (R376). -/
  retry : Nat
  limit : Nat
  halt : Option DmHalt
  deriving DecidableEq, Repr

/-- The DMA engine. -/
structure DmSt where
  chans : Tbl DmChan
  /-- DM_ABORT commands whose reply waits for their channel to be HALTED (R389). -/
  aborts : List (Nat × QEntry)
  deriving DecidableEq, Repr

/-! ### Power, temperature and the event log (14_power_thermal.md) -/

/-- What VIN and the rails let the device do (R460, R463, R483). -/
inductive Power where
  /-- VIN below 6.0 V: everything off. -/
  | off
  /-- VHK and housekeeping alone (R460, R545 step 1). -/
  | housekeeping
  /-- Held by RESET_N (R541): the I/O-and-control die is powered down until release. -/
  | heldReset
  /-- VIN valid: the I/O-and-control die is powered. -/
  | on
  /-- Undervoltage or overvoltage lockout: every rail off. -/
  | lockout
  /-- After a critical shutdown: every rail but VHK off (R483). -/
  | critical
  deriving DecidableEq, Repr

/-- One temperature sensor (R471 to R474). The filtered temperature is `num / 4 ^ exp` in units of 0.0625 °C, exact under R473. -/
structure Sensor where
  /-- The first reading since the sensor's die was powered has been made (R473). -/
  seen : Bool
  num : Int
  exp : Nat
  /-- Last raw reading, in units of 0.0625 °C. -/
  raw : Int
  /-- A reading at or above 115 °C awaits its confirmation by the next (R481). -/
  pend : Bool
  /-- The sensor is unavailable and has been logged (R474). -/
  lost : Bool
  deriving DecidableEq, Repr

/-- An entry of the event log (R466). Its CRC-32C is a function of the other fields. -/
structure LogEntry where
  atc : Nat
  ms : Nat
  code : Nat
  sev : Nat
  seq : Nat
  detail : List Word
  deriving DecidableEq, Repr

/-- Power input, sensors, throttling and restart budget. -/
structure PwSt where
  power : Power
  /-- The last loss of VIN left its power-fail entry in the log (R461). -/
  warned : Bool
  /-- Sensors TS0–TS63 by number. -/
  sens : Tbl Sensor
  /-- Saffron cycle in which each die's step last changed: dies 0 and 1 compute, 2 I/O-and-control, 3 K_S (R476, R477). -/
  stepAt : Tbl Nat
  /-- Saffron cycle since which each die's Th has stayed below 97 °C, plus one; 0 while it has not (R476). -/
  coolAt : Tbl Nat
  /-- The compute dies are powered (R463, R481, R452). -/
  compOn : Bool
  /-- Compute dies that have not been powered since a thermal shutdown: their steps start at 4 (R479). -/
  hotStart : List Nat
  /-- Saffron cycles at which automatic restarts took place in the preceding 3,600 s, newest first, held by housekeeping (R485). -/
  restarts : List Nat
  /-- Housekeeping's own count of Saffron-cycle time, kept across restarts of the device (R485, R486). -/
  hkCycles : Nat
  /-- AUTO_RESTART as last written, held by housekeeping (R486). -/
  hkAuto : Bool
  /-- The compute dies are being restarted (R425, R485). -/
  compRestart : Bool
  /-- The shutdown entry of R481 step 2 waits to be written. -/
  shutPend : Bool
  /-- V3P3_AUX is switched off by a fault and awaits its retry (R464). -/
  auxOff : Bool
  /-- Slew code that each CMOS output takes at its next inactive period (R475). -/
  slewNext : Nat
  /-- Slew code of each push-pull output: TRIG[7:0], FRAME0–3, HB_OUT and TDO (R475, R531). -/
  slew : Tbl Nat := []
  deriving DecidableEq, Repr

/-! ### Security and life cycle (15_security_lifecycle.md) -/

/-- A firmware slot of the flash die (R493): the header's fields, the bytes from offset 0, and whether it was valid at its last check (R494). -/
structure FwSlot where
  valid : Bool
  ckptVer : Nat
  fwVersion : Nat
  svn : Nat
  ckptMin : Nat
  key : Nat
  ident : List Byte
  measurement : List Word
  /-- The image as stored; empty for the image the device was made with, which verifies (design choice, log entry 9). -/
  bytes : List Byte
  deriving DecidableEq, Repr

/-- The life-cycle record, firmware slots, nonce and wipes. -/
structure LcSt where
  /-- Life-cycle state 0–4 (R502), in the record of R492. -/
  state : Nat
  prev : Nat
  ownerKey : List Byte
  idKey : List Byte
  svnMin : Nat
  committed : Nat
  /-- The record's trial flag: the slot under trial is running (R492, R500). -/
  trial : Bool
  boots : Nat
  wipes : Nat
  transitions : Nat
  slotA : FwSlot
  slotB : FwSlot
  /-- Firmware image bytes accumulated in DRAM, by slot × 2^25 + offset (R497). -/
  fwAcc : Tbl Byte
  /-- The live nonce, if any (R505). -/
  nonce : Option (List Word)
  /-- The transition being carried out: target state and the new owner key, if it enrols one (R507). -/
  trans : Option (Nat × List Byte)
  /-- Step 4 of R507 has been reached and the transition reset is due. -/
  transReset : Bool
  /-- The hand-off of R499 is running: the slot that takes over, its AUTO_COMMIT, and the event whose completion notice it will send. -/
  handoff : Option Event
  /-- Completion notices of events applied at the hand-off's boundary, oldest first: the event, its status and words; they follow that of the activation (R498). -/
  handNotes : List (Event × Nat × List Word)
  /-- Measurement of the firmware booted and of the running profile (R495, R513). -/
  bootMeas : List Word
  profMeas : List Word
  /-- Saffron cycle in which TRIAL was set (R499, R500). -/
  trialAt : Nat
  /-- TAP instruction in force, as `TAP_INSTRUCTION` numbers them (R530). -/
  tap : Nat
  deriving DecidableEq, Repr

/-! ### Active and standby pairs (13_redundancy.md) -/

/-- What a checkpoint, a delta or a state record carries (R438): the state that the unit's commands set, at an array time. -/
structure Ckpt where
  /-- ATC at which it was current at the active. -/
  atc : Nat
  /-- Every FW field, by register, and whole those of the product set, the tables in force, the TAI mapping and the output sequence counters. -/
  regs : Tbl Word
  events : List Event
  sources : List SourceSt
  /-- Program images of the store slots. -/
  progs : Tbl ProgSlot
  /-- Active calibration banks: slice × 65,536 + halfword of the bank. -/
  cal : Tbl Nat
  /-- Active polynomial table, by slot. -/
  poly : Tbl PolySlot
  scales : Tbl ScaleSt
  /-- G_0 of the grid and the regions in force. -/
  anchor : Nat
  regions : List Region
  /-- SEQ of the next trigger message. -/
  sfSeq : Nat
  deriving DecidableEq, Repr

/-- A message of the Miltia link (R438, R459). -/
inductive MlMsg where
  | full (c : Ckpt)
  | delta (c : Ckpt)
  | record (c : Ckpt)
  /-- A Pelusk packet relayed by ML_RELAY or ROLE_HANDOVER. -/
  | relay (packet : List Byte)
  /-- The peer's reply packet to a relayed packet. -/
  | relayReply (packet : List Byte)
  deriving DecidableEq, Repr

/-- A DATA block, from FLAGS to its data bytes (R435). -/
structure MlBlock where
  seq : Nat
  first : Bool
  last : Bool
  data : List Byte
  /-- The message it belongs to, by the model's number of it. -/
  msg : Nat
  deriving DecidableEq, Repr

/-- A negotiation message of the link that waits for its reply: MSG, argument, TAG and attempt 1–4 (R84, R86, R434). -/
structure LinkAsk where
  msg : Nat
  arg : Nat
  tag : Nat
  attempt : Nat
  deriving DecidableEq, Repr

/-- The pair's state (R431 to R457). ML_STAT.STATE holds the unit's role. -/
structure MlSt where
  /-- Step of the link's ladder (R89, R434). -/
  ladder : Ladder := .idle
  /-- Rung that the ladder switches to. -/
  goal : Nat := 0
  /-- The negotiation message that waits for its reply (R86, R434). -/
  ask : Option LinkAsk := none
  /-- TAG of the next negotiation message (R84). -/
  tag : Nat := 0
  /-- The link's forwarded clock is locked, and the receive lanes in loss of signal (R75, R435). -/
  fck : Bool := false
  los : List Nat := []
  /-- Blocks received since the dwell began, or since the last CRC failure in it (R434). -/
  clean : Nat := 0
  /-- The ladder is down and retries step 0 (R434). -/
  retry : Bool := false
  /-- S of the planned handover by which the unit last became ACTIVE or FENCED; 0 where it did so otherwise (R454). -/
  split : Nat := 0
  /-- DATA blocks sent and not acknowledged, oldest first, at most 256 (R436). -/
  sent : List MlBlock
  /-- DATA blocks waiting to be sent, oldest first; their SEQ is given when they are sent. -/
  wait : List MlBlock
  /-- Messages not wholly acknowledged, in their order (R437). -/
  msgs : List (Nat × MlMsg)
  /-- Number of the next message. -/
  nextMsg : Nat
  /-- SEQ of the next DATA block sent, below 2^16 (R435). -/
  txSeq : Nat
  /-- SEQ expected from the peer, which every block sent carries as ACK (R436). -/
  rxSeq : Nat
  /-- The NAK for the expected SEQ has been sent (R436). -/
  nakSent : Bool
  /-- An acknowledgement waits for the next block sent (R436). -/
  ackDue : Bool
  /-- Consecutive resends of the oldest block (R437). -/
  resends : Nat
  /-- Data bytes of the message being received; none between messages. -/
  rxBuf : Option (List Byte)
  /-- Replies held until the standby has acknowledged their delta, with the number of that message (R440). -/
  held : List (Nat × QEntry × Reply)
  /-- COUNT of the next heartbeat word on each path: Miltia, pins, beacon (R446). -/
  hbTx : Tbl Nat
  /-- COUNT of the last valid word on each path, plus one; 0 before the first (R448). -/
  hbRx : Tbl Nat
  /-- Highest epoch recorded in the event log at promotion (R432). -/
  loggedEpoch : Nat
  /-- A valid word has been heard since start-up (R432). -/
  heard : Bool
  /-- A valid FENCED word has arrived and no ACTIVE word since (R449). -/
  peerFenced : Bool
  /-- No ACTIVE word for 30 µs on any path (R449). -/
  silent : Bool
  /-- Saffron cycle of the last valid ACTIVE word (ML_HB_STAT.PEER_ACTIVE). -/
  activeAt : Nat
  /-- Saffron cycle at which the unit reached step 9 of R426, plus one; 0 before (R449). -/
  step9 : Nat
  /-- An ACTIVE word of the peer has been heard since an unconfirmed promotion (R456). -/
  dualHeard : Bool
  /-- Highest rung of the peer's HELLO on the link (R434). -/
  top : Nat
  /-- Reply packets of the peer that have arrived for relayed packets, oldest first (R459). -/
  replies : List (List Byte)
  /-- The last complete state on the standby (R439). -/
  ckpt : Option Ckpt
  /-- The lease: START and END (R450). -/
  lease : Option (Nat × Nat)
  /-- The fence asked for WARM (R451). -/
  fenceWarm : Bool
  /-- ROLE_WARM's change under way: to WARM, or back to LAMPBLACK (R453). -/
  warming : Option Bool
  /-- Promotion has happened and step 4, then step 5, of R452 are still due. -/
  takeover : Bool
  takeBoundary : Bool
  /-- The last promotion was from LAMPBLACK (R452). -/
  cold : Bool
  /-- ATC of the promotion, for the span of dual activity; none outside one (R456). -/
  dualFrom : Option Nat
  /-- Verdigris: item powered now, next item 0–127, failures by item, full sweeps and the ATC at the end of the last (R444, R445). -/
  item : Option Nat
  nextItem : Nat
  fails : Tbl Bool
  sweeps : Nat
  sweepAtc : Nat
  /-- The last health report logged (R445). -/
  report : List Word
  /-- An UNPAIRED unit made paired waits 30 µs for an ACTIVE word (R459). -/
  pairing : Bool
  /-- A planned handover this unit originated has fired and its frames of data before S still leave (R454). -/
  drainOld : Bool
  /-- Highest checkpoint format in both ranges; none when no format lies in both (R501). -/
  ckptFmt : Option Nat
  /-- The unit became WARM at this array time (R454). -/
  warmAt : Nat
  deriving DecidableEq, Repr

/-! ### The whole state -/

/-- Something the device puts out: what left it, newest first, is `State.out`. -/
inductive Out where
  /-- An MSI-X message of a vector (R554). -/
  | msix (v : Nat)
  /-- A frame whose transmission on port `n` has ended, without its FCS (R267). -/
  | frame (n : Nat) (bytes : List Byte)
  /-- A verify mPacket of port `n` (R282). -/
  | verify (n : Nat)
  /-- A two-wire read's data (R397). -/
  | mgmtRead (bs : List Byte)
  /-- A Miltia block, from its type to its data bytes (R435). -/
  | miltia (block : List Byte)
  /-- A heartbeat word on the HB pins: the sync byte and bytes 2–15 (R447). -/
  | hbPins (bytes : List Byte)
  /-- A block sent on an octet's control lane: a message, an idle block, or 128 bits of the PRBS generator (R84, R97). -/
  | ctl (o : Nat) (bytes : List Byte)
  /-- A TRIG pin changes its level (R244). -/
  | trig (o : Nat) (high : Bool)
  /-- The two-wire target answers NACK (R397). -/
  | mgmtNack
  /-- DRAM read data returned to a master, poisoned or not (R337, R338). -/
  | dram (master addr : Nat) (bs : List Byte) (poisoned : Bool)
  /-- A bus error returned to a master's DRAM access (R335). -/
  | dramError (master addr : Nat)
  /-- Data of a BAR2 read, poisoned or not, and an Unsupported Request (R392). -/
  | bar2 (bs : List Byte) (poisoned : Bool)
  | bar2Unsupported
  /-- A write of the DMA engine to host memory, at a PCIe bus address (R368). -/
  | hostWrite (addr : Nat) (bs : List Byte)
  /-- A register read's data returned to a requester (R20). -/
  | regRead (r : Requester) (off : Nat) (w : Word)
  deriving DecidableEq, Repr

/-- The state of the device. -/
structure State where
  /-- Every register of the map by its BAR0 offset, an unlisted one reading 0 (R13, R556). -/
  regs : Tbl Word
  /-- Unconsumed shadow copies of R20, by requester × 2^28 + offset of the _HI half; none where the requester holds no copy. -/
  shadow : Tbl (Option Word)
  /-- Staged low halves of R20, by requester × 2^28 + offset of the _LO half. -/
  staged : Tbl (Option Word)
  /-- What has happened in the present Saffron cycle, laid out as the registers are: events counted in each counter, and W1C bits set (R15). -/
  fresh : Tbl Word
  time : TimeSt
  cp : CpSt
  /-- The scheduler's queue, in the order of entry (R409). -/
  events : List Event
  /-- Ports E0–E3. -/
  et : Tbl PortSt
  /-- The DRAM's bytes by address, an unlisted one reading 0 (R510). -/
  mem : Tbl Byte
  sl : SlSt
  md : MdSt
  ch : ChSt
  ix : IxSt
  wd : WdSt
  sf : SfSt
  ct : CtSt
  dr : DrSt
  tm : TmSt
  dm : DmSt
  ml : MlSt
  pw : PwSt
  lc : LcSt
  /-- The event log's entries held in the flash die, newest first (R466). -/
  log : List LogEntry
  /-- What has left the device, newest first. -/
  out : List Out
  /-- The model's own counter of free values drawn. -/
  free : Nat
  /-- The commands waiting, first in first out. -/
  pending : List Instr
  deriving DecidableEq, Repr

/-! ### Reset -/

/-- A staging half that is free, and a bank without an integration, as reset leaves them. -/
def halfReset : Half :=
  { base := none, cap := 0, specs := [], full := false, die0 := .waiting, die1 := .waiting, woad := .waiting, shed0 := 0, shed1 := 0, shedW := 0
    first := 0, count := 0, mode := 0, member := 0 }
def bankReset : Bank :=
  { start := none, stop := none, draining := false, vat := [], spec := [], sat := [], tiles := [], paths := [], acc := [], shedRg := 0
    shedPasses := 0, stageDrops := 0, flags := 0, regions := [], first := 0, count := 0, t := 0, mode := 0, member := 0, nspec := 0
    packed := false }

/-- Registers whose Reset column is not 0 (R16), and the mask bit of each MSI-X vector, which PCIe sets at reset. -/
def regsReset : Tbl Word :=
  [(GLB_ID, 0x4F4C0512#32), (GLB_REV, 0x1010101#32), (GLB_CAP, 0x403FF400#32)] ++
    (List.range 128).map (fun v => (0x8000C + 16 * v, 1#32)) ++
    (List.range 64).map (fun o => (SL_OCT_PRBS o, 0xC0000000#32)) ++
    [(TM_STAT, 0x1C000000#32)] ++
    (List.range 6).flatMap (fun k => [(TM_SRC_OFFS k, 0x80000000#32), (TM_SRC_DRIFT k, 0x8000FFFF#32)]) ++
    [(DM_HALT_EN, 0xFFFFFFFF#32)] ++
    (List.range 32).map (fun n => (DM_CH_CTL n, 0x3001000#32)) ++
    [(CP_SYS_STAT, 0x10000000#32), (ML_CKPT_AGE, 0xFFFFFFFF#32)] ++
    (List.range 64).map (fun n => (PW_TS n, 0x80000000#32)) ++
    [(SC_NEXT_LO, 0xFFFFFFFF#32), (SC_NEXT_HI, 0xFFFFFFFF#32)]

/-- A firmware slot that holds nothing. -/
def fwEmpty : FwSlot := { valid := false, ckptVer := 0, fwVersion := 0, svn := 0, ckptMin := 0, key := 0, ident := [], measurement := [], bytes := [] }

/-- A device as made, right after reset: housekeeping powered, every register at its Reset column, memories clear, the flash die holding firmware in slot A alone. -/
def State.reset : State :=
  { regs := regsReset, shadow := [], staged := [], fresh := []
    time := { cycles := 0, atc := 0, phase := 0, rateN := 0, stagedAtc := 0, stagedSec := 0, stagedPtp := false, armedAt := 0 }
    cp := { buf := [], reqLen := [], queue := [], sources := [], script := none, running := [], heldH := [], heldM := [], serving := false
            recovery := false, held := [], profiles := [], profAcc := [], scriptRun := false, scriptOf := none, scriptProf := 0, scriptPos := 0, scriptAt := none, scriptReply := none, scriptFails := [], pins := none, startRefWait := 0, startEpoch := 0
            startRefMax := 0, startLoad := 0, startBase := 0, step7Done := false, resetAt := 0, pcieUp := false, avSince := false }
    events := [], et := [], mem := []
    sl := { lanes := [], octs := [], next := 0 }
    md := { sl := [], store := [], past := [], w := 0, progs := [], acc := [], fills := [] }
    ch := { paths := [], epoch := [], bounds := [], recs := [], swapAt := [], tgts := [], cal := [], fetch := [], store := none }
    ix := { half0 := halfReset, half1 := halfReset, nextBase := 0, bankA := bankReset, bankB := bankReset, regions := [], anchor := 0
            deferred := false, done := 0, drops := [], olds := [], recs := [], ring := [], lostQ := [] }
    wd := { tab := [], sets := [], beams := [], load := none, fetch := none, store := none, swaps := [], olds := [], next := 0, gap := none }
    sf := { idx := 0, hist := [], repl := [], tb := [], hits := [], outs := 0, fell := [], quiet := [], tin := 0, seq := 0, span := false
            follow := none, msgs := [], slabs := [], fillAt := none, slabSeq := 0, lastWrit := none, newgen := false, lastSlab := none, chgs := [], turn := []
            held := none, cfgs := [], jump := none }
    ct := { src := [], queued := [], sentTo := [], recs := [], txSeq := [], sram := [], rx := [], epochs := [], owed := [], olds := [], macs := [] }
    dr := { q := [], held := [], banks := [], post := [], pd := [], turns := [], poison := [], patrol := 0, boards := [], tables := []
            temps := [], phy := [], sweep := none, storing := false }
    tm := { src := [], cfgs := [], anyQual := false, phase := 0, whole := false, counted := [], fh := 0, e0 := 0, hoT := 0, initial := false
            delta := none, calm := 0, edge := none, epoch2 := false, ptp := 0, ptpRate := 0, dom := [], b := 0, ck := [], ckWait := 0, frames := 0
            ts := [] }
    dm := { chans := [], aborts := [] }
    ml := { sent := [], wait := [], msgs := [], nextMsg := 0, txSeq := 0, rxSeq := 0, nakSent := false, ackDue := false, resends := 0
            rxBuf := none, held := [], hbTx := [], hbRx := [], loggedEpoch := 0, heard := false, peerFenced := false, silent := false
            activeAt := 0, step9 := 0, dualHeard := false, top := 0, replies := [], ckpt := none, lease := none, fenceWarm := false
            warming := none, takeover := false, takeBoundary := false, cold := false, dualFrom := none, item := none, nextItem := 0, fails := [], sweeps := 0
            sweepAtc := 0, report := [], pairing := false, drainOld := false, ckptFmt := none, warmAt := 0 }
    pw := { power := .housekeeping, warned := true, sens := [], stepAt := [], coolAt := [], compOn := false, hotStart := [], restarts := []
            hkCycles := 0, hkAuto := false, compRestart := false, shutPend := false, auxOff := false, slewNext := 0 }
    lc := { state := 0, prev := 0, ownerKey := [], idKey := [], svnMin := 0, committed := 0, trial := false, boots := 0, wipes := 0
            transitions := 0, slotA := { fwEmpty with valid := true }, slotB := fwEmpty, fwAcc := [], nonce := none, trans := none
            transReset := false, handoff := none, handNotes := [], bootMeas := [], profMeas := [], trialAt := 0, tap := 0 }
    log := [], out := [], free := 0, pending := [] }

/-- What survives a loss of power: the flash die, housekeeping's own state, and the model's history and queue (R25, R466, R485, R492). -/
def State.nonvolatile (s : State) (p : Power) : State :=
  let r := State.reset
  { r with
    regs := tblSet 0 r.regs PW_LOG_SEQ (tblGet 0 s.regs PW_LOG_SEQ)
    cp := { r.cp with profiles := s.cp.profiles }
    md := { r.md with progs := s.md.progs }
    ch := { r.ch with cal := s.ch.cal }
    wd := { r.wd with sets := s.wd.sets }
    dr := { r.dr with boards := s.dr.boards, tables := s.dr.tables }
    ml := { r.ml with loggedEpoch := s.ml.loggedEpoch }
    pw := { r.pw with
      power := p, warned := s.pw.warned, restarts := s.pw.restarts, hkCycles := s.pw.hkCycles, hkAuto := s.pw.hkAuto }
    lc := { r.lc with
      state := s.lc.state, prev := s.lc.prev, ownerKey := s.lc.ownerKey, idKey := s.lc.idKey, svnMin := s.lc.svnMin, committed := s.lc.committed
      trial := s.lc.trial, boots := s.lc.boots, wipes := s.lc.wipes, transitions := s.lc.transitions, slotA := s.lc.slotA, slotB := s.lc.slotB }
    log := s.log, out := s.out, free := s.free, pending := s.pending }

end Sys2Proof.Machine
end

