-- ==== Sys2Proof/Machine/Ops.lean ====
section
/-! DEFINITION. The operations every meaning is built from: register and field access, counters, interrupts, access violations, the event log and free values. -/

namespace Sys2Proof.Machine

/-! ### Fields of a word -/

/-- The value of a field. -/
def fget (w : Word) (f : Fld) : Nat := w.toNat / 2 ^ f.lo % 2 ^ f.w

/-- The word with a field replaced; the value is taken modulo the field's width. -/
def fput (w : Word) (f : Fld) (v : Nat) : Word :=
  BitVec.ofNat 32 (w.toNat - fget w f * 2 ^ f.lo + v % 2 ^ f.w * 2 ^ f.lo)

/-- Two fields of a word that share no bit. -/
def Fld.apart (f g : Fld) : Prop := f.lo + f.w ≤ g.lo ∨ g.lo + g.w ≤ f.lo

/-! ### Registers -/

/-- The register at a BAR0 offset. -/
def State.reg (s : State) (off : Nat) : Word := tblGet 0 s.regs off

/-- Write the whole register at a BAR0 offset. -/
def State.setReg (s : State) (off : Nat) (w : Word) : State := { s with regs := tblSet 0 s.regs off w }

/-- A field of the register at an offset. -/
def State.rf (s : State) (off : Nat) (f : Fld) : Nat := fget (s.reg off) f

/-- Write a field of the register at an offset. -/
def State.setF (s : State) (off : Nat) (f : Fld) (v : Nat) : State := s.setReg off (fput (s.reg off) f v)

/-- Write one bit of a field, numbered from the field's lowest. -/
def State.setFB (s : State) (off : Nat) (f : Fld) (i : Nat) (b : Bool) : State :=
  s.setF off f (if b then setBit (s.rf off f) i else clrBit (s.rf off f) i)

/-- Bit `i` of a field. -/
def State.rfb (s : State) (off : Nat) (f : Fld) (i : Nat) : Bool := bit (s.rf off f) i

/-- Whether a one-bit field reads 1. -/
def State.flag (s : State) (off : Nat) (f : Fld) : Bool := s.rf off f == 1

/-- The 64-bit quantity of a pair whose _LO half is at `lo` (R20). -/
def State.reg64 (s : State) (lo : Nat) : Nat := (s.reg lo).toNat + 2 ^ 32 * (s.reg (lo + 4)).toNat

/-- Write the 64-bit quantity of a pair. -/
def State.setReg64 (s : State) (lo v : Nat) : State :=
  (s.setReg lo (BitVec.ofNat 32 v)).setReg (lo + 4) (BitVec.ofNat 32 (v / 2 ^ 32))

/-- What has happened in the present Saffron cycle at a register (R15). -/
def State.freshAt (s : State) (off : Nat) : Word := tblGet 0 s.fresh off

/-- Note what has happened in the present cycle at a register (R15). -/
def State.note (s : State) (off : Nat) (w : Word) : State := { s with fresh := tblSet 0 s.fresh off w }

/-- Set a field of W1C bits to `v`, some of them set now (R14, R15). -/
def State.setSeen (s : State) (off : Nat) (f : Fld) (v : Nat) : State :=
  (s.setF off f v).note off (fput (s.freshAt off) f (Nat.lor (fget (s.freshAt off) f) v))

/-- Set bit `i` of a field of W1C bits (R14, R15). -/
def State.setSeenB (s : State) (off : Nat) (f : Fld) (i : Nat) : State :=
  (s.setFB off f i true).note off (fput (s.freshAt off) f (setBit (fget (s.freshAt off) f) i))

/-- Count `n` events in a counter field, which stops at all ones (R21). -/
def State.bumpBy (s : State) (off : Nat) (f : Fld) (n : Nat) : State :=
  (s.setF off f (min (2 ^ f.w - 1) (s.rf off f + n))).note off (fput (s.freshAt off) f (min (2 ^ f.w - 1) (fget (s.freshAt off) f + n)))

/-- The field that a 32-bit counter fills. -/
def counter32 : Fld := ⟨0, 32⟩

/-- Count one event in a 32-bit counter (R21). -/
def State.bump (s : State) (off : Nat) : State := s.bumpBy off counter32 1

/-- Count `n` events in a 64-bit counter pair (R20, R21). -/
def State.bump64 (s : State) (lo n : Nat) : State :=
  let m := min (2 ^ 64 - 1) ((s.freshAt lo).toNat + 2 ^ 32 * (s.freshAt (lo + 4)).toNat + n)
  ((s.setReg64 lo (min (2 ^ 64 - 1) (s.reg64 lo + n))).note lo (BitVec.ofNat 32 m)).note (lo + 4) (BitVec.ofNat 32 (m / 2 ^ 32))

/-- Clear every register of a list of offsets. -/
def State.clearRegs (s : State) (offs : List Nat) : State := { s with regs := tblSetAll 0 s.regs offs 0 }

/-- Clear a counter field: it keeps what it counts in the same cycle (R15). -/
def State.clearCount (s : State) (off : Nat) (f : Fld) : State := s.setF off f (fget (s.freshAt off) f)

/-- Clear every counter of a list of offsets: each keeps what it counts in the same cycle (R15). -/
def State.clearCounters (s : State) (offs : List Nat) : State :=
  { s with regs := offs.foldl (fun t o => tblSet 0 t o (s.freshAt o)) s.regs }

/-- A word of W1C bits after a write of `v`: a 1 clears its bit, unless the bit is set in the same cycle (R14, R15). -/
def State.clearOnes (s : State) (off : Nat) (v : Word) : State := s.setReg off ((s.reg off &&& ~~~v) ||| s.freshAt off)

/-! ### Free values and outputs -/

/-- Put something out. -/
def State.emit (s : State) (o : Out) : State := { s with out := o :: s.out }

/-- Advance the model's count of free values drawn; the value drawn is a constant of `Config` at the count before. -/
def State.draw (s : State) : State := { s with free := s.free + 1 }

/-! ### Array time -/

/-- The ATC is RUNNING (R54). -/
def State.running (s : State) : Bool := s.rf TM_ATC_STAT TM_ATC_STAT_STATE == 2

/-- The ATC as TM_ATC reads it: 0 while NOT_SET or ARMED (R54). -/
def State.now (s : State) : Nat := if s.running then s.time.atc else 0

/-- Sample periods in `n` units of 0.1 µs at the rate in force, rounded up (R45). -/
def State.periods (s : State) (tenths : Nat) : Nat := tenths * s.time.rateN

/-- Spectrum boundary at or after T (R55). -/
def spectrumAt (t : Nat) : Nat := cdiv t 8192 * 8192

/-- The last whole spectrum boundary at or before an array time. -/
def spectrumFloor (t : Nat) : Nat := t / 8192 * 8192

/-! ### Interrupts (R552 to R554) -/

/-- Offset of a vector's control word in the MSI-X table; bit 0 masks the vector (R554). -/
def msixCtl (v : Nat) : Nat := 0x80000 + 16 * v + 12

/-- Offset of the word of the pending-bit array that holds a vector's bit (R547). -/
def msixPba (v : Nat) : Nat := 0x81000 + 4 * (v / 32)

/-- The mask bit of a vector control word. -/
def msixMask : Fld := ⟨0, 1⟩

/-- The registers that signalling an interrupt writes: EV_INT_STAT and the pending-bit array (R553, R554). -/
def intReg (o : Nat) : Prop := o = EV_INT_STAT ∨ (0x81000 ≤ o ∧ o < 0x81010)

/-- Signal a vector: the message is sent, or held in the pending-bit array while the vector is masked (R554). -/
def State.signal (s : State) (v : Nat) : State :=
  if s.flag (msixCtl v) msixMask then s.setF (msixPba v) ⟨v % 32, 1⟩ 1 else s.emit (.msix v)

/-- Set bit `i` of EV_INT_STAT; the vector is signalled when the bit rises while enabled (R554). -/
def State.raise (s : State) (i : Nat) : State :=
  let was := s.rfb EV_INT_STAT EV_INT_STAT_PEND i
  let s' := s.setSeenB EV_INT_STAT EV_INT_STAT_PEND i
  if !was && s.rfb EV_INT_EN EV_INT_EN_EN i then s'.signal (32 + i) else s'

/-- Set a W1C bit and raise its block's interrupt bit, whether or not the W1C bit was already set (R553). -/
def State.seen (s : State) (off : Nat) (f : Fld) (i : Nat) : State := (s.setSeen off f 1).raise i

/-- The interrupt bits of the blocks, as R552 numbers them from vector 32. -/
def evMail : Nat := 0
def evNotice : Nat := 1
def evException : Nat := 2
def evProgram : Nat := 3
def evLanes : Nat := 4
def evIndigo : Nat := 5
def evWoad : Nat := 6
def evSaffron : Nat := 7
def evEthernet : Nat := 8
def evTiming : Nat := 9
def evMemory : Nat := 10
def evPair : Nat := 11
def evPower : Nat := 12
def evSecurity : Nat := 13
def evViolation : Nat := 14
def evScheduler : Nat := 15

/-! ### The event log (R466, R467, R557) -/

/-- A number as one 32-bit item of a log detail or a reply. -/
def w32 (n : Nat) : Word := BitVec.ofNat 32 n

/-- A 64-bit value as a log detail carries it: low word first (R557). -/
def loHi (n : Nat) : List Word := [w32 n, w32 (n / 2 ^ 32)]

/-- A 64-bit value as a payload or a reply carries it: high word first (R398). -/
def hiLo (n : Nat) : List Word := [w32 (n / 2 ^ 32), w32 n]

/-- Milliseconds since the start-up that ran R426 from step 1, wrapping at 32 bits (R466). -/
def State.uptimeMs (s : State) : Nat := s.time.cycles / 2000000 % 2 ^ 32

/-- The ring keeps the 64 KiB sector ahead of the writer erased: how many entries it holds once the next SEQ is `n` (R467). -/
def logKept (n : Nat) : Nat := 262144 - 1024 - (1023 - (n + 1023) % 1024)

/-- Write one event-log entry (R466). -/
def State.logEvent (s : State) (code sev : Nat) (detail : List Word) : State :=
  let q := (s.reg PW_LOG_SEQ).toNat
  let e : LogEntry := { atc := s.now, ms := s.uptimeMs, code := code, sev := sev, seq := q, detail := detail }
  { s with log := (e :: s.log).take (logKept (q + 1)) }.setReg PW_LOG_SEQ (w32 (q + 1))

/-! ### Access violations (R551) -/

/-- SRC of GLB_AV_STAT for a requester. -/
def avSrc : Requester → Nat
  | .cp => 0
  | .bar0 => 1
  | .mgmt => 2

/-- KIND of GLB_AV_STAT (R551). -/
def avHostWrite : Nat := 1
def avEncoding : Nat := 2
def avAddress : Nat := 3
def avSlotBusy : Nat := 4
def avState : Nat := 5
def avUmber : Nat := 6
def avPartial : Nat := 7
def avUndecoded : Nat := 8

/-- The 0x0101 log entry of R551, with the violation registers as they stand. -/
def State.logViolation (s : State) : State :=
  { s with cp := { s.cp with avSince := false } }.logEvent 0x0101 1
    [s.reg GLB_AV_STAT, s.reg GLB_AV_ADDR_LO, s.reg GLB_AV_ADDR_HI, s.reg GLB_AV_DATA, s.reg GLB_AV_COUNT]

/-- The first violation of the present cycle, for a clear in the same cycle (R15, R551). -/
def State.noteViolation (s : State) (stat : Word) (addr data : Nat) : State :=
  if s.freshAt GLB_AV_STAT = 0 then
    (((s.note GLB_AV_STAT stat).note GLB_AV_ADDR_LO (w32 addr)).note GLB_AV_ADDR_HI (w32 (addr / 2 ^ 32))).note GLB_AV_DATA (w32 data)
  else s

/-- An access violation: counted, recorded and logged when it is the first, and signalled on vector 46 (R551). -/
def State.violation (s : State) (src kind addr data : Nat) : State :=
  let stat := w32 (2 ^ 31 + src % 8 * 2 ^ 28 + kind % 16 * 2 ^ 24)
  let s1 := (s.bump GLB_AV_COUNT).noteViolation stat addr data
  let s2 :=
    if s.flag GLB_AV_STAT GLB_AV_STAT_VALID then { s1 with cp := { s1.cp with avSince := true } }
    else
      (((s1.setReg GLB_AV_STAT stat).setReg64 GLB_AV_ADDR_LO addr).setReg GLB_AV_DATA (w32 data)).logViolation
  s2.raise evViolation

/-! ### Register access by a requester -/

/-- A key of the shadow and staged tables: one per requester and offset (R20). -/
def pairKey (r : Requester) (off : Nat) : Nat := avSrc r * 2 ^ 28 + off

/-- Whether a pair's _LO half lies at `off` (R20). -/
def isPair (off : Nat) : Bool := pairMap.any fun p => regHas p.1 p.2 off

/-- ML_CKPT_AGE: 0 on the active, all ones before the first full checkpoint has been applied, else the age in ms, holding at 0xFFFF_FFFE (R439, R458). -/
def State.ckptAge (s : State) : Nat :=
  if s.rf ML_STAT ML_STAT_STATE = 3 then 0
  else
    match s.ml.ckpt with
    | none => 0xFFFFFFFF
    | some c => min 0xFFFFFFFE ((s.now - c.atc) / (10000 * s.time.rateN))

/-- TRIAL_LEFT: seconds of the 3,600 that are still to pass before the automatic commit; 0 without AUTO_COMMIT (R500, R515). -/
def State.trialLeft (s : State) : Nat :=
  if s.flag CP_FW_STAT CP_FW_STAT_TRIAL && s.flag CP_FW_STAT CP_FW_STAT_AUTO_COMMIT then
    3600 - (s.time.cycles - s.lc.trialAt) / 2000000000
  else 0

/-! ### Lanes -/

/-- A lane that has never locked. -/
def laneReset : LaneSt :=
  { inv := false, idx := 0, seq := 0, broke := false, hdr := [], count := 0, frameCount := 0, crc := 0xFFFF, frameErr := false, part := true
    jump := none, fails := [], clean := 0, fmt8 := false, fmtNext := none, head := 0, fifo := [], frameIdx := 0
    arrived := 0, rel := [], relOld := [], wait := false, prbs := none }

/-- Physical lane j of octet o. -/
def State.lane (s : State) (o j : Nat) : LaneSt := tblGet laneReset s.sl.lanes (8 * o + j)

/-- Replace physical lane j of octet o. -/
def State.setLane (s : State) (o j : Nat) (l : LaneSt) : State :=
  { s with sl := { s.sl with lanes := tblSet laneReset s.sl.lanes (8 * o + j) l } }

/-- A lane of an octet has block lock now (R100). -/
def State.locked (s : State) (o j : Nat) : Bool := s.flag (SL_LANE_STAT o j) SL_LANE_STAT_LOCK

/-- The physical lane that carries path index i of octet o, if a locked lane does (R77). -/
def State.laneOf (s : State) (o i : Nat) : Option Nat := (List.range 8).find? fun j => s.locked o j && (s.lane o j).idx == i

/-- The path of index `i` of an octet is in service (R100). -/
def State.inService (s : State) (o i : Nat) : Bool := s.rfb (SL_OCT_STAT o) SL_OCT_STAT_IN_SERVICE i

/-- SPREAD: the largest lead among in-service lanes once the release point is set, in units of 10 ps (R100). -/
def State.spread (s : State) : Nat :=
  if s.flag SL_REL_STAT SL_REL_STAT_SET then
    ((List.range 512).map fun i =>
      if s.locked (i / 8) (i % 8) && s.inService (i / 8) (s.lane (i / 8) (i % 8)).idx then s.rf (SL_LANE_STAT (i / 8) (i % 8)) SL_LANE_STAT_LEAD else 0).foldl max 0
  else 0

/-! ### Slices -/

/-- A slice that nothing has loaded since the wipe. -/
def sliceReset : MdSlice :=
  { imem := [], x := [], y := [], v := [], a := [], s := [], i := [], n := [], cb := [], cl := [], cp := 0, st := 0, loops := [], calls := []
    sr := 0, pc := 0, hdr := { stage := false, ring := false, cps := 0, entry := 0, icount := 0, ringBw := 0, preserve := [] }
    cyc := 0, flags := [], xj := [], delays := [], outB := [], outL := [], sent := [], reads := [], waits := [], stall := false, excs := [], rst := []
    swap := [], fault := 0, mute := 0, back := [], ringPos := 0 }

/-- Slice `k`. -/
def State.slice (s : State) (k : Nat) : MdSlice := tblGet sliceReset s.md.sl k

/-- Replace slice `k`. -/
def State.setSlice (s : State) (k : Nat) (m : MdSlice) : State :=
  { s with md := { s.md with sl := tblSet sliceReset s.md.sl k m } }

/-- 60 s in Saffron cycles (R137). -/
def sixtySeconds : Nat := 120000000000

/-- RESTARTS of a slice: its automatic restarts in the last 60 s, at most 15 (R144). -/
def State.restarts (s : State) (k : Nat) : Nat := min 15 ((s.slice k).rst.filter fun c => decide (s.time.cycles < c + sixtySeconds)).length

/-- Whether an offset is that of some slice's MD_SL_EXC, whose low ten bits are 008H (R144). -/
def isSliceExc (off : Nat) : Bool := decide (0x201000 ≤ off) && decide (off < 0x211000) && off % 0x400 == 8

/-- What a 32-bit read of an offset returns, before the shadow copies of R20: the mailbox buffers byte by byte (R394), GLB_UID from the fuses, the ATC from its counter, the checkpoint age, the trial's remaining time, the spread of leads and the restarts of a slice, every other register of the map as it stands; 0 elsewhere (R17, R548). -/
def State.readReg (s : State) (off : Nat) : Word :=
  if off = GLB_UID_LO then Config.uidLo
  else if off = GLB_UID_HI then Config.uidHi
  else if off = TM_ATC_LO then w32 s.now
  else if off = TM_ATC_HI then w32 (s.now / 2 ^ 32)
  else if off = ML_CKPT_AGE then w32 s.ckptAge
  else if off = SL_REL_STAT then fput (s.reg off) SL_REL_STAT_SPREAD s.spread
  else if isSliceExc off then fput (s.reg off) (MD_SL_EXC_RESTARTS) (s.restarts ((off - 0x201000) / 0x400))
  else if off = CP_FW_STAT then fput (s.reg off) CP_FW_STAT_TRIAL_LEFT s.trialLeft
  else if 0xA10000 ≤ off ∧ off < 0xA60000 then
    w32 (leVal ((List.range 4).map fun i => tblGet 0 s.cp.buf (off + i)))
  else s.reg off

/-- Write one field under its access code (R14, R18): the value that it then holds, and whether the encoding was undefined. -/
def fieldWrite (old v : Word) (d : FieldDesc) : Nat × Bool :=
  let x := fget v d.fld
  let o := fget old d.fld
  match d.acc with
  | .rw => if d.enc.isEmpty || d.enc.any (fun r => decide (r.1 ≤ x) && decide (x ≤ r.2)) then (x, false) else (o, true)
  | .ro => (o, false)
  | .wo => (o, false)
  | .w1c => (Nat.land o (2 ^ d.fld.w - 1 - x), false)
  | .w1s => (Nat.lor o x, false)

/-- Write every field of a register: the word it then holds, and whether some encoding was undefined (R18). -/
def fieldsWrite (old v : Word) : List FieldDesc → Word × Bool
  | [] => (old, false)
  | d :: ds =>
    let r := fieldsWrite old v ds
    let x := fieldWrite old v d
    (fput r.1 d.fld x.1, r.2 || x.2)

/-- M and FIRST of a coincidence unit that its group size does not define keep their values (R18, R263). -/
def cuKeep (old w : Word) : Word × Bool :=
  let g := 8 * 2 ^ fget w SF_CU_CTL_GSZ
  let badM := decide (g ≤ fget w SF_CU_CTL_M)
  let badF := fget w SF_CU_CTL_FIRST % g != 0
  let w1 := if badM then fput w SF_CU_CTL_M (fget old SF_CU_CTL_M) else w
  (if badF then fput w1 SF_CU_CTL_FIRST (fget old SF_CU_CTL_FIRST) else w1, badM || badF)

/-- A field keeps its value when `ok` fails (R18). -/
def keepUnless (ok : Bool) (f : Fld) (old w : Word) : Word × Bool := if ok then (w, false) else (fput w f (fget old f), true)

/-- Undefined encodings that the ranges of a table's fields cannot say: a granularity (R144, R204, R298), a lower bound with one (R144), and a value that depends on another field of the register (R263, R324) (R18). -/
def crossKeep (base : Nat) (old w : Word) : Word × Bool :=
  if base = SF_CU_CTL 0 then cuKeep old w
  else if base = MD_SL_RING_LEN 0 then keepUnless (w.toNat % 4096 == 0 && decide (65536 ≤ w.toNat)) (MD_SL_RING_LEN_LEN) old w
  else if base = MD_SL_RING_BASE_LO 0 ∨ base = IX_DUMP_BASE_LO ∨ base = IX_DUMP_LEN then keepUnless (w.toNat % 4096 == 0) counter32 old w
  else if base = ET_DS_CTL then keepUnless (fget w ET_DS_CTL_SEG % 64 == 0) ET_DS_CTL_SEG old w
  else if base = TM_SRC_LIM 0 then keepUnless (decide (fget w TM_SRC_LIM_SOFT < fget w TM_SRC_LIM_HARD)) TM_SRC_LIM_HARD old w
  else (w, false)

/-- The word that a register takes from a write, and whether some encoding was undefined (R18). -/
def RegDesc.write (d : RegDesc) (old v : Word) : Word × Bool :=
  let x := fieldsWrite old v d.fields
  let y := crossKeep d.base old x.1
  (y.1, x.2 || y.2)

/-- The W1C bits of a register. -/
def w1cMask : List FieldDesc → Word
  | [] => 0
  | d :: ds => if d.acc = .w1c then fput (w1cMask ds) d.fld (2 ^ d.fld.w - 1) else w1cMask ds

/-- A write that a requester may make, to a register without further effect: field by field, an undefined encoding logged (R18), a W1C bit set in the same cycle kept (R15). -/
def State.plainWrite (s : State) (r : Requester) (off : Nat) (v : Word) (d : RegDesc) : State :=
  let x := d.write (s.reg off) v
  let s' := s.setReg off (x.1 ||| (s.freshAt off &&& w1cMask d.fields))
  if x.2 then s'.violation (avSrc r) avEncoding off v.toNat else s'

/-- Stage a half of a pair for a requester (R20). -/
def State.stageHalf (s : State) (r : Requester) (off : Nat) (v : Word) : State := { s with staged := tblSet none s.staged (pairKey r off) (some v) }

/-- The low half that a write of the high half at `off` commits: the requester's staged one, or the one in force (R20). -/
def State.stagedLow (s : State) (r : Requester) (off : Nat) : Word := (tblGet none s.staged (pairKey r (off - 4))).getD (s.reg (off - 4))

/-- The requester's staged low half of the pair with high half at `off` is used up (R20). -/
def State.unstage (s : State) (r : Requester) (off : Nat) : State := { s with staged := tblSet none s.staged (pairKey r (off - 4)) none }

/-- Put a configuration's image into a register: its writable fields take the image's values. -/
def State.config (s : State) (off : Nat) (v : Word) : State :=
  match regAt off with
  | some d => s.setReg off (d.write (s.reg off) v).1
  | none => s

/-- Put images into registers, in order. -/
def State.configAll (s : State) : List (Nat × Word) → State
  | [] => s
  | p :: ps => (s.config p.1 p.2).configAll ps

/-- Some field of a register's image carries an undefined encoding (R18). -/
def badImage (off : Nat) (v : Word) : Bool :=
  match regAt off with
  | some d => (d.write 0 v).2
  | none => false

/-! ### DRAM contents -/

/-- The byte at a DRAM address. -/
def State.memByte (s : State) (a : Nat) : Byte := tblGet 0 s.mem a

/-- `n` bytes from a DRAM address. -/
def State.memRead (s : State) (a n : Nat) : List Byte := tblRun 0 s.mem a n

/-- Write bytes from a DRAM address on. -/
def State.memWrite (s : State) (a : Nat) (bs : List Byte) : State := { s with mem := tblSetRun 0 s.mem a bs }

/-- Whether the device is powered: VIN valid and no reset held (R460, R541). -/
def State.on (s : State) : Bool := s.pw.power == .on

/-- Thermal shutdown: neither the compute dies nor anything that waits for them may be powered (R480). -/
def State.thermal (s : State) : Bool := s.rf PW_STAT PW_STAT_STATE != 0

/-- PW_STAT.STATE is CORE_STOP: the Madder slices and Woad are stopped (R482). -/
def State.coreStopped (s : State) : Bool := s.rf PW_STAT PW_STAT_STATE == 2

/-- Woad delivers: it needs the staging of the compute dies, and runs unless the core is stopped (R231, R482). -/
def State.woadOn (s : State) : Bool := s.pw.compOn && !s.coreStopped

/-- SC_NEXT is the firing boundary of the earliest entry, all ones without one (R430). -/
def State.nextSync (s : State) : State := s.setReg64 SC_NEXT_LO ((s.events.map fun (e : Event) => e.f).foldl min (2 ^ 64 - 1))

end Sys2Proof.Machine
end

