-- ==== Sys2Proof/Machine/DrMem.lean ====
section
/-! DEFINITION. The DRAM as every block reaches it: its size, the address map, and reads and writes over codewords that may hold a double-bit error (R327, R328, R333 to R339). -/

namespace Sys2Proof.Machine

/-! ### Size and state (R327, R328, R335) -/

/-- DR_STAT.STATE. -/
def drOff : Nat := 0
def drInit : Nat := 1
def drReady : Nat := 2
def drFail : Nat := 3

/-- DR_STAT.STATE is READY. -/
def State.drReady (s : State) : Bool := s.rf DR_STAT DR_STAT_STATE == Sys2Proof.Machine.drReady

/-- While the state is FAIL, what declares DRAM use is refused with WRONG_STATE (R332). -/
def State.drFailed (s : State) : Bool := s.rf DR_STAT DR_STAT_STATE == drFail

/-- log2 NCH (R333). -/
def State.drM (s : State) : Nat := 2 + s.rf DR_CFG DR_CFG_NCH

/-- Ranks of a channel. -/
def State.drRanks (s : State) : Nat := 1 + s.rf DR_CFG DR_CFG_RANKS

/-- The installed DRAM in bytes (R328). -/
def State.drSize (s : State) : Nat := 2 ^ s.drM * s.drRanks * 2 ^ (28 + s.rf DR_CFG DR_CFG_DENS)

/-- Data rate in units of 0.8 GT/s. -/
def State.drRate (s : State) : Nat := 2 + s.rf DR_CFG DR_CFG_RATE

/-- Every byte of an access lies below the installed size (R335). -/
def State.drIn (s : State) (a n : Nat) : Bool := decide (a + n ≤ s.drSize)

/-- A memory access by a source outside the installed DRAM is logged once as an address violation (R335, R551). -/
def State.drBad (s : State) (src a : Nat) : State := s.violation src avAddress a 0

/-! ### Address map (R333, R334) -/

/-- Channel of a DRAM address. -/
def State.drChan (s : State) (a : Nat) : Nat :=
  let m := s.drM
  Nat.xor (a / 256 % 2 ^ m) (a / 256 / 2 ^ m % 2 ^ m)

/-- Channel-local address. -/
def State.drLocal (s : State) (a : Nat) : Nat := a / 256 / 2 ^ s.drM * 256 + a % 256

/-- Bank, row and rank of a DRAM address. -/
def State.drBankOf (s : State) (a : Nat) : Nat := bits (s.drLocal a) 15 11
def State.drRow (s : State) (a : Nat) : Nat := bits (s.drLocal a) (27 + s.rf DR_CFG DR_CFG_DENS) 16
def State.drRank (s : State) (a : Nat) : Nat := if s.drRanks = 2 then s.drLocal a / 2 ^ (28 + s.rf DR_CFG DR_CFG_DENS) % 2 else 0

/-- DRAM address of a channel-local address. -/
def State.drAddr (s : State) (n loc : Nat) : Nat :=
  let m := s.drM
  (loc / 256 * 2 ^ m + Nat.xor n (loc / 256 % 2 ^ m)) * 256 + loc % 256

/-! ### Codewords (R336 to R339) -/

/-- Codewords that a run of bytes touches. -/
def codewords (a n : Nat) : List Nat := if n = 0 then [] else (List.range ((a + n - 1) / 8 - a / 8 + 1)).map (a / 8 + ·)

/-- Some codeword of a run holds a double-bit error. -/
def State.poisoned (s : State) (a n : Nat) : Bool := (codewords a n).any (tblGet false s.dr.poison)

/-- A double-bit error: counted, its address recorded, and logged (R338, R558). -/
def State.drUe (s : State) (a : Nat) : State :=
  let n := s.drChan a
  (((s.bump (DR_CH_UE n)).setReg64 (DR_CH_UEADDR_LO n) a).logEvent 0x0901 2 (loHi a ++ [w32 n])).seen DR_STAT DR_STAT_UE_SEEN evMemory

/-- Each codeword of a run that holds a double-bit error is found by a read of it (R338). -/
def State.drUes (s : State) (a n : Nat) : State := ((codewords a n).filter (tblGet false s.dr.poison)).foldl (fun s c => s.drUe (c * 8)) s

/-- Perform a write: whole codewords are clean again; a partial one that holds a double-bit error keeps it, and the write is counted (R339). -/
def State.drWrite (s : State) (a : Nat) (bs : List Byte) : State :=
  let part := fun c => decide (c * 8 < a) || decide (a + bs.length < c * 8 + 8)
  let bad := (codewords a bs.length).filter fun c => part c && tblGet false s.dr.poison c
  let s1 := s.memWrite a bs
  let s2 := { s1 with dr := { s1.dr with poison := (codewords a bs.length).foldl (fun t c => if part c then t else tblSet false t c false) s1.dr.poison } }
  bad.foldl (fun s c => s.drUe (c * 8)) s2

/-- A block's own write: one past the installed size is not performed, and is logged once (R335). DESIGN CHOICE: SRC has no code for the blocks, and reads 0. -/
def State.drStore (s : State) (a : Nat) (bs : List Byte) : State := if s.drIn a bs.length then s.drWrite a bs else s.drBad 0 a

end Sys2Proof.Machine
end

