-- ==== Sys2Proof/Machine/MadderAlu.lean ====
section
/-! DEFINITION. The arithmetic of a Madder slice: rounding, saturation, accumulators, exponents, permutations and address generation (R111 to R123). -/

namespace Sys2Proof.Machine

/-- rha(x × 2^k): rounding half away from zero (R113). -/
def rhaShift (x : Int) (k : Int) : Int :=
  if 0 ≤ k then x * 2 ^ k.toNat
  else x.sign * ((2 * x.natAbs + 2 ^ (-k).toNat) / (2 * 2 ^ (-k).toNat) : Nat)

/-- The lanes of a register that holds nothing else. -/
def vZero : List Int := List.replicate 128 0
def aZero : List (Int × Bool) := List.replicate 128 (0, false)

/-- Vector and accumulator registers. -/
def MdSlice.vr (m : MdSlice) (r : Nat) : List Int := tblGet vZero m.v r
def MdSlice.ar (m : MdSlice) (r : Nat) : List (Int × Bool) := tblGet aZero m.a (r % 8)
def MdSlice.sget (m : MdSlice) (r : Nat) : Nat := tblGet 0 m.s r
def MdSlice.setV (m : MdSlice) (r : Nat) (l : List Int) : MdSlice := { m with v := tblSet vZero m.v r l }
def MdSlice.setA (m : MdSlice) (r : Nat) (l : List (Int × Bool)) : MdSlice := { m with a := tblSet aZero m.a (r % 8) l }
def MdSlice.setS (m : MdSlice) (r v : Nat) : MdSlice := { m with s := tblSet 0 m.s r (v % 2 ^ 32) }

/-! ### Accumulators (R115 to R118) -/

/-- The 44-bit extremes. -/
def accMax : Int := 2 ^ 43 - 1
def accMin : Int := -(2 ^ 43)

/-- A lane after a MAC adds `d`: a lane with GOV set keeps its extreme; a sum outside 44 bits takes the nearer extreme and sets GOV (R116). -/
def accAdd (g : Int × Bool) (d : Int) : Int × Bool :=
  if g.2 then g
  else if accMax < g.1 + d then (accMax, true)
  else if g.1 + d < accMin then (accMin, true)
  else (g.1 + d, false)

/-- Lanes that a MAC has newly clamped: GOV set after and clear before (R116). -/
def govCount (old new : List (Int × Bool)) : Nat :=
  ((old.zip new).filter fun p => !p.1.2 && p.2.2).length

/-- Conversion of an accumulator lane under R117. DESIGN CHOICE (notes/assumptions/84): a lane with GOV set and value 0, which has no sign, gives the positive extreme. -/
def convLane (w : Nat) (k : Int) (g : Int × Bool) : Int :=
  if g.2 then (if 0 ≤ g.1 then 2 ^ (w - 1) - 1 else -(2 ^ (w - 1))) else satS w (rhaShift g.1 k)

/-- Whether the conversion saturates, with GOV clear or set (R117). -/
def convSat (w : Nat) (k : Int) (g : Int × Bool) : Bool := g.2 || satS w (rhaShift g.1 k) != rhaShift g.1 k

/-- The shift field s, −16 to 15 (R113, R114). -/
def shiftField (f : Nat) : Int := sext 5 f

/-- Real and imaginary parts of the complex products: CMUL and CMAC use a × b, CMACJ a × conj(b) (R114). -/
def cprod (conj : Bool) : List Int → List Int → List Int
  | ar :: ai :: a, br :: bi :: b =>
    (if conj then [ar * br + ai * bi, ai * br - ar * bi] else [ar * br - ai * bi, ar * bi + ai * br]) ++ cprod conj a b
  | _, _ => []

/-- The lane products of two vectors. -/
def vprod (a b : List Int) : List Int := List.zipWith (· * ·) a b

/-- Sums of groups of `n` lanes, each in the first lane of its group and the others 0; a sum carries GOV when any of its lanes did, and overflows as R116 (R114, AFOLD). `fuel` bounds the groups. -/
def foldLanes (n : Nat) : Nat → List (Int × Bool) → List (Int × Bool)
  | 0, _ => []
  | _ + 1, [] => []
  | k + 1, l =>
    let g := l.take n
    let sum := (g.map (·.1)).sum
    let clamped := accAdd (0, false) sum
    ((clamped.1, clamped.2 || g.any (·.2)) :: List.replicate (g.length - 1) (0, false)) ++ foldLanes n k (l.drop n)

/-- Groups of `n` lanes whose exact sum leaves the 44-bit range (R116). `fuel` bounds the groups. -/
def foldOver (n : Nat) : Nat → List (Int × Bool) → Nat
  | 0, _ => 0
  | _ + 1, [] => 0
  | k + 1, l => b2n (accAdd (0, false) ((l.take n).map (·.1)).sum).2 + foldOver n k (l.drop n)

/-- Half of a sum or difference of lanes, rounded half away from zero (R114). DESIGN CHOICE: the one half that a lane does not hold is a free value. -/
def halfLane (x : Int) : Int := if rhaShift x (-1) = 131072 then satS 18 Config.halfOver else rhaShift x (-1)

/-! ### Exponents (R119 to R121) -/

/-- Bits that a magnitude needs. -/
def bitLen (n : Nat) : Nat := if n = 0 then 0 else Nat.log2 n + 1

/-- The largest e for which x × 2^e fits in w-bit two's complement; w − 1 for 0 (R119). -/
def laneExp (w : Nat) (x : Int) : Nat :=
  if 0 ≤ x then w - 1 - bitLen x.natAbs else w - 1 - bitLen (x.natAbs - 1)

/-- Every lane of each group of `n` takes the smallest exponent found over the group. -/
def groupMin (n : Nat) : Nat → List Nat → List Nat
  | 0, _ => []
  | _ + 1, [] => []
  | k + 1, l =>
    let g := l.take n
    List.replicate g.length (g.foldl min 1000) ++ groupMin n k (l.drop n)

/-- Clamp a lane used as an exponent. -/
def clampExp (hi : Nat) (e : Int) : Nat := (max 0 (min (hi : Int) e)).toNat

/-- QNT4: the value quantised to −7 to 7, and whether the clamp changed it (R121). -/
def qnt4 (x e : Int) : Int × Bool :=
  let q := rhaShift x ((clampExp 15 e : Int) - 17)
  (max (-7) (min 7 q), decide (q < -7) || decide (7 < q))

/-- One byte of 4+4 bits: real part in [7:4], imaginary part in [3:0] (R122). -/
def pack4 (re im : Int) : Nat := toBits 4 re * 16 + toBits 4 im

/-- PKN over one vector: 64 bytes (R122). -/
def packLanes : List Int → List Int
  | re :: im :: l => (pack4 re im : Int) :: packLanes l
  | _ => []

/-- Interleave two lists, the first giving the even lanes (R123). -/
def interleave : List Int → List Int → List Int
  | a :: as, b :: bs => a :: b :: interleave as bs
  | _, _ => []

/-- The even or odd lanes of a vector (R123). -/
def alternate : Bool → List Int → List Int
  | odd, a :: b :: l => (if odd then b else a) :: alternate odd l
  | _, _ => []

/-- The `w` low bits of a number in reverse order (R123). -/
def brev : Nat → Nat → Nat
  | 0, _ => 0
  | w + 1, n => n % 2 * 2 ^ w + brev w (n / 2)

/-- Real and imaginary parts exchanged, or odd lanes negated (R123). -/
def swapRi : List Int → List Int
  | a :: b :: l => b :: a :: swapRi l
  | _ => []
def conjLanes : List Int → List Int
  | a :: b :: l => a :: satS 18 (-b) :: conjLanes l
  | _ => []

/-- VPERM (R123). -/
def vperm (p : Nat) (a b : List Int) : List Int :=
  match p with
  | 0 => interleave (a.take 64) (b.take 64)
  | 1 => interleave (a.drop 64) (b.drop 64)
  | 2 => alternate false a ++ alternate false b
  | 3 => alternate true a ++ alternate true b
  | 4 => (List.range 128).map fun m => a.getD (brev 7 m) 0
  | 5 => (List.range 128).map fun m => a.getD (2 * brev 6 (m / 2) + m % 2) 0
  | 6 => swapRi a
  | _ => conjLanes a

/-! ### Address generation (R110 to R112) -/

/-- L of R111: CL, with 0 read as 262,144. -/
def ringLen (cl : Nat) : Nat := if cl = 0 then 262144 else cl

/-- Signed remainder brought into 0 to n − 1. -/
def imod (x : Int) (n : Nat) : Nat := (x % (n : Int)).toNat

/-- Address of element m of an access (R111). -/
def elemAddr (mode ik cb cl m : Nat) : Nat :=
  if mode = 2 then (cb + imod ((ik : Int) + m - cb) (ringLen cl)) % 262144 else (ik + m) % 262144

/-- The pointer after an access of n elements (R111). -/
def nextPtr (mode ik nk cb cl n : Nat) : Nat :=
  match mode with
  | 0 => ik
  | 1 => imod ((ik : Int) + sext 18 nk) 262144
  | 2 => (cb + imod ((ik : Int) + sext 18 nk - cb) (ringLen cl)) % 262144
  | _ => (ik + n) % 262144

end Sys2Proof.Machine
end

