-- ==== Sys2Proof/Machine/Madder.lean ====
section
/-! DEFINITION. The instruction set of the Madder slices: bundles, moves, compute and flow operations, samples, outputs and exceptions (R103 to R137). -/

namespace Sys2Proof.Machine

/-! ### Slices and samples -/

/-- STATE of MD_SL_STAT (R144). -/
def mdIdle : Nat := 0
def mdRunning : Nat := 1
def mdSwapping : Nat := 2
def mdHalted : Nat := 3
def mdDead : Nat := 4

/-- STATE of slice `k`. -/
def State.sliceState (s : State) (k : Nat) : Nat := s.rf (MD_SL_STAT k) MD_SL_STAT_STATE

/-- A path of the device as a sample lane gives it: path j of slice k is P(8k + j). -/
def pathOf (k j : Nat) : Nat := 8 * k + j

/-- The stored offset of an octet, two's complement (R81). -/
def State.ofs (s : State) (o : Nat) : Int := sext 64 (s.reg64 (SL_OCT_OFS_LO o))

/-- Array time of a sample index of an octet's lanes (R47, R81). -/
def State.timeOf (s : State) (o idx : Nat) : Int := (idx : Int) + s.ofs o

/-- The sample of path p at array time t in a store. -/
def smpAt (st : Tbl (Option Smp)) (p t : Nat) : Option Smp :=
  match tblGet none st (p * 131072 + t % 131072) with
  | some x => if x.t = t then some x else none
  | none => none

/-- The stored sample of path p at array time t; none reads as EMPTY (R127). -/
def State.smp (s : State) (p t : Nat) : Option Smp := smpAt s.md.store p t

/-- The sample that a slice reads from its store: zero with the CRC-failure flag after a double-bit error (R104, R127). -/
def State.mdSmp (s : State) (p t : Nat) : Option Smp := (s.smp p t).map fun x => if x.ecc then { x with v := 0, crc := true } else x

/-- The samples that Saffron and Umber took in, from before the last epoch load or since (R53, R235). -/
def State.sfStore (s : State) (old : Bool) : Tbl (Option Smp) := if old then s.md.past else s.md.store

/-- Whether a sample of path p at array time t is flagged as a CRC failure of its lane (R73). -/
def crcAt (st : Tbl (Option Smp)) (p t : Nat) : Bool :=
  match smpAt st p t with
  | some x => x.crc
  | none => false

/-- Whether the sample of path p at array time t is flagged as a CRC failure (R73, R127). -/
def State.crcBad (s : State) (p t : Nat) : Bool := crcAt s.md.store p t

/-- Change the stored sample of path p at array time t, if it is held and zeros did not replace it. -/
def markOne (p : Nat) (f : Smp → Smp) (st : Tbl (Option Smp)) (t : Nat) : Tbl (Option Smp) :=
  let k := p * 131072 + t % 131072
  match tblGet none st k with
  | some x => if x.t = t ∧ x.loss = false then tblSet none st k (some (f x)) else st
  | none => st

/-- Change the stored samples of path p of some array times, and those that an epoch load has put aside. -/
def State.markStored (s : State) (p : Nat) (ts old : List Nat) (f : Smp → Smp) : State :=
  { s with md := { s.md with store := ts.foldl (markOne p f) s.md.store, past := old.foldl (markOne p f) s.md.past } }

/-- The sample of path p at array time t reads as zero with the CRC-failure flag set at the slice; an EMPTY one keeps its mark (R104). -/
def zeroOne (p w : Nat) (st : Tbl (Option Smp)) (t : Nat) : Tbl (Option Smp) :=
  let k := p * 131072 + t % 131072
  match tblGet none st k with
  | some x => if x.t = t then tblSet none st k (some { x with ecc := true }) else st
  | none => if t < w then tblSet none st k (some { t := t, v := 0, loss := true, crc := false, chk := true, ecc := true }) else st

/-- A double-bit error in a sample group: its four samples, and no other (R104). -/
def State.zeroGroup (s : State) (p g : Nat) : State :=
  { s with md := { s.md with store := (List.range 4).foldl (fun st i => zeroOne p s.md.w st (4 * g + i)) s.md.store } }

/-- The memory errors of an issue, a double-bit one in instruction memory, X or Y apart: each corrected one counts (R104, R106). -/
def State.eccSeen (s : State) (k : Nat) (e : Ecc) : State :=
  let s1 := e.groups.foldl (fun s g => s.zeroGroup (pathOf k g.1) g.2) s
  if e.corrected = 0 then s1
  else
    ((s1.setSlice k { s1.slice k with sr := Nat.lor (s1.slice k).sr 4 }).bumpBy (MD_SL_ECCCNT k) counter32 e.corrected).setSeen
      (MD_SL_STAT k) MD_SL_STAT_ECC_CORR 1

/-- Whether a sample time is still held: W − t < 122,880 (R127). -/
def State.held (s : State) (t : Int) : Bool := decide ((s.md.w : Int) - 1 - t < 122880)

/-! ### Fields of a bundle (R107, R110, R114, R124) -/

def slotF (b : Nat) : Nat := bits b 127 104
def slotX (b : Nat) : Nat := bits b 103 80
def slotY (b : Nat) : Nat := bits b 79 56
def slotC1 (b : Nat) : Nat := bits b 55 28
def slotC2 (b : Nat) : Nat := bits b 27 0

/-- An X-slot or Y-slot operation's fields (R110). -/
def mOp (w : Nat) : Nat := bits w 23 20
def mReg (w : Nat) : Nat := bits w 19 16
def mIdx (w : Nat) : Nat := bits w 15 13
def mMode (w : Nat) : Nat := bits w 12 11
def mOfs (w : Nat) : Nat := bits w 10 8
def mAux (w : Nat) : Nat := bits w 7 0

/-- A compute operation's fields (R114). -/
def cOp (w : Nat) : Nat := bits w 27 22
def cD (w : Nat) : Nat := bits w 21 18
def cA (w : Nat) : Nat := bits w 17 14
def cB (w : Nat) : Nat := bits w 13 10
def cC (w : Nat) : Nat := bits w 9 6
def cM (w : Nat) : Nat := bits w 5 0

/-- The F-slot opcode (R124). -/
def fOp (w : Nat) : Nat := bits w 23 18

/-! ### Effects of a slot -/

/-- A slice with the lanes clamped under R116 and saturated under R117 while its bundle issues. -/
structure MdEff where
  m : MdSlice
  gov : Nat
  sat : Nat

/-- Addresses of the n elements of an access, read before any slot writes (R107, R111). -/
def accessAddrs (m0 : MdSlice) (w n : Nat) : List Nat :=
  let k := mIdx w
  (List.range n).map (elemAddr (mMode w) (tblGet 0 m0.i k) (tblGet 0 m0.cb k) (tblGet 0 m0.cl k))

/-- The pointer's update after an access of n elements (R111). -/
def bumpPtr (m0 m : MdSlice) (w n : Nat) : MdSlice :=
  let k := mIdx w
  { m with i := tblSet 0 m.i k (nextPtr (mMode w) (tblGet 0 m0.i k) (tblGet 0 m0.n (mOfs w)) (tblGet 0 m0.cb k) (tblGet 0 m0.cl k) n) }

/-- Halfwords at a list of addresses of X or Y. -/
def hwRead (m0 : MdSlice) (isX : Bool) (as : List Nat) : List Nat := as.map (tblGet 0 (if isX then m0.x else m0.y))

/-- Store halfwords at a list of addresses of X or Y. -/
def hwWrite (m : MdSlice) (isX : Bool) (as vs : List Nat) : MdSlice :=
  if isX then { m with x := (as.zip vs).foldl (fun t p => tblSet 0 t p.1 p.2) m.x }
  else { m with y := (as.zip vs).foldl (fun t p => tblSet 0 t p.1 p.2) m.y }

/-- Set bits of a path's flag word (R129). -/
def MdSlice.flagOr (m : MdSlice) (j f : Nat) : MdSlice := { m with flags := tblSet 0 m.flags j (Nat.lor (tblGet 0 m.flags j) f) }

/-- A conversion under R117 that reads a lane with GOV set marks ARITH for path CP (R118). -/
def markArith (m0 m : MdSlice) (l : List (Int × Bool)) : MdSlice := if l.any (·.2) then m.flagOr m0.cp 0x40 else m

/-- 32-bit values as halfwords, low half first (R105). -/
def words16 : List Nat → List Nat
  | [] => []
  | w :: ws => w % 65536 :: w / 65536 % 65536 :: words16 ws

/-- Bytes paired into halfwords, the first in the low byte (R113). -/
def bytes16 : List Nat → List Nat
  | a :: b :: l => (a % 256 + b % 256 * 256) :: bytes16 l
  | _ => []

/-- An X-slot or Y-slot memory operation of R113, VLDS and OUT apart. -/
def memSlot (isX : Bool) (w : Nat) (m0 : MdSlice) (e : MdEff) : MdEff :=
  let acc := m0.ar (mAux w % 8)
  let sh := shiftField (mAux w / 8)
  let load := fun n (f : List Nat → MdSlice → MdSlice) =>
    { e with m := bumpPtr m0 (f (hwRead m0 isX (accessAddrs m0 w n)) e.m) w n }
  let store := fun n (vs : List Nat) => bumpPtr m0 (hwWrite e.m isX (accessAddrs m0 w n) vs) w n
  match mOp w with
  | 0x1 => load 128 fun hs m => m.setV (mReg w) (hs.map fun h => sext 16 h * 4)
  | 0x2 => { e with m := store 128 ((m0.vr (mReg w)).map fun x => toBits 16 (satS 16 (rhaShift x (-2)))) }
  | 0x3 => { e with m := markArith m0 (store 128 (acc.map fun g => toBits 16 (convLane 16 (sh - 19) g))) acc
                    sat := e.sat + (acc.filter (convSat 16 (sh - 19))).length }
  | 0x4 => { e with m := markArith m0 (store 256 (words16 (acc.map fun g => toBits 32 (convLane 32 (sh - 3) g)))) acc
                    sat := e.sat + (acc.filter (convSat 32 (sh - 3))).length }
  | 0x5 => { e with m := store 64 (bytes16 ((m0.vr (mReg w)).map (toBits 8))) }
  | 0x6 => load 1 fun hs m => m.setV (mReg w) (List.replicate 128 (sext 16 (hs.getD 0 0) * 4))
  | 0x7 => load 2 fun hs m => m.setV (mReg w) ((List.replicate 64 [sext 16 (hs.getD 0 0) * 4, sext 16 (hs.getD 1 0) * 4]).flatten)
  | 0x8 => load 2 fun hs m => m.setS (mReg w) (hs.getD 0 0 + hs.getD 1 0 * 65536)
  | 0x9 => { e with m := store 2 (words16 [m0.sget (mReg w)]) }
  | _ => e

/-- A MAC operation on an accumulator, lane by lane (R116). -/
def macSlot (w : Nat) (m0 : MdSlice) (e : MdEff) (ds : List Int) : MdEff :=
  let old := m0.ar (cD w)
  let new := List.zipWith accAdd old ds
  { e with m := e.m.setA (cD w) new, gov := e.gov + govCount old new }

/-- A compute operation of R114. DESIGN CHOICE: AFOLD with g = 0, outside the 1 to 7 that the rule gives, has no effect. -/
def computeSlot (w : Nat) (m0 : MdSlice) (e : MdEff) : MdEff :=
  let va := m0.vr (cA w)
  let vb := m0.vr (cB w)
  let setV := fun l => { e with m := e.m.setV (cD w) l }
  let clean := fun (l : List Int) => { e with m := e.m.setA (cD w) (l.map fun x => (x, false)) }
  match cOp w with
  | 0x01 => clean (vprod va vb)
  | 0x02 => macSlot w m0 e (vprod va vb)
  | 0x03 => macSlot w m0 e ((vprod va vb).map fun x => -x)
  | 0x04 => clean (cprod false va vb)
  | 0x05 => macSlot w m0 e (cprod false va vb)
  | 0x06 => macSlot w m0 e (cprod true va vb)
  | 0x07 => clean vZero
  | 0x08 => { e with m := e.m.setA (cD w) (m0.ar (cA w)) }
  | 0x09 =>
    if cM w % 8 = 0 then e
    else
      let src := m0.ar (cA w)
      let new := foldLanes (2 ^ (cM w % 8)) 128 src
      { e with m := e.m.setA (cD w) new, gov := e.gov + foldOver (2 ^ (cM w % 8)) 128 src }
  | 0x0A =>
    let src := m0.ar (cA w)
    let k := shiftField (cM w % 32) - 17
    { e with m := markArith m0 (e.m.setV (cD w) (src.map (convLane 18 k))) src, sat := e.sat + (src.filter (convSat 18 k)).length }
  | 0x0B => setV (List.zipWith (fun a b => if cM w % 2 = 1 then halfLane (a + b) else satS 18 (a + b)) va vb)
  | 0x0C => setV (List.zipWith (fun a b => if cM w % 2 = 1 then halfLane (a - b) else satS 18 (a - b)) va vb)
  | 0x0D => setV (va.map fun a => satS 18 (rhaShift a (shiftField (cM w % 32))))
  | 0x0E => setV (vperm (cM w % 8) va vb)
  | 0x10 =>
    let es := m0.vr (cC w)
    if cM w / 32 = 1 then setV (List.zipWith (fun x e => satS 18 (x * 2 ^ clampExp 17 e)) va es)
    else setV (List.zipWith (fun (g : Int × Bool) e => satS 18 (rhaShift g.1 ((clampExp 43 e : Int) - 26))) (m0.ar (cA w)) es)
  | 0x11 =>
    let xs := if cM w / 32 = 1 then va.map (laneExp 18) else (m0.ar (cA w)).map fun g => laneExp 44 g.1
    setV ((groupMin (2 ^ (cM w % 8)) 128 xs).map fun n => (n : Int))
  | 0x12 =>
    let qs := List.zipWith qnt4 va (m0.vr (cC w))
    let old := m0.ar (cB w)
    let new := List.zipWith (fun g (q : Int × Bool) => accAdd g (b2n q.2 : Nat)) old qs
    { e with m := (e.m.setV (cD w) (qs.map (·.1))).setA (cB w) new, gov := e.gov + govCount old new }
  | 0x13 => setV (packLanes va ++ packLanes vb)
  | _ => e

/-! ### Flow (R124 to R126) -/

/-- A register by its SMOV code (R125). DESIGN CHOICE: the codes 0x38 to 0x3F, which the rule does not list and R108 does not refuse, read 0 and write nothing. -/
def smovRead (m0 : MdSlice) (c : Nat) : Nat :=
  if c < 0x10 then m0.sget c
  else if c < 0x18 then tblGet 0 m0.i (c - 0x10)
  else if c < 0x20 then tblGet 0 m0.n (c - 0x18)
  else if c < 0x28 then tblGet 0 m0.cb (c - 0x20)
  else if c < 0x30 then tblGet 0 m0.cl (c - 0x28)
  else if c = 0x30 then m0.cp
  else if c = 0x31 then m0.st % 2 ^ 32
  else if c = 0x32 then m0.st / 2 ^ 32 % 2 ^ 32
  else if c < 0x37 then (m0.loops.reverse[c - 0x33]?.map (·.left)).getD 0
  else if c = 0x37 then m0.sr
  else 0

/-- Write a register by its SMOV code: the low bits of the source; a 1 clears a bit of SR; read-only codes take nothing (R125). -/
def smovWrite (m : MdSlice) (c v : Nat) : MdSlice :=
  if c < 0x10 then m.setS c v
  else if c < 0x18 then { m with i := tblSet 0 m.i (c - 0x10) (v % 2 ^ 18) }
  else if c < 0x20 then { m with n := tblSet 0 m.n (c - 0x18) (v % 2 ^ 18) }
  else if c < 0x28 then { m with cb := tblSet 0 m.cb (c - 0x20) (v % 2 ^ 18) }
  else if c < 0x30 then { m with cl := tblSet 0 m.cl (c - 0x28) (v % 2 ^ 18) }
  else if c = 0x30 then { m with cp := v % 8 }
  else if c = 0x37 then { m with sr := Nat.land m.sr (7 - v % 8) }
  else m

/-- Loop ends at a bundle: the innermost loop whose last bundle this is starts its next iteration, or ends and lets the next outer loop decide (R126). -/
def loopStep (pc : Nat) : List LoopSt → Nat × List LoopSt
  | [] => (pc + 1, [])
  | l :: ls =>
    if l.last = pc then
      if 1 < l.left then (l.first, { l with left := l.left - 1 } :: ls) else loopStep pc ls
    else (pc + 1, l :: ls)

/-- Enter a loop of `len` bundles, or skip its body when the count is 0: loops whose last bundle is skipped with it go on as after that bundle (R126). -/
def enterLoop (m0 m : MdSlice) (count len : Nat) : MdSlice :=
  if count = 0 then { m with pc := (loopStep (m0.pc + len) m.loops).1 % 4096, loops := (loopStep (m0.pc + len) m.loops).2 }
  else { m with pc := (m0.pc + 1) % 4096, loops := { first := m0.pc + 1, last := m0.pc + len, left := count } :: m.loops }

/-- A LOOP's count: the immediate, or an S register (R124). DESIGN CHOICE (notes/assumptions/84): bit [17], the count source, is 1 for the S register and 0 for the immediate. -/
def loopCount (m0 : MdSlice) (f : Nat) : Nat := if bits f 17 17 = 1 then m0.sget (bits f 8 5) else bits f 16 5

/-- Cycles that a LOOP of `len` bundles costs beyond those of its bundles: one for each iteration when its body holds another loop (R126). -/
def loopCost (m0 : MdSlice) (count len : Nat) : Nat :=
  if (List.range len).any fun i => let op := fOp (slotF (tblGet 0 m0.imem (m0.pc + 1 + i))); op == 0x01 || op == 0x02 then count else 0

/-- The scalar result of the three-register operations 0x0C to 0x12 (R124). -/
def scalarOp (op a b : Nat) : Nat :=
  match op with
  | 0x0C => a + b
  | 0x0D => a + 2 ^ 32 - b
  | 0x0E => Nat.land a b
  | 0x0F => Nat.lor a b
  | 0x10 => Nat.xor a b
  | 0x11 => a * 2 ^ (b % 32)
  | _ => toBits 32 (sext 32 a / 2 ^ (b % 32))

/-- The F slot's register writes and the next bundle, NEXT, EVT and HALT apart (R124). -/
def flowSlot (f : Nat) (m0 m : MdSlice) : MdSlice :=
  let on := fun (m : MdSlice) => let r := loopStep m0.pc m.loops; { m with pc := r.1 % 4096, loops := r.2 }
  let jump := fun (b : Bool) => if b then { m with pc := bits f 11 0 } else on m
  let sx := m0.sget (bits f 17 14)
  match fOp f with
  | 0x01 => enterLoop m0 { m with cyc := m.cyc + loopCost m0 (loopCount m0 f) (bits f 4 0 + 1) } (loopCount m0 f) (bits f 4 0 + 1)
  | 0x02 => enterLoop m0 { m with cyc := m.cyc + 2 * sx } sx (bits f 11 0 + 1)
  | 0x03 => jump true
  | 0x04 => jump (sx == 0)
  | 0x05 => jump (sx != 0)
  | 0x06 => jump (decide (sext 32 sx < 0))
  | 0x07 => { m with pc := bits f 11 0, calls := (loopStep m0.pc []).1 % 4096 :: m.calls }
  | 0x08 => match m.calls with | [] => m | r :: rs => { m with pc := r, calls := rs }
  | 0x09 => on (m.setS (bits f 17 14) (toBits 32 (sext 14 (bits f 13 0))))
  | 0x0A => on (m.setS (bits f 17 14) (sx * 2 ^ 14 + bits f 13 0))
  | 0x0B => on (m.setS (bits f 17 14) (sx + toBits 32 (sext 14 (bits f 13 0))))
  | 0x13 => on (smovWrite m (bits f 17 12) (smovRead m0 (bits f 11 6)))
  | 0x14 => on (m.setS (bits f 17 14) (toBits 32 ((m0.vr (bits f 13 10)).getD (bits f 9 3) 0)))
  | 0x15 => on (m.setV (bits f 17 14) (List.replicate 128 (sext 18 (m0.sget (bits f 13 10)))))
  | 0x17 => on { m with cp := bits f 2 0 }
  | op =>
    if 0x0C ≤ op ∧ op ≤ 0x12 then on (m.setS (bits f 17 14) (scalarOp op (m0.sget (bits f 13 10)) (m0.sget (bits f 9 6))))
    else on m

/-! ### Samples (R128 to R130) -/

/-- Array time of lane 0 of a VLDS: ST − Dj + off (R128). -/
def State.vldsTime (s : State) (k : Nat) (w : Nat) : Int :=
  let m := s.slice k
  (m.st : Int) - s.rf (MD_PATH_DELAY k (mAux w / 32)) MD_PATH_DELAY_DELAY + sext 18 (tblGet 0 m.i (mIdx w))

/-- Whether the bundle's VLDS needs a sample that is not yet written (R128). -/
def State.vldsStalls (s : State) (k w : Nat) : Bool := mOp w == 0xA && decide ((s.md.w : Int) ≤ s.vldsTime k w + 127)

/-- One sample as VLDS reads it, and the flag bits it sets (R128, R129). DESIGN CHOICE: a time before array time 0 reads as EMPTY. -/
def State.vldsLane (s : State) (k j : Nat) (own xj t : Int) : Int × Nat :=
  let dcont := if t < xj then 0x10 else 0
  if t < 0 then (0, (if t < own then 0x08 else 0x04) + dcont)
  else if !s.held t then (0, 0x20 + dcont)
  else
    match s.mdSmp (pathOf k j) t.toNat with
    | none => (0, (if t < own then 0x08 else 0x04) + dcont)
    | some x =>
      (x.v * 64, (if x.loss then (if t < own then 0x08 else 0x04) else 0) + (if x.crc then 0x02 else 0) + dcont)

/-- VLDS: 128 samples of a path at the current delay, with the path's flag word (R128, R129). -/
def State.vlds (s : State) (k w : Nat) (m0 m : MdSlice) : MdSlice :=
  let j := mAux w / 32
  let t0 := s.vldsTime k w
  let own := (m0.st : Int) - s.rf (MD_PATH_DELAY k j) MD_PATH_DELAY_DELAY
  let xj := ((tblGet 0 m0.xj j : Nat) : Int) - 1
  let rs := (List.range 128).map fun i => s.vldsLane k j own (if tblGet 0 m0.xj j = 0 then t0 - 1 else xj) (t0 + i)
  let m1 := (m.setV (mReg w) (rs.map (·.1))).flagOr j ((rs.map (·.2)).foldl Nat.lor 0)
  let n := if mMode w = 3 then 128 else 0
  bumpPtr m0 { m1 with reads := tblUpd [] m1.reads j fun l => (t0.toNat, (t0 + 128).toNat) :: l } w n

/-! ### Outputs (R132 to R134) -/

/-- Halfwords of an OUT: S[REG]; DESIGN CHOICE outside 1 to 2,048: 0 makes an empty block, and more are taken as 2,048 (R132). -/
def outLen (m0 : MdSlice) (w : Nat) : Nat := min 2048 (m0.sget (mReg w))

/-- The bytes of an OUT, from Y under R111, low byte first (R132). -/
def outData (m0 : MdSlice) (w : Nat) : List Byte :=
  (hwRead m0 false (accessAddrs m0 w (outLen m0 w))).flatMap fun h => [BitVec.ofNat 8 h, BitVec.ofNat 8 (h / 256)]

/-- Bytes in a slice's output port (R102). -/
def MdSlice.portBytes (m : MdSlice) : Nat := (m.waits.map fun w => w.data.length).sum

/-- The bundle's OUT finds the queue of 64 KiB without room for its block (R102, R132). -/
def outStalls (m : MdSlice) (w : Nat) : Bool := mOp w == 0xB && decide (65536 < m.portBytes + 2 * outLen m w)

/-- Write a block to the slice's DRAM ring: 32-byte header, data padded to 32 bytes; a block that would cross the end starts again at the base (R134). -/
def State.ringBlock (s : State) (k path : Nat) (st flags : Nat) (last : Bool) (data : List Byte) : State :=
  let seq := (s.reg (MD_SL_RING_SEQ k)).toNat
  let hdr := le 8 st ++ le 2 path ++ le 1 (if last then flags else 0) ++ le 1 (b2n last) ++ le 4 seq ++ le 4 data.length ++ le 12 0
  let pad := (32 - data.length % 32) % 32
  let blk := hdr ++ data ++ List.replicate pad 0
  let m := s.slice k
  let pos := if m.ringPos + blk.length ≤ (s.reg (MD_SL_RING_LEN k)).toNat then m.ringPos else 0
  ((s.drStore (s.reg64 (MD_SL_RING_BASE_LO k) + pos) blk).setSlice k { m with ringPos := pos + blk.length }).setReg
    (MD_SL_RING_SEQ k) (w32 (seq + 1))

/-- The array path number of a local path: 512k + p on member k (R62, R134). -/
def State.arrayPath (s : State) (p : Nat) : Nat := 512 * s.rf ET_CT_CTL ET_CT_CTL_MEMBER + p

/-- A block that is not a last one leaves the output port (R132 to R134). -/
def State.blockOut (s : State) (k : Nat) (w : OutWait) : State :=
  if w.ring then s.ringBlock k (s.arrayPath (pathOf k w.path)) w.st 0 false w.data
  else s.setSlice k { s.slice k with sent := tblUpd [] (s.slice k).sent w.path (· ++ w.data) }

/-- The blocks that wait for no check block leave the output port, in order, up to the next last one (R132). -/
def State.portDrain (s : State) (k : Nat) : State :=
  let ws := (s.slice k).waits
  (ws.takeWhile fun w => !w.last).foldl (fun s w => s.blockOut k w) (s.setSlice k { s.slice k with waits := ws.dropWhile fun w => !w.last })

/-- OUT hands Y halfwords to the output port; a last block attaches the path's flag word, with the marks of its own bundle, and clears it (R132). DESIGN CHOICE: a target that the image's FLAGS do not declare is served all the same, and a last block that carries its own bundle's marks. -/
def State.outSlot (s : State) (k w : Nat) (m0 : MdSlice) : State :=
  let j := mAux w / 32
  let last := bit (mAux w) 4
  let ring := bit (mAux w) 3
  let m := bumpPtr m0 (s.slice k) w (outLen m0 w)
  let n := tblGet 0 m.outB j + if ring then 0 else 2 * outLen m0 w
  let rs := tblGet [] m.reads j
  let blk : OutWait :=
    { path := j, ring := ring, last := last, flags := if last then tblGet 0 m.flags j else 0, data := outData m0 w, st := m0.st, reads := rs
      newest := (rs.map (·.2)).foldl max 0 }
  (s.setSlice k { m with
    outB := tblSet 0 m.outB j n
    outL := if last then tblSet 0 m.outL j (if ring then 1 else n + 1) else m.outL
    flags := if last then tblSet 0 m.flags j 0 else m.flags
    waits := m.waits ++ [blk] }).portDrain k

/-! ### Exceptions (R135 to R137) -/

def excLate : Nat := 1
def excLoopDepth : Nat := 2
def excStack : Nat := 3
def excEcc : Nat := 4
def excOutFormat : Nat := 5
def excHalt : Nat := 6

/-- A spectrum of zeros with lane loss (R133, R136). -/
def zeroFill (p st : Nat) : Fill :=
  { path := p, st := st, data := List.replicate 4096 0, loss := true, crc := false, warm := false, seeded := false }

/-- Deliver zeros with lane loss for all eight paths of a slice, for `n` spectra from `st` on (R136). -/
def State.zeroSpectra (s : State) (k st : Nat) (n : Nat) : State :=
  let zs := (List.range n).flatMap fun q => (List.range 8).map fun j => zeroFill (pathOf k j) (st + 8192 * q)
  { s with md := { s.md with fills := s.md.fills ++ zs } }

/-- What an exception leaves of a slice's output port: the blocks of spectra before the faulting one, and those to the ring (R136). -/
def MdSlice.cutPort (m : MdSlice) : MdSlice :=
  let ws := m.waits.filter fun w => w.ring || decide (w.st < m.st)
  { m with waits := ws, sent := m.sent.filter fun e => ws.any fun w => w.path == e.1 && !w.ring }

/-- A slice raises an exception: it stops before the faulting bundle, records the code, raises its interrupt, and a STAGE program's paths deliver zeros from the faulting spectrum on until they rejoin; a fourth within 60 s leaves it DEAD, and HALT leaves it HALTED (R136, R137). DESIGN CHOICE (notes/assumptions/84): a HALT that is itself the fourth leaves it HALTED, without the entry of DEAD; and zeros take the place of the paths of any program in staging. -/
def State.sliceExc (s : State) (k code : Nat) : State :=
  let m := (s.slice k).cutPort
  let recent := (s.time.cycles :: m.excs).filter fun c => decide (s.time.cycles < c + sixtySeconds)
  let dead := decide (4 ≤ recent.length)
  let st := if code = excHalt then mdHalted else if dead then mdDead
    else if s.flag (MD_SL_CTL k) MD_SL_CTL_AUTO_RESTART then mdIdle else mdHalted
  let a := max m.fault m.st
  let s1 := s.setSlice k { m with excs := recent, fault := a, mute := 255, back := [], stall := false }
  let s2 := ((s1.setF (MD_SL_EXC k) MD_SL_EXC_CODE code).setF (MD_SL_EXC k) MD_SL_EXC_ADDR m.pc).setF (MD_SL_STAT k) MD_SL_STAT_STATE st
  let s3 := (s2.setSeenB (if k < 32 then EV_MD_EXC0 else EV_MD_EXC1) counter32 (k % 32)).raise evException
  let s4 := if dead && code != excHalt then s3.logEvent 0x0301 2 [w32 k, w32 code, w32 m.pc] else s3
  let s5 := s4.portDrain k
  { s5 with md := { s5.md with fills := s5.md.fills.filter fun f => f.path / 8 != k || decide (f.st < a) } }.zeroSpectra k a ((s.md.w - a) / 8192)

/-- Whether W has passed ST by three spectra while the slice runs (R131). -/
def State.isLate (s : State) (k : Nat) : Bool :=
  s.sliceState k == mdRunning && decide ((s.slice k).st + 32768 < s.md.w)

/-! ### NEXT (R131) -/

/-- The delay changes whose boundary ST has reached (R130). -/
def State.applyDelays (s : State) (k : Nat) : State :=
  let m := s.slice k
  let due := m.delays.filter fun d => decide (d.1 ≤ m.st)
  let m' := { m with
    delays := m.delays.filter fun d => !decide (d.1 ≤ m.st)
    xj := due.foldl (fun t d => tblSet 0 t d.2.1 (if d.2.2 ≤ d.1 then d.1 - d.2.2 + 1 else 0)) m.xj }
  due.foldl (fun s d => s.setF (MD_PATH_DELAY k d.2.1) MD_PATH_DELAY_DELAY d.2.2) (s.setSlice k m')

/-- NEXT closes the spectrum: ST advances by 8,192, MD_SL_CYC records the cycles, delay changes reached apply, and a swap whose boundary is reached stops the program (R130, R131, R142). DESIGN CHOICE (notes/assumptions/84): staging holds the paths of a program that does not declare STAGE_OUT as zeros with lane loss. -/
def State.nextSpectrum (s : State) (k : Nat) : State :=
  let m := s.slice k
  let c := m.cyc
  let m' := { m with st := m.st + 8192, cyc := 0, outB := [], outL := [], reads := [] }
  let s1 := (s.setSlice k m').setReg64 (MD_SL_ST_LO k) (m.st + 8192)
  let s2 := (s1.setF (MD_SL_CYC k) MD_SL_CYC_LAST (min 65535 c)).setF (MD_SL_CYC k) MD_SL_CYC_MAX
    (max (s.rf (MD_SL_CYC k) MD_SL_CYC_MAX) (min 65535 c))
  let s3 := (if m.hdr.stage then s2 else s2.zeroSpectra k m.st 1).applyDelays k
  if m.swap.any fun q => decide (q.1 ≤ m.st + 8192) then s3.setF (MD_SL_STAT k) MD_SL_STAT_STATE mdSwapping else s3

/-- NEXT of a STAGE program finds a path that has not been given exactly 4,096 bytes, the last of them in its last block (R133). DESIGN CHOICE (notes/assumptions/84): 4,096 bytes without a last-block mark on an OUT to STAGE are not delivered in the form of R132, and raise OUT_FORMAT as well. -/
def outIncomplete (m : MdSlice) : Bool :=
  m.hdr.stage && (List.range 8).any fun j => tblGet 0 m.outB j != 4096 || tblGet 0 m.outL j != 4097

/-- The exception that a bundle raises before any of its slots takes effect (R126, R133, R135). -/
def bundleExc (m : MdSlice) (b : Nat) : Option Nat :=
  let f := slotF b
  let count := if fOp f = 0x01 then loopCount m f else m.sget (bits f 17 14)
  if (fOp f = 0x01 ∨ fOp f = 0x02) ∧ count ≠ 0 ∧ 4 ≤ m.loops.length then some excLoopDepth
  else if fOp f = 0x07 ∧ 8 ≤ m.calls.length then some excStack
  else if fOp f = 0x08 ∧ m.calls.isEmpty = true then some excStack
  else if fOp f = 0x19 then some excHalt
  else if fOp f = 0x16 ∧ outIncomplete m = true then some excOutFormat
  else if mOp (slotY b) = 0xB ∧ bit (mAux (slotY b)) 4 = true ∧ tblGet 0 m.outL (mAux (slotY b) / 32) ≠ 0 then some excOutFormat
  else none

/-- EVT: MD_SL_EVT records the operand and counts, and the slice event interrupt is raised (R124). -/
def State.progEvent (s : State) (k imm : Nat) : State :=
  (((s.setF (MD_SL_EVT k) MD_SL_EVT_LAST imm).bumpBy (MD_SL_EVT k) MD_SL_EVT_COUNT 1).setSeenB
    (if k < 32 then EV_MD_EVT0 else EV_MD_EVT1) counter32 (k % 32)).raise evProgram

/-- The counts and sticky bits that a bundle leaves (R116, R117). -/
def State.mdCounts (s : State) (k gov sat : Nat) : State :=
  let s1 := if gov = 0 then s else (s.bumpBy (MD_SL_GOVCNT k) counter32 gov).setSeen (MD_SL_STAT k) MD_SL_STAT_GOV 1
  if sat = 0 then s1 else (s1.bumpBy (MD_SL_SATCNT k) counter32 sat).setSeen (MD_SL_STAT k) MD_SL_STAT_SSAT 1

/-- One bundle of a program image issues (R107): every slot reads before any slot writes. A VLDS whose sample is not yet written stalls the bundle (R128), and so does an OUT without room in the queue (R132). -/
def State.issue (old : State) (k : Nat) (e : Ecc) : State :=
  let b := tblGet 0 (old.slice k).imem (old.slice k).pc
  if old.vldsStalls k (slotX b) then old.setSlice k { old.slice k with stall := true }
  else if outStalls (old.slice k) (slotY b) then old
  else
    let s := old.eccSeen k e
    let m0 := s.slice k
    match if e.double then some excEcc else bundleExc m0 b with
    | some code => s.sliceExc k code
    | none =>
      let m1 := flowSlot (slotF b) m0 { m0 with cyc := m0.cyc + 1, stall := false }
      let m2 := if mOp (slotX b) = 0xA then s.vlds k (slotX b) m0 m1 else m1
      let e1 := memSlot true (slotX b) m0 { m := m2, gov := 0, sat := 0 }
      let e2 := memSlot false (slotY b) m0 e1
      let e3 := computeSlot (slotC2 b) m0 (computeSlot (slotC1 b) m0 e2)
      let m3 := { e3.m with sr := Nat.lor e3.m.sr ((if e3.gov = 0 then 0 else 1) + (if e3.sat = 0 then 0 else 2)) }
      let s1 := (s.setSlice k m3).mdCounts k e3.gov e3.sat
      let s2 := if mOp (slotY b) = 0xB then s1.outSlot k (slotY b) m0 else s1
      let s3 := if fOp (slotF b) = 0x18 then s2.progEvent k (bits (slotF b) 15 0) else s2
      let s4 := if fOp (slotF b) = 0x16 then s3.nextSpectrum k else s3
      if s4.isLate k then s4.sliceExc k excLate else s4

end Sys2Proof.Machine
end

