-- ==== Sys2Proof/Machine/MlOps.lean ====
section
/-! DEFINITION. Sending on the Miltia link: messages, DATA blocks and checkpoints (R435 to R438). -/

namespace Sys2Proof.Machine

/-- The role in ML_STAT.STATE (R458). -/
def roleUnpaired : Nat := 0
def roleLampblack : Nat := 1
def roleWarm : Nat := 2
def roleActive : Nat := 3
def roleFenced : Nat := 4

/-- The unit's role (R431). -/
def State.role (s : State) : Nat := s.rf ML_STAT ML_STAT_STATE

/-- A standby: LAMPBLACK or WARM (R441). -/
def State.standby (s : State) : Bool := s.role == roleLampblack || s.role == roleWarm

/-- The Miltia link is up (R458). -/
def State.linkUp (s : State) : Bool := s.flag ML_STAT ML_STAT_LINK_UP

/-- The unit produces the pipeline's outputs: it is UNPAIRED, or ACTIVE with no takeover boundary still to come (R431, R452 step 5). -/
def State.outputs (s : State) : Bool := s.role == roleUnpaired || (s.role == roleActive && !s.ml.takeover && !s.ml.takeBoundary)

/-- The unit produces the pipeline's outputs of array time `t`: after a planned handover at S, those of S or later (R431, R454 step 3). -/
def State.outputsAt (s : State) (t : Nat) : Bool := s.outputs && (s.role == roleUnpaired || decide (s.ml.split ≤ t))

/-- The role byte of the device's outputs (R431). -/
def State.roleByte (s : State) : Nat :=
  if s.role = roleActive then 0x01 else if s.standby then 0x02 else 0x00

/-- The EPOCH field of the device's outputs: 0 while UNPAIRED (R432). -/
def State.epochField (s : State) : Nat := if s.role = roleUnpaired then 0 else (s.reg ML_EPOCH).toNat

/-- The bytes of a message on the link: the specification gives no layout (R438). -/
opaque mlEncode : MlMsg → List Byte

/-- What message the bytes received spell; none for bytes that spell none (R438, R439). -/
opaque mlDecode : List Byte → Option MlMsg

/-- The bits of a register that its FW profile fields fill (R415, R438). -/
def fwMask (d : RegDesc) : Nat :=
  ((d.fields.filter fun f => f.profile).map fun f => (2 ^ f.fld.w - 1) * 2 ^ f.fld.lo).sum

/-- The FW fields of the register at an offset, every other bit 0. -/
def fwPart (off : Nat) (w : Word) : Word :=
  match regAt off with
  | some d => w &&& BitVec.ofNat 32 (fwMask d)
  | none => 0

/-- Split a message into runs of at most 244 bytes; `fuel` bounds the number of runs (R435). -/
def mlChunks : Nat → List Byte → List (List Byte)
  | 0, _ => []
  | k + 1, bs => if bs.length ≤ 244 then [bs] else bs.take 244 :: mlChunks k (bs.drop 244)

/-- The DATA blocks of a message; their SEQ is given when they are sent (R435). -/
def mlBlocks (id : Nat) (m : MlMsg) : List MlBlock :=
  let cs := mlChunks ((mlEncode m).length + 1) (mlEncode m)
  cs.zipIdx.map fun c => { seq := 0, first := c.2 == 0, last := c.2 + 1 == cs.length, data := c.1, msg := id }

/-- The 256 bytes of a block: header, data padded with zeros, and CRC-32C (R22, R435). -/
def mlBlock (type flags seq ack : Nat) (data : List Byte) : List Byte :=
  let h := be 1 type ++ be 1 flags ++ be 2 seq ++ be 2 ack ++ be 2 data.length ++ data ++ be (244 - data.length) 0
  h ++ be 4 (crc32c h)

/-- Send one DATA block, which carries the acknowledgement too (R435, R436). -/
def State.mlEmit (s : State) (b : MlBlock) : State :=
  { s with ml := { s.ml with ackDue := false } }.emit
    (.miltia (mlBlock 0x01 (b2n b.first + 2 * b2n b.last) b.seq s.ml.rxSeq b.data))

/-- Number the blocks of a list from a SEQ on, wrapping at 2^16. -/
def mlNumber (q : Nat) (bs : List MlBlock) : List MlBlock :=
  bs.zipIdx.map fun b => { b.1 with seq := (q + b.2) % 65536 }

/-- Send waiting DATA blocks while fewer than 256 are unacknowledged and the link is up (R436). -/
def State.mlPump (s : State) : State :=
  if s.linkUp then
    let n := 256 - s.ml.sent.length
    let now := mlNumber s.ml.txSeq (s.ml.wait.take n)
    let s' := { s with ml := { s.ml with
      sent := s.ml.sent ++ now, wait := s.ml.wait.drop n, txSeq := (s.ml.txSeq + now.length) % 65536 } }
    now.foldl State.mlEmit s'
  else s

/-- Queue a message for the peer (R438, R459). -/
def State.mlSend (s : State) (m : MlMsg) : State :=
  { s with ml := { s.ml with
      msgs := s.ml.msgs ++ [(s.ml.nextMsg, m)]
      wait := s.ml.wait ++ mlBlocks s.ml.nextMsg m
      nextMsg := s.ml.nextMsg + 1 } }.mlPump

/-! ### The link's ladder (R74, R75, R86, R89, R434, R435) -/

/-- STATE of ML_LINK_STAT. -/
def lkDown : Nat := 0
def lkL0Lock : Nat := 1
def lkNegotiate : Nat := 2
def lkStep : Nat := 3
def lkDwell : Nat := 4
def lkRunning : Nat := 5

/-- STATE of the link. -/
def State.link (s : State) : Nat := s.rf ML_LINK_STAT ML_LINK_STAT_STATE

/-- A ladder runs. -/
def State.linkLadder (s : State) : Bool := decide (lkL0Lock ≤ s.link) && decide (s.link < lkRunning)

/-- Rung of the link and its target. -/
def State.linkRung (s : State) : Nat := s.rf ML_LINK_STAT ML_LINK_STAT_RUNG
def State.linkGoal (s : State) : Nat := min (s.rf ML_CTL ML_CTL_TARGET_RUNG) s.ml.top

/-- Every receive lane is locked (R458). -/
def State.linkLocked (s : State) : Bool := s.rf ML_LINK_STAT ML_LINK_STAT_LOCK == 15

/-- Send a LINK block with a control message of R84, from TYPE to RESULT: it takes the control lane's place (R434). -/
def State.linkSend (s : State) (type msg tag arg result : Nat) : State :=
  s.emit (.miltia (mlBlock 0x04 0 0 s.ml.rxSeq (be 1 type ++ be 1 msg ++ be 1 tag ++ be 1 arg ++ be 7 0 ++ be 1 result)))

/-- Send a negotiation message that waits for its reply, in a step of the ladder (R86, R89). -/
def State.linkAsk (s : State) (step : Ladder) (st msg arg : Nat) : State :=
  { (s.setF ML_LINK_STAT ML_LINK_STAT_STATE st).linkSend 0x4B msg s.ml.tag arg 0 with
    ml := { s.ml with ladder := step, ask := some { msg := msg, arg := arg, tag := s.ml.tag, attempt := 1 }, tag := (s.ml.tag + 1) % 256 } }

/-- No lane is locked, no ladder runs and the link is in a STATE. -/
def State.linkOff (s : State) (step : Ladder) (st : Nat) : State :=
  { (((s.setF ML_LINK_STAT ML_LINK_STAT_STATE st).setF ML_LINK_STAT ML_LINK_STAT_RUNG 0).setF ML_LINK_STAT ML_LINK_STAT_LOCK 0).setF
      ML_STAT ML_STAT_LINK_UP 0 with
    ml := { s.ml with ladder := step, goal := 0, ask := none, fck := false, clean := 0, retry := false } }

/-- The full ladder starts from L0 (R89, R434). -/
def State.linkStart (s : State) : State := s.linkOff .lock0 lkL0Lock

/-- A step of the ladder fails. DEDUCED: as no limited rung is among the STATEs of R458, the link is then down and retries step 0 (R434). -/
def State.linkFail (s : State) : State :=
  let s1 := s.linkOff .idle lkDown
  { s1 with ml := { s1.ml with retry := true } }

/-- From an accepted rung, propose the next, or end; MILTIA_LINK_UP then follows (R89, R434). -/
def State.linkClimb (s : State) : State :=
  if s.linkRung < s.linkGoal then s.linkAsk .propose lkStep 0x02 (s.linkRung + 1) else { s with ml := { s.ml with ladder := .idle, ask := none } }

/-- A commit has been answered, by either unit: the switch to its rung follows after 10 µs (R87, R89). -/
def State.linkCommit (s : State) (r : Nat) : State :=
  { s.setF ML_LINK_STAT ML_LINK_STAT_STATE lkStep with ml := { s.ml with ladder := .switching, goal := r % 4, ask := none } }

/-- RUNG_SWITCH of the link: both directions change to the rung committed, and lock there again (R89, R434). -/
def State.linkSwitch (s : State) : State :=
  if s.ml.ladder = .switching then
    { (s.setF ML_LINK_STAT ML_LINK_STAT_RUNG s.ml.goal).setF ML_LINK_STAT ML_LINK_STAT_LOCK 0 with ml := { s.ml with ladder := .clock, fck := false } }
  else s

/-- FORWARDED_CLOCK_LOCK of the link (R89, R95). -/
def State.linkClock (s : State) : State :=
  if s.flag ML_CTL ML_CTL_PAIRED then { s with ml := { s.ml with fck := true, ladder := if s.ml.ladder = .clock then .lanes else s.ml.ladder } } else s

/-- Every receive lane due has gained lock: HELLO at L0, or the dwell at a new rung (R89, R434). -/
def State.linkLanes (s : State) : State :=
  if !s.linkLocked then s
  else if s.ml.ladder = .lock0 then s.linkAsk .hello lkNegotiate 0x01 3
  else if s.ml.ladder = .lanes then
    { s.setF ML_LINK_STAT ML_LINK_STAT_STATE lkDwell with ml := { s.ml with ladder := .dwell, clean := 0 } }
  else s

/-- BLOCK_LOCK_GAINED of the link's receive lane `j`: its sync bits have been right in 64 blocks; a lane in loss of signal, or without the forwarded clock, cannot lock (R74, R75, R435). -/
def State.linkGain (s : State) (j : Nat) : State :=
  if s.flag ML_CTL ML_CTL_PAIRED && s.ml.fck && !s.ml.los.contains j && decide (j < 4) then
    (s.setFB ML_LINK_STAT ML_LINK_STAT_LOCK j true).linkLanes
  else s

/-- A receive lane of the link loses lock; a dwell begins anew (R74, R434). An up link then goes down by MILTIA_LINK_DOWN (R437). -/
def State.linkLose (s : State) (j : Nat) : State :=
  if j < 4 then { s.setFB ML_LINK_STAT ML_LINK_STAT_LOCK j false with ml := { s.ml with clean := 0 } } else s

/-- LOSS_OF_SIGNAL of the link: on receive lane j, or on the forwarded clock, with which every lane loses lock (R74, R75, R435). -/
def State.linkDark (s : State) (lane : Option Nat) : State :=
  match lane with
  | some j => let s1 := s.linkLose j; { s1 with ml := { s1.ml with los := j :: s1.ml.los.filter (· != j) } }
  | none => { s.setF ML_LINK_STAT ML_LINK_STAT_LOCK 0 with ml := { s.ml with fck := false, clean := 0 } }

/-- LOSS_OF_SIGNAL_CLEAR of the link (R75). -/
def State.linkSeen (s : State) (lane : Option Nat) : State :=
  match lane with
  | some j => { s with ml := { s.ml with los := s.ml.los.filter (· != j) } }
  | none => s

/-- A block received in the dwell, whole or with a CRC failure, which begins the dwell anew (R434). -/
def State.linkCount (s : State) (ok : Bool) : State :=
  if s.ml.ladder = .dwell then { s with ml := { s.ml with clean := if ok && s.linkLocked then s.ml.clean + 1 else 0 } } else s

/-- DWELL_PASSED of the link: 65,536 blocks with no CRC failure record the rung (R89, R434). -/
def State.linkDwell (s : State) : State :=
  if s.ml.ladder = .dwell ∧ s.linkLocked = true ∧ 65536 ≤ s.ml.clean then s.linkClimb else s

/-- LADDER_STEP_TIMEOUT of the link: the bound of step 0, 4, 5 or 6 has passed (R89, R434). -/
def State.linkTimeout (s : State) : State :=
  match s.ml.ladder with
  | .lock0 | .clock | .lanes | .dwell => s.linkFail
  | _ => s

/-- CONTROL_REPLY_TIMEOUT of the link: the message goes out again with its TAG, up to three times (R86, R434). -/
def State.linkAgain (s : State) : State :=
  match s.ml.ask with
  | none => s
  | some a =>
    if a.attempt < 4 then ({ s with ml := { s.ml with ask := some { a with attempt := a.attempt + 1 } } }).linkSend 0x4B a.msg a.tag a.arg 0
    else s.linkFail

/-- OCTET_DOWN_RETRY of the link: step 0 again, every 100 ms (R434). -/
def State.linkRetry (s : State) : State := if s.ml.retry then s.linkStart else s

/-! ### Checkpoints (R438) -/

/-- Registers that a checkpoint carries whole: the product set and selection in force, the polynomial table, the TAI mapping, and the output sequence counters (R438). -/
def ckptWhole (off : Nat) : Bool :=
  (decide (IX_INT_START_LO ≤ off) && decide (off < IX_SHED)) || (decide (IX_RG_CTL 0 ≤ off) && decide (off < IX_RG_CTL 16)) || off == WD_TABLE ||
    (List.range 64).any (fun b => off == WD_BM_SEQ b) || (decide (SF_UB_WR ≤ off) && decide (off ≤ SF_UB_GEN)) || off == ET_DS_SEQ ||
    (decide (TM_TAI_ATC_LO ≤ off) && decide (off ≤ TM_TAI_SEC_HI))

/-- What a checkpoint carries of a register. -/
def ckptPart (off : Nat) (w : Word) : Word := if ckptWhole off then w else fwPart off w

/-- First halfword of slice k's active calibration bank in its Y memory (R155). -/
def State.calBase (s : State) (k : Nat) : Nat := if s.flag (MD_CH_SL_STAT k) MD_CH_SL_STAT_BANK then 131072 else 65536

/-- The active calibration banks of every slice, by slice × 65,536 + halfword. -/
def State.calBanks (s : State) : Tbl Nat :=
  s.md.sl.flatMap fun e =>
    (e.2.y.filter fun q => decide (s.calBase e.1 ≤ q.1) && decide (q.1 < s.calBase e.1 + 65536)).map fun q => (e.1 * 65536 + (q.1 - s.calBase e.1), q.2)

/-- The active polynomial table, by slot (R210). -/
def State.polyActive (s : State) : Tbl PolySlot :=
  let base := s.rf WD_TABLE WD_TABLE_ACTIVE * 262144
  (s.wd.tab.filter fun q => decide (base ≤ q.1) && decide (q.1 < base + 262144)).map fun q => (q.1 - base, q.2)

/-- The registers of a trigger configuration, in payload order from W2 on (R264). -/
def trigRegs : List Nat :=
  [SF_CTL] ++ (List.range 8).map SF_TRIG ++ [SF_TRIGIN] ++ ((List.range 16).flatMap fun t => [SF_TB_CTL t, SF_TB_OFS t]) ++
    (List.range 8).map SF_CU_CTL ++ (List.range 512).map SF_PATH ++ [SF_MSG_DMAC_LO, SF_MSG_DMAC_HI]

/-- The pending table becomes active (R254). -/
def State.configTable (s : State) : State := (List.range 8192).foldl (fun u e => u.setReg (SF_TBP_ACT e) (s.reg (SF_TBP e))) s

/-- The registers that an Umber change sets, but for the slab size that follows from them (R261, R264). -/
def State.ubRegsWrite (s : State) (c : UbChange) : State :=
  let s1 := (s.setReg64 SF_UB_BASE_LO c.base).setF SF_UB_LEN SF_UB_LEN_LEN c.len
  let s2 := match c.sel with | some ws => s1.configAll (ws.zipIdx.map fun (w : Word × Nat) => (SF_UB_SEL w.2, w.1)) | none => s1
  match c.ctl with | some p => (s2.config SF_UB_CTL p.1).config SF_UB_POST p.2 | none => s2

/-- A slice's registers with the program swaps, delays and calibration swap that have fired for it. -/
def State.aheadSlice (s : State) (e : Nat × MdSlice) : State :=
  let k := e.1
  let s1 := match e.2.swap.getLast? with | some q => s.setF (MD_SL_CTL k) MD_SL_CTL_SLOT q.2 | none => s
  let s2 := e.2.delays.foldl (fun s d => s.setF (MD_PATH_DELAY k d.2.1) MD_PATH_DELAY_DELAY d.2.2) s1
  if tblGet 0 s.ch.swapAt k = 0 then s2 else s2.setF (MD_CH_SL_STAT k) MD_CH_SL_STAT_BANK (1 - s.rf (MD_CH_SL_STAT k) MD_CH_SL_STAT_BANK)

/-- The registers as every change that has fired will have left them, once the data of its boundary has reached its block (R57, R438). -/
def State.ahead (s : State) : State :=
  let s1 := s.md.sl.foldl State.aheadSlice s
  let s2 := s.sf.cfgs.foldl (fun s c => (s.configAll (trigRegs.zip c.2)).configTable) s1
  (s.sf.turn.filterMap (·.chg)).foldl State.ubRegsWrite s2

/-- The checkpointed state of the unit, the changes that have fired among it (R438). -/
def State.takeCkpt (s0 : State) : Ckpt :=
  let s := s0.ahead
  { atc := s.now, regs := (s.regs.map fun e => (e.1, ckptPart e.1 e.2)).filter (fun e => e.2 != 0), events := s.events, sources := s.cp.sources
    progs := s.md.progs, cal := s.calBanks, poly := s.polyActive, scales := s.ch.paths, anchor := s.ix.anchor, regions := s.ix.regions
    sfSeq := s.sf.seq }

/-- Whether checkpoints go to the standby: the unit is ACTIVE, the link is up and a format lies in both ranges (R438, R501). -/
def State.ckptOn (s : State) : Bool := s.role == roleActive && s.linkUp && s.ml.ckptFmt.isSome

/-- Send a delta for a change of state made by a command or a fired event (R438). -/
def State.deltaSend (s : State) : State := if s.ckptOn then s.mlSend (.delta s.takeCkpt) else s

/-- Send a state record (R438). -/
def State.recordSend (s : State) : State := if s.ckptOn then s.mlSend (.record s.takeCkpt) else s

end Sys2Proof.Machine
end

