-- ==== Sys2Proof/Machine/IxOps.lean ====
section
/-! DEFINITION. The integration grid, the staging halves, the banks and the dump ring: the operations that Indigo, Woad, the corner turn, the lanes and the scheduler share (R162, R174 to R177, R184 to R194). -/

namespace Sys2Proof.Machine

/-! ### Modes (R30, R31) -/

/-- MODE: 0 standalone, 1 Array-2, 2 Array-4, 3 Array-8 (R197). -/
def State.mode (s : State) : Nat := s.rf ET_CT_CTL ET_CT_CTL_MODE

/-- k of R31. -/
def State.member (s : State) : Nat := s.rf ET_CT_CTL ET_CT_CTL_MEMBER

/-- Paths correlated in a mode (R30). -/
def modePaths (m : Nat) : Nat := 512 * 2 ^ m

/-- Channels per member in a mode (R30). -/
def modeChans (m : Nat) : Nat := 4096 / 2 ^ m

/-- First channel of a member (R31). -/
def memberFirst (m k : Nat) : Nat := modeChans m * k

/-- Corner turn active in an array mode. -/
def State.ctRuns (s : State) : Bool := s.flag ET_CT_CTL ET_CT_CTL_RUN && s.mode != 0

/-- Registers that fix how the corner turn runs (R299). -/
def ctRegs : List Nat := [ET_CT_CTL, ET_CT_GRACE, ET_CT_NAK, ET_CT_GMAC_LO, ET_CT_GMAC_HI]

/-- The corner-turn configuration of the spectrum of an array time, where a later one has replaced it (R57). -/
def State.ctAt (s : State) (st : Nat) : Option (List Word) := (s.ct.olds.find? fun o => decide (st < o.1)).map (·.2)

/-- The device as a corner-turn configuration has it. -/
def State.ctLoad (s : State) (ws : List Word) : State := (ctRegs.zip ws).foldl (fun s r => s.setReg r.1 r.2) s

/-- The device as the corner-turn configuration of a spectrum has it. -/
def State.ctView (s : State) (o : Option (List Word)) : State := match o with | some ws => s.ctLoad ws | none => s

/-- Do what a replaced corner-turn configuration still has to do, or what the one in force does. -/
def State.ctUnder (s : State) (o : Option (List Word)) (f : State → State) : State :=
  match o with
  | some ws => (f (s.ctLoad ws)).ctLoad (ctRegs.map s.reg)
  | none => f s

/-! ### Selection (R174, R175, R178) -/

/-- Channels of die 0 for a selection of `c` (R175). -/
def die0Chans (c : Nat) : Nat := 16 * cdiv c 32

/-- Spectra a half holds (R175); 0 with nothing selected. -/
def stageT (p c : Nat) : Nat := if c = 0 then 0 else 2 ^ 24 / (p * die0Chans c)

/-- First selected channel and C_sel. -/
def State.selFirst (s : State) : Nat := s.rf IX_STAGE_CH IX_STAGE_CH_FIRST
def State.selCount (s : State) : Nat := s.rf IX_STAGE_CH IX_STAGE_CH_COUNT

/-- The staging configuration in force now. -/
def State.stNow (s : State) : StCfg :=
  { t := s.rf IX_STAGE IX_STAGE_T, first := s.selFirst, count := s.selCount, mode := s.mode, member := s.member }

/-- The staging configuration in force for the spectrum of an array time (R57). -/
def State.stCfg (s : State) (st : Nat) : StCfg :=
  match s.ix.olds.find? fun o => decide (st < o.1) with
  | some o => o.2
  | none => s.stNow

/-- The die that holds a channel of a selection (R178). -/
def dieOf (first count c : Nat) : Nat := if c < first + die0Chans count then 0 else 1

/-! ### Banks -/

/-- A bank without an integration. -/
def bankFree : Bank :=
  { start := none, stop := none, draining := false, vat := [], spec := [], sat := [], tiles := [], paths := [], acc := [], shedRg := 0
    shedPasses := 0, stageDrops := 0, flags := 0, regions := [], first := 0, count := 0, t := 0, mode := 0, member := 0, nspec := 0
    packed := false }

/-- Bank A is `false`, bank B `true`. -/
def State.bank (s : State) (b : Bool) : Bank := if b then s.ix.bankB else s.ix.bankA

/-- Replace a bank. -/
def State.setBank (s : State) (b : Bool) (x : Bank) : State :=
  if b then { s with ix := { s.ix with bankB := x } } else { s with ix := { s.ix with bankA := x } }

/-- The bank whose integration has no closing boundary yet. -/
def State.curBank (s : State) : Option Bool :=
  if s.ix.bankA.start.isSome && s.ix.bankA.stop.isNone then some false
  else if s.ix.bankB.start.isSome && s.ix.bankB.stop.isNone then some true
  else none

/-- A bank that holds no integration. -/
def State.freeBank (s : State) : Option Bool :=
  if s.ix.bankA.start.isNone then some false else if s.ix.bankB.start.isNone then some true else none

/-- The bank whose integration covers array time `st`. -/
def State.bankAt (s : State) (st : Nat) : Option Bool :=
  let covers := fun (b : Bank) =>
    match b.start with
    | none => false
    | some a => decide (a ≤ st) && !b.draining && (match b.stop with | none => true | some e => decide (st < e))
  if covers s.ix.bankA then some false else if covers s.ix.bankB then some true else none

/-- Integration-aligned events are held (R60, R194). -/
def State.holdsAligned (s : State) : Bool := (s.flag IX_CTL IX_CTL_RUN && (!s.pw.compOn || s.ix.deferred)) || s.freeBank.isNone

/-- FLAGS bits of R198 that the grid decides. -/
def fOverrun : Nat := 0
def fRealigned : Nat := 1
def fEndedEarly : Nat := 2
def fTakeover : Nat := 3
def fLost : Nat := 4
def fConfigChange : Nat := 14

/-- Set a flag of a bank's coming record. -/
def State.bankFlag (s : State) (b : Bool) (i : Nat) : State := s.setBank b { s.bank b with flags := setBit (s.bank b).flags i }

/-! ### The grid (R184 to R186, R194) -/

/-- A product set is in force (R204). -/
def State.integrating (s : State) : Bool := s.flag IX_CTL IX_CTL_RUN

/-- Sample periods of an integration. -/
def State.intLen (s : State) : Nat := s.rf IX_INT_LEN IX_INT_LEN_NSPEC * 8192

/-- The least NSPEC: ceil(5 ms × fs / 8,192) (R184). -/
def minSpectra (rateN : Nat) : Nat := cdiv (50000 * rateN) 8192

/-- The boundary at which the open integration is due to close. -/
def State.dueAt (s : State) : Nat := s.reg64 IX_NEXT_CLOSE_LO

/-- Array time at which the open integration began. -/
def State.openStart (s : State) : Option Nat := s.curBank.bind fun c => (s.bank c).start

/-- First boundary at or after T for an integration-aligned event (R55). DEDUCED: the boundary that is due next stands for every T after the open integration's start, and that start, which has passed, for every T up to it; without an open integration the grid of R184 goes on from its anchor, both ways. -/
def State.gridAt (s : State) (t : Nat) : Nat :=
  let n := s.intLen
  if s.integrating && decide (0 < n) then
    match s.openStart with
    | some b => if t ≤ b then b else if t ≤ s.dueAt then s.dueAt else s.dueAt + cdiv (t - s.dueAt) n * n
    | none => if t ≤ s.ix.anchor then s.ix.anchor - (s.ix.anchor - t) / n * n else s.ix.anchor + cdiv (t - s.ix.anchor) n * n
  else spectrumAt t

/-- Boundary at which a path rejoins from `t` on: integration boundary, or spectrum boundary when none runs (R94). -/
def State.rejoinAt (s : State) (t : Nat) : Nat := s.gridAt t

/-- First grid boundary after `b` that leaves the least integration length (R194). -/
def State.nextGrid (s : State) (b : Nat) : Nat :=
  let n := s.intLen
  if n = 0 then b
  else
    let g := s.ix.anchor + cdiv (b + minSpectra s.time.rateN * 8192 - s.ix.anchor) n * n
    if b = s.ix.anchor + (b - s.ix.anchor) / n * n then b + n else g

/-- A bank for an integration that starts at `b` under the set in force. -/
def State.freshBank (s : State) (b flags : Nat) : Bank :=
  { bankFree with
    start := some b, flags := flags, regions := s.ix.regions, first := s.selFirst, count := s.selCount
    t := s.rf IX_STAGE IX_STAGE_T, mode := s.mode, member := s.member, nspec := s.rf IX_INT_LEN IX_INT_LEN_NSPEC }

/-- No half holds or will hold spectra from two integrations (R176): the halves end at `b`. -/
def cutHalf (b : Nat) (h : Half) : Half :=
  match h.base with
  | some a => if a < b ∧ b < a + 8192 * h.cap then { h with cap := (b - a) / 8192 } else h
  | none => h

/-- Cut the halves at a boundary. -/
def State.cutAt (s : State) (b : Nat) : State :=
  { s with ix := { s.ix with half0 := cutHalf b s.ix.half0, half1 := cutHalf b s.ix.half1, nextBase := min s.ix.nextBase (max b s.ix.done) } }

/-- A free half. -/
def halfFree : Half :=
  { base := none, cap := 0, specs := [], full := false, die0 := .waiting, die1 := .waiting, woad := .waiting, shed0 := 0, shed1 := 0, shedW := 0
    first := 0, count := 0, mode := 0, member := 0 }

/-- Woad forms beams: some are enabled, or spectra of a configuration that had some are still to be formed. -/
def State.wdRuns (s : State) : Bool := s.flag WD_CTL WD_CTL_RUN || !s.wd.olds.isEmpty

/-- Some spectrum before `b` may still be staged, or formed by Woad. -/
def State.stBefore (s : State) (b : Nat) : Bool :=
  decide (s.ix.nextBase < b) || s.ix.half0.base.any (· < b) || s.ix.half1.base.any (· < b) || (s.wdRuns && decide (s.wd.next < b))

/-- The staging configuration changes at `b`: spectra before it are staged under the one in force now, and a half opened from `b` on starts again (R57, R176). -/
def State.keepCfg (s : State) (b : Nat) : State :=
  let s1 := s.cutAt b
  let again := fun (h : Half) => if h.base.any (b ≤ ·) then halfFree else h
  { s1 with ix := { s1.ix with
      olds := (s1.ix.olds.filter fun o => s1.stBefore o.1) ++ [(b, s.stNow)], half0 := again s1.ix.half0, half1 := again s1.ix.half1 } }

/-- A boundary of the scale epochs falls, from which an integration runs or not (R162, R185). -/
def State.epochBound (s : State) (b : Nat) (runs : Bool) : State :=
  { s with ch := { s.ch with bounds := ((b, runs) :: s.ch.bounds.filter fun q => q.1 != b).take 64 } }

/-- The open integration gets its closing boundary (R185). -/
def State.endIntegration (s : State) (b : Nat) : State :=
  match s.curBank with
  | some c => ((s.setBank c { s.bank c with stop := some b }).cutAt b).epochBound b true
  | none => s.epochBound b true

/-- An integration starts in a free bank; IX_STAT.STATE is RUNNING, and the register names its due close (R185). -/
def State.startIntegration (s : State) (b flags : Nat) : State :=
  match s.freeBank with
  | some c =>
    let s1 := ((s.setBank c (s.freshBank b flags)).setF IX_STAT IX_STAT_STATE 1).setReg64 IX_NEXT_CLOSE_LO (s.nextGrid b)
    if (s.bank (!c)).start.isNone then (s1.setF IX_BANK_STAT IX_BANK_STAT_OPEN (b2n c)).setReg64 IX_INT_START_LO b else s1
  | none => s

/-- At an integration boundary `b`, integration-aligned events whose time it reaches fire there, and the others move to the boundary that now follows their time (R55, R60, R194). -/
def State.regrid (s : State) (b : Nat) : State :=
  { s with events := s.events.map fun (e : Event) => if e.alignI then { e with f := if e.t ≤ b then b else s.gridAt e.t } else e }.nextSync

/-- The open integration closes at `b` and the next opens there; with the other bank still in use the close is deferred, once, and the integration is an overrun (R185, R194). -/
def State.closeAt (s : State) (b flags : Nat) : State :=
  if s.freeBank.isSome then (s.endIntegration b).startIntegration b flags
  else if s.ix.deferred then s
  else
    match s.curBank with
    | some c =>
      let s0 := s.bankFlag c fOverrun
      let s1 := { s0 with ix := { s0.ix with deferred := true } }
      (s1.bump IX_OVERRUNS).seen IX_STAT IX_STAT_OVERRUN_SEEN evIndigo
    | none => s

/-- The open integration ends at once and is flagged; a new grid is anchored at the next spectrum boundary (R83, R186). -/
def State.endEarly (s : State) : State :=
  if s.integrating then
    match s.curBank with
    | some c =>
      let b := spectrumAt s.now
      let s1 := s.bankFlag c fEndedEarly
      let s2 := { s1 with ix := { s1.ix with anchor := b } }.closeAt b 0
      if s2.ix.deferred then s2 else s2.regrid b
    | none => s
  else s

/-- A path of which no epoch has begun: its first is seeded (R164). -/
def scaleReset : ScaleSt :=
  { sums := [], n := 0, exps := [], clips := [], seeded := false, found := false, hist := false, seedNext := false, low := false, high := false
    opened := false, closing := [] }

/-- The scale state of a device path. -/
def State.scale (s : State) (p : Nat) : ScaleSt := tblGet scaleReset s.ch.paths p

/-- Replace a path's scale state. -/
def State.setScale (s : State) (p : Nat) (x : ScaleSt) : State := { s with ch := { s.ch with paths := tblSet scaleReset s.ch.paths p x } }

/-- The scale epoch in progress becomes seeded from the next spectrum on, unless it is already (R164). DESIGN CHOICE: its opening record has then a second one after it, which goes with the seed spectrum. -/
def State.seedNow (s : State) (p : Nat) : State :=
  if (s.scale p).seeded then s.setScale p { s.scale p with seedNext := false }
  else ((s.setScale p { s.scale p with seedNext := false, seeded := true, found := false, opened := false }).setFB (MD_CH_SL_STAT (p / 8))
    MD_CH_SL_STAT_SEEDED (p % 8) true).bump (MD_CH_SL_SEEDS (p / 8))

/-! ### Staging (R173 to R177) -/

/-- A path of which nothing has arrived. -/
def stPathNone : StPath :=
  { data := [], here := false, loss := false, crc := false, warm := false, seeded := false, lost := 0, scale := 0 }

/-- A half by its number. -/
def State.half (s : State) (h : Bool) : Half := if h then s.ix.half1 else s.ix.half0

/-- Replace a half. -/
def State.setHalf (s : State) (h : Bool) (x : Half) : State :=
  if h then { s with ix := { s.ix with half1 := x } } else { s with ix := { s.ix with half0 := x } }

/-- Whether a half takes the spectrum of an array time. -/
def Half.covers (h : Half) (st : Nat) : Bool :=
  match h.base with
  | some a => decide (a ≤ st) && decide (st < a + 8192 * h.cap)
  | none => false

/-- The half that holds, or takes, a spectrum. -/
def State.halfOf (s : State) (st : Nat) : Option Bool :=
  if s.ix.half0.covers st then some false else if s.ix.half1.covers st then some true else none

/-- Boundaries that no half may cross: the end of the integration that covers `a`, and those at which the staging configuration changes (R174, R176). -/
def State.halfEnds (s : State) (a : Nat) : List Nat :=
  (match s.bankAt a with
    | some c => (match (s.bank c).stop with | some e => [e] | none => if s.ix.deferred then [] else [s.dueAt])
    | none => []) ++ s.ix.olds.map (·.1)

/-- Spectra of a half from `a` on: T of the configuration there, or fewer up to a boundary (R176). -/
def State.capFrom (s : State) (a : Nat) : Nat :=
  (s.halfEnds a).foldl (fun t b => if a < b then min t ((b - a) / 8192) else t) (s.stCfg a).t

/-- Open a free half at the next base. -/
def State.openHalf (s : State) (h : Bool) : State :=
  let a := s.ix.nextBase
  let c := s.capFrom a
  let g := s.stCfg a
  let s1 := s.setHalf h { halfFree with base := some a, cap := c, first := g.first, count := g.count, mode := g.mode, member := g.member }
  { s1 with ix := { s1.ix with nextBase := a + 8192 * c } }

/-- Open a free half where a spectrum lies past those that are open. -/
def State.openFor (s : State) (st : Nat) : State :=
  if st < s.ix.nextBase ∨ (s.stCfg s.ix.nextBase).t = 0 then s
  else if s.ix.half0.base.isNone then s.openHalf false
  else if s.ix.half1.base.isNone then s.openHalf true
  else s

/-- The next array time that opens a half is dropped: staging goes on behind it. Drops that no pass will look back to are forgotten. -/
def State.dropNext (s : State) : State :=
  let past := if s.wdRuns then min s.ix.done s.wd.next else s.ix.done
  { s with ix := { s.ix with drops := s.ix.nextBase :: s.ix.drops.filter (past ≤ ·), nextBase := s.ix.nextBase + 8192 } }

/-- The integration of an array time counts a spectrum that staging has discarded. -/
def State.countDrop (s : State) (st : Nat) : State :=
  match s.bankAt st with
  | some b => s.setBank b { s.bank b with stageDrops := (s.bank b).stageDrops + 1 }
  | none => s

/-- Staging discards the spectrum at the next base for every path, counts it and flags its integration (R177). -/
def State.dropSpec (s : State) : State :=
  ((s.dropNext.bump IX_STAGE_DROPS).seen IX_STAT IX_STAT_DROP_SEEN evIndigo).countDrop s.ix.nextBase

/-- Find room for a spectrum: a half that covers it, or free halves opened for it; else staging discards it, and those before it that have found none (R177). DEDUCED: a half holds consecutive array times, so one that opens later starts past the discarded spectrum. -/
def State.stageRoom (s : State) (st : Nat) : State :=
  let s1 := (s.openFor st).openFor st
  if st < s1.ix.nextBase ∨ (s1.stCfg s1.ix.nextBase).t = 0 then s1
  else (List.range ((st - s1.ix.nextBase) / 8192 + 1)).foldl (fun t _ => t.dropSpec) s1

/-- A spectrum of which nothing has arrived. -/
def specNone (st : Nat) : StSpec := { st := st, paths := [], pieces := [], graced := false, short := false }

/-- Change a spectrum of a list in array-time order, adding it where it is absent. -/
def specUpd (st : Nat) (f : StSpec → StSpec) : List StSpec → List StSpec
  | [] => [f (specNone st)]
  | x :: xs => if x.st = st then f x :: xs else if st < x.st then f (specNone st) :: x :: xs else x :: specUpd st f xs

/-- 512-channel runs that hold a selected channel of a half (R283). -/
def Half.selRuns (h : Half) : List Nat :=
  (List.range 8).filter fun r => decide (r * 512 < h.first + h.count) && decide (h.first < r * 512 + 512) && decide (0 < h.count)

/-- Path blocks of 16 of the other members (R286). -/
def Half.remoteBlocks (h : Half) : List Nat := (List.range (modePaths h.mode / 16)).filter fun b => b / 32 != h.member

/-- Corner-turn pieces that a spectrum of a half needs (R176). -/
def Half.pieces (h : Half) : List (Nat × Nat) := h.remoteBlocks.flatMap fun b => h.selRuns.map fun r => (b, r)

/-- The local staging fill of a spectrum is complete (R294). -/
def Half.localDone (h : Half) (x : StSpec) : Bool := (List.range 512).all fun p => (tblGet stPathNone x.paths (512 * h.member + p)).here

/-- The spectrum counts as present (R176). -/
def Half.present (h : Half) (x : StSpec) : Bool := h.localDone x && h.pieces.all fun q => x.pieces.contains q

/-- A half is complete when it holds as many present spectra as it may (R176). -/
def State.completeHalf (s : State) (h : Bool) : State :=
  let x := s.half h
  if x.base.isSome && !x.full && x.specs.length == x.cap && x.specs.all x.present then s.setHalf h { x with full := true } else s

/-- Change a spectrum in staging, and see whether its half is now complete. -/
def State.stageUpd (s : State) (st : Nat) (f : Half → StSpec → StSpec) : State :=
  match (s.stageRoom st).halfOf st with
  | none => s.stageRoom st
  | some h =>
    let s1 := s.stageRoom st
    let x := s1.half h
    (s1.setHalf h { x with specs := specUpd st (f x) x.specs }).completeHalf h

/-- The bytes of a run of channels from `c`, the unselected ones left out (R174). -/
def placeBytes (first count : Nat) (t : Tbl Byte) (c : Nat) (bs : List Byte) : Tbl Byte :=
  (bs.zipIdx c).foldl (fun t b => if first ≤ b.2 ∧ b.2 < first + count then tblSet 0 t b.2 b.1 else t) t

/-- A local path's spectrum arrives in staging (R176). -/
def State.stageFill (s : State) (f : Fill) : State :=
  s.stageUpd f.st fun h x =>
    { x with paths := tblUpd stPathNone x.paths (512 * h.member + f.path) fun p =>
        { p with data := placeBytes h.first h.count [] 0 f.data, here := true, loss := f.loss, crc := f.crc, warm := f.warm, seeded := f.seeded } }

/-- Both passes and Woad's reads have ended: the half is released (R177). -/
def State.releaseHalf (s : State) (h : Bool) : State :=
  let x := s.half h
  if x.die0 = .over ∧ x.die1 = .over ∧ (x.woad = .over ∨ s.wdRuns = false) then s.setHalf h halfFree else s

/-! ### The dump ring (R193) -/

/-- Offset of the oldest unreleased record, or of the next write. -/
def State.ringRd (s : State) (wr : Nat) : State :=
  s.setReg IX_DUMP_RD (w32 (match s.ix.ring with | [] => wr | r :: _ => r.off))

/-- Offset at which a record of `n` bytes would be placed whole, if the ring has room for it (R193). -/
def State.ringPlace (s : State) (n : Nat) : Option Nat :=
  let len := (s.reg IX_DUMP_LEN).toNat
  let wr := (s.reg IX_DUMP_WR).toNat
  match s.ix.ring with
  | [] => if n ≤ len then some (if wr + n ≤ len then wr else 0) else none
  | r :: _ =>
    if r.off < wr then (if wr + n ≤ len then some wr else if n ≤ r.off then some 0 else none)
    else if wr + n ≤ r.off then some wr
    else none

/-- Put a record into the ring and into DRAM, under the SEQ it carries (R193, R197). -/
def State.ringPut (s : State) (off : Nat) (bytes : List Byte) : State :=
  let q := (s.reg IX_INT_SEQ).toNat
  let r : DumpRec := { seq := q, off := off, len := bytes.length, sent := 0, stream := s.flag IX_CTL IX_CTL_EXPORT_ETH }
  let s1 := s.drStore (s.reg64 IX_DUMP_BASE_LO + off) bytes
  (({ s1 with ix := { s1.ix with ring := s1.ix.ring ++ [r] } }.setReg IX_INT_SEQ (w32 (q + 1))).setReg IX_DUMP_WR (w32 (off + bytes.length))).ringRd
    (off + bytes.length)

/-- The records of a ring after the one with a SEQ; all of them where it holds none. -/
def ringAfter (seq : Nat) (rs : List DumpRec) : List DumpRec :=
  if rs.any fun r => r.seq == seq then (rs.dropWhile fun r => r.seq != seq).drop 1 else rs

/-- The ring once its oldest records, where they are released, have left it. -/
def State.ringTrim (s : State) (rs : List DumpRec) : State :=
  { s with ix := { s.ix with ring := rs.dropWhile (·.freed) } }.ringRd (s.reg IX_DUMP_WR).toNat

/-- The Ethernet export releases the one record that it has sent (R193, R296). -/
def State.ringSent (s : State) (seq : Nat) : State :=
  s.ringTrim (s.ix.ring.map fun (r : DumpRec) => if r.seq = seq then { r with freed := true } else r)

/-- Release every record up to and including the one with a SEQ; a SEQ that is no longer in the ring releases none (R193). -/
def State.ringRelease (s : State) (seq : Nat) : State :=
  s.ringTrim (ringAfter seq s.ix.ring)

end Sys2Proof.Machine
end

