-- ==== Sys2Proof/Machine/EthOps.lean ====
section
/-! DEFINITION. Building frames and handing them to a port: tags, IPv4 and UDP headers, the transmit partitions and the egress arbiter (R39, R44, R267, R274 to R277). -/

namespace Sys2Proof.Machine

/-- A port that nothing has touched since reset. -/
def portReset : PortSt :=
  { tx := [], held := [], excess := false, inTx := none, cut := none, timers := [], rx := [], ctl := [], c0q := [], c0Gap := false, turns := 0, verify := 0, speedChange := false, xoff := [] }

/-- Port `n`. -/
def State.port (s : State) (n : Nat) : PortSt := tblGet portReset s.et n

/-- Replace port `n`. -/
def State.setPort (s : State) (n : Nat) (p : PortSt) : State := { s with et := tblSet portReset s.et n p }

/-- A MAC address held in a register pair: bits [47:40] are the first byte sent (R298). -/
def State.mac (s : State) (lo : Nat) : Nat := s.reg64 lo % 2 ^ 48

/-- The priority to which a class is mapped on port `n` (R298). -/
def State.prio (s : State) (n cls : Nat) : Nat :=
  match cls with
  | 0 => s.rf (ET_P_PRIO n) ET_P_PRIO_C0
  | 1 => s.rf (ET_P_PRIO n) ET_P_PRIO_C1
  | 2 => s.rf (ET_P_PRIO n) ET_P_PRIO_C2
  | _ => s.rf (ET_P_PRIO n) ET_P_PRIO_C3

/-- Destination, source and, where the frame is tagged, the 802.1Q tag of R274. -/
def State.macHeader (s : State) (n cls dst : Nat) (tagged : Bool) : List Byte :=
  be 6 dst ++ be 6 (s.mac (ET_P_MAC_LO n)) ++
    (if tagged then be 2 0x8100 ++ be 2 (s.prio n cls * 8192 + s.rf (ET_P_PRIO n) ET_P_PRIO_VID) else [])

/-- The UDP checksum over the pseudo header, the UDP header and the payload; a result of 0 is sent as 0xFFFF (R223, RFC 768). -/
def udpSum (sip dip sport dport : Nat) (payload : List Byte) : Nat :=
  let ulen := 8 + payload.length
  let c := 65535 - onesSum (be 4 sip ++ be 4 dip ++ be 2 17 ++ be 2 ulen ++ be 2 sport ++ be 2 dport ++ be 2 ulen ++ be 2 0 ++ payload) 0
  if c = 0 then 0xFFFF else c

/-- An IPv4 header of five words and a UDP header around a payload (R223, R296, RFC 791, RFC 768). -/
def udpPacket (ident sip dip sport dport : Nat) (payload : List Byte) : List Byte :=
  let ulen := 8 + payload.length
  let h1 := be 1 0x45 ++ be 1 Config.ipTos ++ be 2 (20 + ulen) ++ be 2 ident ++ be 2 0 ++ be 1 Config.ipTtl ++ be 1 17
  let h2 := be 4 sip ++ be 4 dip
  h1 ++ be 2 (65535 - onesSum (h1 ++ h2) 0) ++ h2 ++ be 2 sport ++ be 2 dport ++ be 2 ulen ++
    be 2 (udpSum sip dip sport dport payload) ++ payload

/-- A tagged UDP frame from port `n` (R274, R296). -/
def State.udpFrame (s : State) (n cls dst dip sport dport : Nat) (payload : List Byte) : TxFrame :=
  { cls := cls, c0Message := false
    bytes := s.macHeader n cls dst true ++ be 2 0x0800 ++
      udpPacket (Config.ipIdent s.free) (s.reg (ET_P_IP n)).toNat dip sport dport payload }

/-- Frame length of R268, the FCS and the padding of R267 counted. -/
def TxFrame.len (f : TxFrame) : Nat := max 64 (f.bytes.length + 4)

/-- A frame as it leaves: padded with zeros to 60 bytes, and its FCS, the lowest bit of each byte's first coefficient first (R267). -/
def TxFrame.wire (f : TxFrame) : List Byte :=
  let b := f.bytes ++ be (60 - f.bytes.length) 0
  b ++ le 4 (crc32 b)

/-- Size of a class's transmit partition (R275). -/
def txPart : Nat → Nat
  | 0 => 65536
  | 1 => 3145728
  | 2 => 524288
  | _ => 458752

/-- Size of a class's receive partition (R275). -/
def rxPart : Nat → Nat
  | 0 => 262144
  | 1 => 6291456
  | 2 => 1048576
  | _ => 786432

/-- Bytes of a class waiting in a port's transmit buffer. -/
def PortSt.txFill (p : PortSt) (cls : Nat) : Nat := ((p.tx.filter fun f => f.cls == cls).map TxFrame.len).sum

/-- Bytes of a class held in a port's receive buffer. -/
def PortSt.rxFill (p : PortSt) (cls : Nat) : Nat := ((p.rx.filter fun f => f.cls == cls).map RxFrame.len).sum

/-- Whether the partner pauses the priority of a class on port `n` (R279). -/
def State.paused (s : State) (n cls : Nat) : Bool := s.rfb (ET_P_STAT n) ET_P_STAT_PAUSED (s.prio n cls)

/-- The oldest queued frame of a class. -/
def PortSt.headOf (p : PortSt) (cls : Nat) : Option TxFrame := p.tx.find? fun f => f.cls == cls

/-- The oldest frame of a class that may start now: its priority is not paused. -/
def State.ready (s : State) (n cls : Nat) : Option TxFrame := if s.paused n cls then none else (s.port n).headOf cls

/-- The frame that C2's turn takes: while C1 runs above its admitted rate its frames wait with those of C2, in the order of queueing, a resend behind every first send (R39, R293, R295). -/
def State.readyC2 (s : State) (n : Nat) : Option TxFrame :=
  let p := s.port n
  if !p.excess then s.ready n 2
  else
    let l := p.tx.filter fun f => (f.cls == 1 || f.cls == 2) && !s.paused n f.cls
    (l.find? fun f => !f.resend || !l.any fun g => g.cls == 1 && !g.resend)

/-- The service class and the frame that the egress arbiter serves next: PFC frames, then C0, then C1 within its admitted rate, then C2 and C3 in the ratio 3 : 1, either taking the whole when the other waits for nothing (R39, R281). DESIGN CHOICE (notes/assumptions/94): the ratio counts whole frames. -/
def State.nextFrame (s : State) (n : Nat) : Option (Nat × TxFrame) :=
  let p := s.port n
  let c1 := if p.excess then none else s.ready n 1
  let c3 := s.ready n 3
  let c2 := (s.readyC2 n).filter fun _ => c3.isNone || decide (p.turns < 3)
  let as := fun (c : Nat) (f : Option TxFrame) => f.map fun x => (c, x)
  (as 4 (p.headOf 4)).or ((as 0 (s.ready n 0)).or ((as 1 c1).or ((as 2 c2).or (as 3 c3))))

/-- The turns counter after a frame of a class starts (R39). -/
def nextTurns (t : Nat) : Nat → Nat
  | 2 => min 3 (t + 1)
  | 3 => 0
  | _ => t

/-- Whether a class's partition has no room for a frame (R275). -/
def PortSt.full (p : PortSt) (f : TxFrame) : Bool := decide (txPart f.cls < p.txFill f.cls + f.len)

/-- A held producer's frame enters its partition once there is room and no older frame of its class is held (R41). -/
def PortSt.enter (p : PortSt) (f : TxFrame) : PortSt :=
  if p.full f || p.held.any fun g => g.cls == f.cls then { p with held := p.held ++ [f] } else { p with tx := p.tx ++ [f] }

/-- Held frames enter the room that a frame leaves. -/
def PortSt.enterHeld (p : PortSt) : PortSt := p.held.foldl PortSt.enter { p with held := [] }

/-- Start a frame that the arbiter serves in a class. -/
def PortSt.start (p : PortSt) (c : Nat) (f : TxFrame) : PortSt :=
  { p with tx := p.tx.erase f, inTx := some f, turns := nextTurns p.turns c }.enterHeld

/-- The fixed timestamp corrections of R319 in units of 0.1 ns: transmit and receive, by SPEED. -/
def ptpCorr (speed : Nat) : Int × Int := if speed = 0 then (432, -968) else (544, -1192)

/-- The time in ns, less any fraction, at the pins of port `n` of a message that its MAC saw at the PTP clock `ptp`, on transmission or reception (R319, R320). -/
def State.pinTimeAt (s : State) (n : Nat) (tx : Bool) (ptp : Nat) : Int :=
  let c := ptpCorr (s.rf (ET_P_CTL n) ET_P_CTL_SPEED)
  ((ptp : Int) + (if tx then c.1 else c.2) * 10 ^ 8) / 10 ^ 9

/-- That time of a message now. -/
def State.pinTime (s : State) (n : Nat) (tx : Bool) : Int := s.pinTimeAt n tx s.tm.ptp

/-! ### PTP messages (R318, IEEE 1588-2019) -/

/-- The PTP message in a received frame (R273). -/
def ptpBody (f : RxFrame) : List Byte := if f.etype = 0x88F7 then f.body else f.body.drop 28

/-- A received frame carries a PTP message. -/
def isPtp (f : RxFrame) : Bool := f.etype == 0x88F7 || (f.etype == 0x0800 && f.cls == 0)

/-- messageType, and the fields of the common header: domainNumber, twoStepFlag, correctionField in ns, sourcePortIdentity and sequenceId. -/
def ptpType (b : List Byte) : Nat := beAt b 0 1 % 16
def ptpDomNum (b : List Byte) : Nat := beAt b 4 1
def ptpTwoStep (b : List Byte) : Bool := bit (beAt b 6 1) 1
def ptpCorrection (b : List Byte) : Int := sext 64 (beAt b 8 8) / 65536
def ptpSource (b : List Byte) : Nat := beAt b 20 10
def ptpSeq (b : List Byte) : Nat := beAt b 30 2

/-- Record an event timestamp of port `n`: the 64 newest are kept (R325). -/
def State.stampPtp (s : State) (n : Nat) (x : PtpTs) : State :=
  { s with tm := { s.tm with ts := tblUpd [] s.tm.ts n fun l => (x :: l).take 64 } }

/-- The MAC stamps a received PTP event message: of messageType 0 to 3 (R319, IEEE 1588-2019). -/
def State.stampRx (s : State) (n : Nat) (f : RxFrame) : State :=
  if isPtp f && decide (ptpType (ptpBody f) < 4) then
    s.stampPtp n { tx := false, kind := ptpType (ptpBody f), dom := ptpDomNum (ptpBody f), seq := ptpSeq (ptpBody f), ts := toBits 32 (s.pinTimeAt n false f.ptp) }
  else s

/-- A PTP domain without a master. -/
def ptpDom0 : PtpDom :=
  { foreign := [], master := none, syncSeq := 0, t2 := 0, corr := 0, t1 := none, synced := false, reqSeq := 0, t3 := none, offs := 0, done := false, asym := 0 }

/-- Domain A (0) or B (1). -/
def State.ptpDomain (s : State) (d : Nat) : PtpDom := tblGet ptpDom0 s.tm.dom d

/-- Replace a domain. -/
def State.setDom (s : State) (d : Nat) (x : PtpDom) : State := { s with tm := { s.tm with dom := tblSet ptpDom0 s.tm.dom d x } }

/-- A PTP event message starts: it is timestamped, and a Delay_Req's time is kept for its domain (R319). -/
def State.stampTx (s : State) (n : Nat) (f : TxFrame) : State :=
  match f.ptp with
  | none => s
  | some (kind, d, seq) =>
    let t := s.pinTime n true
    let s1 := s.stampPtp n { tx := true, kind := kind, dom := s.rf TM_PTP_CTL (if d = 0 then TM_PTP_CTL_DOMA else TM_PTP_CTL_DOMB), seq := seq, ts := toBits 32 t }
    s1.setDom d { s1.ptpDomain d with t3 := some t }

/-- Start a frame that the arbiter serves in a class, with `cut` the preemptable frame that waits behind it. -/
def State.txBegin (s : State) (n c : Nat) (f : TxFrame) (cut : Option TxFrame) : State :=
  (s.setPort n { (s.port n).start c f with cut := cut }).stampTx n f

/-- Start the next frame of port `n` when the link is up (R267): nothing is in transmission, or an express frame interrupts a preemptable one where preemption is verified (R282). -/
def State.txStart (s : State) (n : Nat) : State :=
  let p := s.port n
  if !s.flag (ET_P_STAT n) ET_P_STAT_LINK then s
  else
    match p.inTx, p.cut, s.ready n 0 with
    | some f, none, some g =>
      if s.flag (ET_P_STAT n) ET_P_STAT_PREEMPT_OK && decide (1 ≤ f.cls) && decide (f.cls ≤ 3) then
        (s.txBegin n 0 g (some f)).bump (ET_P_TX_PREEMPT n)
      else s
    | some _, _, _ => s
    | none, some f, some g => s.txBegin n 0 g (some f)
    | none, some f, none => s.setPort n { p with inTx := some f, cut := none }
    | none, none, _ =>
      match s.nextFrame n with
      | none => s
      | some (c, f) => s.txBegin n c f none

/-- Put a frame into its partition on port `n`, and start it where the port is free (R275). -/
def State.txPut (s : State) (n : Nat) (f : TxFrame) : State :=
  (s.setPort n { s.port n with tx := (s.port n).tx ++ [f] }).txStart n

/-- Whether a class's transmit partition of port `n` has no room for a frame (R277). -/
def State.txFull (s : State) (n : Nat) (f : TxFrame) : Bool := (s.port n).full f

/-- Put a C0 frame into the queue of 64; a full queue drops the new one and counts it (R44). -/
def State.c0Wait (s : State) (n : Nat) (f : TxFrame) : State :=
  let p := s.port n
  if p.c0q.length < 64 then s.setPort n { p with c0q := p.c0q ++ [f], c0Gap := true } else s.bump (ET_P_C0_OVERFLOW n)

/-- Queue a frame on port `n` in the order of its class. Where its partition is full, a C0 frame follows R44 and the producer of a C2 or C3 frame is held (R275, R277); the callers of C1 frames test their own case. -/
def State.txQueue (s : State) (n : Nat) (f : TxFrame) : State :=
  if f.cls == 0 && s.txFull n f then s.c0Wait n f
  else if f.cls == 2 || f.cls == 3 then (s.setPort n ((s.port n).enter f)).txStart n
  else s.txPut n f

/-- Queue a C1 beam packet; a full partition discards it (R277). -/
def State.txBeam (s : State) (n : Nat) (f : TxFrame) : State :=
  if s.txFull n f then ((s.bump (ET_P_TX_DISC_C1 n)).seen (ET_P_STAT n) ET_P_STAT_DROP_SEEN evEthernet) else s.txQueue n f

/-- Queue a C1 NAK or GONE frame; a full partition drops it (R277). -/
def State.txNak (s : State) (n : Nat) (f : TxFrame) : State :=
  if s.txFull n f then s.seen (ET_P_STAT n) ET_P_STAT_DROP_SEEN evEthernet else s.txQueue n f

/-- Offer a C0 trigger message to port `n` (R44): sent at once when 1 µs has passed since the last and the partition has room, else queued. -/
def State.c0Offer (s : State) (n : Nat) (f : TxFrame) : State :=
  let p := s.port n
  if !p.c0Gap && p.c0q.isEmpty && !s.txFull n f then (s.setPort n { p with c0Gap := true }).txPut n f else s.c0Wait n f

end Sys2Proof.Machine
end

