-- ==== Sys2Proof/Machine/Opcodes.lean ====
section
/-! DEFINITION. The opcodes of R414: which are queries, which are scheduled only with which alignment, lead and rank, and which life-cycle states permit them (R56, R502). -/

namespace Sys2Proof.Machine

/-- How a scheduled command is queued: integration-aligned or spectrum-aligned, its minimum lead in units of 0.1 µs, and its place in the table of R56 (R58, R59). -/
structure SchedInfo where
  alignI : Bool
  lead : Nat
  rank : Nat
  deriving DecidableEq, Repr

/-- An opcode of R414. No opcode has both a scheduled and an unscheduled form. -/
structure OpInfo where
  op : Nat
  query : Bool
  sched : Option SchedInfo
  deriving DecidableEq, Repr

def opsSystem : List OpInfo :=
  [⟨0x0101, true, none⟩, ⟨0x0102, false, none⟩, ⟨0x0103, false, none⟩, ⟨0x0104, false, none⟩, ⟨0x0105, false, none⟩,
   ⟨0x0D01, true, none⟩, ⟨0x0D02, false, none⟩, ⟨0x0D03, false, none⟩, ⟨0x0D04, false, some ⟨true, 2000000, 2⟩⟩, ⟨0x0D05, true, none⟩]

def opsLanes : List OpInfo :=
  [⟨0x0201, false, none⟩, ⟨0x0202, false, none⟩, ⟨0x0203, false, none⟩, ⟨0x0204, true, none⟩, ⟨0x0205, false, none⟩, ⟨0x0206, false, none⟩]

def opsMadder : List OpInfo :=
  [⟨0x0301, false, none⟩, ⟨0x0302, false, some ⟨true, 500000, 4⟩⟩, ⟨0x0303, true, none⟩, ⟨0x0304, false, none⟩, ⟨0x0305, true, none⟩,
   ⟨0x0306, false, none⟩, ⟨0x0310, false, some ⟨false, 1000, 8⟩⟩, ⟨0x0311, false, none⟩, ⟨0x0312, false, some ⟨true, 10000, 5⟩⟩,
   ⟨0x0313, false, none⟩, ⟨0x0314, false, none⟩, ⟨0x0315, false, some ⟨true, 10000, 5⟩⟩, ⟨0x0316, true, none⟩]

def opsCorrelator : List OpInfo :=
  [⟨0x0401, false, some ⟨true, 100000, 6⟩⟩, ⟨0x0402, true, none⟩, ⟨0x0403, false, some ⟨true, 10000, 7⟩⟩, ⟨0x0404, true, none⟩,
   ⟨0x0405, false, none⟩, ⟨0x0406, true, none⟩, ⟨0x0407, false, none⟩]

def opsBeams : List OpInfo :=
  [⟨0x0501, false, none⟩, ⟨0x0502, false, some ⟨false, 10000, 9⟩⟩, ⟨0x0503, false, some ⟨false, 10000, 9⟩⟩, ⟨0x0504, true, none⟩,
   ⟨0x0505, true, none⟩, ⟨0x0506, false, none⟩, ⟨0x0507, false, none⟩]

def opsTrigger : List OpInfo :=
  [⟨0x0601, false, some ⟨false, 1000, 10⟩⟩, ⟨0x0602, false, none⟩, ⟨0x0603, true, none⟩, ⟨0x0604, false, some ⟨false, 100, 11⟩⟩,
   ⟨0x0605, false, none⟩, ⟨0x0606, true, none⟩]

def opsNetwork : List OpInfo :=
  [⟨0x0701, false, none⟩, ⟨0x0702, false, none⟩, ⟨0x0703, false, some ⟨true, 100000, 3⟩⟩, ⟨0x0704, true, none⟩, ⟨0x0705, true, none⟩,
   ⟨0x0706, false, none⟩, ⟨0x0707, false, none⟩]

def opsTiming : List OpInfo :=
  [⟨0x0801, false, none⟩, ⟨0x0802, false, none⟩, ⟨0x0803, false, none⟩, ⟨0x0804, false, none⟩, ⟨0x0805, false, none⟩,
   ⟨0x0806, false, some ⟨false, 10000, 12⟩⟩, ⟨0x0807, false, none⟩, ⟨0x0808, false, some ⟨false, 10000, 12⟩⟩, ⟨0x0809, true, none⟩, ⟨0x080A, true, none⟩]

def opsMemory : List OpInfo :=
  [⟨0x0901, true, none⟩, ⟨0x0902, false, none⟩, ⟨0x0903, false, none⟩, ⟨0x0904, false, none⟩, ⟨0x0905, false, none⟩,
   ⟨0x0910, false, none⟩, ⟨0x0911, false, none⟩, ⟨0x0912, false, none⟩, ⟨0x0913, true, none⟩]

def opsPair : List OpInfo :=
  [⟨0x0A01, true, none⟩, ⟨0x0A02, false, none⟩, ⟨0x0A03, false, none⟩, ⟨0x0A04, false, none⟩, ⟨0x0A05, false, some ⟨false, 100000, 0⟩⟩,
   ⟨0x0A06, false, none⟩, ⟨0x0A07, false, none⟩, ⟨0x0A08, true, none⟩, ⟨0x0A09, false, none⟩]

def opsPower : List OpInfo :=
  [⟨0x0B01, true, none⟩, ⟨0x0B02, true, none⟩, ⟨0x0B03, false, none⟩, ⟨0x0B04, false, none⟩, ⟨0x0B05, true, none⟩, ⟨0x0B06, true, none⟩]

def opsSecurity : List OpInfo :=
  [⟨0x0C01, true, none⟩, ⟨0x0C02, true, none⟩, ⟨0x0C03, false, none⟩, ⟨0x0C04, false, none⟩, ⟨0x0C05, false, none⟩, ⟨0x0C06, false, none⟩,
   ⟨0x0C07, true, none⟩, ⟨0x0C10, false, none⟩, ⟨0x0C11, false, some ⟨true, 5000000, 1⟩⟩, ⟨0x0C12, false, none⟩, ⟨0x0C13, true, none⟩]

/-- Every opcode of R414. -/
def opcodes : List OpInfo :=
  opsSystem ++ opsLanes ++ opsMadder ++ opsCorrelator ++ opsBeams ++ opsTrigger ++ opsNetwork ++ opsTiming ++ opsMemory ++ opsPair ++
    opsPower ++ opsSecurity

/-- The opcode's entry; none for an unknown opcode (check 6 of R401). -/
def opInfo (op : Nat) : Option OpInfo := opcodes.find? fun i => i.op == op

/-- Opcode of ML_RELAY, whose query form follows the packet it carries (R459). -/
def opRelay : Nat := 0x0A07

/-- The opcode of the packet that an ML_RELAY payload carries (R398, R459). -/
def relayedOp (c : Cmd) : Nat := bits (c.payload.getD 1 0).toNat 31 16

/-- Whether a command is a query (R414, R459). -/
def isQuery (op : Nat) (c : Cmd) : Bool :=
  match opInfo (if op = opRelay then relayedOp c else op) with
  | some i => i.query
  | none => false

/-- The scheduling of an opcode; none when it is not scheduled. -/
def schedInfo (op : Nat) : Option SchedInfo := (opInfo op).bind (·.sched)

/-- Life-cycle states (R502). -/
def lcBlank : Nat := 0
def lcProvisioned : Nat := 1
def lcDeployed : Nat := 2
def lcMaintenance : Nat := 3
def lcDecommissioned : Nat := 4

/-- Check 8 of R401: the life-cycle state permits the opcode (R502). -/
def lcPermits (st op : Nat) : Bool :=
  if op = 0x0101 ∨ op = 0x0C01 ∨ op = 0x0B05 then true
  else if op = 0x0902 then st == lcBlank || st == lcMaintenance
  else if op = 0x0903 then st == lcBlank || st == lcProvisioned || st == lcMaintenance
  else if op = 0x0301 ∨ op = 0x0D03 ∨ op = 0x0C07 ∨ op = 0x0C02 ∨ op = 0x0C03 then st == lcProvisioned || st == lcDeployed || st == lcMaintenance
  else if op = 0x0C04 then st == lcBlank
  else if op = 0x0C06 then st == lcMaintenance
  else st != lcDecommissioned

end Sys2Proof.Machine
end

