-- ==== Sys2Proof/Machine/Pelusk.lean ====
section
/-! DEFINITION. The Pelusk protocol: packets, replies, the acceptance checks of R401, the reply cache, the command queue and the scheduler's queue. -/

namespace Sys2Proof.Machine

/-! ### Status codes (R402) -/

def stOk : Nat := 0x00
def stScheduled : Nat := 0x01
def stInProgress : Nat := 0x02
def stUnknownOpcode : Nat := 0x10
def stBadLength : Nat := 0x11
def stBadParam : Nat := 0x12
def stBadCrc : Nat := 0x13
def stDuplicate : Nat := 0x14
def stBudget : Nat := 0x20
def stResourceBusy : Nat := 0x21
def stWrongState : Nat := 0x22
def stNotPermitted : Nat := 0x23
def stTimePast : Nat := 0x24
def stSignature : Nat := 0x30
def stInternal : Nat := 0x40
def stBusy : Nat := 0x41

/-! ### Payload words -/

/-- Payload word W_i of a command. -/
def Cmd.w (c : Cmd) (i : Nat) : Word := c.payload.getD i 0

/-- Bits `hi` to `lo` of payload word W_i. -/
def Cmd.f (c : Cmd) (i hi lo : Nat) : Nat := bits (c.w i).toNat hi lo

/-- The 64-bit quantity in payload words W_i and W_(i+1), bits [63:32] first (R398). -/
def Cmd.q (c : Cmd) (i : Nat) : Nat := (c.w i).toNat * 2 ^ 32 + (c.w (i + 1)).toNat

/-- The array time of a scheduled command (R398). -/
def Cmd.time (c : Cmd) : Nat := c.q 0

/-- The pair image in payload words W_i (_LO) and W_(i+1) (_HI) (R398). -/
def Cmd.pair (c : Cmd) (i : Nat) : Nat := (c.w i).toNat + (c.w (i + 1)).toNat * 2 ^ 32

/-! ### Packets (R398) -/

/-- The 16 header bytes and payload of a packet, closed by its CRC-32C. -/
def packet (flags op len : Nat) (seq source : Word) (payload : List Word) : List Byte :=
  let h := be 2 0x504C ++ be 1 1 ++ be 1 flags ++ be 2 op ++ be 2 len ++ be 4 seq.toNat ++ be 4 source.toNat ++ wordsBE payload
  h ++ be 4 (crc32c h)

/-- Flags of a reply: flag [0] set, [3:1] copied from the command (R399), [7:4] as a BAD_CRC reply keeps them (R401). -/
def Reply.flags (r : Reply) : Nat := 1 + 2 * b2n r.ack + 4 * b2n r.scheduled + 8 * b2n r.relayed + 16 * r.extra

/-- The status word of a reply (R399). -/
def Reply.statusWord (r : Reply) : Word := w32 (r.status * 2 ^ 24 + r.kind * 2 ^ 22 + r.word)

/-- The packet of a reply (R399). -/
def Reply.bytes (r : Reply) : List Byte :=
  packet r.flags r.op (1 + r.words.length) r.seq r.source (r.statusWord :: r.words)

/-- A reply to a command (R399). -/
def replyTo (op : Nat) (c : Cmd) (status kind word : Nat) (words : List Word) : Reply :=
  { op := op, source := c.source, seq := c.seq, ack := c.ack, scheduled := c.scheduled, relayed := c.relayed
    status := status, kind := kind, word := word, words := words }

/-! ### Slots, rings and where replies go (R394 to R396, R400) -/

/-- BAR0 offsets of request slot k, reply slot k and the ring entries (R394, R396). -/
def requestSlot (k : Nat) : Nat := 0xA10000 + 0x2000 * k
def replySlot (k : Nat) : Nat := 0xA20000 + 0x2000 * k
def hostEntry (e : Nat) : Nat := 0xA40000 + 0x1100 * e
def mgmtEntry (e : Nat) : Nat := 0xA52000 + 0x1100 * e

/-- The most bytes a slot's packet holds (R394). -/
def slotBytes : Nat := 4116

/-- Write bytes into the mailbox buffers. -/
def State.bufWrite (s : State) (off : Nat) (bs : List Byte) : State :=
  { s with cp := { s.cp with buf := tblSetRun 0 s.cp.buf off bs } }

/-- Free request slot k: the next packet's length starts from nothing written (R394). -/
def State.freeSlot (s : State) (k : Nat) : State :=
  ({ s with cp := { s.cp with reqLen := tblSet 0 s.cp.reqLen k 0 } }.setFB CP_MB_STAT CP_MB_STAT_BUSY k false)

/-- Write the reply of slot k, set REPLY[k] and signal the mailbox vector for slots 0–3 (R395, R552). -/
def State.slotReply (s : State) (k : Nat) (r : Reply) : State :=
  let s' := (s.bufWrite (replySlot k) r.bytes).setSeenB CP_MB_STAT CP_MB_STAT_REPLY k
  if k < 4 then s'.raise evMail else s'

/-- Write a notice into the host ring, or hold it when the ring is full (R396). -/
def State.hostNotice (s : State) (r : Reply) : State :=
  let wr := s.rf CP_NT_WR CP_NT_WR_H_WR
  if !s.cp.heldH.isEmpty || (wr + 1) % 16 == s.rf CP_NT_H_RD CP_NT_H_RD_RD then
    { s with cp := { s.cp with heldH := s.cp.heldH ++ [r] } }.setF CP_MB_STAT CP_MB_STAT_NOTE_HELD 1
  else ((s.bufWrite (hostEntry wr) r.bytes).setF CP_NT_WR CP_NT_WR_H_WR ((wr + 1) % 16)).raise evNotice

/-- Write a notice into the management ring, or hold it when the ring is full (R396). -/
def State.mgmtNotice (s : State) (r : Reply) : State :=
  let wr := s.rf CP_NT_WR CP_NT_WR_M_WR
  if !s.cp.heldM.isEmpty || (wr + 1) % 4 == s.rf CP_NT_M_RD CP_NT_M_RD_RD then
    { s with cp := { s.cp with heldM := s.cp.heldM ++ [r] } }.setF CP_MB_STAT CP_MB_STAT_NOTE_HELD 1
  else (s.bufWrite (mgmtEntry wr) r.bytes).setF CP_NT_WR CP_NT_WR_M_WR ((wr + 1) % 4)

/-- Send a reply as a C3 datagram to the request's source (R274, R390). -/
def State.udpReply (s : State) (n mac : Nat) (ip : Word) (port : Nat) (r : Reply) : State :=
  (s.draw).txQueue n (s.udpFrame n 3 mac ip.toNat (s.rf (ET_P_UDP n) ET_P_UDP_UDP) port r.bytes)

/-- Whether flag [1] lets a reply leave on Ethernet or on the Miltia link (R400): refusals, final replies and the replies of queries always do. -/
def Reply.leaves (r : Reply) (query : Bool) : Bool :=
  r.ack || query || r.kind == 1 || (r.kind == 0 && !(r.status == stOk || r.status == stScheduled || r.status == stInProgress))

/-- Send an immediate reply on its command's transport (R390, R400). -/
def State.sendNow (s : State) (t : Transport) (query : Bool) (r : Reply) : State :=
  match t with
  | .slot k => s.slotReply k r
  | .udp n mac ip port => if r.leaves query then s.udpReply n mac ip port r else s
  | .miltia => if r.leaves query then s.mlSend (.relayReply r.bytes) else s
  | .script => { s with cp := { s.cp with scriptReply := some r } }
  | .muted => s

/-- Send a final reply or a completion notice: mailbox commands get it in their notice ring (R396, R399). -/
def State.sendLater (s : State) (t : Transport) (r : Reply) : State :=
  match t with
  | .slot k => if k < 4 then s.hostNotice r else s.mgmtNotice r
  | .udp n mac ip port => if r.leaves false then s.udpReply n mac ip port r else s
  | .miltia => if r.leaves false then s.mlSend (.relayReply r.bytes) else s
  | .script => s
  | .muted => s

/-! ### Sequence state and the reply cache (R403, R404) -/

/-- The source's state, if the table holds it. -/
def State.source (s : State) (id : Word) : Option SourceSt := s.cp.sources.find? fun x => x.id == id

/-- Put a source's state first: it is now the most recently active (R403). -/
def State.putSource (s : State) (x : SourceSt) : State :=
  { s with cp := { s.cp with sources := x :: s.cp.sources.filter fun y => y.id != x.id } }

/-- CP_Q_STAT follows the queue, the running operations and the table (R429). -/
def State.queueSync (s : State) : State :=
  ((s.setF CP_Q_STAT CP_Q_STAT_DEPTH s.cp.queue.length).setF CP_Q_STAT CP_Q_STAT_INPROG s.cp.running.length).setF
    CP_Q_STAT CP_Q_STAT_SOURCES s.cp.sources.length

/-- Replace the cached reply of a sequence (R402, R404). -/
def cachePut (l : List CacheEntry) (seq : Word) (r : Reply) : List CacheEntry :=
  l.map fun e => if e.seq = seq then { e with reply := some r } else e

/-- Cache the latest reply to an accepted non-query command. -/
def State.cacheReply (s : State) (r : Reply) (script : Bool) : State :=
  if script then
    { s with cp := { s.cp with script := s.cp.script.map fun x => { x with cache := cachePut x.cache r.seq r } } }
  else
    { s with cp := { s.cp with sources := s.cp.sources.map fun x => if x.id = r.source then { x with cache := cachePut x.cache r.seq r } else x } }

/-- The source's state with a newly accepted sequence: L moves to it, and the cache keeps the 64 most recent (R404). -/
def acceptSeq (old : Option SourceSt) (id seq crc : Word) : SourceSt :=
  { id := id, last := seq
    cache := ((⟨seq, crc, none⟩ : CacheEntry) :: (match old with | some x => x.cache | none => [])).take 64 }

/-- The ADC_ACCESS commands whose control exchange is under way or waiting, as it stands on one octet (R101). -/
def OctSt.accesses (x : OctSt) : List QEntry :=
  (x.x.toList ++ x.todo).filterMap fun m => match m.why with | .access c => some ⟨0x0205, c⟩ | _ => none

/-- The same on every octet. -/
def State.accesses (s : State) : List QEntry := s.sl.octs.flatMap fun p => p.2.accesses

/-- Whether some command queued or running meets a condition; one whose reply waits runs (R403, R404). -/
def State.inFlight (s : State) (p : QEntry → Bool) : Bool :=
  s.cp.queue.any p || s.cp.running.any p || s.accesses.any p || s.dm.aborts.any (fun a => p a.2) || s.ml.held.any fun h => p h.2.1

/-- Whether a source has a command queued or running. -/
def State.sourceBusy (s : State) (id : Word) : Bool := s.inFlight fun q => q.cmd.source == id

/-- Room in the table of R403 for a new source: free space, or the least recently active source that is idle, which is evicted and counted. None when every source is busy. -/
def State.roomForSource (s : State) : Option State :=
  if s.cp.sources.length < 32 then some s
  else
    match s.cp.sources.reverse.find? fun x => !s.sourceBusy x.id with
    | none => none
    | some x => some ({ s with cp := { s.cp with sources := s.cp.sources.filter fun y => y.id != x.id } }.bump CP_EVICT)

/-! ### Finishing a command -/

/-- A refusal: its status, WORD and the words after the status word. -/
structure Bad where
  status : Nat
  word : Nat
  words : List Word
  deriving DecidableEq, Repr

/-- What taking a command from the queue gives: a refusal, which changes nothing, or the state it leaves, with an immediate OK, or IN_PROGRESS and a final reply to come. -/
inductive CmdRes where
  | refuse (b : Bad)
  /-- A refusal that a counter records (R410). -/
  | counted (b : Bad) (s : State)
  | ok (words : List Word) (s : State)
  | progress (words : List Word) (s : State)
  /-- SCHEDULED: the words are the handle and F (R409). -/
  | scheduled (words : List Word) (s : State)
  /-- The immediate reply waits for an event, which sends it (R389). -/
  | later (s : State)

/-- BAD_PARAM at payload word `i` when a condition holds. -/
def badIf (b : Bool) (i : Nat) : Option Bad := if b then some ⟨stBadParam, i, []⟩ else none

/-- BAD_LENGTH unless the payload holds `n` words; WORD is the first word that one of the two lengths lacks (R399, R401 check 9). -/
def needLen (n : Nat) (c : Cmd) : Option Bad :=
  if c.payload.length = n then none else some ⟨stBadLength, min n c.payload.length, []⟩

/-- BAD_LENGTH unless the payload holds between `lo` and `hi` words. -/
def needLenIn (lo hi : Nat) (c : Cmd) : Option Bad :=
  if lo ≤ c.payload.length ∧ c.payload.length ≤ hi then none
  else some ⟨stBadLength, if c.payload.length < lo then c.payload.length else hi, []⟩

/-- A refusal without WORD. -/
def bad (status : Nat) (words : List Word) : CmdRes := .refuse ⟨status, 0, words⟩

/-- The largest reply payload in bytes that a transport carries (R401 check 10): 4,116-byte packets, or the port's MAXFRAME less the tagged Ethernet, IPv4 and UDP headers and the FCS; whole words. -/
def State.replyRoom (s : State) (t : Transport) : Nat :=
  match t with
  | .udp n _ _ _ => min 4096 ((s.rf (ET_P_CTL n) ET_P_CTL_MAXFRAME - 50 - 20) / 4 * 4)
  | _ => 4096

/-- The refusal of check 10 (R401). -/
def State.tooLong (s : State) (t : Transport) : Bad := ⟨stBadLength, 0, [w32 (s.replyRoom t)]⟩

/-- The operating state of a pair refuses a command of groups 0x02–0x08 and 0x0D that is not a query on a standby (R441). -/
def State.pairRefuses (s : State) (op : Nat) (query : Bool) : Bool :=
  let g := op / 256
  s.standby && !query && ((2 ≤ g && g ≤ 8) || g == 0x0D)

/-- A SIGNATURE_INVALID refusal is counted and logged (R514, R515). -/
def State.signatureFail (s : State) (op : Nat) (c : Cmd) : State :=
  (s.bump CP_SEC_FAILS).logEvent 0x0C05 1 [w32 op, c.source]

/-- Reply to a command and cache the reply of one that is not a query; a change made by the active goes to the standby as a delta, and with SYNC_ACK its reply waits for the acknowledgement (R399, R404, R438, R440). -/
def State.answer (s : State) (op : Nat) (c : Cmd) (query : Bool) (r : Reply) (changed : Bool) : State :=
  let s1 := if query then s else s.cacheReply r (c.transport == .script)
  if changed && s1.ckptOn then
    let s2 := s1.deltaSend
    if s1.flag ML_CTL ML_CTL_SYNC_ACK && r.status != stInProgress then
      { s2 with ml := { s2.ml with held := s2.ml.held ++ [(s1.ml.nextMsg, ⟨op, c⟩, r)] } }
    else s2.sendNow c.transport query r
  else s1.sendNow c.transport query r

/-- Turn the outcome of a command into its reply and the state after it. -/
def State.finish (s : State) (op : Nat) (c : Cmd) (query : Bool) (x : CmdRes) : State :=
  match x with
  | .refuse b =>
    let s1 := if b.status = stSignature then s.signatureFail op c else s
    s1.answer op c query (replyTo op c b.status 0 b.word b.words) false
  | .counted b s' => s'.answer op c query (replyTo op c b.status 0 b.word b.words) false
  | .ok ws s' =>
    if s.replyRoom c.transport < 4 * (1 + ws.length) then
      s.answer op c query (replyTo op c stBadLength 0 0 (s.tooLong c.transport).words) false
    else s'.answer op c query (replyTo op c stOk 0 0 ws) (!query)
  | .scheduled ws s' => s'.answer op c query (replyTo op c stScheduled 0 0 ws) (!query)
  | .later s' => s'
  | .progress ws s' =>
    if 8 ≤ s.cp.running.length then s.answer op c query (replyTo op c stResourceBusy 0 0 []) false
    else ({ s' with cp := { s'.cp with running := s'.cp.running ++ [(⟨op, c⟩ : QEntry)] } }.answer op c query
      (replyTo op c stInProgress 0 0 ws) false).queueSync

/-- Whether Nieth may take this command now: it serves, and the command is at the head of the queue, or is not in the queue at all (a packet taken as it arrives, or a script's). -/
def State.takes (s : State) (op : Nat) (c : Cmd) : Bool :=
  s.on && (s.cp.serving || s.cp.recovery) &&
    (match s.cp.queue with
     | [] => true
     | q :: qs => q == (⟨op, c⟩ : QEntry) || !qs.contains (⟨op, c⟩ : QEntry))

/-- The state with the command taken from the head of the queue, if it is there (R405). -/
def State.dequeue (s : State) (op : Nat) (c : Cmd) : State :=
  match s.cp.queue with
  | [] => s
  | q :: qs => if q = (⟨op, c⟩ : QEntry) then { s with cp := { s.cp with queue := qs } }.queueSync else s

/-- Check 8 of R401, in recovery the boot ROM's list of R496. -/
def State.permits (s : State) (op : Nat) : Bool :=
  if s.cp.recovery then op == 0x0C10 || op == 0x0C13 || op == 0x0C01 || op == 0x0101
  else lcPermits s.lc.state op

/-- Checks 8 and 9, the pair's refusal and the command's own checks and effect, without the reply (R401, R441). -/
def State.judge (s : State) (op : Nat) (c : Cmd) (params : State → Option Bad) (body : State → CmdRes) : CmdRes :=
  if !s.permits op then bad stNotPermitted []
  else if c.scheduled != (schedInfo op).isSome then .refuse ⟨stBadParam, 0, []⟩
  else
    match params s with
    | some b => .refuse b
    | none => if s.pairRefuses op (isQuery op c) && (schedInfo op).isNone then bad stWrongState [] else body s

/-- Nieth takes a command from the queue: checks 8 to 11, its effect, and its reply (R401, R405). -/
def State.command (s : State) (op : Nat) (c : Cmd) (params : State → Option Bad) (body : State → CmdRes) : State :=
  if s.takes op c then
    (s.dequeue op c).finish op c (isQuery op c) ((s.dequeue op c).judge op c params body)
  else s

/-- The final reply of a running operation: it leaves the table of running operations, and the reply replaces the cached IN_PROGRESS (R402, R407). An operation that a warm reset has abandoned gives none (R424). -/
def State.final (s : State) (q : QEntry) (status : Nat) (words : List Word) : State :=
  if !s.cp.running.contains q then s
  else
    let r := replyTo q.op q.cmd status 1 0 words
    let s1 := { s with cp := { s.cp with running := s.cp.running.erase q } }.queueSync
    let s2 := s1.cacheReply r false
    if s2.ckptOn && s2.flag ML_CTL ML_CTL_SYNC_ACK then
      { s2.deltaSend with ml := { s2.deltaSend.ml with held := s2.deltaSend.ml.held ++ [(s2.ml.nextMsg, q, r)] } }
    else (if status = stOk then s2.deltaSend else s2).sendLater q.cmd.transport r

/-- The oldest running operation of an opcode. -/
def State.runningOp (s : State) (op : Nat) : Option QEntry := s.cp.running.find? fun q => q.op == op

/-- Whether an operation of an opcode runs. -/
def State.isRunning (s : State) (op : Nat) : Bool := (s.runningOp op).isSome

/-! ### Arrival: checks 1 to 7 (R401) -/

/-- Free entries a command of a transport may use: two are kept for slots 0–3, two for slot 4, 60 are shared (R407). -/
def State.queueRoom (s : State) (t : Transport) (source : Word) : Bool :=
  let isHost := fun (q : QEntry) => match q.cmd.transport with | .slot k => decide (k < 4) | _ => false
  let isMgmt := fun (q : QEntry) => match q.cmd.transport with | .slot k => decide (k = 4) | _ => false
  let h := (s.cp.queue.filter isHost).length
  let m := (s.cp.queue.filter isMgmt).length
  let o := s.cp.queue.length - h - m
  let shared := (h - 2) + (m - 2) + o
  let own := (s.cp.queue.filter fun q => q.cmd.source == source).length
  let kept := match t with | .slot k => if k < 4 then decide (h < 2) else decide (m < 2) | _ => false
  decide (own < 16) && (kept || decide (shared < 60))

/-- The BUSY reply of check 7 and of R403: not cached, counted, with a retry delay that the specification leaves open. -/
def State.busy (s : State) (op : Nat) (c : Cmd) (query : Bool) : State :=
  ((s.bump CP_BUSY).draw).sendNow c.transport query (replyTo op c stBusy 0 0 [Config.retryDelay s.free])

/-- What check 5 finds (R404). -/
inductive SeqVerdict where
  | running
  | cached (r : Reply)
  | duplicate
  | fresh
  deriving DecidableEq, Repr

/-- Check 5 for a command that is not a query, from its source's state and what that source has queued or running (R404). -/
def seqVerdict (x : Option SourceSt) (busy : Bool) (seq crc : Word) : SeqVerdict :=
  if busy then .running
  else
    match x with
    | none => .fresh
    | some y =>
      match y.cache.find? fun e => e.seq == seq with
      | some e => if e.crc = crc then (match e.reply with | some r => .cached r | none => .duplicate) else .duplicate
      | none => if 1 ≤ (seq - y.last).toNat ∧ (seq - y.last).toNat ≤ 2 ^ 31 - 1 then .fresh else .duplicate

/-- Check 7 of R401, which the boot ROM does not make in recovery (R407, R496). -/
def State.hasEntry (s : State) (t : Transport) (source : Word) : Bool := s.cp.recovery || s.queueRoom t source

/-- Check 6 and check 7 for a command that check 5 let pass: an unknown opcode is refused and cached; else the command takes a queue entry, or is answered BUSY with the source's state unchanged (R404, R407). -/
def State.enqueue (s : State) (op : Nat) (c : Cmd) : State :=
  if isQuery op c then
    if s.hasEntry c.transport c.source then
      ({ s with cp := { s.cp with queue := s.cp.queue ++ [(⟨op, c⟩ : QEntry)] } }.bump CP_CMDS).queueSync
    else s.busy op c true
  else
    match (if (s.source c.source).isSome then some s else s.roomForSource) with
    | none => s.busy op c false
    | some s1 =>
      let st := acceptSeq (s.source c.source) c.source c.seq c.crc
      if (opInfo op).isNone then
        let r := replyTo op c stUnknownOpcode 0 0 []
        (((s1.putSource st).cacheReply r false).queueSync).sendNow c.transport false r
      else if s.hasEntry c.transport c.source then
        let s2 := s1.putSource st
        ({ s2 with cp := { s2.cp with queue := s2.cp.queue ++ [(⟨op, c⟩ : QEntry)] } }.bump CP_CMDS).queueSync
      else s.busy op c false

/-- The command that a packet of a transport carries, its checks 1 to 4 apart. -/
def cmdOf (t : Transport) (bs : List Byte) (words : Nat) : Cmd :=
  { source := w32 (beAt bs 12 4), seq := w32 (beAt bs 8 4)
    ack := bit (beAt bs 3 1) 1, scheduled := bit (beAt bs 3 1) 2, relayed := bit (beAt bs 3 1) 3
    transport := t, crc := w32 (beAt bs (bs.length - 4) 4)
    payload := bytesToWordsBE (bs.drop 16) words }

/-- Check 1 of R401: at least 20 bytes, with the magic, the version and flag [0] as R398 has them. -/
def headerOk (bs : List Byte) : Bool :=
  decide (20 ≤ bs.length) && beAt bs 0 2 == 0x504C && beAt bs 2 1 == 1 && !bit (beAt bs 3 1) 0

/-- Check 2 of R401. -/
def crcOk (bs : List Byte) : Bool := crc32c (bs.take (bs.length - 4)) == beAt bs (bs.length - 4) 4

/-- Check 3 of R401. -/
def lengthOk (bs : List Byte) : Bool := decide (bs.length = 20 + 4 * beAt bs 6 2) && decide (beAt bs 6 2 ≤ 1024)

/-- WORD of BAD_LENGTH at check 3 (R399). -/
def lengthWord (bs : List Byte) : Nat := min 1024 (min (beAt bs 6 2) ((bs.length - 20) / 4))

/-- A transport of the mailbox slots. -/
def Transport.isSlot (t : Transport) : Bool := match t with | .slot _ => true | _ => false

/-- A packet arrives on a transport: checks 1 to 7 discard, refuse, replay or queue it; in recovery the boot ROM answers on the mailbox slots only (R401, R496). -/
def State.arrive (s : State) (t : Transport) (bs : List Byte) : State :=
  if s.cp.recovery && !t.isSlot then s
  else if !headerOk bs then
    let s1 := s.bump CP_DISCARDS
    match t with
    | .slot k => s1.freeSlot k
    | _ => s1
  else
    let op := beAt bs 4 2
    let c := cmdOf t bs (beAt bs 6 2)
    let query := isQuery op c
    if !crcOk bs then (s.bump CP_BADCRC).sendNow t query { replyTo op c stBadCrc 0 0 [] with extra := beAt bs 3 1 / 16 }
    else if !lengthOk bs then s.sendNow t query (replyTo op c stBadLength 0 (lengthWord bs) [])
    else if (c.relayed && t != .miltia) || c.source == 0 then s.sendNow t query (replyTo op c stBadParam 0 0 [])
    else if query then s.enqueue op c
    else
      let same := fun (q : QEntry) => q.cmd.source == c.source && q.cmd.seq == c.seq && !isQuery q.op q.cmd
      match seqVerdict (s.source c.source) (s.inFlight same) c.seq c.crc with
      | .running => s.sendNow t query (replyTo op c stInProgress 0 0 [])
      | .cached r => s.sendNow t query r
      | .duplicate => (s.bump CP_DUPS).sendNow t query (replyTo op c stDuplicate 0 0 [])
      | .fresh => s.enqueue op c

/-- A packet is checked and queued, during a hand-off too, or is held while Nieth restarts (R424, R499). -/
def State.packetIn (s : State) (t : Transport) (bs : List Byte) : State :=
  if s.cp.serving || s.cp.recovery || s.lc.handoff.isSome then s.arrive t bs
  else { s with cp := { s.cp with held := s.cp.held ++ [⟨t, bs⟩] } }

/-- The packet in request slot k (R394). -/
def State.slotPacket (s : State) (k : Nat) : List Byte :=
  tblRun 0 s.cp.buf (requestSlot k) (tblGet 0 s.cp.reqLen k)

/-- The doorbell of slot k: BUSY is set and the packet is checked (R395). -/
def State.doorbell (s : State) (k : Nat) : State :=
  (s.setFB CP_MB_STAT CP_MB_STAT_BUSY k true).packetIn (.slot k) (s.slotPacket k)

/-! ### The scheduler's queue (R409 to R413) -/

/-- Place of an event in the order of R56; unknown opcodes come last. -/
def Event.rank (e : Event) : Nat := match schedInfo e.op with | some i => i.rank | none => 13

/-- Whether event `a` fires before event `b`: earlier boundary, then the order of R56, then the order of entry, which the queue keeps (R58). -/
def Event.before (a b : Event) : Bool := decide (a.f < b.f) || (a.f == b.f && decide (a.rank < b.rank))

/-- Insert an event after every event that does not fire later than it. -/
def firingInsert (e : Event) : List Event → List Event
  | [] => [e]
  | x :: xs => if e.before x then e :: x :: xs else x :: firingInsert e xs

/-- The queue in firing order (R58). -/
def firingOrder (es : List Event) : List Event := es.foldl (fun acc e => firingInsert e acc) []

/-- Bits of other blocks that show a queued event: an activation, a polynomial swap, a calibration swap of a slice that is queued or has not reached its spectrum (R169, R233, R515). -/
def State.queuedFlags (s : State) : State :=
  let has := fun op => b2n (s.events.any fun e => e.op == op)
  let s1 := (s.setF CP_FW_STAT CP_FW_STAT_ACT_QUEUED (has 0x0C11)).setF WD_TABLE WD_TABLE_SWAP_QUEUED (has 0x0502)
  (List.range 64).foldl (fun s k =>
    s.setF (MD_CH_SL_STAT k) MD_CH_SL_STAT_SWAP_QUEUED
      (b2n (tblGet 0 s.ch.swapAt k != 0 || s.events.any fun e => e.op == 0x0312 && bit (e.cmd.q 2) k))) s1

/-- SC_STAT.COUNT, SC_NEXT and the bits of queued events follow the queue (R430). -/
def State.schedSync (s : State) : State :=
  (s.queuedFlags.setF SC_STAT SC_STAT_COUNT s.events.length).nextSync

/-- The next handle not in use, from `h` on, wrapping at 2^16; 256 events cannot use them all (R413). -/
def nextFree (es : List Event) : Nat → Nat → Nat
  | 0, h => h
  | k + 1, h => if es.any (fun e => e.handle == h) then nextFree es k ((h + 1) % 65536) else h

/-- Put an event into the queue under the next handle (R409, R413). -/
def State.queueEvent (s : State) (op t f : Nat) (alignI : Bool) (c : Cmd) : State :=
  let h := s.rf SC_STAT SC_STAT_NEXT_HANDLE
  let e : Event := { handle := h, t := t, f := f, op := op, alignI := alignI, committed := false, cmd := c }
  let s1 := { s with events := s.events ++ [e] }
  (s1.setF SC_STAT SC_STAT_NEXT_HANDLE (nextFree s1.events 257 ((h + 1) % 65536))).schedSync

/-- Remove an event from the queue. -/
def State.dropEvent (s : State) (h : Nat) : State :=
  { s with events := s.events.filter fun e => e.handle != h }.schedSync

/-- The event of a handle. -/
def State.event (s : State) (h : Nat) : Option Event := s.events.find? fun e => e.handle == h

/-- The completion notice of an event (R412). -/
def State.notice (s : State) (e : Event) (status : Nat) (words : List Word) : State :=
  s.sendLater e.cmd.transport (replyTo e.op e.cmd status 2 0 words)

/-- The 0x0D02 entry of an event discarded at its commit point or not applied (R411, R558). -/
def State.logDiscard (s : State) (e : Event) (status : Nat) : State :=
  s.logEvent 0x0D02 1 ([w32 e.handle, w32 e.op, e.cmd.seq, e.cmd.source] ++ loHi e.f ++ [w32 status])

end Sys2Proof.Machine
end

