-- ==== Sys2Proof/Machine/ChOps.lean ====
section
/-! DEFINITION. Scale epochs and calibration banks as the slices' programs and the sample lanes need them (R155, R156, R162, R164). -/

namespace Sys2Proof.Machine

/-! ### Scale epochs (R162, R164) -/

/-- The standard program, number 16 (R147). -/
def stdProgram : Nat := 16

/-- Slice k is assigned the standard program. -/
def State.runsStd (s : State) (k : Nat) : Bool := s.rf (MD_SL_CTL k) MD_SL_CTL_SLOT == stdProgram

/-- An integration runs at array time t. -/
def State.integratingAt (s : State) (t : Nat) : Bool :=
  match s.ch.bounds with
  | [] => s.integrating
  | q :: l => if q.1 ≤ t then s.integrating else (l.find? fun x => decide (x.1 ≤ t)).any (·.2)

/-- An epoch boundary that falls while no integration runs: a multiple of 2^23 (R162). -/
def State.idleBoundary (s : State) (b : Nat) : Bool := b % 8388608 == 0 && !s.integratingAt b

/-- The first epoch boundary after that of a slice's epoch which the spectrum at `st` has reached, if any: an integration boundary, or while no integration runs a multiple of 2^23 (R162). -/
def State.epochDue (s : State) (k st : Nat) : Option Nat :=
  let e := tblGet 0 s.ch.epoch k
  let idle := cdiv e 8388608 * 8388608
  let bs := (idle :: s.ch.bounds.map (·.1)).filter fun b => decide (e ≤ b) && decide (b ≤ st) && (s.ch.bounds.any (·.1 == b) || s.idleBoundary b)
  match bs with
  | [] => none
  | b :: l => some (l.foldl min b)

/-- The last epoch boundary that the spectrum at `st` has reached: of the integrations, or while none runs a multiple of 2^23 (R162). -/
def State.lastBoundary (s : State) (st : Nat) : Nat :=
  let bs := (s.ch.bounds.map (·.1)).filter fun b => decide (b ≤ st)
  bs.foldl max (if bs.isEmpty || s.idleBoundary (st / 8388608 * 8388608) then st / 8388608 * 8388608 else 0)

/-- A slice begins an epoch at `b` with every path seeded (R164). -/
def State.seedSlice (s : State) (k b : Nat) : State :=
  let s1 := { s with ch := { s.ch with epoch := tblSet 0 s.ch.epoch k (b + 1) } }
  let s2 := (List.range 8).foldl (fun s j =>
    s.setScale (pathOf k j) { scaleReset with seeded := true, closing := (s.scale (pathOf k j)).closing }) s1
  ((s2.setF (MD_CH_SL_STAT k) MD_CH_SL_STAT_SEEDED 255).bumpBy (MD_CH_SL_SEEDS k) counter32 8).setReg64 MD_CH_EPOCH_LO b

/-- The standard program starts on slice k with the spectrum at `st`: where it has no epoch in progress, or boundaries have fallen since that began, it takes the epoch of the last boundary, which may have fallen before the slice, or array time, started (R162, R164). DESIGN CHOICE: no record goes out of an epoch that a stopped slice did not reach the end of. -/
def State.epochStart (s : State) (k st : Nat) : State :=
  if tblGet 0 s.ch.epoch k ≤ s.lastBoundary st then s.seedSlice k (s.lastBoundary st) else s

/-- The four halfwords of Y memory that hold a group's scale state (R155). -/
def ScaleSt.halves (x : ScaleSt) (g : Nat) : List Nat := (List.range 4).map fun i => Config.scaleHalf (tblGet 0 x.sums g) (tblGet 0 x.exps g) i % 65536

/-- Another program takes the slice over from the standard one: Y memory holds the scale state as that left it (R141, R155). -/
def State.scaleSpill (s : State) (k : Nat) : State :=
  s.setSlice k { s.slice k with y := tblSetRun 0 (s.slice k).y 196608 ((List.range 2048).flatMap fun q => (s.scale (pathOf k (q / 256))).halves (q % 256)) }

/-- A path's scale state with a group's sum and exponent as Y memory holds them. -/
def ScaleSt.fromY (x : ScaleSt) (y : Tbl Nat) (j g : Nat) : ScaleSt :=
  let hs := tblRun 0 y (196608 + 4 * (256 * j + g)) 4
  if hs = x.halves g then x else { x with sums := tblSet 0 x.sums g (Config.scaleOf hs).1, exps := tblSet 0 x.exps g ((Config.scaleOf hs).2 % 16) }

/-- The standard program takes the slice over from another one, and goes on with the scale state that Y memory holds (R141, R155). -/
def State.scaleFill (s : State) (k : Nat) : State :=
  (List.range 8).foldl (fun s j => s.setScale (pathOf k j) ((List.range 256).foldl (fun x g => x.fromY (s.slice k).y j g) (s.scale (pathOf k j)))) s

/-- The scale state of a slice's paths is lost, but for the records that have gone out (R141, R155). -/
def State.scaleLost (s : State) (k : Nat) : State :=
  let s1 := { s with ch := { s.ch with epoch := tblSet 0 s.ch.epoch k 0 } }
  ((List.range 8).foldl (fun s j => s.setScale (pathOf k j) { scaleReset with closing := (s.scale (pathOf k j)).closing }) s1).setF
    (MD_CH_SL_STAT k) MD_CH_SL_STAT_SEEDED 0

/-! ### Program swaps (R142) -/

/-- The program that slice k takes when it starts with the spectrum at `st`: its own, or that of the last swap that has fired at or before it (R137, R142). -/
def State.programAt (s : State) (k st : Nat) : Nat :=
  match ((s.slice k).swap.filter fun q => decide (q.1 ≤ st)).getLast? with
  | some q => q.2
  | none => s.rf (MD_SL_CTL k) MD_SL_CTL_SLOT

/-- A stopped slice has reached the spectrum at `st`: it is assigned the program of the last swap that applies from there or from before (R142). -/
def State.swapReached (s : State) (k st : Nat) : State :=
  let m := s.slice k
  (s.setSlice k { m with swap := m.swap.filter fun q => decide (st < q.1) }).setF (MD_SL_CTL k) MD_SL_CTL_SLOT (s.programAt k st)

/-! ### Calibration banks (R156) -/

/-- The loading bank of a slice becomes active, and the copy of it into the other starts (R156). -/
def State.calSwitch (s : State) (k : Nat) : State :=
  let s1 := { s with ch := { s.ch with swapAt := tblSet 0 s.ch.swapAt k 0 } }
  ((s1.setF (MD_CH_SL_STAT k) MD_CH_SL_STAT_BANK (1 - s.rf (MD_CH_SL_STAT k) MD_CH_SL_STAT_BANK)).setF (MD_CH_SL_STAT k)
    MD_CH_SL_STAT_COPYING 1).schedSync

/-- A calibration swap that has fired applies from the slice's spectrum at `st`; with no integration running, the paths it seeds are seeded from that spectrum on (R156, R164). -/
def State.calSwap (s : State) (k st : Nat) : State :=
  let b := tblGet 0 s.ch.swapAt k
  if b ≠ 0 ∧ b ≤ st + 1 then
    if s.integrating || !s.runsStd k then s.calSwitch k
    else (List.range 8).foldl (fun s j => if (s.scale (pathOf k j)).seedNext then s.seedNow (pathOf k j) else s) (s.calSwitch k)
  else s

end Sys2Proof.Machine
end

