-- ==== Sys2Proof/Machine/Glb.lean ====
section
/-! DEFINITION. The global and interrupt registers, and the reads of register pairs (R20, R551 to R555). -/

namespace Sys2Proof.Machine

/-- A meaning that acts only while the device is powered, and otherwise leaves the state as it is. -/
def whenOn (s : State) (f : State → State) : Host.Outcome State Fault Refusal := .next (if s.on then f s else s)

/-- AV_LOG_REPEAT: a second has passed since the last 0x0101 entry, and violations came since (R551). -/
def execAvLogRepeat (s : State) : Host.Outcome State Fault Refusal :=
  whenOn s fun s => if s.cp.avSince then s.logViolation else s

/-- The registers that record a violation. -/
def avRegs : List Nat := [GLB_AV_STAT, GLB_AV_ADDR_LO, GLB_AV_ADDR_HI, GLB_AV_DATA]

/-- Clear GLB_AV_COUNT and GLB_AV_STAT.VALID; a violation of the same cycle counts, and is the one recorded, with its log entry (R15, R551). -/
def State.avClear (s : State) : State :=
  let s1 := { s with cp := { s.cp with avSince := decide (2 ≤ (s.freshAt GLB_AV_COUNT).toNat) } }.clearCounters [GLB_AV_COUNT]
  if s.freshAt GLB_AV_STAT = 0 then s1.setF GLB_AV_STAT GLB_AV_STAT_VALID 0
  else if avRegs.all fun o => s.reg o == s.freshAt o then s1
  else (avRegs.foldl (fun t o => t.setReg o (s.freshAt o)) s1).logViolation

/-- GLB_CNT_CLR.AV (R551). -/
def execGlbCntClrAv (s : State) : Host.Outcome State Fault Refusal := whenOn s State.avClear

/-- EV_INT_STAT: writing 1 clears a bit (R14, R554). -/
def execEvIntStatClear (v : Word) (s : State) : Host.Outcome State Fault Refusal :=
  whenOn s fun s => s.clearOnes EV_INT_STAT (v ||| 0xFFFF0000)

/-- Signal vector 32 + i for every bit i that the write enables and whose status bit is set (R554). -/
def enableSignals (s : State) (rise : Nat) (is : List Nat) : State :=
  is.foldl (fun s i => if bit rise i && s.rfb EV_INT_STAT EV_INT_STAT_PEND i then s.signal (32 + i) else s) s

/-- EV_INT_EN: a bit that goes from 0 to 1 while its status bit is set signals its vector; a bit that already reads 1 signals nothing (R554). -/
def execEvIntEnWrite (v : Word) (s : State) : Host.Outcome State Fault Refusal :=
  whenOn s fun s =>
    enableSignals (s.setReg EV_INT_EN (v &&& 0xFFFF)) (v &&& ~~~s.reg EV_INT_EN).toNat (List.range 16)

/-- EV_MD_EXC0 and EV_MD_EXC1: writing 1 clears a slice's bit (R555). -/
def execEvMdExcClear (q : Nat) (v : Word) (s : State) : Host.Outcome State Fault Refusal :=
  whenOn s fun s =>
    match q with
    | 0 => s.clearOnes EV_MD_EXC0 v
    | 1 => s.clearOnes EV_MD_EXC1 v
    | _ => s

/-- EV_MD_EVT0 and EV_MD_EVT1: writing 1 clears a slice's bit (R555). -/
def execEvMdEvtClear (q : Nat) (v : Word) (s : State) : Host.Outcome State Fault Refusal :=
  whenOn s fun s =>
    match q with
    | 0 => s.clearOnes EV_MD_EVT0 v
    | 1 => s.clearOnes EV_MD_EVT1 v
    | _ => s

/-- Unmask a vector: a message held in the pending-bit array is sent, and its bit clears (R554). -/
def State.unmask (s : State) (v : Nat) : State :=
  let s1 := s.setF (msixCtl v) msixMask 0
  if s.flag (msixPba v) ⟨v % 32, 1⟩ then (s1.setF (msixPba v) ⟨v % 32, 1⟩ 0).emit (.msix v) else s1

/-- MSIX_UNMASK (R554). -/
def execMsixUnmask (v : Nat) (s : State) : Host.Outcome State Fault Refusal :=
  whenOn s fun s => if v < 128 then s.unmask v else s

/-- Latch a register into the requester's shadow copy. -/
def State.latch (s : State) (r : Requester) (off : Nat) : State :=
  { s with shadow := tblSet none s.shadow (pairKey r off) (some (s.readReg off)) }

/-- Read the _LO half of a pair: the _HI half is latched into the requester's shadow copy (R20), and with TM_PTP_SNAP_SEC_LO also TM_PTP_SNAP_T32 (R320). -/
def State.pairLoRead (s : State) (r : Requester) (off : Nat) : State :=
  let s1 := s.latch r (off + 4)
  (if off = TM_PTP_SNAP_SEC_LO then s1.latch r TM_PTP_SNAP_T32 else s1).emit (.regRead r off (s.readReg off))

/-- Read the _HI half of a pair: the requester's shadow copy is returned and consumed, or the live value (R20). -/
def State.pairHiRead (s : State) (r : Requester) (off : Nat) : State :=
  match tblGet none s.shadow (pairKey r off) with
  | some w => { s with shadow := tblSet none s.shadow (pairKey r off) none }.emit (.regRead r off w)
  | none => s.emit (.regRead r off (s.readReg off))

/-- PAIR_LO_READ (R20). -/
def execPairLoRead (r : Requester) (off : Nat) (s : State) : Host.Outcome State Fault Refusal :=
  whenOn s fun s => if isPair off then s.pairLoRead r off else s

/-- PAIR_HI_READ (R20). -/
def execPairHiRead (r : Requester) (off : Nat) (s : State) : Host.Outcome State Fault Refusal :=
  whenOn s fun s => if (isPair (off - 4) && decide (4 ≤ off)) || off == TM_PTP_SNAP_T32 then s.pairHiRead r off else s

end Sys2Proof.Machine
end

