-- ==== Sys2Proof/Machine/DrOps.lean ====
section
/-! DEFINITION. The C1 bandwidth that blocks declare on DRAM, on the die links and on the Ethernet ports (R40, R328). -/

namespace Sys2Proof.Machine

/-! ### C1 on DRAM (R40, R257, R134) -/

/-- Paths of the Umber list: the entries in use. -/
def State.ubPaths (s : State) : List Nat :=
  (List.range 24).flatMap fun i =>
    (if s.flag (SF_UB_SEL i) SF_UB_SEL_EN_A then [s.rf (SF_UB_SEL i) SF_UB_SEL_PATH_A] else []) ++
      (if s.flag (SF_UB_SEL i) SF_UB_SEL_EN_B then [s.rf (SF_UB_SEL i) SF_UB_SEL_PATH_B] else [])

/-- SLAB of R255 for a number of paths. -/
def slabBytes (n : Nat) : Nat := 384 * n + 64

/-- C1 bandwidth of Umber in units of 10^7 / 256 B/s: SLAB × fs / 256 while enabled (R255). -/
def State.ubDeclared (s : State) : Nat :=
  if s.flag SF_UB_CTL SF_UB_CTL_EN then slabBytes s.ubPaths.length * s.time.rateN else 0

/-- C1 bandwidth of the slices' rings in B/s, for the program each slice runs. -/
def State.ringDeclared (s : State) : Nat :=
  ((List.range 64).map fun k => if s.sliceState k = mdIdle then 0 else if (s.slice k).hdr.ring then (s.slice k).hdr.ringBw * 1000000 else 0).sum

/-- The DRAM ceiling of R40 with rings of `ring` B/s: 80 % of the aggregate. -/
def State.drC1Within (s : State) (ring : Nat) : Bool :=
  decide ((s.ubDeclared * 10000000 + ring * 256) * 5 ≤ 2 ^ s.drM * 4 * s.drRate * 800000000 * 256 * 4)

/-- The DRAM ceiling of R40 with the rings in force. -/
def State.drC1Ok (s : State) : Bool := s.drC1Within s.ringDeclared

/-! ### C1 on the Ethernet ports (R33, R40, R227) -/

/-- A field of one of a beam's register images, in the order of R234. -/
def bmF (ws : List Word) (i : Nat) (f : Fld) : Nat := fget (ws.getD i 0) f

/-- Register images of a beam as they stand. -/
def State.bmRegs (s : State) (b : Nat) : List Word :=
  [WD_BM_CTL b, WD_BM_PKT b, WD_BM_DMAC_LO b, WD_BM_DMAC_HI b, WD_BM_DIP b, WD_BM_UDP b].map s.reg

/-- The beam configuration that the registers hold. -/
def State.wdRegs (s : State) : WdCfg :=
  { sb := s.flag WD_CTL WD_CTL_SB, first := s.rf WD_CH WD_CH_FIRST, count := s.rf WD_CH WD_CH_COUNT, f0 := s.reg64 WD_FREQ_LO
    beams := ((List.range 64).filter fun b => s.flag (WD_BM_CTL b) WD_BM_CTL_EN).map fun b => (b, s.bmRegs b) }

/-- CPK, PBIN, SPK and NINT of a beam (R233). -/
def bmCpk (ws : List Word) : Nat := 128 * 2 ^ bmF ws 1 WD_BM_PKT_CPK
def bmPbin (ws : List Word) : Nat := 2 ^ bmF ws 1 WD_BM_PKT_PBIN
def bmSpk (ws : List Word) : Nat := bmF ws 1 WD_BM_PKT_SPK + 1
def bmNint (ws : List Word) : Nat := bmF ws 1 WD_BM_PKT_NINT + 1
def bmFmt (ws : List Word) : Nat := bmF ws 0 WD_BM_CTL_FMT
def bmPort (ws : List Word) : Nat := bmF ws 0 WD_BM_CTL_PORT

/-- Payload bytes of a full packet (R224). -/
def bmPayload (ws : List Word) : Nat :=
  match bmFmt ws with
  | 0 => bmSpk ws * (4 + 2 * bmCpk ws)
  | 1 => bmSpk ws * (4 + bmCpk ws / 32 + bmCpk ws)
  | _ => bmCpk ws / bmPbin ws * 4

/-- Frame length of a full packet (R223). -/
def bmFrame (ws : List Word) : Nat := 114 + bmPayload ws

/-- Line bytes of a beam per spectrum (R227). -/
def bmLine (count : Nat) (ws : List Word) : Rat :=
  (((bmFrame ws + 20) * (count / bmCpk ws) : Nat) : Rat) / ((if bmFmt ws < 2 then bmSpk ws else bmNint ws : Nat) : Rat)

/-- Line bytes of the beams of a configuration per spectrum on a port. -/
def wdLine (c : WdCfg) (n : Nat) : Rat := ((c.beams.filter fun b => bmPort b.2 == n).map fun b => bmLine c.count b.2).foldl (· + ·) 0

/-- The ports of a corner-turn port mask, in ascending order (R286). -/
def ctPorts (mask : Nat) : List Nat := (List.range 4).filter (bit mask)

/-- The port of a path block (R286). -/
def ctPort (mask b : Nat) : Option Nat := (ctPorts mask)[b % (ctPorts mask).length]?

/-- Corner-turn line bytes per spectrum on a port, in a mode over a port mask (R33). -/
def ctLine (mode mask n : Nat) : Nat :=
  if mode = 0 then 0
  else ((List.range 32).filter fun b => ctPort mask b == some n).length * ((4096 - modeChans mode) / 512) * 8266

/-- Corner-turn line bytes per spectrum on a port now. -/
def State.ctLineNow (s : State) (n : Nat) : Nat := if s.ctRuns then ctLine s.mode (s.rf ET_CT_CTL ET_CT_CTL_PORTS) n else 0

/-- The C1 ceiling of a port in bits per second: 90 % of line rate (R40). -/
def State.portCeiling (s : State) (n : Nat) : Nat := if s.flag (ET_P_CTL n) ET_P_CTL_SPEED then 360000000000 else 720000000000

/-- C1 line bytes per spectrum stay within a port's ceiling (R40). -/
def State.portC1Ok (s : State) (n : Nat) (line : Rat) : Bool := decide (line * ((8 * s.time.rateN * 10000000 : Nat) : Rat) ≤ ((s.portCeiling n * 8192 : Nat) : Rat))

/-- The first port whose C1 declaration passes its ceiling under a beam configuration. -/
def State.egressOver (s : State) (c : WdCfg) : Option Nat :=
  (List.range 4).find? fun n => !s.portC1Ok n (wdLine c n + ((s.ctLineNow n : Nat) : Rat))

end Sys2Proof.Machine
end

