-- ==== Sys2Proof/Machine/SfOps.lean ====
section
/-! DEFINITION. Saffron, one sample period at a time: sample window, trigger beams, coincidence units, outputs, messages, and the filling of Umber slabs (R235 to R259). -/

namespace Sys2Proof.Machine

/-! ### Sample window (R235, R236) -/

/-- The 4-bit value of a sample, and whether the clamp changed it (R235). -/
def sfValue (sel : Nat) (x : Int) : Int × Bool :=
  let v := x / 2 ^ sel
  let c := max (-8) (min 7 v)
  (c, c != v)

/-- Value of path p, `d` sample periods before the newest (R236). -/
def State.sfHist (s : State) (p d : Nat) : Int := tblGet 0 s.sf.hist (p * 512 + (s.sf.idx + 512 - d % 512) % 512)

/-- Take one sample of each path into the history (R235, R236). -/
def State.sfTake (s : State) (smp : Nat → Smp) : State :=
  let i := s.sf.idx + 1
  let vs := (List.range 512).map fun p => sfValue (s.rf (SF_PATH p) SF_PATH_SEL) (smp p).v
  let clips := (vs.filter (·.2)).length
  let s1 := { s with sf := { s.sf with
    idx := i
    hist := (vs.zipIdx).foldl (fun t v => tblSet 0 t (v.2 * 512 + i % 512) v.1.1) s.sf.hist } }
  if clips = 0 then s1 else (s1.bumpBy SF_SEL_CLIPS counter32 clips).seen SF_STAT SF_STAT_CLIP_SEEN evSaffron

/-! ### Trigger beams (R237 to R241) -/

/-- Weight of (t, p) in the active delay table (R237, R263). -/
def State.tbWeight (s : State) (t p : Nat) : Int :=
  match s.rf (SF_TBP_ACT (512 * t + p)) SF_TBP_ACT_WT with
  | 1 => 1
  | 3 => -1
  | _ => 0

/-- Delay of (t, p) in the active delay table. -/
def State.tbDelay (s : State) (t p : Nat) : Nat := s.rf (SF_TBP_ACT (512 * t + p)) SF_TBP_ACT_DELAY

/-- The contributing paths of a beam (R237). -/
def State.tbPaths (s : State) (t : Nat) : List Nat := (List.range 512).filter fun p => s.tbWeight t p != 0

/-- s_t, `m` sample periods before the newest (R237). -/
def State.tbSum (s : State) (t m : Nat) : Int := ((s.tbPaths t).map fun p => s.tbWeight t p * s.sfHist p (s.tbDelay t p + m)).sum

/-- W of a beam (R238). -/
def State.tbWin (s : State) (t : Nat) : Nat := 4 * 2 ^ s.rf (SF_TB_CTL t) SF_TB_CTL_WSEL

/-- P_t in the newest sample period (R238). -/
def State.tbPower (s : State) (t : Nat) : Nat := ((List.range (s.tbWin t)).map fun m => (s.tbSum t m * s.tbSum t m).toNat).sum

/-- The baseline after one update with exponent `a`, in units of 2^-8 and truncated toward zero (R239). -/
def baseStep (b p a : Nat) : Nat := ((b : Int) + Int.tdiv ((p * 256 : Nat) - (b : Int)) (2 ^ a)).toNat

/-- A beam that has never trained. -/
def tbReset : TbSt := { base := 0, train := 0, run := 0, live := false }

/-- A beam's state. -/
def State.tb (s : State) (t : Nat) : TbSt := tblGet tbReset s.sf.tb t

/-- Replace a beam's state; SF_TB_BASE reads floor(B) (R263). -/
def State.setTb (s : State) (t : Nat) (x : TbSt) : State :=
  { s with sf := { s.sf with tb := tblSet tbReset s.sf.tb t x } }.setF (SF_TB_BASE t) SF_TB_BASE_BASE (x.base / 256)

/-- Start a beam's training (R240). -/
def State.train (s : State) (t : Nat) : State :=
  (s.setTb t { s.tb t with train := 1, run := 0 }).setF (SF_TB_STAT t) SF_TB_STAT_TRAINING 1

/-- A beam is active: enabled, with SF_CTL.RUN set (R249). -/
def State.tbOn (s : State) (t : Nat) : Bool := s.flag SF_CTL SF_CTL_RUN && s.flag (SF_TB_CTL t) SF_TB_CTL_EN

/-- The comparison of R239 against the baseline of the period before. -/
def State.tbFires (s : State) (t : Nat) : Bool :=
  s.tbOn t && (s.tb t).train == 0 &&
    decide (s.rf (SF_TB_CTL t) SF_TB_CTL_K * (s.tb t).base + s.rf (SF_TB_OFS t) SF_TB_OFS_OFS * 4096 < s.tbPower t * 4096)

/-- A beam's activity in a sample period: one that is inactive neither fires nor trains, and one that has become active trains (R240, R249). -/
def State.tbLive (s : State) (t : Nat) : State :=
  let on := s.tbOn t
  if on then
    let s1 := if (s.tb t).live then s else s.train t
    s1.setTb t { s1.tb t with live := true }
  else
    ((s.setTb t { s.tb t with train := 0, run := 0, live := false }).setF (SF_TB_STAT t) SF_TB_STAT_TRAINING 0).setF (SF_TB_STAT t) SF_TB_STAT_FIRING 0

/-- One sample period of a beam: the comparison, then the update of its baseline (R239, R240). -/
def State.tbStep (s0 : State) (t : Nat) : State :=
  let s := s0.tbLive t
  if !s.tbOn t then s
  else
    let x := s.tb t
    let p := s.tbPower t
    let A := s.rf (SF_TB_CTL t) SF_TB_CTL_A
    if x.train ≠ 0 then
      (s.setTb t { x with base := baseStep x.base p (min A (Nat.log2 x.train)), train := x.train + 1 }).setF (SF_TB_STAT t) SF_TB_STAT_FIRING 0
    else if s.tbFires t then
      let y := { x with run := x.run + 1 }
      let z := if 2 ^ A ≤ y.run then { y with base := baseStep x.base p A } else y
      ((s.setTb t z).setF (SF_TB_STAT t) SF_TB_STAT_FIRING 1).bump (SF_TB_FIRES t)
    else (s.setTb t { x with base := baseStep x.base p A, run := 0 }).setF (SF_TB_STAT t) SF_TB_STAT_FIRING 0

/-- A contributing path started or stopped being replaced: its beams train again (R241). -/
def State.tbReplaced (s : State) (repl : Tbl Bool) (t : Nat) : State :=
  let changed := (s.tbPaths t).any fun p => tblGet false repl p != tblGet false s.sf.repl p
  let n := ((s.tbPaths t).filter fun p => tblGet false repl p).length
  let s1 := s.setF (SF_TB_STAT t) SF_TB_STAT_ZERO_PATHS n
  if changed && s.tbOn t then (s1.train t).seen (SF_TB_STAT t) SF_TB_STAT_RETRAIN_SEEN evSaffron else s1

/-! ### Coincidence units (R242) -/

/-- G of a unit. -/
def State.cuGroup (s : State) (c : Nat) : Nat := 8 * 2 ^ s.rf (SF_CU_CTL c) SF_CU_CTL_GSZ

/-- The paths of a unit. -/
def State.cuPaths (s : State) (c : Nat) : List Nat :=
  (List.range (s.cuGroup c)).map fun i => s.rf (SF_CU_CTL c) SF_CU_CTL_FIRST + i

/-- Whether a path hits in the newest sample period (R242). -/
def State.hits (s : State) (p : Nat) : Bool :=
  s.flag (SF_PATH p) SF_PATH_HIT_EN && decide (s.rf (SF_PATH p) SF_PATH_HLEV ≤ (s.sfHist p 0).natAbs)

/-- A unit is active. -/
def State.cuOn (s : State) (c : Nat) : Bool := s.flag SF_CTL SF_CTL_RUN && s.flag (SF_CU_CTL c) SF_CU_CTL_EN

/-- Take the hits of the newest sample period into a unit: each is held for CW periods, this one counted. -/
def State.cuTake (s : State) (c : Nat) : State :=
  if !s.cuOn c then s
  else
    let stop := s.sf.idx + s.rf (SF_CU_CTL c) SF_CU_CTL_CW + 1
    { s with sf := { s.sf with
        hits := (s.cuPaths c).foldl (fun t p => if s.hits p then tblSet 0 t (512 * c + p) stop else t) s.sf.hits } }

/-- Whether a unit fires: at least M of its paths hold a hit. -/
def State.cuFires (s : State) (c : Nat) : Bool :=
  s.cuOn c && decide (s.rf (SF_CU_CTL c) SF_CU_CTL_M + 1 ≤
    ((s.cuPaths c).filter fun p => decide (s.sf.idx < tblGet 0 s.sf.hits (512 * c + p))).length)

/-- One sample period of a unit. -/
def State.cuStep (s : State) (c : Nat) : State :=
  let s1 := s.cuTake c
  if s1.cuFires c then s1.bump (SF_CU_FIRES c) else s1

/-! ### Outputs and gating (R243 to R245, R249) -/

/-- Matrix inputs that fire in the newest sample period (R243): from SF_TB_STAT.FIRING and the units. -/
def State.matrix (s : State) : Nat :=
  ((List.range 16).map fun t => if s.flag (SF_TB_STAT t) SF_TB_STAT_FIRING then 2 ^ t else 0).sum +
    ((List.range 8).map fun c => if s.cuFires c then 2 ^ (16 + c) else 0).sum

/-- The 4-bit field of TRIGIN input i (R263). -/
def State.trigin (s : State) (i : Nat) : Nat := bits (s.rf SF_TRIGIN SF_TRIGIN_IN) (4 * i + 3) (4 * i)

/-- FUNC of TRIGIN input i (R245). -/
def State.triginFunc (s : State) (i : Nat) : Nat := s.trigin i % 4

/-- TRIGIN input i stands at its active level, which POL names (R245, R263). -/
def State.triginOn (s : State) (i : Nat) : Bool := bit s.sf.tin i != bit (s.trigin i) 3

/-- Some asserted input has a function. -/
def State.triginAny (s : State) (func : Nat) : Bool := (List.range 4).any fun i => s.triginOn i && s.triginFunc i == func

/-- Whether output o is true in the newest sample period (R243, R245). -/
def State.outTrue (s : State) (o : Nat) : Bool :=
  s.flag SF_CTL SF_CTL_RUN && s.flag (SF_TRIG o) SF_TRIG_EN &&
    Nat.land s.matrix (s.rf (SF_TRIG o) SF_TRIG_MASK) != 0 &&
    !(s.rfb SF_TRIGIN SF_TRIGIN_VETO_TGT o && s.triginAny 2) &&
    (!s.rfb SF_TRIGIN SF_TRIGIN_ARM_TGT o || s.triginAny 3)

/-- The pins of sample period `n` are held inactive: on a standby unless STANDBY_OUT is 1, on a FENCED unit, and after a planned handover at S on the new active before S; the old one drives them up to S (R249, R431, R451, R454). -/
def State.pinsHeld (s : State) (n : Nat) : Bool :=
  if s.role = roleFenced then decide (s.ml.split ≤ n)
  else (s.standby || (s.role == roleActive && decide (n < s.ml.split))) && !s.flag SF_CTL SF_CTL_STANDBY_OUT

/-- No trigger message of array time `n` is sent: a FENCED unit stops them all (R249, R451). -/
def State.msgsHeld (s : State) (n : Nat) : Bool := s.role == roleFenced || s.pinsHeld n

/-- Output o may drive its pin active: it is enabled, and Saffron runs (R244, R249). -/
def State.pinLive (s : State) (o : Nat) : Bool := s.flag SF_CTL SF_CTL_RUN && s.flag (SF_TRIG o) SF_TRIG_EN

/-- The pins show what their outputs drive in sample period `n`, unless the unit holds them (R249). -/
def State.pinsShow (s : State) (n : Nat) : State := s.setF SF_STAT SF_STAT_TRIG_NOW (if s.pinsHeld n then 0 else s.sf.pins)

/-- The level of pin TRIG[o]: active or not, by POL (R244). -/
def State.trigLevel (s : State) (o : Nat) : Bool := s.rfb SF_STAT SF_STAT_TRIG_NOW o != s.flag (SF_TRIG o) SF_TRIG_POL

/-- The TRIG pins whose level has changed since `old` are put out. -/
def State.pinsOut (s old : State) : State :=
  { s with out := (((List.range 8).filter fun o => s.trigLevel o != old.trigLevel o).map fun o => Out.trig o (s.trigLevel o)) ++ s.out }

/-- A set of outputs as a mask. -/
def outMask (os : List Nat) : Nat := (os.map fun o => 2 ^ o).sum

/-- The outputs of sample period `n`, the newest; drives that may not be active end, and those that begin are the triggers, which a unit that holds its pins has too (R244, R249, R443). -/
def State.outStep (s : State) (n : Nat) : State × Nat :=
  let outs := outMask ((List.range 8).filter s.outTrue)
  let now := s.sf.pins
  let drop := (List.range 8).filter fun o => bit now o && !s.pinLive o
  let rise := (List.range 8).filter fun o => bit outs o && !bit now o && s.pinLive o && decide (tblGet 0 s.sf.quiet o ≤ s.time.cycles)
  let set := fun (v : Nat) (f : Nat → Bool) (t : Tbl Nat) => (List.range 8).foldl (fun t o => if f o then tblSet 0 t o v else t) t
  (({ s with sf := { s.sf with
       outs := outs
       pins := now - outMask drop + outMask rise
       fell := set s.time.cycles (fun o => bit s.sf.outs o && !bit outs o) s.sf.fell
       quiet := set (s.time.cycles + 2) drop.contains s.sf.quiet } } : State).pinsShow n, outMask rise)

/-! ### Trigger messages (R250 to R253) -/

/-- Sample ranges that a trigger at n on these matrix inputs used: path, first and last array time (R251). -/
def State.trigUses (s : State) (src : Nat) (n : Int) : List (Nat × Int × Int) :=
  ((List.range 16).filter (bit src)).flatMap (fun t =>
      (s.tbPaths t).map fun p => (p, n - s.tbDelay t p - (s.tbWin t - 1 : Nat), n - s.tbDelay t p)) ++
    ((List.range 8).filter fun c => bit src (16 + c)).flatMap fun c =>
      (s.cuPaths c).map fun p => (p, n - s.rf (SF_CU_CTL c) SF_CU_CTL_CW, n)

/-- The part of a range from the last epoch load on, or from the beginning of array time (R53). -/
def State.useNew (s : State) (u : Nat × Int × Int) : Option (Nat × Nat × Nat) :=
  let start : Int := (((s.sf.jump.map (·.1)).getD 0 : Nat) : Int)
  if start ≤ u.2.2 then some (u.1, (max start u.2.1).toNat, u.2.2.toNat) else none

/-- The part of a range from before the last epoch load, in the array times that its samples have in the stores (R53). -/
def State.useOld (s : State) (u : Nat × Int × Int) : Option (Nat × Nat × Nat) :=
  match s.sf.jump with
  | some (load, was) =>
    let back := fun (t : Int) => (was : Int) - (load - t)
    if u.2.1 < load ∧ 0 ≤ back (min u.2.2 (load - 1)) then some (u.1, (back u.2.1).toNat, (back (min u.2.2 (load - 1))).toNat) else none
  | none => none

/-- The check block covering a sample of path p in a store has been checked, or the sample was replaced and has none; `gone` is the answer for a sample whose lane lost lock before its check block, which is flagged under R94 (R251, R257). -/
def coveredIn (st : Tbl (Option Smp)) (gone : Bool) (p t : Nat) : Bool :=
  match smpAt st p t with
  | some x => x.loss || x.chk || (gone && x.crc)
  | none => true

/-- `coveredIn` of the samples in force (R132). -/
def State.covered (s : State) (gone : Bool) (p t : Nat) : Bool := coveredIn s.md.store gone p t

/-- Every sample of some ranges passes a test. -/
def usesAll (us : List (Nat × Nat × Nat)) (f : Nat → Nat → Bool) : Bool :=
  us.all fun u => (List.range (u.2.2 + 1 - u.2.1)).all fun i => f u.1 (u.2.1 + i)

/-- Every check block covering a message's samples has been checked (R251). -/
def State.usesChecked (s : State) (m : TrigMsg) : Bool :=
  usesAll m.uses (coveredIn (s.sfStore false) false) && usesAll m.usesOld (coveredIn (s.sfStore true) false)

/-- Whether a covering check of a message's samples failed. -/
def State.usesBad (s : State) (m : TrigMsg) : Bool :=
  !(usesAll m.uses (fun p t => !crcAt (s.sfStore false) p t) && usesAll m.usesOld fun p t => !crcAt (s.sfStore true) p t)

/-- The 48-byte payload of a trigger message (R253). -/
def State.trigPayload (s : State) (m : TrigMsg) : List Byte :=
  be 2 0x5346 ++ be 1 1 ++ be 1 (if m.trig then 1 else 2) ++ be 1 s.roleByte ++ be 1 s.member ++ be 2 0 ++ be 4 s.epochField ++
    be 4 m.seq ++ be 8 m.atc ++ be 1 m.sub ++ be 1 m.first ++ be 1 m.all ++ be 1 (m.tin * 16) ++ be 4 m.src ++ be 2 (min 0xFFFF m.extra) ++
    be 1 (b2n (s.usesBad m) + 2 * b2n m.loss + 4 * b2n m.unchecked + 8 * b2n m.froze) ++ be 1 0 ++
    be 4 m.power ++ be 4 m.base ++ be 4 0

/-- Offer a message on every port of MSG_PORTS (R250, R253); a unit that holds its pins sends none (R249, R451). -/
def State.trigOffer (s : State) (m : TrigMsg) : State :=
  if s.msgsHeld m.atc then s else
  let s1 := (List.range 4).foldl (fun s n =>
    if s.rfb SF_CTL SF_CTL_MSG_PORTS n then
      s.c0Offer n { cls := 0, c0Message := true, bytes := s.macHeader n 0 (s.mac SF_MSG_DMAC_LO) true ++ be 2 0x88B7 ++ s.trigPayload m }
    else s) (s.bump SF_MSGS)
  if m.unchecked then s1.seen SF_STAT SF_STAT_UNCHECKED_SEEN evSaffron else s1

/-- Offer the messages whose waits have ended, in SEQ order (R250). -/
def State.trigFlush (s : State) : List TrigMsg → State
  | [] => { s with sf := { s.sf with msgs := [] } }
  | m :: ms => if m.ready then (s.trigOffer m).trigFlush ms else { s with sf := { s.sf with msgs := m :: ms } }

/-- Give a message its SEQ and start its check wait (R250, R251). -/
def State.trigSend (s : State) (m : TrigMsg) : State :=
  let m' := { m with seq := s.sf.seq, ready := m.uses.isEmpty && m.usesOld.isEmpty }
  let s1 := { s with sf := { s.sf with seq := (s.sf.seq + 1) % 2 ^ 32 } }
  s1.trigFlush (s1.sf.msgs ++ [m'])

/-- A further event coalesced into the follow-on message (R250). -/
def trigMerge (a b : TrigMsg) : TrigMsg :=
  { a with trig := a.trig || b.trig, all := Nat.lor a.all b.all, tin := Nat.lor a.tin b.tin, extra := a.extra + 1
           loss := a.loss || b.loss, uses := a.uses ++ b.uses, usesOld := a.usesOld ++ b.usesOld }

/-- A message event: it opens a span, or is coalesced; with no message port, and on a unit that sends none, nothing is formed (R249, R250). -/
def State.msgEvent (s : State) (m : TrigMsg) : State :=
  if s.rf SF_CTL SF_CTL_MSG_PORTS = 0 ∨ s.msgsHeld m.atc = true then s
  else if s.sf.span then
    { s with sf := { s.sf with follow := some (match s.sf.follow with | none => m | some f => trigMerge f m) } }
  else { s with sf := { s.sf with span := true } }.trigSend m

/-! ### Umber (R255 to R259) -/

/-- STATE of SF_UB_STAT. -/
def ubOff : Nat := 0
def ubRunning : Nat := 1
def ubPost : Nat := 2
def ubFrozen : Nat := 3

/-- State of the Umber ring. -/
def State.ubState (s : State) : Nat := s.rf SF_UB_STAT SF_UB_STAT_STATE

/-- Two ranges of addresses share no byte. -/
def apart (a n b m : Nat) : Bool := n == 0 || m == 0 || decide (a + n ≤ b) || decide (b + m ≤ a)

/-- A ring of `len` slabs of `slab` bytes at `base` meets R262. -/
def State.ringOk (s : State) (base len slab : Nat) : Bool :=
  base % 4096 == 0 && decide (64 ≤ len) && s.drIn base (len * slab) && apart base (len * slab) (s.reg64 IX_DUMP_BASE_LO) (s.reg IX_DUMP_LEN).toNat &&
    (List.range 64).all fun k => apart base (len * slab) (s.reg64 (MD_SL_RING_BASE_LO k)) (s.reg (MD_SL_RING_LEN k)).toNat

/-- The ring in force meets R262 and the DRAM ceiling of R255 (R259). -/
def State.ubAllowed (s : State) : Bool :=
  s.drReady && s.ringOk (s.reg64 SF_UB_BASE_LO) (s.rf SF_UB_LEN SF_UB_LEN_LEN) (slabBytes s.ubPaths.length) && s.drC1Ok

/-- Put a change's values into the registers (R261, R264). -/
def State.ubWrite (s : State) (c : UbChange) : State :=
  (s.ubRegsWrite c).setF SF_UB_SLAB SF_UB_SLAB_SLAB (slabBytes (s.ubRegsWrite c).ubPaths.length)

/-- The registers that a turn changes: none where it is the new generation of an epoch load. -/
def State.turnWrite (s : State) (c : UbTurn) : State :=
  match c.chg with
  | some x => s.ubWrite x
  | none => s

/-- The ring's configuration for new slabs and freeze events: the registers with the changes whose boundary array time has reached (R261). -/
def State.ubAhead (s : State) : State := s.sf.turn.foldl State.turnWrite s

/-- A freeze event would be taken now (R259). -/
def State.ubFreezable (s : State) : Bool := s.ubState == ubRunning && s.ubAhead.flag SF_UB_CTL SF_UB_CTL_EN

/-- The ring is frozen where it stands (R259, R553). -/
def State.ubFrozenNow (s : State) : State :=
  let s1 := (s.setF SF_UB_STAT SF_UB_STAT_STATE ubFrozen).setReg SF_UB_FRZ_WR (s.reg SF_UB_WR)
  let s2 := s1.setReg SF_UB_FRZ_SPAN (s.reg SF_UB_SPAN)
  { s2 with sf := { s2.sf with lastSlab := none, fillAt := none } }.raise evSaffron

/-- Writing goes on through a slab that precedes the next one to be filled: no slab is filled any more, and the ring is frozen once those that wait are written. DEDUCED: after a rearm or a start, slabs are written from the next slab boundary on, so a freeze event before it with POST 0 finds its last slab unwritten (R259, R260). -/
def State.ubCutShort (s : State) : State :=
  match s.sf.slabs.getLast? with
  | some x => { s with sf := { s.sf with fillAt := none, lastSlab := some x.atc } }
  | none => s.ubFrozenNow

/-- A freeze event of time `t` (R259). -/
def State.freeze (s : State) (t : Nat) : State :=
  if s.ubFreezable then
    let g := s.ubAhead
    let post := min (g.rf SF_UB_POST SF_UB_POST_POST) (g.rf SF_UB_LEN SF_UB_LEN_LEN - 2)
    let last := t / 256 * 256 + 256 * post
    let s1 := (s.setReg64 SF_UB_FRZ_ATC_LO t).setF SF_UB_STAT SF_UB_STAT_STATE ubPost
    if s.sf.fillAt.any fun a => decide (last < a) then s1.ubCutShort else { s1 with sf := { s1.sf with lastSlab := some last } }
  else s.bump SF_UB_FRZ_IGN

/-- Whether a trigger or an input edge freezes Umber (R263): FRZ_SRC bits [11:4] are TRIG, [3:0] TRIGIN. -/
def State.freezesOn (s : State) (trig tin : Nat) : Bool :=
  Nat.land (s.ubAhead.rf SF_UB_CTL SF_UB_CTL_FRZ_SRC) (trig * 16 + tin) != 0

/-- The slab that ends with the sample of time `n` is complete: it enters the slab buffer, or is dropped when eight already wait there (R258). -/
def State.ubFill (s : State) (n : Nat) : State :=
  match s.sf.fillAt with
  | none => s
  | some a =>
    if n + 1 = a + 256 then
      let frz := s.reg64 SF_UB_FRZ_ATC_LO
      let slab : Slab :=
        { atc := a, old := false, dropped := decide (8 ≤ (s.sf.slabs.filter fun x => !x.dropped).length), newgen := s.sf.newgen
          freeze := s.ubState == ubPost && decide (a ≤ frz) && decide (frz < a + 256) }
      { s with sf := { s.sf with
          slabs := s.sf.slabs ++ [slab], newgen := false
          fillAt := if s.sf.lastSlab = some a then none else some (a + 256) } }
    else s

/-! ### Changes of the Umber ring (R255, R259 to R262) -/

/-- Umber starts at a slab boundary, with nothing behind it (R259). -/
def State.ubStart (s : State) (a : Nat) : State :=
  let s1 := ((s.setReg SF_UB_WR 0).setReg SF_UB_SPAN 0).setF SF_UB_STAT SF_UB_STAT_STATE ubRunning
  { s1 with sf := { s1.sf with fillAt := some a, newgen := true, lastSlab := none } }

/-- Umber stops writing. -/
def State.ubStop (s : State) : State :=
  let s1 := s.setF SF_UB_STAT SF_UB_STAT_STATE ubOff
  { s1 with sf := { s1.sf with fillAt := none, lastSlab := none } }

/-- Next generation (R260, R261). -/
def State.ubGen (s : State) : State :=
  { s.setF SF_UB_GEN SF_UB_GEN_GEN (s.rf SF_UB_GEN SF_UB_GEN_GEN + 1) with sf := { s.sf with newgen := true } }

/-- SPAN falls, and the drop is counted (R261). -/
def State.ubCut (s : State) (span : Nat) : State :=
  let was := (s.reg SF_UB_SPAN).toNat
  let s1 := s.setReg SF_UB_SPAN (w32 span)
  if span < was then (s1.bumpBy SF_UB_CUT counter32 (was - span)).seen SF_UB_STAT SF_UB_STAT_CUT_SEEN evSaffron else s1

/-- Array time has reached the boundary of a change: in POST or FROZEN it is held until the rearm; else slabs from there on follow it, and the first of them begins a generation (R259, R261). -/
def State.ubReach (s : State) (next b : Nat) (c : UbChange) : State :=
  if s.ubState = ubPost ∨ s.ubState = ubFrozen then
    { s with sf := { s.sf with held := some (match s.sf.held with
        | none => c
        | some h => { c with sel := c.sel.or h.sel, ctl := c.ctl.or h.ctl }) } }.setF SF_UB_STAT SF_UB_STAT_CHG_HELD 1
  else
    let s1 := { s with sf := { s.sf with turn := s.sf.turn ++ [⟨b, false, some c⟩], newgen := true } }
    let g := s1.ubAhead
    if !g.flag SF_UB_CTL SF_UB_CTL_EN then { s1 with sf := { s1.sf with fillAt := none } }
    else if s.sf.fillAt.isNone && s.running && g.ubAllowed then { s1 with sf := { s1.sf with fillAt := some (max b (cdiv next 256 * 256)) } }
    else s1

/-- Every slab from before a change has been written, and it takes effect in the ring (R261). -/
def State.ubTurn (s : State) (c : UbChange) : State :=
  let same := s.reg64 SF_UB_BASE_LO == c.base && (s.ubWrite c).ubPaths == s.ubPaths
  let wr := (s.reg SF_UB_WR).toNat
  let s1 := (s.ubWrite c).setF SF_UB_GEN SF_UB_GEN_GEN (s.rf SF_UB_GEN SF_UB_GEN_GEN + 1)
  let s2 :=
    if same && decide (wr < c.len) then s1.ubCut (min (s.reg SF_UB_SPAN).toNat wr)
    else (s1.ubCut 0).setReg SF_UB_WR 0
  if !s2.flag SF_UB_CTL SF_UB_CTL_EN then s2.setF SF_UB_STAT SF_UB_STAT_STATE ubOff
  else if s.ubState = ubOff && s.running && s2.ubAllowed then
    s2.setF SF_UB_STAT SF_UB_STAT_STATE (if s.sf.lastSlab.isSome then ubPost else ubRunning)
  else s2

/-- The generation that an epoch load begins: SPAN 0 at the slot that SF_UB_WR names (R53). -/
def State.ubLoaded (s : State) : State :=
  let s1 := (s.setReg SF_UB_SPAN 0).setF SF_UB_GEN SF_UB_GEN_GEN (s.rf SF_UB_GEN SF_UB_GEN_GEN + 1)
  { s1 with sf := { s1.sf with lastWrit := none } }

/-- A turn takes effect. -/
def State.takeTurn (s : State) (c : UbTurn) : State :=
  match c.chg with
  | some x => s.ubTurn x
  | none => s.ubLoaded

/-- A slab is of before a turn: its array times lie before the boundary, or before an epoch load that the turn came after. -/
def Slab.before (x : Slab) (c : UbTurn) : Bool := (x.old && !c.old) || (x.old == c.old && decide (x.atc < c.b))

/-- Changes take effect in the ring up to the first before which a slab is still to be written. -/
def State.ubTurns (s : State) : State :=
  let ready := fun (c : UbTurn) => !s.sf.slabs.any fun x => x.before c
  let s1 := { s with sf := { s.sf with turn := s.sf.turn.dropWhile ready } }
  let s2 := (s.sf.turn.takeWhile ready).foldl State.takeTurn s1
  s2.setF SF_UB_STAT SF_UB_STAT_CHG_PENDING (b2n (!s2.sf.chgs.isEmpty || !s2.sf.turn.isEmpty))

/-- The released samples have reached array time `next`: changes whose boundary lies there or before fire, and take effect in the ring once every earlier slab is written (R261). -/
def State.ubChanges (s : State) (next : Nat) : State :=
  let due := fun (c : Nat × Nat × UbChange) => decide (c.1 ≤ next)
  let s1 := { s with sf := { s.sf with chgs := s.sf.chgs.filter fun c => !due c } }
  ((s.sf.chgs.filter due).foldl (fun s c => s.ubReach next c.1 c.2.2) s1).ubTurns

/-- A change is committed and will fire at boundary S, among those of the same boundary in the order of the queue; `h` is its event, 0 for a host write (R58, R261). -/
def State.ubCommit (s : State) (b h : Nat) (c : UbChange) : State :=
  let later := ((s.events.dropWhile fun e => e.handle != h).drop 1).map (·.handle)
  let after := fun (q : Nat × Nat × UbChange) => decide (b < q.1) || (q.1 == b && later.contains q.2.1)
  let cs := s.sf.chgs
  { s with sf := { s.sf with
      chgs := (cs.takeWhile fun q => !after q) ++ (b, h, c) :: cs.dropWhile fun q => !after q } }.setF SF_UB_STAT SF_UB_STAT_CHG_PENDING 1

/-! ### Trigger configurations (R240, R254) -/

/-- What a beam retrains on: its SF_TB_CTL but K, its active entries, and SEL of its contributing paths (R240). -/
def State.trainKey (s : State) (t : Nat) : Nat × List Word × List Nat :=
  ((fput (s.reg (SF_TB_CTL t)) SF_TB_CTL_K 0).toNat, (List.range 512).map (fun p => s.reg (SF_TBP_ACT (512 * t + p))),
    (s.tbPaths t).map fun p => s.rf (SF_PATH p) SF_PATH_SEL)

/-- A trigger configuration applies: its images, the pending table, and the training of R240 (R254). -/
def State.trigApply (s : State) (ws : List Word) : State :=
  let s1 := s.configAll (trigRegs.zip ws)
  let s2 := s1.configTable
  (List.range 16).foldl (fun u t =>
    if u.tbOn t && (!s.tbOn t || u.trainKey t != s.trainKey t) then u.train t else u) s2

/-- Trigger configurations that apply from a sample period on. -/
def State.trigCfgs (s : State) (n : Nat) : State :=
  let s1 := { s with sf := { s.sf with cfgs := s.sf.cfgs.filter fun c => decide (n < c.1) } }
  (s.sf.cfgs.filter fun c => decide (c.1 ≤ n)).foldl (fun s c => s.trigApply c.2) s1

/-! ### One sample period -/

/-- Triggers of the newest sample period become message events and freeze events (R244, R250, R259). -/
def State.triggers (s : State) (n mask : Nat) : State :=
  if mask = 0 then s
  else
    let src := s.matrix
    let msg := outMask ((List.range 8).filter fun o => bit mask o && s.flag (SF_TRIG o) SF_TRIG_MSG)
    let froze := s.freezesOn msg 0 && s.ubFreezable
    let beam := (List.range 16).find? (bit src)
    let uses := s.trigUses src (n : Int)
    let m : TrigMsg :=
      { seq := 0, trig := true, atc := n, sub := 0, first := msg, all := msg, tin := 0, src := src, extra := 0
        loss := uses.any (fun u => tblGet false s.sf.repl u.1), unchecked := false, froze := froze
        power := (beam.map s.tbPower).getD 0, base := (beam.map fun t => (s.tb t).base / 256).getD 0, uses := uses.filterMap s.useNew
        usesOld := uses.filterMap s.useOld, ready := false }
    let s1 := if s.freezesOn mask 0 then s.freeze n else s
    if msg = 0 then s1 else s1.msgEvent m

/-- Saffron and Umber take the samples of array time `n` (R235 to R261). -/
def State.saffron (s : State) (n : Nat) (smp : Nat → Smp) : State :=
  let repl := (List.range 512).foldl (fun t p => if (smp p).loss then tblSet false t p true else t) ([] : Tbl Bool)
  let s1 := (List.range 16).foldl (fun s t => s.tbReplaced repl t) ((s.trigCfgs n).sfTake smp)
  let s2 := (List.range 16).foldl State.tbStep { s1 with sf := { s1.sf with repl := repl } }
  let s3 := (List.range 8).foldl State.cuStep s2
  let r := s3.outStep n
  (((r.1.triggers n r.2).ubFill n).ubChanges (n + 1)).pinsOut s

end Sys2Proof.Machine
end

