-- ==== Sys2Proof/Machine/Lanes.lean ====
section
/-! DEFINITION. The sample lanes: blocks, lock, release, the control lane, the ladder, sleep, PRBS and the lane commands (R61 to R101, R559). -/

namespace Sys2Proof.Machine

/-! ### Octets -/

/-- An octet that nothing has started. -/
def octReset : OctSt :=
  { step := .idle, r := 0, goal := 0, back := false, tries := 0, target := 0, weak := false, top := 3, formats := 3, fitted := 255, fmt8 := false, failed := 0
    fck := false, first := false, retry := false, ofsSet := false, tag := 0, seq := 0, gen := List.replicate 31 true, genN := 0, inject := false, x := none, todo := []
    waking := false, woken := false, poll := none, pollDue := false, missed := 0, before := 0 }

/-- Octet `o`. -/
def State.oct (s : State) (o : Nat) : OctSt := tblGet octReset s.sl.octs o

/-- Replace octet `o`. -/
def State.setOct (s : State) (o : Nat) (x : OctSt) : State := { s with sl := { s.sl with octs := tblSet octReset s.sl.octs o x } }

/-- STATE of SL_OCT_STAT (R100). -/
def ocDown : Nat := 0
def ocL0Lock : Nat := 1
def ocNegotiate : Nat := 2
def ocStep : Nat := 3
def ocDwell : Nat := 4
def ocRunning : Nat := 5
def ocLimited : Nat := 6
def ocSleep : Nat := 7

def State.octState (s : State) (o : Nat) : Nat := s.rf (SL_OCT_STAT o) SL_OCT_STAT_STATE
def State.setOctState (s : State) (o v : Nat) : State := s.setF (SL_OCT_STAT o) SL_OCT_STAT_STATE v
def State.rung (s : State) (o : Nat) : Nat := s.rf (SL_OCT_STAT o) SL_OCT_STAT_RUNG

/-- Top of a rung's accepted lane rate in Mb/s (R64). -/
def rungTop (r : Nat) : Nat := 3264 * 2 ^ r

/-- Samples in a data block (R65). -/
def perBlock (fmt8 : Bool) : Nat := if fmt8 then 15 else 10

/-- A rung carries fs at the top of its accepted range (R65, R66). -/
def carries (r : Nat) (fmt8 : Bool) (rateN : Nat) : Bool := decide (rateN * 81920 ≤ rungTop r * 63 * perBlock fmt8)

/-- A lane due in service: not dropped from the ladder (R90, R91). -/
def State.due (s : State) (o j : Nat) : Bool := !s.flag (SL_LANE_STAT o j) SL_LANE_STAT_EXCLUDED

/-- Every lane due in service has block lock. -/
def State.allLocked (s : State) (o : Nat) : Bool := (List.range 8).all fun j => !s.due o j || s.locked o j

/-- The release point is set (R79). -/
def State.relSet (s : State) : Bool := s.flag SL_REL_STAT SL_REL_STAT_SET

/-- Receive latency of the latest lane in whole sample periods, rounded to nearest (R79, R81). -/
def State.latency (s : State) : Nat :=
  let ns := match s.rf SL_REL_STAT SL_REL_STAT_REL_RUNG with | 1 => 51 | 2 => 41 | _ => 36
  (ns * s.time.rateN + 50) / 100

/-! ### Control lane (R84 to R88, R99) -/

/-- A control message block (R84): header with the lane's SEQ, type, message, tag, arguments, result, reserved and BCRC. -/
def ctlBlock (seq msg tag : Nat) (args : List Byte) : List Byte :=
  let h := be 1 (0xC0 + seq % 8) ++ be 1 0x4B ++ be 1 msg ++ be 1 tag ++ slice args 0 8 ++ be 2 0
  h ++ be 2 (crc16 0xFFFF h)

/-- An idle block (R69). DESIGN CHOICE: the bytes after its type, of which the specification says nothing, are 0. -/
def idleBlock (seq : Nat) : List Byte := be 1 (0xC0 + seq % 8) ++ be 1 0x2D ++ be 14 0

/-- Put a block on the control lane; SEQ steps on every block (R67). -/
def State.ctlPut (s : State) (o : Nat) (b : Nat → List Byte) : State :=
  (s.setOct o { s.oct o with seq := ((s.oct o).seq + 1) % 8 }).emit (.ctl o (b (s.oct o).seq))

/-- Send a message now under the octet's next TAG (R84). -/
def State.ctlNow (s : State) (o : Nat) (m : CtlMsg) : State :=
  let x := s.oct o
  (s.setOct o { x with tag := (x.tag + 1) % 256, x := some { m with tag := x.tag, attempt := 1 } }).ctlPut o fun q => ctlBlock q m.msg x.tag m.args

/-- The control direction sleeps now (R99). -/
def State.ctlAsleep (s : State) (o : Nat) : Bool := s.flag (SL_OCT_CTL o) SL_OCT_CTL_CTL_SLEEP && !(s.oct o).woken && !(s.oct o).waking

/-- The receivers of an octet are powered down: its receive direction sleeps and is not being woken (R99). -/
def State.rxOff (s : State) (o : Nat) : Bool :=
  s.rf (SL_OCT_STAT o) SL_OCT_STAT_STATE == 7 && s.flag (SL_OCT_CTL o) SL_OCT_CTL_RX_SLEEP

/-- Send the next waiting message, waking a sleeping control direction first; with none left, a direction woken for the exchange sleeps again (R99). -/
def State.ctlNext (s : State) (o : Nat) : State :=
  let x := s.oct o
  match x.x, x.todo with
  | some _, _ => s
  | none, [] => if x.woken then s.setOct o { x with woken := false } else s
  | none, m :: ms =>
    if x.waking then s else if s.ctlAsleep o then s.setOct o { x with waking := true } else (s.setOct o { x with todo := ms }).ctlNow o m

/-- Queue a control message (R84). -/
def State.ctlSend (s : State) (o : Nat) (why : CtlFor) (msg : Nat) (args : List Byte) : State :=
  let x := s.oct o
  (s.setOct o { x with todo := x.todo ++ [{ why := why, msg := msg, tag := 0, args := args, attempt := 0 }] }).ctlNext o

/-- The messages of R87 that the ladder sends. -/
def State.sendHello (s : State) (o : Nat) : State :=
  ((s.setOct o { s.oct o with step := .hello }).setOctState o ocNegotiate).ctlSend o .hello 0x01 (be 1 3 ++ be 1 3)
def State.sendPropose (s : State) (o r : Nat) : State :=
  ((s.setOct o { s.oct o with step := .propose, goal := r }).setOctState o ocStep).ctlSend o (.propose r) 0x02 (be 1 r)
def State.sendCommit (s : State) (o r : Nat) : State :=
  (s.setOct o { s.oct o with step := .commit }).ctlSend o (.commit r) 0x03 (be 1 r)

/-! ### Service, lock and loss (R74, R94) -/

/-- Take a path into service: at once before samples are released, else it waits to rejoin (R79, R94). -/
def State.serve (s : State) (o j : Nat) : State :=
  let l := s.lane o j
  if s.relSet && s.running then s.setLane o j { l with wait := true, clean := 0 }
  else (s.setFB (SL_OCT_STAT o) SL_OCT_STAT_IN_SERVICE l.idx true).setLane o j { l with wait := false }

/-- The octet's rung carries its samples; L0 never does (R66, R79). -/
def State.rungServes (s : State) (o : Nat) : Bool :=
  s.rung o != 0 && carries (s.rung o) (s.flag (SL_OCT_CTL o) SL_OCT_CTL_FMT) s.time.rateN

/-- A lane may serve: locked, due, within the lead window, its index claimed by no other locked lane, not under PRBS, and its octet RUNNING or RUNG_LIMITED at a rung that carries fs (R77, R79, R80, R90, R97). -/
def State.mayServe (s : State) (o j : Nat) : Bool :=
  s.locked o j && s.due o j && !s.flag (SL_LANE_STAT o j) SL_LANE_STAT_SKEW_RANGE &&
    (List.range 8).all (fun k => k == j || !s.locked o k || (s.lane o k).idx != (s.lane o j).idx) &&
    !(s.flag (SL_OCT_PRBS o) SL_OCT_PRBS_CHK_EN && s.rfb (SL_OCT_PRBS o) SL_OCT_PRBS_CHK_LANES j) &&
    (s.octState o == ocRunning || s.octState o == ocLimited) && s.rungServes o

/-- Take the path of a lane out of service, and wait to rejoin (R94). -/
def State.outOfService (s : State) (o j : Nat) : State :=
  let l := s.lane o j
  (s.setFB (SL_OCT_STAT o) SL_OCT_STAT_IN_SERVICE l.idx false).setLane o j { l with wait := true, clean := 0 }

/-- Re-evaluate ORDER_FAULT at a lock: two locked lanes carry one index, and neither serves until a later lock ends the fault (R77, R95). -/
def State.orderCheck (s : State) (o : Nat) : State :=
  let dup := fun j => s.locked o j && (List.range 8).any fun k => k != j && s.locked o k && (s.lane o k).idx == (s.lane o j).idx
  let ds := (List.range 8).filter dup
  (ds.foldl (fun s j => s.outOfService o j) s).setF (SL_OCT_STAT o) SL_OCT_STAT_ORDER_FAULT (b2n (!ds.isEmpty))

/-- Every lane of an octet that may serve, does not, and does not wait to rejoin is taken into service (R77, R79). -/
def State.serveAll (s : State) (o : Nat) : State :=
  (List.range 8).foldl (fun s j =>
    if s.mayServe o j && !s.inService o (s.lane o j).idx && !((s.lane o j).wait && s.relSet && s.running) then s.serve o j else s) s

/-- The frame in progress of a lane ends: its samples, those released under whichever array times and those not yet released, take the flag of a CRC failure, and their check block counts as checked, unless the lane lost lock before it came (R73, R94). -/
def State.markFrame (s : State) (o j : Nat) (fail chk : Bool) : State :=
  let l := s.lane o j
  let n := l.frameIdx - l.head
  (s.setLane o j { l with
      fifo := l.fifo.take n ++ (l.fifo.drop n).map fun x => { x with crc := x.crc || fail, chk := x.chk || chk }
      rel := [], relOld := [] }).markStored
    (8 * o + l.idx) l.rel l.relOld fun x => { x with crc := x.crc || fail, chk := x.chk || chk }

/-- A data lane loses lock: a frame with a header error that the loss cuts is counted as failed (R94, R559). LOCKLOSS counts it where `counted`: not where the receivers switch rung, are put to sleep or enter PRBS mode (DESIGN CHOICE: the specification does not say whether those count). -/
def State.loseLock (s : State) (counted : Bool) (o j : Nat) : State :=
  if s.locked o j then
    let s1 := ((s.markFrame o j true false).setF (SL_LANE_STAT o j) SL_LANE_STAT_LOCK 0).outOfService o j
    let l := s1.lane o j
    let s2 := s1.setLane o j
      { l with head := l.head + l.fifo.length, fifo := [], frameIdx := l.head + l.fifo.length, hdr := [], broke := false, jump := none, part := true, frameErr := false }
    let s3 := if (s.lane o j).frameErr then s2.bump (SL_LANE_CRCERR o j) else s2
    if counted then s3.bump (SL_LANE_LOCKLOSS o j) else s3
  else s

/-- All eight lanes of an octet lose lock. -/
def State.loseAll (s : State) (counted : Bool) (o : Nat) : State := (List.range 8).foldl (fun s j => s.loseLock counted o j) s

/-! ### The ladder (R89 to R91) -/

/-- The octet goes to DOWN, and step 0 is tried again after 100 ms (R90, R91). A failed step 0 ends the octet's first ladder; a failed return does not (R79). -/
def State.goDown (s : State) (step0 : Bool) (o : Nat) : State :=
  let s1 := s.loseAll true o
  ((s1.setOct o { s1.oct o with step := .idle, first := (s1.oct o).first || step0, retry := true, tries := 0, back := false, r := 0 }).setOctState o ocDown).setF
    (SL_OCT_STAT o) SL_OCT_STAT_RUNG 0

/-- The ladder ends at the rung reached: the lanes enter service (R89, R90). DESIGN CHOICE: R87 does not say when FORMAT_SET is sent; it follows here, with the octet's FMT. -/
def State.ladderEnd (s : State) (o st : Nat) : State :=
  let s1 := (s.setOct o { s.oct o with step := .idle, first := true, tries := 0, back := false }).setOctState o st
  let want := s.flag (SL_OCT_CTL o) SL_OCT_CTL_FMT
  ((s1.orderCheck o).serveAll o).ctlSend o (.format want) 0x04 (be 1 (b2n want))

/-- The rung the ladder climbs to: the lowest of TARGET_RUNG, the board's highest rung and L3 (R89). -/
def climbTo (x : OctSt) : Nat := min x.target (min x.top 3)

/-- From an accepted rung, propose the next or end (R89). -/
def State.climb (s : State) (o : Nat) : State :=
  let x := s.oct o
  if x.r < climbTo x then s.sendPropose o (x.r + 1) else s.ladderEnd o ocRunning

/-- An attempt at the next rung fails; `failed` masks the lanes that failed. The octet returns to its accepted rung by the same steps (R90). -/
def State.attemptFail (s : State) (o failed : Nat) : State :=
  let x := s.oct o
  if x.back then s.goDown false o
  else (s.setOct o { x with tries := x.tries + 1, failed := failed, back := true }).sendPropose o x.r

/-- The octet stands at its accepted rung again: another attempt, or after the third the end of R90. -/
def State.returned (s : State) (o : Nat) : State :=
  let x := s.oct o
  let s1 := s.setOct o { x with back := false }
  if x.tries < 3 then s1.sendPropose o (x.r + 1)
  else if x.weak && x.failed != 0 then
    let s2 := (List.range 8).foldl (fun s j => if bit x.failed j then s.setF (SL_LANE_STAT o j) SL_LANE_STAT_EXCLUDED 1 else s) s1
    (s2.setOct o { s2.oct o with tries := 0, failed := 0 }).sendPropose o (x.r + 1)
  else s1.ladderEnd o ocLimited

/-- Every lane due in service has lock at the new rung: step 6, or the end of a return (R89, R90). -/
def State.lanesDone (s : State) (o : Nat) : State :=
  let x := s.oct o
  if x.step = .lanes ∧ s.allLocked o = true then
    if x.back then s.returned o
    else
      let s1 := (List.range 8).foldl (fun s j => s.setLane o j { s.lane o j with clean := 0 }) s
      (s1.setOct o { x with step := .dwell }).setOctState o ocDwell
  else if x.step = .lock0 ∧ x.fck = true ∧ (List.range 8).all (s.locked o) = true then s.sendHello o
  else s

/-! ### Blocks (R67 to R73, R559) -/

/-- A received block after polarity correction (R76). -/
def upright (inv : Bool) (b : List Byte) : List Byte := if inv then b.map fun x => ~~~x else b

/-- Kind of a block by its header and type: data, check, idle, control reply, or a special block of undefined type (R67, R69, R559). DESIGN CHOICE: R69 sends type 0x4B on the control lane alone and does not say what one on a data lane is; it counts as undefined. -/
inductive BlockKind where
  | data | check | idle | reply | undefined
  deriving DecidableEq, Repr

def blockKind (b : List Byte) : BlockKind :=
  if beAt b 0 1 / 64 = 3 then
    match beAt b 1 1 with
    | 0x1E => .check
    | 0x2D => .idle
    | 0x5A => .reply
    | _ => .undefined
  else .data

/-- A header error of R559. -/
def headerBad (l : LaneSt) (b : List Byte) : Bool :=
  let h := beAt b 0 1
  decide (h / 64 < 2) || h / 8 % 8 != l.idx || h % 8 != l.seq || blockKind b == .undefined

/-- Take a block's header into the lane: its SEQ, and the errors of R559. -/
def laneHeader (l : LaneSt) (b : List Byte) : LaneSt :=
  let h := beAt b 0 1
  let e := headerBad l b
  { l with seq := (h + 1) % 8, broke := h % 8 != l.seq, hdr := (e :: l.hdr).take 64, frameErr := l.frameErr || e }

/-- R74: 16 or more invalid headers among the last 64, or two consecutive SEQ breaks. -/
def lockEnds (old new : LaneSt) : Bool := decide (16 ≤ (new.hdr.filter id).length) || (old.broke && new.broke)

/-- The samples of a data block, oldest first; an 8-bit sample enters multiplied by 16 (R68, R127). -/
def blockSamples (fmt8 : Bool) (b : List Byte) : List Int :=
  if fmt8 then (List.range 15).map fun k => sext 8 (beAt b (1 + k) 1) * 16
  else (List.range 10).map fun k => sext 12 (beAt b 1 15 / 2 ^ (108 - 12 * k))

/-- Handle a header: count its error and see whether lock ends (R74, R559). -/
def State.header (s : State) (o j : Nat) (b : List Byte) : State × Bool :=
  let l := s.lane o j
  let l' := laneHeader l b
  let s1 := if headerBad l b then s.bump (SL_LANE_HDRERR o j) else s
  ((s1.setLane o j l'), lockEnds l l')

/-- A block of a kind arrives on a locked data lane: its header, then its body unless the lock ends. -/
def State.block (s : State) (k : BlockKind → Bool) (o j : Nat) (raw : List Byte) (body : State → List Byte → State) : State :=
  let b := upright (s.lane o j).inv raw
  if s.locked o j && decide (raw.length = 16) && k (blockKind b) then
    let r := s.header o j b
    if r.2 then (body r.1 b).loseLock true o j else body r.1 b
  else s

/-- A frame ends: a failed one is counted once, its samples flagged, DEGRADED at eight in 64, and a dwell fails (R73, R89, R95). DESIGN CHOICE: the frame in progress when the lane gained lock, which has no failure to show but a header error, counts among the clean ones. -/
def State.frameEnd (s : State) (o j : Nat) (fail : Bool) : State :=
  let s0 := s.markFrame o j fail true
  let l := s0.lane o j
  let fs := (fail :: l.fails).take 64
  let l1 := { l with
    fails := fs, clean := if fail then 0 else l.clean + 1, frameIdx := l.head + l.fifo.length, frameCount := l.count, crc := 0xFFFF
    frameErr := false, part := false }
  let s1 := s0.setLane o j l1
  let s2 := if fail then s1.bump (SL_LANE_CRCERR o j) else s1
  let s3 := if 8 ≤ (fs.filter id).length then s2.setF (SL_LANE_STAT o j) SL_LANE_STAT_DEGRADED 1 else s2
  if fail && (s3.oct o).step == .dwell && s3.due o j then s3.attemptFail o (2 ^ j) else s3

/-- A check block (R70 to R73). The frame in progress when the lane gained lock is not whole: neither its COUNT nor its CRC16 can be compared. The format follows the octet's, from the first frame after the check block that follows FORMAT_SET's reply (R68, R87). DESIGN CHOICE: ADC_FLAGS[7:1], which R70 has reported and to which no register or reply gives a place, are reported nowhere. -/
def State.check (s : State) (o j : Nat) (b : List Byte) : State :=
  let l := s.lane o j
  let count := beAt b 2 6
  let diff := if l.part then 0 else (count + 2 ^ 48 - l.frameCount) % 2 ^ 48
  let crcFail := !l.part && beAt b 8 2 != l.crc
  let gap := l.jump == some diff && diff != 0
  let s1 := if bit (beAt b 11 1) 0 then s.bump (SL_LANE_OVR o j) else s
  let s2 := s1.frameEnd o j (crcFail || diff != 0 || l.frameErr)
  let s3 := s2.setLane o j { s2.lane o j with jump := if diff = 0 then none else some diff, fmt8 := l.fmtNext.getD l.fmt8, fmtNext := none }
  if gap then s3.loseLock true o j else s3

/-- DATA_BLOCK_RECEIVED: the block is taken whole, its samples are counted and delivered to the path of its lane; a special block of undefined type is ignored (R68, R72, R559). -/
def execDataBlockReceived (o j : Nat) (raw : List Byte) (s : State) : Host.Outcome State Fault Refusal :=
  whenOn s fun s => s.block (fun k => k == .data || k == .undefined) o j raw fun s b =>
    if blockKind b = .undefined then s
    else
      let l := s.lane o j
      s.setLane o j { l with crc := crc16 l.crc b, count := (l.count + 1) % 2 ^ 48, arrived := s.time.cycles, fifo := l.fifo ++ (blockSamples l.fmt8 b).map fun v => { v := v, crc := false, chk := false } }

/-- IDLE_BLOCK_RECEIVED: the block is covered by the frame's CRC16 and carries no samples (R69, R71). -/
def execIdleBlockReceived (o j : Nat) (raw : List Byte) (s : State) : Host.Outcome State Fault Refusal :=
  whenOn s fun s => s.block (· == .idle) o j raw fun s b => s.setLane o j { s.lane o j with crc := crc16 (s.lane o j).crc b }

/-- CHECK_BLOCK_RECEIVED (R72, R73, R559). -/
def execCheckBlockReceived (o j : Nat) (raw : List Byte) (s : State) : Host.Outcome State Fault Refusal :=
  whenOn s fun s => s.block (· == .check) o j raw fun s b => s.check o j b

/-- DEGRADED_CLEAR: 4,096 frames without a CRC failure (R95). -/
def execDegradedClear (o j : Nat) (s : State) : Host.Outcome State Fault Refusal :=
  whenOn s fun s => if 4096 ≤ (s.lane o j).clean then s.setF (SL_LANE_STAT o j) SL_LANE_STAT_DEGRADED 0 else s

/-! ### Control replies (R85, R87, R88) -/

/-- PRBS mode of an octet's lanes starts or stops; a lane in PRBS mode carries no samples (R97). -/
def State.prbsLanes (s : State) (o : Nat) : State :=
  let en := s.flag (SL_OCT_PRBS o) SL_OCT_PRBS_CHK_EN
  (List.range 8).foldl (fun s j =>
    if en && s.rfb (SL_OCT_PRBS o) SL_OCT_PRBS_CHK_LANES j then
      let s1 := s.loseLock false o j
      s1.setLane o j { s1.lane o j with prbs := some [], wait := true }
    else s.setLane o j { s.lane o j with prbs := none }) s

/-- An ADC_ACCESS ends: its reply is sent (R101). -/
def State.accessEnd (s : State) (c : Cmd) (status : Nat) (ws : List Word) : State :=
  s.answer 0x0205 c false (replyTo 0x0205 c status 0 0 ws) (status == stOk)

/-- A refused or unanswered exchange (R90, R91, R101). DESIGN CHOICE: the specification does not say what a refused or unanswered RX_SLEEP or RX_WAKE leaves; the receive direction stays as it was, awake or asleep, with it the control direction that was to sleep after it, and RX_SLEEP reads so. -/
def State.ctlFailed (s : State) (o : Nat) (why : CtlFor) (status : Nat) : State :=
  match why with
  | .hello => s.goDown true o
  | .propose _ => s.attemptFail o 0
  | .commit _ => s.attemptFail o 0
  | .access c => s.accessEnd c status []
  | .prbs => s.prbsLanes o
  | .rxSleep _ => s.setF (SL_OCT_CTL o) SL_OCT_CTL_RX_SLEEP 0
  | .rxWake => s.setF (SL_OCT_CTL o) SL_OCT_CTL_RX_SLEEP 1
  | _ => s

/-- The control direction is put to sleep: no STATUS is awaited any more, and an exchange under way or waiting keeps it awake until it ends (R99). -/
def State.ctlSleepNow (s : State) (o : Nat) : State :=
  let x := s.oct o
  let s1 := (s.setF (SL_OCT_CTL o) SL_OCT_CTL_CTL_SLEEP 1).setOct o { x with poll := none, pollDue := false }
  if x.x.isSome || !x.todo.isEmpty then s1.setOct o { s1.oct o with woken := true } else s1

/-- The receivers of an octet sleep once RX_SLEEP has been answered (R99). -/
def State.rxSleepNow (s : State) (o : Nat) (thenCtl : Bool) : State :=
  let was := s.octState o
  let s1 := (s.loseAll false o).setOctState o ocSleep
  let s2 := s1.setOct o { s1.oct o with before := was, fck := false }
  if thenCtl then s2.ctlSleepNow o else s2

/-- An accepted exchange (R87, R89, R99, R101). DESIGN CHOICE: R101's reply carries the data in W0, and R87 gives the board's reply to REG_WRITE no arguments: W0 holds bytes 6 to 9 of the board's reply to either. -/
def State.ctlDone (s : State) (o : Nat) (why : CtlFor) (b : List Byte) : State :=
  let x := s.oct o
  match why with
  | .hello => (s.setOct o { x with top := beAt b 4 1, formats := beAt b 5 1, fitted := beAt b 6 1, r := 0 }).climb o
  | .propose r => if x.step = .propose then s.sendCommit o r else s
  | .commit _ => if x.step = .commit then s.setOct o { x with step := .switching } else s
  | .format f => (List.range 8).foldl (fun s j => if s.locked o j then s.setLane o j { s.lane o j with fmtNext := some f } else s) (s.setOct o { x with fmt8 := f })
  | .prbs => s.prbsLanes o
  | .rxSleep thenCtl => s.rxSleepNow o thenCtl
  | .rxWake => ((s.setOctState o x.before).orderCheck o).serveAll o
  | .access c => s.accessEnd c stOk [w32 (beAt b 6 4)]

/-- CONTROL_REPLY_RECEIVED: the first copy with a correct BCRC and the matching TAG completes the exchange (R85). -/
def execControlReplyReceived (o j : Nat) (raw : List Byte) (s : State) : Host.Outcome State Fault Refusal :=
  whenOn s fun s => s.block (· == .reply) o j raw fun s b =>
    let x := s.oct o
    if beAt b 14 2 != crc16 0xFFFF (b.take 14) then s
    else if x.poll == some (beAt b 3 1) && beAt b 2 1 == 8 then
      (s.setOct o { x with poll := none, missed := 0 }).setF (SL_OCT_STAT o) SL_OCT_STAT_CTL_FAULT 0
    else
      match x.x with
      | none => s
      | some m =>
        if m.tag = beAt b 3 1 ∧ m.msg = beAt b 2 1 then
          let s1 := (s.setOct o { x with x := none }).setF (SL_OCT_STAT o) SL_OCT_STAT_CTL_FAULT 0
          (if beAt b 12 1 = 0 then s1.ctlDone o m.why b else s1.ctlFailed o m.why stNotPermitted).ctlNext o
        else s

/-- CONTROL_REPLY_TIMEOUT: 100 µs without a matching reply, on an octet or, for 64, on the Miltia link (R86, R434). -/
def execControlReplyTimeout (o : Nat) (s : State) : Host.Outcome State Fault Refusal :=
  whenOn s fun s =>
    if o = 64 then s.linkAgain else
    match (s.oct o).x with
    | none => s
    | some m =>
      if m.attempt < 4 then
        ((s.setOct o { s.oct o with x := some { m with attempt := m.attempt + 1 } }).bump (SL_OCT_CTLRETRY o)).ctlPut o fun q =>
          ctlBlock q m.msg m.tag m.args
      else
        (((s.setOct o { s.oct o with x := none }).setF (SL_OCT_STAT o) SL_OCT_STAT_CTL_FAULT 1).ctlFailed o m.why stWrongState).ctlNext o

/-- Send STATUS now (R88). -/
def State.statusNow (s : State) (o : Nat) : State :=
  let x := s.oct o
  (s.setOct o { x with tag := (x.tag + 1) % 256, poll := some x.tag, pollDue := false }).ctlPut o fun q => ctlBlock q 0x08 x.tag []

/-- Poll one octet: a control direction that is being woken sends its idle blocks first (R88, R99). -/
def State.pollOct (s : State) (o : Nat) : State :=
  if s.octState o = ocRunning ∧ s.flag (SL_OCT_CTL o) SL_OCT_CTL_CTL_SLEEP = false then
    if (s.oct o).waking then s.setOct o { s.oct o with pollDue := true } else s.statusNow o
  else s

/-- STATUS_POLL: a STATUS message to each RUNNING octet whose control direction is awake (R88, R99). -/
def execStatusPoll (s : State) : Host.Outcome State Fault Refusal := whenOn s fun s => (List.range 64).foldl State.pollOct s

/-- STATUS_REPLY_TIMEOUT: an unanswered STATUS; the third in a row sets CTL_FAULT (R88). -/
def execStatusReplyTimeout (o : Nat) (s : State) : Host.Outcome State Fault Refusal :=
  whenOn s fun s =>
    let x := s.oct o
    if x.poll.isSome then
      let s1 := s.setOct o { x with poll := none, missed := x.missed + 1 }
      if 3 ≤ x.missed + 1 then s1.setF (SL_OCT_STAT o) SL_OCT_STAT_CTL_FAULT 1 else s1
    else s

/-- CONTROL_WAKE_DONE: 20 µs of idle blocks have been sent, and what waits goes out (R88, R99). -/
def execControlWakeDone (o : Nat) (s : State) : Host.Outcome State Fault Refusal :=
  whenOn s fun s =>
    let x := s.oct o
    if x.waking then
      let s1 := s.setOct o { x with waking := false, woken := s.flag (SL_OCT_CTL o) SL_OCT_CTL_CTL_SLEEP }
      (if x.pollDue then s1.statusNow o else s1).ctlNext o
    else s

/-! ### Lock and signal events -/

/-- The first lock of an octet stores its offset; a later one that derives another stores it, flags it and logs it (R81, R82). -/
def State.storeOfs (s : State) (o ofs : Nat) : State :=
  let x := s.oct o
  let old := s.reg64 (SL_OCT_OFS_LO o)
  if !(s.running && s.relSet) then s
  else if !x.ofsSet then (s.setOct o { x with ofsSet := true }).setReg64 (SL_OCT_OFS_LO o) ofs
  else if old = ofs then s
  else (((s.setReg64 (SL_OCT_OFS_LO o) ofs).seen (SL_OCT_STAT o) SL_OCT_STAT_OFFSET_CHANGED evLanes)).logEvent 0x0201 1
    (w32 o :: (loHi old ++ loHi ofs))

/-- A lead outside the window of 16.0 ns, in units of 10 ps (R80). -/
def leadOut (d : Int) : Bool := decide (d < 0) || decide (1600 < d)

/-- LEAD takes a lane's lead in units of 10 ps; one that its 16 bits do not hold reads as a free value (R100). -/
def State.putLead (s : State) (o j : Nat) (d : Int) : State :=
  if 0 ≤ d ∧ d < 65536 then s.setF (SL_LANE_STAT o j) SL_LANE_STAT_LEAD d.toNat
  else (s.setF (SL_LANE_STAT o j) SL_LANE_STAT_LEAD (Config.leadOver s.free)).draw

/-- The format of a lane that gains lock, now and from its next check block on: the octet's, or that of a locked lane which a FORMAT_SET has not reached yet (R68, R87). -/
def State.lockFormat (s : State) (o : Nat) : Bool × Option Bool :=
  match (List.range 8).find? fun k => s.locked o k && (s.lane o k).fmtNext.isSome with
  | some k => ((s.lane o k).fmt8, (s.lane o k).fmtNext)
  | none => ((s.oct o).fmt8, none)

/-- BLOCK_LOCK_GAINED: polarity, index, SEQ and counts as the 64 blocks gave them, the lead that lock needs in units of 10 ps, and the offset that the release point gives (R74, R76, R77, R80 to R82). On the Miltia link, for 64, the lane alone counts (R435). -/
def execBlockLockGained (o j : Nat) (b7 : Bool) (lane seq count idx : Nat) (lead : Int) (ofs : Nat) (s : State) : Host.Outcome State Fault Refusal :=
  whenOn s fun s =>
    if o = 64 then s.linkGain j
    else if s.locked o j || s.flag (SL_LANE_STAT o j) SL_LANE_STAT_LOS || !(s.oct o).fck || !s.due o j || s.rxOff o ||
        !(s.octState o != ocDown || (s.oct o).step != .idle) || (s.lane o j).prbs.isSome then s
    else
      let l := s.lane o j
      let f := s.lockFormat o
      let l1 : LaneSt := { laneReset with
        inv := !b7, idx := lane % 8, seq := seq % 8, count := count % 2 ^ 48, frameCount := count % 2 ^ 48, fmt8 := f.1, fmtNext := f.2, head := idx
        frameIdx := idx, arrived := s.time.cycles, wait := l.wait, fails := l.fails }
      let s1 := ((s.setLane o j l1).setF (SL_LANE_STAT o j) SL_LANE_STAT_LOCK 1).setFB (SL_OCT_MAP o) SL_OCT_MAP_POL j (!b7)
      let s2 := s1.setF (SL_OCT_MAP o) ⟨3 * j, 3⟩ (lane % 8)
      let s3 := (s2.putLead o j lead).setF (SL_LANE_STAT o j) SL_LANE_STAT_SKEW_RANGE (b2n (s2.relSet && leadOut lead))
      let s4 := (s3.storeOfs o (ofs % 2 ^ 64)).orderCheck o
      (s4.serveAll o).lanesDone o

/-- BLOCK_LOCK_LOST: of an octet's lane, or for 64 of the Miltia link's (R94, R435). -/
def execBlockLockLost (o j : Nat) (s : State) : Host.Outcome State Fault Refusal :=
  whenOn s fun s => if o = 64 then s.linkLose j else s.loseLock true o j

/-- The forwarded clock of an octet is lost: all eight lanes lose lock (R95). -/
def State.clockLost (s : State) (o : Nat) : State :=
  let s1 := ((s.setOct o { s.oct o with fck := false }).setF (SL_OCT_STAT o) SL_OCT_STAT_FCK_LOSS 1).seen
    (SL_OCT_STAT o) SL_OCT_STAT_FCK_LOST_SEEN evLanes
  s1.loseAll true o

/-- LOSS_OF_SIGNAL: on data lane j, or on the forwarded clock where no lane is named; on the Miltia link for 64 (R75, R95, R435). -/
def execLossOfSignal (o : Nat) (lane : Option Nat) (s : State) : Host.Outcome State Fault Refusal :=
  whenOn s fun s =>
    if o = 64 then s.linkDark lane
    else if s.rxOff o then s
    else
      match lane with
      | none => s.clockLost o
      | some j => (s.loseLock true o j).setF (SL_LANE_STAT o j) SL_LANE_STAT_LOS 1

/-- LOSS_OF_SIGNAL_CLEAR (R75): a forwarded clock then locks under FORWARDED_CLOCK_LOCK. -/
def execLossOfSignalClear (o : Nat) (lane : Option Nat) (s : State) : Host.Outcome State Fault Refusal :=
  whenOn s fun s => if o = 64 then s.linkSeen lane else match lane with | none => s | some j => s.setF (SL_LANE_STAT o j) SL_LANE_STAT_LOS 0

/-- FORWARDED_CLOCK_LOST: by frequency, of an octet or, for 64, of the Miltia link (R95, R435). -/
def execForwardedClockLost (o : Nat) (s : State) : Host.Outcome State Fault Refusal :=
  whenOn s fun s => if o = 64 then s.linkDark none else if s.rxOff o then s else s.clockLost o

/-- LANE_SLIP: a locked lane's lead leaves the window (R80). -/
def execLaneSlip (o j : Nat) (lead : Int) (s : State) : Host.Outcome State Fault Refusal :=
  whenOn s fun s =>
    if s.locked o j then
      ((s.loseLock true o j).putLead o j lead).seen (SL_LANE_STAT o j) SL_LANE_STAT_SLIP evLanes
    else s

/-- EQ_FREEZE (R93). -/
def execEqFreeze (o j : Nat) (s : State) : Host.Outcome State Fault Refusal :=
  whenOn s fun s => s.setF (SL_LANE_STAT o j) SL_LANE_STAT_EQ_FROZEN 1

/-- EQ_RESUME (R93). -/
def execEqResume (o j : Nat) (s : State) : Host.Outcome State Fault Refusal :=
  whenOn s fun s => s.setF (SL_LANE_STAT o j) SL_LANE_STAT_EQ_FROZEN 0

/-! ### Ladder events -/

/-- An exchange that belongs to a ladder. -/
def CtlMsg.climbs (m : CtlMsg) : Bool :=
  match m.why with
  | .hello => true
  | .propose _ => true
  | .commit _ => true
  | _ => false

/-- LADDER_START: RELADDER reads 1 until step 0 begins; the exchanges of an earlier ladder are dropped, others go on, the next of them at once (R86, R89, R100). DESIGN CHOICE: the specification does not say whether a ladder that starts again takes back the lanes dropped before; it does, and EXCLUDED reads 0. -/
def execLadderStart (o : Nat) (s : State) : Host.Outcome State Fault Refusal :=
  whenOn s fun s =>
    if s.flag (SL_OCT_CTL o) SL_OCT_CTL_RELADDER then
      let s1 := (s.loseAll true o).setF (SL_OCT_CTL o) SL_OCT_CTL_RELADDER 0
      let s2 := (List.range 8).foldl (fun s j => s.setF (SL_LANE_STAT o j) SL_LANE_STAT_EXCLUDED 0) s1
      let x := s2.oct o
      (((s2.setOct o { x with
          step := .lock0, r := 0, goal := 0, back := false, tries := 0, failed := 0, fck := false, retry := false, x := x.x.filter (!·.climbs), todo := x.todo.filter (!·.climbs)
          poll := none, pollDue := false
          target := s2.rf (SL_OCT_CTL o) SL_OCT_CTL_TARGET_RUNG, weak := s2.flag (SL_OCT_CTL o) SL_OCT_CTL_EXCLUDE_WEAK }).setOctState o
        ocL0Lock).setF (SL_OCT_STAT o) SL_OCT_STAT_RUNG 0).ctlNext o
    else s

/-- The bound of the step in progress of an octet's ladder has passed (R89 to R91). -/
def State.stepTimeout (s : State) (o : Nat) : State :=
  let x := s.oct o
  match x.step with
  | .lock0 =>
    if x.fck then
      ((List.range 8).foldl (fun s j => if s.locked o j then s else s.setF (SL_LANE_STAT o j) SL_LANE_STAT_EXCLUDED 1) s).sendHello o
    else s.goDown true o
  | .clock => s.attemptFail o 0
  | .lanes => s.attemptFail o (((List.range 8).filter fun j => s.due o j && !s.locked o j).map (2 ^ ·)).sum
  | .dwell => s.attemptFail o (((List.range 8).filter fun j => s.due o j && decide ((s.lane o j).clean < 4096)).map (2 ^ ·)).sum
  | _ => s

/-- LADDER_STEP_TIMEOUT: of octet `o`, or of the Miltia link for 64 (R90, R434). -/
def execLadderStepTimeout (o : Nat) (s : State) : Host.Outcome State Fault Refusal :=
  whenOn s fun s => if o = 64 then s.linkTimeout else s.stepTimeout o

/-- RUNG_SWITCH: 10 µs after the commit reply, of an octet or, for 64, on the Miltia link (R89, R434). -/
def execRungSwitch (o : Nat) (s : State) : Host.Outcome State Fault Refusal :=
  whenOn s fun s =>
    let x := s.oct o
    if o = 64 then s.linkSwitch
    else if x.step = .switching then
      ((s.loseAll false o).setOct o { x with step := .clock, fck := false }).setF (SL_OCT_STAT o) SL_OCT_STAT_RUNG x.goal
    else s

/-- FORWARDED_CLOCK_LOCK: lock on SL_FCK at the octet's rate, or for 64 on ML_RXCK (R89, R95, R434). -/
def execForwardedClockLock (o : Nat) (s : State) : Host.Outcome State Fault Refusal :=
  whenOn s fun s =>
    let x := s.oct o
    if o = 64 then s.linkClock
    else if s.rxOff o then s
    else (s.setOct o { x with fck := true, step := if x.step = .clock then .lanes else x.step }).setF (SL_OCT_STAT o) SL_OCT_STAT_FCK_LOSS 0

/-- 4,096 consecutive clean frames on every lane due in service record the rung (R89). -/
def State.dwellEnd (s : State) (o : Nat) : State :=
  let x := s.oct o
  if x.step = .dwell ∧ ((List.range 8).all fun j => !s.due o j || decide (4096 ≤ (s.lane o j).clean)) = true then
    (s.setOct o { x with r := x.goal, tries := 0 }).climb o
  else s

/-- DWELL_PASSED: of octet `o`, or for 64 the 65,536 clean blocks of the Miltia link (R89, R434). -/
def execDwellPassed (o : Nat) (s : State) : Host.Outcome State Fault Refusal :=
  whenOn s fun s => if o = 64 then s.linkDwell else s.dwellEnd o

/-- OCTET_DOWN_RETRY: step 0 again every 100 ms, with the attempt counts cleared; of the Miltia link for 64 (R90, R91, R434). -/
def execOctetDownRetry (o : Nat) (s : State) : Host.Outcome State Fault Refusal :=
  whenOn s fun s =>
    let x := s.oct o
    if o = 64 then s.linkRetry
    else if s.octState o = ocDown ∧ x.step = .idle ∧ x.retry = true then
      let s1 := (List.range 8).foldl (fun s j => s.setF (SL_LANE_STAT o j) SL_LANE_STAT_EXCLUDED 0) s
      (s1.setOct o { x with step := .lock0, retry := false, tries := 0, fck := false, r := 0, back := false }).setOctState o ocL0Lock
    else s

/-- The epoch of slice `o` in which a path rejoins at boundary `b` is still to begin: `b` is a boundary of the epochs that the slice has not crossed (R162, R164). -/
def State.epochAhead (s : State) (o b : Nat) : Bool := (s.integrating || b % 8388608 == 0) && decide (tblGet 0 s.ch.epoch o ≤ b)

/-- A path rejoins at boundary `b`: its lane serves, its slice delivers it again, and the standard program seeds its scale in the epoch of `b` (R94, R136, R164). -/
def State.rejoin (s : State) (o i b : Nat) : State :=
  let s1 := match s.laneOf o i with
    | some j => if (s.lane o j).wait then (s.setFB (SL_OCT_STAT o) SL_OCT_STAT_IN_SERVICE i true).setLane o j { s.lane o j with wait := false } else s
    | none => s
  let m := s1.slice o
  let p := 8 * o + i
  let x := s1.scale p
  let s2 := s1.setSlice o { m with back := tblSet 0 m.back i (b + 1) }
  if !s1.runsStd o || tblGet 0 s1.ch.epoch o == 0 then s2
  else if s1.epochAhead o b then s2.setScale p { x with seedNext := true }
  else s2.seedNow p

/-- A path may rejoin: its lane has relocked with 64 clean frames, or its lane serves and its slice has restarted (R94, R136). -/
def State.rejoinReady (s : State) (o i : Nat) : Bool :=
  match s.laneOf o i with
  | none => false
  | some j =>
    if (s.lane o j).wait then s.mayServe o j && decide (64 ≤ (s.lane o j).clean)
    else s.inService o i && bit (s.slice o).mute i && s.sliceState o == mdRunning

/-- The next sample to be released opens a boundary at which paths rejoin: one of the grid ahead, or one that has fallen while the samples were on their way (R94). -/
def State.rejoinsAt (s : State) (t : Nat) : Bool := s.rejoinAt t == t || (s.integrating && s.ch.bounds.any (·.1 == t))

/-- PATH_REJOIN: at the boundary that the next sample to be released opens (R94). -/
def execPathRejoin (o i : Nat) (s : State) : Host.Outcome State Fault Refusal :=
  whenOn s fun s =>
    if s.running && s.rejoinReady o i && s.rejoinsAt s.sl.next then s.rejoin o i s.sl.next else s

/-! ### Release (R78 to R81) -/

/-- A lane's lead once the release point stands, in units of 10 ps by octet × 8 + lane: a lead outside the window takes a serving lane out of service (R80, R100). -/
def State.leadSet (s : State) (q : Nat × Int) : State :=
  let o := q.1 / 8
  let j := q.1 % 8
  let s1 := s.putLead o j q.2
  if s.locked o j && leadOut q.2 then (s1.setF (SL_LANE_STAT o j) SL_LANE_STAT_SKEW_RANGE 1).outOfService o j else s1

/-- Sample index of a lane's sample that is due for release now: its newest arrived with its last block and is due a fixed time after, the receive latency and the lane's lead (R78, R79). -/
def State.dueIdx (s : State) (o j : Nat) : Int :=
  let l := s.lane o j
  let lead := (s.rf (SL_LANE_STAT o j) SL_LANE_STAT_LEAD * s.time.rateN + 5000) / 10000
  (l.head : Int) + l.fifo.length - 1 - s.latency - lead + (s.time.cycles - l.arrived) * s.time.rateN / 200

/-- Every octet with a locked lane stores its offset: the sample of a lane that is due now is the one of array time `t`; a lane within the window is taken before one outside it (R81, R83). -/
def State.rederive (s : State) (t : Int) : State :=
  (List.range 64).foldl (fun s o =>
    match ((List.range 8).find? fun j => s.locked o j && !s.flag (SL_LANE_STAT o j) SL_LANE_STAT_SKEW_RANGE).or ((List.range 8).find? (s.locked o)) with
    | some j => (s.setOct o { s.oct o with ofsSet := true }).setReg64 (SL_OCT_OFS_LO o) (toBits 64 (t - s.dueIdx o j))
    | none => s) s

/-- The first ladder since reset has ended on every octet that is not asleep (R79, R426). -/
def State.laddersEnded (s : State) : Bool := (List.range 64).all fun o => (s.oct o).first || s.flag (SL_OCT_CTL o) SL_OCT_CTL_RX_SLEEP

/-- RELEASE_POINT_SET: set on the latest in-service lane once every octet that is not asleep has ended its first ladder; `leads` gives each lane's lead in units of 10 ps by octet × 8 + lane (R79, R100). -/
def execReleasePointSet (leads : List (Nat × Int)) (s : State) : Host.Outcome State Fault Refusal :=
  whenOn s fun s =>
    let serving := (List.range 64).filter fun o => s.rf (SL_OCT_STAT o) SL_OCT_STAT_IN_SERVICE != 0
    if s.relSet || !s.laddersEnded || serving.isEmpty then s
    else
      let rung := (serving.map s.rung).foldl min 3
      let s1 := (s.setF SL_REL_STAT SL_REL_STAT_SET 1).setF SL_REL_STAT SL_REL_STAT_REL_RUNG rung
      let s2 := leads.foldl State.leadSet s1
      if s2.running then s2.rederive (s2.now - s2.latency) else s2

/-- The epoch load re-derives each octet's offset; the samples of a frame in progress that have been released are those of the time line before (R53, R73, R81). -/
def State.lanesEpoch (s : State) (load : Nat) : State :=
  let s1 := { s with
    sl := { s.sl with next := load, lanes := s.sl.lanes.map fun q => (q.1, { q.2 with rel := [], relOld := q.2.rel }) }
    md := { s.md with past := s.md.store } }
  if s.relSet then s1.rederive ((load : Int) - s.latency) else s1

/-- The lane that serves a path, if one does. -/
def State.servingLane (s : State) (p : Nat) : Option Nat := if s.inService (p / 8) (p % 8) then s.laneOf (p / 8) (p % 8) else none

/-- Samples of a lane older than `t` have no place any more; the rest of the lane from `t` on. -/
def laneFrom (ofs : Int) (t : Nat) (l : LaneSt) : LaneSt :=
  let n := min l.fifo.length ((t : Int) - (l.head + ofs)).toNat
  { l with head := l.head + n, fifo := l.fifo.drop n }

/-- A sample replaced by zeros under the lane-loss flag (R94). -/
def smpLost (t : Nat) : Smp := { t := t, v := 0, loss := true, crc := false, chk := false, ecc := false }

/-- The sample of path p at array time t; zeros replace it where no lane serves the path, and every path's before the release point is set (R79, R94, R127). -/
def State.released (s : State) (t p : Nat) : Smp :=
  match s.servingLane p with
  | none => smpLost t
  | some j =>
    let l := laneFrom (s.ofs (p / 8)) t (s.lane (p / 8) j)
    match l.fifo with
    | x :: _ => if s.relSet = true ∧ (l.head : Int) + s.ofs (p / 8) = t then { t := t, v := x.v, loss := false, crc := x.crc, chk := x.chk, ecc := false } else smpLost t
    | [] => smpLost t

/-- Every serving lane holds the sample of array time t, or later ones; before the release point is set none is waited for. -/
def State.arrived (s : State) (t : Nat) : Bool :=
  !s.relSet ||
  (List.range 512).all fun p =>
    match s.servingLane p with
    | none => true
    | some j => decide ((t : Int) < (s.lane (p / 8) j).head + (s.lane (p / 8) j).fifo.length + s.ofs (p / 8))

/-- A lane's sample of array time t leaves it: noted where its frame is still in progress (R73). -/
def lanePop (o : Nat) (s : State) (t : Nat) (x : Nat → Smp) (j : Nat) : LaneSt :=
  let l := s.lane o j
  let m := laneFrom (s.ofs o) (t + 1) l
  if s.servingLane (8 * o + l.idx) = some j ∧ (x (8 * o + l.idx)).loss = false ∧ l.frameIdx < m.head then { m with rel := t :: m.rel } else m

/-- Take the samples up to array time t out of every lane. -/
def State.lanesPop (s : State) (t : Nat) (x : Nat → Smp) : State :=
  (List.range 512).foldl (fun u i => if u.locked (i / 8) (i % 8) then u.setLane (i / 8) (i % 8) (lanePop (i / 8) s t x (i % 8)) else u) s

/-- Before the ATC runs, a sample due for release has no array time and is dropped (R79, R81). -/
def State.lanesDrop (s : State) : State :=
  (List.range 512).foldl (fun s i =>
    let l := s.lane (i / 8) (i % 8)
    s.setLane (i / 8) (i % 8) (laneFrom 0 (s.dueIdx (i / 8) (i % 8) + 1).toNat l)) s

/-- Write the samples of array time t into the rings of the sample stores (R127). -/
def State.storeSamples (s : State) (t : Nat) (smp : Nat → Smp) : State :=
  { s with md := { s.md with
      w := t + 1
      store := (List.range 512).foldl (fun st p =>
        tblSet none st (p * 131072 + t % 131072) (some (smp p))) s.md.store } }

/-- The paths of a slice that deliver zeros for the spectrum that has just been completed: the slice is stopped, it is no spectrum from before its faulting ST, and the core stop has not stopped every delivery (R133, R136, R482). DESIGN CHOICE (notes/assumptions/84): staging holds as zeros with lane loss the paths of a slice whose program declares no STAGE_OUT too. -/
def State.idleZero (s : State) (k st : Nat) : Bool :=
  !(s.sliceState k == mdRunning || s.sliceState k == mdSwapping) && decide ((s.slice k).fault ≤ st) && !s.coreStopped

/-- The last sample of a spectrum has been released: slices that do not compute it deliver zeros with lane loss, and a stopped slice takes the calibration and program swaps that have fired (R136, R142, R156). -/
def State.spectrumEnd (s : State) (st : Nat) : State :=
  (List.range 64).foldl (fun s k =>
    let s1 := if s.sliceState k == mdRunning || s.sliceState k == mdSwapping then s else (s.calSwap k st).swapReached k (st + 8192)
    if s1.idleZero k st then s1.zeroSpectra k st 1 else s1) s

/-- Slices whose program has fallen three spectra behind (R131). -/
def State.lateCheck (s : State) : State := (List.range 64).foldl (fun s k => if s.isLate k then s.sliceExc k excLate else s) s

/-- SAMPLE_RELEASE: one sample period is released to Saffron, the Madder stores and Umber with its array time (R78, R81, R94). Before the release point is set zeros with lane loss take the place of every path's samples once array time runs, without any receive latency, and what would be due before array time runs is dropped (R79). -/
def execSampleRelease (s : State) : Host.Outcome State Fault Refusal :=
  whenOn s fun s =>
    if !s.running then (if s.relSet then s.lanesDrop else s)
    else
      let t := s.sl.next
      if s.now < t + (if s.relSet then s.latency else 0) || !s.arrived t then s
      else
        let smp := s.released t
        let s1 := (s.storeSamples t smp).saffron t smp
        let s2 := { (s1.lanesPop t smp) with sl := { (s1.lanesPop t smp).sl with next := t + 1 } }
        let s3 := s2.lateCheck
        if (t + 1) % 8192 = 0 then s3.spectrumEnd (t + 1 - 8192) else s3

/-! ### PRBS (R97, R98) -/

/-- Degree and second tap of a pattern (R97). -/
def prbsTaps : Nat → Nat × Nat
  | 0 => (7, 6)
  | 1 => (15, 14)
  | 2 => (23, 18)
  | _ => (31, 28)

/-- A block time of the control lane in Saffron cycles at a rung: 128 bits at the nominal rate (R64, R67). -/
def ctlBlockTime (r : Nat) : Nat := 80 / 2 ^ r

/-- The next bit of a pattern from its last bits, newest first. -/
def prbsNext (pat : Nat) (last : List Bool) : Bool :=
  Bool.xor (last.getD ((prbsTaps pat).1 - 1) false) (last.getD ((prbsTaps pat).2 - 1) false)

/-- Run a synchronised checker over received bits: its state and the bits that differ. -/
def prbsRun (pat : Nat) : List Bool → List Bool → List Bool × Nat
  | last, [] => (last, 0)
  | last, b :: bs =>
    let e := prbsNext pat last
    let r := prbsRun pat (e :: last.take 30) bs
    (r.1, r.2 + b2n (e != b))

/-- Synchronise on the first 64 bits: the polarity under which they follow the pattern, and the checker's state (R97). -/
def prbsSync (pat : Nat) (bits : List Bool) : Option (Bool × List Bool) :=
  let first := bits.take 64
  let d := (prbsTaps pat).1
  let fits := fun (inv : Bool) =>
    let t := first.map (Bool.xor inv)
    (prbsRun pat (t.take d).reverse (t.drop d)).2 == 0 && t.any id
  let state := fun (inv : Bool) => ((first.map (Bool.xor inv)).reverse).take 31
  if bits.length < 64 then none
  else if fits false then some (false, state false)
  else if fits true then some (true, state true)
  else none

/-- `n` bits of an octet's generator: each bit, and whether it leaves inverted: one in every 2^(8 + 2n) under INJ_RATE n, and the first under INJ_ONE (R98). -/
def prbsBits (pat rate : Nat) : Nat → OctSt → OctSt × List Bool
  | 0, x => (x, [])
  | n + 1, x =>
    let b := prbsNext pat x.gen
    let e := x.inject || (rate != 0 && (x.genN + 1) % 2 ^ (8 + 2 * rate) == 0)
    let r := prbsBits pat rate n { x with gen := b :: x.gen.take 30, genN := x.genN + 1, inject := false }
    (r.1, Bool.xor b e :: r.2)

/-- Sixteen bytes of 128 bits, the first bit sent the highest (R67). -/
def bitsToBytes (bs : List Bool) : List Byte := be 16 ((bs.zipIdx.map fun b => b2n b.1 * 2 ^ (127 - b.2)).sum)

/-- The control lane is driven: its first ladder has begun and its direction does not sleep (R84, R89, R99). -/
def State.ctlDriven (s : State) (o : Nat) : Bool := ((s.oct o).step != .idle || (s.oct o).first || (s.oct o).retry) && !s.ctlAsleep o

/-- One block time of an octet's control lane with no message to send: an idle block, or 128 bits of the generator while GEN_EN is set (R84, R97). DESIGN CHOICE: the generator starts from ones and fills the block times that messages leave. -/
def State.ctlIdle (s : State) (o : Nat) : State :=
  if !s.ctlDriven o || s.time.cycles % ctlBlockTime (s.rung o) != 0 then s
  else if s.flag (SL_OCT_PRBS o) SL_OCT_PRBS_GEN_EN then
    let r := prbsBits (s.rf (SL_OCT_PRBS o) SL_OCT_PRBS_PAT) (s.rf (SL_OCT_PRBS o) SL_OCT_PRBS_INJ_RATE) 128 (s.oct o)
    (s.setOct o r.1).emit (.ctl o (bitsToBytes r.2))
  else s.ctlPut o idleBlock

/-- The control lanes over one Saffron cycle. -/
def State.ctlTick (s : State) : State := (List.range 64).foldl State.ctlIdle s

/-- PRBS_PATTERN_RECEIVED: bits received on a checked lane, oldest first (R97). -/
def execPrbsPatternReceived (o j : Nat) (bs : List Bool) (s : State) : Host.Outcome State Fault Refusal :=
  whenOn s fun s =>
    let pat := s.rf (SL_OCT_PRBS o) SL_OCT_PRBS_PAT
    if !(s.flag (SL_OCT_PRBS o) SL_OCT_PRBS_CHK_EN && s.rfb (SL_OCT_PRBS o) SL_OCT_PRBS_CHK_LANES j) then s
    else
      let l := s.lane o j
      match l.prbs with
      | none => s
      | some [] =>
        match prbsSync pat bs with
        | none => s
        | some r =>
          let q := prbsRun pat r.2 ((bs.drop 64).map (Bool.xor r.1))
          ((s.setLane o j { l with inv := r.1, prbs := some q.1 }).setFB (SL_OCT_MAP o) SL_OCT_MAP_POL j r.1).bumpBy (SL_LANE_PRBSERR o j) counter32 q.2
      | some last =>
        let q := prbsRun pat last (bs.map (Bool.xor l.inv))
        (s.setLane o j { l with prbs := some q.1 }).bumpBy (SL_LANE_PRBSERR o j) counter32 q.2

/-! ### Commands and counter clears (R92, R100, R101) -/

/-- Octets of a 64-bit mask in two payload words, octet 0 in bit 0 of the second. -/
def Cmd.mask64 (c : Cmd) (i : Nat) : List Nat := (List.range 64).filter (bit (c.q i))

/-- A ladder runs or is asked for (R92). -/
def State.laddering (s : State) (o : Nat) : Bool := (s.oct o).step != .idle || s.flag (SL_OCT_CTL o) SL_OCT_CTL_RELADDER

/-- The receive direction of an octet is asleep, or has been told to sleep (R92, R99). -/
def State.rxAsleep (s : State) (o : Nat) : Bool := s.flag (SL_OCT_CTL o) SL_OCT_CTL_RX_SLEEP || s.octState o == ocSleep

/-- The refusals of R92 for some octets: a message needed on a faulted control lane or a receive direction needed awake, and a ladder in progress. -/
def State.laneRefuse (s : State) (os : List Nat) (needsRx : Bool) (needsCtl : Nat → Bool) : Option CmdRes :=
  if os.any fun o => (needsCtl o && s.flag (SL_OCT_STAT o) SL_OCT_STAT_CTL_FAULT) || (needsRx && s.rxAsleep o) then some (bad stWrongState [])
  else if os.any s.laddering then some (bad stResourceBusy [])
  else none

/-- LANE_LADDER (R101, R66, R92). DESIGN CHOICE: R66's refusal names the octet, and no budget code is given for a lane: W0 of the reply is 0 and W1 the octet. -/
def execLaneLadder (c : Cmd) (s : State) : Host.Outcome State Fault Refusal :=
  .next (s.command 0x0201 c (fun _ => needLen 3 c) fun s =>
    let os := c.mask64 1
    match s.laneRefuse os true (fun _ => true) with
    | some r => r
    | none =>
      match os.find? fun o => !carries (c.f 0 31 30) (s.flag (SL_OCT_CTL o) SL_OCT_CTL_FMT) s.time.rateN with
      | some o => bad stBudget [0, w32 o]
      | none => .ok [] (os.foldl (fun s o =>
          ((s.setF (SL_OCT_CTL o) SL_OCT_CTL_TARGET_RUNG (c.f 0 31 30)).setF (SL_OCT_CTL o) SL_OCT_CTL_EXCLUDE_WEAK (c.f 0 29 29)).setF
            (SL_OCT_CTL o) SL_OCT_CTL_RELADDER 1) s))

/-- A sleeping control direction is woken to stay awake: 20 µs of idle blocks precede its next message (R99). -/
def State.ctlWake (s : State) (o : Nat) : State :=
  let s1 := s.setF (SL_OCT_CTL o) SL_OCT_CTL_CTL_SLEEP 0
  if s.ctlAsleep o then s1.setOct o { s.oct o with waking := true } else s1.setOct o { s.oct o with woken := false }

/-- Put an octet's directions to sleep, or wake them: the receive direction sleeps first, and the control direction wakes first (R99). -/
def State.sleepOct (s : State) (rx ctl : Bool) (o : Nat) : State :=
  let was := s.flag (SL_OCT_CTL o) SL_OCT_CTL_RX_SLEEP
  let s1 := if ctl then s else s.ctlWake o
  if rx && !was then (s1.setF (SL_OCT_CTL o) SL_OCT_CTL_RX_SLEEP 1).ctlSend o (.rxSleep ctl) 0x06 []
  else
    let s2 := if was && !rx then (s1.setF (SL_OCT_CTL o) SL_OCT_CTL_RX_SLEEP 0).ctlSend o .rxWake 0x07 [] else s1
    if ctl && !s.flag (SL_OCT_CTL o) SL_OCT_CTL_CTL_SLEEP then s2.ctlSleepNow o else s2

/-- LANE_SLEEP: only a change of the receive direction needs the control lane (R92, R99, R101). -/
def execLaneSleep (c : Cmd) (s : State) : Host.Outcome State Fault Refusal :=
  .next (s.command 0x0202 c (fun _ => needLen 3 c) fun s =>
    let os := c.mask64 1
    match s.laneRefuse os false fun o => bit (c.w 0).toNat 1 != s.flag (SL_OCT_CTL o) SL_OCT_CTL_RX_SLEEP with
    | some r => r
    | none => .ok [] (os.foldl (State.sleepOct · (bit (c.w 0).toNat 1) (bit (c.w 0).toNat 0)) s))

/-- What a write of an octet's SL_OCT_CTL or SL_OCT_PRBS by the control processor does beyond its fields, from the state before to the state after: sleep and wake, an injected error, a counted check error, and PRBS mode (R98, R99, R100). INJ_ONE and CHK_INJ read 0. -/
def State.octetWrite (s t : State) (off : Nat) : State :=
  match (List.range 64).find? fun o => off == SL_OCT_CTL o || off == SL_OCT_PRBS o with
  | none => t
  | some o =>
    if off = SL_OCT_CTL o then
      let f := fun (u : State) => (u.setF off SL_OCT_CTL_RX_SLEEP (s.rf off SL_OCT_CTL_RX_SLEEP)).setF off SL_OCT_CTL_CTL_SLEEP (s.rf off SL_OCT_CTL_CTL_SLEEP)
      (f t).sleepOct (t.flag off SL_OCT_CTL_RX_SLEEP) (t.flag off SL_OCT_CTL_CTL_SLEEP) o
    else
      let x := t.oct o
      let t1 := if t.flag off SL_OCT_PRBS_INJ_ONE then t.setOct o { x with inject := true } else t
      let t2 := if t.flag off SL_OCT_PRBS_CHK_INJ && t.flag off SL_OCT_PRBS_CHK_EN then
          (List.range 8).foldl (fun u j => if t.rfb off SL_OCT_PRBS_CHK_LANES j then u.bump (SL_LANE_PRBSERR o j) else u) t1 else t1
      let t3 := (t2.setF off SL_OCT_PRBS_INJ_ONE 0).setF off SL_OCT_PRBS_CHK_INJ 0
      if s.flag off SL_OCT_PRBS_CHK_EN = t.flag off SL_OCT_PRBS_CHK_EN ∧ s.rf off SL_OCT_PRBS_CHK_LANES = t.rf off SL_OCT_PRBS_CHK_LANES ∧
          s.rf off SL_OCT_PRBS_PAT = t.rf off SL_OCT_PRBS_PAT then t3
      else t3.prbsLanes o

/-- LANE_PRBS: sets SL_OCT_PRBS and sends PRBS to the board (R97, R101). DEDUCED: the board starts its pattern after its reply, so the lanes enter PRBS mode when the exchange ends; they leave it at once. DESIGN CHOICE: R87's lane mask and start byte, to which R101 gives no values, carry CHK_LANES and CHK_EN. -/
def execLanePrbs (c : Cmd) (s : State) : Host.Outcome State Fault Refusal :=
  .next (s.command 0x0203 c (fun _ => needLen 2 c) fun s =>
    let o := c.f 1 5 0
    match s.laneRefuse [o] true (fun _ => true) with
    | some r => r
    | none =>
      let w := c.w 0 &&& 0xF70000FF
      let en := bit w.toNat 28
      let s1 := s.setReg (SL_OCT_PRBS o) w
      .ok [] ((if en then s1 else s1.prbsLanes o).ctlSend o .prbs 0x05
        (be 1 (c.f 0 31 30) ++ be 1 (c.f 0 7 0) ++ be 1 (b2n en))))

/-- LANE_STATUS (R101). -/
def execLaneStatus (c : Cmd) (s : State) : Host.Outcome State Fault Refusal :=
  .next (s.command 0x0204 c (fun _ => needLen 1 c) fun s =>
    let o := c.f 0 5 0
    .ok ([s.reg (SL_OCT_STAT o), s.reg (SL_OCT_MAP o)] ++ (List.range 8).map fun j => s.reg (SL_LANE_STAT o j)) s)

/-- ADC_ACCESS: the reply waits for the end of the exchange (R101). -/
def execAdcAccess (c : Cmd) (s : State) : Host.Outcome State Fault Refusal :=
  .next (s.command 0x0205 c (fun _ => needLen 3 c) fun s =>
    let o := c.f 0 5 0
    if s.flag (SL_OCT_STAT o) SL_OCT_STAT_CTL_FAULT then bad stWrongState []
    else if bit (c.w 0).toNat 31 then
      .later (s.ctlSend o (.access c) 0x09 (be 2 (c.f 1 15 0) ++ be 4 (c.w 2).toNat))
    else .later (s.ctlSend o (.access c) 0x0A (be 2 (c.f 1 15 0))))

/-- RELEASE_SET: the open integration ends with a flag, and the release point is set again on the latest in-service lane (R83). -/
def execReleaseSet (c : Cmd) (s : State) : Host.Outcome State Fault Refusal :=
  .next (s.command 0x0206 c (fun _ => needLen 0 c) fun s =>
    let s1 := s.endEarly.setF SL_REL_STAT SL_REL_STAT_SET 0
    .ok [] ((List.range 64).foldl (fun s o =>
      (List.range 8).foldl (fun s j => s.setF (SL_LANE_STAT o j) SL_LANE_STAT_SKEW_RANGE 0) (s.setOct o { s.oct o with ofsSet := false })) s1))

/-- The counters of an octet (R100). -/
def slCounters (o : Nat) : List Nat :=
  SL_OCT_CTLRETRY o :: (List.range 8).flatMap fun j =>
    [SL_LANE_CRCERR o j, SL_LANE_HDRERR o j, SL_LANE_LOCKLOSS o j, SL_LANE_PRBSERR o j, SL_LANE_OVR o j]

/-- SL_CNT_CLR.ALL (R100). -/
def execSlCntClrAll (s : State) : Host.Outcome State Fault Refusal :=
  whenOn s fun s => s.clearCounters ((List.range 64).flatMap slCounters)

/-- SL_CNT_CLR.GO (R100). -/
def execSlCntClrOctet (o : Nat) (s : State) : Host.Outcome State Fault Refusal :=
  whenOn s fun s => if o < 64 then s.clearCounters (slCounters o) else s

end Sys2Proof.Machine
end

