-- ==== Sys2Proof/Machine/Dram.lean ====
section
/-! DEFINITION. The memory controller: the address map, the channel queues, the page policy, refresh, errors and the memory commands (R326 to R366). -/

namespace Sys2Proof.Machine

/-! ### Banks and queues -/

/-- A rank's number among all. -/
def rankNo (n r : Nat) : Nat := 2 * n + r

/-- A bank that has opened no row (R349). -/
def bank0 : DrBank := { p := 0, tag := none, opened := false }

/-- The bank of a DRAM address. -/
def State.drBank (s : State) (a : Nat) : DrBank := tblGet bank0 s.dr.banks (rankNo (s.drChan a) (s.drRank a) * 32 + s.drBankOf a)

/-- The predictor is on (R347). -/
def State.drPred (s : State) : Bool := s.flag DR_CFG DR_CFG_DEV_PRE && s.flag DR_CFG DR_CFG_PAGE_PRED

/-- A bank after an access to a row (R347, R348). -/
def bankNext (pred : Bool) (row : Nat) (b : DrBank) : DrBank :=
  if pred then
    let p := match b.tag with | none => b.p | some t => if t = row then min 3 (b.p + 1) else b.p - 1
    { p := p, tag := some row, opened := decide (2 ≤ p) }
  else { b with opened := false }

/-- Take a bank through an access. -/
def State.drTouch (s : State) (a : Nat) : State :=
  let r := rankNo (s.drChan a) (s.drRank a)
  { s with dr := { s.dr with
      banks := tblUpd bank0 s.dr.banks (r * 32 + s.drBankOf a) (bankNext s.drPred (s.drRow a)) } }

/-- Close every open row of a rank (R349). -/
def State.drClose (s : State) (n r : Nat) : State :=
  { s with dr := { s.dr with banks := (List.range 32).foldl (fun t b =>
      tblUpd bank0 t (rankNo n r * 32 + b) fun x => { x with opened := false }) s.dr.banks } }

/-- A channel's queue. -/
def State.drQ (s : State) (n : Nat) : List DrReq := tblGet [] s.dr.q n

/-- Replace a channel's queue. -/
def State.setDrQ (s : State) (n : Nat) (q : List DrReq) : State := { s with dr := { s.dr with q := tblSet [] s.dr.q n q } }

/-- Whether a class's partition of a queue has room (R341). -/
def drRoom (q : List DrReq) (cls : Nat) : Bool :=
  match cls with
  | 0 => decide ((q.filter fun r => r.cls == 0).length < 4)
  | 1 => decide ((q.filter fun r => r.cls == 1).length < 28)
  | _ => decide ((q.filter fun r => decide (2 ≤ r.cls)).length < 32)

/-- Two requests of one master touch overlapping bytes. -/
def DrReq.overlaps (x y : DrReq) : Bool :=
  x.master == y.master && decide (x.addr < y.addr + y.len) && decide (y.addr < x.addr + x.len)

/-- A held request that another one waits for: of its master and class, or of its master and overlapping it (R341, R343). -/
def DrReq.behind (r h : DrReq) : Bool := r.overlaps h || (r.master == h.master && r.cls == h.cls)

/-- A rank leaves power-down (R356). -/
def State.drWake (s : State) (k : Nat) : State := { s with dr := { s.dr with pd := tblSet false s.dr.pd k false } }

/-- A request enters its channel's queue and wakes its rank, or its master is held (R341, R356). -/
def State.drPut (s : State) (r : DrReq) : State :=
  let n := s.drChan r.addr
  if drRoom (s.drQ n) r.cls && !s.dr.held.any r.behind then (s.setDrQ n (s.drQ n ++ [r])).drWake (rankNo n (s.drRank r.addr))
  else { s with dr := { s.dr with held := s.dr.held ++ [r] } }

/-- Held requests enter where room has come free, oldest first. -/
def State.drUnhold (s : State) : State :=
  s.dr.held.foldl State.drPut { s with dr := { s.dr with held := [] } }

/-- Split an access at the 256-byte stripes, as its first address and bytes; `fuel` bounds the pieces (R333). -/
def stripes : Nat → Nat → List Byte → List (Nat × List Byte)
  | 0, _, _ => []
  | k + 1, a, bs =>
    if bs.length ≤ 256 - a % 256 then [(a, bs)]
    else (a, bs.take (256 - a % 256)) :: stripes k (a + (256 - a % 256)) (bs.drop (256 - a % 256))

/-- DRAM_REQUEST: the request enters its queue; past the installed size it is a bus error (R335, R341, R345). -/
def execDramRequest (m cls : Nat) (w : Bool) (a : Nat) (bs : List Byte) (n : Nat) (extra : Bool) (s : State) : Host.Outcome State Fault Refusal :=
  whenOn s fun s =>
    let len := if w then bs.length else n
    if !s.drReady || decide (3 < cls) then s
    else if !s.drIn a len then (s.drBad m a).emit (.dramError m a)
    else
      let c := if extra && cls == 1 then 2 else cls
      let s1 := if extra && cls == 1 then s.bump DR_C1_OVERRUN else s
      (stripes (len / 256 + 2) a (if w then bs else List.replicate n 0)).foldl (fun s p =>
        s.drPut { master := m, cls := c, write := w, addr := p.1, data := if w then p.2 else [], len := p.2.length, promoted := false, passed := 0 }) s1

/-! ### Service (R342, R343) -/

/-- The requests of a queue that may be served: those that touch no byte of an older one of their master (R343). -/
def drFree (seen : List DrReq) : List DrReq → List DrReq
  | [] => []
  | r :: rs => if seen.any r.overlaps then drFree (seen ++ [r]) rs else r :: drFree (seen ++ [r]) rs

/-- A request hits an open row. -/
def State.drHits (s : State) (r : DrReq) : Bool := (s.drBank r.addr).opened && (s.drBank r.addr).tag == some (s.drRow r.addr)

/-- Within a class: the first hit that may pass the older requests, else the oldest (R343). -/
def State.drFirst (s : State) : List DrReq → Option DrReq
  | [] => none
  | r :: rs => if s.drHits r then some r else if 16 ≤ r.passed then none else s.drFirst rs

/-- The request served next of a class's list. -/
def State.drOf (s : State) (l : List DrReq) : Option DrReq := (s.drFirst l).or l.head?

/-- The request that a channel serves next (R342). One that has begun goes on to its end, and only C0 enters it between two bursts (R346). -/
def State.drPick (s : State) (n : Nat) : Option DrReq :=
  let q := drFree [] (s.drQ n)
  let begun := fun (l : List DrReq) => l.find? fun r => decide (0 < r.done)
  let cls := fun c => q.filter fun r => r.cls == c
  let c2 := cls 2
  let c3 := cls 3
  let rest := if !c2.isEmpty && (c3.isEmpty || decide (tblGet 0 s.dr.turns n < 3)) then s.drOf c2 else s.drOf c3
  ((begun (cls 0)).or (s.drOf (cls 0))).or ((begun q).or (((q.filter fun r => r.promoted).head?).or ((s.drOf (cls 1)).or rest)))

/-- Put `new` in the place of a request that is served: one that begins unpromoted has passed the older ones of its class once more (R343). -/
def drTake (r : DrReq) (new : List DrReq) : List DrReq → List DrReq
  | [] => []
  | x :: xs =>
    if x = r then new ++ xs
    else (if x.cls = r.cls ∧ r.promoted = false ∧ r.done = 0 then { x with passed := x.passed + 1 } else x) :: drTake r new xs

/-- The controller itself as a master: corrections and the patrol (R337, R340). -/
def drPatrol : Nat := 5

/-- A single-bit error: counted, and the corrected codeword is queued as a C3 write unless a newer write to it waits (R337). -/
def State.drCe (s : State) (a : Nat) : State :=
  let n := s.drChan a
  let s1 := (s.bump (DR_CH_CE n)).seen DR_STAT DR_STAT_CE_SEEN evMemory
  let c := a / 8 * 8
  if (s1.drQ n).any fun r => r.write && decide (r.addr < c + 8) && decide (c < r.addr + r.len) then s1
  else s1.drPut { master := drPatrol, cls := 3, write := true, addr := c, data := [], len := 0, promoted := false, passed := 0 }

/-- A request's bank is accessed as it begins. -/
def State.drBegin (s : State) (r : DrReq) : State := if r.done = 0 then s.drTouch r.addr else s

/-- A request leaves its queue. -/
def State.drServe (s : State) (n : Nat) (r : DrReq) : State :=
  let s1 := (s.setDrQ n (drTake r [] (s.drQ n))).drBegin r
  { s1 with dr := { s1.dr with turns := tblUpd 0 s1.dr.turns n fun t => if r.cls = 2 then min 3 (t + 1) else if r.cls = 3 then 0 else t } }.drUnhold

/-- What of a write is still to be done. -/
def State.drRest (s : State) (r : DrReq) : State := s.drWrite (r.addr + r.done) (r.data.drop r.done)

/-- Bytes of the next burst of a request: bursts of 32 bytes (R326, R334). -/
def DrReq.burst (r : DrReq) : Nat := min (r.len - r.done) (32 - (r.addr + r.done) % 32)

/-- One burst of a channel: a write's is performed, and a read's is held until the read completes (R342, R346). -/
def State.drBurst (s : State) (n : Nat) : State :=
  match s.drPick n with
  | none => s
  | some r =>
    let k := r.burst
    if r.len ≤ r.done + k then (if r.write then (s.drServe n r).drRest r else s)
    else
      let a := r.addr + r.done
      let new := { r with done := r.done + k, data := if r.write then r.data else r.data ++ s.memRead a k }
      let s1 := (s.setDrQ n (drTake r [new] (s.drQ n))).drBegin r
      if r.write then s1.drWrite a (Sys2Proof.Machine.slice r.data r.done k) else s1

/-- Serve the writes that come before the next read of a channel; `fuel` bounds them. -/
def State.drWrites (s : State) (n : Nat) : Nat → State
  | 0 => s
  | k + 1 =>
    match s.drPick n with
    | some r => if r.write then ((s.drServe n r).drRest r).drWrites n k else s
    | none => s

/-- What a read of a run finds in its codewords, in order: nothing (0), a single-bit error (1) or a double-bit error (2); codewords poisoned before are found again (R337, R338). -/
def State.drFound (s : State) (a n : Nat) (found : List Nat) : State :=
  let cs := (codewords a n).zip found
  let s1 := { s with dr := { s.dr with poison := cs.foldl (fun t (c : Nat × Nat) => if c.2 = 2 then tblSet false t c.1 true else t) s.dr.poison } }
  (cs.filter fun (c : Nat × Nat) => c.2 == 1 && !tblGet false s.dr.poison c.1).foldl (fun s c => s.drCe (c.1 * 8)) (s1.drUes a n)

/-- What a read returns: what its bursts have returned, and the rest of it now. -/
def State.drData (s : State) (r : DrReq) : List Byte := r.data ++ s.memRead (r.addr + r.done) (r.len - r.done)

/-- A read is complete: its errors are handled, and its master has the data; the patrol wants none (R337, R338, R340). -/
def State.drReturn (s : State) (n : Nat) (r : DrReq) (found : List Nat) : State :=
  let s1 := (s.drServe n r).drFound r.addr r.len found
  if r.master = drPatrol then s1 else s1.emit (.dram r.master r.addr (s.drData r) (s1.poisoned r.addr r.len))

/-- DRAM_READ_COMPLETE: the channel serves what comes first, and the next read returns its data (R337, R338, R342). -/
def execDramReadComplete (n : Nat) (found : List Nat) (s : State) : Host.Outcome State Fault Refusal :=
  whenOn s fun s =>
    if !s.drReady || !(s.drQ n).any (fun r => !r.write) then s
    else
      let s0 := s.drWrites n 64
      match s0.drPick n with
      | none => s0
      | some r => s0.drReturn n r found

/-- REQUEST_AGE_PROMOTE (R344). -/
def execRequestAgePromote (n i : Nat) (s : State) : Host.Outcome State Fault Refusal :=
  whenOn s fun s =>
    match (s.drQ n)[i]? with
    | none => s
    | some r =>
      if r.promoted || r.cls == 0 then s
      else (s.setDrQ n ((s.drQ n).set i { r with promoted := true })).bump (DR_CH_PROMOTED n)

/-- Memory rails of PW_RAIL: VMEM_EXT, VMEM_CORE and VMEM_Q. -/
def memRails : List Nat := [9, 10, 11]

/-! ### Refresh and power-down (R350 to R356) -/

/-- The rank exists. -/
def State.hasRank (s : State) (n r : Nat) : Bool := s.drReady && decide (n < 2 ^ s.drM) && decide (r < s.drRanks)

/-- A rank's postponed count, which DR_CH_STAT shows (R351). -/
def State.setPost (s : State) (n r v : Nat) : State :=
  let t := tblSet 0 s.dr.post (rankNo n r) v
  { s with dr := { s.dr with post := t } }.setF (DR_CH_STAT n) DR_CH_STAT_POSTPONED (max (tblGet 0 t (rankNo n 0)) (tblGet 0 t (rankNo n 1)))

/-- Some request of a rank is queued. -/
def State.rankBusy (s : State) (n r : Nat) : Bool := (s.drQ n).any fun q => s.drRank q.addr == r

/-- A C1 transaction in progress is completed before a forced refresh: a write whole, and a read but for its last burst, whose data is returned later; `fuel` bounds the bursts (R353, R354). -/
def State.drFinish (s : State) (n : Nat) : Nat → State
  | 0 => s
  | k + 1 => if (s.drPick n).any fun r => r.cls == 1 && decide (0 < r.done) then (s.drBurst n).drFinish n k else s

/-- REFRESH_DUE: issued, postponed or forced (R351, R353, R355). -/
def execRefreshDue (n r : Nat) (s : State) : Host.Outcome State Fault Refusal :=
  whenOn s fun s =>
    let k := rankNo n r
    let post := tblGet 0 s.dr.post k
    if !s.hasRank n r then s
    else
      let t := s.drWake k
      if 8 ≤ post then ((((t.drFinish n 9).setPost n r 0).drClose n r).bump (DR_CH_FORCED n)).seen DR_STAT DR_STAT_FORCED_SEEN evMemory
      else if (!tblGet false s.dr.pd k) && (s.drQ n).any fun q => decide (q.cls ≤ 1) then s.setPost n r (post + 1)
      else t.drClose n r

/-- POSTPONED_REFRESH_MAKEUP: in a slot that nothing waits for; it wakes the rank (R342, R352, R356). -/
def execPostponedRefreshMakeup (n r : Nat) (s : State) : Host.Outcome State Fault Refusal :=
  whenOn s fun s =>
    let post := tblGet 0 s.dr.post (rankNo n r)
    if s.hasRank n r && (s.drQ n).isEmpty && post != 0 then ((s.setPost n r (post - 1)).drWake (rankNo n r)).drClose n r else s

/-- RANK_POWER_DOWN (R356). -/
def execRankPowerDown (n r : Nat) (s : State) : Host.Outcome State Fault Refusal :=
  whenOn s fun s =>
    if s.hasRank n r && !s.rankBusy n r && s.rf DR_CFG DR_CFG_PD_IDLE != 0 then
      ({ s with dr := { s.dr with pd := tblSet false s.dr.pd (rankNo n r) true } }.drClose n r)
    else s

/-- ROW_IDLE_CLOSE: the predictor stays as it is (R348). -/
def execRowIdleClose (n r b : Nat) (s : State) : Host.Outcome State Fault Refusal :=
  whenOn s fun s =>
    if s.hasRank n r && decide (b < 32) && !(s.drQ n).any (fun q => s.drRank q.addr == r && s.drBankOf q.addr == b) then
      { s with dr := { s.dr with banks := tblUpd bank0 s.dr.banks (rankNo n r * 32 + b) fun x => { x with opened := false } } }
    else s

/-- The patrol's next read, a C3 request of one codeword (R340). -/
def State.patrolReq (s : State) : DrReq :=
  { master := drPatrol, cls := 3, write := false, addr := s.dr.patrol * 8, data := [], len := 8, promoted := false, passed := 0 }

/-- SCRUB_PATROL_READ: the patrol's next read is queued, and is served at once where the channel has nothing to serve before it, with what its codeword holds; else it waits its turn (R340, R342). -/
def execScrubPatrolRead (found : Nat) (s : State) : Host.Outcome State Fault Refusal :=
  whenOn s fun s =>
    if s.drReady && s.rf DR_MAINT DR_MAINT_SCRUB_H != 0 then
      let r := s.patrolReq
      let s1 := { s with dr := { s.dr with patrol := (s.dr.patrol + 1) % (s.drSize / 8) } }.drPut r
      if s1.drPick (s.drChan r.addr) = some r then s1.drReturn (s.drChan r.addr) r [found] else s1
    else s

/-- MEMORY_RAIL_FAULT: all three rails go off. Which of them has failed, and what it shows, the row leaves free (R330, R464, R557; notes/assumptions/98). -/
def execMemoryRailFault (s : State) : Host.Outcome State Fault Refusal :=
  whenOn s fun s =>
    if s.rf DR_STAT DR_STAT_STATE = drOff then s
    else
      let (n, v, i) := Config.railFault s.free
      let r := 9 + n % 3
      let s1 := (s.setF DR_STAT DR_STAT_STATE drFail).setF DR_STAT DR_STAT_RAIL_FAULT 1
      let s2 := memRails.foldl (fun s k => s.setFB PW_RAIL PW_RAIL_GOOD k false) s1
      let s3 := (((s2.setSeenB PW_RAIL PW_RAIL_FAULT r).bump PW_RAIL_FAULTS).logEvent 0x0B03 2 [w32 r, w32 (v % 65536), w32 (i % 65536)]).raise evPower
      { s3.draw with dr := { s3.dr with q := [], held := [] } }

/-- Each channel switches to its next delay set, between two bursts (R359). -/
def State.phySwitch (s : State) : State :=
  { s with dr := { s.dr with phy := s.dr.phyNext.foldl (fun t e => tblSet [] t e.1 e.2) s.dr.phy, phyNext := [] } }

/-! ### Commands (R366) -/

/-- The counters of a channel. -/
def drCounters (n : Nat) : List Nat := [DR_CH_CE n, DR_CH_UE n, DR_CH_FORCED n, DR_CH_PROMOTED n]

/-- DR_STATUS. -/
def execDrStatus (c : Cmd) (s : State) : Host.Outcome State Fault Refusal :=
  .next (s.command 0x0901 c (fun _ => needLen 0 c) fun s =>
    .ok ([DR_STAT, DR_CFG, DR_C1_OVERRUN].map s.reg ++ (List.range 16).flatMap fun n => (DR_CH_STAT n :: drCounters n).map s.reg) s)

/-- The rules of R326, R327 and R365 on a board record. -/
def boardBad (c : Cmd) : Option Bad :=
  (badIf (fget (c.w 0) DR_CFG_NCH == 3 || fget (c.w 0) DR_CFG_DENS == 3 || fget (c.w 0) DR_CFG_RATE == 3) 0).or
    ((badIf (!(decide (1 ≤ fget (c.w 1) DR_TIM_TRFC) && decide (fget (c.w 1) DR_TIM_TRFC ≤ 10) && decide (1 ≤ fget (c.w 1) DR_TIM_TRC) &&
        decide (fget (c.w 1) DR_TIM_TRC ≤ 15) && decide (3 ≤ fget (c.w 1) DR_TIM_RL) && decide (fget (c.w 1) DR_TIM_RL ≤ 24) &&
        decide (1 ≤ fget (c.w 1) DR_TIM_WL) && decide (fget (c.w 1) DR_TIM_WL ≤ 24))) 1).or
      (badIf (!(decide (50 ≤ fget (c.w 2) DR_MAINT_REFI) && decide (fget (c.w 2) DR_MAINT_REFI ≤ 1000))) 2))

/-- CRC-32C of a board record, and of a delay table: the images, the temperatures and the data rate (R364). -/
def boardCrc (ws : List Word) : Nat := crc32c (ws.flatMap fun w => le 4 w.toNat)
def DrTable.crc (t : DrTable) : Nat := crc32c ((t.regs.flatMap fun w => le 4 w.toNat) ++ (t.temps.map fun x => BitVec.ofInt 8 x) ++ le 4 t.rate)

/-- Whether the CRC of a copy is right. -/
def BoardCopy.ok (c : BoardCopy) : Bool := c.crc == boardCrc c.words
def TableCopy.ok (c : TableCopy) : Bool := c.crc == c.tab.crc

/-- The newer of the valid copies of the board record, and of the delay table (R364). -/
def State.board (s : State) : Option (List Word) :=
  ((s.dr.boards.filter BoardCopy.ok).foldl (fun (a : Option BoardCopy) c => if a.any fun b => decide (c.age ≤ b.age) then a else some c) none).map (·.words)
def State.table (s : State) : Option DrTable :=
  ((s.dr.tables.filter TableCopy.ok).foldl (fun (a : Option TableCopy) c => if a.any fun b => decide (c.age ≤ b.age) then a else some c) none).map (·.tab)

/-- Both copies of a record are written, the second after the first (R364). -/
def boardCopies (old : List BoardCopy) (ws : List Word) : List BoardCopy :=
  let g := (old.map (·.age)).foldl max 0
  [{ age := g + 1, words := ws, crc := boardCrc ws }, { age := g + 2, words := ws, crc := boardCrc ws }]
def tableCopies (old : List TableCopy) (t : DrTable) : List TableCopy :=
  let g := (old.map (·.age)).foldl max 0
  [{ age := g + 1, tab := t, crc := t.crc }, { age := g + 2, tab := t, crc := t.crc }]

/-- A store has begun: the older copy is being written, and its CRC is not yet that of what it holds (R364). -/
def tableOpen (l : List TableCopy) : List TableCopy :=
  let g := (l.map (·.age)).foldl max 0
  l.map fun c => if c.age = g then c else { c with crc := c.tab.crc + 1 }

/-- DR_BOARD_SET: the record takes effect at the next cold reset (R329). -/
def execDrBoardSet (c : Cmd) (s : State) : Host.Outcome State Fault Refusal :=
  .next (s.command 0x0902 c (fun _ => (needLen 19 c).or (boardBad c)) fun s =>
    .ok [] { s with dr := { s.dr with boards := boardCopies s.dr.boards c.payload } })

/-- A DMA channel is active: RUNNING or WAITING (R376). -/
def State.dmActive (s : State) (n : Nat) : Bool := s.rf (DM_CH_STAT n) DM_CH_STAT_STATE == 1 || s.rf (DM_CH_STAT n) DM_CH_STAT_STATE == 2

/-- A slice runs a program with a ring. -/
def State.ringRuns (s : State) : Bool := (List.range 64).any fun k => (s.slice k).hdr.ring && s.sliceState k == mdRunning

/-- DR_SWEEP is accepted (R361). -/
def State.sweepOk (s : State) : Bool :=
  s.rf IX_STAT IX_STAT_STATE == 0 && s.rf SF_UB_STAT SF_UB_STAT_STATE == 0 && !s.ringRuns && !(List.range 32).any s.dmActive &&
    (s.drReady || (s.drFailed && s.rf DR_STAT DR_STAT_FAIL_CH != 0 && !s.flag DR_STAT DR_STAT_RAIL_FAULT))

/-- DR_SWEEP: DC31 is claimed while it runs (R361). -/
def execDrSweep (c : Cmd) (s : State) : Host.Outcome State Fault Refusal :=
  .next (s.command 0x0903 c (fun _ => needLen 2 c) fun s =>
    if s.dr.sweep.isSome then bad stResourceBusy []
    else if !s.sweepOk then bad stWrongState []
    else .progress [] (({ s with dr := { s.dr with sweep := some (c.f 0 15 0, bit (c.w 1).toNat 0) } }.setF DR_STAT DR_STAT_SWEEP_RUN 1).setF
      (DM_CH_STAT 31) DM_CH_STAT_FW_OWNED 1))

/-- Result of a channel: 0 pass, 1 narrow eye, 2 no eye (R363). -/
def sweepResult (rd wr : List Nat) : Nat :=
  if (rd ++ wr).any (· == 0) then 2 else if (rd ++ wr).any (fun x => decide (x < 16)) then 1 else 0

/-- Passes in a row from step `s` of the 128, going round. -/
def passRun (p : Nat → Bool) (s : Nat) : Nat → Nat
  | 0 => 0
  | k + 1 => if p (s % 128) then 1 + passRun p (s + 1) k else 0

/-- The longest circular run of passes: its first step and its length. DESIGN CHOICE: the first of two that are equally long. -/
def bestRun (p : Nat → Bool) : Nat × Nat :=
  (List.range 128).foldl (fun (a : Nat × Nat) s => let l := passRun p s 128; if a.2 < l then (s, l) else a) (0, 0)

/-- The centre of a run. DESIGN CHOICE: of two middle steps the lower. -/
def runCentre (x : Nat × Nat) : Nat := (x.1 + (x.2 - 1) / 2) % 128

/-- The eye of a VREF candidate: the run of RD at the first WR guess that gives any (R362). -/
def sweepEye (u n l v : Nat) : Nat × Nat :=
  (([32, 16, 48, 0].map fun w => bestRun fun s => Config.sweepRd u n l v w s).find? fun x => decide (1 ≤ x.2)).getD (0, 0)

/-- VREF with the widest eye, and that eye. DESIGN CHOICE: the lowest of several. -/
def sweepVref (u n l : Nat) : Nat × (Nat × Nat) :=
  (([16, 32, 48, 64, 80, 96, 112].map fun v => (v, sweepEye u n l v)).foldl (fun (a : Option (Nat × (Nat × Nat))) x =>
    match a with | some y => if y.2.2 < x.2.2 then some x else some y | none => some x) none).getD (16, (0, 0))

/-- The WR run of a lane, at the VREF and RD chosen (R362). -/
def sweepWrRun (u n l : Nat) : Nat × Nat := bestRun fun s => Config.sweepWr u n l s

/-- Lengths of the runs of a lane. -/
def sweepRdOf (u n l : Nat) : Nat := (sweepVref u n l).2.2
def sweepWrOf (u n l : Nat) : Nat := (sweepWrRun u n l).2

/-- DR_DLY image that a sweep chooses for a lane; SLEW stays as it is (R362). -/
def sweepDly (old : Word) (u n l : Nat) : Word :=
  let x := sweepVref u n l
  fput (fput (fput (fput old DR_DLY_VALID 1) DR_DLY_VREF x.1) DR_DLY_RD (runCentre x.2)) DR_DLY_WR (runCentre (sweepWrRun u n l))

/-- Result word of a channel (R363). -/
def sweepWord (u n : Nat) : Word :=
  let rd := (List.range 4).map (sweepRdOf u n)
  let wr := (List.range 4).map (sweepWrOf u n)
  let vref := (List.range 4).map fun l => (sweepVref u n l).1
  w32 (sweepResult rd wr * 2 ^ 24 + rd.foldl min 127 * 2 ^ 16 + wr.foldl min 127 * 2 ^ 8 + vref.foldl min 127)

/-- A sweep overwrites the last 1 MiB of each rank of a channel (R361). -/
def State.sweepFill (s : State) (u n : Nat) : State :=
  let rank := 2 ^ (28 + s.rf DR_CFG DR_CFG_DENS)
  (List.range s.drRanks).foldl (fun s r =>
    (List.range 131072).foldl (fun s i =>
      let a := s.drAddr n (rank * (r + 1) - 1048576 + 8 * i)
      s.drWrite a ((List.range 8).map fun j => Config.sweepByte u (a + j))) s) s

/-- A swept channel: its test area, and on a pass the set of its band (R363). -/
def State.sweepChan (s : State) (u : Nat) (load : Bool) (n : Nat) : State :=
  let rd := (List.range 4).map (sweepRdOf u n)
  let wr := (List.range 4).map (sweepWrOf u n)
  let s1 := s.sweepFill u n
  if sweepResult rd wr ≠ 0 then s1
  else
    let band := s.rf (DR_CH_STAT n) DR_CH_STAT_BAND
    let ws := (List.range 4).map fun l => sweepDly (s1.reg (DR_DLY n (4 * band + l))) u n l
    let s2 := ws.zipIdx.foldl (fun s w => s.setReg (DR_DLY n (4 * band + w.2)) w.1) s1
    { s2 with dr := { s2.dr with
        temps := tblSet 0 s2.dr.temps (4 * n + band) (sext 8 (s.rf (DR_CH_STAT n) DR_CH_STAT_TEMP))
        phy := if load then tblSet [] s2.dr.phy n ws else s2.dr.phy } }

/-- The word of a channel of the mask; of one that is not populated the specification gives none (R363, R366). -/
def State.sweepReply (s : State) (n : Nat) : Word := if n < 2 ^ s.drM then sweepWord s.free n else Config.sweepAbsent s.free n

/-- DR_SWEEP_DONE: the final reply gives one word per channel of the mask (R363, R366). -/
def execDrSweepDone (s : State) : Host.Outcome State Fault Refusal :=
  whenOn s fun s =>
    match s.dr.sweep, s.runningOp 0x0903 with
    | some w, some q =>
      let ns := (List.range (2 ^ s.drM)).filter (bit w.1)
      let s1 := ns.foldl (State.sweepChan · s.free w.2) s
      let s2 := ({ s1 with dr := { s1.dr with sweep := none } }.setF DR_STAT DR_STAT_SWEEP_RUN 0).setF (DM_CH_STAT 31) DM_CH_STAT_FW_OWNED 0
      s2.draw.final q stOk (((List.range 16).filter (bit w.1)).map s.sweepReply)
    | _, _ => s

/-- DR_TABLE_STORE: a copy is open until the store is done (R364). -/
def execDrTableStore (c : Cmd) (s : State) : Host.Outcome State Fault Refusal :=
  .next (s.command 0x0904 c (fun _ => needLen 0 c) fun s =>
    if s.dr.storing then bad stResourceBusy [] else .progress [] { s with dr := { s.dr with storing := true, tables := tableOpen s.dr.tables } })

/-- The delay table that the current sets make (R364). -/
def State.drTable (s : State) : DrTable :=
  { regs := (List.range 16).flatMap fun n => (List.range 16).map fun j => s.reg (DR_DLY n j)
    temps := tblRun 0 s.dr.temps 0 64, rate := s.rf DR_CFG DR_CFG_RATE }

/-- DR_TABLE_STORE_DONE (R364). -/
def execDrTableStoreDone (s : State) : Host.Outcome State Fault Refusal :=
  whenOn s fun s =>
    match s.runningOp 0x0904 with
    | some q => if s.dr.storing then { s with dr := { s.dr with storing := false, tables := tableCopies s.dr.tables s.drTable } }.final q stOk [] else s
    | none => s

/-- DR_SCHED_CONFIG: the ages, SCRUB_H and a new patrol (R366). -/
def execDrSchedConfig (c : Cmd) (s : State) : Host.Outcome State Fault Refusal :=
  .next (s.command 0x0905 c
    (fun _ => (needLen 2 c).or (badIf (decide (c.f 0 31 24 < 10) || decide (c.f 0 23 16 < 10) || c.f 0 15 8 == 0) 0))
    fun s =>
      let s1 := (s.setReg DR_SCHED (w32 ((c.w 0).toNat / 256 * 256))).setF DR_MAINT DR_MAINT_SCRUB_H (c.f 1 31 16)
      .ok [] { s1 with dr := { s1.dr with patrol := 0 } })

/-- DR_CNT_CLR.ALL (R365). -/
def execDrCntClrAll (s : State) : Host.Outcome State Fault Refusal :=
  whenOn s fun s => s.clearCounters (DR_C1_OVERRUN :: (List.range 16).flatMap drCounters)

/-- DR_CNT_CLR.CH (R365). -/
def execDrCntClrCh (mask : Nat) (s : State) : Host.Outcome State Fault Refusal :=
  whenOn s fun s => s.clearCounters (((List.range 16).filter (bit mask)).flatMap drCounters)

end Sys2Proof.Machine
end

