-- ==== Sys2Proof/Machine/Indigo.lean ====
section
/-! DEFINITION. The Indigo correlator: groups and tiles, passes, saturation, shedding, integrations, drains and dump records, and the correlator commands (R171 to R205). -/

namespace Sys2Proof.Machine

/-! ### Regions, groups and tiles (R178 to R183) -/

/-- First channel of bin n of a region. -/
def Region.binFirst (r : Region) (n : Nat) : Nat := r.chFirst + n * r.binW

/-- Entries of a region (R181). -/
def Region.entries (r : Region) : Nat := r.bCount * r.nBins

/-- First bin on die 1, or N_BINS (R199). -/
def splitBin (first count : Nat) (r : Region) : Nat :=
  ((List.range r.nBins).find? fun n => dieOf first count (r.binFirst n) == 1).getD r.nBins

/-- Bins of a region that lie on a die (R178). -/
def binsOn (first count d : Nat) (r : Region) : List Nat := (List.range r.nBins).filter fun n => dieOf first count (r.binFirst n) == d

/-- The baseline number of a pair i < j (R172). -/
def baseline (i j : Nat) : Nat := j * (j - 1) / 2 + i

/-- A group of R179: its region, none for the spectrometer alone, its block pair, its first channel and its channels. -/
structure Group where
  region : Option Nat
  bin : Nat
  m : Nat
  n : Nat
  ch : Nat
  width : Nat
  deriving DecidableEq, Repr

/-- A region holds a baseline of a block pair: in one of the second path's rows, the run of baselines from the block's first path on, below the second path, meets the region's. -/
def pairIn (r : Region) (m n : Nat) : Bool :=
  (List.range 16).any fun b =>
    let j := 16 * n + b
    decide (16 * m < j) && decide (baseline (16 * m) j < r.bFirst + r.bCount) && decide (r.bFirst ≤ baseline (min (16 * m + 15) (j - 1)) j) && decide (0 < r.bCount)

/-- Block pairs (m, n) with m ≤ n of P paths. -/
def blockPairs (p : Nat) : List (Nat × Nat) := (List.range (p / 16)).flatMap fun n => (List.range (n + 1)).map fun m => (m, n)

/-- The groups of the regions on a die, in region, bin and block pair order. -/
def regionGroups (p first count d : Nat) (rs : List Region) : List Group :=
  rs.zipIdx.flatMap fun q => (binsOn first count d q.1).flatMap fun b =>
    ((blockPairs p).filter fun mn => pairIn q.1 mn.1 mn.2).map fun mn =>
      { region := some q.2, bin := b, m := mn.1, n := mn.2, ch := q.1.binFirst b, width := q.1.binW }

/-- The spectrometer groups of a die: runs of 16 channels of a diagonal pair that no region's group of that pair covers (R179). -/
def spectroGroups (p first count d : Nat) (rs : List Region) : List Group :=
  let gs := regionGroups p first count d rs
  (List.range (count / 16)).flatMap fun q =>
    let c := first + 16 * q
    if dieOf first count c = d then
      ((List.range (p / 16)).filter fun m =>
          !((List.range 16).all fun i => gs.any fun g => g.m == m && g.n == m && decide (g.ch ≤ c + i) && decide (c + i < g.ch + g.width))).map fun m =>
        { region := none, bin := 0, m := m, n := m, ch := c, width := 16 }
    else []

/-- Every group of a die; firmware gives the i-th to tile i mod 512 of the die. -/
def dieGroups (p first count d : Nat) (rs : List Region) : List Group :=
  regionGroups p first count d rs ++ spectroGroups p first count d rs

/-- The tile of the i-th group of a die (R178, R179). -/
def tileOf (d i : Nat) : Nat := 512 * d + i % 512

/-- Cycles per spectrum of a die's busiest tile, over regions of priority `prio` or higher and all spectrometer work: a shed region's groups on diagonal block pairs go on (R180, R191). -/
def busiest (p first count d prio : Nat) (rs : List Region) : Nat :=
  let keep := fun (g : Group) => g.m == g.n || match g.region with
    | none => true
    | some r => match rs[r]? with | some x => decide (prio ≤ x.prio) | none => false
  let t := (dieGroups p first count d rs).zipIdx.foldl (fun (t : Tbl Nat) q =>
    if keep q.1 then tblUpd 0 t (tileOf d q.2) (· + q.1.width) else t) []
  (t.map (·.2)).foldl max 0

/-- IX_UTIL of a die: U_3 to U_0 in units of 0.5 %, rounded up (R180, R204). -/
def utilWord (rateN p first count d : Nat) (rs : List Region) : Word :=
  let u := fun q => min 255 (cdiv (200 * busiest p first count d q rs * rateN) (165 * 8192))
  w32 (u 3 * 2 ^ 24 + u 2 * 2 ^ 16 + u 1 * 2 ^ 8 + u 0)

/-- The first entry of each region (R182). -/
def vatBase (rs : List Region) (r : Nat) : Nat := ((rs.take r).map Region.entries).sum

/-- Spectra before which no entry of a region can saturate (R189). -/
def nsat (binW : Nat) : Nat := (2 ^ 31 - 1) / (98 * binW)

/-- The SAT_RISK mask of a set (R189). -/
def satRisk (nspec : Nat) (rs : List Region) : Nat := (rs.zipIdx.map fun r => if nsat r.1.binW < nspec then 2 ^ r.2 else 0).sum

/-! ### Staging arrivals (R133, R166, R176) -/

/-- STAGING_FILL_ARRIVAL: the oldest staging fill, or the oldest scale record, arrives and is placed; in array mode it also goes to the corner turn of a unit with outputs, as the configuration of its spectrum has it (R57, R176, R285, R431). -/
def execStagingFillArrival (rec : Bool) (s : State) : Host.Outcome State Fault Refusal :=
  whenOn s fun s =>
    if rec then
      match s.ch.recs with
      | [] => s
      | r :: rs =>
        let s1 := { s with
          ch := { s.ch with recs := rs }
          ix := { s.ix with recs := ({ r with path := (s.ctView (s.ctAt r.st)).arrayPath r.path } :: s.ix.recs).take 65536 } }
        if (s1.ctView (s1.ctAt r.st)).ctRuns && s1.outputsAt r.st then { s1 with ct := { s1.ct with recs := s1.ct.recs ++ [({ what := r, had := [], old := false } : CtRec)] } } else s1
    else
      match s.md.fills with
      | [] => s
      | f :: fs =>
        let s1 := { s with md := { s.md with fills := fs } }
        let s2 := if (s1.ctView (s1.ctAt f.st)).ctRuns && s1.outputsAt f.st then { s1 with ct := { s1.ct with src := s1.ct.src ++ [f] } } else s1
        if s2.pw.compOn then s2.stageFill f else s2

/-! ### Passes (R177, R188, R190, R191) -/

/-- Pause step of a compute die (R476). -/
def State.kDie (s : State) (d : Nat) : Nat := if d = 0 then s.rf PW_THROT PW_THROT_K_C0 else s.rf PW_THROT PW_THROT_K_C1

/-- A compute die's Indigo clock is stretched now (R468). -/
def State.stretched (s : State) (d : Nat) : Bool := s.rfb PW_DROOP PW_DROOP_NOW (1 - d)

/-- Regions of the integration that a half belongs to (R57, R181). -/
def State.halfRegions (s : State) (h : Half) : List Region :=
  match s.bankAt (h.base.getD 0) with
  | some b => (s.bank b).regions
  | none => s.ix.regions

/-- U_p ≤ a on a die (R190). -/
def State.fits (s : State) (d prio : Nat) (h : Half) : Bool :=
  decide (busiest (modePaths h.mode) h.first h.count d prio (s.halfRegions h) * s.time.rateN * 80 ≤
    165 * 8192 * (8 - s.kDie d) * (if s.stretched d then 8 else 10))

/-- Priorities that a die sheds for a pass, among those its regions use (R190). -/
def State.shedMask (s : State) (d : Nat) (h : Half) : Nat :=
  let p := ((List.range 3).find? fun q => s.fits d q h).getD 3
  ((List.range p).filter fun q => (s.halfRegions h).any fun r => r.prio == q && !(binsOn h.first h.count d r).isEmpty).map (2 ^ ·) |>.sum

/-- Where a die's pass over a half stands. -/
def Half.pass (h : Half) (d : Nat) : PassSt := if d = 0 then h.die0 else h.die1

/-- Set where a die's pass stands, and what it sheds. -/
def Half.setPass (h : Half) (d : Nat) (p : PassSt) (shed : Nat) : Half :=
  if d = 0 then { h with die0 := p, shed0 := shed } else { h with die1 := p, shed1 := shed }

/-- What a die sheds in its pass over a half. -/
def Half.shedOf (h : Half) (d : Nat) : Nat := if d = 0 then h.shed0 else h.shed1

/-- The older of the halves that a test picks. -/
def State.oldestHalf (s : State) (f : Half → Bool) : Option Bool :=
  match f s.ix.half0, f s.ix.half1 with
  | true, true => some (decide (s.ix.half1.base.getD 0 < s.ix.half0.base.getD 0))
  | true, false => some false
  | false, true => some true
  | false, false => none

/-- INDIGO_PASS_START: the die's previous pass has ended and a half is complete (R177, R190). -/
def execIndigoPassStart (d : Nat) (s : State) : Host.Outcome State Fault Refusal :=
  whenOn s fun s =>
    if !s.pw.compOn || decide (1 < d) || s.ix.half0.pass d == .busy || s.ix.half1.pass d == .busy then s
    else
      match s.oldestHalf fun h => h.full && h.pass d == .waiting with
      | none => s
      | some b =>
        let m := s.shedMask d (s.half b)
        let s1 := (s.setHalf b ((s.half b).setPass d .busy m)).setF IX_SHED (if d = 0 then IX_SHED_DIE0 else IX_SHED_DIE1) m
        if m = 0 then s1 else (s1.bump IX_SHED_PASSES).seen IX_STAT IX_STAT_SHED_SEEN evIndigo

/-- A staged 4+4-bit value (R158). -/
def staged (x : StSpec) (p c : Nat) : Int × Int :=
  let b := (tblGet 0 (tblGet stPathNone x.paths p).data c).toNat
  (sext 4 (b / 16), sext 4 b)

/-- Σ x_i · conj(x_j) over the spectra of a pass and the channels of a bin (R172, R173). -/
def crossSum (xs : List StSpec) (i j c w : Nat) : Int × Int :=
  (xs.flatMap fun x => (List.range w).map fun k => (staged x i (c + k), staged x j (c + k))).foldl
    (fun a z => (a.1 + z.1.1 * z.2.1 + z.1.2 * z.2.2, a.2 + z.1.2 * z.2.1 - z.1.1 * z.2.2)) (0, 0)

/-- Σ |x_p|² over the spectra of a pass (R172). -/
def autoSum (xs : List StSpec) (p c : Nat) : Int := (xs.map fun x => let z := staged x p c; z.1 * z.1 + z.2 * z.2).sum

/-- Add to a component: it stops at the nearer extreme, and one at an extreme takes nothing more; whether this addition saturated (R188). -/
def satAddC (old d : Int) : Int × Bool :=
  if old = 2 ^ 31 - 1 ∨ old = -(2 ^ 31) then (old, false) else (satS 32 (old + d), satS 32 (old + d) != old + d)

/-- A saturated entry: its tile's bit, and once per entry and integration the counts (R188). -/
def State.saturate (s : State) (b : Bool) (entry tile : Nat) : State :=
  let x := s.bank b
  let again := tblGet false x.sat entry
  let s1 := s.setBank b { x with sat := tblSet false x.sat entry true, tiles := tblSet false x.tiles tile true }
  let s2 := (s1.setSeenB (IX_TILE_SAT (tile / 32)) IX_TILE_SAT_SAT (tile % 32)).seen IX_STAT IX_STAT_SAT_SEEN evIndigo
  if again then s2 else s2.bump IX_SAT_ENTRIES

/-- Add a pass's sum to one VAT entry of a bank (R173, R188). -/
def State.vatAdd (s : State) (b : Bool) (entry tile : Nat) (v : Int × Int) : State :=
  let x := s.bank b
  let re := satAddC (tblGet 0 x.vat (2 * entry)) v.1
  let im := satAddC (tblGet 0 x.vat (2 * entry + 1)) v.2
  let s1 := s.setBank b { x with vat := tblSet 0 (tblSet 0 x.vat (2 * entry) re.1) (2 * entry + 1) im.1 }
  if re.2 || im.2 then s1.saturate b entry tile else s1

/-- Add a pass's sum to one spectrometer entry of a bank (R183, R188). -/
def State.specAdd (s : State) (b : Bool) (i tile : Nat) (v : Int) : State :=
  let x := s.bank b
  let r := satAddC (tblGet 0 x.spec i) v
  let s1 := s.setBank b { x with spec := tblSet 0 x.spec i r.1 }
  if r.2 then s1.saturate b (2 ^ 25 + i) tile else s1

/-- One group's contribution of a pass to a bank: cross products of its region, and the autocorrelations of a diagonal pair (R179, R191). -/
def State.groupAdd (s : State) (b : Bool) (h : Half) (d : Nat) (g : Group) (tile : Nat) : State :=
  let bank := s.bank b
  let pairs := (List.range 16).flatMap fun y => (List.range 16).map fun x => (16 * g.m + x, 16 * g.n + y)
  let s1 :=
    match g.region with
    | none => s
    | some r =>
      match bank.regions[r]? with
      | none => s
      | some rg =>
        if bit (h.shedOf d) rg.prio then s
        else
          pairs.foldl (fun s q =>
            let bl := baseline q.1 q.2
            if q.1 < q.2 ∧ rg.bFirst ≤ bl ∧ bl < rg.bFirst + rg.bCount then
              s.vatAdd b (vatBase bank.regions r + (bl - rg.bFirst) * rg.nBins + g.bin) tile (crossSum h.specs q.1 q.2 g.ch g.width)
            else s) s
  s1

/-- The tile that forms a path's autocorrelation in a channel: the first diagonal group that covers it (R179). -/
def autoTile (d : Nat) (gs : List Group) (p c : Nat) : Nat :=
  match gs.zipIdx.find? fun g => g.1.m == p / 16 && g.1.n == p / 16 && decide (g.1.ch ≤ c) && decide (c < g.1.ch + g.1.width) with
  | some g => tileOf d g.2
  | none => 512 * d

/-- A pass of a die over a half is added to a bank: every group, then the spectrometer (R173, R183). -/
def State.passAdd (s : State) (b : Bool) (h : Half) (d : Nat) : State :=
  let x := s.bank b
  let p := modePaths x.mode
  let gs := dieGroups p h.first h.count d x.regions
  let s1 := gs.zipIdx.foldl (fun s g => s.groupAdd b h d g.1 (tileOf d g.2)) s
  let cs := ((List.range h.count).map (h.first + ·)).filter fun c => dieOf h.first h.count c == d
  let s2 := (List.range p).foldl (fun s q => cs.foldl (fun s c =>
    s.specAdd b (q * h.count + (c - h.first)) (autoTile d gs q c) (autoSum h.specs q c)) s) s1
  let y := s2.bank b
  let shed := h.shedOf d
  let acc := y.regions.zipIdx.foldl (fun t r => if bit shed r.1.prio then t else tblUpd 0 t (2 * r.2 + d) (· + h.specs.length)) y.acc
  let rg := y.regions.zipIdx.foldl (fun m r => if bit shed r.1.prio && !(binsOn h.first h.count d r.1).isEmpty then setBit m r.2 else m) y.shedRg
  s2.setBank b { y with acc := acc, shedRg := rg }

/-- A path of which nothing has been counted. -/
def pathCnt0 : PathCnt := { loss := 0, warm := 0, crc := 0, lost := 0, split := false, epoch := none }

/-- Both dies have passed over a half: its path flags are counted, and the half may be released (R200, R203). -/
def State.passCount (s : State) (b : Bool) (h : Half) : State :=
  let x := s.bank b
  let start := x.start.getD 0
  let one := fun (t : Tbl PathCnt) (sp : StSpec) => sp.paths.foldl (fun t e =>
    tblUpd pathCnt0 t e.1 fun n =>
      { n with loss := n.loss + b2n e.2.loss, warm := n.warm + b2n e.2.warm, crc := n.crc + b2n e.2.crc, lost := n.lost + b2n (e.2.lost != 0)
               split := n.split || (e.1 / 512 != x.member && e.2.here && e.2.scale != start / 8192 % 2 ^ 32)
               epoch := n.epoch.or (if e.1 / 512 != x.member && e.2.here then some e.2.scale else none) }) t
  s.setBank b { x with paths := h.specs.foldl one x.paths, shedPasses := x.shedPasses + b2n (h.shed0 != 0 || h.shed1 != 0) }

/-- INDIGO_PASS_END: the bin sums are added once to their entries (R173), and the half is released once Woad has read it too (R177). -/
def execIndigoPassEnd (d : Nat) (s : State) : Host.Outcome State Fault Refusal :=
  whenOn s fun s =>
    match s.oldestHalf fun h => h.pass d == .busy && decide (d < 2) with
    | none => s
    | some hb =>
      let h := s.half hb
      let a := h.base.getD 0
      let s1 := match s.bankAt a with | some b => s.passAdd b h d | none => s
      let h1 := h.setPass d .over (h.shedOf d)
      let both := h1.die0 == .over && h1.die1 == .over
      let s2 := s1.setHalf hb h1
      let s3 := if both then (match s.bankAt a with | some b => s2.passCount b h1 | none => s2) else s2
      let s4 := if both then { s3 with ix := { s3.ix with done := max s3.ix.done (a + 8192 * h.cap) } } else s3
      (s4.setF IX_SHED (if d = 0 then IX_SHED_DIE0 else IX_SHED_DIE1) 0).releaseHalf hb

/-! ### Dump records (R196 to R202) -/

/-- Pad a section with zeros to a multiple of 64 bytes (R196). -/
def pad64 (bs : List Byte) : List Byte := bs ++ List.replicate ((64 - bs.length % 64) % 64) 0

/-- Padded size. -/
def padLen (n : Nat) : Nat := cdiv n 64 * 64

/-- Smallest k with n ≤ 2^k. -/
def ceilLog2 (n : Nat) : Nat := if n ≤ 1 then 0 else Nat.log2 (n - 1) + 1

/-- The scale exponent of packed data (R202). -/
def packK (binW nspec : Nat) : Nat := min 31 (ceilLog2 (98 * binW * nspec))

/-- x / 2^k as IEEE 754 binary16, nearest-even, 0 below 2^-14 (R202). -/
def half16 (k : Nat) (x : Int) : Nat :=
  let n := x.natAbs
  if n * 2 ^ 14 < 2 ^ k then 0
  else
    let e := Nat.log2 n
    let num := n * 2 ^ 10
    let q := num / 2 ^ e
    let r := num % 2 ^ e
    let m := if 2 ^ e < 2 * r ∨ (2 * r = 2 ^ e ∧ q % 2 = 1) then q + 1 else q
    (if x < 0 then 0x8000 else 0) + (e + 15 - k) * 1024 + (m - 1024)

/-- A component as the record stores it. -/
def compBytes (packed : Bool) (k : Nat) (x : Int) : List Byte := if packed then le 2 (half16 k x) else le 4 (toBits 32 x)

/-- A path's scale record of a kind for an integration: that of the epoch which opens at its start, or for a remote path the one its blocks name for the first spectrum (R200). -/
def State.recOf (s : State) (b : Bank) (p : Nat) (closing : Bool) : Option ScaleRec :=
  let e := (tblGet pathCnt0 b.paths p).epoch.getD (b.start.getD 0 / 8192 % 2 ^ 32)
  s.ix.recs.find? fun r => r.path == p && r.epoch / 8192 % 2 ^ 32 == e && r.closing == closing

/-- The scale records that an integration's dump record has used up go; a remote path keeps those of the epoch that its next integration may open in (R200). -/
def State.recsDone (s : State) (b : Bank) : State :=
  let start := b.start.getD 0
  let stop := b.stop.getD start
  let keep := fun (r : ScaleRec) => decide (start < r.epoch) ||
    (r.path / 512 != b.member && !s.ix.recs.any fun q => q.path == r.path && decide (r.epoch < q.epoch) && decide (q.epoch ≤ stop))
  { s with ix := { s.ix with recs := s.ix.recs.filter keep } }

/-- Spectra of an integration. -/
def Bank.nspecDone (b : Bank) : Nat := ((b.stop.getD 0) - (b.start.getD 0)) / 8192

/-- The path table entry of array path p (R200). -/
def State.pathEntry (s : State) (b : Bank) (p : Nat) : List Byte :=
  let c := tblGet pathCnt0 b.paths p
  let cl := s.recOf b p true
  let rc := cl.or (s.recOf b p false)
  let f := match rc with | some r => leAt r.bytes 11 1 | none => 0
  let noRec := cl.isNone
  let valid := c.loss == 0 && c.lost == 0 && !bit f 3 && !noRec
  le 2 p ++ le 1 (b2n valid + 2 * b2n (bit f 0) + 4 * b2n (bit f 1) + 8 * b2n (bit f 2) + 16 * b2n (bit f 3) + 32 * b2n noRec + 64 * b2n c.split) ++
    le 1 0 ++ le 4 c.loss ++ le 4 c.warm ++ le 4 c.crc ++ le 4 c.lost ++ le 4 0

/-- Whether a path is VALID. -/
def State.pathFlag (s : State) (b : Bank) (p i : Nat) : Bool := bit (leAt (s.pathEntry b p) 2 1) i

/-- The exponents of a path's selected groups (R200). -/
def State.pathExps (s : State) (b : Bank) (p : Nat) : List Nat :=
  let rc := (s.recOf b p true).or (s.recOf b p false)
  (List.range (b.count / 16)).map fun i =>
    let g := b.first / 16 + i
    match rc with | some r => leAt r.bytes (32 + g / 2) 1 / 16 ^ (g % 2) % 16 | none => 0

/-- The clip counts of a path's selected groups (R200). -/
def State.pathClips (s : State) (b : Bank) (p : Nat) : List Nat :=
  (List.range (b.count / 16)).map fun i =>
    match s.recOf b p true with | some r => leAt r.bytes (160 + 4 * (b.first / 16 + i)) 4 | none => 0xFFFFFFFF

/-- Nibbles as bytes, the even one low (R166). -/
def nibbles : List Nat → List Byte
  | a :: b :: l => BitVec.ofNat 8 (a + 16 * b) :: nibbles l
  | [a] => [BitVec.ofNat 8 a]
  | [] => []

/-- The region table entry of region i (R199). -/
def regionEntry (b : Bank) (i : Nat) : List Byte :=
  match b.regions[i]? with
  | none => le 32 0
  | some r =>
    let base := vatBase b.regions i
    let sats := (b.sat.filter fun e => decide (base ≤ e.1) && decide (e.1 < base + r.entries)).length
    le 1 i ++ le 1 (128 + r.prio) ++ le 1 (b2n (bit b.shedRg i) + 2 * b2n (sats != 0) + 4 * b2n (bit (satRisk b.nspec b.regions) i)) ++
      le 1 (if b.packed then packK r.binW b.nspecDone else 0) ++ le 4 r.bFirst ++ le 4 r.bCount ++ le 2 r.chFirst ++ le 2 r.binW ++
      le 2 r.nBins ++ le 2 (splitBin b.first b.count r) ++ le 4 (tblGet 0 b.acc (2 * i)) ++ le 4 (tblGet 0 b.acc (2 * i + 1)) ++ le 4 sats

/-- Sizes of the nine sections after the header, padded; a LOST record has no data (R195, R196). -/
def sectionLens (b : Bank) (lost : Bool) : List Nat :=
  let p := modePaths b.mode
  let u := if b.packed then 2 else 4
  [512, 128, padLen (p / 8), padLen (p * 24), padLen (p * b.count / 32), padLen (p * b.count / 4),
    if lost then 0 else padLen (p * b.count * u),
    if lost then 0 else (b.regions.map fun r => padLen (r.entries * 2 * u)).sum, 64]

/-- Length of a record (R196). -/
def recordLen (b : Bank) (lost : Bool) : Nat := 256 + (sectionLens b lost).sum

/-- The record flags of R198. -/
def State.recordFlags (s : State) (b : Bank) : Nat :=
  let ps := List.range (modePaths b.mode)
  let any := fun (f : PathCnt → Bool) => b.paths.any fun e => f e.2
  b.flags + 32 * b2n (any fun c => c.warm != 0) + 64 * b2n (ps.any fun p => s.pathFlag b p 1) + 128 * b2n (any fun c => c.crc != 0) +
    256 * b2n (any fun c => c.loss != 0) + 512 * b2n (any fun c => c.lost != 0) + 1024 * b2n (b.shedPasses != 0 || b.stageDrops != 0) +
    2048 * b2n (!b.tiles.isEmpty) + 4096 * b2n (ps.any fun p => s.pathFlag b p 5) + 8192 * b2n (any fun c => c.split)

/-- The record header (R197). -/
def State.recordHeader (s : State) (b : Bank) (which lost : Bool) : List Byte :=
  let lens := sectionLens b lost
  let offs := (List.range 9).map fun i => 256 + (lens.take i).sum
  le 4 0x49584452 ++ le 2 1 ++ le 1 (b2n b.packed) ++ le 1 (b2n which) ++ le 8 (b.start.getD 0) ++ le 8 (b.stop.getD 0) ++
    le 4 b.nspecDone ++ le 4 (s.reg IX_INT_SEQ).toNat ++ le 4 (s.recordFlags b) ++ le 1 b.mode ++ le 1 b.member ++ le 1 s.roleByte ++
    le 1 b.regions.length ++ le 4 s.epochField ++ le 2 (modePaths b.mode) ++ le 2 b.first ++ le 2 b.count ++ le 2 b.t ++
    le 1 (if b.packed then packK 1 b.nspecDone else 0) ++ le 3 0 ++ le 4 b.stageDrops ++ le 4 b.shedPasses ++
    (offs.flatMap fun o => le 4 o) ++ le 4 (recordLen b lost) ++ le 152 0

/-- Bits as bytes, bit 0 of a byte first. -/
def bitmap (n : Nat) (f : Nat → Bool) : List Byte :=
  (List.range (n / 8)).map fun i => BitVec.ofNat 8 (((List.range 8).map fun k => if f (8 * i + k) then 2 ^ k else 0).sum)

/-- The data sections of a record (R201, R202). -/
def dataSections (b : Bank) : List Byte :=
  let spec := (List.range (modePaths b.mode * b.count)).flatMap fun i => compBytes b.packed (packK 1 b.nspecDone) (tblGet 0 b.spec i)
  let vat := b.regions.zipIdx.flatMap fun r =>
    let base := vatBase b.regions r.2
    pad64 ((List.range (2 * r.1.entries)).flatMap fun i => compBytes b.packed (packK r.1.binW b.nspecDone) (tblGet 0 b.vat (2 * base + i)))
  pad64 spec ++ vat

/-- A dump record, whole (R196). -/
def State.record (s : State) (b : Bank) (which lost : Bool) : List Byte :=
  let ps := List.range (modePaths b.mode)
  let body := s.recordHeader b which lost ++ ((List.range 16).flatMap (regionEntry b)) ++ bitmap 1024 (tblGet false b.tiles) ++
    pad64 (bitmap (modePaths b.mode) fun p => s.pathFlag b p 0) ++ pad64 (ps.flatMap (s.pathEntry b)) ++
    pad64 (nibbles (ps.flatMap (s.pathExps b))) ++ pad64 ((ps.flatMap (s.pathClips b)).flatMap (le 4)) ++
    (if lost then [] else dataSections b)
  body ++ le 4 (crc32c body) ++ le 60 0

/-! ### Integrations, closes and drains (R184 to R195) -/

/-- The integration boundary of the open bank has fallen due (R185). -/
def State.closeDue (s : State) : Bool :=
  s.integrating && s.running && s.pw.compOn && !s.ix.deferred && s.curBank.isSome && decide (s.dueAt ≤ s.now)

/-- INTEGRATION_BOUNDARY: the open integration's grid boundary falls due, and the active sends a state record (R185, R194, R438). -/
def execIntegrationBoundary (s : State) : Host.Outcome State Fault Refusal :=
  whenOn s fun s =>
    if s.closeDue then
      (s.closeAt s.dueAt 0).recordSend
    else s

/-- Every spectrum of a bank's integration has been passed over or discarded (R185). -/
def State.bankDone (s : State) (e : Nat) : Bool :=
  (List.range ((e - s.ix.done) / 8192)).all fun i => s.ix.drops.contains (s.ix.done + 8192 * i)

/-- The bank whose last pass has ended and which has not closed. -/
def State.closing (s : State) : Option Bool :=
  let ready := fun (b : Bank) => match b.stop with | some e => !b.draining && s.bankDone e | none => false
  if ready s.ix.bankA then some false else if ready s.ix.bankB then some true else none

/-- The unit writes the record of a bank's integration: what ended before a planned handover is no output of the new active (R431, R453, R454). -/
def State.recordOut (s : State) (b : Bank) : Bool := s.outputsAt (b.stop.getD (2 ^ 64) - 1)

/-- Where the record of a bank goes, whole or LOST; one that the unit does not write waits for no room (R193, R431, R453). -/
def State.recordPlace (s : State) (b : Bank) (lost : Bool) : Option Nat := if s.recordOut b then s.ringPlace (recordLen b lost) else some 0

/-- Write the record of a bank where the unit writes it; IX_INT_SEQ advances on every unit (R193, R431, R452). -/
def State.recordPut (s : State) (b : Bank) (off : Nat) (bytes : List Byte) : State :=
  if s.recordOut b then s.ringPut off bytes else s.setReg IX_INT_SEQ (s.reg IX_INT_SEQ + 1)

/-- DRAIN_WAIT: the ring lacks room for the next record, a LOST one going before that of the bank that drains (R193, R195). -/
def State.drainWait (s : State) (b : Bank) : State :=
  s.setF IX_BANK_STAT IX_BANK_STAT_DRAIN_WAIT (b2n (!s.ix.lostQ.isEmpty || (s.recordPlace b false).isNone))

/-- BANK_CLOSE: the open bank closes, the other opens, and the drain starts (R185, R192, R193). -/
def execBankClose (s : State) : Host.Outcome State Fault Refusal :=
  whenOn s fun s =>
    match s.closing with
    | none => s
    | some c =>
      let b := { s.bank c with draining := true, packed := s.flag IX_CTL IX_CTL_FMT }
      let n := recordLen b false
      let s1 := ((s.setBank c b).setF IX_BANK_STAT IX_BANK_STAT_DRAINING 1).setF IX_BANK_STAT IX_BANK_STAT_DRAIN_LEFT (n / 64)
      let s2 := s1.drainWait b
      match (s2.bank (!c)).start with
      | some a => (s2.setF IX_BANK_STAT IX_BANK_STAT_OPEN (b2n (!c))).setReg64 IX_INT_START_LO a
      | none => s2

/-- The bank that drains. -/
def State.drainBank (s : State) : Option Bool := if s.ix.bankA.draining then some false else if s.ix.bankB.draining then some true else none

/-- After a drain: a deferred close falls at the first spectrum boundary at or after it and the next integration is REALIGNED; a stop that was waiting ends, and an event that waited for a bank fires (R186, R194). -/
def State.afterDrain (s : State) : State :=
  let d := spectrumAt s.now
  if s.ix.deferred then ({ s with ix := { s.ix with deferred := false } }.closeAt d (2 ^ fRealigned)).regrid d
  else if !s.integrating ∧ (s.ix.bankA.start.isSome ∨ s.ix.bankB.start.isSome) then s.regrid d
  else if s.rf IX_STAT IX_STAT_STATE = 2 ∧ s.ix.bankA.start = none ∧ s.ix.bankB.start = none then s.setF IX_STAT IX_STAT_STATE 0
  else s

/-- Write the LOST records that wait, oldest first, as far as the ring has room (R193, R195). -/
def lostWrite : List (Bank × Bool) → State → State
  | [], s => { s with ix := { s.ix with lostQ := [] } }
  | (b, c) :: rs, s =>
    match s.recordPlace b true with
    | some off => lostWrite rs ((((s.recordPut b off (s.record b c true)).recsDone b).bump IX_LOST_INTEG).seen IX_STAT IX_STAT_LOST_SEEN evIndigo)
    | none => { s with ix := { s.ix with lostQ := (b, c) :: rs } }

/-- Write the LOST records that wait. -/
def State.lostFlush (s : State) : State := lostWrite s.ix.lostQ s

/-- DRAIN_END: the record is complete in the ring, the bank is empty, and what waited for it goes on; a boundary that fell due during the drain has been deferred to its end (R192, R194). -/
def execDrainEnd (s : State) : Host.Outcome State Fault Refusal :=
  whenOn s fun s =>
    let s0 := if s.closeDue && s.freeBank.isNone then s.closeAt s.dueAt 0 else s
    match s0.drainBank, s0.lostFlush.ix.lostQ with
    | some c, [] =>
      let s1 := s0.lostFlush
      let b := s1.bank c
      match s1.recordPlace b false with
      | none => s1
      | some off =>
        let s2 := (s1.recordPut b off (s1.record b c false)).recsDone b
        let s3 := ((s2.setBank c bankFree).setF IX_BANK_STAT IX_BANK_STAT_DRAINING 0).setF IX_BANK_STAT IX_BANK_STAT_DRAIN_LEFT 0
        (s3.setF IX_BANK_STAT IX_BANK_STAT_DRAIN_WAIT 0).afterDrain
    | _, _ => s0.lostFlush

/-- DRAIN_RING_SPACE: LOST records that waited, and a drain that waited, find room (R193, R195). -/
def execDrainRingSpace (s : State) : Host.Outcome State Fault Refusal :=
  whenOn s fun s =>
    let s1 := s.lostFlush
    match s1.drainBank with
    | none => s1.setF IX_BANK_STAT IX_BANK_STAT_DRAIN_WAIT (b2n (!s1.ix.lostQ.isEmpty))
    | some c => s1.drainWait (s1.bank c)

/-- An integration is lost: its LOST record is written, or waits for room in the ring, and its bank is empty (R193, R195). DESIGN CHOICE: ATC_END of an integration with no closing boundary is the last spectrum boundary before the loss. -/
def State.lostRecord (s : State) (c : Bool) (flags : Nat) : State :=
  let b := s.bank c
  let stop := b.stop.getD (max (b.start.getD 0) (spectrumFloor s.now))
  let b1 := { b with flags := Nat.lor (setBit b.flags fLost) flags, stop := some stop, vat := [], spec := [], packed := s.flag IX_CTL IX_CTL_FMT }
  ({ s with ix := { s.ix with lostQ := s.ix.lostQ ++ [(b1, c)] } }.setBank c bankFree).lostFlush

/-- The compute dies lose their contents: both halves, the integration in progress and any bank not fully drained; IX_STAT.STATE reads IDLE (R195, R231, R425). -/
def State.computeLost (s : State) (flags : Nat) : State :=
  let s1 := if s.ix.bankA.start.isSome then s.lostRecord false flags else s
  let s2 := if s1.ix.bankB.start.isSome then s1.lostRecord true flags else s1
  let s3 := { s2 with
    ix := { s2.ix with half0 := halfFree, half1 := halfFree, deferred := false, drops := [], olds := [], resumeAt := none }
    wd := { s2.wd with shedB := 0, gap := if s2.wdRuns && s2.wd.gap.isNone then some s2.wd.next else s2.wd.gap } }
  (((((s3.setF WD_STAT WD_STAT_SHED 0).setReg IX_SHED 0).setF IX_BANK_STAT IX_BANK_STAT_DRAINING 0).setF IX_BANK_STAT IX_BANK_STAT_DRAIN_WAIT (b2n (!s3.ix.lostQ.isEmpty))).setF
    IX_BANK_STAT IX_BANK_STAT_DRAIN_LEFT 0).setF IX_STAT IX_STAT_STATE 0

/-- Until array time reaches `b`, IX_STAT.STATE reads IDLE (R425). -/
def State.resumeWait (s : State) (b : Nat) : State :=
  if s.now < b then { s with ix := { s.ix with resumeAt := some b } }.setF IX_STAT IX_STAT_STATE 0 else s

/-- Array time has reached the boundary at which integrations resume (R425). -/
def State.resumeDue (s : State) : State :=
  match s.ix.resumeAt with
  | some b =>
    if s.now < b then s
    else
      let t := { s with ix := { s.ix with resumeAt := none } }
      if t.integrating && (t.bank false).start.isSome || t.integrating && (t.bank true).start.isSome then t.setF IX_STAT IX_STAT_STATE 1 else t
  | none => s

/-- Integrations resume at the first grid boundary from `t` on (R195). -/
def State.integResume (s : State) (t flags : Nat) : State :=
  if s.integrating then
    let n := s.intLen
    let b := if n = 0 then spectrumAt t else s.ix.anchor + cdiv (t - s.ix.anchor) n * n
    let s1 := { s with ix := { s.ix with nextBase := b, done := b, olds := [] } }
    (((s1.epochBound b true).startIntegration b flags).regrid b).resumeWait b
  else { s with ix := { s.ix with nextBase := spectrumAt t, done := spectrumAt t, olds := [] } }

/-! ### Product sets (R181, R184, R187, R205) -/

/-- A region descriptor of four words (R205). -/
def regionOf (w : List Word) : Region :=
  let f := fun i hi lo => bits (w.getD i 0).toNat hi lo
  { prio := f 0 31 30, binW := f 0 7 0 + 1, bFirst := f 1 23 0, bCount := f 2 23 0, chFirst := f 3 27 16, nBins := f 3 12 0 }

/-- The regions of a set's payload, from its first descriptor word on. -/
def regionsOf : Nat → List Word → List Region
  | 0, _ => []
  | n + 1, ws => regionOf (ws.take 4) :: regionsOf n (ws.drop 4)

/-- A product set as its payload gives it, from NSPEC on: NSPEC, FMT and the regions. -/
structure SetDesc where
  nspec : Nat
  fmt : Nat
  regions : List Region
  deriving DecidableEq, Repr

def setDesc (ws : List Word) : SetDesc :=
  let w1 := (ws.getD 1 0).toNat
  { nspec := bits (ws.getD 0 0).toNat 24 0, fmt := bits w1 0 0, regions := regionsOf (bits w1 4 1 + 1) (ws.drop 2) }

/-- Words of a set's payload, from NSPEC on. -/
def setLen (ws : List Word) : Nat := 2 + 4 * (bits (ws.getD 1 0).toNat 4 1 + 1)

/-- A region breaks R181. -/
def State.regionBad (s : State) (r : Region) : Bool :=
  let p := modePaths s.mode
  let lo := memberFirst s.mode s.member
  r.bCount == 0 || decide (p * (p - 1) / 2 < r.bFirst + r.bCount) || r.nBins == 0 || decide (r.chFirst < lo) ||
    decide (lo + modeChans s.mode < r.chFirst + r.nBins * r.binW)

/-- The channel selection of a set: first channel and C_sel (R174). -/
def selection (rs : List Region) : Nat × Nat :=
  let lo := (rs.map (·.chFirst)).foldl min 4096 / 16 * 16
  let hi := cdiv ((rs.map fun r => r.chFirst + r.nBins * r.binW).foldl max 0) 16 * 16
  (lo, hi - lo)

/-- A bin of a region crosses the die boundary (R178). -/
def crossesDie (first count : Nat) (r : Region) : Bool :=
  (List.range r.nBins).any fun n => dieOf first count (r.binFirst n) != dieOf first count (r.binFirst n + r.binW - 1)

/-- The largest record of a set (R187). -/
def setRecordLen (mode : Nat) (d : SetDesc) : Nat :=
  let sel := selection d.regions
  recordLen { bankFree with mode := mode, regions := d.regions, first := sel.1, count := sel.2, packed := d.fmt == 1 } false

/-- Channels of a die in a selection. -/
def chansOn (_first count d : Nat) : Nat := if d = 0 then min count (die0Chans count) else count - die0Chans count

/-- Entries of a set on a die (R187). -/
def entriesOn (first count d : Nat) (rs : List Region) : Nat := (rs.map fun r => r.bCount * (binsOn first count d r).length).sum

/-- The selection of a set leaves a channel of the beam range uncovered (R207). -/
def State.beamUncovered (s : State) (d : SetDesc) : Bool :=
  let sel := selection d.regions
  s.flag WD_CTL WD_CTL_RUN &&
    (decide (s.rf WD_CH WD_CH_FIRST < sel.1) || decide (sel.1 + sel.2 < s.rf WD_CH WD_CH_FIRST + s.rf WD_CH WD_CH_COUNT))

/-- The parameter rules of a set, each with the region it names, or 0x40 for an uncovered range of the beams that `w` enables (R178, R181, R184, R207). -/
def State.setBad (s : State) (d : SetDesc) (wordOf : Nat → Nat) : Option Bad :=
  let sel := selection d.regions
  match d.regions.zipIdx.find? fun r => s.regionBad r.1 with
  | some r => some ⟨stBadParam, wordOf r.2, [0, w32 r.2]⟩
  | none =>
    if decide (16777216 < d.nspec) || decide (d.nspec < minSpectra s.time.rateN) then some ⟨stBadParam, wordOf 0 - 2, []⟩
    else
      match d.regions.zipIdx.find? fun r => crossesDie sel.1 sel.2 r.1 with
      | some r => some ⟨stBadParam, wordOf r.2, [0, w32 r.2]⟩
      | none => if s.beamUncovered d then some ⟨stBadParam, 0, [0, 0x40]⟩ else none

/-- The budgets of R187 on a set: code and the die they name. -/
def State.setBudget (s : State) (d : SetDesc) : Option (Nat × Nat) :=
  let p := modePaths s.mode
  let sel := selection d.regions
  let T := stageT p sel.2
  let N := s.time.rateN
  let D := 165 * 8192
  let entries := (d.regions.map Region.entries).sum
  let cyc := fun die => busiest p sel.1 sel.2 die 0 d.regions
  let U := max (cyc 0) (cyc 1)
  match (List.range 2).find? fun die => decide (8388608 < entriesOn sel.1 sel.2 die d.regions) with
  | some die => some (0x01, die)
  | none =>
    if 33000 * d.nspec * 8192 < entries * cdiv d.nspec T * N then some (0x02, 0)
    else
      match (List.range 2).find? fun die => decide (99 * D < cyc die * N * 100) with
      | some die => some (0x03, die)
      | none =>
        if s.ctRuns && decide (((D - U * N) * T + 2 * D) * 8192 < s.rf ET_CT_GRACE ET_CT_GRACE_GRACE * N * D) then some (0x04, 0)
        else
          match (List.range 2).find? fun die => decide (54400 * 8192 < p * chansOn sel.1 sel.2 die * N) with
          | some die => some (0x05, die)
          | none => if (s.reg IX_DUMP_LEN).toNat < 2 * setRecordLen s.mode d then some (0x06, 0) else none

/-- The words of an accepted set's reply (R205). -/
def State.setReply (s : State) (d : SetDesc) : List Word :=
  let p := modePaths s.mode
  let sel := selection d.regions
  [w32 (satRisk d.nspec d.regions), utilWord s.time.rateN p sel.1 sel.2 0 d.regions, utilWord s.time.rateN p sel.1 sel.2 1 d.regions]

/-- The region registers of a set (R204). -/
def State.regionRegs (s : State) (d : SetDesc) : State :=
  let sel := selection d.regions
  (List.range 16).foldl (fun s i =>
    match d.regions[i]? with
    | some r =>
      ((((s.setReg (IX_RG_CTL i) (w32 (2 ^ 31 + r.prio * 2 ^ 29 + b2n (bit (satRisk d.nspec d.regions) i) * 2 ^ 28 + r.nBins * 256 + (r.binW - 1)))).setReg
        (IX_RG_BL_FIRST i) (w32 r.bFirst)).setReg (IX_RG_BL_COUNT i) (w32 r.bCount)).setReg
        (IX_RG_CH i) (w32 (r.chFirst * 65536 + splitBin sel.1 sel.2 r))).setReg (IX_RG_VATBASE i) (w32 (vatBase d.regions i))
    | none => s.clearRegs [IX_RG_CTL i, IX_RG_BL_FIRST i, IX_RG_BL_COUNT i, IX_RG_CH i, IX_RG_VATBASE i]) s

/-- The configuration that a product set puts in force (R184, R204). -/
def State.setConfig (s : State) (b : Nat) (d : SetDesc) : State :=
  let p := modePaths s.mode
  let sel := selection d.regions
  let s1 := ((s.setF IX_CTL IX_CTL_RUN 1).setF IX_CTL IX_CTL_FMT d.fmt).setF IX_INT_LEN IX_INT_LEN_NSPEC d.nspec
  let s2 := (s1.setF IX_STAGE IX_STAGE_T (stageT p sel.2)).setReg IX_STAGE_CH (w32 (sel.1 * 65536 + sel.2))
  let s3 := (s2.setReg (IX_UTIL 0) (utilWord s.time.rateN p sel.1 sel.2 0 d.regions)).setReg (IX_UTIL 1)
    (utilWord s.time.rateN p sel.1 sel.2 1 d.regions)
  let s4 := (s3.regionRegs d).setF IX_STAT IX_STAT_STATE 1
  { s4 with ix := { s4.ix with regions := d.regions, anchor := b } }

/-- The staging configuration `t` comes into force at `b` in place of that of `s`, which still holds for the spectra before it (R57, R174). -/
def State.stageFrom (s t : State) (b : Nat) : State :=
  if s.stNow.t = 0 then { t with ix := { t.ix with nextBase := b, done := b, olds := [] } }
  else
    let u := s.keepCfg b
    { t with ix := { t.ix with olds := u.ix.olds, half0 := u.ix.half0, half1 := u.ix.half1, nextBase := u.ix.nextBase } }

/-- The open integration ends at `b`; one that would have begun there has no spectrum and is none. -/
def State.endAt (s : State) (b : Nat) : State :=
  match s.curBank with
  | some c => if (s.bank c).start = some b then s.setBank c bankFree else s.endIntegration b
  | none => s

/-- A product set fires at boundary b: the open integration ends there, and the first under the new set starts with CONFIG_CHANGE (R184, R186). -/
def State.applySet (s : State) (b : Nat) (d : SetDesc) : State :=
  let s1 := (if s.integrating then s.endAt b else s).epochBound b true
  ((s1.stageFrom (s1.setConfig b d) b).startIntegration b (2 ^ fConfigChange)).regrid b

/-- An integration stop fires at boundary b (R186). -/
def State.applyStop (s : State) (b : Nat) : State :=
  let s1 := if s.curBank.isSome || s.integrating then (s.endAt b).epochBound b false else s
  let s2 := ((s1.setF IX_CTL IX_CTL_RUN 0).setF IX_STAT IX_STAT_STATE 2).regrid b
  if s2.ix.bankA.start = none ∧ s2.ix.bankB.start = none then s2.setF IX_STAT IX_STAT_STATE 0 else s2

/-! ### Commands (R205) -/

/-- IX_STATUS (R205). -/
def execIxStatus (c : Cmd) (s : State) : Host.Outcome State Fault Refusal :=
  .next (s.command 0x0404 c (fun _ => needLen 0 c) fun s =>
    .ok ([IX_STAT, IX_BANK_STAT, IX_INT_SEQ, IX_NEXT_CLOSE_LO, IX_NEXT_CLOSE_HI, IX_SHED, IX_OVERRUNS, IX_SHED_PASSES, IX_STAGE_DROPS,
      IX_SAT_ENTRIES, IX_LOST_INTEG].map s.reg) s)

/-- IX_DUMP_RELEASE: every record up to and including SEQ (R193, R205). -/
def execIxDumpRelease (c : Cmd) (s : State) : Host.Outcome State Fault Refusal :=
  .next (s.command 0x0405 c
    (fun s => (needLen 1 c).or (badIf (!s.ix.ring.any fun r => r.seq == (c.w 0).toNat) 0))
    fun s => .ok [] (s.ringRelease (c.w 0).toNat))

/-- IX_TILE_MAP: the groups of a tile; region or 0xFF, m, n and first channel, a word each (R205). -/
def execIxTileMap (c : Cmd) (s : State) : Host.Outcome State Fault Refusal :=
  .next (s.command 0x0406 c (fun _ => needLen 1 c) fun s =>
    let t := c.f 0 9 0
    let gs := (dieGroups (modePaths s.mode) s.selFirst s.selCount (t / 512) s.ix.regions).zipIdx.filter fun g => tileOf (t / 512) g.2 == t
    .ok (gs.flatMap fun g => [w32 (g.1.region.getD 0xFF), w32 g.1.m, w32 g.1.n, w32 g.1.ch]) s)

/-- IX_DUMP_RING: sets the ring while IDLE (R193, R205). -/
def execIxDumpRing (c : Cmd) (s : State) : Host.Outcome State Fault Refusal :=
  .next (s.command 0x0407 c
    (fun _ => (needLen 3 c).or ((badIf (c.q 0 % 4096 != 0) 0).or (badIf ((c.w 2).toNat % 4096 != 0) 2)))
    fun s =>
      if s.rf IX_STAT IX_STAT_STATE ≠ 0 then bad stWrongState []
      else if !s.ix.regions.isEmpty && decide ((c.w 2).toNat < 2 * setRecordLen s.mode
          { nspec := s.rf IX_INT_LEN IX_INT_LEN_NSPEC, fmt := s.rf IX_CTL IX_CTL_FMT, regions := s.ix.regions }) then bad stBudget [w32 6, 0]
      else
        let s1 := (s.setReg64 IX_DUMP_BASE_LO (c.q 0)).setReg IX_DUMP_LEN (c.w 2)
        .ok [] { (s1.setReg IX_DUMP_WR 0).setReg IX_DUMP_RD 0 with ix := { s1.ix with ring := [] } })

/-- The counters of the IX block (R204). -/
def ixCounters : List Nat := [IX_OVERRUNS, IX_SHED_PASSES, IX_STAGE_DROPS, IX_SAT_ENTRIES, IX_LOST_INTEG]

/-- IX_CNT_CLR.ALL (R204). -/
def execIxCntClrAll (s : State) : Host.Outcome State Fault Refusal := whenOn s fun s => s.clearCounters ixCounters

/-- IX_CNT_CLR.SAT (R204). -/
def execIxCntClrSat (s : State) : Host.Outcome State Fault Refusal := whenOn s fun s => s.clearCounters ((List.range 32).map IX_TILE_SAT)

end Sys2Proof.Machine
end

