-- ==== Sys2Proof/Machine/Ether.lean ====
section
/-! DEFINITION. The Ethernet ports: reception, filter and classification, flow control, transmission, links, the dump stream and the port commands (R265 to R282, R296 to R299). -/

namespace Sys2Proof.Machine

/-! ### Received frames (R269 to R276) -/

/-- The broadcast and MAC-control addresses (R271). -/
def macBroadcast : Nat := 0xFFFFFFFFFFFF
def macControl : Nat := 0x0180C2000001

/-- The hash index of a destination address (R272): bits [31:23] of the FCS value. -/
def macHash (dst : Nat) : Nat :=
  let c := crc32 (be 6 dst)
  -- the reflected register holds the coefficient of x^31 in bit 0
  (List.range 9).foldl (fun a i => a * 2 + b2n (bit c i)) 0

/-- A group address has its first byte's lowest bit set. -/
def isGroup (dst : Nat) : Bool := bit dst 40

/-- Channel-group address of a member (R286). -/
def State.ctGroup (s : State) (m : Nat) : Nat := s.mac ET_CT_GMAC_LO / 8 * 8 + m % 8

/-- The group address of this member, as the corner turn runs or still runs for spectra before a change (R57, R271). -/
def State.ctMine (s : State) (dst : Nat) : Bool :=
  (s.ctRuns && dst == s.ctGroup s.member) ||
    s.ct.olds.any fun o => s.stBefore o.1 && (s.ctLoad o.2).ctRuns && dst == (s.ctLoad o.2).ctGroup (s.ctLoad o.2).member

/-- The address filter of port `n` (R271). -/
def State.filterPass (s : State) (n dst : Nat) : Bool :=
  dst == s.mac (ET_P_MAC_LO n) || dst == macControl ||
    (List.range 64).any (fun e => s.flag (ET_P_EM_HI n e) ET_P_EM_HI_VALID && s.mac (ET_P_EM_LO n e) == dst) ||
    (isGroup dst && s.rfb (ET_P_HASH n (macHash dst / 32)) ET_P_HASH_HASH (macHash dst % 32)) ||
    s.ctMine dst || (dst == macBroadcast && s.flag (ET_P_CTL n) ET_P_CTL_BCAST)

/-- The EtherType after any 802.1Q tag, and the bytes after it, of a frame without its FCS (R273). -/
def etherOf (bs : List Byte) : Nat × List Byte :=
  if beAt bs 12 2 = 0x8100 then (beAt bs 16 2, bs.drop 18) else (beAt bs 12 2, bs.drop 14)

/-- The ones' complement checksum of bytes that include their checksum comes out right. -/
def sumOk (bs : List Byte) : Bool := onesSum bs 0 == 65535

/-- An IPv4 packet is discarded: header length, fragment, header checksum or UDP checksum (R273). -/
def ipBad (b : List Byte) : Bool :=
  let udp := slice b 20 (beAt b 2 2 - 20)
  beAt b 0 1 % 16 != 5 || beAt b 6 2 % 16384 != 0 || !sumOk (slice b 0 20) ||
    (beAt b 9 1 == 17 && beAt udp 6 2 != 0 && !sumOk (slice b 12 8 ++ be 2 17 ++ be 2 udp.length ++ udp))

/-- What becomes of a frame that passed the filter (R273). -/
inductive RxKind where
  | control
  | stored (cls : Nat)
  | ipDiscard
  | unclaimed
  deriving DecidableEq, Repr

/-- Classification (R273, R447). -/
def State.classify (s : State) (n et : Nat) (b : List Byte) : RxKind :=
  if et = 0x8808 then .control
  else if et = 0x88F7 ∨ et = 0x88B8 then .stored 0
  else if et = 0x88B5 ∨ et = 0x88B6 then .stored 1
  else if et = 0x0806 then (if beAt b 6 2 = 1 ∧ beAt b 24 4 = (s.reg (ET_P_IP n)).toNat then .stored 3 else .unclaimed)
  else if et = 0x0800 then
    if ipBad b then .ipDiscard
    else if beAt b 9 1 ≠ 17 then .unclaimed
    else if beAt b 22 2 = 319 ∨ beAt b 22 2 = 320 then .stored 0
    else if beAt b 16 4 = (s.reg (ET_P_IP n)).toNat ∧ beAt b 22 2 = s.rf (ET_P_UDP n) ET_P_UDP_UDP then .stored 3
    else .unclaimed
  else .unclaimed

/-- The drop counter of a class (R276). -/
def rxDrop (n : Nat) : Nat → Nat
  | 0 => ET_P_RX_DROP_C0 n
  | 1 => ET_P_RX_DROP_C1 n
  | 2 => ET_P_RX_DROP_C2 n
  | _ => ET_P_RX_DROP_C3 n

/-- A PFC frame for one priority (R281, IEEE 802.1Qbb). -/
def State.pfcFrame (s : State) (n q time : Nat) : TxFrame :=
  { cls := 4, c0Message := false
    bytes := be 6 macControl ++ be 6 (s.mac (ET_P_MAC_LO n)) ++ be 2 0x8808 ++ be 2 0x0101 ++ be 2 (2 ^ q) ++
      (List.range 8).flatMap fun i => be 2 (if i = q then time else 0) }

/-- The device sends PFC for its receive partitions on port `n` (R281). -/
def State.sendsPfc (s : State) (n cls : Nat) : Bool :=
  s.rf (ET_P_CTL n) ET_P_CTL_FC_MODE == 2 && s.flag (ET_P_CTL n) ET_P_CTL_TX_PFC && cls != 0 && s.prio n cls != s.prio n 0

/-- The classes whose partitions hold their priorities off change; ET_P_STAT.XOFF shows the priorities of those that do (R281, R298). -/
def State.setXoff (s : State) (n : Nat) (l : List Nat) : State :=
  (s.setPort n { s.port n with xoff := l }).setF (ET_P_STAT n) ET_P_STAT_XOFF (((List.range 8).filter fun q => l.any fun c => s.prio n c == q).map (2 ^ ·)).sum

/-- A class whose partition has reached 75 % is held off (R281). -/
def State.pfcCheck (s : State) (n cls : Nat) : State :=
  if s.sendsPfc n cls && !(s.port n).xoff.contains cls && decide (3 * rxPart cls ≤ 4 * (s.port n).rxFill cls) then
    (s.setXoff n (cls :: (s.port n).xoff)).txQueue n (s.pfcFrame n (s.prio n cls) 0xFFFF)
  else s

/-- Store a frame in its class's receive partition, or drop it (R276); a PTP event message that is stored has its timestamp (R319). -/
def State.rxStore (s : State) (n : Nat) (f : RxFrame) : State :=
  let p := s.port n
  if rxPart f.cls < p.rxFill f.cls + f.len then (s.bump (rxDrop n f.cls)).seen (ET_P_STAT n) ET_P_STAT_DROP_SEEN evEthernet
  else ((s.setPort n { p with rx := p.rx ++ [f] }).pfcCheck n f.cls).stampRx n f

/-- FRAME_RECEIVE (R269 to R276). -/
def execFrameReceive (n : Nat) (bytes : List Byte) (coding : Bool) (s : State) : Host.Outcome State Fault Refusal :=
  whenOn s fun s =>
    let l := bytes.length
    if 4 ≤ n ∨ s.flag (ET_P_STAT n) ET_P_STAT_LINK = false then s
    else if coding then (s.bump (ET_P_RX_FCS_ERR n)).seen (ET_P_STAT n) ET_P_STAT_FCS_SEEN evEthernet
    else if l < 64 then s.bump (ET_P_RX_RUNT n)
    else if s.rf (ET_P_CTL n) ET_P_CTL_MAXFRAME < l then s.bump (ET_P_RX_OVERSIZE n)
    else
      let bs := bytes.take (l - 4)
      if crc32 bs ≠ leAt bytes (l - 4) 4 then (s.bump (ET_P_RX_FCS_ERR n)).seen (ET_P_STAT n) ET_P_STAT_FCS_SEEN evEthernet
      else
        let s1 := (s.bump64 (ET_P_RX_FRAMES_LO n) 1).bump64 (ET_P_RX_OCTETS_LO n) l
        if !s1.filterPass n (beAt bs 0 6) then s1.bump (ET_P_RX_FILTERED n)
        else
          let e := etherOf bs
          match s1.classify n e.1 e.2 with
          | .control =>
            let op := beAt e.2 0 2
            if op = 1 ∨ op = 0x0101 then s1.setPort n { s1.port n with ctl := (s1.port n).ctl ++ [e.2] } else s1.bump (ET_P_RX_FC_IGN n)
          | .ipDiscard => s1.bump (ET_P_RX_IP_DISC n)
          | .unclaimed => s1.bump (ET_P_RX_UNCLAIMED n)
          | .stored c => s1.rxStore n { cls := c, etype := e.1, src := beAt bs 6 6, body := e.2, len := l, ptp := s.tm.ptp }

/-- The oldest received frame that a test picks. -/
def State.rxHead (s : State) (n : Nat) (f : RxFrame → Bool) : Option RxFrame := (s.port n).rx.find? f

/-- Its consumer takes a received frame. -/
def State.rxTake (s : State) (n : Nat) (f : RxFrame) : State := s.setPort n { s.port n with rx := (s.port n).rx.erase f }

/-- ARP_REQUEST_RECEIVED: the port answers (R273, R274). -/
def execArpRequestReceived (n : Nat) (s : State) : Host.Outcome State Fault Refusal :=
  whenOn s fun s =>
    match s.rxHead n fun f => f.etype == 0x0806 with
    | none => s
    | some f =>
      let own := be 6 (s.mac (ET_P_MAC_LO n))
      let ip := be 4 (s.reg (ET_P_IP n)).toNat
      (s.rxTake n f).txQueue n
        { cls := 3, c0Message := false
          bytes := be 6 f.src ++ own ++ be 2 0x0806 ++ be 2 1 ++ be 2 0x0800 ++ be 1 6 ++ be 1 4 ++ be 2 2 ++ own ++ ip ++ slice f.body 8 10 }

/-! ### Flow control (R278 to R281) -/

/-- PFC_REFRESH: while the partition stays above 50 % (R281). -/
def execPfcRefresh (n cls : Nat) (s : State) : Host.Outcome State Fault Refusal :=
  whenOn s fun s =>
    if n < 4 ∧ s.sendsPfc n cls = true ∧ (s.port n).xoff.contains cls = true ∧ rxPart cls < 2 * (s.port n).rxFill cls then
      s.txQueue n (s.pfcFrame n (s.prio n cls) 0xFFFF)
    else s

/-- PFC_XON: the partition has fallen to 50 % or below (R281). DEDUCED (notes/assumptions/94): the rule speaks of each class's partition, so the frame leaves even where another class of the priority holds it off, and that class's next refresh holds it off again. -/
def execPfcXon (n cls : Nat) (s : State) : Host.Outcome State Fault Refusal :=
  whenOn s fun s =>
    if n < 4 ∧ (s.port n).xoff.contains cls = true ∧ 2 * (s.port n).rxFill cls ≤ rxPart cls then
      (s.setXoff n ((s.port n).xoff.filter (· != cls))).txQueue n (s.pfcFrame n (s.prio n cls) 0)
    else s

/-- Set a priority's pause timer; a time of 0 releases it at once (R279). -/
def State.pauseSet (s : State) (n q time : Nat) : State :=
  (s.setPort n { s.port n with timers := tblSet 0 (s.port n).timers q time }).setFB (ET_P_STAT n) ET_P_STAT_PAUSED q (time != 0)

/-- The oldest MAC-control frame of a kind that port `n` holds. -/
def State.ctlHead (s : State) (n op : Nat) : Option (List Byte) := (s.port n).ctl.find? fun b => beAt b 0 2 == op

/-- Take a MAC-control frame. -/
def State.ctlTake (s : State) (n : Nat) (b : List Byte) : State := s.setPort n { s.port n with ctl := (s.port n).ctl.erase b }

/-- PAUSE_FRAME_RECEIVED: all eight priorities (R278, R279). -/
def execPauseFrameReceived (n : Nat) (s : State) : Host.Outcome State Fault Refusal :=
  whenOn s fun s =>
    match s.ctlHead n 1 with
    | none => s
    | some b =>
      let s1 := (s.ctlTake n b).bump (ET_P_RX_PAUSE n)
      if s.rf (ET_P_CTL n) ET_P_CTL_FC_MODE ≠ 1 then s1.bump (ET_P_RX_FC_IGN n)
      else ((List.range 8).foldl (fun s q => s.pauseSet n q (beAt b 2 2)) s1).txStart n

/-- PFC_FRAME_RECEIVED: each priority whose enable bit is set (R278, R279). -/
def execPfcFrameReceived (n : Nat) (s : State) : Host.Outcome State Fault Refusal :=
  whenOn s fun s =>
    match s.ctlHead n 0x0101 with
    | none => s
    | some b =>
      let s1 := (s.ctlTake n b).bump (ET_P_RX_PFC n)
      if s.rf (ET_P_CTL n) ET_P_CTL_FC_MODE ≠ 2 then s1.bump (ET_P_RX_FC_IGN n)
      else ((List.range 8).foldl (fun s q => if bit (beAt b 2 2) q then s.pauseSet n q (beAt b (4 + 2 * q) 2) else s) s1).txStart n

/-- PAUSE_TIMER_EXPIRE (R279). -/
def execPauseTimerExpire (n q : Nat) (s : State) : Host.Outcome State Fault Refusal :=
  whenOn s fun s => if n < 4 ∧ q < 8 ∧ tblGet 0 (s.port n).timers q ≠ 0 then (s.pauseSet n q 0).txStart n else s

/-! ### Transmission (R43, R44, R267) -/

/-- C0_SPACING_RELEASE: a full partition keeps the message in the queue (R44, R277). -/
def execC0SpacingRelease (n : Nat) (s : State) : Host.Outcome State Fault Refusal :=
  whenOn s fun s =>
    let p := s.port n
    if p.c0Gap then
      match p.c0q with
      | [] => s.setPort n { p with c0Gap := false }
      | f :: fs => if s.txFull n f then s else (s.setPort n { p with c0q := fs }).txPut n f
    else s

/-- FRAME_TRANSMIT_END: counted, and the next frame starts; `extra` says whether C1 now runs above its admitted rate (R39, R43, R267, R296). -/
def execFrameTransmitEnd (n : Nat) (late extra : Bool) (s : State) : Host.Outcome State Fault Refusal :=
  whenOn s fun s =>
    match (s.port n).inTx with
    | none => s
    | some f =>
      let s1 := (((s.setPort n { s.port n with inTx := none, excess := extra }).bump64 (ET_P_TX_FRAMES_LO n) 1).bump64 (ET_P_TX_OCTETS_LO n) f.len).emit (.frame n f.wire)
      let s2 := if late && f.c0Message then (s1.bump (ET_P_C0_LATE n)).seen (ET_P_STAT n) ET_P_STAT_C0_LATE_SEEN evEthernet else s1
      let s3 := if extra && f.cls == 1 then s2.bump (ET_P_C1_OVERRUN n) else s2
      let s4 := if f.cls = 4 then s3.bump (ET_P_TX_PFC n) else s3
      let s5 := match f.record with
        | some q => s4.ringSent q
        | none => s4
      s5.txStart n

/-! ### Links and preemption (R266, R282) -/

/-- Start the verify exchange (R282). -/
def State.verifyStart (s : State) (n : Nat) : State :=
  if s.flag (ET_P_CTL n) ET_P_CTL_PREEMPT && s.flag (ET_P_STAT n) ET_P_STAT_LINK then (s.setPort n { s.port n with verify := 1 }).emit (.verify n)
  else s.setPort n { s.port n with verify := 0 }

/-- A port's link goes down: the frame in transmission is lost, and the loss is logged (R266). -/
def State.linkLost (s : State) (n cause : Nat) : State :=
  let s1 := ((s.setPort n { s.port n with inTx := none, cut := none, verify := 0 }).setF (ET_P_STAT n) ET_P_STAT_LINK 0).setF (ET_P_STAT n)
    ET_P_STAT_PREEMPT_OK 0
  (s1.seen (ET_P_STAT n) ET_P_STAT_LINK_DOWN_SEEN evEthernet).logEvent 0x0701 1 [w32 n, w32 cause]

/-- LINK_UP: held frames leave, and the verify exchange starts (R266, R282). -/
def execLinkUp (n : Nat) (s : State) : Host.Outcome State Fault Refusal :=
  whenOn s fun s =>
    if n < 4 ∧ s.flag (ET_P_CTL n) ET_P_CTL_EN = true ∧ s.flag (ET_P_STAT n) ET_P_STAT_LINK = false then
      (((s.setPort n { s.port n with speedChange := false }).setF (ET_P_STAT n) ET_P_STAT_LINK 1).verifyStart n).txStart n
    else s

/-- LINK_DOWN (R266). -/
def execLinkDown (n : Nat) (s : State) : Host.Outcome State Fault Refusal :=
  whenOn s fun s => if n < 4 ∧ s.flag (ET_P_STAT n) ET_P_STAT_LINK = true then s.linkLost n 0 else s

/-- PREEMPT_VERIFY_RETRY: up to three verify mPackets (R282). -/
def execPreemptVerifyRetry (n : Nat) (s : State) : Host.Outcome State Fault Refusal :=
  whenOn s fun s =>
    let v := (s.port n).verify
    if n < 4 ∧ 1 ≤ v ∧ v < 3 ∧ s.flag (ET_P_STAT n) ET_P_STAT_PREEMPT_OK = false then
      (s.setPort n { s.port n with verify := v + 1 }).emit (.verify n)
    else s

/-- RESPOND_MPACKET_RECEIVED (R282). -/
def execRespondMpacketReceived (n : Nat) (s : State) : Host.Outcome State Fault Refusal :=
  whenOn s fun s =>
    if n < 4 ∧ 1 ≤ (s.port n).verify ∧ s.flag (ET_P_STAT n) ET_P_STAT_LINK = true then
      ((s.setPort n { s.port n with verify := 0 }).setF (ET_P_STAT n) ET_P_STAT_PREEMPT_OK 1).txStart n
    else s

/-! ### Dump stream (R296, R297) -/

/-- One dump-stream packet: `o` is its offset in the record. -/
def State.dumpPacket (s : State) (r : DumpRec) (o n : Nat) (resent : Bool) (rec : Option Nat) : State :=
  let port := s.rf ET_DS_CTL ET_DS_CTL_PORT
  let bytes := s.memRead (s.reg64 IX_DUMP_BASE_LO + r.off + o) n
  let head := be 2 0x4453 ++ be 1 1 ++ be 1 (b2n (o == 0) + 2 * b2n (o + n == r.len) + 4 * b2n resent) ++ be 1 s.roleByte ++ be 1 s.member ++ be 2 0 ++
    be 4 s.epochField ++ be 4 r.seq ++ be 4 o ++ be 4 r.len ++ be 4 (s.reg ET_DS_SEQ).toNat ++ be 4 0
  let f := s.udpFrame port 2 (s.mac ET_DS_DMAC_LO) (s.reg ET_DS_DIP).toNat (s.rf ET_DS_UDP ET_DS_UDP_SPORT) (s.rf ET_DS_UDP ET_DS_UDP_DPORT) (head ++ bytes)
  ((s.drUes (s.reg64 IX_DUMP_BASE_LO + r.off + o) n).draw.setReg ET_DS_SEQ (s.reg ET_DS_SEQ + 1)).txQueue port { f with record := rec }

/-- The packets of a span of a record, in offset order; the last of a record sent under HOLD 0 releases it (R296, R299). -/
def State.dumpPackets (s : State) (r : DumpRec) (o n : Nat) (resent : Bool) : State :=
  let seg := s.rf ET_DS_CTL ET_DS_CTL_SEG
  if seg = 0 then s
  else
    (List.range (cdiv n seg)).foldl (fun s i =>
      let a := o + i * seg
      let len := min seg (o + n - a)
      s.dumpPacket r a len resent (if !resent && a + len == r.len && !s.flag ET_DS_CTL ET_DS_CTL_HOLD then some r.seq else none)) s

/-- DUMP_STREAM_SEND: the oldest record not yet sent, on a unit with outputs (R296, R431). -/
def execDumpStreamSend (s : State) : Host.Outcome State Fault Refusal :=
  whenOn s fun s =>
    if !s.flag IX_CTL IX_CTL_EXPORT_ETH || !s.outputs then s
    else
      match s.ix.ring.find? fun r => r.stream && r.sent == 0 with
      | none => s
      | some r =>
        let s1 := { s with ix := { s.ix with ring := s.ix.ring.map fun (x : DumpRec) => if x.seq = r.seq then { x with sent := x.len } else x } }
        s1.dumpPackets r 0 r.len false

/-! ### Commands (R299) -/

/-- Some block builds frames on port `n` that are longer than a MAXFRAME (R270). Dump-stream packets count whether or not EXPORT_ETH is 1: ET_DUMP_RESEND builds them too. -/
def State.frameOver (s : State) (n maxframe : Nat) : Bool :=
  s.wdRegs.beams.any (fun b => bmPort b.2 == n && decide (maxframe < bmFrame b.2)) ||
    (s.ctRuns && bit (s.rf ET_CT_CTL ET_CT_CTL_PORTS) n && decide (maxframe < 8246)) ||
    (s.rf ET_DS_CTL ET_DS_CTL_PORT == n && decide (maxframe < 82 + s.rf ET_DS_CTL ET_DS_CTL_SEG))

/-- C0's priority is shared with another class (R280). -/
def prioShared (w : Word) : Bool :=
  let p := fget w ET_P_PRIO_C0
  p == fget w ET_P_PRIO_C1 || p == fget w ET_P_PRIO_C2 || p == fget w ET_P_PRIO_C3

/-- Port `n` breaks a rule of R270 or R280: a frame longer than its MAXFRAME, C0's priority shared, or no preemption on a port of MSG_PORTS. -/
def State.portWrong (s : State) (n : Nat) : Bool :=
  s.frameOver n (s.rf (ET_P_CTL n) ET_P_CTL_MAXFRAME) || prioShared (s.reg (ET_P_PRIO n)) ||
    (!s.flag (ET_P_CTL n) ET_P_CTL_PREEMPT && s.rfb SF_CTL SF_CTL_MSG_PORTS n)

/-- The parameter rules of ET_PORT_CONFIG (R18, R270, R280). -/
def State.portBad (s : State) (c : Cmd) : Option Bad :=
  let n := c.f 0 1 0
  (badIf (badImage (ET_P_CTL n) (c.w 1) || s.frameOver n (fget (c.w 1) ET_P_CTL_MAXFRAME) ||
      (fget (c.w 1) ET_P_CTL_PREEMPT == 0 && s.rfb SF_CTL SF_CTL_MSG_PORTS n)) 1).or
    (badIf (badImage (ET_P_PRIO n) (c.w 2) || prioShared (c.w 2)) 2)

/-- Write a port's images; a change of SPEED, or of EN to 0, takes the link down, and one of PREEMPT restarts the verify exchange (R282, R299). -/
def State.portConfig (s : State) (n : Nat) (ws : List Word) : State :=
  let speed := fget (ws.getD 0 0) ET_P_CTL_SPEED != s.rf (ET_P_CTL n) ET_P_CTL_SPEED
  let off := fget (ws.getD 0 0) ET_P_CTL_EN == 0
  let pre := fget (ws.getD 0 0) ET_P_CTL_PREEMPT != s.rf (ET_P_CTL n) ET_P_CTL_PREEMPT
  let up := s.flag (ET_P_STAT n) ET_P_STAT_LINK
  let s0 := s.configAll ([ET_P_CTL n, ET_P_PRIO n, ET_P_MAC_LO n, ET_P_MAC_HI n, ET_P_IP n, ET_P_UDP n].zip ws)
  let s1 := s0.setXoff n ((s.port n).xoff.filter (s0.sendsPfc n))
  if (speed || off) && up then (s1.setPort n { s1.port n with speedChange := speed }).linkLost n (b2n speed)
  else if pre then (s1.setF (ET_P_STAT n) ET_P_STAT_PREEMPT_OK 0).verifyStart n
  else s1

/-- ET_PORT_CONFIG: a lower SPEED must still carry the beams of the port (R40). -/
def execEtPortConfig (c : Cmd) (s : State) : Host.Outcome State Fault Refusal :=
  .next (s.command 0x0701 c (fun s => (needLen 7 c).or (s.portBad c)) fun s =>
    let n := c.f 0 1 0
    let t := s.portConfig n (c.payload.drop 1)
    if bit (s.rf ET_CT_CTL ET_CT_CTL_PORTS) n && s.flag ET_CT_CTL ET_CT_CTL_RUN then bad stWrongState []
    else if !t.portC1Ok n (wdLine t.wdRegs n) then bad stBudget [0x12, w32 n]
    else .ok [] t)

/-- ET_FILTER_SET: the whole filter of a port. -/
def execEtFilterSet (c : Cmd) (s : State) : Host.Outcome State Fault Refusal :=
  .next (s.command 0x0702 c
    (fun _ => (needLenIn 17 145 c).or ((badIf (decide (64 < c.f 0 22 16)) 0).or (needLen (17 + 2 * c.f 0 22 16) c)))
    fun s =>
      let n := c.f 0 1 0
      let s1 := s.configAll ((List.range 16).map fun q => (ET_P_HASH n q, c.w (1 + q)))
      .ok [] (s1.configAll ((List.range 64).flatMap fun e => [(ET_P_EM_LO n e, c.w (17 + 2 * e)), (ET_P_EM_HI n e, c.w (18 + 2 * e))])))

/-- The 32-bit counters of a port, and its 64-bit ones. -/
def portCounters (n : Nat) : List Nat :=
  [ET_P_RX_FCS_ERR n, ET_P_RX_RUNT n, ET_P_RX_OVERSIZE n, ET_P_RX_FILTERED n, ET_P_RX_UNCLAIMED n, ET_P_RX_DROP_C0 n, ET_P_RX_DROP_C1 n,
   ET_P_RX_DROP_C2 n, ET_P_RX_DROP_C3 n, ET_P_RX_PAUSE n, ET_P_RX_PFC n, ET_P_RX_FC_IGN n, ET_P_TX_PFC n, ET_P_TX_DISC_C1 n, ET_P_C0_LATE n,
   ET_P_C0_OVERFLOW n, ET_P_C1_OVERRUN n, ET_P_TX_PREEMPT n, ET_P_RX_IP_DISC n]
def portPairs (n : Nat) : List Nat := [ET_P_TX_FRAMES_LO n, ET_P_TX_OCTETS_LO n, ET_P_RX_FRAMES_LO n, ET_P_RX_OCTETS_LO n]

/-- Every counter register of a port, in register order. -/
def portRegs (n : Nat) : List Nat := (portPairs n).flatMap (fun o => [o, o + 4]) ++ portCounters n

/-- ET_PORT_STATUS. -/
def execEtPortStatus (c : Cmd) (s : State) : Host.Outcome State Fault Refusal :=
  .next (s.command 0x0704 c (fun _ => needLen 1 c) fun s => .ok ((ET_P_STAT (c.f 0 1 0) :: portRegs (c.f 0 1 0)).map s.reg) s)

/-- ET_DS_CONFIG: takes effect from the next record. -/
def execEtDsConfig (c : Cmd) (s : State) : Host.Outcome State Fault Refusal :=
  .next (s.command 0x0706 c
    (fun s => (needLen 5 c).or (badIf (badImage ET_DS_CTL (c.w 0) || fget (c.w 0) ET_DS_CTL_SEG % 64 != 0 ||
      decide (s.rf (ET_P_CTL (fget (c.w 0) ET_DS_CTL_PORT)) ET_P_CTL_MAXFRAME < 82 + fget (c.w 0) ET_DS_CTL_SEG)) 0))
    fun s => .ok [] (s.configAll ([ET_DS_CTL, ET_DS_DMAC_LO, ET_DS_DMAC_HI, ET_DS_DIP, ET_DS_UDP].zip c.payload)))

/-- ET_DUMP_RESEND. -/
def execEtDumpResend (c : Cmd) (s : State) : Host.Outcome State Fault Refusal :=
  .next (s.command 0x0707 c
    (fun s => (needLen 3 c).or
      (match s.ix.ring.find? fun r => r.seq == (c.w 0).toNat && !r.freed with
       | none => some ⟨stBadParam, 0, []⟩
       | some r => badIf (decide (r.len < (c.w 1).toNat + (c.w 2).toNat)) 1))
    fun s =>
      match s.ix.ring.find? fun r => r.seq == (c.w 0).toNat && !r.freed with
      | none => bad stBadParam []
      | some r => .ok [] (s.dumpPackets r (c.w 1).toNat (c.w 2).toNat true))

/-- The ET_CT counters (R298). -/
def ctCounters : List Nat := [ET_CT_TX_BLOCKS_LO, ET_CT_TX_BLOCKS_HI, ET_CT_RX_BLOCKS_LO, ET_CT_RX_BLOCKS_HI, ET_CT_NAK_TX, ET_CT_NAK_RX,
  ET_CT_RESENT, ET_CT_GONE, ET_CT_LOST, ET_CT_LATE, ET_CT_DUP, ET_CT_CRC, ET_CT_OFFGRID, ET_CT_STALE, ET_CT_MALFORMED, ET_CT_UNSENT,
  ET_CT_RESYNC, ET_CT_MISSING_MAX]

/-- ET_CNT_CLR.ALL (R298). -/
def execEtCntClrAll (s : State) : Host.Outcome State Fault Refusal :=
  whenOn s fun s => s.clearCounters (ctCounters ++ (List.range 4).flatMap portRegs)

/-- ET_CNT_CLR.CT (R298). -/
def execEtCntClrCt (s : State) : Host.Outcome State Fault Refusal := whenOn s fun s => s.clearCounters ctCounters

/-- ET_CNT_CLR.PORTS (R298). -/
def execEtCntClrPorts (mask : Nat) (s : State) : Host.Outcome State Fault Refusal :=
  whenOn s fun s => s.clearCounters (((List.range 4).filter (bit mask)).flatMap portRegs)

end Sys2Proof.Machine
end

