-- ==== Sys2Proof/Machine/Filter.lean ====
section
/-! DEFINITION. The filter bank of the standard channeliser program: the rounded coefficients, the weighted tap sums and the channel values with their bounded error (R151 to R153). -/

namespace Sys2Proof.Machine

/-! ### Sines and cosines of fractions of a turn -/

/-- π in units of 2^-128. -/
def piQ : Int := 1069028584064966747859680373161870783300

/-- Terms of a sine or cosine series in units of 2^-128, from the term `t` of degree `n` on, at an angle whose square is `x2`; `fuel` counts the terms. -/
def trigSeries (x2 : Int) : Nat → Int → Int → Int
  | 0, _, _ => 0
  | fuel + 1, t, n => t + trigSeries x2 fuel (-(t * x2) / 2 ^ 128 / ((n + 1) * (n + 2))) (n + 2)

/-- The angle of `a` n-ths of a turn, in units of 2^-128. -/
def turnQ (a n : Nat) : Int := 2 * piQ * (a % n : Nat) / n

/-- Cosine and sine of `a` n-ths of a turn, in units of 2^-128. -/
def cosQ (a n : Nat) : Int := trigSeries (turnQ a n * turnQ a n / 2 ^ 128) 32 (2 ^ 128) 0
def sinQ (a n : Nat) : Int := trigSeries (turnQ a n * turnQ a n / 2 ^ 128) 32 (turnQ a n) 1

/-! ### Coefficients (R151) -/

/-- w[i] · sinc((i − 16,383.5) / 8,192) to a constant factor. -/
def tapShape (i : Nat) : Int :=
  let m := ((2 * i : Int) - 32767).natAbs
  (2 ^ 128 - cosQ (2 * i + 1) 65536) * sinQ m 32768 / m

/-- h[i] rounded to 16 bits relative to the peak coefficient (R151). DEDUCED: the peak is 32,767, and halves round away from zero; no coefficient lies near a half. -/
def stdCoef (i : Nat) : Int :=
  let v := 32767 * tapShape i
  v.sign * ((2 * v.natAbs + (tapShape 16383).natAbs) / (2 * (tapShape 16383).natAbs) : Nat)

/-- X memory of the standard program: the coefficients in halfwords 0–32,767 (R151). -/
def stdX : List Nat := (List.range 32768).map fun i => toBits 16 (stdCoef i)

/-- A in units of 2^-84 for the rounded coefficients: the root of 2 over the sum of their squares, which is 7,003,192,147,428 (R151). -/
def coefScale : Int := 10336811876444062016

/-! ### Channel values (R152, R153) -/

/-- v[n]: the tap sum of the window's samples, oldest first, under the coefficients `h` (R152). -/
def tapSum (h : Nat → Int) (xs : List Int) (n : Nat) : Int :=
  ((List.range 4).map fun p => h (8192 * p + n) * xs.getD (8192 * p + n) 0).sum

/-- z[k] of the tap sums, real and imaginary part, in units of 2^-40 CU, each less than one unit from its exact value (R152). -/
def chanExact (vs : List Int) (k : Nat) : Int × Int :=
  let part := fun (f : Nat → Int) => (vs.zipIdx.map fun v => v.1 * f (k * v.2 % 8192)).sum * coefScale / 2 ^ 172
  (part fun a => cosQ a 8192, part fun a => -sinQ a 8192)

/-- The largest component magnitude of a spectrum. -/
def largest (zs : List (Int × Int)) : Nat := (zs.map fun z => max z.1.natAbs z.2.natAbs).foldl max 0

/-- A free error held within a bound. -/
def within (b e : Int) : Int := max (-b) (min b e)

/-- The 4,096 channel values that the program computes from a window: each component differs from its exact value by at most 2^-14 of the spectrum's largest, by an amount that is free (R153). Two units are added to the bound for the rounding of `chanExact`. -/
def chanValues (h : Nat → Int) (xs : List Int) : List (Int × Int) :=
  let vs := (List.range 8192).map (tapSum h xs)
  let zs := (List.range 4096).map (chanExact vs)
  let b : Int := (largest zs / 2 ^ 14 : Nat) + 2
  zs.zipIdx.map fun z => (z.1.1 + within b (Config.chanError xs z.2).1, z.1.2 + within b (Config.chanError xs z.2).2)

end Sys2Proof.Machine
end

