-- ==== Sys2Proof/Machine/Woad.lean ====
section
/-! DEFINITION. The Woad beamformer: polynomials, phases and weights, beam sums, output formats, packets, passes, and the beam commands (R206 to R234). -/

namespace Sys2Proof.Machine

/-! ### Polynomials, phases and weights (R210 to R217) -/

/-- A slot of zeros (R214). -/
def polyZero : PolySlot := { t0 := 0, c0 := 0, c1 := 0, c2 := 0, taper := 0 }

/-- Slots of a table. -/
def polySlots : Nat := 262144

/-- The slot stored in 32 bytes of memory (R210). -/
def polyOf (bs : List Byte) : PolySlot := { t0 := leAt bs 0 8, c0 := leAt bs 8 8, c1 := leAt bs 16 4, c2 := leAt bs 20 4, taper := leAt bs 24 1 }

/-- The sampling rate in Hz. -/
def State.fsHz (s : State) : Nat := s.time.rateN * 10000000

/-- t of R211 in sample periods. -/
def polyT (sl : PolySlot) (st : Nat) : Int := (st : Int) - 8192 - (sl.t0 : Int)

/-- τ of R211 in ns. -/
def polyTau (fs : Nat) (sl : PolySlot) (st : Nat) : Rat :=
  let t : Rat := (polyT sl st : Rat) / (fs : Rat)
  (sext 64 sl.c0 : Rat) / 2 ^ 32 + (sext 32 sl.c1 : Rat) / 2 ^ 24 * t + (sext 32 sl.c2 : Rat) / 2 ^ 36 * t * t

/-- |t| exceeds 1,024 s (R212). -/
def polyAged (fs : Nat) (sl : PolySlot) (st : Nat) : Bool := decide (1024 * fs < (polyT sl st).natAbs)

/-- A number of turns as a 48-bit fraction of a turn. -/
def turn48 (x : Rat) : Nat := ((x * 2 ^ 48).floor % 2 ^ 48).toNat

/-- Sky frequency of channel k in Hz (R215). -/
def skyHz (fs : Nat) (c : WdCfg) (k : Nat) : Rat :=
  (c.f0 : Rat) / 65536 + (if c.sb then -1 else 1) * ((k * fs : Nat) : Rat) / 8192

/-- Exact phase of channel k in turns, whole turns included (R215). -/
def phaseExact (fs : Nat) (c : WdCfg) (tau : Rat) (k : Nat) : Rat := skyHz fs c k * tau / 1000000000

/-- Exact step of the phase per channel in turns (R216). -/
def phaseStep (fs : Nat) (c : WdCfg) (tau : Rat) : Rat := (if c.sb then -1 else 1) * (fs : Rat) / 8192 * tau / 1000000000

/-- A number of 48-bit fractions of a turn lies within 2^-24 turn of an exact phase. -/
def phaseNear (n : Int) (x : Rat) : Bool := decide ((n : Rat) ≤ x * 2 ^ 48 + 2 ^ 24) && decide (x * 2 ^ 48 ≤ (n : Rat) + 2 ^ 24)

/-- The phase at the first channel and the step, in 48-bit fractions of a turn: within a free rounding error of the exact ones, where the phases of the first and the last channel, and so all, keep the bound (R216). -/
def phaseRun (fs : Nat) (c : WdCfg) (tau : Rat) : Int × Int :=
  let x := phaseExact fs c tau c.first
  let d := phaseStep fs c tau
  let e := Config.phaseError x d
  let a := (x * 2 ^ 48).floor
  let b := (d * 2 ^ 48).floor
  let n := c.count - 1
  if phaseNear (a + e.1) x && phaseNear (a + e.1 + n * (b + e.2)) (x + n * d) then (a + e.1, b + e.2) else (a, b)

/-- The phase that Woad uses: the step accumulated once per channel, modulo 1 (R216). -/
def phaseUsed (fs : Nat) (c : WdCfg) (tau : Rat) (k : Nat) : Nat :=
  let r := phaseRun fs c tau
  ((r.1 + ((k - c.first : Nat) : Int) * r.2) % 2 ^ 48).toNat

/-- The table index of a phase (R217). -/
def phaseIndex (phi : Nat) : Nat := (phi + 2 ^ 35) / 2 ^ 36 % 4096

/-- rha(127 cos(2π i / 4096)) and rha(127 sin(2π i / 4096)) (R217). -/
def cosTab (i : Nat) : Int := rhaShift (127 * cosQ i 4096) (-128)
def sinTab (i : Nat) : Int := rhaShift (127 * sinQ i 4096) (-128)

/-- rha(x / n) of a positive n. -/
def rhaBy (x : Int) (n : Nat) : Int := x.sign * ((2 * x.natAbs + n) / (2 * n) : Nat)

/-- The weight of taper a and phase φ (R217). -/
def weight (a phi : Nat) : Int × Int := (rhaBy (a * cosTab (phaseIndex phi)) 255, rhaBy (a * sinTab (phaseIndex phi)) 255)

/-! ### The state of Woad -/

/-- A beam of which nothing is in progress. -/
def beamReset : BeamSt :=
  { opened := [], ready := [], tp := [], tpStart := none, tpN := 0, tpZero := [], tpFlags := [], tpPartial := true, tpSeg := 0, tpDone := [] }

/-- Beam b. -/
def State.beam (s : State) (b : Nat) : BeamSt := tblGet beamReset s.wd.beams b

/-- Replace beam b. -/
def State.setBeam (s : State) (b : Nat) (x : BeamSt) : State := { s with wd := { s.wd with beams := tblSet beamReset s.wd.beams b x } }

/-- The configuration in force for the spectrum of an array time (R232). -/
def State.wdCfg (s : State) (st : Nat) : WdCfg :=
  match s.wd.olds.find? fun o => decide (st < o.1) with
  | some o => o.2
  | none => s.wdRegs

/-- Swaps that have fired and lie after a spectrum (R213). -/
def State.swapsAfter (s : State) (st : Nat) : Nat := (s.wd.swaps.filter fun b => decide (st < b.1)).length

/-- The slots that a table holds, by slot. -/
def State.polyTab (s : State) (t : Nat) : Tbl PolySlot :=
  (s.wd.tab.filter fun e => e.1 / polySlots == t).map fun e => (e.1 % polySlots, e.2)

/-- The slots of the table that a spectrum uses: the one before the first swap after it (R213). -/
def State.tabOf (s : State) (st : Nat) : Tbl PolySlot :=
  match s.wd.swaps.find? fun b => decide (st < b.1) with
  | some b => b.2
  | none => s.polyTab (s.rf WD_TABLE WD_TABLE_ACTIVE)

/-- SEG of a spectrum (R213). -/
def State.segOf (s : State) (st : Nat) : Nat := (s.rf WD_TABLE WD_TABLE_SEG + 65536 - s.swapsAfter st % 65536) % 65536

/-- The slot of a beam and array path that a spectrum uses (R210, R213). -/
def State.poly (s : State) (st b p : Nat) : PolySlot := tblGet polyZero (s.tabOf st) (4096 * b + p)

/-! ### The beam sum (R206, R218) -/

/-- One path's part of y(b, k). -/
def State.beamTerm (s : State) (c : WdCfg) (b : Nat) (x : StSpec) (p k : Nat) : Int × Int :=
  let sl := s.poly x.st b p
  if sl.taper = 0 then (0, 0)
  else
    let w := weight sl.taper (phaseUsed s.fsHz c (polyTau s.fsHz sl x.st) k)
    let v := Sys2Proof.Machine.staged x p k
    (w.1 * v.1 - w.2 * v.2, w.1 * v.2 + w.2 * v.1)

/-- y(b, k) (R206). -/
def State.beamSum (s : State) (c : WdCfg) (b : Nat) (x : StSpec) (k : Nat) : Int × Int :=
  (List.range (modePaths (s.stCfg x.st).mode)).foldl (fun a p => let t := s.beamTerm c b x p k; (a.1 + t.1, a.2 + t.2)) (0, 0)

/-- A run of 512 channels meets a run of n channels from c. -/
def runMeets (r c n : Nat) : Bool := decide (r * 512 < c + n) && decide (c < r * 512 + 512)

/-- Some channel of a run from c was zero-filled after a lost block. -/
def StPath.lostIn (p : StPath) (c n : Nat) : Bool := (List.range 8).any fun r => bit p.lost r && runMeets r c n

/-- ZERO_PATHS and CT_LOST of a run of channels (R226). -/
def zeroOf (x : StSpec) (c n : Nat) : Nat × Bool :=
  ((x.paths.filter fun p => p.2.loss || p.2.lostIn c n).length, x.paths.any fun p => p.2.lostIn c n)

/-- A path's spectrum lies in a scale-seeded epoch: as its slice flagged it, or for a remote path as the record of the epoch that its blocks name says (R166, R200, R226). -/
def State.pathSeeded (s : State) (x : StSpec) (p : Nat) (q : StPath) : Bool :=
  if p / 512 = (s.stCfg x.st).member then q.seeded
  else q.here && s.ix.recs.any fun r => r.path == p && r.epoch / 8192 % 2 ^ 32 == q.scale && bit (leAt r.bytes 11 1) 0

/-- Info bits [31:25] of a spectrum, CT_LOST apart (R226, R228). -/
def State.infoOf (s : State) (x : StSpec) (dropped swap : Bool) : Nat :=
  64 * b2n (x.paths.any (·.2.loss)) + 16 * b2n (x.paths.any (·.2.crc)) + 8 * b2n (x.paths.any (·.2.warm)) +
    4 * b2n (x.paths.any fun p => s.pathSeeded x p.1 p.2) + 2 * b2n dropped + b2n swap

/-- Runs of CPK channels of a beam range. -/
def chunks (c : WdCfg) (ws : List Word) : List Nat := (List.range (c.count / bmCpk ws)).map fun i => c.first + i * bmCpk ws

/-- A beam's part of a spectrum. -/
def State.beamSpec (s : State) (c : WdCfg) (b : Nat) (ws : List Word) (x : StSpec) (dropped swap : Bool) : BeamSpec :=
  { st := x.st, seg := s.segOf x.st, info := s.infoOf x dropped swap
    zero := (chunks c ws).map fun k => zeroOf x k (bmCpk ws)
    age := (List.range (modePaths (s.stCfg x.st).mode)).any fun p =>
      let sl := s.poly x.st b p
      sl.taper != 0 && polyAged s.fsHz sl x.st
    y := (List.range c.count).map fun i => if dropped then (0, 0) else s.beamSum c b x (c.first + i) }

/-! ### Output formats (R220 to R222) -/

/-- A component in a format's range, and whether it was clamped. -/
def clampTo (m : Int) (x : Int) : Int × Bool := (max (-m) (min m x), decide (m < x) || decide (x < -m))

/-- 8+8 data of a run of values, and the clamped components (R220). -/
def fmt88 (sh : Nat) (ys : List (Int × Int)) : List Byte × Nat :=
  let q := ys.map fun y => (clampTo 127 (rhaShift y.1 (-(sh : Int))), clampTo 127 (rhaShift y.2 (-(sh : Int))))
  (q.flatMap fun z => le 1 (toBits 8 z.1.1) ++ le 1 (toBits 8 z.2.1), (q.map fun z => b2n z.1.2 + b2n z.2.2).sum)

/-- Exponent of a group (R221). -/
def groupExp (sh : Nat) (ys : List (Int × Int)) : Nat :=
  let m := (ys.map fun y => max y.1.natAbs y.2.natAbs).foldl max 0
  ((List.range 16).find? fun e => decide (2 * m < 15 * 2 ^ (e + sh))).getD 15

/-- A group in 4+4: its exponent, its bytes and its clamped components (R221). -/
def group44 (sh : Nat) (ys : List (Int × Int)) : Nat × List Byte × Nat :=
  let e := groupExp sh ys
  let q := ys.map fun y => (clampTo 7 (rhaShift y.1 (-((e + sh : Nat) : Int))), clampTo 7 (rhaShift y.2 (-((e + sh : Nat) : Int))))
  (e, q.flatMap fun z => le 1 (toBits 4 z.1.1 * 16 + toBits 4 z.2.1), (q.map fun z => b2n z.1.2 + b2n z.2.2).sum)

/-- Split into groups of 16; `fuel` bounds their number. -/
def groups16 : Nat → List (Int × Int) → List (List (Int × Int))
  | 0, _ => []
  | k + 1, ys => if ys.isEmpty then [] else ys.take 16 :: groups16 k (ys.drop 16)

/-- 4+4 data of a run of values: exponent bytes, channel bytes, and the clamped components (R221). -/
def fmt44 (sh : Nat) (ys : List (Int × Int)) : List Byte × Nat :=
  let gs := (groups16 256 ys).map (group44 sh)
  (nibbles (gs.map (·.1)) ++ gs.flatMap (·.2.1), (gs.map (·.2.2)).sum)

/-- A natural number as IEEE 754 binary32, to nearest-even (R222). -/
def binary32 (n : Nat) : Nat :=
  if n = 0 then 0
  else
    let e := Nat.log2 n
    let m :=
      if e ≤ 23 then n * 2 ^ (23 - e)
      else
        let d := 2 ^ (e - 23)
        let q := n / d
        if d < 2 * (n % d) ∨ (2 * (n % d) = d ∧ q % 2 = 1) then q + 1 else q
    (e + 127) * 2 ^ 23 + (m - 2 ^ 23)

/-! ### Packets (R223 to R227) -/

/-- FLAGS bits of R225. -/
def fGap : Nat := 1
def fAge : Nat := 2
def fPartial : Nat := 4
def fShed : Nat := 8

/-- One spectrum's block of a voltage packet for the i-th run, and its clamped components (R224, R226). -/
def specBlock (ws : List Word) (i : Nat) (x : BeamSpec) : List Byte × Nat :=
  let z := x.zero.getD i (0, false)
  let ys := (x.y.drop (i * bmCpk ws)).take (bmCpk ws)
  let d := if bmFmt ws = 0 then fmt88 (bmF ws 0 WD_BM_CTL_SHIFT) ys else fmt44 (bmF ws 0 WD_BM_CTL_SHIFT) ys
  (be 4 ((x.info + 32 * b2n z.2) * 2 ^ 25 + z.1) ++ d.1, d.2)

/-- The voltage packet of the i-th run from a beam's open spectra (R224, R225). -/
def voltagePacket (g : StCfg) (c : WdCfg) (ws : List Word) (xs : List BeamSpec) (i : Nat) : BeamPkt :=
  let bl := xs.map (specBlock ws i)
  let info := xs.foldl (fun a x => Nat.lor a (x.info + 32 * b2n (x.zero.getD i (0, false)).2)) 0
  { format := bmFmt ws + 1, mode := g.mode, member := g.member, atc := (xs.map (·.st)).headD 0, firstCh := c.first + i * bmCpk ws, nch := bmCpk ws, nspec := xs.length, pbin := 1
    shift := bmF ws 0 WD_BM_CTL_SHIFT, seg := (xs.map (·.seg)).headD 0, flags := info * 2 ^ 25 + fAge * b2n (xs.any (·.age))
    countA := (bl.map (·.2)).sum, countB := 0, payload := bl.flatMap (·.1), regs := ws }

/-- Close a beam's open voltage packet: one packet per run, in channel order (R224, R232). -/
def State.closeVoltage (s : State) (c : WdCfg) (b : Nat) (ws : List Word) : State :=
  let x := s.beam b
  if x.opened.isEmpty then s
  else
    let ps := (List.range (c.count / bmCpk ws)).map (voltagePacket (s.stCfg ((x.opened.map (·.st)).headD 0)) c ws x.opened)
    let n := (ps.map (·.countA)).sum
    let s1 := s.setBeam b { x with opened := [], ready := x.ready ++ ps }
    if n = 0 then s1 else (s1.bumpBy WD_CLIPS counter32 n).seen WD_STAT WD_STAT_CLIP_SEEN evWoad

/-- The total-power packet of the i-th run (R224, R225). -/
def powerPacket (g : StCfg) (c : WdCfg) (ws : List Word) (x : BeamSt) (stop i : Nat) (cut : Bool) : BeamPkt :=
  let start := x.tpStart.getD stop
  let bins := bmCpk ws / bmPbin ws
  { format := 3, mode := g.mode, member := g.member, atc := start, firstCh := c.first + i * bmCpk ws, nch := bmCpk ws, nspec := (stop - start) / 8192, pbin := bmPbin ws
    shift := bmF ws 0 WD_BM_CTL_SHIFT, seg := x.tpSeg, flags := Nat.lor (tblGet 0 x.tpFlags i) (fPartial * b2n (cut || x.tpPartial))
    countA := x.tpN, countB := tblGet 0 x.tpZero i
    payload := (List.range bins).flatMap fun j => be 4 (binary32 (tblGet 0 x.tp (i * bins + j))), regs := ws }

/-- Close a beam's open total-power integration before an array time (R222). -/
def State.closePower (s : State) (c : WdCfg) (b : Nat) (ws : List Word) (stop : Nat) (cut : Bool) : State :=
  let x := s.beam b
  if x.tpStart.isNone then s
  else
    let ps := (List.range (c.count / bmCpk ws)).map fun i => powerPacket (s.stCfg (x.tpStart.getD stop)) c ws x stop i cut
    s.setBeam b { beamReset with opened := x.opened, ready := x.ready, tpPartial := false, tpDone := x.tpDone ++ ps }

/-- A gap packet over the whole range of a beam (R229, R231). -/
def gapPacket (g : StCfg) (c : WdCfg) (ws : List Word) (atc nspec seg flags : Nat) : BeamPkt :=
  { format := bmFmt ws + 1, mode := g.mode, member := g.member, atc := atc, firstCh := c.first, nch := c.count, nspec := nspec
    pbin := if bmFmt ws < 2 then 1 else bmPbin ws, shift := bmF ws 0 WD_BM_CTL_SHIFT, seg := seg, flags := fGap + flags, countA := 0, countB := 0
    payload := [], regs := ws }

/-- The beam header and payload of a packet (R225). -/
def State.beamBytes (s : State) (b : Nat) (p : BeamPkt) : List Byte :=
  be 2 0x5742 ++ be 1 1 ++ be 1 p.format ++ be 1 b ++ be 1 s.roleByte ++ be 1 p.mode ++ be 1 p.member ++ be 4 s.epochField ++
    be 4 (s.reg (WD_BM_SEQ b)).toNat ++ be 8 p.atc ++ be 2 p.firstCh ++ be 2 p.nch ++ be 4 p.nspec ++ be 2 p.pbin ++ be 1 p.shift ++ be 1 p.seg ++
    be 4 p.flags ++ be 4 p.countA ++ be 4 p.countB ++ be 4 p.payload.length ++ be 12 0 ++ p.payload

/-- Send one packet of a beam on its port; a unit without outputs sends none (R223, R231, R431). -/
def State.beamSend (s : State) (b : Nat) (p : BeamPkt) : State :=
  if !s.outputsAt p.atc then s
  else
    let ws := p.regs
    let mac := bmF ws 2 WD_BM_DMAC_LO_MAC + bmF ws 3 WD_BM_DMAC_HI_MAC * 2 ^ 32
    let f := s.udpFrame (bmPort ws) 1 mac (bmF ws 4 WD_BM_DIP_IP) (bmF ws 5 WD_BM_UDP_SPORT) (bmF ws 5 WD_BM_UDP_DPORT) (s.beamBytes b p)
    let s1 := (s.draw.txBeam (bmPort ws) f).setReg (WD_BM_SEQ b) (s.reg (WD_BM_SEQ b) + 1)
    if p.flags % 2 = 1 then s1.bump WD_GAP_PKTS else s1

/-- A packet may leave: no open integration of its beam began before it (R227). -/
def BeamSt.inOrder (x : BeamSt) (p : BeamPkt) : Bool :=
  match x.tpStart with
  | some t => decide (p.atc ≤ t)
  | none => true

/-- Completed packets of a beam that go before array time `t`, in ATC order and then in channel order (R227). -/
def BeamSt.before (x : BeamSt) (t : Nat) : List BeamPkt :=
  (x.tpDone.filter fun p => decide (p.atc < t)).foldl
    (fun l p => (l.takeWhile fun q => decide (q.atc ≤ p.atc)) ++ p :: l.dropWhile fun q => decide (q.atc ≤ p.atc))
    (x.ready.filter fun p => decide (p.atc < t) && x.inOrder p)

/-- Send the completed packets of a beam that go before array time `t`, in order. -/
def State.beamUpTo (s : State) (b t : Nat) : State :=
  let x := s.beam b
  (x.before t).foldl (fun s p => s.beamSend b p) (s.setBeam b { x with
    ready := x.ready.filter fun p => !(decide (p.atc < t) && x.inOrder p), tpDone := x.tpDone.filter fun p => !decide (p.atc < t) })

/-- Send every completed packet of a beam that may leave, oldest first. -/
def State.beamFlush (s : State) (b : Nat) : State :=
  let x := s.beam b
  s.beamUpTo b (((x.ready ++ x.tpDone).map fun p => p.atc + 1).foldl max 0)

/-- BEAM_PACKET_EMIT: the oldest completed voltage or gap packet of the beam, and the packets that go before it (R227). -/
def execBeamPacketEmit (b : Nat) (s : State) : Host.Outcome State Fault Refusal :=
  whenOn s fun s =>
    match (s.beam b).ready with
    | [] => s
    | p :: _ =>
      let s1 := s.beamUpTo b p.atc
      match (s1.beam b).ready with
      | q :: qs => if (s1.beam b).inOrder q then (s1.setBeam b { s1.beam b with ready := qs }).beamSend b q else s1
      | [] => s1

/-- TOTAL_POWER_CLOSE: the packet of a closed integration is sent, and the packets that go before it (R222, R227). -/
def execTotalPowerClose (b : Nat) (s : State) : Host.Outcome State Fault Refusal :=
  whenOn s fun s =>
    match (s.beam b).tpDone with
    | [] => s
    | p :: _ =>
      let s1 := s.beamUpTo b p.atc
      match (s1.beam b).tpDone with
      | q :: qs => (s1.setBeam b { s1.beam b with tpDone := qs }).beamSend b q
      | [] => s1

/-! ### Forming spectra (R206, R222, R228 to R232) -/

/-- The open packets of every beam of a configuration close (R232). -/
def State.closeBeams (s : State) (c : WdCfg) (at_ : Nat) (cut : Bool) : State :=
  c.beams.foldl (fun s b => (s.closeVoltage c b.1 b.2).closePower c b.1 b.2 at_ cut) s

/-- Beams that a configuration enables and the one before it did not start afresh (R222, R232). -/
def State.wdFresh (s : State) (old new : WdCfg) : State :=
  (List.range 64).foldl (fun s b =>
    if new.beams.any (fun q => q.1 == b) && !old.beams.any (fun q => q.1 == b) then
      s.setBeam b { beamReset with ready := (s.beam b).ready, tpDone := (s.beam b).tpDone }
    else s) s

/-- Woad's spectra reach the boundaries up to one at which the configuration changed (R232). -/
def State.wdReachCfg (s : State) (st : Nat) : State :=
  (s.wd.olds.filter fun o => decide (o.1 ≤ st)).foldl (fun s o =>
    let s1 := s.closeBeams o.2 o.1 true
    let s2 := { s1 with wd := { s1.wd with olds := s1.wd.olds.drop 1 } }
    s2.wdFresh o.2 (s2.wdCfg o.1)) s

/-- No pass of Woad is in progress: it sheds nothing (R229, R233). -/
def State.shedOver (s : State) : State := { s.setF WD_STAT WD_STAT_SHED 0 with wd := { s.wd with shedB := 0 } }

/-- Swaps that a spectrum is the first to follow. -/
def State.swapHere (s : State) (st : Nat) : Bool := s.wd.swaps.any fun b => decide (b.1 ≤ st)

/-- Woad's spectra have reached the swaps up to one. -/
def State.wdReachSwap (s : State) (st : Nat) : State := { s with wd := { s.wd with swaps := s.wd.swaps.filter fun b => decide (st < b.1) } }

/-- Sum a spectrum into a beam's open integration: bin sums, spectra, zeroed paths and flags (R222). -/
def powerSum (ws : List Word) (sp : BeamSpec) (formed : Bool) (x : BeamSt) : BeamSt :=
  let n := bmPbin ws
  let age := fAge * b2n sp.age
  let fl := fun i => Nat.lor ((sp.info + 32 * b2n (sp.zero.getD i (0, false)).2) * 2 ^ 25) age
  let x1 := { x with tpFlags := (List.range sp.zero.length).foldl (fun t i => tblUpd 0 t i (Nat.lor (fl i))) x.tpFlags }
  if formed then
    { x1 with
      tp := (sp.y.zipIdx).foldl (fun t y => tblUpd 0 t (y.2 / n) (· + (y.1.1 * y.1.1 + y.1.2 * y.1.2).toNat)) x1.tp
      tpN := x1.tpN + 1
      tpZero := (List.range sp.zero.length).foldl (fun t i => if (sp.zero.getD i (0, false)).1 = 0 then t else tblUpd 0 t i (· + 1)) x1.tpZero }
  else x1

/-- A beam takes one spectrum: formed, dropped, or left out because it is shed. -/
def State.beamTake (s : State) (c : WdCfg) (x : StSpec) (dropped shed swap : Bool) (b : Nat × List Word) : State :=
  let ws := b.2
  if bmFmt ws < 2 then
    if shed then s
    else
      let sp := s.beamSpec c b.1 ws x dropped swap
      let y := s.beam b.1
      let s1 := s.setBeam b.1 { y with opened := y.opened ++ [sp] }
      let s2 := if sp.age then s1.seen WD_STAT WD_STAT_POLY_AGE_SEEN evWoad else s1
      if bmSpk ws ≤ y.opened.length + 1 then s2.closeVoltage c b.1 ws else s2
  else
    let len := bmNint ws * 8192
    let y := s.beam b.1
    let y1 := if y.tpStart.isSome then y else { y with tpStart := some x.st, tpSeg := s.segOf x.st % 256, tpPartial := y.tpPartial || x.st % len != 0 }
    let sp := s.beamSpec c b.1 ws x dropped swap
    let s1 := s.setBeam b.1 (if shed then y1 else powerSum ws sp (!dropped) y1)
    let s2 := if sp.age && !shed then s1.seen WD_STAT WD_STAT_POLY_AGE_SEEN evWoad else s1
    if (x.st + 8192) % len = 0 then s2.closePower c b.1 ws (x.st + 8192) false else s2

/-- PRIO of a beam. -/
def bmPrio (ws : List Word) : Nat := bmF ws 0 WD_BM_CTL_PRIO

/-- Woad takes one spectrum in every enabled beam, but for those whose bit is set in `shed` (R228). -/
def State.wdSpectrum (s : State) (x : StSpec) (dropped : Bool) (shed : Nat) : State :=
  if x.st < s.wd.next then s
  else
    let s1 := s.wdReachCfg x.st
    let c := s1.wdCfg x.st
    let swap := s1.swapHere x.st
    let s2 := c.beams.foldl (fun s b => s.beamTake c x dropped (bit shed b.1) swap b) s1
    let s3 := { s2.wdReachSwap x.st with wd := { (s2.wdReachSwap x.st).wd with next := x.st + 8192 } }
    if dropped && !c.beams.isEmpty then (s3.bump WD_DROP_SPEC).seen WD_STAT WD_STAT_DROP_SEEN evWoad else s3

/-- Spectra that staging discarded before an array time are sent DROPPED (R228). -/
def State.wdDropped (s : State) (a : Nat) : State :=
  (List.range ((a - s.wd.next) / 8192)).foldl (fun t i =>
    let st := s.wd.next + 8192 * i
    if s.ix.drops.contains st then t.wdSpectrum (specNone st) true 0 else t) s

/-- The configuration that Woad's spectra before `st` were formed under. -/
def State.wdLast (s : State) (st : Nat) : WdCfg :=
  match s.wd.olds.head? with
  | some o => if o.1 ≤ st then o.2 else s.wdCfg st
  | none => s.wdCfg st

/-- A beam is left out of a pass: it closes what it has open and sends one gap packet for the `n` spectra from `a` on (R229). -/
def State.shedBeam (s : State) (c : WdCfg) (a n : Nat) (b : Nat × List Word) : State :=
  let s1 := s.closeVoltage c b.1 b.2
  let x := s1.beam b.1
  let s2 := (s1.setBeam b.1 { x with ready := x.ready ++ [gapPacket (s1.stCfg a) c b.2 a n (s1.segOf a % 256) fShed] }).beamFlush b.1
  { s2 with wd := { s2.wd with shedB := setBit s2.wd.shedB b.1 } }

/-- A pass over a half reaches a spectrum: a beam that a configuration enables there at a priority that the pass sheds is left out of the rest of it (R229, R232). -/
def State.shedNew (s : State) (h : Half) (st : Nat) : State :=
  let old := s.wdLast st
  let s1 := s.wdReachCfg st
  let c := s1.wdCfg st
  let n := (h.base.getD 0 + 8192 * h.specs.length - st) / 8192
  (c.beams.filter fun b => !(old.beams.any fun q => q.1 == b.1) && bit h.shedW (bmPrio b.2)).foldl (fun s b => s.shedBeam c st n b)
    { s1 with wd := { s1.wd with shedB := ((List.range 64).filter fun b => bit s1.wd.shedB b && (old.beams.any fun q => q.1 == b) && c.beams.any fun q => q.1 == b).map (2 ^ ·) |>.sum } }

/-- A spectrum of a half, in a pass of Woad. -/
def State.wdInPass (s : State) (h : Half) (x : StSpec) (dropped : Bool) : State :=
  let s1 := if s.wd.next ≤ x.st then s.shedNew h x.st else s
  s1.wdSpectrum x dropped s1.wd.shedB

/-- Woad reads a half: its first `n` spectra are formed and the others are abandoned (R228, R230). -/
def State.wdForm (s : State) (h : Half) (n : Nat) : State :=
  let s1 := s.wdDropped (h.base.getD s.wd.next)
  let s2 := (h.specs.take n).foldl (fun s x => s.wdInPass h x false) s1
  (h.specs.drop n).foldl (fun s x => s.wdInPass h x true) s2

/-! ### Passes (R229, R230) -/

/-- B_p of R208. -/
def prioBeams (c : WdCfg) (p : Nat) : Nat := (c.beams.filter fun b => decide (p ≤ bmPrio b.2)).length

/-- U_p ≤ aW over `n` paths for a thermal step k (R208, R229). -/
def State.wdFits (s : State) (c : WdCfg) (n k p : Nat) : Bool :=
  decide (prioBeams c p * n * c.count * s.time.rateN * 8 ≤ (8 - k) * (16384 * 200 * 8192))

/-- Priorities that Woad sheds in a pass (R229). -/
def State.wdShed (s : State) (c : WdCfg) (n : Nat) : Nat :=
  let p := ((List.range 3).find? (s.wdFits c n (s.rf PW_THROT PW_THROT_K_W))).getD 3
  (((List.range p).filter fun q => c.beams.any fun b => bmPrio b.2 == q).map (2 ^ ·)).sum

/-- The boundary from which a beam of the configuration at `t` has been enabled since array time `g` (R231). -/
def State.wdSince (s : State) (b g t : Nat) : Nat :=
  (s.wd.olds.filter fun o => decide (o.1 ≤ t) && !o.2.beams.any fun q => q.1 == b).foldl (fun a o => max a o.1) g

/-- Formation resumes after an outage: each enabled beam closes what it has open and sends one gap packet for the spectra not formed since it was enabled (R231). -/
def State.wdResume (s : State) : State :=
  match s.wd.gap with
  | none => s
  | some g =>
    if !s.woadOn then s
    else
      let t := match s.ix.half0.base, s.ix.half1.base with
        | some a, some b => min a b
        | some a, none => a
        | none, some b => b
        | none, none => s.ix.nextBase
      let s1 := (s.closeBeams (s.wdCfg g) g true).wdReachCfg t
      let c := s1.wdCfg t
      let s2 := c.beams.foldl (fun u b =>
        let a := s.wdSince b.1 g t
        let x := u.beam b.1
        (u.setBeam b.1 { x with ready := x.ready ++ [gapPacket (u.stCfg a) c b.2 a ((t - a) / 8192) (u.segOf a % 256) 0] }).beamFlush b.1) s1
      { s2 with wd := { s2.wd with gap := none, next := t } }

/-- WOAD_PASS_START: each shed beam closes what it has open and sends one gap packet for the pass (R229). -/
def execWoadPassStart (s : State) : Host.Outcome State Fault Refusal :=
  whenOn s fun s =>
    let s := s.wdResume
    if !s.wdRuns || !s.woadOn || s.ix.half0.woad == .busy || s.ix.half1.woad == .busy then s
    else
      match s.oldestHalf fun h => h.full && h.woad == .waiting with
      | none => s
      | some hb =>
        let h := s.half hb
        let a := h.base.getD 0
        let s1 := (s.wdDropped a).wdReachCfg a
        let c := s1.wdCfg a
        let m := s1.wdShed c (modePaths h.mode)
        let s2 := (s1.shedOver.setHalf hb { h with woad := .busy, shedW := m }).setF WD_STAT WD_STAT_SHED m
        if m = 0 then s2
        else
          let s3 := (c.beams.filter fun b => bit m (bmPrio b.2)).foldl (fun s b => s.shedBeam c a h.specs.length b) s2
          (s3.bump WD_SHED_PASSES).seen WD_STAT WD_STAT_SHED_SEEN evWoad

/-- The end of Woad's reads of a half, of which it has formed `n` spectra. -/
def State.wdPassOver (s : State) (hb : Bool) (n : Nat) : State :=
  let s1 := (s.wdForm (s.half hb) n).shedOver
  (s1.setHalf hb { s1.half hb with woad := .over }).releaseHalf hb

/-- WOAD_PASS_END (R177). -/
def execWoadPassEnd (s : State) : Host.Outcome State Fault Refusal :=
  whenOn s fun s =>
    match s.oldestHalf fun h => h.woad == .busy with
    | none => s
    | some hb => if s.woadOn then s.wdPassOver hb (s.half hb).specs.length else s

/-- PASS_DEADLINE of a half, two spectrum periods after the other is complete: Woad abandons what it has not formed (R177, R230). -/
def execPassDeadline (h : Bool) (s : State) : Host.Outcome State Fault Refusal :=
  whenOn s fun s =>
    let s := s.wdResume
    let x := s.half h
    if s.wdRuns && x.full && x.woad != .over && (s.half (!h)).full && decide (x.base.getD 0 < (s.half (!h)).base.getD 0) then
      let n := if x.woad = .waiting then 0 else min x.specs.length (Config.formedBy s.free)
      s.draw.wdPassOver h n
    else s

/-- WOAD_RESUME_GAP: formation resumes at the oldest half, or the next to be opened (R231). -/
def execWoadResumeGap (s : State) : Host.Outcome State Fault Refusal := whenOn s State.wdResume

/-! ### Tables (R213, R214, R234) -/

/-- A load or fetch to the standby table is refused (R213). -/
def State.polyBusy (s : State) : Bool :=
  s.flag WD_TABLE WD_TABLE_SWAP_QUEUED || s.flag WD_TABLE WD_TABLE_COPYING || s.flag WD_TABLE WD_TABLE_LOADING

/-- The standby table. -/
def State.polyStandby (s : State) : Nat := 1 - s.rf WD_TABLE WD_TABLE_ACTIVE

/-- Write slots of a table. -/
def State.polySet (s : State) (t first : Nat) (xs : List PolySlot) : State :=
  { s with wd := { s.wd with tab := tblSetRun polyZero s.wd.tab (t * polySlots + first) xs } }

/-- POLY_TABLE_COPY_DONE: the standby table equals the active one (R213). -/
def execPolyTableCopyDone (s : State) : Host.Outcome State Fault Refusal :=
  whenOn s fun s =>
    if s.flag WD_TABLE WD_TABLE_COPYING then
      let a := s.rf WD_TABLE WD_TABLE_ACTIVE
      (s.polySet s.polyStandby 0 (tblRun polyZero s.wd.tab (a * polySlots) polySlots)).setF WD_TABLE WD_TABLE_COPYING 0
    else s

/-- WD_POLY_LOAD (R234). -/
def execWdPolyLoad (c : Cmd) (s : State) : Host.Outcome State Fault Refusal :=
  .next (s.command 0x0501 c
    (fun _ => (needLen 4 c).or ((badIf (c.q 0 % 32 != 0) 0).or
      ((badIf (decide (polySlots ≤ (c.w 2).toNat)) 2).or (badIf (decide (polySlots < (c.w 2).toNat + (c.w 3).toNat)) 3))))
    fun s =>
      if s.drFailed then bad stWrongState []
      else if s.polyBusy then bad stResourceBusy []
      else .progress [] ({ s with wd := { s.wd with load := some (c.q 0, (c.w 2).toNat, (c.w 3).toNat) } }.setF WD_TABLE WD_TABLE_LOADING 1))

/-- WD_POLY_LOAD_DONE: a range past the installed DRAM reads nothing (R335). -/
def execWdPolyLoadDone (s : State) : Host.Outcome State Fault Refusal :=
  whenOn s fun s =>
    match s.wd.load, s.runningOp 0x0501 with
    | some (a, f, n), some q =>
      let s1 := { s with wd := { s.wd with load := none } }.setF WD_TABLE WD_TABLE_LOADING 0
      if s.drIn a (32 * n) then
        ((s1.drUes a (32 * n)).polySet s.polyStandby f ((List.range n).map fun i => polyOf (s.memRead (a + 32 * i) 32))).final q stOk []
      else (s1.drBad 0 a).final q stInternal []
    | _, _ => s

/-- Slots of a stored set (R214). -/
def State.polyStored (s : State) (set : Nat) : List PolySlot := tblRun polyZero s.wd.sets (set * polySlots) polySlots

/-- WD_POLY_FETCH (R234). -/
def execWdPolyFetch (c : Cmd) (s : State) : Host.Outcome State Fault Refusal :=
  .next (s.command 0x0506 c (fun _ => (needLen 1 c).or (badIf (decide (5 < c.f 0 2 0)) 0)) fun s =>
    if s.polyBusy then bad stResourceBusy []
    else .progress [] ({ s with wd := { s.wd with fetch := some (c.f 0 2 0) } }.setF WD_TABLE WD_TABLE_LOADING 1))

/-- WD_POLY_FETCH_DONE (R234). -/
def execWdPolyFetchDone (s : State) : Host.Outcome State Fault Refusal :=
  whenOn s fun s =>
    match s.wd.fetch, s.runningOp 0x0506 with
    | some set, some q =>
      ({ s.polySet s.polyStandby 0 (s.polyStored set) with wd := { (s.polySet s.polyStandby 0 (s.polyStored set)).wd with fetch := none } }.setF
        WD_TABLE WD_TABLE_LOADING 0).final q stOk []
    | _, _ => s

/-- WD_POLY_STORE (R234). -/
def execWdPolyStore (c : Cmd) (s : State) : Host.Outcome State Fault Refusal :=
  .next (s.command 0x0507 c (fun _ => (needLen 1 c).or (badIf (decide (5 < c.f 0 2 0)) 0)) fun s =>
    if s.wd.store.isSome then bad stResourceBusy [] else .progress [] { s with wd := { s.wd with store := some (c.f 0 2 0) } })

/-- WD_POLY_STORE_DONE (R234). -/
def execWdPolyStoreDone (s : State) : Host.Outcome State Fault Refusal :=
  whenOn s fun s =>
    match s.wd.store, s.runningOp 0x0507 with
    | some set, some q =>
      let a := s.rf WD_TABLE WD_TABLE_ACTIVE
      { s with wd := { s.wd with
          sets := tblSetRun polyZero s.wd.sets (set * polySlots) (tblRun polyZero s.wd.tab (a * polySlots) polySlots), store := none } }.final q stOk []
    | _, _ => s

/-- A polynomial swap fires at boundary b (R213). With no beam enabled it is kept for the beams that the same boundary may enable (R58, R226). -/
def State.applyPolySwap (s : State) (b : Nat) : State :=
  let a := s.rf WD_TABLE WD_TABLE_ACTIVE
  let s1 := ((s.setF WD_TABLE WD_TABLE_ACTIVE (1 - a)).setF WD_TABLE WD_TABLE_SEG (s.rf WD_TABLE WD_TABLE_SEG + 1)).setF WD_TABLE WD_TABLE_SWAP_QUEUED 0
  let s2 := s1.setF WD_TABLE WD_TABLE_COPYING 1
  { s2 with wd := { s2.wd with swaps := (if s2.wdRuns then s2.wd.swaps else []) ++ [(b, s.polyTab a)] } }

/-! ### Beam configurations (R207, R209, R224, R232, R234) -/

/-- The beam descriptors in payload words from W2 of WD_BEAM_CONFIG on: the beam and its six register values. -/
def wdDescs (ws : List Word) : List (Nat × List Word) :=
  (List.range (bits (ws.getD 3 0).toNat 6 0)).map fun i => (bits (ws.getD (4 + 7 * i) 0).toNat 5 0, (ws.drop (5 + 7 * i)).take 6)

/-- The configuration in payload words from W2 of WD_BEAM_CONFIG on. -/
def wdOf (ws : List Word) : WdCfg :=
  { sb := bit (ws.getD 3 0).toNat 31, first := bits (ws.getD 0 0).toNat 27 16, count := bits (ws.getD 0 0).toNat 12 0
    f0 := (ws.getD 1 0).toNat + (ws.getD 2 0).toNat * 2 ^ 32
    beams := (wdDescs ws).filter fun b => bmF b.2 0 WD_BM_CTL_EN == 1, others := (wdDescs ws).filter fun b => bmF b.2 0 WD_BM_CTL_EN == 0 }

/-- Words of a configuration's payload from W2 on. -/
def wdLen (ws : List Word) : Nat := 4 + 7 * bits (ws.getD 3 0).toNat 6 0

/-- An undefined encoding, or a packet that breaks R224, in a beam. -/
def State.beamBad (s : State) (c : WdCfg) (b : Nat × List Word) : Bool :=
  bmFmt b.2 == 3 || decide (5 < bmF b.2 1 WD_BM_PKT_CPK) || decide (8 < bmF b.2 1 WD_BM_PKT_PBIN) || c.count % bmCpk b.2 != 0 ||
    decide (s.rf (ET_P_CTL (bmPort b.2)) ET_P_CTL_MAXFRAME < bmFrame b.2)

/-- The parameter rules of a beam configuration in payload words from its first on; `base` is the number of that word (R207, R224). -/
def State.wdBad (s : State) (ws : List Word) (base : Nat) : Option Bad :=
  let c := wdOf ws
  if decide (64 < (wdDescs ws).length) then some ⟨stBadParam, base + 3, []⟩
  else if c.first % 16 != 0 || c.count % 16 != 0 || decide (c.count < 128) || decide (c.first < s.selFirst) ||
      decide (s.selFirst + s.selCount < c.first + c.count) then some ⟨stBadParam, base, []⟩
  else
    match (wdDescs ws).zipIdx.find? fun b => s.beamBad c b.1 with
    | some b => some ⟨stBadParam, base + 4 + 7 * b.2, [0, w32 b.1.1]⟩
    | none => none

/-- Channels of a beam range that lie on a die (R208). -/
def State.wdOnDie (s : State) (c : WdCfg) (d : Nat) : Nat :=
  ((List.range c.count).filter fun i => dieOf s.selFirst s.selCount (c.first + i) == d).length

/-- The budgets of R209 on a configuration: code and what it names. -/
def State.wdBudget (s : State) (c : WdCfg) : Option (Nat × Nat) :=
  if c.beams.isEmpty then none
  else
    match (List.range 2).find? fun d => decide (54400 * 8192 < modePaths s.mode * s.wdOnDie c d * s.time.rateN) with
    | some d => some (0x05, d)
    | none => if !s.wdFits c (modePaths s.mode) 0 0 then some (0x11, 0) else (s.egressOver c).map fun n => (0x12, n)

/-- WD_UTIL for a configuration (R208, R233). -/
def State.wdUtil (s : State) (c : WdCfg) : Word :=
  let u := fun p => min 255 (cdiv (200 * prioBeams c p * modePaths s.mode * c.count * s.time.rateN) (16384 * 200 * 8192))
  w32 (u 3 * 2 ^ 24 + u 2 * 2 ^ 16 + u 1 * 2 ^ 8 + u 0)

/-- The utilisation registers follow a change of the sample rate or of the operating mode (R180, R204, R233). -/
def State.utilFollow (s : State) : State :=
  let ix := fun (s : State) (d : Nat) =>
    s.setReg (IX_UTIL d) (utilWord s.time.rateN (modePaths s.mode) (selection s.ix.regions).1 (selection s.ix.regions).2 d s.ix.regions)
  let s1 := s.setReg WD_UTIL (s.wdUtil s.wdRegs)
  if s1.integrating then ix (ix s1 0) 1 else s1

/-- Write a configuration into the registers; a beam not described is disabled (R233, R234). -/
def State.wdWrite (s : State) (c : WdCfg) : State :=
  let s1 := ((s.setF WD_CTL WD_CTL_RUN (b2n (!c.beams.isEmpty))).setF WD_CTL WD_CTL_SB (b2n c.sb)).setReg WD_CH (w32 (c.first * 65536 + c.count))
  let s2 := ((s1.setReg64 WD_FREQ_LO c.f0).setReg WD_UTIL (s.wdUtil c))
  (List.range 64).foldl (fun s b =>
    match (c.beams ++ c.others).find? fun q => q.1 == b with
    | some q => ((((((s.setReg (WD_BM_CTL b) (q.2.getD 0 0 &&& 0xFFE00000)).setReg (WD_BM_PKT b) (q.2.getD 1 0 &&& 0xFE3FFFFF)).setReg
        (WD_BM_DMAC_LO b) (q.2.getD 2 0)).setReg (WD_BM_DMAC_HI b) (q.2.getD 3 0 &&& 0xFFFF)).setReg (WD_BM_DIP b) (q.2.getD 4 0)).setReg
        (WD_BM_UDP b) (q.2.getD 5 0))
    | none => s.setF (WD_BM_CTL b) WD_BM_CTL_EN 0) s2

/-- A beam configuration fires at boundary b (R232). -/
def State.applyBeams (s : State) (b : Nat) (c : WdCfg) : State :=
  if s.wdRuns then ({ s with wd := { s.wd with olds := s.wd.olds ++ [(b, s.wdRegs)] } } : State).wdWrite c
  else
    let s1 := ({ s with wd := { s.wd with next := b, swaps := s.wd.swaps.filter fun q => decide (b ≤ q.1), gap := if s.woadOn then none else some b } } : State).wdFresh { c with beams := [] } c
    s1.wdWrite c

/-- The budgets on a product set: the correlator's, and Woad's under its selection (R187, R209). -/
def State.setOver (s : State) (d : SetDesc) : Option (Nat × Nat) :=
  let t := s.setConfig 0 d
  (s.setBudget d).or (t.wdBudget t.wdRegs)

/-- IX_BUDGET_CHECK: what IX_PRODUCT_SET would reply, changing nothing. -/
def execIxBudgetCheck (c : Cmd) (s : State) : Host.Outcome State Fault Refusal :=
  .next (s.command 0x0402 c
    (fun s => (needLen (setLen c.payload) c).or (s.setBad (setDesc c.payload) fun r => 2 + 4 * r))
    fun s =>
      match s.setOver (setDesc c.payload) with
      | some q => bad stBudget [w32 q.1, w32 q.2]
      | none => .ok (s.setReply (setDesc c.payload)) s)

/-! ### Commands (R234) -/

/-- WD_BUDGET_CHECK: what WD_BEAM_CONFIG would reply, changing nothing. -/
def execWdBudgetCheck (c : Cmd) (s : State) : Host.Outcome State Fault Refusal :=
  .next (s.command 0x0504 c
    (fun s => (needLen (wdLen c.payload) c).or (s.wdBad c.payload 0))
    fun s =>
      match s.wdBudget (wdOf c.payload) with
      | some q => bad stBudget [w32 q.1, w32 q.2]
      | none => .ok [s.wdUtil (wdOf c.payload)] s)

/-- The counters of the WD block (R233). -/
def wdCounters : List Nat := [WD_DROP_SPEC, WD_SHED_PASSES, WD_CLIPS, WD_GAP_PKTS]

/-- WD_STATUS. -/
def execWdStatus (c : Cmd) (s : State) : Host.Outcome State Fault Refusal :=
  .next (s.command 0x0505 c (fun _ => needLen 0 c) fun s =>
    .ok (([WD_STAT, WD_TABLE, WD_UTIL] ++ wdCounters ++ (List.range 64).map WD_BM_SEQ).map s.reg) s)

/-- WD_CNT_CLR.ALL (R233). -/
def execWdCntClrAll (s : State) : Host.Outcome State Fault Refusal := whenOn s fun s => s.clearCounters wdCounters

end Sys2Proof.Machine
end

