-- ==== Sys2Proof/Machine/CornerTurn.lean ====
section
/-! DEFINITION. The corner turn: blocks sent and received, NAK and GONE, grace periods, and its configuration (R283 to R295). -/

namespace Sys2Proof.Machine

/-! ### Sending (R283 to R288) -/

/-- Key of a stream of the mode in force: the other member and the sending port. -/
def State.ctKey (s : State) (m p : Nat) : Nat := 32 * s.mode + 4 * m + p

/-- First boundary of the scale epoch of a spectrum of a path block, divided by 8,192 (R284). -/
def State.ctScale (s : State) (b st : Nat) : Nat :=
  (((s.ch.bounds.map (·.1)).find? fun e => decide (e ≤ st)).getD (tblGet 0 s.ch.epoch (2 * b) - 1)) / 8192 % 2 ^ 32

/-- A block header (R284). -/
def State.ctHeader (s : State) (port path seq atc chan range scale : Nat) (records : Bool) : List Byte :=
  be 2 0x4354 ++ be 1 1 ++ be 1 (2 * b2n records) ++ be 1 (s.mode * 64 + port * 16 + s.member) ++ be 1 s.roleByte ++ be 2 path ++ be 4 seq ++
    be 8 atc ++ be 2 chan ++ be 1 range ++ be 1 0 ++ be 4 s.epochField ++ be 4 scale

/-- Header, payload and CRC-32C of a block (R283). -/
def ctSeal (head payload : List Byte) : List Byte :=
  let b := head ++ payload ++ List.replicate (8192 - payload.length) 0
  b ++ be 4 (crc32c b)

/-- The frame of a block to a member on a port: untagged (R274, R286). -/
def State.ctFrame (s : State) (m port cls : Nat) (body : List Byte) : TxFrame :=
  { cls := cls, c0Message := false, bytes := be 6 (s.ctGroup m) ++ be 6 (s.mac (ET_P_MAC_LO port)) ++ be 2 0x88B5 ++ body }

/-- Queue a first send: it goes into the resend SRAM, and to its port unless the partition is full (R277, R287, R288). -/
def State.ctSend (s : State) (m port : Nat) (body : List Byte) : State :=
  let q := tblGet 0 s.ct.txSeq (s.ctKey m port)
  let s1 := { s with ct := { s.ct with
    txSeq := tblSet 0 s.ct.txSeq (s.ctKey m port) ((q + 1) % 2 ^ 32)
    sram := (({ member := m, port := port, seq := q, bytes := body } : CtBlock) :: s.ct.sram).take 2032 } }
  let f := s.ctFrame m port 1 body
  if s1.txFull port f then (s1.bump ET_CT_UNSENT).seen ET_CT_STAT ET_CT_STAT_UNSENT_SEEN evEthernet
  else (s1.txQueue port f).bump64 ET_CT_TX_BLOCKS_LO 1

/-- The oldest spectrum that still has a path block to send. -/
def State.ctSpec (s : State) (b : Nat) : Option Nat :=
  (s.ct.src.find? fun f => f.path / 16 == b && (List.range 16).all fun i => s.ct.src.any fun g => g.path == 16 * b + i && g.st == f.st).map (·.st)

/-- Runs of 512 channels that members other than this one own (R31, R283). -/
def State.ctRunsOut (s : State) : List Nat := (List.range 8).filter fun r => r * 512 / modeChans s.mode != s.member

/-- A data block leaves: 16 paths × 512 channels of one spectrum (R283). -/
def State.ctData (s : State) (m b r : Nat) : State :=
  match s.ctSpec b, ctPort (s.rf ET_CT_CTL ET_CT_CTL_PORTS) b with
  | some st, some port =>
    if r * 512 / modeChans s.mode ≠ m ∨ m = s.member ∨ 8 ≤ r ∨ s.ct.queued.contains (st, b, r) then s
    else
      let payload := (List.range 16).flatMap fun i =>
        match s.ct.src.find? fun f => f.path == 16 * b + i && f.st == st with
        | some f => Sys2Proof.Machine.slice f.data (512 * r) 512
        | none => []
      let q := tblGet 0 s.ct.txSeq (s.ctKey m port)
      let s1 := s.ctSend m port (ctSeal (s.ctHeader port (s.arrayPath (16 * b)) q st (512 * r) 0x49 (s.ctScale b st) false) payload)
      let queued := (st, b, r) :: s1.ct.queued
      if s.ctRunsOut.all fun k => queued.contains (st, b, k) then
        { s1 with ct := { s1.ct with
          sentTo := tblUpd 0 s1.ct.sentTo b (max · (st + 1))
          src := s1.ct.src.filter fun f => !(f.path / 16 == b && f.st == st)
          queued := s1.ct.queued.filter fun x => !(x.1 == st && x.2.1 == b) } }
      else { s1 with ct := { s1.ct with queued := queued } }
  | _, _ => s

/-- Members of the array other than this one. -/
def State.ctOthers (s : State) : List Nat := (List.range (2 ^ s.mode)).filter (· != s.member)

/-- Every data block of the spectrum that a record goes with has been queued. -/
def State.ctReady (s : State) (r : CtRec) : Bool := r.old || (List.range 32).all fun b => decide (r.what.st < tblGet 0 s.ct.sentTo b)

/-- Scale records that a member has not had and whose spectra's data blocks have all been queued, oldest first, of one configuration and at most 6 (R57, R285). -/
def State.ctRecsFor (s : State) (m : Nat) : List ScaleRec :=
  let l := (s.ct.recs.filter fun r => !r.had.contains m && s.ctReady r).map (·.what)
  (l.takeWhile fun r => s.ctAt r.st == s.ctAt ((l.map (·.st)).headD 0)).take 6

/-- A RECORDS block leaves (R285). -/
def State.ctRecords (s : State) (m : Nat) : State :=
  match s.ctRecsFor m with
  | [] => s
  | r :: rs =>
    match ctPort (s.rf ET_CT_CTL ET_CT_CTL_PORTS) (r.path / 16) with
    | none => s
    | some port =>
      if !s.ctOthers.contains m then s
      else
        let q := tblGet 0 s.ct.txSeq (s.ctKey m port)
        let head := s.ctHeader port (s.arrayPath (r.path / 16 * 16)) q r.st 0 (r :: rs).length (r.epoch / 8192 % 2 ^ 32) true
        let s1 := s.ctSend m port (ctSeal head ((r :: rs).flatMap (·.bytes)))
        let recs := s1.ct.recs.map fun (x : CtRec) => if (r :: rs).contains x.what then { x with had := m :: x.had } else x
        { s1 with ct := { s1.ct with recs := recs.filter fun x => !s.ctOthers.all fun k => x.had.contains k } }

/-- The spectrum whose block, or record, goes next. -/
def State.ctNext (s : State) (m b : Nat) (rec : Bool) : Option Nat := if rec then (s.ctRecsFor m).head?.map (·.st) else s.ctSpec b

/-- CT_BLOCK_QUEUE, under the configuration of the spectrum: a unit without outputs sends no block (R57, R285 to R288, R431). -/
def execCtBlockQueue (m b r : Nat) (rec : Bool) (s : State) : Host.Outcome State Fault Refusal :=
  whenOn s fun s =>
    match s.ctNext m b rec with
    | none => s
    | some st =>
      if !s.outputsAt st then s
      else s.ctUnder (s.ctAt st) fun t => if !t.ctRuns then t else if rec then t.ctRecords m else t.ctData m b r

/-! ### Receiving (R289, R290) -/

/-- A stream of which nothing has arrived (R287). -/
def ctStream0 : CtStream := { e := 0, missing := [], naked := false, any := false, last := 0 }

/-- A received stream. -/
def State.ctRx (s : State) (k : Nat) : CtStream := tblGet ctStream0 s.ct.rx k

/-- Every stream, of every mode. -/
def ctKeys : List Nat := List.range 128

/-- The streams of a member, of every mode. -/
def ctKeysOf (m : Nat) : List Nat := ctKeys.filter fun k => k / 4 % 8 == m

/-- MISSING follows the streams (R298). -/
def State.ctSync (s : State) : State :=
  let n := min 65535 ((ctKeys.map fun k => (s.ctRx k).missing.length).sum)
  (s.setF ET_CT_STAT ET_CT_STAT_MISSING n).setReg ET_CT_MISSING_MAX (w32 (max (s.reg ET_CT_MISSING_MAX).toNat n))

/-- A stream without some of its missing SEQs: once none is left, its next gap asks anew (R291). -/
def CtStream.found (x : CtStream) (f : CtMissing → Bool) : CtStream :=
  let l := x.missing.filter (!f ·)
  { x with missing := l, naked := x.naked && !l.isEmpty }

/-- Replace a stream. -/
def State.setCtRx (s : State) (k : Nat) (x : CtStream) : State := { s with ct := { s.ct with rx := tblSet ctStream0 s.ct.rx k x } }.ctSync

/-- Consecutive SEQs as ranges: first and count, at most 2,032 each (R292). -/
def ctRanges : List Nat → List (Nat × Nat)
  | [] => []
  | q :: qs =>
    match ctRanges qs with
    | (a, n) :: rs => if a = (q + 1) % 2 ^ 32 ∧ n < 2032 then (q, n + 1) :: rs else (q, 1) :: (a, n) :: rs
    | [] => [(q, 1)]

/-- A NAK or GONE frame (R292). -/
def State.ctNakFrame (s : State) (port dst kind stream epoch : Nat) (rs : List (Nat × Nat)) : TxFrame :=
  { cls := 1, c0Message := false
    bytes := be 6 dst ++ be 6 (s.mac (ET_P_MAC_LO port)) ++ be 2 0x88B6 ++ be 2 0x434E ++ be 1 1 ++ be 1 kind ++ be 1 (s.mode * 64 + s.member) ++
      be 1 stream ++ be 1 rs.length ++ be 1 0 ++ be 4 epoch ++ rs.flatMap fun r => be 4 r.1 ++ be 2 r.2 ++ be 2 0 }

/-- Send a NAK for a stream's missing SEQs, to the source of its blocks (R291). -/
def State.ctNak (s : State) (k : Nat) : State :=
  let x := s.ctRx k
  if x.missing.isEmpty then s
  else
    let mac := tblGet 0 s.ct.macs k
    let s1 := s.setCtRx k { x with naked := true }
    (s1.txNak (mac / 2 ^ 48) (s.ctNakFrame (mac / 2 ^ 48) (mac % 2 ^ 48) 1 (k % 4 * 16 + k / 4 % 8) (tblGet 0 s.ct.epochs (k / 4) - 1)
      ((ctRanges (x.missing.map (·.seq))).take 32))).bump ET_CT_NAK_TX

/-- A spectrum of an open half is as a test asks, or its half has been released. -/
def State.ctSpecIs (s : State) (st : Nat) (f : StSpec → Bool) : Bool :=
  match s.halfOf st with
  | some h => (s.half h).specs.any fun x => x.st == st && f x
  | none => decide (st < s.ix.nextBase)

/-- A block of the spectrum has been declared lost, or its half released (R290). -/
def State.ctPast (s : State) (st : Nat) : Bool := s.ctSpecIs st (·.short)

/-- The spectrum's GRACE has ended, or its half has been released (R294). -/
def State.ctOver (s : State) (st : Nat) : Bool := s.ctSpecIs st (·.graced)

/-- Take a sequence: the stream after it, whether the block is accepted, and whether it is a resync, late or a duplicate (R290). -/
inductive CtVerdict where
  | accept (x : CtStream)
  | resync (x : CtStream)
  | late
  | dup
  deriving DecidableEq, Repr

/-- A stream whose next SEQ is `q + 1`, after a block of a spectrum, with the `n` SEQs from its old `e` on missing; what is missing belongs to no later spectrum. -/
def CtStream.goOn (x : CtStream) (q st n : Nat) : CtStream :=
  { x with
    e := (q + 1) % 2 ^ 32, any := false, last := st
    missing := (x.missing ++ (List.range n).map fun i => ({ seq := (x.e + i) % 2 ^ 32, lo := min x.last st, hi := st } : CtMissing)).map fun m =>
      { m with hi := max m.lo (min m.hi st) } }

/-- The rule of R290 for SEQ `q` of a spectrum; `past` where a block of it has been declared lost or its half released. -/
def ctTake (x : CtStream) (q st : Nat) (past : Bool) : CtVerdict :=
  let d := (q + 2 ^ 32 - x.e) % 2 ^ 32
  if x.any then .accept { x with e := (q + 1) % 2 ^ 32, any := false, last := st }
  else if d ≤ 2032 then .accept (x.goOn q st d)
  else if 2 ^ 32 - 4096 ≤ d then
    if x.missing.any fun m => m.seq == q then .accept (x.found fun m => m.seq == q) else if past then .late else .dup
  else .resync { x with e := (q + 1) % 2 ^ 32, any := false, last := st }

/-- SEQ `q` of a spectrum arrives in a block whose CRC-32C fails: it is missing, and so are those skipped before it (R289). A SEQ behind `e` stays as it was, and one that would be a resync says nothing. -/
def ctFailed (x : CtStream) (q st : Nat) : CtStream :=
  let d := (q + 2 ^ 32 - x.e) % 2 ^ 32
  let new := fun (a n : Nat) => { x with
    e := (q + 1) % 2 ^ 32, any := false
    missing := x.missing ++ (List.range n).map fun i => ({ seq := (a + i) % 2 ^ 32, lo := x.last, hi := max x.last st } : CtMissing) }
  if x.any then new q 1 else if d ≤ 2032 then new x.e (d + 1) else x

/-- Place a data block in staging (R176, R290). -/
def State.ctPlace (s : State) (path chan st scale : Nat) (payload : List Byte) : State :=
  if !s.pw.compOn then s
  else
    s.stageUpd st fun h x =>
      if x.pieces.contains (path / 16, chan / 512) then x
      else
        { x with
          pieces := (path / 16, chan / 512) :: x.pieces
          paths := (List.range 16).foldl (fun t i => tblUpd stPathNone t (path + i) fun p =>
            { p with data := placeBytes h.first h.count p.data chan (Sys2Proof.Machine.slice payload (512 * i) 512), here := true, scale := scale }) x.paths }

/-- Take the records of a RECORDS block (R200, R285). -/
def State.ctTakeRecs (s : State) (n st : Nat) (payload : List Byte) : State :=
  let rs := (List.range n).map fun i =>
    let b := Sys2Proof.Machine.slice payload (1184 * i) 1184
    ({ path := leAt b 8 2, st := st, closing := leAt b 10 1 == 1, epoch := leAt b 0 8, bytes := b } : ScaleRec)
  { s with ix := { s.ix with recs := (rs.reverse ++ s.ix.recs).take 65536 } }

/-- The checks of R289 after the CRC: MAGIC, VERSION, MODE, RANGE and the ranges of paths and channels. -/
def State.ctWellFormed (s : State) (b : List Byte) : Bool :=
  let records := bit (beAt b 3 1) 1
  let range := beAt b 22 1
  let path := beAt b 6 2
  let chan := beAt b 20 2
  beAt b 0 2 == 0x4354 && beAt b 2 1 == 1 && beAt b 4 1 / 64 == s.mode && beAt b 4 1 % 8 != s.member && decide (beAt b 4 1 % 8 < 2 ^ s.mode) &&
    path % 16 == 0 && decide (path < modePaths s.mode) &&
    (if records then decide (1 ≤ range) && decide (range ≤ 6) && chan == 0
     else range == 0x49 && chan % 512 == 0 && chan / modeChans s.mode == s.member)

/-- A member's EPOCH rises: its streams are reset (R289). -/
def State.ctEpoch (s : State) (m epoch : Nat) : State :=
  let was := tblGet 0 s.ct.epochs (8 * s.mode + m)
  let s1 := { s with ct := { s.ct with epochs := tblSet 0 s.ct.epochs (8 * s.mode + m) (max was (epoch + 1)) } }
  if was ≠ 0 ∧ was < epoch + 1 then (List.range 4).foldl (fun s p => s.setCtRx (s.ctKey m p) { ctStream0 with any := true }) s1 else s1

/-- The stream's NAK is due because e has passed the oldest missing SEQ by REORDER (R291). -/
def State.ctReorder (s : State) (k : Nat) : State :=
  let x := s.ctRx k
  match x.missing with
  | [] => s
  | m :: _ => if !x.naked && decide (s.rf ET_CT_NAK ET_CT_NAK_REORDER ≤ (x.e + 2 ^ 32 - m.seq) % 2 ^ 32 - 1) then s.ctNak k else s

/-! ### Loss of blocks (R294) -/

/-- Corner-turn pieces of a spectrum that have not arrived. -/
def Half.ctAbsent (h : Half) (x : StSpec) : List (Nat × Nat) := h.pieces.filter fun q => !x.pieces.contains q

/-- A spectrum of a half, as far as it has arrived. -/
def Half.spec (h : Half) (st : Nat) : StSpec := (h.specs.find? fun x => x.st == st).getD (specNone st)

/-- Data blocks of a spectrum that have not arrived from a member. -/
def Half.ctAbsentOf (h : Half) (x : StSpec) (m : Nat) : Nat := ((h.ctAbsent x).filter fun q => q.1 / 32 == m).length

/-- Blocks newly declared lost are counted (R294). -/
def State.ctLost (s : State) (n : Nat) : State :=
  if n = 0 then s else (s.bumpBy ET_CT_LOST counter32 n).seen ET_CT_STAT ET_CT_STAT_LOSS_SEEN evEthernet

/-- Pieces of a spectrum are zero-filled and flagged; GRACE has ended or not, and blocks of it have been declared lost or not (R290, R294). -/
def StSpec.zeroed (x : StSpec) (lost : List (Nat × Nat)) (graced short : Bool) : StSpec :=
  { x with
    pieces := x.pieces ++ lost, graced := x.graced || graced, short := x.short || short
    paths := lost.foldl (fun t q => (List.range 16).foldl (fun t i =>
      tblUpd stPathNone t (16 * q.1 + i) fun p => { p with lost := setBit p.lost q.2 }) t) x.paths }

/-- Zero-fill pieces of a spectrum in staging, which may make it present (R176, R294). -/
def State.ctZero (s : State) (st : Nat) (lost : List (Nat × Nat)) (graced short : Bool) : State :=
  match s.halfOf st with
  | none => s
  | some h => (s.setHalf h { s.half h with specs := specUpd st (fun x => x.zeroed lost graced short) (s.half h).specs }).completeHalf h

/-- Missing SEQs of a stream that are declared lost with a spectrum: those that can belong to none after it, and of those that may belong to it or a later one the first `n`; how many of `n` are left, and what stays missing. -/
def ctSettled (st : Nat) : Nat → List CtMissing → Nat × List CtMissing
  | n, [] => (n, [])
  | n, m :: ms =>
    if m.hi = st then ctSettled st n ms
    else if 0 < n ∧ m.lo ≤ st ∧ st < m.hi then ctSettled st (n - 1) ms
    else ((ctSettled st n ms).1, m :: (ctSettled st n ms).2)

/-- SEQs missing from a member's streams that can belong to a spectrum and to none after it (R294). -/
def State.ctMissingOf (s : State) (st m : Nat) : Nat := ((ctKeysOf m).map fun k => ((s.ctRx k).missing.filter fun x => x.hi == st).length).sum

/-- The missing SEQs of a member's streams that are declared lost with a spectrum, `n` blocks of it in all, are missing no longer; a block whose SEQ has not shown itself missing is owed (R291, R294). -/
def State.ctSettle (s : State) (st m n : Nat) : State :=
  let one := fun (a : Nat × State) (k : Nat) =>
    let x := a.2.ctRx k
    let r := ctSettled st a.1 x.missing
    if r.2 = x.missing then a else (r.1, a.2.setCtRx k { x with missing := r.2, naked := x.naked && !r.2.isEmpty })
  let r := (ctKeysOf m).foldl one (n - s.ctMissingOf st m, s)
  let left := r.1
  { r.2 with ct := { r.2.ct with owed := tblSet 0 r.2.ct.owed (8 * st + m) left } }

/-- Blocks of a spectrum of a member that are declared lost with it: the data blocks absent and those owed, or more where RECORDS blocks are among the missing SEQs (R294). -/
def State.ctLosing (s : State) (st m : Nat) : Nat :=
  let absent := match s.halfOf st with | some h => (s.half h).ctAbsentOf ((s.half h).spec st) m | none => 0
  max (absent + tblGet 0 s.ct.owed (8 * st + m)) (s.ctMissingOf st m)

/-- Declare what a spectrum still lacks lost: zero-filled, flagged, counted once, and no longer missing (R294). -/
def State.ctLose (s : State) (st : Nat) : State :=
  let lost := match s.halfOf st with | some h => (s.half h).ctAbsent ((s.half h).spec st) | none => []
  let n := ((List.range 8).map fun m => s.ctLosing st m - tblGet 0 s.ct.owed (8 * st + m)).sum
  let s1 := (List.range 8).foldl (fun t m => t.ctSettle st m (s.ctLosing st m)) s
  (s1.ctLost n).ctZero st lost true (n != 0)

/-- Spectra of which a member owes blocks. -/
def State.ctOwes (s : State) (m : Nat) : List Nat := (s.ct.owed.filter fun e => e.1 % 8 == m).map (·.1 / 8)

/-- Once a member's block has been accepted: SEQs that it shows missing of spectra whose GRACE has ended are lost, and a block that comes after that end is owed no longer (R294). -/
def State.ctBehind (s : State) (m st : Nat) (data : Bool) : State :=
  let s1 := if data && s.ctOver st then { s with ct := { s.ct with owed := tblUpd 0 s.ct.owed (8 * st + m) (· - 1) } } else s
  let s2 := (s1.ctOwes m).foldl State.ctLose s1
  if s2.ctOver st then s2.ctLose st else s2

/-- An accepted block is counted and placed. -/
def State.ctAccept (s : State) (b : List Byte) : State :=
  let s1 := (s.bump64 ET_CT_RX_BLOCKS_LO 1).ctBehind (beAt b 4 1 % 8) (beAt b 12 8) (!bit (beAt b 3 1) 1)
  let payload := Sys2Proof.Machine.slice b 32 8192
  if bit (beAt b 3 1) 1 then s1.ctTakeRecs (beAt b 22 1) (beAt b 12 8) payload
  else s1.ctPlace (beAt b 6 2) (beAt b 20 2) (beAt b 12 8) (beAt b 28 4) payload

/-- A block whose checks have passed takes its place in its stream (R290). -/
def State.ctBlock (s : State) (n src : Nat) (b : List Byte) : State :=
  let m := beAt b 4 1 % 8
  let k := s.ctKey m (beAt b 4 1 / 16 % 4)
  let s1 := s.ctEpoch m (beAt b 24 4)
  let s2 := { s1 with ct := { s1.ct with macs := tblSet 0 s1.ct.macs k (src + 2 ^ 48 * n) } }
  match ctTake (s2.ctRx k) (beAt b 8 4) (beAt b 12 8) (s2.ctPast (beAt b 12 8)) with
  | .accept x => ((s2.setCtRx k x).ctAccept b).ctReorder k
  | .resync x => ((((s2.setCtRx k x).bump ET_CT_RESYNC).seen ET_CT_STAT ET_CT_STAT_RESYNC_SEEN evEthernet).ctAccept b).ctReorder k
  | .late => s2.bump ET_CT_LATE
  | .dup => s2.bump ET_CT_DUP

/-- A block whose CRC-32C fails: its SEQ is missing from the stream that its header names (R289, R291). -/
def State.ctCrcFailed (s : State) (n src : Nat) (b : List Byte) : State :=
  let m := beAt b 4 1 % 8
  let k := s.ctKey m (beAt b 4 1 / 16 % 4)
  let s1 := s.bump ET_CT_CRC
  if b.length < 32 ∨ m = s.member ∨ 2 ^ s.mode ≤ m then s1
  else
    let s2 := { s1 with ct := { s1.ct with macs := tblSet 0 s1.ct.macs k (src + 2 ^ 48 * n) } }
    (s2.setCtRx k (ctFailed (s2.ctRx k) (beAt b 8 4) (beAt b 12 8 / 8192 * 8192))).ctReorder k

/-- The checks of R289 in order, then R290, on the body of a block from a source on port `n`. -/
def State.ctReceive (s : State) (n src : Nat) (b : List Byte) : State :=
  if !s.ctRuns then s
  else if b.length < 8228 ∨ crc32c (b.take 8224) ≠ beAt b 8224 4 then s.ctCrcFailed n src b
  else if !s.ctWellFormed b then s.bump ET_CT_MALFORMED
  else if beAt b 12 8 % 8192 ≠ 0 then s.bump ET_CT_OFFGRID
  else if beAt b 24 4 + 1 < tblGet 0 s.ct.epochs (8 * s.mode + beAt b 4 1 % 8) then (s.bump ET_CT_STALE).seen ET_CT_STAT ET_CT_STAT_STALE_SEEN evEthernet
  else s.ctBlock n src b

/-- CT_BLOCK_RECEIVED, under the configuration of the block's spectrum (R57, R289, R290). -/
def execCtBlockReceived (n : Nat) (s : State) : Host.Outcome State Fault Refusal :=
  whenOn s fun s =>
    match s.rxHead n fun f => f.etype == 0x88B5 with
    | none => s
    | some f => (s.rxTake n f).ctUnder (s.ctAt (beAt f.body 12 8)) fun t => t.ctReceive n f.src f.body

/-! ### NAK, GONE and loss (R291 to R294) -/

/-- The configuration, in force or replaced, that a frame of a mode speaks of; none in force has another mode where none replaced has this one. -/
def State.ctOfMode (s : State) (mode : Nat) : Option (List Word) :=
  if s.mode = mode then none else (s.ct.olds.find? fun o => (s.ctLoad o.2).mode == mode).map (·.2)

/-- A timer of R291 runs out on the streams of a member and port whose NAK has been sent, or not. -/
def State.ctNakDue (s : State) (m p : Nat) (again : Bool) : State :=
  if 8 ≤ m ∨ 4 ≤ p then s
  else (List.range 4).foldl (fun s mode => s.ctUnder (s.ctOfMode mode) fun t =>
    if t.mode == mode && t.ctRuns && (t.ctRx (t.ctKey m p)).naked == again then t.ctNak (t.ctKey m p) else t) s

/-- NAK_DELAY_EXPIRE (R291). -/
def execNakDelayExpire (m p : Nat) (s : State) : Host.Outcome State Fault Refusal := whenOn s fun s => s.ctNakDue m p false

/-- NAK_RETRY_EXPIRE (R291). -/
def execNakRetryExpire (m p : Nat) (s : State) : Host.Outcome State Fault Refusal := whenOn s fun s => s.ctNakDue m p true

/-- The ranges that a NAK or GONE frame lists, as SEQs in order (R292). -/
def ctListed (b : List Byte) : List Nat :=
  (List.range (min 32 (beAt b 6 1))).flatMap fun i => (List.range (min 2032 (beAt b (12 + 8 * i + 4) 2))).map fun j => (beAt b (12 + 8 * i) 4 + j) % 2 ^ 32

/-- A block as it is resent: RESENT set, and its CRC-32C made again (R287). -/
def ctResent (bytes : List Byte) : List Byte :=
  let h := bytes.take 3 ++ be 1 (setBit (beAt bytes 3 1) 0) ++ slice bytes 4 8220
  h ++ be 4 (crc32c h)

/-- Resend one block on its port: above the admitted rate it waits with C2 (R39, R277, R293). -/
def State.ctResend (s : State) (x : CtBlock) : State :=
  let f := { s.ctFrame x.member x.port 1 (ctResent x.bytes) with resend := true }
  let s1 := s.bump ET_CT_RESENT
  if s1.txFull x.port f then (s1.bump ET_CT_UNSENT).seen ET_CT_STAT ET_CT_STAT_UNSENT_SEEN evEthernet else s1.txQueue x.port f

/-- A 0x88B6 frame of a kind that port `n` holds. -/
def State.ctCtl (s : State) (n kind : Nat) : Option RxFrame := s.rxHead n fun f => f.etype == 0x88B6 && beAt f.body 3 1 == kind

/-- A NAK or GONE frame has the form of R292 and the mode in force. -/
def State.ctCtlOk (s : State) (b : List Byte) : Bool :=
  beAt b 0 2 == 0x434E && beAt b 2 1 == 1 && beAt b 4 1 / 64 == s.mode && decide (1 ≤ beAt b 6 1) && decide (beAt b 6 1 ≤ 32)

/-- Blocks of the resend SRAM that a stream of this member has sent under the mode in force, newest first. -/
def State.ctStored (s : State) (m port : Nat) : List CtBlock :=
  s.ct.sram.filter fun x => x.member == m && x.port == port && beAt x.bytes 4 1 / 64 == s.mode

/-- A NAK of the mode in force is answered (R293). -/
def State.ctAnswer (s : State) (n src : Nat) (b : List Byte) : State :=
  if !s.ctRuns || !s.ctCtlOk b then s
  else
    let s2 := s.bump ET_CT_NAK_RX
    if beAt b 5 1 % 8 ≠ s.member ∨ beAt b 8 4 ≠ s.epochField then s2
    else
      let mine := s2.ctStored (beAt b 4 1 % 8) (beAt b 5 1 / 16 % 4)
      let held := (mine.filter fun x => (ctListed b).contains x.seq).reverse
      let gone := ctRanges ((ctListed b).filter fun q => !mine.any fun x => x.seq == q)
      let s3 := held.foldl State.ctResend s2
      if gone.isEmpty then s3
      else (s3.txNak n (s3.ctNakFrame n src 2 (beAt b 5 1) s.epochField (gone.take 32))).bumpBy ET_CT_GONE counter32 (min 32 gone.length)

/-- CT_NAK_RECEIVED, under the configuration of its mode (R57, R293). -/
def execCtNakReceived (n : Nat) (s : State) : Host.Outcome State Fault Refusal :=
  whenOn s fun s =>
    match s.ctCtl n 1 with
    | none => s
    | some f => (s.rxTake n f).ctUnder (s.ctOfMode (beAt f.body 4 1 / 64)) fun t => t.ctAnswer n f.src f.body

/-- GRACE_EXPIRE: GRACE runs from the end of the local fill; where the spectrum's half has been released before, blocks still missing from it are lost all the same (R294). -/
def execGraceExpire (st : Nat) (s : State) : Host.Outcome State Fault Refusal :=
  whenOn s fun s =>
    match s.halfOf st with
    | none => if s.ctPast st then s.ctLose st else s
    | some h =>
      if (s.half h).mode != 0 && (s.half h).specs.any fun x => x.st == st && (s.half h).localDone x && !x.graced then s.ctLose st else s

/-- Pieces that spectra of a half from `lo` to `hi` lack from a member, each with its spectrum. -/
def Half.ctLacking (h : Half) (m lo hi : Nat) : List (Nat × Nat × Nat) :=
  match h.base with
  | none => []
  | some a =>
    (((List.range h.cap).map (a + 8192 * ·)).filter fun st => decide (lo ≤ st) && decide (st ≤ hi)).flatMap fun st =>
      ((h.ctAbsent (h.spec st)).filter fun q => q.1 / 32 == m).map fun q => (st, q)

/-- A missing SEQ is declared lost by GONE: counted, and zero-filled at once. Which of the blocks that its spectra lack it is, a RECORDS block among them, is a free value: the specification does not order the blocks of a stream (R293, R294). -/
def State.ctGoneOne (s : State) (k q : Nat) : State :=
  match (s.ctRx k).missing.find? fun m => m.seq == q with
  | none => s
  | some m =>
    let s1 := (s.setCtRx k ((s.ctRx k).found fun y => y.seq == q)).ctLost 1
    let l := [s.ix.half0, s.ix.half1].flatMap fun h => if h.mode = k / 32 then h.ctLacking (k / 4 % 8) m.lo m.hi else []
    match l[Config.ctGoneAt s1.free % (l.length + 1)]? with
    | some x => s1.draw.ctZero x.1 [x.2] false true
    | none => s1.draw

/-- A GONE frame of the mode in force is taken (R293). -/
def State.ctGone (s : State) (b : List Byte) : State :=
  if !s.ctRuns || !s.ctCtlOk b then s
  else (ctListed b).foldl (fun s q => s.ctGoneOne (s.ctKey (beAt b 5 1 % 8) (beAt b 5 1 / 16 % 4)) q) s

/-- CT_GONE_RECEIVED, under the configuration of its mode (R57, R293). -/
def execCtGoneReceived (n : Nat) (s : State) : Host.Outcome State Fault Refusal :=
  whenOn s fun s =>
    match s.ctCtl n 2 with
    | none => s
    | some f => (s.rxTake n f).ctUnder (s.ctOfMode (beAt f.body 4 1 / 64)) fun t => t.ctGone f.body

/-! ### Configuration (R33, R187, R299) -/

/-- The parameter rules of ET_CT_CONFIG (R18, R31, R270, R286, R298). -/
def State.ctBad (s : State) (c : Cmd) : Option Bad :=
  let w := c.w 2
  let mode := fget w ET_CT_CTL_MODE
  let ports := ctPorts (fget w ET_CT_CTL_PORTS)
  let run := fget w ET_CT_CTL_RUN == 1
  (badIf (decide (2 ^ mode ≤ fget w ET_CT_CTL_MEMBER) || (run && mode != 0 && ports.isEmpty) ||
      (run && ports.any fun n => decide (s.rf (ET_P_CTL n) ET_P_CTL_MAXFRAME < 8246))) 2).or
    ((badIf (badImage ET_CT_GRACE (c.w 3)) 3).or ((badIf (badImage ET_CT_NAK (c.w 4)) 4).or (badIf (!isGroup (c.pair 5 % 2 ^ 48)) 5)))

/-- Registers of a corner-turn configuration. -/
def State.ctWrite (s : State) (c : Cmd) : State :=
  s.configAll (ctRegs.zip (c.payload.drop 2))

/-- The product set in force, as its registers describe it. -/
def State.setInForce (s : State) : SetDesc :=
  { nspec := s.rf IX_INT_LEN IX_INT_LEN_NSPEC, fmt := s.rf IX_CTL IX_CTL_FMT, regions := s.ix.regions }

/-- The budgets on a corner-turn configuration: port egress (R33), and the correlator's and Woad's own (R187, R209). -/
def State.ctBudget (s : State) (c : Cmd) : Option (Nat × Nat) :=
  let t := s.ctWrite c
  match t.egressOver t.wdRegs with
  | some n => some (0x12, n)
  | none =>
    (if t.integrating then t.setBudget t.setInForce else none).or (t.wdBudget t.wdRegs)

/-- The corner-turn configuration changes at boundary b: the one in force stays for the spectra before it (R57). -/
def State.ctKeep (s : State) (b : Nat) : State :=
  { s with ct := { s.ct with olds := (s.ct.olds.filter fun o => s.stBefore o.1 || s.ct.src.any fun f => decide (f.st < o.1)) ++ [(b, ctRegs.map s.reg)] } }

/-- The streams of the mode now in force start at SEQ 0 (R287, R299). -/
def State.ctRestart (s : State) : State :=
  { s with ct := { s.ct with
    txSeq := s.ct.txSeq.filter (·.1 / 32 != s.mode), rx := s.ct.rx.filter (·.1 / 32 != s.mode), epochs := s.ct.epochs.filter (·.1 / 8 != s.mode)
    sram := s.ct.sram.filter fun x => beAt x.bytes 4 1 / 64 != s.mode } }.ctSync

/-- An operating-mode change fires at boundary b: streams of a changed mode start at SEQ 0, and the integration that starts at b runs in the new mode; spectra before b are sent and received as before it (R30, R57, R287, R299). -/
def State.applyCt (s : State) (b : Nat) (c : Cmd) : State :=
  let s1 := (s.ctKeep b).ctWrite c
  if s1.mode = s.mode ∧ s1.member = s.member then s1
  else
    let s2 := (if s1.mode = s.mode then s1 else s1.ctRestart).utilFollow
    if s2.integrating then
      let d := s2.setInForce
      let s3 := s.endAt b
      let t := (s2.endAt b).setConfig s2.ix.anchor d
      (s3.stageFrom t b).startIntegration b 0
    else if s2.stNow.t ≠ 0 then s.stageFrom (s2.setF IX_STAGE IX_STAGE_T (stageT (modePaths s2.mode) s2.selCount)) b
    else s2

/-- ET_CT_STATUS (R299). -/
def execEtCtStatus (c : Cmd) (s : State) : Host.Outcome State Fault Refusal :=
  .next (s.command 0x0705 c (fun _ => needLen 0 c) fun s => .ok ((ET_CT_STAT :: ctCounters).map s.reg) s)

end Sys2Proof.Machine
end

