-- ==== Sys2Proof/Machine/Programs.lean ====
section
/-! DEFINITION. Madder program images: the checks of the store, admission, loading, restarts and swaps, and the Madder commands (R108, R138 to R145). -/

namespace Sys2Proof.Machine

/-! ### The bundle rules (R108) -/

/-- Pipes of a compute operation (R114). -/
def pipes (w : Nat) : Nat :=
  let op := cOp w
  if op = 1 ∨ op = 2 ∨ op = 3 then 1 else if op = 4 ∨ op = 5 ∨ op = 6 then 2 else 0

/-- Registers by one number: V 0–15, A 16–23, S 32–47, I 48–55, N 56–63, CB 64–71, CL 72–79, CP 80, SR 87 (R106, R125). -/
def regV (r : Nat) : Nat := r
def regA (r : Nat) : Nat := 16 + r % 8
def regS (r : Nat) : Nat := 32 + r
def regI (r : Nat) : Nat := 48 + r

/-- Registers that a compute operation writes. -/
def computeWrites (w : Nat) : List Nat :=
  let op := cOp w
  if op = 0 then []
  else if op ≤ 9 then [regA (cD w)]
  else if op = 0x12 then [regV (cD w), regA (cB w)]
  else [regV (cD w)]

/-- Registers that an X-slot or Y-slot operation writes. -/
def memWrites (w : Nat) : List Nat :=
  let op := mOp w
  (if op = 1 ∨ op = 6 ∨ op = 7 ∨ op = 0xA then [regV (mReg w)] else if op = 8 then [regS (mReg w)] else []) ++
    (if op ≠ 0 ∧ mMode w ≠ 0 then [regI (mIdx w)] else [])

/-- Registers that an F-slot operation writes. -/
def flowWrites (f : Nat) : List Nat :=
  let op := fOp f
  if (9 ≤ op ∧ op ≤ 0x12) ∨ op = 0x14 then [regS (bits f 17 14)]
  else if op = 0x13 then [32 + bits f 17 12]
  else if op = 0x15 then [regV (bits f 17 14)]
  else if op = 0x17 then [80]
  else []

/-- A slot of the bundle holds a reserved operation code, or one of the other memory slot. -/
def reservedOp (b : Nat) : Bool :=
  let c := fun w => cOp w == 0x0F || decide (0x14 ≤ cOp w)
  decide (0x1A ≤ fOp (slotF b)) || decide (0xB ≤ mOp (slotX b)) || decide (0xC ≤ mOp (slotY b)) || mOp (slotY b) == 0xA ||
    c (slotC1 b) || c (slotC2 b)

/-- Targets of a branch or CALL. -/
def target (f : Nat) : Option Nat := if 3 ≤ fOp f ∧ fOp f ≤ 7 then some (bits f 11 0) else none

/-- The body of a LOOP or REP at bundle `i`: first and last bundle. -/
def loopBody (f i : Nat) : Option (Nat × Nat) :=
  if fOp f = 1 then some (i + 1, i + 1 + bits f 4 0)
  else if fOp f = 2 then some (i + 1, i + 1 + bits f 11 0)
  else none

/-- Whether a bundle at `i` breaks a rule of R108, given the loop bodies of the image. -/
def bundleBad (icount : Nat) (bodies : List (Nat × Nat)) (b i : Nat) : Bool :=
  let f := slotF b
  let ws := [flowWrites f, memWrites (slotX b), memWrites (slotY b), computeWrites (slotC1 b), computeWrites (slotC2 b)]
  let twice := (List.range 5).any fun m => (List.range 5).any fun n => decide (m < n) && (ws.getD m []).any fun r => (ws.getD n []).contains r
  let jump := match target f with
    | none => false
    | some t => decide (icount ≤ t) || bodies.any fun q =>
        (decide (q.1 ≤ i) && decide (i ≤ q.2)) != (decide (q.1 ≤ t) && decide (t ≤ q.2))
  decide (3 < pipes (slotC1 b) + pipes (slotC2 b)) || twice || reservedOp b ||
    (fOp f == 0x13 && decide (0x31 ≤ bits f 17 12) && decide (bits f 17 12 ≤ 0x36)) || jump ||
    (mOp (slotX b) == 0xA && mMode (slotX b) == 2)

/-! ### Images (R138) -/

/-- A program image's header (R138). -/
def progHdr (bs : List Byte) : ProgHdr :=
  { stage := bit (leAt bs 6 2) 0, ring := bit (leAt bs 6 2) 1, cps := leAt bs 8 4, entry := leAt bs 12 2, icount := leAt bs 14 2
    ringBw := leAt bs 24 4, preserve := (List.range 4).map fun i => (leAt bs (32 + 8 * i) 4, leAt bs (36 + 8 * i) 4) }

def progXlen (bs : List Byte) : Nat := leAt bs 16 4
def progYlen (bs : List Byte) : Nat := leAt bs 20 4
def progSiglen (bs : List Byte) : Nat := leAt bs 96 4

/-- Bytes before the signature (R138). -/
def progBody (bs : List Byte) : Nat := 128 + 16 * leAt bs 14 2 + 2 * progXlen bs + 2 * progYlen bs

/-- The bundles of an image. -/
def progBundles (bs : List Byte) : List Nat := (List.range (leAt bs 14 2)).map fun i => leAt bs (128 + 16 * i) 16

/-- Header fields within the ranges of R138, and the SIGLEN of R489. -/
def progHdrOk (bs : List Byte) : Bool :=
  leAt bs 0 4 == 0x4D445047 && leAt bs 4 2 == 1 && decide (leAt bs 6 2 < 4) && leAt bs 28 4 == 0 && leAt bs 100 28 == 0 &&
    decide (1 ≤ leAt bs 14 2) && decide (leAt bs 14 2 ≤ 4096) && decide (leAt bs 12 2 < leAt bs 14 2) &&
    decide (progXlen bs ≤ 262144) && decide (progYlen bs ≤ 262144) && decide (progSiglen bs ≤ 1280) &&
    ((progHdr bs).preserve.all fun q => decide (q.1 + q.2 ≤ 262144)) && decide (bs.length = progBody bs + progSiglen bs)

/-- The first bundle that breaks R108; none when the image keeps every rule. DESIGN CHOICE: a preserved region that overlaps an initialised one, where no bundle offends, gives index 0. -/
def progBadBundle (bs : List Byte) : Option Nat :=
  let bundles := progBundles bs
  let bodies := bundles.zipIdx.filterMap fun q => loopBody (slotF q.1) q.2
  match (bundles.zipIdx.find? fun q => bundleBad bundles.length bodies q.1 q.2) with
  | some q => some q.2
  | none => if (progHdr bs).preserve.any (fun q => decide (0 < q.2) && decide (q.1 < progYlen bs)) then some 0 else none

/-- The three checks of R139 on an image, with the refusal of the first that fails. -/
def State.progCheck (s : State) (bs : List Byte) : Option Bad :=
  if !Config.falconVerify s.lc.ownerKey (bs.take (progBody bs)) (bs.drop (progBody bs)) then some ⟨stSignature, 0, []⟩
  else if !progHdrOk bs then some ⟨stBadParam, 0, []⟩
  else (progBadBundle bs).map fun i => ⟨stBadParam, 0, [w32 i]⟩

/-- A store slot without an image. -/
def progEmpty : ProgSlot := { valid := false, bytes := [], measurement := [] }

/-- Store slot `n`. -/
def State.prog (s : State) (n : Nat) : ProgSlot := tblGet progEmpty s.md.progs n

/-- The standard program as its header declares it (R147, R155). -/
def stdHdr : ProgHdr :=
  { stage := true, ring := false, cps := 3840, entry := 0, icount := 0, ringBw := 0
    preserve := [(65536, 65536), (131072, 65536), (196608, 8192), (0, 0)] }

/-- The header of a program by number. -/
def State.hdrOf (s : State) (n : Nat) : ProgHdr := if n = stdProgram then stdHdr else progHdr (s.prog n).bytes

/-- Cycles per spectrum that R140 admits. -/
def cpsLimit (rateN : Nat) : Nat := 815104 / rateN

/-- A program may run at the sample rate (R140). -/
def State.cpsOk (s : State) (n : Nat) : Bool := decide ((s.hdrOf n).cps ≤ cpsLimit s.time.rateN)

/-! ### Loading (R141, R142, R143) -/

/-- Halfwords of a byte list, low byte first. -/
def halfwords : List Byte → List Nat
  | a :: b :: l => (a.toNat + 256 * b.toNat) :: halfwords l
  | _ => []

/-- Y memory after a load: preserved regions keep their contents, the rest is the image's, zero elsewhere (R141). -/
def loadY (h : ProgHdr) (old : Tbl Nat) (init : List Nat) : Tbl Nat :=
  tblSetRun 0 (old.filter fun e => h.preserve.any fun q => decide (q.1 ≤ e.1) && decide (e.1 < q.1 + q.2)) 0 init

/-- A slice with program `n` loaded and its first spectrum at `st`; a swap to a later boundary goes on waiting (R106, R141, R142). -/
def State.loadedSlice (s : State) (k n st : Nat) : MdSlice :=
  let m := s.slice k
  let h := s.hdrOf n
  let bs := if n = stdProgram then [] else (s.prog n).bytes
  { sliceReset with
    imem := tblSetRun 0 [] 0 (progBundles bs)
    x := tblSetRun 0 [] 0 (if n = stdProgram then stdX else halfwords (Sys2Proof.Machine.slice bs (128 + 16 * h.icount) (2 * progXlen bs)))
    y := loadY h m.y (halfwords (Sys2Proof.Machine.slice bs (128 + 16 * h.icount + 2 * progXlen bs) (2 * progYlen bs)))
    st := st, pc := h.entry, hdr := h, xj := m.xj, delays := m.delays, waits := m.waits, sent := m.sent, excs := m.excs, rst := m.rst, mute := m.mute
    back := m.back, ringPos := m.ringPos, fault := m.fault, swap := m.swap.filter fun q => decide (st < q.1) }

/-- A load preserves the whole scale state of R155. -/
def ProgHdr.keepsScale (h : ProgHdr) : Bool := (List.range 8192).all fun i => h.preserve.any fun q => decide (q.1 ≤ 196608 + i) && decide (196608 + i < q.1 + q.2)

/-- What a change between the standard program and another does to the scale state and the Y memory that holds it, before program `n` loads (R141, R155). -/
def State.scaleHand (s : State) (k n : Nat) : State :=
  let was := (s.slice k).hdr == stdHdr
  if was && n != stdProgram then s.scaleSpill k else if !was && n == stdProgram && tblGet 0 s.ch.epoch k != 0 then s.scaleFill k else s

/-- Start program `n` on slice k at spectrum `st`; delay changes and a calibration swap whose boundary `st` has reached apply (R130, R142, R143, R156). -/
def State.startSlice (s : State) (k n st : Nat) : State :=
  let s0 := s.scaleHand k n
  let s1 := ((((s0.setSlice k (s0.loadedSlice k n st)).setF (MD_SL_CTL k) MD_SL_CTL_SLOT n).setF (MD_SL_STAT k) MD_SL_STAT_STATE mdRunning).setReg64
    (MD_SL_ST_LO k) st).applyDelays k
  let s2 := (if (s.hdrOf n).keepsScale then s1 else s1.scaleLost k).calSwap k st
  if n = stdProgram then s2.epochStart k st else s2

/-- A program by number is there to be loaded: the standard program, or a store slot whose image passes the checks again (R139). -/
def State.sound (s : State) (n : Nat) : Bool := n == stdProgram || ((s.prog n).valid && (s.progCheck (s.prog n).bytes).isNone)

/-- A program by number may be loaded now: it is there, and the sample rate admits it (R139, R140). -/
def State.loadable (s : State) (n : Nat) : Bool := s.sound n && s.cpsOk n

/-- Restart a stopped slice at the first spectrum boundary at or after W + 1: its paths rejoin only from there on, and the spectrum in progress is delivered as zeros (R136, R137). -/
def State.restartSlice (s : State) (k : Nat) : State :=
  let st := spectrumAt s.md.w
  let n := s.programAt k st
  let a := max (s.slice k).fault (spectrumFloor s.md.w)
  if s.loadable n then ((s.setSlice k { s.slice k with back := [] }).zeroSpectra k a ((st - a) / 8192)).startSlice k n st else s

/-- SLICE_AUTO_RESTART: a slice that an exception other than HALT stopped, with AUTO_RESTART set (R137, R144). -/
def execSliceAutoRestart (k : Nat) (s : State) : Host.Outcome State Fault Refusal :=
  whenOn s fun s =>
    let code := s.rf (MD_SL_EXC k) MD_SL_EXC_CODE
    if s.loadable (s.programAt k (spectrumAt s.md.w)) && s.sliceState k == mdIdle && code != 0 && code != excHalt && s.flag (MD_SL_CTL k) MD_SL_CTL_AUTO_RESTART && s.running && !s.coreStopped then
      let s1 := s.restartSlice k
      let m := s1.slice k
      s1.setSlice k { m with rst := (s.time.cycles :: m.rst).filter fun c => decide (s.time.cycles < c + sixtySeconds) }
    else s

/-! ### Commands (R145) -/

/-- A profile that holds no image. -/
def profEmpty : ProfSlot := { valid := false, bytes := [], measurement := [] }

/-- Profile n. -/
def State.prof (s : State) (n : Nat) : ProfSlot := tblGet profEmpty s.cp.profiles n

/-- PROG of slice k in the header of profile n (R416). -/
def State.profProg (s : State) (n k : Nat) : Nat := leAt (s.prof n).bytes (64 + k) 1

/-- A program number that a swap waiting in the scheduler names, or a profile activation waiting there, which swaps the programs of its image in (R145, R422). -/
def State.swapQueued (s : State) (n : Nat) : Bool :=
  s.events.any (fun e => (e.op == 0x0302 && e.cmd.f 2 4 0 == n) ||
    (e.op == 0x0D04 && (List.range 64).any fun k => s.profProg (e.cmd.f 2 1 0) k == n && s.rf (MD_SL_CTL k) MD_SL_CTL_SLOT != n)) || (List.range 64).any fun k => (s.slice k).swap.any fun q => q.2 == n

/-- A slot's image is running or awaits a swap (R145). -/
def State.progRuns (s : State) (n : Nat) : Bool :=
  s.swapQueued n || (List.range 64).any fun k => s.sliceState k == mdRunning && s.rf (MD_SL_CTL k) MD_SL_CTL_SLOT == n

/-- A slot is in use, as MD_PROG_ERASE has it, or awaits a swap (R145). DEDUCED: a slot in use is one that a slice is assigned, running or not. -/
def State.progInUse (s : State) (n : Nat) : Bool :=
  s.swapQueued n || (List.range 64).any fun k => s.flag (MD_SL_CTL k) MD_SL_CTL_RUN && s.rf (MD_SL_CTL k) MD_SL_CTL_SLOT == n

/-- Put an image into a store slot, or empty it (R139, R144, R145). -/
def State.setProg (s : State) (n : Nat) (x : ProgSlot) : State :=
  { s with md := { s.md with progs := tblSet progEmpty s.md.progs n x } }.setFB MD_STORE_STAT MD_STORE_STAT_VALID n x.valid

/-- The image accumulated for a slot: as many bytes as its header gives (R138). -/
def State.progAcc (s : State) (n : Nat) : List Byte :=
  let base := n * 2 ^ 21
  let h := tblRun 0 s.md.acc base 128
  tblRun 0 s.md.acc base (min (2 ^ 21) (progBody h + progSiglen h))

/-- MD_PROG_STORE (R139, R145). -/
def execMdProgStore (c : Cmd) (s : State) : Host.Outcome State Fault Refusal :=
  .next (s.command 0x0301 c
    (fun _ => (needLenIn 2 1002 c).or (badIf (2 ^ 21 < (c.w 1).toNat + 4 * (c.payload.length - 2)) 1))
    fun s =>
      let n := c.f 0 3 0
      if s.progRuns n then bad stResourceBusy []
      else
        let s1 := { s with md := { s.md with acc := tblSetRun 0 s.md.acc (n * 2 ^ 21 + (c.w 1).toNat) (wordsBE (c.payload.drop 2)) } }
        if c.f 0 31 31 = 0 then .ok [] s1
        else
          let img := s1.progAcc n
          match s1.progCheck img with
          | some b => .refuse b
          | none => .ok [] (s1.setProg n { valid := true, bytes := img, measurement := Config.shake256 (img.take (progBody img)) }))

/-- MD_SLICE_STATUS (R145). -/
def execMdSliceStatus (c : Cmd) (s : State) : Host.Outcome State Fault Refusal :=
  .next (s.command 0x0303 c (fun _ => needLen 1 c) fun s =>
    let k := c.f 0 5 0
    .ok (([MD_SL_STAT k, MD_SL_EXC k, MD_SL_ST_LO k, MD_SL_ST_HI k, MD_SL_CYC k, MD_SL_GOVCNT k, MD_SL_SATCNT k, MD_SL_ECCCNT k, MD_SL_MARKCNT k] ++
      (List.range 8).map (MD_PATH_STAT k)).map s.readReg) s)

/-- The refusal that a load of program `n` meets: a check of R139, or the sample rate (R139, R140). -/
def State.loadBad (s : State) (n : Nat) : Option Bad :=
  if n = stdProgram then none
  else if !(s.prog n).valid then some ⟨stBadParam, 0, []⟩
  else (s.progCheck (s.prog n).bytes).or (if s.cpsOk n then none else some ⟨stBudget, 0, []⟩)

/-- MD_SLICE_RESTART: HALTED or DEAD slices alone (R145); an image that fails a check of its load is refused as in the store, and then no slice restarts (R139). -/
def execMdSliceRestart (c : Cmd) (s : State) : Host.Outcome State Fault Refusal :=
  .next (s.command 0x0304 c (fun _ => needLen 2 c) fun s =>
    let ks := (List.range 64).filter (bit (c.q 0))
    if !s.coreStopped && ks.all fun k => s.sliceState k == mdHalted || s.sliceState k == mdDead then
      match ks.findSome? fun k => s.loadBad (s.programAt k (spectrumAt s.md.w)) with
      | some b => .refuse b
      | none => .ok [] (ks.foldl State.restartSlice s)
    else bad stWrongState [])

/-- An entry of MD_PROG_LIST: valid bit, IDENT, CPS, FLAGS and measurement (R145). -/
def progEntry (valid : Bool) (ident : List Byte) (cps flags : Nat) (meas : List Word) : List Word :=
  w32 (b2n valid) :: bytesToWordsBE (slice ident 0 32) 8 ++ [w32 cps, w32 flags] ++ (List.range 16).map fun i => meas.getD i 0

/-- IDENT of the standard program, "OLG-CHAN-STD" (R147). -/
def stdIdent : List Byte := [0x4F, 0x4C, 0x47, 0x2D, 0x43, 0x48, 0x41, 0x4E, 0x2D, 0x53, 0x54, 0x44]

/-- MD_PROG_LIST (R145). -/
def execMdProgList (c : Cmd) (s : State) : Host.Outcome State Fault Refusal :=
  .next (s.command 0x0305 c (fun _ => needLen 0 c) fun s =>
    .ok ((List.range 16).flatMap (fun n =>
        let x := s.prog n
        progEntry x.valid (slice x.bytes 64 32) (leAt x.bytes 8 4) (leAt x.bytes 6 2) x.measurement) ++
      progEntry true stdIdent 3840 1 s.lc.bootMeas) s)

/-- MD_PROG_ERASE (R145). -/
def execMdProgErase (c : Cmd) (s : State) : Host.Outcome State Fault Refusal :=
  .next (s.command 0x0306 c (fun _ => needLen 1 c) fun s =>
    if s.progInUse (c.f 0 3 0) then bad stResourceBusy [] else .ok [] (s.setProg (c.f 0 3 0) progEmpty))

/-- The counters of a slice, the channeliser's among them (R144, R169). -/
def mdCounters (k : Nat) : List Nat :=
  [MD_SL_GOVCNT k, MD_SL_SATCNT k, MD_SL_ECCCNT k, MD_SL_MARKCNT k, MD_CH_SL_CLIPS k, MD_CH_SL_SEEDS k, MD_CH_SL_WARM k]

/-- MD_CNT_CLR.ALL: every MD counter, MD_SL_EVT.COUNT and MD_SL_CYC.MAX (R144). -/
def execMdCntClrAll (s : State) : Host.Outcome State Fault Refusal :=
  whenOn s fun s =>
    (List.range 64).foldl (fun s k => (s.setF (MD_SL_CYC k) MD_SL_CYC_MAX 0).clearCount (MD_SL_EVT k) MD_SL_EVT_COUNT)
      (s.clearCounters ((List.range 64).flatMap mdCounters))

/-- MD_CNT_CLR.GO (R144). -/
def execMdCntClrSlice (k : Nat) (s : State) : Host.Outcome State Fault Refusal :=
  whenOn s fun s => if k < 64 then (s.clearCounters (mdCounters k)).clearCount (MD_SL_EVT k) MD_SL_EVT_COUNT else s

end Sys2Proof.Machine
end

