-- ==== Sys2Proof/Machine/PwOps.lean ====
section
/-! DEFINITION. Sensors, dies and the power of the compute dies: what both the pair and the power chapter act on (R463, R471 to R479). -/

namespace Sys2Proof.Machine

/-- A sensor of which nothing has been read since its die was powered. -/
def sensor0 : Sensor := { seen := false, num := 0, exp := 0, raw := 0, pend := false, lost := false }

/-- Sensor TSn. -/
def State.sensor (s : State) (n : Nat) : Sensor := tblGet sensor0 s.pw.sens n

/-- Replace a sensor. -/
def State.setSensor (s : State) (n : Nat) (x : Sensor) : State := { s with pw := { s.pw with sens := tblSet sensor0 s.pw.sens n x } }

/-- The filtered temperature is at or above `u` units of 0.0625 °C. -/
def Sensor.atLeast (x : Sensor) (u : Int) : Bool := decide (u * 4 ^ x.exp ≤ x.num)

/-- The filtered temperature as PW_TSn reads it, rounded down (R487). -/
def Sensor.temp (x : Sensor) : Int := x.num / 4 ^ x.exp

/-- A temperature in °C as sensors count it. -/
def deg (t : Int) : Int := 16 * t

/-- Sensors of each die: compute die 0, compute die 1, I/O-and-control, power-conversion (R471). -/
def dieSensors : Nat → List Nat
  | 0 => List.range 20
  | 1 => (List.range 20).map (20 + ·)
  | 2 => (List.range 22).map (40 + ·)
  | _ => [62, 63]

/-- The die of a sensor. -/
def dieOfSensor (n : Nat) : Nat := if n < 20 then 0 else if n < 40 then 1 else if n < 62 then 2 else 3

/-- A sensor that decisions use: read since its die was powered, and available (R474). -/
def State.sensOk (s : State) (n : Nat) : Bool := (s.sensor n).seen && !(s.sensor n).lost

/-- Th of a die is at or above `u` (R476). -/
def State.dieHot (s : State) (d : Nat) (u : Int) : Bool := (dieSensors d).any fun n => s.sensOk n && (s.sensor n).atLeast u

/-- A compute die that holds the Verdigris item now powered, if one does (R444). -/
def itemDie (i : Nat) : Option Nat := if i < 32 then some 0 else if i < 64 then some 1 else none

/-- A die is powered: the compute dies with their rails, or while a Verdigris item on them runs (R444, R463). -/
def State.diePowered (s : State) (d : Nat) : Bool := decide (2 ≤ d) || s.pw.compOn || s.ml.item.any fun i => itemDie i == some d

/-- The sensors of a die are read afresh: the first reading after it is powered sets T_f (R473). -/
def State.sensFresh (s : State) (d : Nat) : State :=
  (dieSensors d).foldl (fun s n => (s.setSensor n sensor0).setReg (PW_TS n) 0x80000000) s

/-- PW_THROT.K_W follows K_IO and K_S (R477). -/
def State.kwSync (s : State) : State := s.setF PW_THROT PW_THROT_K_W (max (s.rf PW_THROT PW_THROT_K_IO) (s.rf PW_THROT PW_THROT_K_S))

/-- A compute die is powered: its sensors start afresh, and its step starts at 4 after a thermal shutdown, else at 0 (R463, R473, R479). -/
def State.dieUp (s : State) (d : Nat) : State :=
  let s1 := (s.sensFresh d).setF PW_THROT (if d = 0 then PW_THROT_K_C0 else PW_THROT_K_C1) (if s.pw.hotStart.contains d then 4 else 0)
  { s1 with pw := { s1.pw with
      hotStart := s1.pw.hotStart.filter (· != d), stepAt := tblSet 0 s1.pw.stepAt d s1.time.cycles, coolAt := tblSet 0 s1.pw.coolAt d 0 } }

/-- The compute dies are powered (R463). -/
def State.compUp (s : State) : State :=
  let s1 := ((s.dieUp 0).dieUp 1).setF PW_RAIL PW_RAIL_GOOD (setBit (setBit (s.rf PW_RAIL PW_RAIL_GOOD) 6) 7)
  { s1 with pw := { s1.pw with compOn := true } }

/-- VCORE_C0 and VCORE_C1 are switched off (R463). -/
def State.compDown (s : State) : State :=
  let s1 := ((s.sensFresh 0).sensFresh 1).setF PW_RAIL PW_RAIL_GOOD (clrBit (clrBit (s.rf PW_RAIL PW_RAIL_GOOD) 6) 7)
  { s1 with pw := { s1.pw with compOn := false } }

end Sys2Proof.Machine
end

