-- ==== Sys2Proof/Machine/Saffron.lean ====
section
/-! DEFINITION. Saffron and Umber: training, pulses, TRIGIN edges, trigger messages, slabs, the ring's changes and the trigger commands (R240 to R264). -/

namespace Sys2Proof.Machine

/-! ### Beams, units and pins (R240 to R246) -/

/-- TRAINING_END: 2^A sample periods of training have been done (R240). -/
def execTrainingEnd (t : Nat) (s : State) : Host.Outcome State Fault Refusal :=
  whenOn s fun s =>
    if t < 16 ∧ 2 ^ s.rf (SF_TB_CTL t) SF_TB_CTL_A + 1 ≤ (s.tb t).train then
      (s.setTb t { s.tb t with train := 0 }).setF (SF_TB_STAT t) SF_TB_STAT_TRAINING 0
    else s

/-- HIT_HOLD_EXPIRE: a hit that has ended is no longer held (R242). -/
def execHitHoldExpire (c p : Nat) (s : State) : Host.Outcome State Fault Refusal :=
  whenOn s fun s =>
    if tblGet 0 s.sf.hits (512 * c + p) ≤ s.sf.idx then { s with sf := { s.sf with hits := tblSet 0 s.sf.hits (512 * c + p) 0 } } else s

/-- TRIG_PULSE_END: the pin goes inactive PW cycles after its output turned false, and stays so for two (R244). -/
def execTrigPulseEnd (o : Nat) (s : State) : Host.Outcome State Fault Refusal :=
  whenOn s fun s =>
    if o < 8 ∧ bit s.sf.pins o = true ∧ bit s.sf.outs o = false ∧
        tblGet 0 s.sf.fell o + s.rf SF_CTL SF_CTL_PW ≤ s.time.cycles then
      ({ s.setFB SF_STAT SF_STAT_TRIG_NOW o false with sf := { s.sf with pins := clrBit s.sf.pins o, quiet := tblSet 0 s.sf.quiet o (s.time.cycles + 2) } } : State).pinsOut s
    else s

/-- The message event of a TRIGIN edge (R250, R253). -/
def State.triginMsg (s : State) (i sub : Nat) (froze : Bool) : TrigMsg :=
  let beam := (List.range 16).find? (bit s.matrix)
  { seq := 0, trig := false, atc := s.now, sub := sub, first := 0, all := 0, tin := 2 ^ i, src := s.matrix, extra := 0, loss := false
    unchecked := false, froze := froze, power := (beam.map s.tbPower).getD 0, base := (beam.map fun t => (s.tb t).base / 256).getD 0
    uses := [], usesOld := [], ready := true }

/-- TRIGIN_EDGE: an edge to the active level is timestamped, and is a freeze event and a message event where it is selected (R245, R246, R250, R259). -/
def execTriginEdge (i : Nat) (asserted : Bool) (sub : Nat) (s : State) : Host.Outcome State Fault Refusal :=
  whenOn s fun s =>
    if 4 ≤ i then s
    else
      let s1 := { s with sf := { s.sf with tin := if asserted != bit (s.trigin i) 3 then setBit s.sf.tin i else clrBit s.sf.tin i } }
      if !asserted || s.triginFunc i == 0 then s1
      else
        let s2 := (s1.setReg64 (SF_TI_ATC_LO i) s.now).setF SF_TI_SUB ⟨8 * i, 4⟩ sub
        let sel := s.freezesOn 0 (2 ^ i)
        let s3 := if sel then s2.freeze s.now else s2
        if bit (s.trigin i) 2 then s3.msgEvent (s.triginMsg i (sub % 16) (sel && s.ubFreezable)) else s3

/-! ### Messages (R250 to R252) -/

/-- MESSAGE_SPAN_END: the follow-on message is sent and opens a span, or the span closes; with no message port none is formed (R250). -/
def execMessageSpanEnd (s : State) : Host.Outcome State Fault Refusal :=
  whenOn s fun s =>
    if !s.sf.span then s
    else
      match s.sf.follow with
      | none => { s with sf := { s.sf with span := false } }
      | some m =>
        let s1 := { s with sf := { s.sf with follow := none } }
        if s.rf SF_CTL SF_CTL_MSG_PORTS = 0 ∨ s.msgsHeld m.atc = true then { s1 with sf := { s1.sf with span := false } } else
        ((s1.bump SF_COALESCED).seen SF_STAT SF_STAT_COALESCE_SEEN evSaffron).trigSend m

/-- Mark a waiting message ready. -/
def State.msgReady (s : State) (q : Nat) (unchecked : Bool) : State :=
  s.trigFlush (s.sf.msgs.map fun m => if m.seq = q ∧ m.ready = false then { m with ready := true, unchecked := unchecked } else m)

/-- MESSAGE_CHECK_DONE (R251). -/
def execMessageCheckDone (q : Nat) (s : State) : Host.Outcome State Fault Refusal :=
  whenOn s fun s =>
    if s.sf.msgs.any fun m => m.seq == q && s.usesChecked m then s.msgReady q false else s

/-- MESSAGE_CHECK_TIMEOUT: the bound passes with a check block missing (R251). -/
def execMessageCheckTimeout (q : Nat) (s : State) : Host.Outcome State Fault Refusal :=
  whenOn s fun s =>
    if s.sf.msgs.any fun m => m.seq == q && !s.usesChecked m then s.msgReady q true else s

/-! ### Slabs (R255 to R258) -/

/-- A sample of a slab that no store holds: replaced by 0. -/
def smpGone (t : Nat) : Smp := { t := t, v := 0, loss := true, crc := false, chk := false, ecc := false }

/-- The samples of one list entry in a slab, as Saffron received them (R255). -/
def State.slabSamples (s : State) (x : Slab) (p : Nat) : List Smp :=
  (List.range 256).map fun i => (smpAt (s.sfStore x.old) p (x.atc + i)).getD (smpGone (x.atc + i))

/-- A path's block of a slab: 12-bit samples as one little-endian bit string (R255). -/
def pathBlock (xs : List Smp) : List Byte := le 384 ((xs.zipIdx.map fun x => toBits 12 x.1.v * 2 ^ (12 * x.2)).sum)

/-- The path blocks of a slab, in list order. -/
def State.slabBlocks (s : State) (x : Slab) : List Byte := s.ubPaths.flatMap fun p => pathBlock (s.slabSamples x p)

/-- The mask of list entries that a test holds for. -/
def State.slabMask (s : State) (f : Nat → Bool) : Nat := (s.ubPaths.zipIdx.map fun p => if f p.1 then 2 ^ p.2 else 0).sum

/-- The 64-byte trailer of a slab (R256). -/
def State.slabTrailer (s : State) (x : Slab) : List Byte :=
  le 8 x.atc ++ le 2 (s.rf SF_UB_GEN SF_UB_GEN_GEN) ++ le 2 s.ubPaths.length ++ le 4 (b2n x.dropped + 2 * b2n x.newgen + 4 * b2n x.freeze) ++
    le 6 (s.slabMask fun p => (s.slabSamples x p).any (·.loss)) ++ le 6 (s.slabMask fun p => (s.slabSamples x p).any (·.crc)) ++
    le 4 s.sf.slabSeq ++ le 4 (crc32c (s.slabBlocks x)) ++ le 28 0

/-- Every check block that covers a slab has been checked, or can no longer come (R257). -/
def State.slabChecked (s : State) (x : Slab) : Bool :=
  s.ubPaths.all fun p => (List.range 256).all fun i => coveredIn (s.sfStore x.old) true p (x.atc + i)

/-- SPAN after a slab is written: one more up to LEN, or 1 after a break in array time (R257). -/
def State.spanNext (s : State) (a len : Nat) : Nat :=
  if s.sf.lastWrit = some (a - 256) ∧ 256 ≤ a then min len ((s.reg SF_UB_SPAN).toNat + 1) else 1

/-- The ring is frozen after its last slab; one from before an epoch load is the last only where no slab is filled any more (R53, R259). -/
def State.ubFreezeEnd (s : State) (x : Slab) : State :=
  if s.sf.lastSlab = some x.atc ∧ s.ubState = ubPost ∧ (x.old = false ∨ s.sf.fillAt = none) then s.ubFrozenNow else s

/-- Write a slab at its slot, or the trailer alone when it found no room (R257, R258). -/
def State.slabWrite (s : State) (x : Slab) : State :=
  let len := s.rf SF_UB_LEN SF_UB_LEN_LEN
  let wr := (s.reg SF_UB_WR).toNat
  let at_ := s.reg64 SF_UB_BASE_LO + wr * slabBytes s.ubPaths.length
  let s1 := if x.dropped then ((s.bump SF_UB_DROPS).seen SF_UB_STAT SF_UB_STAT_DROP_SEEN evSaffron) else s.drStore at_ (s.slabBlocks x)
  let s2 := s1.drStore (at_ + 384 * s.ubPaths.length) (s.slabTrailer x)
  let s3 := (s2.setReg SF_UB_WR (w32 (if wr + 1 < len then wr + 1 else 0))).setReg SF_UB_SPAN (w32 (s.spanNext x.atc len))
  { s3 with sf := { s3.sf with slabSeq := (s.sf.slabSeq + 1) % 2 ^ 32, lastWrit := some x.atc } }.ubFreezeEnd x

/-- UMBER_SLAB_WRITE: the oldest slab, once it has been checked (R257). -/
def execUmberSlabWrite (s : State) : Host.Outcome State Fault Refusal :=
  whenOn s fun s =>
    match s.sf.slabs with
    | [] => s
    | x :: xs =>
      if s.slabChecked x then ({ s with sf := { s.sf with slabs := xs } }.slabWrite x).ubTurns else s

/-! ### Rearm and host commits (R260 to R262) -/

/-- A rearm of a FROZEN ring: any held change applies under the second case of R261. DEDUCED: the rearm itself makes SPAN 0, so the change cuts nothing from it. -/
def State.rearm (s : State) : State :=
  let s1 := match s.sf.held with
    | some c => { s.ubWrite c with sf := { s.sf with held := none } }.setReg SF_UB_WR 0
    | none => s.setReg SF_UB_WR (s.reg SF_UB_FRZ_WR)
  let s2 := ((s1.setReg SF_UB_SPAN 0).ubGen).setF SF_UB_STAT SF_UB_STAT_CHG_HELD 0
  if s2.flag SF_UB_CTL SF_UB_CTL_EN then
    let s3 := s2.setF SF_UB_STAT SF_UB_STAT_STATE ubRunning
    { s3 with sf := { s3.sf with fillAt := some (cdiv s3.sl.next 256 * 256), lastSlab := none } }
  else s2.ubStop

/-- SF_UB_ARM (R260). -/
def execSfUbArm (v : Word) (s : State) : Host.Outcome State Fault Refusal :=
  whenOn s fun s => if bit v.toNat 0 && s.ubState == ubFrozen then s.rearm else s

/-- SF_UB_LEN: commits base and length as one change, at the first spectrum boundary at least 10 µs later; a ring that breaks R262 is ignored and logged (R261, R262). -/
def State.ubLenWrite (s : State) (r : Requester) (v : Word) : State :=
  let half := fun off => ((tblGet none s.staged (pairKey r off)).getD (s.reg off)).toNat
  let base := half SF_UB_BASE_LO + 2 ^ 32 * half SF_UB_BASE_HI
  let len := fget v SF_UB_LEN_LEN
  if s.ringOk base len (slabBytes s.ubPaths.length) then
    s.ubCommit (spectrumAt (s.now + s.periods 100)) 0 { base := base, len := len, sel := none, ctl := none }
  else s.violation (avSrc r) avUmber SF_UB_LEN v.toNat

/-- SF_UB_LEN_WRITE. -/
def execSfUbLenWrite (r : Requester) (v : Word) (s : State) : Host.Outcome State Fault Refusal := whenOn s fun s => s.ubLenWrite r v

/-! ### Commands (R264) -/

/-- A unit's M of G or more, or a first path that is not a multiple of G (R263). -/
def unitBad (off : Nat) (w : Word) : Bool :=
  (List.range 8).any (fun u => SF_CU_CTL u == off) &&
    (decide (8 * 2 ^ fget w SF_CU_CTL_GSZ ≤ fget w SF_CU_CTL_M) || fget w SF_CU_CTL_FIRST % (8 * 2 ^ fget w SF_CU_CTL_GSZ) != 0)

/-- The payload of SF_TRIG_CONFIG is refused: an undefined encoding, or a message port without PREEMPT (R18, R280). -/
def State.trigBad (s : State) (c : Cmd) : Option Bad :=
  match ((trigRegs.zip (c.payload.drop 2)).zipIdx.find? fun p => badImage p.1.1 p.1.2 || unitBad p.1.1 p.1.2) with
  | some p => some ⟨stBadParam, p.2 + 2, []⟩
  | none => badIf ((List.range 4).any fun n => bit (fget (c.w 2) SF_CTL_MSG_PORTS) n && !s.flag (ET_P_CTL n) ET_P_CTL_PREEMPT) 2

/-- A change of the trigger configuration is queued or has not yet applied (R264). -/
def State.trigQueued (s : State) : Bool := s.events.any (fun e => e.op == 0x0601) || !s.sf.cfgs.isEmpty

/-- A trigger configuration fires at boundary b (R254). -/
def State.applyTrig (s : State) (b : Nat) (c : Cmd) : State := { s with sf := { s.sf with cfgs := s.sf.cfgs ++ [(b, c.payload.drop 2)] } }

/-- SF_TBP_LOAD: writes the pending table (R264). -/
def execSfTbpLoad (c : Cmd) (s : State) : Host.Outcome State Fault Refusal :=
  .next (s.command 0x0602 c
    (fun _ =>
      let n := (c.w 1).toNat
      (needLenIn 2 1002 c).or ((badIf (n == 0 || decide (1000 < n)) 1).or ((needLen (2 + n) c).or
        ((badIf (decide (8192 < c.f 0 12 0 + n)) 1).or
          (match (c.payload.drop 2).zipIdx.find? fun w => badImage (SF_TBP 0) w.1 with
           | some w => some ⟨stBadParam, w.2 + 2, []⟩
           | none => none)))))
    fun s =>
      if s.trigQueued then bad stResourceBusy []
      else .ok [] (s.configAll ((c.payload.drop 2).zipIdx.map fun w => (SF_TBP (c.f 0 12 0 + w.2), w.1))))

/-- SF_STATUS (R264). -/
def execSfStatus (c : Cmd) (s : State) : Host.Outcome State Fault Refusal :=
  .next (s.command 0x0603 c (fun _ => needLen 0 c) fun s =>
    .ok (([SF_STAT, SF_MSGS, SF_COALESCED, SF_SEL_CLIPS] ++ (List.range 16).flatMap fun t => [SF_TB_STAT t, SF_TB_BASE t, SF_TB_FIRES t]).map s.reg) s)

/-- The change that SF_UB_CONFIG carries (R264). -/
def ubChangeOf (c : Cmd) : UbChange :=
  let n := (c.w 7).toNat
  let entry := fun i => if i < n then 2 ^ 15 + c.f (8 + i) 8 0 else 0
  { base := c.q 4, len := fget (c.w 6) SF_UB_LEN_LEN
    sel := some ((List.range 24).map fun q => w32 (entry (2 * q + 1) * 65536 + entry (2 * q)))
    ctl := some (c.w 2, c.w 3) }

/-- The parameter rules of SF_UB_CONFIG (R262, R264). -/
def State.ubBad (s : State) (c : Cmd) : Option Bad :=
  let n := (c.w 7).toNat
  let ps := (List.range n).map fun i => c.f (8 + i) 8 0
  (badIf (decide (48 < n)) 7).or ((needLen (8 + n) c).or
    ((badIf (decide (c.f 6 23 0 < c.f 3 23 0 + 2)) 3).or
      (((((List.range n).find? fun i => (ps.take i).contains (ps.getD i 0)).map fun i => (⟨stBadParam, 8 + i, []⟩ : Bad))).or
        (badIf (!s.ringOk (c.q 4) (c.f 6 23 0) (slabBytes n)) (if c.q 4 % 4096 = 0 then 6 else 4)))))

/-- The DRAM ceiling on SF_UB_CONFIG (R255). -/
def State.ubBudget (s : State) (c : Cmd) : Bool := (s.ubWrite (ubChangeOf c)).drC1Ok

/-- SF_UB_REARM (R264). -/
def execSfUbRearm (c : Cmd) (s : State) : Host.Outcome State Fault Refusal :=
  .next (s.command 0x0605 c (fun _ => needLen 0 c) fun s =>
    if s.ubState = ubFrozen then .ok [] s.rearm else bad stWrongState [])

/-- SF_UB_STATUS (R264). -/
def execSfUbStatus (c : Cmd) (s : State) : Host.Outcome State Fault Refusal :=
  .next (s.command 0x0606 c (fun _ => needLen 0 c) fun s =>
    .ok ([SF_UB_STAT, SF_UB_WR, SF_UB_SPAN, SF_UB_GEN, SF_UB_FRZ_ATC_LO, SF_UB_FRZ_ATC_HI, SF_UB_FRZ_WR, SF_UB_FRZ_SPAN, SF_UB_DROPS,
      SF_UB_FRZ_IGN, SF_UB_CUT].map s.reg) s)

/-- The counters of the SF block (R263). -/
def sfCounters : List Nat :=
  [SF_MSGS, SF_COALESCED, SF_SEL_CLIPS, SF_UB_DROPS, SF_UB_FRZ_IGN, SF_UB_CUT] ++ (List.range 16).map SF_TB_FIRES ++ (List.range 8).map SF_CU_FIRES

/-- SF_CNT_CLR.ALL (R263). -/
def execSfCntClrAll (s : State) : Host.Outcome State Fault Refusal := whenOn s fun s => s.clearCounters sfCounters

end Sys2Proof.Machine
end

