-- ==== Sys2Proof/Machine/Timing.lean ====
section
/-! DEFINITION. The timing core: qualification, selection and switching, holdover, the outputs, the PTP domains and clock, and the timing commands (R300 to R325). -/

namespace Sys2Proof.Machine

/-! ### Sources and their measurements (R300 to R304) -/

/-- A source of which nothing has been measured. -/
def src0 : SrcSt := { offs := [], edges := [], cur := [], present := false, whole := false, calm := 0, coarse := false }

/-- Source `k`. -/
def State.source6 (s : State) (k : Nat) : SrcSt := tblGet src0 s.tm.src k

/-- Replace source `k`. -/
def State.setSource (s : State) (k : Nat) (x : SrcSt) : State := { s with tm := { s.tm with src := tblSet src0 s.tm.src k x } }

/-- The QSTATE values of R306. -/
def qOff : Nat := 0
def qAbsent : Nat := 1
def qQualifying : Nat := 2
def qQualified : Nat := 3
def qSoft : Nat := 4
def qDisq : Nat := 5
def qWtr : Nat := 6

/-- QSTATE of source `k`. -/
def State.qstate (s : State) (k : Nat) : Nat := s.rf (TM_SRC_STAT k) TM_SRC_STAT_QSTATE

/-- The source's PPS is used (R300). -/
def State.usesPps (s : State) (k : Nat) : Bool := decide (4 ≤ k) || s.flag (TM_SRC_CTL k) TM_SRC_CTL_PPS_EN

/-- Enter a qualification state with its count (R306). -/
def State.enterQ (s : State) (k q left : Nat) : State :=
  (s.setF (TM_SRC_STAT k) TM_SRC_STAT_QSTATE q).setF (TM_SRC_STAT k) TM_SRC_STAT_LEFT left

/-- QUAL of a source. -/
def State.qual (s : State) (k : Nat) : Nat := s.rf (TM_SRC_CTL k) TM_SRC_CTL_QUAL

/-- A hard failure of a source in any state but OFF: DISQUALIFIED, and LEFT restarts (R306). -/
def State.hardFail (s : State) (k : Nat) : State :=
  let x := s.source6 k
  let s1 := s.setSource k { x with calm := 0, coarse := false }
  if s.qstate k = qOff then s
  else if s.qstate k = qDisq then s1.enterQ k qDisq (s.qual k)
  else ((s1.enterQ k qDisq (s.qual k)).bump (TM_SRC_DISQ k)).seen (TM_SRC_STAT k) TM_SRC_STAT_DISQ_SEEN evTiming

/-- Enter SOFT_ALARM; TM_STAT marks it for the selected source (R306, R324). -/
def State.softAlarm (s : State) (k : Nat) : State :=
  let s1 := ((s.setSource k { s.source6 k with calm := 0 }).enterQ k qSoft (s.rf (TM_SRC_TIME k) TM_SRC_TIME_PERSIST)).seen
    (TM_SRC_STAT k) TM_SRC_STAT_SOFT_SEEN evTiming
  if s.rf TM_STAT TM_STAT_SEL = k then s1.seen TM_STAT TM_STAT_SOFT_SEEN evTiming else s1

/-- Enter QUALIFIED; provisional use ends for every source (R306, R307). -/
def State.qualified (s : State) (k : Nat) : State := { s.enterQ k qQualified 0 with tm := { s.tm with anyQual := true } }

/-- Magnitude of a number. -/
def mag (x : Int) : Nat := x.natAbs

/-- 680 times the slope of the least-squares line through 16 offsets, newest first (R302): the weights are 15, 13, …, −15. -/
def slope680 : List Int → Int → Int
  | [], _ => 0
  | y :: ys, w => w * y + slope680 ys (w - 2)

/-- Drift in units of 0.01 ppb/s times 680; none until the window is full. -/
def SrcSt.drift680 (x : SrcSt) : Option Int := if x.offs.length < 16 then none else some (slope680 x.offs 15)

/-- Greatest and least of a list. -/
def maxI (a : Int) (l : List Int) : Int := l.foldl max a
def minI (a : Int) (l : List Int) : Int := l.foldl min a

/-- Peak-to-peak spread of the last 16 edges, in units of 0.3125 ns; none until the window is full, at the 16th counted gate (R302). DEDUCED: a gate may hold two edges or none where they jitter about the boundary, and a window of 16 gates with fewer edges is full all the same. -/
def SrcSt.wander (x : SrcSt) : Option Nat :=
  match x.edges with
  | [] => none
  | e :: es => if x.offs.length < 16 then none else some (mag (maxI e es - minI e es))

/-- A rounded quotient by a positive divisor, halves away from zero. -/
def roundDiv (x : Int) (d : Nat) : Int := if x < 0 then -(((mag x * 2 + d) / (2 * d) : Nat) : Int) else ((mag x * 2 + d) / (2 * d) : Nat)

/-- A measured value in two's complement of `w` bits, whose most negative code means not available; a value that it does not hold reads as the specification leaves open. -/
def measured (w which : Nat) (x : Int) : Nat := if mag x < 2 ^ (w - 1) then toBits w x else Config.overRange which x % 2 ^ w

/-- TM_SRC_OFFS and TM_SRC_DRIFT follow the measurements (R324). -/
def State.showSource (s : State) (k : Nat) : State :=
  let x := s.source6 k
  let offs := match x.offs with | [] => 2 ^ 31 | y :: _ => measured 32 0 y
  let drift := match x.drift680 with | none => 2 ^ 15 | some d => measured 16 1 (roundDiv d 680)
  let wander := match x.wander with | none => 65535 | some p => min 65534 ((5 * p + 8) / 16)
  ((s.setReg (TM_SRC_OFFS k) (w32 offs)).setF (TM_SRC_DRIFT k) TM_SRC_DRIFT_DRIFT drift).setF (TM_SRC_DRIFT k) TM_SRC_DRIFT_WANDER wander

/-! ### Qualification (R305, R306) -/

/-- clockClass of the chosen master of a PTP source (R305). -/
def State.masterClass (s : State) (k : Nat) : Option Nat :=
  let d := s.ptpDomain (k - 4)
  (d.foreign.find? fun f => some f.id == d.master).map (·.cls)

/-- What the checks of R305 find: hard, soft, drift, PPS stability and class failing; and whether every check passed. -/
structure Checks where
  hard : Bool
  soft : Bool
  drift : Bool
  pps : Bool
  cls : Bool
  lost : Bool
  all : Bool
  deriving DecidableEq, Repr

/-- The checks of a source with its measurements as they stand. -/
def State.checks (s : State) (k : Nat) : Checks :=
  let x := s.source6 k
  let off := x.offs.head?
  let hard := off.any fun y => decide (100 * s.rf (TM_SRC_LIM k) TM_SRC_LIM_HARD < mag y)
  let soft := off.any fun y => decide (100 * s.rf (TM_SRC_LIM k) TM_SRC_LIM_SOFT < mag y)
  let drift := x.drift680.any fun d => decide (6800 * s.rf (TM_SRC_TIME k) TM_SRC_TIME_DRIFT < mag d)
  let pps := s.usesPps k && x.wander.any fun p => decide (16 * s.rf (TM_SRC_PPS k) TM_SRC_PPS_PPS_LIM < 5 * p)
  let cls := decide (4 ≤ k) && (s.masterClass k).any fun c => decide (s.rf TM_PTP_CTL TM_PTP_CTL_CLASS_MAX < c)
  let lost := s.flag (TM_SRC_STAT k) TM_SRC_STAT_CLK_LOSS || s.flag (TM_SRC_STAT k) TM_SRC_STAT_PPS_LOSS
  { hard := hard, soft := soft, drift := drift, pps := pps, cls := cls, lost := lost
    all := off.isSome && x.drift680.isSome && (!s.usesPps k || x.wander.isSome) && (decide (k < 4) || (s.masterClass k).isSome) &&
      !(hard || soft || drift || pps || cls || lost) }

/-- Within 0.8 of every limit (R306). -/
def State.calmGate (s : State) (k : Nat) : Bool :=
  let x := s.source6 k
  x.offs.head?.any (fun y => decide (mag y ≤ 80 * s.rf (TM_SRC_LIM k) TM_SRC_LIM_SOFT)) &&
    x.drift680.any (fun d => decide (mag d ≤ 5440 * s.rf (TM_SRC_TIME k) TM_SRC_TIME_DRIFT)) &&
    (!s.usesPps k || x.wander.any fun p => decide (50 * p ≤ 128 * s.rf (TM_SRC_PPS k) TM_SRC_PPS_PPS_LIM))

/-- The failure bits of TM_SRC_STAT. -/
def State.showChecks (s : State) (k : Nat) (c : Checks) : State :=
  ((((s.setF (TM_SRC_STAT k) TM_SRC_STAT_SOFT_F (b2n c.soft)).setF (TM_SRC_STAT k) TM_SRC_STAT_HARD_F (b2n c.hard)).setF
    (TM_SRC_STAT k) TM_SRC_STAT_DRIFT_F (b2n c.drift)).setF (TM_SRC_STAT k) TM_SRC_STAT_PPS_F (b2n c.pps)).setF (TM_SRC_STAT k) TM_SRC_STAT_CLASS_F (b2n c.cls)

/-- LEFT counts one gate. -/
def State.leftDown (s : State) (k : Nat) : State := s.setF (TM_SRC_STAT k) TM_SRC_STAT_LEFT (s.rf (TM_SRC_STAT k) TM_SRC_STAT_LEFT - 1)

/-- SOFT_ALARM at a gate: ten calm gates in a row end it (R306). -/
def State.softGate (s : State) (k : Nat) : State :=
  let n := if s.calmGate k then (s.source6 k).calm + 1 else 0
  let s1 := s.setSource k { s.source6 k with calm := n }
  if 10 ≤ n then s1.qualified k else s1.leftDown k

/-- The qualification state of a source at a gate that counts, in the order of the rows of R306. -/
def State.qualify (s : State) (k : Nat) (c : Checks) : State :=
  if c.hard || c.cls || c.lost then s.hardFail k
  else
    let softBad := c.soft || c.drift || c.pps
    let s1 := if softBad then s.setSource k { s.source6 k with coarse := false } else s
    if s.qstate k = qQualifying ∨ s.qstate k = qDisq then
      if c.all then s1.leftDown k else s1.setF (TM_SRC_STAT k) TM_SRC_STAT_LEFT (s.qual k)
    else if s.qstate k = qQualified then (if softBad then s1.softAlarm k else s1)
    else if s.qstate k = qSoft then s1.softGate k
    else if s.qstate k = qWtr then (if c.all then s1.leftDown k else s1.hardFail k)
    else s1

/-- The signal of a source is there with no loss of R304. -/
def State.signalOk (s : State) (k : Nat) : Bool := (s.source6 k).present && !s.flag (TM_SRC_STAT k) TM_SRC_STAT_PPS_LOSS

/-- A gate that does not count for a source: the checks are made, and a hard failure acts; it is none of the gates that QUAL, PERSIST or WTR count (R302, R305). -/
def State.idleGate (s : State) (k : Nat) : State :=
  let c := s.checks k
  let s1 := s.showChecks k c
  if c.hard || c.cls || c.lost then s1.hardFail k else s1

/-- A gate of one source (R302): it counts only if the signal was present throughout, with no loss. -/
def State.sourceGate (s : State) (k : Nat) (off : Int) : State :=
  let x := s.source6 k
  if s.qstate k = qOff then s.setSource k { x with cur := [], whole := s.signalOk k }
  else if s.qstate k = qAbsent ∨ !x.whole then (s.setSource k { x with cur := [], whole := s.signalOk k }).idleGate k
  else
    let y := { x with offs := (off :: x.offs).take 16, cur := [], whole := s.signalOk k, edges := (x.cur ++ x.edges).take 16 }
    let s1 := (s.setSource k y).showSource k
    (s1.showChecks k (s1.checks k)).qualify k (s1.checks k)

/-! ### Selection (R307 to R310) -/

/-- Provisionally usable (R307). -/
def State.provisional (s : State) (k : Nat) : Bool := !s.tm.anyQual && s.qstate k == qQualifying && (s.source6 k).coarse

/-- PRIO of a source. -/
def State.srcPrio (s : State) (k : Nat) : Nat := s.rf (TM_SRC_CTL k) TM_SRC_CTL_PRIO

/-- The source of a kind with the lowest PRIO, a tie going to the lower index. -/
def State.bestOf (s : State) (p : Nat → Bool) (ks : List Nat) : Option Nat :=
  ks.foldl (fun a k => if p k then (match a with | some j => if s.srcPrio k < s.srcPrio j then some k else some j | none => some k) else a) none

/-- Rule 1 of R308. -/
def State.manualPick (s : State) : Option Nat :=
  let m := s.rf TM_CTL TM_CTL_MSEL
  if s.flag TM_CTL TM_CTL_MANUAL && decide (m < 6) && (s.qstate m == qQualified || s.qstate m == qSoft) then some m else none

/-- Rules 1 to 4 of R308. -/
def State.srcPick (s : State) : Option Nat :=
  let ks := List.range 6
  s.manualPick.or ((s.bestOf (fun k => s.qstate k == qQualified) ks).or
    ((s.bestOf (fun k => s.qstate k == qSoft) ks).or (s.bestOf s.provisional ks)))

/-- What selection yields, REVERT counted: without it a usable selected source is left only for the manual source. -/
def State.srcWant (s : State) : Option Nat :=
  let sel := s.rf TM_STAT TM_STAT_SEL
  if !s.flag TM_CTL TM_CTL_REVERT && decide (sel < 6) && (s.qstate sel == qQualified || s.qstate sel == qSoft) then
    some (s.manualPick.getD sel)
  else s.srcPick

/-- The core's states of R309. -/
def coreFreeRun : Nat := 0
def coreLocked : Nat := 1
def coreSwitching : Nat := 2
def coreHoldover : Nat := 3

/-- The core's state. -/
def State.core (s : State) : Nat := s.rf TM_STAT TM_STAT_CORE

/-- Holdover training starts again from 0 (R313). -/
def State.untrain (s : State) : State :=
  { s with tm := { s.tm with counted := [] } }.setF TM_HO_STAT TM_HO_STAT_TRAINED 0 |>.setF TM_HO_STAT TM_HO_STAT_TRAIN_S 0

/-- Holdover is trained (R313). -/
def State.trained (s : State) : Bool := s.flag TM_HO_STAT TM_HO_STAT_TRAINED

/-- Integer square root, rounded down, by `k` binary digits. -/
def isqrt (n : Nat) : Nat → Nat → Nat
  | 0, r => r
  | k + 1, r => if (r + 2 ^ k) * (r + 2 ^ k) ≤ n then isqrt n k (r + 2 ^ k) else isqrt n k r

/-- Integer square root of any number. -/
def sqrtN (n : Nat) : Nat := isqrt n (n.log2 / 2 + 1) 0

/-- 300 Σx² − (Σx)² over 300 offsets x in 0.01 ppb, at least 3,000,000 (R313): u is the square root of its 30,000th part, in 0.001 ppb, and 0.01 ppb at least. -/
def holdoverV (l : List Int) : Nat := max 3000000 (300 * (l.map fun x => x * x).sum - l.sum * l.sum).toNat

/-- u in units of 0.001 ppb, to the nearest unit (R313, R324). -/
def holdoverU (l : List Int) : Nat := (sqrtN (4 * holdoverV l / 30000) + 1) / 2

/-- Enter HOLDOVER, or FREE_RUN where it is not trained (R308 rule 5, R314, R315). -/
def State.noSource (s : State) : State :=
  let s1 := (((s.setF TM_STAT TM_STAT_SEL 7).setF TM_STAT TM_STAT_SWITCH_QUEUED 0).setF TM_STAT TM_STAT_PROVISIONAL 0)
  if s.trained then
    let s2 := { s1 with tm := { s1.tm with fh := s1.tm.counted.sum, e0 := mag s1.tm.phase, hoT := 0, hoV := holdoverV s1.tm.counted, hoOver := false, delta := none } }.untrain
    ((s2.setF TM_STAT TM_STAT_CORE coreHoldover).setReg TM_HO_ERR (w32 (s2.tm.e0 / 1000))).seen TM_STAT TM_STAT_HO_SEEN evTiming
  else
    ((({ s1 with tm := { s1.tm with delta := none } }.untrain).setF TM_STAT TM_STAT_CORE coreFreeRun).setReg TM_HO_ERR 0xFFFFFFFF).seen
      TM_STAT TM_STAT_FREE_RUN_SEEN evTiming

/-- Go over to a source: a transition of R311, or the lock of R310 while the ATC is not RUNNING. Without a PPS Δ is 0. -/
def State.switchTo (s : State) (k : Nat) : State :=
  let s1 := { s with tm := { s.tm with initial := !s.running, calm := 0, delta := if s.usesPps k then none else some 0 } }
  let s2 := (((s1.setF TM_STAT TM_STAT_CORE coreSwitching).setF TM_STAT TM_STAT_SEL k).setF TM_STAT TM_STAT_SWITCH_QUEUED 0).setReg TM_HO_ERR 0
  if s.usesPps k then s2 else s2.setF TM_STAT TM_STAT_BUILD_OUT 0

/-- Go where selection says. -/
def State.goTo (s : State) : Option Nat → State
  | some k => s.switchTo k
  | none => s.noSource

/-- The transition's target has not failed (R312). -/
def State.targetOk (s : State) (k : Nat) : Bool :=
  s.qstate k == qQualified || s.qstate k == qSoft || (s.qstate k == qQualifying && (s.source6 k).coarse)

/-- Selection runs (R308, R312). -/
def State.reselect (s : State) : State :=
  let sel := s.rf TM_STAT TM_STAT_SEL
  let w := s.srcWant
  if s.core = coreSwitching then
    if s.targetOk sel then s.setF TM_STAT TM_STAT_SWITCH_QUEUED (b2n (w != some sel)) else s.goTo w
  else if s.core = coreLocked then (if w = some sel then s else s.goTo w)
  else
    match w with
    | some k => s.switchTo k
    | none => s

/-- The PTP domain that steers the clock: 0 none, 1 A, 2 B (R322). -/
def State.steerPick (s : State) : Nat :=
  let sel := s.rf TM_STAT TM_STAT_SEL
  if sel = 4 ∨ sel = 5 then sel - 3
  else match s.bestOf (fun k => s.qstate k == qQualified) [4, 5] with | some k => k - 3 | none => 0

/-- The steering domain follows; a change between the domains captures B (R322). -/
def State.steer (s : State) : State :=
  let old := s.rf TM_PTP_STAT TM_PTP_STAT_STEER
  let new := s.steerPick
  if old = new then s
  else
    let s1 := s.setF TM_PTP_STAT TM_PTP_STAT_STEER new
    if old = 0 ∨ new = 0 then { s1 with tm := { s1.tm with b := 0 } }
    else
      { s1 with tm := { s1.tm with b := (s.ptpDomain (new - 1)).offs - (s.ptpDomain (old - 1)).offs } }.seen
        TM_PTP_STAT TM_PTP_STAT_DOMAIN_SWITCH_SEEN evTiming

/-- LOCKED on a QUALIFIED source (R313). -/
def State.lockedQual (s : State) : Bool := s.core == coreLocked && s.qstate (s.rf TM_STAT TM_STAT_SEL) == qQualified

/-- After a change of a source's state: selection, PROVISIONAL, steering and the training gate (R307, R308, R313, R322). -/
def State.tmChange (s : State) : State :=
  let s1 := s.reselect
  let sel := s1.rf TM_STAT TM_STAT_SEL
  let s2 := (s1.setF TM_STAT TM_STAT_PROVISIONAL (b2n (decide (sel < 6) && s1.qstate sel == qQualifying))).steer
  { s2 with tm := { s2.tm with whole := s2.tm.whole && s2.lockedQual } }

/-! ### Holdover (R313, R314) -/

/-- A counted second of holdover training (R313). -/
def State.trainGate (s : State) (base : Int) : State :=
  let l := (base :: s.tm.counted).take 300
  let n := min 16383 (s.rf TM_HO_STAT TM_HO_STAT_TRAIN_S + 1)
  let s1 := { s with tm := { s.tm with counted := l } }.setF TM_HO_STAT TM_HO_STAT_TRAIN_S n
  if 300 ≤ n then (s1.setF TM_HO_STAT TM_HO_STAT_TRAINED 1).setF TM_HO_STAT TM_HO_STAT_U (min 65535 (holdoverU l)) else s1

/-- E(t) less its part u × t, in units of 1 / 17,280,000 ns (R314): E0 is held in ps, and AGE in 0.01 ppb per day gives 0.5 × a = AGE / 17,280,000 ns/s². -/
def State.hoBase (s : State) (t : Nat) : Nat := s.tm.e0 * 17280 + s.rf TM_HO_CFG TM_HO_CFG_AGE * t * t

/-- 30,000 times the square of u × t in those units: u is the square root of `hoV` / 30,000, in 0.001 ppb (R313). -/
def State.hoUt (s : State) (t : Nat) : Nat := 17280 * 17280 * t * t * s.tm.hoV

/-- E(t) in those units, rounded down (R314). -/
def State.hoE (s : State) (t : Nat) : Nat := s.hoBase t + sqrtN (s.hoUt t / 30000)

/-- SPEC in the units of `hoE`. -/
def State.hoSpec (s : State) : Nat := s.rf TM_HO_CFG TM_HO_CFG_SPEC * 10 * 17280000

/-- E(t) exceeds SPEC (R314). -/
def State.hoPast (s : State) (t : Nat) : Bool :=
  decide (s.hoSpec < s.hoBase t) || decide (30000 * ((s.hoSpec - s.hoBase t) * (s.hoSpec - s.hoBase t)) < s.hoUt t)

/-- A gate in HOLDOVER: the first at which E(t) exceeds SPEC sets HO_EXCEEDED and is logged (R314). -/
def State.holdGate (s : State) : State :=
  let t := s.tm.hoT + 1
  let e := s.hoE t / 17280000
  let s1 := { s with tm := { s.tm with hoT := t, hoOver := s.tm.hoOver || s.hoPast t } }.setReg TM_HO_ERR (w32 (min (2 ^ 32 - 1) e))
  if s.hoPast t ∧ !s.tm.hoOver then
    (s1.seen TM_STAT TM_STAT_HO_EXCEEDED evTiming).logEvent 0x0801 1 [w32 e, w32 t]
  else s1

/-- The greatest t below 2^32 with E(t) ≤ SPEC. -/
def State.hoReach (s : State) : Nat → Nat → Nat
  | 0, r => r
  | k + 1, r => if s.hoPast (r + 2 ^ k) then s.hoReach k r else s.hoReach k (r + 2 ^ k)

/-- Seconds until E(t) reaches SPEC (R325). -/
def State.hoLeft (s : State) : Nat := if s.core = coreHoldover then s.hoReach 32 0 - s.tm.hoT else 2 ^ 32 - 1

/-! ### Gates (R302, R303) -/

/-- A source whose registers have changed from those of `old`: OFF without EN, ABSENT where it was OFF or its FREQ or PPS_EN changed (R306, R325). -/
def State.sourceFollow (s : State) (old : State) (k : Nat) : State :=
  let changed := old.rf (TM_SRC_FREQ k) TM_SRC_FREQ_FREQ != s.rf (TM_SRC_FREQ k) TM_SRC_FREQ_FREQ ||
    old.rf (TM_SRC_CTL k) TM_SRC_CTL_PPS_EN != s.rf (TM_SRC_CTL k) TM_SRC_CTL_PPS_EN
  let clear := fun (s : State) => (s.setSource k src0).showSource k
  if !s.flag (TM_SRC_CTL k) TM_SRC_CTL_EN then (clear s).setReg (TM_SRC_STAT k) (s.reg (TM_SRC_STAT k) &&& 0x00300000)
  else if s.qstate k = qOff ∨ changed then
    ((clear s).setReg (TM_SRC_STAT k) (s.reg (TM_SRC_STAT k) &&& 0x00300000)).setF (TM_SRC_STAT k) TM_SRC_STAT_QSTATE qAbsent
  else s

/-- A TM_SRC_CONFIG takes effect (R325). -/
def State.applySource (s : State) (k : Nat) (ws : List Word) : State :=
  (s.configAll ([TM_SRC_CTL k, TM_SRC_FREQ k, TM_SRC_LIM k, TM_SRC_TIME k, TM_SRC_PPS k].zip ws)).sourceFollow s k

/-- Every TM_SRC_CONFIG that waits takes effect. -/
def State.applySources (s : State) : State :=
  let s1 := s.tm.cfgs.foldl (fun s c => s.applySource c.1 c.2) s
  { s1 with tm := { s1.tm with cfgs := [] } }

/-- B shrinks towards 0 by at most SLEW ns a second (R322). -/
def shrink (b : Int) (n : Nat) : Int := if b < 0 then min 0 (b + n) else max 0 (b - n)

/-- Step 5 of R311 counts a gate. -/
def State.switchGate (s : State) (phase ferr : Int) : State :=
  if s.core = coreSwitching ∧ !s.tm.initial then
    { s with tm := { s.tm with calm := if s.tm.delta.isSome && decide (mag phase ≤ 1000) && decide (mag ferr ≤ 10) then s.tm.calm + 1 else 0 } }
  else s

/-- The time of domain `d` in units of 10^-9 ns: the PTP clock less the filtered offset (R300). -/
def State.domTime (s : State) (d : Nat) : Int := (s.tm.ptp : Int) - (s.ptpDomain d).filt * 10 ^ 9

/-- The mean offset of PTPA or PTPB over the gate in progress, in units of 0.01 ppb: the run of the domain's time against the time base, and the time base's own offset against LOCOSC (R300, R302). -/
def State.virtualOffset (s : State) (d : Nat) (base : Int) : Int :=
  let len : Nat := (s.time.cycles - s.tm.gateAt) * (5 * 10 ^ 8)
  base + roundDiv ((s.domTime d - (s.ptpDomain d).virt - (len : Int)) * 10 ^ 11) (max 1 len)

/-- The offset of source `k` over a gate: measured for REFA to REFD, and that of the virtual clock for PTPA and PTPB. -/
def State.gateOffset (s : State) (offs : List Int) (base : Int) (k : Nat) : Int := if k < 4 then offs.getD k 0 else s.virtualOffset (k - 4) base

/-- The next gate begins. -/
def State.gateBegin (s : State) : State :=
  let s1 := [0, 1].foldl (fun s d => s.setDom d { s.ptpDomain d with virt := s.domTime d }) s
  { s1 with tm := { s1.tm with gateAt := s1.time.cycles } }

/-- A gate closes: the offsets of REFA to REFD over it and the time base's, in units of 0.01 ppb, the residual phase in ps and the frequency error in units of 0.01 ppb (R302, R305, R311, R313, R314). -/
def State.gate (s : State) (offs : List Int) (base phase ferr : Int) : State :=
  let s1 := s.applySources
  let s2 := ((List.range 6).foldl (fun t k => t.sourceGate k (s.gateOffset offs base k)) s1).gateBegin
  let s3 := (({ s2 with tm := { s2.tm with phase := phase } }).switchGate phase ferr)
  let s4 := if s.tm.whole && s3.lockedQual then s3.trainGate base else s3
  let s5 := if s4.core = coreHoldover then s4.holdGate else s4
  let s6 := { s5 with tm := { s5.tm with b := shrink s5.tm.b (s5.rf TM_CTL TM_CTL_SLEW) } }.tmChange
  { s6 with tm := { s6.tm with whole := s6.lockedQual } }

/-- The second grid moves: the positions of held edges are expressed against the new one (R303). -/
def State.gridMove (s : State) (move : Int) : State :=
  (List.range 6).foldl (fun s k =>
    let x := s.source6 k
    s.setSource k { x with edges := x.edges.map (· - move), cur := x.cur.map (· - move) }) s

/-- Where the time base stands on its second grid, in units of which a Saffron cycle has 8 times RATE_N and a second 2 × 10^9 cycles: by the ATC while it is RUNNING, else by the run of the timing core (R303, R317). -/
def State.gridUnit (s : State) : Nat := if s.running then s.time.rateN else 1
def State.gridPos (s : State) : Int :=
  if s.running then 8 * (((s.time.atc : Int) - s.time.epoch) * 200 + s.time.phase) else 8 * (s.time.cycles : Int) - s.tm.grid

/-- The instant `late` sixteenths of a ns after a second boundary has come in this Saffron cycle. -/
def State.boundaryPast (s : State) (late : Int) : Bool :=
  decide ((s.gridPos - late * s.gridUnit) % (16000000000 * max 1 s.gridUnit : Nat) < 8 * max 1 s.gridUnit)

/-- GATE_CLOSE, at a second boundary of the time base (R302, R303). -/
def execGateClose (offs : List Int) (base phase ferr : Int) (s : State) : Host.Outcome State Fault Refusal :=
  whenOn s fun s => if s.boundaryPast 0 ∧ s.tm.gateAt < s.time.cycles then s.gate offs base phase ferr else s

/-! ### Events of the sources (R304 to R307) -/

/-- QUAL_COUNT_REACHED (R306). -/
def execQualCountReached (k : Nat) (s : State) : Host.Outcome State Fault Refusal :=
  whenOn s fun s =>
    if 6 ≤ k ∨ s.rf (TM_SRC_STAT k) TM_SRC_STAT_LEFT ≠ 0 then s
    else if s.qstate k = qQualifying then (s.qualified k).tmChange
    else if s.qstate k = qDisq then (s.enterQ k qWtr (max 1 (s.rf (TM_SRC_TIME k) TM_SRC_TIME_WTR))).tmChange
    else s

/-- PERSIST_EXPIRE (R306). -/
def execPersistExpire (k : Nat) (s : State) : Host.Outcome State Fault Refusal :=
  whenOn s fun s =>
    if k < 6 ∧ s.qstate k = qSoft ∧ s.rf (TM_SRC_STAT k) TM_SRC_STAT_LEFT = 0 then (s.hardFail k).tmChange else s

/-- WTR_EXPIRE (R306). -/
def execWtrExpire (k : Nat) (s : State) : Host.Outcome State Fault Refusal :=
  whenOn s fun s =>
    if k < 6 ∧ s.qstate k = qWtr ∧ s.rf (TM_SRC_STAT k) TM_SRC_STAT_LEFT = 0 then (s.qualified k).tmChange else s

/-- A signal is lost: its measurements restart when it returns (R302, R304, R312). -/
def State.signalLost (s : State) (k : Nat) (f : Fld) : State :=
  ((s.setSource k { s.source6 k with offs := [], edges := [], cur := [], whole := false }).showSource k
    |>.setF (TM_SRC_STAT k) f 1 |>.hardFail k).tmChange

/-- REF_CLOCK_LOSS (R304). -/
def execRefClockLoss (k : Nat) (s : State) : Host.Outcome State Fault Refusal :=
  whenOn s fun s =>
    if k < 4 ∧ s.qstate k ≠ qOff then
      (s.setSource k { s.source6 k with present := false }).signalLost k TM_SRC_STAT_CLK_LOSS
    else s

/-- PPS_LOSS (R304). -/
def execPpsLoss (k : Nat) (s : State) : Host.Outcome State Fault Refusal :=
  whenOn s fun s =>
    if k < 6 ∧ s.qstate k ≠ qOff ∧ s.usesPps k then s.signalLost k TM_SRC_STAT_PPS_LOSS else s

/-- SOURCE_SIGNAL_PRESENT (R304, R306). -/
def execSourceSignalPresent (k : Nat) (s : State) : Host.Outcome State Fault Refusal :=
  whenOn s fun s =>
    if 6 ≤ k ∨ s.qstate k = qOff ∨ (s.source6 k).present ∨ (4 ≤ k ∧ (s.ptpDomain (k - 4)).master = none) then s
    else
      let s1 := (s.setSource k { s.source6 k with present := true }).setF (TM_SRC_STAT k) TM_SRC_STAT_CLK_LOSS 0
      if s.qstate k = qAbsent then (s1.enterQ k qQualifying (s.qual k)).tmChange else s1

/-- COARSE_FREQ_DONE: the offset that the 10 ms measurement found, in units of 0.01 ppb (R307). -/
def execCoarseFreqDone (k : Nat) (off : Int) (s : State) : Host.Outcome State Fault Refusal :=
  whenOn s fun s =>
    if k < 6 ∧ s.qstate k = qQualifying ∧ (s.source6 k).offs = [] ∧ mag off ≤ 100 * s.rf (TM_SRC_LIM k) TM_SRC_LIM_HARD then
      (s.setSource k { s.source6 k with coarse := true }).tmChange
    else s

/-! ### Locking and switching (R310, R311) -/

/-- A phase step moves the grid by `move` units of 0.3125 ns (R303, R310). -/
def State.phaseStep (s : State) (move : Int) : State := let t := s.gridMove move; { t with tm := { t.tm with grid := t.tm.grid + 5 * move } }

/-- INITIAL_LOCK_DONE: the core may have stepped the phase by `move`, which closes a short gate (R303, R310). -/
def execInitialLockDone (offs : List Int) (base phase ferr move : Int) (s : State) : Host.Outcome State Fault Refusal :=
  whenOn s fun s =>
    if s.core = coreSwitching ∧ s.tm.initial then
      let s1 := if move = 0 then s else (s.gate offs base phase ferr).phaseStep move
      if s1.core = coreSwitching ∧ s1.rf TM_STAT TM_STAT_SEL = s.rf TM_STAT TM_STAT_SEL then
        (((s1.setF TM_STAT TM_STAT_CORE coreLocked).setF TM_STAT TM_STAT_SWITCH_QUEUED 0).setF TM_STAT TM_STAT_BUILD_OUT 0).tmChange
      else s1
    else s

/-- SWITCH_LOCKED: step 5 of R311, and any queued switch (R312). -/
def execSwitchLocked (s : State) : Host.Outcome State Fault Refusal :=
  whenOn s fun s =>
    if s.core = coreSwitching ∧ !s.tm.initial ∧ 10 ≤ s.tm.calm then
      (((s.setF TM_STAT TM_STAT_CORE coreLocked).setF TM_STAT TM_STAT_SWITCH_QUEUED 0).bump TM_SWITCHES).tmChange
    else s

/-- BUILD_OUT holds at its extremes (R324). -/
def buildOut (d : Int) : Nat := toBits 20 (satS 20 d)

/-- Step 3 and 4 of R311: Δ is measured, and slewed out or kept as a build-out. -/
def State.measureDelta (s : State) (k : Nat) (pos : Int) : State :=
  if s.core = coreSwitching ∧ !s.tm.initial ∧ s.rf TM_STAT TM_STAT_SEL = k ∧ s.tm.delta = none then
    { s with tm := { s.tm with delta := some pos } }.setF TM_STAT TM_STAT_BUILD_OUT
      (if s.rf TM_CTL TM_CTL_SLEW = 0 then buildOut pos else 0)
  else s

/-- The TAI second of the PTP clock nearest to now (R320, R325). -/
def State.ptpSecond (s : State) : Nat := (s.tm.ptp + 5 * 10 ^ 17) / 10 ^ 18

/-- Under EPOCH 2 of R427, the load fits this PPS: load value and second are set from the PTP clock. -/
def State.epoch2At (s : State) : Option State :=
  if !s.tm.epoch2 then some s
  else
    let p := s.ptpSecond
    let n := s.rf TM_ATC_CTL TM_ATC_CTL_RATE_N
    if s.cp.startBase ≤ p ∧ (p - s.cp.startBase) * n % 64 = 0 then
      let v := (p - s.cp.startBase) * n * 10000000
      some ({ s with time := { s.time with stagedAtc := v % 2 ^ 64, stagedSec := p, stagedPtp := false } }.setReg64 TM_ATC_LOAD_LO (v % 2 ^ 64))
    else none

/-- A PPS edge of the selected source meets an armed load: it serves when it is accepted in a later Saffron cycle than the arming (R50). -/
def State.epochEdge (s : State) (pos : Int) (phase : Nat) : State :=
  if s.flag TM_ATC_CTL TM_ATC_CTL_ARM && s.tm.edge.isNone && decide (s.time.armedAt < s.time.cycles) then
    match s.epoch2At with
    | some s1 => { s1 with tm := { s1.tm with edge := some (phase % 16, pos) } }
    | none => s
  else s

/-- Domain `d` runs, and the port and transport it uses (R324). -/
def State.domOn (s : State) (d : Nat) : Bool := s.flag TM_PTP_CTL (if d = 0 then TM_PTP_CTL_ENA else TM_PTP_CTL_ENB)
def State.domPort (s : State) (d : Nat) : Nat := s.rf TM_PTP_CTL (if d = 0 then TM_PTP_CTL_PORTA else TM_PTP_CTL_PORTB)
def State.domUdp (s : State) (d : Nat) : Bool := s.flag TM_PTP_CTL (if d = 0 then TM_PTP_CTL_TRANSA else TM_PTP_CTL_TRANSB)
def State.domNum (s : State) (d : Nat) : Nat := s.rf TM_PTP_CTL (if d = 0 then TM_PTP_CTL_DOMA else TM_PTP_CTL_DOMB)

/-- A second of domain `d`'s time begins in this Saffron cycle: the domain runs, the PTP clock is SET and an exchange with the master has completed (R300, R321). -/
def State.virtualEdge (s : State) (d : Nat) : Bool :=
  s.domOn d && s.flag TM_PTP_STAT TM_PTP_STAT_SET && (s.ptpDomain d).done && decide (s.domTime d % 10 ^ 18 < 5 * 10 ^ 8 + max 0 s.tm.ptpRate)

/-- A position on the second grid in units of 0.3125 ns, from the boundary nearest to it. -/
def nearGrid (x : Int) : Int := (roundDiv x 5 + 1600000000) % 3200000000 - 1600000000

/-- Position of a virtual edge of this cycle on the time base's second grid (R300, R302). -/
def State.virtualPos (s : State) (d : Nat) : Int :=
  nearGrid (s.gridPos / max 1 s.gridUnit - s.domTime d % 10 ^ 18 * 16 / 10 ^ 9)

/-- PPS_EDGE: an accepted edge of source `k`, for REFA to REFD `pos` units of 0.3125 ns after the time base's second grid, and `phase` sixteenths into its sample period (R50, R54, R300, R302, R304, R311). -/
def execPpsEdge (k : Nat) (pos : Int) (phase : Nat) (s : State) : Host.Outcome State Fault Refusal :=
  whenOn s fun s =>
    if 6 ≤ k ∨ s.qstate k = qOff ∨ !s.usesPps k ∨ (4 ≤ k ∧ !s.virtualEdge (k - 4)) then s
    else
      let p := (if k < 4 then pos else s.virtualPos (k - 4)) - sext 16 (s.rf (TM_SRC_PPS k) TM_SRC_PPS_PPSDLY)
      let s1 := (s.setSource k { s.source6 k with cur := p :: (s.source6 k).cur }).setF (TM_SRC_STAT k) TM_SRC_STAT_PPS_LOSS 0
      if s.rf TM_STAT TM_STAT_SEL ≠ k then s1
      else
        let s2 := if s.running then s1.setReg64 TM_ATC_PPS_LO s.time.atc else s1
        (s2.measureDelta k p).epochEdge p phase

/-- MISSED_PPS (R51). -/
def execMissedPps (s : State) : Host.Outcome State Fault Refusal :=
  whenOn s fun s =>
    if s.flag TM_ATC_CTL TM_ATC_CTL_ARM ∧ s.tm.edge = none then s.seen TM_ATC_STAT TM_ATC_STAT_MISSED_PPS evTiming else s

/-! ### Clock and FRAME outputs (R316, R317) -/

/-- CLKOUTn after a change of EN or FREQ: held low until it starts (R316). -/
def State.ckChange (s : State) (n : Nat) : State :=
  { s with tm := { s.tm with
    ck := tblSet 0 s.tm.ck n 0
    ckWait := if s.flag (TM_CK_CTL n) TM_CK_CTL_EN then setBit s.tm.ckWait n else clrBit s.tm.ckWait n } }

/-- CLKOUT_START (R316). -/
def execClkoutStart (n : Nat) (s : State) : Host.Outcome State Fault Refusal :=
  whenOn s fun s =>
    if n < 4 ∧ bit s.tm.ckWait n then
      { s with tm := { s.tm with ckWait := clrBit s.tm.ckWait n, ck := tblSet 0 s.tm.ck n (s.rf (TM_CK_CTL n) TM_CK_CTL_FREQ) } }
    else s

/-- OFFSET of FRAMEn in sixteenths of a ns (R317). -/
def State.frameLate (s : State) (n : Nat) : Int := 5 * sext 32 (s.rf (TM_FR_OFS n) TM_FR_OFS_OFFSET)

/-- The level of the FRAMEn pin: POL 1 is active low (R317, R324). -/
def State.framePin (s : State) (n : Nat) : Bool := bit s.tm.frames n != s.flag (TM_FR_CTL n) TM_FR_CTL_POL

/-- FRAME_PULSE_START: at a second boundary shifted by OFFSET, for WIDTH µs (R317). -/
def execFramePulseStart (n : Nat) (s : State) : Host.Outcome State Fault Refusal :=
  whenOn s fun s =>
    if n < 4 ∧ s.running ∧ s.flag (TM_FR_CTL n) TM_FR_CTL_EN ∧ s.boundaryPast (s.frameLate n) then
      { s with tm := { s.tm with
        frames := setBit s.tm.frames n, frameEnd := tblSet 0 s.tm.frameEnd n (s.time.cycles + 2000 * s.rf (TM_FR_CTL n) TM_FR_CTL_WIDTH) } }
    else s

/-- FRAME_PULSE_END: once WIDTH µs have passed (R317). -/
def execFramePulseEnd (n : Nat) (s : State) : Host.Outcome State Fault Refusal :=
  whenOn s fun s =>
    if n < 4 ∧ tblGet 0 s.tm.frameEnd n ≤ s.time.cycles then { s with tm := { s.tm with frames := clrBit s.tm.frames n } } else s

/-! ### PTP messages (R318, IEEE 1588-2019) -/

/-- The timestamp at the start of a message's body, in ns. -/
def ptpStamp (b : List Byte) : Int := (beAt b 34 6 * 10 ^ 9 + beAt b 40 4 : Nat)

/-- The domains that a message received on port `n` belongs to. -/
def State.domsOf (s : State) (n : Nat) (f : RxFrame) : List Nat :=
  [0, 1].filter fun d => s.domOn d && s.domPort d == n && s.domUdp d == (f.etype != 0x88F7) && s.domNum d == ptpDomNum (ptpBody f)

/-- Take the oldest PTP message of a kind from port `n` and let each of its domains act on it. -/
def State.ptpTake (s : State) (n : Nat) (p : Nat → Bool) (act : State → Nat → RxFrame → State) : State :=
  match s.rxHead n fun f => isPtp f && p (ptpType (ptpBody f)) with
  | none => s
  | some f => (s.domsOf n f).foldl (fun s d => act s d f) (s.rxTake n f)

/-- A Sync from the domain's chosen master, at its receive timestamp (R319). -/
def State.ptpSync (s : State) (n d : Nat) (f : RxFrame) : State :=
  let x := s.ptpDomain d
  let b := ptpBody f
  if x.master ≠ some (ptpSource b) then s
  else
    s.setDom d { x with
      syncSeq := ptpSeq b, t2 := s.pinTimeAt n false f.ptp, corr := ptpCorrection b, synced := true
      t1 := if ptpTwoStep b then none else some (ptpStamp b) }

/-- PTP_SYNC_RECEIVED (R318, R319). -/
def execPtpSyncReceived (n : Nat) (s : State) : Host.Outcome State Fault Refusal :=
  whenOn s fun s => s.ptpTake n (· == 0) fun s d f => s.ptpSync n d f

/-- A Follow_Up of the Sync that waits for it. -/
def State.ptpFollow (s : State) (d : Nat) (b : List Byte) : State :=
  let x := s.ptpDomain d
  if x.master = some (ptpSource b) ∧ x.synced ∧ x.t1 = none ∧ x.syncSeq = ptpSeq b then
    s.setDom d { x with t1 := some (ptpStamp b), corr := x.corr + ptpCorrection b }
  else s

/-- PTP_FOLLOW_UP_RECEIVED (R318). -/
def execPtpFollowUpReceived (n : Nat) (s : State) : Host.Outcome State Fault Refusal :=
  whenOn s fun s => s.ptpTake n (· == 8) fun s d f => s.ptpFollow d (ptpBody f)

/-- Every domain's measured offset takes a step of the clock in full (R321, R323). -/
def State.ptpStepBy (s : State) (ns : Int) : State :=
  let s1 := { s with tm := { s.tm with ptp := ((s.tm.ptp : Int) + ns * 10 ^ 9).toNat } }
  [0, 1].foldl (fun s d => let x := s.ptpDomain d; if x.done then s.setDom d { x with offs := x.offs + ns, filt := x.filt + ns } else s) s1

/-- The filter of a domain's offset takes a new measurement; the specification gives no law for it (R300). -/
def State.ptpFilter (s : State) (d : Nat) : State := (s.setDom d { s.ptpDomain d with filt := Config.ptpFilter s.free (s.ptpDomain d).offs }).draw

/-- The servo sets the clock's rate, within ±50 ppm (R321, R322). -/
def State.ptpServo (s : State) : State :=
  { s with tm := { s.tm with ptpRate := max (-25000) (min 25000 (Config.ptpServo s.free)) } }.draw

/-- An exchange of a domain is complete: its offset, the first acquisition, and the servo of the steering domain (R321, R322). -/
def State.ptpOffset (s : State) (d : Nat) (o : Int) : State :=
  let x := s.ptpDomain d
  let s1 := (s.setDom d { x with offs := o, done := true, synced := false, t3 := none }).ptpFilter d
  if !s.flag TM_PTP_STAT TM_PTP_STAT_SET then (s1.ptpStepBy (-o)).setF TM_PTP_STAT TM_PTP_STAT_SET 1
  else if s.rf TM_PTP_STAT TM_PTP_STAT_STEER = d + 1 then
    let s2 := if mag o ≤ 1000000 then s1.setF TM_PTP_STAT TM_PTP_STAT_LARGE_OFFSET 0 else s1
    s2.ptpServo
  else s1

/-- A Delay_Resp that answers the domain's Delay_Req: half the difference of the two one-way times, less the asymmetry (R318, R319). -/
def State.ptpResp (s : State) (d : Nat) (b : List Byte) : State :=
  let x := s.ptpDomain d
  match x.t1, x.t3 with
  | some t1, some t3 =>
    if x.master = some (ptpSource b) ∧ x.synced ∧ beAt b 44 10 = Config.portIdentity d % 2 ^ 80 ∧ x.reqSeq = ptpSeq b then
      let down := x.t2 - t1 - x.corr
      let up := ptpStamp b - t3 - ptpCorrection b
      s.ptpOffset d ((down - up) / 2 - x.asym)
    else s
  | _, _ => s

/-- PTP_DELAY_RESP_RECEIVED (R318, R321, R322). -/
def execPtpDelayRespReceived (n : Nat) (s : State) : Host.Outcome State Fault Refusal :=
  whenOn s fun s => (s.ptpTake n (· == 9) fun s d f => s.ptpResp d (ptpBody f)).steer

/-- A foreign master counts while two of its Announce messages have come within the last four of its announce intervals (IEEE 1588-2019). -/
def Foreign.counts (f : Foreign) (now : Nat) : Bool := f.prev.any fun t => decide (now ≤ t + 4 * f.every)

/-- Choose the best foreign master at Saffron cycle `now`; another one starts the exchange again (R318). -/
def PtpDom.choose (x : PtpDom) (now : Nat) : PtpDom :=
  let best := (x.foreign.filter fun f => f.counts now).foldl (fun (a : Option Foreign) f =>
    match a with | some g => if f.key < g.key then some f else some g | none => some f) none
  let m := best.map (·.id)
  if m = x.master then x else { x with master := m, synced := false, t1 := none, t3 := none, done := false }

/-- The data set of an Announce as one number: priority1, clockClass, clockAccuracy, offsetScaledLogVariance, priority2, grandmasterIdentity, stepsRemoved, sender. -/
def announceKey (b : List Byte) : Nat := beAt b 47 1 * 2 ^ 208 + beAt b 48 4 * 2 ^ 176 + beAt b 52 1 * 2 ^ 168 + beAt b 53 8 * 2 ^ 104 + beAt b 61 2 * 2 ^ 80 + ptpSource b

/-- 2^logMessageInterval s in Saffron cycles (IEEE 1588-2019). -/
def announceEvery (b : List Byte) : Nat :=
  let l := sext 8 (beAt b 33 1)
  if 0 ≤ l then 2000000000 * 2 ^ l.toNat else 2000000000 / 2 ^ (-l).toNat

/-- An Announce reaches a domain; one from 255 steps away or more counts for nothing (IEEE 1588-2019). -/
def State.ptpAnnounce (s : State) (d : Nat) (b : List Byte) : State :=
  let x := s.ptpDomain d
  let id := ptpSource b
  let f : Foreign :=
    { key := announceKey b, id := id, cls := beAt b 48 1, last := s.time.cycles, every := announceEvery b
      prev := (x.foreign.find? fun f => f.id == id).map (·.last) }
  let l := x.foreign.filter fun g => g.id != id
  s.setDom d ({ x with foreign := if 255 ≤ beAt b 61 2 then x.foreign else f :: l }.choose s.time.cycles)

/-- PTP_ANNOUNCE_RECEIVED (R318). -/
def execPtpAnnounceReceived (n : Nat) (s : State) : Host.Outcome State Fault Refusal :=
  whenOn s fun s => s.ptpTake n (· == 11) fun s d f => s.ptpAnnounce d (ptpBody f)

/-- PTP_OTHER_DISCARD (R318). -/
def execPtpOtherDiscard (n : Nat) (s : State) : Host.Outcome State Fault Refusal :=
  whenOn s fun s => s.ptpTake n (fun t => !(t == 0 || t == 8 || t == 9 || t == 11)) fun s _ _ => s

/-- PTP_LOSS: of Announce messages from the chosen master, or of Sync messages (R304). -/
def execPtpLoss (d : Nat) (announce : Bool) (s : State) : Host.Outcome State Fault Refusal :=
  whenOn s fun s =>
    let x := s.ptpDomain d
    if d < 2 ∧ s.domOn d ∧ x.master.isSome then
      let s1 := if announce then s.setDom d ({ x with foreign := x.foreign.filter fun f => some f.id != x.master }.choose s.time.cycles) else s
      if s1.qstate (4 + d) = qOff then s1
      else (s1.setSource (4 + d) { s1.source6 (4 + d) with present := false }).signalLost (4 + d) TM_SRC_STAT_CLK_LOSS
    else s

/-- A Delay_Req message of a domain (IEEE 1588-2019). -/
def delayReq (num ident seq : Nat) : List Byte :=
  be 1 1 ++ be 1 0x12 ++ be 2 44 ++ be 1 num ++ be 1 0 ++ be 2 0 ++ be 8 0 ++ be 4 0 ++ be 10 ident ++ be 2 seq ++ be 1 1 ++ be 1 0x7F ++ be 10 0

/-- The frame of a Delay_Req: C0, to the PTP group address of its transport (R38, R318). -/
def State.delayReqFrame (s : State) (d seq : Nat) : TxFrame :=
  let n := s.domPort d
  let m := delayReq (s.domNum d) (Config.portIdentity d) seq
  { cls := 0, c0Message := false, ptp := some (1, d, seq)
    bytes :=
      if s.domUdp d then
        s.macHeader n 0 0x01005E000181 false ++ be 2 0x0800 ++ udpPacket (Config.ipIdent s.free) (s.reg (ET_P_IP n)).toNat 0xE0000181 319 319 m
      else s.macHeader n 0 0x011B19000000 false ++ be 2 0x88F7 ++ m }

/-- PTP_DELAY_REQ_SEND (R318). -/
def execPtpDelayReqSend (d : Nat) (s : State) : Host.Outcome State Fault Refusal :=
  whenOn s fun s =>
    let x := s.ptpDomain d
    if d < 2 ∧ s.domOn d ∧ x.master.isSome then
      let q := (x.reqSeq + 1) % 65536
      ((s.setDom d { x with reqSeq := q, t3 := none }).draw).txQueue (s.domPort d) (s.delayReqFrame d q)
    else s

/-- PTP_LARGE_OFFSET (R321). -/
def execPtpLargeOffset (s : State) : Host.Outcome State Fault Refusal :=
  whenOn s fun s =>
    let k := s.rf TM_PTP_STAT TM_PTP_STAT_STEER
    if s.flag TM_PTP_STAT TM_PTP_STAT_SET ∧ k ≠ 0 ∧ 1000000 < mag (s.ptpDomain (k - 1)).offs then s.setF TM_PTP_STAT TM_PTP_STAT_LARGE_OFFSET 1 else s

/-- PTP_SECOND_SNAPSHOT (R320). -/
def execPtpSecondSnapshot (s : State) : Host.Outcome State Fault Refusal :=
  whenOn s fun s =>
    if s.flag TM_PTP_STAT TM_PTP_STAT_SET then
      (s.setReg64 TM_PTP_SNAP_SEC_LO (s.ptpSecond % 2 ^ 48)).setReg TM_PTP_SNAP_T32 (w32 (s.ptpSecond * 10 ^ 9))
    else s

/-- PTP_SNAP_SEC_LO_READ: the read latches the shadow copies of both SEC_HI and T32 (R20, R320). -/
def execPtpSnapSecLoRead (r : Requester) (s : State) : Host.Outcome State Fault Refusal :=
  whenOn s fun s => s.pairLoRead r TM_PTP_SNAP_SEC_LO

/-! ### Commands (R325) -/

/-- The first image of a list of registers that carries an undefined encoding, at its payload word. -/
def imagesBad (c : Cmd) : List (Nat × Nat) → Option Bad
  | [] => none
  | (i, off) :: l => if badImage off (c.w i) then some ⟨stBadParam, i, []⟩ else imagesBad c l

/-- A source is selected or the target of a transition (R325). -/
def State.inUse (s : State) (k : Nat) : Bool := s.rf TM_STAT TM_STAT_SEL == k && (s.core == coreLocked || s.core == coreSwitching)

/-- The registers of a source as a configuration that still waits for its gate leaves them. -/
def State.pendingSource (s : State) (k : Nat) : State :=
  match tblGet [] s.tm.cfgs k with
  | [] => s
  | ws => s.configAll ([TM_SRC_CTL k, TM_SRC_FREQ k, TM_SRC_LIM k, TM_SRC_TIME k, TM_SRC_PPS k].zip ws)

/-- TM_SRC_CONFIG. -/
def execTmSrcConfig (c : Cmd) (s : State) : Host.Outcome State Fault Refusal :=
  let k := c.f 0 2 0
  let freq := fget (c.w 2) TM_SRC_FREQ_FREQ
  .next (s.command 0x0801 c
    (fun _ => (needLen 6 c).or ((badIf (decide (6 ≤ k)) 0).or ((imagesBad c [(1, TM_SRC_CTL k)]).or
      ((badIf (decide (k < 4) && (decide (freq < 10000000) || decide (800000000 < freq))) 2).or
      ((badIf (decide (fget (c.w 3) TM_SRC_LIM_HARD ≤ fget (c.w 3) TM_SRC_LIM_SOFT)) 3).or
      (imagesBad c [(3, TM_SRC_LIM k), (4, TM_SRC_TIME k), (5, TM_SRC_PPS k)]))))))
    fun s =>
      let t := s.pendingSource k
      let keep := fget (c.w 1) TM_SRC_CTL_EN == t.rf (TM_SRC_CTL k) TM_SRC_CTL_EN && freq == t.rf (TM_SRC_FREQ k) TM_SRC_FREQ_FREQ &&
        fget (c.w 1) TM_SRC_CTL_PPS_EN == t.rf (TM_SRC_CTL k) TM_SRC_CTL_PPS_EN &&
        fget (c.w 1) TM_SRC_CTL_PPS_POL == t.rf (TM_SRC_CTL k) TM_SRC_CTL_PPS_POL && fget (c.w 5) TM_SRC_PPS_PPSDLY == t.rf (TM_SRC_PPS k) TM_SRC_PPS_PPSDLY
      if s.inUse k && !keep then bad stWrongState []
      else .ok [] { s with tm := { s.tm with cfgs := tblSet [] s.tm.cfgs k (c.payload.drop 1) } })

/-- TM_REF_SELECT: selection runs again at the next gate. -/
def execTmRefSelect (c : Cmd) (s : State) : Host.Outcome State Fault Refusal :=
  .next (s.command 0x0802 c (fun _ => (needLen 1 c).or (imagesBad c [(0, TM_CTL)])) fun s => .ok [] (s.config TM_CTL (c.w 0)))

/-- TM_HO_CONFIG. -/
def execTmHoConfig (c : Cmd) (s : State) : Host.Outcome State Fault Refusal :=
  .next (s.command 0x0803 c (fun _ => (needLen 2 c).or (imagesBad c [(0, TM_HO_CFG), (1, TM_LOCOSC)])) fun s =>
    let changes := fget (c.w 1) TM_LOCOSC_FREQ != s.rf TM_LOCOSC TM_LOCOSC_FREQ
    if changes && (s.core == coreHoldover || s.core == coreFreeRun) then bad stWrongState []
    else
      let s1 := s.configAll [(TM_HO_CFG, c.w 0), (TM_LOCOSC, c.w 1)]
      .ok [] (if changes then s1.untrain else s1))

/-- CLKOUT and FRAME registers with their payload words, for the outputs in the masks. -/
def outRegs (m : Nat) : List (Nat × Nat) :=
  ((List.range 4).filter (bit m)).map (fun n => (1 + n, TM_CK_CTL n)) ++
    ((List.range 4).filter fun n => bit m (4 + n)).flatMap fun n => [(5 + 2 * n, TM_FR_CTL n), (6 + 2 * n, TM_FR_OFS n)]

/-- Outputs follow their registers: a CLKOUT whose EN or FREQ changed from `old`, and a FRAME that is disabled (R316, R317). -/
def State.outputsFollow (s : State) (old : Nat → Word) : State :=
  (List.range 4).foldl (fun s n =>
    let s1 := if s.reg (TM_CK_CTL n) = old n then s else s.ckChange n
    if s1.flag (TM_FR_CTL n) TM_FR_CTL_EN then s1 else { s1 with tm := { s1.tm with frames := clrBit s1.tm.frames n } }) s

/-- TM_OUT_CONFIG. -/
def execTmOutConfig (c : Cmd) (s : State) : Host.Outcome State Fault Refusal :=
  let regs := outRegs (c.f 0 7 0)
  .next (s.command 0x0804 c (fun _ => (needLen 13 c).or (imagesBad c regs)) fun s =>
    .ok [] ((s.configAll (regs.map fun x => (x.2, c.w x.1))).outputsFollow fun n => s.reg (TM_CK_CTL n)))

/-- Arm an epoch load (R50, R325): the load value, the staged mapping and ARM. -/
def State.armLoad (s : State) (load sec : Nat) (fromPtp : Bool) : State :=
  let s1 := { s with
    time := { s.time with stagedAtc := load, stagedSec := sec, stagedPtp := fromPtp, armedAt := s.time.cycles }
    tm := { s.tm with edge := none, epoch2 := false } }
  let s2 := (s1.setReg64 TM_ATC_LOAD_LO load).setF TM_ATC_CTL TM_ATC_CTL_ARM 1
  if s.running then s2 else s2.setF TM_ATC_STAT TM_ATC_STAT_STATE 1

/-- TM_EPOCH_LOAD. -/
def execTmEpochLoad (c : Cmd) (s : State) : Host.Outcome State Fault Refusal :=
  let force := c.f 0 31 31 == 1
  let fromPtp := c.f 0 30 30 == 1
  .next (s.command 0x0805 c (fun _ => (needLen 5 c).or (badIf (decide (c.q 1 % 8192 ≠ 0)) 1)) fun s =>
    let sel := s.rf TM_STAT TM_STAT_SEL
    if (s.running && !force) || s.core != coreLocked || !s.usesPps sel || (fromPtp && !s.flag TM_PTP_STAT TM_PTP_STAT_SET) then bad stWrongState []
    else .ok [] (s.armLoad (c.q 1) (if fromPtp then 0 else c.q 3) fromPtp))

/-- TM_TAI_MAP fires: the mapping registers take its values (R48, R323). -/
def State.applyTaiMap (s : State) (c : Cmd) : State := (s.setReg64 TM_TAI_ATC_LO (c.q 2)).setReg64 TM_TAI_SEC_LO (c.q 4)

/-- TM_PTP_STEP fires: the clock moves by the signed step, which every domain's offset takes in full, and it is logged (R321, R323, R558). -/
def State.applyPtpStep (s : State) (c : Cmd) : State :=
  ((s.ptpStepBy (sext 64 (c.q 2))).seen TM_PTP_STAT TM_PTP_STAT_STEP_DONE evTiming).logEvent 0x0802 0 (loHi (c.q 2))

/-- The settings of a domain: EN, port, transport, domainNumber and asymmetry. -/
def domSettings (w : Word) (asym : Int) (d : Nat) : List Int :=
  let g := fun (a b : Fld) => ((fget w (if d = 0 then a else b) : Nat) : Int)
  [g TM_PTP_CTL_ENA TM_PTP_CTL_ENB, g TM_PTP_CTL_PORTA TM_PTP_CTL_PORTB, g TM_PTP_CTL_TRANSA TM_PTP_CTL_TRANSB, g TM_PTP_CTL_DOMA TM_PTP_CTL_DOMB, asym]

/-- A domain's settings have changed: its master choice restarts and its source returns to ABSENT (R325). -/
def State.domRestart (s : State) (d : Nat) (asym : Int) : State :=
  let k := 4 + d
  let s1 := (s.setDom d { ptpDom0 with asym := asym, reqSeq := (s.ptpDomain d).reqSeq }).setSource k src0
  let s2 := (s1.showSource k).setReg (TM_SRC_STAT k) (s1.reg (TM_SRC_STAT k) &&& 0x00300000)
  if s.qstate k = qOff then s2 else s2.setF (TM_SRC_STAT k) TM_SRC_STAT_QSTATE qAbsent

/-- TM_PTP_CONFIG. -/
def execTmPtpConfig (c : Cmd) (s : State) : Host.Outcome State Fault Refusal :=
  .next (s.command 0x0807 c (fun _ => needLen 3 c) fun s =>
    let asym := fun d => sext 32 (c.w (1 + d)).toNat
    let changed := [0, 1].filter fun d => domSettings (c.w 0) (asym d) d != domSettings (s.reg TM_PTP_CTL) (s.ptpDomain d).asym d
    if changed.any fun d => s.inUse (4 + d) then bad stWrongState []
    else .ok [] (changed.foldl (fun s d => s.domRestart d (asym d)) (s.config TM_PTP_CTL (c.w 0))).tmChange)

/-- TM_STATUS. -/
def execTmStatus (c : Cmd) (s : State) : Host.Outcome State Fault Refusal :=
  .next (s.command 0x0809 c (fun _ => needLen 0 c) fun s =>
    .ok ([s.reg TM_STAT, s.reg TM_HO_STAT, s.reg TM_HO_ERR, w32 s.hoLeft] ++
      ((List.range 6).flatMap fun k => [s.reg (TM_SRC_STAT k), s.reg (TM_SRC_OFFS k), s.reg (TM_SRC_DRIFT k)]) ++
      [s.reg TM_PTP_STAT, BitVec.ofInt 32 (s.ptpDomain 0).offs, BitVec.ofInt 32 (s.ptpDomain 1).offs]) s)

/-- An event timestamp as two words (R325). -/
def PtpTs.words (x : PtpTs) : List Word := [w32 (b2n x.tx * 2 ^ 31 + x.kind % 16 * 2 ^ 24 + x.dom % 256 * 2 ^ 16 + x.seq % 2 ^ 16), w32 x.ts]

/-- TM_PTP_TS_READ. -/
def execTmPtpTsRead (c : Cmd) (s : State) : Host.Outcome State Fault Refusal :=
  .next (s.command 0x080A c (fun _ => needLen 1 c) fun s =>
    .ok ([s.reg TM_PTP_SNAP_SEC_LO, s.reg TM_PTP_SNAP_SEC_HI, s.reg TM_PTP_SNAP_T32] ++
      (tblGet [] s.tm.ts (c.f 0 1 0)).flatMap PtpTs.words) s)

/-- TM_CNT_CLR.ALL (R21, R324). -/
def execTmCntClrAll (s : State) : Host.Outcome State Fault Refusal :=
  whenOn s fun s => s.clearCounters (TM_SWITCHES :: (List.range 6).map TM_SRC_DISQ)

end Sys2Proof.Machine
end

