-- ==== Sys2Proof/Machine/Standby.lean ====
section
/-! DEFINITION. Roles of a pair: what a checkpoint sets, powering the pipeline up and down, promotion, takeover, fencing and the heartbeat word (R431 to R456). -/

namespace Sys2Proof.Machine

/-- The unit belongs to a pair (R431). -/
def State.paired (s : State) : Bool := s.flag ML_CTL ML_CTL_PAIRED

/-- Put the unit into a role. -/
def State.setRole (s : State) (r : Nat) : State := s.setF ML_STAT ML_STAT_STATE r

/-! ### Checkpoints (R438, R439, R441) -/

/-- Registers that a standby takes from a checkpoint: sample lanes, Madder, channeliser, correlator, beams, trigger, Umber, corner turn and timing; the ports' own addresses stay its own. -/
def ckptTakes (off : Nat) : Bool := (decide (0x100000 ≤ off) && decide (off < 0x601000)) || (decide (0x700000 ≤ off) && decide (off < 0x800000))

/-- The output sequence counters and Umber's place, which a state record carries (R438). -/
def recordRegs : List Nat := [IX_INT_SEQ] ++ (List.range 64).map WD_BM_SEQ ++ [SF_UB_WR, SF_UB_SPAN, SF_UB_GEN]

/-- Output sequence counters that a unit takes at a takeover: its own ring of slabs keeps its own place (R443, R452). -/
def seqRegs : List Nat := [IX_INT_SEQ] ++ (List.range 64).map WD_BM_SEQ ++ [SF_UB_GEN, ET_DS_SEQ]

/-- Registers that no checkpoint sets when it is applied: the output sequence counters, and those that speak of the unit's own open integration. -/
def ckptSeq (off : Nat) : Bool := recordRegs.contains off || off == ET_DS_SEQ || (decide (IX_INT_START_LO ≤ off) && decide (off < IX_INT_SEQ))

/-- One register takes its checkpointed part. -/
def takeReg (ck t : Tbl Word) (off : Nat) : Tbl Word :=
  if !ckptTakes off || ckptSeq off then t
  else if ckptWhole off then tblSet 0 t off (tblGet 0 ck off)
  else
    match regAt off with
    | some d =>
      let m := BitVec.ofNat 32 (fwMask d)
      tblSet 0 t off ((tblGet 0 t off &&& ~~~m) ||| (tblGet 0 ck off &&& m))
    | none => t

/-- Registers of Umber's configuration (R443). -/
def ubRegs : List Nat := [SF_UB_CTL, SF_UB_BASE_LO, SF_UB_BASE_HI, SF_UB_LEN, SF_UB_POST] ++ (List.range 24).map SF_UB_SEL

/-- Umber follows a checkpointed configuration that differs from its own: it starts afresh at the next slab boundary where the ring is allowed (R259, R443). -/
def State.umberFollow (s : State) (old : List Word) : State :=
  if ubRegs.map s.reg = old ∧ s.ubState ≠ ubOff then s
  else
    let s1 := (s.setF SF_UB_SLAB SF_UB_SLAB_SLAB (slabBytes s.ubPaths.length)).ubStop
    let s1 := { s1 with sf := { s1.sf with slabs := [], turn := [], chgs := [], held := none } }
    if s1.flag SF_UB_CTL SF_UB_CTL_EN && s1.running && s1.ubAllowed then s1.ubStart (spectrumAt s1.now) else s1

/-- The timing core follows registers that a checkpoint has changed from those of `old`: sources and PTP domains start again, holdover training starts again with another LOCOSC, and the outputs restart (R306, R313, R316, R325). -/
def State.timingFollow (s old : State) : State :=
  let srcs := (List.range 6).filter fun k => s.reg (TM_SRC_CTL k) != old.reg (TM_SRC_CTL k) || s.reg (TM_SRC_FREQ k) != old.reg (TM_SRC_FREQ k)
  let doms := [0, 1].filter fun d => domSettings (s.reg TM_PTP_CTL) 0 d != domSettings (old.reg TM_PTP_CTL) 0 d
  let s1 := srcs.foldl (fun s k => s.sourceFollow old k) s
  let s2 := doms.foldl (fun s d => s.domRestart d (s.ptpDomain d).asym) s1
  let s3 := if s.rf TM_LOCOSC TM_LOCOSC_FREQ = old.rf TM_LOCOSC TM_LOCOSC_FREQ then s2 else s2.untrain
  let s4 := s3.outputsFollow fun n => old.reg (TM_CK_CTL n)
  if srcs.isEmpty && doms.isEmpty && s.reg TM_CTL == old.reg TM_CTL then s4 else s4.tmChange

/-- What every standby takes at once: configuration registers, program slots and the grid; beams whose settings changed train, and the timing core follows (R240, R306, R313, R316, R441, R443). -/
def State.ckptLight (s : State) (c : Ckpt) : State :=
  let s1 := { s with
    regs := (s.regs.map (fun (e : Nat × Word) => e.1) ++ c.regs.map fun (e : Nat × Word) => e.1).foldl (takeReg c.regs) s.regs
    ix := { s.ix with anchor := c.anchor, regions := c.regions }
    md := { s.md with progs := c.progs } }
  let s2 := (List.range 16).foldl (fun u t => if u.tbOn t && (!s.tbOn t || u.trainKey t != s.trainKey t) then u.train t else u) s1
  (s2.umberFollow (ubRegs.map s.reg)).timingFollow s

/-- The active calibration banks and polynomial table of a checkpoint, which only a powered pipeline holds (R438, R443). -/
def State.ckptTables (s : State) (c : Ckpt) : State :=
  let s1 := c.cal.foldl (fun s e =>
    let k := e.1 / 65536
    s.setSlice k { s.slice k with y := tblSet 0 (s.slice k).y (s.calBase k + e.1 % 65536) e.2 }) s
  let base := s.rf WD_TABLE WD_TABLE_ACTIVE * 262144
  { s1 with wd := { s1.wd with tab := c.poly.foldl (fun t e => tblSet polyZero t (base + e.1) e.2) s1.wd.tab } }

/-- The first grid boundary after `b` (R184). -/
def State.gridAfter (s : State) (b : Nat) : Nat := if s.intLen = 0 then b else s.ix.anchor + ((b - s.ix.anchor) / s.intLen + 1) * s.intLen

/-- An integration opens at `b` and closes at the first grid boundary after it (R452 step 7). -/
def State.openFrom (s : State) (b flags : Nat) : State :=
  if s.integrating then (((s.epochBound b true).startIntegration b flags).setReg64 IX_NEXT_CLOSE_LO (s.gridAfter b)).regrid b else s

/-- Slices that run start at `b` as a rejoin, with every path seeded (R154, R164, R452). -/
def State.slicesFrom (s : State) (b : Nat) : State :=
  (List.range 64).foldl (fun s k =>
    let n := s.rf (MD_SL_CTL k) MD_SL_CTL_SLOT
    if s.flag (MD_SL_CTL k) MD_SL_CTL_RUN && s.sliceState k != mdDead && s.loadable n then
      { s with ch := { s.ch with epoch := tblSet 0 s.ch.epoch k 0 } }.startSlice k n b
    else s) s

/-- Indigo and Woad hold nothing of before `b`. -/
def State.pipelineFrom (s : State) (b : Nat) : State :=
  { s.shedOver.setReg IX_SHED 0 with
    ix := { s.ix with half0 := halfFree, half1 := halfFree, bankA := bankFree, bankB := bankFree, deferred := false, nextBase := b, done := b, drops := [], olds := [], lostQ := [], resumeAt := none }
    wd := { s.shedOver.wd with next := b, beams := [] } }

/-- What the product set in force fixes of an integration: regions, anchor, length and selection (R204). -/
def State.setKey (s : State) : List Region × Nat × Word × Word := (s.ix.regions, s.ix.anchor, s.reg IX_INT_LEN, s.reg IX_STAGE_CH)

/-- A powered standby follows a checkpoint: tables and scale exponents, slices whose program changed, and the integration when the product set did (R453). -/
def State.ckptWarm (s : State) (old : State) (c : Ckpt) : State :=
  let s1 := s.ckptTables c
  let s2 := { s1 with ch := { s1.ch with paths := c.scales } }
  let b := spectrumAt s2.md.w
  let s3 := (List.range 64).foldl (fun s k =>
    if s.reg (MD_SL_CTL k) = old.reg (MD_SL_CTL k) then s
    else
      let n := s.rf (MD_SL_CTL k) MD_SL_CTL_SLOT
      if s.flag (MD_SL_CTL k) MD_SL_CTL_RUN && s.loadable n then s.startSlice k n b else s.setF (MD_SL_STAT k) MD_SL_STAT_STATE mdIdle) s2
  if s3.setKey == old.setKey then s3
  else
    let a := spectrumAt s3.now
    { s3 with ix := { s3.ix with half0 := halfFree, half1 := halfFree, bankA := bankFree, bankB := bankFree, olds := [], nextBase := a, done := a } }.openFrom a 0

/-- A standby applies a checkpointed state; scheduler entries that it held itself, as an active before, give way to the checkpoint's, but for its own part of a planned handover (R439, R441, R453, R454). -/
def State.ckptApply (s : State) (c : Ckpt) : State :=
  let s1 := { s.ckptLight c with ml := { s.ml with ckpt := some c }, events := s.events.filter fun e => e.op == 0x0A05 && e.cmd.relayed }.schedSync
  if s.role = roleWarm then s1.ckptWarm s c else s1

/-- A state record brings the scale state and the output sequence counters up to date (R438). -/
def Ckpt.record (old new : Ckpt) : Ckpt :=
  { old with
    atc := new.atc, scales := new.scales, sfSeq := new.sfSeq
    regs := recordRegs.foldl (fun t o => tblSet 0 t o (tblGet 0 new.regs o)) old.regs }

/-- The checkpointed scheduler entries become live with their handles; one whose firing boundary has passed is discarded and logged (R442). The handover that has just fired is none of them. This unit's own part of a handover still queued gives way to an entry with its handle, and that is logged too. -/
def State.eventsLive (s : State) (es : List Event) : State :=
  let mine := s.events.filter fun e => !es.any fun x => x.handle == e.handle
  let all := (mine ++ es).filter fun e => !(e.op == 0x0A05 && decide (e.f ≤ s.now))
  let s0 := (s.events.filter fun e => es.any fun x => x.handle == e.handle).foldl (fun s e => s.logDiscard e stWrongState) s
  let s1 := (all.filter fun e => decide (e.f < s.now)).foldl (fun s e => s.logDiscard e stTimePast) { s0 with events := all.filter fun e => !decide (e.f < s.now) }
  (s1.setF SC_STAT SC_STAT_NEXT_HANDLE (nextFree s1.events 257 (s1.rf SC_STAT SC_STAT_NEXT_HANDLE))).schedSync

/-- At a takeover: output sequences, Pelusk sequence state and scheduler entries continue from the last complete checkpoint (R442, R452). -/
def State.takeSeqs (s : State) : State :=
  match s.ml.ckpt with
  | none => s.eventsLive []
  | some c =>
    let s1 := { s with
      regs := seqRegs.foldl (fun (t : Tbl Word) (o : Nat) => tblSet 0 t o (tblGet 0 c.regs o)) s.regs
      sf := { s.sf with seq := c.sfSeq }
      cp := { s.cp with sources := (c.sources ++ s.cp.sources.filter fun (x : SourceSt) => !c.sources.any fun (y : SourceSt) => y.id == x.id).take 32 } }
    s1.queueSync.eventsLive c.events

/-! ### Power of the pipeline (R431, R443, R453) -/

/-- The compute dies, Madder compute, the X and Y memories and Woad go dark; what they held is lost (R443). -/
def State.goDark (s : State) : State :=
  let s1 := (List.range 64).foldl (fun s k =>
    let m := s.slice k
    let t := (match m.swap.getLast? with | some q => s.setF (MD_SL_CTL k) MD_SL_CTL_SLOT q.2 | none => s).setSlice k { sliceReset with xj := m.xj, delays := m.delays, excs := m.excs, rst := m.rst, mute := m.mute, back := m.back, ringPos := m.ringPos }
    if t.sliceState k = mdDead then t else t.setF (MD_SL_STAT k) MD_SL_STAT_STATE mdIdle) s.compDown
  let s2 := s1.pipelineFrom (spectrumAt s1.now)
  let s3 := { s2 with
    md := { s2.md with fills := [] }
    ch := { s2.ch with recs := [], paths := [] }
    wd := { s2.wd with load := none, fetch := none, store := none, swaps := [], olds := [], gap := none }
    ct := { s2.ct with src := [], queued := [], recs := [] } }
  (((s3.setF IX_BANK_STAT IX_BANK_STAT_DRAINING 0).setF IX_BANK_STAT IX_BANK_STAT_DRAIN_WAIT 0).setF IX_BANK_STAT IX_BANK_STAT_DRAIN_LEFT 0).setF
    IX_STAT IX_STAT_STATE 0

/-- The unit becomes LAMPBLACK (R431). -/
def State.toLampblack (s : State) : State := { s.goDark.setRole roleLampblack with ml := { s.ml with warming := none, takeover := false, takeBoundary := false } }

/-- The pipeline runs from `b` under the last checkpoint, its outputs as the role gives them (R452 step 5, R453). -/
def State.pipelineUp (s : State) (b flags : Nat) : State :=
  let s1 := ((s.pipelineFrom b).slicesFrom b).openFrom b flags
  match s1.ml.ckpt with
  | some c => s1.ckptTables c
  | none => s1

/-- The unit becomes WARM: compute powered, checkpoint applied, pipeline running with outputs muted (R453). -/
def State.toWarm (s : State) : State :=
  let b := spectrumAt s.now
  let s1 := s.compUp.setRole roleWarm
  { s1.pipelineUp b 0 with ml := { s1.ml with warmAt := b, item := none } }

/-! ### Leases (R450) -/

/-- g in sample periods: 100 µs plus TM_HO_ERR in HOLDOVER (R450). -/
def State.leaseGuard (s : State) : Nat :=
  cdiv ((100000 + (if s.core = coreHoldover then (s.reg TM_HO_ERR).toNat else 0)) * s.time.rateN) 100

/-- The unit holds a lease now (R450). -/
def State.leaseHolds (s : State) : Bool :=
  match s.ml.lease with
  | none => false
  | some l => s.running && s.core != coreFreeRun && decide (l.1 ≤ s.now) && decide (s.now + s.leaseGuard < l.2)

/-! ### The heartbeat word (R445 to R447) -/

/-- W7 of the health report: DRAM READY, and the memory rails within tolerance (R445). -/
def State.healthMem (s : State) : Nat :=
  b2n s.drReady * 2 ^ 31 + b2n ((List.range 3).all fun i => s.rfb PW_RAIL PW_RAIL_GOOD (9 + i)) * 2 ^ 30

/-- Failures of items `a` to `a + 63` as a mask. -/
def State.itemFails (s : State) (a : Nat) : Nat := ((List.range 64).map fun i => if tblGet false s.ml.fails (a + i) then 2 ^ i else 0).sum

/-- The health report (R445). -/
def State.healthReport (s : State) : List Word :=
  [w32 s.ml.sweeps] ++ hiLo s.ml.sweepAtc ++ hiLo (s.itemFails 0) ++ hiLo (s.itemFails 64) ++ [w32 s.healthMem, w32 s.ckptAge]

/-- The unit is HEALTHY (R445). -/
def State.healthy (s : State) : Bool :=
  decide (1 ≤ s.ml.sweeps) && s.itemFails 0 == 0 && s.itemFails 64 == 0 && s.healthMem == 2 ^ 31 + 2 ^ 30

/-- STATE of the heartbeat word for a role (R446). -/
def hbState (role : Nat) : Nat :=
  if role = roleActive then 1 else if role = roleLampblack then 2 else if role = roleWarm then 3 else if role = roleFenced then 4 else 0

/-- The heartbeat word of a path (R446). -/
def State.hbWord (s : State) (p : Nat) : List Byte :=
  let w := be 2 0x4842 ++ be 1 (hbState s.role) ++
    be 1 (b2n s.healthy + 2 * b2n (s.flag ML_STAT ML_STAT_LEASE_HELD) + 4 * b2n s.linkUp + 8 * b2n (s.standby && s.ml.ckpt.isSome)) ++
    be 4 (s.reg ML_EPOCH).toNat ++ be 1 (s.rf ML_CTL ML_CTL_UNIT) ++ be 1 s.member ++ be 2 (s.rf ML_CTL ML_CTL_PAIR_ID) ++
    be 2 (tblGet 0 s.ml.hbTx p)
  w ++ be 2 (crc16 0xFFFF w)

/-- COUNT of a path goes on. -/
def State.hbCount (s : State) (p : Nat) : State :=
  { s with ml := { s.ml with hbTx := tblSet 0 s.ml.hbTx p ((tblGet 0 s.ml.hbTx p + 1) % 65536) } }

/-- The role beacon on port `n`: 64 bytes with the FCS (R447). -/
def State.beacon (s : State) (n : Nat) : TxFrame :=
  { cls := 0, c0Message := false, bytes := s.macHeader n 0 (s.mac ML_BEACON_DMAC_LO) true ++ be 2 0x88B8 ++ s.hbWord 2 ++ be 26 0 }

/-- Send a heartbeat word on each path: a HEARTBEAT block while the link is up, the HB pins, and the beacon ports (R446, R447). -/
def State.hbSend (s : State) : State :=
  if s.role = roleUnpaired then s
  else
    let s1 := if s.linkUp then
      { s.emit (.miltia (mlBlock 0x03 0 0 s.ml.rxSeq (s.hbWord 0))) with ml := { s.ml with ackDue := false } } else s
    let s2 := s1.emit (.hbPins (be 1 0xD5 ++ (s1.hbWord 1).drop 2))
    let s3 := (List.range 4).foldl (fun s n => if s.rfb ML_CTL ML_CTL_BEACON_PORTS n then s.txQueue n (s.beacon n) else s) s2
    let s4 := (if s.linkUp then s3.hbCount 0 else s3).hbCount 1
    if s.rf ML_CTL ML_CTL_BEACON_PORTS = 0 then s4 else s4.hbCount 2

/-! ### Fencing (R451) -/

/-- A role beacon with STATE ACTIVE (R446, R447). -/
def TxFrame.activeBeacon (f : TxFrame) : Bool := f.cls == 0 && beAt f.bytes 16 2 == 0x88B8 && beAt f.bytes 20 1 == 1

/-- A frame of the unit's outputs: a trigger message, or a frame of class C1 or C2 (R41). -/
def TxFrame.output (f : TxFrame) : Bool := f.c0Message || f.cls == 1 || f.cls == 2

/-- Discard the frames of a kind that have not yet started. -/
def State.dropFrames (s : State) (f : TxFrame → Bool) : State :=
  (List.range 4).foldl (fun s n => s.setPort n { s.port n with tx := (s.port n).tx.filter (!f ·), held := (s.port n).held.filter (!f ·), c0q := (s.port n).c0q.filter (!f ·) }) s

/-- Discard every output frame not yet started (R451, R454). -/
def State.dropOutputs (s : State) : State := s.dropFrames TxFrame.output

/-- The open integration is abandoned, and a bank that drains writes no record (R451). -/
def State.abandonOpen (s : State) : State :=
  match s.curBank with
  | some c => s.setBank c bankFree
  | none => s

/-- An ACTIVE unit fences; under a planned handover at S it keeps the frames already queued, and drives its pins for the periods before S, which are still on their way to Saffron (R451, R454). -/
def State.fence (s : State) (warm : Bool) (planned : Option Nat) : State :=
  if s.role ≠ roleActive then s
  else
    let s1 := (s.setRole roleFenced).bump ML_FENCES
    let s2 := { s1 with
      sf := { s1.sf with follow := none, msgs := [] }
      ct := { s1.ct with src := [], queued := [], recs := [] }
      ml := { s1.ml with
        fenceWarm := warm, drainOld := planned.isSome, split := planned.getD 0, takeover := false, takeBoundary := false, dualFrom := none, dualHeard := false } }
    let s3 := if planned.isSome then s2 else ((s2.setF SF_STAT SF_STAT_TRIG_NOW 0).pinsOut s).dropOutputs
    (s3.dropFrames TxFrame.activeBeacon).abandonOpen.hbSend

/-- FENCE_SETTLE: 1 ms after the fence the unit becomes LAMPBLACK, or WARM where ROLE_FENCE asked for it and the link and the compute dies are up, with the highest epoch heard (R451, R453). -/
def State.settle (s : State) : State :=
  if s.role ≠ roleFenced then s
  else
    let s1 := s.setReg ML_EPOCH (w32 (max (s.reg ML_EPOCH).toNat (s.reg ML_PEER_EPOCH).toNat))
    if s.ml.fenceWarm && s.linkUp && s.pw.compOn then
      { (s1.setRole roleWarm).openFrom (spectrumAt s1.now) 0 with ml := { s1.ml with warmAt := spectrumAt s1.now, fenceWarm := false } }
    else { s1.toLampblack with ml := { s1.ml with fenceWarm := false, warming := none, drainOld := false } }

/-! ### Promotion and takeover (R432, R449, R452) -/

/-- The epoch of a new active: the greater of its own and the highest heard, plus 1; it is written to the log (R432). -/
def State.newEpoch (s : State) : State :=
  let e := max (s.reg ML_EPOCH).toNat (s.reg ML_PEER_EPOCH).toNat + 1
  let s1 := s.setReg ML_EPOCH (w32 e)
  { s1 with ml := { s1.ml with loggedEpoch := e } }.logEvent 0x0A01 1 [w32 e, s.reg ML_PEER_EPOCH, w32 s.ckptAge, w32 (b2n (s.flag ML_STAT ML_STAT_STALE_PROMOTE))]

/-- The integration that was open on the old active at the ATC of the last checkpoint: it began at the last grid boundary before that, or where a full checkpoint or delta says that it began later (R184, R438). DEDUCED: a state record names no boundary, and one at a boundary finds the next integration open. -/
def State.lostOpen (s : State) (c : Ckpt) : Nat :=
  let start := (tblGet 0 c.regs IX_INT_START_LO).toNat + 2 ^ 32 * (tblGet 0 c.regs IX_INT_START_HI).toNat
  if s.intLen = 0 ∨ c.atc < c.anchor then start else max start (c.anchor + (c.atc - c.anchor) / s.intLen * s.intLen)

/-- Integrations that ended on the old active after the last checkpoint and before `b`, of which no record was written: their starts and ends, from `a` on (R195). -/
def State.lostStarts (s : State) (b : Nat) : Nat → Nat → List (Nat × Nat)
  | 0, _ => []
  | k + 1, a => if s.intLen = 0 ∨ b < s.nextGrid a then [] else (a, s.nextGrid a) :: s.lostStarts b k (s.nextGrid a)

/-- Write the LOST records of the integrations lost to the takeover (R195). -/
def State.lostToTakeover (s : State) (b : Nat) : State :=
  match s.ml.ckpt with
  | none => s
  | some c =>
    if s.integrating then
      (s.lostStarts b (b / 8192 + 1) (s.lostOpen c)).foldl (fun s q =>
        (s.setBank false { s.freshBank q.1 0 with stop := some q.2 }).lostRecord false 0) s
    else s

/-- The new active's streams start at SEQ 0 under its epoch, and Umber's generation rises (R452 step 5). -/
def State.takeStreams (s : State) : State :=
  { s with ct := { s.ct with txSeq := [], sram := [] } }.ubGen

/-- The takeover boundary of a unit that was LAMPBLACK (R452 steps 5 and 7). -/
def State.takeCold (s : State) (b : Nat) : State :=
  (((s.pipelineFrom b).lostToTakeover b).pipelineUp b (2 ^ fTakeover)).takeStreams

/-- The takeover boundary of a unit that was WARM: its running pipeline is unmuted, and the integration open is flagged where this unit lacks part of it or the takeover interrupts it (R195, R452, R454). -/
def State.takeWarm (s : State) (planned : Bool) : State :=
  let s1 := match s.curBank with
    | some c => if !planned || decide ((s.bank c).start.getD 0 < s.ml.warmAt) then s.bankFlag c fTakeover else s
    | none => s
  s1.takeStreams

/-- A promotion made while the link is down is stale (R452). -/
def State.staleSeen (s : State) : State := if s.linkUp then s else s.seen ML_STAT ML_STAT_STALE_PROMOTE evPair

/-- A standby becomes ACTIVE, under a planned handover at S or without one; from LAMPBLACK, spectra from here to the takeover boundary are formed by no unit (R231, R432, R452 steps 2 to 4, R456). DESIGN CHOICE: the span of R231 begins at the promotion. -/
def State.promote (s : State) (planned : Option Nat) : State :=
  let warm := s.role == roleWarm
  let dark := s.ml.silent && !s.flag ML_CTL ML_CTL_LEASE && s.rf ML_HB_STAT ML_HB_STAT_PATH_UP == 0
  let s2 := (s.staleSeen.newEpoch.setRole roleActive).bump ML_PROMOTIONS
  let s3 := (s2.setF ML_STAT ML_STAT_NO_PROMOTE 0).setF ML_STAT ML_STAT_UNCONFIRMED (b2n dark)
  let s4 := { s3 with
    ml := { s3.ml with
      item := none, warming := none, peerFenced := false, takeover := !warm, takeBoundary := warm && planned.isNone, cold := !warm, split := planned.getD 0
      dualFrom := if dark then some s.now else none, dualHeard := false }
    wd := { s3.wd with gap := if !warm && s.wdRuns then some (spectrumAt s.now) else s3.wd.gap } }
  let s5 := if warm then s4.takeSeqs else s4
  (if warm && planned.isSome then s5.takeWarm true else s5).hbSend

/-- The conditions of R449 and R450 for promotion. -/
def State.mayPromote (s : State) : Bool :=
  s.standby && s.running && (s.ml.silent || s.ml.peerFenced) && (!s.flag ML_CTL ML_CTL_LEASE || s.leaseHolds) &&
    (!s.flag ML_CTL ML_CTL_UNIT || (s.ml.step9 != 0 && decide (s.ml.step9 + 2000000 ≤ s.time.cycles + 1)))

/-- Promote where the conditions hold; a standby whose ATC is not RUNNING sets NO_PROMOTE instead (R449). -/
def State.tryPromote (s : State) : State :=
  if s.standby && !s.running then s.setF ML_STAT ML_STAT_NO_PROMOTE 1
  else if s.mayPromote then s.promote none
  else s

/-- An UNPAIRED unit that has become paired and heard no ACTIVE word enters ACTIVE (R459). -/
def State.pairedAlone (s : State) : State :=
  { (s.newEpoch.setRole roleActive) with ml := { s.newEpoch.ml with pairing := false } }.hbSend

/-- The unit is UNPAIRED: every output, with its compute dies powered (R431). -/
def State.toUnpaired (s : State) : State :=
  let s1 := s.setRole roleUnpaired
  if s.pw.compOn then s1 else s1.compUp.pipelineUp (spectrumAt s1.now) 0

end Sys2Proof.Machine
end

