-- ==== Sys2Proof/Machine/Miltia.lean ====
section
/-! DEFINITION. The Miltia link: blocks received, go-back-N, loss and recovery, negotiation, and messages applied (R434 to R440, R501). -/

namespace Sys2Proof.Machine

/-! ### Blocks (R435) -/

/-- Fields of a received block: TYPE, FLAGS, SEQ, ACK, LEN and its data. -/
def mbType (b : List Byte) : Nat := beAt b 0 1
def mbFlags (b : List Byte) : Nat := beAt b 1 1
def mbSeq (b : List Byte) : Nat := beAt b 2 2
def mbAck (b : List Byte) : Nat := beAt b 4 2
def mbData (b : List Byte) : List Byte := slice b 8 (min 244 (beAt b 6 2))

/-- A block of 256 bytes with a correct CRC-32C (R435). -/
def mbOk (b : List Byte) : Bool := crc32c (b.take 252) == beAt b 252 4

/-! ### Messages wholly acknowledged (R436, R437, R440) -/

/-- Send a reply that waited for the standby's acknowledgement (R440, R454). -/
def State.heldReply (s : State) (q : QEntry) (r : Reply) : State :=
  if r.kind = 0 then (s.cacheReply r (q.cmd.transport == .script)).sendNow q.cmd.transport (isQuery q.op q.cmd) r
  else s.sendLater q.cmd.transport r

/-- Some block of a message is still unacknowledged. -/
def State.mlOpen (s : State) (id : Nat) : Bool := s.ml.sent.any (·.msg == id) || s.ml.wait.any (·.msg == id)

/-- Messages wholly acknowledged leave, and the replies that waited for them are sent (R437, R440). -/
def State.mlDone (s : State) : State :=
  let due := s.ml.held.filter fun h => !s.mlOpen h.1
  let s1 := { s with ml := { s.ml with
    msgs := s.ml.msgs.filter fun (m : Nat × MlMsg) => s.mlOpen m.1
    held := s.ml.held.filter fun (h : Nat × QEntry × Reply) => s.mlOpen h.1 } }
  due.foldl (fun s h => s.heldReply h.2.1 h.2.2) s1

/-- The peer acknowledges every block before SEQ `a` (R435, R436). -/
def State.mlAck (s : State) (a : Nat) : State :=
  match s.ml.sent with
  | [] => s
  | b :: _ =>
    let n := (a + 65536 - b.seq) % 65536
    if n = 0 ∨ s.ml.sent.length < n then s
    else ({ s with ml := { s.ml with sent := s.ml.sent.drop n, resends := 0 } }.mlDone).mlPump

/-- Resend every unacknowledged block, oldest first (R436). -/
def State.mlResend (s : State) : State :=
  if s.ml.sent.isEmpty then s
  else s.ml.sent.foldl State.mlEmit
    (({ s with ml := { s.ml with resends := s.ml.resends + 1 } }).bumpBy ML_RESENT counter32 s.ml.sent.length)

/-- The ACK field and NAK flag of a block received while the link is up. -/
def State.mlHeard (s : State) (b : List Byte) : State :=
  if !s.linkUp then s
  else if bit (mbFlags b) 2 then (s.mlAck (mbAck b)).mlResend
  else s.mlAck (mbAck b)

/-- Send an ACK block, with NAK for the expected SEQ where asked (R436). -/
def State.ackBlock (s : State) (nak : Bool) : State :=
  { s.emit (.miltia (mlBlock 0x02 (4 * b2n nak) 0 s.ml.rxSeq [])) with ml := { s.ml with ackDue := false, nakSent := s.ml.nakSent || nak } }

/-- A block is discarded: one NAK for each expected SEQ (R436). -/
def State.mlDiscard (s : State) : State := if s.linkUp && !s.ml.nakSent then s.ackBlock true else s

/-- A block of 256 bytes arrives: one that fails its CRC is counted and discarded, one of another type is not this event; else its acknowledgement is taken, and `f` acts; a ladder's dwell counts it (R434 to R436). -/
def blockIn (type : Nat) (b : List Byte) (s : State) (f : State → State) : Host.Outcome State Fault Refusal :=
  whenOn s fun s =>
    if !s.paired || b.length != 256 then s
    else if !mbOk b then ((s.bump ML_CRCERR).linkCount false).mlDiscard
    else if mbType b ≠ type then s
    else f ((s.linkCount true).mlHeard b)

/-! ### Messages received (R438, R439, R459) -/

/-- A message received whole is applied: a checkpoint by a standby, a relayed packet by Nieth, a reply by ML_RELAY_REPLY (R438, R439, R459). -/
def State.mlApply (s : State) (m : MlMsg) : State :=
  match m with
  | .full c => if s.standby then s.ckptApply c else s
  | .delta c => if s.standby && s.ml.ckpt.isSome then s.ckptApply c else s
  | .record c =>
    match s.ml.ckpt with
    | some old => if s.standby then s.ckptApply (old.record c) else s
    | none => s
  | .relay p => s.packetIn .miltia p
  | .relayReply p => { s with ml := { s.ml with replies := s.ml.replies ++ [p] } }

/-- The data of a DATA block accepted in sequence joins its message; the last block completes it (R435, R439). -/
def State.mlTake (s : State) (b : List Byte) : State :=
  let buf := if bit (mbFlags b) 0 then some (mbData b) else s.ml.rxBuf.map fun (x : List Byte) => x ++ mbData b
  match buf with
  | none => s
  | some x =>
    if bit (mbFlags b) 1 then
      let s1 := { s with ml := { s.ml with rxBuf := none } }
      match mlDecode x with
      | some m => s1.mlApply m
      | none => s1
    else { s with ml := { s.ml with rxBuf := some x } }

/-- MILTIA_DATA_BLOCK_RECEIVED (R436). -/
def execMiltiaDataBlockReceived (b : List Byte) (s : State) : Host.Outcome State Fault Refusal :=
  blockIn 0x01 b s fun s =>
    if !s.linkUp then s
    else if mbSeq b = s.ml.rxSeq then
      { s with ml := { s.ml with rxSeq := (s.ml.rxSeq + 1) % 65536, nakSent := false, ackDue := true } }.mlTake b
    else s.mlDiscard

/-- MILTIA_ACK_BLOCK_RECEIVED: it carries its ACK field and NAK flag alone (R436). -/
def execMiltiaAckBlockReceived (b : List Byte) (s : State) : Host.Outcome State Fault Refusal := blockIn 0x02 b s id

/-- MILTIA_IDLE_BLOCK_RECEIVED (R435). -/
def execMiltiaIdleBlockReceived (b : List Byte) (s : State) : Host.Outcome State Fault Refusal := blockIn 0x05 b s id

/-! ### Negotiation (R89, R434) -/

/-- A negotiation message of the peer: HELLO, RUNG_PROPOSE and RUNG_COMMIT are answered as R87 has them, with the message's TAG. DEDUCED: both units climb, and a commit that either has answered moves both (R434). -/
def State.linkAsked (s : State) (msg tag arg : Nat) : State :=
  if msg = 0x01 then { s.linkSend 0x5A 0x01 tag 3 0 with ml := { s.ml with top := arg % 4 } }
  else if msg = 0x02 then s.linkSend 0x5A 0x02 tag arg (b2n (decide (s.rf ML_CTL ML_CTL_TARGET_RUNG < arg)))
  else if msg = 0x03 then (s.linkSend 0x5A 0x03 tag arg 0).linkCommit arg
  else s.linkSend 0x5A msg tag arg 2

/-- A reply of the peer to the message that waits: the ladder's next step (R89). DEDUCED: a rung that the peer refuses ends the climb at the rung reached, and another refusal fails the step (R90, R434). -/
def State.linkAnswered (s : State) (a : LinkAsk) (arg result : Nat) : State :=
  if result ≠ 0 then (if a.msg = 0x02 then { s with ml := { s.ml with ladder := .idle, ask := none } } else s.linkFail)
  else if a.msg = 0x01 then ({ s with ml := { s.ml with top := arg % 4, ask := none } } : State).linkClimb
  else if a.msg = 0x02 then s.linkAsk .commit lkStep 0x03 a.arg
  else s.linkCommit a.arg

/-- A reply is taken where its MSG and TAG are those of the message that waits (R86). -/
def State.linkReply (s : State) (d : List Byte) : State :=
  match s.ml.ask with
  | none => s
  | some a => if beAt d 1 1 = a.msg ∧ beAt d 2 1 = a.tag then s.linkAnswered a (beAt d 3 1) (beAt d 11 1) else s

/-- MILTIA_LINK_BLOCK_RECEIVED: negotiation while a ladder runs (R434). -/
def execMiltiaLinkBlockReceived (b : List Byte) (s : State) : Host.Outcome State Fault Refusal :=
  blockIn 0x04 b s fun s =>
    let d := mbData b
    if !s.linkLadder then s
    else if beAt d 0 1 = 0x4B then s.linkAsked (beAt d 1 1) (beAt d 2 1) (beAt d 3 1)
    else if beAt d 0 1 = 0x5A then s.linkReply d
    else s

/-! ### Timers, loss and recovery (R436, R437) -/

/-- MILTIA_ACK_TIMER (R436). -/
def execMiltiaAckTimer (s : State) : Host.Outcome State Fault Refusal :=
  whenOn s fun s => if s.linkUp && s.ml.ackDue then s.ackBlock false else s

/-- MILTIA_RESEND_TIMEOUT (R436). -/
def execMiltiaResendTimeout (s : State) : Host.Outcome State Fault Refusal :=
  whenOn s fun s => if s.linkUp then s.mlResend else s

/-- The link is no longer up: replies that waited for an acknowledgement are sent (R440), and a WARM standby returns to LAMPBLACK (R453). -/
def State.linkGone (s : State) : State :=
  let s1 := s.setF ML_STAT ML_STAT_LINK_UP 0
  let s2 := s1.ml.held.foldl (fun s h => s.heldReply h.2.1 h.2.2) { s1 with ml := { s1.ml with held := [] } }
  if s2.role = roleWarm then s2.toLampblack else s2

/-- MILTIA_LINK_DOWN: some receive lane has lost lock, now or before, or the oldest block has been resent eight times; where another path works, the loss is flagged and logged (R437, R457). -/
def execMiltiaLinkDown (lock : Nat) (s : State) : Host.Outcome State Fault Refusal :=
  whenOn s fun s =>
    let left := Nat.land (s.rf ML_LINK_STAT ML_LINK_STAT_LOCK) lock
    if s.linkUp && (left != 15 || decide (8 ≤ s.ml.resends)) then
      let s1 := (((s.setF ML_LINK_STAT ML_LINK_STAT_LOCK left).bump ML_LINKDOWN).setF ML_LINK_STAT ML_LINK_STAT_STATE lkDown).linkGone
      if s1.rf ML_HB_STAT ML_HB_STAT_PATH_UP % 4 ≠ 0 then
        (s1.seen ML_STAT ML_STAT_LINK_DOWN_SEEN evPair).logEvent 0x0A04 1 [s1.reg ML_LINK_STAT]
      else s1
    else s

/-- MILTIA_RELOCK_TIMEOUT: a link that has not relocked runs the full ladder from L0 (R437). -/
def execMiltiaRelockTimeout (s : State) : Host.Outcome State Fault Refusal :=
  whenOn s fun s => if s.paired && !s.linkUp && s.link == lkDown && !s.ml.retry then s.linkStart else s

/-- The firmware slot that runs (R493, R498). -/
def State.activeFw (s : State) : FwSlot := if s.flag CP_FW_STAT CP_FW_STAT_ACTIVE_SLOT then s.lc.slotB else s.lc.slotA

/-- The highest checkpoint format in both units' ranges (R501). -/
def ckptFormat (ver min_ peerVer peerMin : Nat) : Option Nat :=
  if max min_ peerMin ≤ min ver peerVer then some (min ver peerVer) else none

/-- MILTIA_LINK_UP: every lane is locked and the link's ladder has ended, or the link has relocked, at its rung, with the peer's CKPT_VER and CKPT_MIN; SEQ restarts at 0, messages not wholly acknowledged are sent again whole, and the active sends a full checkpoint (R437, R438, R501). -/
def execMiltiaLinkUp (rung ver min_ : Nat) (s : State) : Host.Outcome State Fault Refusal :=
  whenOn s fun s =>
    if s.paired && !s.linkUp && s.linkLocked && decide (s.ml.ladder = .idle) && rung == s.linkRung then
      let s1 := (s.setF ML_LINK_STAT ML_LINK_STAT_STATE lkRunning).setF ML_STAT ML_STAT_LINK_UP 1
      let fmt := ckptFormat s.activeFw.ckptVer s.activeFw.ckptMin ver min_
      let s2 := { s1 with ml := { s1.ml with
        sent := [], wait := s.ml.msgs.flatMap fun (m : Nat × MlMsg) => mlBlocks m.1 m.2
        txSeq := 0, rxSeq := 0, nakSent := false, ackDue := false, resends := 0, rxBuf := none, ckptFmt := fmt } }
      let s3 := (s2.setF CP_FW_STAT CP_FW_STAT_CKPT_MISMATCH (b2n fmt.isNone)).mlPump
      if s3.ckptOn then s3.mlSend (.full s3.takeCkpt) else s3
    else s

/-- Block times of the link that have passed by a Saffron cycle at a rung: 514 UI of 160.625 ns at L0, 321.25 cycles (R64, R435). -/
def mlTimes (rung cycle : Nat) : Nat := cycle * 4 * 2 ^ rung / 1285

/-- An IDLE block in each block time of a pair's link. DESIGN CHOICE: it is sent whatever else was sent in that time, and leaves an acknowledgement due (R435, R436). -/
def State.linkIdle (s : State) : State :=
  if s.paired && mlTimes s.linkRung s.time.cycles != mlTimes s.linkRung (s.time.cycles - 1) then s.emit (.miltia (mlBlock 0x05 0 0 s.ml.rxSeq [])) else s

/-! ### Checkpoints sent (R438) -/

/-- CHECKPOINT_FULL_SEND. -/
def execCheckpointFullSend (s : State) : Host.Outcome State Fault Refusal :=
  whenOn s fun s => if s.ckptOn then s.mlSend (.full s.takeCkpt) else s

/-- STATE_RECORD_PERIOD: while no integration runs. -/
def execStateRecordPeriod (s : State) : Host.Outcome State Fault Refusal :=
  whenOn s fun s => if s.integrating && s.pw.compOn then s else s.recordSend

end Sys2Proof.Machine
end

