-- ==== Sys2Proof/Machine/Pair.lean ====
section
/-! DEFINITION. Heartbeats, promotion, leases, Verdigris, takeover and the redundancy commands (R442 to R459). -/

namespace Sys2Proof.Machine

/-! ### Heartbeats (R446 to R449, R451, R456) -/

/-- HEARTBEAT_SEND. -/
def execHeartbeatSend (s : State) : Host.Outcome State Fault Refusal := whenOn s State.hbSend

/-- Bit of ML_HB_STAT.PATH_UP for a path: 0 Miltia, 1 the HB pins, 2 the beacon (R458). -/
def hbBit (p : Nat) : Nat := 2 - p

/-- A received word is valid on a path (R448). -/
def State.hbValid (s : State) (p : Nat) (w : List Byte) : Bool :=
  w.length == 16 && beAt w 0 2 == 0x4842 && crc16 0xFFFF (w.take 14) == beAt w 14 2 && beAt w 10 2 == s.rf ML_CTL ML_CTL_PAIR_ID &&
    beAt w 8 1 != s.rf ML_CTL ML_CTL_UNIT && tblGet 0 s.ml.hbRx p != beAt w 12 2 + 1

/-- The end of dual activity: the span is logged, flagged and counted (R456). -/
def State.dualEnd (s : State) (start : Nat) : State :=
  ((s.logEvent 0x0A03 2 (loHi start ++ loHi s.now)).seen ML_STAT ML_STAT_DUAL_SEEN evPair).bump ML_DUAL

/-- A valid ACTIVE word with epoch `e`: an ACTIVE unit with the lower claim fences; `dark` when no path was up before it (R449, R451, R456, R459). -/
def State.hbActive (s : State) (e : Nat) (dark : Bool) : State :=
  let own := (s.reg ML_EPOCH).toNat
  let s1 := { s.setF ML_HB_STAT ML_HB_STAT_PEER_ACTIVE 1 with ml := { s.ml with silent := false, peerFenced := false, activeAt := s.time.cycles } }
  if s1.ml.pairing then { s1.toLampblack with ml := { s1.ml with pairing := false } }
  else if s1.role = roleActive then
    if own < e ∨ (e = own ∧ s1.flag ML_CTL ML_CTL_UNIT = true) then
      let s2 := s1.fence false none
      if dark then (s2.draw).dualEnd (Config.dualStart s2.free) else s2
    else if s1.ml.dualFrom.isSome then { s1 with ml := { s1.ml with dualHeard := true } }
    else s1
  else s1

/-- A valid word of another STATE: an unconfirmed promotion is confirmed, and a dual activity has ended, one that an ACTIVE word has shown or one that a FENCED word ends (R449, R456). -/
def State.hbOther (s : State) (fenced : Bool) : State :=
  let s1 := if s.ml.dualHeard || fenced then (match s.ml.dualFrom with | some t => s.dualEnd t | none => s) else s
  { s1.setF ML_STAT ML_STAT_UNCONFIRMED 0 with ml := { s1.ml with dualFrom := none, dualHeard := false, peerFenced := s1.ml.peerFenced || fenced } }

/-- A valid heartbeat word; the first since start-up raises the epoch of a unit that is not ACTIVE yet (R432, R448). -/
def State.hbTake (s : State) (p : Nat) (w : List Byte) : State :=
  let e := beAt w 4 4
  let dark := s.rf ML_HB_STAT ML_HB_STAT_PATH_UP == 0
  let s1 := (s.setFB ML_HB_STAT ML_HB_STAT_PATH_UP (hbBit p) true).setF ML_HB_STAT ML_HB_STAT_PEER_STATE (beAt w 2 1)
  let s2 := s1.setReg ML_PEER_EPOCH (w32 (max (s1.reg ML_PEER_EPOCH).toNat e))
  let s3 := if s2.ml.heard || s2.role == roleActive then s2 else s2.setReg ML_EPOCH (w32 (max (s2.reg ML_EPOCH).toNat e))
  let s4 := { s3 with ml := { s3.ml with heard := true, hbRx := tblSet 0 s3.ml.hbRx p (beAt w 12 2 + 1) } }
  if beAt w 2 1 = 1 then s4.hbActive e dark else s4.hbOther (beAt w 2 1 == 4)

/-- A word on a path that an event brings. -/
def State.hbWordIn (s : State) (p : Nat) (w : List Byte) : State := if s.paired && s.hbValid p w then s.hbTake p w else s

/-- HEARTBEAT_WORD_RECEIVED: on path 0 a HEARTBEAT block, on path 1 the sync byte and bytes 2–15, on path 2 the oldest beacon that port `n` holds (R447, R448). -/
def execHeartbeatWordReceived (p n : Nat) (bs : List Byte) (s : State) : Host.Outcome State Fault Refusal :=
  match p with
  | 0 => blockIn 0x03 bs s fun s => s.hbWordIn 0 (mbData bs)
  | 1 => whenOn s fun s => if bs.length = 15 ∧ beAt bs 0 1 = 0xD5 then s.hbWordIn 1 (be 2 0x4842 ++ bs.drop 1) else s
  | _ => whenOn s fun s =>
      match s.rxHead n fun f => f.etype == 0x88B8 with
      | some f => (s.rxTake n f).hbWordIn 2 (f.body.take 16)
      | none => s

/-- HB_PATH_TIMEOUT (R448). -/
def execHbPathTimeout (p : Nat) (s : State) : Host.Outcome State Fault Refusal :=
  whenOn s fun s =>
    if p < 3 ∧ s.rfb ML_HB_STAT ML_HB_STAT_PATH_UP (hbBit p) = true then (s.setFB ML_HB_STAT ML_HB_STAT_PATH_UP (hbBit p) false).bump ML_HB_MISS
    else s

/-! ### Promotion, leases and fences (R449 to R454) -/

/-- PROMOTION: no ACTIVE word for 30 µs, or a FENCED word and no ACTIVE word since (R449). -/
def execPromotion (s : State) : Host.Outcome State Fault Refusal :=
  whenOn s fun s =>
    if !s.standby then s
    else if s.ml.peerFenced then s.tryPromote
    else ({ s.setF ML_HB_STAT ML_HB_STAT_PEER_ACTIVE 0 with ml := { s.ml with silent := true } }).tryPromote

/-- LEASE_START (R450). -/
def execLeaseStart (s : State) : Host.Outcome State Fault Refusal :=
  whenOn s fun s =>
    if s.paired && s.flag ML_CTL ML_CTL_LEASE && !s.flag ML_STAT ML_STAT_LEASE_HELD && s.leaseHolds then
      let s1 := s.setF ML_STAT ML_STAT_LEASE_HELD 1
      if s1.standby && (s1.ml.silent || s1.ml.peerFenced) then s1.tryPromote else s1
    else s

/-- LEASE_EXPIRE (R450, R451). -/
def execLeaseExpire (s : State) : Host.Outcome State Fault Refusal :=
  whenOn s fun s =>
    if s.flag ML_STAT ML_STAT_LEASE_HELD && !s.leaseHolds then
      let s1 := s.setF ML_STAT ML_STAT_LEASE_HELD 0
      if s1.flag ML_CTL ML_CTL_LEASE then s1.fence false none else s1
    else s

/-- FENCE_SETTLE (R451). -/
def execFenceSettle (s : State) : Host.Outcome State Fault Refusal := whenOn s State.settle

/-- HANDOVER_DISCARD_QUEUED (R454 step 4). -/
def execHandoverDiscardQueued (s : State) : Host.Outcome State Fault Refusal :=
  whenOn s fun s => if s.ml.drainOld then { s.dropOutputs with ml := { s.ml with drainOld := false } } else s

/-- PAIRING_WAIT_EXPIRE (R459). -/
def execPairingWaitExpire (s : State) : Host.Outcome State Fault Refusal := whenOn s fun s => if s.ml.pairing then s.pairedAlone else s

/-- TAKEOVER_COMPUTE_READY: the compute dies are powered, the last complete checkpoint is applied, and its scheduler entries are live (R452 step 4). -/
def execTakeoverComputeReady (s : State) : Host.Outcome State Fault Refusal :=
  whenOn s fun s =>
    if s.ml.takeover && s.role == roleActive && !s.thermal then
      { s.compUp.takeSeqs with ml := { s.ml with takeover := false, takeBoundary := true } }
    else s

/-- TAKEOVER_BOUNDARY: the pipeline starts at the next spectrum boundary, or that of a WARM unit is unmuted there (R452 steps 5 and 7). -/
def execTakeoverBoundary (s : State) : Host.Outcome State Fault Refusal :=
  whenOn s fun s =>
    if s.ml.takeBoundary && s.role == roleActive then
      let s1 := { s with ml := { s.ml with takeBoundary := false } }
      if s1.ml.cold then s1.takeCold (spectrumAt s1.now) else s1.takeWarm false
    else s

/-! ### Verdigris (R444, R445) -/

/-- The die of an item: tile groups on the compute dies, slices on the I/O-and-control die (R443, R444). -/
def dieOfItem (i : Nat) : Nat := (itemDie i).getD 2

/-- The item after `i` is next; after the last a sweep has been completed (R444). -/
def State.itemOver (s : State) (i : Nat) : State :=
  let s1 := { s with ml := { s.ml with item := none, nextItem := (i + 1) % 128 } }
  if i = 127 then { s1 with ml := { s1.ml with sweeps := s1.ml.sweeps + 1, sweepAtc := s1.now } } else s1

/-- A report that differs from the previous one is logged and signalled (R445). DESIGN CHOICE: a report is made at the end of each item, and the whole of it is compared. -/
def State.healthCheck (s : State) : State :=
  let r := s.healthReport
  let s1 := s.setF ML_STAT ML_STAT_HEALTH_FAIL (b2n !s.healthy)
  if r = s.ml.report then s1
  else ({ s1 with ml := { s1.ml with report := r } }.logEvent 0x0A02 1 r).raise evPair

/-- VERDIGRIS_ITEM_START: the next item is powered, or skipped where its die is at 100 °C or more (R444, R485). -/
def execVerdigrisItemStart (s : State) : Host.Outcome State Fault Refusal :=
  whenOn s fun s =>
    if s.role = roleLampblack ∧ s.ml.item = none ∧ s.thermal = false then
      let i := s.ml.nextItem
      if s.dieHot (dieOfItem i) (deg 100) then s.itemOver i
      else
        let s1 := { s with ml := { s.ml with item := some i } }
        match itemDie i with
        | some d => s1.dieUp d
        | none => s1
    else s

/-- VERDIGRIS_ITEM_DONE: the item's signature matches or does not (R444, R445). -/
def execVerdigrisItemDone (pass : Bool) (s : State) : Host.Outcome State Fault Refusal :=
  whenOn s fun s =>
    match s.ml.item with
    | none => s
    | some i =>
      if s.role = roleLampblack then
        let s1 := { s with ml := { s.ml with fails := tblSet false s.ml.fails i (!pass) } }
        let s2 := match itemDie i with | some d => s1.sensFresh d | none => s1
        (s2.itemOver i).healthCheck
      else s

/-! ### Commands (R459) -/

/-- The seven counters (R458). -/
def mlCounters : List Nat := [ML_CRCERR, ML_RESENT, ML_LINKDOWN, ML_HB_MISS, ML_PROMOTIONS, ML_FENCES, ML_DUAL]

/-- ROLE_STATUS. -/
def execRoleStatus (c : Cmd) (s : State) : Host.Outcome State Fault Refusal :=
  .next (s.command 0x0A01 c (fun _ => needLen 0 c) fun s =>
    .ok (([ML_STAT, ML_LINK_STAT, ML_HB_STAT, ML_EPOCH, ML_PEER_EPOCH, ML_CKPT_AGE, ML_LEASE_END_LO, ML_LEASE_END_HI] ++ mlCounters).map s.readReg) s)

/-- Put ML_CTL and the beacon address into force (R431, R459). -/
def State.roleConfig (s : State) (c : Cmd) : State :=
  let s1 := s.configAll [(ML_CTL, c.w 0), (ML_BEACON_DMAC_LO, c.w 1), (ML_BEACON_DMAC_HI, c.w 2)]
  if s1.paired then
    if s.role = roleUnpaired ∧ s.paired = false then { s1 with ml := { s1.ml with pairing := true } }.linkStart else s1
  else
    let s2 := { s1.linkOff .idle lkDown with ml := { (s1.linkOff .idle lkDown).ml with pairing := false, item := none } }
    if s.role = roleUnpaired then s2 else s2.toUnpaired

/-- ROLE_CONFIG. -/
def execRoleConfig (c : Cmd) (s : State) : Host.Outcome State Fault Refusal :=
  .next (s.command 0x0A02 c (fun _ => (needLen 3 c).or (badIf (badImage ML_CTL (c.w 0)) 0)) fun s =>
    if s.role = roleUnpaired ∨ s.role = roleLampblack ∨ s.role = roleFenced then .ok [] (s.roleConfig c) else bad stWrongState [])

/-- Put a lease into force; an ACTIVE unit that no longer holds one fences (R450). -/
def State.leaseSet (s : State) (start stop : Nat) : State :=
  let held := s.flag ML_STAT ML_STAT_LEASE_HELD
  let s1 := { s with ml := { s.ml with lease := some (start, stop) } }.setReg64 ML_LEASE_END_LO stop
  let s2 := s1.setF ML_STAT ML_STAT_LEASE_HELD (b2n s1.leaseHolds)
  if held && !s1.leaseHolds then s2.fence false none
  else if !held && s1.leaseHolds && s2.standby && (s2.ml.silent || s2.ml.peerFenced) then s2.tryPromote
  else s2

/-- ROLE_LEASE; its TIME_PAST refusals count in SC_LATE, as all do (R430). -/
def execRoleLease (c : Cmd) (s : State) : Host.Outcome State Fault Refusal :=
  .next (s.command 0x0A03 c (fun _ => (needLen 4 c).or (badIf (decide (c.q 2 ≤ c.q 0)) 2)) fun s =>
    if !s.flag ML_CTL ML_CTL_LEASE || !s.running || s.core == coreFreeRun then bad stWrongState []
    else if c.q 2 ≤ s.now then .counted ⟨stTimePast, 0, []⟩ (s.bump SC_LATE)
    else .ok [] (s.leaseSet (c.q 0) (c.q 2)))

/-- ROLE_WARM. -/
def execRoleWarm (c : Cmd) (s : State) : Host.Outcome State Fault Refusal :=
  .next (s.command 0x0A04 c (fun _ => needLen 1 c) fun s =>
    if !s.standby || !s.linkUp then bad stWrongState []
    else if s.ml.warming.isSome then bad stResourceBusy []
    else .progress [] { s with ml := { s.ml with warming := some (bit (c.w 0).toNat 0) } })

/-- ROLE_WARM_DONE: the change is complete, unless the unit has left its role or lost the link meanwhile (R453). -/
def execRoleWarmDone (s : State) : Host.Outcome State Fault Refusal :=
  whenOn s fun s =>
    match s.runningOp 0x0A04 with
    | none => s
    | some q =>
      let s1 := { s with ml := { s.ml with warming := none } }
      match s.ml.warming with
      | none => s1.final q stWrongState []
      | some b =>
        if !s.standby || (b && !s.linkUp) then s1.final q stWrongState []
        else if b && s.role == roleLampblack then (if s.thermal then s else s1.toWarm.final q stOk [])
        else if !b && s.role == roleWarm then s1.toLampblack.final q stOk []
        else s1.final q stOk []

/-- ROLE_FENCE. -/
def execRoleFence (c : Cmd) (s : State) : Host.Outcome State Fault Refusal :=
  .next (s.command 0x0A06 c (fun _ => needLen 1 c) fun s =>
    if s.role = roleActive then .ok [] (s.fence (bit (c.w 0).toNat 0) none) else bad stWrongState [])

/-- The packet that an ML_RELAY payload carries, with flag [3] set and its CRC-32C made again (R398, R459). -/
def relayPacket (ws : List Word) : List Byte :=
  let b := wordsBE ws
  let h := b.take 3 ++ be 1 (setBit (beAt b 3 1) 3) ++ slice b 4 (b.length - 8)
  h ++ be 4 (crc32c h)

/-- ML_RELAY's parameter rules: the payload is one complete packet (R398, R459). -/
def relayBad (c : Cmd) : Option Bad :=
  let b := wordsBE c.payload
  if b.length < 20 ∨ b.length ≠ 20 + 4 * beAt b 6 2 then some ⟨stBadLength, min c.payload.length (5 + beAt b 6 2), []⟩
  else (badIf (!headerOk b) 0).or (badIf (!crcOk b) (c.payload.length - 1))

/-- ML_RELAY. -/
def execMlRelay (c : Cmd) (s : State) : Host.Outcome State Fault Refusal :=
  .next (s.command 0x0A07 c (fun _ => relayBad c) fun s =>
    if s.linkUp then .progress [] (s.mlSend (.relay (relayPacket c.payload))) else bad stWrongState [])

/-- ML_RELAY_REPLY: the oldest reply packet of the peer, given to the relay whose packet has its sequence and source (R459). -/
def execMlRelayReply (s : State) : Host.Outcome State Fault Refusal :=
  whenOn s fun s =>
    match s.ml.replies with
    | [] => s
    | p :: ps =>
      let s1 := { s with ml := { s.ml with replies := ps } }
      match s.cp.running.find? fun q => q.op == opRelay && (q.cmd.w 2).toNat == beAt p 8 4 && (q.cmd.w 3).toNat == beAt p 12 4 with
      | some q => s1.final q stOk (packWordsBE p)
      | none => s1

/-- ROLE_HEALTH. -/
def execRoleHealth (c : Cmd) (s : State) : Host.Outcome State Fault Refusal :=
  .next (s.command 0x0A08 c (fun _ => needLen 0 c) fun s => .ok s.healthReport s)

/-- A planned handover is queued. -/
def State.handoverQueued (s : State) : Bool := s.events.any fun e => e.op == 0x0A05

/-- ML_LADDER. -/
def execMlLadder (c : Cmd) (s : State) : Host.Outcome State Fault Refusal :=
  .next (s.command 0x0A09 c (fun _ => needLen 1 c) fun s =>
    if !s.paired then bad stWrongState []
    else if s.handoverQueued then bad stWrongState []
    else if s.linkLadder then bad stResourceBusy []
    else .ok [] ((s.setF ML_CTL ML_CTL_TARGET_RUNG (c.f 0 31 30)).linkGone.linkStart))

/-- ML_CNT_CLR.ALL (R458). -/
def execMlCntClrAll (s : State) : Host.Outcome State Fault Refusal := whenOn s fun s => s.clearCounters mlCounters

end Sys2Proof.Machine
end

