-- ==== Sys2Proof/Machine/Dma.lean ====
section
/-! DEFINITION. The DMA engine: descriptors, beats, completion, errors and the DMA commands (R367 to R389). -/

namespace Sys2Proof.Machine

/-! ### The address space (R368, R369) -/

/-- Some stripe of `k` from stripe `i` on lies in a channel of a mask. -/
def State.stripeIn (s : State) (mask : Nat) (i k : Nat) : Bool := (List.range (min k 40)).any fun j => bit mask (s.drChan ((i + j) * 256))

/-- A range of DRAM meets the test area of a running sweep (R361). -/
def State.inSweep (s : State) (a n : Nat) : Bool :=
  match s.dr.sweep with
  | none => false
  | some w =>
    let rank := 2 ^ (28 + s.rf DR_CFG DR_CFG_DENS)
    (List.range s.drRanks).any fun r =>
      let lo := max a (2 ^ s.drM * (rank * (r + 1) - 1048576))
      let hi := min (a + n) (2 ^ s.drM * (rank * (r + 1)))
      decide (lo < hi) && s.stripeIn w.1 (lo / 256) ((hi - 1) / 256 - lo / 256 + 1)

/-- A range of DRAM meets a region that the engine may not write (R369). -/
def State.dmProtected (s : State) (a n : Nat) : Bool :=
  !apart a n (s.reg64 IX_DUMP_BASE_LO) (s.reg IX_DUMP_LEN).toNat ||
    (s.ubState != ubOff && !apart a n (s.reg64 SF_UB_BASE_LO) (s.rf SF_UB_LEN SF_UB_LEN_LEN * s.rf SF_UB_SLAB SF_UB_SLAB_SLAB)) ||
    (List.range 64).any (fun k => (s.slice k).hdr.ring && s.sliceState k == mdRunning &&
      !apart a n (s.reg64 (MD_SL_RING_BASE_LO k)) (s.reg (MD_SL_RING_LEN k)).toNat) || s.inSweep a n

/-- An address lies in the host window. -/
def isHost (a : Nat) : Bool := decide (2 ^ 63 ≤ a)

/-- A range lies wholly within one window and does not wrap. -/
def State.oneWindow (s : State) (a n : Nat) : Bool := n == 0 || (decide (a + n ≤ 2 ^ 64) && (isHost a || s.drIn a n))

/-- An access has no window, or would write a protected region: a decode error (R368, R369). -/
def State.dmUndecoded (s : State) (a n : Nat) (w : Bool) : Bool :=
  !(n == 0) && (!s.oneWindow a n || (!isHost a && (!s.drReady || (w && s.dmProtected a n))))

/-! ### Channels -/

/-- A channel without a chain. -/
def dmChan0 : DmChan := { descs := [], fetch := none, go := none, again := false, hops := 0, retry := 0, limit := 0, halt := none }

/-- Channel `n`. -/
def State.dmc (s : State) (n : Nat) : DmChan := tblGet dmChan0 s.dm.chans n

/-- Replace a channel. -/
def State.setDmc (s : State) (n : Nat) (c : DmChan) : State := { s with dm := { s.dm with chans := tblSet dmChan0 s.dm.chans n c } }

/-- The states of R375. -/
def dmIdle : Nat := 0
def dmRunning : Nat := 1
def dmWaiting : Nat := 2
def dmHalted : Nat := 3

/-- State of a channel. -/
def State.dmState (s : State) (n : Nat) : Nat := s.rf (DM_CH_STAT n) DM_CH_STAT_STATE

/-- OP, and the flags of CTL (R370). -/
def DmDesc.op (d : DmDesc) : Nat := d.ctl % 4
def DmDesc.barrier (d : DmDesc) : Bool := bit d.ctl 2
def DmDesc.irq (d : DmDesc) : Bool := bit d.ctl 3
def DmDesc.last (d : DmDesc) : Bool := bit d.ctl 4
def DmDesc.ring (d : DmDesc) : Bool := bit d.ctl 5
def DmDesc.cmpStop (d : DmDesc) : Bool := bit d.ctl 7
def DmDesc.wb (d : DmDesc) : Bool := bit d.ctl 8

/-- Count 0, and every write or read complete (R380). -/
def DmDesc.finished (d : DmDesc) : Bool := d.issued == d.count && d.beats.isEmpty && !d.dead

/-- The next beat of a descriptor ends at a 64-byte boundary of its destination (R367). -/
def DmDesc.beatLen (d : DmDesc) : Nat := min (d.count - d.issued) (64 - (d.dst + d.issued) % 64)

/-- What DRAM holds under an access; nothing for host memory. -/
def State.dmPeek (s : State) (a n : Nat) : List Byte := if isHost a then [] else s.memRead a n

/-- A beat as it is issued. -/
def dmBeat (off len tries : Nat) : DmBeat := { off := off, len := len, tries := tries, wait := false, keep := false, src := [] }

/-- Beats in flight on a channel. -/
def DmChan.flying (c : DmChan) : Nat := (c.descs.map fun d => d.beats.length).sum

/-- Issue beats of a descriptor while it has some left, none has failed whose retry has not succeeded and fewer than 16 fly; `fuel` bounds them (R367, R382). -/
def dmIssueOne (flying : Nat) : Nat → DmDesc → DmDesc
  | 0, d => d
  | k + 1, d =>
    if d.issued < d.count ∧ flying + d.beats.length < 16 ∧ !(d.beats.any fun b => b.wait || decide (0 < b.tries)) then
      dmIssueOne flying k { d with beats := d.beats ++ [dmBeat d.issued d.beatLen 0], issued := d.issued + d.beatLen }
    else d

/-- Issue beats of every descriptor, oldest first. -/
def dmIssueAll : Nat → List DmDesc → List DmDesc
  | _, [] => []
  | fl, d :: ds =>
    let e := dmIssueOne (fl + (ds.map fun x => x.beats.length).sum) 16 d
    e :: dmIssueAll (fl + e.beats.length) ds

/-- DM_CH_REMAIN while RUNNING: bytes of the newest descriptor not yet issued (R388). -/
def State.dmShow (s : State) (n : Nat) : State :=
  match (s.dmc n).descs.getLast? with
  | some d => s.setReg (DM_CH_REMAIN n) (w32 (d.count - d.issued))
  | none => s

/-- Start a fetch. -/
def State.dmFetch (s : State) (n a : Nat) (again : Bool) : State :=
  (s.setDmc n { s.dmc n with fetch := some (a, 0, false), again := again }).setReg64 (DM_CH_CUR_LO n) a

/-! ### Interrupts (R380, R385, R387, R554) -/

/-- Set a channel's status bits; one message where either rises while enabled. -/
def State.dmSignal (s : State) (n : Nat) (irq halt : Bool) : State :=
  let rises := (irq && !s.rfb DM_INT_STAT DM_INT_STAT_CH n && s.rfb DM_INT_EN DM_INT_EN_CH n) ||
    (halt && !s.rfb DM_HALT_STAT DM_HALT_STAT_CH n && s.rfb DM_HALT_EN DM_HALT_EN_CH n)
  let s1 := if irq then s.setSeenB DM_INT_STAT DM_INT_STAT_CH n else s
  let s2 := if halt then s1.setSeenB DM_HALT_STAT DM_HALT_STAT_CH n else s1
  if rises then s2.signal n else s2

/-! ### Halting (R376, R384, R385, R386) -/

/-- The codes of R385. -/
def dmBusError : Nat := 1
def dmTimeout : Nat := 2
def dmLastBeat : Nat := 3
def dmHopLimit : Nat := 4
def dmDecode : Nat := 5
def dmDescError : Nat := 6
def dmMismatch : Nat := 7
def dmAborted : Nat := 8

/-- The channel is HALTED: the fields of R385, its bit of DM_HALT_STAT, and the replies of DM_ABORT (R389). -/
def State.dmHalt (s : State) (n : Nat) (h : DmHalt) : State :=
  let st := DM_CH_STAT n
  let s1 := s.setDmc n { s.dmc n with descs := [], fetch := none, go := none, halt := none }
  let s2 := ((((s1.setF st DM_CH_STAT_STATE dmHalted).setF st DM_CH_STAT_CODE h.code).setF st DM_CH_STAT_OVERLAP (b2n h.overlap)).setF
    st DM_CH_STAT_DESC_FETCH (b2n h.fetch)).setReg64 (DM_CH_CUR_LO n) h.cur
  (((s2.setReg64 (DM_CH_ERRADDR_LO n) h.err).setReg (DM_CH_REMAIN n) (w32 h.remain)).dmSignal n false true)

/-- An access other than a waiting retry is in flight, or a descriptor has ended whose completion is still to be counted. -/
def DmChan.busy (c : DmChan) : Bool := c.descs.any fun d => d.beats.any (fun b => !b.wait) || (d.finished && !d.wbWait)

/-- First byte of a descriptor not yet written or compared, as an offset. -/
def DmDesc.undone (d : DmDesc) : Nat := d.beats.foldl (fun m b => min m b.off) d.issued

/-- The next descriptor had begun behind descriptor `j`, whose BARRIER is 0 (R385). -/
def DmChan.overlapped (c : DmChan) (j : Nat) : Bool := match c.descs[j]? with | some d => !d.barrier && decide (j + 1 < c.descs.length) | none => false

/-- A halt as it is reported: REMAIN counts from the first byte that the failing descriptor has not written or compared at the halt, which for a mismatch is no later than the byte that differs (R385, R386). -/
def DmChan.report (c : DmChan) (h : DmHalt) : DmHalt :=
  match c.descs.find? (·.dead) with
  | some d =>
    if h.fetch || h.code == dmLastBeat then h
    else { h with remain := max (if h.code = dmMismatch then h.remain else 0) (d.count - d.undone) }
  | none => h

/-- A channel that is to halt, other than by an abort, halts once nothing is in flight. -/
def State.dmSettle (s : State) (n : Nat) : State :=
  match (s.dmc n).halt with
  | some h => if h.code = dmAborted ∨ (s.dmc n).busy then s else s.dmHalt n ((s.dmc n).report h)
  | none => s

/-- The channel is to halt: nothing more is issued or retried, and descriptor `j` and those behind it do not complete. -/
def State.dmStop (s : State) (n j : Nat) (h : DmHalt) : State :=
  let c := s.dmc n
  if c.halt.isSome then s.dmSettle n
  else (s.setDmc n { c with halt := some h, fetch := none, descs := c.descs.mapIdx fun i d => { d with dead := decide (j ≤ i) } }).dmSettle n

/-! ### Fetching (R371, R377 to R379) -/

/-- Whether the channel goes on to a further descriptor now, and from which address: the newest has been issued whole, and with BARRIER it is complete (R377, R381). -/
def DmChan.wants (c : DmChan) : Option Nat :=
  if c.halt.isSome || c.fetch.isSome || c.go.isSome then none
  else
    match c.descs.getLast? with
    | none => none
    | some d => if !d.last && d.issued == d.count && !d.barrier then some d.next else none

/-- Go on to a further descriptor, or halt at the hop limit once all before it are complete (R379). -/
def State.dmNext (s : State) (n a : Nat) : State :=
  let c := s.dmc n
  if c.limit ≤ c.hops then
    if c.descs.isEmpty then s.dmStop n 0 { code := dmHopLimit, cur := a, err := a, remain := 0, fetch := false, overlap := false }
    else s.setDmc n { c with go := some a }
  else (s.setDmc n { c with go := none }).dmFetch n a false

/-- Issue what may be issued and fetch what may be fetched (R367, R381, R382). -/
def State.dmAdvance (s : State) (n : Nat) : State :=
  let c := s.dmc n
  if c.halt.isSome then s.dmSettle n
  else
    let s1 := (s.setDmc n { c with descs := dmIssueAll 0 c.descs }).dmShow n
    match (if s.dmState n = dmRunning then (s1.dmc n).wants else none) with
    | some a => s1.dmNext n a
    | none => s1

/-- A descriptor as fetched from `a`. -/
def dmParse (a : Nat) (b : List Byte) : DmDesc :=
  { addr := a, src := leAt b 0 8, dst := leAt b 8 8, next := leAt b 16 8, count := leAt b 24 4, ctl := leAt b 28 2
    issued := 0, beats := [], wbTries := 0, wbWait := false, dead := false }

/-- The checks of R371 fail. -/
def State.descBad (s : State) (d : DmDesc) : Bool :=
  d.op == 3 || bits d.ctl 14 9 != 0 || bit d.ctl 6 || (!d.last && d.next % 32 != 0) ||
    (d.op != 1 && !s.oneWindow d.src d.count) || !s.oneWindow d.dst d.count ||
    (d.op != 2 && d.count != 0 && !isHost d.dst && s.dmProtected d.dst d.count) ||
    (d.op == 0 && decide (d.src < d.dst) && decide (d.dst < d.src + d.count))

/-- A decode error of descriptor `j` halts at once and is logged (R384). -/
def State.dmDecodeHalt (s : State) (n j a : Nat) (h : DmHalt) : State := (s.violation 4 avAddress a 0).dmStop n j { h with code := dmDecode }

/-- A fetched descriptor: not handed back, refused, or begun (R371, R378). -/
def State.dmBegin (s : State) (n a : Nat) (d : DmDesc) : State :=
  let c := s.dmc n
  let c1 := { c with fetch := none, hops := if c.again then c.hops else c.hops + 1, again := false }
  if d.wb && bit d.ctl 15 then (s.setDmc n c1).setF (DM_CH_STAT n) DM_CH_STAT_STATE dmWaiting
  else if s.descBad d then
    (s.setDmc n c1).dmStop n c1.descs.length { code := dmDescError, cur := a, err := a, remain := d.count, fetch := true, overlap := false }
  else (s.setDmc n { c1 with descs := c1.descs ++ [d] }).dmAdvance n

/-- DESCRIPTOR_FETCH_DONE: what host memory returned, where the descriptor lies there. -/
def execDescriptorFetchDone (n : Nat) (host : List Byte) (s : State) : Host.Outcome State Fault Refusal :=
  whenOn s fun s =>
    match (s.dmc n).fetch with
    | some (a, _, false) =>
      if s.dmUndecoded a 32 false then s.dmDecodeHalt n (s.dmc n).descs.length a { code := 0, cur := a, err := a, remain := 0, fetch := true, overlap := false }
      else if !isHost a && s.poisoned a 32 then s.drUes a 32
      else s.dmBegin n a (dmParse a (if isHost a then slice host 0 32 else s.memRead a 32))
    | _ => s

/-! ### Beats (R372 to R374, R380) -/

/-- Index of the oldest beat of a descriptor that waits for nothing. -/
def DmDesc.firstBeat (d : DmDesc) : Option DmBeat := d.beats.find? fun b => !b.wait

/-- A descriptor without a beat. -/
def DmDesc.drop (d : DmDesc) (b : DmBeat) : DmDesc := { d with beats := d.beats.erase b }

/-- A descriptor with a beat that has failed and is not written. -/
def DmDesc.fail (d : DmDesc) (b : DmBeat) : DmDesc := { d with beats := d.beats.map fun x => if x = b then { b with wait := true } else x }

/-- Replace descriptor `j`. -/
def State.setDesc (s : State) (n j : Nat) (d : DmDesc) : State := s.setDmc n { s.dmc n with descs := (s.dmc n).descs.set j d }

/-- The bytes that a FILL writes at an address: byte a mod 8 of the constant (R373). -/
def fillBytes (src a len : Nat) : List Byte := (List.range len).map fun i => BitVec.ofNat 8 (src / 256 ^ ((a + i) % 8))

/-- Write to a window. -/
def State.dmWrite (s : State) (a : Nat) (bs : List Byte) : State :=
  if isHost a then s.emit (.hostWrite (a - 2 ^ 63) bs) else s.drWrite a bs

/-- Offset of the first byte in which two runs differ. -/
def firstDiff : List Byte → List Byte → Nat → Option Nat
  | x :: xs, y :: ys, i => if x = y then firstDiff xs ys (i + 1) else some i
  | _, _, _ => none

/-- A compared beat (R374). -/
def State.dmCompare (s : State) (n j : Nat) (d : DmDesc) (b : DmBeat) (src dst : List Byte) : State :=
  match firstDiff src dst 0 with
  | none => s
  | some i =>
    let s1 :=
      if s.flag (DM_CH_STAT n) DM_CH_STAT_CMP_FAIL then s
      else (s.setReg64 (DM_CH_CMPADDR_LO n) (d.dst + b.off + i)).setSeen (DM_CH_STAT n) DM_CH_STAT_CMP_FAIL 1
    if d.cmpStop then
      s1.dmStop n j { code := dmMismatch, cur := d.addr, err := d.dst + b.off, remain := d.count - (b.off + i), fetch := false, overlap := (s1.dmc n).overlapped j }
    else s1

/-- The addresses that a beat reads and writes: reads first. One whose write is resent reads nothing. -/
def beatReads (d : DmDesc) (b : DmBeat) : List Nat :=
  if d.op = 0 then (if b.keep then [] else [d.src + b.off]) else if d.op = 1 then [] else [d.src + b.off, d.dst + b.off]
def beatWrites (d : DmDesc) (b : DmBeat) : List Nat := if d.op = 2 then [] else [d.dst + b.off]

/-- The first address of a beat that no longer decodes (R384). -/
def State.beatUndecoded (s : State) (d : DmDesc) (b : DmBeat) : Option Nat :=
  ((beatReads d b).find? fun a => s.dmUndecoded a b.len false).or ((beatWrites d b).find? fun a => s.dmUndecoded a b.len true)

/-- Two beats touch the same DRAM bytes, and one of them writes there. -/
def beatsMeet (d : DmDesc) (b : DmBeat) (e : DmDesc) (c : DmBeat) : Bool :=
  let meet := fun (x y : List Nat) => x.any fun a => y.any fun a' => !isHost a && decide (a < a' + c.len) && decide (a' < a + b.len)
  meet (beatWrites d b) (beatReads e c ++ beatWrites e c) || meet (beatReads d b) (beatWrites e c)

/-- A beat issued before beat `b` of descriptor `j` touches the same DRAM bytes and is not done: `b` waits for it (R343, R382). One that no retry follows, on a channel that is to halt, holds nothing up. -/
def DmChan.beatHeld (c : DmChan) (j : Nat) (d : DmDesc) (b : DmBeat) : Bool :=
  (c.descs.zipIdx.take (j + 1)).any fun e =>
    (if e.2 = j then e.1.beats.takeWhile (· != b) else e.1.beats).any fun x => !(x.wait && c.halt.isSome) && beatsMeet d b e.1 x

/-- Some DRAM source of a beat holds a double-bit error (R338, R383). -/
def State.beatPoisoned (s : State) (d : DmDesc) (b : DmBeat) : Bool := (beatReads d b).any fun a => !isHost a && s.poisoned a b.len

/-- The halt that a failed beat brings: ERRADDR is its DST address, or its SRC address where only the read failed; LAST_BEAT for the last one (R385, R386). -/
def DmChan.beatHalt (c : DmChan) (j : Nat) (d : DmDesc) (b : DmBeat) (code : Nat) (read : Bool) : DmHalt :=
  let last := decide (d.count ≤ b.off + b.len) && decide (code ≤ dmTimeout)
  { code := if last then dmLastBeat else code, cur := d.addr, err := if read then d.src + b.off else d.dst + b.off
    remain := if last then b.len else d.count - d.undone, fetch := false, overlap := c.overlapped j }

/-- A beat of descriptor `j` that decodes completes, with what host memory returned for its source and its checked data; DRAM is read now, whatever was issued before it being done (R343, R372, R374). -/
def State.dmBeatDone (s : State) (n j : Nat) (d : DmDesc) (b : DmBeat) (src dst : List Byte) : State :=
  let x := if isHost d.src then Sys2Proof.Machine.slice src 0 b.len else if b.keep then b.src else s.memRead (d.src + b.off) b.len
  let y := if isHost d.dst then Sys2Proof.Machine.slice dst 0 b.len else s.memRead (d.dst + b.off) b.len
  let s1 := s.setDesc n j (d.drop b)
  let s2 :=
    match d.op with
    | 0 => s1.dmWrite (d.dst + b.off) x
    | 1 => s1.dmWrite (d.dst + b.off) (fillBytes d.src (d.dst + b.off) b.len)
    | _ => s1.dmCompare n j d b x y
  s2.dmAdvance n

/-- What the codewords of a beat's DRAM reads hold: errors are handled as in any read (R337, R338). -/
def State.beatFound (s : State) (d : DmDesc) (b : DmBeat) (src dst : List Byte) : State :=
  (beatReads d b).foldl (fun s a =>
    if isHost a then s else s.drFound a b.len ((if a = d.dst + b.off && d.op == 2 then dst else src).map fun x => x.toNat)) s

/-- DMA_BEAT_DONE: the oldest beat of descriptor `j` of a channel, oldest first, with what host memory returned or what DRAM's codewords hold. One whose DRAM data is poisoned is not done: the read is a bus error, which DMA_BEAT_ERROR takes up (R338, R383). -/
def execDmaBeatDone (n j : Nat) (src dst : List Byte) (s : State) : Host.Outcome State Fault Refusal :=
  whenOn s fun s =>
    match (s.dmc n).descs[j]? with
    | none => s
    | some d =>
      match d.firstBeat with
      | none => s
      | some b =>
        match s.beatUndecoded d b with
        | some a => (s.setDesc n j (d.fail b)).dmDecodeHalt n j a ((s.dmc n).beatHalt j d b dmDecode (a == d.src + b.off && d.op != 1))
        | none =>
          if (s.dmc n).beatHeld j d b then s
          else
            let s1 := s.beatFound d b src dst
            if s1.beatPoisoned d b then s1 else s1.dmBeatDone n j d b src dst

/-! ### Errors and retries (R383) -/

/-- A bus error or timeout of a fetch: retried, or the channel halts. -/
def State.fetchFails (s : State) (n a tries code : Nat) : State :=
  let c := s.dmc n
  if tries < c.retry then s.setDmc n { c with fetch := some (a, tries, true) }
  else (s.setDmc n { c with fetch := none }).dmStop n c.descs.length { code := code, cur := a, err := a, remain := 0, fetch := true, overlap := false }

/-- A bus error or timeout of a beat: retried, or the channel halts. None is retried on a channel that is to halt. -/
def State.beatFails (s : State) (n j : Nat) (d : DmDesc) (b : DmBeat) (code : Nat) (read : Bool) : State :=
  let c := s.dmc n
  if c.halt.isSome then (s.setDesc n j (d.fail b)).dmSettle n
  else if b.tries < c.retry then
    let held := if read || d.op != 0 || b.keep then b.src else s.dmPeek (d.src + b.off) b.len
    s.setDesc n j { d with beats := d.beats.map fun x => if x = b then { b with wait := true, keep := !read && d.op == 0, src := held } else x }
  else (s.setDesc n j (d.fail b)).dmStop n j (c.beatHalt j d b code read)

/-- A bus error of a DONE write-back: retried, or the channel halts. -/
def State.wbFails (s : State) (n j : Nat) (d : DmDesc) (code : Nat) : State :=
  let c := s.dmc n
  if c.halt.isSome then (s.setDesc n j { d with wbWait := true }).dmSettle n
  else if d.wbTries < c.retry then s.setDesc n j { d with wbWait := true }
  else s.dmStop n j { code := code, cur := d.addr, err := d.addr, remain := 0, fetch := true, overlap := c.overlapped j }

/-- A DONE write-back that no longer decodes: the channel halts at once; on one that is to halt already, the descriptor is held up for nothing more (R384). -/
def State.wbUndecoded (s : State) (n j : Nat) (d : DmDesc) : State :=
  if (s.dmc n).halt.isSome then ((s.violation 4 avAddress d.addr 0).setDesc n j { d with wbWait := true }).dmSettle n
  else s.dmDecodeHalt n j d.addr { code := 0, cur := d.addr, err := d.addr, remain := 0, fetch := true, overlap := (s.dmc n).overlapped j }

/-- An access fails with a code: a decode error is never retried (R384). -/
def State.dmFails (s : State) (n code : Nat) (x : DmAccess) : State :=
  match x with
  | .fetch =>
    match (s.dmc n).fetch with
    | some (a, t, false) =>
      if s.dmUndecoded a 32 false then s.dmDecodeHalt n (s.dmc n).descs.length a { code := 0, cur := a, err := a, remain := 0, fetch := true, overlap := false }
      else s.fetchFails n a t code
    | _ => s
  | .beat j i read =>
    match (s.dmc n).descs[j]? with
    | none => s
    | some d =>
      match d.beats[i]? with
      | none => s
      | some b =>
        if b.wait then s
        else
          match s.beatUndecoded d b with
          | some a => (s.setDesc n j (d.fail b)).dmDecodeHalt n j a ((s.dmc n).beatHalt j d b dmDecode (a == d.src + b.off && d.op != 1))
          | none => s.beatFails n j d b code (read && d.op != 1)
  | .writeBack j =>
    match (s.dmc n).descs[j]? with
    | some d =>
      if d.wb && d.finished && !d.wbWait then
        if s.dmUndecoded (d.addr + 29) 1 true then s.wbUndecoded n j d else s.wbFails n j d code
      else s
    | none => s

/-- DMA_BEAT_ERROR. -/
def execDmaBeatError (n : Nat) (x : DmAccess) (s : State) : Host.Outcome State Fault Refusal :=
  whenOn s fun s => s.dmFails n dmBusError x

/-- A posted write to host memory, which cannot time out (R383). -/
def State.dmPosted (s : State) (n : Nat) (x : DmAccess) : Bool :=
  match x with
  | .fetch => false
  | .beat j _ read => match (s.dmc n).descs[j]? with | some d => (!read || d.op == 1) && isHost d.dst && d.op != 2 | none => false
  | .writeBack j => match (s.dmc n).descs[j]? with | some d => isHost d.addr | none => false

/-- DMA_BEAT_TIMEOUT. -/
def execDmaBeatTimeout (n : Nat) (x : DmAccess) (s : State) : Host.Outcome State Fault Refusal :=
  whenOn s fun s => if s.dmPosted n x then s else s.dmFails n dmTimeout x

/-- A beat as it is issued again: a write resends the data it holds, a read reads again (R383). -/
def dmReissue (b : DmBeat) : DmBeat := if b.keep then { b with tries := b.tries + 1, wait := false } else dmBeat b.off b.len (b.tries + 1)

/-- The access is issued again: a read reads again, a write resends the data it holds. None where the access waits for no retry, or the channel is to halt (R376, R383). -/
def State.dmAgain (s : State) (n : Nat) (x : DmAccess) : Option State :=
  if (s.dmc n).halt.isSome then none else
  match x with
  | .fetch =>
    match (s.dmc n).fetch with
    | some (a, t, true) => some (s.setDmc n { s.dmc n with fetch := some (a, t + 1, false) })
    | _ => none
  | .beat j i _ =>
    match (s.dmc n).descs[j]? with
    | none => none
    | some d =>
      match d.beats[i]? with
      | some b => if b.wait then some (s.setDesc n j { d with beats := d.beats.set i (dmReissue b) }) else none
      | none => none
  | .writeBack j =>
    match (s.dmc n).descs[j]? with
    | some d => if d.wbWait then some (s.setDesc n j { d with wbWait := false, wbTries := d.wbTries + 1 }) else none
    | none => none

/-- DMA_RETRY_ISSUE. -/
def execDmaRetryIssue (n : Nat) (x : DmAccess) (s : State) : Host.Outcome State Fault Refusal :=
  whenOn s fun s => match s.dmAgain n x with | some t => t.bump (DM_CH_RETRIES n) | none => s

/-! ### Completion (R377, R378, R380) -/

/-- The write-back of DONE: CTL[15] alone changes. -/
def State.dmWriteBack (s : State) (d : DmDesc) : State :=
  if d.wb then s.dmWrite (d.addr + 29) [BitVec.ofNat 8 (setBit (d.ctl / 256) 7)] else s

/-- A completed descriptor is counted, its interrupt set, and the chain goes on or ends. -/
def State.dmComplete (s : State) (n j : Nat) (d : DmDesc) : State :=
  let c := s.dmc n
  let s1 := (((s.dmWriteBack d).setDmc n { c with descs := c.descs.eraseIdx j, hops := if d.ring then 0 else c.hops }).bump (DM_CH_DONE n)).dmSignal n d.irq false
  if c.halt.isSome then s1.dmSettle n
  else if d.last then (s1.setF (DM_CH_STAT n) DM_CH_STAT_STATE dmIdle).setF (DM_CH_STAT n) DM_CH_STAT_CODE 0
  else if d.barrier then s1.dmNext n d.next
  else
    match c.go with
    | some a => if c.descs.length ≤ 1 || d.ring then s1.dmNext n a else s1.dmAdvance n
    | none => s1.dmAdvance n

/-- DESCRIPTOR_COMPLETE: of descriptor `j`, oldest first. The last of a chain completes after those before it. -/
def execDescriptorComplete (n j : Nat) (s : State) : Host.Outcome State Fault Refusal :=
  whenOn s fun s =>
    match (s.dmc n).descs[j]? with
    | none => s
    | some d =>
      if !d.finished || d.wbWait || (d.last && j != 0) then s
      else if d.wb && s.dmUndecoded (d.addr + 29) 1 true then s.wbUndecoded n j d
      else s.dmComplete n j d

/-! ### Controls (R376) -/

/-- GO: the chain starts at DM_CH_DESC. -/
def State.dmGo (s : State) (n : Nat) : State :=
  let st := DM_CH_STAT n
  let c := { dmChan0 with retry := s.rf (DM_CH_CTL n) DM_CH_CTL_RETRY, limit := s.rf (DM_CH_CTL n) DM_CH_CTL_HOP_LIMIT }
  ((((((s.setDmc n c).setF st DM_CH_STAT_STATE dmRunning).setF st DM_CH_STAT_CODE 0).setF st DM_CH_STAT_OVERLAP 0).setF st DM_CH_STAT_DESC_FETCH 0).setReg
    (DM_CH_REMAIN n) 0).dmFetch n (s.reg64 (DM_CH_DESC_LO n)) false

/-- KICK: the waiting descriptor is fetched again. -/
def State.dmKick (s : State) (n : Nat) : State := (s.setF (DM_CH_STAT n) DM_CH_STAT_STATE dmRunning).dmFetch n (s.reg64 (DM_CH_CUR_LO n)) true

/-- ABORT: no further beat is issued and none is retried; ABORT_HALT ends it. -/
def State.dmAbort (s : State) (n : Nat) : State :=
  let c := s.dmc n
  let cur := s.reg64 (DM_CH_CUR_LO n)
  let h : DmHalt :=
    match c.descs with
    | d :: _ => { code := dmAborted, cur := d.addr, err := cur, remain := d.count - d.undone, fetch := false, overlap := c.overlapped 0 }
    | [] => { code := dmAborted, cur := cur, err := cur, remain := 0, fetch := false, overlap := false }
  match c.halt with
  | some _ => s.setDmc n { c with halt := c.halt.map fun x => { x with code := dmAborted } }
  | none => s.setDmc n { c with halt := some h, fetch := none }

/-- A control in the wrong state is ignored and logged. -/
def State.dmCtl (s : State) (r : Requester) (n : Nat) (v : Word) (okay : Bool) (f : State → State) : State :=
  if okay then f s else s.violation (avSrc r) 5 (DM_CH_CTL n) v.toNat

/-- A write of DM_CH_CTL: its fields, then ABORT, else GO and KICK; a host's is ignored and logged while the channel is firmware's (R18, R361, R376). -/
def State.dmCtlWrite (s : State) (r : Requester) (n : Nat) (v : Word) : State :=
  if s.flag (DM_CH_STAT n) DM_CH_STAT_FW_OWNED && r != .cp then s.violation (avSrc r) avHostWrite (DM_CH_CTL n) v.toNat
  else
    let st := s.dmState n
    let lim := fget v DM_CH_CTL_HOP_LIMIT
    let s1 := s.setF (DM_CH_CTL n) DM_CH_CTL_RETRY (fget v DM_CH_CTL_RETRY)
    let s2 := if lim = 0 then s1.violation (avSrc r) avEncoding (DM_CH_CTL n) v.toNat else s1.setF (DM_CH_CTL n) DM_CH_CTL_HOP_LIMIT lim
    if fget v DM_CH_CTL_ABORT = 1 then s2.dmCtl r n v (st == dmRunning || st == dmWaiting) fun s => s.dmAbort n
    else
      let s3 := if fget v DM_CH_CTL_GO = 1 then s2.dmCtl r n v (st == dmIdle || st == dmHalted) fun s => s.dmGo n else s2
      if fget v DM_CH_CTL_KICK = 1 then s3.dmCtl r n v (st == dmWaiting) fun s => s.dmKick n else s3

/-- DM_CH_CTL_GO: `v` is the word written. -/
def execDmChCtlGo (r : Requester) (n : Nat) (v : Word) (s : State) : Host.Outcome State Fault Refusal :=
  whenOn s fun s => if n < 32 then s.dmCtlWrite r n (v ||| 0x80000000) else s

/-- DM_CH_CTL_ABORT: `v` is the word written. -/
def execDmChCtlAbort (r : Requester) (n : Nat) (v : Word) (s : State) : Host.Outcome State Fault Refusal :=
  whenOn s fun s => if n < 32 then s.dmCtlWrite r n (v ||| 0x40000000) else s

/-- DM_CH_CTL_KICK: `v` is the word written. -/
def execDmChCtlKick (r : Requester) (n : Nat) (v : Word) (s : State) : Host.Outcome State Fault Refusal :=
  whenOn s fun s => if n < 32 then s.dmCtlWrite r n (v ||| 0x20000000) else s

/-- An abort as it is reported: for the oldest descriptor still in progress (R376, R385). -/
def DmChan.aborted (c : DmChan) (h : DmHalt) : DmHalt :=
  match c.descs with
  | d :: _ => { h with cur := d.addr, remain := d.count - d.undone, overlap := c.overlapped 0 }
  | [] => h

/-- ABORT_HALT: every beat in flight has ended (R376); a DM_ABORT command gets its reply (R389). -/
def execAbortHalt (n : Nat) (s : State) : Host.Outcome State Fault Refusal :=
  whenOn s fun s =>
    match (s.dmc n).halt with
    | some h =>
      if h.code ≠ dmAborted ∨ (s.dmc n).busy then s
      else
        let s1 := s.dmHalt n ((s.dmc n).aborted h)
        let mine := s1.dm.aborts.filter fun a => a.1 == n
        mine.foldl (fun s a => s.answer a.2.op a.2.cmd false (replyTo a.2.op a.2.cmd stOk 0 0 []) true)
          { s1 with dm := { s1.dm with aborts := s1.dm.aborts.filter fun a => a.1 != n } }
    | none => s

/-- DM_CH_DESC_WRITE: a write of the pair's _HI half commits the staged _LO half with it; while the channel runs or waits it is ignored and logged, and so is a host's while the channel is firmware's (R20, R361, R376). -/
def execDmChDescWrite (r : Requester) (n : Nat) (hi : Bool) (v : Word) (s : State) : Host.Outcome State Fault Refusal :=
  whenOn s fun s =>
    let off := if hi then DM_CH_DESC_HI n else DM_CH_DESC_LO n
    if 32 ≤ n then s
    else if s.flag (DM_CH_STAT n) DM_CH_STAT_FW_OWNED && r != .cp then s.violation (avSrc r) avHostWrite off v.toNat
    else if s.dmActive n then s.violation (avSrc r) 5 off v.toNat
    else if !hi then s.stageHalf r off v
    else ((s.unstage r off).setReg (DM_CH_DESC_LO n) (s.stagedLow r off)).setReg off v

/-! ### Interrupt and counter registers (R388, R554) -/

/-- DM_INT_STAT_CLEAR. -/
def execDmIntStatClear (v : Word) (s : State) : Host.Outcome State Fault Refusal :=
  whenOn s fun s => s.clearOnes DM_INT_STAT v

/-- DM_HALT_STAT_CLEAR. -/
def execDmHaltStatClear (v : Word) (s : State) : Host.Outcome State Fault Refusal :=
  whenOn s fun s => s.clearOnes DM_HALT_STAT v

/-- Signal the channels whose enable bit rises while their status bit is set (R554). -/
def dmEnable (s : State) (rise stat : Nat) : State := (List.range 32).foldl (fun s n => if bit rise n && bit stat n then s.signal n else s) s

/-- DM_INT_EN_WRITE. -/
def execDmIntEnWrite (v : Word) (s : State) : Host.Outcome State Fault Refusal :=
  whenOn s fun s => dmEnable (s.setReg DM_INT_EN v) (v &&& ~~~s.reg DM_INT_EN).toNat (s.reg DM_INT_STAT).toNat

/-- DM_HALT_EN_WRITE. -/
def execDmHaltEnWrite (v : Word) (s : State) : Host.Outcome State Fault Refusal :=
  whenOn s fun s => dmEnable (s.setReg DM_HALT_EN v) (v &&& ~~~s.reg DM_HALT_EN).toNat (s.reg DM_HALT_STAT).toNat

/-- DM_CNT_CLR_WRITE. -/
def execDmCntClrWrite (v : Word) (s : State) : Host.Outcome State Fault Refusal :=
  whenOn s fun s => s.clearCounters (((List.range 32).filter (bit v.toNat)).flatMap fun n => [DM_CH_DONE n, DM_CH_RETRIES n])

/-! ### Commands (R389) -/

/-- DM_START. -/
def execDmStart (c : Cmd) (s : State) : Host.Outcome State Fault Refusal :=
  let n := c.f 0 4 0
  .next (s.command 0x0910 c (fun _ => (needLen 3 c).or (badIf (c.f 0 23 8 == 0) 0)) fun s =>
    if s.dmActive n || s.flag (DM_CH_STAT n) DM_CH_STAT_FW_OWNED then bad stWrongState []
    else
      .ok [] ((((s.setReg64 (DM_CH_DESC_LO n) (c.q 1)).setF (DM_CH_CTL n) DM_CH_CTL_RETRY (c.f 0 27 24)).setF
        (DM_CH_CTL n) DM_CH_CTL_HOP_LIMIT (c.f 0 23 8)).dmGo n))

/-- DM_KICK. -/
def execDmKick (c : Cmd) (s : State) : Host.Outcome State Fault Refusal :=
  let n := c.f 0 4 0
  .next (s.command 0x0911 c (fun _ => needLen 1 c) fun s =>
    if s.dmState n ≠ dmWaiting then bad stWrongState [] else .ok [] (s.dmKick n))

/-- DM_ABORT: the reply waits until the channel is HALTED. -/
def execDmAbort (c : Cmd) (s : State) : Host.Outcome State Fault Refusal :=
  let n := c.f 0 4 0
  .next (s.command 0x0912 c (fun _ => needLen 1 c) fun s =>
    if !s.dmActive n then bad stWrongState []
    else
      let s1 := s.dmAbort n
      .later { s1 with dm := { s1.dm with aborts := s1.dm.aborts ++ [(n, ⟨0x0912, c⟩)] } })

/-- DM_STATUS. -/
def execDmStatus (c : Cmd) (s : State) : Host.Outcome State Fault Refusal :=
  let n := c.f 0 4 0
  .next (s.command 0x0913 c (fun _ => needLen 1 c) fun s =>
    .ok ([DM_CH_STAT n, DM_CH_CUR_LO n, DM_CH_CUR_HI n, DM_CH_REMAIN n, DM_CH_ERRADDR_LO n, DM_CH_ERRADDR_HI n, DM_CH_CMPADDR_LO n,
      DM_CH_CMPADDR_HI n, DM_CH_DONE n, DM_CH_RETRIES n].map s.reg) s)

end Sys2Proof.Machine
end

