-- ==== Sys2Proof/Machine/HostIf.lean ====
section
/-! DEFINITION. The host interface: mailboxes and notice rings, the management port's reads and slot 4, Pelusk datagrams, BAR2, function level reset, PCIe, and the session, scheduler-query and aperture commands (R390 to R397, R406, R411, R413, R415, R546). -/

namespace Sys2Proof.Machine

/-! ### Request and reply slots (R394, R395) -/

/-- A mailbox slot is busy. -/
def State.slotBusy (s : State) (k : Nat) : Bool := s.rfb CP_MB_STAT CP_MB_STAT_BUSY k

/-- Bytes that a requester writes into request slot `k` at a slot offset: the packet grows, or the write is ignored and logged. -/
def State.slotWrite (s : State) (r : Requester) (k off : Nat) (bs : List Byte) : State :=
  let at' := requestSlot k + off
  let data := leAt bs 0 4
  if (k == 4 && r == .bar0) || s.slotBusy k then s.violation (avSrc r) avSlotBusy at' data
  else
    let fits := bs.take (slotBytes - off)
    let s1 :=
      if fits.isEmpty then s
      else { s.bufWrite at' fits with cp := { (s.bufWrite at' fits).cp with reqLen := tblUpd 0 s.cp.reqLen k fun n => max n (off + fits.length) } }
    if fits.length < bs.length then s1.violation (avSrc r) avUndecoded (at' + fits.length) (leAt (bs.drop fits.length) 0 4) else s1

/-- REQUEST_SLOT_WRITE. -/
def execRequestSlotWrite (r : Requester) (k off : Nat) (bs : List Byte) (s : State) : Host.Outcome State Fault Refusal :=
  whenOn s fun s => if k < 5 then s.slotWrite r k off bs else s

/-- A write of `k` to CP_MB_DB by a requester (R394, R395, R429). -/
def State.ring (s : State) (r : Requester) (k : Nat) : State :=
  if 5 ≤ k then s.violation (avSrc r) avEncoding CP_MB_DB k
  else if (k == 4 && r == .bar0) || s.slotBusy k then s.violation (avSrc r) avSlotBusy CP_MB_DB k
  else s.doorbell k

/-- MAILBOX_DOORBELL. -/
def execMailboxDoorbell (r : Requester) (k : Nat) (s : State) : Host.Outcome State Fault Refusal :=
  whenOn s fun s => s.ring r (k % 8)

/-- A write of ones to CP_MB_STAT.REPLY releases the slots whose reply is ready, but for one that becomes ready in the same cycle (R15, R395). -/
def State.releaseSlots (s : State) (mask : Nat) : State :=
  (List.range 5).foldl (fun s k =>
    if bit mask k && s.rfb CP_MB_STAT CP_MB_STAT_REPLY k && !bit (fget (s.freshAt CP_MB_STAT) CP_MB_STAT_REPLY) k then (s.setFB CP_MB_STAT CP_MB_STAT_REPLY k false).freeSlot k else s) s

/-- MAILBOX_REPLY_RELEASE: `mask` is the REPLY field written. -/
def execMailboxReplyRelease (mask : Nat) (s : State) : Host.Outcome State Fault Refusal := whenOn s fun s => s.releaseSlots mask

/-! ### Notice rings (R396) -/

/-- NOTE_HELD while any notice is held. -/
def State.noteHeld (s : State) : State := s.setF CP_MB_STAT CP_MB_STAT_NOTE_HELD (b2n (!s.cp.heldH.isEmpty || !s.cp.heldM.isEmpty))

/-- Held notices of the host ring are written while it has room. -/
def State.hostFlush (s : State) : State := (s.cp.heldH.foldl State.hostNotice { s with cp := { s.cp with heldH := [] } }).noteHeld

/-- Held notices of the management ring are written while it has room. -/
def State.mgmtFlush (s : State) : State := (s.cp.heldM.foldl State.mgmtNotice { s with cp := { s.cp with heldM := [] } }).noteHeld

/-- A reader moves its RD register. -/
def State.readAdvance (s : State) (mgmt : Bool) (v : Word) : State :=
  if mgmt then (s.setF CP_NT_M_RD CP_NT_M_RD_RD v.toNat).mgmtFlush else (s.setF CP_NT_H_RD CP_NT_H_RD_RD v.toNat).hostFlush

/-- NOTICE_RING_READ_ADVANCE. -/
def execNoticeRingReadAdvance (mgmt : Bool) (v : Word) (s : State) : Host.Outcome State Fault Refusal :=
  whenOn s fun s => s.readAdvance mgmt v

/-- CP_CNT_CLR.ALL (R429, R515). -/
def execCpCntClrAll (s : State) : Host.Outcome State Fault Refusal :=
  whenOn s fun s => s.clearCounters [CP_CMDS, CP_BUSY, CP_DUPS, CP_BADCRC, CP_DISCARDS, CP_EVICT, CP_SEC_FAILS]

/-! ### Reads, and the management port (R20, R397, R548) -/

/-- What a requester reads at an offset, and the state after it: a _LO half latches its _HI half, a latched copy is consumed (R20, R320). -/
def State.readAs (s : State) (r : Requester) (off : Nat) : Word × State :=
  if off % 4 ≠ 0 then (0, s)
  else if isPair off then
    let s1 := s.latch r (off + 4)
    (s.readReg off, if off = TM_PTP_SNAP_SEC_LO then s1.latch r TM_PTP_SNAP_T32 else s1)
  else
    match tblGet none s.shadow (pairKey r off) with
    | some w => (w, { s with shadow := tblSet none s.shadow (pairKey r off) none })
    | none => (s.readReg off, s)

/-- Consecutive words as a requester reads them, in ascending order (R548). -/
def State.readRun (s : State) (r : Requester) (off : Nat) : Nat → List Word × State
  | 0 => ([], s)
  | n + 1 =>
    let x := s.readAs r off
    let y := x.2.readRun r (off + 4) n
    (x.1 :: y.1, y.2)

/-- MGMT_REGISTER_READ: the data leaves most significant byte first. -/
def execMgmtRegisterRead (off : Nat) (s : State) : Host.Outcome State Fault Refusal :=
  whenOn s fun s => let x := s.readAs .mgmt off; x.2.emit (.mgmtRead (be 4 x.1.toNat))

/-- MGMT_BLOCK_READ: up to 4,128 consecutive bytes. -/
def execMgmtBlockRead (off n : Nat) (s : State) : Host.Outcome State Fault Refusal :=
  whenOn s fun s =>
    let m := min 4128 n
    let x := s.readRun .mgmt (off / 4 * 4) ((off % 4 + m + 3) / 4)
    x.2.emit (.mgmtRead (slice (wordsLE x.1) (off % 4) m))

/-- MGMT_SLOT_WRITE: into request slot 4. -/
def execMgmtSlotWrite (off : Nat) (bs : List Byte) (s : State) : Host.Outcome State Fault Refusal := whenOn s fun s => s.slotWrite .mgmt 4 off bs

/-- MGMT_DOORBELL: rings slot 4. -/
def execMgmtDoorbell (s : State) : Host.Outcome State Fault Refusal := whenOn s fun s => s.ring .mgmt 4

/-- MGMT_UNKNOWN_CODE. -/
def execMgmtUnknownCode (code : Nat) (s : State) : Host.Outcome State Fault Refusal :=
  whenOn s fun s => if 1 ≤ code ∧ code ≤ 5 then s else s.emit .mgmtNack

/-! ### Pelusk datagrams (R390, R424) -/

/-- A received frame carries a Pelusk datagram (R273). -/
def isPelusk (f : RxFrame) : Bool := f.cls == 3 && f.etype == 0x0800

/-- The transport of a datagram, and its packet. -/
def datagram (n : Nat) (f : RxFrame) : Transport × List Byte :=
  (.udp n f.src (w32 (beAt f.body 12 4)) (beAt f.body 20 2), slice f.body 28 (beAt f.body 24 2 - 8))

/-- A held packet that waits in the receive partition of port `n`. -/
def isHeldOn (n : Nat) (h : HeldPacket) : Bool := match h.transport with | .udp m _ _ _ => m == n | _ => false

/-- PELUSK_DATAGRAM_RECEIVED: the oldest that port `n` holds is taken as a packet, during a hand-off too; while Nieth restarts it stays in the partition, in its place in the order of arrival. -/
def execPeluskDatagramReceived (n : Nat) (s : State) : Host.Outcome State Fault Refusal :=
  whenOn s fun s =>
    let fs := (s.port n).rx.filter isPelusk
    if s.cp.serving || s.cp.recovery || s.lc.handoff.isSome then
      match fs with
      | [] => s
      | f :: _ => (s.rxTake n f).arrive (datagram n f).1 (datagram n f).2
    else
      match fs[(s.cp.held.filter (isHeldOn n)).length]? with
      | some f => { s with cp := { s.cp with held := s.cp.held ++ [⟨(datagram n f).1, (datagram n f).2⟩] } }
      | none => s

/-! ### BAR2 (R392) -/

/-- The DRAM address of a BAR2 offset. -/
def State.bar2At (s : State) (o : Nat) : Nat := s.reg64 CP_AP_BASE_LO + o

/-- An access reaches DRAM: within the aperture, the installed size, and a memory that is READY. -/
def State.bar2Ok (s : State) (o n : Nat) : Bool := decide (o + n ≤ 2 ^ 28) && s.drReady && s.drIn (s.bar2At o) n

/-- BAR2_READ, with what the codewords of the read hold (R337, R338). -/
def execBar2Read (o : Nat) (r : MemRead) (s : State) : Host.Outcome State Fault Refusal :=
  whenOn s fun s =>
    if s.bar2Ok o r.len then
      let t := s.drFound (s.bar2At o) r.len r.found
      t.emit (.bar2 (s.memRead (s.bar2At o) r.len) (t.poisoned (s.bar2At o) r.len))
    else (s.violation 3 avAddress (s.bar2At o) 0).emit .bar2Unsupported

/-- BAR2_WRITE: whole, or dropped and logged. -/
def execBar2Write (o : Nat) (bs : List Byte) (s : State) : Host.Outcome State Fault Refusal :=
  whenOn s fun s =>
    if !s.bar2Ok o bs.length then (s.violation 3 avAddress (s.bar2At o) 0).emit .bar2Unsupported
    else if s.dmProtected (s.bar2At o) bs.length then s.violation 3 avAddress (s.bar2At o) 0
    else s.drWrite (s.bar2At o) bs

/-! ### Function level reset and PCIe (R393, R546) -/

/-- A command whose replies a function level reset discards. -/
def muteCmd (c : Cmd) : Cmd := match c.transport with | .slot k => if k < 4 then { c with transport := .muted } else c | _ => c

/-- The same for a queue entry. -/
def muteEntry (q : QEntry) : QEntry := { q with cmd := muteCmd q.cmd }

/-- The same for a control message, which an ADC_ACCESS may have sent (R101). -/
def muteMsg (m : CtlMsg) : CtlMsg := match m.why with | .access c => { m with why := .access (muteCmd c) } | _ => m

/-- A packet held from slots 0–3 is gone with its slot. -/
def keptPacket (h : HeldPacket) : Bool := match h.transport with | .slot k => decide (4 ≤ k) | _ => true

/-- The effects of a function level reset (R393). -/
def State.flr (s : State) : State :=
  let s1 := (List.range 32).foldl (fun s n => if s.dmActive n then s.dmAbort n else s) s
  let s2 := { s1 with
    cp := { s1.cp with
      queue := s1.cp.queue.map muteEntry, running := s1.cp.running.map muteEntry, held := s1.cp.held.filter keptPacket, heldH := []
      reqLen := [0, 1, 2, 3].foldl (fun t k => tblSet 0 t k 0) s1.cp.reqLen }
    sl := { s1.sl with octs := s1.sl.octs.map fun (p : Nat × OctSt) => (p.1, { p.2 with x := p.2.x.map muteMsg, todo := p.2.todo.map muteMsg }) }
    dm := { s1.dm with aborts := s1.dm.aborts.map fun (a : Nat × QEntry) => (a.1, muteEntry a.2) }
    ml := { s1.ml with held := s1.ml.held.map fun (h : Nat × QEntry × Reply) => (h.1, muteEntry h.2.1, h.2.2) } }
  let s3 := [0, 1, 2, 3].foldl (fun s k => (s.setFB CP_MB_STAT CP_MB_STAT_BUSY k false).setFB CP_MB_STAT CP_MB_STAT_REPLY k false) s2
  (s3.setF CP_NT_H_RD CP_NT_H_RD_RD (s3.rf CP_NT_WR CP_NT_WR_H_WR)).noteHeld

/-- FUNCTION_LEVEL_RESET. -/
def execFunctionLevelReset (s : State) : Host.Outcome State Fault Refusal :=
  whenOn s fun s => s.flr.bumpBy GLB_RST_STAT GLB_RST_STAT_FLR 1

/-- PCIE_LINK_LOSS: nothing in the device changes. -/
def execPcieLinkLoss (s : State) : Host.Outcome State Fault Refusal := whenOn s fun s => s

/-- PE_PERST_ASSERT: in operation, the link goes down with the effects of a function level reset. -/
def execPePerstAssert (s : State) : Host.Outcome State Fault Refusal :=
  whenOn s fun s =>
    if s.cp.pcieUp then { s.flr.bumpBy GLB_RST_STAT GLB_RST_STAT_PERST 1 with cp := { s.flr.cp with pcieUp := false } } else s

/-- PE_PERST_RELEASE: the endpoint answers. -/
def execPePerstRelease (s : State) : Host.Outcome State Fault Refusal := whenOn s fun s => { s with cp := { s.cp with pcieUp := true } }

/-! ### Commands (R406, R411, R413, R415) -/

/-- The active firmware slot, from CP_FW_STAT (R515). -/
def State.activeSlot (s : State) : FwSlot := if s.rf CP_FW_STAT CP_FW_STAT_ACTIVE_SLOT = 0 then s.lc.slotA else s.lc.slotB

/-- SYS_INFO. -/
def execSysInfo (c : Cmd) (s : State) : Host.Outcome State Fault Refusal :=
  .next (s.command 0x0101 c (fun _ => needLen 0 c) fun s =>
    .ok [s.reg CP_SYS_STAT, w32 s.activeSlot.fwVersion, w32 (s.rf CP_FW_STAT CP_FW_STAT_ACTIVE_SLOT), w32 s.lc.state,
      w32 ((s.time.cycles - s.cp.resetAt) / 2000000000)] s)

/-- SYS_SESSION (R406). -/
def execSysSession (c : Cmd) (s : State) : Host.Outcome State Fault Refusal :=
  .next (s.command 0x0103 c (fun _ => needLen 0 c) fun s =>
    if s.sourceBusy c.source then bad stResourceBusy []
    else .ok [] { s with cp := { s.cp with sources := s.cp.sources.filter fun x => x.id != c.source } }.queueSync)

/-- SYS_APERTURE (R392). -/
def execSysAperture (c : Cmd) (s : State) : Host.Outcome State Fault Refusal :=
  .next (s.command 0x0105 c
    (fun s => (needLen 2 c).or (badIf (decide (c.q 0 % 1048576 ≠ 0) || decide (s.drSize ≤ c.q 0)) 0)) fun s => .ok [] (s.setReg64 CP_AP_BASE_LO (c.q 0)))

/-- An entry of R413. -/
def Event.entry (e : Event) : List Byte :=
  le 8 e.t ++ le 8 e.f ++ le 2 e.op ++ le 1 (b2n e.alignI + 2 * b2n e.committed) ++ le 1 0 ++ le 4 e.cmd.seq.toNat ++ le 4 e.cmd.source.toNat ++
    le 2 e.handle ++ le 2 0

/-- SC_LIST. -/
def execScList (c : Cmd) (s : State) : Host.Outcome State Fault Refusal :=
  .next (s.command 0x0D01 c (fun _ => needLen 1 c) fun s =>
    .ok (w32 s.events.length :: packWordsBE ((((firingOrder s.events).drop (c.w 0).toNat).take 127).flatMap Event.entry)) s)

/-- The minimum lead of an opcode in sample periods (R59). -/
def State.lead (s : State) (op : Nat) : Nat := match schedInfo op with | some i => s.periods i.lead | none => 0

/-- An event's commit point has come (R411). -/
def State.pastCommit (s : State) (e : Event) : Bool := e.committed || (s.running && decide (e.f ≤ s.now + s.lead e.op))

/-- SC_CANCEL. -/
def execScCancel (c : Cmd) (s : State) : Host.Outcome State Fault Refusal :=
  let h := c.f 0 15 0
  .next (s.command 0x0D02 c (fun s => (needLen 1 c).or (badIf (s.event h).isNone 0)) fun s =>
    match s.event h with
    | some e => if s.pastCommit e then bad stWrongState [] else .ok [] ((s.dropEvent h).bump SC_CANCELLED)
    | none => bad stBadParam [])

/-- SC_CNT_CLR.ALL (R430). -/
def execScCntClrAll (s : State) : Host.Outcome State Fault Refusal :=
  whenOn s fun s => s.clearCounters [SC_FIRED, SC_LATE, SC_FULL, SC_CANCELLED, SC_FAILED]

end Sys2Proof.Machine
end

