-- ==== Sys2Proof/Machine/Security.lean ====
section
/-! DEFINITION. Firmware slots and trials, life-cycle transitions, nonces, attestation and the TAP (R489 to R516, R530). -/

namespace Sys2Proof.Machine

/-! ### Registers of the life cycle (R515) -/

/-- Firmware slot 0 (A) or 1 (B). -/
def State.fwSlot (s : State) (n : Nat) : FwSlot := if n = 0 then s.lc.slotA else s.lc.slotB

/-- Put a firmware slot. -/
def State.setFwSlot (s : State) (n : Nat) (x : FwSlot) : State :=
  { s with lc := if n = 0 then { s.lc with slotA := x } else { s.lc with slotB := x } }

/-- A slot holds an image that is valid under R494 with the SVN_MIN in force. -/
def State.slotValid (s : State) (n : Nat) : Bool := (s.fwSlot n).valid && decide (s.lc.svnMin ≤ (s.fwSlot n).svn)

/-- The measurement of a slot's image; the image that the device was made with has one too (R489). -/
def FwSlot.meas (x : FwSlot) : List Word := if x.bytes.isEmpty then Config.factoryMeasurement else x.measurement

/-- CP_LC_STAT, CP_FW_STAT and CP_FW_SVN follow the life-cycle record and the slots (R492, R515). -/
def State.lcSync (s : State) : State :=
  let s1 := ((((s.setF CP_LC_STAT CP_LC_STAT_STATE s.lc.state).setF CP_LC_STAT CP_LC_STAT_OWNER (b2n !s.lc.ownerKey.isEmpty)).setF
    CP_LC_STAT CP_LC_STAT_NONCE_LIVE (b2n s.lc.nonce.isSome)).setF CP_LC_STAT CP_LC_STAT_PREV s.lc.prev).setF
    CP_LC_STAT CP_LC_STAT_TRANSITIONS (min 0xFFFF s.lc.transitions)
  let s2 := ((s1.setF CP_FW_STAT CP_FW_STAT_A_VALID (b2n (s.slotValid 0))).setF CP_FW_STAT CP_FW_STAT_B_VALID (b2n (s.slotValid 1))).setF
    CP_FW_STAT CP_FW_STAT_COMMITTED s.lc.committed
  (s2.setF CP_FW_SVN CP_FW_SVN_SVN_MIN s.lc.svnMin).setF CP_FW_SVN CP_FW_SVN_SVN s.activeSlot.svn

/-! ### Firmware images (R493, R494) -/

/-- IMAGE_LEN and SIGLEN of an image. -/
def fwLen (bs : List Byte) : Nat := leAt bs 16 4
def fwSiglen (bs : List Byte) : Nat := leAt bs 24 4

/-- Header fields within the ranges of R493. -/
def fwHdrOk (bs : List Byte) : Bool :=
  leAt bs 0 4 == 0x4E494657 && leAt bs 4 2 == 1 && decide (leAt bs 12 4 ≤ 65535) && decide (128 ≤ fwLen bs) && decide (fwLen bs ≤ 2 ^ 25 - 1280) &&
    decide (leAt bs 22 1 ≤ 1) && leAt bs 23 1 == 0 && decide (fwSiglen bs ≤ 1280) && (Sys2Proof.Machine.slice bs 28 36).all fun b => b == 0

/-- The first check of R494 that an image fails, numbered as the 0x0C02 entry numbers them: 1 header, 2 key digest, 3 signature, 4 SVN (R557). -/
def fwFailing (svnMin : Nat) (bs : List Byte) : Option Nat :=
  if !fwHdrOk bs then some 1
  else if Config.shake256 (Config.presentedKey bs) != Config.vendorDigest (leAt bs 22 1) then some 2
  else if !Config.falconVerify (Config.presentedKey bs) (bs.take (fwLen bs)) (Sys2Proof.Machine.slice bs (fwLen bs) (fwSiglen bs)) then some 3
  else if leAt bs 12 4 < svnMin then some 4
  else none

/-- The slot that holds an image which passed R494. -/
def fwSlotOf (bs : List Byte) : FwSlot :=
  { valid := true, ckptVer := leAt bs 6 2, fwVersion := leAt bs 8 4, svn := leAt bs 12 4, ckptMin := leAt bs 20 2, key := leAt bs 22 1
    ident := Sys2Proof.Machine.slice bs 64 32, measurement := Config.shake256 (bs.take (fwLen bs)), bytes := bs }

/-- The failing check of a slot at boot or at a commit point; an empty slot, or one marked invalid, has no header (R494, R495, R498). -/
def State.slotFailing (s : State) (n : Nat) : Option Nat :=
  let x := s.fwSlot n
  if !x.valid then some 1
  else if x.bytes.isEmpty then (if x.svn < s.lc.svnMin then some 4 else none)
  else fwFailing s.lc.svnMin x.bytes

/-! ### Trials (R499, R500) -/

/-- The trial runs (R500). -/
def State.inTrial (s : State) : Bool := s.flag CP_FW_STAT CP_FW_STAT_TRIAL

/-- The running slot becomes committed and the trial ends; with RAISE_SVN, SVN_MIN becomes its SVN (R500). -/
def State.commitTrial (s : State) (raiseSvn : Bool) : State :=
  let n := s.rf CP_FW_STAT CP_FW_STAT_ACTIVE_SLOT
  let x := s.activeSlot
  let s1 := { s with lc := { s.lc with committed := n, trial := false, svnMin := if raiseSvn then x.svn else s.lc.svnMin } }.lcSync
  (((s1.setF CP_FW_STAT CP_FW_STAT_TRIAL 0).setF CP_FW_STAT CP_FW_STAT_AUTO_COMMIT 0).logEvent 0x0C06 0
    [w32 n, w32 x.fwVersion, w32 x.svn, w32 s1.lc.svnMin]).raise evSecurity

/-- FW_COMMIT (R500). -/
def execFwCommit (c : Cmd) (s : State) : Host.Outcome State Fault Refusal :=
  .next (s.command 0x0C12 c (fun _ => needLen 1 c) fun s =>
    if !s.inTrial then bad stWrongState [] else .ok [] (s.commitTrial (bit (c.w 0).toNat 0)))

/-- TRIAL_AUTO_COMMIT: 3,600 s have passed since TRIAL was set (R500). -/
def execTrialAutoCommit (s : State) : Host.Outcome State Fault Refusal :=
  whenOn s fun s => if s.inTrial && s.flag CP_FW_STAT CP_FW_STAT_AUTO_COMMIT && s.cp.serving then s.commitTrial false else s

/-- NIETH_HANDOFF_DONE: the new Nieth runs from the other slot, in trial; commands resume, and the activation's completion notice is sent, then those of the events applied at its boundary (R498, R499). -/
def execNiethHandoffDone (s : State) : Host.Outcome State Fault Refusal :=
  whenOn s fun s =>
    match s.lc.handoff with
    | none => s
    | some e =>
      let n := 1 - s.rf CP_FW_STAT CP_FW_STAT_ACTIVE_SLOT
      let s1 := { s with lc := { s.lc with handoff := none, trial := true, trialAt := s.time.cycles, bootMeas := (s.fwSlot n).meas }
                         cp := { s.cp with serving := true } }
      let s2 := (((s1.setF CP_FW_STAT CP_FW_STAT_ACTIVE_SLOT n).setF CP_FW_STAT CP_FW_STAT_TRIAL 1).setF
        CP_FW_STAT CP_FW_STAT_AUTO_COMMIT (e.cmd.f 2 0 0)).lcSync
      let s3 := { s2.notice e stOk (w32 e.handle :: hiLo e.f) with lc := { s2.lc with handNotes := [] } }
      s2.lc.handNotes.foldl (fun s x => s.notice x.1 x.2.1 x.2.2) s3

/-- What FW_LIST replies of a slot. -/
def State.fwWords (s : State) (n : Nat) : List Word :=
  let x := s.fwSlot n
  w32 (b2n (s.slotValid n)) :: bytesToWordsBE x.ident 8 ++ [w32 x.fwVersion, w32 x.svn, w32 x.ckptVer, w32 x.ckptMin] ++
    bytesToWordsBE (wordsBE (if x.valid then x.meas else [])) 16

/-- FW_LIST (R516). -/
def execFwList (c : Cmd) (s : State) : Host.Outcome State Fault Refusal :=
  .next (s.command 0x0C13 c (fun _ => needLen 0 c) fun s => .ok (s.fwWords 0 ++ s.fwWords 1) s)

/-! ### Nonces and authorisations (R504, R505) -/

/-- The nonce stops being live (R505). -/
def State.endNonce (s : State) : State := { s with lc := { s.lc with nonce := none } }.setF CP_LC_STAT CP_LC_STAT_NONCE_LIVE 0

/-- LC_NONCE: a new nonce is live, and the one before it is not (R505). -/
def execLcNonce (c : Cmd) (s : State) : Host.Outcome State Fault Refusal :=
  .next (s.command 0x0C03 c (fun _ => needLen 0 c) fun s =>
    let ws := (List.range 8).map (Config.nonceWord s.free)
    .ok ws ({ s.draw with lc := { s.lc with nonce := some ws } }.setF CP_LC_STAT CP_LC_STAT_NONCE_LIVE 1))

/-- NONCE_EXPIRE (R505). -/
def execNonceExpire (s : State) : Host.Outcome State Fault Refusal := whenOn s State.endNonce

/-- Words of the signature that follows W48, and the signature itself (R516). -/
def sigWords (c : Cmd) : Nat := ((c.w 48).toNat + 3) / 4
def authSig (c : Cmd) : List Byte := (wordsBE (c.payload.drop 49)).take (c.w 48).toNat

/-- The 1,793-byte owner key that follows the authorisation (R489, R516). -/
def newOwner (c : Cmd) : List Byte := (wordsBE (c.payload.drop (49 + sigWords c))).take 1793

/-- Words W_i to W_(i+n-1) of a payload. -/
def Cmd.run (c : Cmd) (i n : Nat) : List Word := (List.range n).map fun k => c.w (i + k)

/-- Sixteen words of zeros, as IDENT and ARG hold where R504 gives 0. -/
def zero16 : List Word := List.replicate 16 0

/-- The command presents the live nonce (R505). -/
def State.showsNonce (s : State) (c : Cmd) : Bool := s.lc.nonce == some (c.run 2 8)

/-- The authorisation of a command is accepted: its fields match, its nonce is live, or 0 for LC_PROVISION, and its signature verifies under the key (R504, R505). -/
def State.authOk (s : State) (op : Nat) (target : Nat) (ident arg : List Word) (key : List Byte) (c : Cmd) : Bool :=
  c.w 0 == 0x4C434155 && c.w 1 == w32 (0x01000000 + op % 256 * 65536 + target * 256) &&
    (if op = 0x0C04 then c.run 2 8 == List.replicate 8 (0 : Word) else s.showsNonce c) &&
    c.run 10 16 == ident && c.run 26 16 == arg && c.run 42 6 == List.replicate 6 (0 : Word) &&
    Config.falconVerify key (wordsBE (c.payload.take 48)) (authSig c)

/-! ### Transitions (R502, R503, R506 to R509) -/

/-- A permitted pair of LC_TRANSITION (R503). -/
def transitionOk (src dst : Nat) : Bool :=
  (src == lcProvisioned && (dst == lcDeployed || dst == lcMaintenance)) || (src == lcDeployed && dst == lcMaintenance) ||
    (src == lcMaintenance && dst == lcDeployed) || (decide (src ≤ lcMaintenance) && dst == lcDecommissioned)

/-- The refusal of R506, if any; a transition already under way holds the next one off too. -/
def State.transitionBad (s : State) : Option Bad :=
  if s.role = roleActive then some ⟨stWrongState, 0, []⟩
  else if s.inTrial || s.events.any (fun e => e.op == 0x0C11) || s.lc.trans.isSome || s.lc.transReset ||
      [0x0903, 0x0C10, 0x0D03, 0x0301].any s.isRunning || decide (8 ≤ s.cp.running.length) then some ⟨stResourceBusy, 0, []⟩
  else none

/-- The rest of a transition's checks, in the order of R504 to R506, and its start; a nonce that the command presents ends (R505). -/
def State.transition (s : State) (op : Nat) (c : Cmd) (target : Nat) (authorised : Bool) (key : List Byte) : CmdRes :=
  let s1 := if s.showsNonce c && op != 0x0C04 then s.endNonce else s
  if !authorised then .counted ⟨stSignature, 0, []⟩ (s1.signatureFail op c)
  else
    match s.transitionBad with
    | some b => .counted b s1
    | none => .progress [] { s1 with lc := { s1.lc with trans := some (target, key) } }

/-- LC_PROVISION (R503, R507). -/
def execLcProvision (c : Cmd) (s : State) : Host.Outcome State Fault Refusal :=
  .next (s.command 0x0C04 c (fun _ => needLen (49 + sigWords c + 449) c) fun s =>
    s.transition 0x0C04 c lcProvisioned
      (s.authOk 0x0C04 lcProvisioned zero16 (Config.shake256 (newOwner c)) (newOwner c) c) (newOwner c))

/-- LC_TRANSITION (R502 to R507): from BLANK only to DECOMMISSIONED, and then without a signature. -/
def execLcTransition (c : Cmd) (s : State) : Host.Outcome State Fault Refusal :=
  let target := c.f 1 15 8
  .next (s.command 0x0C05 c
    (fun s =>
      (if s.lc.state = lcBlank ∧ target ≠ lcDecommissioned then some ⟨stNotPermitted, 0, []⟩ else none).or
        ((needLen (49 + sigWords c) c).or (badIf (s.lc.state == lcBlank && c.w 48 != 0) 48)))
    fun s =>
      if !transitionOk s.lc.state target then
        .counted ⟨stBadParam, 1, []⟩ (if s.showsNonce c then s.endNonce else s)
      else
        s.transition 0x0C05 c target
          (s.lc.state == lcBlank || s.authOk 0x0C05 target (Config.shake256 s.lc.idKey) zero16 s.lc.ownerKey c)
          (if target = lcDecommissioned then [] else s.lc.ownerKey))

/-- LC_OWNER_ROTATE (R503, R508). -/
def execLcOwnerRotate (c : Cmd) (s : State) : Host.Outcome State Fault Refusal :=
  .next (s.command 0x0C06 c (fun _ => needLen (49 + sigWords c + 449) c) fun s =>
    s.transition 0x0C06 c lcMaintenance
      (s.authOk 0x0C06 lcMaintenance (Config.shake256 s.lc.idKey) (Config.shake256 (newOwner c)) s.lc.ownerKey c) (newOwner c))

/-- Decommissioning erases the profiles, the program store, the stored tables, the delay tables with the board record and the identity key (R509). -/
def State.eraseOwner (s : State) : State :=
  (List.range 16).foldl (fun s n => s.setProg n progEmpty)
    { s with
      cp := { s.cp with profiles := [] }
      ch := { s.ch with cal := [] }
      wd := { s.wd with sets := [] }
      dr := { s.dr with boards := [], tables := [] }
      lc := { s.lc with idKey := [] } }

/-- First 16 bytes of the owner key's digest in the 0x0C01 entry: 0 without an owner key (R557). -/
def ownerDigest (key : List Byte) : List Word := if key.isEmpty then List.replicate 4 0 else (Config.shake256 key).take 4

/-- LC_TRANSITION_DONE: steps 2 to 4 of R507. Without healthy entropy LC_PROVISION gives INTERNAL_FAULT and changes nothing (R491). -/
def execLcTransitionDone (entropyOk : Bool) (s : State) : Host.Outcome State Fault Refusal :=
  whenOn s fun s =>
    match s.lc.trans, s.cp.running.find? fun q => q.op == 0x0C04 || q.op == 0x0C05 || q.op == 0x0C06 with
    | some (target, key), some q =>
      if q.op = 0x0C04 && !entropyOk then { s with lc := { s.lc with trans := none } }.final q stInternal []
      else
        let s0 := if q.op = 0x0C04 then { s.draw with lc := { s.lc with idKey := Config.identityKey s.free } } else s
        let s1 := if target = lcDecommissioned then s0.eraseOwner else s0
        let s2 := { s1 with lc := { s1.lc with
          state := target, prev := s.lc.state, ownerKey := key, transitions := (s.lc.transitions + 1) % 2 ^ 32, trans := none, transReset := true } }
        let s3 := s2.lcSync.logEvent 0x0C01 0 ([w32 s.lc.state, w32 target] ++ ownerDigest key)
        s3.final q stOk (w32 target :: (if q.op = 0x0C04 then Config.shake256 s3.lc.idKey else []))
    | _, _ => s

/-! ### Queries (R513, R516) -/

/-- LC_STATUS. -/
def execLcStatus (c : Cmd) (s : State) : Host.Outcome State Fault Refusal :=
  .next (s.command 0x0C01 c (fun _ => needLen 0 c) fun s =>
    .ok ([CP_LC_STAT, CP_FW_STAT, CP_FW_SVN, CP_WIPE_STAT].map s.readReg) s)

/-- LC_IDENTITY. -/
def execLcIdentity (c : Cmd) (s : State) : Host.Outcome State Fault Refusal :=
  .next (s.command 0x0C02 c (fun _ => needLen 0 c) fun s => .ok (bytesToWordsBE s.lc.idKey 449 ++ bytesToWordsBE s.lc.ownerKey 449) s)

/-- Sixty-four bytes of a digest; zeros where there is none. -/
def digest64 (ws : List Word) : List Byte := Sys2Proof.Machine.slice (wordsBE ws) 0 64

/-- The attestation report (R513). -/
def State.report (s : State) (nonce : List Byte) : List Byte :=
  let n := s.rf CP_FW_STAT CP_FW_STAT_ACTIVE_SLOT
  let flags := n + 2 * b2n s.inTrial + 4 * s.rf CP_SYS_STAT CP_SYS_STAT_PROF_VALID + 8 * s.rf CP_FW_STAT CP_FW_STAT_BOOT_FALLBACK +
    16 * s.rf CP_WIPE_STAT CP_WIPE_STAT_FAIL
  le 4 0x41545354 ++ le 2 1 ++ le 1 s.lc.state ++ le 1 flags ++ le 8 s.now ++ nonce ++
    digest64 (Config.shake256 s.lc.idKey) ++ digest64 (Config.shake256 s.lc.ownerKey) ++
    le 2 s.activeSlot.svn ++ le 2 s.lc.svnMin ++ le 4 s.lc.boots ++ le 4 s.lc.wipes ++ le 4 s.lc.transitions ++
    digest64 s.lc.bootMeas ++ digest64 (if s.slotValid (1 - n) then (s.fwSlot (1 - n)).meas else []) ++ digest64 s.lc.profMeas ++
    (List.range 16).flatMap (fun k => digest64 (if (s.prog k).valid then (s.prog k).measurement else [])) ++
    (List.range 64).flatMap fun k => le 1 (s.rf (MD_SL_CTL k) MD_SL_CTL_SLOT)

/-- LC_ATTEST. -/
def execLcAttest (c : Cmd) (s : State) : Host.Outcome State Fault Refusal :=
  .next (s.command 0x0C07 c (fun _ => needLen 8 c) fun s =>
    let r := s.report (wordsBE c.payload)
    .ok (1472 :: (bytesToWordsBE r 368 ++ bytesToWordsBE (Config.falconSign s.lc.idKey r) 320)) s)

/-! ### Test access port (R530) -/

/-- The TAP instructions by number: 0 IDCODE, 1 BYPASS, 2 SAMPLE, 3 PRELOAD, 4 EXTEST; the last two only in BLANK and MAINTENANCE (R530). -/
def tapOffers (state n : Nat) : Bool := decide (n ≤ 2) || (decide (n ≤ 4) && (state == lcBlank || state == lcMaintenance))

/-- TAP_INSTRUCTION. -/
def execTapInstruction (n : Nat) (s : State) : Host.Outcome State Fault Refusal :=
  whenOn s fun s => if tapOffers s.lc.state n then { s with lc := { s.lc with tap := n } } else s

end Sys2Proof.Machine
end

