-- ==== Sys2Proof/Machine/Power.lean ====
section
/-! DEFINITION. Power input, rails, droop, temperature, throttling, thermal shutdown and recovery, the event log's query, and pad faults (R357 to R360, R460 to R488, R544). -/

namespace Sys2Proof.Machine

/-! ### The input and the rails (R460 to R465) -/

/-- VIN_POWER_WARN: the power-fail entry closes the power period (R461). -/
def execVinPowerWarn (vin : Nat) (s : State) : Host.Outcome State Fault Refusal :=
  whenOn s fun s =>
    let s1 := (s.logEvent 0x0B01 1 [w32 (vin % 65536)]).seen PW_STAT PW_STAT_POWER_WARN evPower
    { s1 with pw := { s1.pw with warned := true } }

/-- Every rail goes off; housekeeping lives on where it lived (R460). -/
def State.lockout (s : State) : State :=
  match s.pw.power with
  | .off | .housekeeping | .lockout => s
  | _ => s.nonvolatile .lockout

/-- UNDERVOLTAGE_LOCKOUT. -/
def execUndervoltageLockout (s : State) : Host.Outcome State Fault Refusal := .next s.lockout

/-- OVERVOLTAGE_LOCKOUT. -/
def execOvervoltageLockout (s : State) : Host.Outcome State Fault Refusal := .next s.lockout

/-- Rail number of V3P3_AUX (R487). -/
def railAux : Nat := 8

/-- A fault on V3P3_AUX switches it off, with its reading in the log (R464, R557). -/
def State.auxFault (s : State) (v i : Nat) : State :=
  let s1 := (s.setSeenB PW_RAIL PW_RAIL_FAULT railAux).setFB PW_RAIL PW_RAIL_GOOD railAux false
  let s2 := ((s1.bump PW_RAIL_FAULTS).logEvent 0x0B03 2 [w32 railAux, w32 (v % 65536), w32 (i % 65536)]).raise evPower
  { s2 with pw := { s2.pw with auxOff := true } }

/-- AUX_RAIL_FAULT. -/
def execAuxRailFault (v i : Nat) (s : State) : Host.Outcome State Fault Refusal :=
  whenOn s fun s => if s.pw.auxOff then s else s.auxFault v i

/-- AUX_RAIL_RETRY. -/
def execAuxRailRetry (ok : Bool) (v i : Nat) (s : State) : Host.Outcome State Fault Refusal :=
  whenOn s fun s =>
    if !s.pw.auxOff then s
    else if ok then { s.setFB PW_RAIL PW_RAIL_GOOD railAux true with pw := { s.pw with auxOff := false } }
    else s.auxFault v i

/-- SENSE_WIRE_OPEN of a memory rail (R465). -/
def execSenseWireOpen (r : Nat) (s : State) : Host.Outcome State Fault Refusal :=
  whenOn s fun s => if 9 ≤ r ∧ r < 12 then (s.setF PW_RAIL PW_RAIL_SNS_OPEN 1).logEvent 0x0B04 1 [w32 r] else s

/-! ### Droop (R468, R469) -/

/-- Bit of PW_DROOP of a droop sensor: 0 the I/O-and-control die, 1 and 2 compute dies 0 and 1. -/
def droopBit (d : Nat) : Nat := 2 - d

/-- The die of a droop sensor is powered. -/
def State.droopPowered (s : State) (d : Nat) : Bool := d == 0 || (decide (d ≤ 2) && s.diePowered (d - 1))

/-- DROOP_SAG: a stretch begins and is counted, or goes on. -/
def execDroopSag (d : Nat) (s : State) : Host.Outcome State Fault Refusal :=
  whenOn s fun s =>
    if !s.droopPowered d || s.rfb PW_DROOP PW_DROOP_NOW (droopBit d) then s
    else (((s.setFB PW_DROOP PW_DROOP_NOW (droopBit d) true).setSeenB PW_DROOP PW_DROOP_SEEN (droopBit d)).bump (PW_DROOP_IO + 4 * d)).raise evPower

/-- DROOP_STRETCH_END: a stretch of at least 2 µs ends after `us` µs. -/
def execDroopStretchEnd (d us : Nat) (s : State) : Host.Outcome State Fault Refusal :=
  whenOn s fun s =>
    if d ≤ 2 ∧ 2 ≤ us ∧ s.rfb PW_DROOP PW_DROOP_NOW (droopBit d) = true then
      (s.setFB PW_DROOP PW_DROOP_NOW (droopBit d) false).bumpBy PW_STRETCH_US counter32 us
    else s

/-! ### Bands (R357 to R360, R475) -/

/-- Band that a temperature enters by the rising thresholds; `ge t` tells whether it is at or above t °C (R358). -/
def bandRise (ge : Int → Bool) : Nat := if ge 95 then 3 else if ge 70 then 2 else if ge 45 then 1 else 0

/-- Band that a temperature keeps: the highest whose falling threshold it has not passed below (R358). -/
def bandKept (ge : Int → Bool) : Nat := if ge 92 then 3 else if ge 67 then 2 else if ge 42 then 1 else 0

/-- The next band from the current one (R358). -/
def bandNext (ge : Int → Bool) (cur : Nat) : Nat := max (bandRise ge) (min cur (bandKept ge))

/-- The four lanes of a channel's set for a band. -/
def State.dlySet (s : State) (n b : Nat) : List Word := (List.range 4).map fun l => s.reg (DR_DLY n (4 * b + l))

/-- A channel's set for a band has been swept (R360). -/
def State.swept (s : State) (n b : Nat) : Bool := (s.dlySet n b).all fun w => fget w DR_DLY_VALID == 1

/-- The set used in a band: its own, or the swept set of the nearest band, the warmer one of two; its own where none is swept (R332, R360). -/
def State.setFor (s : State) (n b : Nat) : Nat :=
  if s.swept n b then b
  else (([b + 1, b - 1, b + 2, b - 2, b + 3, b - 3].filter fun c => decide (c < 4)).find? fun c => s.swept n c).getD b

/-- A channel is in a band with its set held as the next one and its rows closed; an unswept set is flagged (R349, R359, R360). -/
def State.enterBand (s : State) (n b : Nat) : State :=
  let s1 := s.setF (DR_CH_STAT n) DR_CH_STAT_BAND b
  let s2 := { s1 with dr := { s1.dr with phyNext := tblSet [] s1.dr.phyNext n (s.dlySet n (s.setFor n b)) } }
  let s3 := (s2.drClose n 0).drClose n 1
  if s.swept n b then s3 else s3.seen (DR_CH_STAT n) DR_CH_STAT_BAND_UNSWEPT evMemory

/-- TOFS of a channel in °C (R357). -/
def State.tofs (s : State) (n : Nat) : Int := sext 8 (s.rf (DR_CH_CFG n) DR_CH_CFG_TOFS)

/-- A two's complement field of `w` bits holds the nearest value in its range. -/
def clampBits (w : Nat) (v : Int) : Nat := (BitVec.ofInt w (max (-(2 ^ (w - 1) : Nat)) (min ((2 ^ (w - 1) : Nat) - 1) v))).toNat

/-- The channel's temperature follows the sensor of its PHY, and its band with it; without the sensor it is in band 3 (R357, R358). -/
def State.chanBand (s : State) (n : Nat) : State :=
  let x := s.sensor (40 + n)
  let cur := s.rf (DR_CH_STAT n) DR_CH_STAT_BAND
  if s.rf DR_STAT DR_STAT_STATE = drOff ∨ 2 ^ s.drM ≤ n then s
  else if x.lost then
    let s1 := s.setF (DR_CH_STAT n) DR_CH_STAT_TSENS_F 1
    if cur = 3 then s1 else s1.enterBand n 3
  else
    let s1 := (s.setF (DR_CH_STAT n) DR_CH_STAT_TSENS_F 0).setF (DR_CH_STAT n) DR_CH_STAT_TEMP (clampBits 8 (x.temp / 16 + s.tofs n))
    let b := bandNext (fun t => x.atLeast (deg (t - s.tofs n))) cur
    if b = cur then s1 else s1.enterBand n b

/-- The slew band follows the hottest reading of TS40–TS61; its code waits for each output's next inactive period (R475, R488). -/
def State.slewBand (s : State) : State :=
  if (dieSensors 2).any s.sensOk then
    let b := bandNext (fun t => s.dieHot 2 (deg t)) (s.rf PW_STAT PW_STAT_IO_BAND)
    let s1 := s.setF PW_STAT PW_STAT_IO_BAND b
    { s1 with pw := { s1.pw with slewNext := bits (s.rf PW_SLEW PW_SLEW_CODE) (2 * b + 1) (2 * b) } }
  else s

/-! ### Throttling (R476 to R478) -/

/-- Field of PW_THROT of a step: 0 and 1 the compute dies, 2 the I/O-and-control die, 3 K_S. -/
def kFld : Nat → Fld
  | 0 => PW_THROT_K_C0
  | 1 => PW_THROT_K_C1
  | 2 => PW_THROT_K_IO
  | _ => PW_THROT_K_S

/-- A step. -/
def State.kOf (s : State) (d : Nat) : Nat := s.rf PW_THROT (kFld d)

/-- A step changes: a rise is counted, and Woad's step follows (R477, R479). -/
def State.setK (s : State) (d k : Nat) : State :=
  if k = s.kOf d then s
  else
    let s1 := if s.kOf d < k then s.bump PW_THR_UP else s
    { s1.setF PW_THROT (kFld d) k with pw := { s1.pw with stepAt := tblSet 0 s1.pw.stepAt d s1.time.cycles } }.kwSync

/-- Saffron cycles of 1 ms and of 100 ms. -/
def ms1 : Nat := 2000000
def ms100 : Nat := 200000000

/-- Sensors of a die not left out (R474). -/
def State.sensLeft (s : State) (d : Nat) : Nat := ((dieSensors d).filter fun n => !(s.sensor n).lost).length

/-- A die's step after a reading; `spike` for a raw reading at or above 115 °C (R474, R476). -/
def State.throttle (s : State) (d : Nat) (spike : Bool) : State :=
  let c := s.time.cycles
  let was := tblGet 0 s.pw.coolAt d
  let cool := (dieSensors d).any s.sensOk && !s.dieHot d (deg 97)
  let since := if cool then (if was = 0 then c + 1 else was) else 0
  let last := tblGet 0 s.pw.stepAt d
  let k := s.kOf d
  let k1 :=
    if spike then 7
    else if s.dieHot d (deg 100) && decide (k < 7) && decide (last + ms1 ≤ c) then k + 1
    else if since != 0 && decide (since + ms100 ≤ c + 1) && decide (last + ms100 ≤ c) then k - 1
    else k
  let k2 := if d < 2 ∧ s.sensLeft d < 4 then max 4 k1 else k1
  { s with pw := { s.pw with coolAt := tblSet 0 s.pw.coolAt d since } }.setK d k2

/-- KS_STEP_TICK (R477). -/
def execKsStepTick (s : State) : Host.Outcome State Fault Refusal :=
  whenOn s fun s =>
    let hot := [0, 1].any fun d => s.kOf d == 7 && s.dieHot d (deg 100)
    let age := s.time.cycles - tblGet 0 s.pw.stepAt 3
    let k := s.kOf 3
    if hot then (if decide (ms1 ≤ age) && decide (k < 7) then s.setK 3 (k + 1) else s)
    else if ms100 ≤ age then s.setK 3 (k - 1)
    else s

/-! ### Thermal shutdown (R480 to R484) -/

/-- A temperature in 0.0625 °C as a 16-bit field carries it (R557). -/
def temp16 (t : Int) : Nat := (BitVec.ofInt 16 t).toNat

/-- The 0x0B05 entry: cause, sensor, both readings, the diode's reading, critical. -/
def State.logShutdown (s : State) (cause sensor : Nat) (first confirm : Nat) (critical : Bool) : State :=
  s.logEvent 0x0B05 2 [w32 cause, w32 sensor, w32 first, w32 confirm, w32 (s.rf PW_DIODE PW_DIODE_TEMP), w32 (b2n critical)]

/-- The Madder slices that run or load stop, and what waits at every output port is not delivered (R482). -/
def State.stopSlices (s : State) : State :=
  (List.range 64).foldl (fun s k =>
    let s1 := s.setSlice k { s.slice k with waits := [], sent := [] }
    if s.sliceState k = mdDead ∨ s.sliceState k = mdHalted then s1 else s1.setF (MD_SL_STAT k) MD_SL_STAT_STATE mdIdle) s

/-- Step 2 of a compute shutdown, or of a core stop: the state, the log entry, and the fence of an ACTIVE unit (R481, R482, R484). -/
def State.shutdown (s : State) (core : Bool) (cause sensor first confirm : Nat) : State :=
  let st := if core then 2 else 1
  if st ≤ s.rf PW_STAT PW_STAT_STATE then s
  else
    let s1 := (((s.setF PW_STAT PW_STAT_STATE st).setF PW_STAT PW_STAT_CAUSE cause).bump PW_SHUTDOWNS).logShutdown cause sensor first confirm false
    let s2 := (s1.seen PW_STAT PW_STAT_SHUTDOWN_SEEN evPower).fence false none
    let s3 := if core then s2.stopSlices else s2
    { s3 with pw := { s3.pw with shutPend := true, compRestart := false }, ml := { s3.ml with item := none } }

/-- A critical shutdown: the log entry, then every rail but VHK off (R483). -/
def State.critical (s : State) (sensor first confirm : Nat) : State :=
  let cause := if sensor < 62 then 2 else Config.powerDieCause
  let s1 := (s.logShutdown cause sensor first confirm true).fence false none
  { s1 with pw := { s1.pw with warned := true } }.nonvolatile .critical

/-- SHUTDOWN_LOG_WRITTEN: the compute dies lose power and what they held (R481 step 3). -/
def execShutdownLogWritten (s : State) : Host.Outcome State Fault Refusal :=
  whenOn s fun s =>
    if s.pw.shutPend then
      let s1 := (if s.pw.compOn then s.computeLost 0 else s).compDown
      { s1 with pw := { s1.pw with shutPend := false, hotStart := [0, 1] } }
    else s

/-! ### Readings (R471 to R474) -/

/-- Limits of a sensor in °C (R472). -/
def State.sensLimits (s : State) (n : Nat) : List Int :=
  let bands : List Int := [45, 42, 70, 67, 95, 92]
  if n < 40 then [100, 115]
  else if n < 62 then [100, 115, 125] ++ bands ++ (if n < 56 then bands.map (· - s.tofs (n - 40)) else [])
  else [125]

/-- The filtered temperature is within 8 °C of a limit. -/
def State.nearLimit (s : State) (n : Nat) (x : Sensor) : Bool :=
  (s.sensLimits n).any fun l => x.atLeast (deg (l - 8)) && decide (x.num ≤ deg (l + 8) * 4 ^ x.exp)

/-- A sensor takes a reading in range, which the next one confirms where it is at or above 115 °C (R473, R481). -/
def Sensor.take (x : Sensor) (raw : Int) : Sensor :=
  { seen := true, num := if x.seen then 3 * x.num + raw * 4 ^ x.exp else raw, exp := if x.seen then x.exp + 1 else 0, raw := raw
    pend := decide (deg 115 ≤ raw), lost := false }

/-- PW_TSn follows the sensor (R487). -/
def State.showSensor (s : State) (n : Nat) : State :=
  let x := s.sensor n
  let s1 := (s.setF (PW_TS n) PW_TS_STATUS (b2n x.lost)).setF (PW_TS n) PW_TS_FAST (b2n (!x.lost && x.seen && s.nearLimit n x))
  if x.lost then s1 else s1.setF (PW_TS n) PW_TS_TEMP (temp16 x.temp)

/-- SENS_DEGRADED while a compute die has fewer than 4 sensors left (R474). -/
def State.degraded (s : State) : State := s.setF PW_STAT PW_STAT_SENS_DEGRADED (b2n ([0, 1].any fun d => decide (s.sensLeft d < 4)))

/-- A reading at or above the limit was not confirmed by the next one (R481). -/
def State.nearMiss (s : State) : State := (s.bump PW_NEAR).seen PW_STAT PW_STAT_NEAR_SEEN evPower

/-- A sensor has become unavailable: logged once, and a compute die without sensors is treated as confirmed at 115 °C (R474, R484). -/
def State.sensorLost (s : State) (n : Nat) : State :=
  let d := dieOfSensor n
  let s1 := s.logEvent 0x0B07 1 [w32 n, w32 d, w32 (s.sensLeft d)]
  let s2 := if d < 2 ∧ s.sensLeft d = 3 then s1.logEvent 0x0B07 1 [0xFF, w32 d, 3] else s1
  if d < 2 ∧ s.sensLeft d = 0 then s2.shutdown false 3 0xFF 0 0 else s2

/-- What a confirmed reading does, by the sensor's die; below 125 °C one of the power-conversion die does nothing (R481 to R483). -/
def State.confirmed (s : State) (n : Nat) (first second : Int) : State :=
  if 40 ≤ n ∧ deg 125 ≤ first ∧ deg 125 ≤ second then s.critical n (temp16 first) (temp16 second)
  else if n < 40 then s.shutdown false 1 n (temp16 first) (temp16 second)
  else if n < 62 then s.shutdown true 2 n (temp16 first) (temp16 second)
  else s

/-- One reading of a sensor, if its die is powered: `none` where it does not answer, and out of −40 °C to 150 °C it is unavailable (R473, R474). -/
def State.reading (s : State) (n : Nat) (r : Option Int) : State :=
  if !s.on || decide (64 ≤ n) || !s.diePowered (dieOfSensor n) then s
  else
    let d := dieOfSensor n
    let x := s.sensor n
    let raw := r.filter fun t => decide (deg (-40) ≤ t) && decide (t ≤ deg 150)
    let y := match raw with
      | some t => x.take t
      | none => { x with pend := false, lost := true }
    let spike := match raw with
      | some t => decide (n < 62) && decide (deg 115 ≤ t)
      | none => false
    let s1 := ((s.setSensor n y).showSensor n).degraded
    let s2 := if d < 3 then s1.throttle d spike else s1
    let s3 := if d = 2 then s2.slewBand else s2
    let s4 := if 40 ≤ n ∧ n < 56 then s3.chanBand (n - 40) else s3
    let s5 := if y.lost && !x.lost then s4.sensorLost n else s4
    if x.pend then (if y.pend then s5.confirmed n x.raw y.raw else s5.nearMiss) else s5

/-- FAST_READING: of a sensor in the fast schedule, of one whose reading awaits its confirmation, or the first after its die is powered (R472, R473, R481). -/
def execFastReading (n : Nat) (raw : Option Int) (s : State) : Host.Outcome State Fault Refusal :=
  whenOn s fun s =>
    if s.flag (PW_TS n) PW_TS_FAST || (s.sensor n).pend || !(s.sensor n).seen then s.reading n raw else s

/-! ### Recovery (R485) -/

/-- Saffron cycles of 3,600 s. -/
def cyclesHour : Nat := 7200000000000

/-- Automatic restarts in the preceding 3,600 s. -/
def State.recentRestarts (s : State) : List Nat := s.pw.restarts.filter fun c => decide (s.pw.hkCycles < c + cyclesHour)

/-- An automatic restart is still within the budget (R485). -/
def State.restartBudget (s : State) : Bool := decide (s.recentRestarts.length < 3)

/-- An automatic restart takes place. -/
def State.spendRestart (s : State) : State := { s with pw := { s.pw with restarts := s.pw.hkCycles :: s.recentRestarts } }

/-- A compute restart: counted, due to be powered again, and as any reset the end of the nonce (R423, R425, R505). -/
def State.startCompute (s : State) : State :=
  let s1 := (s.endNonce.setF CP_SYS_STAT CP_SYS_STAT_CAUSE 3).bumpBy GLB_RST_STAT GLB_RST_STAT_COMPUTE 1
  { s1 with pw := { s1.pw with compRestart := true }, cp := { s1.cp with resetAt := s1.time.cycles } }

/-- Recovery from COMPUTE_OFF or CORE_STOP: a compute restart, and from CORE_STOP the slices restart; a unit in LAMPBLACK returns to its sweep (R485). -/
def State.recover (s : State) (commanded : Bool) : State :=
  let core := s.coreStopped
  let s1 := ((s.setF PW_STAT PW_STAT_STATE 0).setF PW_STAT PW_STAT_RESTART_BLOCKED 0).logEvent 0x0B06 0
    [w32 (s.rf PW_DIODE PW_DIODE_TEMP), w32 (b2n commanded)]
  if s.role = roleLampblack then s1
  else
    let s2 := s1.startCompute
    if core then
      (List.range 64).foldl (fun s k =>
        if s.flag (MD_SL_CTL k) MD_SL_CTL_RUN && s.sliceState k == mdIdle && s.running then s.restartSlice k else s) s2
    else s2

/-- The diode's reading permits recovery: below 95 °C (R485). -/
def State.diodeCool (s : State) : Bool := s.flag PW_DIODE PW_DIODE_VALID && decide (sext 16 (s.rf PW_DIODE PW_DIODE_TEMP) < deg 95)

/-- The automatic restart of the slow round (R485). -/
def State.autoRestart (s : State) : State :=
  if s.thermal && !s.pw.shutPend && s.flag PW_CTL PW_CTL_AUTO_RESTART then
    if !s.restartBudget then s.setF PW_STAT PW_STAT_RESTART_BLOCKED 1
    else if s.diodeCool then (s.spendRestart).recover false
    else s
  else s

/-- The diode's reading. -/
def State.readDiode (s : State) (t : Int) : State := (s.setF PW_DIODE PW_DIODE_VALID 1).setF PW_DIODE PW_DIODE_TEMP (temp16 t)

/-- The board thermistor: 0 a reading, 1 open, 2 shorted, which leaves the reading invalid (R465). -/
def State.readBoard (s : State) (k : Nat) (t : Int) : State :=
  let s1 := ((s.setF PW_BTH PW_BTH_VALID (b2n (k == 0))).setF PW_BTH PW_BTH_OPEN (b2n (k == 1))).setF PW_BTH PW_BTH_SHORT (b2n (k == 2))
  if k = 0 then s1.setF PW_BTH PW_BTH_TEMP (temp16 t) else s1

/-- SLOW_ROUND: the diode, the input, the rails within tolerance, the thermistor and every powered sensor are read (R472). -/
def execSlowRound (raws : List (Option Int)) (diode : Int) (vin iin pin good bth : Nat) (board : Int) (s : State) :
    Host.Outcome State Fault Refusal :=
  whenOn s fun s =>
    let s1 := ((s.setF PW_VIN PW_VIN_VIN vin).setF PW_VIN PW_VIN_IIN iin).setF PW_PIN PW_PIN_PIN pin
    let s2 := ((s1.setF PW_RAIL PW_RAIL_GOOD good).readDiode diode).readBoard bth board
    let s3 := (List.range 64).foldl (fun s n => s.reading n (raws.getD n none)) s2
    if s3.on then s3.autoRestart else s3

/-- COMPUTE_RESTART_DONE: the compute dies are powered, and integrations resume at the next grid boundary (R195, R425). -/
def execComputeRestartDone (s : State) : Host.Outcome State Fault Refusal :=
  whenOn s fun s =>
    if s.pw.compRestart && !s.thermal then
      let s1 := s.compUp
      { s1.integResume s1.now 0 with pw := { s1.pw with compRestart := false } }
    else s

/-! ### Pads (R544) -/

/-- PAD_FAULT: bit `b` of PW_PAD; a newly set bit is logged with the driven and the ball's level. -/
def execPadFault (b driven ball : Nat) (s : State) : Host.Outcome State Fault Refusal :=
  whenOn s fun s =>
    if 14 ≤ b ∧ b < 32 then
      let w := (s.reg PW_PAD).toNat
      let s1 := if bit w b then s else (s.setSeenB PW_PAD counter32 b).logEvent 0x0B08 1 [w32 b, w32 driven, w32 ball]
      s1.raise evPower
    else s

/-! ### Commands (R488) -/

/-- The eight counters (R487). -/
def pwCounters : List Nat := [PW_DROOP_IO, PW_DROOP_C0, PW_DROOP_C1, PW_STRETCH_US, PW_THR_UP, PW_NEAR, PW_SHUTDOWNS, PW_RAIL_FAULTS]

/-- PW_STATUS. -/
def execPwStatus (c : Cmd) (s : State) : Host.Outcome State Fault Refusal :=
  .next (s.command 0x0B01 c (fun _ => needLen 0 c) fun s =>
    .ok (([PW_STAT, PW_VIN, PW_PIN, PW_RAIL, PW_DROOP, PW_THROT, PW_DIODE, PW_BTH] ++ pwCounters).map s.readReg) s)

/-- PW_TEMP_READ. -/
def execPwTempRead (c : Cmd) (s : State) : Host.Outcome State Fault Refusal :=
  .next (s.command 0x0B02 c (fun _ => needLen 0 c) fun s => .ok ((List.range 64).map fun n => s.readReg (PW_TS n)) s)

/-- Put PW_CTL and PW_SLEW into force; housekeeping holds AUTO_RESTART (R487). -/
def State.pwConfig (s : State) (ctl slew : Word) : State :=
  let s1 := s.configAll [(PW_CTL, ctl), (PW_SLEW, slew)]
  { s1 with pw := { s1.pw with hkAuto := s1.flag PW_CTL PW_CTL_AUTO_RESTART } }

/-- PW_CONFIG. -/
def execPwConfig (c : Cmd) (s : State) : Host.Outcome State Fault Refusal :=
  .next (s.command 0x0B03 c (fun _ => needLen 2 c) fun s => .ok [] (s.pwConfig (c.w 0) (c.w 1)))

/-- PW_RESTART. -/
def execPwRestart (c : Cmd) (s : State) : Host.Outcome State Fault Refusal :=
  .next (s.command 0x0B04 c (fun _ => needLen 0 c) fun s =>
    if !s.thermal || s.pw.shutPend then bad stWrongState []
    else if !s.diodeCool then bad stWrongState [s.readReg PW_DIODE]
    else .ok [] (s.recover true))

/-- An entry as the ring holds it (R466). -/
def LogEntry.bytes (e : LogEntry) : List Byte :=
  let b := le 8 e.atc ++ le 4 e.ms ++ le 2 e.code ++ le 1 e.sev ++ le 1 0 ++ le 4 e.seq ++ (e.detail.flatMap fun (w : Word) => le 4 w.toNat) ++
    List.replicate (40 - 4 * e.detail.length) 0
  b ++ le 4 (crc32c b)

/-- PW_LOG_READ. -/
def execPwLogRead (c : Cmd) (s : State) : Host.Outcome State Fault Refusal :=
  .next (s.command 0x0B05 c (fun _ => (needLen 2 c).or (badIf (decide ((c.w 1).toNat < 1) || decide (63 < (c.w 1).toNat)) 1)) fun s =>
    let oldest := match s.log.getLast? with | some e => e.seq | none => (s.reg PW_LOG_SEQ).toNat
    let es := s.log.reverse.filter fun e => decide ((c.w 0).toNat ≤ e.seq) && decide (e.seq < (c.w 0).toNat + (c.w 1).toNat)
    .ok (w32 oldest :: packWordsBE (es.flatMap LogEntry.bytes)) s)

/-- The hottest of TS40–TS61, as PW_TS gives it; with none available, a value that the specification leaves open. -/
def State.hottestIo (s : State) : Word :=
  match ((dieSensors 2).filter s.sensOk).map fun n => (s.sensor n).temp with
  | [] => Config.noHottest s.free
  | t :: ts => w32 (temp16 (ts.foldl max t))

/-- PW_DIODE_READ: the diode is read at once. -/
def execPwDiodeRead (c : Cmd) (diode : Int) (s : State) : Host.Outcome State Fault Refusal :=
  .next (s.command 0x0B06 c (fun _ => needLen 0 c) fun s =>
    let s1 := s.readDiode diode
    .ok [s1.readReg PW_DIODE, s1.hottestIo] s1.draw)

/-- PW_CNT_CLR.ALL (R487). -/
def execPwCntClrAll (s : State) : Host.Outcome State Fault Refusal := whenOn s fun s => s.clearCounters pwCounters

end Sys2Proof.Machine
end

