-- ==== Sys2Proof/Machine/Channel.lean ====
section
/-! DEFINITION. The standard channeliser program: spectra, calibration, requantisation, scale epochs and records, the issue of bundles and the completion of outputs, and the channeliser commands (R107, R128, R132, R146 to R170). -/

namespace Sys2Proof.Machine

/-! ### Calibration (R155 to R157) -/

/-- Halfword address of the entry of path j and channel k in a calibration bank (R155). -/
def calAddr (bank : Bool) (j k : Nat) : Nat := (if bank then 131072 else 65536) + 2 * (4096 * j + k)

/-- Active bank of a slice. -/
def State.calBank (s : State) (k : Nat) : Bool := s.flag (MD_CH_SL_STAT k) MD_CH_SL_STAT_BANK

/-- Divide by 2^n, rounding half away from zero. -/
def rhaDiv (x : Int) (n : Nat) : Int := rhaShift x (-(n : Int))

/-- The complex product of a gain in Q2.14 and a channel value in units of 2^-40 CU, in units of 2^-14 CU (R155). -/
def calibrate (g z : Int × Int) : Int × Int := (rhaDiv (g.1 * z.1 - g.2 * z.2) 40, rhaDiv (g.1 * z.2 + g.2 * z.1) 40)

/-- The gain of path j and channel k in the active bank of a slice. -/
def State.calGain (s : State) (k j ch : Nat) : Int × Int :=
  let a := calAddr (s.calBank k) j ch
  (sext 16 (tblGet 0 (s.slice k).y a), sext 16 (tblGet 0 (s.slice k).y (a + 1)))

/-! ### Scale (R158 to R164) -/

/-- τ in force for a spectrum, UQ2.6: the oldest target replaced only from a later boundary on, else the register's (R57, R165). -/
def State.target (s : State) (st : Nat) : Nat :=
  match s.ch.tgts.reverse.find? fun (q : Nat × Nat) => decide (st < q.1) with
  | some q => q.2
  | none => s.rf MD_CH_TARGET MD_CH_TARGET_TARGET

/-- The smallest exponent for which σ < τ √2 2^(E − 4), or 15; the sum is in units of 2^-28 CU² (R163). -/
def expFor (tau n sum : Nat) : Nat := ((List.range 16).find? fun e => decide (sum < tau * tau * 4 ^ e * n * 2 ^ 14)).getD 15

/-- EXP_LOW for an exponent (R163). -/
def expLow (tau n sum e : Nat) : Bool := e == 0 && decide (sum < tau * tau * n * 2 ^ 12)

/-- EXP_HIGH for an exponent (R163). -/
def expHigh (tau n sum e : Nat) : Bool := e == 15 && decide (tau * tau * 4 ^ 15 * n * 2 ^ 14 ≤ sum)

/-- Set the exponents of every group from sums over `n` spectra (R163). -/
def ScaleSt.setExps (x : ScaleSt) (tau n : Nat) (sums : Tbl Nat) : ScaleSt :=
  let es := (List.range 256).map fun g => (tblGet 0 sums g, expFor tau n (tblGet 0 sums g))
  { x with
    exps := tblSetRun 0 [] 0 (es.map (·.2))
    low := es.any fun e => expLow tau n e.1 e.2
    high := es.any fun e => expHigh tau n e.1 e.2 }

/-- Sum of z² over both components of each group's 16 channels (R163). -/
def groupSums (zs : List (Int × Int)) : Tbl Nat :=
  (zs.zipIdx).foldl (fun t z => tblUpd 0 t (z.2 / 16) fun a => a + (z.1.1 * z.1.1 + z.1.2 * z.1.2).toNat) []

/-- Add sums group by group. -/
def addSums (a b : Tbl Nat) : Tbl Nat := b.foldl (fun t e => tblUpd 0 t e.1 (· + e.2)) a

/-- A component requantised under exponent E, and whether it was clipped (R158, R159). -/
def requant (e : Nat) (z : Int) : Int × Bool :=
  let q := rhaDiv z (e + 10)
  (max (-7) (min 7 q), decide (7 < q.natAbs))

/-- The 4,096 bytes of a spectrum, and the clipped components of each group (R122, R158, R160). -/
def requantAll (exps : Tbl Nat) (zs : List (Int × Int)) : List Byte × Tbl Nat :=
  let qs := zs.zipIdx.map fun z => (z.2 / 16, requant (tblGet 0 exps (z.2 / 16)) z.1.1, requant (tblGet 0 exps (z.2 / 16)) z.1.2)
  (qs.map fun q => BitVec.ofNat 8 (pack4 q.2.1.1 q.2.2.1),
    qs.foldl (fun t q => tblUpd 0 t q.1 (· + (b2n q.2.1.2 + b2n q.2.2.2))) [])

/-! ### Records (R166) -/

/-- A scale record's 1,184 bytes (R166). -/
def scaleRecord (epoch path tau : Nat) (closing noData : Bool) (x : ScaleSt) : List Byte :=
  le 8 epoch ++ le 2 path ++ le 1 (b2n closing) ++ le 1 (b2n x.seeded + 2 * b2n x.low + 4 * b2n x.high + 8 * b2n noData) ++
    le 4 (if closing then x.n else 0) ++ le 2 tau ++ le 14 0 ++
    ((List.range 128).map fun i => BitVec.ofNat 8 (tblGet 0 x.exps (2 * i) + 16 * tblGet 0 x.exps (2 * i + 1))) ++
    (List.range 256).flatMap fun g => le 4 (if closing then min 0xFFFFFFFF (tblGet 0 x.clips g) else 0)

/-- Send a scale record to staging with the spectrum it goes with (R166). -/
def State.sendRecord (s : State) (p st epoch : Nat) (closing noData : Bool) : State :=
  let r : ScaleRec := { path := p, st := st, closing := closing, epoch := epoch
                        bytes := scaleRecord epoch (s.arrayPath p) (s.target st) closing noData (s.scale p) }
  { s with ch := { s.ch with recs := s.ch.recs ++ [r] } }

/-! ### One spectrum of the standard program -/

/-- The window of a path's spectrum: its samples, oldest first, and the flag word they set (R129, R148). -/
def State.window (s : State) (k j : Nat) : List Int × Nat :=
  let m := s.slice k
  let own := (m.st : Int) - s.rf (MD_PATH_DELAY k j) MD_PATH_DELAY_DELAY
  let t0 := own - 24576
  let xj := if tblGet 0 m.xj j = 0 then t0 - 1 else ((tblGet 0 m.xj j : Nat) : Int) - 1
  let rs := (List.range 32768).map fun (i : Nat) => s.vldsLane k j own xj (t0 + i)
  (rs.map fun r => r.1 / 64, (rs.map (·.2)).foldl Nat.lor 0)

/-- One past the newest sample of a path's window. -/
def State.windowEnd (s : State) (k j : Nat) : Nat := (s.slice k).st + 8192 - s.rf (MD_PATH_DELAY k j) MD_PATH_DELAY_DELAY

/-- Flag-word bits that deliver zeros with lane loss, and those that deliver warm-up (R133). -/
def fwLoss (fw : Nat) : Bool := Nat.land fw 0x64 != 0
def fwWarm (fw : Nat) : Bool := Nat.land fw 0x18 != 0
def fwCrc (fw : Nat) : Bool := Nat.land fw 0x02 != 0

/-- Path j of a slice delivers zeros for the spectrum at `st`: it has not rejoined, or rejoins later (R136). -/
def MdSlice.muted (m : MdSlice) (j st : Nat) : Bool := bit m.mute j && (tblGet 0 m.back j == 0 || decide (st + 1 < tblGet 0 m.back j))

/-- A path's mute ends with the first spectrum it delivers after its rejoin. -/
def MdSlice.unmute (m : MdSlice) (j st : Nat) : MdSlice :=
  if bit m.mute j && !m.muted j st then { m with mute := clrBit m.mute j, back := tblSet 0 m.back j 0 } else m

/-- Compute one path's spectrum and queue its output (R146 to R167). A spectrum of a path that has not rejoined is delivered as zeros, and counts nowhere. -/
def State.stdPath (s : State) (k j : Nat) : State :=
  let m := s.slice k
  let p := pathOf k j
  let epoch := tblGet 0 s.ch.epoch k - 1
  let w := s.window k j
  let zs := (chanValues (fun i => sext 16 (tblGet 0 m.x i)) w.1).zipIdx.map fun z => calibrate (s.calGain k j z.2) z.1
  let muted := m.muted j m.st
  let clean := !fwLoss w.2 && !fwWarm w.2 && !fwCrc w.2 && !muted
  let x := s.scale p
  let seedNow := x.seeded && !x.found && clean
  let sums := groupSums zs
  let x1 := if seedNow then { x.setExps (s.target m.st) 1 sums with found := true } else x
  let x2 := if clean then { x1 with sums := addSums x1.sums sums, n := x1.n + 1 } else x1
  let pre := x.seeded && !x2.found
  let rq := requantAll x2.exps zs
  let asIs := !pre && !fwLoss w.2 && !muted
  let clips := (rq.2.map (·.2)).sum
  let opens := !x2.opened && !pre
  let x3 := { x2 with clips := if asIs then addSums x2.clips rq.2 else x2.clips, opened := x2.opened || opens }
  let s1 := s.setScale p x3
  let s2 := if opens then s1.sendRecord p m.st epoch false false else s1
  let s3 := if asIs then s2.bumpBy (MD_CH_SL_CLIPS k) counter32 clips else s2
  let s4 := if asIs && fwWarm w.2 then s3.bump (MD_CH_SL_WARM k) else s3
  let out : OutWait :=
    { path := j, ring := false, last := true, flags := if pre then Nat.lor w.2 0x04 else w.2, data := rq.1, st := m.st, reads := [], newest := s.windowEnd k j }
  s4.setSlice k { s4.slice k with waits := (s4.slice k).waits ++ [out] }

/-- The standard program may compute its spectrum: every sample of every window has been released and its check blocks checked, no epoch boundary waits, and its last outputs have gone (R128, R132). -/
def State.stdReady (s : State) (k : Nat) : Bool :=
  (s.epochDue k (s.slice k).st).isNone && (s.slice k).waits.isEmpty && (List.range 8).all fun j =>
    decide (s.windowEnd k j ≤ s.md.w) && (s.windowEnd k j == 0 || s.covered true (pathOf k j) (s.windowEnd k j - 1))

/-- One whole spectrum of the standard program (R146). DESIGN CHOICE: it counts the 3,840 cycles that the program declares, the most it takes (R144, R147), and an exception gives bundle 0. -/
def State.stdSpectrum (s : State) (k : Nat) (e : Ecc) : State :=
  if s.stdReady k then
    let s0 := s.eccSeen k e
    if e.double then s0.sliceExc k excEcc
    else
      let s1 := (List.range 8).foldl (fun s j => s.stdPath k j) (s0.calSwap k (s0.slice k).st)
      (s1.setSlice k { s1.slice k with cyc := stdHdr.cps }).nextSpectrum k
  else s

/-- A spectrum waits for array time to reach it where an event, or the integration boundary that is due, applies from it on or from before it (R57); an event that an outage or a deferred close holds is not waited for (R60, R194). A slice whose paths are all delayed could otherwise run ahead of its event. -/
def State.awaits (s : State) (st : Nat) : Bool :=
  let heldI := s.holdsAligned
  (!s.standby && s.events.any fun e => decide (e.f ≤ st) && !(e.alignI && heldI)) ||
    (s.integrating && s.pw.compOn && !s.ix.deferred && s.curBank.isSome && decide (s.dueAt ≤ st))

/-- Slice k issues: a bundle of its image, or for the standard program, whose bundles the specification does not list, one whole spectrum (R107, R146). -/
def State.issueSlice (s : State) (k : Nat) (e : Ecc) : State :=
  if s.sliceState k == mdRunning && s.running && !s.awaits (s.slice k).st then
    if s.runsStd k then s.stdSpectrum k e else s.issue k e
  else s

/-- BUNDLE_ISSUE (R107): a slice stalled at a VLDS issues nothing until the stall ends. -/
def execBundleIssue (i : Issue) (s : State) : Host.Outcome State Fault Refusal :=
  whenOn s fun s => if (s.slice i.slice).stall then s else s.issueSlice i.slice i.ecc

/-- VLDS_STALL_END: the sample that a VLDS waited for has been released, and its bundle issues (R128). -/
def execVldsStallEnd (i : Issue) (s : State) : Host.Outcome State Fault Refusal :=
  whenOn s fun s =>
    let k := i.slice
    if (s.slice k).stall && !s.vldsStalls k (slotX (tblGet 0 (s.slice k).imem (s.slice k).pc)) then
      (s.setSlice k { s.slice k with stall := false }).issueSlice k i.ecc
    else s

/-! ### Outputs (R132 to R134, R136) -/

/-- The path's flag word once its check blocks are in (R73, R129). -/
def State.finalFlags (s : State) (k : Nat) (w : OutWait) : Nat :=
  if w.reads.any fun r => (List.range (r.2 - r.1)).any fun i => s.crcBad (pathOf k w.path) (r.1 + i) then Nat.lor w.flags 0x02 else w.flags

/-- Sticky bits of a delivered flag word, and the count of path spectra that staging gets as zeros for STALE or ARITH (R144). -/
def State.pathSeen (s : State) (k j fw : Nat) (stage : Bool) : State :=
  let s1 := if bit fw 6 then s.setSeen (MD_PATH_STAT k j) MD_PATH_STAT_ARITH_SEEN 1 else s
  let s2 := if bit fw 5 then s1.setSeen (MD_PATH_STAT k j) MD_PATH_STAT_STALE_SEEN 1 else s1
  let s3 := if bit fw 4 then s2.setSeen (MD_PATH_STAT k j) MD_PATH_STAT_DCONT_SEEN 1 else s2
  if stage && (bit fw 6 || bit fw 5) then s3.bump (MD_SL_MARKCNT k) else s3

/-- The staging fill of a completed spectrum: zeros under lane loss, beside the path's other flags (R133, R167), and zeros of a path that has not rejoined (R136). -/
def State.fillOf (s : State) (k : Nat) (w : OutWait) (fw : Nat) : Fill :=
  if (s.slice k).muted w.path w.st then zeroFill (pathOf k w.path) w.st
  else
    { path := pathOf k w.path, st := w.st, data := if fwLoss fw then List.replicate 4096 0 else w.data, loss := fwLoss fw, crc := fwCrc fw, warm := fwWarm fw
      seeded := (s.scale (pathOf k w.path)).seeded && s.runsStd k }

/-- The spectrum of an output has not been delivered before: a slice that ran ahead of the samples' arrival and restarts behind its faulting ST computes again what it has delivered (R136, R137). -/
def MdSlice.fresh (m : MdSlice) (st : Nat) : Bool := decide (m.fault ≤ st)

/-- A last block leaves the output port with its flag word: a block of the ring, or the path's whole spectrum for staging. DEDUCED: short of 4,096 bytes nothing goes to staging, for NEXT raises OUT_FORMAT then (R133, R134). -/
def State.lastOut (s : State) (k : Nat) (w : OutWait) (fw : Nat) : State :=
  if w.ring then s.ringBlock k (s.arrayPath (pathOf k w.path)) w.st fw true w.data
  else
    let all := tblGet [] (s.slice k).sent w.path ++ w.data
    let s1 := s.setSlice k { s.slice k with sent := tblSet [] (s.slice k).sent w.path [] }
    if all.length = 4096 ∧ (s.slice k).fresh w.st then { s1 with md := { s1.md with fills := s1.md.fills ++ [s1.fillOf k { w with data := all } fw] } } else s1

/-- OUT_COMPLETE: the check blocks covering the newest sample read have been checked, and the last block goes out with its flags, and with it the blocks behind it that wait for none (R132); a slice that the core stop has stopped delivers nothing (R482). -/
def execOutComplete (k : Nat) (s : State) : Host.Outcome State Fault Refusal :=
  whenOn s fun s =>
    let m := s.slice k
    match m.waits with
    | [] => s
    | w :: ws =>
      if s.coreStopped then s
      else if w.newest != 0 && !s.covered true (pathOf k w.path) (w.newest - 1) then s
      else
        let fw := s.finalFlags k w
        let s1 := s.setSlice k { m with waits := ws }
        let s2 := (s1.pathSeen k w.path fw (!w.ring && !m.muted w.path w.st)).lastOut k w fw
        (s2.setSlice k ((s2.slice k).unmute w.path w.st)).portDrain k

/-! ### Scale epochs (R162 to R166) -/

/-- One path crosses an epoch boundary: its closing record goes out, and its next exponents are chosen or it is seeded (R163, R164, R166). -/
def State.epochPath (s : State) (k b j : Nat) : State :=
  let p := pathOf k j
  let x := s.scale p
  let noData := x.n == 0 || (x.seeded && !x.found)
  let first := tblGet 0 s.ch.epoch k - 1
  let rec0 := scaleRecord first (s.arrayPath p) (s.target (b - 8192)) true noData x
  let s1 := s.sendRecord p (b - 8192) first true noData
  let seeded := x.seedNext || noData
  let y := if seeded then x else x.setExps (s.target b) x.n x.sums
  let s2 := s1.setScale p { y with sums := [], n := 0, clips := [], seeded := seeded, found := false, hist := !seeded, seedNext := false
                                   opened := false, closing := rec0 }
  let s3 := s2.setFB (MD_CH_SL_STAT k) MD_CH_SL_STAT_SEEDED j seeded
  if seeded then s3.bump (MD_CH_SL_SEEDS k) else s3

/-- A slice that runs the standard program, or has just stopped it for a swap, crosses the epoch boundary `b` (R162, R163). -/
def State.epochCross (s : State) (k b : Nat) : State :=
  if s.runsStd k && (s.sliceState k == mdRunning || s.sliceState k == mdSwapping) && tblGet 0 s.ch.epoch k != 0 then
    let s1 := (List.range 8).foldl (fun s j => s.epochPath k b j) s
    { s1 with ch := { s1.ch with epoch := tblSet 0 s1.ch.epoch k (b + 1) } }.setReg64 MD_CH_EPOCH_LO b
  else s

/-- SCALE_EPOCH_BOUNDARY: the slice's spectrum has reached a boundary of the scale epochs, and what happens at the boundary has (R162, R163, R165). -/
def execScaleEpochBoundary (k : Nat) (s : State) : Host.Outcome State Fault Refusal :=
  whenOn s fun s =>
    match s.epochDue k (s.slice k).st with
    | none => s
    | some b => if s.awaits b then s else s.epochCross k b

/-- PROGRAM_SWAP_LOAD_DONE: the new program starts at ENTRY with ST equal to S, once what happens at S has; the standard program's epoch that ends there is closed first (R142, R162). -/
def execProgramSwapLoadDone (k : Nat) (s : State) : Host.Outcome State Fault Refusal :=
  whenOn s fun s =>
    match (s.slice k).swap with
    | (b, n) :: _ =>
      if s.sliceState k == mdSwapping && !s.awaits b then
        (match s.epochDue k b with | some q => s.epochCross k q | none => s).startSlice k n b
      else s
    | [] => s

/-- Copy one calibration bank of a slice into the other (R156). -/
def calCopy (m : MdSlice) (from_ : Bool) : MdSlice :=
  { m with y := tblSetRun 0 m.y (calAddr (!from_) 0 0) (tblRun 0 m.y (calAddr from_ 0 0) 65536) }

/-- CAL_BANK_COPY_DONE (R156). -/
def execCalBankCopyDone (k : Nat) (s : State) : Host.Outcome State Fault Refusal :=
  whenOn s fun s =>
    if s.flag (MD_CH_SL_STAT k) MD_CH_SL_STAT_COPYING then
      (s.setSlice k (calCopy (s.slice k) (s.calBank k))).setF (MD_CH_SL_STAT k) MD_CH_SL_STAT_COPYING 0
    else s

/-! ### Commands (R170) -/

/-- A load to the slice is refused: its copy runs or its swap is queued (R156). -/
def State.calBusy (s : State) (k : Nat) : Bool :=
  s.flag (MD_CH_SL_STAT k) MD_CH_SL_STAT_COPYING || s.flag (MD_CH_SL_STAT k) MD_CH_SL_STAT_SWAP_QUEUED

/-- CH_CAL_LOAD: entries into the loading bank of the path's slice (R155, R170). -/
def execChCalLoad (c : Cmd) (s : State) : Host.Outcome State Fault Refusal :=
  .next (s.command 0x0311 c
    (fun _ => (needLenIn 3 1023 c).or (badIf (decide (4096 < c.f 1 11 0 + (c.payload.length - 2))) 1))
    fun s =>
      let k := c.f 0 8 3
      let m := s.slice k
      if s.calBusy k then bad stResourceBusy []
      else
        let hs := (c.payload.drop 2).flatMap fun w => [bits w.toNat 31 16, bits w.toNat 15 0]
        .ok [] (s.setSlice k { m with y := tblSetRun 0 m.y (calAddr (!s.calBank k) (c.f 0 2 0) (c.f 1 11 0)) hs }))

/-- CH_CAL_FETCH (R156, R170). -/
def execChCalFetch (c : Cmd) (s : State) : Host.Outcome State Fault Refusal :=
  .next (s.command 0x0313 c (fun _ => needLen 3 c) fun s =>
    let ks := (List.range 64).filter (bit (c.q 1))
    if ks.any s.calBusy then bad stResourceBusy []
    else .progress [] { s with ch := { s.ch with fetch := s.ch.fetch ++ [(c.f 0 2 0, c.q 1)] } })

/-- The entries of a slice in a stored set, as halfwords real then imaginary (R157). -/
def State.calSet (s : State) (set k : Nat) : List Nat :=
  (tblRun 0 s.ch.cal (set * 2 ^ 21 + k * 32768) 32768).flatMap fun e => [e % 65536, e / 65536]

/-- Copy a stored set into a bank of a slice. -/
def State.calLoadSet (s : State) (set k : Nat) (bank : Bool) : State :=
  s.setSlice k { s.slice k with y := tblSetRun 0 (s.slice k).y (calAddr bank 0 0) (s.calSet set k) }

/-- CH_CAL_FETCH_DONE: the oldest copy completes and its final reply is sent (R170). -/
def execChCalFetchDone (s : State) : Host.Outcome State Fault Refusal :=
  whenOn s fun s =>
    match s.ch.fetch, s.runningOp 0x0313 with
    | f :: fs, some q =>
      let ks := (List.range 64).filter (bit f.2)
      let s1 := ks.foldl (fun s k => s.calLoadSet f.1 k (!s.calBank k)) s
      { s1 with ch := { s1.ch with fetch := fs } }.final q stOk []
    | _, _ => s

/-- CH_CAL_STORE (R170). -/
def execChCalStore (c : Cmd) (s : State) : Host.Outcome State Fault Refusal :=
  .next (s.command 0x0314 c (fun _ => needLen 1 c) fun s =>
    if s.ch.store.isSome then bad stResourceBusy []
    else .progress [] { s with ch := { s.ch with store := some (c.f 0 2 0) } })

/-- The active bank of a slice as entries of a stored set (R157). -/
def State.calActive (s : State) (k : Nat) : List Nat :=
  (List.range 32768).map fun i =>
    tblGet 0 (s.slice k).y (calAddr (s.calBank k) 0 0 + 2 * i) + 65536 * tblGet 0 (s.slice k).y (calAddr (s.calBank k) 0 0 + 2 * i + 1)

/-- CH_CAL_STORE_DONE (R170). -/
def execChCalStoreDone (s : State) : Host.Outcome State Fault Refusal :=
  whenOn s fun s =>
    match s.ch.store, s.runningOp 0x0314 with
    | some n, some q =>
      let cal := (List.range 64).foldl (fun t k => tblSetRun 0 t (n * 2 ^ 21 + k * 32768) (s.calActive k)) s.ch.cal
      { s with ch := { s.ch with cal := cal, store := none } }.final q stOk []
    | _, _ => s

/-- CH_SCALE_READ: the closing record of the path's last completed epoch (R170). DESIGN CHOICE (notes/assumptions/96): before the first epoch of the path has ended, the record reads as 296 words of 0. -/
def execChScaleRead (c : Cmd) (s : State) : Host.Outcome State Fault Refusal :=
  .next (s.command 0x0316 c (fun _ => needLen 1 c) fun s =>
    .ok (bytesToWordsBE (Sys2Proof.Machine.slice (s.scale (c.f 0 8 0)).closing 0 1184) 296) s)

end Sys2Proof.Machine
end

