-- ==== Sys2Proof/Machine/Sched.lean ====
section
/-! DEFINITION. Scheduled commands: their boundary and lead, the configuration they are checked against, their checks, and the queueing of their events (R55 to R60, R401, R409 to R411). -/

namespace Sys2Proof.Machine

/-! ### Time and boundary (R55, R409, R410, R418) -/

/-- The command comes from a start-up script, before the ATC runs (R418). -/
def State.startupScript (s : State) (c : Cmd) : Bool := c.transport == .script && s.cp.scriptAt.isNone && !s.running

/-- T of a scheduled command: in a script its array time is an offset from the activation boundary (R418). -/
def State.schedTime (s : State) (c : Cmd) : Nat :=
  match c.transport, s.cp.scriptAt with
  | .script, some a => (a + c.time) % 2 ^ 64
  | _, _ => c.time

/-- The alignment of an opcode. -/
def alignsI (op : Nat) : Bool := match schedInfo op with | some i => i.alignI | none => false

/-- The place of an opcode in the table of R56. -/
def rankOf (op : Nat) : Nat := match schedInfo op with | some i => i.rank | none => 13

/-- Firing boundary of a time (R55). -/
def State.boundaryOf (s : State) (op t : Nat) : Nat := if alignsI op then s.gridAt t else spectrumAt t

/-- The earliest T that a command would be accepted with now (R410). -/
def State.earliest (s : State) (op : Nat) : Nat :=
  let x := s.now + s.lead op
  if alignsI op && s.integrating && decide (0 < s.intLen) then
    match s.openStart with
    | some b => if x ≤ b then 0 else max (b + 1) (if x ≤ s.dueAt then 0 else s.gridAt x + 1 - s.intLen)
    | none => s.gridAt x + 1 - s.intLen
  else spectrumAt x - 8191

/-! ### The projected configuration (R401) -/

/-- The slices to which a profile gives a program other than the one they run, with the program (R416, R422). -/
def State.profSlots (s : State) (n : Nat) : List (Nat × Nat) :=
  ((List.range 64).map fun k => (k, s.profProg n k)).filter fun q => s.rf (MD_SL_CTL q.1) MD_SL_CTL_SLOT != q.2 && s.sound q.2

/-- The slices whose program a profile changes, with the program: MD_PROG_SWAP for each whose slot differs (R416, R422). DESIGN CHOICE (notes/assumptions/86): a slice keeps its program where the profile names a slot whose image fails R139. -/
def State.profSwaps (s : State) (n : Nat) : List (Nat × Nat) := (s.profSlots n).filter fun q => s.cpsOk q.2

/-- Program `n` is slice k's in a projected configuration. -/
def State.projectProg (s : State) (k n : Nat) : State :=
  (s.setSlice k { s.slice k with hdr := s.hdrOf n }).setF (MD_SL_CTL k) MD_SL_CTL_SLOT n

/-- What an event of the queue puts in force. -/
def State.projectEvent (s : State) (e : Event) : State :=
  let ws := e.cmd.payload.drop 2
  match e.op with
  | 0x0302 => ((List.range 64).filter (bit (e.cmd.q 3))).foldl (fun s k => s.projectProg k (e.cmd.f 2 4 0)) s
  | 0x0D04 => (s.profSwaps (e.cmd.f 2 1 0)).foldl (fun s q => s.projectProg q.1 q.2) s
  | 0x0401 => s.setConfig e.f (Sys2Proof.Machine.setDesc ws)
  | 0x0403 => (s.setF IX_CTL IX_CTL_RUN 0).setF IX_STAT IX_STAT_STATE 2
  | 0x0503 => s.wdWrite (wdOf ws)
  | 0x0604 => s.ubWrite (ubChangeOf e.cmd)
  | 0x0703 => s.ctWrite e.cmd
  | 0x0C11 => (s.setF CP_FW_STAT CP_FW_STAT_TRIAL 1).setF CP_FW_STAT CP_FW_STAT_ACTIVE_SLOT (1 - s.rf CP_FW_STAT CP_FW_STAT_ACTIVE_SLOT)
  | _ => s

/-- The configuration once every change that has fired or committed is in force. -/
def State.settled (s : State) : State :=
  let s1 := (List.range 64).foldl (fun s k =>
    match (s.slice k).swap.getLast? with
    | some (_, n) => s.projectProg k n
    | none => s) s
  s1.sf.chgs.foldl (fun s c => s.ubWrite c.2.2) s1.ubAhead

/-- The configuration that will be in force at a boundary, with every event queued so far applied that fires by then (R40, R401). -/
def State.projected (s : State) (f : Nat) : State :=
  ((firingOrder s.events).filter fun x => decide (x.f ≤ f)).foldl State.projectEvent s.settled

/-- An event other than `e` counts in the configuration that `e` is checked against again: it fires before `e`, or at its boundary and was queued before it. -/
def State.countsFor (s : State) (e x : Event) : Bool :=
  x.handle != e.handle && (decide (x.f < e.f) ||
    (x.f == e.f && (decide (x.rank < e.rank) || (s.events.takeWhile fun y => y.handle != e.handle).any fun y => y.handle == x.handle)))

/-- The configuration that will be in force at a queued event's boundary, as its checks at the commit point take it (R40, R401, R411). -/
def State.projectedFor (s : State) (e : Event) : State := ((firingOrder s.events).filter (s.countsFor e)).foldl State.projectEvent s.settled

/-! ### Profiles, as their activation needs them (R416, R417) -/

def profScriptLen (bs : List Byte) : Nat := leAt bs 8 4
def profSiglen (bs : List Byte) : Nat := leAt bs 160 4
def profBody (bs : List Byte) : Nat := 256 + profScriptLen bs

/-- ASCII characters padded with 0x00 (R416). -/
def identOk (bs : List Byte) : Bool := bs.all (fun b => decide (b.toNat < 128)) && (bs.dropWhile (· != 0)).all (· == 0)

/-- A header within R416 and the SIGLEN of R489, for profile `n`. -/
def profHdrOk (n : Nat) (bs : List Byte) : Bool :=
  leAt bs 0 4 == 0x50524F46 && leAt bs 4 2 == 1 && leAt bs 6 1 == n && decide (leAt bs 7 1 < 16) && decide (leAt bs 7 1 % 4 ≤ 2) &&
    decide (leAt bs 7 1 / 4 ≤ 2) && profScriptLen bs % 4 == 0 && (leAt bs 7 1 / 4 != 1 || leAt bs 16 8 % 8192 == 0) &&
    (decide (leAt bs 32 1 ≤ 7) || leAt bs 32 1 == 255) && (decide (leAt bs 33 1 ≤ 5) || leAt bs 33 1 == 255) &&
    ((slice bs 34 30).all fun b => b == 0) && ((List.range 64).all fun k => decide (leAt bs (64 + k) 1 ≤ 16)) &&
    identOk (slice bs 128 32) && ((slice bs 164 92).all fun b => b == 0) && decide (profSiglen bs ≤ 1280) && decide (bs.length = profBody bs + profSiglen bs) && decide (bs.length ≤ 2 ^ 21)

/-- The packets of a script, back to back by the length fields of their headers; `fuel` bounds their number. -/
def scriptPackets : Nat → List Byte → List (List Byte)
  | 0, _ => []
  | k + 1, bs =>
    if bs.isEmpty then []
    else
      let n := 20 + 4 * beAt bs 6 2
      bs.take n :: scriptPackets k (bs.drop n)

/-- The packets of a profile's script. -/
def profScript (bs : List Byte) : List (List Byte) :=
  let t := slice bs 256 (profScriptLen bs)
  scriptPackets (t.length / 20 + 1) t

/-- A script packet passes checks 1 to 4 and 6 of R401, source identifier 0 allowed. -/
def scriptPacketOk (bs : List Byte) : Bool :=
  headerOk bs && lengthOk bs && crcOk bs && !bit (beAt bs 3 1) 3 && (opInfo (beAt bs 4 2)).isSome

/-- The first packet that check 3 or check 4 of R417 finds: check 3 is made on every packet first. -/
def scriptBad (ps : List (List Byte)) : Option Nat :=
  match ps.zipIdx.find? fun p => !scriptPacketOk p.1 with
  | some p => some p.2
  | none => ((List.range (ps.length - 1)).find? fun i => decide (beAt (ps.getD (i + 1) []) 8 4 ≤ beAt (ps.getD i []) 8 4)).map (· + 1)

/-- The checks of R417 on an image for profile `n`. -/
def State.profCheck (s : State) (n : Nat) (bs : List Byte) : Option Bad :=
  if !Config.falconVerify s.lc.ownerKey (bs.take (profBody bs)) (bs.drop (profBody bs)) then some ⟨stSignature, 0, []⟩
  else if !profHdrOk n bs then some ⟨stBadParam, 0, []⟩
  else (scriptBad (profScript bs)).map fun i => ⟨stBadParam, 0, [w32 i]⟩

/-! ### Checks 9 and 11 (R401) -/

/-- The first word of a CH_DELAY_SET that names a path listed before. -/
def delayTwice (c : Cmd) (n : Nat) : Option Bad :=
  let ps := (List.range n).map fun i => c.f (3 + i) 24 16
  ((List.range n).find? fun i => (ps.take i).contains (ps.getD i 0)).map fun i => ⟨stBadParam, 3 + i, []⟩

/-- Check 9 of a scheduled command on the projected configuration. -/
def State.schedParams (p : State) (op : Nat) (c : Cmd) : Option Bad :=
  let ws := c.payload.drop 2
  let n := (c.w 2).toNat
  match op with
  | 0x0302 => (needLen 5 c).or ((badIf (decide (16 < c.f 2 4 0) || (c.f 2 4 0 != stdProgram && !(p.prog (c.f 2 4 0)).valid)) 2).or
      (if c.f 2 4 0 = stdProgram then none else p.progCheck (p.prog (c.f 2 4 0)).bytes))
  | 0x0310 => (needLenIn 3 515 c).or ((badIf (n == 0 || decide (512 < n)) 2).or ((needLen (3 + n) c).or (delayTwice c n)))
  | 0x0312 => needLen 5 c
  | 0x0315 => (needLen 3 c).or (badIf (decide (c.f 2 7 0 < 128) || decide (192 < c.f 2 7 0)) 2)
  | 0x0401 => (needLen (2 + setLen ws) c).or (p.setBad (Sys2Proof.Machine.setDesc ws) fun r => 4 + 4 * r)
  | 0x0403 => needLen 2 c
  | 0x0502 => needLen 2 c
  | 0x0503 => (needLen (2 + wdLen ws) c).or (p.wdBad ws 2)
  | 0x0601 => (needLen 566 c).or (p.trigBad c)
  | 0x0604 => p.ubBad c
  | 0x0703 => (needLen 7 c).or (p.ctBad c)
  | 0x0806 => needLen 6 c
  | 0x0808 => needLen 4 c
  | 0x0A05 => needLen 2 c
  | 0x0C11 => needLen 3 c
  | 0x0D04 => (needLen 3 c).or ((badIf (!(p.prof (c.f 2 1 0)).valid) 2).or (p.profCheck (c.f 2 1 0) (p.prof (c.f 2 1 0)).bytes))
  | _ => none

/-- A swap of an image declares DRAM bandwidth (R134). -/
def State.declaresRing (s : State) (n : Nat) : Bool := n != stdProgram && (s.hdrOf n).ring

/-- The peer can take the active role over: this unit is ACTIVE, the link up and the peer WARM; or for the relayed form, this unit is WARM and the link up (R454). -/
def State.handoverOk (s : State) (c : Cmd) : Bool :=
  s.linkUp && (if c.relayed then s.role == roleWarm else s.role == roleActive && s.rf ML_HB_STAT ML_HB_STAT_PEER_STATE == 3)

/-- WRONG_STATE of check 11 for a command with the projected configuration `p`; the pair's refusal is part of it (R441). -/
def State.schedWrong (s p : State) (op : Nat) (c : Cmd) : Bool :=
  s.pairRefuses op false ||
  match op with
  | 0x0302 => s.drFailed && p.declaresRing (c.f 2 4 0)
  | 0x0D04 => s.drFailed && (p.profSwaps (c.f 2 1 0)).any fun q => p.declaresRing q.2
  | 0x0403 => !p.integrating && p.rf IX_STAT IX_STAT_STATE == 0
  | 0x0604 => s.drFailed
  | 0x0808 => !s.flag TM_PTP_STAT TM_PTP_STAT_SET
  | 0x0A05 => !s.handoverOk c
  | 0x0C11 => !p.slotValid (1 - p.rf CP_FW_STAT CP_FW_STAT_ACTIVE_SLOT)
  | _ => false

/-- Sample periods that the firmware activation keeps free of other boundaries (R498). -/
def State.handoffSpan (s : State) : Nat := s.periods 1000000

/-- RESOURCE_BUSY of check 11, with the other events of the queue `es` (R156, R213, R264, R498). -/
def State.schedBusy (s p : State) (es : List Event) (op f : Nat) (c : Cmd) : Bool :=
  es.any (fun e => e.op == 0x0C11 && decide (e.f < f) && decide (f ≤ e.f + s.handoffSpan)) ||
  match op with
  | 0x0312 => (List.range 64).any fun k => bit (c.q 2) k && (tblGet 0 s.ch.swapAt k != 0 || es.any fun e => e.op == 0x0312 && bit (e.cmd.q 2) k)
  | 0x0502 => es.any (fun e => e.op == 0x0502) || s.flag WD_TABLE WD_TABLE_COPYING || s.flag WD_TABLE WD_TABLE_LOADING
  | 0x0601 => es.any (fun e => e.op == 0x0601) || !s.sf.cfgs.isEmpty
  | 0x0C11 => p.inTrial || es.any fun e => decide (f < e.f) && decide (e.f ≤ f + s.handoffSpan)
  | _ => false

/-- BUDGET_EXCEEDED of check 11, with the words of its reply (R40, R140, R134, R187, R209, R255, R299). -/
def State.schedOver (p : State) (op : Nat) (c : Cmd) : Option (List Word) :=
  let ws := c.payload.drop 2
  let codes := fun (q : Option (Nat × Nat)) => q.map fun x => [w32 x.1, w32 x.2]
  match op with
  | 0x0302 =>
    if !p.cpsOk (c.f 2 4 0) then some []
    else if p.declaresRing (c.f 2 4 0) &&
        !(p.projectEvent { handle := 0, t := 0, f := 0, op := op, alignI := true, committed := false, cmd := c }).drC1Ok then some [0x21, 0]
    else none
  | 0x0D04 =>
    if (p.profSlots (c.f 2 1 0)).any fun q => !p.cpsOk q.2 then some []
    else if (p.profSwaps (c.f 2 1 0)).any (fun q => (p.hdrOf q.2).ring) &&
        !(p.projectEvent { handle := 0, t := 0, f := 0, op := op, alignI := true, committed := false, cmd := c }).drC1Ok then some [0x21, 0]
    else none
  | 0x0401 => codes (p.setOver (Sys2Proof.Machine.setDesc ws))
  | 0x0503 => codes (p.wdBudget (wdOf ws))
  | 0x0604 => if p.ubBudget c then none else some [0x21, 0]
  | 0x0703 => codes (p.ctBudget c)
  | _ => none

/-- The refusal that check 11 gives beyond R410, in its order: WRONG_STATE, RESOURCE_BUSY, BUDGET_EXCEEDED. -/
def State.schedRefusal (s p : State) (es : List Event) (op f : Nat) (c : Cmd) : Option Bad :=
  if s.schedWrong p op c then some ⟨stWrongState, 0, []⟩
  else if s.schedBusy p es op f c then some ⟨stResourceBusy, 0, []⟩
  else (p.schedOver op c).map fun ws => ⟨stBudget, 0, ws⟩

/-! ### Queueing (R409, R410, R413) -/

/-- Check 11 of a scheduled command and its entry into the queue. -/
def State.schedule (s : State) (op : Nat) (c : Cmd) : CmdRes :=
  let startup := s.startupScript c
  let t := s.schedTime c
  let f := s.boundaryOf op t
  if !s.running && !startup then .counted ⟨stWrongState, 0, []⟩ (s.bump SC_FAILED)
  else if !startup && decide (f < s.now + s.lead op) then .counted ⟨stTimePast, 0, hiLo (s.earliest op)⟩ (s.bump SC_LATE)
  else if 256 ≤ s.events.length then .counted ⟨stResourceBusy, 0, [256]⟩ (s.bump SC_FULL)
  else
    match s.schedRefusal (s.projected f) s.events op f c with
    | some b => if b.status = stWrongState && !startup then .counted b (s.bump SC_FAILED) else .refuse b
    | none => .scheduled (w32 (s.rf SC_STAT SC_STAT_NEXT_HANDLE) :: hiLo f) (s.queueEvent op t f (alignsI op) c)

/-- A scheduled command: check 9 on the projected configuration, then check 11. -/
def State.schedCommand (s : State) (op : Nat) (c : Cmd) : State :=
  s.command op c
    (fun s =>
      (s.projected (s.boundaryOf op (s.schedTime c))).schedParams op c)
    fun s => s.schedule op c

/-- MD_PROG_SWAP (R142, R145). -/
def execMdProgSwap (c : Cmd) (s : State) : Host.Outcome State Fault Refusal := .next (s.schedCommand 0x0302 c)

/-- CH_DELAY_SET (R149, R170). -/
def execChDelaySet (c : Cmd) (s : State) : Host.Outcome State Fault Refusal := .next (s.schedCommand 0x0310 c)

/-- CH_CAL_SWAP (R156, R170). -/
def execChCalSwap (c : Cmd) (s : State) : Host.Outcome State Fault Refusal := .next (s.schedCommand 0x0312 c)

/-- CH_TARGET_SET (R165, R170). -/
def execChTargetSet (c : Cmd) (s : State) : Host.Outcome State Fault Refusal := .next (s.schedCommand 0x0315 c)

/-- IX_PRODUCT_SET (R181, R184, R187, R205). -/
def execIxProductSet (c : Cmd) (s : State) : Host.Outcome State Fault Refusal := .next (s.schedCommand 0x0401 c)

/-- IX_INTEG_STOP (R186, R205). -/
def execIxIntegStop (c : Cmd) (s : State) : Host.Outcome State Fault Refusal := .next (s.schedCommand 0x0403 c)

/-- WD_POLY_SWAP (R213, R234). -/
def execWdPolySwap (c : Cmd) (s : State) : Host.Outcome State Fault Refusal := .next (s.schedCommand 0x0502 c)

/-- WD_BEAM_CONFIG (R207, R209, R232, R234). -/
def execWdBeamConfig (c : Cmd) (s : State) : Host.Outcome State Fault Refusal := .next (s.schedCommand 0x0503 c)

/-- SF_TRIG_CONFIG (R254, R264). -/
def execSfTrigConfig (c : Cmd) (s : State) : Host.Outcome State Fault Refusal := .next (s.schedCommand 0x0601 c)

/-- SF_UB_CONFIG (R255, R261, R264). -/
def execSfUbConfig (c : Cmd) (s : State) : Host.Outcome State Fault Refusal := .next (s.schedCommand 0x0604 c)

/-- ET_CT_CONFIG (R33, R299). -/
def execEtCtConfig (c : Cmd) (s : State) : Host.Outcome State Fault Refusal := .next (s.schedCommand 0x0703 c)

/-- TM_TAI_MAP (R323, R325). -/
def execTmTaiMap (c : Cmd) (s : State) : Host.Outcome State Fault Refusal := .next (s.schedCommand 0x0806 c)

/-- TM_PTP_STEP (R323, R325). -/
def execTmPtpStep (c : Cmd) (s : State) : Host.Outcome State Fault Refusal := .next (s.schedCommand 0x0808 c)

/-- FW_ACTIVATE (R498, R516). -/
def execFwActivate (c : Cmd) (s : State) : Host.Outcome State Fault Refusal := .next (s.schedCommand 0x0C11 c)

/-- PROF_ACTIVATE (R415, R422). -/
def execProfActivate (c : Cmd) (s : State) : Host.Outcome State Fault Refusal := .next (s.schedCommand 0x0D04 c)

/-- The packet of a command, relayed: flag [3] set (R398, R454). -/
def relayOf (op : Nat) (c : Cmd) : List Byte :=
  packet (8 + 4 * b2n c.scheduled + 2 * b2n c.ack) op c.payload.length c.seq c.source c.payload

/-- What ROLE_HANDOVER's acceptance does: the active relays the packet, and its SCHEDULED reply waits for the peer's acknowledgement (R454). -/
def State.handover (s : State) (c : Cmd) : CmdRes :=
  match s.schedule 0x0A05 c with
  | .scheduled ws s1 =>
    if c.relayed then .scheduled ws s1
    else
      let s2 := s1.mlSend (.relay (relayOf 0x0A05 c))
      .later { s2 with ml := { s2.ml with held := s2.ml.held ++ [(s1.ml.nextMsg, (⟨0x0A05, c⟩ : QEntry), replyTo 0x0A05 c stScheduled 0 0 ws)] } }
  | r => r

/-- ROLE_HANDOVER (R454, R459). -/
def execRoleHandover (c : Cmd) (s : State) : Host.Outcome State Fault Refusal :=
  .next (s.command 0x0A05 c (fun s => s.schedParams 0x0A05 c) fun s => s.handover c)

/-! ### Firing (R57, R58, R60, R411, R412) -/

/-- Integration-aligned events are held while an integration should run and the compute dies are down, and while neither bank is free, so that the close at their boundary is deferred (R60, R194). DEDUCED: the same where no integration runs and both banks still drain. -/
def State.holdsEvent (s : State) (e : Event) : Bool := e.alignI && s.holdsAligned

/-- A standby fires no checkpointed entry; the planned handover alone is its own (R442, R454). -/
def State.ownsEvent (s : State) (e : Event) : Bool := !s.standby || e.op == 0x0A05

/-- A program swap reaches the slices of its mask, which are then assigned a program: it waits at each for the spectrum of its boundary, behind those that have fired before it and in place of one at the same boundary. A slice that runs stops when its spectrum reaches the boundary, at once where it waits there; another takes the program as samples reach the boundary, or at its next start (R57, R58, R142, R144). -/
def State.applySwap (s : State) (b n mask : Nat) : State :=
  ((List.range 64).filter (bit mask)).foldl (fun s k =>
    let m := s.slice k
    let s1 := (s.setSlice k { m with swap := (m.swap.filter fun q => decide (q.1 < b)) ++ [(b, n)] }).setF (MD_SL_CTL k) MD_SL_CTL_RUN 1
    if s.sliceState k = mdRunning ∧ b ≤ m.st then s1.setF (MD_SL_STAT k) MD_SL_STAT_STATE mdSwapping else s1) s

/-- Delays wait at their slices for the spectrum that they apply from; a slice that waits at the boundary takes them at once (R130, R149). -/
def State.applyDelaySet (s : State) (b : Nat) (c : Cmd) : State :=
  (List.range (c.w 2).toNat).foldl (fun s i =>
    let p := c.f (3 + i) 24 16
    let m := s.slice (p / 8)
    let s1 := s.setSlice (p / 8) { m with delays := m.delays ++ [(b, p % 8, c.f (3 + i) 15 0)] }
    if s.sliceState (p / 8) = mdRunning then s1.applyDelays (p / 8) else s1) s

/-- A calibration swap waits for the first spectrum at or after its boundary; a slice that does not run the standard program takes it at once. Without KEEP_SCALE every path of its slices is seeded there (R156, R164). -/
def State.applyCalSwap (s : State) (b mask : Nat) (keep : Bool) : State :=
  ((List.range 64).filter (bit mask)).foldl (fun s k =>
    let s1 := { s with ch := { s.ch with swapAt := tblSet 0 s.ch.swapAt k (b + 1) } }
    let s2 := if keep then s1 else (List.range 8).foldl (fun s j => s.setScale (pathOf k j) { s.scale (pathOf k j) with seedNext := true }) s1
    if s.runsStd k && s.sliceState k == mdRunning then s2 else s2.calSwitch k) s

/-- A new scale target: the one before it holds for exponents chosen before the boundary (R57, R165). -/
def State.applyTarget (s : State) (b tau : Nat) : State :=
  { s with ch := { s.ch with tgts := ((b, s.rf MD_CH_TARGET MD_CH_TARGET_TARGET) :: s.ch.tgts).take 8 } }.setF MD_CH_TARGET MD_CH_TARGET_TARGET tau

/-- Firmware activation fires: the old Nieth saves its state and serves no more until the new one does (R499). -/
def State.applyHandoff (s : State) (e : Event) : State :=
  { s with cp := { s.cp with serving := false }, lc := { s.lc with handoff := some e } }

/-- The header of a profile takes effect at A: its calibration set without KEEP_SCALE, its polynomial set, and its programs where a slice runs another (R422). -/
def State.applyProfile (s : State) (b n : Nat) : State :=
  let bs := (s.prof n).bytes
  let cal := leAt bs 32 1
  let poly := leAt bs 33 1
  let s1 :=
    if cal ≤ 7 then
      ((List.range 64).foldl (fun s k => s.calLoadSet cal k (!s.calBank k)) s).applyCalSwap b (2 ^ 64 - 1) false
    else s
  let s2 := if poly ≤ 5 then (s1.polySet s1.polyStandby 0 (s1.polyStored poly)).applyPolySwap b else s1
  let s3 := (s2.profSwaps n).foldl (fun s q => s.applySwap b q.2 (2 ^ q.1)) s2
  { (s3.setF CP_SYS_STAT CP_SYS_STAT_PROFILE n).setF CP_SYS_STAT CP_SYS_STAT_PROF_VALID 1 with
    lc := { s3.lc with profMeas := (s.prof n).measurement } }

/-- An event is applied at its boundary. -/
def State.applyEvent (s : State) (e : Event) : State :=
  let c := e.cmd
  let ws := c.payload.drop 2
  match e.op with
  | 0x0302 => s.applySwap e.f (c.f 2 4 0) (c.q 3)
  | 0x0310 => s.applyDelaySet e.f c
  | 0x0312 => s.applyCalSwap e.f (c.q 2) (bit (c.w 4).toNat 0)
  | 0x0315 => s.applyTarget e.f (c.f 2 7 0)
  | 0x0401 => s.applySet e.f (Sys2Proof.Machine.setDesc ws)
  | 0x0403 => s.applyStop e.f
  | 0x0502 => s.applyPolySwap e.f
  | 0x0503 => s.applyBeams e.f (wdOf ws)
  | 0x0601 => s.applyTrig e.f c
  | 0x0703 => s.applyCt e.f c
  | 0x0806 => s.applyTaiMap c
  | 0x0808 => s.applyPtpStep c
  | 0x0A05 => if c.relayed then s.promote (some e.f) else s.fence false (some e.f)
  | 0x0C11 => s.applyHandoff e
  | 0x0D04 => s.applyProfile e.f (c.f 2 1 0)
  | _ => s

/-- A state that arose after the commit point leaves the event with no stated action; its status is then WRONG_STATE (R411). -/
def State.noAction (s : State) (e : Event) : Bool :=
  match e.op with
  | 0x0302 => s.drFailed && s.declaresRing (e.cmd.f 2 4 0)
  | 0x0D04 => s.drFailed && (s.profSwaps (e.cmd.f 2 1 0)).any fun q => s.declaresRing q.2
  | 0x0604 => s.drFailed
  | 0x0403 => !s.integrating && s.rf IX_STAT IX_STAT_STATE == 0
  | 0x0808 => !s.flag TM_PTP_STAT TM_PTP_STAT_SET
  | 0x0A05 => !s.handoverOk e.cmd
  | _ => false

/-- Words that the OK notice of an event carries after its handle and F: those that its command's reply names (R205, R234, R412). -/
def State.noticeWords (s : State) (e : Event) : List Word :=
  match e.op with
  | 0x0401 => s.setReply (Sys2Proof.Machine.setDesc (e.cmd.payload.drop 2))
  | 0x0503 => [s.reg WD_UTIL]
  | _ => []

/-- A completion notice, or one that waits for the hand-off to end (R412, R498). -/
def State.notify (s : State) (e : Event) (status : Nat) (words : List Word) : State :=
  if s.lc.handoff.isSome then { s with lc := { s.lc with handNotes := s.lc.handNotes ++ [(e, status, words)] } }
  else s.notice e status words

/-- An event fires: it leaves the queue and is applied, counted and reported; an event without a stated action is not applied (R411, R412). The notice of an activation whose script was refused carries the refusal; its header takes effect all the same (R420, R422). -/
def State.fireEvent (s : State) (e : Event) : State :=
  let s1 := s.dropEvent e.handle
  if s.noAction e then ((s1.logDiscard e stWrongState).bump SC_FAILED).notify e stWrongState (w32 e.handle :: hiLo e.f)
  else
    let s2 := ((s1.applyEvent e).bump SC_FIRED).schedSync.deltaSend
    match s.cp.scriptFails.find? fun x => x.1 == e.handle with
    | some x => { s2 with cp := { s2.cp with scriptFails := s2.cp.scriptFails.filter fun y => y.1 != e.handle } }.notify e x.2.2 [w32 x.2.1]
    | none => if e.op = 0x0C11 then s2 else s2.notify e stOk (w32 e.handle :: hiLo e.f ++ s2.noticeWords e)

/-- The event that fires next: the first in firing order of those that nothing holds (R58). -/
def State.nextFire (s : State) : Option Event :=
  (firingOrder (s.events.filter fun e => s.ownsEvent e && !s.holdsEvent e)).head?

/-- EVENT_FIRE: array time has reached the boundary of the next event, which is committed (R57, R58). -/
def execEventFire (s : State) : Host.Outcome State Fault Refusal :=
  whenOn s fun s =>
    match s.nextFire with
    | some e => if s.running && e.committed && decide (e.f ≤ s.now) && !(s.cp.scriptRun && e.op == 0x0D04) then s.fireEvent e else s
    | none => s

/-- An event fails its commit point: it is discarded, logged, counted, signalled and reported (R411, R552). -/
def State.discardEvent (s : State) (e : Event) (status : Nat) : State :=
  ((((s.dropEvent e.handle).logDiscard e status).bump SC_FAILED).raise evScheduler).notify e status (w32 e.handle :: hiLo e.f)

/-- Checks 9 to 11 again at the commit point (R411); the image of a firmware activation is verified again too (R498). -/
def State.commitRefusal (s : State) (e : Event) : Option Bad :=
  let p := s.projectedFor e
  let es := s.events.filter fun x => x.handle != e.handle
  (p.schedParams e.op e.cmd).or ((s.schedRefusal p es e.op e.f e.cmd).or
    (if e.op = 0x0C11 && (s.slotFailing (1 - s.rf CP_FW_STAT CP_FW_STAT_ACTIVE_SLOT)).isSome then some ⟨stWrongState, 0, []⟩ else none))

/-- The event is committed (R411). -/
def State.markCommitted (s : State) (h : Nat) : State :=
  { s with events := s.events.map fun (e : Event) => if e.handle = h then { e with committed := true } else e }

end Sys2Proof.Machine
end

