-- ==== Sys2Proof/Machine/Resets.lean ====
section
/-! DEFINITION. Power-on, cold reset, secure boot, warm reset, compute restart, and the stores of profiles and firmware (R415, R417, R423 to R426 steps 1 and 2, R460, R486, R492, R495 to R497, R500, R507, R541, R542). -/

namespace Sys2Proof.Machine

/-! ### Steps 1 and 2 of start-up (R426) -/

/-- Causes of CP_SYS_STAT.CAUSE. -/
def causePowerOn : Nat := 0
def causeCold : Nat := 1
def causeWarm : Nat := 2

/-- CP_SYS_STAT.PHASE. -/
def State.phase (s : State) : Nat := s.rf CP_SYS_STAT CP_SYS_STAT_PHASE
def State.setPhase (s : State) (p : Nat) : State := s.setF CP_SYS_STAT CP_SYS_STAT_PHASE p

/-- Rails that step 1 brings up: VHK to VSER_H, and V3P3_AUX (R463). -/
def railsUp : Nat := 0x13F

/-- A firmware slot's image is marked invalid (R495). -/
def State.markInvalid (s : State) (n : Nat) : State := s.setFwSlot n { s.fwSlot n with valid := false }

/-- Nieth boots from a slot (R495). -/
def State.bootFrom (s : State) (n : Nat) : State :=
  let s1 := { s with
    lc := { s.lc with committed := n, bootMeas := (s.fwSlot n).meas, boots := (s.lc.boots + 1) % 2 ^ 32 }
    cp := { s.cp with serving := true } }
  (s1.setF CP_FW_STAT CP_FW_STAT_ACTIVE_SLOT n).lcSync

/-- Secure boot: the committed slot, else the other, else recovery (R495, R496). -/
def State.secureBoot (s : State) : State :=
  let n := s.lc.committed
  match s.slotFailing n with
  | none => s.bootFrom n
  | some f =>
    if (s.slotFailing (1 - n)).isNone then
      (((s.markInvalid n).bootFrom (1 - n)).seen CP_FW_STAT CP_FW_STAT_BOOT_FALLBACK evSecurity).logEvent 0x0C02 2 [w32 n, w32 f]
    else { s with cp := { s.cp with recovery := true } }.lcSync

/-- A trial that a cold reset or a loss of power ended (R500). -/
def State.trialLost (s : State) : State :=
  if s.lc.trial then { s with lc := { s.lc with trial := false } }.seen CP_FW_STAT CP_FW_STAT_ROLLBACK_SEEN evSecurity else s

/-- MD_STORE_STAT follows the program store in the flash die (R144). -/
def State.storeSync (s : State) : State := (List.range 16).foldl (fun s n => s.setFB MD_STORE_STAT MD_STORE_STAT_VALID n (s.prog n).valid) s

/-- The last power period left no closing entry (R461). -/
def State.unlogged (s : State) : State :=
  if s.pw.warned then s
  else (s.logEvent 0x0B02 2 [s.reg PW_LOG_SEQ - 1]).seen PW_STAT PW_STAT_UNLOGGED_LOSS evPower

/-- Steps 1 and 2 of R426: the dies are powered, Nieth boots and PROF[1:0] is sampled; `pins` is none while the pins are not stable (R542). In recovery the sequence goes no further. -/
def State.startUp (s : State) (cause : Nat) (pins : Option Nat) : State :=
  let s0 := s.nonvolatile .on
  let s1 := (((s0.setPhase 2).setF CP_SYS_STAT CP_SYS_STAT_CAUSE cause).setF PW_RAIL PW_RAIL_GOOD railsUp).setReg TM_HO_ERR 0xFFFFFFFF
  let s2 := (s1.setF PW_CTL PW_CTL_AUTO_RESTART (b2n s1.pw.hkAuto)).storeSync
  let s3 := ((if cause = causePowerOn then s2.unlogged else s2).secureBoot).trialLost
  let s4 := { s3 with pw := { s3.pw with warned := false } }
  match pins with
  | none => s4
  | some p =>
    let s5 := { s4 with cp := { s4.cp with pins := some (p % 4) } }.setF CP_SYS_STAT CP_SYS_STAT_PINS p
    if s5.cp.recovery then s5 else s5.setPhase 3

/-- HOUSEKEEPING_POWER_ON: VIN exceeds 6.0 V; a device whose rails are off begins a new VIN cycle (R460, R486). -/
def execHousekeepingPowerOn (s : State) : Host.Outcome State Fault Refusal :=
  .next
    (match s.pw.power with
     | .on | .heldReset => s
     | _ => { s.nonvolatile .housekeeping with pw := { (s.nonvolatile .housekeeping).pw with restarts := [], hkAuto := false, hkCycles := 0 } })

/-- VIN_VALID: power-on, also the return from a lockout (R423, R460). -/
def execVinValid (pins : Option Nat) (s : State) : Host.Outcome State Fault Refusal :=
  .next
    (match s.pw.power with
     | .off | .housekeeping | .lockout => s.startUp causePowerOn pins
     | _ => s)

/-- COLD_RESET_ASSERT: the I/O-and-control die and all else is powered down until release (R463, R486, R541). -/
def execColdResetAssert (s : State) : Host.Outcome State Fault Refusal :=
  .next
    (match s.pw.power with
     | .on | .critical => s.nonvolatile .heldReset
     | _ => s)

/-- COLD_RESET_RELEASE (R426, R541). -/
def execColdResetRelease (pins : Option Nat) (s : State) : Host.Outcome State Fault Refusal :=
  .next (match s.pw.power with | .heldReset => s.startUp causeCold pins | _ => s)

/-- CRITICAL_RESTART: housekeeping restarts the device as a power-on, with the diode's reading (R486). -/
def execCriticalRestart (diode : Int) (pins : Option Nat) (s : State) : Host.Outcome State Fault Refusal :=
  .next
    (match s.pw.power with
     | .critical =>
       if s.pw.hkAuto && s.restartBudget && decide (diode < deg 95) then
         (((s.spendRestart).startUp causePowerOn pins).readDiode diode).logEvent 0x0B06 0 [w32 (temp16 diode), 2]
       else s
     | _ => s)

/-- TRANSITION_RESET: step 5 of R507. -/
def execTransitionReset (pins : Option Nat) (s : State) : Host.Outcome State Fault Refusal :=
  whenOn s fun s => if s.lc.transReset then s.startUp causeCold pins else s

/-- PROFILE_PINS_UNSTABLE: PINS stays 0 and no profile runs; `samples` are the last four of PROF[1:0] (R542). A pin value of 4 stands for pins that never settled. -/
def execProfilePinsUnstable (samples : Nat) (s : State) : Host.Outcome State Fault Refusal :=
  whenOn s fun s =>
    if s.phase == 2 && s.cp.pins.isNone then
      let s1 := { s with cp := { s.cp with pins := some 4 } }.logEvent 0x0B09 1 [w32 (samples % 256)]
      if s1.cp.recovery then s1 else s1.setPhase 3
    else s

/-! ### Warm reset (R424, R500) -/

/-- The state that a meaning's next state gives; a meaning of this device always has one. -/
def nextOf (s : State) : Host.Outcome State Fault Refusal → State
  | .next t => t
  | _ => s

/-- A command that a warm reset drops is given the cached reply INTERNAL_FAULT (R424). -/
def State.abandon (s : State) (kind : Nat) (q : QEntry) : State :=
  let r := replyTo q.op q.cmd stInternal kind 0 []
  let s1 := if isQuery q.op q.cmd then s else s.cacheReply r (q.cmd.transport == .script)
  if q.cmd.transport == .script then { s1 with cp := { s1.cp with scriptReply := some r } } else s1

/-- Flash writes in progress complete before the restart: calibration, polynomial and delay-table stores (R424). -/
def State.flashDone (s : State) : State :=
  let s1 := nextOf s (execChCalStoreDone s)
  let s2 := nextOf s1 (execWdPolyStoreDone s1)
  nextOf s2 (execDrTableStoreDone s2)

/-- The control messages of abandoned ADC_ACCESS commands are dropped; the octet's next message is sent (R101, R424). -/
def State.accessDrop (s : State) : State :=
  let keep := fun (m : CtlMsg) => match m.why with | .access _ => false | _ => true
  (s.sl.octs.map (·.1)).foldl (fun s o =>
    if (s.oct o).accesses.isEmpty then s
    else (s.setOct o { s.oct o with x := (s.oct o).x.filter keep, todo := (s.oct o).todo.filter keep }).ctlNext o) s

/-- What abandoned operations had under way. -/
def State.opsStop (s : State) : State :=
  ((({ s.accessDrop with
      ch := { s.ch with fetch := [], store := none }
      wd := { s.wd with load := none, fetch := none, store := none }
      dr := { s.dr with sweep := none, storing := false }
      dm := { s.dm with aborts := [] }
      ml := { s.ml with warming := none }
      lc := { s.lc with trans := none, handoff := none, handNotes := [] } }.setF WD_TABLE WD_TABLE_LOADING 0).setF DR_STAT DR_STAT_SWEEP_RUN 0).setF
    (DM_CH_STAT 31) DM_CH_STAT_FW_OWNED 0)

/-- Counters and W1C bits of the CP and SC blocks return to their reset values (R424). -/
def State.cpClear (s : State) : State :=
  let s1 := s.clearRegs [CP_CMDS, CP_BUSY, CP_DUPS, CP_BADCRC, CP_DISCARDS, CP_EVICT, CP_SEC_FAILS, SC_FIRED, SC_LATE, SC_FULL, SC_CANCELLED, SC_FAILED]
  ((s1.setF CP_MB_STAT CP_MB_STAT_REPLY 0).setF CP_FW_STAT CP_FW_STAT_ROLLBACK_SEEN 0).setF CP_FW_STAT CP_FW_STAT_BOOT_FALLBACK 0

/-- Mailboxes and notice rings are emptied (R423). -/
def State.boxesEmpty (s : State) : State :=
  let s1 := (List.range 5).foldl State.freeSlot { s with cp := { s.cp with heldH := [], heldM := [] } }
  ((s1.setF CP_NT_H_RD CP_NT_H_RD_RD (s1.rf CP_NT_WR CP_NT_WR_H_WR)).setF CP_NT_M_RD CP_NT_M_RD_RD (s1.rf CP_NT_WR CP_NT_WR_M_WR)).setF
    CP_MB_STAT CP_MB_STAT_NOTE_HELD 0

/-- Nieth restarts: what was queued or running is dropped, shadow copies and staged halves are discarded, the nonce ends, and nothing is served until Nieth runs again (R20, R423, R424, R505). -/
def State.warmReset (s : State) : State :=
  let s1 := s.flashDone
  let s2 := (s1.cp.queue ++ s1.accesses ++ s1.dm.aborts.map (·.2)).foldl (State.abandon · 0) s1
  let s3 := s1.cp.running.foldl (State.abandon · 1) s2
  let s4 := { s3.opsStop with
    shadow := [], staged := []
    cp := { s3.cp with queue := [], running := [], serving := false, resetAt := s3.time.cycles } }
  ((((s4.cpClear).boxesEmpty).endNonce).queueSync.setF CP_SYS_STAT CP_SYS_STAT_CAUSE causeWarm).bumpBy GLB_RST_STAT GLB_RST_STAT_WARM 1

/-- The commit point of the event that is next to commit, if it falls within 500 ms (R424). -/
def State.commitSoon (s : State) : Option Nat :=
  let at' := fun (e : Event) => e.f - s.lead e.op
  if s.running then
    (((s.events.filter fun e => !e.committed && decide (at' e ≤ s.now + s.periods 5000000)).map at').foldl
      (fun (m : Option Nat) x => some (match m with | some y => min x y | none => x)) none)
  else none

/-- SYS_RESET's length and type: `k` is the type that the row names (R415). -/
def resetParams (c : Cmd) : Option Bad := (needLen 1 c).or (badIf (c.f 0 1 0 != 1 && c.f 0 1 0 != 2) 0)

/-- What SYS_RESET of a type would answer. -/
def State.resetCheck (s : State) (c : Cmd) : CmdRes :=
  if c.f 0 1 0 = 1 then
    match s.commitSoon with
    | some t => bad stWrongState (hiLo t)
    | none => if s.cp.scriptRun then bad stWrongState [] else .ok [] s
  else if !s.pw.compOn || s.thermal then bad stWrongState []
  else .ok [] s

/-- A compute restart: the compute dies go down, and their restart is under way (R423, R425). -/
def State.computeRestart (s : State) : State := (s.computeLost 0).compDown.startCompute

/-- SYS_RESET: the reply is OK, then the reset of its type is made (R415). -/
def State.sysReset (s : State) (c : Cmd) : State :=
  let t := s.command 0x0102 c (fun _ => resetParams c) fun s => s.resetCheck c
  if s.takes 0x0102 c then
    match (s.dequeue 0x0102 c).judge 0x0102 c (fun _ => resetParams c) fun s => s.resetCheck c with
    | .ok _ _ => if c.f 0 1 0 = 1 then t.warmReset else t.computeRestart
    | _ => t
  else t

/-- SYS_RESET_WARM. -/
def execSysResetWarm (c : Cmd) (s : State) : Host.Outcome State Fault Refusal := .next (s.sysReset c)

/-- SYS_RESET_COMPUTE: the same opcode. -/
def execSysResetCompute (c : Cmd) (s : State) : Host.Outcome State Fault Refusal := .next (s.sysReset c)

/-- A fault of Nieth is a warm reset; in a trial the committed slot takes over again (R500, R557). -/
def State.niethFault (s : State) (cause : Nat) : State :=
  if s.inTrial then
    let n := s.rf CP_FW_STAT CP_FW_STAT_ACTIVE_SLOT
    let m := s.lc.committed
    let s1 := { s.warmReset with lc := { s.warmReset.lc with trial := false, bootMeas := (s.fwSlot m).meas } }
    let s2 := (((s1.setF CP_FW_STAT CP_FW_STAT_ACTIVE_SLOT m).setF CP_FW_STAT CP_FW_STAT_TRIAL 0).setF CP_FW_STAT CP_FW_STAT_AUTO_COMMIT 0).lcSync
    (s2.seen CP_FW_STAT CP_FW_STAT_ROLLBACK_SEEN evSecurity).logEvent 0x0C03 2 [w32 n, w32 cause]
  else s.warmReset

/-- WATCHDOG_FAULT. -/
def execWatchdogFault (s : State) : Host.Outcome State Fault Refusal := whenOn s fun s => if s.cp.recovery then s else s.niethFault 0

/-- LOCKSTEP_FAULT. -/
def execLockstepFault (s : State) : Host.Outcome State Fault Refusal := whenOn s fun s => if s.cp.recovery then s else s.niethFault 1

/-- A held packet is taken: a datagram leaves its receive partition (R424). -/
def State.takeHeld (s : State) (h : HeldPacket) : State :=
  match h.transport with
  | .udp n _ _ _ =>
    (match (s.port n).rx.find? isPelusk with
     | some f => s.rxTake n f
     | none => s).arrive h.transport h.bytes
  | _ => s.arrive h.transport h.bytes

/-- NIETH_SERVING: after a warm reset the held packets are taken in order of arrival (R424). -/
def execNiethServing (s : State) : Host.Outcome State Fault Refusal :=
  whenOn s fun s =>
    if s.cp.serving || s.cp.recovery || s.lc.handoff.isSome then s
    else s.cp.held.foldl State.takeHeld { s with cp := { s.cp with serving := true, held := [] } }

/-! ### Profiles and firmware in flash (R415, R417, R497) -/

/-- Length and range of a chunk of an image: W1 its byte offset, at most 4,000 bytes from W2 on, within `size` bytes. -/
def chunkBad (size : Nat) (c : Cmd) : Option Bad :=
  (needLenIn 2 1002 c).or (badIf (decide (size < (c.w 1).toNat + 4 * (c.payload.length - 2))) 1)

/-- The bytes of a chunk. -/
def chunkBytes (c : Cmd) : List Byte := wordsBE (c.payload.drop 2)

/-- The profile image accumulated for a profile: it ends with the last chunk, less the bytes that fill its last word up where SIGLEN is no multiple of 4 (R415, R489). -/
def State.profImage (s : State) (n : Nat) (c : Cmd) : List Byte :=
  let bs := tblRun 0 s.cp.profAcc (n * 2 ^ 21) ((c.w 1).toNat + 4 * (c.payload.length - 2))
  let len := profBody bs + profSiglen bs
  if bs.length < len + 4 then bs.take len else bs

/-- A queued activation of profile `n` (R417). -/
def State.activating (s : State) (n : Nat) : Bool := s.events.any fun e => e.op == 0x0D04 && e.cmd.f 2 1 0 == n

/-- PROF_STORE. -/
def execProfStore (c : Cmd) (s : State) : Host.Outcome State Fault Refusal :=
  .next (s.command 0x0D03 c (fun _ => chunkBad (2 ^ 21) c) fun s =>
    let n := c.f 0 1 0
    if s.activating n then bad stResourceBusy []
    else
      let s1 := { s with cp := { s.cp with profAcc := tblSetRun 0 s.cp.profAcc (n * 2 ^ 21 + (c.w 1).toNat) (chunkBytes c) } }
      if c.f 0 31 31 = 0 then .ok [] s1
      else
        let img := s1.profImage n c
        match s1.profCheck n img with
        | some b => .refuse b
        | none =>
          .ok [] { s1 with cp := { s1.cp with
            profiles := tblSet profEmpty s1.cp.profiles n { valid := true, bytes := img, measurement := Config.shake256 (img.take (profBody img)) } } })

/-- What PROF_LIST replies of a profile. -/
def State.profWords (s : State) (n : Nat) : List Word :=
  let x := s.prof n
  if x.valid && (s.profCheck n x.bytes).isNone then
    1 :: bytesToWordsBE (Sys2Proof.Machine.slice x.bytes 128 32) 8 ++ [w32 (profScriptLen x.bytes)] ++ (List.range 16).map fun i => x.measurement.getD i 0
  else List.replicate 26 0

/-- PROF_LIST. -/
def execProfList (c : Cmd) (s : State) : Host.Outcome State Fault Refusal :=
  .next (s.command 0x0D05 c (fun _ => needLen 0 c) fun s => .ok ((List.range 4).flatMap s.profWords) s)

/-- The refusal of an image that fails R494: the header and the SVN are parameters, the key and the signature are not. -/
def fwRefusal : Nat → Bad
  | 1 => ⟨stBadParam, 0, []⟩
  | 4 => ⟨stBadParam, 0, []⟩
  | _ => ⟨stSignature, 0, []⟩

/-- The firmware image accumulated for a slot: as many bytes as its header gives (R493). -/
def State.fwImage (s : State) (n : Nat) : List Byte :=
  let h := tblRun 0 s.lc.fwAcc (n * 2 ^ 25) 64
  tblRun 0 s.lc.fwAcc (n * 2 ^ 25) (min (2 ^ 25) (fwLen h + fwSiglen h))

/-- FW_STORE's refusals (R497). In recovery no slot runs. -/
def State.fwStoreBad (s : State) (c : Cmd) : Option Bad :=
  if !s.cp.recovery && c.f 0 0 0 == s.rf CP_FW_STAT CP_FW_STAT_ACTIVE_SLOT then some ⟨stBadParam, 0, []⟩
  else if s.inTrial || s.events.any (fun e => e.op == 0x0C11) then some ⟨stResourceBusy, 0, []⟩
  else none

/-- FW_STORE's effect: the chunk is accumulated, and the last one checks and writes the slot. -/
def State.fwStore (s : State) (c : Cmd) : CmdRes :=
  let n := c.f 0 0 0
  match s.fwStoreBad c with
  | some b => .refuse b
  | none =>
    let s1 := { s with lc := { s.lc with fwAcc := tblSetRun 0 s.lc.fwAcc (n * 2 ^ 25 + (c.w 1).toNat) (chunkBytes c) } }
    if c.f 0 31 31 = 0 then .ok [] s1
    else
      match fwFailing s1.lc.svnMin (s1.fwImage n) with
      | some f => .refuse (fwRefusal f)
      | none => .ok [] (s1.setFwSlot n (fwSlotOf (s1.fwImage n))).lcSync

/-- FW_STORE: in recovery a valid image makes its slot committed, and the device restarts as a cold reset (R496, R497). -/
def execFwStore (c : Cmd) (s : State) : Host.Outcome State Fault Refusal :=
  let t := s.command 0x0C10 c (fun _ => chunkBad (2 ^ 25) c) fun s => s.fwStore c
  .next
    (if s.takes 0x0C10 c && s.cp.recovery && c.f 0 31 31 == 1 then
      match (s.dequeue 0x0C10 c).judge 0x0C10 c (fun _ => chunkBad (2 ^ 25) c) fun s => s.fwStore c with
      | .ok _ _ => { t with lc := { t.lc with committed := c.f 0 0 0 } }.startUp causeCold (t.cp.pins.filter fun p => decide (p < 4))
      | _ => t
     else t)

end Sys2Proof.Machine
end

