-- ==== Sys2Proof/Machine/Bus.lean ====
section
/-! DEFINITION. Register writes over BAR0, from the management port and by the control processor: which register each offset is, who may write it, and what the write does (R14 to R20, R397, R548, R550 to R556). -/

namespace Sys2Proof.Machine

/-! ### Offsets -/

/-- Nothing is decoded from here on (R547). -/
def busEnd : Nat := 0xF00000

/-- The request slot at an offset, and the offset within it (R394). -/
def slotAt (off : Nat) : Option (Nat × Nat) :=
  if 0xA10000 ≤ off ∧ off < 0xA1A000 then some ((off - 0xA10000) / 0x2000, (off - 0xA10000) % 0x2000) else none

/-- The reply slots and notice rings, which no requester writes (R394, R396). -/
def isReplySpace (off : Nat) : Bool := decide (0xA20000 ≤ off) && decide (off < 0xA60000)

/-- The word of the MSI-X table at an offset: its vector and its place in the entry. -/
def msixAt (off : Nat) : Option (Nat × Nat) := if 0x80000 ≤ off ∧ off < 0x80800 then some ((off - 0x80000) / 16, off % 16) else none

/-- The pending-bit array. -/
def isPba (off : Nat) : Bool := decide (0x81000 ≤ off) && decide (off < 0x81010)

/-- The DMA channel that an offset belongs to (R388). -/
def dmaAt (off : Nat) : Option Nat := if 0x901000 ≤ off ∧ off < 0x901800 then some ((off - 0x901000) / 0x40) else none

/-! ### Registers with effects of their own -/

/-- One bit of a counter-clear register written as 1. -/
def clearIf (v : Word) (f : Fld) (act : State → Host.Outcome State Fault Refusal) (s : State) : State := if fget v f = 1 then nextOf s (act s) else s

/-- A write to a counter-clear register. -/
def State.counterClear (s : State) (off : Nat) (v : Word) : Option State :=
  if off = GLB_CNT_CLR then some (clearIf v GLB_CNT_CLR_AV execGlbCntClrAv s)
  else if off = SL_CNT_CLR then
    some (clearIf v SL_CNT_CLR_GO (execSlCntClrOctet (fget v SL_CNT_CLR_OCT)) (clearIf v SL_CNT_CLR_ALL execSlCntClrAll s))
  else if off = MD_CNT_CLR then
    some (clearIf v MD_CNT_CLR_GO (execMdCntClrSlice (fget v MD_CNT_CLR_SLICE)) (clearIf v MD_CNT_CLR_ALL execMdCntClrAll s))
  else if off = IX_CNT_CLR then some (clearIf v IX_CNT_CLR_SAT execIxCntClrSat (clearIf v IX_CNT_CLR_ALL execIxCntClrAll s))
  else if off = WD_CNT_CLR then some (clearIf v WD_CNT_CLR_ALL execWdCntClrAll s)
  else if off = SF_CNT_CLR then some (clearIf v SF_CNT_CLR_ALL execSfCntClrAll s)
  else if off = ET_CNT_CLR then
    let s1 := clearIf v ET_CNT_CLR_CT execEtCntClrCt (clearIf v ET_CNT_CLR_ALL execEtCntClrAll s)
    some (nextOf s1 (execEtCntClrPorts (fget v ET_CNT_CLR_PORTS) s1))
  else if off = TM_CNT_CLR then some (clearIf v TM_CNT_CLR_ALL execTmCntClrAll s)
  else if off = DR_CNT_CLR then
    let s1 := clearIf v DR_CNT_CLR_ALL execDrCntClrAll s
    some (nextOf s1 (execDrCntClrCh (fget v DR_CNT_CLR_CH) s1))
  else if off = DM_CNT_CLR then some (nextOf s (execDmCntClrWrite v s))
  else if off = CP_CNT_CLR then some (clearIf v CP_CNT_CLR_ALL execCpCntClrAll s)
  else if off = ML_CNT_CLR then some (clearIf v ML_CNT_CLR_ALL execMlCntClrAll s)
  else if off = PW_CNT_CLR then some (clearIf v PW_CNT_CLR_ALL execPwCntClrAll s)
  else if off = SC_CNT_CLR then some (clearIf v SC_CNT_CLR_ALL execScCntClrAll s)
  else none

/-- A write to an interrupt register (R554, R555). -/
def State.interruptWrite (s : State) (off : Nat) (v : Word) : Option State :=
  if off = EV_INT_STAT then some (nextOf s (execEvIntStatClear v s))
  else if off = EV_INT_EN then some (nextOf s (execEvIntEnWrite v s))
  else if off = EV_MD_EXC0 then some (nextOf s (execEvMdExcClear 0 v s))
  else if off = EV_MD_EXC1 then some (nextOf s (execEvMdExcClear 1 v s))
  else if off = EV_MD_EVT0 then some (nextOf s (execEvMdEvtClear 0 v s))
  else if off = EV_MD_EVT1 then some (nextOf s (execEvMdEvtClear 1 v s))
  else if isPba off then some s
  else
    (msixAt off).map fun p =>
      if p.2 != 12 then s.setReg off v
      else if v.toNat % 2 = 0 then s.unmask p.1
      else s.setF (msixCtl p.1) msixMask 1

/-- A write to a mailbox register (R395, R396). -/
def State.mailboxWrite (s : State) (r : Requester) (off : Nat) (v : Word) : Option State :=
  if off = CP_MB_DB then some (s.ring r (v.toNat % 8))
  else if off = CP_MB_STAT then some (s.releaseSlots (fget v CP_MB_STAT_REPLY))
  else if off = CP_NT_H_RD then some (s.readAdvance false v)
  else if off = CP_NT_M_RD then some (s.readAdvance true v)
  else none

/-- A write to a register of a DMA channel (R361, R376, R388). -/
def State.dmaChannelWrite (s : State) (r : Requester) (n off : Nat) (v : Word) : State :=
  if off = DM_CH_CTL n then s.dmCtlWrite r n v
  else if off = DM_CH_DESC_LO n then nextOf s (execDmChDescWrite r n false v s)
  else if off = DM_CH_DESC_HI n then nextOf s (execDmChDescWrite r n true v s)
  else
    match regAt off with
    | some d => if s.flag (DM_CH_STAT n) DM_CH_STAT_FW_OWNED && r != .cp then s.violation (avSrc r) avHostWrite off v.toNat else s.plainWrite r off v d
    | none => s.violation (avSrc r) avUndecoded off v.toNat

/-- A write to a DMA register (R388, R554). -/
def State.dmaWrite (s : State) (r : Requester) (off : Nat) (v : Word) : Option State :=
  if off = DM_INT_STAT then some (nextOf s (execDmIntStatClear v s))
  else if off = DM_HALT_STAT then some (nextOf s (execDmHaltStatClear v s))
  else if off = DM_INT_EN then some (nextOf s (execDmIntEnWrite v s))
  else if off = DM_HALT_EN then some (nextOf s (execDmHaltEnWrite v s))
  else (dmaAt off).map fun n => s.dmaChannelWrite r n off v

/-- A write to an Umber pointer register (R260 to R263). -/
def State.umberWrite (s : State) (r : Requester) (off : Nat) (v : Word) : Option State :=
  if off = SF_UB_BASE_LO ∨ off = SF_UB_BASE_HI then some (s.stageHalf r off v)
  else if off = SF_UB_LEN then some (s.ubLenWrite r v)
  else if off = SF_UB_ARM then some (nextOf s (execSfUbArm v s))
  else none

/-! ### Pairs (R20) -/

/-- The low half of a pair is written: it is staged. -/
def State.pairLo (s : State) (r : Requester) (off : Nat) (v : Word) : State := s.stageHalf r off v

/-- The high half of a pair is written: both halves are committed in one step. -/
def State.pairHi (s : State) (r : Requester) (off : Nat) (v : Word) : State :=
  let lo := s.stagedLow r off
  let s1 := s.unstage r off
  match regAt (off - 4), regAt off with
  | some a, some b => (s1.plainWrite r (off - 4) lo a).plainWrite r off v b
  | _, _ => s1

/-- A control processor's write that arms an epoch load (R50). -/
def State.armWrite (s t : State) (off : Nat) : State :=
  if off = TM_ATC_CTL ∧ t.flag TM_ATC_CTL TM_ATC_CTL_ARM ∧ !s.flag TM_ATC_CTL TM_ATC_CTL_ARM then
    let u := { t with time := { t.time with armedAt := t.time.cycles } }
    if t.running then u else u.setF TM_ATC_STAT TM_ATC_STAT_STATE 1
  else t

/-! ### A write of one word -/

/-- A register without effects of its own: the control processor writes any under its access codes, another requester only what is host-writable (R14, R19). -/
def State.otherWrite (s : State) (r : Requester) (off : Nat) (v : Word) : State :=
  match regAt off with
  | none => s.violation (avSrc r) (if isReplySpace off then avHostWrite else avUndecoded) off v.toNat
  | some d =>
    if r != .cp && !d.host then s.violation (avSrc r) avHostWrite off v.toNat
    else if isPair off then s.pairLo r off v
    else if isPair (off - 4) && decide (4 ≤ off) then s.pairHi r off v
    else s.octetWrite (s.armWrite (s.plainWrite r off v d) off) off

/-- A whole word is written. -/
def State.wordWrite (s : State) (r : Requester) (off : Nat) (v : Word) : State :=
  ((s.counterClear off v).or ((s.interruptWrite off v).or ((s.mailboxWrite r off v).or ((s.dmaWrite r off v).or (s.umberWrite r off v))))).getD
    (s.otherWrite r off v)

/-- The runs of enabled bytes of a word: first byte and length. -/
def byteRuns (be : Nat) : List (Nat × Nat) :=
  match be % 16 with
  | 0 => []
  | 1 => [(0, 1)]
  | 2 => [(1, 1)]
  | 3 => [(0, 2)]
  | 4 => [(2, 1)]
  | 5 => [(0, 1), (2, 1)]
  | 6 => [(1, 2)]
  | 7 => [(0, 3)]
  | 8 => [(3, 1)]
  | 9 => [(0, 1), (3, 1)]
  | 10 => [(1, 1), (3, 1)]
  | 11 => [(0, 2), (3, 1)]
  | 12 => [(2, 2)]
  | 13 => [(0, 1), (2, 2)]
  | 14 => [(1, 3)]
  | _ => [(0, 4)]

/-- A write by a requester, with its byte enables (R548). -/
def State.busWrite (s : State) (r : Requester) (off be : Nat) (v : Word) : State :=
  let a := off / 4 * 4
  if be % 16 = 0 then s
  else if busEnd ≤ a then s.violation (avSrc r) avUndecoded a v.toNat
  else
    match slotAt a with
    | some p => (byteRuns be).foldl (fun s q => s.slotWrite r p.1 (p.2 + q.1) (Sys2Proof.Machine.slice (le 4 v.toNat) q.1 q.2)) s
    | none => if be % 16 ≠ 15 then s.violation (avSrc r) avPartial a v.toNat else s.wordWrite r a v

/-- REGISTER_WRITE (R19). -/
def execRegisterWrite (r : Requester) (off be : Nat) (v : Word) (s : State) : Host.Outcome State Fault Refusal :=
  whenOn s fun s => s.busWrite r off be v

/-- PAIR_LO_WRITE (R20). -/
def execPairLoWrite (r : Requester) (off : Nat) (v : Word) (s : State) : Host.Outcome State Fault Refusal :=
  whenOn s fun s => if isPair off then s.busWrite r off 15 v else s

/-- PAIR_HI_WRITE (R20). -/
def execPairHiWrite (r : Requester) (off : Nat) (v : Word) (s : State) : Host.Outcome State Fault Refusal :=
  whenOn s fun s => if isPair (off - 4) && decide (4 ≤ off) then s.busWrite r off 15 v else s

/-- MGMT_REGISTER_WRITE (R397). -/
def execMgmtRegisterWrite (off : Nat) (v : Word) (s : State) : Host.Outcome State Fault Refusal :=
  whenOn s fun s => s.busWrite .mgmt off 15 v

end Sys2Proof.Machine
end

