-- ==== Sys2Proof/Machine/Script.lean ====
section
/-! DEFINITION. Profile scripts: SYS_REG_WRITE, the commands that a script runs, and the run itself with what follows it at start-up (R415, R418 to R420, R422, R426 step 5). -/

namespace Sys2Proof.Machine

/-! ### SYS_REG_WRITE (R415, R418) -/

/-- One profile field takes its part of a value, unless the field does not define the encoding (R18). -/
def profField (old v : Word) (d : FieldDesc) : Nat × Bool :=
  let x := fget v d.fld
  if d.enc.isEmpty || d.enc.any (fun r => decide (r.1 ≤ x) && decide (x ≤ r.2)) then (x, false) else (fget old d.fld, true)

/-- The word after a write of a register's profile fields, and whether some encoding was undefined. -/
def profFields (old v : Word) : List FieldDesc → Word × Bool
  | [] => (old, false)
  | d :: ds =>
    let r := profFields old v ds
    let x := profField old v d
    (fput r.1 d.fld x.1, r.2 || x.2)

/-- The register at an offset has profile fields. -/
def profReg (off : Nat) : Option RegDesc := (regAt off).filter fun d => d.fields.any (·.profile)

/-- Put a value into the profile fields of the register at an offset; an undefined encoding is logged (R18, R415). -/
def State.profPut (s : State) (off : Nat) (v : Word) (d : RegDesc) : State :=
  let x := profFields (s.reg off) v (d.fields.filter (·.profile))
  let y := crossKeep d.base (s.reg off) x.1
  let s1 := s.setReg off y.1
  let s2 := if off = TM_ATC_CTL ∧ !s.running then { s1 with time := { s1.time with rateN := fget y.1 TM_ATC_CTL_RATE_N } } else s1
  if x.2 || y.2 then s2.violation 0 avEncoding off v.toNat else s2

/-- Write the register at an offset as SYS_REG_WRITE does, for the control processor: the low half of a pair is staged, and the write of its high half commits both (R20). -/
def State.profWrite (s : State) (off : Nat) (v : Word) (d : RegDesc) : State :=
  if isPair off then s.stageHalf .cp off v
  else if isPair (off - 4) && decide (4 ≤ off) then
    match profReg (off - 4) with
    | some a => ((s.unstage .cp off).profPut (off - 4) (s.stagedLow .cp off) a).profPut off v d
    | none => s.profPut off v d
  else s.profPut off v d

/-- Pair `i` of SYS_REG_WRITE: its offset and value. -/
def regPair (c : Cmd) (i : Nat) : Nat × Word := ((c.w (1 + 2 * i)).toNat, c.w (2 + 2 * i))

/-- The pairs of SYS_REG_WRITE. -/
def regPairs (c : Cmd) : List (Nat × Word) := (List.range (c.w 0).toNat).map (regPair c)

/-- The parameter rules of SYS_REG_WRITE. -/
def regBad (c : Cmd) : Option Bad :=
  let n := (c.w 0).toNat
  (needLenIn 1 1001 c).or ((badIf (n == 0 || decide (500 < n)) 0).or ((needLen (1 + 2 * n) c).or
    (((List.range n).find? fun i => (profReg (regPair c i).1).isNone).map fun i => ⟨stBadParam, 1 + 2 * i, []⟩)))

/-- Every pair is written, in order. -/
def State.regWriteAll (s : State) (c : Cmd) : State :=
  (regPairs c).foldl (fun s p => match profReg p.1 with | some d => s.profWrite p.1 p.2 d | none => s) s

/-- C1 bandwidth in B/s of the rings of the programs that the slices are assigned (R40, R134). -/
def State.ringAssigned (s : State) : Nat :=
  ((List.range 64).map fun k =>
    let h := s.hdrOf (s.rf (MD_SL_CTL k) MD_SL_CTL_SLOT)
    if s.flag (MD_SL_CTL k) MD_SL_CTL_RUN && h.ring then h.ringBw * 1000000 else 0).sum

/-- The words of BUDGET_EXCEEDED for the configuration that the registers then hold: a target rung, a program's cycles, DRAM, port egress and beams (R66, R140, R40, R33, R209). -/
def State.regOver (t : State) (c : Cmd) : Option (List Word) :=
  let touched := fun (o : Nat) => (regPairs c).any fun p => p.1 == o
  let rate := touched TM_ATC_CTL
  match (List.range 64).find? fun o => (rate || touched (SL_OCT_CTL o)) &&
      !carries (t.rf (SL_OCT_CTL o) SL_OCT_CTL_TARGET_RUNG) (t.flag (SL_OCT_CTL o) SL_OCT_CTL_FMT) t.time.rateN with
  | some o => some [0, w32 o]
  | none =>
    if (List.range 64).any fun k => (rate || touched (MD_SL_CTL k)) && t.flag (MD_SL_CTL k) MD_SL_CTL_RUN && !t.cpsOk (t.rf (MD_SL_CTL k) MD_SL_CTL_SLOT) then some []
    else if t.drReady && !t.drC1Within t.ringAssigned then some [0x21, 0]
    else
      match t.egressOver t.wdRegs with
      | some n => some [0x12, w32 n]
      | none => (t.wdBudget t.wdRegs).map fun q => [w32 q.1, w32 q.2]

/-- The first pair whose register brings a port into a form that R270 or R280 refuses. -/
def State.regWrong (s : State) (c : Cmd) : Option Bad :=
  let t := s.regWriteAll c
  ((List.range 4).find? fun n => t.portWrong n && !s.portWrong n).map fun n =>
    let mine := [ET_P_CTL n, ET_P_PRIO n, ET_DS_CTL, SF_CTL, ET_CT_CTL]
    ⟨stBadParam, 1 + 2 * (((regPairs c).findIdx? fun p => mine.contains p.1).getD 0), []⟩

/-- SYS_REG_WRITE is accepted only in the start-up script (R415, R422). -/
def State.regCommand (s : State) (c : Cmd) : State :=
  s.command 0x0104 c
    (fun s => if c.transport == .script && s.cp.scriptRun && s.cp.scriptOf.isNone then (regBad c).or (s.regWrong c) else some ⟨stNotPermitted, 0, []⟩)
    fun s =>
      match (s.regWriteAll c).regOver c with
      | some ws => bad stBudget ws
      | none => .ok [] (s.regWriteAll c)

/-- SYS_REG_WRITE. -/
def execSysRegWrite (c : Cmd) (s : State) : Host.Outcome State Fault Refusal := .next (s.regCommand c)

/-! ### The commands that a script runs (R414, R418) -/

/-- Commands of group 0x01. -/
def State.runSystem (s : State) (op : Nat) (c : Cmd) : State :=
  match op with
  | 0x0101 => nextOf s (execSysInfo c s)
  | 0x0102 => s.sysReset c
  | 0x0103 => nextOf s (execSysSession c s)
  | 0x0104 => s.regCommand c
  | 0x0105 => nextOf s (execSysAperture c s)
  | _ => s

/-- Commands of group 0x02. -/
def State.runLanes (s : State) (op : Nat) (c : Cmd) : State :=
  match op with
  | 0x0201 => nextOf s (execLaneLadder c s)
  | 0x0202 => nextOf s (execLaneSleep c s)
  | 0x0203 => nextOf s (execLanePrbs c s)
  | 0x0204 => nextOf s (execLaneStatus c s)
  | 0x0205 => nextOf s (execAdcAccess c s)
  | 0x0206 => nextOf s (execReleaseSet c s)
  | _ => s

/-- Commands of group 0x03. -/
def State.runMadder (s : State) (op : Nat) (c : Cmd) : State :=
  match op with
  | 0x0301 => nextOf s (execMdProgStore c s)
  | 0x0302 => nextOf s (execMdProgSwap c s)
  | 0x0303 => nextOf s (execMdSliceStatus c s)
  | 0x0304 => nextOf s (execMdSliceRestart c s)
  | 0x0305 => nextOf s (execMdProgList c s)
  | 0x0306 => nextOf s (execMdProgErase c s)
  | 0x0310 => nextOf s (execChDelaySet c s)
  | 0x0311 => nextOf s (execChCalLoad c s)
  | 0x0312 => nextOf s (execChCalSwap c s)
  | 0x0313 => nextOf s (execChCalFetch c s)
  | 0x0314 => nextOf s (execChCalStore c s)
  | 0x0315 => nextOf s (execChTargetSet c s)
  | 0x0316 => nextOf s (execChScaleRead c s)
  | _ => s

/-- Commands of group 0x04. -/
def State.runCorrelator (s : State) (op : Nat) (c : Cmd) : State :=
  match op with
  | 0x0401 => nextOf s (execIxProductSet c s)
  | 0x0402 => nextOf s (execIxBudgetCheck c s)
  | 0x0403 => nextOf s (execIxIntegStop c s)
  | 0x0404 => nextOf s (execIxStatus c s)
  | 0x0405 => nextOf s (execIxDumpRelease c s)
  | 0x0406 => nextOf s (execIxTileMap c s)
  | 0x0407 => nextOf s (execIxDumpRing c s)
  | _ => s

/-- Commands of group 0x05. -/
def State.runBeams (s : State) (op : Nat) (c : Cmd) : State :=
  match op with
  | 0x0501 => nextOf s (execWdPolyLoad c s)
  | 0x0502 => nextOf s (execWdPolySwap c s)
  | 0x0503 => nextOf s (execWdBeamConfig c s)
  | 0x0504 => nextOf s (execWdBudgetCheck c s)
  | 0x0505 => nextOf s (execWdStatus c s)
  | 0x0506 => nextOf s (execWdPolyFetch c s)
  | 0x0507 => nextOf s (execWdPolyStore c s)
  | _ => s

/-- Commands of group 0x06. -/
def State.runTrigger (s : State) (op : Nat) (c : Cmd) : State :=
  match op with
  | 0x0601 => nextOf s (execSfTrigConfig c s)
  | 0x0602 => nextOf s (execSfTbpLoad c s)
  | 0x0603 => nextOf s (execSfStatus c s)
  | 0x0604 => nextOf s (execSfUbConfig c s)
  | 0x0605 => nextOf s (execSfUbRearm c s)
  | 0x0606 => nextOf s (execSfUbStatus c s)
  | _ => s

/-- Commands of group 0x07. -/
def State.runNetwork (s : State) (op : Nat) (c : Cmd) : State :=
  match op with
  | 0x0701 => nextOf s (execEtPortConfig c s)
  | 0x0702 => nextOf s (execEtFilterSet c s)
  | 0x0703 => nextOf s (execEtCtConfig c s)
  | 0x0704 => nextOf s (execEtPortStatus c s)
  | 0x0705 => nextOf s (execEtCtStatus c s)
  | 0x0706 => nextOf s (execEtDsConfig c s)
  | 0x0707 => nextOf s (execEtDumpResend c s)
  | _ => s

/-- Commands of group 0x08. -/
def State.runTiming (s : State) (op : Nat) (c : Cmd) : State :=
  match op with
  | 0x0801 => nextOf s (execTmSrcConfig c s)
  | 0x0802 => nextOf s (execTmRefSelect c s)
  | 0x0803 => nextOf s (execTmHoConfig c s)
  | 0x0804 => nextOf s (execTmOutConfig c s)
  | 0x0805 => nextOf s (execTmEpochLoad c s)
  | 0x0806 => nextOf s (execTmTaiMap c s)
  | 0x0807 => nextOf s (execTmPtpConfig c s)
  | 0x0808 => nextOf s (execTmPtpStep c s)
  | 0x0809 => nextOf s (execTmStatus c s)
  | 0x080A => nextOf s (execTmPtpTsRead c s)
  | _ => s

/-- Commands of group 0x09. -/
def State.runMemory (s : State) (op : Nat) (c : Cmd) : State :=
  match op with
  | 0x0901 => nextOf s (execDrStatus c s)
  | 0x0902 => nextOf s (execDrBoardSet c s)
  | 0x0903 => nextOf s (execDrSweep c s)
  | 0x0904 => nextOf s (execDrTableStore c s)
  | 0x0905 => nextOf s (execDrSchedConfig c s)
  | 0x0910 => nextOf s (execDmStart c s)
  | 0x0911 => nextOf s (execDmKick c s)
  | 0x0912 => nextOf s (execDmAbort c s)
  | 0x0913 => nextOf s (execDmStatus c s)
  | _ => s

/-- Commands of group 0x0A. -/
def State.runPair (s : State) (op : Nat) (c : Cmd) : State :=
  match op with
  | 0x0A01 => nextOf s (execRoleStatus c s)
  | 0x0A02 => nextOf s (execRoleConfig c s)
  | 0x0A03 => nextOf s (execRoleLease c s)
  | 0x0A04 => nextOf s (execRoleWarm c s)
  | 0x0A05 => nextOf s (execRoleHandover c s)
  | 0x0A06 => nextOf s (execRoleFence c s)
  | 0x0A07 => nextOf s (execMlRelay c s)
  | 0x0A08 => nextOf s (execRoleHealth c s)
  | 0x0A09 => nextOf s (execMlLadder c s)
  | _ => s

/-- Commands of group 0x0B. -/
def State.runPower (s : State) (op : Nat) (c : Cmd) : State :=
  match op with
  | 0x0B01 => nextOf s (execPwStatus c s)
  | 0x0B02 => nextOf s (execPwTempRead c s)
  | 0x0B03 => nextOf s (execPwConfig c s)
  | 0x0B04 => nextOf s (execPwRestart c s)
  | 0x0B05 => nextOf s (execPwLogRead c s)
  | 0x0B06 => nextOf s (execPwDiodeRead c (sext 16 (s.rf PW_DIODE PW_DIODE_TEMP)) s)
  | _ => s

/-- Commands of group 0x0C. -/
def State.runSecurity (s : State) (op : Nat) (c : Cmd) : State :=
  match op with
  | 0x0C01 => nextOf s (execLcStatus c s)
  | 0x0C02 => nextOf s (execLcIdentity c s)
  | 0x0C03 => nextOf s (execLcNonce c s)
  | 0x0C04 => nextOf s (execLcProvision c s)
  | 0x0C05 => nextOf s (execLcTransition c s)
  | 0x0C06 => nextOf s (execLcOwnerRotate c s)
  | 0x0C07 => nextOf s (execLcAttest c s)
  | 0x0C10 => nextOf s (execFwStore c s)
  | 0x0C11 => nextOf s (execFwActivate c s)
  | 0x0C12 => nextOf s (execFwCommit c s)
  | 0x0C13 => nextOf s (execFwList c s)
  | _ => s

/-- Commands of group 0x0D. -/
def State.runScheduler (s : State) (op : Nat) (c : Cmd) : State :=
  match op with
  | 0x0D01 => nextOf s (execScList c s)
  | 0x0D02 => nextOf s (execScCancel c s)
  | 0x0D03 => nextOf s (execProfStore c s)
  | 0x0D04 => nextOf s (execProfActivate c s)
  | 0x0D05 => nextOf s (execProfList c s)
  | _ => s

/-- Run a command of R414; a diode reading that a command takes is the last one. -/
def State.runCommand (s : State) (op : Nat) (c : Cmd) : State :=
  match op / 256 with
  | 0x01 => s.runSystem op c
  | 0x02 => s.runLanes op c
  | 0x03 => s.runMadder op c
  | 0x04 => s.runCorrelator op c
  | 0x05 => s.runBeams op c
  | 0x06 => s.runTrigger op c
  | 0x07 => s.runNetwork op c
  | 0x08 => s.runTiming op c
  | 0x09 => s.runMemory op c
  | 0x0A => s.runPair op c
  | 0x0B => s.runPower op c
  | 0x0C => s.runSecurity op c
  | 0x0D => s.runScheduler op c
  | _ => s

/-! ### What follows the start-up script (R426 steps 5 to 7) -/

/-- An enabled source starts ABSENT (R306). -/
def State.sourcesStart (s : State) : State :=
  (List.range 6).foldl (fun s k =>
    if s.flag (TM_SRC_CTL k) TM_SRC_CTL_EN && s.qstate k == qOff then s.setF (TM_SRC_STAT k) TM_SRC_STAT_QSTATE qAbsent else s) s

/-- Bits that follow a configuration: no product set is active, Woad runs while a beam is enabled, the slab length of Umber's path list, and the automatic restart that housekeeping holds (R204, R233, R257, R486). -/
def State.runsFollow (s : State) : State :=
  let c := s.wdRegs
  let s1 := ((s.setF IX_CTL IX_CTL_RUN 0).setF WD_CTL WD_CTL_RUN (b2n (!c.beams.isEmpty))).setReg WD_UTIL (s.wdUtil c)
  let s2 := s1.setF SF_UB_SLAB SF_UB_SLAB_SLAB (slabBytes s1.ubPaths.length)
  { s2 with pw := { s2.pw with hkAuto := s2.flag PW_CTL PW_CTL_AUTO_RESTART } }

/-- A unit that its profile makes part of a pair starts as LAMPBLACK; one that ROLE_CONFIG paired waits as that command has it (R431, R459). -/
def State.pairStart (s : State) : State :=
  let s1 := s.setReg ML_EPOCH (w32 s.ml.loggedEpoch)
  if s1.paired && s1.role == roleUnpaired && !s1.ml.pairing then s1.toLampblack.linkStart else s1

/-- Step 6: the ladder of every octet (R89, R426). -/
def State.laddersStart (s : State) : State := (List.range 64).foldl (fun s o => s.setF (SL_OCT_CTL o) SL_OCT_CTL_RELADDER 1) s

/-- The end of step 5: the configuration is in force, and steps 6 and 7 run. -/
def State.afterScript (s : State) : State :=
  ((((s.sourcesStart).runsFollow.outputsFollow fun _ => 0).pairStart).laddersStart).setPhase 6

/-! ### The run (R418, R420) -/

/-- The packets of the script that runs. -/
def State.scriptList (s : State) : List (List Byte) := profScript (s.prof s.cp.scriptProf).bytes

/-- The run ends: source 0 holds nothing any more, and at start-up the sequence goes on. -/
def State.scriptEnd (s : State) : State :=
  let s1 := { s with cp := { s.cp with scriptRun := false, script := none, scriptReply := none, scriptAt := none, scriptOf := none } }
  if s.cp.scriptOf.isNone then s1.afterScript else s1

/-- A refused command stops the script; at runtime the activation's notice will say so (R420, R558). -/
def State.scriptFail (s : State) (i op status : Nat) : State :=
  let s1 := ((s.setF CP_SYS_STAT CP_SYS_STAT_PROF_FAULT 1).setF CP_SYS_STAT CP_SYS_STAT_FAIL_INDEX i).logEvent 0x0D03 2
    [w32 s.cp.scriptProf, w32 i, w32 op, w32 status]
  match s.cp.scriptOf with
  | some h => { s1 with cp := { s1.cp with scriptFails := s1.cp.scriptFails ++ [(h, i, status)] } }.scriptEnd
  | none => s1.scriptEnd

/-- Packet `i` of a script is taken: its sequence is checked against the run's own state, and the command is run (R401, R404, R418). -/
def State.scriptPacket (s : State) (bs : List Byte) : State :=
  let op := beAt bs 4 2
  let c := cmdOf .script bs (beAt bs 6 2)
  let s0 := { s with cp := { s.cp with scriptReply := none, scriptPos := s.cp.scriptPos + 1 } }
  if isQuery op c then (s0.bump CP_CMDS).runCommand op c
  else
    match seqVerdict s0.cp.script false c.seq c.crc with
    | .fresh => ({ s0 with cp := { s0.cp with script := some (acceptSeq s0.cp.script c.source c.seq c.crc) } }.bump CP_CMDS).runCommand op c
    | .cached r => { s0 with cp := { s0.cp with scriptReply := some r } }
    | _ => { s0.bump CP_DUPS with cp := { (s0.bump CP_DUPS).cp with scriptReply := some (replyTo op c stDuplicate 0 0 []) } }

/-- An immediate reply that stops the script. -/
def Reply.refuses (r : Reply) : Bool := !(r.status == stOk || r.status == stScheduled || r.status == stInProgress)

/-- Take the script's packets until one is refused, none is left, or one's reply is still to come; `fuel` bounds their number. -/
def State.scriptGo : Nat → State → State
  | 0, s => s
  | k + 1, s =>
    match s.scriptList[s.cp.scriptPos]? with
    | none => s.scriptEnd
    | some p =>
      let t := s.scriptPacket p
      match t.cp.scriptReply with
      | none => t
      | some r => if r.refuses then t.scriptFail s.cp.scriptPos r.op r.status else State.scriptGo k t

/-- Start the script of profile `n`: for the activation `of` at boundary `at'`, or at start-up (R418, R422). -/
def State.scriptStart (s : State) (n : Nat) (of at' : Option Nat) : State :=
  let s1 := { s with cp := { s.cp with
    scriptRun := true, scriptOf := of, scriptProf := n, scriptPos := 0, scriptAt := at', scriptReply := none, script := none } }
  s1.scriptGo (s1.scriptList.length + 1)

/-- A script that waited for a reply goes on once it has come. -/
def State.scriptResume (s : State) : State :=
  if !s.cp.scriptRun then s
  else
    match s.cp.scriptReply with
    | none => s
    | some r => if r.refuses then s.scriptFail (s.cp.scriptPos - 1) r.op r.status else s.scriptGo (s.scriptList.length + 1)

end Sys2Proof.Machine
end

