-- ==== Sys2Proof/Machine/Startup.lean ====
section
/-! DEFINITION. Steps 3 to 8 of start-up, and the commit point of scheduled events (R331, R332, R411, R419, R421, R422, R426 to R428, R510 to R512). -/

namespace Sys2Proof.Machine

/-! ### The commit point (R411) -/

/-- The commit point of an event has come: array time lies within the lead of its boundary, and Nieth serves, or hands over without a profile to activate. -/
def State.commitDue (s : State) (e : Event) : Bool :=
  s.running && !e.committed && s.ownsEvent e && decide (e.f ≤ s.now + s.lead e.op) &&
    (s.cp.serving || (s.lc.handoff.isSome && e.op != 0x0D04)) && !(e.op == 0x0D04 && s.cp.scriptRun)

/-- What a commit starts at once: the staged Umber change, and the script of a profile (R261, R422). -/
def State.commitEffect (s : State) (e : Event) : State :=
  match e.op with
  | 0x0604 => s.ubCommit e.f e.handle (ubChangeOf e.cmd)
  | 0x0D04 => s.scriptStart (e.cmd.f 2 1 0) (some e.handle) (some e.f)
  | _ => s

/-- EVENT_COMMIT: the event with handle `h` is committed, or discarded (R411). -/
def execEventCommit (h : Nat) (s : State) : Host.Outcome State Fault Refusal :=
  whenOn s fun s =>
    match s.event h with
    | some e =>
      if s.commitDue e then
        match s.commitRefusal e with
        | some b => s.discardEvent e b.status
        | none => (s.markCommitted h).commitEffect e
      else s
    | none => s

/-! ### Step 4: DRAM bring-up (R329 to R332, R357 to R360, R512) -/

/-- The default delay set of R332. -/
def defaultDly : Word := fput (fput (fput (fput 0 DR_DLY_VREF 64) DR_DLY_SLEW 1) DR_DLY_WR 32) DR_DLY_RD 32

/-- The board record gives the DRAM configuration (R329). -/
def State.boardConfig (s : State) (ws : List Word) : State :=
  s.configAll ((DR_CFG, ws.getD 0 0) :: (DR_TIM, ws.getD 1 0) :: (DR_MAINT, ws.getD 2 0) ::
    (List.range 16).map fun n => (DR_CH_CFG n, ws.getD (3 + n) 0))

/-- DR_SCHED at its defaults, which no record gives (R329, R365). -/
def State.schedDefault (s : State) : State :=
  ((s.setF DR_SCHED DR_SCHED_AGE_C1 50).setF DR_SCHED DR_SCHED_AGE_C2 40).setF DR_SCHED DR_SCHED_AGE_C3 20

/-- The stored delay table, if it was swept at the record's data rate, else the default set in every band (R332, R364). -/
def State.dlyLoad (s : State) : State :=
  match s.table.filter fun t => t.rate == s.rf DR_CFG DR_CFG_RATE with
  | some t =>
    let s1 := (List.range 256).foldl (fun s i => s.setReg (DR_DLY (i / 16) (i % 16)) (t.regs.getD i 0)) s
    { s1 with dr := { s1.dr with temps := tblSetRun 0 s1.dr.temps 0 t.temps } }
  | none => ((List.range 256).foldl (fun s i => s.setReg (DR_DLY (i / 16) (i % 16)) defaultDly) s).setF DR_STAT DR_STAT_NO_TABLE 1

/-- The first band of a channel, by the rising thresholds alone; band 3 without a reading of its sensor (R357, R358). -/
def State.firstBand (s : State) (n : Nat) : State :=
  if s.sensOk (40 + n) then
    let x := s.sensor (40 + n)
    (s.setF (DR_CH_STAT n) DR_CH_STAT_TEMP (clampBits 8 (x.temp / 16 + s.tofs n))).enterBand n (bandRise fun t => x.atLeast (deg (t - s.tofs n)))
  else (s.setF (DR_CH_STAT n) DR_CH_STAT_TSENS_F 1).enterBand n 3

/-- Memory comes up to the wipe; without a valid board record it fails, and in DECOMMISSIONED it stays off (R331, R332, R512). -/
def State.dramUp (s : State) : State :=
  if s.lc.state = lcDecommissioned then s
  else
    match s.board with
    | none => (s.setF DR_STAT DR_STAT_STATE drFail).setF DR_MAINT DR_MAINT_SCRUB_H 24
    | some ws =>
      let s1 := memRails.foldl (fun s i => s.setFB PW_RAIL PW_RAIL_GOOD i true) ((s.boardConfig ws).setF DR_STAT DR_STAT_STATE drInit)
      ((List.range (2 ^ s1.drM)).foldl State.firstBand s1.dlyLoad).phySwitch

/-- STARTUP_DIODE_OK: step 3 of R426 ends at a reading below 95 °C; the compute dies are powered and memory comes up. -/
def execStartupDiodeOk (t : Int) (s : State) : Host.Outcome State Fault Refusal :=
  whenOn s fun s => if s.phase == 3 && decide (t < deg 95) then ((((s.readDiode t).setPhase 4).compUp).schedDefault).dramUp else s

/-! ### Step 4 ends: the wipe (R510 to R512) -/

/-- What the wipe leaves of the memories of R510: zeros. -/
def State.wiped (s : State) : State :=
  { s with
    mem := []
    md := { s.md with sl := [], store := [], acc := [] }
    wd := { s.wd with tab := [] }
    cp := { s.cp with profAcc := [] }
    lc := { s.lc with fwAcc := [] }
    dr := { s.dr with poison := [] } }

/-- Items of R510 that failed: those reported, and DRAM where step 5 of R331 has not passed. -/
def State.wipeItems (s : State) (fails chans : Nat) : Nat :=
  if (chans ≠ 0 ∧ s.lc.state ≠ lcDecommissioned) ∨ s.drFailed then setBit (fails % 64) 5 else fails % 64

/-- The state of memory after the start-up check (R331, R332). -/
def State.dramChecked (s : State) (chans : Nat) : State :=
  if s.lc.state = lcDecommissioned ∨ s.drFailed then s
  else if chans = 0 then (s.setF DR_STAT DR_STAT_STATE Sys2Proof.Machine.drReady).setF GLB_CAP GLB_CAP_NCH (2 ^ s.drM)
  else (s.setF DR_STAT DR_STAT_STATE drFail).setF DR_STAT DR_STAT_FAIL_CH chans

/-- CP_WIPE_STAT, the wipe count and the log (R511). -/
def State.wipeEnd (s : State) (items ms : Nat) : State :=
  let s1 := s.setF CP_WIPE_STAT CP_WIPE_STAT_DURATION (min 0xFFFF ms)
  if items = 0 then { s1 with lc := { s1.lc with wipes := (s1.lc.wipes + 1) % 2 ^ 32 } }.setF CP_WIPE_STAT CP_WIPE_STAT_DONE 1
  else ((s1.setF CP_WIPE_STAT CP_WIPE_STAT_FAIL 1).setF CP_WIPE_STAT CP_WIPE_STAT_ITEMS items).logEvent 0x0C04 2 [w32 items]

/-! ### Step 5: silent values and the profile (R157, R416 to R422) -/

/-- Every profile field takes 0, a register at a time (R419). -/
def State.fwZero (s : State) : State :=
  s.regs.foldl (fun s p =>
    match profReg p.1 with
    | some d => s.setReg p.1 ((d.fields.filter (·.profile)).foldl (fun w f => fput w f.fld 0) p.2)
    | none => s) s

/-- The silent MAC address of port `n` (R419). -/
def silentMac (uid n : Nat) : Nat := 0x02 * 2 ^ 40 + uid % 2 ^ 32 * 2 ^ 8 + n

/-- The silent IP address of port `n` (R419). -/
def silentIp (uid n : Nat) : Nat := 169 * 2 ^ 24 + 254 * 2 ^ 16 + (1 + bits uid 15 8 % 254) * 2 ^ 8 + (1 + 63 * n + uid % 64 % 63)

/-- Silent values of a port. -/
def portSilent (uid n : Nat) : List (Nat × Fld × Nat) :=
  [(ET_P_CTL n, ET_P_CTL_EN, 1), (ET_P_CTL n, ET_P_CTL_PREEMPT, 1), (ET_P_CTL n, ET_P_CTL_MAXFRAME, 9216),
   (ET_P_PRIO n, ET_P_PRIO_C0, 7), (ET_P_PRIO n, ET_P_PRIO_C1, 5), (ET_P_PRIO n, ET_P_PRIO_C2, 2), (ET_P_PRIO n, ET_P_PRIO_C3, 1),
   (ET_P_UDP n, ET_P_UDP_UDP, 20556), (ET_P_MAC_HI n, ET_P_MAC_HI_MAC, silentMac uid n / 2 ^ 32), (ET_P_MAC_LO n, ET_P_MAC_LO_MAC, silentMac uid n),
   (ET_P_IP n, ET_P_IP_IP, silentIp uid n)]

/-- Silent values of a source. -/
def sourceSilent (k : Nat) : List (Nat × Fld × Nat) :=
  [(TM_SRC_CTL k, TM_SRC_CTL_BW, if k < 4 then 3 else 0), (TM_SRC_CTL k, TM_SRC_CTL_QUAL, 20), (TM_SRC_FREQ k, TM_SRC_FREQ_FREQ, 10000000),
   (TM_SRC_LIM k, TM_SRC_LIM_SOFT, 200), (TM_SRC_LIM k, TM_SRC_LIM_HARD, 2000), (TM_SRC_TIME k, TM_SRC_TIME_PERSIST, 60),
   (TM_SRC_TIME k, TM_SRC_TIME_WTR, 300), (TM_SRC_TIME k, TM_SRC_TIME_DRIFT, 10), (TM_SRC_PPS k, TM_SRC_PPS_PPS_LIM, 20)]

/-- Silent values of the fields that stand once. -/
def singleSilent : List (Nat × Fld × Nat) :=
  [(TM_ATC_CTL, TM_ATC_CTL_RATE_N, 200), (MD_CH_TARGET, MD_CH_TARGET_TARGET, 160), (WD_CH, WD_CH_COUNT, 4096), (SF_CTL, SF_CTL_PW, 20),
   (ET_CT_GRACE, ET_CT_GRACE_GRACE, 200), (ET_CT_NAK, ET_CT_NAK_REORDER, 8), (ET_CT_NAK, ET_CT_NAK_DELAY, 20), (ET_CT_NAK, ET_CT_NAK_RETRY, 80),
   (ET_DS_CTL, ET_DS_CTL_SEG, 8192), (TM_CTL, TM_CTL_REVERT, 1), (TM_CTL, TM_CTL_SLEW, 50), (TM_LOCOSC, TM_LOCOSC_FREQ, 100000000),
   (TM_HO_CFG, TM_HO_CFG_SPEC, 100), (TM_HO_CFG, TM_HO_CFG_AGE, 50), (TM_PTP_CTL, TM_PTP_CTL_CLASS_MAX, 7), (DM_TIMEOUT, DM_TIMEOUT_TIMEOUT, 100),
   (ML_CTL, ML_CTL_TARGET_RUNG, 3), (PW_SLEW, PW_SLEW_CODE, 0x5A), (PW_SSC, PW_SSC_DEPTH, 5)]

/-- Every silent value that is not 0 (R419 and the Meaning columns). -/
def silentValues (uid : Nat) : List (Nat × Fld × Nat) :=
  singleSilent ++ (List.range 64).map (fun o => (SL_OCT_CTL o, SL_OCT_CTL_TARGET_RUNG, 3)) ++
    (List.range 64).flatMap (fun k => [(MD_SL_CTL k, MD_SL_CTL_RUN, 1), (MD_SL_CTL k, MD_SL_CTL_AUTO_RESTART, 1), (MD_SL_CTL k, MD_SL_CTL_SLOT, 16)]) ++
    (List.range 16).flatMap (fun t => [(SF_TB_CTL t, SF_TB_CTL_A, 16), (SF_TB_CTL t, SF_TB_CTL_K, 32)]) ++
    (List.range 512).map (fun p => (SF_PATH p, SF_PATH_HLEV, 8)) ++ (List.range 4).flatMap (portSilent uid) ++
    (List.range 6).flatMap sourceSilent ++ (List.range 4).map (fun n => (TM_CK_CTL n, TM_CK_CTL_FREQ, 100000)) ++
    (List.range 4).map fun n => (TM_FR_CTL n, TM_FR_CTL_WIDTH, 100)

/-- Every FW field that a profile sets takes its silent value (R419). -/
def State.silent (s : State) : State :=
  let s1 := (silentValues Config.uidLo.toNat).foldl (fun s (x : Nat × Fld × Nat) => s.setF x.1 x.2.1 x.2.2) s.fwZero
  { s1 with time := { s1.time with rateN := 200 } }

/-- Both calibration banks of a slice from a stored set, or at unity gain (R157). -/
def State.calStart (s : State) (set k : Nat) : State :=
  let xs := if set ≤ 7 then s.calSet set k else (List.replicate 32768 [0x4000, 0]).flatten
  s.setSlice k { s.slice k with y := tblSetRun 0 (tblSetRun 0 (s.slice k).y (calAddr false 0 0) xs) (calAddr true 0 0) xs }

/-- Both polynomial tables from a stored set, or zeros. -/
def State.polyStart (s : State) (set : Nat) : State :=
  if set ≤ 5 then (s.polySet 0 0 (s.polyStored set)).polySet 1 0 (s.polyStored set) else { s with wd := { s.wd with tab := [] } }

/-- The profile that the pins select, where it passes R417 (R421); none in DECOMMISSIONED. -/
def State.profChosen (s : State) : Option Nat :=
  s.cp.pins.filter fun p => decide (p < 4) && s.lc.state != lcDecommissioned && (s.prof p).valid && (s.profCheck p (s.prof p).bytes).isNone

/-- The header of the profile that runs is applied at start-up (R416, R421). -/
def State.headerStart (s : State) (p : Nat) : State :=
  let bs := (s.prof p).bytes
  let s1 := { s with
    cp := { s.cp with startRefWait := leAt bs 7 1 % 4, startEpoch := leAt bs 7 1 / 4, startRefMax := leAt bs 12 4, startLoad := leAt bs 16 8
                      startBase := leAt bs 24 8 }
    lc := { s.lc with profMeas := (s.prof p).measurement } }
  let s2 := (List.range 64).foldl (fun s k => (s.setF (MD_SL_CTL k) MD_SL_CTL_SLOT (leAt bs (64 + k) 1)).calStart (leAt bs 32 1) k) s1
  ((s2.polyStart (leAt bs 33 1)).setF CP_SYS_STAT CP_SYS_STAT_PROFILE p).setF CP_SYS_STAT CP_SYS_STAT_PROF_VALID 1

/-- Without a profile: unity gain, and nothing to run. -/
def State.headerNone (s : State) : State := (List.range 64).foldl (fun s k => s.calStart 255 k) s

/-- Step 5: silent values, then the header and the script of the profile that the pins select. -/
def State.profileStep (s : State) (wipeOk : Bool) : State :=
  let s1 := s.silent
  match s1.profChosen.filter fun _ => wipeOk with
  | some p => (s1.headerStart p).scriptStart p none none
  | none => s1.headerNone.afterScript

/-- WIPE_COMPLETE: every item of R510 has ended; `fails` are those that failed, `chans` the channels that failed step 5 of R331, `ms` the duration. -/
def execWipeComplete (fails chans ms : Nat) (s : State) : Host.Outcome State Fault Refusal :=
  whenOn s fun s =>
    if s.phase == 4 then
      let items := s.wipeItems fails chans
      (((s.wiped.dramChecked chans).wipeEnd items ms).setPhase 5).profileStep (items == 0)
    else s

/-! ### Steps 7 and 8 (R427, R428) -/

/-- Step 7 waits for its reference (R428). -/
def State.refWaits (s : State) : Bool := s.phase == 6 && !s.cp.step7Done && decide (1 ≤ s.cp.startRefWait)

/-- The selected source is QUALIFIED, with holdover trained where the profile asks for it (R428). -/
def State.refReady (s : State) : Bool :=
  let k := s.rf TM_STAT TM_STAT_SEL
  decide (k < 6) && s.qstate k == qQualified && (s.cp.startRefWait != 2 || s.trained)

/-- REF_WAIT_DONE. -/
def execRefWaitDone (s : State) : Host.Outcome State Fault Refusal :=
  whenOn s fun s => if s.refWaits && s.refReady then { s with cp := { s.cp with step7Done := true } } else s

/-- REF_WAIT_EXPIRE. -/
def execRefWaitExpire (s : State) : Host.Outcome State Fault Refusal :=
  whenOn s fun s =>
    if s.refWaits && s.cp.startRefMax != 0 then
      { s with cp := { s.cp with step7Done := true } }.setF CP_SYS_STAT CP_SYS_STAT_REF_WAIT_EXPIRED 1
    else s

/-- The epoch that step 8 arms, if it can be armed now: for a fixed load a source with a PPS that the core is locked to, for one from PTP the PTP clock too (R427, R428). -/
def State.epochArm (s : State) : Option State :=
  let ok := s.core == coreLocked && s.usesPps (s.rf TM_STAT TM_STAT_SEL)
  let ptp := s.flag TM_PTP_STAT TM_PTP_STAT_SET
  match s.cp.startEpoch with
  | 0 => some s
  | 1 => if ok then some (s.armLoad s.cp.startLoad 0 ptp) else none
  | _ => if ok && ptp then some { s.armLoad 0 0 true with tm := { (s.armLoad 0 0 true).tm with epoch2 := true } } else none

/-- STARTUP_EPOCH_ARM: steps 6 and 7 have ended (R426, R427). -/
def execStartupEpochArm (s : State) : Host.Outcome State Fault Refusal :=
  whenOn s fun s =>
    if s.phase == 6 && s.rf TM_ATC_STAT TM_ATC_STAT_STATE == 0 && (s.cp.startRefWait == 0 || s.cp.step7Done) && s.laddersEnded then
      match s.epochArm with
      | some t => t.setPhase 8
      | none => s
    else s

end Sys2Proof.Machine
end

