-- ==== Sys2Proof/Machine/Epoch.lean ====
section
/-! DEFINITION. The epoch load: the ATC enters RUNNING, or is loaded again while it runs (R48, R50, R53, R143, R240, R259, R418). -/

namespace Sys2Proof.Machine

/-! ### What a load while RUNNING ends (R53) -/

/-- An event is cancelled by an epoch load (R53, R412, R558). -/
def State.cancelEvent (s : State) (e : Event) : State :=
  let s1 := (s.dropEvent e.handle).logEvent 0x0D01 1 ([w32 e.handle, w32 e.op, e.cmd.seq, e.cmd.source] ++ loHi e.f)
  (s1.bump SC_CANCELLED).notify e stWrongState (w32 e.handle :: hiLo e.f ++ [1])

/-- Staged Umber changes lose those of cancelled events (R53, R261). -/
def State.cancelChanges (s : State) : State :=
  { s with sf := { s.sf with chgs := s.sf.chgs.filter fun c => !s.events.any fun e => e.handle == c.2.1 } }

/-- Every event of the queue is cancelled. -/
def State.cancelAll (s : State) : State := (s.events.foldl State.cancelEvent s.cancelChanges).schedSync

/-- The older half that holds spectra is passed over by Indigo and Woad at once, with the spectra that it has. -/
def State.flushHalf (s : State) : State :=
  match s.oldestHalf fun h => h.base.isSome with
  | none => s
  | some hb =>
    let h := s.half hb
    let s1 := s.setHalf hb { h with cap := h.specs.length, full := true }
    let s2 := nextOf s1 (execIndigoPassStart 0 s1)
    let s3 := nextOf s2 (execIndigoPassEnd 0 s2)
    let s4 := nextOf s3 (execIndigoPassStart 1 s3)
    let s5 := nextOf s4 (execIndigoPassEnd 1 s4)
    let s6 := nextOf s5 (execWoadPassStart s5)
    (nextOf s6 (execWoadPassEnd s6)).setHalf hb halfFree

/-- The integration in progress ends at `e`, flagged, and its bank closes (R53, R186). -/
def State.integrationCut (s : State) (e : Nat) : State :=
  match s.curBank with
  | some c =>
    let b := s.bank c
    let s1 := s.setBank c { b with stop := some (max e (b.start.getD e)), flags := setBit b.flags fEndedEarly }
    { s1 with ix := { s1.ix with done := max s1.ix.done (max e (b.start.getD e)) } }
  | none => s

/-- Banks whose integration has ended close. -/
def State.banksClose (s : State) : State :=
  let s1 := nextOf s (execBankClose s)
  nextOf s1 (execBankClose s1)

/-- A new integration opens at the load, or after the drain that holds both banks (R53, R186, R194). -/
def State.integrationFrom (s : State) (load : Nat) : State :=
  let s1 := { s with
    ix := { s.ix with half0 := halfFree, half1 := halfFree, nextBase := load, done := load, drops := [], olds := [], anchor := load }
    ch := { s.ch with bounds := [(load, s.integrating)] } }
  if !s1.integrating then s1
  else if s1.freeBank.isSome then s1.startIntegration load 0
  else { s1 with ix := { s1.ix with deferred := true } }

/-- Boundaries that something waits for move to the load. -/
def toLoad (load b : Nat) : Nat := if b = 0 then 0 else load + 1

/-- A slice's scale epoch ends with the spectra before the load; its exponents stay in force (R53, R164, R166). -/
def State.epochCut (s : State) (k e j : Nat) : State :=
  let p := pathOf k j
  let x := s.scale p
  let noData := x.n == 0 || (x.seeded && !x.found)
  let first := tblGet 0 s.ch.epoch k - 1
  let r := scaleRecord first (s.arrayPath p) (s.target (e - 8192)) true noData x
  let seeded := noData || x.seedNext
  let s1 := ((s.sendRecord p (e - 8192) first true noData).setScale p
    { x with sums := [], n := 0, clips := [], seeded := seeded, found := false, seedNext := false, opened := false, closing := r }).setFB
      (MD_CH_SL_STAT k) MD_CH_SL_STAT_SEEDED j seeded
  if seeded then s1.bump (MD_CH_SL_SEEDS k) else s1

/-- What waits at a slice for a boundary goes with the load. -/
def State.sliceMoved (s : State) (load k : Nat) : State :=
  let m := s.slice k
  { s.setSlice k { m with
      delays := m.delays.map fun d => (load, d.2), xj := [], waits := [], sent := [], back := m.back.map fun b => (b.1, toLoad load b.2), swap := [], fault := 0 } with
    ch := { s.ch with swapAt := tblUpd 0 s.ch.swapAt k (toLoad load) } }

/-- A slice stops before the load and starts again at it, with the program, delays and exponents in force; a stopped one keeps no epoch, and takes the program of a swap that has fired (R53, R142, R156). -/
def State.sliceReload (s : State) (e load k : Nat) : State :=
  let m := s.slice k
  if s.sliceState k ≠ mdRunning ∧ s.sliceState k ≠ mdSwapping then
    let s1 := (match m.swap.getLast? with | some q => s.setF (MD_SL_CTL k) MD_SL_CTL_SLOT q.2 | none => s).sliceMoved load k
    { s1 with ch := { s1.ch with epoch := tblSet 0 s1.ch.epoch k 0 } }
  else
    let n := match m.swap.getLast? with | some q => q.2 | none => s.rf (MD_SL_CTL k) MD_SL_CTL_SLOT
    let s1 :=
      if s.rf (MD_SL_CTL k) MD_SL_CTL_SLOT = stdProgram ∧ tblGet 0 s.ch.epoch k ≠ 0 then
        let t := (List.range 8).foldl (fun s j => s.epochCut k e j) s
        { t with ch := { t.ch with epoch := tblSet 0 t.ch.epoch k (load + 1) } }.setReg64 MD_CH_EPOCH_LO load
      else s
    let s2 := s1.sliceMoved load k
    if s2.loadable n then s2.startSlice k n load else s2

/-- Umber over a load: complete slabs go on to be written once they are checked, the one in progress is not, and writing goes on at the load in a new generation behind them; host changes that have not fired, being past the sample period `was`, wait 10 µs more (R53, R257). -/
def State.ubReload (s : State) (was load : Nat) : State :=
  let later := spectrumAt (load + s.periods 100)
  let s1 := { s with sf := { s.sf with
    slabs := s.sf.slabs.map fun x => { x with old := true }
    turn := s.sf.turn.map fun c => { c with old := true }
    chgs := s.sf.chgs.map fun c => (if c.1 ≤ was then load else later, c.2) } }
  match s.sf.fillAt with
  | none => s1
  | some a =>
    { s1 with sf := { s1.sf with
        turn := s1.sf.turn ++ [({ b := load, old := false, chg := none } : UbTurn)], fillAt := some load, newgen := true, lastSlab := s.sf.lastSlab.map fun l => load + (l - a) } }.ubTurns

/-- Messages that wait for their check blocks go on waiting over a load, and Saffron's index takes the new array times (R53, R251). -/
def State.sfReload (s : State) (was load : Nat) : State :=
  let old := fun (m : TrigMsg) => { m with uses := [], usesOld := m.usesOld ++ m.uses }
  { s with sf := { s.sf with
      msgs := s.sf.msgs.map old, follow := s.sf.follow.map old, jump := some (load, was), cfgs := s.sf.cfgs.map fun c => (load, c.2) } }

/-- Woad's open packets and integrations end with the spectra before the load (R53). -/
def State.wdReload (s : State) (e load : Nat) : State :=
  let s1 := s.wdReachCfg e
  let s2 := s1.closeBeams (s1.wdCfg e) e true
  { s2 with wd := { s2.wd with
      next := load, swaps := s2.wd.swaps.map fun b => (load, b.2), olds := [], gap := s2.wd.gap.map fun _ => load } }

/-- What a load while RUNNING does before the ATC takes its value. -/
def State.reepochEnd (s : State) : State :=
  let e := spectrumFloor s.now
  let s1 := (s.cancelAll.flushHalf).flushHalf
  ((s1.integrationCut e).banksClose).seen TM_ATC_STAT TM_ATC_STAT_REEPOCH evTiming

/-- What goes on at the new time line, `e` being the last spectrum boundary of the old one and `was` its next sample period. -/
def State.reepochStart (s : State) (e was load : Nat) : State :=
  let s1 := (s.wdReload e load).integrationFrom load
  let s2 := (List.range 64).foldl (fun s k => s.sliceReload e load k) s1
  let s3 := (s2.ubReload was load).sfReload was load
  { s3 with
    md := { s3.md with store := [], w := load, fills := [] }
    ch := { s3.ch with tgts := [] }
    ml := { s3.ml with split := 0 }
    ct := { s3.ct with sentTo := [], olds := [], owed := [], recs := s3.ct.recs.map fun r => { r with old := true } } }

/-! ### What the first load starts (R143, R240, R259, R418) -/

/-- Script events take their times from the load (R418). -/
def State.eventsFrom (s : State) (load : Nat) : State :=
  ({ s with events := s.events.map fun (e : Event) =>
      { e with t := (load + e.t) % 2 ^ 64, f := s.boundaryOf e.op ((load + e.t) % 2 ^ 64) } }).schedSync

/-- Umber starts where its ring is allowed; else it stays OFF, and this is logged (R259). -/
def State.ubFirst (s : State) (load : Nat) : State :=
  if !s.flag SF_UB_CTL SF_UB_CTL_EN then s
  else if s.ubAllowed then s.ubStart load
  else
    let ring := s.drReady && s.ringOk (s.reg64 SF_UB_BASE_LO) (s.rf SF_UB_LEN SF_UB_LEN_LEN) (slabBytes s.ubPaths.length)
    s.logEvent 0x0601 1 [s.reg SF_UB_CTL, s.reg SF_UB_LEN, w32 (b2n ring)]

/-- The blocks that start as the ATC enters RUNNING. -/
def State.firstStart (s : State) (load : Nat) : State :=
  let s1 := { s with
    md := { s.md with w := load }
    ix := { s.ix with nextBase := load, done := load, olds := [] }
    wd := { s.wd with next := load }
    ml := { s.ml with step9 := s.time.cycles + 1 } }
  let s2 := if s1.role = roleLampblack ∨ s1.coreStopped then s1 else s1.slicesFrom load
  let s3 := (List.range 16).foldl (fun s t => if s.tbOn t then s.train t else s) s2
  ((s3.ubFirst load).eventsFrom load).setPhase 15

/-! ### The load (R48, R50, R54) -/

/-- The ATC takes the load value `k` sixteenths of a sample period after its edge, and the staged mapping is written. From now on a lock still in progress is a transition (R310). -/
def State.atcLoad (s : State) (k : Nat) : State :=
  let load := s.reg64 TM_ATC_LOAD_LO
  let s1 := { s with
    time := { s.time with atc := load, epoch := load, phase := 0, rateN := s.rf TM_ATC_CTL TM_ATC_CTL_RATE_N }
    tm := { s.tm with edge := none, epoch2 := false, initial := false, calm := 0 } }
  let s2 := ((s1.setF TM_ATC_CTL TM_ATC_CTL_ARM 0).setF TM_ATC_STAT TM_ATC_STAT_STATE 2).setF TM_ATC_STAT TM_ATC_STAT_EPOCH_PHASE k
  ((s2.setReg64 TM_TAI_ATC_LO s.time.stagedAtc).setReg64 TM_TAI_SEC_LO (if s.time.stagedPtp then s.ptpSecond else s.time.stagedSec)).utilFollow

/-- EPOCH_LOAD: the edge that serves the armed load has been accepted, and the next sample-clock edge comes; a gate closes with it (R50, R53, R303). -/
def execEpochLoad (offs : List Int) (base phase ferr : Int) (s : State) : Host.Outcome State Fault Refusal :=
  whenOn s fun s =>
    match s.tm.edge with
    | none => s
    | some q =>
      let load := s.reg64 TM_ATC_LOAD_LO
      let s1 := (s.gate offs base phase ferr).gridMove (q.2 + 20 * ((16 - q.1) % 16 : Nat) / max 1 s.time.rateN)
      if s.running then
        let e := spectrumFloor s.now
        (((s1.reepochEnd).atcLoad q.1).lanesEpoch load).reepochStart e s.sl.next load
      else ((s1.atcLoad q.1).lanesEpoch load).firstStart load

end Sys2Proof.Machine
end

