-- ==== Sys2Proof/Machine/Dispatch.lean ====
section
/-! DEFINITION. The dispatch: one arm per command, each one direct call of its meaning. -/

namespace Sys2Proof.Machine

/-- The effect of a command on everything but the queue. -/
def exec (i : Instr) (s : State) : Host.Outcome State Fault Refusal :=
  match i with
  | .registerWrite r off be v => Sys2Proof.Machine.execRegisterWrite r off be v s
  | .pairLoRead r off => Sys2Proof.Machine.execPairLoRead r off s
  | .pairHiRead r off => Sys2Proof.Machine.execPairHiRead r off s
  | .pairLoWrite r off v => Sys2Proof.Machine.execPairLoWrite r off v s
  | .pairHiWrite r off v => Sys2Proof.Machine.execPairHiWrite r off v s
  | .avLogRepeat => Sys2Proof.Machine.execAvLogRepeat s
  | .glbCntClrAv => Sys2Proof.Machine.execGlbCntClrAv s
  | .ppsEdge k pos phase => Sys2Proof.Machine.execPpsEdge k pos phase s
  | .epochLoad offs base phase ferr => Sys2Proof.Machine.execEpochLoad offs base phase ferr s
  | .missedPps => Sys2Proof.Machine.execMissedPps s
  | .eventCommit h => Sys2Proof.Machine.execEventCommit h s
  | .eventFire => Sys2Proof.Machine.execEventFire s
  | .c0SpacingRelease n => Sys2Proof.Machine.execC0SpacingRelease n s
  | .dataBlockReceived o j raw => Sys2Proof.Machine.execDataBlockReceived o j raw s
  | .idleBlockReceived o j raw => Sys2Proof.Machine.execIdleBlockReceived o j raw s
  | .checkBlockReceived o j raw => Sys2Proof.Machine.execCheckBlockReceived o j raw s
  | .degradedClear o j => Sys2Proof.Machine.execDegradedClear o j s
  | .controlReplyReceived o j raw => Sys2Proof.Machine.execControlReplyReceived o j raw s
  | .blockLockGained o j b7 lane seq count idx lead ofs => Sys2Proof.Machine.execBlockLockGained o j b7 lane seq count idx lead ofs s
  | .blockLockLost o j => Sys2Proof.Machine.execBlockLockLost o j s
  | .lossOfSignal o lane => Sys2Proof.Machine.execLossOfSignal o lane s
  | .lossOfSignalClear o lane => Sys2Proof.Machine.execLossOfSignalClear o lane s
  | .forwardedClockLost o => Sys2Proof.Machine.execForwardedClockLost o s
  | .laneSlip o j lead => Sys2Proof.Machine.execLaneSlip o j lead s
  | .releasePointSet leads => Sys2Proof.Machine.execReleasePointSet leads s
  | .sampleRelease => Sys2Proof.Machine.execSampleRelease s
  | .controlReplyTimeout o => Sys2Proof.Machine.execControlReplyTimeout o s
  | .statusPoll => Sys2Proof.Machine.execStatusPoll s
  | .statusReplyTimeout o => Sys2Proof.Machine.execStatusReplyTimeout o s
  | .ladderStart o => Sys2Proof.Machine.execLadderStart o s
  | .ladderStepTimeout o => Sys2Proof.Machine.execLadderStepTimeout o s
  | .rungSwitch o => Sys2Proof.Machine.execRungSwitch o s
  | .forwardedClockLock o => Sys2Proof.Machine.execForwardedClockLock o s
  | .dwellPassed o => Sys2Proof.Machine.execDwellPassed o s
  | .octetDownRetry o => Sys2Proof.Machine.execOctetDownRetry o s
  | .eqFreeze o j => Sys2Proof.Machine.execEqFreeze o j s
  | .eqResume o j => Sys2Proof.Machine.execEqResume o j s
  | .pathRejoin o p => Sys2Proof.Machine.execPathRejoin o p s
  | .controlWakeDone o => Sys2Proof.Machine.execControlWakeDone o s
  | .laneLadder c => Sys2Proof.Machine.execLaneLadder c s
  | .laneSleep c => Sys2Proof.Machine.execLaneSleep c s
  | .lanePrbs c => Sys2Proof.Machine.execLanePrbs c s
  | .laneStatus c => Sys2Proof.Machine.execLaneStatus c s
  | .adcAccess c => Sys2Proof.Machine.execAdcAccess c s
  | .releaseSet c => Sys2Proof.Machine.execReleaseSet c s
  | .slCntClrAll => Sys2Proof.Machine.execSlCntClrAll s
  | .slCntClrOctet o => Sys2Proof.Machine.execSlCntClrOctet o s
  | .bundleIssue k => Sys2Proof.Machine.execBundleIssue k s
  | .vldsStallEnd k => Sys2Proof.Machine.execVldsStallEnd k s
  | .outComplete k => Sys2Proof.Machine.execOutComplete k s
  | .sliceAutoRestart k => Sys2Proof.Machine.execSliceAutoRestart k s
  | .programSwapLoadDone k => Sys2Proof.Machine.execProgramSwapLoadDone k s
  | .mdProgStore c => Sys2Proof.Machine.execMdProgStore c s
  | .mdProgSwap c => Sys2Proof.Machine.execMdProgSwap c s
  | .mdSliceStatus c => Sys2Proof.Machine.execMdSliceStatus c s
  | .mdSliceRestart c => Sys2Proof.Machine.execMdSliceRestart c s
  | .mdProgList c => Sys2Proof.Machine.execMdProgList c s
  | .mdProgErase c => Sys2Proof.Machine.execMdProgErase c s
  | .mdCntClrAll => Sys2Proof.Machine.execMdCntClrAll s
  | .mdCntClrSlice k => Sys2Proof.Machine.execMdCntClrSlice k s
  | .scaleEpochBoundary k => Sys2Proof.Machine.execScaleEpochBoundary k s
  | .calBankCopyDone k => Sys2Proof.Machine.execCalBankCopyDone k s
  | .chDelaySet c => Sys2Proof.Machine.execChDelaySet c s
  | .chCalLoad c => Sys2Proof.Machine.execChCalLoad c s
  | .chCalSwap c => Sys2Proof.Machine.execChCalSwap c s
  | .chCalFetch c => Sys2Proof.Machine.execChCalFetch c s
  | .chCalFetchDone => Sys2Proof.Machine.execChCalFetchDone s
  | .chCalStore c => Sys2Proof.Machine.execChCalStore c s
  | .chCalStoreDone => Sys2Proof.Machine.execChCalStoreDone s
  | .chTargetSet c => Sys2Proof.Machine.execChTargetSet c s
  | .chScaleRead c => Sys2Proof.Machine.execChScaleRead c s
  | .stagingFillArrival rec => Sys2Proof.Machine.execStagingFillArrival rec s
  | .indigoPassStart d => Sys2Proof.Machine.execIndigoPassStart d s
  | .indigoPassEnd d => Sys2Proof.Machine.execIndigoPassEnd d s
  | .passDeadline h => Sys2Proof.Machine.execPassDeadline h s
  | .integrationBoundary => Sys2Proof.Machine.execIntegrationBoundary s
  | .bankClose => Sys2Proof.Machine.execBankClose s
  | .drainEnd => Sys2Proof.Machine.execDrainEnd s
  | .drainRingSpace => Sys2Proof.Machine.execDrainRingSpace s
  | .ixProductSet c => Sys2Proof.Machine.execIxProductSet c s
  | .ixBudgetCheck c => Sys2Proof.Machine.execIxBudgetCheck c s
  | .ixIntegStop c => Sys2Proof.Machine.execIxIntegStop c s
  | .ixStatus c => Sys2Proof.Machine.execIxStatus c s
  | .ixDumpRelease c => Sys2Proof.Machine.execIxDumpRelease c s
  | .ixTileMap c => Sys2Proof.Machine.execIxTileMap c s
  | .ixDumpRing c => Sys2Proof.Machine.execIxDumpRing c s
  | .ixCntClrAll => Sys2Proof.Machine.execIxCntClrAll s
  | .ixCntClrSat => Sys2Proof.Machine.execIxCntClrSat s
  | .woadPassStart => Sys2Proof.Machine.execWoadPassStart s
  | .beamPacketEmit b => Sys2Proof.Machine.execBeamPacketEmit b s
  | .totalPowerClose b => Sys2Proof.Machine.execTotalPowerClose b s
  | .woadResumeGap => Sys2Proof.Machine.execWoadResumeGap s
  | .polyTableCopyDone => Sys2Proof.Machine.execPolyTableCopyDone s
  | .wdPolyLoad c => Sys2Proof.Machine.execWdPolyLoad c s
  | .wdPolyLoadDone => Sys2Proof.Machine.execWdPolyLoadDone s
  | .wdPolySwap c => Sys2Proof.Machine.execWdPolySwap c s
  | .wdBeamConfig c => Sys2Proof.Machine.execWdBeamConfig c s
  | .wdBudgetCheck c => Sys2Proof.Machine.execWdBudgetCheck c s
  | .wdStatus c => Sys2Proof.Machine.execWdStatus c s
  | .wdPolyFetch c => Sys2Proof.Machine.execWdPolyFetch c s
  | .wdPolyFetchDone => Sys2Proof.Machine.execWdPolyFetchDone s
  | .wdPolyStore c => Sys2Proof.Machine.execWdPolyStore c s
  | .wdPolyStoreDone => Sys2Proof.Machine.execWdPolyStoreDone s
  | .wdCntClrAll => Sys2Proof.Machine.execWdCntClrAll s
  | .trainingEnd t => Sys2Proof.Machine.execTrainingEnd t s
  | .hitHoldExpire c p => Sys2Proof.Machine.execHitHoldExpire c p s
  | .trigPulseEnd o => Sys2Proof.Machine.execTrigPulseEnd o s
  | .triginEdge x asserted sub => Sys2Proof.Machine.execTriginEdge x asserted sub s
  | .messageSpanEnd => Sys2Proof.Machine.execMessageSpanEnd s
  | .messageCheckDone q => Sys2Proof.Machine.execMessageCheckDone q s
  | .messageCheckTimeout q => Sys2Proof.Machine.execMessageCheckTimeout q s
  | .umberSlabWrite => Sys2Proof.Machine.execUmberSlabWrite s
  | .sfUbArm v => Sys2Proof.Machine.execSfUbArm v s
  | .sfUbLenWrite r v => Sys2Proof.Machine.execSfUbLenWrite r v s
  | .sfTrigConfig c => Sys2Proof.Machine.execSfTrigConfig c s
  | .sfTbpLoad c => Sys2Proof.Machine.execSfTbpLoad c s
  | .sfStatus c => Sys2Proof.Machine.execSfStatus c s
  | .sfUbConfig c => Sys2Proof.Machine.execSfUbConfig c s
  | .sfUbRearm c => Sys2Proof.Machine.execSfUbRearm c s
  | .sfUbStatus c => Sys2Proof.Machine.execSfUbStatus c s
  | .sfCntClrAll => Sys2Proof.Machine.execSfCntClrAll s
  | .frameReceive n bytes coding => Sys2Proof.Machine.execFrameReceive n bytes coding s
  | .pfcRefresh n cls => Sys2Proof.Machine.execPfcRefresh n cls s
  | .pfcXon n cls => Sys2Proof.Machine.execPfcXon n cls s
  | .pauseFrameReceived n => Sys2Proof.Machine.execPauseFrameReceived n s
  | .pfcFrameReceived n => Sys2Proof.Machine.execPfcFrameReceived n s
  | .pauseTimerExpire n q => Sys2Proof.Machine.execPauseTimerExpire n q s
  | .arpRequestReceived n => Sys2Proof.Machine.execArpRequestReceived n s
  | .ctBlockReceived n => Sys2Proof.Machine.execCtBlockReceived n s
  | .ctNakReceived n => Sys2Proof.Machine.execCtNakReceived n s
  | .ctGoneReceived n => Sys2Proof.Machine.execCtGoneReceived n s
  | .ctBlockQueue m b r rec => Sys2Proof.Machine.execCtBlockQueue m b r rec s
  | .nakDelayExpire m p => Sys2Proof.Machine.execNakDelayExpire m p s
  | .nakRetryExpire m p => Sys2Proof.Machine.execNakRetryExpire m p s
  | .graceExpire st => Sys2Proof.Machine.execGraceExpire st s
  | .frameTransmitEnd n late extra => Sys2Proof.Machine.execFrameTransmitEnd n late extra s
  | .linkUp n => Sys2Proof.Machine.execLinkUp n s
  | .linkDown n => Sys2Proof.Machine.execLinkDown n s
  | .preemptVerifyRetry n => Sys2Proof.Machine.execPreemptVerifyRetry n s
  | .respondMpacketReceived n => Sys2Proof.Machine.execRespondMpacketReceived n s
  | .dumpStreamSend => Sys2Proof.Machine.execDumpStreamSend s
  | .etPortConfig c => Sys2Proof.Machine.execEtPortConfig c s
  | .etFilterSet c => Sys2Proof.Machine.execEtFilterSet c s
  | .etCtConfig c => Sys2Proof.Machine.execEtCtConfig c s
  | .etPortStatus c => Sys2Proof.Machine.execEtPortStatus c s
  | .etCtStatus c => Sys2Proof.Machine.execEtCtStatus c s
  | .etDsConfig c => Sys2Proof.Machine.execEtDsConfig c s
  | .etDumpResend c => Sys2Proof.Machine.execEtDumpResend c s
  | .etCntClrAll => Sys2Proof.Machine.execEtCntClrAll s
  | .etCntClrCt => Sys2Proof.Machine.execEtCntClrCt s
  | .etCntClrPorts mask => Sys2Proof.Machine.execEtCntClrPorts mask s
  | .gateClose offs base phase ferr => Sys2Proof.Machine.execGateClose offs base phase ferr s
  | .qualCountReached k => Sys2Proof.Machine.execQualCountReached k s
  | .persistExpire k => Sys2Proof.Machine.execPersistExpire k s
  | .wtrExpire k => Sys2Proof.Machine.execWtrExpire k s
  | .refClockLoss k => Sys2Proof.Machine.execRefClockLoss k s
  | .ppsLoss k => Sys2Proof.Machine.execPpsLoss k s
  | .ptpLoss d announce => Sys2Proof.Machine.execPtpLoss d announce s
  | .sourceSignalPresent k => Sys2Proof.Machine.execSourceSignalPresent k s
  | .coarseFreqDone k off => Sys2Proof.Machine.execCoarseFreqDone k off s
  | .initialLockDone offs base phase ferr move => Sys2Proof.Machine.execInitialLockDone offs base phase ferr move s
  | .switchLocked => Sys2Proof.Machine.execSwitchLocked s
  | .clkoutStart n => Sys2Proof.Machine.execClkoutStart n s
  | .framePulseStart n => Sys2Proof.Machine.execFramePulseStart n s
  | .framePulseEnd n => Sys2Proof.Machine.execFramePulseEnd n s
  | .ptpSyncReceived n => Sys2Proof.Machine.execPtpSyncReceived n s
  | .ptpFollowUpReceived n => Sys2Proof.Machine.execPtpFollowUpReceived n s
  | .ptpDelayRespReceived n => Sys2Proof.Machine.execPtpDelayRespReceived n s
  | .ptpAnnounceReceived n => Sys2Proof.Machine.execPtpAnnounceReceived n s
  | .ptpOtherDiscard n => Sys2Proof.Machine.execPtpOtherDiscard n s
  | .ptpDelayReqSend d => Sys2Proof.Machine.execPtpDelayReqSend d s
  | .ptpLargeOffset => Sys2Proof.Machine.execPtpLargeOffset s
  | .ptpSecondSnapshot => Sys2Proof.Machine.execPtpSecondSnapshot s
  | .ptpSnapSecLoRead r => Sys2Proof.Machine.execPtpSnapSecLoRead r s
  | .tmSrcConfig c => Sys2Proof.Machine.execTmSrcConfig c s
  | .tmRefSelect c => Sys2Proof.Machine.execTmRefSelect c s
  | .tmHoConfig c => Sys2Proof.Machine.execTmHoConfig c s
  | .tmOutConfig c => Sys2Proof.Machine.execTmOutConfig c s
  | .tmEpochLoad c => Sys2Proof.Machine.execTmEpochLoad c s
  | .tmTaiMap c => Sys2Proof.Machine.execTmTaiMap c s
  | .tmPtpConfig c => Sys2Proof.Machine.execTmPtpConfig c s
  | .tmPtpStep c => Sys2Proof.Machine.execTmPtpStep c s
  | .tmStatus c => Sys2Proof.Machine.execTmStatus c s
  | .tmPtpTsRead c => Sys2Proof.Machine.execTmPtpTsRead c s
  | .tmCntClrAll => Sys2Proof.Machine.execTmCntClrAll s
  | .dramRequest m cls w a bs n extra => Sys2Proof.Machine.execDramRequest m cls w a bs n extra s
  | .dramReadComplete n found => Sys2Proof.Machine.execDramReadComplete n found s
  | .requestAgePromote n x => Sys2Proof.Machine.execRequestAgePromote n x s
  | .refreshDue n r => Sys2Proof.Machine.execRefreshDue n r s
  | .postponedRefreshMakeup n r => Sys2Proof.Machine.execPostponedRefreshMakeup n r s
  | .rankPowerDown n r => Sys2Proof.Machine.execRankPowerDown n r s
  | .rowIdleClose n r b => Sys2Proof.Machine.execRowIdleClose n r b s
  | .scrubPatrolRead found => Sys2Proof.Machine.execScrubPatrolRead found s
  | .memoryRailFault => Sys2Proof.Machine.execMemoryRailFault s
  | .drStatus c => Sys2Proof.Machine.execDrStatus c s
  | .drBoardSet c => Sys2Proof.Machine.execDrBoardSet c s
  | .drSweep c => Sys2Proof.Machine.execDrSweep c s
  | .drSweepDone => Sys2Proof.Machine.execDrSweepDone s
  | .drTableStore c => Sys2Proof.Machine.execDrTableStore c s
  | .drTableStoreDone => Sys2Proof.Machine.execDrTableStoreDone s
  | .drSchedConfig c => Sys2Proof.Machine.execDrSchedConfig c s
  | .drCntClrAll => Sys2Proof.Machine.execDrCntClrAll s
  | .drCntClrCh mask => Sys2Proof.Machine.execDrCntClrCh mask s
  | .dmChCtlGo r n v => Sys2Proof.Machine.execDmChCtlGo r n v s
  | .dmChCtlAbort r n v => Sys2Proof.Machine.execDmChCtlAbort r n v s
  | .dmChCtlKick r n v => Sys2Proof.Machine.execDmChCtlKick r n v s
  | .dmChDescWrite r n hi v => Sys2Proof.Machine.execDmChDescWrite r n hi v s
  | .dmIntStatClear v => Sys2Proof.Machine.execDmIntStatClear v s
  | .dmHaltStatClear v => Sys2Proof.Machine.execDmHaltStatClear v s
  | .dmIntEnWrite v => Sys2Proof.Machine.execDmIntEnWrite v s
  | .dmHaltEnWrite v => Sys2Proof.Machine.execDmHaltEnWrite v s
  | .dmCntClrWrite v => Sys2Proof.Machine.execDmCntClrWrite v s
  | .descriptorFetchDone n host => Sys2Proof.Machine.execDescriptorFetchDone n host s
  | .dmaBeatDone n j src dst => Sys2Proof.Machine.execDmaBeatDone n j src dst s
  | .dmaBeatError n x => Sys2Proof.Machine.execDmaBeatError n x s
  | .dmaBeatTimeout n x => Sys2Proof.Machine.execDmaBeatTimeout n x s
  | .dmaRetryIssue n x => Sys2Proof.Machine.execDmaRetryIssue n x s
  | .descriptorComplete n j => Sys2Proof.Machine.execDescriptorComplete n j s
  | .abortHalt n => Sys2Proof.Machine.execAbortHalt n s
  | .dmStart c => Sys2Proof.Machine.execDmStart c s
  | .dmKick c => Sys2Proof.Machine.execDmKick c s
  | .dmAbort c => Sys2Proof.Machine.execDmAbort c s
  | .dmStatus c => Sys2Proof.Machine.execDmStatus c s
  | .requestSlotWrite r k off bs => Sys2Proof.Machine.execRequestSlotWrite r k off bs s
  | .mailboxDoorbell r k => Sys2Proof.Machine.execMailboxDoorbell r k s
  | .mailboxReplyRelease mask => Sys2Proof.Machine.execMailboxReplyRelease mask s
  | .noticeRingReadAdvance mgmt v => Sys2Proof.Machine.execNoticeRingReadAdvance mgmt v s
  | .cpCntClrAll => Sys2Proof.Machine.execCpCntClrAll s
  | .mgmtRegisterWrite off v => Sys2Proof.Machine.execMgmtRegisterWrite off v s
  | .mgmtRegisterRead off => Sys2Proof.Machine.execMgmtRegisterRead off s
  | .mgmtBlockRead off n => Sys2Proof.Machine.execMgmtBlockRead off n s
  | .mgmtSlotWrite off bs => Sys2Proof.Machine.execMgmtSlotWrite off bs s
  | .mgmtDoorbell => Sys2Proof.Machine.execMgmtDoorbell s
  | .mgmtUnknownCode code => Sys2Proof.Machine.execMgmtUnknownCode code s
  | .peluskDatagramReceived n => Sys2Proof.Machine.execPeluskDatagramReceived n s
  | .bar2Read o r => Sys2Proof.Machine.execBar2Read o r s
  | .bar2Write o bs => Sys2Proof.Machine.execBar2Write o bs s
  | .functionLevelReset => Sys2Proof.Machine.execFunctionLevelReset s
  | .pcieLinkLoss => Sys2Proof.Machine.execPcieLinkLoss s
  | .sysInfo c => Sys2Proof.Machine.execSysInfo c s
  | .sysResetWarm c => Sys2Proof.Machine.execSysResetWarm c s
  | .sysResetCompute c => Sys2Proof.Machine.execSysResetCompute c s
  | .sysSession c => Sys2Proof.Machine.execSysSession c s
  | .sysRegWrite c => Sys2Proof.Machine.execSysRegWrite c s
  | .sysAperture c => Sys2Proof.Machine.execSysAperture c s
  | .scList c => Sys2Proof.Machine.execScList c s
  | .scCancel c => Sys2Proof.Machine.execScCancel c s
  | .profStore c => Sys2Proof.Machine.execProfStore c s
  | .profActivate c => Sys2Proof.Machine.execProfActivate c s
  | .profList c => Sys2Proof.Machine.execProfList c s
  | .scCntClrAll => Sys2Proof.Machine.execScCntClrAll s
  | .niethServing => Sys2Proof.Machine.execNiethServing s
  | .computeRestartDone => Sys2Proof.Machine.execComputeRestartDone s
  | .vinValid pins => Sys2Proof.Machine.execVinValid pins s
  | .coldResetAssert => Sys2Proof.Machine.execColdResetAssert s
  | .coldResetRelease pins => Sys2Proof.Machine.execColdResetRelease pins s
  | .startupDiodeOk t => Sys2Proof.Machine.execStartupDiodeOk t s
  | .wipeComplete fails chans ms => Sys2Proof.Machine.execWipeComplete fails chans ms s
  | .refWaitDone => Sys2Proof.Machine.execRefWaitDone s
  | .refWaitExpire => Sys2Proof.Machine.execRefWaitExpire s
  | .startupEpochArm => Sys2Proof.Machine.execStartupEpochArm s
  | .profilePinsUnstable samples => Sys2Proof.Machine.execProfilePinsUnstable samples s
  | .miltiaDataBlockReceived b => Sys2Proof.Machine.execMiltiaDataBlockReceived b s
  | .miltiaAckBlockReceived b => Sys2Proof.Machine.execMiltiaAckBlockReceived b s
  | .miltiaLinkBlockReceived b => Sys2Proof.Machine.execMiltiaLinkBlockReceived b s
  | .miltiaIdleBlockReceived b => Sys2Proof.Machine.execMiltiaIdleBlockReceived b s
  | .miltiaAckTimer => Sys2Proof.Machine.execMiltiaAckTimer s
  | .miltiaResendTimeout => Sys2Proof.Machine.execMiltiaResendTimeout s
  | .miltiaLinkDown lock => Sys2Proof.Machine.execMiltiaLinkDown lock s
  | .miltiaRelockTimeout => Sys2Proof.Machine.execMiltiaRelockTimeout s
  | .miltiaLinkUp rung ver min_ => Sys2Proof.Machine.execMiltiaLinkUp rung ver min_ s
  | .heartbeatSend => Sys2Proof.Machine.execHeartbeatSend s
  | .heartbeatWordReceived p n bs => Sys2Proof.Machine.execHeartbeatWordReceived p n bs s
  | .hbPathTimeout p => Sys2Proof.Machine.execHbPathTimeout p s
  | .promotion => Sys2Proof.Machine.execPromotion s
  | .fenceSettle => Sys2Proof.Machine.execFenceSettle s
  | .leaseExpire => Sys2Proof.Machine.execLeaseExpire s
  | .checkpointFullSend => Sys2Proof.Machine.execCheckpointFullSend s
  | .verdigrisItemStart => Sys2Proof.Machine.execVerdigrisItemStart s
  | .verdigrisItemDone pass => Sys2Proof.Machine.execVerdigrisItemDone pass s
  | .takeoverComputeReady => Sys2Proof.Machine.execTakeoverComputeReady s
  | .takeoverBoundary => Sys2Proof.Machine.execTakeoverBoundary s
  | .handoverDiscardQueued => Sys2Proof.Machine.execHandoverDiscardQueued s
  | .roleStatus c => Sys2Proof.Machine.execRoleStatus c s
  | .roleConfig c => Sys2Proof.Machine.execRoleConfig c s
  | .roleLease c => Sys2Proof.Machine.execRoleLease c s
  | .roleWarm c => Sys2Proof.Machine.execRoleWarm c s
  | .roleWarmDone => Sys2Proof.Machine.execRoleWarmDone s
  | .roleHandover c => Sys2Proof.Machine.execRoleHandover c s
  | .roleFence c => Sys2Proof.Machine.execRoleFence c s
  | .mlRelay c => Sys2Proof.Machine.execMlRelay c s
  | .mlRelayReply => Sys2Proof.Machine.execMlRelayReply s
  | .roleHealth c => Sys2Proof.Machine.execRoleHealth c s
  | .mlLadder c => Sys2Proof.Machine.execMlLadder c s
  | .mlCntClrAll => Sys2Proof.Machine.execMlCntClrAll s
  | .vinPowerWarn vin => Sys2Proof.Machine.execVinPowerWarn vin s
  | .undervoltageLockout => Sys2Proof.Machine.execUndervoltageLockout s
  | .overvoltageLockout => Sys2Proof.Machine.execOvervoltageLockout s
  | .auxRailFault v a => Sys2Proof.Machine.execAuxRailFault v a s
  | .auxRailRetry ok v a => Sys2Proof.Machine.execAuxRailRetry ok v a s
  | .senseWireOpen r => Sys2Proof.Machine.execSenseWireOpen r s
  | .droopSag d => Sys2Proof.Machine.execDroopSag d s
  | .droopStretchEnd d us => Sys2Proof.Machine.execDroopStretchEnd d us s
  | .slowRound raws diode vin iin pin good bth board => Sys2Proof.Machine.execSlowRound raws diode vin iin pin good bth board s
  | .fastReading n raw => Sys2Proof.Machine.execFastReading n raw s
  | .ksStepTick => Sys2Proof.Machine.execKsStepTick s
  | .shutdownLogWritten => Sys2Proof.Machine.execShutdownLogWritten s
  | .criticalRestart diode pins => Sys2Proof.Machine.execCriticalRestart diode pins s
  | .pwStatus c => Sys2Proof.Machine.execPwStatus c s
  | .pwTempRead c => Sys2Proof.Machine.execPwTempRead c s
  | .pwConfig c => Sys2Proof.Machine.execPwConfig c s
  | .pwRestart c => Sys2Proof.Machine.execPwRestart c s
  | .pwLogRead c => Sys2Proof.Machine.execPwLogRead c s
  | .pwDiodeRead c diode => Sys2Proof.Machine.execPwDiodeRead c diode s
  | .pwCntClrAll => Sys2Proof.Machine.execPwCntClrAll s
  | .fwStore c => Sys2Proof.Machine.execFwStore c s
  | .fwActivate c => Sys2Proof.Machine.execFwActivate c s
  | .niethHandoffDone => Sys2Proof.Machine.execNiethHandoffDone s
  | .fwCommit c => Sys2Proof.Machine.execFwCommit c s
  | .trialAutoCommit => Sys2Proof.Machine.execTrialAutoCommit s
  | .watchdogFault => Sys2Proof.Machine.execWatchdogFault s
  | .lockstepFault => Sys2Proof.Machine.execLockstepFault s
  | .fwList c => Sys2Proof.Machine.execFwList c s
  | .lcStatus c => Sys2Proof.Machine.execLcStatus c s
  | .lcIdentity c => Sys2Proof.Machine.execLcIdentity c s
  | .lcNonce c => Sys2Proof.Machine.execLcNonce c s
  | .lcProvision c => Sys2Proof.Machine.execLcProvision c s
  | .lcTransition c => Sys2Proof.Machine.execLcTransition c s
  | .lcOwnerRotate c => Sys2Proof.Machine.execLcOwnerRotate c s
  | .lcTransitionDone entropyOk => Sys2Proof.Machine.execLcTransitionDone entropyOk s
  | .transitionReset pins => Sys2Proof.Machine.execTransitionReset pins s
  | .nonceExpire => Sys2Proof.Machine.execNonceExpire s
  | .lcAttest c => Sys2Proof.Machine.execLcAttest c s
  | .pePerstAssert => Sys2Proof.Machine.execPePerstAssert s
  | .pePerstRelease => Sys2Proof.Machine.execPePerstRelease s
  | .padFault b driven ball => Sys2Proof.Machine.execPadFault b driven ball s
  | .tapInstruction n => Sys2Proof.Machine.execTapInstruction n s
  | .evIntStatClear v => Sys2Proof.Machine.execEvIntStatClear v s
  | .evIntEnWrite v => Sys2Proof.Machine.execEvIntEnWrite v s
  | .evMdExcClear q v => Sys2Proof.Machine.execEvMdExcClear q v s
  | .evMdEvtClear q v => Sys2Proof.Machine.execEvMdEvtClear q v s
  | .msixUnmask v => Sys2Proof.Machine.execMsixUnmask v s
  | .prbsPatternReceived o j bs => Sys2Proof.Machine.execPrbsPatternReceived o j bs s
  | .woadPassEnd => Sys2Proof.Machine.execWoadPassEnd s
  | .stateRecordPeriod => Sys2Proof.Machine.execStateRecordPeriod s
  | .leaseStart => Sys2Proof.Machine.execLeaseStart s
  | .pairingWaitExpire => Sys2Proof.Machine.execPairingWaitExpire s
  | .housekeepingPowerOn => Sys2Proof.Machine.execHousekeepingPowerOn s

end Sys2Proof.Machine
end

