-- ==== Sys2Proof/Machine/Tick.lean ====
section
/-! DEFINITION. What happens at a Saffron clock cycle whatever is commanded: array time, the PTP clock, the age of the peer's heartbeat, DRAM writes, the control lanes, the Miltia link's IDLE blocks, integrations that resume, and a script that waits (R35, R45, R84, R321, R342, R418, R425, R435, R458). DESIGN CHOICE: an idle step of the block is one such cycle. -/

namespace Sys2Proof.Machine

/-- Array time over one Saffron cycle of 0.5 ns: RATE_N / 200 of a sample period (R45). -/
def TimeSt.tick (t : TimeSt) (running : Bool) : TimeSt :=
  if running then
    let p := t.phase + t.rateN
    if 200 ≤ p then { t with cycles := t.cycles + 1, phase := p - 200, atc := (t.atc + 1) % 2 ^ 64 }
    else { t with cycles := t.cycles + 1, phase := p }
  else { t with cycles := t.cycles + 1 }

/-- The clocks of the device after one cycle, in which nothing has happened yet (R15); housekeeping's own runs while VIN is above its threshold (R321, R485). -/
def State.clocks (s : State) : State :=
  { s with
    fresh := []
    time := if s.on then s.time.tick s.running else s.time
    tm := if s.on then { s.tm with ptp := (s.tm.ptp + 500000000 + s.tm.ptpRate).toNat } else s.tm
    pw := if s.pw.power = .off then s.pw else { s.pw with hkCycles := s.pw.hkCycles + 1 } }

/-- PEER_ACTIVE reads 0 once no ACTIVE word has come for 30 µs (R458). -/
def State.heartAge (s : State) : State :=
  if s.flag ML_HB_STAT ML_HB_STAT_PEER_ACTIVE && decide (s.ml.activeAt + 60000 ≤ s.time.cycles) then s.setF ML_HB_STAT ML_HB_STAT_PEER_ACTIVE 0 else s

/-- Each DRAM channel serves a burst, and has switched to its next delay set (R342, R359). -/
def State.drTick (s : State) : State := if s.drReady then (List.range 16).foldl State.drBurst s.phySwitch else s

/-- A CMOS output is inactive now: a TRIG or FRAME pin by its pulse. DEDUCED: HB_OUT and TDO drive nothing between two commands (R475, R531). -/
def State.outIdle (s : State) (n : Nat) : Bool :=
  if n < 8 then !s.rfb SF_STAT SF_STAT_TRIG_NOW n else if n < 12 then !bit s.tm.frames (n - 8) else true

/-- Each inactive CMOS output takes the slew code of the band (R475). -/
def State.slewTake (s : State) : State :=
  { s with pw := { s.pw with slew := (List.range 14).foldl (fun t n => if s.outIdle n then tblSet 0 t n s.pw.slewNext else t) s.pw.slew } }

/-- One Saffron cycle with no command waiting. -/
def State.tick (s : State) : State :=
  let s1 := s.clocks
  if s1.on then
    let s2 := s1.heartAge.drTick.ctlTick.linkIdle.resumeDue.slewTake
    if s2.cp.serving then s2.scriptResume else s2
  else s1

end Sys2Proof.Machine
end

