-- ==== Sys2Proof/Safety.lean ====
section
/-! DEFINITION. What counts as a safe run of the block, and the terms the statements are made of: what a command may touch, and when a Pelusk command is taken and how it completes. -/

namespace Sys2Proof.Machine

/-- A step answers a next state: it neither faults nor refuses. -/
def Completes (s : State) : Prop := ∃ t, step s = .next t

/-- The first `n` steps from a state all complete. -/
def SafeFor : Nat → State → Prop
  | 0, _ => True
  | n + 1, s => ∃ t, step s = .next t ∧ SafeFor n t

/-- A register that tells what the device is, which nothing changes: GLB_ID, GLB_REV, and GLB_CAP but for its NCH (R550). -/
def idReg (o : Nat) : Prop := o = GLB_ID ∨ o = GLB_REV ∨ o = GLB_CAP

/-- What every step keeps. The register file, the shadow copies and staged halves of R20, and DRAM are tables in canonical form; the log holds no more entries than the ring with the sector ahead of its writer erased (R466, R467); and the registers that tell what the device is read as R550 gives them. -/
structure State.Wf (s : State) : Prop where
  regs : tblWf 0 s.regs = true
  shadow : tblWf none s.shadow = true
  staged : tblWf none s.staged = true
  mem : tblWf 0 s.mem = true
  log : s.log.length ≤ 262144 - 1024
  id : s.reg GLB_ID = 0x4F4C0512#32
  rev : s.reg GLB_REV = 0x01010101#32
  slices : s.rf GLB_CAP GLB_CAP_SLICES = 64
  tiles : s.rf GLB_CAP GLB_CAP_TILES_M1 = 1023
  ports : s.rf GLB_CAP GLB_CAP_PORTS = 4

/-- `t` is `s` but for the registers of a list, and what the present cycle notes of them (R15). -/
def OnlyRegs (l : List Nat) (s t : State) : Prop :=
  t = { s with regs := t.regs, fresh := t.fresh } ∧ ∀ o, o ∉ l → t.reg o = s.reg o ∧ t.freshAt o = s.freshAt o

/-- The same registers of `s` and `t` outside a list and outside what an interrupt writes. -/
def SameRegs (l : List Nat) (s t : State) : Prop := ∀ o, ¬ intReg o → o ∉ l → t.reg o = s.reg o

/-- `t` is `s` but for the registers of a list and an interrupt: EV_INT_STAT, the pending-bit array and MSI-X messages (R553, R554). -/
def OnlyRegsInt (l : List Nat) (s t : State) : Prop :=
  t = { s with regs := t.regs, out := t.out, fresh := t.fresh } ∧ SameRegs l s t

/-- The registers that taking a command from the queue and answering it may write, the ports' and the Miltia link's apart: CP_MB_STAT, CP_NT_WR, CP_Q_STAT and an interrupt's. -/
def replyRegs : List Nat := [CP_MB_STAT, CP_NT_WR, CP_Q_STAT]

/-- The conditions on the state under which Nieth takes a command of an opcode and neither the life cycle, nor its flag [2], nor the pair's role refuses it (R401, R405, R441). -/
structure Taken (op : Nat) (c : Cmd) (s : State) : Prop where
  takes : s.takes op c = true
  permits : s.permits op = true
  flag2 : c.scheduled = (schedInfo op).isSome
  role : s.pairRefuses op (isQuery op c) = false

/-- A reply of `n` words fits the command's transport (R401 check 10). -/
def Fits (n : Nat) (c : Cmd) (s : State) : Prop := 4 * (1 + n) ≤ s.replyRoom c.transport

/-- Command `i`, of opcode `op`, completes in `s`: it is answered OK with the words `ws`, on a state `e` that its effect leaves and the reply finds. -/
def Answers (i : Instr) (op : Nat) (c : Cmd) (s : State) (ws : List Word) (e : State) : Prop :=
  exec i s = .next (e.answer op c (isQuery op c) (replyTo op c stOk 0 0 ws) (!isQuery op c))

/-- Command `i`, of opcode `op`, starts in `s`: it enters the running operations and is answered IN_PROGRESS with the words `ws`, on a state `e` that its effect leaves. -/
def Progresses (i : Instr) (op : Nat) (c : Cmd) (s : State) (ws : List Word) (e : State) : Prop :=
  e.cp.running = s.cp.running ++ [⟨op, c⟩] ∧
    exec i s = .next ((e.answer op c (isQuery op c) (replyTo op c stInProgress 0 0 ws) false).queueSync)

/-- Command `i`, of opcode `op`, is refused in `s` with a status, WORD and words; nothing but the queue and the reply changes (R401, R402). -/
def Refuses (i : Instr) (op : Nat) (c : Cmd) (s : State) (status word : Nat) (ws : List Word) : Prop :=
  exec i s = .next ((s.dequeue op c).answer op c (isQuery op c) (replyTo op c status 0 word ws) false)

/-- Reply slot `k` holds a reply's packet and REPLY[k] is set (R394, R395). -/
def InSlot (k : Nat) (r : Reply) (t : State) : Prop :=
  (∀ i < r.bytes.length, tblGet 0 t.cp.buf (replySlot k + i) = r.bytes.getD i 0) ∧ t.rfb CP_MB_STAT CP_MB_STAT_REPLY k = true

/-- Slice `k` issues bundle `b` of a program image now: it is RUNNING on a program other than the standard one, is neither stalled nor late, and no event that applies first is waited for (R57, R107, R128, R131). -/
structure Issues (k b : Nat) (s : State) : Prop where
  on : s.on = true
  slice : k < 64
  state : s.sliceState k = mdRunning
  time : s.running = true
  awaits : s.awaits (s.slice k).st = false
  prog : s.rf (MD_SL_CTL k) MD_SL_CTL_SLOT ≠ stdProgram
  stall : (s.slice k).stall = false
  bundle : tblGet 0 (s.slice k).imem (s.slice k).pc = b
  late : s.isLate k = false

end Sys2Proof.Machine
end

