-- ==== Sys2Proof/Certificates/Slice0/Obligations.lean ====
section
/-! DEFINITION. The statements for the provers, family by family. -/

open Sys2Proof Sys2Proof.Machine

/-- A step takes the command at the front of the queue and runs it on the state with the queue's rest. -/
def Obligations.StepRunsTheFrontCommand : Prop :=
  ∀ (s : State) (c : Instr) (rest : List Instr), s.pending = c :: rest → step s = exec c { s with pending := rest }

/-- DESIGN CHOICE (log entry 1): a step with no command waiting is one Saffron cycle of 0.5 ns; R45 gives what array time does in it. -/
def Obligations.IdleStepIsOneSaffronCycle : Prop := ∀ s : State, s.pending = [] →
  ∃ t, step s = .next t ∧ t.pending = [] ∧
    (s.pw.power = .off → t = { s with fresh := [] }) ∧
    (s.on = false → t = { s with pw := t.pw, fresh := [] }) ∧
    (s.on = true → s.cp.serving = false → s.time.rateN ≤ 200 → s.time.phase < 200 → s.running = true →
      t.time.cycles = s.time.cycles + 1 ∧ t.time.phase < 200 ∧ t.time.rateN = s.time.rateN ∧
      t.time.atc = (s.time.atc + (s.time.phase + s.time.rateN) / 200) % 2 ^ 64 ∧ t.time.phase = (s.time.phase + s.time.rateN) % 200)

/-- The invariant of `StepsCompleteAndKeepTheStateWellFormed` holds right after reset (R16, R550). That the tables start canonical and the log empty is the model's choice (log entries 2 and 9). -/
def Obligations.ResetIsWellFormed : Prop := State.reset.Wf

/-- R15, R554, R555: the interrupt registers. The W1C words, of which EV_INT_STAT has bits [15:0] only, clear the bits written as 1 but for one set in the same cycle. A vector is signalled when its enable bit rises while its status bit is 1, and a held message leaves when its vector is unmasked. -/
def Obligations.InterruptWordsClearEnableAndUnmask : Prop := ∀ (s : State) (v : Word), s.on = true →
  (∃ t, exec (.evIntStatClear v) s = .next t ∧ OnlyRegs [EV_INT_STAT] s t ∧
    ∀ i, (t.reg EV_INT_STAT).getLsbD i = ((s.reg EV_INT_STAT).getLsbD i && !v.getLsbD i && decide (i < 16) || (s.freshAt EV_INT_STAT).getLsbD i)) ∧
  (∀ q < 2,
    (∃ t, exec (.evMdExcClear q v) s = .next t ∧ OnlyRegs [EV_MD_EXC0 + 4 * q] s t ∧
      ∀ i, (t.reg (EV_MD_EXC0 + 4 * q)).getLsbD i = ((s.reg (EV_MD_EXC0 + 4 * q)).getLsbD i && !v.getLsbD i || (s.freshAt (EV_MD_EXC0 + 4 * q)).getLsbD i)) ∧
    (∃ t, exec (.evMdEvtClear q v) s = .next t ∧ OnlyRegs [EV_MD_EVT0 + 4 * q] s t ∧
      ∀ i, (t.reg (EV_MD_EVT0 + 4 * q)).getLsbD i = ((s.reg (EV_MD_EVT0 + 4 * q)).getLsbD i && !v.getLsbD i || (s.freshAt (EV_MD_EVT0 + 4 * q)).getLsbD i))) ∧
  ((∀ i < 16, (v &&& ~~~s.reg EV_INT_EN).getLsbD i = true → (s.reg EV_INT_STAT).getLsbD i = false) →
    exec (.evIntEnWrite v) s = .next (s.setReg EV_INT_EN (v &&& 0xFFFF))) ∧
  (∀ i < 16, v &&& ~~~s.reg EV_INT_EN = BitVec.ofNat 32 (2 ^ i) → (s.reg EV_INT_STAT).getLsbD i = true → s.flag (msixCtl (32 + i)) msixMask = false →
    exec (.evIntEnWrite v) s = .next ((s.setReg EV_INT_EN (v &&& 0xFFFF)).emit (.msix (32 + i)))) ∧
  (∀ n < 128, ∃ t, exec (.msixUnmask n) s = .next t ∧ t.rf (msixCtl n) msixMask = 0 ∧
    (s.flag (msixPba n) ⟨n % 32, 1⟩ = false → OnlyRegs [msixCtl n] s t) ∧
    (s.flag (msixPba n) ⟨n % 32, 1⟩ = true →
      t.rf (msixPba n) ⟨n % 32, 1⟩ = 0 ∧ t.out = .msix n :: s.out ∧ OnlyRegsInt [msixCtl n, msixPba n] s t))

/-- R15, R551: GLB_CNT_CLR.AV, without and with a violation in the same cycle, and the repeated 0x0101 entry. -/
def Obligations.ViolationsClearedAndLogged : Prop := ∀ s : State, s.on = true →
  (s.freshAt GLB_AV_STAT = 0 → s.freshAt GLB_AV_COUNT = 0 →
    ∃ t, exec .glbCntClrAv s = .next t ∧ t.reg GLB_AV_COUNT = 0 ∧ t.rf GLB_AV_STAT GLB_AV_STAT_VALID = 0 ∧
    t.rf GLB_AV_STAT GLB_AV_STAT_KIND = s.rf GLB_AV_STAT GLB_AV_STAT_KIND ∧ t.rf GLB_AV_STAT GLB_AV_STAT_SRC = s.rf GLB_AV_STAT GLB_AV_STAT_SRC ∧
    t = { s with regs := t.regs, cp := { s.cp with avSince := false } } ∧ ∀ o, o ≠ GLB_AV_COUNT → o ≠ GLB_AV_STAT → t.reg o = s.reg o) ∧
  (s.freshAt GLB_AV_STAT ≠ 0 →
    ∃ t, exec .glbCntClrAv s = .next t ∧ t.reg GLB_AV_COUNT = s.freshAt GLB_AV_COUNT ∧
      (∀ o ∈ [GLB_AV_STAT, GLB_AV_ADDR_LO, GLB_AV_ADDR_HI, GLB_AV_DATA], t.reg o = s.freshAt o) ∧ t.fresh = s.fresh ∧
      t = { s with regs := t.regs, log := t.log, cp := { s.cp with avSince := t.cp.avSince } } ∧
      ∀ o, o ∉ [GLB_AV_COUNT, GLB_AV_STAT, GLB_AV_ADDR_LO, GLB_AV_ADDR_HI, GLB_AV_DATA, PW_LOG_SEQ] → t.reg o = s.reg o) ∧
  (s.cp.avSince = false → exec .avLogRepeat s = .next s) ∧
  (s.cp.avSince = true → ∃ t, exec .avLogRepeat s = .next t ∧ t.cp.avSince = false ∧
    t.log.head? = some { atc := s.now, ms := s.uptimeMs, code := 0x0101, sev := 1, seq := (s.reg PW_LOG_SEQ).toNat
                         detail := [s.reg GLB_AV_STAT, s.reg GLB_AV_ADDR_LO, s.reg GLB_AV_ADDR_HI, s.reg GLB_AV_DATA, s.reg GLB_AV_COUNT] } ∧
    t = { s with regs := t.regs, log := t.log, cp := { s.cp with avSince := false } } ∧
    t.reg PW_LOG_SEQ = w32 ((s.reg PW_LOG_SEQ).toNat + 1) ∧ ∀ o, o ≠ PW_LOG_SEQ → t.reg o = s.reg o)

/-- R20 (reads), R397: shadow copies per requester. TM_PTP_SNAP_SEC_LO latches TM_PTP_SNAP_T32 too (R320). -/
def Obligations.PairReadsUseShadowCopies : Prop := ∀ (s : State) (r : Requester) (lo : Nat), s.on = true → isPair lo = true → 
  (∃ t, exec (.pairLoRead r lo) s = .next t ∧ t.out = .regRead r lo (s.readReg lo) :: s.out ∧ t = { s with out := t.out, shadow := t.shadow } ∧
    tblGet none t.shadow (pairKey r (lo + 4)) = some (s.readReg (lo + 4)) ∧
    ∀ k, k ≠ pairKey r (lo + 4) → (lo = TM_PTP_SNAP_SEC_LO → k ≠ pairKey r TM_PTP_SNAP_T32) → tblGet none t.shadow k = tblGet none s.shadow k) ∧
  (∀ w, tblGet none s.shadow (pairKey r (lo + 4)) = some w →
    ∃ t, exec (.pairHiRead r (lo + 4)) s = .next t ∧ t.out = .regRead r (lo + 4) w :: s.out ∧ t = { s with out := t.out, shadow := t.shadow } ∧
      tblGet none t.shadow (pairKey r (lo + 4)) = none ∧ ∀ k, k ≠ pairKey r (lo + 4) → tblGet none t.shadow k = tblGet none s.shadow k) ∧
  (tblGet none s.shadow (pairKey r (lo + 4)) = none →
    exec (.pairHiRead r (lo + 4)) s = .next { s with out := .regRead r (lo + 4) (s.readReg (lo + 4)) :: s.out }) ∧
  (lo ≠ TM_PTP_SNAP_SEC_LO → lo % 4 = 0 → ∃ t, exec (.mgmtRegisterRead lo) s = .next t ∧ t.out = .mgmtRead (be 4 (s.readReg lo).toNat) :: s.out ∧
    tblGet none t.shadow (pairKey .mgmt (lo + 4)) = some (s.readReg (lo + 4)) ∧ t = { s with out := t.out, shadow := t.shadow })

/-- R14, R15, R19, R20, R548: what a write by each requester does. -/
def Obligations.RegisterWritesStageOrAreRefused : Prop := ∀ (s : State) (v : Word), s.on = true →
  (∀ lo ∈ [TM_ATC_LOAD_LO, TM_TAI_ATC_LO],
    (∃ t, exec (.pairLoWrite .cp lo v) s = .next t ∧ t = { s with staged := t.staged } ∧ tblGet none t.staged (pairKey .cp lo) = some v ∧
      ∀ k, k ≠ pairKey .cp lo → tblGet none t.staged k = tblGet none s.staged k) ∧
    (∃ t, exec (.pairHiWrite .cp (lo + 4) v) s = .next t ∧ t = { s with staged := t.staged, regs := t.regs } ∧ t.reg (lo + 4) = v ∧
      t.reg lo = (tblGet none s.staged (pairKey .cp lo)).getD (s.reg lo) ∧ tblGet none t.staged (pairKey .cp lo) = none ∧
      (∀ k, k ≠ pairKey .cp lo → tblGet none t.staged k = tblGet none s.staged k) ∧ ∀ o, o ≠ lo → o ≠ lo + 4 → t.reg o = s.reg o)) ∧
  (∀ r : Requester, r ≠ .cp →
    (∀ off ∈ [GLB_ID, TM_ATC_LOAD_LO, TM_ATC_LOAD_HI],
      exec (.registerWrite r off 15 v) s = .next (s.violation (avSrc r) avHostWrite off v.toNat)) ∧
    exec (.registerWrite r 0x30 15 v) s = .next (s.violation (avSrc r) avUndecoded 0x30 v.toNat) ∧
    ∀ be < 15, 0 < be → exec (.registerWrite r GLB_ID be v) s = .next (s.violation (avSrc r) avPartial GLB_ID v.toNat)) ∧
  exec (.mgmtRegisterWrite GLB_ID v) s = .next (s.violation 2 avHostWrite GLB_ID v.toNat) ∧
  exec (.mgmtRegisterWrite EV_MD_EXC0 v) s = .next (s.setReg EV_MD_EXC0 ((s.reg EV_MD_EXC0 &&& ~~~v) ||| s.freshAt EV_MD_EXC0)) ∧
  (∀ b < 64, exec (.registerWrite .cp (WD_BM_DIP b) 15 v) s = .next (s.setReg (WD_BM_DIP b) v)) ∧
  ∀ r : Requester, exec (.registerWrite r EV_MD_EVT1 15 v) s = .next (s.setReg EV_MD_EVT1 ((s.reg EV_MD_EVT1 &&& ~~~v) ||| s.freshAt EV_MD_EVT1))

/-- R551: what an access violation does, whoever commits it. -/
def Obligations.ViolationIsCountedAndTheFirstRecorded : Prop := ∀ (s : State) (src kind addr data : Nat), src < 5 → kind < 9 → addr < 2 ^ 64 → data < 2 ^ 32 →
  let t := s.violation src kind addr data
  t.reg GLB_AV_COUNT = w32 (min (2 ^ 32 - 1) ((s.reg GLB_AV_COUNT).toNat + 1)) ∧ t.rfb EV_INT_STAT EV_INT_STAT_PEND 14 = true ∧
  t = { s with regs := t.regs, out := t.out, log := t.log, cp := t.cp, fresh := t.fresh } ∧
  (s.freshAt GLB_AV_STAT = 0 → t.freshAt GLB_AV_ADDR_LO = w32 addr ∧ t.freshAt GLB_AV_ADDR_HI = w32 (addr / 2 ^ 32) ∧ t.freshAt GLB_AV_DATA = w32 data) ∧
  (∀ o, ¬ intReg o → o ∉ [GLB_AV_COUNT, GLB_AV_STAT, GLB_AV_ADDR_LO, GLB_AV_ADDR_HI, GLB_AV_DATA, PW_LOG_SEQ] → t.reg o = s.reg o) ∧
  (s.flag GLB_AV_STAT GLB_AV_STAT_VALID = true →
    t.reg GLB_AV_STAT = s.reg GLB_AV_STAT ∧ t.reg64 GLB_AV_ADDR_LO = s.reg64 GLB_AV_ADDR_LO ∧ t.reg GLB_AV_DATA = s.reg GLB_AV_DATA ∧ t.log = s.log) ∧
  (s.flag GLB_AV_STAT GLB_AV_STAT_VALID = false →
    t.rf GLB_AV_STAT GLB_AV_STAT_VALID = 1 ∧ t.rf GLB_AV_STAT GLB_AV_STAT_SRC = src ∧ t.rf GLB_AV_STAT GLB_AV_STAT_KIND = kind ∧
    t.reg64 GLB_AV_ADDR_LO = addr ∧ (t.reg GLB_AV_DATA).toNat = data ∧
    (t.log.head?.map fun e => (e.code, e.seq)) = some (0x0101, (s.reg PW_LOG_SEQ).toNat))

/-- R15: the counter-clear registers of the blocks. A counter cleared keeps what it has counted in the same cycle. -/
def Obligations.CounterClearsZeroTheirCountersAlone : Prop := ∀ s : State, s.on = true →
  let zeroes := fun (i : Instr) (L : List Nat) => ∃ t, exec i s = .next t ∧ t = { s with regs := t.regs } ∧ ∀ o, t.reg o = if o ∈ L then s.freshAt o else s.reg o
  let sl := fun (o : Nat) => SL_OCT_CTLRETRY o :: (List.range 8).flatMap fun j =>
    [SL_LANE_CRCERR o j, SL_LANE_HDRERR o j, SL_LANE_LOCKLOSS o j, SL_LANE_PRBSERR o j, SL_LANE_OVR o j]
  let md := fun (k : Nat) => [MD_SL_GOVCNT k, MD_SL_SATCNT k, MD_SL_ECCCNT k, MD_SL_MARKCNT k, MD_CH_SL_CLIPS k, MD_CH_SL_SEEDS k, MD_CH_SL_WARM k]
  let ct := [ET_CT_TX_BLOCKS_LO, ET_CT_TX_BLOCKS_HI, ET_CT_RX_BLOCKS_LO, ET_CT_RX_BLOCKS_HI, ET_CT_NAK_TX, ET_CT_NAK_RX, ET_CT_RESENT, ET_CT_GONE, ET_CT_LOST,
    ET_CT_LATE, ET_CT_DUP, ET_CT_CRC, ET_CT_OFFGRID, ET_CT_STALE, ET_CT_MALFORMED, ET_CT_UNSENT, ET_CT_RESYNC, ET_CT_MISSING_MAX]
  let port := fun (n : Nat) => [ET_P_TX_FRAMES_LO n, ET_P_TX_FRAMES_LO n + 4, ET_P_TX_OCTETS_LO n, ET_P_TX_OCTETS_LO n + 4, ET_P_RX_FRAMES_LO n, ET_P_RX_FRAMES_LO n + 4,
    ET_P_RX_OCTETS_LO n, ET_P_RX_OCTETS_LO n + 4, ET_P_RX_FCS_ERR n, ET_P_RX_RUNT n, ET_P_RX_OVERSIZE n, ET_P_RX_FILTERED n, ET_P_RX_UNCLAIMED n, ET_P_RX_DROP_C0 n,
    ET_P_RX_DROP_C1 n, ET_P_RX_DROP_C2 n, ET_P_RX_DROP_C3 n, ET_P_RX_PAUSE n, ET_P_RX_PFC n, ET_P_RX_FC_IGN n, ET_P_TX_PFC n, ET_P_TX_DISC_C1 n, ET_P_C0_LATE n,
    ET_P_C0_OVERFLOW n, ET_P_C1_OVERRUN n, ET_P_TX_PREEMPT n, ET_P_RX_IP_DISC n]
  let dr := fun (n : Nat) => [DR_CH_CE n, DR_CH_UE n, DR_CH_FORCED n, DR_CH_PROMOTED n]
  zeroes .slCntClrAll ((List.range 64).flatMap sl) ∧ (∀ o < 64, zeroes (.slCntClrOctet o) (sl o)) ∧
  zeroes .ixCntClrAll [IX_OVERRUNS, IX_SHED_PASSES, IX_STAGE_DROPS, IX_SAT_ENTRIES, IX_LOST_INTEG] ∧ zeroes .ixCntClrSat ((List.range 32).map IX_TILE_SAT) ∧
  zeroes .wdCntClrAll [WD_DROP_SPEC, WD_SHED_PASSES, WD_CLIPS, WD_GAP_PKTS] ∧
  zeroes .sfCntClrAll ([SF_MSGS, SF_COALESCED, SF_SEL_CLIPS, SF_UB_DROPS, SF_UB_FRZ_IGN, SF_UB_CUT] ++ (List.range 16).map SF_TB_FIRES ++ (List.range 8).map SF_CU_FIRES) ∧
  zeroes .etCntClrAll (ct ++ (List.range 4).flatMap port) ∧ zeroes .etCntClrCt ct ∧
  (∀ m, zeroes (.etCntClrPorts m) (((List.range 4).filter (bit m)).flatMap port)) ∧
  zeroes .tmCntClrAll (TM_SWITCHES :: (List.range 6).map TM_SRC_DISQ) ∧
  zeroes .drCntClrAll (DR_C1_OVERRUN :: (List.range 16).flatMap dr) ∧ (∀ m, zeroes (.drCntClrCh m) (((List.range 16).filter (bit m)).flatMap dr)) ∧
  (∀ v : Word, zeroes (.dmCntClrWrite v) (((List.range 32).filter (bit v.toNat)).flatMap fun n => [DM_CH_DONE n, DM_CH_RETRIES n])) ∧
  zeroes .cpCntClrAll [CP_CMDS, CP_BUSY, CP_DUPS, CP_BADCRC, CP_DISCARDS, CP_EVICT, CP_SEC_FAILS] ∧
  zeroes .scCntClrAll [SC_FIRED, SC_LATE, SC_FULL, SC_CANCELLED, SC_FAILED] ∧
  zeroes .mlCntClrAll [ML_CRCERR, ML_RESENT, ML_LINKDOWN, ML_HB_MISS, ML_PROMOTIONS, ML_FENCES, ML_DUAL] ∧
  zeroes .pwCntClrAll [PW_DROOP_IO, PW_DROOP_C0, PW_DROOP_C1, PW_STRETCH_US, PW_THR_UP, PW_NEAR, PW_SHUTDOWNS, PW_RAIL_FAULTS] ∧
  (∀ k < 64, ∃ t, exec (.mdCntClrSlice k) s = .next t ∧ t = { s with regs := t.regs } ∧ t.rf (MD_SL_EVT k) MD_SL_EVT_COUNT = fget (s.freshAt (MD_SL_EVT k)) MD_SL_EVT_COUNT ∧
    (∀ f, MD_SL_EVT_COUNT.apart f → t.rf (MD_SL_EVT k) f = s.rf (MD_SL_EVT k) f) ∧ ∀ o, o ≠ MD_SL_EVT k → t.reg o = if o ∈ md k then s.freshAt o else s.reg o) ∧
  ∃ t, exec .mdCntClrAll s = .next t ∧ t = { s with regs := t.regs } ∧
    (∀ k < 64, t.rf (MD_SL_EVT k) MD_SL_EVT_COUNT = fget (s.freshAt (MD_SL_EVT k)) MD_SL_EVT_COUNT ∧ t.rf (MD_SL_CYC k) MD_SL_CYC_MAX = 0 ∧
      (∀ f, MD_SL_EVT_COUNT.apart f → t.rf (MD_SL_EVT k) f = s.rf (MD_SL_EVT k) f) ∧ ∀ f, MD_SL_CYC_MAX.apart f → t.rf (MD_SL_CYC k) f = s.rf (MD_SL_CYC k) f) ∧
    ∀ o, (∀ k < 64, o ≠ MD_SL_EVT k ∧ o ≠ MD_SL_CYC k) → t.reg o = if o ∈ (List.range 64).flatMap md then s.freshAt o else s.reg o

/-- R67 to R73, R95, R127: what a good block does to its lane, and to nothing else; a check block marks the samples of its frame, those released already among them. -/
def Obligations.BlocksEnterTheirLaneAlone : Prop := ∀ (s : State) (o j : Nat) (raw : List Byte), s.on = true → o < 64 → j < 8 →
  let l := s.lane o j
  let b := upright l.inv raw
  let others := fun (t : State) => t.sl = { s.sl with lanes := t.sl.lanes } ∧ ∀ o' j', o' < 64 → j' < 8 → (o', j') ≠ (o, j) → t.lane o' j' = s.lane o' j'
  let marked := fun (fail : Bool) (t : State) =>
    (t.lane o j).fifo = l.fifo.take (l.frameIdx - l.head) ++ (l.fifo.drop (l.frameIdx - l.head)).map (fun x => { x with crc := x.crc || fail, chk := true }) ∧
    (t.lane o j).rel = [] ∧ (t.lane o j).relOld = [] ∧ (∀ p τ, (p ≠ 8 * o + l.idx ∨ τ ∉ l.rel) → t.smp p τ = s.smp p τ) ∧
    (∀ (τ : Nat) (x : Smp), τ ∈ l.rel → s.smp (8 * o + l.idx) τ = some x → x.loss = false → t.smp (8 * o + l.idx) τ = some { x with crc := x.crc || fail, chk := true }) ∧
    (∀ (τ : Nat) (x : Smp), τ ∈ l.relOld → smpAt s.md.past (8 * o + l.idx) τ = some x → x.loss = false → smpAt t.md.past (8 * o + l.idx) τ = some { x with crc := x.crc || fail, chk := true })
  (s.locked o j = true → raw.length = 16 → headerBad l b = false → (l.hdr.filter id).length < 16 →
    (blockKind b = .data → ∃ t, exec (.dataBlockReceived o j raw) s = .next t ∧ t = { s with sl := t.sl } ∧ others t ∧
      (t.lane o j).fifo = l.fifo ++ (blockSamples l.fmt8 b).map (fun v => { v := v, crc := false, chk := false }) ∧ (t.lane o j).count = (l.count + 1) % 2 ^ 48 ∧ (t.lane o j).crc = crc16 l.crc b) ∧
    (blockKind b = .idle → ∃ t, exec (.idleBlockReceived o j raw) s = .next t ∧ t = { s with sl := t.sl } ∧ others t ∧
      (t.lane o j).fifo = l.fifo ∧ (t.lane o j).count = l.count ∧ (t.lane o j).crc = crc16 l.crc b) ∧
    (blockKind b = .check → beAt b 2 6 = l.frameCount → l.frameCount < 2 ^ 48 → l.frameErr = false → bit (beAt b 11 1) 0 = false →
      (s.oct o).step ≠ .dwell → (l.fails.filter id).length < 7 → l.part = false →
      (beAt b 8 2 = l.crc → ∃ t, exec (.checkBlockReceived o j raw) s = .next t ∧ t = { s with sl := t.sl, md := { s.md with store := t.md.store, past := t.md.past } } ∧ others t ∧
        (t.lane o j).clean = l.clean + 1 ∧ (t.lane o j).frameCount = l.count ∧ (t.lane o j).crc = 0xFFFF ∧ marked false t) ∧
      (beAt b 8 2 ≠ l.crc → ∃ t, exec (.checkBlockReceived o j raw) s = .next t ∧
        t = { s with sl := t.sl, regs := t.regs, fresh := t.fresh, md := { s.md with store := t.md.store, past := t.md.past } } ∧ others t ∧ (t.lane o j).clean = 0 ∧ t.reg (SL_LANE_CRCERR o j) = w32 (min (2 ^ 32 - 1) ((s.reg (SL_LANE_CRCERR o j)).toNat + 1)) ∧
        (∀ a, a ≠ SL_LANE_CRCERR o j → t.reg a = s.reg a) ∧ marked true t))) ∧
  (4096 ≤ l.clean → ∃ t, exec (.degradedClear o j) s = .next t ∧ t.rf (SL_LANE_STAT o j) SL_LANE_STAT_DEGRADED = 0 ∧ OnlyRegs [SL_LANE_STAT o j] s t)

/-- R75, R80, R93 to R95, R99. -/
def Obligations.LossOfLockSignalAndClock : Prop := ∀ (s : State) (o j : Nat) (lead : Int), s.on = true → o < 64 → j < 8 →
  let only := fun (t : State) => ∀ o' j', o' < 64 → j' < 8 → (o', j') ≠ (o, j) → t.lane o' j' = s.lane o' j' ∧ t.reg (SL_LANE_STAT o' j') = s.reg (SL_LANE_STAT o' j')
  let lost := fun (t : State) => t.locked o j = false ∧ (t.lane o j).fifo = [] ∧ (t.lane o j).head = (s.lane o j).head + (s.lane o j).fifo.length ∧
    (t.lane o j).wait = true ∧ t.reg (SL_LANE_LOCKLOSS o j) = w32 (min (2 ^ 32 - 1) ((s.reg (SL_LANE_LOCKLOSS o j)).toNat + 1)) ∧ only t ∧ t.sl.octs = s.sl.octs ∧
    ((s.lane o j).frameErr = true → t.reg (SL_LANE_CRCERR o j) = w32 (min (2 ^ 32 - 1) ((s.reg (SL_LANE_CRCERR o j)).toNat + 1))) ∧
    ((s.lane o j).frameErr = false → t.reg (SL_LANE_CRCERR o j) = s.reg (SL_LANE_CRCERR o j)) ∧
    (∀ p τ, (p ≠ 8 * o + (s.lane o j).idx ∨ τ ∉ (s.lane o j).rel) → t.smp p τ = s.smp p τ) ∧
    (∀ (τ : Nat) (x : Smp), τ ∈ (s.lane o j).rel → s.smp (8 * o + (s.lane o j).idx) τ = some x → x.loss = false → t.smp (8 * o + (s.lane o j).idx) τ = some { x with crc := true })
  let kept := fun (t : State) => { s with sl := t.sl, regs := t.regs, fresh := t.fresh, md := { s.md with store := t.md.store, past := t.md.past } }
  (s.locked o j = true → (s.lane o j).idx < 8 →
    (∃ t, exec (.blockLockLost o j) s = .next t ∧ lost t ∧ t = kept t ∧ t.inService o (s.lane o j).idx = false) ∧
    (∃ t, exec (.laneSlip o j lead) s = .next t ∧ lost t ∧ t.rf (SL_LANE_STAT o j) SL_LANE_STAT_SLIP = 1 ∧ t = { kept t with out := t.out, free := t.free } ∧
      (0 ≤ lead → lead < 65536 → t.rf (SL_LANE_STAT o j) SL_LANE_STAT_LEAD = lead.toNat ∧ t.free = s.free)) ∧
    (s.rxOff o = false → ∃ t, exec (.lossOfSignal o (some j)) s = .next t ∧ lost t ∧ t.rf (SL_LANE_STAT o j) SL_LANE_STAT_LOS = 1 ∧ t = kept t)) ∧
  (s.rxOff o = true → ∀ i ∈ [Instr.lossOfSignal o (some j), .lossOfSignal o none, .forwardedClockLost o, .forwardedClockLock o], exec i s = .next s) ∧
  (∃ t, exec (.lossOfSignalClear o (some j)) s = .next t ∧ t.rf (SL_LANE_STAT o j) SL_LANE_STAT_LOS = 0 ∧ OnlyRegs [SL_LANE_STAT o j] s t) ∧
  (∃ t, exec (.eqFreeze o j) s = .next t ∧ t.rf (SL_LANE_STAT o j) SL_LANE_STAT_EQ_FROZEN = 1 ∧ OnlyRegs [SL_LANE_STAT o j] s t) ∧
  (∃ t, exec (.eqResume o j) s = .next t ∧ t.rf (SL_LANE_STAT o j) SL_LANE_STAT_EQ_FROZEN = 0 ∧ OnlyRegs [SL_LANE_STAT o j] s t) ∧
  (s.rxOff o = false →
    (∀ i ∈ [Instr.forwardedClockLost o, .lossOfSignal o none], ∃ t, exec i s = .next t ∧ t.rf (SL_OCT_STAT o) SL_OCT_STAT_FCK_LOSS = 1 ∧
      t.rf (SL_OCT_STAT o) SL_OCT_STAT_FCK_LOST_SEEN = 1 ∧ (t.oct o).fck = false ∧ (∀ k < 8, t.locked o k = false) ∧
      t = { kept t with out := t.out } ∧ ∀ o' j', o' < 64 → j' < 8 → o' ≠ o → t.lane o' j' = s.lane o' j') ∧
    ∃ t, exec (.forwardedClockLock o) s = .next t ∧ t.rf (SL_OCT_STAT o) SL_OCT_STAT_FCK_LOSS = 0 ∧ (t.oct o).fck = true ∧
      (t.oct o).step = (if (s.oct o).step = .clock then .lanes else (s.oct o).step) ∧ t = { s with sl := t.sl, regs := t.regs } ∧ t.sl.lanes = s.sl.lanes ∧
      ∀ a, a ≠ SL_OCT_STAT o → t.reg a = s.reg a)

/-- R89 to R91. -/
def Obligations.LadderClimbsFailsAndRetries : Prop := ∀ (s : State) (o : Nat), s.on = true → o < 64 →
  let x := s.oct o
  let octet := fun (t : State) => t = { s with sl := t.sl, regs := t.regs, out := t.out, fresh := t.fresh, md := { s.md with store := t.md.store, past := t.md.past } } ∧ (∀ o' < 64, o' ≠ o → t.oct o' = s.oct o' ∧ t.reg (SL_OCT_STAT o') = s.reg (SL_OCT_STAT o')) ∧
    ∀ o' j', o' < 64 → j' < 8 → o' ≠ o → t.lane o' j' = s.lane o' j'
  let unlocked := fun (t : State) => ∀ j < 8, t.locked o j = false
  (s.flag (SL_OCT_CTL o) SL_OCT_CTL_RELADDER = true → ∃ t, exec (.ladderStart o) s = .next t ∧ octet t ∧ unlocked t ∧
    t.flag (SL_OCT_CTL o) SL_OCT_CTL_RELADDER = false ∧ t.octState o = ocL0Lock ∧ t.rung o = 0 ∧ (t.oct o).step = .lock0 ∧ (t.oct o).tries = 0 ∧
    (t.oct o).target = s.rf (SL_OCT_CTL o) SL_OCT_CTL_TARGET_RUNG ∧ ∀ j < 8, t.flag (SL_LANE_STAT o j) SL_LANE_STAT_EXCLUDED = false) ∧
  (x.step = .switching → x.goal < 4 → ∃ t, exec (.rungSwitch o) s = .next t ∧ octet t ∧ unlocked t ∧ t.rung o = x.goal ∧ (t.oct o).step = .clock ∧
    (t.oct o).fck = false ∧ ∀ j < 8, t.reg (SL_LANE_LOCKLOSS o j) = s.reg (SL_LANE_LOCKLOSS o j)) ∧
  (x.step = .dwell → (∀ j < 8, s.due o j = true → 4096 ≤ (s.lane o j).clean) →
    (x.goal < climbTo x → x.x = none → x.todo = [] → s.ctlAsleep o = false → x.waking = false → ∃ t, exec (.dwellPassed o) s = .next t ∧ octet t ∧ (t.oct o).r = x.goal ∧
      (t.oct o).goal = x.goal + 1 ∧ (t.oct o).step = .propose ∧ t.octState o = ocStep ∧ (t.oct o).seq = (x.seq + 1) % 8 ∧
      t.out.head? = some (.ctl o (ctlBlock x.seq 0x02 x.tag (be 1 (x.goal + 1))))) ∧
    (climbTo x ≤ x.goal → ∃ t, exec (.dwellPassed o) s = .next t ∧ octet t ∧
      (t.oct o).r = x.goal ∧ (t.oct o).step = .idle ∧ (t.oct o).first = true ∧ t.octState o = ocRunning)) ∧
  (x.step = .lock0 → x.fck = false → ∃ t, exec (.ladderStepTimeout o) s = .next t ∧ octet t ∧ unlocked t ∧ t.octState o = ocDown ∧ (t.oct o).step = .idle ∧
    (t.oct o).first = true ∧ (t.oct o).retry = true ∧ t.rung o = 0) ∧
  (x.step = .clock → x.back = false → ∃ t, exec (.ladderStepTimeout o) s = .next t ∧ octet t ∧
    (t.oct o).tries = x.tries + 1 ∧ (t.oct o).back = true ∧ (t.oct o).goal = x.r ∧ (t.oct o).step = .propose) ∧
  (s.octState o = ocDown → x.step = .idle → x.retry = true → ∃ t, exec (.octetDownRetry o) s = .next t ∧ octet t ∧ t.octState o = ocL0Lock ∧
    (t.oct o).step = .lock0 ∧ (t.oct o).tries = 0 ∧ ∀ j < 8, t.flag (SL_LANE_STAT o j) SL_LANE_STAT_EXCLUDED = false)

/-- R67, R84 to R88, R97, R99, R101. -/
def Obligations.ControlExchangesCompleteAndRepeat : Prop := ∀ (s : State) (o j : Nat) (raw : List Byte), s.on = true → o < 64 → j < 8 →
  let x := s.oct o
  let b := upright (s.lane o j).inv raw
  (s.locked o j = true → raw.length = 16 → blockKind b = .reply → headerBad (s.lane o j) b = false → ((s.lane o j).hdr.filter id).length < 16 →
    (beAt b 14 2 ≠ crc16 0xFFFF (b.take 14) → ∃ t, exec (.controlReplyReceived o j raw) s = .next t ∧ t = { s with sl := t.sl } ∧ t.sl.octs = s.sl.octs) ∧
    (∀ m, beAt b 14 2 = crc16 0xFFFF (b.take 14) → x.x = some m → x.poll = none → x.todo = [] → x.woken = false → m.tag = beAt b 3 1 → m.msg = beAt b 2 1 →
      beAt b 12 1 = 0 →
      (m.why = .prbs → ∃ t, exec (.controlReplyReceived o j raw) s = .next t ∧ (t.oct o).x = none ∧ (t.oct o).missed = x.missed ∧
        t.flag (SL_OCT_STAT o) SL_OCT_STAT_CTL_FAULT = false ∧ t = { s with sl := t.sl, regs := t.regs, fresh := t.fresh, md := { s.md with store := t.md.store, past := t.md.past } } ∧
        (s.flag (SL_OCT_PRBS o) SL_OCT_PRBS_CHK_EN = false → (∀ k < 8, (t.lane o k).prbs = none) ∧ t.md = s.md ∧ ∀ a, a ≠ SL_OCT_STAT o → t.reg a = s.reg a) ∧
        (s.flag (SL_OCT_PRBS o) SL_OCT_PRBS_CHK_EN = true → ∀ k < 8, s.rfb (SL_OCT_PRBS o) SL_OCT_PRBS_CHK_LANES k = true →
          (t.lane o k).prbs = some [] ∧ t.locked o k = false)) ∧
      (∀ c, m.why = .access c → ∃ e : State, e = { s with sl := e.sl, regs := e.regs } ∧ (e.oct o).x = none ∧ e.flag (SL_OCT_STAT o) SL_OCT_STAT_CTL_FAULT = false ∧
        (∀ a, a ≠ SL_OCT_STAT o → e.reg a = s.reg a) ∧
        exec (.controlReplyReceived o j raw) s = .next (e.answer 0x0205 c false (replyTo 0x0205 c stOk 0 0 [w32 (beAt b 6 4)]) true))) ∧
    (x.poll = some (beAt b 3 1) → beAt b 2 1 = 8 → beAt b 14 2 = crc16 0xFFFF (b.take 14) → ∃ t, exec (.controlReplyReceived o j raw) s = .next t ∧
      (t.oct o).poll = none ∧ (t.oct o).missed = 0 ∧ (t.oct o).x = x.x ∧ t.flag (SL_OCT_STAT o) SL_OCT_STAT_CTL_FAULT = false ∧
      t = { s with sl := t.sl, regs := t.regs } ∧ ∀ a, a ≠ SL_OCT_STAT o → t.reg a = s.reg a)) ∧
  (∀ m, x.x = some m → m.attempt < 4 → ∃ t, exec (.controlReplyTimeout o) s = .next t ∧ (t.oct o).x = some { m with attempt := m.attempt + 1 } ∧
    t.out = .ctl o (ctlBlock x.seq m.msg m.tag m.args) :: s.out ∧ t.reg (SL_OCT_CTLRETRY o) = w32 (min (2 ^ 32 - 1) ((s.reg (SL_OCT_CTLRETRY o)).toNat + 1)) ∧
    t = { s with sl := t.sl, regs := t.regs, out := t.out, fresh := t.fresh } ∧ ∀ a, a ≠ SL_OCT_CTLRETRY o → t.reg a = s.reg a) ∧
  (∀ m, x.x = some m → 4 ≤ m.attempt → m.why = .prbs → x.todo = [] → x.woken = false → ∃ t, exec (.controlReplyTimeout o) s = .next t ∧ (t.oct o).x = none ∧
    t.flag (SL_OCT_STAT o) SL_OCT_STAT_CTL_FAULT = true ∧ t = { s with sl := t.sl, regs := t.regs, fresh := t.fresh, md := { s.md with store := t.md.store, past := t.md.past } }) ∧
  (∃ t, exec .statusPoll s = .next t ∧ t = { s with sl := t.sl, out := t.out } ∧ t.sl.lanes = s.sl.lanes ∧
    ∀ p < 64, if s.octState p = ocRunning ∧ s.flag (SL_OCT_CTL p) SL_OCT_CTL_CTL_SLEEP = false then
      if (s.oct p).waking = true then t.oct p = { s.oct p with pollDue := true } else (t.oct p).poll = some (s.oct p).tag ∧ (t.oct p).tag = ((s.oct p).tag + 1) % 256 ∧ Out.ctl p (ctlBlock (s.oct p).seq 0x08 (s.oct p).tag []) ∈ t.out else t.oct p = s.oct p) ∧
  (x.poll.isSome = true → ∃ t, exec (.statusReplyTimeout o) s = .next t ∧ (t.oct o).poll = none ∧ (t.oct o).missed = x.missed + 1 ∧
    (2 ≤ x.missed → t.flag (SL_OCT_STAT o) SL_OCT_STAT_CTL_FAULT = true) ∧ (x.missed < 2 → t.regs = s.regs) ∧ t = { s with sl := t.sl, regs := t.regs }) ∧
  (∀ m ms, x.waking = true → x.pollDue = false → x.x = none → x.todo = m :: ms → ∃ t, exec (.controlWakeDone o) s = .next t ∧ (t.oct o).waking = false ∧ (t.oct o).todo = ms ∧
    (t.oct o).x = some { m with tag := x.tag, attempt := 1 } ∧ t.out = .ctl o (ctlBlock x.seq m.msg x.tag m.args) :: s.out ∧ t = { s with sl := t.sl, out := t.out })

/-- R74, R76 to R81, R94, R97. -/
def Obligations.LockReleaseRejoinAndPrbs : Prop := ∀ (s : State) (o j : Nat), s.on = true → o < 64 → j < 8 →
  (∀ (b7 : Bool) (lane seq count idx ofs : Nat) (lead : Int), s.locked o j = false → s.flag (SL_LANE_STAT o j) SL_LANE_STAT_LOS = false → (s.oct o).fck = true →
    s.due o j = true → s.octState o = ocL0Lock → (s.oct o).step = .lock0 → (s.lane o j).prbs = none → lane < 8 → s.relSet = false →
    ∃ t, exec (.blockLockGained o j b7 lane seq count idx lead ofs) s = .next t ∧ t.locked o j = true ∧ t.rfb (SL_OCT_MAP o) SL_OCT_MAP_POL j = !b7 ∧
      t.rf (SL_OCT_MAP o) ⟨3 * j, 3⟩ = lane ∧ (t.lane o j).idx = lane ∧ (t.lane o j).inv = !b7 ∧ (t.lane o j).count = count % 2 ^ 48 ∧ (t.lane o j).fifo = [] ∧
      ∀ o' j', o' < 64 → j' < 8 → (o', j') ≠ (o, j) → (t.lane o' j').fifo = (s.lane o' j').fifo) ∧
  (∀ leads : List (Nat × Int), s.relSet = false → (∀ k < 64, (s.oct k).first = true ∨ s.flag (SL_OCT_CTL k) SL_OCT_CTL_RX_SLEEP = true) →
    s.rf (SL_OCT_STAT o) SL_OCT_STAT_IN_SERVICE ≠ 0 →
    ∃ t, exec (.releasePointSet leads) s = .next t ∧ t.relSet = true ∧ ((∀ q ∈ leads, 0 ≤ q.2 ∧ q.2 ≤ 1600) → t.sl.lanes = s.sl.lanes) ∧
      (∀ lead, leads = [(8 * o + j, lead)] → s.locked o j = true → (s.lane o j).idx < 8 → lead < 0 ∨ 1600 < lead →
        t.inService o (s.lane o j).idx = false ∧ (t.lane o j).wait = true ∧ t.rf (SL_LANE_STAT o j) SL_LANE_STAT_SKEW_RANGE = 1 ∧
        (0 ≤ lead → lead < 65536 → t.rf (SL_LANE_STAT o j) SL_LANE_STAT_LEAD = lead.toNat))) ∧
  (s.relSet = false → s.running = false → exec .sampleRelease s = .next s) ∧
  (s.running = true → s.now < s.sl.next + (if s.relSet then s.latency else 0) → exec .sampleRelease s = .next s) ∧
  (s.running = true → s.sl.next + (if s.relSet then s.latency else 0) ≤ s.now → s.arrived s.sl.next = true →
    ∃ t, exec .sampleRelease s = .next t ∧ t.sl.next = s.sl.next + 1 ∧ t.md.w = s.sl.next + 1 ∧
      (∀ p < 512, tblGet none t.md.store (p * 131072 + s.sl.next % 131072) = some (s.released s.sl.next p)) ∧
      (s.relSet = false → ∀ p < 512, s.released s.sl.next p = { t := s.sl.next, v := 0, loss := true, crc := false, chk := false, ecc := false }) ∧
      ∀ k, (∀ p < 512, k ≠ p * 131072 + s.sl.next % 131072) → tblGet none t.md.store k = tblGet none s.md.store k) ∧
  (∀ i < 8, s.running = true → s.laneOf o i = some j → (s.lane o j).wait = true → s.mayServe o j = true → 64 ≤ (s.lane o j).clean → s.rejoinAt s.sl.next = s.sl.next →
    ∃ t, exec (.pathRejoin o i) s = .next t ∧ t.inService o i = true ∧ (t.lane o j).wait = false ∧ tblGet 0 (t.slice o).back i = s.sl.next + 1) ∧
  (∀ (bs last : List Bool), s.flag (SL_OCT_PRBS o) SL_OCT_PRBS_CHK_EN = true → s.rfb (SL_OCT_PRBS o) SL_OCT_PRBS_CHK_LANES j = true → last ≠ [] →
    (s.lane o j).prbs = some last →
    let q := prbsRun (s.rf (SL_OCT_PRBS o) SL_OCT_PRBS_PAT) last (bs.map (Bool.xor (s.lane o j).inv))
    ∃ t, exec (.prbsPatternReceived o j bs) s = .next t ∧ (t.lane o j).prbs = some q.1 ∧
      t.reg (SL_LANE_PRBSERR o j) = w32 (min (2 ^ 32 - 1) ((s.reg (SL_LANE_PRBSERR o j)).toNat + q.2)) ∧ t = { s with sl := t.sl, regs := t.regs, fresh := t.fresh } ∧
      ∀ a, a ≠ SL_LANE_PRBSERR o j → t.reg a = s.reg a)

/-- R66, R83, R92, R97, R99, R101. -/
def Obligations.LaneCommandsTakeEffect : Prop := ∀ (s : State) (c : Cmd),
  (Taken 0x0201 c s → c.payload.length = 3 → Fits 0 c s →
    (∀ o ∈ c.mask64 1, s.flag (SL_OCT_STAT o) SL_OCT_STAT_CTL_FAULT = false ∧ s.rxAsleep o = false ∧ s.laddering o = false) →
    ((∀ o ∈ c.mask64 1, carries (c.f 0 31 30) (s.flag (SL_OCT_CTL o) SL_OCT_CTL_FMT) s.time.rateN = true) →
      ∃ e, Answers (.laneLadder c) 0x0201 c s [] e ∧ e = { s.dequeue 0x0201 c with regs := e.regs } ∧
        (∀ o ∈ c.mask64 1, e.flag (SL_OCT_CTL o) SL_OCT_CTL_RELADDER = true ∧ e.rf (SL_OCT_CTL o) SL_OCT_CTL_TARGET_RUNG = c.f 0 31 30 ∧
          e.rf (SL_OCT_CTL o) SL_OCT_CTL_EXCLUDE_WEAK = c.f 0 29 29) ∧
        ∀ a, a ≠ CP_Q_STAT → (∀ o ∈ c.mask64 1, a ≠ SL_OCT_CTL o) → e.reg a = s.reg a) ∧
    (∀ o, (c.mask64 1).head? = some o → carries (c.f 0 31 30) (s.flag (SL_OCT_CTL o) SL_OCT_CTL_FMT) s.time.rateN = false →
      Refuses (.laneLadder c) 0x0201 c s stBudget 0 [0, w32 o])) ∧
  (Taken 0x0202 c s → c.payload.length = 3 → Fits 0 c s → bit (c.w 0).toNat 1 = false → bit (c.w 0).toNat 0 = false →
    (∀ o ∈ c.mask64 1, s.flag (SL_OCT_CTL o) SL_OCT_CTL_RX_SLEEP = false ∧ s.laddering o = false) →
    ∃ e, Answers (.laneSleep c) 0x0202 c s [] e ∧ e = { s.dequeue 0x0202 c with regs := e.regs, sl := e.sl } ∧ e.sl.lanes = s.sl.lanes ∧
      (∀ o ∈ c.mask64 1, e.flag (SL_OCT_CTL o) SL_OCT_CTL_CTL_SLEEP = false ∧ (s.ctlAsleep o = true → (e.oct o).waking = true)) ∧ ∀ a, a ≠ CP_Q_STAT → (∀ o ∈ c.mask64 1, a ≠ SL_OCT_CTL o) → e.reg a = s.reg a) ∧
  (Taken 0x0202 c s → c.payload.length = 3 → ∀ o ∈ c.mask64 1, bit (c.w 0).toNat 1 ≠ s.flag (SL_OCT_CTL o) SL_OCT_CTL_RX_SLEEP →
    s.flag (SL_OCT_STAT o) SL_OCT_STAT_CTL_FAULT = true → Refuses (.laneSleep c) 0x0202 c s stWrongState 0 []) ∧
  (let o := c.f 1 5 0
   Taken 0x0203 c s → c.payload.length = 2 → Fits 0 c s → s.flag (SL_OCT_STAT o) SL_OCT_STAT_CTL_FAULT = false → s.rxAsleep o = false →
    s.laddering o = false → ∃ e, Answers (.lanePrbs c) 0x0203 c s [] e ∧ e.reg (SL_OCT_PRBS o) = (c.w 0 &&& 0xF70000FF) ∧
      e = { s.dequeue 0x0203 c with regs := e.regs, sl := e.sl, out := e.out } ∧ ∀ o' < 64, o' ≠ o → e.oct o' = s.oct o' ∧ e.reg (SL_OCT_PRBS o') = s.reg (SL_OCT_PRBS o')) ∧
  (let o := c.f 0 5 0
   Taken 0x0204 c s → c.payload.length = 1 → Fits 10 c s →
    Answers (.laneStatus c) 0x0204 c s ([s.reg (SL_OCT_STAT o), s.reg (SL_OCT_MAP o)] ++ (List.range 8).map fun j => s.reg (SL_LANE_STAT o j)) (s.dequeue 0x0204 c)) ∧
  (let o := c.f 0 5 0
   Taken 0x0205 c s → c.payload.length = 3 → s.flag (SL_OCT_STAT o) SL_OCT_STAT_CTL_FAULT = false →
    ∃ e, exec (.adcAccess c) s = .next e ∧ e = { s.dequeue 0x0205 c with sl := e.sl, out := e.out } ∧ e.sl.lanes = s.sl.lanes ∧ (∀ o' < 64, o' ≠ o → e.oct o' = s.oct o') ∧
      ((s.oct o).x.isSome = true → ((e.oct o).todo.map fun m => m.why) = ((s.oct o).todo.map fun m => m.why) ++ [.access c])) ∧
  (Taken 0x0206 c s → c.payload.length = 0 → Fits 0 c s → s.integrating = false →
    ∃ e, Answers (.releaseSet c) 0x0206 c s [] e ∧ e.relSet = false ∧ e = { s.dequeue 0x0206 c with regs := e.regs, sl := e.sl } ∧ e.sl.lanes = s.sl.lanes ∧
      ∀ o j, o < 64 → j < 8 → (e.oct o).ofsSet = false ∧ e.flag (SL_LANE_STAT o j) SL_LANE_STAT_SKEW_RANGE = false)

/-- R107, R124, R126. -/
def Obligations.BundleFlowSlotMovesScalarsAndPc : Prop := ∀ (s : State) (k b : Nat), Issues k b s →
  slotX b = 0 → slotY b = 0 → slotC1 b = 0 → slotC2 b = 0 →
  let m := s.slice k
  let f := slotF b
  let d := bits f 17 14
  let imm := sext 14 (bits f 13 0)
  let gives := fun (m' : MdSlice) => exec (.bundleIssue ⟨k, .clean⟩) s = .next (s.setSlice k { m' with cyc := m.cyc + 1 })
  (m.loops = [] →
    (fOp f = 0x00 → gives { m with pc := (m.pc + 1) % 4096 }) ∧
    (fOp f = 0x09 → gives { m with pc := (m.pc + 1) % 4096, s := tblSet 0 m.s d (imm % 2 ^ 32).toNat }) ∧
    (fOp f = 0x0B → gives { m with pc := (m.pc + 1) % 4096, s := tblSet 0 m.s d ((m.sget d + imm) % 2 ^ 32).toNat }) ∧
    (fOp f = 0x0C → gives { m with pc := (m.pc + 1) % 4096, s := tblSet 0 m.s d ((m.sget (bits f 13 10) + m.sget (bits f 9 6)) % 2 ^ 32) }) ∧
    (fOp f = 0x0D → m.sget (bits f 9 6) < 2 ^ 32 →
      gives { m with pc := (m.pc + 1) % 4096, s := tblSet 0 m.s d (((m.sget (bits f 13 10) : Int) - m.sget (bits f 9 6)) % 2 ^ 32).toNat }) ∧
    (fOp f = 0x10 → gives { m with pc := (m.pc + 1) % 4096, s := tblSet 0 m.s d ((m.sget (bits f 13 10) ^^^ m.sget (bits f 9 6)) % 2 ^ 32) }) ∧
    (fOp f = 0x03 → gives { m with pc := bits f 11 0 }) ∧
    (fOp f = 0x04 → gives { m with pc := if m.sget d = 0 then bits f 11 0 else (m.pc + 1) % 4096 }) ∧
    (fOp f = 0x05 → gives { m with pc := if m.sget d = 0 then (m.pc + 1) % 4096 else bits f 11 0 }) ∧
    (fOp f = 0x06 → m.sget d < 2 ^ 32 → gives { m with pc := if 2 ^ 31 ≤ m.sget d then bits f 11 0 else (m.pc + 1) % 4096 }) ∧
    (fOp f = 0x07 → m.calls.length < 8 → gives { m with pc := bits f 11 0, calls := (m.pc + 1) % 4096 :: m.calls }) ∧
    (∀ r rs, fOp f = 0x08 → m.calls = r :: rs → gives { m with pc := r, calls := rs })) ∧
  (∀ l ls, fOp f = 0x00 → m.loops = l :: ls → l.last = m.pc → 1 < l.left → l.first < 4096 → gives { m with pc := l.first, loops := { l with left := l.left - 1 } :: ls })

/-- R107, R113, R114, R116. -/
def Obligations.BundleSlotsReadBeforeTheyWrite : Prop := ∀ (s : State) (k b : Nat), Issues k b s → slotF b = 0 → (s.slice k).loops = [] →
  let m := s.slice k
  let onward := fun (m' : MdSlice) => { m' with pc := (m.pc + 1) % 4096, cyc := m.cyc + 1 }
  let sum := fun (w : Nat) => List.zipWith (fun (x y : Int) => max (-(2 ^ 17)) (min (2 ^ 17 - 1) (x + y))) (m.vr (cA w)) (m.vr (cB w))
  (slotX b = 0 → slotY b = 0 → cOp (slotC1 b) = 0x0B → cOp (slotC2 b) = 0x0B → cM (slotC1 b) = 0 → cM (slotC2 b) = 0 → cD (slotC1 b) ≠ cD (slotC2 b) →
    exec (.bundleIssue ⟨k, .clean⟩) s = .next (s.setSlice k (onward ((m.setV (cD (slotC1 b)) (sum (slotC1 b))).setV (cD (slotC2 b)) (sum (slotC2 b)))))) ∧
  (slotX b = 0 → slotY b = 0 → slotC2 b = 0 → cOp (slotC1 b) = 0x02 →
    let new := List.zipWith (fun (g : Int × Bool) (p : Int) =>
      if g.2 then g else if 2 ^ 43 - 1 < g.1 + p then (2 ^ 43 - 1, true) else if g.1 + p < -(2 ^ 43) then (-(2 ^ 43), true) else (g.1 + p, false))
      (m.ar (cD (slotC1 b))) (List.zipWith (· * ·) (m.vr (cA (slotC1 b))) (m.vr (cB (slotC1 b))))
    let n := (((m.ar (cD (slotC1 b))).zip new).filter fun p => !p.1.2 && p.2.2).length
    ∃ t, exec (.bundleIssue ⟨k, .clean⟩) s = .next t ∧ (t.slice k).ar (cD (slotC1 b)) = new ∧ (∀ r < 8, r ≠ cD (slotC1 b) % 8 → (t.slice k).ar r = m.ar r) ∧
      (t.slice k).v = m.v ∧ t.reg (MD_SL_GOVCNT k) = w32 (min (2 ^ 32 - 1) ((s.reg (MD_SL_GOVCNT k)).toNat + n)) ∧
      (0 < n → t.flag (MD_SL_STAT k) MD_SL_STAT_GOV = true) ∧ (n = 0 → t.regs = s.regs) ∧ ∀ q < 64, q ≠ k → t.slice q = s.slice q) ∧
  (slotY b = 0 → slotC1 b = 0 → slotC2 b = 0 → mOp (slotX b) = 0x9 → mMode (slotX b) = 0 →
    let a := tblGet 0 m.i (mIdx (slotX b))
    let v := m.sget (mReg (slotX b))
    ∃ t, exec (.bundleIssue ⟨k, .clean⟩) s = .next t ∧ tblGet 0 (t.slice k).x (a % 262144) = v % 65536 ∧ tblGet 0 (t.slice k).x ((a + 1) % 262144) = v / 65536 % 65536 ∧
      (∀ x, x ≠ a % 262144 → x ≠ (a + 1) % 262144 → tblGet 0 (t.slice k).x x = tblGet 0 m.x x) ∧ (t.slice k).y = m.y ∧ t.regs = s.regs ∧
      ∀ q < 64, q ≠ k → t.slice q = s.slice q)

/-- R104, R124, R128, R132, R136. -/
def Obligations.ProgramEventsHaltAndSampleReads : Prop := ∀ (s : State) (k b : Nat), k < 64 →
  let m := s.slice k
  let only := slotY b = 0 ∧ slotC1 b = 0 ∧ slotC2 b = 0
  (Issues k b s → only → slotX b = 0 → fOp (slotF b) = 0x18 → ∃ t, exec (.bundleIssue ⟨k, .clean⟩) s = .next t ∧
    t.rf (MD_SL_EVT k) MD_SL_EVT_LAST = bits (slotF b) 15 0 ∧
    t.rf (MD_SL_EVT k) MD_SL_EVT_COUNT = min (2 ^ MD_SL_EVT_COUNT.w - 1) (s.rf (MD_SL_EVT k) MD_SL_EVT_COUNT + 1) ∧
    (t.reg (if k < 32 then EV_MD_EVT0 else EV_MD_EVT1)).getLsbD (k % 32) = true ∧ t.sliceState k = mdRunning ∧ (t.slice k).s = m.s ∧
    SameRegs [MD_SL_EVT k, if k < 32 then EV_MD_EVT0 else EV_MD_EVT1] s t) ∧
  (Issues k b s → slotX b = 0 → slotY b = 0 → fOp (slotF b) = 0x19 → ∃ t, exec (.bundleIssue ⟨k, .clean⟩) s = .next t ∧ t.sliceState k = mdHalted ∧
    t.rf (MD_SL_EXC k) MD_SL_EXC_CODE = 6 ∧ t.rf (MD_SL_EXC k) MD_SL_EXC_ADDR = m.pc % 2 ^ MD_SL_EXC_ADDR.w ∧
    (t.reg (if k < 32 then EV_MD_EXC0 else EV_MD_EXC1)).getLsbD (k % 32) = true ∧ (t.slice k).pc = m.pc ∧ (t.slice k).v = m.v ∧ (t.slice k).s = m.s ∧
    (m.waits = [] → SameRegs [MD_SL_EXC k, MD_SL_STAT k, if k < 32 then EV_MD_EXC0 else EV_MD_EXC1] s t) ∧ t.log = s.log) ∧
  (∀ e, Issues k b s → mOp (slotX b) = 0xA → (s.md.w : Int) ≤ s.vldsTime k (slotX b) + 127 →
    exec (.bundleIssue ⟨k, e⟩) s = .next (s.setSlice k { m with stall := true })) ∧
  (∀ e, Issues k b s → slotX b = 0 → mOp (slotY b) = 0xB → 65536 < m.portBytes + 2 * outLen m (slotY b) → exec (.bundleIssue ⟨k, e⟩) s = .next s) ∧
  (∀ n, 0 < n → Issues k b s → only → slotX b = 0 → slotF b = 0 → m.loops = [] → ∃ t, exec (.bundleIssue ⟨k, n, false, []⟩) s = .next t ∧
    t.reg (MD_SL_ECCCNT k) = w32 (min (2 ^ 32 - 1) ((s.reg (MD_SL_ECCCNT k)).toNat + n)) ∧ t.flag (MD_SL_STAT k) MD_SL_STAT_ECC_CORR = true ∧
    t.slice k = { m with pc := (m.pc + 1) % 4096, cyc := m.cyc + 1, sr := Nat.lor m.sr 4 } ∧ t.sliceState k = mdRunning ∧
    OnlyRegs [MD_SL_ECCCNT k, MD_SL_STAT k] { s with md := t.md } t) ∧
  (Issues k b s → slotX b = 0 → slotY b = 0 → ∃ t, exec (.bundleIssue ⟨k, 0, true, []⟩) s = .next t ∧ t.rf (MD_SL_EXC k) MD_SL_EXC_CODE = 4 ∧
    t.rf (MD_SL_EXC k) MD_SL_EXC_ADDR = m.pc % 2 ^ MD_SL_EXC_ADDR.w ∧ t.sliceState k ∈ [mdHalted, mdDead, mdIdle] ∧ (t.slice k).pc = m.pc ∧ (t.slice k).v = m.v) ∧
  (Issues k b (s.setSlice k { m with stall := false }) → m.stall = true → only → slotF b = 0 → m.loops = [] → mOp (slotX b) = 0xA → mMode (slotX b) = 0 →
    s.vldsTime k (slotX b) + 127 < s.md.w → 0 ≤ s.vldsTime k (slotX b) → s.held (s.vldsTime k (slotX b)) = true →
    ∃ t, exec (.vldsStallEnd ⟨k, .clean⟩) s = .next t ∧ (t.slice k).stall = false ∧ (t.slice k).pc = (m.pc + 1) % 4096 ∧
      (∀ (i : Nat) (x : Smp), i < 128 → s.smp (pathOf k (mAux (slotX b) / 32)) ((s.vldsTime k (slotX b)).toNat + i) = some x →
        ((t.slice k).vr (mReg (slotX b))).getD i 0 = (if x.ecc then 0 else x.v * 64)) ∧ t.regs = s.regs ∧ ∀ q < 64, q ≠ k → t.slice q = s.slice q)

/-- R132 to R134, R136, R137, R142, R144. -/
def Obligations.SlicesRestartSwapAndDeliver : Prop := ∀ (s : State) (k : Nat), s.on = true → k < 64 →
  let m := s.slice k
  let others := fun (t : State) => ∀ q < 64, q ≠ k → t.slice q = s.slice q ∧ t.reg (MD_SL_STAT q) = s.reg (MD_SL_STAT q)
  (∀ n, s.sliceState k = mdIdle → s.rf (MD_SL_EXC k) MD_SL_EXC_CODE ≠ 0 → s.rf (MD_SL_EXC k) MD_SL_EXC_CODE ≠ excHalt →
    s.flag (MD_SL_CTL k) MD_SL_CTL_AUTO_RESTART = true → s.running = true → s.coreStopped = false → s.programAt k (spectrumAt s.md.w) = n → s.loadable n = true → n < 17 →
    ∃ t, exec (.sliceAutoRestart k) s = .next t ∧ t.sliceState k = mdRunning ∧ (t.slice k).st = spectrumAt s.md.w ∧ (t.slice k).pc = (s.hdrOf n).entry ∧
      t.reg64 (MD_SL_ST_LO k) = spectrumAt s.md.w % 2 ^ 64 ∧ (t.slice k).v = [] ∧ (t.slice k).rst.head? = some s.time.cycles ∧
      fget (t.readReg (MD_SL_EXC k)) MD_SL_EXC_RESTARTS = min 15 (t.slice k).rst.length ∧ t.rf (MD_SL_CTL k) MD_SL_CTL_SLOT = n ∧ others t ∧
      t = { s with md := t.md, ch := t.ch, regs := t.regs, fresh := t.fresh }) ∧
  (∀ b n qs, s.sliceState k = mdSwapping → m.swap = (b, n) :: qs → s.awaits b = false → n < 17 → ∃ t, exec (.programSwapLoadDone k) s = .next t ∧ t.sliceState k = mdRunning ∧
    (t.slice k).st = b ∧ (t.slice k).pc = (s.hdrOf n).entry ∧ (t.slice k).swap = (qs.filter fun q => decide (b < q.1)) ∧ t.rf (MD_SL_CTL k) MD_SL_CTL_SLOT = n ∧ others t ∧
    t = { s with md := t.md, ch := t.ch, regs := t.regs, fresh := t.fresh }) ∧
  (∀ w ws, m.waits = w :: ws → w.path < 8 → s.coreStopped = false → (w.newest = 0 ∨ s.covered true (pathOf k w.path) (w.newest - 1) = true) →
    let fw := s.finalFlags k w
    let data := tblGet [] m.sent w.path ++ w.data
    let base := s.reg64 (MD_SL_RING_BASE_LO k)
    ∃ t, exec (.outComplete k) s = .next t ∧ (t.slice k).waits = ws.dropWhile (fun x => !x.last) ∧ others t ∧
      (bit fw 6 = true → t.flag (MD_PATH_STAT k w.path) MD_PATH_STAT_ARITH_SEEN = true) ∧
      (bit fw 5 = true → t.flag (MD_PATH_STAT k w.path) MD_PATH_STAT_STALE_SEEN = true) ∧
      (bit fw 4 = true → t.flag (MD_PATH_STAT k w.path) MD_PATH_STAT_DCONT_SEEN = true) ∧
      (w.ring = false → (∀ x ∈ ws, x.ring = false) → t.mem = s.mem) ∧
      (w.ring = true → t.reg (MD_SL_MARKCNT k) = s.reg (MD_SL_MARKCNT k)) ∧
      (w.ring = false → data.length = 4096 → w.st < m.fault → t.md.fills = s.md.fills) ∧
      (w.ring = false → data.length = 4096 → m.fault ≤ w.st → m.muted w.path w.st = true → t.md.fills = s.md.fills ++ [zeroFill (pathOf k w.path) w.st]) ∧
      (w.ring = false → data.length = 4096 → m.fault ≤ w.st → m.muted w.path w.st = false → ∃ x, t.md.fills = s.md.fills ++ [x] ∧ x.path = 8 * k + w.path ∧ x.st = w.st ∧
        x.data = (if fwLoss fw then List.replicate 4096 0 else data) ∧ x.loss = fwLoss fw ∧ x.crc = bit fw 1 ∧ x.warm = (bit fw 3 || bit fw 4)) ∧
      (w.ring = true → ws = [] → s.drIn base 1 = false → t.mem = s.mem) ∧
      (w.ring = true → ws = [] → s.drIn base (m.ringPos + w.data.length + 64) = true → ∃ at', (at' = base ∨ at' = base + m.ringPos) ∧ t.md.fills = s.md.fills ∧
        t.reg (MD_SL_RING_SEQ k) = w32 ((s.reg (MD_SL_RING_SEQ k)).toNat + 1) ∧ (∀ i < w.data.length, t.memByte (at' + 32 + i) = w.data.getD i 0) ∧
        ∀ a, a < at' ∨ at' + 32 + w.data.length + 31 ≤ a → t.memByte a = s.memByte a))

/-- R156, R157, R162 to R166. -/
def Obligations.ScaleEpochsAndCalibrationCopies : Prop := ∀ (s : State) (k : Nat), s.on = true → k < 64 →
  (∀ b, s.rf (MD_SL_CTL k) MD_SL_CTL_SLOT = stdProgram → s.sliceState k ∈ [mdRunning, mdSwapping] → tblGet 0 s.ch.epoch k ≠ 0 →
    s.epochDue k (s.slice k).st = some b → s.awaits b = false →
    ∃ t, exec (.scaleEpochBoundary k) s = .next t ∧ tblGet 0 t.ch.epoch k = b + 1 ∧ t.reg64 MD_CH_EPOCH_LO = b % 2 ^ 64 ∧
      t = { s with ch := t.ch, regs := t.regs, fresh := t.fresh } ∧
      (∀ j < 8, (t.scale (8 * k + j)).n = 0 ∧ (t.scale (8 * k + j)).sums = [] ∧ (t.scale (8 * k + j)).clips = [] ∧ (t.scale (8 * k + j)).opened = false ∧
        (t.scale (8 * k + j)).seeded = ((s.scale (8 * k + j)).seedNext || (s.scale (8 * k + j)).n == 0 || ((s.scale (8 * k + j)).seeded && !(s.scale (8 * k + j)).found)) ∧ (t.scale (8 * k + j)).seedNext = false ∧
        ∃ r ∈ t.ch.recs, r.path = 8 * k + j ∧ r.st = b - 8192 ∧ r.closing = true ∧ r.bytes = (t.scale (8 * k + j)).closing) ∧
      ∀ p < 512, p / 8 ≠ k → t.scale p = s.scale p) ∧
  (s.flag (MD_CH_SL_STAT k) MD_CH_SL_STAT_COPYING = true → ∃ t, exec (.calBankCopyDone k) s = .next t ∧
    t.flag (MD_CH_SL_STAT k) MD_CH_SL_STAT_COPYING = false ∧ t.calBank k = s.calBank k ∧
    (∀ j < 8, ∀ c < 4096, tblGet 0 (t.slice k).y (calAddr (!s.calBank k) j c) = tblGet 0 (s.slice k).y (calAddr (s.calBank k) j c) ∧
      tblGet 0 (t.slice k).y (calAddr (s.calBank k) j c) = tblGet 0 (s.slice k).y (calAddr (s.calBank k) j c)) ∧
    (t.slice k).x = (s.slice k).x ∧ t = { s with md := t.md, regs := t.regs } ∧ ∀ q < 64, q ≠ k → t.slice q = s.slice q) ∧
  (∀ set mask fs q, s.ch.fetch = (set, mask) :: fs → s.runningOp 0x0313 = some q → ∃ t, exec .chCalFetchDone s = .next t ∧ t.ch.fetch = fs ∧
    (∀ n < 64, bit mask n = true → ∀ i < 32768,
      tblGet 0 (t.slice n).y (calAddr (!s.calBank n) 0 0 + 2 * i) = tblGet 0 s.ch.cal (set * 2 ^ 21 + n * 32768 + i) % 65536) ∧
    (∀ n < 64, bit mask n = false → t.slice n = s.slice n) ∧ t.cp.running = s.cp.running.erase q) ∧
  (∀ set q, s.ch.store = some set → s.runningOp 0x0314 = some q → ∃ t, exec .chCalStoreDone s = .next t ∧ t.ch.store = none ∧ t.md = s.md ∧
    t.cp.running = s.cp.running.erase q ∧ ∀ i < 32768, tblGet 0 t.ch.cal (set * 2 ^ 21 + k * 32768 + i) =
      tblGet 0 (s.slice k).y (calAddr (s.calBank k) 0 0 + 2 * i) + 65536 * tblGet 0 (s.slice k).y (calAddr (s.calBank k) 0 0 + 2 * i + 1))

/-- R139, R140, R145, R155, R170. -/
def Obligations.MadderAndChannelCommandsTakeEffect : Prop := ∀ (s : State) (c : Cmd),
  (Taken 0x0301 c s → Fits 0 c s → 2 ≤ c.payload.length → c.payload.length ≤ 1002 → (c.w 1).toNat + 4 * (c.payload.length - 2) ≤ 2 ^ 21 →
    (s.progRuns (c.f 0 3 0) = true → Refuses (.mdProgStore c) 0x0301 c s stResourceBusy 0 []) ∧
    (s.progRuns (c.f 0 3 0) = false → c.f 0 31 31 = 0 → ∃ e, Answers (.mdProgStore c) 0x0301 c s [] e ∧ e = { s.dequeue 0x0301 c with md := e.md } ∧
      e.md = { s.md with acc := e.md.acc } ∧
      (∀ i < (wordsBE (c.payload.drop 2)).length, tblGet 0 e.md.acc (c.f 0 3 0 * 2 ^ 21 + (c.w 1).toNat + i) = (wordsBE (c.payload.drop 2)).getD i 0) ∧
      ∀ a, (a < c.f 0 3 0 * 2 ^ 21 + (c.w 1).toNat ∨ c.f 0 3 0 * 2 ^ 21 + (c.w 1).toNat + (wordsBE (c.payload.drop 2)).length ≤ a) →
        tblGet 0 e.md.acc a = tblGet 0 s.md.acc a)) ∧
  (Taken 0x0303 c s → Fits 17 c s → c.payload.length = 1 → ∃ ws, Answers (.mdSliceStatus c) 0x0303 c s ws (s.dequeue 0x0303 c) ∧ ws.length = 17 ∧
    ws.take 2 = [s.readReg (MD_SL_STAT (c.f 0 5 0)), s.readReg (MD_SL_EXC (c.f 0 5 0))]) ∧
  (Taken 0x0304 c s → Fits 0 c s → c.payload.length = 2 → s.coreStopped = false →
    (∀ k < 64, bit (c.q 0) k = true → s.sliceState k = mdHalted ∨ s.sliceState k = mdDead) →
    ((∀ k < 64, bit (c.q 0) k = true → s.loadBad (s.programAt k (spectrumAt s.md.w)) = none) →
      ∃ e, Answers (.mdSliceRestart c) 0x0304 c s [] e ∧ (∀ k < 64, bit (c.q 0) k = false → e.slice k = s.slice k ∧ e.sliceState k = s.sliceState k) ∧
        ∀ k < 64, bit (c.q 0) k = true → s.loadable (s.programAt k (spectrumAt s.md.w)) = true → e.sliceState k = mdRunning ∧ (e.slice k).st = spectrumAt s.md.w) ∧
    (∀ k b, k < 64 → bit (c.q 0) k = true → (∀ j < k, bit (c.q 0) j = true → s.loadBad (s.programAt j (spectrumAt s.md.w)) = none) →
      s.loadBad (s.programAt k (spectrumAt s.md.w)) = some b → b.status = stBudget → Refuses (.mdSliceRestart c) 0x0304 c s b.status b.word b.words)) ∧
  (Taken 0x0304 c s → c.payload.length = 2 → (∃ k < 64, bit (c.q 0) k = true ∧ s.sliceState k = mdRunning) → Refuses (.mdSliceRestart c) 0x0304 c s stWrongState 0 []) ∧
  (Taken 0x0305 c s → Fits 459 c s → c.payload.length = 0 → ∃ ws, Answers (.mdProgList c) 0x0305 c s ws (s.dequeue 0x0305 c) ∧ ws.length = 459 ∧
    ∀ n < 16, ws.getD (27 * n) 0 = if (s.prog n).valid then 1 else 0) ∧
  (Taken 0x0306 c s → Fits 0 c s → c.payload.length = 1 →
    (s.progInUse (c.f 0 3 0) = true → Refuses (.mdProgErase c) 0x0306 c s stResourceBusy 0 []) ∧
    (s.progInUse (c.f 0 3 0) = false → ∃ e, Answers (.mdProgErase c) 0x0306 c s [] e ∧ (e.prog (c.f 0 3 0)).valid = false ∧ (e.prog (c.f 0 3 0)).bytes = [] ∧
      e.rfb MD_STORE_STAT MD_STORE_STAT_VALID (c.f 0 3 0) = false ∧ (∀ n, n ≠ c.f 0 3 0 → e.prog n = s.prog n) ∧
      e = { s.dequeue 0x0306 c with md := e.md, regs := e.regs } ∧ ∀ a, a ≠ CP_Q_STAT → a ≠ MD_STORE_STAT → e.reg a = s.reg a)) ∧
  (Taken 0x0311 c s → Fits 0 c s → 3 ≤ c.payload.length → c.payload.length ≤ 1023 → c.f 1 11 0 + (c.payload.length - 2) ≤ 4096 →
    let k := c.f 0 8 3
    (s.calBusy k = true → Refuses (.chCalLoad c) 0x0311 c s stResourceBusy 0 []) ∧
    (s.calBusy k = false → ∃ e, Answers (.chCalLoad c) 0x0311 c s [] e ∧ e = { s.dequeue 0x0311 c with md := e.md } ∧ (∀ q < 64, q ≠ k → e.slice q = s.slice q) ∧
      (∀ i < c.payload.length - 2,
        tblGet 0 (e.slice k).y (calAddr (!s.calBank k) (c.f 0 2 0) (c.f 1 11 0 + i)) = bits (c.w (i + 2)).toNat 31 16 ∧
        tblGet 0 (e.slice k).y (calAddr (!s.calBank k) (c.f 0 2 0) (c.f 1 11 0 + i) + 1) = bits (c.w (i + 2)).toNat 15 0) ∧
      ∀ j < 8, ∀ ch < 4096, tblGet 0 (e.slice k).y (calAddr (s.calBank k) j ch) = tblGet 0 (s.slice k).y (calAddr (s.calBank k) j ch))) ∧
  (Taken 0x0313 c s → c.payload.length = 3 → s.cp.running.length < 8 → (∀ k < 64, bit (c.q 1) k = true → s.calBusy k = false) →
    ∃ e, Progresses (.chCalFetch c) 0x0313 c s [] e ∧ e.ch = { s.ch with fetch := s.ch.fetch ++ [(c.f 0 2 0, c.q 1)] } ∧ e.md = s.md) ∧
  (Taken 0x0314 c s → c.payload.length = 1 → s.cp.running.length < 8 → s.ch.store = none →
    ∃ e, Progresses (.chCalStore c) 0x0314 c s [] e ∧ e.ch = { s.ch with store := some (c.f 0 2 0) } ∧ e.md = s.md) ∧
  (Taken 0x0316 c s → Fits 296 c s → c.payload.length = 1 → ∃ ws, Answers (.chScaleRead c) 0x0316 c s ws (s.dequeue 0x0316 c) ∧ ws.length = 296 ∧
    ∀ i < 296, ws.getD i 0 = BitVec.ofNat 32 (beAt (s.scale (c.f 0 8 0)).closing (4 * i) 4))

/-- R394 to R397. -/
def Obligations.SlotsDoorbellsAndNoticeRings : Prop := ∀ (s : State) (r : Requester) (k off : Nat) (bs : List Byte), s.on = true → k < 5 →
  let barred := (k = 4 ∧ r = .bar0) ∨ s.slotBusy k = true
  let writes := fun (i : Instr) => i = .requestSlotWrite r k off bs ∨ (i = .mgmtSlotWrite off bs ∧ r = .mgmt ∧ k = 4)
  let rings := fun (i : Instr) => i = .mailboxDoorbell r k ∨ (i = .mgmtDoorbell ∧ r = .mgmt ∧ k = 4)
  (∀ i, writes i → ¬ barred → bs ≠ [] → off + bs.length ≤ 4116 → ∃ t, exec i s = .next t ∧
    t = { s with cp := { s.cp with buf := t.cp.buf, reqLen := t.cp.reqLen } } ∧
    (∀ j < bs.length, tblGet 0 t.cp.buf (requestSlot k + off + j) = bs.getD j 0) ∧
    (∀ a, (a < requestSlot k + off ∨ requestSlot k + off + bs.length ≤ a) → tblGet 0 t.cp.buf a = tblGet 0 s.cp.buf a) ∧
    tblGet 0 t.cp.reqLen k = max (tblGet 0 s.cp.reqLen k) (off + bs.length) ∧ ∀ j, j ≠ k → tblGet 0 t.cp.reqLen j = tblGet 0 s.cp.reqLen j) ∧
  (∀ i, writes i → barred → exec i s = .next (s.violation (avSrc r) avSlotBusy (requestSlot k + off) (leAt bs 0 4))) ∧
  (∀ i, writes i → ¬ barred → bs ≠ [] → 4116 ≤ off → exec i s = .next (s.violation (avSrc r) avUndecoded (requestSlot k + off) (leAt bs 0 4))) ∧
  (∀ i, rings i → barred → exec i s = .next (s.violation (avSrc r) avSlotBusy CP_MB_DB k)) ∧
  (∀ j, 5 ≤ j → j < 8 → exec (.mailboxDoorbell r j) s = .next (s.violation (avSrc r) avEncoding CP_MB_DB j)) ∧
  (∀ i, rings i → ¬ barred → s.cp.serving = false → s.cp.recovery = false → s.lc.handoff = none → ∃ t, exec i s = .next t ∧ t.slotBusy k = true ∧
    t = { s with regs := t.regs, cp := { s.cp with held := s.cp.held ++ [⟨.slot k, s.slotPacket k⟩] } } ∧ ∀ o, o ≠ CP_MB_STAT → t.reg o = s.reg o) ∧
  (∀ mask, ∃ t, exec (.mailboxReplyRelease mask) s = .next t ∧ t = { s with regs := t.regs, cp := { s.cp with reqLen := t.cp.reqLen } } ∧
    (∀ o, o ≠ CP_MB_STAT → t.reg o = s.reg o) ∧ ∀ j < 5,
      if bit mask j ∧ s.rfb CP_MB_STAT CP_MB_STAT_REPLY j ∧ bit (fget (s.freshAt CP_MB_STAT) CP_MB_STAT_REPLY) j = false then t.slotBusy j = false ∧ t.rfb CP_MB_STAT CP_MB_STAT_REPLY j = false ∧ tblGet 0 t.cp.reqLen j = 0
      else t.slotBusy j = s.slotBusy j ∧ t.rfb CP_MB_STAT CP_MB_STAT_REPLY j = s.rfb CP_MB_STAT CP_MB_STAT_REPLY j ∧
        tblGet 0 t.cp.reqLen j = tblGet 0 s.cp.reqLen j) ∧
  (∀ (mgmt : Bool) (v : Word), s.cp.heldH = [] → s.cp.heldM = [] → ∃ t, exec (.noticeRingReadAdvance mgmt v) s = .next t ∧
    OnlyRegs [CP_MB_STAT, CP_NT_H_RD, CP_NT_M_RD] s t ∧
    (if mgmt then t.rf CP_NT_M_RD CP_NT_M_RD_RD = v.toNat % 2 ^ CP_NT_M_RD_RD.w ∧ t.reg CP_NT_H_RD = s.reg CP_NT_H_RD
     else t.rf CP_NT_H_RD CP_NT_H_RD_RD = v.toNat % 2 ^ CP_NT_H_RD_RD.w ∧ t.reg CP_NT_M_RD = s.reg CP_NT_M_RD)) ∧
  (∀ (v : Word) (n : Reply), s.cp.heldH = [n] → s.cp.heldM = [] → (s.rf CP_NT_WR CP_NT_WR_H_WR + 1) % 16 ≠ v.toNat % 16 →
    ∃ t, exec (.noticeRingReadAdvance false v) s = .next t ∧ t.cp.heldH = [] ∧ t.rf CP_NT_WR CP_NT_WR_H_WR = (s.rf CP_NT_WR CP_NT_WR_H_WR + 1) % 16 ∧
      t.flag CP_MB_STAT CP_MB_STAT_NOTE_HELD = false ∧
      ∀ j < n.bytes.length, tblGet 0 t.cp.buf (hostEntry (s.rf CP_NT_WR CP_NT_WR_H_WR) + j) = n.bytes.getD j 0) ∧
  (∀ code, exec (.mgmtUnknownCode code) s = .next (if 1 ≤ code ∧ code ≤ 5 then s else { s with out := .mgmtNack :: s.out }))

/-- R401 checks 1 to 7, R402, R404, R407. -/
def Obligations.PacketsAreCheckedInOrder : Prop := ∀ (s : State) (r : Requester) (k : Nat), s.on = true → k < 5 → ¬ (k = 4 ∧ r = .bar0) → s.slotBusy k = false →
  s.cp.serving = true → s.cp.recovery = false →
  let p := s.slotPacket k
  let op := beAt p 4 2
  let c := cmdOf (.slot k) p (beAt p 6 2)
  let replied := fun (a : Reply) (cnt : List Nat) => ∃ t, exec (.mailboxDoorbell r k) s = .next t ∧ InSlot k a t ∧ t.slotBusy k = true ∧
    t = { s with regs := t.regs, fresh := t.fresh, out := t.out, cp := { s.cp with buf := t.cp.buf } } ∧ SameRegs (CP_MB_STAT :: cnt) s t ∧
    ∀ o ∈ cnt, t.reg o = w32 (min (2 ^ 32 - 1) ((s.reg o).toNat + 1))
  let queued := fun (t : State) => exec (.mailboxDoorbell r k) s = .next t ∧ t.cp.queue = s.cp.queue ++ [⟨op, c⟩] ∧ t.slotBusy k = true ∧
    t.reg CP_CMDS = w32 (min (2 ^ 32 - 1) ((s.reg CP_CMDS).toNat + 1)) ∧
    t = { s with regs := t.regs, fresh := t.fresh, cp := { s.cp with queue := t.cp.queue, sources := t.cp.sources } } ∧
    ∀ o, o ∉ [CP_MB_STAT, CP_CMDS, CP_Q_STAT] → t.reg o = s.reg o
  let inFlight := s.inFlight fun q => q.cmd.source == c.source && q.cmd.seq == c.seq && !isQuery q.op q.cmd
  let ahead := fun (x : SourceSt) => 1 ≤ (c.seq - x.last).toNat ∧ (c.seq - x.last).toNat ≤ 2 ^ 31 - 1
  let uncached := fun (x : SourceSt) => x.cache.find? (fun e => e.seq == c.seq) = none
  (headerOk p = false → ∃ t, exec (.mailboxDoorbell r k) s = .next t ∧ t.slotBusy k = false ∧ tblGet 0 t.cp.reqLen k = 0 ∧
    t.rf CP_MB_STAT CP_MB_STAT_REPLY = s.rf CP_MB_STAT CP_MB_STAT_REPLY ∧ t.reg CP_DISCARDS = w32 (min (2 ^ 32 - 1) ((s.reg CP_DISCARDS).toNat + 1)) ∧
    t = { s with regs := t.regs, fresh := t.fresh, cp := { s.cp with reqLen := t.cp.reqLen } } ∧ ∀ o, o ∉ [CP_MB_STAT, CP_DISCARDS] → t.reg o = s.reg o) ∧
  (headerOk p = true →
    (crcOk p = false → replied { replyTo op c stBadCrc 0 0 [] with extra := beAt p 3 1 / 16 } [CP_BADCRC]) ∧
    (crcOk p = true → lengthOk p = false → replied (replyTo op c stBadLength 0 (lengthWord p) []) []) ∧
    (crcOk p = true → lengthOk p = true → (c.relayed = true ∨ c.source = 0) → replied (replyTo op c stBadParam 0 0 []) []) ∧
    (crcOk p = true → lengthOk p = true → c.relayed = false → c.source ≠ 0 →
      (isQuery op c = true → s.queueRoom (.slot k) c.source = true → ∃ t, queued t ∧ t.cp.sources = s.cp.sources) ∧
      (isQuery op c = true → s.queueRoom (.slot k) c.source = false → ∃ t, exec (.mailboxDoorbell r k) s = .next t ∧
        InSlot k (replyTo op c stBusy 0 0 [Config.retryDelay s.free]) t ∧ t.free = s.free + 1 ∧ t.cp.queue = s.cp.queue ∧ t.cp.sources = s.cp.sources ∧
        t.reg CP_BUSY = w32 (min (2 ^ 32 - 1) ((s.reg CP_BUSY).toNat + 1))) ∧
      (isQuery op c = false →
        (inFlight = true → replied (replyTo op c stInProgress 0 0 []) []) ∧
        (inFlight = false →
          (∀ x e, s.source c.source = some x → x.cache.find? (fun e => e.seq == c.seq) = some e →
            (∀ a, e.crc = c.crc → e.reply = some a → replied a []) ∧ (e.crc ≠ c.crc → replied (replyTo op c stDuplicate 0 0 []) [CP_DUPS])) ∧
          (∀ x, s.source c.source = some x → uncached x → ¬ ahead x → replied (replyTo op c stDuplicate 0 0 []) [CP_DUPS]) ∧
          ((∀ x, s.source c.source = some x → uncached x ∧ ahead x) → ((s.source c.source).isSome = true ∨ s.cp.sources.length < 32) →
            ((opInfo op).isNone = true → ∃ t, exec (.mailboxDoorbell r k) s = .next t ∧ InSlot k (replyTo op c stUnknownOpcode 0 0 []) t ∧
              t.cp.queue = s.cp.queue ∧ (t.source c.source).map (·.last) = some c.seq ∧ SameRegs [CP_MB_STAT, CP_Q_STAT] s t) ∧
            ((opInfo op).isSome = true → s.queueRoom (.slot k) c.source = true →
              ∃ t, queued t ∧ (t.source c.source).map (·.last) = some c.seq ∧ t.cp.sources.tail = s.cp.sources.filter (fun y => y.id != c.source)) ∧
            ((opInfo op).isSome = true → s.queueRoom (.slot k) c.source = false → ∃ t, exec (.mailboxDoorbell r k) s = .next t ∧
              InSlot k (replyTo op c stBusy 0 0 [Config.retryDelay s.free]) t ∧ t.free = s.free + 1 ∧ t.cp.queue = s.cp.queue ∧ t.cp.sources = s.cp.sources ∧
              t.reg CP_BUSY = w32 (min (2 ^ 32 - 1) ((s.reg CP_BUSY).toNat + 1))))))))

/-- R390, R392, R393, R397, R424, R546. -/
def Obligations.DatagramsBar2ResetsAndPcie : Prop := ∀ (s : State) (n o : Nat) (bs : List Byte), s.on = true →
  (∀ f rest, n < 4 → (s.port n).rx.filter isPelusk = f :: rest →
    let p := (datagram n f).2
    let op := beAt p 4 2
    let c := cmdOf (datagram n f).1 p (beAt p 6 2)
    let taken := s.cp.serving = true ∨ s.lc.handoff.isSome = true
    (taken → s.cp.recovery = false → headerOk p = false → ∃ t, exec (.peluskDatagramReceived n) s = .next t ∧
      (t.port n).rx = (s.port n).rx.erase f ∧ t.reg CP_DISCARDS = w32 (min (2 ^ 32 - 1) ((s.reg CP_DISCARDS).toNat + 1)) ∧
      t = { s with et := t.et, regs := t.regs, fresh := t.fresh } ∧ ∀ a, a ≠ CP_DISCARDS → t.reg a = s.reg a) ∧
    (taken → s.cp.recovery = false → headerOk p = true → crcOk p = true → lengthOk p = true → c.relayed = false → c.source ≠ 0 →
      isQuery op c = true → s.queueRoom (datagram n f).1 c.source = true → ∃ t, exec (.peluskDatagramReceived n) s = .next t ∧
        (t.port n).rx = (s.port n).rx.erase f ∧ t.cp.queue = s.cp.queue ++ [⟨op, c⟩] ∧ t = { s with et := t.et, regs := t.regs, fresh := t.fresh, cp := { s.cp with queue := t.cp.queue } }) ∧
    (¬ taken → s.cp.recovery = false → s.cp.held = [] → exec (.peluskDatagramReceived n) s =
      .next { s with cp := { s.cp with held := [⟨(datagram n f).1, p⟩] } })) ∧
  (∀ m,
    let q := (o % 4 + min 4128 m + 3) / 4
    (∀ i < q, isPair (o / 4 * 4 + 4 * i) = false ∧ tblGet none s.shadow (pairKey .mgmt (o / 4 * 4 + 4 * i)) = none) →
    exec (.mgmtBlockRead o m) s =
      .next (s.emit (.mgmtRead (slice (wordsLE ((List.range q).map fun i => s.readReg (o / 4 * 4 + 4 * i))) (o % 4) (min 4128 m))))) ∧
  (∀ m found,
    let a := s.reg64 CP_AP_BASE_LO + o
    (s.bar2Ok o m = false → exec (.bar2Read o ⟨m, found⟩) s = .next ((s.violation 3 avAddress a 0).emit .bar2Unsupported)) ∧
    (s.bar2Ok o m = true → (∀ k ∈ found, k = 0) → s.poisoned a m = false → exec (.bar2Read o ⟨m, found⟩) s = .next { s with out := .bar2 (s.memRead a m) false :: s.out }) ∧
    (s.bar2Ok o m = true → 2 ∈ found.take (codewords a m).length → ∃ t, exec (.bar2Read o ⟨m, found⟩) s = .next t ∧ t.out.head? = some (.bar2 (s.memRead a m) true) ∧
      (∀ i < (codewords a m).length, found.getD i 0 = 2 → tblGet false t.dr.poison ((codewords a m).getD i 0) = true) ∧
      t.flag DR_STAT DR_STAT_UE_SEEN = true ∧ t.mem = s.mem ∧ t.events = s.events ∧ t.md = s.md)) ∧
  (let a := s.reg64 CP_AP_BASE_LO + o
   (s.bar2Ok o bs.length = false → exec (.bar2Write o bs) s = .next ((s.violation 3 avAddress a 0).emit .bar2Unsupported)) ∧
   (s.bar2Ok o bs.length = true → s.dmProtected a bs.length = true → exec (.bar2Write o bs) s = .next (s.violation 3 avAddress a 0)) ∧
   (s.bar2Ok o bs.length = true → s.dmProtected a bs.length = false → (codewords a bs.length).all (fun w => !tblGet false s.dr.poison w) = true →
     ∃ t, exec (.bar2Write o bs) s = .next t ∧ (∀ j < bs.length, t.memByte (a + j) = bs.getD j 0) ∧
       (∀ b, (b < a ∨ a + bs.length ≤ b) → t.memByte b = s.memByte b) ∧ t = { s with mem := t.mem, dr := { s.dr with poison := t.dr.poison } })) ∧
  (∀ x ∈ [(Instr.functionLevelReset, GLB_RST_STAT_FLR, s.cp.pcieUp), (.pePerstAssert, GLB_RST_STAT_PERST, false)], (x.2.2 = false → s.cp.pcieUp = true ∨ x.2.1 = GLB_RST_STAT_FLR) →
    ∃ t, exec x.1 s = .next t ∧
    (∀ k < 4, t.slotBusy k = false ∧ t.rfb CP_MB_STAT CP_MB_STAT_REPLY k = false ∧ tblGet 0 t.cp.reqLen k = 0) ∧ t.slotBusy 4 = s.slotBusy 4 ∧
    t.rf CP_NT_H_RD CP_NT_H_RD_RD = s.rf CP_NT_WR CP_NT_WR_H_WR % 2 ^ CP_NT_H_RD_RD.w ∧ t.reg CP_NT_WR = s.reg CP_NT_WR ∧ t.cp.heldH = [] ∧ t.cp.heldM = s.cp.heldM ∧
    (∀ m < 32, s.dmActive m = true → (t.dmc m).halt.map (·.code) = some dmAborted) ∧ t.events = s.events ∧ t.mem = s.mem ∧ t.et = s.et ∧ t.md = s.md ∧
    t.log = s.log ∧ t.cp.pcieUp = x.2.2 ∧ t.rf GLB_RST_STAT x.2.1 = min (2 ^ x.2.1.w - 1) (s.rf GLB_RST_STAT x.2.1 + 1) ∧
    ∀ a, a ∉ [CP_MB_STAT, CP_NT_H_RD, GLB_RST_STAT] → t.reg a = s.reg a) ∧
  exec .pcieLinkLoss s = .next s ∧ (s.cp.pcieUp = false → exec .pePerstAssert s = .next s) ∧
  exec .pePerstRelease s = .next { s with cp := { s.cp with pcieUp := true } }

/-- R392, R406, R411, R413, R415. -/
def Obligations.SystemAndProfileCommandsTakeEffect : Prop := ∀ (s : State) (c : Cmd),
  (Taken 0x0101 c s → c.payload = [] → Fits 5 c s → Answers (.sysInfo c) 0x0101 c s [(s.dequeue 0x0101 c).reg CP_SYS_STAT, w32 s.activeSlot.fwVersion,
    w32 (s.rf CP_FW_STAT CP_FW_STAT_ACTIVE_SLOT), w32 s.lc.state, w32 ((s.time.cycles - s.cp.resetAt) / 2000000000)] (s.dequeue 0x0101 c)) ∧
  (Taken 0x0103 c s → c.payload = [] → Fits 0 c s → (s.dequeue 0x0103 c).sourceBusy c.source = false → ∃ e, Answers (.sysSession c) 0x0103 c s [] e ∧
    e.source c.source = none ∧ (∀ id, id ≠ c.source → e.source id = s.source id) ∧
    e = { s with regs := e.regs, cp := { (s.dequeue 0x0103 c).cp with sources := e.cp.sources } } ∧ ∀ o, o ≠ CP_Q_STAT → e.reg o = s.reg o) ∧
  (Taken 0x0105 c s → c.payload.length = 2 →
    (c.q 0 % 2 ^ 20 = 0 → c.q 0 < s.drSize → Fits 0 c s → Answers (.sysAperture c) 0x0105 c s [] ((s.dequeue 0x0105 c).setReg64 CP_AP_BASE_LO (c.q 0))) ∧
    ((c.q 0 % 2 ^ 20 ≠ 0 ∨ s.drSize ≤ c.q 0) → Refuses (.sysAperture c) 0x0105 c s stBadParam 0 [])) ∧
  (Taken 0x0D01 c s → c.payload.length = 1 → Fits (1 + 8 * min 127 (s.events.length - (c.w 0).toNat)) c s → Answers (.scList c) 0x0D01 c s
    (w32 s.events.length :: packWordsBE ((((firingOrder s.events).drop (c.w 0).toNat).take 127).flatMap Event.entry)) (s.dequeue 0x0D01 c)) ∧
  (∀ x, Taken 0x0D02 c s → c.payload.length = 1 → s.event (c.f 0 15 0) = some x →
    (x.committed = false → (s.running = false ∨ s.now + s.lead x.op < x.f) → Fits 0 c s → ∃ e, Answers (.scCancel c) 0x0D02 c s [] e ∧
      e.events = s.events.filter (fun y => y.handle != c.f 0 15 0) ∧ e.reg SC_CANCELLED = w32 (min (2 ^ 32 - 1) ((s.reg SC_CANCELLED).toNat + 1)) ∧
      e.rf SC_STAT SC_STAT_COUNT = e.events.length % 2 ^ SC_STAT_COUNT.w ∧ e.mem = s.mem ∧ e.md = s.md ∧ e.log = s.log) ∧
    ((x.committed = true ∨ (s.running = true ∧ x.f ≤ s.now + s.lead x.op)) → Refuses (.scCancel c) 0x0D02 c s stWrongState 0 [])) ∧
  (Taken 0x0D03 c s → chunkBad (2 ^ 21) c = none → c.f 0 31 31 = 0 → s.activating (c.f 0 1 0) = false → Fits 0 c s → Answers (.profStore c) 0x0D03 c s []
    { (s.dequeue 0x0D03 c) with cp := { (s.dequeue 0x0D03 c).cp with profAcc := tblSetRun 0 s.cp.profAcc (c.f 0 1 0 * 2 ^ 21 + (c.w 1).toNat) (chunkBytes c) } }) ∧
  (Taken 0x0D05 c s → c.payload = [] → Fits 104 c s → Answers (.profList c) 0x0D05 c s ((List.range 4).flatMap s.profWords) (s.dequeue 0x0D05 c)) ∧
  (Taken 0x0104 c s → c.transport ≠ .script → Refuses (.sysRegWrite c) 0x0104 c s stNotPermitted 0 []) ∧
  (∀ off v, Taken 0x0104 c s → c.transport = .script → s.cp.scriptRun = true → s.cp.scriptOf = none → c.payload = [1, off, v] → (profReg off.toNat).isSome = true →
    (s.dequeue 0x0104 c).regWrong c = none → ((s.dequeue 0x0104 c).regWriteAll c).regOver c = none →
    let d := s.dequeue 0x0104 c
    let o := off.toNat
    let put := fun (a : Nat) (w : Word) (x : RegDesc) =>
      let p := profFields (s.reg a) w (x.fields.filter (·.profile))
      ((crossKeep x.base (s.reg a) p.1).1, p.2 || (crossKeep x.base (s.reg a) p.1).2)
    ∃ e, Answers (.sysRegWrite c) 0x0104 c s [] e ∧
      (isPair o = true → tblGet none e.staged (pairKey .cp o) = some v ∧ e = { d with staged := e.staged }) ∧
      ∀ x ∈ (profReg o).toList, isPair o = false → (put o v x).2 = false → o ≠ TM_ATC_CTL → o ≠ CP_Q_STAT →
        e.reg o = (put o v x).1 ∧
        (isPair (o - 4) = false ∨ o < 4 → e = { d with regs := e.regs } ∧ ∀ a, a ≠ o → a ≠ CP_Q_STAT → e.reg a = s.reg a) ∧
        (isPair (o - 4) = true → 4 ≤ o → ∀ y ∈ (profReg (o - 4)).toList, (put (o - 4) (s.stagedLow .cp o) y).2 = false →
          e.reg (o - 4) = (put (o - 4) (s.stagedLow .cp o) y).1 ∧ tblGet none e.staged (pairKey .cp (o - 4)) = none ∧
          ∀ a, a ≠ o → a ≠ o - 4 → a ≠ CP_Q_STAT → e.reg a = s.reg a))

/-- R395, R399, R400, R402, R404, on a unit that sends no checkpoints. -/
def Obligations.AnswersReachTheirTransport : Prop := ∀ (s : State) (op : Nat) (c : Cmd) (a : Reply) (changed : Bool), s.ckptOn = false → a.source = c.source →
  a.seq = c.seq →
  let q := isQuery op c
  let t := s.answer op c q a changed
  let cached := (q = true → t.cp.sources = s.cp.sources) ∧ (q = false → t.cp.sources.length = s.cp.sources.length ∧
    ∀ i < s.cp.sources.length, let x := s.cp.sources.getD i ⟨0, 0, []⟩
      t.cp.sources.getD i ⟨0, 0, []⟩ = if x.id = c.source then { x with cache := cachePut x.cache c.seq a } else x)
  (∀ k, k < 5 → c.transport = .slot k → InSlot k a t ∧ cached ∧ t = { s with regs := t.regs, fresh := t.fresh, out := t.out, cp := { s.cp with buf := t.cp.buf, sources := t.cp.sources } } ∧
    SameRegs [CP_MB_STAT] s t ∧ (∀ j, j ≠ k → t.rfb CP_MB_STAT CP_MB_STAT_REPLY j = s.rfb CP_MB_STAT CP_MB_STAT_REPLY j ∨ 5 ≤ j) ∧
    (∀ b, (b < replySlot k ∨ replySlot k + a.bytes.length ≤ b) → tblGet 0 t.cp.buf b = tblGet 0 s.cp.buf b) ∧
    (k < 4 → t.rfb EV_INT_STAT EV_INT_STAT_PEND evMail = true)) ∧
  (∀ n mac ip port, c.transport = .udp n mac ip port →
    (a.leaves q = false → cached ∧ t = { s with cp := { s.cp with sources := t.cp.sources } }) ∧
    (a.leaves q = true → cached ∧ t.cp.buf = s.cp.buf ∧ t.mem = s.mem ∧ t.log = s.log ∧ (∀ m, m ≠ n → t.port m = s.port m) ∧
      (s.flag (ET_P_STAT n) ET_P_STAT_LINK = false → t.reg CP_MB_STAT = s.reg CP_MB_STAT ∧ (t.port n).rx = (s.port n).rx ∧ ∃ f hd,
        f.cls = 3 ∧ f.bytes = hd ++ a.bytes ∧
        if (∀ g ∈ (s.port n).held, g.cls ≠ 3) ∧ (s.port n).txFill 3 + f.len ≤ txPart 3 then (t.port n).tx = (s.port n).tx ++ [f] ∧ (t.port n).held = (s.port n).held
        else (t.port n).tx = (s.port n).tx ∧ (t.port n).held = (s.port n).held ++ [f])))

/-- R401 checks 8 to 11, R402, R441. -/
def Obligations.CommandRefusalsFollowTheOrderOfChecks : Prop := ∀ (s : State) (op : Nat) (c : Cmd) (params : State → Option Bad) (body : State → CmdRes),
  let d := s.dequeue op c
  let refused := fun (st word : Nat) (ws : List Word) => s.command op c params body = d.answer op c (isQuery op c) (replyTo op c st 0 word ws) false
  (s.takes op c = false → s.command op c params body = s) ∧
  (s.takes op c = true →
    (s.permits op = false → refused stNotPermitted 0 []) ∧
    (s.permits op = true →
      (c.scheduled ≠ (schedInfo op).isSome → refused stBadParam 0 []) ∧
      (c.scheduled = (schedInfo op).isSome →
        (∀ b, params d = some b → b.status ≠ stSignature → refused b.status b.word b.words) ∧
        (params d = none →
          (s.standby = true → isQuery op c = false → schedInfo op = none → ((2 ≤ op / 256 ∧ op / 256 ≤ 8) ∨ op / 256 = 0x0D) → refused stWrongState 0 []) ∧
          (s.standby = false →
            (∀ b, body d = .refuse b → b.status ≠ stSignature → refused b.status b.word b.words) ∧
            (∀ ws e, body d = .ok ws e → s.replyRoom c.transport < 4 * (1 + ws.length) → refused stBadLength 0 [w32 (s.replyRoom c.transport)]) ∧
            (∀ ws e, body d = .progress ws e → 8 ≤ s.cp.running.length → refused stResourceBusy 0 []))))))

/-- R55, R409, R413. -/
def Obligations.ScheduledCommandsQueueTheirEvent : Prop := ∀ (s : State) (c : Cmd),
  ∀ p ∈ [(Instr.mdProgSwap c, 0x0302), (.chDelaySet c, 0x0310), (.chCalSwap c, 0x0312), (.chTargetSet c, 0x0315), (.ixProductSet c, 0x0401), (.ixIntegStop c, 0x0403),
    (.wdPolySwap c, 0x0502), (.wdBeamConfig c, 0x0503), (.sfTrigConfig c, 0x0601), (.sfUbConfig c, 0x0604), (.etCtConfig c, 0x0703), (.tmTaiMap c, 0x0806),
    (.tmPtpStep c, 0x0808), (.fwActivate c, 0x0C11), (.profActivate c, 0x0D04)],
  Taken p.2 c s →
  let d := s.dequeue p.2 c
  let t := d.schedTime c
  let f := d.boundaryOf p.2 t
  (alignsI p.2 = false → f % 8192 = 0 ∧ t ≤ f ∧ f < t + 8192) ∧
  ((d.projected f).schedParams p.2 c = none → d.running = true → d.now + d.lead p.2 ≤ f → s.events.length < 256 →
    d.schedRefusal (d.projected f) s.events p.2 f c = none →
    ∃ e : State, exec p.1 s = .next (e.answer p.2 c (isQuery p.2 c)
        (replyTo p.2 c stScheduled 0 0 (w32 (s.rf SC_STAT SC_STAT_NEXT_HANDLE) :: hiLo f)) (!isQuery p.2 c)) ∧
      e.events = s.events ++ [{ handle := s.rf SC_STAT SC_STAT_NEXT_HANDLE, t := t, f := f, op := p.2, alignI := alignsI p.2, committed := false, cmd := c }] ∧
      e.rf SC_STAT SC_STAT_COUNT = s.events.length + 1 ∧ (∀ x ∈ e.events, x.handle ≠ e.rf SC_STAT SC_STAT_NEXT_HANDLE) ∧
      e = { s with regs := e.regs, cp := d.cp, events := e.events })

/-- R401, R410. -/
def Obligations.ScheduledCommandsAreRefusedAndCounted : Prop := ∀ (s : State) (c : Cmd),
  ∀ p ∈ [(Instr.mdProgSwap c, 0x0302), (.chDelaySet c, 0x0310), (.chCalSwap c, 0x0312), (.chTargetSet c, 0x0315), (.ixProductSet c, 0x0401), (.ixIntegStop c, 0x0403),
    (.wdPolySwap c, 0x0502), (.wdBeamConfig c, 0x0503), (.sfTrigConfig c, 0x0601), (.sfUbConfig c, 0x0604), (.etCtConfig c, 0x0703), (.tmTaiMap c, 0x0806),
    (.tmPtpStep c, 0x0808), (.fwActivate c, 0x0C11), (.profActivate c, 0x0D04)],
  Taken p.2 c s →
  let d := s.dequeue p.2 c
  let f := d.boundaryOf p.2 (d.schedTime c)
  let q := d.projected f
  let counted := fun (st : Nat) (ws : List Word) (a : Nat) =>
    exec p.1 s = .next ((d.bump a).answer p.2 c (isQuery p.2 c) (replyTo p.2 c st 0 0 ws) false)
  (q.schedParams p.2 c = none →
    (s.running = false → c.transport ≠ .script → counted stWrongState [] SC_FAILED) ∧
    (s.running = true →
      (f < d.now + d.lead p.2 → counted stTimePast (hiLo (d.earliest p.2)) SC_LATE) ∧
      (d.now + d.lead p.2 ≤ f →
        (256 ≤ s.events.length → counted stResourceBusy [256] SC_FULL) ∧
        (s.events.length < 256 → ∀ b, d.schedRefusal q s.events p.2 f c = some b →
          if b.status = stWrongState then counted stWrongState [] SC_FAILED else Refuses p.1 p.2 c s b.status b.word b.words)))) ∧
  (d.now + d.lead p.2 ≤ d.boundaryOf p.2 (d.earliest p.2) ∧ ∀ t < d.earliest p.2, d.boundaryOf p.2 t < d.now + d.lead p.2)

/-- R411, R412. -/
def Obligations.EventsCommitOrAreDiscarded : Prop := ∀ (s : State) (h : Nat), s.on = true →
  (s.event h = none → exec (.eventCommit h) s = .next s) ∧
  ∀ e, s.event h = some e →
    let marked := { s with events := s.events.map fun x => if x.handle = h then { x with committed := true } else x }
    (s.commitDue e = false → exec (.eventCommit h) s = .next s) ∧
    (s.commitDue e = true → s.commitRefusal e = none →
      (e.op ≠ 0x0604 → e.op ≠ 0x0D04 → exec (.eventCommit h) s = .next marked) ∧
      (e.op = 0x0604 → ∃ t, exec (.eventCommit h) s = .next t ∧ t.events = marked.events ∧
        (let later := ((s.events.dropWhile fun x => x.handle != h).drop 1).map (·.handle)
         ∃ l r, s.sf.chgs = l ++ r ∧ t.sf.chgs = l ++ (e.f, h, ubChangeOf e.cmd) :: r ∧ (∀ q ∈ l, q.1 ≤ e.f ∧ (q.1 = e.f → q.2.1 ∉ later)) ∧
           ∀ q ∈ r.head?, e.f < q.1 ∨ (q.1 = e.f ∧ q.2.1 ∈ later)) ∧
        t.flag SF_UB_STAT SF_UB_STAT_CHG_PENDING = true ∧ t = { s with events := t.events, regs := t.regs, sf := { s.sf with chgs := t.sf.chgs } } ∧
        ∀ a, a ≠ SF_UB_STAT → t.reg a = s.reg a) ∧
      (e.op = 0x0D04 → exec (.eventCommit h) s = .next (marked.scriptStart (e.cmd.f 2 1 0) (some h) (some e.f)))) ∧
    (s.commitDue e = true → ∀ b, s.commitRefusal e = some b → ∃ t, exec (.eventCommit h) s = .next t ∧ t.events = s.events.filter (fun x => x.handle != h) ∧
      t.reg SC_FAILED = w32 (min (2 ^ 32 - 1) ((s.reg SC_FAILED).toNat + 1)) ∧ t.rfb EV_INT_STAT EV_INT_STAT_PEND evScheduler = true ∧
      t.log.head? = some { atc := s.now, ms := s.uptimeMs, code := 0x0D02, sev := 1, seq := (s.reg PW_LOG_SEQ).toNat
                           detail := [w32 e.handle, w32 e.op, e.cmd.seq, e.cmd.source] ++ loHi e.f ++ [w32 b.status] } ∧
      t.md = s.md ∧ t.ch = s.ch ∧ t.ix = s.ix ∧ t.wd = s.wd ∧ t.sf = s.sf ∧ t.mem = s.mem)

/-- R57, R58, R411, R412, and the effects of R142, R149, R156, R165, R323. -/
def Obligations.EventsFireInOrderAndTakeEffect : Prop := ∀ (s : State), s.on = true →
  (s.nextFire = none → exec .eventFire s = .next s) ∧
  ∀ e, s.nextFire = some e →
    (e ∈ s.events ∧ s.ownsEvent e = true ∧ s.holdsEvent e = false ∧
      ∀ x ∈ s.events, s.ownsEvent x = true → s.holdsEvent x = false → x.before e = false) ∧
    ((s.running = false ∨ e.committed = false ∨ s.now < e.f ∨ (s.cp.scriptRun = true ∧ e.op = 0x0D04)) → exec .eventFire s = .next s) ∧
    (s.running = true → e.committed = true → e.f ≤ s.now → (s.cp.scriptRun = false ∨ e.op ≠ 0x0D04) →
      let c := e.cmd
      (s.noAction e = true → ∃ t, exec .eventFire s = .next t ∧ t.events = s.events.filter (fun x => x.handle != e.handle) ∧
        t.reg SC_FAILED = w32 (min (2 ^ 32 - 1) ((s.reg SC_FAILED).toNat + 1)) ∧
        t.log.head? = some { atc := s.now, ms := s.uptimeMs, code := 0x0D02, sev := 1, seq := (s.reg PW_LOG_SEQ).toNat
                             detail := [w32 e.handle, w32 e.op, c.seq, c.source] ++ loHi e.f ++ [w32 stWrongState] } ∧ t.md = s.md ∧ t.ch = s.ch) ∧
      (s.noAction e = false → ∃ t, exec .eventFire s = .next t ∧
        (e.op ≠ 0x0A05 → (∀ x ∈ t.events, x.handle ≠ e.handle) ∧ t.reg SC_FIRED = w32 (min (2 ^ 32 - 1) ((s.reg SC_FIRED).toNat + 1))) ∧
        (e.op = 0x0302 → ∀ k < 64,
          if bit (c.q 3) k then
            t.slice k = { s.slice k with swap := ((s.slice k).swap.filter fun q => decide (q.1 < e.f)) ++ [(e.f, c.f 2 4 0)] } ∧
            t.rf (MD_SL_CTL k) MD_SL_CTL_SLOT = s.rf (MD_SL_CTL k) MD_SL_CTL_SLOT ∧ t.flag (MD_SL_CTL k) MD_SL_CTL_RUN = true ∧
            t.sliceState k = if s.sliceState k = mdRunning ∧ e.f ≤ (s.slice k).st then mdSwapping else s.sliceState k
          else t.slice k = s.slice k ∧ t.reg (MD_SL_CTL k) = s.reg (MD_SL_CTL k)) ∧
        (e.op = 0x0310 → (∀ k, ∀ d ∈ (s.slice k).delays, (s.slice k).st < d.1) → ∀ k < 64,
          let m := s.slice k
          let path := fun i => c.f (3 + i) 24 16
          if s.sliceState k = mdRunning ∧ e.f ≤ m.st then
            t.slice k = { m with xj := (t.slice k).xj } ∧ ∀ i < (c.w 2).toNat, path i / 8 = k → (∀ j, i < j → j < (c.w 2).toNat → path j ≠ path i) →
              t.rf (MD_PATH_DELAY k (path i % 8)) MD_PATH_DELAY_DELAY = c.f (3 + i) 15 0 ∧
              tblGet 0 (t.slice k).xj (path i % 8) = if c.f (3 + i) 15 0 ≤ e.f then e.f - c.f (3 + i) 15 0 + 1 else 0
          else t.slice k = { m with delays := m.delays ++ ((List.range (c.w 2).toNat).filter (fun i => path i / 8 == k)).map (fun i => (e.f, path i % 8, c.f (3 + i) 15 0)) }) ∧
        (e.op = 0x0312 → ∀ k < 64,
          if bit (c.q 2) k then
            (if s.runsStd k = true ∧ s.sliceState k = mdRunning then tblGet 0 t.ch.swapAt k = e.f + 1 ∧ t.calBank k = s.calBank k
             else tblGet 0 t.ch.swapAt k = 0 ∧ t.calBank k = !s.calBank k ∧ t.flag (MD_CH_SL_STAT k) MD_CH_SL_STAT_COPYING = true) ∧
            (bit (c.w 4).toNat 0 = false → ∀ j < 8, (t.scale (pathOf k j)).seedNext = true)
          else tblGet 0 t.ch.swapAt k = tblGet 0 s.ch.swapAt k ∧ t.calBank k = s.calBank k) ∧
        (e.op = 0x0315 → t.rf MD_CH_TARGET MD_CH_TARGET_TARGET = c.f 2 7 0 ∧ t.ch.tgts.head? = some (e.f, s.rf MD_CH_TARGET MD_CH_TARGET_TARGET) ∧ t.md = s.md) ∧
        (e.op = 0x0806 → t.reg64 TM_TAI_ATC_LO = c.q 2 ∧ t.reg64 TM_TAI_SEC_LO = c.q 4 ∧ t.md = s.md ∧ t.ch = s.ch)))

/-- R423, R426 steps 1 and 2, R460, R486, R495, R496, R541. -/
def Obligations.PowerCyclesKeepOnlyTheFlash : Prop := ∀ (s : State) (pins : Option Nat),
  let kept := fun (t : State) => t.mem = [] ∧ t.events = [] ∧ t.cp.queue = [] ∧ t.cp.sources = [] ∧ t.cp.profiles = s.cp.profiles ∧ t.md.progs = s.md.progs ∧
    t.md.sl = [] ∧ t.ch.cal = s.ch.cal ∧ t.wd.sets = s.wd.sets ∧ t.dr.boards = s.dr.boards ∧ t.dr.tables = s.dr.tables ∧ t.lc.state = s.lc.state ∧
    t.lc.ownerKey = s.lc.ownerKey ∧ t.lc.svnMin = s.lc.svnMin ∧ t.pending = s.pending
  let dark := fun (t : State) => kept t ∧ t.log = s.log ∧ t.lc.slotA = s.lc.slotA ∧ t.lc.slotB = s.lc.slotB ∧ t.reg PW_LOG_SEQ = s.reg PW_LOG_SEQ ∧
    ∀ o, o ≠ PW_LOG_SEQ → t.reg o = State.reset.reg o
  let booted := fun (t : State) (cause : Nat) => kept t ∧ t.on = true ∧ t.rf CP_SYS_STAT CP_SYS_STAT_CAUSE = cause ∧ t.rf PW_RAIL PW_RAIL_GOOD = 0x13F ∧ t.pw.compOn = false ∧
    t.cp.pins = pins.map (· % 4) ∧ (∀ p, pins = some p → t.rf CP_SYS_STAT CP_SYS_STAT_PINS = p % 4) ∧
    (s.lc.committed < 2 →
      (s.slotFailing s.lc.committed = none → t.cp.serving = true ∧ t.cp.recovery = false ∧ t.rf CP_FW_STAT CP_FW_STAT_ACTIVE_SLOT = s.lc.committed) ∧
      (s.slotFailing s.lc.committed ≠ none → s.slotFailing (1 - s.lc.committed) = none → t.cp.serving = true ∧ t.cp.recovery = false ∧
        t.rf CP_FW_STAT CP_FW_STAT_ACTIVE_SLOT = 1 - s.lc.committed ∧ t.flag CP_FW_STAT CP_FW_STAT_BOOT_FALLBACK = true) ∧
      (s.slotFailing s.lc.committed ≠ none → s.slotFailing (1 - s.lc.committed) ≠ none → t.cp.serving = false ∧ t.cp.recovery = true)) ∧
    t.rf CP_SYS_STAT CP_SYS_STAT_PHASE = if pins.isSome ∧ t.cp.recovery = false then 3 else 2
  (if s.pw.power = .on ∨ s.pw.power = .heldReset then exec .housekeepingPowerOn s = .next s
   else ∃ t, exec .housekeepingPowerOn s = .next t ∧ dark t ∧ t.pw.power = .housekeeping ∧ t.pw.restarts = [] ∧ t.pw.hkAuto = false ∧ t.pw.hkCycles = 0) ∧
  (if s.pw.power = .on ∨ s.pw.power = .critical then
     ∃ t, exec .coldResetAssert s = .next t ∧ dark t ∧ t.pw.power = .heldReset ∧ t.pw.restarts = s.pw.restarts ∧ t.pw.hkAuto = s.pw.hkAuto
   else exec .coldResetAssert s = .next s) ∧
  (∀ i ∈ [Instr.undervoltageLockout, .overvoltageLockout],
    if s.pw.power = .off ∨ s.pw.power = .housekeeping ∨ s.pw.power = .lockout then exec i s = .next s
    else ∃ t, exec i s = .next t ∧ dark t ∧ t.pw.power = .lockout ∧ t.on = false) ∧
  (if s.pw.power = .off ∨ s.pw.power = .housekeeping ∨ s.pw.power = .lockout then
     ∃ t, exec (.vinValid pins) s = .next t ∧ booted t 0 ∧
       (s.pw.warned = false → t.flag PW_STAT PW_STAT_UNLOGGED_LOSS = true)
   else exec (.vinValid pins) s = .next s) ∧
  (if s.pw.power = .heldReset then ∃ t, exec (.coldResetRelease pins) s = .next t ∧ booted t 1 else exec (.coldResetRelease pins) s = .next s) ∧
  (s.on = true → if s.lc.transReset then ∃ t, exec (.transitionReset pins) s = .next t ∧ booted t 1 else exec (.transitionReset pins) s = .next s) ∧
  (∀ d : Int, if s.pw.power = .critical ∧ s.pw.hkAuto = true ∧ s.restartBudget = true ∧ d < 95 * 16 then
      ∃ t, exec (.criticalRestart d pins) s = .next t ∧ booted t 0 ∧ t.flag PW_DIODE PW_DIODE_VALID = true ∧ t.log.head?.map (·.code) = some 0x0B06 ∧
        t.pw.restarts.head? = some s.pw.hkCycles
    else exec (.criticalRestart d pins) s = .next s)

/-- R331, R332, R416, R419, R421, R426 to R428, R510, R511, R542. -/
def Obligations.StartUpStepsFollowEachOther : Prop := ∀ (s : State), s.on = true →
  let rest := fun (t : State) => t = { s with regs := t.regs, cp := t.cp }
  (∀ x, if s.phase = 2 ∧ s.cp.pins = none then ∃ t, exec (.profilePinsUnstable x) s = .next t ∧ t.cp.pins = some 4 ∧ t.log.head?.map (·.code) = some 0x0B09 ∧
      t.phase = (if s.cp.recovery then 2 else 3) ∧ t.mem = s.mem
    else exec (.profilePinsUnstable x) s = .next s) ∧
  (∀ d : Int, if s.phase = 3 ∧ d < 95 * 16 then ∃ t, exec (.startupDiodeOk d) s = .next t ∧ t.phase = 4 ∧ t.pw.compOn = true ∧ t.flag PW_DIODE PW_DIODE_VALID = true ∧
      (s.lc.state = lcDecommissioned → t.rf DR_STAT DR_STAT_STATE = s.rf DR_STAT DR_STAT_STATE) ∧
      (s.lc.state ≠ lcDecommissioned → t.rf DR_STAT DR_STAT_STATE = if s.board.isSome then Sys2Proof.Machine.drInit else drFail) ∧ t.mem = s.mem ∧ t.cp = s.cp
    else exec (.startupDiodeOk d) s = .next s) ∧
  (∀ fails chans ms, if s.phase = 4 then ∃ t, exec (.wipeComplete fails chans ms) s = .next t ∧
      (let ok := s.wipeItems fails chans = 0
       let p := if ok then s.profChosen else none
       (p = none → t.mem = [] ∧ t.md.store = [] ∧ t.wd.tab = [] ∧ t.phase = 6 ∧ (∀ o < 64, t.flag (SL_OCT_CTL o) SL_OCT_CTL_RELADDER = true) ∧
          (∀ k < 64, t.rf (MD_SL_CTL k) MD_SL_CTL_SLOT = 16 ∧ t.flag (MD_SL_CTL k) MD_SL_CTL_RUN = true ∧ t.flag (MD_SL_CTL k) MD_SL_CTL_AUTO_RESTART = true) ∧
          t.rf TM_ATC_CTL TM_ATC_CTL_RATE_N = 200 ∧ t.time.rateN = 200 ∧ (∀ n < 4, t.rf (ET_P_CTL n) ET_P_CTL_MAXFRAME = 9216) ∧
          t.flag CP_WIPE_STAT CP_WIPE_STAT_DONE = (decide ok || s.flag CP_WIPE_STAT CP_WIPE_STAT_DONE) ∧
          (s.lc.state ≠ lcDecommissioned → s.drFailed = false → t.rf DR_STAT DR_STAT_STATE = if chans = 0 then Sys2Proof.Machine.drReady else drFail)) ∧
       (∀ q, p = some q → profScript (s.prof q).bytes = [] → t.phase = 6 ∧ t.rf CP_SYS_STAT CP_SYS_STAT_PROFILE = q ∧
          t.flag CP_SYS_STAT CP_SYS_STAT_PROF_VALID = true ∧ (∀ k < 64, t.rf (MD_SL_CTL k) MD_SL_CTL_SLOT = leAt (s.prof q).bytes (64 + k) 1 % 32) ∧
          t.cp.startLoad = leAt (s.prof q).bytes 16 8 ∧ t.cp.startEpoch = leAt (s.prof q).bytes 7 1 / 4))
    else exec (.wipeComplete fails chans ms) s = .next s) ∧
  (exec .refWaitDone s = .next (if s.refWaits ∧ s.refReady then { s with cp := { s.cp with step7Done := true } } else s)) ∧
  (if s.refWaits = true ∧ s.cp.startRefMax ≠ 0 then ∃ t, exec .refWaitExpire s = .next t ∧ t.cp.step7Done = true ∧
      t.flag CP_SYS_STAT CP_SYS_STAT_REF_WAIT_EXPIRED = true ∧ rest t ∧ ∀ a, a ≠ CP_SYS_STAT → t.reg a = s.reg a
   else exec .refWaitExpire s = .next s) ∧
  (s.phase ≠ 6 → exec .startupEpochArm s = .next s) ∧
  (s.laddersEnded = false → exec .startupEpochArm s = .next s) ∧
  (s.phase = 6 → s.rf TM_ATC_STAT TM_ATC_STAT_STATE = 0 → (s.cp.startRefWait = 0 ∨ s.cp.step7Done = true) → s.laddersEnded = true →
    (s.cp.startEpoch = 0 → ∃ t, exec .startupEpochArm s = .next t ∧ t.phase = 8 ∧ OnlyRegs [CP_SYS_STAT] s t) ∧
    (s.cp.startEpoch = 1 → s.core = coreLocked → s.usesPps (s.rf TM_STAT TM_STAT_SEL) = true → ∃ t, exec .startupEpochArm s = .next t ∧ t.phase = 8 ∧
      t.flag TM_ATC_CTL TM_ATC_CTL_ARM = true ∧ t.reg64 TM_ATC_LOAD_LO = s.cp.startLoad % 2 ^ 64 ∧ t.rf TM_ATC_STAT TM_ATC_STAT_STATE = 1 ∧
      t.time.stagedAtc = s.cp.startLoad ∧ t.time.stagedPtp = s.flag TM_PTP_STAT TM_PTP_STAT_SET ∧ t = { s with regs := t.regs, time := t.time, tm := t.tm }) ∧
    (s.cp.startEpoch = 1 → s.core ≠ coreLocked → exec .startupEpochArm s = .next s))

/-- R415, R423 to R425, R500. -/
def Obligations.WarmAndComputeResets : Prop := ∀ (s : State), s.on = true →
  let warm := fun (u t : State) => t.cp.queue = [] ∧ t.cp.running = [] ∧ t.cp.heldH = [] ∧ t.cp.heldM = [] ∧ t.cp.serving = false ∧ t.shadow = [] ∧ t.staged = [] ∧
    (∀ k < 5, t.slotBusy k = false ∧ t.rfb CP_MB_STAT CP_MB_STAT_REPLY k = false ∧ tblGet 0 t.cp.reqLen k = 0) ∧ t.rf CP_SYS_STAT CP_SYS_STAT_CAUSE = 2 ∧
    t.rf GLB_RST_STAT GLB_RST_STAT_WARM = min (2 ^ GLB_RST_STAT_WARM.w - 1) (u.rf GLB_RST_STAT GLB_RST_STAT_WARM + 1) ∧
    (∀ a ∈ [CP_CMDS, CP_BUSY, CP_DUPS, CP_BADCRC, CP_DISCARDS, CP_EVICT, CP_SEC_FAILS, SC_FIRED, SC_LATE, SC_FULL, SC_CANCELLED, SC_FAILED], t.reg a = 0) ∧
    t.time = u.time ∧ t.events = u.events ∧ t.mem = u.mem ∧ (u.accesses = [] → t.sl = u.sl) ∧ t.md = u.md ∧ t.et = u.et ∧ t.ix = u.ix ∧ t.sf = u.sf ∧ t.log = u.log ∧ t.lc.nonce = none ∧
    t.cp.sources.map (fun x => (x.id, x.last)) = u.cp.sources.map fun x => (x.id, x.last)
  (∀ i ∈ [Instr.watchdogFault, .lockstepFault],
    (s.cp.recovery = true → exec i s = .next s) ∧
    (s.cp.recovery = false → s.inTrial = false → s.cp.running = [] → ∃ t, exec i s = .next t ∧ warm s t ∧
      ∀ q, s.cp.queue = [q] → s.dm.aborts = [] → s.accesses = [] → isQuery q.op q.cmd = false → q.cmd.transport ≠ .script →
        t.cp.sources = s.cp.sources.map fun x =>
          if x.id = q.cmd.source then { x with cache := cachePut x.cache q.cmd.seq (replyTo q.op q.cmd stInternal 0 0 []) } else x) ∧
    (s.cp.recovery = false → s.inTrial = true → s.lc.committed < 2 → ∃ t, exec i s = .next t ∧ t.rf CP_FW_STAT CP_FW_STAT_ACTIVE_SLOT = s.lc.committed ∧ t.inTrial = false ∧
      t.flag CP_FW_STAT CP_FW_STAT_ROLLBACK_SEEN = true ∧ t.log.head?.map (·.code) = some 0x0C03 ∧ t.cp.queue = [] ∧ t.cp.serving = false ∧ t.mem = s.mem ∧
      t.events = s.events)) ∧
  (s.cp.serving = false → s.cp.recovery = false → s.lc.handoff = none →
    (s.cp.held = [] → exec .niethServing s = .next { s with cp := { s.cp with serving := true } }) ∧
    (∀ k bs, s.cp.held = [⟨.slot k, bs⟩] → exec .niethServing s = .next ({ s with cp := { s.cp with serving := true, held := [] } }.arrive (.slot k) bs))) ∧
  (∀ c, Taken 0x0102 c s → c.payload.length = 1 →
    (c.f 0 1 0 = 1 → s.commitSoon = none → s.cp.scriptRun = false → s.cp.running = [] → Fits 0 c s → ∃ t, exec (.sysResetWarm c) s = .next t ∧
      warm ((s.dequeue 0x0102 c).answer 0x0102 c (isQuery 0x0102 c) (replyTo 0x0102 c stOk 0 0 []) (!isQuery 0x0102 c)) t) ∧
    (∀ a, c.f 0 1 0 = 1 → s.commitSoon = some a → Refuses (.sysResetWarm c) 0x0102 c s stWrongState 0 (hiLo a)) ∧
    (c.f 0 1 0 = 1 → s.commitSoon = none → s.cp.scriptRun = true → Refuses (.sysResetWarm c) 0x0102 c s stWrongState 0 []) ∧
    (c.f 0 1 0 = 2 → s.pw.compOn = true → s.thermal = false → Fits 0 c s → ∃ t, exec (.sysResetCompute c) s = .next t ∧ t.pw.compOn = false ∧ t.pw.compRestart = true ∧
      t.rf CP_SYS_STAT CP_SYS_STAT_CAUSE = 3 ∧ t.rf IX_STAT IX_STAT_STATE = 0 ∧ t.events = s.events ∧ t.cp.queue = (s.dequeue 0x0102 c).cp.queue ∧
      t.rf GLB_RST_STAT GLB_RST_STAT_COMPUTE = min (2 ^ GLB_RST_STAT_COMPUTE.w - 1) (s.rf GLB_RST_STAT GLB_RST_STAT_COMPUTE + 1) ∧ t.md = s.md ∧ t.sl = s.sl ∧ t.sf = s.sf) ∧
    (c.f 0 1 0 = 2 → (s.pw.compOn = false ∨ s.thermal = true) → Refuses (.sysResetCompute c) 0x0102 c s stWrongState 0 [])) ∧
  (if s.pw.compRestart = true ∧ s.thermal = false then ∃ t, exec .computeRestartDone s = .next t ∧ t.pw.compOn = true ∧ t.pw.compRestart = false ∧ (∀ d < 2, t.pw.hotStart.contains d = false) ∧
      t.rf PW_THROT PW_THROT_K_C0 = (if s.pw.hotStart.contains 0 then 4 else 0) ∧ t.rf PW_THROT PW_THROT_K_C1 = (if s.pw.hotStart.contains 1 then 4 else 0) ∧
      (s.integrating = true → s.now < t.ix.nextBase → t.rf IX_STAT IX_STAT_STATE = 0 ∧ t.ix.resumeAt = some t.ix.nextBase) ∧
      (s.integrating = false → t.ix.nextBase = spectrumAt s.now ∧ t.events = s.events) ∧ t.mem = s.mem ∧ t.md = s.md
    else exec .computeRestartDone s = .next s)

/-- R461, R464, R465, R468, R469, R477, R479, R481 step 3, R544. -/
def Obligations.InputRailsDroopAndPads : Prop := ∀ (s : State), s.on = true →
  let count := fun (a : Nat) => w32 (min (2 ^ 32 - 1) ((s.reg a).toNat + 1))
  let logged := fun (t : State) (code : Nat) (d : List Word) => t.log.head?.map (fun e => (e.code, e.detail)) = some (code, d)
  let power := fun (t : State) => t.rfb EV_INT_STAT EV_INT_STAT_PEND evPower = true
  let auxBad := fun (t : State) (v i : Nat) => t.rfb PW_RAIL PW_RAIL_FAULT 8 = true ∧ t.rfb PW_RAIL PW_RAIL_GOOD 8 = false ∧ t.reg PW_RAIL_FAULTS = count PW_RAIL_FAULTS ∧
    logged t 0x0B03 [8, w32 v, w32 i] ∧ power t ∧ t = { s with regs := t.regs, fresh := t.fresh, log := t.log, out := t.out, pw := { s.pw with auxOff := true } } ∧
    SameRegs [PW_RAIL, PW_RAIL_FAULTS, PW_LOG_SEQ] s t ∧
    ∀ b < 12, b ≠ 8 → t.rfb PW_RAIL PW_RAIL_FAULT b = s.rfb PW_RAIL PW_RAIL_FAULT b ∧ t.rfb PW_RAIL PW_RAIL_GOOD b = s.rfb PW_RAIL PW_RAIL_GOOD b
  (∀ vin < 65536, ∃ t, exec (.vinPowerWarn vin) s = .next t ∧ logged t 0x0B01 [w32 vin] ∧ t.flag PW_STAT PW_STAT_POWER_WARN = true ∧ power t ∧
    t = { s with regs := t.regs, fresh := t.fresh, log := t.log, out := t.out, pw := { s.pw with warned := true } } ∧ SameRegs [PW_STAT, PW_LOG_SEQ] s t ∧
    ∀ f, PW_STAT_POWER_WARN.apart f → t.rf PW_STAT f = s.rf PW_STAT f) ∧
  (∀ v i ok, v < 65536 → i < 65536 →
    (if s.pw.auxOff = true then exec (.auxRailFault v i) s = .next s else ∃ t, exec (.auxRailFault v i) s = .next t ∧ auxBad t v i) ∧
    (s.pw.auxOff = false → exec (.auxRailRetry ok v i) s = .next s) ∧
    (s.pw.auxOff = true → (ok = false → ∃ t, exec (.auxRailRetry ok v i) s = .next t ∧ auxBad t v i) ∧
      (ok = true → ∃ t, exec (.auxRailRetry ok v i) s = .next t ∧ t.rfb PW_RAIL PW_RAIL_GOOD 8 = true ∧
        t = { s with regs := t.regs, pw := { s.pw with auxOff := false } } ∧ ∀ a, a ≠ PW_RAIL → t.reg a = s.reg a))) ∧
  (∀ r, 9 ≤ r → r < 12 → ∃ t, exec (.senseWireOpen r) s = .next t ∧ t.flag PW_RAIL PW_RAIL_SNS_OPEN = true ∧ logged t 0x0B04 [w32 r] ∧
    t = { s with regs := t.regs, log := t.log } ∧ ∀ a, a ∉ [PW_RAIL, PW_LOG_SEQ] → t.reg a = s.reg a) ∧
  (∀ d < 3, let b := 2 - d
    (if (d = 0 ∨ s.diePowered (d - 1) = true) ∧ s.rfb PW_DROOP PW_DROOP_NOW b = false then
       ∃ t, exec (.droopSag d) s = .next t ∧ t.rfb PW_DROOP PW_DROOP_NOW b = true ∧ t.rfb PW_DROOP PW_DROOP_SEEN b = true ∧
         t.reg (PW_DROOP_IO + 4 * d) = count (PW_DROOP_IO + 4 * d) ∧ power t ∧ OnlyRegsInt [PW_DROOP, PW_DROOP_IO + 4 * d] s t
     else exec (.droopSag d) s = .next s) ∧
    ∀ us, if 2 ≤ us ∧ s.rfb PW_DROOP PW_DROOP_NOW b = true then
        ∃ t, exec (.droopStretchEnd d us) s = .next t ∧ t.rfb PW_DROOP PW_DROOP_NOW b = false ∧
          t.reg PW_STRETCH_US = w32 (min (2 ^ 32 - 1) ((s.reg PW_STRETCH_US).toNat + us)) ∧ OnlyRegs [PW_DROOP, PW_STRETCH_US] s t
      else exec (.droopStretchEnd d us) s = .next s) ∧
  (∀ b driven ball, 14 ≤ b → b < 32 → ∃ t, exec (.padFault b driven ball) s = .next t ∧ power t ∧
    t = { s with regs := t.regs, fresh := t.fresh, out := t.out, log := t.log } ∧ SameRegs [PW_PAD, PW_LOG_SEQ] s t ∧
    (∀ j, (t.reg PW_PAD).getLsbD j = ((s.reg PW_PAD).getLsbD j || decide (j = b))) ∧
    ((s.reg PW_PAD).getLsbD b = false → logged t 0x0B08 [w32 b, w32 driven, w32 ball]) ∧
    ((s.reg PW_PAD).getLsbD b = true → t.log = s.log ∧ t.reg PW_LOG_SEQ = s.reg PW_LOG_SEQ)) ∧
  (let k := s.kOf 3
   let hot := (s.kOf 0 = 7 ∧ s.dieHot 0 (100 * 16) = true) ∨ (s.kOf 1 = 7 ∧ s.dieHot 1 (100 * 16) = true)
   let age := s.time.cycles - tblGet 0 s.pw.stepAt 3
   let moved := fun (t : State) => t = { s with regs := t.regs, fresh := t.fresh, pw := { s.pw with stepAt := t.pw.stepAt } } ∧ tblGet 0 t.pw.stepAt 3 = s.time.cycles ∧
     (∀ d < 3, t.kOf d = s.kOf d) ∧ t.rf PW_THROT PW_THROT_K_W = max (s.kOf 2) (t.kOf 3) ∧ ∀ a, a ∉ [PW_THROT, PW_THR_UP] → t.reg a = s.reg a
   if hot ∧ 2000000 ≤ age ∧ k < 7 then ∃ t, exec .ksStepTick s = .next t ∧ t.kOf 3 = k + 1 ∧ t.reg PW_THR_UP = count PW_THR_UP ∧ moved t
   else if ¬ hot ∧ 200000000 ≤ age ∧ 0 < k then ∃ t, exec .ksStepTick s = .next t ∧ t.kOf 3 = k - 1 ∧ t.reg PW_THR_UP = s.reg PW_THR_UP ∧ moved t
   else exec .ksStepTick s = .next s) ∧
  (if s.pw.shutPend = true then ∃ t, exec .shutdownLogWritten s = .next t ∧ t.pw.compOn = false ∧ t.pw.shutPend = false ∧ t.pw.hotStart = [0, 1] ∧
      t.rfb PW_RAIL PW_RAIL_GOOD 6 = false ∧ t.rfb PW_RAIL PW_RAIL_GOOD 7 = false ∧ (∀ n < 40, t.reg (PW_TS n) = 0x80000000 ∧ (t.sensor n).seen = false) ∧
      (s.pw.compOn = true → t.rf IX_STAT IX_STAT_STATE = 0) ∧ t.md = s.md ∧ t.cp = s.cp ∧ t.events = s.events ∧ t.sf = s.sf ∧ t.sl = s.sl
   else exec .shutdownLogWritten s = .next s)

/-- R465, R472 to R474, R476, R481 to R483, R485, on a unit that is not ACTIVE in a pair. -/
def Obligations.SensorReadingsThrottleAndShutDown : Prop := ∀ (s : State), s.on = true → s.role ≠ roleActive →
  let count := fun (a : Nat) => w32 (min (2 ^ 32 - 1) ((s.reg a).toNat + 1))
  let inRange := fun (r : Int) => -40 * 16 ≤ r ∧ r ≤ 150 * 16
  let filtered := fun (x y : Sensor) (r : Int) => y.seen = true ∧ y.lost = false ∧ y.raw = r ∧
    (if x.seen = true then y.num = 3 * x.num + r * 4 ^ x.exp ∧ y.exp = x.exp + 1 else y.num = r ∧ y.exp = 0)
  let kept := fun (t : State) => t.mem = s.mem ∧ t.cp = s.cp ∧ t.events = s.events ∧ t.et = s.et ∧ t.ix = s.ix
  (∀ n < 64, let x := s.sensor n
    let d := dieOfSensor n
    s.diePowered d = true →
    (s.flag (PW_TS n) PW_TS_FAST = false → x.pend = false → x.seen = true → ∀ r, exec (.fastReading n r) s = .next s) ∧
    ((s.flag (PW_TS n) PW_TS_FAST = true ∨ x.pend = true ∨ x.seen = false) →
      (∀ r, inRange r → x.pend = false → ∃ t, exec (.fastReading n (some r)) s = .next t ∧ filtered x (t.sensor n) r ∧ (∀ m, m ≠ n → t.sensor m = s.sensor m) ∧
        t.rf (PW_TS n) PW_TS_STATUS = 0 ∧ t.rf (PW_TS n) PW_TS_TEMP = temp16 (t.sensor n).temp ∧ kept t ∧ t.md = s.md ∧ t.log = s.log ∧
        (n < 62 → 115 * 16 ≤ r → t.kOf d = 7) ∧
        (n < 62 → r < 115 * 16 → t.dieHot d (100 * 16) = true → s.kOf d < 7 → tblGet 0 s.pw.stepAt d + 2000000 ≤ s.time.cycles → (d = 2 ∨ 4 ≤ t.sensLeft d) →
          t.kOf d = s.kOf d + 1)) ∧
      (∀ r, inRange r → x.pend = true → r < 115 * 16 → ∃ t, exec (.fastReading n (some r)) s = .next t ∧ filtered x (t.sensor n) r ∧ (t.sensor n).pend = false ∧
        t.reg PW_NEAR = count PW_NEAR ∧ t.flag PW_STAT PW_STAT_NEAR_SEEN = true ∧ t.rfb EV_INT_STAT EV_INT_STAT_PEND evPower = true ∧ kept t ∧ t.log = s.log) ∧
      (∀ r, inRange r → x.pend = true → 115 * 16 ≤ r → s.rf PW_STAT PW_STAT_STATE = 0 →
        (n < 40 → ∃ t, exec (.fastReading n (some r)) s = .next t ∧ t.rf PW_STAT PW_STAT_STATE = 1 ∧ t.rf PW_STAT PW_STAT_CAUSE = 1 ∧ t.reg PW_SHUTDOWNS = count PW_SHUTDOWNS ∧
          t.flag PW_STAT PW_STAT_SHUTDOWN_SEEN = true ∧ t.pw.shutPend = true ∧ t.pw.compOn = s.pw.compOn ∧ kept t ∧ t.md = s.md ∧
          t.log.head?.map (fun e => (e.code, e.detail)) = some (0x0B05, [1, w32 n, w32 (temp16 x.raw), w32 (temp16 r), w32 (s.rf PW_DIODE PW_DIODE_TEMP), 0])) ∧
        (40 ≤ n → n < 62 → (x.raw < 125 * 16 ∨ r < 125 * 16) → ∃ t, exec (.fastReading n (some r)) s = .next t ∧ t.rf PW_STAT PW_STAT_STATE = 2 ∧
          t.rf PW_STAT PW_STAT_CAUSE = 2 ∧ t.pw.shutPend = true ∧ kept t ∧ t.log.head?.map (·.code) = some 0x0B05 ∧
          ∀ k < 64, t.sliceState k = if s.sliceState k = mdDead ∨ s.sliceState k = mdHalted then s.sliceState k else mdIdle) ∧
        (62 ≤ n → (x.raw < 125 * 16 ∨ r < 125 * 16) → ∃ t, exec (.fastReading n (some r)) s = .next t ∧ filtered x (t.sensor n) r ∧ t.rf PW_STAT PW_STAT_STATE = 0 ∧
          t.reg PW_NEAR = s.reg PW_NEAR ∧ t.log = s.log ∧ kept t ∧ t.md = s.md) ∧
        (40 ≤ n → 125 * 16 ≤ x.raw → 125 * 16 ≤ r → ∃ t, exec (.fastReading n (some r)) s = .next t ∧ t.pw.power = .critical ∧ t.on = false ∧
          t.log.head?.map (·.code) = some 0x0B05)) ∧
      (x.pend = false → x.lost = false → (d < 2 → 5 ≤ s.sensLeft d) → ∃ t, exec (.fastReading n none) s = .next t ∧ (t.sensor n).lost = true ∧
        t.rf (PW_TS n) PW_TS_STATUS = 1 ∧ t.sensLeft d = s.sensLeft d - 1 ∧ kept t ∧ t.md = s.md ∧
        t.log.head?.map (fun e => (e.code, e.detail)) = some (0x0B07, [w32 n, w32 d, w32 (t.sensLeft d)])))) ∧
  (∀ raws diode vin iin pin good bth board, raws.length = 64 → (∀ n < 64, ∃ r, raws.getD n none = some r ∧ inRange r ∧ (s.sensor n).pend = false) →
    vin < 65536 → iin < 65536 → pin < 65536 → good < 4096 → bth < 3 → -32768 ≤ diode → diode < 32768 →
    ∃ t, exec (.slowRound raws diode vin iin pin good bth board) s = .next t ∧ t.rf PW_VIN PW_VIN_VIN = vin ∧ t.rf PW_VIN PW_VIN_IIN = iin ∧ t.rf PW_PIN PW_PIN_PIN = pin ∧
      t.rf PW_RAIL PW_RAIL_GOOD = good ∧ t.flag PW_DIODE PW_DIODE_VALID = true ∧ t.rf PW_DIODE PW_DIODE_TEMP = temp16 diode ∧
      (t.flag PW_BTH PW_BTH_VALID = decide (bth = 0)) ∧ (t.flag PW_BTH PW_BTH_OPEN = decide (bth = 1)) ∧ (t.flag PW_BTH PW_BTH_SHORT = decide (bth = 2)) ∧
      (bth = 0 → t.rf PW_BTH PW_BTH_TEMP = temp16 board) ∧
      (∀ n < 64, if s.diePowered (dieOfSensor n) = true then ∀ r, raws.getD n none = some r → filtered (s.sensor n) (t.sensor n) r else t.sensor n = s.sensor n) ∧
      (s.coreStopped = false → t.mem = s.mem ∧ t.cp = { s.cp with resetAt := t.cp.resetAt } ∧ t.events = s.events) ∧
      (s.thermal = false → t.log = s.log ∧ t.md = s.md ∧ t.ix = s.ix ∧ t.rf PW_STAT PW_STAT_STATE = 0) ∧
      (s.thermal = true → s.pw.shutPend = false → s.flag PW_CTL PW_CTL_AUTO_RESTART = true → s.coreStopped = false →
        (s.restartBudget = false → t.flag PW_STAT PW_STAT_RESTART_BLOCKED = true ∧ t.rf PW_STAT PW_STAT_STATE = s.rf PW_STAT PW_STAT_STATE ∧ t.log = s.log) ∧
        (s.restartBudget = true → 95 * 16 ≤ diode → t.rf PW_STAT PW_STAT_STATE = s.rf PW_STAT PW_STAT_STATE ∧ t.log = s.log) ∧
        (s.restartBudget = true → diode < 95 * 16 → t.rf PW_STAT PW_STAT_STATE = 0 ∧ t.rf PW_STAT PW_STAT_RESTART_BLOCKED = 0 ∧
          t.log.head?.map (·.code) = some 0x0B06 ∧ t.pw.restarts.head? = some s.pw.hkCycles ∧
          (s.role ≠ roleLampblack → t.pw.compRestart = true ∧ t.rf CP_SYS_STAT CP_SYS_STAT_CAUSE = 3 ∧
            t.rf GLB_RST_STAT GLB_RST_STAT_COMPUTE = min 255 (s.rf GLB_RST_STAT GLB_RST_STAT_COMPUTE + 1)))))

/-- R466, R485, R488. -/
def Obligations.PowerCommandsTakeEffect : Prop := ∀ (s : State) (c : Cmd),
  (Taken 0x0B01 c s → c.payload = [] → Fits 16 c s → Answers (.pwStatus c) 0x0B01 c s (([PW_STAT, PW_VIN, PW_PIN, PW_RAIL, PW_DROOP, PW_THROT, PW_DIODE, PW_BTH,
    PW_DROOP_IO, PW_DROOP_C0, PW_DROOP_C1, PW_STRETCH_US, PW_THR_UP, PW_NEAR, PW_SHUTDOWNS, PW_RAIL_FAULTS]).map s.reg) (s.dequeue 0x0B01 c)) ∧
  (Taken 0x0B02 c s → c.payload = [] → Fits 64 c s → Answers (.pwTempRead c) 0x0B02 c s ((List.range 64).map fun n => s.reg (PW_TS n)) (s.dequeue 0x0B02 c)) ∧
  (Taken 0x0B03 c s → c.payload.length = 2 → Fits 0 c s → ∃ e, Answers (.pwConfig c) 0x0B03 c s [] e ∧ e.rf PW_CTL PW_CTL_AUTO_RESTART = c.f 0 31 31 ∧
    e.rf PW_SLEW PW_SLEW_CODE = c.f 1 7 0 ∧ e = { (s.dequeue 0x0B03 c) with regs := e.regs, pw := { s.pw with hkAuto := decide (c.f 0 31 31 = 1) } } ∧
    ∀ a, a ∉ [PW_CTL, PW_SLEW, CP_Q_STAT] → e.reg a = s.reg a) ∧
  (Taken 0x0B04 c s → c.payload = [] →
    ((s.thermal = false ∨ s.pw.shutPend = true) → Refuses (.pwRestart c) 0x0B04 c s stWrongState 0 []) ∧
    (s.thermal = true → s.pw.shutPend = false → s.diodeCool = false → Refuses (.pwRestart c) 0x0B04 c s stWrongState 0 [s.reg PW_DIODE]) ∧
    (s.thermal = true → s.pw.shutPend = false → s.diodeCool = true → Fits 0 c s → ∃ e, Answers (.pwRestart c) 0x0B04 c s [] e ∧ e.rf PW_STAT PW_STAT_STATE = 0 ∧
      e.rf PW_STAT PW_STAT_RESTART_BLOCKED = 0 ∧ e.pw.restarts = s.pw.restarts ∧
      (s.role ≠ roleLampblack → e.pw.compRestart = true ∧ e.rf CP_SYS_STAT CP_SYS_STAT_CAUSE = 3) ∧ (s.role = roleLampblack → e.pw = s.pw) ∧
      (s.coreStopped = false → e.log.head?.map (fun x => (x.code, x.detail)) = some (0x0B06, [w32 (s.rf PW_DIODE PW_DIODE_TEMP), 1]) ∧ e.md = s.md ∧ e.mem = s.mem ∧ e.events = s.events))) ∧
  (Taken 0x0B05 c s → c.payload.length = 2 →
    ((c.w 1 = 0 ∨ 63 < (c.w 1).toNat) → Refuses (.pwLogRead c) 0x0B05 c s stBadParam 1 []) ∧
    (1 ≤ (c.w 1).toNat → (c.w 1).toNat ≤ 63 → s.log = [] → Fits 1 c s →
      Answers (.pwLogRead c) 0x0B05 c s [w32 (s.reg PW_LOG_SEQ).toNat] (s.dequeue 0x0B05 c)) ∧
    (1 ≤ (c.w 1).toNat → (c.w 1).toNat ≤ 63 → ∀ oldest, s.log.getLast? = some oldest →
      let es := s.log.reverse.filter fun e => decide ((c.w 0).toNat ≤ e.seq ∧ e.seq < (c.w 0).toNat + (c.w 1).toNat)
      Fits (packWordsBE (es.flatMap LogEntry.bytes)).length.succ c s →
      Answers (.pwLogRead c) 0x0B05 c s (w32 oldest.seq :: packWordsBE (es.flatMap LogEntry.bytes)) (s.dequeue 0x0B05 c))) ∧
  (∀ d, Taken 0x0B06 c s → c.payload = [] → Fits 2 c s → ∃ e w, Answers (.pwDiodeRead c d) 0x0B06 c s [e.reg PW_DIODE, w] e ∧ e.flag PW_DIODE PW_DIODE_VALID = true ∧
    e.rf PW_DIODE PW_DIODE_TEMP = temp16 d ∧ e = { (s.dequeue 0x0B06 c) with regs := e.regs, free := s.free + 1 } ∧
    (∀ a, a ∉ [PW_DIODE, CP_Q_STAT] → e.reg a = s.reg a) ∧
    ∀ n, 40 ≤ n → n < 62 → s.sensOk n = true → (∀ m, 40 ≤ m → m < 62 → s.sensOk m = true → (s.sensor m).temp ≤ (s.sensor n).temp) → w = w32 (temp16 (s.sensor n).temp))

/-- R173, R176, R177, R182, R183, R188, R190, R191, standalone. -/
def Obligations.StagingPassesAndTheirSums : Prop := ∀ (s : State), s.on = true →
  (∀ rec, (rec = true → s.ch.recs = []) → (rec = false → s.md.fills = []) → exec (.stagingFillArrival rec) s = .next s) ∧
  (∀ r rs, s.ch.recs = r :: rs → s.ctRuns = false → s.ct.olds = [] → ∃ t, exec (.stagingFillArrival true) s = .next t ∧ t.ch.recs = rs ∧
    t.ix.recs.head? = some { r with path := s.arrayPath r.path } ∧ t = { s with ch := { s.ch with recs := rs }, ix := { s.ix with recs := t.ix.recs } }) ∧
  (∀ f fs, s.md.fills = f :: fs → s.ctRuns = false → s.ct.olds = [] → s.pw.compOn = true →
    (∀ h, s.halfOf f.st = some h → f.st < s.ix.nextBase → ∃ t, exec (.stagingFillArrival false) s = .next t ∧
      t = { s with md := { s.md with fills := fs }, ix := t.ix } ∧ (t.half (!h)) = s.half (!h) ∧ ∃ x ∈ (t.half h).specs, x.st = f.st ∧
        let y := tblGet stPathNone x.paths (512 * (s.half h).member + f.path)
        y.here = true ∧ y.loss = f.loss ∧ y.crc = f.crc ∧ y.warm = f.warm ∧ y.seeded = f.seeded ∧
        ∀ c, (s.half h).first ≤ c → c < (s.half h).first + (s.half h).count → c < f.data.length → tblGet 0 y.data c = f.data.getD c 0) ∧
    (∀ n, s.halfOf f.st = none → s.ix.half0.base.isSome = true → s.ix.half1.base.isSome = true → f.st = s.ix.nextBase + 8192 * n →
      (s.stCfg s.ix.nextBase).t ≠ 0 → ∃ t, exec (.stagingFillArrival false) s = .next t ∧ t.ix.half0 = s.ix.half0 ∧ t.ix.half1 = s.ix.half1 ∧
        t.ix.drops.head? = some f.st ∧ t.ix.nextBase = f.st + 8192 ∧
        t.reg IX_STAGE_DROPS = w32 (min (2 ^ 32 - 1) ((s.reg IX_STAGE_DROPS).toNat + n + 1)) ∧
        t.flag IX_STAT IX_STAT_DROP_SEEN = true ∧ t.rfb EV_INT_STAT EV_INT_STAT_PEND evIndigo = true ∧
        ∀ b, n = 0 → s.bankAt f.st = some b → (t.bank b).stageDrops = (s.bank b).stageDrops + 1)) ∧
  (∀ d < 2, s.pw.compOn = true → s.ix.half0.pass d ≠ .busy → s.ix.half1.pass d ≠ .busy →
    let ready := fun (h : Half) => h.full = true ∧ h.pass d = .waiting
    (¬ ready s.ix.half0 → ¬ ready s.ix.half1 → exec (.indigoPassStart d) s = .next s) ∧
    (ready s.ix.half0 → ¬ ready s.ix.half1 → ∃ t, exec (.indigoPassStart d) s = .next t ∧ t.ix.half0.pass d = .busy ∧ t.ix.half1 = s.ix.half1 ∧
      t = { s with regs := t.regs, fresh := t.fresh, out := t.out, ix := { s.ix with half0 := t.ix.half0 } } ∧
      (t.rf IX_SHED (if d = 0 then IX_SHED_DIE0 else IX_SHED_DIE1) = t.ix.half0.shedOf d) ∧
      (∀ p ≤ 3, (∀ q < p, s.fits d q s.ix.half0 = false) → (p = 3 ∨ s.fits d p s.ix.half0 = true) → ∀ q < 4,
        (bit (t.ix.half0.shedOf d) q = true ↔ q < p ∧ ∃ r ∈ s.halfRegions s.ix.half0, r.prio = q ∧ binsOn s.ix.half0.first s.ix.half0.count d r ≠ [])) ∧
      (t.ix.half0.shedOf d = 0 → t.reg IX_SHED_PASSES = s.reg IX_SHED_PASSES ∧ t.reg IX_STAT = s.reg IX_STAT) ∧
      (t.ix.half0.shedOf d ≠ 0 → t.reg IX_SHED_PASSES = w32 (min (2 ^ 32 - 1) ((s.reg IX_SHED_PASSES).toNat + 1)) ∧ t.flag IX_STAT IX_STAT_SHED_SEEN = true))) ∧
  (∀ d < 2, s.ix.half0.pass d ≠ .busy → s.ix.half1.pass d ≠ .busy → exec (.indigoPassEnd d) s = .next s) ∧
  (∀ d < 2, ∀ b, s.ix.half0.pass d = .busy → s.ix.half1.pass d ≠ .busy → s.bankAt (s.ix.half0.base.getD 0) = some b →
    let h := s.ix.half0
    let x := s.bank b
    let shed := fun (rg : Region) => bit (h.shedOf d) rg.prio
    ∃ t, exec (.indigoPassEnd d) s = .next t ∧ t = { s with regs := t.regs, fresh := t.fresh, out := t.out, ix := t.ix } ∧ t.bank (!b) = s.bank (!b) ∧ t.ix.half1 = s.ix.half1 ∧
      (∀ r rg i j n, x.regions[r]? = some rg → i < j → j < modePaths x.mode → rg.bFirst ≤ baseline i j → baseline i j < rg.bFirst + rg.bCount → n < rg.nBins →
        let e := vatBase x.regions r + (baseline i j - rg.bFirst) * rg.nBins + n
        let v := crossSum h.specs i j (rg.binFirst n) rg.binW
        if dieOf h.first h.count (rg.binFirst n) = d ∧ shed rg = false then
          tblGet 0 (t.bank b).vat (2 * e) = (satAddC (tblGet 0 x.vat (2 * e)) v.1).1 ∧
          tblGet 0 (t.bank b).vat (2 * e + 1) = (satAddC (tblGet 0 x.vat (2 * e + 1)) v.2).1
        else tblGet 0 (t.bank b).vat (2 * e) = tblGet 0 x.vat (2 * e) ∧ tblGet 0 (t.bank b).vat (2 * e + 1) = tblGet 0 x.vat (2 * e + 1)) ∧
      (∀ p c, p < modePaths x.mode → h.first ≤ c → c < h.first + h.count →
        let i := p * h.count + (c - h.first)
        tblGet 0 (t.bank b).spec i = if dieOf h.first h.count c = d then (satAddC (tblGet 0 x.spec i) (autoSum h.specs p c)).1 else tblGet 0 x.spec i) ∧
      (∀ r rg, x.regions[r]? = some rg → tblGet 0 (t.bank b).acc (2 * r + d) = tblGet 0 x.acc (2 * r + d) + (if shed rg = true then 0 else h.specs.length)) ∧
      (h.pass (1 - d) ≠ .over → t.ix.half0 = h.setPass d .over (h.shedOf d)) ∧
      (h.pass (1 - d) = .over → (h.woad = .over ∨ s.wdRuns = false) → t.ix.half0 = halfFree ∧ t.ix.done = max s.ix.done (h.base.getD 0 + 8192 * h.cap)))

/-- R184 to R186, R192 to R194, R204, R205, on a unit that sends no checkpoints. -/
def Obligations.IntegrationsCloseDrainAndChange : Prop := ∀ (s : State), s.on = true → s.ckptOn = false →
  let count := fun (a : Nat) => w32 (min (2 ^ 32 - 1) ((s.reg a).toNat + 1))
  (∀ c, s.curBank = some c →
    let due := s.integrating = true ∧ s.running = true ∧ s.pw.compOn = true ∧ s.ix.deferred = false ∧ s.dueAt ≤ s.now
    (¬ due → exec .integrationBoundary s = .next s) ∧
    (due → (s.bank (!c)).start = none → ∃ t, exec .integrationBoundary s = .next t ∧ (t.bank c).stop = some s.dueAt ∧ (t.bank c).vat = (s.bank c).vat ∧
      (t.bank (!c)).start = some s.dueAt ∧ (t.bank (!c)).stop = none ∧ (t.bank (!c)).vat = [] ∧ (t.bank (!c)).spec = [] ∧
      t.rf IX_STAT IX_STAT_STATE = 1 ∧ (s.dueAt, true) ∈ t.ch.bounds ∧ t.mem = s.mem ∧ t.events = s.events ∧ t.log = s.log ∧
      ∀ n, s.ix.anchor + n * s.intLen = s.dueAt → 0 < s.intLen → s.dueAt + s.intLen < 2 ^ 64 → t.dueAt = s.dueAt + s.intLen) ∧
    (due → (s.bank (!c)).start ≠ none → ∃ t, exec .integrationBoundary s = .next t ∧ t.ix.deferred = true ∧ bit (t.bank c).flags 0 = true ∧ (t.bank c).stop = none ∧
      t.bank (!c) = s.bank (!c) ∧ t.reg IX_OVERRUNS = count IX_OVERRUNS ∧ t.flag IX_STAT IX_STAT_OVERRUN_SEEN = true ∧ t.mem = s.mem ∧ t.events = s.events)) ∧
  (s.curBank = none → exec .integrationBoundary s = .next s) ∧
  (s.closing = none → exec .bankClose s = .next s) ∧
  (∀ c, s.closing = some c → ∃ t, exec .bankClose s = .next t ∧ t.bank c = { s.bank c with draining := true, packed := s.flag IX_CTL IX_CTL_FMT } ∧
    t.bank (!c) = s.bank (!c) ∧ t.rf IX_BANK_STAT IX_BANK_STAT_DRAINING = 1 ∧
    t.rf IX_BANK_STAT IX_BANK_STAT_DRAIN_WAIT = b2n (!s.ix.lostQ.isEmpty || (s.recordPlace (t.bank c) false).isNone) ∧
    (∀ a, (s.bank (!c)).start = some a → t.rf IX_BANK_STAT IX_BANK_STAT_OPEN = b2n (!c) ∧ t.reg64 IX_INT_START_LO = a % 2 ^ 64) ∧
    t = { s with regs := t.regs, ix := t.ix } ∧ t.ix.half0 = s.ix.half0 ∧ t.ix.half1 = s.ix.half1 ∧ ∀ o, o ∉ [IX_BANK_STAT, IX_INT_START_LO, IX_INT_START_LO + 4] → t.reg o = s.reg o) ∧
  (s.drainBank = none → s.ix.lostQ = [] → (s.closeDue = false ∨ s.freeBank.isSome = true → exec .drainEnd s = .next s) ∧
    ∃ t, exec .drainRingSpace s = .next t ∧ t.rf IX_BANK_STAT IX_BANK_STAT_DRAIN_WAIT = 0 ∧ OnlyRegs [IX_BANK_STAT] s t) ∧
  (∀ x which rest, s.ix.lostQ = (x, which) :: rest →
    (s.recordPlace x true = none → ∃ t, exec .drainRingSpace s = .next t ∧ t.rf IX_BANK_STAT IX_BANK_STAT_DRAIN_WAIT = 1 ∧ OnlyRegs [IX_BANK_STAT] s t) ∧
    (∀ off, rest = [] → s.recordPlace x true = some off → ∃ t, exec .drainRingSpace s = .next t ∧ t.ix.lostQ = [] ∧
      t.reg IX_INT_SEQ = s.reg IX_INT_SEQ + 1 ∧ t.reg IX_LOST_INTEG = count IX_LOST_INTEG ∧ t.flag IX_STAT IX_STAT_LOST_SEEN = true ∧
      t.rfb EV_INT_STAT EV_INT_STAT_PEND evIndigo = true ∧
      (s.recordOut x = true → s.drIn (s.reg64 IX_DUMP_BASE_LO + off) (s.record x which true).length = true → ∀ i < (s.record x which true).length, t.memByte (s.reg64 IX_DUMP_BASE_LO + off + i) = (s.record x which true).getD i 0))) ∧
  (∀ c, s.drainBank = some c → s.ix.lostQ = [] → (s.closeDue = false ∨ s.freeBank.isSome = true) →
    let rec' := s.record (s.bank c) c false
    let base := s.reg64 IX_DUMP_BASE_LO
    (∃ t, exec .drainRingSpace s = .next t ∧ OnlyRegs [IX_BANK_STAT] s t ∧
      t.rf IX_BANK_STAT IX_BANK_STAT_DRAIN_WAIT = b2n (s.recordPlace (s.bank c) false).isNone) ∧
    (s.recordPlace (s.bank c) false = none → exec .drainEnd s = .next s) ∧
    (∀ off, s.recordPlace (s.bank c) false = some off → ∃ t, exec .drainEnd s = .next t ∧ t.reg IX_INT_SEQ = s.reg IX_INT_SEQ + 1 ∧
      (s.recordOut (s.bank c) = false → t.mem = s.mem ∧ t.ix.ring = s.ix.ring ∧ t.reg IX_DUMP_WR = s.reg IX_DUMP_WR) ∧
      (s.recordOut (s.bank c) = true → (s.drIn (base + off) rec'.length = true → ∀ i < rec'.length, t.memByte (base + off + i) = rec'.getD i 0) ∧
        (s.drIn (base + off) rec'.length = false → t.mem = s.mem ∧ t.reg GLB_AV_COUNT = count GLB_AV_COUNT) ∧
        (∀ a, (a < base + off ∨ base + off + rec'.length ≤ a) → t.memByte a = s.memByte a) ∧ t.reg IX_DUMP_WR = w32 (off + rec'.length) ∧
        t.ix.ring = s.ix.ring ++ [{ seq := (s.reg IX_INT_SEQ).toNat, off := off, len := rec'.length, sent := 0, stream := s.flag IX_CTL IX_CTL_EXPORT_ETH, freed := false }]) ∧
      (s.ix.deferred = false → t.bank c = bankFree ∧ t.bank (!c) = s.bank (!c) ∧ t.rf IX_BANK_STAT IX_BANK_STAT_DRAINING = 0 ∧
        (s.integrating = true ∨ (s.bank (!c)).start = none → t.events = s.events) ∧
        t.rf IX_STAT IX_STAT_STATE = if s.rf IX_STAT IX_STAT_STATE = 2 ∧ (s.bank (!c)).start = none then 0 else s.rf IX_STAT IX_STAT_STATE) ∧
      (s.ix.deferred = true → s.curBank = some (!c) → t.ix.deferred = false ∧ (t.bank (!c)).stop = some (spectrumAt s.now) ∧ (t.bank c).start = some (spectrumAt s.now) ∧
        (t.bank c).vat = [] ∧ bit (t.bank c).flags 1 = true))) ∧
  (∀ e, s.nextFire = some e → s.running = true → e.committed = true → e.f ≤ s.now → s.noAction e = false →
    let d := setDesc (e.cmd.payload.drop 2)
    (e.op = 0x0401 → d.regions ≠ [] → ∃ t, exec .eventFire s = .next t ∧ t.flag IX_CTL IX_CTL_RUN = true ∧ t.rf IX_CTL IX_CTL_FMT = d.fmt % 2 ∧
      t.rf IX_INT_LEN IX_INT_LEN_NSPEC = d.nspec % 2 ^ 25 ∧ t.rf IX_STAGE IX_STAGE_T = stageT (modePaths s.mode) (selection d.regions).2 % 2 ^ 13 ∧
      t.reg IX_STAGE_CH = w32 ((selection d.regions).1 * 65536 + (selection d.regions).2) ∧ t.ix.regions = d.regions ∧ t.ix.anchor = e.f ∧
      (s.stNow.t = 0 → t.ix.nextBase = e.f) ∧ (s.stNow.t ≠ 0 → (e.f, s.stNow) ∈ t.ix.olds) ∧
      (s.integrating = false → s.ix.bankA.start = none → t.ix.bankA.start = some e.f ∧ t.ix.bankA.regions = d.regions ∧ t.ix.bankA.vat = [] ∧
        bit t.ix.bankA.flags fConfigChange = true) ∧
      (∀ c, s.integrating = true → s.curBank = some c → (s.bank c).start ≠ some e.f → (s.bank (!c)).start = none → (t.bank c).stop = some e.f ∧
        (t.bank (!c)).start = some e.f ∧ (t.bank (!c)).regions = d.regions ∧ bit (t.bank (!c)).flags fConfigChange = true)) ∧
    (e.op = 0x0403 → ∃ t, exec .eventFire s = .next t ∧ t.flag IX_CTL IX_CTL_RUN = false ∧
      (∀ c, s.curBank = some c → (s.bank c).start ≠ some e.f → (t.bank c).stop = some e.f ∧ t.rf IX_STAT IX_STAT_STATE = 2) ∧
      (s.ix.bankA.start = none → s.ix.bankB.start = none → t.rf IX_STAT IX_STAT_STATE = 0)))

/-- R187, R189, R193, R205. -/
def Obligations.CorrelatorCommandsTakeEffect : Prop := ∀ (s : State) (c : Cmd),
  (∀ d, Taken 0x0402 c s → d = setDesc c.payload → c.payload.length = setLen c.payload →
    (∀ b, s.setBad d (fun r => 2 + 4 * r) = some b → Refuses (.ixBudgetCheck c) 0x0402 c s b.status b.word b.words) ∧
    (s.setBad d (fun r => 2 + 4 * r) = none →
      (∀ q, s.setOver d = some q → Refuses (.ixBudgetCheck c) 0x0402 c s stBudget 0 [w32 q.1, w32 q.2]) ∧
      (s.setOver d = none → Fits 3 c s → ∃ m, Answers (.ixBudgetCheck c) 0x0402 c s (w32 m :: (List.range 2).map fun die =>
          utilWord s.time.rateN (modePaths s.mode) (selection d.regions).1 (selection d.regions).2 die d.regions) (s.dequeue 0x0402 c) ∧
        ∀ r rg, d.regions[r]? = some rg → (bit m r = true ↔ (2 ^ 31 - 1) / (98 * rg.binW) < d.nspec)))) ∧
  (Taken 0x0404 c s → c.payload = [] → Fits 11 c s → Answers (.ixStatus c) 0x0404 c s (([IX_STAT, IX_BANK_STAT, IX_INT_SEQ, IX_NEXT_CLOSE_LO, IX_NEXT_CLOSE_HI, IX_SHED,
    IX_OVERRUNS, IX_SHED_PASSES, IX_STAGE_DROPS, IX_SAT_ENTRIES, IX_LOST_INTEG]).map s.reg) (s.dequeue 0x0404 c)) ∧
  (Taken 0x0405 c s → c.payload.length = 1 →
    ((∀ r ∈ s.ix.ring, r.seq ≠ (c.w 0).toNat) → Refuses (.ixDumpRelease c) 0x0405 c s stBadParam 0 []) ∧
    (∀ before r after, s.ix.ring = before ++ r :: after → r.seq = (c.w 0).toNat → (∀ x ∈ before, x.seq ≠ (c.w 0).toNat) → Fits 0 c s →
      ∃ e, Answers (.ixDumpRelease c) 0x0405 c s [] e ∧ e = { (s.dequeue 0x0405 c) with regs := e.regs, ix := { s.ix with ring := after.dropWhile (·.freed) } } ∧
        e.reg IX_DUMP_RD = (match after.dropWhile (·.freed) with | [] => s.reg IX_DUMP_WR | x :: _ => w32 x.off) ∧ ∀ o, o ∉ [IX_DUMP_RD, CP_Q_STAT] → e.reg o = s.reg o)) ∧
  (∀ gs, Taken 0x0406 c s → c.payload.length = 1 →
    gs = (dieGroups (modePaths s.mode) s.selFirst s.selCount (c.f 0 9 0 / 512) s.ix.regions).zipIdx.filter (fun g => 512 * (c.f 0 9 0 / 512) + g.2 % 512 == c.f 0 9 0) →
    Fits (4 * gs.length) c s → Answers (.ixTileMap c) 0x0406 c s (gs.flatMap fun g => [w32 (g.1.region.getD 0xFF), w32 g.1.m, w32 g.1.n, w32 g.1.ch]) (s.dequeue 0x0406 c)) ∧
  (Taken 0x0407 c s → c.payload.length = 3 →
    (c.q 0 % 4096 ≠ 0 → Refuses (.ixDumpRing c) 0x0407 c s stBadParam 0 []) ∧
    (c.q 0 % 4096 = 0 → (c.w 2).toNat % 4096 ≠ 0 → Refuses (.ixDumpRing c) 0x0407 c s stBadParam 2 []) ∧
    (c.q 0 % 4096 = 0 → (c.w 2).toNat % 4096 = 0 →
      (s.rf IX_STAT IX_STAT_STATE ≠ 0 → Refuses (.ixDumpRing c) 0x0407 c s stWrongState 0 []) ∧
      (s.rf IX_STAT IX_STAT_STATE = 0 → s.ix.regions ≠ [] →
        (c.w 2).toNat < 2 * setRecordLen s.mode { nspec := s.rf IX_INT_LEN IX_INT_LEN_NSPEC, fmt := s.rf IX_CTL IX_CTL_FMT, regions := s.ix.regions } →
        Refuses (.ixDumpRing c) 0x0407 c s stBudget 0 [6, 0]) ∧
      (s.rf IX_STAT IX_STAT_STATE = 0 → s.ix.regions = [] → Fits 0 c s → ∃ e, Answers (.ixDumpRing c) 0x0407 c s [] e ∧ e.reg64 IX_DUMP_BASE_LO = c.q 0 ∧
        e.reg IX_DUMP_LEN = c.w 2 ∧ e.reg IX_DUMP_WR = 0 ∧ e.reg IX_DUMP_RD = 0 ∧ e = { (s.dequeue 0x0407 c) with regs := e.regs, ix := { s.ix with ring := [] } } ∧
        ∀ o, o ∉ [IX_DUMP_BASE_LO, IX_DUMP_BASE_LO + 4, IX_DUMP_LEN, IX_DUMP_WR, IX_DUMP_RD, CP_Q_STAT] → e.reg o = s.reg o)))

/-- R206, R220 to R231, R177. -/
def Obligations.WoadFormsBeams : Prop := ∀ (s : State), s.on = true → s.wd.olds = [] →
  let c := s.wdRegs
  let h := s.ix.half0
  let count := fun (a : Nat) => w32 (min (2 ^ 32 - 1) ((s.reg a).toNat + 1))
  let ready := fun (x : Half) => x.full = true ∧ x.woad = .waiting
  let idle := fun (x : BeamSt) => x.opened = [] ∧ x.ready = [] ∧ x.tpStart = none ∧ x.tpDone = []
  (s.wd.gap = none → (s.wdRuns = false ∨ s.woadOn = false ∨ h.woad = .busy ∨ s.ix.half1.woad = .busy ∨ (¬ ready h ∧ ¬ ready s.ix.half1)) →
    exec .woadPassStart s = .next s) ∧
  (s.wd.gap = none → s.ix.drops = [] → s.wdRuns = true → s.woadOn = true → s.ix.half1.woad ≠ .busy → ready h → ¬ ready s.ix.half1 →
    ∃ t, exec .woadPassStart s = .next t ∧
    let m := t.ix.half0.shedW
    let fits := s.wdFits c (modePaths h.mode) (s.rf PW_THROT PW_THROT_K_W)
    t.ix = { s.ix with half0 := { h with woad := .busy, shedW := m } } ∧ t.rf WD_STAT WD_STAT_SHED = m ∧ t.mem = s.mem ∧ t.md = s.md ∧ t.events = s.events ∧
    (∀ p ≤ 3, (∀ q < p, fits q = false) → (p = 3 ∨ fits p = true) →
      ∀ q < 4, (bit m q = true ↔ q < p ∧ ∃ b ∈ c.beams, bmPrio b.2 = q)) ∧
    (m = 0 → t.wd = { s.wd with shedB := 0 } ∧ ∀ o, o ≠ WD_STAT → t.reg o = s.reg o) ∧
    (m ≠ 0 → t.reg WD_SHED_PASSES = count WD_SHED_PASSES ∧ t.flag WD_STAT WD_STAT_SHED_SEEN = true) ∧
    ∀ b ws, (b, ws) ∈ c.beams → bit t.wd.shedB b = bit m (bmPrio ws) ∧ (bit m (bmPrio ws) = false → t.beam b = s.beam b ∧ t.reg (WD_BM_SEQ b) = s.reg (WD_BM_SEQ b)) ∧
      (bit m (bmPrio ws) = true → idle (s.beam b) → t.beam b = s.beam b ∧
        t.reg (WD_BM_SEQ b) = s.reg (WD_BM_SEQ b) + (if s.outputsAt (h.base.getD 0) = true then 1 else 0))) ∧
  ((s.woadOn = false ∨ (h.woad ≠ .busy ∧ s.ix.half1.woad ≠ .busy)) → exec .woadPassEnd s = .next s) ∧
  (∀ x, s.woadOn = true → h.woad = .busy → s.ix.half1.woad ≠ .busy → h.specs = [x] → h.base = some x.st → s.wd.next = x.st → s.wd.swaps = [] →
    ∃ t, exec .woadPassEnd s = .next t ∧ t = { s with regs := t.regs, fresh := t.fresh, out := t.out, ix := t.ix, wd := t.wd } ∧ t.wd.next = x.st + 8192 ∧ t.ix.half1 = s.ix.half1 ∧
      SameRegs [WD_CLIPS, WD_STAT] s t ∧ t.rf WD_STAT WD_STAT_SHED = 0 ∧ t.wd.shedB = 0 ∧
      (h.die0 = .over → h.die1 = .over → t.ix.half0 = halfFree) ∧ ((h.die0 ≠ .over ∨ h.die1 ≠ .over) → t.ix.half0 = { h with woad := .over }) ∧
      (∀ b, (∀ ws, (b, ws) ∉ c.beams) → t.beam b = s.beam b) ∧
      ∀ b ws, (b, ws) ∈ c.beams →
        let y := s.beam b
        let z := t.beam b
        let value := fun (i : Nat) => s.beamSum c b x (c.first + i)
        (bmFmt ws < 2 → bit s.wd.shedB b = true → z = y) ∧
        (bmFmt ws < 2 → bit s.wd.shedB b = false →
          (y.opened.length + 1 < bmSpk ws → ∃ sp, z = { y with opened := y.opened ++ [sp] } ∧ sp.st = x.st ∧ sp.y.length = c.count ∧
            ∀ i < c.count, sp.y.getD i (0, 0) = value i) ∧
          (bmSpk ws ≤ y.opened.length + 1 → ∃ ps, z = { y with opened := [], ready := y.ready ++ ps } ∧ ps.length = c.count / bmCpk ws ∧
            ∀ i p, ps[i]? = some p → p.firstCh = c.first + i * bmCpk ws ∧ p.nch = bmCpk ws ∧ p.nspec = y.opened.length + 1 ∧ p.format = bmFmt ws + 1 ∧ p.flags % 2 = 0)) ∧
        (2 ≤ bmFmt ws → (x.st + 8192) % (bmNint ws * 8192) ≠ 0 →
          z.opened = y.opened ∧ z.ready = y.ready ∧ z.tpDone = y.tpDone ∧ z.tpStart = (if y.tpStart.isSome = true then y.tpStart else some x.st) ∧
          (bit s.wd.shedB b = true → z.tp = y.tp ∧ z.tpN = y.tpN) ∧
          (bit s.wd.shedB b = false → z.tpN = y.tpN + 1 ∧ ∀ j, tblGet 0 z.tp j = tblGet 0 y.tp j +
            (((List.range c.count).filter fun i => i / bmPbin ws == j).map fun i => ((value i).1 * (value i).1 + (value i).2 * (value i).2).toNat).sum)) ∧
        (2 ≤ bmFmt ws → (x.st + 8192) % (bmNint ws * 8192) = 0 → z.tpStart = none ∧ z.tp = [] ∧ z.tpN = 0 ∧ z.ready = y.ready ∧
          ∃ ps, z.tpDone = y.tpDone ++ ps ∧ ps.length = c.count / bmCpk ws ∧
            ∀ i p, ps[i]? = some p → p.format = 3 ∧ p.firstCh = c.first + i * bmCpk ws ∧ p.countA = (if bit s.wd.shedB b = true then y.tpN else y.tpN + 1))) ∧
  (∀ b : Bool, s.wd.gap = none →
    let a := s.half b
    let due := s.wdRuns = true ∧ a.full = true ∧ a.woad ≠ .over ∧ (s.half (!b)).full = true ∧ a.base.getD 0 < (s.half (!b)).base.getD 0
    (¬ due → exec (.passDeadline b) s = .next s) ∧
    (∀ x, due → a.woad = .waiting → a.specs = [x] → a.base = some x.st → s.wd.next = x.st → c.beams ≠ [] → ∃ t, exec (.passDeadline b) s = .next t ∧
      t.reg WD_DROP_SPEC = count WD_DROP_SPEC ∧ t.flag WD_STAT WD_STAT_DROP_SEEN = true ∧ t.wd.next = x.st + 8192 ∧ t.free = s.free + 1 ∧
      t.half (!b) = s.half (!b) ∧ (t.half b = halfFree ∨ t.half b = { a with woad := .over }) ∧
      ∀ n ws, (n, ws) ∈ c.beams → bmFmt ws < 2 → bit s.wd.shedB n = false → (s.beam n).opened.length + 1 < bmSpk ws →
        ∃ sp, t.beam n = { s.beam n with opened := (s.beam n).opened ++ [sp] } ∧ sp.st = x.st ∧ bit sp.info 1 = true ∧ ∀ y ∈ sp.y, y = (0, 0))) ∧
  (∀ b < 64,
    let y := s.beam b
    let sent := fun (p : BeamPkt) (t : State) => (∀ k, k ≠ b → t.beam k = s.beam k) ∧ t.mem = s.mem ∧ t.ix = s.ix ∧
      (s.outputsAt p.atc = false → t.regs = s.regs ∧ t.et = s.et) ∧
      (s.outputsAt p.atc = true → t.reg (WD_BM_SEQ b) = s.reg (WD_BM_SEQ b) + 1 ∧ (t.reg WD_GAP_PKTS = if p.flags % 2 = 1 then count WD_GAP_PKTS else s.reg WD_GAP_PKTS) ∧
        (let n := bmPort p.regs
         s.flag (ET_P_STAT n) ET_P_STAT_LINK = false → (s.port n).txFill 1 + 200 + p.payload.length ≤ txPart 1 →
          ∃ f hd, (t.port n).tx = (s.port n).tx ++ [f] ∧ f.cls = 1 ∧ f.bytes = hd ++ s.beamBytes b p ∧ ∀ q, q ≠ n → t.port q = s.port q))
    (y.ready = [] → exec (.beamPacketEmit b) s = .next s) ∧
    (∀ p ps, y.ready = p :: ps → (∀ q ∈ ps ++ y.tpDone, p.atc ≤ q.atc) → ∃ t, exec (.beamPacketEmit b) s = .next t ∧
      if ∀ a ∈ y.tpStart, p.atc ≤ a then t.beam b = { y with ready := ps } ∧ sent p t
      else (∀ k, t.beam k = s.beam k) ∧ t.et = s.et ∧ t.regs = s.regs) ∧
    (y.tpDone = [] → exec (.totalPowerClose b) s = .next s) ∧
    (∀ p ps, y.tpDone = p :: ps → (∀ q ∈ ps ++ y.ready, p.atc ≤ q.atc) → ∃ t, exec (.totalPowerClose b) s = .next t ∧ t.beam b = { y with tpDone := ps } ∧ sent p t)) ∧
  ((s.wd.gap = none ∨ s.woadOn = false) → exec .woadResumeGap s = .next s) ∧
  (∀ g, s.wd.gap = some g → s.woadOn = true → ∃ t, exec .woadResumeGap s = .next t ∧ t.wd.gap = none ∧ t.ix = s.ix ∧ t.mem = s.mem ∧ t.events = s.events ∧
    (h.base = none → s.ix.half1.base = none → t.wd.next = s.ix.nextBase) ∧ (∀ a, h.base = some a → s.ix.half1.base = none → t.wd.next = a) ∧
    (∀ a a', h.base = some a → s.ix.half1.base = some a' → t.wd.next = min a a') ∧
    ∀ b ws, (b, ws) ∈ c.beams → idle (s.beam b) → t.beam b = s.beam b ∧ t.reg (WD_BM_SEQ b) = s.reg (WD_BM_SEQ b) + (if s.outputsAt (s.wdSince b g t.wd.next) = true then 1 else 0))

/-- R207 to R210, R213, R214, R224, R232 to R234. -/
def Obligations.WoadTablesAndCommands : Prop := ∀ (s : State),
  let slots := 262144
  let active := s.rf WD_TABLE WD_TABLE_ACTIVE
  let standby := 1 - active
  let slot := fun (u : State) (k i : Nat) => tblGet polyZero u.wd.tab (k * slots + i)
  (∀ c : Cmd, Taken 0x0501 c s → c.payload.length = 4 →
    (c.q 0 % 32 ≠ 0 → Refuses (.wdPolyLoad c) 0x0501 c s stBadParam 0 []) ∧
    (c.q 0 % 32 = 0 → slots ≤ (c.w 2).toNat → Refuses (.wdPolyLoad c) 0x0501 c s stBadParam 2 []) ∧
    (c.q 0 % 32 = 0 → (c.w 2).toNat < slots → slots < (c.w 2).toNat + (c.w 3).toNat → Refuses (.wdPolyLoad c) 0x0501 c s stBadParam 3 []) ∧
    (c.q 0 % 32 = 0 → (c.w 2).toNat < slots → (c.w 2).toNat + (c.w 3).toNat ≤ slots →
      (s.drFailed = true → Refuses (.wdPolyLoad c) 0x0501 c s stWrongState 0 []) ∧
      (s.drFailed = false → s.polyBusy = true → Refuses (.wdPolyLoad c) 0x0501 c s stResourceBusy 0 []) ∧
      (s.drFailed = false → s.polyBusy = false → s.cp.running.length < 8 → ∃ e, Progresses (.wdPolyLoad c) 0x0501 c s [] e ∧
        e.wd = { s.wd with load := some (c.q 0, (c.w 2).toNat, (c.w 3).toNat) } ∧ e.flag WD_TABLE WD_TABLE_LOADING = true ∧ e.ix = s.ix ∧ e.mem = s.mem))) ∧
  (∀ c : Cmd, Taken 0x0506 c s → c.payload.length = 1 →
    (5 < c.f 0 2 0 → Refuses (.wdPolyFetch c) 0x0506 c s stBadParam 0 []) ∧
    (c.f 0 2 0 ≤ 5 → s.polyBusy = true → Refuses (.wdPolyFetch c) 0x0506 c s stResourceBusy 0 []) ∧
    (c.f 0 2 0 ≤ 5 → s.polyBusy = false → s.cp.running.length < 8 → ∃ e, Progresses (.wdPolyFetch c) 0x0506 c s [] e ∧
      e.wd = { s.wd with fetch := some (c.f 0 2 0) } ∧ e.flag WD_TABLE WD_TABLE_LOADING = true ∧ e.ix = s.ix ∧ e.mem = s.mem)) ∧
  (∀ c : Cmd, Taken 0x0507 c s → c.payload.length = 1 →
    (5 < c.f 0 2 0 → Refuses (.wdPolyStore c) 0x0507 c s stBadParam 0 []) ∧
    (c.f 0 2 0 ≤ 5 → s.wd.store.isSome = true → Refuses (.wdPolyStore c) 0x0507 c s stResourceBusy 0 []) ∧
    (c.f 0 2 0 ≤ 5 → s.wd.store = none → s.cp.running.length < 8 → ∃ e, Progresses (.wdPolyStore c) 0x0507 c s [] e ∧
      e.wd = { s.wd with store := some (c.f 0 2 0) } ∧ e.ix = s.ix ∧ e.mem = s.mem)) ∧
  (s.on = true →
    (if s.flag WD_TABLE WD_TABLE_COPYING = true then
       ∃ t, exec .polyTableCopyDone s = .next t ∧ t.flag WD_TABLE WD_TABLE_COPYING = false ∧ (∀ i < slots, slot t standby i = slot s active i ∧ slot t active i = slot s active i) ∧
         t = { s with regs := t.regs, wd := { s.wd with tab := t.wd.tab } } ∧ ∀ o, o ≠ WD_TABLE → t.reg o = s.reg o
     else exec .polyTableCopyDone s = .next s) ∧
    ((s.wd.load = none ∨ s.runningOp 0x0501 = none) → exec .wdPolyLoadDone s = .next s) ∧
    (∀ a f n q, s.wd.load = some (a, f, n) → s.runningOp 0x0501 = some q → f + n ≤ slots → ∃ t, exec .wdPolyLoadDone s = .next t ∧ t.wd.load = none ∧
      t.flag WD_TABLE WD_TABLE_LOADING = false ∧ t.cp.running = s.cp.running.erase q ∧ t.mem = s.mem ∧
      (s.drIn a (32 * n) = true → (∀ i < n, slot t standby (f + i) = polyOf (s.memRead (a + 32 * i) 32)) ∧ (∀ i, (i < f ∨ f + n ≤ i) → i < slots → slot t standby i = slot s standby i) ∧
        ∀ i < slots, slot t active i = slot s active i) ∧
      (s.drIn a (32 * n) = false → t.wd.tab = s.wd.tab)) ∧
    ((s.wd.fetch = none ∨ s.runningOp 0x0506 = none) → exec .wdPolyFetchDone s = .next s) ∧
    (∀ k q, s.wd.fetch = some k → s.runningOp 0x0506 = some q → ∃ t, exec .wdPolyFetchDone s = .next t ∧ t.wd.fetch = none ∧ t.flag WD_TABLE WD_TABLE_LOADING = false ∧
      t.cp.running = s.cp.running.erase q ∧ ∀ i < slots, slot t standby i = tblGet polyZero s.wd.sets (k * slots + i) ∧ slot t active i = slot s active i) ∧
    ((s.wd.store = none ∨ s.runningOp 0x0507 = none) → exec .wdPolyStoreDone s = .next s) ∧
    (∀ k q, s.wd.store = some k → s.runningOp 0x0507 = some q → ∃ t, exec .wdPolyStoreDone s = .next t ∧ t.wd.store = none ∧ t.wd.tab = s.wd.tab ∧
      t.cp.running = s.cp.running.erase q ∧ (∀ i < slots, tblGet polyZero t.wd.sets (k * slots + i) = slot s active i) ∧
      ∀ j, (j < k * slots ∨ (k + 1) * slots ≤ j) → tblGet polyZero t.wd.sets j = tblGet polyZero s.wd.sets j)) ∧
  (∀ c : Cmd, Taken 0x0504 c s → c.payload.length = wdLen c.payload →
    let d := wdOf c.payload
    (∀ b, s.wdBad c.payload 0 = some b → Refuses (.wdBudgetCheck c) 0x0504 c s b.status b.word b.words) ∧
    (s.wdBad c.payload 0 = none → (∀ q, s.wdBudget d = some q → Refuses (.wdBudgetCheck c) 0x0504 c s stBudget 0 [w32 q.1, w32 q.2]) ∧
      (s.wdBudget d = none → Fits 1 c s → Answers (.wdBudgetCheck c) 0x0504 c s [s.wdUtil d] (s.dequeue 0x0504 c)))) ∧
  (∀ c : Cmd, Taken 0x0505 c s → c.payload = [] → Fits 71 c s → Answers (.wdStatus c) 0x0505 c s
    (([WD_STAT, WD_TABLE, WD_UTIL, WD_DROP_SPEC, WD_SHED_PASSES, WD_CLIPS, WD_GAP_PKTS] ++ (List.range 64).map WD_BM_SEQ).map s.reg) (s.dequeue 0x0505 c)) ∧
  (∀ e, s.on = true → s.nextFire = some e → s.running = true → e.committed = true → e.f ≤ s.now →
    (e.op = 0x0502 → ∃ t, exec .eventFire s = .next t ∧ t.rf WD_TABLE WD_TABLE_ACTIVE = standby ∧ t.rf WD_TABLE WD_TABLE_SEG = (s.rf WD_TABLE WD_TABLE_SEG + 1) % 65536 ∧
      t.flag WD_TABLE WD_TABLE_COPYING = true ∧ t.wd.tab = s.wd.tab ∧
      t.wd.swaps = (if s.wdRuns = true then s.wd.swaps else []) ++ [(e.f, s.polyTab active)]) ∧
    (e.op = 0x0503 → e.cmd.payload.length = 2 + wdLen (e.cmd.payload.drop 2) →
      let d := wdOf (e.cmd.payload.drop 2)
      ∃ t, exec .eventFire s = .next t ∧ t.flag WD_CTL WD_CTL_RUN = decide (d.beams ≠ []) ∧ t.flag WD_CTL WD_CTL_SB = d.sb ∧
        t.reg WD_CH = w32 (d.first * 65536 + d.count) ∧ t.reg WD_UTIL = s.wdUtil d ∧ t.wd.tab = s.wd.tab ∧
        (∀ b < 64, t.flag (WD_BM_CTL b) WD_BM_CTL_EN = d.beams.any (fun q => q.1 == b) ∧ t.reg (WD_BM_SEQ b) = s.reg (WD_BM_SEQ b)) ∧
        (s.wdRuns = true → t.wd.olds = s.wd.olds ++ [(e.f, s.wdRegs)] ∧ t.wd.next = s.wd.next ∧ t.wd.beams = s.wd.beams) ∧
        (s.wdRuns = false → t.wd.olds = s.wd.olds ∧ t.wd.next = e.f ∧ t.wd.gap = (if s.woadOn = true then none else some e.f) ∧
          ∀ b < 64, t.beam b = if d.beams.any (fun q => q.1 == b) then { beamReset with ready := (s.beam b).ready, tpDone := (s.beam b).tpDone } else s.beam b)))

/-- R240, R242, R244 to R246, R249 to R253, R259, R44. -/
def Obligations.TriggerPinsEdgesAndMessages : Prop := ∀ (s : State), s.on = true →
  let count := fun (a : Nat) => w32 (min (2 ^ 32 - 1) ((s.reg a).toNat + 1))
  let offered := fun (t : State) => t.reg SF_MSGS = count SF_MSGS ∧ t.sf.msgs = [] ∧ ∀ n < 4,
    (s.rfb SF_CTL SF_CTL_MSG_PORTS n = false → t.port n = s.port n) ∧
    (s.rfb SF_CTL SF_CTL_MSG_PORTS n = true →
      ((s.port n).c0Gap = false → (s.port n).c0q = [] → (s.port n).txFill 0 + 70 ≤ txPart 0 → s.flag (ET_P_STAT n) ET_P_STAT_LINK = false →
        ∃ f, t.port n = { s.port n with c0Gap := true, tx := (s.port n).tx ++ [f] } ∧ f.cls = 0 ∧ f.c0Message = true ∧ f.bytes.length = 66) ∧
      (((s.port n).c0Gap = true ∨ txPart 0 < (s.port n).txFill 0 + 70) → (s.port n).c0q.length < 64 →
        ∃ f, t.port n = { s.port n with c0q := (s.port n).c0q ++ [f], c0Gap := true } ∧ f.cls = 0 ∧ f.c0Message = true ∧ f.bytes.length = 66) ∧
      (64 ≤ (s.port n).c0q.length → t.port n = s.port n ∧ t.reg (ET_P_C0_OVERFLOW n) = count (ET_P_C0_OVERFLOW n)))
  (∀ k, if k < 16 ∧ 2 ^ s.rf (SF_TB_CTL k) SF_TB_CTL_A + 1 ≤ (s.tb k).train then
      ∃ t, exec (.trainingEnd k) s = .next t ∧ t.tb k = { s.tb k with train := 0 } ∧ t.flag (SF_TB_STAT k) SF_TB_STAT_TRAINING = false ∧
        (∀ j, j ≠ k → t.tb j = s.tb j) ∧ t = { s with regs := t.regs, sf := { s.sf with tb := t.sf.tb } } ∧ ∀ o, o ∉ [SF_TB_STAT k, SF_TB_BASE k] → t.reg o = s.reg o
    else exec (.trainingEnd k) s = .next s) ∧
  (∀ c p, ∃ t, exec (.hitHoldExpire c p) s = .next t ∧ t = { s with sf := { s.sf with hits := t.sf.hits } } ∧ ∀ i, tblGet 0 t.sf.hits i =
    if i = 512 * c + p ∧ tblGet 0 s.sf.hits i ≤ s.sf.idx then 0 else tblGet 0 s.sf.hits i) ∧
  (∀ o, if o < 8 ∧ bit s.sf.pins o = true ∧ bit s.sf.outs o = false ∧ tblGet 0 s.sf.fell o + s.rf SF_CTL SF_CTL_PW ≤ s.time.cycles then
      ∃ t, exec (.trigPulseEnd o) s = .next t ∧
        t.out = (if s.rfb SF_STAT SF_STAT_TRIG_NOW o = true then [Out.trig o (s.flag (SF_TRIG o) SF_TRIG_POL)] else []) ++ s.out ∧
        t = { s with regs := t.regs, out := t.out, sf := { s.sf with quiet := t.sf.quiet, pins := t.sf.pins } } ∧ (∀ q, bit t.sf.pins q = (bit s.sf.pins q && decide (q ≠ o))) ∧
        tblGet 0 t.sf.quiet o = s.time.cycles + 2 ∧ (∀ q < 8, q ≠ o → t.trigLevel q = s.trigLevel q) ∧
        (∀ q < 8, t.rfb SF_STAT SF_STAT_TRIG_NOW q = if q = o then false else s.rfb SF_STAT SF_STAT_TRIG_NOW q) ∧ ∀ a, a ≠ SF_STAT → t.reg a = s.reg a
    else exec (.trigPulseEnd o) s = .next s) ∧
  (∀ i asserted sub, 4 ≤ i → exec (.triginEdge i asserted sub) s = .next s) ∧
  (∀ i < 4, ∀ asserted sub, ∃ t, exec (.triginEdge i asserted sub) s = .next t ∧ t.mem = s.mem ∧ t.sf.slabs = s.sf.slabs ∧
    t.triginOn i = asserted ∧ (∀ q, q ≠ i → bit t.sf.tin q = bit s.sf.tin q) ∧
    ((asserted = false ∨ s.triginFunc i = 0) → t = { s with sf := { s.sf with tin := t.sf.tin } }) ∧
    (asserted = true → s.triginFunc i ≠ 0 →
      let chosen := s.freezesOn 0 (2 ^ i)
      t.reg64 (SF_TI_ATC_LO i) = s.now % 2 ^ 64 ∧ t.rf SF_TI_SUB ⟨8 * i, 4⟩ = sub % 16 ∧
      (chosen = false → t.ubState = s.ubState ∧ t.reg SF_UB_FRZ_IGN = s.reg SF_UB_FRZ_IGN ∧ t.sf.lastSlab = s.sf.lastSlab) ∧
      (chosen = true → s.ubFreezable = true → t.reg64 SF_UB_FRZ_ATC_LO = s.now % 2 ^ 64 ∧ t.reg SF_UB_FRZ_IGN = s.reg SF_UB_FRZ_IGN ∧
        (let last := s.now / 256 * 256 + 256 * min (s.ubAhead.rf SF_UB_POST SF_UB_POST_POST) (s.ubAhead.rf SF_UB_LEN SF_UB_LEN_LEN - 2)
         ((∀ a ∈ s.sf.fillAt, a ≤ last) → t.ubState = ubPost ∧ t.sf.lastSlab = some last ∧ t.sf.fillAt = s.sf.fillAt) ∧
         (∀ a ∈ s.sf.fillAt, last < a → t.sf.fillAt = none ∧ (s.sf.slabs = [] → t.ubState = ubFrozen ∧ t.reg SF_UB_FRZ_WR = s.reg SF_UB_WR) ∧
           ∀ x, s.sf.slabs.getLast? = some x → t.ubState = ubPost ∧ t.sf.lastSlab = some x.atc))) ∧
      (chosen = true → s.ubFreezable = false → t.ubState = s.ubState ∧ t.reg SF_UB_FRZ_IGN = count SF_UB_FRZ_IGN ∧ t.sf.lastSlab = s.sf.lastSlab) ∧
      ((bit (s.trigin i) 2 = false ∨ s.rf SF_CTL SF_CTL_MSG_PORTS = 0 ∨ s.msgsHeld s.now = true) → t.sf.span = s.sf.span ∧ t.sf.seq = s.sf.seq ∧ t.sf.msgs = s.sf.msgs ∧
        t.sf.follow = s.sf.follow ∧ t.et = s.et ∧ t.reg SF_MSGS = s.reg SF_MSGS) ∧
      (bit (s.trigin i) 2 = true → s.rf SF_CTL SF_CTL_MSG_PORTS ≠ 0 → s.msgsHeld s.now = false →
        (s.sf.span = false → s.sf.msgs = [] → t.sf.span = true ∧ t.sf.seq = (s.sf.seq + 1) % 2 ^ 32 ∧ offered t) ∧
        (s.sf.span = true → t.sf.seq = s.sf.seq ∧ t.et = s.et ∧ t.sf.span = true ∧ ∃ m, t.sf.follow = some m ∧
          (s.sf.follow = none → m.atc = s.now ∧ m.sub = sub % 16 ∧ m.tin = 2 ^ i ∧ m.extra = 0 ∧ m.trig = false) ∧
          ∀ f, s.sf.follow = some f → m.atc = f.atc ∧ m.extra = f.extra + 1 ∧ m.tin = Nat.lor f.tin (2 ^ i) ∧ m.uses = f.uses ∧ m.usesOld = f.usesOld)))) ∧
  (s.sf.span = false → exec .messageSpanEnd s = .next s) ∧
  (s.sf.span = true → s.sf.follow = none → exec .messageSpanEnd s = .next { s with sf := { s.sf with span := false } }) ∧
  (∀ m, s.sf.span = true → s.sf.follow = some m → (s.rf SF_CTL SF_CTL_MSG_PORTS = 0 ∨ s.msgsHeld m.atc = true) →
    exec .messageSpanEnd s = .next { s with sf := { s.sf with span := false, follow := none } }) ∧
  (∀ m, s.sf.span = true → s.sf.follow = some m → s.rf SF_CTL SF_CTL_MSG_PORTS ≠ 0 → s.msgsHeld m.atc = false → s.sf.msgs = [] → ∃ t, exec .messageSpanEnd s = .next t ∧ t.sf.span = true ∧ t.sf.follow = none ∧
    t.reg SF_COALESCED = count SF_COALESCED ∧ t.flag SF_STAT SF_STAT_COALESCE_SEEN = true ∧ t.sf.seq = (s.sf.seq + 1) % 2 ^ 32 ∧
    ((m.uses ≠ [] ∨ m.usesOld ≠ []) → t.sf.msgs = [{ m with seq := s.sf.seq, ready := false }] ∧ t.et = s.et) ∧ (m.uses = [] → m.usesOld = [] → offered t)) ∧
  (∀ q,
    ((∀ m ∈ s.sf.msgs, m.seq ≠ q ∨ s.usesChecked m = false) → exec (.messageCheckDone q) s = .next s) ∧
    ((∀ m ∈ s.sf.msgs, m.seq ≠ q ∨ s.usesChecked m = true) → exec (.messageCheckTimeout q) s = .next s) ∧
    (∀ m, s.sf.msgs = [m] → m.seq = q → m.ready = false → s.msgsHeld m.atc = false →
      (s.usesChecked m = true → m.unchecked = false → ∃ t, exec (.messageCheckDone q) s = .next t ∧ offered t ∧
        t.flag SF_STAT SF_STAT_UNCHECKED_SEEN = s.flag SF_STAT SF_STAT_UNCHECKED_SEEN) ∧
      (s.usesChecked m = false → ∃ t, exec (.messageCheckTimeout q) s = .next t ∧ offered t ∧ t.flag SF_STAT SF_STAT_UNCHECKED_SEEN = true)) ∧
    (∀ a m, s.sf.msgs = [a, m] → a.ready = false → a.seq ≠ q → m.seq = q → m.ready = false → s.usesChecked m = true →
      exec (.messageCheckDone q) s = .next { s with sf := { s.sf with msgs := [a, { m with ready := true, unchecked := false }] } }))

/-- R254 to R262, R264. -/
def Obligations.UmberWritesAndCommands : Prop := ∀ (s : State),
  let count := fun (a : Nat) => w32 (min (2 ^ 32 - 1) ((s.reg a).toNat + 1))
  let next256 := (s.sl.next + 255) / 256 * 256
  let rearmed := fun (t : State) => t.reg SF_UB_SPAN = 0 ∧ t.rf SF_UB_GEN SF_UB_GEN_GEN = (s.rf SF_UB_GEN SF_UB_GEN_GEN + 1) % 65536 ∧
    t.flag SF_UB_STAT SF_UB_STAT_CHG_HELD = false ∧ t.sf.held = none ∧ t.sf.newgen = true ∧ t.mem = s.mem ∧ t.reg SF_UB_CUT = s.reg SF_UB_CUT ∧
    (t.flag SF_UB_CTL SF_UB_CTL_EN = true → t.ubState = ubRunning ∧ t.sf.fillAt = some next256 ∧ t.sf.lastSlab = none) ∧
    (t.flag SF_UB_CTL SF_UB_CTL_EN = false → t.ubState = ubOff ∧ t.sf.fillAt = none) ∧
    (s.sf.held = none → t.reg SF_UB_WR = s.reg SF_UB_FRZ_WR ∧ t.reg SF_UB_LEN = s.reg SF_UB_LEN ∧ t.reg64 SF_UB_BASE_LO = s.reg64 SF_UB_BASE_LO) ∧
    (∀ c, s.sf.held = some c → t.reg SF_UB_WR = 0 ∧ t.rf SF_UB_LEN SF_UB_LEN_LEN = c.len % 2 ^ 24 ∧ t.reg64 SF_UB_BASE_LO = c.base % 2 ^ 64)
  (s.on = true →
    (s.sf.slabs = [] → exec .umberSlabWrite s = .next s) ∧
    (∀ x xs, s.sf.slabs = x :: xs →
      (s.slabChecked x = false → exec .umberSlabWrite s = .next s) ∧
      (s.slabChecked x = true →
        let n := s.ubPaths.length
        let wr := (s.reg SF_UB_WR).toNat
        let len := s.rf SF_UB_LEN SF_UB_LEN_LEN
        let slot := s.reg64 SF_UB_BASE_LO + wr * (384 * n + 64)
        let wr' := if wr + 1 < len then wr + 1 else 0
        let span' := if s.sf.lastWrit = some (x.atc - 256) ∧ 256 ≤ x.atc then min len ((s.reg SF_UB_SPAN).toNat + 1) else 1
        ∃ t, exec .umberSlabWrite s = .next t ∧ t.sf.slabs = xs ∧ t.sf.slabSeq = (s.sf.slabSeq + 1) % 2 ^ 32 ∧ t.sf.lastWrit = some x.atc ∧
          (s.drIn slot (384 * n + 64) = true → ∀ i < 64, t.memByte (slot + 384 * n + i) = (s.slabTrailer x).getD i 0) ∧
          (s.drIn slot (384 * n + 64) = true → ∀ i < 384 * n, t.memByte (slot + i) = if x.dropped = true then s.memByte (slot + i) else (s.slabBlocks x).getD i 0) ∧
          (∀ a, (a < slot ∨ slot + 384 * n + 64 ≤ a) → t.memByte a = s.memByte a) ∧
          (t.reg SF_UB_DROPS = if x.dropped = true then count SF_UB_DROPS else s.reg SF_UB_DROPS) ∧ (x.dropped = true → t.flag SF_UB_STAT SF_UB_STAT_DROP_SEEN = true) ∧
          t.sf.chgs = s.sf.chgs ∧
          ((∀ c ∈ s.sf.turn.head?, ∃ y ∈ xs, y.before c = true) → t.sf.turn = s.sf.turn ∧ t.reg SF_UB_WR = w32 wr' ∧ t.reg SF_UB_SPAN = w32 span' ∧
            t.flag SF_UB_STAT SF_UB_STAT_CHG_PENDING = (!s.sf.chgs.isEmpty || !s.sf.turn.isEmpty) ∧
            (s.sf.lastSlab = some x.atc → s.ubState = ubPost → (x.old = false ∨ s.sf.fillAt = none) → t.ubState = ubFrozen ∧ t.reg SF_UB_FRZ_WR = w32 wr' ∧ t.reg SF_UB_FRZ_SPAN = w32 span' ∧ t.sf.fillAt = none) ∧
            ((s.sf.lastSlab ≠ some x.atc ∨ s.ubState ≠ ubPost ∨ (x.old = true ∧ s.sf.fillAt ≠ none)) → t.ubState = s.ubState ∧ t.sf.fillAt = s.sf.fillAt)) ∧
          (∀ b c, s.sf.turn = [⟨b, false, some c⟩] → (∀ y ∈ xs, y.before ⟨b, false, some c⟩ = false) → s.sf.lastSlab ≠ some x.atc →
            t.sf.turn = [] ∧ t.flag SF_UB_STAT SF_UB_STAT_CHG_PENDING = !s.sf.chgs.isEmpty ∧ t.sf.held = s.sf.held ∧
            (s.ubState ≠ ubOff → c.sel = none → c.ctl = none → s.flag SF_UB_CTL SF_UB_CTL_EN = true → c.base < 2 ^ 64 → c.len < 2 ^ 24 →
              t.reg64 SF_UB_BASE_LO = c.base ∧ t.rf SF_UB_LEN SF_UB_LEN_LEN = c.len ∧ t.rf SF_UB_GEN SF_UB_GEN_GEN = (s.rf SF_UB_GEN SF_UB_GEN_GEN + 1) % 65536 ∧ t.ubState = s.ubState ∧
              (if c.base = s.reg64 SF_UB_BASE_LO ∧ wr' < c.len then t.reg SF_UB_WR = w32 wr' ∧ t.reg SF_UB_SPAN = w32 (min span' wr')
               else t.reg SF_UB_WR = 0 ∧ t.reg SF_UB_SPAN = 0)))))) ∧
  (∀ next b h c, s.sf.chgs = [(b, h, c)] →
    (next < b → s.sf.turn = [] → s.ubChanges next = s.setF SF_UB_STAT SF_UB_STAT_CHG_PENDING 1) ∧
    (b ≤ next → (s.ubChanges next).sf.chgs = [] ∧
      ((s.ubState = ubPost ∨ s.ubState = ubFrozen) → s.sf.turn = [] →
        (s.ubChanges next).flag SF_UB_STAT SF_UB_STAT_CHG_HELD = true ∧ (s.ubChanges next).flag SF_UB_STAT SF_UB_STAT_CHG_PENDING = false ∧
        (s.ubChanges next).sf.turn = [] ∧ (s.ubChanges next).sf.newgen = s.sf.newgen ∧ (s.ubChanges next).sf.fillAt = s.sf.fillAt ∧
        (s.sf.held = none → (s.ubChanges next).sf.held = some c) ∧
        (∀ g, s.sf.held = some g → (s.ubChanges next).sf.held = some { c with sel := c.sel.or g.sel, ctl := c.ctl.or g.ctl }) ∧
        ∀ o, o ≠ SF_UB_STAT → (s.ubChanges next).reg o = s.reg o) ∧
      (s.ubState = ubRunning → s.sf.turn = [] → (∃ y ∈ s.sf.slabs, y.atc < b) →
        (s.ubChanges next).sf.turn = [⟨b, false, some c⟩] ∧ (s.ubChanges next).sf.newgen = true ∧ (s.ubChanges next).flag SF_UB_STAT SF_UB_STAT_CHG_PENDING = true ∧
        (s.ubChanges next).sf.held = s.sf.held ∧ (∀ o, o ≠ SF_UB_STAT → (s.ubChanges next).reg o = s.reg o) ∧
        ((s.ubWrite c).flag SF_UB_CTL SF_UB_CTL_EN = false → (s.ubChanges next).sf.fillAt = none) ∧
        ((s.ubWrite c).flag SF_UB_CTL SF_UB_CTL_EN = true → s.sf.fillAt ≠ none → (s.ubChanges next).sf.fillAt = s.sf.fillAt)))) ∧
  (∀ v, s.on = true → (if bit v.toNat 0 = true ∧ s.ubState = ubFrozen then ∃ t, exec (.sfUbArm v) s = .next t ∧ rearmed t ∧ t.cp = s.cp else exec (.sfUbArm v) s = .next s)) ∧
  (∀ (r : Requester) v, s.on = true →
    let half := fun off => ((tblGet none s.staged (pairKey r off)).getD (s.reg off)).toNat
    let base := half SF_UB_BASE_LO + 2 ^ 32 * half SF_UB_BASE_HI
    let len := v.toNat % 2 ^ 24
    let b := spectrumAt (s.now + 100 * s.time.rateN)
    if s.ringOk base len (384 * s.ubPaths.length + 64) = true then
      ∃ t, exec (.sfUbLenWrite r v) s = .next t ∧ t.sf = { s.sf with chgs := t.sf.chgs } ∧
        ((∀ e ∈ s.events, e.handle ≠ 0) → ∃ l l', s.sf.chgs = l ++ l' ∧ (∀ q ∈ l, q.1 ≤ b) ∧ (∀ q ∈ l'.head?, b < q.1) ∧
          t.sf.chgs = l ++ (b, 0, { base := base, len := len, sel := none, ctl := none }) :: l') ∧
        t.flag SF_UB_STAT SF_UB_STAT_CHG_PENDING = true ∧ t = { s with regs := t.regs, sf := t.sf } ∧ ∀ o, o ≠ SF_UB_STAT → t.reg o = s.reg o
    else ∃ t, exec (.sfUbLenWrite r v) s = .next t ∧ t.sf = s.sf ∧ t.reg GLB_AV_COUNT = count GLB_AV_COUNT ∧ t.reg SF_UB_LEN = s.reg SF_UB_LEN ∧ t.mem = s.mem) ∧
  (∀ c : Cmd, Taken 0x0605 c s → c.payload = [] →
    (s.ubState ≠ ubFrozen → Refuses (.sfUbRearm c) 0x0605 c s stWrongState 0 []) ∧
    (s.ubState = ubFrozen → Fits 0 c s → ∃ e, Answers (.sfUbRearm c) 0x0605 c s [] e ∧ rearmed e ∧ e.cp = (s.dequeue 0x0605 c).cp)) ∧
  (∀ c : Cmd, Taken 0x0606 c s → c.payload = [] → Fits 11 c s → Answers (.sfUbStatus c) 0x0606 c s ([SF_UB_STAT, SF_UB_WR, SF_UB_SPAN, SF_UB_GEN, SF_UB_FRZ_ATC_LO,
    SF_UB_FRZ_ATC_HI, SF_UB_FRZ_WR, SF_UB_FRZ_SPAN, SF_UB_DROPS, SF_UB_FRZ_IGN, SF_UB_CUT].map s.reg) (s.dequeue 0x0606 c)) ∧
  (∀ c : Cmd, Taken 0x0603 c s → c.payload = [] → Fits 52 c s → Answers (.sfStatus c) 0x0603 c s
    (([SF_STAT, SF_MSGS, SF_COALESCED, SF_SEL_CLIPS] ++ (List.range 16).flatMap fun t => [SF_TB_STAT t, SF_TB_BASE t, SF_TB_FIRES t]).map s.reg) (s.dequeue 0x0603 c)) ∧
  (∀ c : Cmd, Taken 0x0602 c s →
    let n := (c.w 1).toNat
    let first := c.f 0 12 0
    1 ≤ n → n ≤ 1000 → c.payload.length = 2 + n →
    (8192 < first + n → Refuses (.sfTbpLoad c) 0x0602 c s stBadParam 1 []) ∧
    (first + n ≤ 8192 → (∃ i < n, bits (c.w (2 + i)).toNat 9 8 = 2) → ∃ w, 2 ≤ w ∧ w < 2 + n ∧ bits (c.w w).toNat 9 8 = 2 ∧ Refuses (.sfTbpLoad c) 0x0602 c s stBadParam w []) ∧
    (first + n ≤ 8192 → (∀ i < n, bits (c.w (2 + i)).toNat 9 8 ≠ 2) →
      (s.trigQueued = true → Refuses (.sfTbpLoad c) 0x0602 c s stResourceBusy 0 []) ∧
      (s.trigQueued = false → Fits 0 c s → ∃ e, Answers (.sfTbpLoad c) 0x0602 c s [] e ∧ e = { s.dequeue 0x0602 c with regs := e.regs } ∧
        (∀ i < n, e.rf (SF_TBP (first + i)) SF_TBP_WT = bits (c.w (2 + i)).toNat 9 8 ∧ e.rf (SF_TBP (first + i)) SF_TBP_DELAY = bits (c.w (2 + i)).toNat 7 0) ∧
        ∀ o, o ≠ CP_Q_STAT → (∀ i < n, o ≠ SF_TBP (first + i)) → e.reg o = s.reg o))) ∧
  (∀ e, s.on = true → s.nextFire = some e → s.running = true → e.committed = true → e.f ≤ s.now → e.op = 0x0601 →
    ∃ t, exec .eventFire s = .next t ∧ t.sf = { s.sf with cfgs := s.sf.cfgs ++ [(e.f, e.cmd.payload.drop 2)] })

/-- R267 to R269, R271, R273 to R276, R278 to R281. -/
def Obligations.PortsReceiveAndPause : Prop := ∀ (s : State) (n : Nat), s.on = true →
  let p := s.port n
  let count := fun (a : Nat) => w32 (min (2 ^ 32 - 1) ((s.reg a).toNat + 1))
  let only := fun (a : Nat) (t : State) => t.reg a = count a ∧ OnlyRegs [a] s t
  let others := fun (t : State) => ∀ q, q ≠ n → t.port q = s.port q
  let pfc := fun (q time : Nat) (f : TxFrame) => f.cls = 4 ∧ f.bytes = be 6 0x0180C2000001 ++ be 6 (s.mac (ET_P_MAC_LO n)) ++ be 2 0x8808 ++ be 2 0x0101 ++ be 2 (2 ^ q) ++
    (List.range 8).flatMap fun i => be 2 (if i = q then time else 0)
  let sends := fun (q time : Nat) (off : List Nat) (t : State) => others t ∧ (t.port n).xoff = off ∧ ∃ f, pfc q time f ∧
    (s.flag (ET_P_STAT n) ET_P_STAT_LINK = false → t.port n = { p with tx := p.tx ++ [f], xoff := off }) ∧
    (s.flag (ET_P_STAT n) ET_P_STAT_LINK = true → p.inTx = none → p.cut = none → p.tx = [] → (t.port n).inTx = some f ∧ (p.held = [] → (t.port n).tx = []))
  (∀ bytes coding,
    let l := bytes.length
    let bs := bytes.take (l - 4)
    let e := etherOf bs
    let err := fun (t : State) => t.reg (ET_P_RX_FCS_ERR n) = count (ET_P_RX_FCS_ERR n) ∧ t.flag (ET_P_STAT n) ET_P_STAT_FCS_SEEN = true ∧ t.et = s.et ∧
      OnlyRegsInt [ET_P_RX_FCS_ERR n, ET_P_STAT n] s t
    let max := s.rf (ET_P_CTL n) ET_P_CTL_MAXFRAME
    ((4 ≤ n ∨ s.flag (ET_P_STAT n) ET_P_STAT_LINK = false) → exec (.frameReceive n bytes coding) s = .next s) ∧
    (n < 4 → s.flag (ET_P_STAT n) ET_P_STAT_LINK = true →
      (coding = true → ∃ t, exec (.frameReceive n bytes coding) s = .next t ∧ err t) ∧
      (coding = false → l < 64 → ∃ t, exec (.frameReceive n bytes coding) s = .next t ∧ only (ET_P_RX_RUNT n) t) ∧
      (coding = false → 64 ≤ l → max < l → ∃ t, exec (.frameReceive n bytes coding) s = .next t ∧ only (ET_P_RX_OVERSIZE n) t) ∧
      (coding = false → 64 ≤ l → l ≤ max → crc32 bs ≠ leAt bytes (l - 4) 4 → ∃ t, exec (.frameReceive n bytes coding) s = .next t ∧ err t) ∧
      (coding = false → 64 ≤ l → l ≤ max → crc32 bs = leAt bytes (l - 4) 4 → ∃ t, exec (.frameReceive n bytes coding) s = .next t ∧ others t ∧
        t.reg64 (ET_P_RX_FRAMES_LO n) = min (2 ^ 64 - 1) (s.reg64 (ET_P_RX_FRAMES_LO n) + 1) ∧
        t.reg64 (ET_P_RX_OCTETS_LO n) = min (2 ^ 64 - 1) (s.reg64 (ET_P_RX_OCTETS_LO n) + l) ∧
        let passed := s.filterPass n (beAt bs 0 6)
        let kind := s.classify n e.1 e.2
        (passed = false → t.reg (ET_P_RX_FILTERED n) = count (ET_P_RX_FILTERED n) ∧ t.et = s.et) ∧
        (passed = true → kind = .ipDiscard → t.reg (ET_P_RX_IP_DISC n) = count (ET_P_RX_IP_DISC n) ∧ t.et = s.et) ∧
        (passed = true → kind = .unclaimed → t.reg (ET_P_RX_UNCLAIMED n) = count (ET_P_RX_UNCLAIMED n) ∧ t.et = s.et) ∧
        (passed = true → kind = .control → (beAt e.2 0 2 = 1 ∨ beAt e.2 0 2 = 0x0101) → t.port n = { p with ctl := p.ctl ++ [e.2] }) ∧
        (passed = true → kind = .control → beAt e.2 0 2 ≠ 1 → beAt e.2 0 2 ≠ 0x0101 → t.reg (ET_P_RX_FC_IGN n) = count (ET_P_RX_FC_IGN n) ∧ t.et = s.et) ∧
        ∀ c, passed = true → kind = .stored c →
          let f : RxFrame := { cls := c, etype := e.1, src := beAt bs 6 6, body := e.2, len := l, ptp := s.tm.ptp }
          let full := rxPart c < p.rxFill c + l
          let high := s.sendsPfc n c = true ∧ p.xoff.contains c = false ∧ 3 * rxPart c ≤ 4 * (p.rxFill c + l)
          (full → t.reg (rxDrop n c) = count (rxDrop n c) ∧ t.flag (ET_P_STAT n) ET_P_STAT_DROP_SEEN = true ∧ t.et = s.et) ∧
          (¬ full → (t.port n).rx = p.rx ++ [f] ∧ t.reg (rxDrop n c) = s.reg (rxDrop n c)) ∧
          (¬ full → ¬ high → t.port n = { p with rx := p.rx ++ [f] } ∧ tblGet [] t.tm.ts n =
            if isPtp f = true ∧ ptpType (ptpBody f) < 4 then
              ({ tx := false, kind := ptpType (ptpBody f), dom := ptpDomNum (ptpBody f), seq := ptpSeq (ptpBody f), ts := toBits 32 (s.pinTimeAt n false s.tm.ptp) } :: tblGet [] s.tm.ts n).take 64
            else tblGet [] s.tm.ts n) ∧
          (¬ full → high → (t.port n).xoff = c :: p.xoff ∧ (s.prio n c < 8 → t.rfb (ET_P_STAT n) ET_P_STAT_XOFF (s.prio n c) = true) ∧ (p.inTx = none → p.cut = none → p.tx = [] →
            ∃ g, pfc (s.prio n c) 0xFFFF g ∧ (t.port n).inTx = some g))))) ∧
  ((∀ f ∈ p.rx, f.etype ≠ 0x0806) → exec (.arpRequestReceived n) s = .next s) ∧
  (∀ (before : List RxFrame) (f : RxFrame) (after : List RxFrame), p.rx = before ++ f :: after → (∀ x ∈ before, x.etype ≠ 0x0806) → f.etype = 0x0806 → s.flag (ET_P_STAT n) ET_P_STAT_LINK = false →
    ∃ t g, exec (.arpRequestReceived n) s = .next t ∧ others t ∧ t = { s with et := t.et } ∧ g.cls = 3 ∧
      (t.port n = if txPart 3 < p.txFill 3 + 64 ∨ ∃ x ∈ p.held, x.cls = 3 then { p with rx := before ++ after, held := p.held ++ [g] } else { p with rx := before ++ after, tx := p.tx ++ [g] }) ∧
      g.bytes = be 6 f.src ++ be 6 (s.mac (ET_P_MAC_LO n)) ++ be 2 0x0806 ++ be 2 1 ++ be 2 0x0800 ++ be 1 6 ++ be 1 4 ++ be 2 2 ++ be 6 (s.mac (ET_P_MAC_LO n)) ++
        be 4 (s.reg (ET_P_IP n)).toNat ++ slice f.body 8 10) ∧
  (∀ c, let q := s.prio n c
    let on := n < 4 ∧ s.sendsPfc n c = true ∧ p.xoff.contains c = true ∧ rxPart c < 2 * p.rxFill c
    let off := n < 4 ∧ p.xoff.contains c = true ∧ 2 * p.rxFill c ≤ rxPart c
    (¬ on → exec (.pfcRefresh n c) s = .next s) ∧ (¬ off → exec (.pfcXon n c) s = .next s) ∧
    (on → ∃ t, exec (.pfcRefresh n c) s = .next t ∧ sends q 0xFFFF p.xoff t ∧ t.reg (ET_P_STAT n) = s.reg (ET_P_STAT n)) ∧
    (off → ∃ t, exec (.pfcXon n c) s = .next t ∧ sends q 0 (p.xoff.filter (· != c)) t ∧
      ∀ k < 8, t.rfb (ET_P_STAT n) ET_P_STAT_XOFF k = p.xoff.any fun d => d != c && s.prio n d == k)) ∧
  (n < 4 → ∀ op,
    let i : Instr := if op = 1 then .pauseFrameReceived n else .pfcFrameReceived n
    let seenBy := if op = 1 then ET_P_RX_PAUSE n else ET_P_RX_PFC n
    let mode := if op = 1 then 1 else 2
    (op = 1 ∨ op = 0x0101) →
    ((∀ b ∈ p.ctl, beAt b 0 2 ≠ op) → exec i s = .next s) ∧
    (∀ before b after, p.ctl = before ++ b :: after → (∀ x ∈ before, beAt x 0 2 ≠ op) → beAt b 0 2 = op → ∃ t, exec i s = .next t ∧
      (t.port n).ctl = before ++ after ∧ others t ∧ t.reg seenBy = count seenBy ∧
      (s.rf (ET_P_CTL n) ET_P_CTL_FC_MODE ≠ mode → t.port n = { p with ctl := before ++ after } ∧ t.reg (ET_P_RX_FC_IGN n) = count (ET_P_RX_FC_IGN n) ∧
        t.reg (ET_P_STAT n) = s.reg (ET_P_STAT n)) ∧
      (s.rf (ET_P_CTL n) ET_P_CTL_FC_MODE = mode → t.reg (ET_P_RX_FC_IGN n) = s.reg (ET_P_RX_FC_IGN n) ∧ ∀ q < 8,
        let chosen := op = 1 ∨ bit (beAt b 2 2) q = true
        let time := if op = 1 then beAt b 2 2 else beAt b (4 + 2 * q) 2
        (chosen → tblGet 0 (t.port n).timers q = time ∧ t.rfb (ET_P_STAT n) ET_P_STAT_PAUSED q = decide (time ≠ 0)) ∧
        (¬ chosen → tblGet 0 (t.port n).timers q = tblGet 0 p.timers q ∧ t.rfb (ET_P_STAT n) ET_P_STAT_PAUSED q = s.rfb (ET_P_STAT n) ET_P_STAT_PAUSED q)))) ∧
  (∀ q, if n < 4 ∧ q < 8 ∧ tblGet 0 p.timers q ≠ 0 then ∃ t, exec (.pauseTimerExpire n q) s = .next t ∧ others t ∧ ∀ k < 8,
      tblGet 0 (t.port n).timers k = (if k = q then 0 else tblGet 0 p.timers k) ∧
      t.rfb (ET_P_STAT n) ET_P_STAT_PAUSED k = (if k = q then false else s.rfb (ET_P_STAT n) ET_P_STAT_PAUSED k)
    else exec (.pauseTimerExpire n q) s = .next s)

/-- R39, R43, R44, R266, R267, R282, R296. -/
def Obligations.PortsSendAndLink : Prop := ∀ (s : State), s.on = true →
  let count := fun (a : Nat) => w32 (min (2 ^ 32 - 1) ((s.reg a).toNat + 1))
  (∀ n < 4,
    let p := s.port n
    let link := s.flag (ET_P_STAT n) ET_P_STAT_LINK
    let ok := s.flag (ET_P_STAT n) ET_P_STAT_PREEMPT_OK
    let others := fun (t : State) => (∀ q, q ≠ n → t.port q = s.port q) ∧ t.mem = s.mem ∧ t.events = s.events ∧ t.cp = s.cp
    (p.c0Gap = false → exec (.c0SpacingRelease n) s = .next s) ∧
    (p.c0Gap = true → p.c0q = [] → ∃ t, exec (.c0SpacingRelease n) s = .next t ∧ t.port n = { p with c0Gap := false } ∧ others t ∧ t = { s with et := t.et }) ∧
    (∀ f fs, p.c0Gap = true → p.c0q = f :: fs → txPart f.cls < p.txFill f.cls + f.len → exec (.c0SpacingRelease n) s = .next s) ∧
    (∀ f fs, p.c0Gap = true → p.c0q = f :: fs → p.txFill f.cls + f.len ≤ txPart f.cls → ∃ t, exec (.c0SpacingRelease n) s = .next t ∧ (t.port n).c0q = fs ∧ (t.port n).c0Gap = true ∧ others t ∧
      (link = false → t.port n = { p with c0q := fs, tx := p.tx ++ [f] }) ∧
      (link = true → p.inTx = none → p.cut = none → p.tx = [] → f.cls = 0 → s.paused n 0 = false → (t.port n).inTx = some f ∧ (p.held = [] → (t.port n).tx = []))) ∧
    (∀ late extra,
      (p.inTx = none → exec (.frameTransmitEnd n late extra) s = .next s) ∧
      (∀ f, p.inTx = some f → ∃ t, exec (.frameTransmitEnd n late extra) s = .next t ∧ others t ∧ (t.port n).excess = extra ∧
        (∃ pad, Out.frame n (f.bytes ++ pad ++ le 4 (crc32 (f.bytes ++ pad))) ∈ t.out ∧ (∀ x ∈ pad, x = 0) ∧ pad.length = 60 - f.bytes.length) ∧
        t.reg64 (ET_P_TX_FRAMES_LO n) = min (2 ^ 64 - 1) (s.reg64 (ET_P_TX_FRAMES_LO n) + 1) ∧
        t.reg64 (ET_P_TX_OCTETS_LO n) = min (2 ^ 64 - 1) (s.reg64 (ET_P_TX_OCTETS_LO n) + max 64 (f.bytes.length + 4)) ∧
        (t.reg (ET_P_C0_LATE n) = if late = true ∧ f.c0Message = true then count (ET_P_C0_LATE n) else s.reg (ET_P_C0_LATE n)) ∧
        (late = true → f.c0Message = true → t.flag (ET_P_STAT n) ET_P_STAT_C0_LATE_SEEN = true) ∧
        (t.reg (ET_P_C1_OVERRUN n) = if extra = true ∧ f.cls = 1 then count (ET_P_C1_OVERRUN n) else s.reg (ET_P_C1_OVERRUN n)) ∧
        (t.reg (ET_P_TX_PFC n) = if f.cls = 4 then count (ET_P_TX_PFC n) else s.reg (ET_P_TX_PFC n)) ∧
        (f.record = none → t.ix = s.ix) ∧
        (∀ q, f.record = some q → t.ix.ring = (s.ix.ring.map fun r => if r.seq = q then { r with freed := true } else r).dropWhile (·.freed)) ∧
        (link = true → p.cut = none → (p.tx = [] → (t.port n).inTx = none) ∧
          (∀ a b, p.tx = [a, b] → a.cls = 1 → b.cls = 0 → p.held = [] → (s.paused n 0 = false → (t.port n).inTx = some b ∧ (t.port n).tx = [a]) ∧
            (s.paused n 0 = true → s.paused n 1 = false → (t.port n).inTx = some a ∧ (t.port n).tx = [b])) ∧
          (∀ a b, p.tx = [a, b] → a.cls = 2 → a.resend = false → b.cls = 1 → p.held = [] → s.paused n 1 = false → s.paused n 2 = false →
            if extra = true then (t.port n).inTx = some a ∧ (t.port n).tx = [b] else (t.port n).inTx = some b ∧ (t.port n).tx = [a]) ∧
          (∀ a b, p.tx = [a, b] → a.cls = 2 → b.cls = 3 → p.held = [] → s.paused n 2 = false → s.paused n 3 = false →
            if p.turns < 3 then (t.port n).inTx = some a ∧ (t.port n).turns = p.turns + 1 else (t.port n).inTx = some b ∧ (t.port n).turns = 0) ∧
          (∀ a h, p.tx = [a] → p.held = [h] → a.cls = 2 → h.cls = 2 → s.paused n 2 = false → h.len ≤ txPart 2 →
            (t.port n).inTx = some a ∧ (t.port n).tx = [h] ∧ (t.port n).held = [])))) ∧
    (if s.flag (ET_P_CTL n) ET_P_CTL_EN = true ∧ link = false then ∃ t, exec (.linkUp n) s = .next t ∧ others t ∧ t.flag (ET_P_STAT n) ET_P_STAT_LINK = true ∧
        (t.port n).speedChange = false ∧ ((t.port n).verify = if s.flag (ET_P_CTL n) ET_P_CTL_PREEMPT = true then 1 else 0) ∧
        (s.flag (ET_P_CTL n) ET_P_CTL_PREEMPT = true → t.out = Out.verify n :: s.out) ∧
        (∀ f, p.tx = [f] → p.inTx = none → p.cut = none → f.cls = 1 → s.paused n 1 = false → (t.port n).inTx = some f)
      else exec (.linkUp n) s = .next s) ∧
    (if link = true then ∃ t, exec (.linkDown n) s = .next t ∧ others t ∧ t.flag (ET_P_STAT n) ET_P_STAT_LINK = false ∧ t.flag (ET_P_STAT n) ET_P_STAT_PREEMPT_OK = false ∧
        t.flag (ET_P_STAT n) ET_P_STAT_LINK_DOWN_SEEN = true ∧ t.port n = { p with inTx := none, cut := none, verify := 0 } ∧ t.log.head?.map (·.code) = some 0x0701 ∧
        t.reg64 (ET_P_TX_FRAMES_LO n) = s.reg64 (ET_P_TX_FRAMES_LO n) ∧ t.reg64 (ET_P_TX_OCTETS_LO n) = s.reg64 (ET_P_TX_OCTETS_LO n)
      else exec (.linkDown n) s = .next s) ∧
    (if 1 ≤ p.verify ∧ p.verify < 3 ∧ ok = false then ∃ t, exec (.preemptVerifyRetry n) s = .next t ∧ others t ∧ t.port n = { p with verify := p.verify + 1 } ∧
        t.out = Out.verify n :: s.out ∧ t.regs = s.regs
      else exec (.preemptVerifyRetry n) s = .next s) ∧
    (if 1 ≤ p.verify ∧ link = true then ∃ t, exec (.respondMpacketReceived n) s = .next t ∧ others t ∧ t.flag (ET_P_STAT n) ET_P_STAT_PREEMPT_OK = true ∧ (t.port n).verify = 0 ∧
        (p.tx = [] → p.cut = none → t.port n = { p with verify := 0 })
      else exec (.respondMpacketReceived n) s = .next s)) ∧
  ((s.flag IX_CTL IX_CTL_EXPORT_ETH = false ∨ s.outputs = false ∨ (∀ r ∈ s.ix.ring, r.stream = false ∨ r.sent ≠ 0)) → exec .dumpStreamSend s = .next s) ∧
  (∀ r, s.flag IX_CTL IX_CTL_EXPORT_ETH = true → s.outputs = true → s.ix.ring.find? (fun x => x.stream && x.sent == 0) = some r →
    let seg := s.rf ET_DS_CTL ET_DS_CTL_SEG
    let n := s.rf ET_DS_CTL ET_DS_CTL_PORT
    let k := (r.len + seg - 1) / seg
    ∃ t, exec .dumpStreamSend s = .next t ∧ t.mem = s.mem ∧ t.ix = { s.ix with ring := s.ix.ring.map fun x => if x.seq = r.seq then { x with sent := x.len } else x } ∧
      (seg = 0 → t.et = s.et) ∧
      (seg ≠ 0 → s.flag (ET_P_STAT n) ET_P_STAT_LINK = false → t.reg ET_DS_SEQ = s.reg ET_DS_SEQ + w32 k ∧ (∀ q, q ≠ n → t.port q = s.port q) ∧
        ∃ fs : List TxFrame, t.port n = fs.foldl PortSt.enter (s.port n) ∧ fs.length = k ∧ ∀ i < k, ∃ f hd, fs[i]? = some f ∧ f.cls = 2 ∧
          f.bytes = hd ++ s.memRead (s.reg64 IX_DUMP_BASE_LO + r.off + i * seg) (min seg (r.len - i * seg)) ∧ f.record = if i + 1 = k ∧ s.flag ET_DS_CTL ET_DS_CTL_HOLD = false then some r.seq else none))

/-- R283 to R294. -/
def Obligations.CornerTurnCarriesBlocks : Prop := ∀ (s : State), s.on = true →
  let count := fun (a : Nat) => w32 (min (2 ^ 32 - 1) ((s.reg a).toNat + 1))
  let count64 := fun (a : Nat) => min (2 ^ 64 - 1) (s.reg64 a + 1)
  let group := fun (m port : Nat) => be 6 (s.ctGroup m) ++ be 6 (s.mac (ET_P_MAC_LO port)) ++ be 2 0x88B5
  (∀ m b r rec, ((s.ctRuns = false ∧ s.ct.olds = []) ∨ s.outputs = false) → exec (.ctBlockQueue m b r rec) s = .next s) ∧
  (∀ m b r port, s.ctRuns = true → ctPort (s.rf ET_CT_CTL ET_CT_CTL_PORTS) b = some port →
    let key := s.ctKey m port
    let q := tblGet 0 s.ct.txSeq key
    let sent := fun (body : List Byte) (t : State) => tblGet 0 t.ct.txSeq key = (q + 1) % 2 ^ 32 ∧ (∀ k, k ≠ key → tblGet 0 t.ct.txSeq k = tblGet 0 s.ct.txSeq k) ∧
      t.ct.sram = (({ member := m, port := port, seq := q, bytes := body } : CtBlock) :: s.ct.sram).take 2032 ∧ body.length = 8228 ∧ beAt body 0 2 = 0x4354 ∧
      beAt body 8 4 = q % 2 ^ 32 ∧ crc32c (body.take 8224) = beAt body 8224 4 ∧
      (s.flag (ET_P_STAT port) ET_P_STAT_LINK = false → (s.port port).txFill 1 + 8246 ≤ txPart 1 → t.reg64 ET_CT_TX_BLOCKS_LO = count64 ET_CT_TX_BLOCKS_LO ∧
        ∃ f, t.port port = { s.port port with tx := (s.port port).tx ++ [f] } ∧ f.cls = 1 ∧ f.bytes = group m port ++ body) ∧
      (txPart 1 < (s.port port).txFill 1 + 8246 → t.reg ET_CT_UNSENT = count ET_CT_UNSENT ∧ t.flag ET_CT_STAT ET_CT_STAT_UNSENT_SEEN = true ∧ t.et = s.et)
    (∀ st, s.ctSpec b = some st → s.outputsAt st = true → s.ctAt st = none → r < 8 → r * 512 / modeChans s.mode = m → m ≠ s.member → (st, b, r) ∉ s.ct.queued →
      ∃ (t : State) (body : List Byte), exec (.ctBlockQueue m b r false) s = .next t ∧ sent body t ∧ beAt body 3 1 = 0 ∧ beAt body 12 8 = st % 2 ^ 64 ∧ beAt body 20 2 = 512 * r ∧ t.ct.recs = s.ct.recs ∧
        ∀ i < 16, ∀ f, s.ct.src.find? (fun f => f.path == 16 * b + i && f.st == st) = some f → ∀ c < 512, body.getD (32 + 512 * i + c) 0 = f.data.getD (512 * r + c) 0) ∧
    (s.ctRecsFor m = [] → exec (.ctBlockQueue m b r true) s = .next s) ∧
    (∀ x, s.ctRecsFor m = [x] → s.outputsAt x.st = true → s.ctAt x.st = none → x.path / 16 = b → m ∈ s.ctOthers → x.bytes.length = 1184 → ∃ (t : State) (body : List Byte), exec (.ctBlockQueue m b r true) s = .next t ∧ sent body t ∧
      beAt body 3 1 = 2 ∧ beAt body 22 1 = 1 ∧ (∀ i < 1184, body.getD (32 + i) 0 = x.bytes.getD i 0) ∧ t.ct.src = s.ct.src)) ∧
  (∀ n, (∀ f ∈ (s.port n).rx, f.etype ≠ 0x88B5) → exec (.ctBlockReceived n) s = .next s) ∧
  (∀ (n : Nat) (before : List RxFrame) (f : RxFrame) (after : List RxFrame), (s.port n).rx = before ++ f :: after → (∀ x ∈ before, x.etype ≠ 0x88B5) → f.etype = 0x88B5 →
    s.ctAt (beAt f.body 12 8) = none →
    let b := f.body
    let m := beAt b 4 1 % 8
    let k := s.ctKey m (beAt b 4 1 / 16 % 4)
    let q := beAt b 8 4
    let st := beAt b 12 8
    let crc := 8228 ≤ b.length ∧ crc32c (b.take 8224) = beAt b 8224 4
    let known := tblGet 0 s.ct.epochs (8 * s.mode + m)
    let epoch := beAt b 24 4
    let x := s.ctRx k
    let d := (q + 2 ^ 32 - x.e) % 2 ^ 32
    ∃ t, exec (.ctBlockReceived n) s = .next t ∧ (t.port n).rx = before ++ after ∧ t.mem = s.mem ∧ t.events = s.events ∧
      let dropped := t.ct = s.ct ∧ t.ix = s.ix ∧ (∀ j, j ≠ n → t.port j = s.port j) ∧ t.reg64 ET_CT_RX_BLOCKS_LO = s.reg64 ET_CT_RX_BLOCKS_LO
      (s.ctRuns = false → dropped ∧ t.regs = s.regs) ∧
      (s.ctRuns = true →
        (¬ crc → t.reg ET_CT_CRC = count ET_CT_CRC ∧ t.ix = s.ix ∧ t.reg64 ET_CT_RX_BLOCKS_LO = s.reg64 ET_CT_RX_BLOCKS_LO ∧
          ((b.length < 32 ∨ m = s.member ∨ 2 ^ s.mode ≤ m) → dropped) ∧
          (32 ≤ b.length → m ≠ s.member → m < 2 ^ s.mode →
            let lost := fun (i : Nat) => ({ seq := i % 2 ^ 32, lo := x.last, hi := max x.last (st / 8192 * 8192) } : CtMissing)
            (x.any = true → (t.ctRx k).e = (q + 1) % 2 ^ 32 ∧ (t.ctRx k).missing = x.missing ++ [lost q]) ∧
            (x.any = false → d ≤ 2032 → (t.ctRx k).e = (q + 1) % 2 ^ 32 ∧ (t.ctRx k).missing = x.missing ++ (List.range (d + 1)).map fun i => lost (x.e + i)) ∧
            (x.any = false → 2032 < d → (t.ctRx k).e = x.e ∧ (t.ctRx k).missing = x.missing))) ∧
        (crc → s.ctWellFormed b = false → dropped ∧ t.reg ET_CT_MALFORMED = count ET_CT_MALFORMED) ∧
        (crc → s.ctWellFormed b = true → st % 8192 ≠ 0 → dropped ∧ t.reg ET_CT_OFFGRID = count ET_CT_OFFGRID) ∧
        (crc → s.ctWellFormed b = true → st % 8192 = 0 → epoch + 1 < known → dropped ∧ t.reg ET_CT_STALE = count ET_CT_STALE ∧
          t.flag ET_CT_STAT ET_CT_STAT_STALE_SEEN = true) ∧
        (crc → s.ctWellFormed b = true → st % 8192 = 0 → known ≠ 0 → known < epoch + 1 → t.reg64 ET_CT_RX_BLOCKS_LO = count64 ET_CT_RX_BLOCKS_LO ∧
          tblGet 0 t.ct.epochs (8 * s.mode + m) = epoch + 1 ∧ (t.ctRx k).e = (q + 1) % 2 ^ 32 ∧ (t.ctRx k).missing = [] ∧
          ∀ p < 4, s.ctKey m p ≠ k → (t.ctRx (s.ctKey m p)).missing = [] ∧ (t.ctRx (s.ctKey m p)).any = true) ∧
        (crc → s.ctWellFormed b = true → st % 8192 = 0 → (known = 0 ∨ known = epoch + 1) → x.any = false →
          let accepted := t.reg64 ET_CT_RX_BLOCKS_LO = count64 ET_CT_RX_BLOCKS_LO
          let ignored := t.reg64 ET_CT_RX_BLOCKS_LO = s.reg64 ET_CT_RX_BLOCKS_LO ∧ t.ix = s.ix ∧ (t.ctRx k).e = x.e
          let ahead := (t.ctRx k).e = (q + 1) % 2 ^ 32
          let quiet := s.ctOwes m = [] ∧ s.ctOver st = false
          let missing := fun (l : List CtMissing) => (∀ y ∈ (t.ctRx k).missing, y ∈ l) ∧ (quiet → (t.ctRx k).missing = l)
          let gap := (List.range d).map fun i => ({ seq := (x.e + i) % 2 ^ 32, lo := min x.last st, hi := st } : CtMissing)
          (d ≤ 2032 → accepted ∧ ahead ∧ missing ((x.missing ++ gap).map fun y => { y with hi := max y.lo (min y.hi st) })) ∧
          (2 ^ 32 - 4096 ≤ d → (∃ y ∈ x.missing, y.seq = q) → accepted ∧ (t.ctRx k).e = x.e ∧ missing (x.missing.filter fun y => y.seq != q)) ∧
          (2 ^ 32 - 4096 ≤ d → (∀ y ∈ x.missing, y.seq ≠ q) → s.ctPast st = true → ignored ∧ t.reg ET_CT_LATE = count ET_CT_LATE ∧ (t.ctRx k).missing = x.missing) ∧
          (2 ^ 32 - 4096 ≤ d → (∀ y ∈ x.missing, y.seq ≠ q) → s.ctPast st = false → ignored ∧ t.reg ET_CT_DUP = count ET_CT_DUP ∧ (t.ctRx k).missing = x.missing) ∧
          (2032 < d → d < 2 ^ 32 - 4096 → accepted ∧ ahead ∧ missing x.missing ∧ t.reg ET_CT_RESYNC = count ET_CT_RESYNC ∧
            t.flag ET_CT_STAT ET_CT_STAT_RESYNC_SEEN = true) ∧
          (∀ h, d = 0 → bit (beAt b 3 1) 1 = false → s.pw.compOn = true → quiet → s.halfOf st = some h → st < s.ix.nextBase →
            let path := beAt b 6 2
            let chan := beAt b 20 2
            (∀ z ∈ (s.half h).specs, z.st = st → (path / 16, chan / 512) ∉ z.pieces) → ∃ y ∈ (t.half h).specs, y.st = st ∧ (path / 16, chan / 512) ∈ y.pieces ∧
              ∀ i < 16, (tblGet stPathNone y.paths (path + i)).here = true ∧ (tblGet stPathNone y.paths (path + i)).scale = beAt b 28 4 ∧
                ∀ c < 512, (s.half h).first ≤ chan + c → chan + c < (s.half h).first + (s.half h).count → tblGet 0 (tblGet stPathNone y.paths (path + i)).data (chan + c) = b.getD (32 + 512 * i + c) 0)))) ∧
  (s.ct.olds = [] → ∀ m p retry,
    let i : Instr := if retry = true then .nakRetryExpire m p else .nakDelayExpire m p
    let k := s.ctKey m p
    let x := s.ctRx k
    let due := s.ctRuns = true ∧ m < 8 ∧ p < 4 ∧ x.naked = retry ∧ x.missing ≠ []
    let dst := tblGet 0 s.ct.macs k
    (¬ due → exec i s = .next s) ∧
    (due → ∃ t, exec i s = .next t ∧ t.reg ET_CT_NAK_TX = count ET_CT_NAK_TX ∧ t.ctRx k = { x with naked := true } ∧ t.ix = s.ix ∧
      (s.flag (ET_P_STAT (dst / 2 ^ 48)) ET_P_STAT_LINK = false → (s.port (dst / 2 ^ 48)).txFill 1 + 400 ≤ txPart 1 → ∃ (f : TxFrame) (body : List Byte),
        (t.port (dst / 2 ^ 48)).tx = (s.port (dst / 2 ^ 48)).tx ++ [f] ∧ f.cls = 1 ∧
        f.bytes = be 6 (dst % 2 ^ 48) ++ be 6 (s.mac (ET_P_MAC_LO (dst / 2 ^ 48))) ++ be 2 0x88B6 ++ body ∧ beAt body 0 2 = 0x434E ∧ beAt body 3 1 = 1))) ∧
  (∀ n kind,
    let i : Instr := if kind = 1 then .ctNakReceived n else .ctGoneReceived n
    (kind = 1 ∨ kind = 2) →
    ((∀ f ∈ (s.port n).rx, ¬ (f.etype = 0x88B6 ∧ beAt f.body 3 1 = kind)) → exec i s = .next s) ∧
    (∀ (before : List RxFrame) (f : RxFrame) (after : List RxFrame), (s.port n).rx = before ++ f :: after → (∀ x ∈ before, ¬ (x.etype = 0x88B6 ∧ beAt x.body 3 1 = kind)) → f.etype = 0x88B6 → beAt f.body 3 1 = kind →
      s.ctOfMode (beAt f.body 4 1 / 64) = none →
      let b := f.body
      let m := beAt b 4 1 % 8
      let port := beAt b 5 1 / 16 % 4
      let k := s.ctKey (beAt b 5 1 % 8) port
      ∃ t, exec i s = .next t ∧ (t.port n).rx = before ++ after ∧ t.mem = s.mem ∧
        ((s.ctRuns = false ∨ s.ctCtlOk b = false) → t = { s with et := t.et }) ∧
        (kind = 1 → s.ctRuns = true → s.ctCtlOk b = true → t.reg ET_CT_NAK_RX = count ET_CT_NAK_RX ∧
          ((beAt b 5 1 % 8 ≠ s.member ∨ beAt b 8 4 ≠ s.epochField) → t.reg ET_CT_RESENT = s.reg ET_CT_RESENT ∧ t.reg ET_CT_GONE = s.reg ET_CT_GONE ∧ (t.port port).tx = (s.port port).tx) ∧
          (∀ q, beAt b 5 1 % 8 = s.member → beAt b 8 4 = s.epochField → ctListed b = [q] →
            (∀ y, (s.ctStored m port).filter (fun y => y.seq == q) = [y] → s.flag (ET_P_STAT port) ET_P_STAT_LINK = false →
              (s.port port).txFill 1 + 8300 ≤ txPart 1 → t.reg ET_CT_RESENT = count ET_CT_RESENT ∧ t.reg ET_CT_GONE = s.reg ET_CT_GONE ∧
              ∃ g, (t.port port).tx = (s.port port).tx ++ [g] ∧ g.cls = 1 ∧ g.resend = true ∧ g.bytes = group m port ++ ctResent y.bytes) ∧
            ((∀ y ∈ s.ctStored m port, y.seq ≠ q) → t.reg ET_CT_RESENT = s.reg ET_CT_RESENT ∧ t.reg ET_CT_GONE = count ET_CT_GONE ∧
              (s.flag (ET_P_STAT n) ET_P_STAT_LINK = false → (s.port n).txFill 1 + 400 ≤ txPart 1 → ∃ (g : TxFrame) (hd : List Byte), (t.port n).tx = (s.port n).tx ++ [g] ∧ g.cls = 1 ∧
                g.bytes = be 6 f.src ++ hd ++ be 4 q ++ be 2 1 ++ be 2 0)))) ∧
        (kind = 2 → s.ctRuns = true → s.ctCtlOk b = true → ∀ q, ctListed b = [q] →
          ((∀ y ∈ (s.ctRx k).missing, y.seq ≠ q) → t = { s with et := t.et }) ∧
          (∀ y, (s.ctRx k).missing.find? (fun y => y.seq == q) = some y → t.reg ET_CT_LOST = count ET_CT_LOST ∧ t.flag ET_CT_STAT ET_CT_STAT_LOSS_SEEN = true ∧
            (t.ctRx k).missing = (s.ctRx k).missing.filter (fun y => y.seq != q) ∧ t.free = s.free + 1 ∧
            let l := [s.ix.half0, s.ix.half1].flatMap fun h => if h.mode = s.mode then h.ctLacking (beAt b 5 1 % 8) y.lo y.hi else []
            (t.ix = s.ix ∨ ∃ z ∈ l, t.ix = (s.ctZero z.1 [z.2] false true).ix))))) ∧
  (∀ st,
    let settled := fun (t : State) => ∀ k < 128, ∀ y ∈ (t.ctRx k).missing, y ∈ (s.ctRx k).missing ∧ y.hi ≠ st
    let owed := fun (m : Nat) => tblGet 0 s.ct.owed (8 * st + m)
    let lose := fun (n : Nat) (t : State) => t.reg ET_CT_LOST = w32 (min (2 ^ 32 - 1) ((s.reg ET_CT_LOST).toNat + n)) ∧ (0 < n → t.flag ET_CT_STAT ET_CT_STAT_LOSS_SEEN = true)
    (s.halfOf st = none → s.ctPast st = false → exec (.graceExpire st) s = .next s) ∧
    (s.halfOf st = none → s.ctPast st = true → ∃ t, exec (.graceExpire st) s = .next t ∧ settled t ∧ t.ix = s.ix ∧ lose ((List.range 8).map fun m => max (owed m) (s.ctMissingOf st m) - owed m).sum t) ∧
    (∀ h, s.halfOf st = some h → ((s.half h).mode = 0 ∨ ∀ x ∈ (s.half h).specs, x.st ≠ st ∨ (s.half h).localDone x = false ∨ x.graced = true) → exec (.graceExpire st) s = .next s) ∧
    (∀ (h : Bool) (before : List StSpec) (x : StSpec) (after : List StSpec), s.halfOf st = some h → (s.half h).mode ≠ 0 → (s.half h).specs = before ++ x :: after → x.st = st → (∀ z ∈ before, z.st < st) →
      (s.half h).localDone x = true → x.graced = false →
      let absent := (s.half h).pieces.filter fun q => !x.pieces.contains q
      let n := ((List.range 8).map fun m => max ((absent.filter fun q => q.1 / 32 == m).length + owed m) (s.ctMissingOf st m) - owed m).sum
      ∃ (t : State) (y : StSpec), exec (.graceExpire st) s = .next t ∧ (t.half h).specs = before ++ y :: after ∧ t.half (!h) = s.half (!h) ∧ y.st = st ∧ y.graced = true ∧ y.short = (x.short || n != 0) ∧ (∀ q ∈ (s.half h).pieces, q ∈ y.pieces) ∧
        (∀ q ∈ absent, ∀ j < 16, bit (tblGet stPathNone y.paths (16 * q.1 + j)).lost q.2 = true) ∧
        (∀ p, (tblGet stPathNone y.paths p).data = (tblGet stPathNone x.paths p).data ∧ (tblGet stPathNone y.paths p).here = (tblGet stPathNone x.paths p).here) ∧
        lose n t ∧ settled t))

/-- R266, R270, R271, R280, R282, R296, R299. -/
def Obligations.NetworkCommandsTakeEffect : Prop := ∀ (s : State) (c : Cmd),
  (Taken 0x0701 c s → c.payload.length = 7 →
    let n := c.f 0 1 0
    let link := s.flag (ET_P_STAT n) ET_P_STAT_LINK
    let speed := fget (c.w 1) ET_P_CTL_SPEED ≠ s.rf (ET_P_CTL n) ET_P_CTL_SPEED
    let pre := fget (c.w 1) ET_P_CTL_PREEMPT ≠ s.rf (ET_P_CTL n) ET_P_CTL_PREEMPT
    let down := (speed ∨ fget (c.w 1) ET_P_CTL_EN = 0) ∧ link = true
    (∀ b, s.portBad c = some b → Refuses (.etPortConfig c) 0x0701 c s b.status b.word b.words) ∧
    (fget (c.w 1) ET_P_CTL_PREEMPT = 0 → s.rfb SF_CTL SF_CTL_MSG_PORTS n = true → Refuses (.etPortConfig c) 0x0701 c s stBadParam 1 []) ∧
    let tooFast := ((s.dequeue 0x0701 c).portConfig n (c.payload.drop 1)).portC1Ok n (wdLine ((s.dequeue 0x0701 c).portConfig n (c.payload.drop 1)).wdRegs n) = false
    (s.portBad c = none →
      (bit (s.rf ET_CT_CTL ET_CT_CTL_PORTS) n = true → s.flag ET_CT_CTL ET_CT_CTL_RUN = true → Refuses (.etPortConfig c) 0x0701 c s stWrongState 0 []) ∧
      ((bit (s.rf ET_CT_CTL ET_CT_CTL_PORTS) n = false ∨ s.flag ET_CT_CTL ET_CT_CTL_RUN = false) → tooFast → Refuses (.etPortConfig c) 0x0701 c s stBudget 0 [0x12, w32 n]) ∧
      ((bit (s.rf ET_CT_CTL ET_CT_CTL_PORTS) n = false ∨ s.flag ET_CT_CTL ET_CT_CTL_RUN = false) → ¬ tooFast → Fits 0 c s → ∃ e, Answers (.etPortConfig c) 0x0701 c s [] e ∧
        (∀ f ∈ [ET_P_CTL_EN, ET_P_CTL_SPEED, ET_P_CTL_FC_MODE, ET_P_CTL_TX_PFC, ET_P_CTL_PREEMPT, ET_P_CTL_BCAST, ET_P_CTL_MAXFRAME], e.rf (ET_P_CTL n) f = fget (c.w 1) f) ∧
        (∀ f ∈ [ET_P_PRIO_VID, ET_P_PRIO_C0, ET_P_PRIO_C1, ET_P_PRIO_C2, ET_P_PRIO_C3], e.rf (ET_P_PRIO n) f = fget (c.w 2) f) ∧
        e.reg (ET_P_MAC_LO n) = c.w 3 ∧ e.rf (ET_P_MAC_HI n) ET_P_MAC_HI_MAC = fget (c.w 4) ET_P_MAC_HI_MAC ∧ e.reg (ET_P_IP n) = c.w 5 ∧
        e.rf (ET_P_UDP n) ET_P_UDP_UDP = fget (c.w 6) ET_P_UDP_UDP ∧ (∀ q < 4, q ≠ n → e.port q = s.port q ∧ e.reg (ET_P_CTL q) = s.reg (ET_P_CTL q) ∧ e.reg (ET_P_STAT q) = s.reg (ET_P_STAT q)) ∧
        e.mem = s.mem ∧ e.events = s.events ∧
        (down → e.flag (ET_P_STAT n) ET_P_STAT_LINK = false ∧ e.flag (ET_P_STAT n) ET_P_STAT_PREEMPT_OK = false ∧ e.flag (ET_P_STAT n) ET_P_STAT_LINK_DOWN_SEEN = true ∧
          (e.port n).inTx = none ∧ (e.port n).tx = (s.port n).tx ∧ e.log.head?.map (·.code) = some 0x0701) ∧
        (¬ down → pre → e.flag (ET_P_STAT n) ET_P_STAT_LINK = link ∧ e.flag (ET_P_STAT n) ET_P_STAT_PREEMPT_OK = false ∧ e.log = s.log ∧
          e.port n = { s.port n with verify := if fget (c.w 1) ET_P_CTL_PREEMPT = 1 ∧ link = true then 1 else 0, xoff := (s.port n).xoff.filter (e.sendsPfc n) }) ∧
        (¬ down → ¬ pre → e.port n = { s.port n with xoff := (s.port n).xoff.filter (e.sendsPfc n) } ∧ e.log = s.log ∧
          ∀ f, ET_P_STAT_XOFF.apart f → e.rf (ET_P_STAT n) f = s.rf (ET_P_STAT n) f)))) ∧
  (Taken 0x0702 c s →
    let n := c.f 0 1 0
    let k := c.f 0 22 16
    (17 ≤ c.payload.length → c.payload.length ≤ 145 → 64 < k → Refuses (.etFilterSet c) 0x0702 c s stBadParam 0 []) ∧
    (k ≤ 64 → c.payload.length = 17 + 2 * k → Fits 0 c s → ∃ e, Answers (.etFilterSet c) 0x0702 c s [] e ∧ e = { s.dequeue 0x0702 c with regs := e.regs } ∧
      (∀ q < 16, e.reg (ET_P_HASH n q) = c.w (1 + q)) ∧
      (∀ i < k, e.reg (ET_P_EM_LO n i) = c.w (17 + 2 * i) ∧ e.rf (ET_P_EM_HI n i) ET_P_EM_HI_MAC = fget (c.w (18 + 2 * i)) ET_P_EM_HI_MAC ∧
        e.rf (ET_P_EM_HI n i) ET_P_EM_HI_VALID = fget (c.w (18 + 2 * i)) ET_P_EM_HI_VALID) ∧
      (∀ i < 64, k ≤ i → e.flag (ET_P_EM_HI n i) ET_P_EM_HI_VALID = false) ∧
      ∀ o, o ≠ CP_Q_STAT → (∀ q < 16, o ≠ ET_P_HASH n q) → (∀ i < 64, o ≠ ET_P_EM_LO n i ∧ o ≠ ET_P_EM_HI n i) → e.reg o = s.reg o)) ∧
  (Taken 0x0704 c s → c.payload.length = 1 → Fits 28 c s → Answers (.etPortStatus c) 0x0704 c s ((ET_P_STAT (c.f 0 1 0) :: portRegs (c.f 0 1 0)).map s.reg) (s.dequeue 0x0704 c)) ∧
  (Taken 0x0705 c s → c.payload = [] → Fits 19 c s → Answers (.etCtStatus c) 0x0705 c s (([ET_CT_STAT, ET_CT_TX_BLOCKS_LO, ET_CT_TX_BLOCKS_HI, ET_CT_RX_BLOCKS_LO,
    ET_CT_RX_BLOCKS_HI, ET_CT_NAK_TX, ET_CT_NAK_RX, ET_CT_RESENT, ET_CT_GONE, ET_CT_LOST, ET_CT_LATE, ET_CT_DUP, ET_CT_CRC, ET_CT_OFFGRID, ET_CT_STALE, ET_CT_MALFORMED,
    ET_CT_UNSENT, ET_CT_RESYNC, ET_CT_MISSING_MAX]).map s.reg) (s.dequeue 0x0705 c)) ∧
  (Taken 0x0706 c s → c.payload.length = 5 →
    let seg := fget (c.w 0) ET_DS_CTL_SEG
    let fits := 1024 ≤ seg ∧ seg ≤ 8192 ∧ seg % 64 = 0 ∧ 82 + seg ≤ s.rf (ET_P_CTL (fget (c.w 0) ET_DS_CTL_PORT)) ET_P_CTL_MAXFRAME
    (¬ fits → Refuses (.etDsConfig c) 0x0706 c s stBadParam 0 []) ∧
    (fits → Fits 0 c s → ∃ e, Answers (.etDsConfig c) 0x0706 c s [] e ∧ e = { s.dequeue 0x0706 c with regs := e.regs } ∧ e.rf ET_DS_CTL ET_DS_CTL_SEG = seg ∧
      e.rf ET_DS_CTL ET_DS_CTL_PORT = fget (c.w 0) ET_DS_CTL_PORT ∧ e.rf ET_DS_CTL ET_DS_CTL_HOLD = fget (c.w 0) ET_DS_CTL_HOLD ∧ e.reg ET_DS_DMAC_LO = c.w 1 ∧
      e.reg ET_DS_DIP = c.w 3 ∧ e.reg ET_DS_UDP = c.w 4 ∧ ∀ o, o ∉ [CP_Q_STAT, ET_DS_CTL, ET_DS_DMAC_LO, ET_DS_DMAC_HI, ET_DS_DIP, ET_DS_UDP] → e.reg o = s.reg o)) ∧
  (Taken 0x0707 c s → c.payload.length = 3 →
    ((∀ r ∈ s.ix.ring, r.seq ≠ (c.w 0).toNat ∨ r.freed = true) → Refuses (.etDumpResend c) 0x0707 c s stBadParam 0 []) ∧
    (∀ r, s.ix.ring.find? (fun r => r.seq == (c.w 0).toNat && !r.freed) = some r →
      let o := (c.w 1).toNat
      let len := (c.w 2).toNat
      let seg := s.rf ET_DS_CTL ET_DS_CTL_SEG
      let n := s.rf ET_DS_CTL ET_DS_CTL_PORT
      let k := (len + seg - 1) / seg
      (r.len < o + len → Refuses (.etDumpResend c) 0x0707 c s stBadParam 1 []) ∧
      (o + len ≤ r.len → seg ≠ 0 → s.flag (ET_P_STAT n) ET_P_STAT_LINK = false → Fits 0 c s → ∃ e, Answers (.etDumpResend c) 0x0707 c s [] e ∧
        e.reg ET_DS_SEQ = s.reg ET_DS_SEQ + w32 k ∧ e.ix = s.ix ∧ e.mem = s.mem ∧ (∀ q, q ≠ n → e.port q = s.port q) ∧
        ∃ fs : List TxFrame, e.port n = fs.foldl PortSt.enter (s.port n) ∧ fs.length = k ∧ ∀ i < k, ∃ f hd, fs[i]? = some f ∧ f.cls = 2 ∧ f.record = none ∧
          f.bytes = hd ++ s.memRead (s.reg64 IX_DUMP_BASE_LO + r.off + (o + i * seg)) (min seg (len - i * seg)))))

/-- R51. -/
def Obligations.MissedPpsKeepsTheLoadArmed : Prop := ∀ s : State, s.on = true →
  (s.flag TM_ATC_CTL TM_ATC_CTL_ARM = true → s.tm.edge = none → ∃ t, exec .missedPps s = .next t ∧ t.flag TM_ATC_STAT TM_ATC_STAT_MISSED_PPS = true ∧
    t.flag TM_ATC_CTL TM_ATC_CTL_ARM = true ∧ t.rf TM_ATC_STAT TM_ATC_STAT_STATE = s.rf TM_ATC_STAT TM_ATC_STAT_STATE ∧
    (∀ f, TM_ATC_STAT_MISSED_PPS.apart f → t.rf TM_ATC_STAT f = s.rf TM_ATC_STAT f) ∧ OnlyRegsInt [TM_ATC_STAT] s t ∧
    (s.pending = [] → s.cp.serving = false → s.running = true → ∃ u v, step t = .next u ∧ step s = .next v ∧ u.time = v.time ∧ u.running = true)) ∧
  ((s.flag TM_ATC_CTL TM_ATC_CTL_ARM = false ∨ s.tm.edge ≠ none) → exec .missedPps s = .next s)

/-- R48, R50, R302, R304 to R317. -/
def Obligations.SourcesQualifyAndSteerTime : Prop := ∀ (s : State), s.on = true →
  let count := fun (a : Nat) => w32 (min (2 ^ 32 - 1) ((s.reg a).toNat + 1))
  let left := fun (k : Nat) => s.rf (TM_SRC_STAT k) TM_SRC_STAT_LEFT
  let core := [TM_STAT, TM_HO_STAT, TM_HO_ERR, TM_PTP_STAT]
  let frame := fun (k : Nat) (t : State) => t = { s with regs := t.regs, tm := t.tm, out := t.out, fresh := t.fresh } ∧
    SameRegs (core ++ [TM_SRC_STAT k, TM_SRC_DISQ k, TM_SRC_OFFS k, TM_SRC_DRIFT k]) s t ∧ (∀ j, j ≠ k → t.source6 j = s.source6 j) ∧ t.tm.cfgs = s.tm.cfgs
  let enters := fun (k q n : Nat) (t : State) => t.qstate k = q ∧ t.rf (TM_SRC_STAT k) TM_SRC_STAT_LEFT = n ∧ frame k t
  let live := fun (k : Nat) => s.qstate k ≠ qOff ∧ s.qstate k ≠ qAbsent
  let fails := fun (k : Nat) (t : State) => enters k qDisq (s.qual k) t ∧
    (s.qstate k ≠ qDisq → t.reg (TM_SRC_DISQ k) = count (TM_SRC_DISQ k) ∧ t.flag (TM_SRC_STAT k) TM_SRC_STAT_DISQ_SEEN = true)
  let lost := fun (k : Nat) (t : State) => fails k t ∧ t.reg (TM_SRC_OFFS k) = 0x80000000 ∧ t.rf (TM_SRC_DRIFT k) TM_SRC_DRIFT_DRIFT = 2 ^ 15 ∧
    t.rf (TM_SRC_DRIFT k) TM_SRC_DRIFT_WANDER = 65535
  let alone := fun (k : Nat) => ∀ j < 6, j ≠ k → s.qstate j = qOff
  let sel := s.rf TM_STAT TM_STAT_SEL
  (∀ k,
    (if k < 6 ∧ left k = 0 ∧ (s.qstate k = qQualifying ∨ s.qstate k = qDisq) then ∃ t, exec (.qualCountReached k) s = .next t ∧
        (s.qstate k = qQualifying → enters k qQualified 0 t ∧ t.tm.anyQual = true) ∧
        (s.qstate k = qDisq → enters k qWtr (max 1 (s.rf (TM_SRC_TIME k) TM_SRC_TIME_WTR)) t) ∧
        (s.qstate k = qQualifying → s.core = coreFreeRun → sel = 7 → alone k → t.core = coreSwitching ∧ t.rf TM_STAT TM_STAT_SEL = k ∧ t.reg TM_HO_ERR = 0)
      else exec (.qualCountReached k) s = .next s) ∧
    (if k < 6 ∧ s.qstate k = qSoft ∧ left k = 0 then ∃ t, exec (.persistExpire k) s = .next t ∧ fails k t else exec (.persistExpire k) s = .next s) ∧
    (if k < 6 ∧ s.qstate k = qWtr ∧ left k = 0 then ∃ t, exec (.wtrExpire k) s = .next t ∧ enters k qQualified 0 t else exec (.wtrExpire k) s = .next s) ∧
    (if k < 4 ∧ s.qstate k ≠ qOff then ∃ t, exec (.refClockLoss k) s = .next t ∧ lost k t ∧ t.flag (TM_SRC_STAT k) TM_SRC_STAT_CLK_LOSS = true ∧ t.source6 k = src0 ∧
        (sel = k → s.core = coreLocked → alone k →
          t.rf TM_STAT TM_STAT_SEL = 7 ∧ t.rf TM_HO_STAT TM_HO_STAT_TRAIN_S = 0 ∧ t.trained = false ∧
          (s.trained = true → t.core = coreHoldover ∧ t.flag TM_STAT TM_STAT_HO_SEEN = true ∧ t.tm.fh = s.tm.counted.sum ∧ t.tm.hoT = 0 ∧ t.reg TM_HO_ERR = w32 (mag s.tm.phase / 1000)) ∧
          (s.trained = false → t.core = coreFreeRun ∧ t.flag TM_STAT TM_STAT_FREE_RUN_SEEN = true ∧ t.reg TM_HO_ERR = 0xFFFFFFFF))
      else exec (.refClockLoss k) s = .next s) ∧
    (if k < 6 ∧ s.qstate k ≠ qOff ∧ s.usesPps k = true then ∃ t, exec (.ppsLoss k) s = .next t ∧ lost k t ∧ t.flag (TM_SRC_STAT k) TM_SRC_STAT_PPS_LOSS = true ∧
        t.source6 k = { src0 with present := (s.source6 k).present }
      else exec (.ppsLoss k) s = .next s) ∧
    (if 6 ≤ k ∨ s.qstate k = qOff ∨ (s.source6 k).present = true ∨ (4 ≤ k ∧ (s.ptpDomain (k - 4)).master = none) then exec (.sourceSignalPresent k) s = .next s
      else ∃ t, exec (.sourceSignalPresent k) s = .next t ∧ t.source6 k = { s.source6 k with present := true } ∧ t.flag (TM_SRC_STAT k) TM_SRC_STAT_CLK_LOSS = false ∧
        (s.qstate k = qAbsent → enters k qQualifying (s.qual k) t) ∧ (s.qstate k ≠ qAbsent → enters k (s.qstate k) (left k) t)) ∧
    (∀ off,
      if k < 6 ∧ s.qstate k = qQualifying ∧ (s.source6 k).offs = [] ∧ mag off ≤ 100 * s.rf (TM_SRC_LIM k) TM_SRC_LIM_HARD then
        ∃ t, exec (.coarseFreqDone k off) s = .next t ∧ t.source6 k = { s.source6 k with coarse := true } ∧ enters k qQualifying (left k) t ∧
          (s.tm.anyQual = false → s.core = coreFreeRun → sel = 7 → alone k →
            t.core = coreSwitching ∧ t.rf TM_STAT TM_STAT_SEL = k ∧ t.flag TM_STAT TM_STAT_PROVISIONAL = true)
      else exec (.coarseFreqDone k off) s = .next s) ∧
    (∀ pos phase,
      let p := (if k < 4 then pos else s.virtualPos (k - 4)) - sext 16 (s.rf (TM_SRC_PPS k) TM_SRC_PPS_PPSDLY)
      if 6 ≤ k ∨ s.qstate k = qOff ∨ s.usesPps k = false ∨ (4 ≤ k ∧ s.virtualEdge (k - 4) = false) then exec (.ppsEdge k pos phase) s = .next s
      else ∃ t, exec (.ppsEdge k pos phase) s = .next t ∧ t.source6 k = { s.source6 k with cur := p :: (s.source6 k).cur } ∧ t.flag (TM_SRC_STAT k) TM_SRC_STAT_PPS_LOSS = false ∧
        (∀ f, TM_SRC_STAT_PPS_LOSS.apart f → t.rf (TM_SRC_STAT k) f = s.rf (TM_SRC_STAT k) f) ∧ t.events = s.events ∧ t.log = s.log ∧
        (sel ≠ k → t = { s with regs := t.regs, tm := { s.tm with src := t.tm.src } } ∧ ∀ o, o ≠ TM_SRC_STAT k → t.reg o = s.reg o) ∧
        (sel = k →
          (s.running = true → s.tm.epoch2 = false → t.reg64 TM_ATC_PPS_LO = s.time.atc % 2 ^ 64) ∧
          (s.core = coreSwitching → s.tm.initial = false → s.tm.delta = none → t.tm.delta = some p ∧
            t.rf TM_STAT TM_STAT_BUILD_OUT = if s.rf TM_CTL TM_CTL_SLEW = 0 then toBits 20 (satS 20 p) else 0) ∧
          (s.core = coreLocked → t.tm.delta = s.tm.delta ∧ t.reg TM_STAT = s.reg TM_STAT) ∧
          (s.flag TM_ATC_CTL TM_ATC_CTL_ARM = true → s.tm.edge = none → s.time.armedAt < s.time.cycles → s.tm.epoch2 = false → t.tm.edge = some (phase % 16, p)) ∧
          ((s.flag TM_ATC_CTL TM_ATC_CTL_ARM = false ∨ s.tm.edge ≠ none ∨ s.time.cycles ≤ s.time.armedAt) → t.tm.edge = s.tm.edge)))) ∧
  (∀ offs base phase ferr, ¬ (s.boundaryPast 0 = true ∧ s.tm.gateAt < s.time.cycles) → exec (.gateClose offs base phase ferr) s = .next s) ∧
  (∀ offs base phase ferr, s.boundaryPast 0 = true → s.tm.gateAt < s.time.cycles → ∃ t, exec (.gateClose offs base phase ferr) s = .next t ∧ t.tm.phase = phase ∧ t.tm.cfgs = [] ∧ t.time = s.time ∧ t.events = s.events ∧
    (s.tm.cfgs = [] → ∀ k < 6,
      let x := s.source6 k
      let y := s.gateOffset offs base k
      let c := s.checks k
      let counted := live k ∧ x.whole = true
      let window := (y :: x.offs).take 16
      let noLoss := s.flag (TM_SRC_STAT k) TM_SRC_STAT_CLK_LOSS = false ∧ s.flag (TM_SRC_STAT k) TM_SRC_STAT_PPS_LOSS = false
      let hard := 100 * s.rf (TM_SRC_LIM k) TM_SRC_LIM_HARD < mag y
      let soft := 100 * s.rf (TM_SRC_LIM k) TM_SRC_LIM_SOFT < mag y
      (t.source6 k).cur = [] ∧ ((t.source6 k).whole = (x.present && !s.flag (TM_SRC_STAT k) TM_SRC_STAT_PPS_LOSS)) ∧ (t.source6 k).present = x.present ∧
      (¬ counted → (t.source6 k).offs = x.offs ∧ (t.source6 k).edges = x.edges ∧
        (s.qstate k = qOff → t.reg (TM_SRC_STAT k) = s.reg (TM_SRC_STAT k)) ∧
        (s.qstate k ≠ qOff →
          (∀ p ∈ [(TM_SRC_STAT_SOFT_F, c.soft), (TM_SRC_STAT_HARD_F, c.hard), (TM_SRC_STAT_DRIFT_F, c.drift), (TM_SRC_STAT_PPS_F, c.pps), (TM_SRC_STAT_CLASS_F, c.cls)],
            t.flag (TM_SRC_STAT k) p.1 = p.2) ∧
          ((c.hard || c.cls || c.lost) = true → t.qstate k = qDisq ∧ t.rf (TM_SRC_STAT k) TM_SRC_STAT_LEFT = s.qual k) ∧
          ((c.hard || c.cls || c.lost) = false → t.qstate k = s.qstate k ∧ t.rf (TM_SRC_STAT k) TM_SRC_STAT_LEFT = left k))) ∧
      (counted → (t.source6 k).offs = window ∧ (t.source6 k).edges = (x.cur ++ x.edges).take 16) ∧
      (counted → mag y < 2 ^ 31 → t.reg (TM_SRC_OFFS k) = BitVec.ofInt 32 y) ∧
      (counted → hard → t.qstate k = qDisq ∧ t.rf (TM_SRC_STAT k) TM_SRC_STAT_LEFT = s.qual k ∧ t.flag (TM_SRC_STAT k) TM_SRC_STAT_HARD_F = true ∧
        (s.qstate k ≠ qDisq → t.reg (TM_SRC_DISQ k) = count (TM_SRC_DISQ k))) ∧
      (counted → k < 4 → s.usesPps k = false → noLoss → ¬ hard → s.qstate k = qQualified → soft →
        t.qstate k = qSoft ∧ t.rf (TM_SRC_STAT k) TM_SRC_STAT_LEFT = s.rf (TM_SRC_TIME k) TM_SRC_TIME_PERSIST ∧ t.flag (TM_SRC_STAT k) TM_SRC_STAT_SOFT_SEEN = true) ∧
      (counted → k < 4 → s.usesPps k = false → noLoss → ¬ hard → ¬ soft → 15 ≤ x.offs.length → mag (slope680 window 15) ≤ 6800 * s.rf (TM_SRC_TIME k) TM_SRC_TIME_DRIFT →
        (s.qstate k = qQualifying ∨ s.qstate k = qDisq ∨ s.qstate k = qWtr → t.qstate k = s.qstate k ∧ t.rf (TM_SRC_STAT k) TM_SRC_STAT_LEFT = left k - 1) ∧
        (s.qstate k = qQualified → t.qstate k = qQualified))) ∧
    (s.tm.cfgs = [] → s.core = coreHoldover → (∀ k < 6, s.qstate k = qOff) →
      t.core = coreHoldover ∧ t.tm.hoT = s.tm.hoT + 1 ∧ t.reg TM_HO_ERR = w32 (min (2 ^ 32 - 1) (s.hoE (s.tm.hoT + 1) / 17280000)) ∧
      t.tm.hoOver = (s.tm.hoOver || s.hoPast (s.tm.hoT + 1)) ∧
      (s.hoPast (s.tm.hoT + 1) = true → s.tm.hoOver = false → t.flag TM_STAT TM_STAT_HO_EXCEEDED = true ∧ t.log.head?.map (fun e => (e.code, e.sev)) = some (0x0801, 1)) ∧
      (s.hoPast (s.tm.hoT + 1) = false ∨ s.tm.hoOver = true → t.log = s.log ∧ t.flag TM_STAT TM_STAT_HO_EXCEEDED = s.flag TM_STAT TM_STAT_HO_EXCEEDED)) ∧
    (s.tm.cfgs = [] → s.core = coreSwitching → s.tm.initial = false → sel < 6 → s.qstate sel = qQualified → (s.source6 sel).whole = false →
      ((s.checks sel).hard || (s.checks sel).cls || (s.checks sel).lost) = false →
      t.core = coreSwitching ∧ t.rf TM_STAT TM_STAT_SEL = sel ∧ t.tm.calm = if s.tm.delta.isSome ∧ mag phase ≤ 1000 ∧ mag ferr ≤ 10 then s.tm.calm + 1 else 0)) ∧
  (∀ offs base phase ferr,
    (¬ (s.core = coreSwitching ∧ s.tm.initial = true) → ∀ move, exec (.initialLockDone offs base phase ferr move) s = .next s) ∧
    (s.core = coreSwitching → s.tm.initial = true → ∃ t, exec (.initialLockDone offs base phase ferr 0) s = .next t ∧
      t = { s with regs := t.regs, tm := t.tm, out := t.out, fresh := t.fresh } ∧ SameRegs core s t ∧
      (s.srcWant = some sel → t.core = coreLocked ∧ t.rf TM_STAT TM_STAT_SEL = sel ∧ t.flag TM_STAT TM_STAT_SWITCH_QUEUED = false ∧ t.rf TM_STAT TM_STAT_BUILD_OUT = 0))) ∧
  (if s.core = coreSwitching ∧ s.tm.initial = false ∧ 10 ≤ s.tm.calm then ∃ t, exec .switchLocked s = .next t ∧ t.reg TM_SWITCHES = count TM_SWITCHES ∧
      t = { s with regs := t.regs, tm := t.tm, out := t.out, fresh := t.fresh } ∧ SameRegs (TM_SWITCHES :: core) s t ∧ t.flag TM_STAT TM_STAT_SWITCH_QUEUED = false ∧
      (s.srcWant = some sel → t.core = coreLocked ∧ t.rf TM_STAT TM_STAT_SEL = sel) ∧
      (∀ k < 6, s.srcWant = some k → k ≠ sel → t.core = coreSwitching ∧ t.rf TM_STAT TM_STAT_SEL = k ∧ t.tm.delta = if s.usesPps k = true then none else some 0)
    else exec .switchLocked s = .next s) ∧
  (∀ offs base phase ferr,
    (s.tm.edge = none → exec (.epochLoad offs base phase ferr) s = .next s) ∧
    (∀ q, s.tm.edge = some q → s.running = false → ∃ t, exec (.epochLoad offs base phase ferr) s = .next t ∧ t.running = true ∧ t.tm.edge = none ∧
      t.time.atc = s.reg64 TM_ATC_LOAD_LO ∧ t.time.phase = 0 ∧ t.time.rateN = s.rf TM_ATC_CTL TM_ATC_CTL_RATE_N ∧ t.flag TM_ATC_CTL TM_ATC_CTL_ARM = false ∧
      t.rf TM_ATC_STAT TM_ATC_STAT_EPOCH_PHASE = q.1 % 16 ∧ t.reg64 TM_TAI_ATC_LO = s.time.stagedAtc % 2 ^ 64 ∧
      t.reg64 TM_TAI_SEC_LO = (if s.time.stagedPtp = true then s.ptpSecond else s.time.stagedSec) % 2 ^ 64)) ∧
  (∀ n,
    (if n < 4 ∧ bit s.tm.ckWait n = true then ∃ t, exec (.clkoutStart n) s = .next t ∧ t = { s with tm := { s.tm with ck := t.tm.ck, ckWait := t.tm.ckWait } } ∧
        (∀ m < 4, tblGet 0 t.tm.ck m = (if m = n then s.rf (TM_CK_CTL n) TM_CK_CTL_FREQ else tblGet 0 s.tm.ck m) ∧ bit t.tm.ckWait m = (bit s.tm.ckWait m && m != n))
      else exec (.clkoutStart n) s = .next s) ∧
    (if n < 4 ∧ s.running = true ∧ s.flag (TM_FR_CTL n) TM_FR_CTL_EN = true ∧ s.boundaryPast (s.frameLate n) = true then
        ∃ t, exec (.framePulseStart n) s = .next t ∧ t = { s with tm := { s.tm with frames := t.tm.frames, frameEnd := t.tm.frameEnd } } ∧
        (∀ m, bit t.tm.frames m = (bit s.tm.frames m || m == n)) ∧ tblGet 0 t.tm.frameEnd n = s.time.cycles + 2000 * s.rf (TM_FR_CTL n) TM_FR_CTL_WIDTH ∧
        ∀ m, m ≠ n → tblGet 0 t.tm.frameEnd m = tblGet 0 s.tm.frameEnd m
      else exec (.framePulseStart n) s = .next s) ∧
    (if n < 4 ∧ tblGet 0 s.tm.frameEnd n ≤ s.time.cycles then ∃ t, exec (.framePulseEnd n) s = .next t ∧
        t = { s with tm := { s.tm with frames := t.tm.frames } } ∧ ∀ m, bit t.tm.frames m = (bit s.tm.frames m && m != n)
      else exec (.framePulseEnd n) s = .next s))

/-- R304, R318 to R322. -/
def Obligations.PtpMessagesSteerTheClock : Prop := ∀ (s : State), s.on = true →
  let is := fun (p : Nat → Bool) (f : RxFrame) => (isPtp f && p (ptpType (ptpBody f))) = true
  let own := fun (n : Nat) (t : State) => (∀ q, q ≠ n → t.port q = s.port q) ∧ t.mem = s.mem ∧ t.events = s.events ∧ t.time = s.time ∧ t.tm.src = s.tm.src
  (∀ (n : Nat) (before : List RxFrame) (f : RxFrame) (after : List RxFrame), (s.port n).rx = before ++ f :: after →
    let b := ptpBody f
    let here := fun (d : Nat) => d < 2 ∧ s.domOn d = true ∧ s.domPort d = n ∧ s.domUdp d = (f.etype != 0x88F7) ∧ s.domNum d = ptpDomNum b
    let from_ := fun (d : Nat) => here d ∧ (s.ptpDomain d).master = some (ptpSource b)
    let took := fun (t : State) => t.port n = { s.port n with rx := before ++ after } ∧ own n t
    ((∀ x ∈ before, ¬ is (· == 0) x) → is (· == 0) f → ∃ t, exec (.ptpSyncReceived n) s = .next t ∧ took t ∧ t = { s with et := t.et, tm := { s.tm with dom := t.tm.dom } } ∧
      ∀ d, (from_ d → t.ptpDomain d = { s.ptpDomain d with
          syncSeq := ptpSeq b, t2 := s.pinTimeAt n false f.ptp, corr := ptpCorrection b, synced := true, t1 := if ptpTwoStep b = true then none else some (ptpStamp b) }) ∧
        (¬ from_ d → t.ptpDomain d = s.ptpDomain d)) ∧
    ((∀ x ∈ before, ¬ is (· == 8) x) → is (· == 8) f → ∃ t, exec (.ptpFollowUpReceived n) s = .next t ∧ took t ∧ t = { s with et := t.et, tm := { s.tm with dom := t.tm.dom } } ∧
      ∀ d, let x := s.ptpDomain d
        let mine := from_ d ∧ x.synced = true ∧ x.t1 = none ∧ x.syncSeq = ptpSeq b
        (mine → t.ptpDomain d = { x with t1 := some (ptpStamp b), corr := x.corr + ptpCorrection b }) ∧ (¬ mine → t.ptpDomain d = x)) ∧
    ((∀ x ∈ before, ¬ is (· == 9) x) → is (· == 9) f → ∃ t, exec (.ptpDelayRespReceived n) s = .next t ∧ took t ∧ t.rf TM_PTP_STAT TM_PTP_STAT_STEER = s.steerPick ∧
      (∀ d t1 t3, here d → (∀ e, e ≠ d → ¬ here e) →
        let x := s.ptpDomain d
        x.master = some (ptpSource b) → x.synced = true → x.t1 = some t1 → x.t3 = some t3 → beAt b 44 10 = Config.portIdentity d % 2 ^ 80 → x.reqSeq = ptpSeq b →
        let o := ((x.t2 - t1 - x.corr) - (ptpStamp b - t3 - ptpCorrection b)) / 2 - x.asym
        let y := t.ptpDomain d
        y.done = true ∧ y.synced = false ∧ y.t3 = none ∧ t.flag TM_PTP_STAT TM_PTP_STAT_SET = true ∧
        (s.flag TM_PTP_STAT TM_PTP_STAT_SET = false → t.tm.ptp = ((s.tm.ptp : Int) - o * 10 ^ 9).toNat ∧ y.offs = 0 ∧ t.tm.ptpRate = s.tm.ptpRate ∧
          ∀ e < 2, e ≠ d → (t.ptpDomain e).offs = if (s.ptpDomain e).done = true then (s.ptpDomain e).offs - o else (s.ptpDomain e).offs) ∧
        (s.flag TM_PTP_STAT TM_PTP_STAT_SET = true → t.tm.ptp = s.tm.ptp ∧ y.offs = o ∧ ∀ e < 2, e ≠ d → t.ptpDomain e = s.ptpDomain e) ∧
        (s.flag TM_PTP_STAT TM_PTP_STAT_SET = true → s.rf TM_PTP_STAT TM_PTP_STAT_STEER = d + 1 → -25000 ≤ t.tm.ptpRate ∧ t.tm.ptpRate ≤ 25000 ∧
          (mag o ≤ 1000000 → t.flag TM_PTP_STAT TM_PTP_STAT_LARGE_OFFSET = false)) ∧
        (s.flag TM_PTP_STAT TM_PTP_STAT_SET = true → s.rf TM_PTP_STAT TM_PTP_STAT_STEER ≠ d + 1 → t.tm.ptpRate = s.tm.ptpRate)) ∧
      (∀ d, (¬ here d ∨ (s.ptpDomain d).t1 = none ∨ (s.ptpDomain d).t3 = none ∨ (s.ptpDomain d).synced = false) → (t.ptpDomain d).done = (s.ptpDomain d).done ∧
        (t.ptpDomain d).synced = (s.ptpDomain d).synced)) ∧
    ((∀ x ∈ before, ¬ is (· == 11) x) → is (· == 11) f → ∃ t, exec (.ptpAnnounceReceived n) s = .next t ∧ took t ∧ t = { s with et := t.et, tm := { s.tm with dom := t.tm.dom } } ∧
      ∀ d, let x := s.ptpDomain d
        let near := beAt b 61 2 < 255
        let g : Foreign := { key := announceKey b, id := ptpSource b, cls := beAt b 48 1, last := s.time.cycles, every := announceEvery b
                             prev := (x.foreign.find? fun f => f.id == ptpSource b).map (·.last) }
        (¬ here d → t.ptpDomain d = x) ∧ (here d → ¬ near → (t.ptpDomain d).foreign = x.foreign) ∧
        (here d → near → g ∈ (t.ptpDomain d).foreign ∧ ∀ f, f.id ≠ g.id → (f ∈ (t.ptpDomain d).foreign ↔ f ∈ x.foreign)) ∧
        (here d → near → x.foreign = [] → x.master = none → t.ptpDomain d = { x with foreign := [g] }) ∧
        (∀ g0 : Foreign, here d → near → x.foreign = [g0] → g0.id = g.id → x.master = none →
          t.ptpDomain d = if s.time.cycles ≤ g0.last + 4 * announceEvery b then
            { x with foreign := [g], master := some g.id, synced := false, t1 := none, t3 := none, done := false } else { x with foreign := [g] })) ∧
    (let other := fun (k : Nat) => !(k == 0 || k == 8 || k == 9 || k == 11)
     (∀ x ∈ before, ¬ is other x) → is other f → ∃ t, exec (.ptpOtherDiscard n) s = .next t ∧ took t ∧ t = { s with et := t.et })) ∧
  (∀ n k, (∀ f ∈ (s.port n).rx, ¬ is (· == k) f) →
    (k = 0 → exec (.ptpSyncReceived n) s = .next s) ∧ (k = 8 → exec (.ptpFollowUpReceived n) s = .next s) ∧ (k = 11 → exec (.ptpAnnounceReceived n) s = .next s) ∧
    (k = 9 → s.rf TM_PTP_STAT TM_PTP_STAT_STEER = s.steerPick → exec (.ptpDelayRespReceived n) s = .next s)) ∧
  (∀ n, (∀ f ∈ (s.port n).rx, ¬ is (fun k => !(k == 0 || k == 8 || k == 9 || k == 11)) f) → exec (.ptpOtherDiscard n) s = .next s) ∧
  (∀ d announce,
    let k := 4 + d
    (¬ (d < 2 ∧ s.domOn d = true ∧ (s.ptpDomain d).master.isSome = true) → exec (.ptpLoss d announce) s = .next s) ∧
    (∀ m, d < 2 → s.domOn d = true → (s.ptpDomain d).master = some m → ∃ t, exec (.ptpLoss d announce) s = .next t ∧ t.time = s.time ∧ t.et = s.et ∧ t.events = s.events ∧
      (announce = false → t.ptpDomain d = s.ptpDomain d) ∧ (announce = true → (t.ptpDomain d).master ≠ some m ∧ (∀ f ∈ (t.ptpDomain d).foreign, f.id ≠ m) ∧ (t.ptpDomain d).done = false) ∧
      (s.qstate k ≠ qOff → t.qstate k = qDisq ∧ t.rf (TM_SRC_STAT k) TM_SRC_STAT_LEFT = s.qual k ∧ t.flag (TM_SRC_STAT k) TM_SRC_STAT_CLK_LOSS = true ∧
        t.source6 k = src0) ∧
      (s.qstate k = qOff → t.regs = s.regs ∧ t.tm.src = s.tm.src))) ∧
  (∀ d,
    let x := s.ptpDomain d
    let n := s.domPort d
    let q := (x.reqSeq + 1) % 65536
    (¬ (d < 2 ∧ s.domOn d = true ∧ x.master.isSome = true) → exec (.ptpDelayReqSend d) s = .next s) ∧
    (d < 2 → s.domOn d = true → x.master.isSome = true → s.flag (ET_P_STAT n) ET_P_STAT_LINK = false → ∃ t f m, exec (.ptpDelayReqSend d) s = .next t ∧
      t.ptpDomain d = { x with reqSeq := q, t3 := none } ∧ own n t ∧ f.cls = 0 ∧
      ((s.port n).txFill 0 + 94 ≤ txPart 0 → t.regs = s.regs ∧ t.port n = { s.port n with tx := (s.port n).tx ++ [f] }) ∧
      (txPart 0 < (s.port n).txFill 0 + 64 → (s.port n).c0q.length < 64 → t.regs = s.regs ∧ t.port n = { s.port n with c0q := (s.port n).c0q ++ [f], c0Gap := true }) ∧
      f.ptp = some (1, d, q) ∧ m.length = 44 ∧ ptpType m = 1 ∧
      ptpDomNum m = s.domNum d ∧ ptpSeq m = q ∧ (s.domUdp d = false → f.bytes = be 6 0x011B19000000 ++ be 6 (s.mac (ET_P_MAC_LO n)) ++ be 2 0x88F7 ++ m))) ∧
  (if s.flag TM_PTP_STAT TM_PTP_STAT_SET = true ∧ s.rf TM_PTP_STAT TM_PTP_STAT_STEER ≠ 0 ∧ 1000000 < mag (s.ptpDomain (s.rf TM_PTP_STAT TM_PTP_STAT_STEER - 1)).offs then
      ∃ t, exec .ptpLargeOffset s = .next t ∧ t.flag TM_PTP_STAT TM_PTP_STAT_LARGE_OFFSET = true ∧ OnlyRegs [TM_PTP_STAT] s t ∧
        ∀ f, TM_PTP_STAT_LARGE_OFFSET.apart f → t.rf TM_PTP_STAT f = s.rf TM_PTP_STAT f
    else exec .ptpLargeOffset s = .next s) ∧
  (if s.flag TM_PTP_STAT TM_PTP_STAT_SET = true then
      let second := (s.tm.ptp + 5 * 10 ^ 17) / 10 ^ 18
      ∃ t, exec .ptpSecondSnapshot s = .next t ∧ t.reg64 TM_PTP_SNAP_SEC_LO = second % 2 ^ 48 ∧ (t.reg TM_PTP_SNAP_T32).toNat = second * 10 ^ 9 % 2 ^ 32 ∧
        OnlyRegs [TM_PTP_SNAP_SEC_LO, TM_PTP_SNAP_SEC_HI, TM_PTP_SNAP_T32] s t
    else exec .ptpSecondSnapshot s = .next s) ∧
  (∀ r, ∃ t, exec (.ptpSnapSecLoRead r) s = .next t ∧ t = { s with out := t.out, shadow := t.shadow } ∧ t.out = .regRead r TM_PTP_SNAP_SEC_LO (s.readReg TM_PTP_SNAP_SEC_LO) :: s.out ∧
    (∀ a ∈ [TM_PTP_SNAP_SEC_HI, TM_PTP_SNAP_T32], tblGet none t.shadow (pairKey r a) = some (s.readReg a)) ∧
    ∀ k, k ≠ pairKey r TM_PTP_SNAP_SEC_HI → k ≠ pairKey r TM_PTP_SNAP_T32 → tblGet none t.shadow k = tblGet none s.shadow k)

/-- R48, R50, R313, R316, R317, R325. -/
def Obligations.TimingCommandsTakeEffect : Prop := ∀ (s : State) (c : Cmd),
  let sel := s.rf TM_STAT TM_STAT_SEL
  (Taken 0x0801 c s → c.payload.length = 6 →
    let k := c.f 0 2 0
    let freq := fget (c.w 2) TM_SRC_FREQ_FREQ
    let fits := imagesBad c [(1, TM_SRC_CTL k)] = none ∧ (k < 4 → 10000000 ≤ freq ∧ freq ≤ 800000000)
    let order := fget (c.w 3) TM_SRC_LIM_SOFT < fget (c.w 3) TM_SRC_LIM_HARD
    let keeps := fget (c.w 1) TM_SRC_CTL_EN = s.rf (TM_SRC_CTL k) TM_SRC_CTL_EN ∧ freq = s.rf (TM_SRC_FREQ k) TM_SRC_FREQ_FREQ ∧
      fget (c.w 1) TM_SRC_CTL_PPS_EN = s.rf (TM_SRC_CTL k) TM_SRC_CTL_PPS_EN ∧
      fget (c.w 1) TM_SRC_CTL_PPS_POL = s.rf (TM_SRC_CTL k) TM_SRC_CTL_PPS_POL ∧ fget (c.w 5) TM_SRC_PPS_PPSDLY = s.rf (TM_SRC_PPS k) TM_SRC_PPS_PPSDLY
    let used := sel = k ∧ (s.core = coreLocked ∨ s.core = coreSwitching)
    (6 ≤ k → Refuses (.tmSrcConfig c) 0x0801 c s stBadParam 0 []) ∧
    (k < 6 → fits → ¬ order → Refuses (.tmSrcConfig c) 0x0801 c s stBadParam 3 []) ∧
    (k < 6 → fits → order → imagesBad c [(3, TM_SRC_LIM k), (4, TM_SRC_TIME k), (5, TM_SRC_PPS k)] = none → tblGet [] s.tm.cfgs k = [] →
      (used → ¬ keeps → Refuses (.tmSrcConfig c) 0x0801 c s stWrongState 0 []) ∧
      ((¬ used ∨ keeps) → Fits 0 c s → ∃ e, Answers (.tmSrcConfig c) 0x0801 c s [] e ∧ e = { s.dequeue 0x0801 c with tm := { s.tm with cfgs := e.tm.cfgs } } ∧
        tblGet [] e.tm.cfgs k = c.payload.drop 1 ∧ ∀ j, j ≠ k → tblGet [] e.tm.cfgs j = tblGet [] s.tm.cfgs j))) ∧
  (Taken 0x0802 c s → c.payload.length = 1 →
    (6 ≤ fget (c.w 0) TM_CTL_MSEL ∨ 100 < fget (c.w 0) TM_CTL_SLEW → Refuses (.tmRefSelect c) 0x0802 c s stBadParam 0 []) ∧
    (fget (c.w 0) TM_CTL_MSEL < 6 → fget (c.w 0) TM_CTL_SLEW ≤ 100 → Fits 0 c s → ∃ e, Answers (.tmRefSelect c) 0x0802 c s [] e ∧ e = { s.dequeue 0x0802 c with regs := e.regs } ∧
      (∀ f ∈ [TM_CTL_MANUAL, TM_CTL_MSEL, TM_CTL_REVERT, TM_CTL_SLEW], e.rf TM_CTL f = fget (c.w 0) f) ∧ ∀ o, o ∉ [CP_Q_STAT, TM_CTL] → e.reg o = s.reg o)) ∧
  (Taken 0x0803 c s → c.payload.length = 2 → imagesBad c [(0, TM_HO_CFG), (1, TM_LOCOSC)] = none →
    let changes := fget (c.w 1) TM_LOCOSC_FREQ ≠ s.rf TM_LOCOSC TM_LOCOSC_FREQ
    (changes → (s.core = coreHoldover ∨ s.core = coreFreeRun) → Refuses (.tmHoConfig c) 0x0803 c s stWrongState 0 []) ∧
    ((¬ changes ∨ (s.core ≠ coreHoldover ∧ s.core ≠ coreFreeRun)) → Fits 0 c s → ∃ e, Answers (.tmHoConfig c) 0x0803 c s [] e ∧
      e = { s.dequeue 0x0803 c with regs := e.regs, tm := { s.tm with counted := e.tm.counted } } ∧ e.rf TM_HO_CFG TM_HO_CFG_SPEC = fget (c.w 0) TM_HO_CFG_SPEC ∧
      e.rf TM_HO_CFG TM_HO_CFG_AGE = fget (c.w 0) TM_HO_CFG_AGE ∧ e.rf TM_LOCOSC TM_LOCOSC_FREQ = fget (c.w 1) TM_LOCOSC_FREQ ∧
      (changes → e.tm.counted = [] ∧ e.trained = false ∧ e.rf TM_HO_STAT TM_HO_STAT_TRAIN_S = 0) ∧ (¬ changes → e.tm.counted = s.tm.counted ∧ e.reg TM_HO_STAT = s.reg TM_HO_STAT) ∧
      ∀ o, o ∉ [CP_Q_STAT, TM_HO_CFG, TM_LOCOSC, TM_HO_STAT] → e.reg o = s.reg o)) ∧
  (Taken 0x0804 c s → c.payload.length = 13 →
    let m := c.f 0 7 0
    imagesBad c (outRegs m) = none → Fits 0 c s → ∃ e, Answers (.tmOutConfig c) 0x0804 c s [] e ∧
      e = { s.dequeue 0x0804 c with regs := e.regs, tm := { s.tm with ck := e.tm.ck, ckWait := e.tm.ckWait, frames := e.tm.frames } } ∧
      ∀ n < 4,
        (bit m n = true → e.rf (TM_CK_CTL n) TM_CK_CTL_EN = fget (c.w (1 + n)) TM_CK_CTL_EN ∧ e.rf (TM_CK_CTL n) TM_CK_CTL_FREQ = fget (c.w (1 + n)) TM_CK_CTL_FREQ) ∧
        (bit m n = false → e.reg (TM_CK_CTL n) = s.reg (TM_CK_CTL n)) ∧
        (bit m (4 + n) = true → (∀ f ∈ [TM_FR_CTL_EN, TM_FR_CTL_POL, TM_FR_CTL_WIDTH], e.rf (TM_FR_CTL n) f = fget (c.w (5 + 2 * n)) f) ∧ e.reg (TM_FR_OFS n) = c.w (6 + 2 * n)) ∧
        (bit m (4 + n) = false → e.reg (TM_FR_CTL n) = s.reg (TM_FR_CTL n) ∧ e.reg (TM_FR_OFS n) = s.reg (TM_FR_OFS n)) ∧
        (e.reg (TM_CK_CTL n) = s.reg (TM_CK_CTL n) → tblGet 0 e.tm.ck n = tblGet 0 s.tm.ck n ∧ bit e.tm.ckWait n = bit s.tm.ckWait n) ∧
        (e.reg (TM_CK_CTL n) ≠ s.reg (TM_CK_CTL n) → tblGet 0 e.tm.ck n = 0 ∧ bit e.tm.ckWait n = e.flag (TM_CK_CTL n) TM_CK_CTL_EN) ∧
        bit e.tm.frames n = (bit s.tm.frames n && e.flag (TM_FR_CTL n) TM_FR_CTL_EN)) ∧
  (Taken 0x0805 c s → c.payload.length = 5 →
    let force := c.f 0 31 31 = 1
    let fromPtp := c.f 0 30 30 = 1
    let ok := (s.running = true → force) ∧ s.core = coreLocked ∧ s.usesPps sel = true ∧ (fromPtp → s.flag TM_PTP_STAT TM_PTP_STAT_SET = true)
    (c.q 1 % 8192 ≠ 0 → Refuses (.tmEpochLoad c) 0x0805 c s stBadParam 1 []) ∧
    (c.q 1 % 8192 = 0 → ¬ ok → Refuses (.tmEpochLoad c) 0x0805 c s stWrongState 0 []) ∧
    (c.q 1 % 8192 = 0 → ok → Fits 0 c s → ∃ e, Answers (.tmEpochLoad c) 0x0805 c s [] e ∧ e = { s.dequeue 0x0805 c with regs := e.regs, time := e.time, tm := e.tm } ∧
      e.reg64 TM_ATC_LOAD_LO = c.q 1 ∧ e.flag TM_ATC_CTL TM_ATC_CTL_ARM = true ∧ e.rf TM_ATC_CTL TM_ATC_CTL_RATE_N = s.rf TM_ATC_CTL TM_ATC_CTL_RATE_N ∧
      e.time = { s.time with stagedAtc := c.q 1, stagedSec := if fromPtp then 0 else c.q 3, stagedPtp := decide fromPtp, armedAt := s.time.cycles } ∧
      e.tm = { s.tm with edge := none, epoch2 := false } ∧ (s.running = true → e.reg TM_ATC_STAT = s.reg TM_ATC_STAT) ∧
      (s.running = false → e.rf TM_ATC_STAT TM_ATC_STAT_STATE = 1) ∧ ∀ o, o ∉ [CP_Q_STAT, TM_ATC_LOAD_LO, TM_ATC_LOAD_HI, TM_ATC_CTL, TM_ATC_STAT] → e.reg o = s.reg o)) ∧
  (Taken 0x0807 c s → c.payload.length = 3 →
    let asym := fun (d : Nat) => sext 32 (c.w (1 + d)).toNat
    let changed := fun (d : Nat) => domSettings (c.w 0) (asym d) d ≠ domSettings (s.reg TM_PTP_CTL) (s.ptpDomain d).asym d
    let used := fun (d : Nat) => sel = 4 + d ∧ (s.core = coreLocked ∨ s.core = coreSwitching)
    (∀ d < 2, changed d → used d → Refuses (.tmPtpConfig c) 0x0807 c s stWrongState 0 []) ∧
    ((∀ d < 2, changed d → ¬ used d) → Fits 0 c s → ∃ e, Answers (.tmPtpConfig c) 0x0807 c s [] e ∧
      (∀ f ∈ [TM_PTP_CTL_ENA, TM_PTP_CTL_ENB, TM_PTP_CTL_PORTA, TM_PTP_CTL_PORTB, TM_PTP_CTL_TRANSA, TM_PTP_CTL_TRANSB, TM_PTP_CTL_DOMA, TM_PTP_CTL_DOMB, TM_PTP_CTL_CLASS_MAX],
        e.rf TM_PTP_CTL f = fget (c.w 0) f) ∧ e.time = s.time ∧ e.et = s.et ∧ e.mem = s.mem ∧ e.events = s.events ∧
      ∀ d < 2, (¬ changed d → e.ptpDomain d = s.ptpDomain d ∧ e.reg (TM_SRC_STAT (4 + d)) = s.reg (TM_SRC_STAT (4 + d)) ∧ e.source6 (4 + d) = s.source6 (4 + d)) ∧
        (changed d → e.ptpDomain d = { ptpDom0 with asym := asym d, reqSeq := (s.ptpDomain d).reqSeq } ∧ e.source6 (4 + d) = src0 ∧
          e.qstate (4 + d) = if s.qstate (4 + d) = qOff then qOff else qAbsent))) ∧
  (Taken 0x0809 c s → c.payload = [] → Fits 25 c s → Answers (.tmStatus c) 0x0809 c s ([s.reg TM_STAT, s.reg TM_HO_STAT, s.reg TM_HO_ERR, w32 s.hoLeft] ++
    ((List.range 6).flatMap fun k => [s.reg (TM_SRC_STAT k), s.reg (TM_SRC_OFFS k), s.reg (TM_SRC_DRIFT k)]) ++
    [s.reg TM_PTP_STAT, BitVec.ofInt 32 (s.ptpDomain 0).offs, BitVec.ofInt 32 (s.ptpDomain 1).offs]) (s.dequeue 0x0809 c)) ∧
  (Taken 0x080A c s → c.payload.length = 1 →
    let l := tblGet [] s.tm.ts (c.f 0 1 0)
    Fits (3 + 2 * l.length) c s → Answers (.tmPtpTsRead c) 0x080A c s ([s.reg TM_PTP_SNAP_SEC_LO, s.reg TM_PTP_SNAP_SEC_HI, s.reg TM_PTP_SNAP_T32] ++
      l.flatMap fun x => [w32 (b2n x.tx * 2 ^ 31 + x.kind % 16 * 2 ^ 24 + x.dom % 256 * 2 ^ 16 + x.seq % 2 ^ 16), w32 x.ts]) (s.dequeue 0x080A c))

/-- R330, R333 to R356. -/
def Obligations.DramServesAndRefreshes : Prop := ∀ (s : State), s.on = true →
  let count := fun (a : Nat) => w32 (min (2 ^ 32 - 1) ((s.reg a).toNat + 1))
  (∀ a, s.drAddr (s.drChan a) (s.drLocal a) = a) ∧
  (∀ m cls w a bs n extra,
    let len := if w = true then bs.length else n
    let c := if extra = true ∧ cls = 1 then 2 else cls
    let r : DrReq := { master := m, cls := c, write := w, addr := a, data := if w = true then bs else [], len := len, promoted := false, passed := 0 }
    let ch := s.drChan a
    ((s.drReady = false ∨ 3 < cls) → exec (.dramRequest m cls w a bs n extra) s = .next s) ∧
    (s.drReady = true → cls ≤ 3 → s.drSize < a + len → exec (.dramRequest m cls w a bs n extra) s = .next ((s.violation m avAddress a 0).emit (.dramError m a))) ∧
    (s.drReady = true → cls ≤ 3 → a + len ≤ s.drSize → a % 256 + len ≤ 256 → ∃ t, exec (.dramRequest m cls w a bs n extra) s = .next t ∧
      t = { s with regs := t.regs, fresh := t.fresh, dr := { s.dr with q := t.dr.q, held := t.dr.held, pd := t.dr.pd } } ∧ (∀ k, k ≠ ch → t.drQ k = s.drQ k) ∧
      (drRoom (s.drQ ch) c = true → (∀ h ∈ s.dr.held, r.behind h = false) → t.drQ ch = s.drQ ch ++ [r] ∧ t.dr.held = s.dr.held ∧
        tblGet false t.dr.pd (rankNo ch (s.drRank a)) = false ∧ ∀ j, j ≠ rankNo ch (s.drRank a) → tblGet false t.dr.pd j = tblGet false s.dr.pd j) ∧
      ((drRoom (s.drQ ch) c = false ∨ ∃ h ∈ s.dr.held, r.behind h = true) → t.drQ ch = s.drQ ch ∧ t.dr.held = s.dr.held ++ [r] ∧ t.dr.pd = s.dr.pd) ∧
      t.reg DR_C1_OVERRUN = (if extra = true ∧ cls = 1 then count DR_C1_OVERRUN else s.reg DR_C1_OVERRUN) ∧ ∀ o, o ≠ DR_C1_OVERRUN → t.reg o = s.reg o)) ∧
  (∀ n found,
    ((s.drReady = false ∨ ∀ r ∈ s.drQ n, r.write = true) → exec (.dramReadComplete n found) s = .next s) ∧
    (∀ r, s.drReady = true → s.dr.held = [] → s.drQ n = [r] → r.write = false → r.cls ≤ 3 → s.drChan r.addr = n → ∃ t, exec (.dramReadComplete n found) s = .next t ∧ t.mem = s.mem ∧ t.dr.held = [] ∧
      let cs := codewords r.addr r.len
      let hit := fun (w : Nat) => tblGet false s.dr.poison w || (cs.zip found).any fun e => e.1 == w && e.2 == 2
      let single := ((cs.zip found).filter fun e => e.2 == 1 && !tblGet false s.dr.poison e.1).map (·.1)
      (r.master ≠ drPatrol → t.out.head? = some (.dram r.master r.addr (s.drData r) (cs.any hit))) ∧
      (cs.any hit = false → single = [] → t.drQ n = [] ∧ t.regs = s.regs ∧ t.log = s.log) ∧
      (cs.any hit = true → t.flag DR_STAT DR_STAT_UE_SEEN = true ∧ (single = [] → t.drQ n = [])) ∧
      (∀ w, cs.filter hit = [w] → t.reg (DR_CH_UE (s.drChan (w * 8))) = count (DR_CH_UE (s.drChan (w * 8))) ∧ t.reg64 (DR_CH_UEADDR_LO (s.drChan (w * 8))) = w * 8 % 2 ^ 64 ∧
        t.log.head?.map (fun e => (e.code, e.sev, e.detail)) = some (0x0901, 2, loHi (w * 8) ++ [w32 (s.drChan (w * 8))])) ∧
      (∀ w, single = [w] → t.reg (DR_CH_CE (s.drChan (w * 8))) = count (DR_CH_CE (s.drChan (w * 8))) ∧ t.flag DR_STAT DR_STAT_CE_SEEN = true ∧
        (s.drChan (w * 8) = n → ∃ b, t.drQ n = [b] ∧ b.write = true ∧ b.cls = 3 ∧ b.addr = w * 8))) ∧
    (∀ x y, s.drReady = true → s.dr.held = [] → s.drQ n = [x, y] → x.cls = 1 → y.cls = 0 → x.promoted = false → x.write = false → y.write = false → y.overlaps x = false → y.master ≠ drPatrol →
      ∃ t, exec (.dramReadComplete n []) s = .next t ∧ t.drQ n = [x] ∧ t.out.head? = some (.dram y.master y.addr (s.drData y) (s.poisoned y.addr y.len))) ∧
    (∀ w r, s.drReady = true → s.dr.held = [] → s.dr.poison = [] → s.drQ n = [w, r] → w.cls = 1 → r.cls = 1 → w.write = true → r.write = false →
      w.done = 0 → r.done = 0 → r.data = [] → w.master = r.master → r.master ≠ drPatrol → w.addr < r.addr + r.len → r.addr < w.addr + w.len →
      ∃ t, exec (.dramReadComplete n []) s = .next t ∧ t.drQ n = [] ∧ t.mem = (s.memWrite w.addr w.data).mem ∧
        t.out.head? = some (.dram r.master r.addr ((s.memWrite w.addr w.data).memRead r.addr r.len) false)) ∧
    (∀ i, ((s.drQ n)[i]? = none → exec (.requestAgePromote n i) s = .next s) ∧ ∀ r, (s.drQ n)[i]? = some r →
      ((r.promoted = true ∨ r.cls = 0) → exec (.requestAgePromote n i) s = .next s) ∧
      (r.promoted = false → r.cls ≠ 0 → ∃ t, exec (.requestAgePromote n i) s = .next t ∧ t.drQ n = (s.drQ n).set i { r with promoted := true } ∧ (∀ k, k ≠ n → t.drQ k = s.drQ k) ∧
        t.reg (DR_CH_PROMOTED n) = count (DR_CH_PROMOTED n) ∧ t = { s with regs := t.regs, fresh := t.fresh, dr := { s.dr with q := t.dr.q } } ∧ ∀ o, o ≠ DR_CH_PROMOTED n → t.reg o = s.reg o))) ∧
  (∀ n r,
    let k := rankNo n r
    let here := s.drReady = true ∧ n < 2 ^ s.drM ∧ r < s.drRanks
    let post := tblGet 0 s.dr.post k
    let closed := fun (t : State) => ∀ b, tblGet bank0 t.dr.banks b = if b / 32 = k then { tblGet bank0 s.dr.banks b with opened := false } else tblGet bank0 s.dr.banks b
    let waits := ∃ q ∈ s.drQ n, q.cls ≤ 1
    let asleep := tblGet false s.dr.pd k = true
    (¬ here → exec (.refreshDue n r) s = .next s ∧ exec (.postponedRefreshMakeup n r) s = .next s ∧ exec (.rankPowerDown n r) s = .next s ∧ ∀ b, exec (.rowIdleClose n r b) s = .next s) ∧
    (here →
      (post < 8 → asleep → ∃ t, exec (.refreshDue n r) s = .next t ∧ closed t ∧ tblGet false t.dr.pd k = false ∧ t.dr.post = s.dr.post ∧ t.regs = s.regs) ∧
      (post < 8 → ¬ asleep → ¬ waits → ∃ t, exec (.refreshDue n r) s = .next t ∧ closed t ∧ t = { s with dr := { s.dr with banks := t.dr.banks, pd := t.dr.pd } } ∧
        ∀ j, tblGet false t.dr.pd j = tblGet false s.dr.pd j) ∧
      (¬ asleep → waits → post < 8 → ∃ t, exec (.refreshDue n r) s = .next t ∧ tblGet 0 t.dr.post k = post + 1 ∧ t.dr.banks = s.dr.banks ∧
        (tblGet 0 s.dr.post (rankNo n (1 - r)) = 0 → t.rf (DR_CH_STAT n) DR_CH_STAT_POSTPONED = post + 1) ∧ OnlyRegs [DR_CH_STAT n] { s with dr := t.dr } t ∧ t.dr.q = s.dr.q) ∧
      (8 ≤ post → ∃ t, exec (.refreshDue n r) s = .next t ∧ tblGet 0 t.dr.post k = 0 ∧ closed t ∧ t.reg (DR_CH_FORCED n) = count (DR_CH_FORCED n) ∧
        t.flag DR_STAT DR_STAT_FORCED_SEEN = true ∧ tblGet false t.dr.pd k = false ∧
        ((∀ q ∈ s.drQ n, q.cls = 1 → q.done = 0) → t.dr.q = s.dr.q ∧ t.mem = s.mem) ∧
        ∀ q, s.drQ n = [q] → q.cls = 1 → q.write = true → 0 < q.done → q.len ≤ q.done + q.burst → s.dr.held = [] → s.dr.poison = [] →
          t.drQ n = [] ∧ t.mem = (s.memWrite (q.addr + q.done) (q.data.drop q.done)).mem) ∧
      (s.drQ n = [] → post ≠ 0 → ∃ t, exec (.postponedRefreshMakeup n r) s = .next t ∧ tblGet 0 t.dr.post k = post - 1 ∧ closed t ∧ tblGet false t.dr.pd k = false ∧ OnlyRegs [DR_CH_STAT n] { s with dr := t.dr } t) ∧
      ((s.drQ n ≠ [] ∨ post = 0) → exec (.postponedRefreshMakeup n r) s = .next s) ∧
      (let idle := (∀ q ∈ s.drQ n, s.drRank q.addr ≠ r) ∧ s.rf DR_CFG DR_CFG_PD_IDLE ≠ 0
       (idle → ∃ t, exec (.rankPowerDown n r) s = .next t ∧ tblGet false t.dr.pd k = true ∧ closed t ∧ t = { s with dr := { s.dr with pd := t.dr.pd, banks := t.dr.banks } } ∧
         ∀ j, j ≠ k → tblGet false t.dr.pd j = tblGet false s.dr.pd j) ∧
       (¬ idle → exec (.rankPowerDown n r) s = .next s)) ∧
      ∀ b,
        let idle := b < 32 ∧ ∀ q ∈ s.drQ n, ¬ (s.drRank q.addr = r ∧ s.drBankOf q.addr = b)
        (idle → ∃ t, exec (.rowIdleClose n r b) s = .next t ∧ t = { s with dr := { s.dr with banks := t.dr.banks } } ∧
          ∀ j, tblGet bank0 t.dr.banks j = if j = k * 32 + b then { tblGet bank0 s.dr.banks j with opened := false } else tblGet bank0 s.dr.banks j) ∧
        (¬ idle → exec (.rowIdleClose n r b) s = .next s))) ∧
  (∀ found,
    let a := s.dr.patrol * 8
    let n := s.drChan a
    let r := s.patrolReq
    let bad := found = 2 ∨ s.poisoned a 8 = true
    r.cls = 3 ∧ r.write = false ∧ r.addr = a ∧ r.len = 8 ∧ r.master = drPatrol ∧
    if s.drReady = true ∧ s.rf DR_MAINT DR_MAINT_SCRUB_H ≠ 0 then ∃ t, exec (.scrubPatrolRead found) s = .next t ∧ t.dr.patrol = (s.dr.patrol + 1) % (s.drSize / 8) ∧ t.mem = s.mem ∧
      (s.drQ n = [] → s.dr.held = [] →
        (bad → t.reg (DR_CH_UE n) = count (DR_CH_UE n) ∧ t.reg64 (DR_CH_UEADDR_LO n) = a % 2 ^ 64 ∧ t.drQ n = []) ∧
        (¬ bad → found = 1 → t.reg (DR_CH_CE n) = count (DR_CH_CE n) ∧ ∃ b, t.drQ n = [b] ∧ b.write = true ∧ b.cls = 3 ∧ b.addr = a) ∧
        (¬ bad → found ≠ 1 → t.regs = s.regs ∧ t.drQ n = [])) ∧
      (∀ q, s.drQ n = [q] → q.cls ≤ 1 → s.dr.held = [] → t.drQ n = [q, r] ∧ t = { s with dr := t.dr })
    else exec (.scrubPatrolRead found) s = .next s) ∧
  (∀ n, (s.drQ n = [] → s.drBurst n = s) ∧
    ∀ q, s.drQ n = [q] → q.cls ≤ 3 → q.write = true → q.done + q.burst < q.len → s.dr.poison = [] →
      (s.drBurst n).drQ n = [{ q with done := q.done + q.burst }] ∧ (s.drBurst n).mem = (s.memWrite (q.addr + q.done) (slice q.data q.done q.burst)).mem) ∧
  ((s.rf DR_STAT DR_STAT_STATE = drOff → exec .memoryRailFault s = .next s) ∧
    (s.rf DR_STAT DR_STAT_STATE ≠ drOff → ∃ (t : State) (r v i : Nat), r ∈ [9, 10, 11] ∧ exec .memoryRailFault s = .next t ∧ t.drFailed = true ∧ t.flag DR_STAT DR_STAT_RAIL_FAULT = true ∧
      t.dr = { s.dr with q := [], held := [] } ∧ (∀ k ∈ [9, 10, 11], t.rfb PW_RAIL PW_RAIL_GOOD k = false) ∧ t.rfb PW_RAIL PW_RAIL_FAULT r = true ∧ t.reg PW_RAIL_FAULTS = count PW_RAIL_FAULTS ∧
      t.log.head?.map (fun e => (e.code, e.sev, e.detail)) = some (0x0B03, 2, [w32 r, w32 (v % 65536), w32 (i % 65536)]) ∧
      t = { s with regs := t.regs, fresh := t.fresh, out := t.out, log := t.log, dr := t.dr, free := t.free } ∧ SameRegs [DR_STAT, PW_RAIL, PW_RAIL_FAULTS, PW_LOG_SEQ] s t))

/-- R329, R361 to R366. -/
def Obligations.MemoryCommandsTakeEffect : Prop := ∀ (s : State) (c : Cmd),
  (Taken 0x0901 c s → c.payload = [] → Fits 83 c s → Answers (.drStatus c) 0x0901 c s ([DR_STAT, DR_CFG, DR_C1_OVERRUN].map s.reg ++
    (List.range 16).flatMap fun n => [DR_CH_STAT n, DR_CH_CE n, DR_CH_UE n, DR_CH_FORCED n, DR_CH_PROMOTED n].map s.reg) (s.dequeue 0x0901 c)) ∧
  (Taken 0x0902 c s → c.payload.length = 19 →
    let geometry := fget (c.w 0) DR_CFG_NCH < 3 ∧ fget (c.w 0) DR_CFG_DENS < 3 ∧ fget (c.w 0) DR_CFG_RATE < 3
    let timing := (1 ≤ fget (c.w 1) DR_TIM_TRFC ∧ fget (c.w 1) DR_TIM_TRFC ≤ 10) ∧ (1 ≤ fget (c.w 1) DR_TIM_TRC ∧ fget (c.w 1) DR_TIM_TRC ≤ 15) ∧
      (3 ≤ fget (c.w 1) DR_TIM_RL ∧ fget (c.w 1) DR_TIM_RL ≤ 24) ∧ (1 ≤ fget (c.w 1) DR_TIM_WL ∧ fget (c.w 1) DR_TIM_WL ≤ 24)
    let refresh := 50 ≤ fget (c.w 2) DR_MAINT_REFI ∧ fget (c.w 2) DR_MAINT_REFI ≤ 1000
    (¬ geometry → Refuses (.drBoardSet c) 0x0902 c s stBadParam 0 []) ∧ (geometry → ¬ timing → Refuses (.drBoardSet c) 0x0902 c s stBadParam 1 []) ∧
    (geometry → timing → ¬ refresh → Refuses (.drBoardSet c) 0x0902 c s stBadParam 2 []) ∧
    (geometry → timing → refresh → Fits 0 c s → ∃ e, Answers (.drBoardSet c) 0x0902 c s [] e ∧
      e = { s.dequeue 0x0902 c with dr := { s.dr with boards := boardCopies s.dr.boards c.payload } } ∧ e.board = some c.payload)) ∧
  (Taken 0x0903 c s → c.payload.length = 2 →
    let idle := s.rf IX_STAT IX_STAT_STATE = 0 ∧ s.rf SF_UB_STAT SF_UB_STAT_STATE = 0 ∧ (∀ k < 64, ¬ ((s.slice k).hdr.ring = true ∧ s.sliceState k = mdRunning)) ∧
      (∀ n < 32, s.rf (DM_CH_STAT n) DM_CH_STAT_STATE ≠ 1 ∧ s.rf (DM_CH_STAT n) DM_CH_STAT_STATE ≠ 2)
    let memory := s.drReady = true ∨ (s.drFailed = true ∧ s.rf DR_STAT DR_STAT_FAIL_CH ≠ 0 ∧ s.flag DR_STAT DR_STAT_RAIL_FAULT = false)
    (s.dr.sweep ≠ none → Refuses (.drSweep c) 0x0903 c s stResourceBusy 0 []) ∧
    (s.dr.sweep = none → ¬ (idle ∧ memory) → Refuses (.drSweep c) 0x0903 c s stWrongState 0 []) ∧
    (s.dr.sweep = none → idle → memory → s.cp.running.length < 8 → ∃ e, Progresses (.drSweep c) 0x0903 c s [] e ∧ e.dr = { s.dr with sweep := some (c.f 0 15 0, bit (c.w 1).toNat 0) } ∧
      e.flag DR_STAT DR_STAT_SWEEP_RUN = true ∧ e.flag (DM_CH_STAT 31) DM_CH_STAT_FW_OWNED = true ∧ e.mem = s.mem)) ∧
  (Taken 0x0904 c s → c.payload = [] →
    (s.dr.storing = true → Refuses (.drTableStore c) 0x0904 c s stResourceBusy 0 []) ∧
    (s.dr.storing = false → s.cp.running.length < 8 → ∃ e, Progresses (.drTableStore c) 0x0904 c s [] e ∧ e.dr = { s.dr with storing := true, tables := e.dr.tables } ∧ e.mem = s.mem ∧
      e.dr.tables.length = s.dr.tables.length ∧ ∀ x ∈ s.dr.tables, (∀ y ∈ s.dr.tables, y.age ≤ x.age) → x ∈ e.dr.tables)) ∧
  (Taken 0x0905 c s → c.payload.length = 2 →
    let ages := 10 ≤ c.f 0 31 24 ∧ 10 ≤ c.f 0 23 16 ∧ 1 ≤ c.f 0 15 8
    (¬ ages → Refuses (.drSchedConfig c) 0x0905 c s stBadParam 0 []) ∧
    (ages → Fits 0 c s → ∃ e, Answers (.drSchedConfig c) 0x0905 c s [] e ∧ e = { s.dequeue 0x0905 c with regs := e.regs, dr := { s.dr with patrol := 0 } } ∧
      e.rf DR_SCHED DR_SCHED_AGE_C1 = c.f 0 31 24 ∧ e.rf DR_SCHED DR_SCHED_AGE_C2 = c.f 0 23 16 ∧ e.rf DR_SCHED DR_SCHED_AGE_C3 = c.f 0 15 8 ∧
      e.rf DR_MAINT DR_MAINT_SCRUB_H = c.f 1 31 16 ∧ e.rf DR_MAINT DR_MAINT_REFI = s.rf DR_MAINT DR_MAINT_REFI ∧ ∀ o, o ∉ [CP_Q_STAT, DR_SCHED, DR_MAINT] → e.reg o = s.reg o)) ∧
  (s.on = true →
    ((s.dr.sweep = none ∨ s.runningOp 0x0903 = none) → exec .drSweepDone s = .next s) ∧
    (∀ mask load q, s.dr.sweep = some (mask, load) → s.runningOp 0x0903 = some q →
      let chans := (List.range (2 ^ s.drM)).filter (bit mask)
      let asked := (List.range 16).filter (bit mask)
      let rank := 2 ^ (28 + s.rf DR_CFG DR_CFG_DENS)
      ∃ (e : State) (ws : List Word), exec .drSweepDone s = .next (e.final q stOk ws) ∧ ws.length = asked.length ∧ e.dr.sweep = none ∧ e.flag DR_STAT DR_STAT_SWEEP_RUN = false ∧
        e.flag (DM_CH_STAT 31) DM_CH_STAT_FW_OWNED = false ∧ e.cp = s.cp ∧
        (∀ a, (∀ n ∈ chans, ∀ r < s.drRanks, ∀ i < 1048576, a ≠ s.drAddr n (rank * (r + 1) - 1048576 + i)) → tblGet 0 e.mem a = tblGet 0 s.mem a) ∧
        (∀ n ∈ chans, ∀ r < s.drRanks, ∀ i < 131072, tblGet false e.dr.poison (s.drAddr n (rank * (r + 1) - 1048576 + 8 * i) / 8) = false) ∧
        (∀ n < 16, n ∉ chans → ∀ j < 16, e.reg (DR_DLY n j) = s.reg (DR_DLY n j)) ∧
        ∀ (i n : Nat), asked[i]? = some n → n ∈ chans → ∃ w : Word, ws[i]? = some w ∧ fget w ⟨24, 8⟩ ≤ 2 ∧
          let band := s.rf (DR_CH_STAT n) DR_CH_STAT_BAND
          (fget w ⟨24, 8⟩ ≠ 0 → ∀ j < 16, e.reg (DR_DLY n j) = s.reg (DR_DLY n j)) ∧
          (fget w ⟨24, 8⟩ = 0 → 16 ≤ fget w ⟨16, 7⟩ ∧ 16 ≤ fget w ⟨8, 7⟩ ∧ (∀ l < 4, e.flag (DR_DLY n (4 * band + l)) DR_DLY_VALID = true ∧
              e.rf (DR_DLY n (4 * band + l)) DR_DLY_SLEW = s.rf (DR_DLY n (4 * band + l)) DR_DLY_SLEW) ∧
            (∀ j < 16, j / 4 ≠ band → e.reg (DR_DLY n j) = s.reg (DR_DLY n j)) ∧ (load = true → tblGet [] e.dr.phy n = (List.range 4).map fun l => e.reg (DR_DLY n (4 * band + l))) ∧
            tblGet 0 e.dr.temps (4 * n + band) = sext 8 (s.rf (DR_CH_STAT n) DR_CH_STAT_TEMP))) ∧
    ((s.dr.storing = false ∨ s.runningOp 0x0904 = none) → exec .drTableStoreDone s = .next s) ∧
    (∀ q, s.dr.storing = true → s.runningOp 0x0904 = some q → ∃ (e : State) (t : DrTable), exec .drTableStoreDone s = .next (e.final q stOk []) ∧ e = { s with dr := { s.dr with storing := false, tables := tableCopies s.dr.tables t } } ∧ e.table = some t ∧
      t.regs.length = 256 ∧ (∀ n < 16, ∀ j < 16, t.regs[16 * n + j]? = some (s.reg (DR_DLY n j))) ∧ (∀ i < 64, t.temps[i]? = some (tblGet 0 s.dr.temps i)) ∧ t.rate = s.rf DR_CFG DR_CFG_RATE))

/-- R373. -/
def Obligations.FillWritesItsConstant : Prop := ∀ (s : State) (n j : Nat) (d : DmDesc) (b : DmBeat), s.on = true → (s.dmc n).descs[j]? = some d → d.op = 1 → d.firstBeat = some b →
  s.beatUndecoded d b = none → (s.dmc n).beatHeld j d b = false →
  let a := d.dst + b.off
  let const := fun (x : Nat) => (BitVec.ofNat 8 (d.src / 256 ^ (x % 8)) : Byte)
  beatReads d b = [] ∧
  (∀ src dst, exec (.dmaBeatDone n j src dst) s = exec (.dmaBeatDone n j [] []) s) ∧
  ∃ t, exec (.dmaBeatDone n j [] []) s = .next t ∧
    (a < 2 ^ 63 → ∀ x, tblGet 0 t.mem x = if a ≤ x ∧ x < a + b.len then const x else tblGet 0 s.mem x) ∧
    (2 ^ 63 ≤ a → t.mem = s.mem ∧ Out.hostWrite (a - 2 ^ 63) ((List.range b.len).map fun i => const (a + i)) ∈ t.out)

/-- R370 to R389. -/
def Obligations.DmaChannelsRunChains : Prop := ∀ (s : State) (n : Nat), n < 32 →
  let count := fun (a : Nat) => w32 (min (2 ^ 32 - 1) ((s.reg a).toNat + 1))
  let c := s.dmc n
  let st := s.dmState n
  let active := st = dmRunning ∨ st = dmWaiting
  let owned := s.flag (DM_CH_STAT n) DM_CH_STAT_FW_OWNED = true
  let shut := fun (r : Requester) => owned ∧ r ≠ .cp
  let alone := fun (t : State) => ∀ m, m ≠ n → t.dmc m = s.dmc m
  let desc := s.reg64 (DM_CH_DESC_LO n)
  let gone := fun (a retry limit : Nat) (t : State) => t.dmState n = dmRunning ∧ t.rf (DM_CH_STAT n) DM_CH_STAT_CODE = 0 ∧ t.reg (DM_CH_REMAIN n) = 0 ∧ t.reg64 (DM_CH_CUR_LO n) = a ∧
    t.dmc n = { dmChan0 with retry := retry, limit := limit, fetch := some (a, 0, false) } ∧ alone t
  let kicked := fun (t : State) => t.dmState n = dmRunning ∧ t.dmc n = { c with fetch := some (s.reg64 (DM_CH_CUR_LO n), 0, false), again := true } ∧ alone t ∧
    t.reg64 (DM_CH_CUR_LO n) = s.reg64 (DM_CH_CUR_LO n)
  let stops := fun (t : State) => (t.dmc n).halt.map (·.code) = some dmAborted ∧ (t.dmc n).fetch = none ∧ alone t ∧ (t.dmc n).descs = c.descs
  let halted := fun (code cur err rem : Nat) (t : State) => t.dmState n = dmHalted ∧ t.rf (DM_CH_STAT n) DM_CH_STAT_CODE = code ∧ t.reg64 (DM_CH_CUR_LO n) = cur % 2 ^ 64 ∧
    t.reg64 (DM_CH_ERRADDR_LO n) = err % 2 ^ 64 ∧ (t.reg (DM_CH_REMAIN n)).toNat = rem % 2 ^ 32 ∧ t.rfb DM_HALT_STAT DM_HALT_STAT_CH n = true ∧ t.reg DM_INT_STAT = s.reg DM_INT_STAT ∧
    (t.dmc n).descs = [] ∧ (t.dmc n).fetch = none ∧ (t.dmc n).halt = none ∧ alone t
  (s.on = true →
    (∀ (r : Requester) (v : Word),
      let lim := fget v DM_CH_CTL_HOP_LIMIT
      let retry := fget v DM_CH_CTL_RETRY
      let s1 := (s.setF (DM_CH_CTL n) DM_CH_CTL_RETRY retry).setF (DM_CH_CTL n) DM_CH_CTL_HOP_LIMIT lim
      let go := v ||| 0x80000000
      let abort := v ||| 0x40000000
      let kick := v ||| 0x20000000
      (shut r → exec (.dmChCtlGo r n v) s = .next (s.violation (avSrc r) avHostWrite (DM_CH_CTL n) go.toNat) ∧
        exec (.dmChCtlAbort r n v) s = .next (s.violation (avSrc r) avHostWrite (DM_CH_CTL n) abort.toNat) ∧
        exec (.dmChCtlKick r n v) s = .next (s.violation (avSrc r) avHostWrite (DM_CH_CTL n) kick.toNat)) ∧
      (¬ shut r → lim ≠ 0 →
        (fget v DM_CH_CTL_ABORT = 0 → fget v DM_CH_CTL_KICK = 0 →
          ((st = dmIdle ∨ st = dmHalted) → ∃ t, exec (.dmChCtlGo r n v) s = .next t ∧ gone desc retry lim t ∧ t = { s with regs := t.regs, dm := t.dm }) ∧
          (active → exec (.dmChCtlGo r n v) s = .next (s1.violation (avSrc r) 5 (DM_CH_CTL n) go.toNat))) ∧
        (active → c.halt = none → ∃ t, exec (.dmChCtlAbort r n v) s = .next t ∧ stops t ∧ t.dmState n = st ∧ t = { s with regs := t.regs, dm := t.dm } ∧ ∀ o, o ≠ DM_CH_CTL n → t.reg o = s.reg o) ∧
        (¬ active → exec (.dmChCtlAbort r n v) s = .next (s1.violation (avSrc r) 5 (DM_CH_CTL n) abort.toNat)) ∧
        (fget v DM_CH_CTL_ABORT = 0 → fget v DM_CH_CTL_GO = 0 →
          (st = dmWaiting → ∃ t, exec (.dmChCtlKick r n v) s = .next t ∧ kicked t ∧ t = { s with regs := t.regs, dm := t.dm }) ∧
          (st ≠ dmWaiting → exec (.dmChCtlKick r n v) s = .next (s1.violation (avSrc r) 5 (DM_CH_CTL n) kick.toNat)))) ∧
      (∀ hi,
        let off := if hi = true then DM_CH_DESC_HI n else DM_CH_DESC_LO n
        let key := pairKey r (DM_CH_DESC_LO n)
        (shut r → exec (.dmChDescWrite r n hi v) s = .next (s.violation (avSrc r) avHostWrite off v.toNat)) ∧
        (¬ shut r → active → exec (.dmChDescWrite r n hi v) s = .next (s.violation (avSrc r) 5 off v.toNat)) ∧
        (¬ shut r → ¬ active → hi = false → ∃ t, exec (.dmChDescWrite r n hi v) s = .next t ∧ t = { s with staged := t.staged } ∧ tblGet none t.staged key = some v) ∧
        (¬ shut r → ¬ active → hi = true → ∃ t, exec (.dmChDescWrite r n hi v) s = .next t ∧ t = { s with staged := t.staged, regs := t.regs } ∧ tblGet none t.staged key = none ∧
          t.reg (DM_CH_DESC_HI n) = v ∧ t.reg (DM_CH_DESC_LO n) = (tblGet none s.staged key).getD (s.reg (DM_CH_DESC_LO n)) ∧
          ∀ o, o ≠ DM_CH_DESC_LO n → o ≠ DM_CH_DESC_HI n → t.reg o = s.reg o))) ∧
    (∀ v : Word,
      (∃ t, exec (.dmIntStatClear v) s = .next t ∧ OnlyRegs [DM_INT_STAT] s t ∧ ∀ i, (t.reg DM_INT_STAT).getLsbD i = (((s.reg DM_INT_STAT).getLsbD i && !v.getLsbD i) || (s.freshAt DM_INT_STAT).getLsbD i)) ∧
      (∃ t, exec (.dmHaltStatClear v) s = .next t ∧ OnlyRegs [DM_HALT_STAT] s t ∧ ∀ i, (t.reg DM_HALT_STAT).getLsbD i = (((s.reg DM_HALT_STAT).getLsbD i && !v.getLsbD i) || (s.freshAt DM_HALT_STAT).getLsbD i)) ∧
      ((∀ i < 32, (v &&& ~~~s.reg DM_INT_EN).getLsbD i = true → (s.reg DM_INT_STAT).getLsbD i = false) → exec (.dmIntEnWrite v) s = .next (s.setReg DM_INT_EN v)) ∧
      ((∀ i < 32, (v &&& ~~~s.reg DM_HALT_EN).getLsbD i = true → (s.reg DM_HALT_STAT).getLsbD i = false) → exec (.dmHaltEnWrite v) s = .next (s.setReg DM_HALT_EN v)) ∧
      (v &&& ~~~s.reg DM_INT_EN = BitVec.ofNat 32 (2 ^ n) → (s.reg DM_INT_STAT).getLsbD n = true → s.flag (msixCtl n) msixMask = false →
        exec (.dmIntEnWrite v) s = .next ((s.setReg DM_INT_EN v).emit (.msix n))) ∧
      (v &&& ~~~s.reg DM_HALT_EN = BitVec.ofNat 32 (2 ^ n) → (s.reg DM_HALT_STAT).getLsbD n = true → s.flag (msixCtl n) msixMask = false →
        exec (.dmHaltEnWrite v) s = .next ((s.setReg DM_HALT_EN v).emit (.msix n)))) ∧
    (∀ host,
      ((∀ a k, c.fetch ≠ some (a, k, false)) → exec (.descriptorFetchDone n host) s = .next s) ∧
      (∀ a k, c.fetch = some (a, k, false) → c.descs = [] → c.halt = none →
        let d := dmParse a (if 2 ^ 63 ≤ a then slice host 0 32 else s.memRead a 32)
        let read := s.dmUndecoded a 32 false = false ∧ (a < 2 ^ 63 → s.poisoned a 32 = false)
        (s.dmUndecoded a 32 false = true → ∃ t, exec (.descriptorFetchDone n host) s = .next t ∧ halted dmDecode a a 0 t ∧ t.flag (DM_CH_STAT n) DM_CH_STAT_DESC_FETCH = true) ∧
        (s.dmUndecoded a 32 false = false → a < 2 ^ 63 → s.poisoned a 32 = true → ∃ t, exec (.descriptorFetchDone n host) s = .next t ∧ t.dm = s.dm ∧ t.mem = s.mem ∧
          t.flag DR_STAT DR_STAT_UE_SEEN = true) ∧
        (read → d.wb = true → bit d.ctl 15 = true → ∃ t, exec (.descriptorFetchDone n host) s = .next t ∧ t.dmState n = dmWaiting ∧ (t.dmc n).fetch = none ∧ (t.dmc n).descs = [] ∧ t.mem = s.mem ∧
          OnlyRegs [DM_CH_STAT n] { s with dm := t.dm } t) ∧
        (read → (d.wb = false ∨ bit d.ctl 15 = false) → s.descBad d = true → ∃ t, exec (.descriptorFetchDone n host) s = .next t ∧ halted dmDescError a a d.count t ∧ t.flag (DM_CH_STAT n) DM_CH_STAT_DESC_FETCH = true ∧ t.mem = s.mem) ∧
        (read → (d.wb = false ∨ bit d.ctl 15 = false) → s.descBad d = false → ∃ t e, exec (.descriptorFetchDone n host) s = .next t ∧ (t.dmc n).descs = [e] ∧ e.beats.length ≤ 16 ∧
          e = { d with issued := e.issued, beats := e.beats } ∧ (0 < d.count → 0 < e.issued) ∧ (t.dmc n).hops = (if c.again = true then c.hops else c.hops + 1) ∧ alone t ∧ t.mem = s.mem))) ∧
    (∀ j src dst, (c.descs[j]? = none ∨ ∃ d, c.descs[j]? = some d ∧ d.firstBeat = none) → exec (.dmaBeatDone n j src dst) s = .next s) ∧
    (∀ j src dst d b, c.descs[j]? = some d → d.firstBeat = some b → s.beatUndecoded d b = none →
      let x := if 2 ^ 63 ≤ d.src then slice src 0 b.len else if b.keep = true then b.src else s.memRead (d.src + b.off) b.len
      let y := if 2 ^ 63 ≤ d.dst then slice dst 0 b.len else s.memRead (d.dst + b.off) b.len
      let clean := ∀ a ∈ beatReads d b, a < 2 ^ 63 → ∀ v ∈ (if a = d.dst + b.off ∧ d.op = 2 then dst else src), v = (0 : Byte)
      (c.beatHeld j d b = true → exec (.dmaBeatDone n j src dst) s = .next s) ∧
      (c.beatHeld j d b = false → clean →
      (s.beatPoisoned d b = true → ∃ t, exec (.dmaBeatDone n j src dst) s = .next t ∧ t.dm = s.dm ∧ t.mem = s.mem ∧ t.flag DR_STAT DR_STAT_UE_SEEN = true) ∧
      (s.beatPoisoned d b = false → d.op = 0 → d.dst + b.off < 2 ^ 63 → ∃ t, exec (.dmaBeatDone n j src dst) s = .next t ∧ t.mem = (s.memWrite (d.dst + b.off) x).mem ∧ alone t) ∧
      (s.beatPoisoned d b = false → d.op = 2 → x = y → ∃ t, exec (.dmaBeatDone n j src dst) s = .next t ∧ t.mem = s.mem ∧
        t.rf (DM_CH_STAT n) DM_CH_STAT_CMP_FAIL = s.rf (DM_CH_STAT n) DM_CH_STAT_CMP_FAIL ∧ t.reg64 (DM_CH_CMPADDR_LO n) = s.reg64 (DM_CH_CMPADDR_LO n)) ∧
      (∀ i, s.beatPoisoned d b = false → d.op = 2 → firstDiff x y 0 = some i → s.flag (DM_CH_STAT n) DM_CH_STAT_CMP_FAIL = false → ∃ t, exec (.dmaBeatDone n j src dst) s = .next t ∧ t.mem = s.mem ∧
        t.flag (DM_CH_STAT n) DM_CH_STAT_CMP_FAIL = true ∧ t.reg64 (DM_CH_CMPADDR_LO n) = (d.dst + b.off + i) % 2 ^ 64 ∧
        (d.cmpStop = true → c.descs = [d] → d.beats = [b] → c.halt = none → halted dmMismatch d.addr (d.dst + b.off) (max (d.count - (b.off + i)) (d.count - d.issued)) t)))) ∧
    (∀ d b read (timeout : Bool), c.descs = [d] → d.beats = [b] → b.wait = false → c.halt = none → s.beatUndecoded d b = none →
      let i : Instr := if timeout = true then .dmaBeatTimeout n (.beat 0 0 read) else .dmaBeatError n (.beat 0 0 read)
      let posted := (read = false ∨ d.op = 1) ∧ 2 ^ 63 ≤ d.dst ∧ d.op ≠ 2
      let last := d.count ≤ b.off + b.len
      (timeout = true → posted → exec i s = .next s) ∧
      ((timeout = false ∨ ¬ posted) →
        (b.tries < c.retry → ∃ t, exec i s = .next t ∧ (t.dmc n).descs = [{ d with beats := [{ b with wait := true, keep := decide (read = false ∧ d.op = 0), src := if read = false ∧ d.op = 0 ∧ b.keep = false then s.dmPeek (d.src + b.off) b.len else b.src }] }] ∧ alone t ∧ t = { s with dm := t.dm }) ∧
        (c.retry ≤ b.tries → ∃ t, exec i s = .next t ∧ t.mem = s.mem ∧ halted (if last then dmLastBeat else if timeout = true then dmTimeout else dmBusError) d.addr
          (if read = true ∧ d.op ≠ 1 then d.src + b.off else d.dst + b.off) (if last then b.len else d.count - min d.issued b.off) t))) ∧
    (∀ a k (timeout : Bool),
      let i : Instr := if timeout = true then .dmaBeatTimeout n .fetch else .dmaBeatError n .fetch
      (c.fetch = none → exec i s = .next s) ∧
      (c.fetch = some (a, k, false) → c.descs = [] → c.halt = none → s.dmUndecoded a 32 false = false →
        (k < c.retry → ∃ t, exec i s = .next t ∧ t.dmc n = { c with fetch := some (a, k, true) } ∧ alone t ∧ t = { s with dm := t.dm }) ∧
        (c.retry ≤ k → ∃ t, exec i s = .next t ∧ halted (if timeout = true then dmTimeout else dmBusError) a a 0 t ∧ t.flag (DM_CH_STAT n) DM_CH_STAT_DESC_FETCH = true))) ∧
    (∀ a k, c.halt = none → c.fetch = some (a, k, true) → ∃ t, exec (.dmaRetryIssue n .fetch) s = .next t ∧ t.dmc n = { c with fetch := some (a, k + 1, false) } ∧ t.reg (DM_CH_RETRIES n) = count (DM_CH_RETRIES n) ∧
      alone t ∧ OnlyRegs [DM_CH_RETRIES n] { s with dm := t.dm } t) ∧
    ((c.halt ≠ none ∨ ∀ a k, c.fetch ≠ some (a, k, true)) → exec (.dmaRetryIssue n .fetch) s = .next s) ∧
    (∀ d b read, c.descs = [d] → d.beats = [b] →
      ((b.wait = false ∨ c.halt ≠ none) → exec (.dmaRetryIssue n (.beat 0 0 read)) s = .next s) ∧
      (b.wait = true → c.halt = none → ∃ t, exec (.dmaRetryIssue n (.beat 0 0 read)) s = .next t ∧ (t.dmc n).descs = [{ d with beats := [if b.keep = true then { b with tries := b.tries + 1, wait := false } else dmBeat b.off b.len (b.tries + 1)] }] ∧
        t.reg (DM_CH_RETRIES n) = count (DM_CH_RETRIES n) ∧ alone t ∧ OnlyRegs [DM_CH_RETRIES n] { s with dm := t.dm } t)) ∧
    (∀ j, (c.descs[j]? = none ∨ ∃ d, c.descs[j]? = some d ∧ (d.finished = false ∨ d.wbWait = true ∨ (d.last = true ∧ j ≠ 0))) → exec (.descriptorComplete n j) s = .next s) ∧
    (∀ d, c.descs = [d] → c.halt = none → d.finished = true → d.wbWait = false → (d.wb = true → s.dmUndecoded (d.addr + 29) 1 true = false) →
      ∃ t, exec (.descriptorComplete n 0) s = .next t ∧ t.reg (DM_CH_DONE n) = count (DM_CH_DONE n) ∧ (t.dmc n).descs = [] ∧ alone t ∧
        t.rfb DM_INT_STAT DM_INT_STAT_CH n = (d.irq || s.rfb DM_INT_STAT DM_INT_STAT_CH n) ∧
        (d.wb = false → t.mem = s.mem) ∧ (d.wb = true → d.addr + 29 < 2 ^ 63 → t.mem = (s.memWrite (d.addr + 29) [BitVec.ofNat 8 (setBit (d.ctl / 256) 7)]).mem) ∧
        (d.last = true → t.dmState n = dmIdle ∧ t.rf (DM_CH_STAT n) DM_CH_STAT_CODE = 0) ∧
        (let hops := if d.ring = true then 0 else c.hops
         (d.last = false → d.barrier = true → hops < c.limit → t.dmState n = st ∧ (t.dmc n).fetch = some (d.next, 0, false) ∧ (t.dmc n).hops = hops ∧ t.reg64 (DM_CH_CUR_LO n) = d.next % 2 ^ 64) ∧
         (d.last = false → d.barrier = true → c.limit ≤ hops → t.dmState n = dmHalted ∧ t.rf (DM_CH_STAT n) DM_CH_STAT_CODE = dmHopLimit ∧ t.reg64 (DM_CH_CUR_LO n) = d.next % 2 ^ 64 ∧
           t.rfb DM_HALT_STAT DM_HALT_STAT_CH n = true))) ∧
    (∀ d h, c.descs = [d] → c.halt = some h → h.code ≠ dmAborted → d.finished = true → d.wbWait = false → d.wb = true → s.dmUndecoded (d.addr + 29) 1 true = true →
      ∃ t, exec (.descriptorComplete n 0) s = .next t ∧ t.dmState n = dmHalted ∧ t.rf (DM_CH_STAT n) DM_CH_STAT_CODE = h.code % 32 ∧ (t.dmc n).descs = [] ∧ t.mem = s.mem ∧ alone t) ∧
    (∀ h, c.halt = some h →
      ((h.code ≠ dmAborted ∨ c.busy = true) → exec (.abortHalt n) s = .next s) ∧
      (h.code = dmAborted → c.busy = false →
        let rem := match c.descs with | d :: _ => d.count - d.undone | [] => h.remain
        let cur := match c.descs with | d :: _ => d.addr | [] => h.cur
        ((∀ a ∈ s.dm.aborts, a.1 ≠ n) → ∃ t, exec (.abortHalt n) s = .next t ∧ halted dmAborted cur h.err rem t ∧ t.mem = s.mem) ∧
        (∀ q, s.dm.aborts = [(n, q)] → ∃ e, exec (.abortHalt n) s = .next (e.answer q.op q.cmd false (replyTo q.op q.cmd stOk 0 0 []) true) ∧ halted dmAborted cur h.err rem e ∧ e.dm.aborts = []))) ∧
    (c.halt = none → exec (.abortHalt n) s = .next s)) ∧
  (∀ k : Cmd, k.f 0 4 0 = n →
    (Taken 0x0910 k s → k.payload.length = 3 →
      (k.f 0 23 8 = 0 → Refuses (.dmStart k) 0x0910 k s stBadParam 0 []) ∧
      (k.f 0 23 8 ≠ 0 → (active ∨ owned) → Refuses (.dmStart k) 0x0910 k s stWrongState 0 []) ∧
      (k.f 0 23 8 ≠ 0 → ¬ active → ¬ owned → Fits 0 k s → ∃ e, Answers (.dmStart k) 0x0910 k s [] e ∧ gone (k.q 1) (k.f 0 27 24) (k.f 0 23 8) e ∧ e.reg64 (DM_CH_DESC_LO n) = k.q 1 ∧
        e = { s.dequeue 0x0910 k with regs := e.regs, dm := e.dm })) ∧
    (Taken 0x0911 k s → k.payload.length = 1 →
      (st ≠ dmWaiting → Refuses (.dmKick k) 0x0911 k s stWrongState 0 []) ∧
      (st = dmWaiting → Fits 0 k s → ∃ e, Answers (.dmKick k) 0x0911 k s [] e ∧ kicked e ∧ e = { s.dequeue 0x0911 k with regs := e.regs, dm := e.dm })) ∧
    (Taken 0x0912 k s → k.payload.length = 1 →
      (¬ active → Refuses (.dmAbort k) 0x0912 k s stWrongState 0 []) ∧
      (active → c.halt = none → ∃ t, exec (.dmAbort k) s = .next t ∧ stops t ∧ t.dm.aborts = s.dm.aborts ++ [(n, ⟨0x0912, k⟩)] ∧ t = { s.dequeue 0x0912 k with dm := t.dm })) ∧
    (Taken 0x0913 k s → k.payload.length = 1 → Fits 10 k s → Answers (.dmStatus k) 0x0913 k s ([DM_CH_STAT n, DM_CH_CUR_LO n, DM_CH_CUR_HI n, DM_CH_REMAIN n, DM_CH_ERRADDR_LO n,
      DM_CH_ERRADDR_HI n, DM_CH_CMPADDR_LO n, DM_CH_CMPADDR_HI n, DM_CH_DONE n, DM_CH_RETRIES n].map s.reg) (s.dequeue 0x0913 k)))

/-- R434 to R439, R457, R501. -/
def Obligations.MiltiaLinkDeliversInOrder : Prop := ∀ (s : State) (b : List Byte), s.on = true →
  let count := fun (a n : Nat) => w32 (min (2 ^ 32 - 1) ((s.reg a).toNat + n))
  let good := s.paired = true ∧ b.length = 256 ∧ mbOk b = true ∧ s.ml.ladder ≠ .dwell
  let nakOnce := fun (t : State) =>
    (s.linkUp = true → s.ml.nakSent = false → t.ml = { s.ml with ackDue := false, nakSent := true } ∧ t.out = .miltia (mlBlock 0x02 4 0 s.ml.rxSeq []) :: s.out) ∧
    ((s.linkUp = false ∨ s.ml.nakSent = true) → t.ml = s.ml ∧ t.out = s.out) ∧ t = { s with regs := t.regs, ml := t.ml, out := t.out, fresh := t.fresh }
  let resent := fun (t : State) => t.reg ML_RESENT = count ML_RESENT s.ml.sent.length ∧ t.ml = { s.ml with resends := s.ml.resends + 1, ackDue := false } ∧
    t.out = (s.ml.sent.map fun x => Out.miltia (mlBlock 0x01 (b2n x.first + 2 * b2n x.last) x.seq s.ml.rxSeq x.data)).reverse ++ s.out ∧
    t = { s with regs := t.regs, ml := t.ml, out := t.out, fresh := t.fresh } ∧ ∀ o, o ≠ ML_RESENT → t.reg o = s.reg o
  let whole := fun (x : MlBlock) => (x.msg, x.first, x.last, x.data)
  let queued := fun (m : MlMsg) (t : State) => t.ml.msgs = s.ml.msgs ++ [(s.ml.nextMsg, m)] ∧ t.ml.nextMsg = s.ml.nextMsg + 1 ∧ t = { s with ml := t.ml, out := t.out } ∧
    (t.ml.sent ++ t.ml.wait).map whole = (s.ml.sent ++ s.ml.wait ++ mlBlocks s.ml.nextMsg m).map whole
  (∀ p ∈ [(Instr.miltiaDataBlockReceived b, 1), (.miltiaAckBlockReceived b, 2), (.miltiaLinkBlockReceived b, 4), (.miltiaIdleBlockReceived b, 5)],
    ((s.paired = false ∨ b.length ≠ 256) → exec p.1 s = .next s) ∧
    (s.paired = true → b.length = 256 → mbOk b = false → s.ml.ladder ≠ .dwell → ∃ t, exec p.1 s = .next t ∧ t.reg ML_CRCERR = count ML_CRCERR 1 ∧ nakOnce t ∧ ∀ o, o ≠ ML_CRCERR → t.reg o = s.reg o) ∧
    (s.paired = true → b.length = 256 → mbOk b = false → s.ml.ladder = .dwell → ∃ t, exec p.1 s = .next t ∧ t.ml.clean = 0 ∧ t.reg ML_CRCERR = count ML_CRCERR 1) ∧
    (s.paired = true → b.length = 256 → mbOk b = true → s.ml.ladder = .dwell → s.linkUp = false → mbType b = p.2 → p.2 ≠ 4 →
      exec p.1 s = .next { s with ml := { s.ml with clean := if s.linkLocked = true then s.ml.clean + 1 else 0 } }) ∧
    (good → mbType b ≠ p.2 → exec p.1 s = .next s)) ∧
  (good → mbType b = 1 → s.ml.sent = [] →
    (s.linkUp = false → exec (.miltiaDataBlockReceived b) s = .next s) ∧
    (s.linkUp = true → mbSeq b ≠ s.ml.rxSeq → ∃ t, exec (.miltiaDataBlockReceived b) s = .next t ∧ nakOnce t ∧ t.regs = s.regs) ∧
    (s.linkUp = true → mbSeq b = s.ml.rxSeq →
      let got := if bit (mbFlags b) 0 = true then some (mbData b) else s.ml.rxBuf.map fun x => x ++ mbData b
      let u := { s with ml := { s.ml with rxSeq := (s.ml.rxSeq + 1) % 65536, nakSent := false, ackDue := true } }
      (bit (mbFlags b) 1 = false → ∃ t, exec (.miltiaDataBlockReceived b) s = .next t ∧ t.ml.rxBuf = got ∧ t = { u with ml := { u.ml with rxBuf := t.ml.rxBuf } }) ∧
      (∀ x, bit (mbFlags b) 1 = true → got = some x →
        let v := { u with ml := { u.ml with rxBuf := none } }
        exec (.miltiaDataBlockReceived b) s = .next (match mlDecode x with | some m => v.mlApply m | none => v)))) ∧
  (∀ c : Ckpt,
    (s.standby = true → (s.mlApply (.full c)).ml.ckpt = some c ∧ (s.mlApply (.full c)).role = s.role) ∧
    (s.standby = false → s.mlApply (.full c) = s ∧ s.mlApply (.delta c) = s ∧ s.mlApply (.record c) = s) ∧
    (s.ml.ckpt = none → s.mlApply (.delta c) = s ∧ s.mlApply (.record c) = s) ∧
    (∀ old, s.standby = true → s.ml.ckpt = some old → (s.mlApply (.delta c)).ml.ckpt = some c ∧ ((s.mlApply (.record c)).ml.ckpt.map fun x => (x.atc, x.scales, x.sfSeq, x.events)) = some (c.atc, c.scales, c.sfSeq, old.events)) ∧
    ∀ p, (s.mlApply (.relayReply p)) = { s with ml := { s.ml with replies := s.ml.replies ++ [p] } }) ∧
  (∀ p ∈ [(Instr.miltiaAckBlockReceived b, 2), (.miltiaIdleBlockReceived b, 5)], good → mbType b = p.2 →
    (s.linkUp = false → exec p.1 s = .next s) ∧
    ∀ x xs, s.linkUp = true → s.ml.sent = x :: xs → s.ml.wait = [] → s.ml.held = [] → s.ml.txSeq < 65536 →
      let n := (mbAck b + 65536 - x.seq) % 65536
      (bit (mbFlags b) 2 = false → (n = 0 ∨ xs.length + 1 < n) → exec p.1 s = .next s) ∧
      (bit (mbFlags b) 2 = false → 0 < n → n ≤ xs.length + 1 → ∃ t, exec p.1 s = .next t ∧ t.ml.sent = s.ml.sent.drop n ∧ t.ml.resends = 0 ∧
        t.ml.msgs = s.ml.msgs.filter (fun m => t.ml.sent.any fun y => y.msg == m.1) ∧ t = { s with ml := { s.ml with sent := t.ml.sent, resends := 0, msgs := t.ml.msgs } }) ∧
      (bit (mbFlags b) 2 = true → n = 0 → ∃ t, exec p.1 s = .next t ∧ resent t)) ∧
  ((s.linkUp = false ∨ s.ml.sent = []) → exec .miltiaResendTimeout s = .next s) ∧
  (s.linkUp = true → s.ml.sent ≠ [] → ∃ t, exec .miltiaResendTimeout s = .next t ∧ resent t) ∧
  ((s.linkUp = false ∨ s.ml.ackDue = false) → exec .miltiaAckTimer s = .next s) ∧
  (s.linkUp = true → s.ml.ackDue = true → exec .miltiaAckTimer s = .next { s with ml := { s.ml with ackDue := false }, out := .miltia (mlBlock 0x02 0 0 s.ml.rxSeq []) :: s.out }) ∧
  (good → mbType b = 4 → s.ml.sent = [] →
    let d := mbData b
    let tag := BitVec.ofNat 8 (beAt d 2 1)
    let arg := beAt d 3 1
    let ok := beAt d 11 1 = 0
    let sends := fun (type msg g a r : Byte) (t : State) => t.out = .miltia (mlBlock 0x04 0 0 s.ml.rxSeq [type, msg, g, a, 0, 0, 0, 0, 0, 0, 0, r]) :: s.out
    let asks := fun (msg a : Nat) (t : State) => sends 0x4B (BitVec.ofNat 8 msg) (BitVec.ofNat 8 s.ml.tag) (BitVec.ofNat 8 a) 0 t ∧
      t.ml.ask = some { msg := msg, arg := a, tag := s.ml.tag, attempt := 1 } ∧ t.ml.tag = (s.ml.tag + 1) % 256
    let commits := fun (r : Nat) (t : State) => t.link = lkStep ∧ t.linkRung = s.linkRung ∧ t.ml = { s.ml with ladder := .switching, goal := r % 4, ask := none }
    (s.linkLadder = false → exec (.miltiaLinkBlockReceived b) s = .next s) ∧
    (s.linkLadder = true → beAt d 0 1 = 0x4B →
      ∃ t, exec (.miltiaLinkBlockReceived b) s = .next t ∧ OnlyRegs [ML_LINK_STAT] { s with ml := t.ml, out := t.out } t ∧
        (beAt d 1 1 = 1 → t.ml = { s.ml with top := arg % 4 } ∧ t.regs = s.regs ∧ sends 0x5A 1 tag 3 0 t) ∧
        (beAt d 1 1 = 2 → t.ml = s.ml ∧ t.regs = s.regs ∧ sends 0x5A 2 tag (BitVec.ofNat 8 arg) (if arg ≤ s.rf ML_CTL ML_CTL_TARGET_RUNG then 0 else 1) t) ∧
        (beAt d 1 1 = 3 → sends 0x5A 3 tag (BitVec.ofNat 8 arg) 0 t ∧ commits arg t)) ∧
    (s.linkLadder = true → beAt d 0 1 = 0x5A → (∀ a, s.ml.ask = some a → beAt d 1 1 ≠ a.msg ∨ beAt d 2 1 ≠ a.tag) → exec (.miltiaLinkBlockReceived b) s = .next s) ∧
    (∀ a, s.linkLadder = true → beAt d 0 1 = 0x5A → s.ml.ask = some a → beAt d 1 1 = a.msg → beAt d 2 1 = a.tag → ∃ t, exec (.miltiaLinkBlockReceived b) s = .next t ∧
      (a.msg = 1 → ok → t.ml.top = arg % 4 ∧ (s.linkRung < min (s.rf ML_CTL ML_CTL_TARGET_RUNG) (arg % 4) → asks 2 (s.linkRung + 1) t ∧ t.link = lkStep) ∧
        (min (s.rf ML_CTL ML_CTL_TARGET_RUNG) (arg % 4) ≤ s.linkRung → t.ml.ladder = .idle ∧ t.out = s.out)) ∧
      (a.msg = 2 → ok → asks 3 a.arg t ∧ t.link = lkStep) ∧ (a.msg = 3 → ok → commits a.arg t ∧ t.out = s.out) ∧
      (a.msg = 2 → ¬ ok → t = { s with ml := { s.ml with ladder := .idle, ask := none } }) ∧ (a.msg ≠ 2 → ¬ ok → t.link = lkDown ∧ t.ml.retry = true))) ∧
  (∀ lock,
   let left := Nat.land (s.rf ML_LINK_STAT ML_LINK_STAT_LOCK) lock
   let lost := left ≠ 15 ∨ 8 ≤ s.ml.resends
   (¬ (s.linkUp = true ∧ lost) → exec (.miltiaLinkDown lock) s = .next s) ∧
   (s.linkUp = true → lost → ∃ t, exec (.miltiaLinkDown lock) s = .next t ∧ t.linkUp = false ∧ t.link = lkDown ∧ t.linkRung = s.linkRung ∧ t.rf ML_LINK_STAT ML_LINK_STAT_LOCK = left ∧
      (s.ml.held = [] → t.reg ML_LINKDOWN = count ML_LINKDOWN 1 ∧ t.role = (if s.role = roleWarm then roleLampblack else s.role) ∧
        (s.rf ML_HB_STAT ML_HB_STAT_PATH_UP % 4 ≠ 0 → t.flag ML_STAT ML_STAT_LINK_DOWN_SEEN = true ∧ t.rfb EV_INT_STAT EV_INT_STAT_PEND evPair = true ∧
          (t.log.head?.map fun e => e.code) = some 0x0A04)))) ∧
  (let off := fun (step : Ladder) (st : Nat) (retry : Bool) (t : State) => t.link = st ∧ t.linkRung = 0 ∧ t.rf ML_LINK_STAT ML_LINK_STAT_LOCK = 0 ∧ t.linkUp = false ∧
     t.ml = { s.ml with ladder := step, goal := 0, ask := none, fck := false, clean := 0, retry := retry } ∧ OnlyRegs [ML_LINK_STAT, ML_STAT] { s with ml := t.ml } t
   let starts := off .lock0 lkL0Lock false
   let fails := off .idle lkDown true
   let again := s.paired = true ∧ s.linkUp = false ∧ s.link = lkDown ∧ s.ml.retry = false
   let asks := fun (msg a : Nat) (t : State) => t.out = .miltia (mlBlock 0x04 0 0 s.ml.rxSeq [0x4B, BitVec.ofNat 8 msg, 0, BitVec.ofNat 8 a, 0, 0, 0, 0, 0, 0, 0, 0]) :: s.out
   (¬ again → exec .miltiaRelockTimeout s = .next s) ∧ (again → ∃ t, exec .miltiaRelockTimeout s = .next t ∧ starts t) ∧
   (s.ml.retry = false → exec (.octetDownRetry 64) s = .next s) ∧ (s.ml.retry = true → ∃ t, exec (.octetDownRetry 64) s = .next t ∧ starts t) ∧
   (s.ml.ladder ∉ [.lock0, .clock, .lanes, .dwell] → exec (.ladderStepTimeout 64) s = .next s) ∧
   (s.ml.ladder ∈ [.lock0, .clock, .lanes, .dwell] → ∃ t, exec (.ladderStepTimeout 64) s = .next t ∧ fails t) ∧
   (s.ml.ladder ≠ .switching → exec (.rungSwitch 64) s = .next s) ∧
   (s.ml.ladder = .switching → ∃ t, exec (.rungSwitch 64) s = .next t ∧ t.linkRung = s.ml.goal % 4 ∧ t.rf ML_LINK_STAT ML_LINK_STAT_LOCK = 0 ∧ t.ml = { s.ml with ladder := .clock, fck := false } ∧
     OnlyRegs [ML_LINK_STAT] { s with ml := t.ml } t) ∧
   (∀ j,
     let may := s.flag ML_CTL ML_CTL_PAIRED = true ∧ s.ml.fck = true ∧ j ∉ s.ml.los ∧ j < 4
     let others := ∀ i < 4, i ≠ j → s.rfb ML_LINK_STAT ML_LINK_STAT_LOCK i = true
     ∀ pol lane seq n idx lead offs,
     (¬ may → exec (.blockLockGained 64 j pol lane seq n idx lead offs) s = .next s) ∧
     (may → ∃ t, exec (.blockLockGained 64 j pol lane seq n idx lead offs) s = .next t ∧ t.rfb ML_LINK_STAT ML_LINK_STAT_LOCK j = true ∧ OnlyRegs [ML_LINK_STAT] { s with ml := t.ml, out := t.out } t ∧
       ((¬ others ∨ s.ml.ladder ∉ [.lock0, .lanes]) → t.ml = s.ml ∧ t.out = s.out ∧ t.link = s.link) ∧
       (others → s.ml.ladder = .lanes → t.link = lkDwell ∧ t.ml = { s.ml with ladder := .dwell, clean := 0 } ∧ t.out = s.out) ∧
       (others → s.ml.ladder = .lock0 → s.ml.tag = 0 → t.link = lkNegotiate ∧ t.ml.ladder = .hello ∧ asks 1 3 t)) ∧
     (j < 4 → ∃ t, exec (.blockLockLost 64 j) s = .next t ∧ t.rfb ML_LINK_STAT ML_LINK_STAT_LOCK j = false ∧ t.ml = { s.ml with clean := 0 } ∧ OnlyRegs [ML_LINK_STAT] { s with ml := t.ml } t)) ∧
   (let due := s.ml.ladder = .dwell ∧ s.linkLocked = true ∧ 65536 ≤ s.ml.clean
    (¬ due → exec (.dwellPassed 64) s = .next s) ∧
    (due → ∃ t, exec (.dwellPassed 64) s = .next t ∧ (s.linkGoal ≤ s.linkRung → t = { s with ml := { s.ml with ladder := .idle, ask := none } }) ∧
      (s.linkRung < s.linkGoal → s.ml.tag = 0 → t.link = lkStep ∧ t.ml.ladder = .propose ∧ asks 2 (s.linkRung + 1) t))) ∧
   (s.ml.ask = none → exec (.controlReplyTimeout 64) s = .next s) ∧
   (∀ a, s.ml.ask = some a → ∃ t, exec (.controlReplyTimeout 64) s = .next t ∧ (4 ≤ a.attempt → fails t) ∧
     (a.attempt < 4 → t.ml.ask = some { a with attempt := a.attempt + 1 } ∧ t.regs = s.regs ∧ (a.tag = 0 → asks a.msg a.arg t)))) ∧
  (∀ rung ver min_, rung < 4 →
    let may := s.paired = true ∧ s.linkUp = false ∧ s.linkLocked = true ∧ s.ml.ladder = .idle ∧ rung = s.linkRung
    let fmt := ckptFormat s.activeFw.ckptVer s.activeFw.ckptMin ver min_
    (¬ may → exec (.miltiaLinkUp rung ver min_) s = .next s) ∧
    (may → ∃ t, exec (.miltiaLinkUp rung ver min_) s = .next t ∧ t.linkUp = true ∧ t.link = lkRunning ∧ t.linkRung = rung ∧
      t.ml.ckptFmt = fmt ∧ t.flag CP_FW_STAT CP_FW_STAT_CKPT_MISMATCH = fmt.isNone ∧ t.ml.rxSeq = 0 ∧ t.ml.rxBuf = none ∧ t.ml.resends = 0 ∧
      (t.ml.sent ++ t.ml.wait).map whole = t.ml.msgs.flatMap (fun m => (mlBlocks m.1 m.2).map whole) ∧ t.ml.sent.map (fun x => x.seq) = List.range t.ml.sent.length ∧ t.ml.sent.length ≤ 256 ∧
      ((s.role ≠ roleActive ∨ fmt = none) → t.ml.msgs = s.ml.msgs) ∧
      (s.role = roleActive → fmt ≠ none → ∃ c : Ckpt, t.ml.msgs = s.ml.msgs ++ [(s.ml.nextMsg, .full c)] ∧ c.atc = s.now ∧ c.events = s.events))) ∧
  (s.ckptOn = false → exec .checkpointFullSend s = .next s ∧ exec .stateRecordPeriod s = .next s) ∧
  (s.integrating = true → s.pw.compOn = true → exec .stateRecordPeriod s = .next s) ∧
  (s.ckptOn = true → (∃ t, exec .checkpointFullSend s = .next t ∧ queued (.full s.takeCkpt) t) ∧
    ((s.integrating = false ∨ s.pw.compOn = false) → ∃ t, exec .stateRecordPeriod s = .next t ∧ queued (.record s.takeCkpt) t))

/-- R444 to R459. -/
def Obligations.PairRolesMoveByHeartbeatsAndCommands : Prop := ∀ (s : State), s.on = true →
  let count := fun (a : Nat) => w32 (min (2 ^ 32 - 1) ((s.reg a).toNat + 1))
  let stat := fun (u : State) (f : Fld) => u.flag ML_STAT f
  let lease := s.flag ML_CTL ML_CTL_LEASE = true
  let early := s.flag ML_CTL ML_CTL_UNIT = true ∧ (s.ml.step9 = 0 ∨ s.time.cycles + 1 < s.ml.step9 + 2000000)
  let epoch := max (s.reg ML_EPOCH).toNat (s.reg ML_PEER_EPOCH).toNat + 1
  let promoted := fun (t : State) => t.role = roleActive ∧ t.reg ML_EPOCH = w32 epoch ∧ t.reg ML_PROMOTIONS = count ML_PROMOTIONS ∧ stat t ML_STAT_NO_PROMOTE = false ∧
    t.ml.loggedEpoch = epoch ∧ (s.linkUp = false → stat t ML_STAT_STALE_PROMOTE = true) ∧ (s.role = roleWarm → t.ml.takeBoundary = true) ∧
    (s.role = roleLampblack → t.ml.takeover = true ∧ (t.log.head?.map fun e => (e.code, e.detail.take 1)) = some (0x0A01, [w32 epoch]))
  let fenced := fun (u t : State) => t.role = roleFenced ∧ t.reg ML_FENCES = w32 (min (2 ^ 32 - 1) ((u.reg ML_FENCES).toNat + 1)) ∧ t.rf SF_STAT SF_STAT_TRIG_NOW = 0 ∧ t.ct.src = [] ∧ t.ct.queued = [] ∧
    (∀ n < 4, ∀ f ∈ (t.port n).c0q ++ (t.port n).tx ++ (t.port n).held, f.output = false ∧ f.activeBeacon = false) ∧ ∃ w, Out.hbPins w ∈ t.out ∧ beAt w 1 1 = 4
  (s.role = roleUnpaired → exec .heartbeatSend s = .next s) ∧
  (s.role ≠ roleUnpaired → ∃ t, exec .heartbeatSend s = .next t ∧ Out.hbPins (0xD5 :: (s.hbWord 1).drop 2) ∈ t.out ∧ (s.linkUp = true → Out.miltia (mlBlock 0x03 0 0 s.ml.rxSeq (s.hbWord 0)) ∈ t.out) ∧
    (∀ p < 3, tblGet 0 t.ml.hbTx p = if (p = 0 ∧ s.linkUp = false) ∨ (p = 2 ∧ s.rf ML_CTL ML_CTL_BEACON_PORTS = 0) then tblGet 0 s.ml.hbTx p else (tblGet 0 s.ml.hbTx p + 1) % 65536) ∧
    t.role = s.role ∧ (s.rf ML_CTL ML_CTL_BEACON_PORTS = 0 → t = { s with ml := t.ml, out := t.out }) ∧
    (∀ n < 4, s.rfb ML_CTL ML_CTL_BEACON_PORTS n = true → s.flag (ET_P_STAT n) ET_P_STAT_LINK = false →
      if (s.port n).txFill 0 + 64 ≤ txPart 0 then t.port n = { s.port n with tx := (s.port n).tx ++ [s.beacon n] }
      else (s.port n).c0q.length < 64 → t.port n = { s.port n with c0q := (s.port n).c0q ++ [s.beacon n], c0Gap := true })) ∧
  (∀ (u : State) (p : Nat), u.rf ML_CTL ML_CTL_PAIR_ID = s.rf ML_CTL ML_CTL_PAIR_ID → u.rf ML_CTL ML_CTL_UNIT ≠ s.rf ML_CTL ML_CTL_UNIT →
    tblGet 0 u.ml.hbRx p ≠ tblGet 0 s.ml.hbTx p % 65536 + 1 → u.hbValid p (s.hbWord p) = true) ∧
  (∀ (p : Nat) (w : List Byte) (i : Instr) (u : State),
    ((p = 0 ∧ ∃ n b, i = .heartbeatWordReceived 0 n b ∧ b.length = 256 ∧ mbOk b = true ∧ mbType b = 3 ∧ s.ml.sent = [] ∧ s.ml.ladder ≠ .dwell ∧ u = s ∧ w = mbData b) ∨
     (p = 1 ∧ ∃ n b, i = .heartbeatWordReceived 1 n b ∧ b.length = 15 ∧ beAt b 0 1 = 0xD5 ∧ u = s ∧ w = be 2 0x4842 ++ b.drop 1) ∨
     (p = 2 ∧ ∃ n b f, i = .heartbeatWordReceived 2 n b ∧ s.rxHead n (fun f => f.etype == 0x88B8) = some f ∧ u = s.rxTake n f ∧ w = f.body.take 16)) →
    let e := beAt w 4 4
    let own := (u.reg ML_EPOCH).toNat
    let lower := own < e ∨ (e = own ∧ u.flag ML_CTL ML_CTL_UNIT = true)
    ((u.paired = false ∨ u.hbValid p w = false) → exec i s = .next u) ∧
    (u.paired = true → u.hbValid p w = true → ∃ t, exec i s = .next t ∧ t.rfb ML_HB_STAT ML_HB_STAT_PATH_UP (2 - p) = true ∧ t.rf ML_HB_STAT ML_HB_STAT_PEER_STATE = beAt w 2 1 % 8 ∧
      t.reg ML_PEER_EPOCH = w32 (max (u.reg ML_PEER_EPOCH).toNat e) ∧ t.reg ML_EPOCH = (if u.ml.heard = true ∨ u.role = roleActive then u.reg ML_EPOCH else w32 (max own e)) ∧ t.ml.heard = true ∧
      tblGet 0 t.ml.hbRx p = beAt w 12 2 + 1 ∧
      (beAt w 2 1 = 1 → t.flag ML_HB_STAT ML_HB_STAT_PEER_ACTIVE = true ∧ t.ml.peerFenced = false ∧ t.ml.silent = false ∧
        (u.ml.pairing = true → t.role = roleLampblack ∧ t.ml.pairing = false) ∧
        (u.ml.pairing = false → u.role ≠ roleActive → t.role = u.role) ∧
        (u.ml.pairing = false → u.role = roleActive → lower → fenced u t ∧
          (u.rf ML_HB_STAT ML_HB_STAT_PATH_UP = 0 → stat t ML_STAT_DUAL_SEEN = true ∧ t.reg ML_DUAL = w32 (min (2 ^ 32 - 1) ((u.reg ML_DUAL).toNat + 1)))) ∧
        (u.ml.pairing = false → u.role = roleActive → ¬ lower → t.role = roleActive ∧ t.reg ML_FENCES = u.reg ML_FENCES ∧ t.et = u.et)) ∧
      (beAt w 2 1 ≠ 1 → t.role = u.role ∧ stat t ML_STAT_UNCONFIRMED = false ∧ t.ml.peerFenced = (u.ml.peerFenced || beAt w 2 1 == 4) ∧
        (u.ml.dualFrom ≠ none → (u.ml.dualHeard = true ∨ beAt w 2 1 = 4) → stat t ML_STAT_DUAL_SEEN = true ∧ t.reg ML_DUAL = w32 (min (2 ^ 32 - 1) ((u.reg ML_DUAL).toNat + 1)) ∧
          (t.log.head?.map fun e => e.code) = some 0x0A03)))) ∧
  (∀ p,
    (¬ (p < 3 ∧ s.rfb ML_HB_STAT ML_HB_STAT_PATH_UP (2 - p) = true) → exec (.hbPathTimeout p) s = .next s) ∧
    (p < 3 → s.rfb ML_HB_STAT ML_HB_STAT_PATH_UP (2 - p) = true → ∃ t, exec (.hbPathTimeout p) s = .next t ∧ OnlyRegs [ML_HB_STAT, ML_HB_MISS] s t ∧
      t.rfb ML_HB_STAT ML_HB_STAT_PATH_UP (2 - p) = false ∧ t.reg ML_HB_MISS = count ML_HB_MISS)) ∧
  (s.standby = false → exec .promotion s = .next s) ∧
  (s.standby = true → ∃ t, exec .promotion s = .next t ∧
    (s.running = false → t.role = s.role ∧ stat t ML_STAT_NO_PROMOTE = true ∧ t.reg ML_EPOCH = s.reg ML_EPOCH) ∧
    ((early ∨ (lease ∧ s.leaseHolds = false)) → t.role = s.role ∧ t.reg ML_EPOCH = s.reg ML_EPOCH) ∧
    (s.running = true → ¬ early → (lease → s.leaseHolds = true) → promoted t ∧
      (s.ml.peerFenced = false → ¬ lease → s.rf ML_HB_STAT ML_HB_STAT_PATH_UP = 0 → stat t ML_STAT_UNCONFIRMED = true))) ∧
  (let gains := s.paired = true ∧ lease ∧ stat s ML_STAT_LEASE_HELD = false ∧ s.leaseHolds = true
   let waits := s.standby = true ∧ (s.ml.silent = true ∨ s.ml.peerFenced = true)
   (¬ gains → exec .leaseStart s = .next s) ∧ (gains → ¬ waits → exec .leaseStart s = .next (s.setF ML_STAT ML_STAT_LEASE_HELD 1)) ∧
   (gains → waits → ¬ early → ∃ t, exec .leaseStart s = .next t ∧ promoted t ∧ stat t ML_STAT_LEASE_HELD = true)) ∧
  (let ends := stat s ML_STAT_LEASE_HELD = true ∧ s.leaseHolds = false
   (¬ ends → exec .leaseExpire s = .next s) ∧ (ends → (¬ lease ∨ s.role ≠ roleActive) → exec .leaseExpire s = .next (s.setF ML_STAT ML_STAT_LEASE_HELD 0)) ∧
   (ends → lease → s.role = roleActive → ∃ t, exec .leaseExpire s = .next t ∧ fenced s t ∧ stat t ML_STAT_LEASE_HELD = false)) ∧
  (s.role ≠ roleFenced → exec .fenceSettle s = .next s) ∧
  (s.role = roleFenced → ∃ t, exec .fenceSettle s = .next t ∧ t.reg ML_EPOCH = w32 (max (s.reg ML_EPOCH).toNat (s.reg ML_PEER_EPOCH).toNat) ∧ t.ml.fenceWarm = false ∧
    if s.ml.fenceWarm = true ∧ s.linkUp = true ∧ s.pw.compOn = true then t.role = roleWarm ∧ t.pw.compOn = true else t.role = roleLampblack ∧ t.pw.compOn = false) ∧
  (s.ml.drainOld = false → exec .handoverDiscardQueued s = .next s) ∧
  (s.ml.drainOld = true → ∃ t, exec .handoverDiscardQueued s = .next t ∧ t = { s with et := t.et, ml := { s.ml with drainOld := false } } ∧
    ∀ n < 4, t.port n = { s.port n with tx := (s.port n).tx.filter (fun f => !f.output), held := (s.port n).held.filter (fun f => !f.output), c0q := (s.port n).c0q.filter (fun f => !f.output) }) ∧
  (s.ml.pairing = false → exec .pairingWaitExpire s = .next s) ∧
  (s.ml.pairing = true → ∃ t, exec .pairingWaitExpire s = .next t ∧ t.role = roleActive ∧ t.reg ML_EPOCH = w32 epoch ∧ t.ml.pairing = false ∧ (t.log.head?.map fun e => e.code) = some 0x0A01) ∧
  (¬ (s.ml.takeover = true ∧ s.role = roleActive ∧ s.thermal = false) → exec .takeoverComputeReady s = .next s) ∧
  (s.ml.takeover = true → s.role = roleActive → s.thermal = false → ∃ t, exec .takeoverComputeReady s = .next t ∧ t.role = roleActive ∧ t.pw.compOn = true ∧ t.ml.takeover = false ∧ t.ml.takeBoundary = true ∧
    (let live := fun (e : Event) => s.now ≤ e.f ∧ ¬ (e.op = 0x0A05 ∧ e.f = s.now)
     (s.ml.ckpt = none → ∀ e, e ∈ t.events ↔ e ∈ s.events ∧ live e) ∧
     ∀ c, s.ml.ckpt = some c → t.sf.seq = c.sfSeq ∧ ∀ e, e ∈ t.events ↔ ((e ∈ s.events ∧ ∀ x ∈ c.events, x.handle ≠ e.handle) ∨ e ∈ c.events) ∧ live e)) ∧
  (¬ (s.ml.takeBoundary = true ∧ s.role = roleActive) → exec .takeoverBoundary s = .next s) ∧
  (s.ml.takeBoundary = true → s.role = roleActive → ∃ t, exec .takeoverBoundary s = .next t ∧ t.ml.takeBoundary = false ∧ t.role = roleActive ∧ t.ct.txSeq = [] ∧
    t.rf SF_UB_GEN SF_UB_GEN_GEN = (s.rf SF_UB_GEN SF_UB_GEN_GEN + 1) % 65536) ∧
  (let i := s.ml.nextItem
   let hot := s.dieHot (dieOfItem i) (deg 100) = true
   let free := s.role = roleLampblack ∧ s.ml.item = none ∧ s.thermal = false
   (¬ free → exec .verdigrisItemStart s = .next s) ∧
   (free → ∃ t, exec .verdigrisItemStart s = .next t ∧ t.role = roleLampblack ∧ t.ml.fails = s.ml.fails ∧
     (¬ hot → t.ml.item = some i ∧ t.ml.nextItem = i ∧ t.ml.sweeps = s.ml.sweeps) ∧
     (hot → t.ml.item = none ∧ t.ml.nextItem = (i + 1) % 128 ∧ t.ml.sweeps = s.ml.sweeps + (if i = 127 then 1 else 0)))) ∧
  (∀ pass,
    ((s.ml.item = none ∨ s.role ≠ roleLampblack) → exec (.verdigrisItemDone pass) s = .next s) ∧
    (∀ i, s.ml.item = some i → s.role = roleLampblack → ∃ t, exec (.verdigrisItemDone pass) s = .next t ∧ tblGet false t.ml.fails i = (!pass) ∧ (∀ j, j ≠ i → tblGet false t.ml.fails j = tblGet false s.ml.fails j) ∧
      t.ml.item = none ∧ t.ml.nextItem = (i + 1) % 128 ∧ t.ml.sweeps = s.ml.sweeps + (if i = 127 then 1 else 0) ∧ stat t ML_STAT_HEALTH_FAIL = (!t.healthy) ∧ t.role = roleLampblack ∧
      (t.healthReport ≠ s.ml.report → (t.log.head?.map fun e => e.code) = some 0x0A02 ∧ t.rfb EV_INT_STAT EV_INT_STAT_PEND evPair = true) ∧
      (t.healthReport = s.ml.report → t.log = s.log))) ∧
  (∀ c : Cmd,
    (Taken 0x0A01 c s → c.payload.length = 0 → Fits 15 c s → Answers (.roleStatus c) 0x0A01 c s ([ML_STAT, ML_LINK_STAT, ML_HB_STAT, ML_EPOCH, ML_PEER_EPOCH, ML_CKPT_AGE, ML_LEASE_END_LO, ML_LEASE_END_HI,
      ML_CRCERR, ML_RESENT, ML_LINKDOWN, ML_HB_MISS, ML_PROMOTIONS, ML_FENCES, ML_DUAL].map s.readReg) (s.dequeue 0x0A01 c)) ∧
    (Taken 0x0A08 c s → c.payload.length = 0 → Fits 9 c s → Answers (.roleHealth c) 0x0A08 c s s.healthReport (s.dequeue 0x0A08 c)) ∧
    (Taken 0x0A02 c s → c.payload.length = 3 → badImage ML_CTL (c.w 0) = false →
      ((s.role = roleWarm ∨ s.role = roleActive) → Refuses (.roleConfig c) 0x0A02 c s stWrongState 0 []) ∧
      ((s.role = roleUnpaired ∨ s.role = roleLampblack ∨ s.role = roleFenced) → Fits 0 c s → ∃ e, Answers (.roleConfig c) 0x0A02 c s [] e ∧ e.reg ML_BEACON_DMAC_LO = c.w 1 ∧
        (∀ f ∈ [ML_CTL_PAIRED, ML_CTL_LEASE, ML_CTL_UNIT, ML_CTL_SYNC_ACK, ML_CTL_BEACON_PORTS, ML_CTL_TARGET_RUNG, ML_CTL_PAIR_ID], e.rf ML_CTL f = fget (c.w 0) f) ∧
        (fget (c.w 0) ML_CTL_PAIRED = 0 → e.role = roleUnpaired ∧ e.linkUp = false ∧ e.ml.pairing = false ∧ (s.role ≠ roleUnpaired → e.pw.compOn = true)) ∧
        (fget (c.w 0) ML_CTL_PAIRED = 1 → e.role = s.role ∧ (s.role = roleUnpaired → s.paired = false → e.ml.pairing = true ∧ e.link = lkL0Lock)))) ∧
    (Taken 0x0A03 c s → c.payload.length = 4 →
      (c.q 2 ≤ c.q 0 → Refuses (.roleLease c) 0x0A03 c s stBadParam 2 []) ∧
      (c.q 0 < c.q 2 → (¬ lease ∨ s.running = false ∨ s.core = coreFreeRun) → Refuses (.roleLease c) 0x0A03 c s stWrongState 0 []) ∧
      (c.q 0 < c.q 2 → lease → s.running = true → s.core ≠ coreFreeRun →
        let holds := c.q 0 ≤ s.now ∧ s.now + s.leaseGuard < c.q 2
        (c.q 2 ≤ s.now → exec (.roleLease c) s = .next (((s.dequeue 0x0A03 c).bump SC_LATE).answer 0x0A03 c (isQuery 0x0A03 c) (replyTo 0x0A03 c stTimePast 0 0 []) false)) ∧
        (s.now < c.q 2 → Fits 0 c s → ∃ e, Answers (.roleLease c) 0x0A03 c s [] e ∧ e.ml.lease = some (c.q 0, c.q 2) ∧ e.reg64 ML_LEASE_END_LO = c.q 2 ∧
          (stat e ML_STAT_LEASE_HELD = true ↔ holds) ∧ (stat s ML_STAT_LEASE_HELD = true → ¬ holds → s.role = roleActive → fenced s e) ∧
          (s.role ≠ roleActive → s.standby = false → e.role = s.role)))) ∧
    (Taken 0x0A04 c s → c.payload.length = 1 →
      ((s.standby = false ∨ s.linkUp = false) → Refuses (.roleWarm c) 0x0A04 c s stWrongState 0 []) ∧
      (s.standby = true → s.linkUp = true → s.ml.warming ≠ none → Refuses (.roleWarm c) 0x0A04 c s stResourceBusy 0 []) ∧
      (s.standby = true → s.linkUp = true → s.ml.warming = none → s.cp.running.length < 8 → ∃ e, Progresses (.roleWarm c) 0x0A04 c s [] e ∧
        e.ml = { s.ml with warming := some (bit (c.w 0).toNat 0) } ∧ e.role = s.role ∧ e.pw = s.pw)) ∧
    (Taken 0x0A05 c s → c.payload.length = 2 → c.transport ≠ .script →
      let d := s.dequeue 0x0A05 c
      let f := spectrumAt c.time
      let reply := replyTo 0x0A05 c stScheduled 0 0 (w32 (s.rf SC_STAT SC_STAT_NEXT_HANDLE) :: hiLo f)
      let refused := exec (.roleHandover c) s = .next ((d.bump SC_FAILED).answer 0x0A05 c (isQuery 0x0A05 c) (replyTo 0x0A05 c stWrongState 0 0 []) false)
      let joins := fun (e : State) => (e.events.drop s.events.length).map (fun x => (x.op, x.f, x.cmd)) = [(0x0A05, f, c)] ∧ e.events.take s.events.length = s.events
      (s.running = false → refused) ∧
      (s.running = true → s.now + s.lead 0x0A05 ≤ f → s.events.length < 256 →
        (s.handoverOk c = false → refused) ∧
        (s.handoverOk c = true → d.schedRefusal (d.projected f) s.events 0x0A05 f c = none →
          (c.relayed = true → ∃ e, exec (.roleHandover c) s = .next (e.answer 0x0A05 c (isQuery 0x0A05 c) reply (!isQuery 0x0A05 c)) ∧ joins e ∧ e.ml = s.ml) ∧
          (c.relayed = false → ∃ t, exec (.roleHandover c) s = .next t ∧ joins t ∧ t.ml.msgs = s.ml.msgs ++ [(s.ml.nextMsg, .relay (relayOf 0x0A05 c))] ∧
            t.ml.held = s.ml.held ++ [(s.ml.nextMsg, ⟨0x0A05, c⟩, reply)])))) ∧
    (Taken 0x0A06 c s → c.payload.length = 1 →
      (s.role ≠ roleActive → Refuses (.roleFence c) 0x0A06 c s stWrongState 0 []) ∧
      (s.role = roleActive → Fits 0 c s → ∃ e, Answers (.roleFence c) 0x0A06 c s [] e ∧ fenced s e ∧ e.ml.fenceWarm = bit (c.w 0).toNat 0)) ∧
    (Taken 0x0A07 c s → relayBad c = none →
      bit (beAt (relayPacket c.payload) 3 1) 3 = true ∧
      (s.linkUp = false → Refuses (.mlRelay c) 0x0A07 c s stWrongState 0 []) ∧
      (s.linkUp = true → s.cp.running.length < 8 → ∃ e, Progresses (.mlRelay c) 0x0A07 c s [] e ∧ e.ml.msgs = s.ml.msgs ++ [(s.ml.nextMsg, .relay (relayPacket c.payload))])) ∧
    (Taken 0x0A09 c s → c.payload.length = 1 →
      (s.paired = false → Refuses (.mlLadder c) 0x0A09 c s stWrongState 0 []) ∧
      (s.paired = true → (∀ e ∈ s.events, e.op ≠ 0x0A05) → s.linkLadder = true → Refuses (.mlLadder c) 0x0A09 c s stResourceBusy 0 []) ∧
      (s.paired = true → (∃ e ∈ s.events, e.op = 0x0A05) → Refuses (.mlLadder c) 0x0A09 c s stWrongState 0 []) ∧
      (s.paired = true → s.linkLadder = false → (∀ e ∈ s.events, e.op ≠ 0x0A05) → Fits 0 c s → ∃ e, Answers (.mlLadder c) 0x0A09 c s [] e ∧ e.rf ML_CTL ML_CTL_TARGET_RUNG = c.f 0 31 30 ∧
        e.link = lkL0Lock ∧ e.linkRung = 0 ∧ e.linkUp = false ∧ e.role = (if s.role = roleWarm then roleLampblack else s.role)))) ∧
  (s.runningOp 0x0A04 = none → exec .roleWarmDone s = .next s) ∧
  (∀ q, s.runningOp 0x0A04 = some q →
    let u := { s with ml := { s.ml with warming := none } }
    (s.ml.warming = none → exec .roleWarmDone s = .next (u.final q stWrongState [])) ∧
    ∀ b, s.ml.warming = some b →
      ((s.standby = false ∨ (b = true ∧ s.linkUp = false)) → exec .roleWarmDone s = .next (u.final q stWrongState [])) ∧
      (b = true → s.linkUp = true → s.role = roleLampblack →
        (s.thermal = true → exec .roleWarmDone s = .next s) ∧
        (s.thermal = false → ∃ e : State, exec .roleWarmDone s = .next (e.final q stOk []) ∧ e.role = roleWarm ∧ e.pw.compOn = true ∧ e.ml.warming = none ∧ e.ml.item = none)) ∧
      (b = false → s.role = roleWarm → ∃ e : State, exec .roleWarmDone s = .next (e.final q stOk []) ∧ e.role = roleLampblack ∧ e.pw.compOn = false ∧ e.ml.warming = none) ∧
      (((b = true ∧ s.linkUp = true ∧ s.role = roleWarm) ∨ (b = false ∧ s.role = roleLampblack)) → exec .roleWarmDone s = .next (u.final q stOk []))) ∧
  (s.ml.replies = [] → exec .mlRelayReply s = .next s) ∧
  (∀ p ps, s.ml.replies = p :: ps →
    let u := { s with ml := { s.ml with replies := ps } }
    let mine := fun (q : QEntry) => q.op = 0x0A07 ∧ (q.cmd.w 2).toNat = beAt p 8 4 ∧ (q.cmd.w 3).toNat = beAt p 12 4
    ((∀ q ∈ s.cp.running, ¬ mine q) → exec .mlRelayReply s = .next u) ∧
    (∀ q, s.cp.running = [q] → mine q → exec .mlRelayReply s = .next (u.final q stOk (packWordsBE p))))

/-- R493 to R516, R530. -/
def Obligations.LifeCycleFirmwareAndAttestation : Prop := ∀ (s : State),
  let trial := s.flag CP_FW_STAT CP_FW_STAT_TRIAL = true
  let active := s.rf CP_FW_STAT CP_FW_STAT_ACTIVE_SLOT
  let committed := fun (raiseSvn : Bool) (t : State) => t.flag CP_FW_STAT CP_FW_STAT_TRIAL = false ∧ t.flag CP_FW_STAT CP_FW_STAT_AUTO_COMMIT = false ∧ t.rf CP_FW_STAT CP_FW_STAT_COMMITTED = active ∧
    t.rf CP_FW_STAT CP_FW_STAT_ACTIVE_SLOT = active ∧ t.lc = { s.lc with committed := active, trial := false, svnMin := if raiseSvn = true then s.activeSlot.svn else s.lc.svnMin } ∧
    (t.log.head?.map fun e => (e.code, e.detail)) = some (0x0C06, [w32 active, w32 s.activeSlot.fwVersion, w32 s.activeSlot.svn, w32 t.lc.svnMin]) ∧
    t.rfb EV_INT_STAT EV_INT_STAT_PEND evSecurity = true
  let nonceOver := fun (u t : State) => t.lc = { u.lc with nonce := none } ∧ t.flag CP_LC_STAT CP_LC_STAT_NONCE_LIVE = false ∧ OnlyRegs [CP_LC_STAT] { u with lc := t.lc } t
  (s.on = true →
    (¬ (trial ∧ s.flag CP_FW_STAT CP_FW_STAT_AUTO_COMMIT = true ∧ s.cp.serving = true) → exec .trialAutoCommit s = .next s) ∧
    (trial → s.flag CP_FW_STAT CP_FW_STAT_AUTO_COMMIT = true → s.cp.serving = true → ∃ t, exec .trialAutoCommit s = .next t ∧ committed false t) ∧
    (s.lc.handoff = none → exec .niethHandoffDone s = .next s) ∧
    (∀ e, s.lc.handoff = some e → ∃ t, exec .niethHandoffDone s = .next t ∧ t.rf CP_FW_STAT CP_FW_STAT_ACTIVE_SLOT = 1 - active ∧ t.flag CP_FW_STAT CP_FW_STAT_TRIAL = true ∧
      t.rf CP_FW_STAT CP_FW_STAT_AUTO_COMMIT = e.cmd.f 2 0 0 ∧ t.cp.serving = true ∧ t.lc = { s.lc with handoff := none, trial := true, trialAt := s.time.cycles, handNotes := [], bootMeas := t.lc.bootMeas } ∧
      t.cp.queue = s.cp.queue ∧ t.events = s.events) ∧
    (∃ t, exec .nonceExpire s = .next t ∧ nonceOver s t) ∧
    (∀ n, exec (.tapInstruction n) s = .next (if n ≤ 2 ∨ (n ≤ 4 ∧ (s.lc.state = lcBlank ∨ s.lc.state = lcMaintenance)) then { s with lc := { s.lc with tap := n } } else s)) ∧
    (∀ entropy,
      ((s.lc.trans = none ∨ ∀ q ∈ s.cp.running, q.op ∉ [0x0C04, 0x0C05, 0x0C06]) → exec (.lcTransitionDone entropy) s = .next s) ∧
      ∀ target key q, s.lc.trans = some (target, key) → s.cp.running = [q] → q.op ∈ [0x0C04, 0x0C05, 0x0C06] → target ≤ 4 →
        (q.op = 0x0C04 → entropy = false → exec (.lcTransitionDone entropy) s = .next (({ s with lc := { s.lc with trans := none } } : State).final q stInternal [])) ∧
        ((q.op ≠ 0x0C04 ∨ entropy = true) → ∃ (e : State) (ws : List Word), exec (.lcTransitionDone entropy) s = .next (e.final q stOk (w32 target :: ws)) ∧ ws = (if q.op = 0x0C04 then Config.shake256 e.lc.idKey else []) ∧
          e.lc.state = target ∧ e.lc.prev = s.lc.state ∧ e.lc.ownerKey = key ∧ e.lc.transitions = (s.lc.transitions + 1) % 2 ^ 32 ∧ e.lc.trans = none ∧ e.lc.transReset = true ∧ e.lc.nonce = s.lc.nonce ∧
          e.rf CP_LC_STAT CP_LC_STAT_STATE = target ∧ e.flag CP_LC_STAT CP_LC_STAT_OWNER = (!key.isEmpty) ∧ (e.log.head?.map fun x => (x.code, x.detail.take 2)) = some (0x0C01, [w32 s.lc.state, w32 target]) ∧
          e.mem = s.mem ∧ e.lc.slotA = s.lc.slotA ∧ e.lc.slotB = s.lc.slotB ∧
          (target = lcDecommissioned → e.cp.profiles = [] ∧ e.ch.cal = [] ∧ e.wd.sets = [] ∧ e.dr.boards = [] ∧ e.dr.tables = [] ∧ e.lc.idKey = [] ∧ ∀ n < 16, (e.prog n).valid = false) ∧
          (target ≠ lcDecommissioned → e.cp.profiles = s.cp.profiles ∧ e.md.progs = s.md.progs ∧ (q.op ≠ 0x0C04 → e.lc.idKey = s.lc.idKey))))) ∧
  (∀ c : Cmd,
    let blank := s.lc.state = lcBlank
    let shown := s.lc.nonce = some ((List.range 8).map fun k => c.w (2 + k))
    let n := c.f 0 0 0
    let off := n * 2 ^ 25 + (c.w 1).toNat
    let bytes := wordsBE (c.payload.drop 2)
    let siglen := ((c.w 48).toNat + 3) / 4
    let signed := fun (key : List Byte) => Config.falconVerify key (wordsBE (c.payload.take 48)) ((wordsBE (c.payload.drop 49)).take (c.w 48).toNat) = true
    let owner := (wordsBE (c.payload.drop (49 + siglen))).take 1793
    let fields := fun (op target : Nat) (nonce ident arg : List Word) => c.w 0 = 0x4C434155 ∧ c.w 1 = w32 (0x01000000 + op % 256 * 65536 + target * 256) ∧
      (List.range 8).map (fun k => c.w (2 + k)) = nonce ∧ (List.range 16).map (fun k => c.w (10 + k)) = ident ∧ (List.range 16).map (fun k => c.w (26 + k)) = arg ∧
      (List.range 6).map (fun k => c.w (42 + k)) = List.replicate 6 0
    let zero := List.replicate 16 (0 : Word)
    let live := s.lc.nonce.getD []
    let ident := Config.shake256 s.lc.idKey
    let busy := trial ∨ (∃ e ∈ s.events, e.op = 0x0C11) ∨ s.lc.trans ≠ none ∨ s.lc.transReset = true ∨ (∃ q ∈ s.cp.running, q.op ∈ [0x0903, 0x0C10, 0x0D03, 0x0301]) ∨ 8 ≤ s.cp.running.length
    let turned := fun (i : Instr) (op : Nat) (st word : Nat) => ∃ e : State, exec i s = .next (e.answer op c (isQuery op c) (replyTo op c st 0 word []) false) ∧
      (if shown then nonceOver (s.dequeue op c) e else e = s.dequeue op c)
    let unsigned := fun (i : Instr) (op : Nat) (uses : Bool) => ∃ e : State, exec i s = .next (e.answer op c (isQuery op c) (replyTo op c stSignature 0 0 []) false) ∧
      e.reg CP_SEC_FAILS = w32 (min (2 ^ 32 - 1) ((s.reg CP_SEC_FAILS).toNat + 1)) ∧ (e.log.head?.map fun x => (x.code, x.detail)) = some (0x0C05, [w32 op, c.source]) ∧
      e.lc = (if uses = true ∧ shown then { s.lc with nonce := none } else s.lc)
    let begins := fun (i : Instr) (op target : Nat) (key : List Byte) => ∃ e, Progresses i op c s [] e ∧ e.lc = { s.lc with trans := some (target, key), nonce := if op ≠ 0x0C04 ∧ shown then none else s.lc.nonce } ∧
      e.cp.profiles = s.cp.profiles ∧ e.mem = s.mem
    (Taken 0x0C10 c s → 2 ≤ c.payload.length → c.payload.length ≤ 1002 → (c.w 1).toNat + 4 * (c.payload.length - 2) ≤ 2 ^ 25 → s.cp.recovery = false →
      (n = active → Refuses (.fwStore c) 0x0C10 c s stBadParam 0 []) ∧
      (n ≠ active → (trial ∨ ∃ e ∈ s.events, e.op = 0x0C11) → Refuses (.fwStore c) 0x0C10 c s stResourceBusy 0 []) ∧
      (n ≠ active → ¬ trial → (∀ e ∈ s.events, e.op ≠ 0x0C11) → Fits 0 c s →
        let u := { s with lc := { s.lc with fwAcc := tblSetRun 0 s.lc.fwAcc off bytes } }
        let stored := fun (e : State) => (∀ a, tblGet 0 e.lc.fwAcc a = if off ≤ a ∧ a < off + bytes.length then bytes.getD (a - off) 0 else tblGet 0 s.lc.fwAcc a) ∧ e.fwSlot (1 - n) = s.fwSlot (1 - n)
        (c.f 0 31 31 = 0 → ∃ e, Answers (.fwStore c) 0x0C10 c s [] e ∧ stored e ∧ e.fwSlot n = s.fwSlot n) ∧
        (c.f 0 31 31 = 1 →
          (fwFailing s.lc.svnMin (u.fwImage n) = none → ∃ e, Answers (.fwStore c) 0x0C10 c s [] e ∧ stored e ∧ e.fwSlot n = fwSlotOf (u.fwImage n) ∧ (e.fwSlot n).valid = true ∧
            e.flag CP_FW_STAT (if n = 0 then CP_FW_STAT_A_VALID else CP_FW_STAT_B_VALID) = true) ∧
          (∀ f, fwFailing s.lc.svnMin (u.fwImage n) = some f →
            if f = 1 ∨ f = 4 then Refuses (.fwStore c) 0x0C10 c s stBadParam 0 [] else unsigned (.fwStore c) 0x0C10 false)))) ∧
    (Taken 0x0C12 c s → c.payload.length = 1 → (¬ trial → Refuses (.fwCommit c) 0x0C12 c s stWrongState 0 []) ∧
      (trial → Fits 0 c s → ∃ e, Answers (.fwCommit c) 0x0C12 c s [] e ∧ committed (bit (c.w 0).toNat 0) e)) ∧
    (Taken 0x0C13 c s → c.payload.length = 0 → Fits 58 c s → ∃ a b : List Word, Answers (.fwList c) 0x0C13 c s (a ++ b) (s.dequeue 0x0C13 c) ∧ a.length = 29 ∧ b.length = 29 ∧
      a.getD 0 0 = w32 (b2n (s.lc.slotA.valid && decide (s.lc.svnMin ≤ s.lc.slotA.svn))) ∧ (a.drop 9).take 4 = [w32 s.lc.slotA.fwVersion, w32 s.lc.slotA.svn, w32 s.lc.slotA.ckptVer, w32 s.lc.slotA.ckptMin] ∧
      b.getD 0 0 = w32 (b2n (s.lc.slotB.valid && decide (s.lc.svnMin ≤ s.lc.slotB.svn))) ∧ (b.drop 9).take 4 = [w32 s.lc.slotB.fwVersion, w32 s.lc.slotB.svn, w32 s.lc.slotB.ckptVer, w32 s.lc.slotB.ckptMin]) ∧
    (Taken 0x0C01 c s → c.payload.length = 0 → Fits 4 c s → Answers (.lcStatus c) 0x0C01 c s ([CP_LC_STAT, CP_FW_STAT, CP_FW_SVN, CP_WIPE_STAT].map s.readReg) (s.dequeue 0x0C01 c)) ∧
    (Taken 0x0C02 c s → c.payload.length = 0 → Fits 898 c s → Answers (.lcIdentity c) 0x0C02 c s (bytesToWordsBE s.lc.idKey 449 ++ bytesToWordsBE s.lc.ownerKey 449) (s.dequeue 0x0C02 c)) ∧
    (Taken 0x0C03 c s → c.payload.length = 0 → Fits 8 c s → ∃ (ws : List Word) (e : State), Answers (.lcNonce c) 0x0C03 c s ws e ∧ ws.length = 8 ∧ e.lc = { s.lc with nonce := some ws } ∧ e.flag CP_LC_STAT CP_LC_STAT_NONCE_LIVE = true) ∧
    (Taken 0x0C07 c s → c.payload.length = 8 →
      let r := s.report (wordsBE c.payload)
      (r.length = 1472 ∧ leAt r 0 4 = 0x41545354 ∧ leAt r 6 1 = s.lc.state % 256 ∧ leAt r 8 8 = s.now % 2 ^ 64 ∧ (r.drop 16).take 32 = wordsBE c.payload ∧ leAt r 180 4 = s.lc.boots % 2 ^ 32 ∧
        leAt r 184 4 = s.lc.wipes % 2 ^ 32 ∧ ∀ k < 64, leAt r (1408 + k) 1 = s.rf (MD_SL_CTL k) MD_SL_CTL_SLOT) ∧
      (Fits 689 c s → Answers (.lcAttest c) 0x0C07 c s (1472 :: (bytesToWordsBE r 368 ++ bytesToWordsBE (Config.falconSign s.lc.idKey r) 320)) (s.dequeue 0x0C07 c)) ∧
      (¬ Fits 689 c s → Refuses (.lcAttest c) 0x0C07 c s stBadLength 0 [w32 (s.replyRoom c.transport)])) ∧
    (Taken 0x0C04 c s → c.payload.length = 49 + siglen + 449 →
      let auth := fields 0x0C04 1 (List.replicate 8 0) zero (Config.shake256 owner) ∧ signed owner
      (¬ auth → unsigned (.lcProvision c) 0x0C04 false) ∧
      (auth → s.role ≠ roleActive → ¬ busy → begins (.lcProvision c) 0x0C04 1 owner) ∧
      (auth → s.role = roleActive → Refuses (.lcProvision c) 0x0C04 c s stWrongState 0 []) ∧
      (auth → s.role ≠ roleActive → busy → Refuses (.lcProvision c) 0x0C04 c s stResourceBusy 0 [])) ∧
    (Taken 0x0C05 c s →
      let target := c.f 1 15 8
      let auth := blank ∨ (fields 0x0C05 target live ident zero ∧ s.lc.nonce ≠ none ∧ signed s.lc.ownerKey)
      let permitted := (s.lc.state = 1 ∧ (target = 2 ∨ target = 3)) ∨ (s.lc.state = 2 ∧ target = 3) ∨ (s.lc.state = 3 ∧ target = 2) ∨ (s.lc.state ≤ 3 ∧ target = 4)
      (blank → target ≠ 4 → Refuses (.lcTransition c) 0x0C05 c s stNotPermitted 0 []) ∧
      ((¬ blank ∨ target = 4) → c.payload.length = 49 + siglen →
        (blank → c.w 48 ≠ 0 → Refuses (.lcTransition c) 0x0C05 c s stBadParam 48 []) ∧
        ((¬ blank ∨ c.w 48 = 0) →
          (¬ permitted → turned (.lcTransition c) 0x0C05 stBadParam 1) ∧
          (permitted → ¬ auth → unsigned (.lcTransition c) 0x0C05 true) ∧
          (permitted → auth → s.role = roleActive → turned (.lcTransition c) 0x0C05 stWrongState 0) ∧
          (permitted → auth → s.role ≠ roleActive → busy → turned (.lcTransition c) 0x0C05 stResourceBusy 0) ∧
          (permitted → auth → s.role ≠ roleActive → ¬ busy → begins (.lcTransition c) 0x0C05 target (if target = 4 then [] else s.lc.ownerKey))))) ∧
    (Taken 0x0C06 c s → c.payload.length = 49 + siglen + 449 →
      let auth := fields 0x0C06 3 live ident (Config.shake256 owner) ∧ s.lc.nonce ≠ none ∧ signed s.lc.ownerKey
      (¬ auth → unsigned (.lcOwnerRotate c) 0x0C06 true) ∧
      (auth → s.role = roleActive → turned (.lcOwnerRotate c) 0x0C06 stWrongState 0) ∧
      (auth → s.role ≠ roleActive → busy → turned (.lcOwnerRotate c) 0x0C06 stResourceBusy 0) ∧
      (auth → s.role ≠ roleActive → ¬ busy → begins (.lcOwnerRotate c) 0x0C06 3 owner)))

/-- R550 (no command writes what identifies the device), R466 and R467 (the ring's room), R510 (an unwritten byte of DRAM reads 0). Every command, and every step, completes in any state that meets the invariant, and keeps it. That no step stops, and the tables' canonical form, are the model's own (log entries 5, 12 and 13). -/
def Obligations.StepsCompleteAndKeepTheStateWellFormed : Prop := ∀ s : State, s.Wf →
  (∀ c : Instr, ∃ t, exec c s = .next t ∧ t.Wf) ∧ ∃ t, step s = .next t ∧ t.Wf
end

