-- ==== Sys2Proof/Laws/Tbl.lean ====
section
/-! SUPPORT. The laws of the sparse tables: a read after a write, and every write keeps the canonical form. -/

namespace Sys2Proof.Machine

variable {α : Type}

@[simp] theorem tblGet_nil (d : α) (k : Nat) : tblGet d [] k = d := rfl

theorem tblGet_erase_same (d : α) (t : Tbl α) (k : Nat) : tblGet d (tblErase t k) k = d := by
  induction t with
  | nil => rfl
  | cons e t ih => obtain ⟨j, v⟩ := e; by_cases h : j = k <;> simp [tblErase, tblGet, h, ih]

theorem tblGet_erase_ne (d : α) (t : Tbl α) {k a : Nat} (h : a ≠ k) :
    tblGet d (tblErase t k) a = tblGet d t a := by
  induction t with
  | nil => rfl
  | cons e t ih =>
    obtain ⟨j, v⟩ := e
    by_cases hj : j = k
    · subst hj; simp [tblErase, tblGet, ih, Ne.symm h]
    · by_cases ha : j = a
      · subst ha; simp [tblErase, tblGet, hj]
      · simp [tblErase, tblGet, hj, ha, ih]

theorem tblGet_insert_ne (d v : α) (t : Tbl α) {k a : Nat} (h : a ≠ k) :
    tblGet d (tblInsert t k v) a = tblGet d t a := by
  induction t with
  | nil => simp [tblInsert, tblGet, Ne.symm h]
  | cons e t ih =>
    obtain ⟨j, u⟩ := e
    by_cases hj : k < j
    · simp [tblInsert, hj, tblGet, Ne.symm h]
    · by_cases ha : j = a
      · subst ha; simp [tblInsert, hj, tblGet]
      · simp [tblInsert, hj, tblGet, ha, ih]

/-- `k` is listed nowhere in `t`. -/
def tblFresh (t : Tbl α) (k : Nat) : Prop := ∀ e ∈ t, e.1 ≠ k

theorem tblFresh_erase (t : Tbl α) (k : Nat) : tblFresh (tblErase t k) k := by
  induction t with
  | nil => intro e he; cases he
  | cons e t ih =>
    obtain ⟨j, v⟩ := e
    by_cases hj : j = k
    · simpa [tblErase, hj] using ih
    · intro x hx
      simp only [tblErase, hj, if_false, List.mem_cons] at hx
      rcases hx with rfl | hx
      · exact hj
      · exact ih x hx

theorem tblGet_insert_same (d v : α) (t : Tbl α) {k : Nat} (h : tblFresh t k) :
    tblGet d (tblInsert t k v) k = v := by
  induction t with
  | nil => simp [tblInsert, tblGet]
  | cons e t ih =>
    obtain ⟨j, u⟩ := e
    have hj : j ≠ k := h (j, u) (by simp)
    by_cases hl : k < j
    · simp [tblInsert, hl, tblGet]
    · simpa [tblInsert, hl, tblGet, hj] using ih (fun x hx => h x (by simp [hx]))

variable [DecidableEq α]

@[simp] theorem tblGet_set_same (d v : α) (t : Tbl α) (k : Nat) : tblGet d (tblSet d t k v) k = v := by
  by_cases h : v = d
  · subst h; simp [tblSet, tblGet_erase_same]
  · simp [tblSet, h, tblGet_insert_same _ _ _ (tblFresh_erase t k)]

theorem tblGet_set_ne (d v : α) (t : Tbl α) {k a : Nat} (h : a ≠ k) :
    tblGet d (tblSet d t k v) a = tblGet d t a := by
  by_cases hv : v = d <;> simp [tblSet, hv, tblGet_erase_ne _ _ h, tblGet_insert_ne _ _ _ h]

theorem tblGet_set (d v : α) (t : Tbl α) (k a : Nat) :
    tblGet d (tblSet d t k v) a = if a = k then v else tblGet d t a := by
  by_cases h : a = k
  · subst h; simp
  · simp [h, tblGet_set_ne _ _ _ h]

@[simp] theorem tblGet_upd_same (d : α) (t : Tbl α) (k : Nat) (f : α → α) :
    tblGet d (tblUpd d t k f) k = f (tblGet d t k) := by simp [tblUpd]

theorem tblGet_upd_ne (d : α) (t : Tbl α) {k a : Nat} (f : α → α) (h : a ≠ k) :
    tblGet d (tblUpd d t k f) a = tblGet d t a := by simp [tblUpd, tblGet_set_ne _ _ _ h]

theorem tblGet_setAll (d v : α) (ks : List Nat) : ∀ (t : Tbl α) (a : Nat),
    tblGet d (tblSetAll d t ks v) a = if a ∈ ks then v else tblGet d t a := by
  induction ks with
  | nil => intro t a; simp [tblSetAll]
  | cons k ks ih =>
    intro t a
    by_cases h1 : a ∈ ks
    · simp [tblSetAll, ih, h1]
    · by_cases h2 : a = k <;> simp [tblSetAll, ih, h1, h2, tblGet_set]

/-- A run of writes touches only its own keys. -/
theorem tblGet_setRun_out (d : α) (vs : List α) : ∀ (t : Tbl α) (k a : Nat), (a < k ∨ k + vs.length ≤ a) →
    tblGet d (tblSetRun d t k vs) a = tblGet d t a := by
  induction vs with
  | nil => intro t k a _; rfl
  | cons v vs ih =>
    intro t k a h
    have hl : (v :: vs).length = vs.length + 1 := rfl
    rw [tblSetRun, ih _ _ _ (by omega), tblGet_set_ne]
    omega

theorem tblWfFrom_mono (d : α) (t : Tbl α) {a b : Nat} (h : tblWfFrom d b t = true) (hab : a ≤ b) :
    tblWfFrom d a t = true := by
  cases t with
  | nil => rfl
  | cons e t =>
    obtain ⟨j, v⟩ := e
    simp only [tblWfFrom, Bool.and_eq_true, decide_eq_true_eq] at h ⊢
    exact ⟨⟨by omega, h.1.2⟩, h.2⟩

theorem tblWfFrom_erase (d : α) (k : Nat) (t : Tbl α) : ∀ lo, tblWfFrom d lo t = true →
    tblWfFrom d lo (tblErase t k) = true := by
  induction t with
  | nil => intro lo _; rfl
  | cons e t ih =>
    obtain ⟨j, v⟩ := e
    intro lo h
    simp only [tblWfFrom, Bool.and_eq_true, decide_eq_true_eq] at h
    by_cases hj : j = k
    · simp only [tblErase, hj, if_true]
      exact tblWfFrom_mono d _ (ih _ h.2) (by omega)
    · simp only [tblErase, hj, if_false, tblWfFrom, Bool.and_eq_true, decide_eq_true_eq]
      exact ⟨⟨h.1.1, h.1.2⟩, ih _ h.2⟩

theorem tblWfFrom_insert (d v : α) (hv : v ≠ d) (k : Nat) (t : Tbl α) : ∀ lo, lo ≤ k → tblFresh t k →
    tblWfFrom d lo t = true → tblWfFrom d lo (tblInsert t k v) = true := by
  induction t with
  | nil => intro lo hlo _ _; simp [tblInsert, tblWfFrom, hlo, hv]
  | cons e t ih =>
    obtain ⟨j, u⟩ := e
    intro lo hlo hf h
    have hj : j ≠ k := hf (j, u) (by simp)
    simp only [tblWfFrom, Bool.and_eq_true, decide_eq_true_eq] at h
    by_cases hl : k < j
    · simp only [tblInsert, hl, if_true, tblWfFrom, Bool.and_eq_true, decide_eq_true_eq]
      exact ⟨⟨hlo, by simp [hv]⟩, ⟨by omega, h.1.2⟩, h.2⟩
    · simp only [tblInsert, hl, if_false, tblWfFrom, Bool.and_eq_true, decide_eq_true_eq]
      exact ⟨⟨h.1.1, h.1.2⟩, ih _ (by omega) (fun x hx => hf x (by simp [hx])) h.2⟩

/-- A write keeps the canonical form. -/
theorem tblWf_set (d v : α) (t : Tbl α) (k : Nat) (h : tblWf d t = true) : tblWf d (tblSet d t k v) = true := by
  by_cases hv : v = d
  · simpa [tblSet, hv, tblWf] using tblWfFrom_erase d k t 0 h
  · simp only [tblSet, hv, if_false, tblWf]
    exact tblWfFrom_insert d v hv k _ 0 (Nat.zero_le _) (tblFresh_erase t k) (tblWfFrom_erase d k t 0 h)

theorem tblWf_upd (d : α) (t : Tbl α) (k : Nat) (f : α → α) (h : tblWf d t = true) :
    tblWf d (tblUpd d t k f) = true := tblWf_set d _ t k h

theorem tblWf_setRun (d : α) (vs : List α) : ∀ (t : Tbl α) (k : Nat), tblWf d t = true →
    tblWf d (tblSetRun d t k vs) = true := by
  induction vs with
  | nil => intro t k h; exact h
  | cons v vs ih => intro t k h; exact ih _ _ (tblWf_set d v t k h)

theorem tblWf_setAll (d v : α) (ks : List Nat) : ∀ (t : Tbl α), tblWf d t = true →
    tblWf d (tblSetAll d t ks v) = true := by
  induction ks with
  | nil => intro t h; exact h
  | cons k ks ih => intro t h; exact ih _ (tblWf_set d v t k h)

/-- A table written entry by entry with values that depend on the entry alone: what it leaves at a key. -/
theorem tblGet_foldSet {α : Type} [DecidableEq α] (d : α) (f : Nat → α) (l : List Nat) (t : Tbl α) (o : Nat) :
    tblGet d (l.foldl (fun t a => tblSet d t a (f a)) t) o = if o ∈ l then f o else tblGet d t o := by
  induction l generalizing t with
  | nil => rfl
  | cons a l ih =>
    rw [List.foldl_cons, ih, tblGet_set]
    by_cases h : o = a <;> simp [h]

theorem tblWf_foldSet {α : Type} [DecidableEq α] (d : α) (f : Nat → α) (l : List Nat) (t : Tbl α) (h : tblWf d t = true) :
    tblWf d (l.foldl (fun t a => tblSet d t a (f a)) t) = true := by
  induction l generalizing t with
  | nil => exact h
  | cons a l ih => exact ih _ (tblWf_set _ _ _ _ h)

end Sys2Proof.Machine
end

