-- ==== Sys2Proof/Laws/State.lean ====
section
/-! SUPPORT. What each update of the state leaves as it was: one lemma per field per update. -/

namespace Sys2Proof.Machine

@[simp] theorem State.setReg_shadow (s : State) (off : Nat) (w : Word) : (s.setReg off w).shadow = s.shadow := (rfl)
@[simp] theorem State.setReg_staged (s : State) (off : Nat) (w : Word) : (s.setReg off w).staged = s.staged := (rfl)
@[simp] theorem State.setReg_fresh (s : State) (off : Nat) (w : Word) : (s.setReg off w).fresh = s.fresh := (rfl)
@[simp] theorem State.setReg_time (s : State) (off : Nat) (w : Word) : (s.setReg off w).time = s.time := (rfl)
@[simp] theorem State.setReg_cp (s : State) (off : Nat) (w : Word) : (s.setReg off w).cp = s.cp := (rfl)
@[simp] theorem State.setReg_events (s : State) (off : Nat) (w : Word) : (s.setReg off w).events = s.events := (rfl)
@[simp] theorem State.setReg_et (s : State) (off : Nat) (w : Word) : (s.setReg off w).et = s.et := (rfl)
@[simp] theorem State.setReg_mem (s : State) (off : Nat) (w : Word) : (s.setReg off w).mem = s.mem := (rfl)
@[simp] theorem State.setReg_sl (s : State) (off : Nat) (w : Word) : (s.setReg off w).sl = s.sl := (rfl)
@[simp] theorem State.setReg_md (s : State) (off : Nat) (w : Word) : (s.setReg off w).md = s.md := (rfl)
@[simp] theorem State.setReg_ch (s : State) (off : Nat) (w : Word) : (s.setReg off w).ch = s.ch := (rfl)
@[simp] theorem State.setReg_ix (s : State) (off : Nat) (w : Word) : (s.setReg off w).ix = s.ix := (rfl)
@[simp] theorem State.setReg_wd (s : State) (off : Nat) (w : Word) : (s.setReg off w).wd = s.wd := (rfl)
@[simp] theorem State.setReg_sf (s : State) (off : Nat) (w : Word) : (s.setReg off w).sf = s.sf := (rfl)
@[simp] theorem State.setReg_ct (s : State) (off : Nat) (w : Word) : (s.setReg off w).ct = s.ct := (rfl)
@[simp] theorem State.setReg_dr (s : State) (off : Nat) (w : Word) : (s.setReg off w).dr = s.dr := (rfl)
@[simp] theorem State.setReg_tm (s : State) (off : Nat) (w : Word) : (s.setReg off w).tm = s.tm := (rfl)
@[simp] theorem State.setReg_dm (s : State) (off : Nat) (w : Word) : (s.setReg off w).dm = s.dm := (rfl)
@[simp] theorem State.setReg_ml (s : State) (off : Nat) (w : Word) : (s.setReg off w).ml = s.ml := (rfl)
@[simp] theorem State.setReg_pw (s : State) (off : Nat) (w : Word) : (s.setReg off w).pw = s.pw := (rfl)
@[simp] theorem State.setReg_lc (s : State) (off : Nat) (w : Word) : (s.setReg off w).lc = s.lc := (rfl)
@[simp] theorem State.setReg_log (s : State) (off : Nat) (w : Word) : (s.setReg off w).log = s.log := (rfl)
@[simp] theorem State.setReg_out (s : State) (off : Nat) (w : Word) : (s.setReg off w).out = s.out := (rfl)
@[simp] theorem State.setReg_free (s : State) (off : Nat) (w : Word) : (s.setReg off w).free = s.free := (rfl)
@[simp] theorem State.setReg_pending (s : State) (off : Nat) (w : Word) : (s.setReg off w).pending = s.pending := (rfl)

@[simp] theorem State.setF_shadow (s : State) (off : Nat) (f : Fld) (v : Nat) : (s.setF off f v).shadow = s.shadow := (rfl)
@[simp] theorem State.setF_staged (s : State) (off : Nat) (f : Fld) (v : Nat) : (s.setF off f v).staged = s.staged := (rfl)
@[simp] theorem State.setF_fresh (s : State) (off : Nat) (f : Fld) (v : Nat) : (s.setF off f v).fresh = s.fresh := (rfl)
@[simp] theorem State.setF_time (s : State) (off : Nat) (f : Fld) (v : Nat) : (s.setF off f v).time = s.time := (rfl)
@[simp] theorem State.setF_cp (s : State) (off : Nat) (f : Fld) (v : Nat) : (s.setF off f v).cp = s.cp := (rfl)
@[simp] theorem State.setF_events (s : State) (off : Nat) (f : Fld) (v : Nat) : (s.setF off f v).events = s.events := (rfl)
@[simp] theorem State.setF_et (s : State) (off : Nat) (f : Fld) (v : Nat) : (s.setF off f v).et = s.et := (rfl)
@[simp] theorem State.setF_mem (s : State) (off : Nat) (f : Fld) (v : Nat) : (s.setF off f v).mem = s.mem := (rfl)
@[simp] theorem State.setF_sl (s : State) (off : Nat) (f : Fld) (v : Nat) : (s.setF off f v).sl = s.sl := (rfl)
@[simp] theorem State.setF_md (s : State) (off : Nat) (f : Fld) (v : Nat) : (s.setF off f v).md = s.md := (rfl)
@[simp] theorem State.setF_ch (s : State) (off : Nat) (f : Fld) (v : Nat) : (s.setF off f v).ch = s.ch := (rfl)
@[simp] theorem State.setF_ix (s : State) (off : Nat) (f : Fld) (v : Nat) : (s.setF off f v).ix = s.ix := (rfl)
@[simp] theorem State.setF_wd (s : State) (off : Nat) (f : Fld) (v : Nat) : (s.setF off f v).wd = s.wd := (rfl)
@[simp] theorem State.setF_sf (s : State) (off : Nat) (f : Fld) (v : Nat) : (s.setF off f v).sf = s.sf := (rfl)
@[simp] theorem State.setF_ct (s : State) (off : Nat) (f : Fld) (v : Nat) : (s.setF off f v).ct = s.ct := (rfl)
@[simp] theorem State.setF_dr (s : State) (off : Nat) (f : Fld) (v : Nat) : (s.setF off f v).dr = s.dr := (rfl)
@[simp] theorem State.setF_tm (s : State) (off : Nat) (f : Fld) (v : Nat) : (s.setF off f v).tm = s.tm := (rfl)
@[simp] theorem State.setF_dm (s : State) (off : Nat) (f : Fld) (v : Nat) : (s.setF off f v).dm = s.dm := (rfl)
@[simp] theorem State.setF_ml (s : State) (off : Nat) (f : Fld) (v : Nat) : (s.setF off f v).ml = s.ml := (rfl)
@[simp] theorem State.setF_pw (s : State) (off : Nat) (f : Fld) (v : Nat) : (s.setF off f v).pw = s.pw := (rfl)
@[simp] theorem State.setF_lc (s : State) (off : Nat) (f : Fld) (v : Nat) : (s.setF off f v).lc = s.lc := (rfl)
@[simp] theorem State.setF_log (s : State) (off : Nat) (f : Fld) (v : Nat) : (s.setF off f v).log = s.log := (rfl)
@[simp] theorem State.setF_out (s : State) (off : Nat) (f : Fld) (v : Nat) : (s.setF off f v).out = s.out := (rfl)
@[simp] theorem State.setF_free (s : State) (off : Nat) (f : Fld) (v : Nat) : (s.setF off f v).free = s.free := (rfl)
@[simp] theorem State.setF_pending (s : State) (off : Nat) (f : Fld) (v : Nat) : (s.setF off f v).pending = s.pending := (rfl)

@[simp] theorem State.setFB_shadow (s : State) (off : Nat) (f : Fld) (i : Nat) (b : Bool) : (s.setFB off f i b).shadow = s.shadow := (rfl)
@[simp] theorem State.setFB_staged (s : State) (off : Nat) (f : Fld) (i : Nat) (b : Bool) : (s.setFB off f i b).staged = s.staged := (rfl)
@[simp] theorem State.setFB_fresh (s : State) (off : Nat) (f : Fld) (i : Nat) (b : Bool) : (s.setFB off f i b).fresh = s.fresh := (rfl)
@[simp] theorem State.setFB_time (s : State) (off : Nat) (f : Fld) (i : Nat) (b : Bool) : (s.setFB off f i b).time = s.time := (rfl)
@[simp] theorem State.setFB_cp (s : State) (off : Nat) (f : Fld) (i : Nat) (b : Bool) : (s.setFB off f i b).cp = s.cp := (rfl)
@[simp] theorem State.setFB_events (s : State) (off : Nat) (f : Fld) (i : Nat) (b : Bool) : (s.setFB off f i b).events = s.events := (rfl)
@[simp] theorem State.setFB_et (s : State) (off : Nat) (f : Fld) (i : Nat) (b : Bool) : (s.setFB off f i b).et = s.et := (rfl)
@[simp] theorem State.setFB_mem (s : State) (off : Nat) (f : Fld) (i : Nat) (b : Bool) : (s.setFB off f i b).mem = s.mem := (rfl)
@[simp] theorem State.setFB_sl (s : State) (off : Nat) (f : Fld) (i : Nat) (b : Bool) : (s.setFB off f i b).sl = s.sl := (rfl)
@[simp] theorem State.setFB_md (s : State) (off : Nat) (f : Fld) (i : Nat) (b : Bool) : (s.setFB off f i b).md = s.md := (rfl)
@[simp] theorem State.setFB_ch (s : State) (off : Nat) (f : Fld) (i : Nat) (b : Bool) : (s.setFB off f i b).ch = s.ch := (rfl)
@[simp] theorem State.setFB_ix (s : State) (off : Nat) (f : Fld) (i : Nat) (b : Bool) : (s.setFB off f i b).ix = s.ix := (rfl)
@[simp] theorem State.setFB_wd (s : State) (off : Nat) (f : Fld) (i : Nat) (b : Bool) : (s.setFB off f i b).wd = s.wd := (rfl)
@[simp] theorem State.setFB_sf (s : State) (off : Nat) (f : Fld) (i : Nat) (b : Bool) : (s.setFB off f i b).sf = s.sf := (rfl)
@[simp] theorem State.setFB_ct (s : State) (off : Nat) (f : Fld) (i : Nat) (b : Bool) : (s.setFB off f i b).ct = s.ct := (rfl)
@[simp] theorem State.setFB_dr (s : State) (off : Nat) (f : Fld) (i : Nat) (b : Bool) : (s.setFB off f i b).dr = s.dr := (rfl)
@[simp] theorem State.setFB_tm (s : State) (off : Nat) (f : Fld) (i : Nat) (b : Bool) : (s.setFB off f i b).tm = s.tm := (rfl)
@[simp] theorem State.setFB_dm (s : State) (off : Nat) (f : Fld) (i : Nat) (b : Bool) : (s.setFB off f i b).dm = s.dm := (rfl)
@[simp] theorem State.setFB_ml (s : State) (off : Nat) (f : Fld) (i : Nat) (b : Bool) : (s.setFB off f i b).ml = s.ml := (rfl)
@[simp] theorem State.setFB_pw (s : State) (off : Nat) (f : Fld) (i : Nat) (b : Bool) : (s.setFB off f i b).pw = s.pw := (rfl)
@[simp] theorem State.setFB_lc (s : State) (off : Nat) (f : Fld) (i : Nat) (b : Bool) : (s.setFB off f i b).lc = s.lc := (rfl)
@[simp] theorem State.setFB_log (s : State) (off : Nat) (f : Fld) (i : Nat) (b : Bool) : (s.setFB off f i b).log = s.log := (rfl)
@[simp] theorem State.setFB_out (s : State) (off : Nat) (f : Fld) (i : Nat) (b : Bool) : (s.setFB off f i b).out = s.out := (rfl)
@[simp] theorem State.setFB_free (s : State) (off : Nat) (f : Fld) (i : Nat) (b : Bool) : (s.setFB off f i b).free = s.free := (rfl)
@[simp] theorem State.setFB_pending (s : State) (off : Nat) (f : Fld) (i : Nat) (b : Bool) : (s.setFB off f i b).pending = s.pending := (rfl)

@[simp] theorem State.setReg64_shadow (s : State) (lo v : Nat) : (s.setReg64 lo v).shadow = s.shadow := (rfl)
@[simp] theorem State.setReg64_staged (s : State) (lo v : Nat) : (s.setReg64 lo v).staged = s.staged := (rfl)
@[simp] theorem State.setReg64_fresh (s : State) (lo v : Nat) : (s.setReg64 lo v).fresh = s.fresh := (rfl)
@[simp] theorem State.setReg64_time (s : State) (lo v : Nat) : (s.setReg64 lo v).time = s.time := (rfl)
@[simp] theorem State.setReg64_cp (s : State) (lo v : Nat) : (s.setReg64 lo v).cp = s.cp := (rfl)
@[simp] theorem State.setReg64_events (s : State) (lo v : Nat) : (s.setReg64 lo v).events = s.events := (rfl)
@[simp] theorem State.setReg64_et (s : State) (lo v : Nat) : (s.setReg64 lo v).et = s.et := (rfl)
@[simp] theorem State.setReg64_mem (s : State) (lo v : Nat) : (s.setReg64 lo v).mem = s.mem := (rfl)
@[simp] theorem State.setReg64_sl (s : State) (lo v : Nat) : (s.setReg64 lo v).sl = s.sl := (rfl)
@[simp] theorem State.setReg64_md (s : State) (lo v : Nat) : (s.setReg64 lo v).md = s.md := (rfl)
@[simp] theorem State.setReg64_ch (s : State) (lo v : Nat) : (s.setReg64 lo v).ch = s.ch := (rfl)
@[simp] theorem State.setReg64_ix (s : State) (lo v : Nat) : (s.setReg64 lo v).ix = s.ix := (rfl)
@[simp] theorem State.setReg64_wd (s : State) (lo v : Nat) : (s.setReg64 lo v).wd = s.wd := (rfl)
@[simp] theorem State.setReg64_sf (s : State) (lo v : Nat) : (s.setReg64 lo v).sf = s.sf := (rfl)
@[simp] theorem State.setReg64_ct (s : State) (lo v : Nat) : (s.setReg64 lo v).ct = s.ct := (rfl)
@[simp] theorem State.setReg64_dr (s : State) (lo v : Nat) : (s.setReg64 lo v).dr = s.dr := (rfl)
@[simp] theorem State.setReg64_tm (s : State) (lo v : Nat) : (s.setReg64 lo v).tm = s.tm := (rfl)
@[simp] theorem State.setReg64_dm (s : State) (lo v : Nat) : (s.setReg64 lo v).dm = s.dm := (rfl)
@[simp] theorem State.setReg64_ml (s : State) (lo v : Nat) : (s.setReg64 lo v).ml = s.ml := (rfl)
@[simp] theorem State.setReg64_pw (s : State) (lo v : Nat) : (s.setReg64 lo v).pw = s.pw := (rfl)
@[simp] theorem State.setReg64_lc (s : State) (lo v : Nat) : (s.setReg64 lo v).lc = s.lc := (rfl)
@[simp] theorem State.setReg64_log (s : State) (lo v : Nat) : (s.setReg64 lo v).log = s.log := (rfl)
@[simp] theorem State.setReg64_out (s : State) (lo v : Nat) : (s.setReg64 lo v).out = s.out := (rfl)
@[simp] theorem State.setReg64_free (s : State) (lo v : Nat) : (s.setReg64 lo v).free = s.free := (rfl)
@[simp] theorem State.setReg64_pending (s : State) (lo v : Nat) : (s.setReg64 lo v).pending = s.pending := (rfl)

@[simp] theorem State.bumpBy_shadow (s : State) (off : Nat) (f : Fld) (n : Nat) : (s.bumpBy off f n).shadow = s.shadow := (rfl)
@[simp] theorem State.bumpBy_staged (s : State) (off : Nat) (f : Fld) (n : Nat) : (s.bumpBy off f n).staged = s.staged := (rfl)
@[simp] theorem State.bumpBy_time (s : State) (off : Nat) (f : Fld) (n : Nat) : (s.bumpBy off f n).time = s.time := (rfl)
@[simp] theorem State.bumpBy_cp (s : State) (off : Nat) (f : Fld) (n : Nat) : (s.bumpBy off f n).cp = s.cp := (rfl)
@[simp] theorem State.bumpBy_events (s : State) (off : Nat) (f : Fld) (n : Nat) : (s.bumpBy off f n).events = s.events := (rfl)
@[simp] theorem State.bumpBy_et (s : State) (off : Nat) (f : Fld) (n : Nat) : (s.bumpBy off f n).et = s.et := (rfl)
@[simp] theorem State.bumpBy_mem (s : State) (off : Nat) (f : Fld) (n : Nat) : (s.bumpBy off f n).mem = s.mem := (rfl)
@[simp] theorem State.bumpBy_sl (s : State) (off : Nat) (f : Fld) (n : Nat) : (s.bumpBy off f n).sl = s.sl := (rfl)
@[simp] theorem State.bumpBy_md (s : State) (off : Nat) (f : Fld) (n : Nat) : (s.bumpBy off f n).md = s.md := (rfl)
@[simp] theorem State.bumpBy_ch (s : State) (off : Nat) (f : Fld) (n : Nat) : (s.bumpBy off f n).ch = s.ch := (rfl)
@[simp] theorem State.bumpBy_ix (s : State) (off : Nat) (f : Fld) (n : Nat) : (s.bumpBy off f n).ix = s.ix := (rfl)
@[simp] theorem State.bumpBy_wd (s : State) (off : Nat) (f : Fld) (n : Nat) : (s.bumpBy off f n).wd = s.wd := (rfl)
@[simp] theorem State.bumpBy_sf (s : State) (off : Nat) (f : Fld) (n : Nat) : (s.bumpBy off f n).sf = s.sf := (rfl)
@[simp] theorem State.bumpBy_ct (s : State) (off : Nat) (f : Fld) (n : Nat) : (s.bumpBy off f n).ct = s.ct := (rfl)
@[simp] theorem State.bumpBy_dr (s : State) (off : Nat) (f : Fld) (n : Nat) : (s.bumpBy off f n).dr = s.dr := (rfl)
@[simp] theorem State.bumpBy_tm (s : State) (off : Nat) (f : Fld) (n : Nat) : (s.bumpBy off f n).tm = s.tm := (rfl)
@[simp] theorem State.bumpBy_dm (s : State) (off : Nat) (f : Fld) (n : Nat) : (s.bumpBy off f n).dm = s.dm := (rfl)
@[simp] theorem State.bumpBy_ml (s : State) (off : Nat) (f : Fld) (n : Nat) : (s.bumpBy off f n).ml = s.ml := (rfl)
@[simp] theorem State.bumpBy_pw (s : State) (off : Nat) (f : Fld) (n : Nat) : (s.bumpBy off f n).pw = s.pw := (rfl)
@[simp] theorem State.bumpBy_lc (s : State) (off : Nat) (f : Fld) (n : Nat) : (s.bumpBy off f n).lc = s.lc := (rfl)
@[simp] theorem State.bumpBy_log (s : State) (off : Nat) (f : Fld) (n : Nat) : (s.bumpBy off f n).log = s.log := (rfl)
@[simp] theorem State.bumpBy_out (s : State) (off : Nat) (f : Fld) (n : Nat) : (s.bumpBy off f n).out = s.out := (rfl)
@[simp] theorem State.bumpBy_free (s : State) (off : Nat) (f : Fld) (n : Nat) : (s.bumpBy off f n).free = s.free := (rfl)
@[simp] theorem State.bumpBy_pending (s : State) (off : Nat) (f : Fld) (n : Nat) : (s.bumpBy off f n).pending = s.pending := (rfl)

@[simp] theorem State.bump_shadow (s : State) (off : Nat) : (s.bump off).shadow = s.shadow := (rfl)
@[simp] theorem State.bump_staged (s : State) (off : Nat) : (s.bump off).staged = s.staged := (rfl)
@[simp] theorem State.bump_time (s : State) (off : Nat) : (s.bump off).time = s.time := (rfl)
@[simp] theorem State.bump_cp (s : State) (off : Nat) : (s.bump off).cp = s.cp := (rfl)
@[simp] theorem State.bump_events (s : State) (off : Nat) : (s.bump off).events = s.events := (rfl)
@[simp] theorem State.bump_et (s : State) (off : Nat) : (s.bump off).et = s.et := (rfl)
@[simp] theorem State.bump_mem (s : State) (off : Nat) : (s.bump off).mem = s.mem := (rfl)
@[simp] theorem State.bump_sl (s : State) (off : Nat) : (s.bump off).sl = s.sl := (rfl)
@[simp] theorem State.bump_md (s : State) (off : Nat) : (s.bump off).md = s.md := (rfl)
@[simp] theorem State.bump_ch (s : State) (off : Nat) : (s.bump off).ch = s.ch := (rfl)
@[simp] theorem State.bump_ix (s : State) (off : Nat) : (s.bump off).ix = s.ix := (rfl)
@[simp] theorem State.bump_wd (s : State) (off : Nat) : (s.bump off).wd = s.wd := (rfl)
@[simp] theorem State.bump_sf (s : State) (off : Nat) : (s.bump off).sf = s.sf := (rfl)
@[simp] theorem State.bump_ct (s : State) (off : Nat) : (s.bump off).ct = s.ct := (rfl)
@[simp] theorem State.bump_dr (s : State) (off : Nat) : (s.bump off).dr = s.dr := (rfl)
@[simp] theorem State.bump_tm (s : State) (off : Nat) : (s.bump off).tm = s.tm := (rfl)
@[simp] theorem State.bump_dm (s : State) (off : Nat) : (s.bump off).dm = s.dm := (rfl)
@[simp] theorem State.bump_ml (s : State) (off : Nat) : (s.bump off).ml = s.ml := (rfl)
@[simp] theorem State.bump_pw (s : State) (off : Nat) : (s.bump off).pw = s.pw := (rfl)
@[simp] theorem State.bump_lc (s : State) (off : Nat) : (s.bump off).lc = s.lc := (rfl)
@[simp] theorem State.bump_log (s : State) (off : Nat) : (s.bump off).log = s.log := (rfl)
@[simp] theorem State.bump_out (s : State) (off : Nat) : (s.bump off).out = s.out := (rfl)
@[simp] theorem State.bump_free (s : State) (off : Nat) : (s.bump off).free = s.free := (rfl)
@[simp] theorem State.bump_pending (s : State) (off : Nat) : (s.bump off).pending = s.pending := (rfl)

@[simp] theorem State.bump64_shadow (s : State) (lo n : Nat) : (s.bump64 lo n).shadow = s.shadow := (rfl)
@[simp] theorem State.bump64_staged (s : State) (lo n : Nat) : (s.bump64 lo n).staged = s.staged := (rfl)
@[simp] theorem State.bump64_time (s : State) (lo n : Nat) : (s.bump64 lo n).time = s.time := (rfl)
@[simp] theorem State.bump64_cp (s : State) (lo n : Nat) : (s.bump64 lo n).cp = s.cp := (rfl)
@[simp] theorem State.bump64_events (s : State) (lo n : Nat) : (s.bump64 lo n).events = s.events := (rfl)
@[simp] theorem State.bump64_et (s : State) (lo n : Nat) : (s.bump64 lo n).et = s.et := (rfl)
@[simp] theorem State.bump64_mem (s : State) (lo n : Nat) : (s.bump64 lo n).mem = s.mem := (rfl)
@[simp] theorem State.bump64_sl (s : State) (lo n : Nat) : (s.bump64 lo n).sl = s.sl := (rfl)
@[simp] theorem State.bump64_md (s : State) (lo n : Nat) : (s.bump64 lo n).md = s.md := (rfl)
@[simp] theorem State.bump64_ch (s : State) (lo n : Nat) : (s.bump64 lo n).ch = s.ch := (rfl)
@[simp] theorem State.bump64_ix (s : State) (lo n : Nat) : (s.bump64 lo n).ix = s.ix := (rfl)
@[simp] theorem State.bump64_wd (s : State) (lo n : Nat) : (s.bump64 lo n).wd = s.wd := (rfl)
@[simp] theorem State.bump64_sf (s : State) (lo n : Nat) : (s.bump64 lo n).sf = s.sf := (rfl)
@[simp] theorem State.bump64_ct (s : State) (lo n : Nat) : (s.bump64 lo n).ct = s.ct := (rfl)
@[simp] theorem State.bump64_dr (s : State) (lo n : Nat) : (s.bump64 lo n).dr = s.dr := (rfl)
@[simp] theorem State.bump64_tm (s : State) (lo n : Nat) : (s.bump64 lo n).tm = s.tm := (rfl)
@[simp] theorem State.bump64_dm (s : State) (lo n : Nat) : (s.bump64 lo n).dm = s.dm := (rfl)
@[simp] theorem State.bump64_ml (s : State) (lo n : Nat) : (s.bump64 lo n).ml = s.ml := (rfl)
@[simp] theorem State.bump64_pw (s : State) (lo n : Nat) : (s.bump64 lo n).pw = s.pw := (rfl)
@[simp] theorem State.bump64_lc (s : State) (lo n : Nat) : (s.bump64 lo n).lc = s.lc := (rfl)
@[simp] theorem State.bump64_log (s : State) (lo n : Nat) : (s.bump64 lo n).log = s.log := (rfl)
@[simp] theorem State.bump64_out (s : State) (lo n : Nat) : (s.bump64 lo n).out = s.out := (rfl)
@[simp] theorem State.bump64_free (s : State) (lo n : Nat) : (s.bump64 lo n).free = s.free := (rfl)
@[simp] theorem State.bump64_pending (s : State) (lo n : Nat) : (s.bump64 lo n).pending = s.pending := (rfl)

@[simp] theorem State.clearRegs_shadow (s : State) (offs : List Nat) : (s.clearRegs offs).shadow = s.shadow := (rfl)
@[simp] theorem State.clearRegs_staged (s : State) (offs : List Nat) : (s.clearRegs offs).staged = s.staged := (rfl)
@[simp] theorem State.clearRegs_fresh (s : State) (offs : List Nat) : (s.clearRegs offs).fresh = s.fresh := (rfl)
@[simp] theorem State.clearRegs_time (s : State) (offs : List Nat) : (s.clearRegs offs).time = s.time := (rfl)
@[simp] theorem State.clearRegs_cp (s : State) (offs : List Nat) : (s.clearRegs offs).cp = s.cp := (rfl)
@[simp] theorem State.clearRegs_events (s : State) (offs : List Nat) : (s.clearRegs offs).events = s.events := (rfl)
@[simp] theorem State.clearRegs_et (s : State) (offs : List Nat) : (s.clearRegs offs).et = s.et := (rfl)
@[simp] theorem State.clearRegs_mem (s : State) (offs : List Nat) : (s.clearRegs offs).mem = s.mem := (rfl)
@[simp] theorem State.clearRegs_sl (s : State) (offs : List Nat) : (s.clearRegs offs).sl = s.sl := (rfl)
@[simp] theorem State.clearRegs_md (s : State) (offs : List Nat) : (s.clearRegs offs).md = s.md := (rfl)
@[simp] theorem State.clearRegs_ch (s : State) (offs : List Nat) : (s.clearRegs offs).ch = s.ch := (rfl)
@[simp] theorem State.clearRegs_ix (s : State) (offs : List Nat) : (s.clearRegs offs).ix = s.ix := (rfl)
@[simp] theorem State.clearRegs_wd (s : State) (offs : List Nat) : (s.clearRegs offs).wd = s.wd := (rfl)
@[simp] theorem State.clearRegs_sf (s : State) (offs : List Nat) : (s.clearRegs offs).sf = s.sf := (rfl)
@[simp] theorem State.clearRegs_ct (s : State) (offs : List Nat) : (s.clearRegs offs).ct = s.ct := (rfl)
@[simp] theorem State.clearRegs_dr (s : State) (offs : List Nat) : (s.clearRegs offs).dr = s.dr := (rfl)
@[simp] theorem State.clearRegs_tm (s : State) (offs : List Nat) : (s.clearRegs offs).tm = s.tm := (rfl)
@[simp] theorem State.clearRegs_dm (s : State) (offs : List Nat) : (s.clearRegs offs).dm = s.dm := (rfl)
@[simp] theorem State.clearRegs_ml (s : State) (offs : List Nat) : (s.clearRegs offs).ml = s.ml := (rfl)
@[simp] theorem State.clearRegs_pw (s : State) (offs : List Nat) : (s.clearRegs offs).pw = s.pw := (rfl)
@[simp] theorem State.clearRegs_lc (s : State) (offs : List Nat) : (s.clearRegs offs).lc = s.lc := (rfl)
@[simp] theorem State.clearRegs_log (s : State) (offs : List Nat) : (s.clearRegs offs).log = s.log := (rfl)
@[simp] theorem State.clearRegs_out (s : State) (offs : List Nat) : (s.clearRegs offs).out = s.out := (rfl)
@[simp] theorem State.clearRegs_free (s : State) (offs : List Nat) : (s.clearRegs offs).free = s.free := (rfl)
@[simp] theorem State.clearRegs_pending (s : State) (offs : List Nat) : (s.clearRegs offs).pending = s.pending := (rfl)

@[simp] theorem State.nextSync_shadow (s : State) : (s.nextSync).shadow = s.shadow := (rfl)
@[simp] theorem State.nextSync_staged (s : State) : (s.nextSync).staged = s.staged := (rfl)
@[simp] theorem State.nextSync_fresh (s : State) : (s.nextSync).fresh = s.fresh := (rfl)
@[simp] theorem State.nextSync_time (s : State) : (s.nextSync).time = s.time := (rfl)
@[simp] theorem State.nextSync_cp (s : State) : (s.nextSync).cp = s.cp := (rfl)
@[simp] theorem State.nextSync_events (s : State) : (s.nextSync).events = s.events := (rfl)
@[simp] theorem State.nextSync_et (s : State) : (s.nextSync).et = s.et := (rfl)
@[simp] theorem State.nextSync_mem (s : State) : (s.nextSync).mem = s.mem := (rfl)
@[simp] theorem State.nextSync_sl (s : State) : (s.nextSync).sl = s.sl := (rfl)
@[simp] theorem State.nextSync_md (s : State) : (s.nextSync).md = s.md := (rfl)
@[simp] theorem State.nextSync_ch (s : State) : (s.nextSync).ch = s.ch := (rfl)
@[simp] theorem State.nextSync_ix (s : State) : (s.nextSync).ix = s.ix := (rfl)
@[simp] theorem State.nextSync_wd (s : State) : (s.nextSync).wd = s.wd := (rfl)
@[simp] theorem State.nextSync_sf (s : State) : (s.nextSync).sf = s.sf := (rfl)
@[simp] theorem State.nextSync_ct (s : State) : (s.nextSync).ct = s.ct := (rfl)
@[simp] theorem State.nextSync_dr (s : State) : (s.nextSync).dr = s.dr := (rfl)
@[simp] theorem State.nextSync_tm (s : State) : (s.nextSync).tm = s.tm := (rfl)
@[simp] theorem State.nextSync_dm (s : State) : (s.nextSync).dm = s.dm := (rfl)
@[simp] theorem State.nextSync_ml (s : State) : (s.nextSync).ml = s.ml := (rfl)
@[simp] theorem State.nextSync_pw (s : State) : (s.nextSync).pw = s.pw := (rfl)
@[simp] theorem State.nextSync_lc (s : State) : (s.nextSync).lc = s.lc := (rfl)
@[simp] theorem State.nextSync_log (s : State) : (s.nextSync).log = s.log := (rfl)
@[simp] theorem State.nextSync_out (s : State) : (s.nextSync).out = s.out := (rfl)
@[simp] theorem State.nextSync_free (s : State) : (s.nextSync).free = s.free := (rfl)
@[simp] theorem State.nextSync_pending (s : State) : (s.nextSync).pending = s.pending := (rfl)

@[simp] theorem State.memWrite_regs (s : State) (a : Nat) (bs : List Byte) : (s.memWrite a bs).regs = s.regs := (rfl)
@[simp] theorem State.memWrite_shadow (s : State) (a : Nat) (bs : List Byte) : (s.memWrite a bs).shadow = s.shadow := (rfl)
@[simp] theorem State.memWrite_staged (s : State) (a : Nat) (bs : List Byte) : (s.memWrite a bs).staged = s.staged := (rfl)
@[simp] theorem State.memWrite_fresh (s : State) (a : Nat) (bs : List Byte) : (s.memWrite a bs).fresh = s.fresh := (rfl)
@[simp] theorem State.memWrite_time (s : State) (a : Nat) (bs : List Byte) : (s.memWrite a bs).time = s.time := (rfl)
@[simp] theorem State.memWrite_cp (s : State) (a : Nat) (bs : List Byte) : (s.memWrite a bs).cp = s.cp := (rfl)
@[simp] theorem State.memWrite_events (s : State) (a : Nat) (bs : List Byte) : (s.memWrite a bs).events = s.events := (rfl)
@[simp] theorem State.memWrite_et (s : State) (a : Nat) (bs : List Byte) : (s.memWrite a bs).et = s.et := (rfl)
@[simp] theorem State.memWrite_sl (s : State) (a : Nat) (bs : List Byte) : (s.memWrite a bs).sl = s.sl := (rfl)
@[simp] theorem State.memWrite_md (s : State) (a : Nat) (bs : List Byte) : (s.memWrite a bs).md = s.md := (rfl)
@[simp] theorem State.memWrite_ch (s : State) (a : Nat) (bs : List Byte) : (s.memWrite a bs).ch = s.ch := (rfl)
@[simp] theorem State.memWrite_ix (s : State) (a : Nat) (bs : List Byte) : (s.memWrite a bs).ix = s.ix := (rfl)
@[simp] theorem State.memWrite_wd (s : State) (a : Nat) (bs : List Byte) : (s.memWrite a bs).wd = s.wd := (rfl)
@[simp] theorem State.memWrite_sf (s : State) (a : Nat) (bs : List Byte) : (s.memWrite a bs).sf = s.sf := (rfl)
@[simp] theorem State.memWrite_ct (s : State) (a : Nat) (bs : List Byte) : (s.memWrite a bs).ct = s.ct := (rfl)
@[simp] theorem State.memWrite_dr (s : State) (a : Nat) (bs : List Byte) : (s.memWrite a bs).dr = s.dr := (rfl)
@[simp] theorem State.memWrite_tm (s : State) (a : Nat) (bs : List Byte) : (s.memWrite a bs).tm = s.tm := (rfl)
@[simp] theorem State.memWrite_dm (s : State) (a : Nat) (bs : List Byte) : (s.memWrite a bs).dm = s.dm := (rfl)
@[simp] theorem State.memWrite_ml (s : State) (a : Nat) (bs : List Byte) : (s.memWrite a bs).ml = s.ml := (rfl)
@[simp] theorem State.memWrite_pw (s : State) (a : Nat) (bs : List Byte) : (s.memWrite a bs).pw = s.pw := (rfl)
@[simp] theorem State.memWrite_lc (s : State) (a : Nat) (bs : List Byte) : (s.memWrite a bs).lc = s.lc := (rfl)
@[simp] theorem State.memWrite_log (s : State) (a : Nat) (bs : List Byte) : (s.memWrite a bs).log = s.log := (rfl)
@[simp] theorem State.memWrite_out (s : State) (a : Nat) (bs : List Byte) : (s.memWrite a bs).out = s.out := (rfl)
@[simp] theorem State.memWrite_free (s : State) (a : Nat) (bs : List Byte) : (s.memWrite a bs).free = s.free := (rfl)
@[simp] theorem State.memWrite_pending (s : State) (a : Nat) (bs : List Byte) : (s.memWrite a bs).pending = s.pending := (rfl)

@[simp] theorem State.emit_regs (s : State) (x : Out) : (s.emit x).regs = s.regs := (rfl)
@[simp] theorem State.emit_shadow (s : State) (x : Out) : (s.emit x).shadow = s.shadow := (rfl)
@[simp] theorem State.emit_staged (s : State) (x : Out) : (s.emit x).staged = s.staged := (rfl)
@[simp] theorem State.emit_fresh (s : State) (x : Out) : (s.emit x).fresh = s.fresh := (rfl)
@[simp] theorem State.emit_time (s : State) (x : Out) : (s.emit x).time = s.time := (rfl)
@[simp] theorem State.emit_cp (s : State) (x : Out) : (s.emit x).cp = s.cp := (rfl)
@[simp] theorem State.emit_events (s : State) (x : Out) : (s.emit x).events = s.events := (rfl)
@[simp] theorem State.emit_et (s : State) (x : Out) : (s.emit x).et = s.et := (rfl)
@[simp] theorem State.emit_mem (s : State) (x : Out) : (s.emit x).mem = s.mem := (rfl)
@[simp] theorem State.emit_sl (s : State) (x : Out) : (s.emit x).sl = s.sl := (rfl)
@[simp] theorem State.emit_md (s : State) (x : Out) : (s.emit x).md = s.md := (rfl)
@[simp] theorem State.emit_ch (s : State) (x : Out) : (s.emit x).ch = s.ch := (rfl)
@[simp] theorem State.emit_ix (s : State) (x : Out) : (s.emit x).ix = s.ix := (rfl)
@[simp] theorem State.emit_wd (s : State) (x : Out) : (s.emit x).wd = s.wd := (rfl)
@[simp] theorem State.emit_sf (s : State) (x : Out) : (s.emit x).sf = s.sf := (rfl)
@[simp] theorem State.emit_ct (s : State) (x : Out) : (s.emit x).ct = s.ct := (rfl)
@[simp] theorem State.emit_dr (s : State) (x : Out) : (s.emit x).dr = s.dr := (rfl)
@[simp] theorem State.emit_tm (s : State) (x : Out) : (s.emit x).tm = s.tm := (rfl)
@[simp] theorem State.emit_dm (s : State) (x : Out) : (s.emit x).dm = s.dm := (rfl)
@[simp] theorem State.emit_ml (s : State) (x : Out) : (s.emit x).ml = s.ml := (rfl)
@[simp] theorem State.emit_pw (s : State) (x : Out) : (s.emit x).pw = s.pw := (rfl)
@[simp] theorem State.emit_lc (s : State) (x : Out) : (s.emit x).lc = s.lc := (rfl)
@[simp] theorem State.emit_log (s : State) (x : Out) : (s.emit x).log = s.log := (rfl)
@[simp] theorem State.emit_free (s : State) (x : Out) : (s.emit x).free = s.free := (rfl)
@[simp] theorem State.emit_pending (s : State) (x : Out) : (s.emit x).pending = s.pending := (rfl)

@[simp] theorem State.draw_regs (s : State) : (s.draw).regs = s.regs := (rfl)
@[simp] theorem State.draw_shadow (s : State) : (s.draw).shadow = s.shadow := (rfl)
@[simp] theorem State.draw_staged (s : State) : (s.draw).staged = s.staged := (rfl)
@[simp] theorem State.draw_fresh (s : State) : (s.draw).fresh = s.fresh := (rfl)
@[simp] theorem State.draw_time (s : State) : (s.draw).time = s.time := (rfl)
@[simp] theorem State.draw_cp (s : State) : (s.draw).cp = s.cp := (rfl)
@[simp] theorem State.draw_events (s : State) : (s.draw).events = s.events := (rfl)
@[simp] theorem State.draw_et (s : State) : (s.draw).et = s.et := (rfl)
@[simp] theorem State.draw_mem (s : State) : (s.draw).mem = s.mem := (rfl)
@[simp] theorem State.draw_sl (s : State) : (s.draw).sl = s.sl := (rfl)
@[simp] theorem State.draw_md (s : State) : (s.draw).md = s.md := (rfl)
@[simp] theorem State.draw_ch (s : State) : (s.draw).ch = s.ch := (rfl)
@[simp] theorem State.draw_ix (s : State) : (s.draw).ix = s.ix := (rfl)
@[simp] theorem State.draw_wd (s : State) : (s.draw).wd = s.wd := (rfl)
@[simp] theorem State.draw_sf (s : State) : (s.draw).sf = s.sf := (rfl)
@[simp] theorem State.draw_ct (s : State) : (s.draw).ct = s.ct := (rfl)
@[simp] theorem State.draw_dr (s : State) : (s.draw).dr = s.dr := (rfl)
@[simp] theorem State.draw_tm (s : State) : (s.draw).tm = s.tm := (rfl)
@[simp] theorem State.draw_dm (s : State) : (s.draw).dm = s.dm := (rfl)
@[simp] theorem State.draw_ml (s : State) : (s.draw).ml = s.ml := (rfl)
@[simp] theorem State.draw_pw (s : State) : (s.draw).pw = s.pw := (rfl)
@[simp] theorem State.draw_lc (s : State) : (s.draw).lc = s.lc := (rfl)
@[simp] theorem State.draw_log (s : State) : (s.draw).log = s.log := (rfl)
@[simp] theorem State.draw_out (s : State) : (s.draw).out = s.out := (rfl)
@[simp] theorem State.draw_pending (s : State) : (s.draw).pending = s.pending := (rfl)

@[simp] theorem State.config_shadow (s : State) (off : Nat) (v : Word) : (s.config off v).shadow = s.shadow := by unfold State.config; split <;> rfl
@[simp] theorem State.config_staged (s : State) (off : Nat) (v : Word) : (s.config off v).staged = s.staged := by unfold State.config; split <;> rfl
@[simp] theorem State.config_fresh (s : State) (off : Nat) (v : Word) : (s.config off v).fresh = s.fresh := by unfold State.config; split <;> rfl
@[simp] theorem State.config_time (s : State) (off : Nat) (v : Word) : (s.config off v).time = s.time := by unfold State.config; split <;> rfl
@[simp] theorem State.config_cp (s : State) (off : Nat) (v : Word) : (s.config off v).cp = s.cp := by unfold State.config; split <;> rfl
@[simp] theorem State.config_events (s : State) (off : Nat) (v : Word) : (s.config off v).events = s.events := by unfold State.config; split <;> rfl
@[simp] theorem State.config_et (s : State) (off : Nat) (v : Word) : (s.config off v).et = s.et := by unfold State.config; split <;> rfl
@[simp] theorem State.config_mem (s : State) (off : Nat) (v : Word) : (s.config off v).mem = s.mem := by unfold State.config; split <;> rfl
@[simp] theorem State.config_sl (s : State) (off : Nat) (v : Word) : (s.config off v).sl = s.sl := by unfold State.config; split <;> rfl
@[simp] theorem State.config_md (s : State) (off : Nat) (v : Word) : (s.config off v).md = s.md := by unfold State.config; split <;> rfl
@[simp] theorem State.config_ch (s : State) (off : Nat) (v : Word) : (s.config off v).ch = s.ch := by unfold State.config; split <;> rfl
@[simp] theorem State.config_ix (s : State) (off : Nat) (v : Word) : (s.config off v).ix = s.ix := by unfold State.config; split <;> rfl
@[simp] theorem State.config_wd (s : State) (off : Nat) (v : Word) : (s.config off v).wd = s.wd := by unfold State.config; split <;> rfl
@[simp] theorem State.config_sf (s : State) (off : Nat) (v : Word) : (s.config off v).sf = s.sf := by unfold State.config; split <;> rfl
@[simp] theorem State.config_ct (s : State) (off : Nat) (v : Word) : (s.config off v).ct = s.ct := by unfold State.config; split <;> rfl
@[simp] theorem State.config_dr (s : State) (off : Nat) (v : Word) : (s.config off v).dr = s.dr := by unfold State.config; split <;> rfl
@[simp] theorem State.config_tm (s : State) (off : Nat) (v : Word) : (s.config off v).tm = s.tm := by unfold State.config; split <;> rfl
@[simp] theorem State.config_dm (s : State) (off : Nat) (v : Word) : (s.config off v).dm = s.dm := by unfold State.config; split <;> rfl
@[simp] theorem State.config_ml (s : State) (off : Nat) (v : Word) : (s.config off v).ml = s.ml := by unfold State.config; split <;> rfl
@[simp] theorem State.config_pw (s : State) (off : Nat) (v : Word) : (s.config off v).pw = s.pw := by unfold State.config; split <;> rfl
@[simp] theorem State.config_lc (s : State) (off : Nat) (v : Word) : (s.config off v).lc = s.lc := by unfold State.config; split <;> rfl
@[simp] theorem State.config_log (s : State) (off : Nat) (v : Word) : (s.config off v).log = s.log := by unfold State.config; split <;> rfl
@[simp] theorem State.config_out (s : State) (off : Nat) (v : Word) : (s.config off v).out = s.out := by unfold State.config; split <;> rfl
@[simp] theorem State.config_free (s : State) (off : Nat) (v : Word) : (s.config off v).free = s.free := by unfold State.config; split <;> rfl
@[simp] theorem State.config_pending (s : State) (off : Nat) (v : Word) : (s.config off v).pending = s.pending := by unfold State.config; split <;> rfl

theorem State.configAll_eq (ps : List (Nat × Word)) : ∀ s : State, ∃ r, s.configAll ps = { s with regs := r } := by
  induction ps with
  | nil => intro s; exact ⟨s.regs, rfl⟩
  | cons p ps ih =>
    intro s
    obtain ⟨r, hr⟩ := ih (s.config p.1 p.2)
    refine ⟨r, ?_⟩
    rw [State.configAll, hr]
    unfold State.config
    split <;> rfl

@[simp] theorem State.configAll_shadow (s : State) (ps : List (Nat × Word)) : (s.configAll ps).shadow = s.shadow := by obtain ⟨r, hr⟩ := s.configAll_eq ps; rw [hr]
@[simp] theorem State.configAll_staged (s : State) (ps : List (Nat × Word)) : (s.configAll ps).staged = s.staged := by obtain ⟨r, hr⟩ := s.configAll_eq ps; rw [hr]
@[simp] theorem State.configAll_fresh (s : State) (ps : List (Nat × Word)) : (s.configAll ps).fresh = s.fresh := by obtain ⟨r, hr⟩ := s.configAll_eq ps; rw [hr]
@[simp] theorem State.configAll_time (s : State) (ps : List (Nat × Word)) : (s.configAll ps).time = s.time := by obtain ⟨r, hr⟩ := s.configAll_eq ps; rw [hr]
@[simp] theorem State.configAll_cp (s : State) (ps : List (Nat × Word)) : (s.configAll ps).cp = s.cp := by obtain ⟨r, hr⟩ := s.configAll_eq ps; rw [hr]
@[simp] theorem State.configAll_events (s : State) (ps : List (Nat × Word)) : (s.configAll ps).events = s.events := by obtain ⟨r, hr⟩ := s.configAll_eq ps; rw [hr]
@[simp] theorem State.configAll_et (s : State) (ps : List (Nat × Word)) : (s.configAll ps).et = s.et := by obtain ⟨r, hr⟩ := s.configAll_eq ps; rw [hr]
@[simp] theorem State.configAll_mem (s : State) (ps : List (Nat × Word)) : (s.configAll ps).mem = s.mem := by obtain ⟨r, hr⟩ := s.configAll_eq ps; rw [hr]
@[simp] theorem State.configAll_sl (s : State) (ps : List (Nat × Word)) : (s.configAll ps).sl = s.sl := by obtain ⟨r, hr⟩ := s.configAll_eq ps; rw [hr]
@[simp] theorem State.configAll_md (s : State) (ps : List (Nat × Word)) : (s.configAll ps).md = s.md := by obtain ⟨r, hr⟩ := s.configAll_eq ps; rw [hr]
@[simp] theorem State.configAll_ch (s : State) (ps : List (Nat × Word)) : (s.configAll ps).ch = s.ch := by obtain ⟨r, hr⟩ := s.configAll_eq ps; rw [hr]
@[simp] theorem State.configAll_ix (s : State) (ps : List (Nat × Word)) : (s.configAll ps).ix = s.ix := by obtain ⟨r, hr⟩ := s.configAll_eq ps; rw [hr]
@[simp] theorem State.configAll_wd (s : State) (ps : List (Nat × Word)) : (s.configAll ps).wd = s.wd := by obtain ⟨r, hr⟩ := s.configAll_eq ps; rw [hr]
@[simp] theorem State.configAll_sf (s : State) (ps : List (Nat × Word)) : (s.configAll ps).sf = s.sf := by obtain ⟨r, hr⟩ := s.configAll_eq ps; rw [hr]
@[simp] theorem State.configAll_ct (s : State) (ps : List (Nat × Word)) : (s.configAll ps).ct = s.ct := by obtain ⟨r, hr⟩ := s.configAll_eq ps; rw [hr]
@[simp] theorem State.configAll_dr (s : State) (ps : List (Nat × Word)) : (s.configAll ps).dr = s.dr := by obtain ⟨r, hr⟩ := s.configAll_eq ps; rw [hr]
@[simp] theorem State.configAll_tm (s : State) (ps : List (Nat × Word)) : (s.configAll ps).tm = s.tm := by obtain ⟨r, hr⟩ := s.configAll_eq ps; rw [hr]
@[simp] theorem State.configAll_dm (s : State) (ps : List (Nat × Word)) : (s.configAll ps).dm = s.dm := by obtain ⟨r, hr⟩ := s.configAll_eq ps; rw [hr]
@[simp] theorem State.configAll_ml (s : State) (ps : List (Nat × Word)) : (s.configAll ps).ml = s.ml := by obtain ⟨r, hr⟩ := s.configAll_eq ps; rw [hr]
@[simp] theorem State.configAll_pw (s : State) (ps : List (Nat × Word)) : (s.configAll ps).pw = s.pw := by obtain ⟨r, hr⟩ := s.configAll_eq ps; rw [hr]
@[simp] theorem State.configAll_lc (s : State) (ps : List (Nat × Word)) : (s.configAll ps).lc = s.lc := by obtain ⟨r, hr⟩ := s.configAll_eq ps; rw [hr]
@[simp] theorem State.configAll_log (s : State) (ps : List (Nat × Word)) : (s.configAll ps).log = s.log := by obtain ⟨r, hr⟩ := s.configAll_eq ps; rw [hr]
@[simp] theorem State.configAll_out (s : State) (ps : List (Nat × Word)) : (s.configAll ps).out = s.out := by obtain ⟨r, hr⟩ := s.configAll_eq ps; rw [hr]
@[simp] theorem State.configAll_free (s : State) (ps : List (Nat × Word)) : (s.configAll ps).free = s.free := by obtain ⟨r, hr⟩ := s.configAll_eq ps; rw [hr]
@[simp] theorem State.configAll_pending (s : State) (ps : List (Nat × Word)) : (s.configAll ps).pending = s.pending := by obtain ⟨r, hr⟩ := s.configAll_eq ps; rw [hr]

@[simp] theorem State.signal_shadow (s : State) (v : Nat) : (s.signal v).shadow = s.shadow := by unfold State.signal; split <;> rfl
@[simp] theorem State.signal_staged (s : State) (v : Nat) : (s.signal v).staged = s.staged := by unfold State.signal; split <;> rfl
@[simp] theorem State.signal_fresh (s : State) (v : Nat) : (s.signal v).fresh = s.fresh := by unfold State.signal; split <;> rfl
@[simp] theorem State.signal_time (s : State) (v : Nat) : (s.signal v).time = s.time := by unfold State.signal; split <;> rfl
@[simp] theorem State.signal_cp (s : State) (v : Nat) : (s.signal v).cp = s.cp := by unfold State.signal; split <;> rfl
@[simp] theorem State.signal_events (s : State) (v : Nat) : (s.signal v).events = s.events := by unfold State.signal; split <;> rfl
@[simp] theorem State.signal_et (s : State) (v : Nat) : (s.signal v).et = s.et := by unfold State.signal; split <;> rfl
@[simp] theorem State.signal_mem (s : State) (v : Nat) : (s.signal v).mem = s.mem := by unfold State.signal; split <;> rfl
@[simp] theorem State.signal_sl (s : State) (v : Nat) : (s.signal v).sl = s.sl := by unfold State.signal; split <;> rfl
@[simp] theorem State.signal_md (s : State) (v : Nat) : (s.signal v).md = s.md := by unfold State.signal; split <;> rfl
@[simp] theorem State.signal_ch (s : State) (v : Nat) : (s.signal v).ch = s.ch := by unfold State.signal; split <;> rfl
@[simp] theorem State.signal_ix (s : State) (v : Nat) : (s.signal v).ix = s.ix := by unfold State.signal; split <;> rfl
@[simp] theorem State.signal_wd (s : State) (v : Nat) : (s.signal v).wd = s.wd := by unfold State.signal; split <;> rfl
@[simp] theorem State.signal_sf (s : State) (v : Nat) : (s.signal v).sf = s.sf := by unfold State.signal; split <;> rfl
@[simp] theorem State.signal_ct (s : State) (v : Nat) : (s.signal v).ct = s.ct := by unfold State.signal; split <;> rfl
@[simp] theorem State.signal_dr (s : State) (v : Nat) : (s.signal v).dr = s.dr := by unfold State.signal; split <;> rfl
@[simp] theorem State.signal_tm (s : State) (v : Nat) : (s.signal v).tm = s.tm := by unfold State.signal; split <;> rfl
@[simp] theorem State.signal_dm (s : State) (v : Nat) : (s.signal v).dm = s.dm := by unfold State.signal; split <;> rfl
@[simp] theorem State.signal_ml (s : State) (v : Nat) : (s.signal v).ml = s.ml := by unfold State.signal; split <;> rfl
@[simp] theorem State.signal_pw (s : State) (v : Nat) : (s.signal v).pw = s.pw := by unfold State.signal; split <;> rfl
@[simp] theorem State.signal_lc (s : State) (v : Nat) : (s.signal v).lc = s.lc := by unfold State.signal; split <;> rfl
@[simp] theorem State.signal_log (s : State) (v : Nat) : (s.signal v).log = s.log := by unfold State.signal; split <;> rfl
@[simp] theorem State.signal_free (s : State) (v : Nat) : (s.signal v).free = s.free := by unfold State.signal; split <;> rfl
@[simp] theorem State.signal_pending (s : State) (v : Nat) : (s.signal v).pending = s.pending := by unfold State.signal; split <;> rfl

@[simp] theorem State.note_shadow (s : State) (off : Nat) (w : Word) : (s.note off w).shadow = s.shadow := (rfl)
@[simp] theorem State.note_staged (s : State) (off : Nat) (w : Word) : (s.note off w).staged = s.staged := (rfl)
@[simp] theorem State.note_time (s : State) (off : Nat) (w : Word) : (s.note off w).time = s.time := (rfl)
@[simp] theorem State.note_cp (s : State) (off : Nat) (w : Word) : (s.note off w).cp = s.cp := (rfl)
@[simp] theorem State.note_events (s : State) (off : Nat) (w : Word) : (s.note off w).events = s.events := (rfl)
@[simp] theorem State.note_et (s : State) (off : Nat) (w : Word) : (s.note off w).et = s.et := (rfl)
@[simp] theorem State.note_mem (s : State) (off : Nat) (w : Word) : (s.note off w).mem = s.mem := (rfl)
@[simp] theorem State.note_sl (s : State) (off : Nat) (w : Word) : (s.note off w).sl = s.sl := (rfl)
@[simp] theorem State.note_md (s : State) (off : Nat) (w : Word) : (s.note off w).md = s.md := (rfl)
@[simp] theorem State.note_ch (s : State) (off : Nat) (w : Word) : (s.note off w).ch = s.ch := (rfl)
@[simp] theorem State.note_ix (s : State) (off : Nat) (w : Word) : (s.note off w).ix = s.ix := (rfl)
@[simp] theorem State.note_wd (s : State) (off : Nat) (w : Word) : (s.note off w).wd = s.wd := (rfl)
@[simp] theorem State.note_sf (s : State) (off : Nat) (w : Word) : (s.note off w).sf = s.sf := (rfl)
@[simp] theorem State.note_ct (s : State) (off : Nat) (w : Word) : (s.note off w).ct = s.ct := (rfl)
@[simp] theorem State.note_dr (s : State) (off : Nat) (w : Word) : (s.note off w).dr = s.dr := (rfl)
@[simp] theorem State.note_tm (s : State) (off : Nat) (w : Word) : (s.note off w).tm = s.tm := (rfl)
@[simp] theorem State.note_dm (s : State) (off : Nat) (w : Word) : (s.note off w).dm = s.dm := (rfl)
@[simp] theorem State.note_ml (s : State) (off : Nat) (w : Word) : (s.note off w).ml = s.ml := (rfl)
@[simp] theorem State.note_pw (s : State) (off : Nat) (w : Word) : (s.note off w).pw = s.pw := (rfl)
@[simp] theorem State.note_lc (s : State) (off : Nat) (w : Word) : (s.note off w).lc = s.lc := (rfl)
@[simp] theorem State.note_log (s : State) (off : Nat) (w : Word) : (s.note off w).log = s.log := (rfl)
@[simp] theorem State.note_out (s : State) (off : Nat) (w : Word) : (s.note off w).out = s.out := (rfl)
@[simp] theorem State.note_free (s : State) (off : Nat) (w : Word) : (s.note off w).free = s.free := (rfl)
@[simp] theorem State.note_pending (s : State) (off : Nat) (w : Word) : (s.note off w).pending = s.pending := (rfl)
@[simp] theorem State.note_regs (s : State) (off : Nat) (w : Word) : (s.note off w).regs = s.regs := (rfl)

@[simp] theorem State.setSeen_shadow (s : State) (off : Nat) (f : Fld) (v : Nat) : (s.setSeen off f v).shadow = s.shadow := (rfl)
@[simp] theorem State.setSeen_staged (s : State) (off : Nat) (f : Fld) (v : Nat) : (s.setSeen off f v).staged = s.staged := (rfl)
@[simp] theorem State.setSeen_time (s : State) (off : Nat) (f : Fld) (v : Nat) : (s.setSeen off f v).time = s.time := (rfl)
@[simp] theorem State.setSeen_cp (s : State) (off : Nat) (f : Fld) (v : Nat) : (s.setSeen off f v).cp = s.cp := (rfl)
@[simp] theorem State.setSeen_events (s : State) (off : Nat) (f : Fld) (v : Nat) : (s.setSeen off f v).events = s.events := (rfl)
@[simp] theorem State.setSeen_et (s : State) (off : Nat) (f : Fld) (v : Nat) : (s.setSeen off f v).et = s.et := (rfl)
@[simp] theorem State.setSeen_mem (s : State) (off : Nat) (f : Fld) (v : Nat) : (s.setSeen off f v).mem = s.mem := (rfl)
@[simp] theorem State.setSeen_sl (s : State) (off : Nat) (f : Fld) (v : Nat) : (s.setSeen off f v).sl = s.sl := (rfl)
@[simp] theorem State.setSeen_md (s : State) (off : Nat) (f : Fld) (v : Nat) : (s.setSeen off f v).md = s.md := (rfl)
@[simp] theorem State.setSeen_ch (s : State) (off : Nat) (f : Fld) (v : Nat) : (s.setSeen off f v).ch = s.ch := (rfl)
@[simp] theorem State.setSeen_ix (s : State) (off : Nat) (f : Fld) (v : Nat) : (s.setSeen off f v).ix = s.ix := (rfl)
@[simp] theorem State.setSeen_wd (s : State) (off : Nat) (f : Fld) (v : Nat) : (s.setSeen off f v).wd = s.wd := (rfl)
@[simp] theorem State.setSeen_sf (s : State) (off : Nat) (f : Fld) (v : Nat) : (s.setSeen off f v).sf = s.sf := (rfl)
@[simp] theorem State.setSeen_ct (s : State) (off : Nat) (f : Fld) (v : Nat) : (s.setSeen off f v).ct = s.ct := (rfl)
@[simp] theorem State.setSeen_dr (s : State) (off : Nat) (f : Fld) (v : Nat) : (s.setSeen off f v).dr = s.dr := (rfl)
@[simp] theorem State.setSeen_tm (s : State) (off : Nat) (f : Fld) (v : Nat) : (s.setSeen off f v).tm = s.tm := (rfl)
@[simp] theorem State.setSeen_dm (s : State) (off : Nat) (f : Fld) (v : Nat) : (s.setSeen off f v).dm = s.dm := (rfl)
@[simp] theorem State.setSeen_ml (s : State) (off : Nat) (f : Fld) (v : Nat) : (s.setSeen off f v).ml = s.ml := (rfl)
@[simp] theorem State.setSeen_pw (s : State) (off : Nat) (f : Fld) (v : Nat) : (s.setSeen off f v).pw = s.pw := (rfl)
@[simp] theorem State.setSeen_lc (s : State) (off : Nat) (f : Fld) (v : Nat) : (s.setSeen off f v).lc = s.lc := (rfl)
@[simp] theorem State.setSeen_log (s : State) (off : Nat) (f : Fld) (v : Nat) : (s.setSeen off f v).log = s.log := (rfl)
@[simp] theorem State.setSeen_out (s : State) (off : Nat) (f : Fld) (v : Nat) : (s.setSeen off f v).out = s.out := (rfl)
@[simp] theorem State.setSeen_free (s : State) (off : Nat) (f : Fld) (v : Nat) : (s.setSeen off f v).free = s.free := (rfl)
@[simp] theorem State.setSeen_pending (s : State) (off : Nat) (f : Fld) (v : Nat) : (s.setSeen off f v).pending = s.pending := (rfl)

@[simp] theorem State.setSeenB_shadow (s : State) (off : Nat) (f : Fld) (i : Nat) : (s.setSeenB off f i).shadow = s.shadow := (rfl)
@[simp] theorem State.setSeenB_staged (s : State) (off : Nat) (f : Fld) (i : Nat) : (s.setSeenB off f i).staged = s.staged := (rfl)
@[simp] theorem State.setSeenB_time (s : State) (off : Nat) (f : Fld) (i : Nat) : (s.setSeenB off f i).time = s.time := (rfl)
@[simp] theorem State.setSeenB_cp (s : State) (off : Nat) (f : Fld) (i : Nat) : (s.setSeenB off f i).cp = s.cp := (rfl)
@[simp] theorem State.setSeenB_events (s : State) (off : Nat) (f : Fld) (i : Nat) : (s.setSeenB off f i).events = s.events := (rfl)
@[simp] theorem State.setSeenB_et (s : State) (off : Nat) (f : Fld) (i : Nat) : (s.setSeenB off f i).et = s.et := (rfl)
@[simp] theorem State.setSeenB_mem (s : State) (off : Nat) (f : Fld) (i : Nat) : (s.setSeenB off f i).mem = s.mem := (rfl)
@[simp] theorem State.setSeenB_sl (s : State) (off : Nat) (f : Fld) (i : Nat) : (s.setSeenB off f i).sl = s.sl := (rfl)
@[simp] theorem State.setSeenB_md (s : State) (off : Nat) (f : Fld) (i : Nat) : (s.setSeenB off f i).md = s.md := (rfl)
@[simp] theorem State.setSeenB_ch (s : State) (off : Nat) (f : Fld) (i : Nat) : (s.setSeenB off f i).ch = s.ch := (rfl)
@[simp] theorem State.setSeenB_ix (s : State) (off : Nat) (f : Fld) (i : Nat) : (s.setSeenB off f i).ix = s.ix := (rfl)
@[simp] theorem State.setSeenB_wd (s : State) (off : Nat) (f : Fld) (i : Nat) : (s.setSeenB off f i).wd = s.wd := (rfl)
@[simp] theorem State.setSeenB_sf (s : State) (off : Nat) (f : Fld) (i : Nat) : (s.setSeenB off f i).sf = s.sf := (rfl)
@[simp] theorem State.setSeenB_ct (s : State) (off : Nat) (f : Fld) (i : Nat) : (s.setSeenB off f i).ct = s.ct := (rfl)
@[simp] theorem State.setSeenB_dr (s : State) (off : Nat) (f : Fld) (i : Nat) : (s.setSeenB off f i).dr = s.dr := (rfl)
@[simp] theorem State.setSeenB_tm (s : State) (off : Nat) (f : Fld) (i : Nat) : (s.setSeenB off f i).tm = s.tm := (rfl)
@[simp] theorem State.setSeenB_dm (s : State) (off : Nat) (f : Fld) (i : Nat) : (s.setSeenB off f i).dm = s.dm := (rfl)
@[simp] theorem State.setSeenB_ml (s : State) (off : Nat) (f : Fld) (i : Nat) : (s.setSeenB off f i).ml = s.ml := (rfl)
@[simp] theorem State.setSeenB_pw (s : State) (off : Nat) (f : Fld) (i : Nat) : (s.setSeenB off f i).pw = s.pw := (rfl)
@[simp] theorem State.setSeenB_lc (s : State) (off : Nat) (f : Fld) (i : Nat) : (s.setSeenB off f i).lc = s.lc := (rfl)
@[simp] theorem State.setSeenB_log (s : State) (off : Nat) (f : Fld) (i : Nat) : (s.setSeenB off f i).log = s.log := (rfl)
@[simp] theorem State.setSeenB_out (s : State) (off : Nat) (f : Fld) (i : Nat) : (s.setSeenB off f i).out = s.out := (rfl)
@[simp] theorem State.setSeenB_free (s : State) (off : Nat) (f : Fld) (i : Nat) : (s.setSeenB off f i).free = s.free := (rfl)
@[simp] theorem State.setSeenB_pending (s : State) (off : Nat) (f : Fld) (i : Nat) : (s.setSeenB off f i).pending = s.pending := (rfl)

@[simp] theorem State.clearCount_shadow (s : State) (off : Nat) (f : Fld) : (s.clearCount off f).shadow = s.shadow := (rfl)
@[simp] theorem State.clearCount_staged (s : State) (off : Nat) (f : Fld) : (s.clearCount off f).staged = s.staged := (rfl)
@[simp] theorem State.clearCount_time (s : State) (off : Nat) (f : Fld) : (s.clearCount off f).time = s.time := (rfl)
@[simp] theorem State.clearCount_cp (s : State) (off : Nat) (f : Fld) : (s.clearCount off f).cp = s.cp := (rfl)
@[simp] theorem State.clearCount_events (s : State) (off : Nat) (f : Fld) : (s.clearCount off f).events = s.events := (rfl)
@[simp] theorem State.clearCount_et (s : State) (off : Nat) (f : Fld) : (s.clearCount off f).et = s.et := (rfl)
@[simp] theorem State.clearCount_mem (s : State) (off : Nat) (f : Fld) : (s.clearCount off f).mem = s.mem := (rfl)
@[simp] theorem State.clearCount_sl (s : State) (off : Nat) (f : Fld) : (s.clearCount off f).sl = s.sl := (rfl)
@[simp] theorem State.clearCount_md (s : State) (off : Nat) (f : Fld) : (s.clearCount off f).md = s.md := (rfl)
@[simp] theorem State.clearCount_ch (s : State) (off : Nat) (f : Fld) : (s.clearCount off f).ch = s.ch := (rfl)
@[simp] theorem State.clearCount_ix (s : State) (off : Nat) (f : Fld) : (s.clearCount off f).ix = s.ix := (rfl)
@[simp] theorem State.clearCount_wd (s : State) (off : Nat) (f : Fld) : (s.clearCount off f).wd = s.wd := (rfl)
@[simp] theorem State.clearCount_sf (s : State) (off : Nat) (f : Fld) : (s.clearCount off f).sf = s.sf := (rfl)
@[simp] theorem State.clearCount_ct (s : State) (off : Nat) (f : Fld) : (s.clearCount off f).ct = s.ct := (rfl)
@[simp] theorem State.clearCount_dr (s : State) (off : Nat) (f : Fld) : (s.clearCount off f).dr = s.dr := (rfl)
@[simp] theorem State.clearCount_tm (s : State) (off : Nat) (f : Fld) : (s.clearCount off f).tm = s.tm := (rfl)
@[simp] theorem State.clearCount_dm (s : State) (off : Nat) (f : Fld) : (s.clearCount off f).dm = s.dm := (rfl)
@[simp] theorem State.clearCount_ml (s : State) (off : Nat) (f : Fld) : (s.clearCount off f).ml = s.ml := (rfl)
@[simp] theorem State.clearCount_pw (s : State) (off : Nat) (f : Fld) : (s.clearCount off f).pw = s.pw := (rfl)
@[simp] theorem State.clearCount_lc (s : State) (off : Nat) (f : Fld) : (s.clearCount off f).lc = s.lc := (rfl)
@[simp] theorem State.clearCount_log (s : State) (off : Nat) (f : Fld) : (s.clearCount off f).log = s.log := (rfl)
@[simp] theorem State.clearCount_out (s : State) (off : Nat) (f : Fld) : (s.clearCount off f).out = s.out := (rfl)
@[simp] theorem State.clearCount_free (s : State) (off : Nat) (f : Fld) : (s.clearCount off f).free = s.free := (rfl)
@[simp] theorem State.clearCount_pending (s : State) (off : Nat) (f : Fld) : (s.clearCount off f).pending = s.pending := (rfl)
@[simp] theorem State.clearCount_fresh (s : State) (off : Nat) (f : Fld) : (s.clearCount off f).fresh = s.fresh := (rfl)

@[simp] theorem State.clearCounters_shadow (s : State) (offs : List Nat) : (s.clearCounters offs).shadow = s.shadow := (rfl)
@[simp] theorem State.clearCounters_staged (s : State) (offs : List Nat) : (s.clearCounters offs).staged = s.staged := (rfl)
@[simp] theorem State.clearCounters_time (s : State) (offs : List Nat) : (s.clearCounters offs).time = s.time := (rfl)
@[simp] theorem State.clearCounters_cp (s : State) (offs : List Nat) : (s.clearCounters offs).cp = s.cp := (rfl)
@[simp] theorem State.clearCounters_events (s : State) (offs : List Nat) : (s.clearCounters offs).events = s.events := (rfl)
@[simp] theorem State.clearCounters_et (s : State) (offs : List Nat) : (s.clearCounters offs).et = s.et := (rfl)
@[simp] theorem State.clearCounters_mem (s : State) (offs : List Nat) : (s.clearCounters offs).mem = s.mem := (rfl)
@[simp] theorem State.clearCounters_sl (s : State) (offs : List Nat) : (s.clearCounters offs).sl = s.sl := (rfl)
@[simp] theorem State.clearCounters_md (s : State) (offs : List Nat) : (s.clearCounters offs).md = s.md := (rfl)
@[simp] theorem State.clearCounters_ch (s : State) (offs : List Nat) : (s.clearCounters offs).ch = s.ch := (rfl)
@[simp] theorem State.clearCounters_ix (s : State) (offs : List Nat) : (s.clearCounters offs).ix = s.ix := (rfl)
@[simp] theorem State.clearCounters_wd (s : State) (offs : List Nat) : (s.clearCounters offs).wd = s.wd := (rfl)
@[simp] theorem State.clearCounters_sf (s : State) (offs : List Nat) : (s.clearCounters offs).sf = s.sf := (rfl)
@[simp] theorem State.clearCounters_ct (s : State) (offs : List Nat) : (s.clearCounters offs).ct = s.ct := (rfl)
@[simp] theorem State.clearCounters_dr (s : State) (offs : List Nat) : (s.clearCounters offs).dr = s.dr := (rfl)
@[simp] theorem State.clearCounters_tm (s : State) (offs : List Nat) : (s.clearCounters offs).tm = s.tm := (rfl)
@[simp] theorem State.clearCounters_dm (s : State) (offs : List Nat) : (s.clearCounters offs).dm = s.dm := (rfl)
@[simp] theorem State.clearCounters_ml (s : State) (offs : List Nat) : (s.clearCounters offs).ml = s.ml := (rfl)
@[simp] theorem State.clearCounters_pw (s : State) (offs : List Nat) : (s.clearCounters offs).pw = s.pw := (rfl)
@[simp] theorem State.clearCounters_lc (s : State) (offs : List Nat) : (s.clearCounters offs).lc = s.lc := (rfl)
@[simp] theorem State.clearCounters_log (s : State) (offs : List Nat) : (s.clearCounters offs).log = s.log := (rfl)
@[simp] theorem State.clearCounters_out (s : State) (offs : List Nat) : (s.clearCounters offs).out = s.out := (rfl)
@[simp] theorem State.clearCounters_free (s : State) (offs : List Nat) : (s.clearCounters offs).free = s.free := (rfl)
@[simp] theorem State.clearCounters_pending (s : State) (offs : List Nat) : (s.clearCounters offs).pending = s.pending := (rfl)
@[simp] theorem State.clearCounters_fresh (s : State) (offs : List Nat) : (s.clearCounters offs).fresh = s.fresh := (rfl)

@[simp] theorem State.clearOnes_shadow (s : State) (off : Nat) (v : Word) : (s.clearOnes off v).shadow = s.shadow := (rfl)
@[simp] theorem State.clearOnes_staged (s : State) (off : Nat) (v : Word) : (s.clearOnes off v).staged = s.staged := (rfl)
@[simp] theorem State.clearOnes_time (s : State) (off : Nat) (v : Word) : (s.clearOnes off v).time = s.time := (rfl)
@[simp] theorem State.clearOnes_cp (s : State) (off : Nat) (v : Word) : (s.clearOnes off v).cp = s.cp := (rfl)
@[simp] theorem State.clearOnes_events (s : State) (off : Nat) (v : Word) : (s.clearOnes off v).events = s.events := (rfl)
@[simp] theorem State.clearOnes_et (s : State) (off : Nat) (v : Word) : (s.clearOnes off v).et = s.et := (rfl)
@[simp] theorem State.clearOnes_mem (s : State) (off : Nat) (v : Word) : (s.clearOnes off v).mem = s.mem := (rfl)
@[simp] theorem State.clearOnes_sl (s : State) (off : Nat) (v : Word) : (s.clearOnes off v).sl = s.sl := (rfl)
@[simp] theorem State.clearOnes_md (s : State) (off : Nat) (v : Word) : (s.clearOnes off v).md = s.md := (rfl)
@[simp] theorem State.clearOnes_ch (s : State) (off : Nat) (v : Word) : (s.clearOnes off v).ch = s.ch := (rfl)
@[simp] theorem State.clearOnes_ix (s : State) (off : Nat) (v : Word) : (s.clearOnes off v).ix = s.ix := (rfl)
@[simp] theorem State.clearOnes_wd (s : State) (off : Nat) (v : Word) : (s.clearOnes off v).wd = s.wd := (rfl)
@[simp] theorem State.clearOnes_sf (s : State) (off : Nat) (v : Word) : (s.clearOnes off v).sf = s.sf := (rfl)
@[simp] theorem State.clearOnes_ct (s : State) (off : Nat) (v : Word) : (s.clearOnes off v).ct = s.ct := (rfl)
@[simp] theorem State.clearOnes_dr (s : State) (off : Nat) (v : Word) : (s.clearOnes off v).dr = s.dr := (rfl)
@[simp] theorem State.clearOnes_tm (s : State) (off : Nat) (v : Word) : (s.clearOnes off v).tm = s.tm := (rfl)
@[simp] theorem State.clearOnes_dm (s : State) (off : Nat) (v : Word) : (s.clearOnes off v).dm = s.dm := (rfl)
@[simp] theorem State.clearOnes_ml (s : State) (off : Nat) (v : Word) : (s.clearOnes off v).ml = s.ml := (rfl)
@[simp] theorem State.clearOnes_pw (s : State) (off : Nat) (v : Word) : (s.clearOnes off v).pw = s.pw := (rfl)
@[simp] theorem State.clearOnes_lc (s : State) (off : Nat) (v : Word) : (s.clearOnes off v).lc = s.lc := (rfl)
@[simp] theorem State.clearOnes_log (s : State) (off : Nat) (v : Word) : (s.clearOnes off v).log = s.log := (rfl)
@[simp] theorem State.clearOnes_out (s : State) (off : Nat) (v : Word) : (s.clearOnes off v).out = s.out := (rfl)
@[simp] theorem State.clearOnes_free (s : State) (off : Nat) (v : Word) : (s.clearOnes off v).free = s.free := (rfl)
@[simp] theorem State.clearOnes_pending (s : State) (off : Nat) (v : Word) : (s.clearOnes off v).pending = s.pending := (rfl)
@[simp] theorem State.clearOnes_fresh (s : State) (off : Nat) (v : Word) : (s.clearOnes off v).fresh = s.fresh := (rfl)

@[simp] theorem State.noteViolation_shadow (s : State) (stat : Word) (addr data : Nat) : (s.noteViolation stat addr data).shadow = s.shadow := by unfold State.noteViolation; split <;> rfl
@[simp] theorem State.noteViolation_staged (s : State) (stat : Word) (addr data : Nat) : (s.noteViolation stat addr data).staged = s.staged := by unfold State.noteViolation; split <;> rfl
@[simp] theorem State.noteViolation_time (s : State) (stat : Word) (addr data : Nat) : (s.noteViolation stat addr data).time = s.time := by unfold State.noteViolation; split <;> rfl
@[simp] theorem State.noteViolation_cp (s : State) (stat : Word) (addr data : Nat) : (s.noteViolation stat addr data).cp = s.cp := by unfold State.noteViolation; split <;> rfl
@[simp] theorem State.noteViolation_events (s : State) (stat : Word) (addr data : Nat) : (s.noteViolation stat addr data).events = s.events := by unfold State.noteViolation; split <;> rfl
@[simp] theorem State.noteViolation_et (s : State) (stat : Word) (addr data : Nat) : (s.noteViolation stat addr data).et = s.et := by unfold State.noteViolation; split <;> rfl
@[simp] theorem State.noteViolation_mem (s : State) (stat : Word) (addr data : Nat) : (s.noteViolation stat addr data).mem = s.mem := by unfold State.noteViolation; split <;> rfl
@[simp] theorem State.noteViolation_sl (s : State) (stat : Word) (addr data : Nat) : (s.noteViolation stat addr data).sl = s.sl := by unfold State.noteViolation; split <;> rfl
@[simp] theorem State.noteViolation_md (s : State) (stat : Word) (addr data : Nat) : (s.noteViolation stat addr data).md = s.md := by unfold State.noteViolation; split <;> rfl
@[simp] theorem State.noteViolation_ch (s : State) (stat : Word) (addr data : Nat) : (s.noteViolation stat addr data).ch = s.ch := by unfold State.noteViolation; split <;> rfl
@[simp] theorem State.noteViolation_ix (s : State) (stat : Word) (addr data : Nat) : (s.noteViolation stat addr data).ix = s.ix := by unfold State.noteViolation; split <;> rfl
@[simp] theorem State.noteViolation_wd (s : State) (stat : Word) (addr data : Nat) : (s.noteViolation stat addr data).wd = s.wd := by unfold State.noteViolation; split <;> rfl
@[simp] theorem State.noteViolation_sf (s : State) (stat : Word) (addr data : Nat) : (s.noteViolation stat addr data).sf = s.sf := by unfold State.noteViolation; split <;> rfl
@[simp] theorem State.noteViolation_ct (s : State) (stat : Word) (addr data : Nat) : (s.noteViolation stat addr data).ct = s.ct := by unfold State.noteViolation; split <;> rfl
@[simp] theorem State.noteViolation_dr (s : State) (stat : Word) (addr data : Nat) : (s.noteViolation stat addr data).dr = s.dr := by unfold State.noteViolation; split <;> rfl
@[simp] theorem State.noteViolation_tm (s : State) (stat : Word) (addr data : Nat) : (s.noteViolation stat addr data).tm = s.tm := by unfold State.noteViolation; split <;> rfl
@[simp] theorem State.noteViolation_dm (s : State) (stat : Word) (addr data : Nat) : (s.noteViolation stat addr data).dm = s.dm := by unfold State.noteViolation; split <;> rfl
@[simp] theorem State.noteViolation_ml (s : State) (stat : Word) (addr data : Nat) : (s.noteViolation stat addr data).ml = s.ml := by unfold State.noteViolation; split <;> rfl
@[simp] theorem State.noteViolation_pw (s : State) (stat : Word) (addr data : Nat) : (s.noteViolation stat addr data).pw = s.pw := by unfold State.noteViolation; split <;> rfl
@[simp] theorem State.noteViolation_lc (s : State) (stat : Word) (addr data : Nat) : (s.noteViolation stat addr data).lc = s.lc := by unfold State.noteViolation; split <;> rfl
@[simp] theorem State.noteViolation_log (s : State) (stat : Word) (addr data : Nat) : (s.noteViolation stat addr data).log = s.log := by unfold State.noteViolation; split <;> rfl
@[simp] theorem State.noteViolation_out (s : State) (stat : Word) (addr data : Nat) : (s.noteViolation stat addr data).out = s.out := by unfold State.noteViolation; split <;> rfl
@[simp] theorem State.noteViolation_free (s : State) (stat : Word) (addr data : Nat) : (s.noteViolation stat addr data).free = s.free := by unfold State.noteViolation; split <;> rfl
@[simp] theorem State.noteViolation_pending (s : State) (stat : Word) (addr data : Nat) : (s.noteViolation stat addr data).pending = s.pending := by unfold State.noteViolation; split <;> rfl
@[simp] theorem State.noteViolation_regs (s : State) (stat : Word) (addr data : Nat) : (s.noteViolation stat addr data).regs = s.regs := by unfold State.noteViolation; split <;> rfl

@[simp] theorem State.raise_shadow (s : State) (i : Nat) : (s.raise i).shadow = s.shadow := by unfold State.raise; dsimp only; split <;> simp
@[simp] theorem State.raise_staged (s : State) (i : Nat) : (s.raise i).staged = s.staged := by unfold State.raise; dsimp only; split <;> simp
@[simp] theorem State.raise_time (s : State) (i : Nat) : (s.raise i).time = s.time := by unfold State.raise; dsimp only; split <;> simp
@[simp] theorem State.raise_cp (s : State) (i : Nat) : (s.raise i).cp = s.cp := by unfold State.raise; dsimp only; split <;> simp
@[simp] theorem State.raise_events (s : State) (i : Nat) : (s.raise i).events = s.events := by unfold State.raise; dsimp only; split <;> simp
@[simp] theorem State.raise_et (s : State) (i : Nat) : (s.raise i).et = s.et := by unfold State.raise; dsimp only; split <;> simp
@[simp] theorem State.raise_mem (s : State) (i : Nat) : (s.raise i).mem = s.mem := by unfold State.raise; dsimp only; split <;> simp
@[simp] theorem State.raise_sl (s : State) (i : Nat) : (s.raise i).sl = s.sl := by unfold State.raise; dsimp only; split <;> simp
@[simp] theorem State.raise_md (s : State) (i : Nat) : (s.raise i).md = s.md := by unfold State.raise; dsimp only; split <;> simp
@[simp] theorem State.raise_ch (s : State) (i : Nat) : (s.raise i).ch = s.ch := by unfold State.raise; dsimp only; split <;> simp
@[simp] theorem State.raise_ix (s : State) (i : Nat) : (s.raise i).ix = s.ix := by unfold State.raise; dsimp only; split <;> simp
@[simp] theorem State.raise_wd (s : State) (i : Nat) : (s.raise i).wd = s.wd := by unfold State.raise; dsimp only; split <;> simp
@[simp] theorem State.raise_sf (s : State) (i : Nat) : (s.raise i).sf = s.sf := by unfold State.raise; dsimp only; split <;> simp
@[simp] theorem State.raise_ct (s : State) (i : Nat) : (s.raise i).ct = s.ct := by unfold State.raise; dsimp only; split <;> simp
@[simp] theorem State.raise_dr (s : State) (i : Nat) : (s.raise i).dr = s.dr := by unfold State.raise; dsimp only; split <;> simp
@[simp] theorem State.raise_tm (s : State) (i : Nat) : (s.raise i).tm = s.tm := by unfold State.raise; dsimp only; split <;> simp
@[simp] theorem State.raise_dm (s : State) (i : Nat) : (s.raise i).dm = s.dm := by unfold State.raise; dsimp only; split <;> simp
@[simp] theorem State.raise_ml (s : State) (i : Nat) : (s.raise i).ml = s.ml := by unfold State.raise; dsimp only; split <;> simp
@[simp] theorem State.raise_pw (s : State) (i : Nat) : (s.raise i).pw = s.pw := by unfold State.raise; dsimp only; split <;> simp
@[simp] theorem State.raise_lc (s : State) (i : Nat) : (s.raise i).lc = s.lc := by unfold State.raise; dsimp only; split <;> simp
@[simp] theorem State.raise_log (s : State) (i : Nat) : (s.raise i).log = s.log := by unfold State.raise; dsimp only; split <;> simp
@[simp] theorem State.raise_free (s : State) (i : Nat) : (s.raise i).free = s.free := by unfold State.raise; dsimp only; split <;> simp
@[simp] theorem State.raise_pending (s : State) (i : Nat) : (s.raise i).pending = s.pending := by unfold State.raise; dsimp only; split <;> simp

@[simp] theorem State.seen_shadow (s : State) (off : Nat) (f : Fld) (i : Nat) : (s.seen off f i).shadow = s.shadow := by simp [State.seen]
@[simp] theorem State.seen_staged (s : State) (off : Nat) (f : Fld) (i : Nat) : (s.seen off f i).staged = s.staged := by simp [State.seen]
@[simp] theorem State.seen_time (s : State) (off : Nat) (f : Fld) (i : Nat) : (s.seen off f i).time = s.time := by simp [State.seen]
@[simp] theorem State.seen_cp (s : State) (off : Nat) (f : Fld) (i : Nat) : (s.seen off f i).cp = s.cp := by simp [State.seen]
@[simp] theorem State.seen_events (s : State) (off : Nat) (f : Fld) (i : Nat) : (s.seen off f i).events = s.events := by simp [State.seen]
@[simp] theorem State.seen_et (s : State) (off : Nat) (f : Fld) (i : Nat) : (s.seen off f i).et = s.et := by simp [State.seen]
@[simp] theorem State.seen_mem (s : State) (off : Nat) (f : Fld) (i : Nat) : (s.seen off f i).mem = s.mem := by simp [State.seen]
@[simp] theorem State.seen_sl (s : State) (off : Nat) (f : Fld) (i : Nat) : (s.seen off f i).sl = s.sl := by simp [State.seen]
@[simp] theorem State.seen_md (s : State) (off : Nat) (f : Fld) (i : Nat) : (s.seen off f i).md = s.md := by simp [State.seen]
@[simp] theorem State.seen_ch (s : State) (off : Nat) (f : Fld) (i : Nat) : (s.seen off f i).ch = s.ch := by simp [State.seen]
@[simp] theorem State.seen_ix (s : State) (off : Nat) (f : Fld) (i : Nat) : (s.seen off f i).ix = s.ix := by simp [State.seen]
@[simp] theorem State.seen_wd (s : State) (off : Nat) (f : Fld) (i : Nat) : (s.seen off f i).wd = s.wd := by simp [State.seen]
@[simp] theorem State.seen_sf (s : State) (off : Nat) (f : Fld) (i : Nat) : (s.seen off f i).sf = s.sf := by simp [State.seen]
@[simp] theorem State.seen_ct (s : State) (off : Nat) (f : Fld) (i : Nat) : (s.seen off f i).ct = s.ct := by simp [State.seen]
@[simp] theorem State.seen_dr (s : State) (off : Nat) (f : Fld) (i : Nat) : (s.seen off f i).dr = s.dr := by simp [State.seen]
@[simp] theorem State.seen_tm (s : State) (off : Nat) (f : Fld) (i : Nat) : (s.seen off f i).tm = s.tm := by simp [State.seen]
@[simp] theorem State.seen_dm (s : State) (off : Nat) (f : Fld) (i : Nat) : (s.seen off f i).dm = s.dm := by simp [State.seen]
@[simp] theorem State.seen_ml (s : State) (off : Nat) (f : Fld) (i : Nat) : (s.seen off f i).ml = s.ml := by simp [State.seen]
@[simp] theorem State.seen_pw (s : State) (off : Nat) (f : Fld) (i : Nat) : (s.seen off f i).pw = s.pw := by simp [State.seen]
@[simp] theorem State.seen_lc (s : State) (off : Nat) (f : Fld) (i : Nat) : (s.seen off f i).lc = s.lc := by simp [State.seen]
@[simp] theorem State.seen_log (s : State) (off : Nat) (f : Fld) (i : Nat) : (s.seen off f i).log = s.log := by simp [State.seen]
@[simp] theorem State.seen_free (s : State) (off : Nat) (f : Fld) (i : Nat) : (s.seen off f i).free = s.free := by simp [State.seen]
@[simp] theorem State.seen_pending (s : State) (off : Nat) (f : Fld) (i : Nat) : (s.seen off f i).pending = s.pending := by simp [State.seen]

@[simp] theorem State.logEvent_shadow (s : State) (code sev : Nat) (d : List Word) : (s.logEvent code sev d).shadow = s.shadow := (rfl)
@[simp] theorem State.logEvent_staged (s : State) (code sev : Nat) (d : List Word) : (s.logEvent code sev d).staged = s.staged := (rfl)
@[simp] theorem State.logEvent_fresh (s : State) (code sev : Nat) (d : List Word) : (s.logEvent code sev d).fresh = s.fresh := (rfl)
@[simp] theorem State.logEvent_time (s : State) (code sev : Nat) (d : List Word) : (s.logEvent code sev d).time = s.time := (rfl)
@[simp] theorem State.logEvent_cp (s : State) (code sev : Nat) (d : List Word) : (s.logEvent code sev d).cp = s.cp := (rfl)
@[simp] theorem State.logEvent_events (s : State) (code sev : Nat) (d : List Word) : (s.logEvent code sev d).events = s.events := (rfl)
@[simp] theorem State.logEvent_et (s : State) (code sev : Nat) (d : List Word) : (s.logEvent code sev d).et = s.et := (rfl)
@[simp] theorem State.logEvent_mem (s : State) (code sev : Nat) (d : List Word) : (s.logEvent code sev d).mem = s.mem := (rfl)
@[simp] theorem State.logEvent_sl (s : State) (code sev : Nat) (d : List Word) : (s.logEvent code sev d).sl = s.sl := (rfl)
@[simp] theorem State.logEvent_md (s : State) (code sev : Nat) (d : List Word) : (s.logEvent code sev d).md = s.md := (rfl)
@[simp] theorem State.logEvent_ch (s : State) (code sev : Nat) (d : List Word) : (s.logEvent code sev d).ch = s.ch := (rfl)
@[simp] theorem State.logEvent_ix (s : State) (code sev : Nat) (d : List Word) : (s.logEvent code sev d).ix = s.ix := (rfl)
@[simp] theorem State.logEvent_wd (s : State) (code sev : Nat) (d : List Word) : (s.logEvent code sev d).wd = s.wd := (rfl)
@[simp] theorem State.logEvent_sf (s : State) (code sev : Nat) (d : List Word) : (s.logEvent code sev d).sf = s.sf := (rfl)
@[simp] theorem State.logEvent_ct (s : State) (code sev : Nat) (d : List Word) : (s.logEvent code sev d).ct = s.ct := (rfl)
@[simp] theorem State.logEvent_dr (s : State) (code sev : Nat) (d : List Word) : (s.logEvent code sev d).dr = s.dr := (rfl)
@[simp] theorem State.logEvent_tm (s : State) (code sev : Nat) (d : List Word) : (s.logEvent code sev d).tm = s.tm := (rfl)
@[simp] theorem State.logEvent_dm (s : State) (code sev : Nat) (d : List Word) : (s.logEvent code sev d).dm = s.dm := (rfl)
@[simp] theorem State.logEvent_ml (s : State) (code sev : Nat) (d : List Word) : (s.logEvent code sev d).ml = s.ml := (rfl)
@[simp] theorem State.logEvent_pw (s : State) (code sev : Nat) (d : List Word) : (s.logEvent code sev d).pw = s.pw := (rfl)
@[simp] theorem State.logEvent_lc (s : State) (code sev : Nat) (d : List Word) : (s.logEvent code sev d).lc = s.lc := (rfl)
@[simp] theorem State.logEvent_out (s : State) (code sev : Nat) (d : List Word) : (s.logEvent code sev d).out = s.out := (rfl)
@[simp] theorem State.logEvent_free (s : State) (code sev : Nat) (d : List Word) : (s.logEvent code sev d).free = s.free := (rfl)
@[simp] theorem State.logEvent_pending (s : State) (code sev : Nat) (d : List Word) : (s.logEvent code sev d).pending = s.pending := (rfl)

@[simp] theorem State.logViolation_shadow (s : State) : (s.logViolation).shadow = s.shadow := by unfold State.logViolation; simp
@[simp] theorem State.logViolation_staged (s : State) : (s.logViolation).staged = s.staged := by unfold State.logViolation; simp
@[simp] theorem State.logViolation_fresh (s : State) : (s.logViolation).fresh = s.fresh := by unfold State.logViolation; simp
@[simp] theorem State.logViolation_time (s : State) : (s.logViolation).time = s.time := by unfold State.logViolation; simp
@[simp] theorem State.logViolation_events (s : State) : (s.logViolation).events = s.events := by unfold State.logViolation; simp
@[simp] theorem State.logViolation_et (s : State) : (s.logViolation).et = s.et := by unfold State.logViolation; simp
@[simp] theorem State.logViolation_mem (s : State) : (s.logViolation).mem = s.mem := by unfold State.logViolation; simp
@[simp] theorem State.logViolation_sl (s : State) : (s.logViolation).sl = s.sl := by unfold State.logViolation; simp
@[simp] theorem State.logViolation_md (s : State) : (s.logViolation).md = s.md := by unfold State.logViolation; simp
@[simp] theorem State.logViolation_ch (s : State) : (s.logViolation).ch = s.ch := by unfold State.logViolation; simp
@[simp] theorem State.logViolation_ix (s : State) : (s.logViolation).ix = s.ix := by unfold State.logViolation; simp
@[simp] theorem State.logViolation_wd (s : State) : (s.logViolation).wd = s.wd := by unfold State.logViolation; simp
@[simp] theorem State.logViolation_sf (s : State) : (s.logViolation).sf = s.sf := by unfold State.logViolation; simp
@[simp] theorem State.logViolation_ct (s : State) : (s.logViolation).ct = s.ct := by unfold State.logViolation; simp
@[simp] theorem State.logViolation_dr (s : State) : (s.logViolation).dr = s.dr := by unfold State.logViolation; simp
@[simp] theorem State.logViolation_tm (s : State) : (s.logViolation).tm = s.tm := by unfold State.logViolation; simp
@[simp] theorem State.logViolation_dm (s : State) : (s.logViolation).dm = s.dm := by unfold State.logViolation; simp
@[simp] theorem State.logViolation_ml (s : State) : (s.logViolation).ml = s.ml := by unfold State.logViolation; simp
@[simp] theorem State.logViolation_pw (s : State) : (s.logViolation).pw = s.pw := by unfold State.logViolation; simp
@[simp] theorem State.logViolation_lc (s : State) : (s.logViolation).lc = s.lc := by unfold State.logViolation; simp
@[simp] theorem State.logViolation_out (s : State) : (s.logViolation).out = s.out := by unfold State.logViolation; simp
@[simp] theorem State.logViolation_free (s : State) : (s.logViolation).free = s.free := by unfold State.logViolation; simp
@[simp] theorem State.logViolation_pending (s : State) : (s.logViolation).pending = s.pending := by unfold State.logViolation; simp

@[simp] theorem State.violation_shadow (s : State) (src kind addr data : Nat) : (s.violation src kind addr data).shadow = s.shadow := by unfold State.violation; dsimp only; split <;> simp
@[simp] theorem State.violation_staged (s : State) (src kind addr data : Nat) : (s.violation src kind addr data).staged = s.staged := by unfold State.violation; dsimp only; split <;> simp
@[simp] theorem State.violation_time (s : State) (src kind addr data : Nat) : (s.violation src kind addr data).time = s.time := by unfold State.violation; dsimp only; split <;> simp
@[simp] theorem State.violation_events (s : State) (src kind addr data : Nat) : (s.violation src kind addr data).events = s.events := by unfold State.violation; dsimp only; split <;> simp
@[simp] theorem State.violation_et (s : State) (src kind addr data : Nat) : (s.violation src kind addr data).et = s.et := by unfold State.violation; dsimp only; split <;> simp
@[simp] theorem State.violation_mem (s : State) (src kind addr data : Nat) : (s.violation src kind addr data).mem = s.mem := by unfold State.violation; dsimp only; split <;> simp
@[simp] theorem State.violation_sl (s : State) (src kind addr data : Nat) : (s.violation src kind addr data).sl = s.sl := by unfold State.violation; dsimp only; split <;> simp
@[simp] theorem State.violation_md (s : State) (src kind addr data : Nat) : (s.violation src kind addr data).md = s.md := by unfold State.violation; dsimp only; split <;> simp
@[simp] theorem State.violation_ch (s : State) (src kind addr data : Nat) : (s.violation src kind addr data).ch = s.ch := by unfold State.violation; dsimp only; split <;> simp
@[simp] theorem State.violation_ix (s : State) (src kind addr data : Nat) : (s.violation src kind addr data).ix = s.ix := by unfold State.violation; dsimp only; split <;> simp
@[simp] theorem State.violation_wd (s : State) (src kind addr data : Nat) : (s.violation src kind addr data).wd = s.wd := by unfold State.violation; dsimp only; split <;> simp
@[simp] theorem State.violation_sf (s : State) (src kind addr data : Nat) : (s.violation src kind addr data).sf = s.sf := by unfold State.violation; dsimp only; split <;> simp
@[simp] theorem State.violation_ct (s : State) (src kind addr data : Nat) : (s.violation src kind addr data).ct = s.ct := by unfold State.violation; dsimp only; split <;> simp
@[simp] theorem State.violation_dr (s : State) (src kind addr data : Nat) : (s.violation src kind addr data).dr = s.dr := by unfold State.violation; dsimp only; split <;> simp
@[simp] theorem State.violation_tm (s : State) (src kind addr data : Nat) : (s.violation src kind addr data).tm = s.tm := by unfold State.violation; dsimp only; split <;> simp
@[simp] theorem State.violation_dm (s : State) (src kind addr data : Nat) : (s.violation src kind addr data).dm = s.dm := by unfold State.violation; dsimp only; split <;> simp
@[simp] theorem State.violation_ml (s : State) (src kind addr data : Nat) : (s.violation src kind addr data).ml = s.ml := by unfold State.violation; dsimp only; split <;> simp
@[simp] theorem State.violation_pw (s : State) (src kind addr data : Nat) : (s.violation src kind addr data).pw = s.pw := by unfold State.violation; dsimp only; split <;> simp
@[simp] theorem State.violation_lc (s : State) (src kind addr data : Nat) : (s.violation src kind addr data).lc = s.lc := by unfold State.violation; dsimp only; split <;> simp
@[simp] theorem State.violation_free (s : State) (src kind addr data : Nat) : (s.violation src kind addr data).free = s.free := by unfold State.violation; dsimp only; split <;> simp
@[simp] theorem State.violation_pending (s : State) (src kind addr data : Nat) : (s.violation src kind addr data).pending = s.pending := by unfold State.violation; dsimp only; split <;> simp

end Sys2Proof.Machine
end

