-- ==== Sys2Proof/Laws/Ops.lean ====
section
/-! SUPPORT. The laws of fields, registers, interrupts and DRAM bytes: what a read gives after each shared operation; which block pairs a region takes part in. -/

namespace Sys2Proof.Machine

/-! ### Fields of a word -/

/-- A number cut at a field: the bits below it, the field, the bits above it. -/
theorem field_split (n lo w : Nat) : n = n % 2 ^ lo + 2 ^ lo * (n / 2 ^ lo % 2 ^ w + 2 ^ w * (n / 2 ^ (lo + w))) := by
  have h1 := Nat.mod_add_div n (2 ^ lo)
  have h2 := Nat.mod_add_div (n / 2 ^ lo) (2 ^ w)
  rw [Nat.div_div_eq_div_mul, ← Nat.pow_add] at h2
  rw [h2, h1]

theorem fput_toNat (x : Word) (f : Fld) (v : Nat) (h : f.lo + f.w ≤ 32) :
    (fput x f v).toNat = x.toNat % 2 ^ f.lo + 2 ^ f.lo * (v % 2 ^ f.w + 2 ^ f.w * (x.toNat / 2 ^ (f.lo + f.w))) := by
  have hs := field_split x.toNat f.lo f.w
  have hb := x.isLt
  have hv : v % 2 ^ f.w < 2 ^ f.w := Nat.mod_lt _ (Nat.two_pow_pos _)
  have hl : x.toNat % 2 ^ f.lo < 2 ^ f.lo := Nat.mod_lt _ (Nat.two_pow_pos _)
  have hh : x.toNat / 2 ^ (f.lo + f.w) < 2 ^ (32 - (f.lo + f.w)) := by
    rw [Nat.div_lt_iff_lt_mul (Nat.two_pow_pos _), ← Nat.pow_add]
    rwa [Nat.sub_add_cancel h]
  have hsum : x.toNat - fget x f * 2 ^ f.lo + v % 2 ^ f.w * 2 ^ f.lo
      = x.toNat % 2 ^ f.lo + 2 ^ f.lo * (v % 2 ^ f.w + 2 ^ f.w * (x.toNat / 2 ^ (f.lo + f.w))) := by
    unfold fget
    rw [Nat.mul_comm (x.toNat / 2 ^ f.lo % 2 ^ f.w), Nat.mul_comm (v % 2 ^ f.w)]
    rw [Nat.mul_add] at hs ⊢
    omega
  unfold fput
  rw [BitVec.toNat_ofNat, hsum, Nat.mod_eq_of_lt]
  calc x.toNat % 2 ^ f.lo + 2 ^ f.lo * (v % 2 ^ f.w + 2 ^ f.w * (x.toNat / 2 ^ (f.lo + f.w)))
      < 2 ^ f.lo + 2 ^ f.lo * (v % 2 ^ f.w + 2 ^ f.w * (x.toNat / 2 ^ (f.lo + f.w))) := by omega
    _ = 2 ^ f.lo * (1 + v % 2 ^ f.w + 2 ^ f.w * (x.toNat / 2 ^ (f.lo + f.w))) := by ring
    _ ≤ 2 ^ f.lo * (2 ^ f.w * (1 + x.toNat / 2 ^ (f.lo + f.w))) := by
        apply Nat.mul_le_mul_left; rw [Nat.mul_add]; omega
    _ ≤ 2 ^ f.lo * (2 ^ f.w * 2 ^ (32 - (f.lo + f.w))) := by
        apply Nat.mul_le_mul_left; apply Nat.mul_le_mul_left; omega
    _ = 2 ^ 32 := by rw [← Nat.pow_add, ← Nat.pow_add]; congr 1; omega

/-- Bits at and above the foot of the bits `k` that follow `l` do not depend on `l`. -/
theorem low_high_div {l a k : Nat} (h : l < 2 ^ a) : (l + 2 ^ a * k) / 2 ^ a = k := by
  rw [Nat.add_mul_div_left _ _ (Nat.two_pow_pos a), Nat.div_eq_of_lt h, Nat.zero_add]

theorem fget_fput_same (x : Word) (f : Fld) (v : Nat) (h : f.lo + f.w ≤ 32) : fget (fput x f v) f = v % 2 ^ f.w := by
  unfold fget
  rw [fput_toNat x f v h, low_high_div (Nat.mod_lt _ (Nat.two_pow_pos _)), Nat.add_mul_mod_self_left, Nat.mod_mod]

theorem fget_fput_apart (x : Word) (f g : Fld) (v : Nat) (h : f.lo + f.w ≤ 32) (ha : f.apart g) :
    fget (fput x f v) g = fget x g := by
  have hs := field_split x.toNat f.lo f.w
  have hl : x.toNat % 2 ^ f.lo < 2 ^ f.lo := Nat.mod_lt _ (Nat.two_pow_pos _)
  have hv : v % 2 ^ f.w < 2 ^ f.w := Nat.mod_lt _ (Nat.two_pow_pos _)
  unfold fget
  rw [fput_toNat x f v h]
  rcases ha with ha | ha
  · obtain ⟨d, hd⟩ := Nat.exists_eq_add_of_le ha
    rw [hd, Nat.pow_add _ _ d, ← Nat.div_div_eq_div_mul, ← Nat.div_div_eq_div_mul]
    congr 2
    rw [Nat.pow_add 2 f.lo f.w, ← Nat.div_div_eq_div_mul, low_high_div hl, low_high_div hv]
  · obtain ⟨d, hd⟩ := Nat.exists_eq_add_of_le ha
    have key : ∀ k, (x.toNat % 2 ^ f.lo + 2 ^ f.lo * k) / 2 ^ g.lo % 2 ^ g.w = x.toNat % 2 ^ f.lo / 2 ^ g.lo % 2 ^ g.w := by
      intro k
      have e : 2 ^ f.lo * k = 2 ^ g.lo * (2 ^ g.w * (2 ^ d * k)) := by rw [hd, Nat.pow_add, Nat.pow_add]; ring
      rw [e, Nat.add_mul_div_left _ _ (Nat.two_pow_pos _), Nat.add_mul_mod_self_left]
    rw [key]
    conv_rhs => rw [hs]
    rw [key]

/-! ### Registers -/

theorem State.reg_setReg (s : State) (a b : Nat) (w : Word) : (s.setReg a w).reg b = if b = a then w else s.reg b :=
  tblGet_set 0 w s.regs a b

@[simp] theorem State.reg_setReg_same (s : State) (a : Nat) (w : Word) : (s.setReg a w).reg a = w := by
  rw [State.reg_setReg, if_pos rfl]

theorem State.reg_setReg_ne (s : State) {a b : Nat} (w : Word) (h : b ≠ a) : (s.setReg a w).reg b = s.reg b := by
  rw [State.reg_setReg, if_neg h]

@[simp] theorem State.reg_note (s : State) (a : Nat) (w : Word) (o : Nat) : (s.note a w).reg o = s.reg o := (rfl)

theorem State.reg_setSeen_ne (s : State) {a b : Nat} (f : Fld) (v : Nat) (h : b ≠ a) : (s.setSeen a f v).reg b = s.reg b :=
  s.reg_setReg_ne _ h

theorem State.reg_setSeenB_ne (s : State) {a b : Nat} (f : Fld) (i : Nat) (h : b ≠ a) : (s.setSeenB a f i).reg b = s.reg b :=
  s.reg_setReg_ne _ h

theorem State.reg_setF_ne (s : State) {a b : Nat} (f : Fld) (v : Nat) (h : b ≠ a) : (s.setF a f v).reg b = s.reg b :=
  s.reg_setReg_ne _ h

theorem State.rf_setF_same (s : State) (a : Nat) (f : Fld) (v : Nat) (h : f.lo + f.w ≤ 32) :
    (s.setF a f v).rf a f = v % 2 ^ f.w := by
  simp [State.rf, State.setF, fget_fput_same _ _ _ h]

theorem State.rf_setF_apart (s : State) (a : Nat) (f g : Fld) (v : Nat) (h : f.lo + f.w ≤ 32) (hg : f.apart g) :
    (s.setF a f v).rf a g = s.rf a g := by
  simp [State.rf, State.setF, fget_fput_apart _ _ _ _ h hg]

theorem State.rf_setF_ne (s : State) {a b : Nat} (f g : Fld) (v : Nat) (h : b ≠ a) : (s.setF a f v).rf b g = s.rf b g := by
  simp [State.rf, s.reg_setF_ne f v h]

theorem State.reg_setFB_ne (s : State) {a b : Nat} (f : Fld) (i : Nat) (x : Bool) (h : b ≠ a) : (s.setFB a f i x).reg b = s.reg b :=
  s.reg_setReg_ne _ h

theorem State.reg_bump_ne (s : State) {a b : Nat} (h : b ≠ a) : (s.bump a).reg b = s.reg b := s.reg_setReg_ne _ h

theorem State.reg_bumpBy_ne (s : State) {a b : Nat} (f : Fld) (n : Nat) (h : b ≠ a) : (s.bumpBy a f n).reg b = s.reg b :=
  s.reg_setReg_ne _ h

theorem State.reg_setReg64_ne (s : State) {a b : Nat} (v : Nat) (h : b ≠ a) (h' : b ≠ a + 4) : (s.setReg64 a v).reg b = s.reg b := by
  simp [State.setReg64, State.reg_setReg, h, h']

theorem fput_whole (x : Word) (v : Nat) : fput x counter32 v = BitVec.ofNat 32 v := by
  apply BitVec.eq_of_toNat_eq
  rw [fput_toNat _ _ _ (by decide)]
  have := x.isLt
  simp only [counter32, Nat.pow_zero, Nat.mod_one, Nat.zero_add, Nat.one_mul, Nat.div_eq_of_lt this, Nat.mul_zero, Nat.add_zero,
    BitVec.toNat_ofNat]

/-- A 32-bit counter after one more event: one up, and at all ones it stays (R21). -/
theorem State.reg_bump_same (s : State) (a : Nat) : (s.bump a).reg a = w32 (min (2 ^ 32 - 1) ((s.reg a).toNat + 1)) := by
  have := (s.reg a).isLt
  have hc : s.rf a counter32 = (s.reg a).toNat := by simp [State.rf, fget, counter32, Nat.mod_eq_of_lt this]
  rw [State.bump, State.bumpBy, State.reg_note, State.setF, State.reg_setReg_same, fput_whole, hc]
  rfl

theorem State.reg_clearRegs (s : State) (l : List Nat) (o : Nat) : (s.clearRegs l).reg o = if o ∈ l then 0 else s.reg o :=
  tblGet_setAll 0 0 l s.regs o

/-- Counters cleared keep what they have counted in the same cycle (R15). -/
theorem State.reg_clearCounters (s : State) (l : List Nat) (o : Nat) :
    (s.clearCounters l).reg o = if o ∈ l then s.freshAt o else s.reg o := tblGet_foldSet 0 s.freshAt l s.regs o

theorem State.reg64_setReg64 (s : State) (a v : Nat) : (s.setReg64 a v).reg64 a = v % 2 ^ 64 := by
  have e : (2 : Nat) ^ 64 = 2 ^ 32 * 2 ^ 32 := by norm_num
  simp [State.reg64, State.setReg64, State.reg_setReg]
  omega

theorem State.reg64_setReg64_ne (s : State) {a b : Nat} (v : Nat) (h1 : b ≠ a) (h2 : b ≠ a + 4) (h3 : b + 4 ≠ a) :
    (s.setReg64 a v).reg64 b = s.reg64 b := by
  simp [State.reg64, State.reg_setReg64_ne, h1, h2, h3]

@[simp] theorem State.reg_emit (s : State) (x : Out) (o : Nat) : (s.emit x).reg o = s.reg o := (rfl)
@[simp] theorem State.reg_draw (s : State) (o : Nat) : s.draw.reg o = s.reg o := (rfl)
@[simp] theorem State.reg_memWrite (s : State) (a : Nat) (bs : List Byte) (o : Nat) : (s.memWrite a bs).reg o = s.reg o := (rfl)

/-! ### Interrupts and the log -/

theorem State.reg_signal (s : State) (v : Nat) (hv : v < 128) {o : Nat} (h : ¬ intReg o) : (s.signal v).reg o = s.reg o := by
  have hp : o ≠ msixPba v := by
    intro e
    apply h
    right
    rw [e]
    unfold msixPba
    omega
  unfold State.signal
  split
  · exact s.reg_setF_ne _ _ hp
  · rfl

theorem State.reg_raise (s : State) (i : Nat) (hi : i < 96) {o : Nat} (h : ¬ intReg o) : (s.raise i).reg o = s.reg o := by
  have he : o ≠ EV_INT_STAT := fun e => h (Or.inl e)
  unfold State.raise
  dsimp only
  split
  · rw [State.reg_signal _ _ (by omega) h, State.reg_setSeenB_ne _ _ _ he]
  · rw [State.reg_setSeenB_ne _ _ _ he]

theorem State.reg_seen (s : State) (a : Nat) (f : Fld) (i : Nat) (hi : i < 96) {o : Nat} (h : ¬ intReg o) (ha : o ≠ a) :
    (s.seen a f i).reg o = s.reg o := by
  rw [State.seen, State.reg_raise _ _ hi h, State.reg_setSeen_ne _ _ _ ha]

theorem State.rf_seen_same (s : State) (a : Nat) (f : Fld) (i : Nat) (hi : i < 96) (h : ¬ intReg a) (hf : f.lo + f.w ≤ 32) :
    (s.seen a f i).rf a f = 1 % 2 ^ f.w := by
  rw [State.seen, State.rf, State.reg_raise _ _ hi h]
  exact s.rf_setF_same a f 1 hf

/-- A counter cleared keeps what it has counted in the same cycle, and no more (R15). -/
theorem State.rf_clearCount_same (s : State) (a : Nat) (f : Fld) (h : f.lo + f.w ≤ 32) :
    (s.clearCount a f).rf a f = fget (s.freshAt a) f % 2 ^ f.w := s.rf_setF_same a f _ h

/-- A word of W1C bits after a write: a 1 clears its bit, unless the bit was set in the same cycle (R14, R15). -/
theorem State.reg_clearOnes_same (s : State) (a : Nat) (v : Word) :
    (s.clearOnes a v).reg a = (s.reg a &&& ~~~v) ||| s.freshAt a := s.reg_setReg_same a _

/-- What writing a log entry leaves: the entry at the head of the log, and the next sequence number. -/
theorem State.logEvent_eq (s : State) (code sev : Nat) (d : List Word) : ∃ k, s.logEvent code sev d =
    { s with log := ({ atc := s.now, ms := s.uptimeMs, code := code, sev := sev, seq := (s.reg PW_LOG_SEQ).toNat, detail := d } : LogEntry)
                      :: s.log.take k }.setReg PW_LOG_SEQ (w32 ((s.reg PW_LOG_SEQ).toNat + 1)) := by
  have hk : ∀ n, ∃ k, logKept n = k + 1 := by intro n; exact ⟨logKept n - 1, by unfold logKept; omega⟩
  obtain ⟨k, hk⟩ := hk ((s.reg PW_LOG_SEQ).toNat + 1)
  refine ⟨k, ?_⟩
  unfold State.logEvent
  simp only [hk, List.take_succ_cons]

theorem State.reg_logEvent (s : State) (code sev : Nat) (d : List Word) {o : Nat} (h : o ≠ PW_LOG_SEQ) :
    (s.logEvent code sev d).reg o = s.reg o := by
  obtain ⟨k, hk⟩ := s.logEvent_eq code sev d
  rw [hk, State.reg_setReg_ne _ _ h]
  rfl

theorem State.reg_logEvent_seq (s : State) (code sev : Nat) (d : List Word) :
    (s.logEvent code sev d).reg PW_LOG_SEQ = w32 ((s.reg PW_LOG_SEQ).toNat + 1) := by
  obtain ⟨k, hk⟩ := s.logEvent_eq code sev d
  rw [hk, State.reg_setReg_same]

/-- A log entry is written at the head of the log, with the next sequence number (R466). -/
theorem State.logEvent_head (s : State) (code sev : Nat) (d : List Word) :
    (s.logEvent code sev d).log.head? = some { atc := s.now, ms := s.uptimeMs, code := code, sev := sev, seq := (s.reg PW_LOG_SEQ).toNat, detail := d } := by
  obtain ⟨k, hk⟩ := s.logEvent_eq code sev d
  rw [hk]
  rfl

/-! ### DRAM contents -/

theorem State.memByte_memWrite_out (s : State) (a : Nat) (bs : List Byte) (x : Nat) (h : x < a ∨ a + bs.length ≤ x) :
    (s.memWrite a bs).memByte x = s.memByte x := tblGet_setRun_out 0 bs s.mem a x h

/-- A write of DRAM keeps its canonical form. -/
theorem State.mem_wf_memWrite (s : State) (a : Nat) (bs : List Byte) (h : tblWf 0 s.mem = true) :
    tblWf 0 (s.memWrite a bs).mem = true := tblWf_setRun 0 bs s.mem a h

/-! ### Regions and block pairs -/

/-- R179: a region takes part in a block pair when one of its baselines pairs a path of the one block with a later path of the other. -/
theorem pairIn_iff (r : Region) (m n : Nat) : pairIn r m n = true ↔
    ∃ i j, i / 16 = m ∧ j / 16 = n ∧ i < j ∧ r.bFirst ≤ baseline i j ∧ baseline i j < r.bFirst + r.bCount := by
  simp only [pairIn, List.any_eq_true, List.mem_range, Bool.and_eq_true, decide_eq_true_eq]
  constructor
  · rintro ⟨b, hb, ⟨⟨h1, h2⟩, h3⟩, h4⟩
    unfold baseline at *
    generalize hk : (16 * n + b) * (16 * n + b - 1) / 2 = k at *
    refine ⟨16 * m + (r.bFirst - (k + 16 * m)), 16 * n + b, ?_, ?_, ?_, ?_, ?_⟩ <;> (try rw [hk]) <;> omega
  · rintro ⟨i, j, rfl, rfl, h1, h2, h3⟩
    have e : 16 * (j / 16) + j % 16 = j := by omega
    refine ⟨j % 16, by omega, ?_⟩
    rw [e]; unfold baseline at *
    generalize j * (j - 1) / 2 = k at *
    omega

end Sys2Proof.Machine
end

