-- ==== Sys2Proof/Laws/Pelusk.lean ====
section
/-! SUPPORT. The laws of taking a Pelusk command and answering it: one lemma per outcome, and what neither touches. -/

namespace Sys2Proof.Machine

@[simp] theorem State.queueSync_shadow (s : State) : (s.queueSync).shadow = s.shadow := by simp [State.queueSync]
@[simp] theorem State.queueSync_staged (s : State) : (s.queueSync).staged = s.staged := by simp [State.queueSync]
@[simp] theorem State.queueSync_time (s : State) : (s.queueSync).time = s.time := by simp [State.queueSync]
@[simp] theorem State.queueSync_cp (s : State) : (s.queueSync).cp = s.cp := by simp [State.queueSync]
@[simp] theorem State.queueSync_events (s : State) : (s.queueSync).events = s.events := by simp [State.queueSync]
@[simp] theorem State.queueSync_et (s : State) : (s.queueSync).et = s.et := by simp [State.queueSync]
@[simp] theorem State.queueSync_mem (s : State) : (s.queueSync).mem = s.mem := by simp [State.queueSync]
@[simp] theorem State.queueSync_sl (s : State) : (s.queueSync).sl = s.sl := by simp [State.queueSync]
@[simp] theorem State.queueSync_md (s : State) : (s.queueSync).md = s.md := by simp [State.queueSync]
@[simp] theorem State.queueSync_ch (s : State) : (s.queueSync).ch = s.ch := by simp [State.queueSync]
@[simp] theorem State.queueSync_ix (s : State) : (s.queueSync).ix = s.ix := by simp [State.queueSync]
@[simp] theorem State.queueSync_wd (s : State) : (s.queueSync).wd = s.wd := by simp [State.queueSync]
@[simp] theorem State.queueSync_sf (s : State) : (s.queueSync).sf = s.sf := by simp [State.queueSync]
@[simp] theorem State.queueSync_ct (s : State) : (s.queueSync).ct = s.ct := by simp [State.queueSync]
@[simp] theorem State.queueSync_dr (s : State) : (s.queueSync).dr = s.dr := by simp [State.queueSync]
@[simp] theorem State.queueSync_tm (s : State) : (s.queueSync).tm = s.tm := by simp [State.queueSync]
@[simp] theorem State.queueSync_dm (s : State) : (s.queueSync).dm = s.dm := by simp [State.queueSync]
@[simp] theorem State.queueSync_ml (s : State) : (s.queueSync).ml = s.ml := by simp [State.queueSync]
@[simp] theorem State.queueSync_pw (s : State) : (s.queueSync).pw = s.pw := by simp [State.queueSync]
@[simp] theorem State.queueSync_lc (s : State) : (s.queueSync).lc = s.lc := by simp [State.queueSync]
@[simp] theorem State.queueSync_log (s : State) : (s.queueSync).log = s.log := by simp [State.queueSync]
@[simp] theorem State.queueSync_out (s : State) : (s.queueSync).out = s.out := by simp [State.queueSync]
@[simp] theorem State.queueSync_free (s : State) : (s.queueSync).free = s.free := by simp [State.queueSync]
@[simp] theorem State.queueSync_pending (s : State) : (s.queueSync).pending = s.pending := by simp [State.queueSync]

@[simp] theorem State.dequeue_shadow (s : State) (op : Nat) (c : Cmd) : (s.dequeue op c).shadow = s.shadow := by unfold State.dequeue; split <;> (try split) <;> simp
@[simp] theorem State.dequeue_staged (s : State) (op : Nat) (c : Cmd) : (s.dequeue op c).staged = s.staged := by unfold State.dequeue; split <;> (try split) <;> simp
@[simp] theorem State.dequeue_time (s : State) (op : Nat) (c : Cmd) : (s.dequeue op c).time = s.time := by unfold State.dequeue; split <;> (try split) <;> simp
@[simp] theorem State.dequeue_events (s : State) (op : Nat) (c : Cmd) : (s.dequeue op c).events = s.events := by unfold State.dequeue; split <;> (try split) <;> simp
@[simp] theorem State.dequeue_et (s : State) (op : Nat) (c : Cmd) : (s.dequeue op c).et = s.et := by unfold State.dequeue; split <;> (try split) <;> simp
@[simp] theorem State.dequeue_mem (s : State) (op : Nat) (c : Cmd) : (s.dequeue op c).mem = s.mem := by unfold State.dequeue; split <;> (try split) <;> simp
@[simp] theorem State.dequeue_sl (s : State) (op : Nat) (c : Cmd) : (s.dequeue op c).sl = s.sl := by unfold State.dequeue; split <;> (try split) <;> simp
@[simp] theorem State.dequeue_md (s : State) (op : Nat) (c : Cmd) : (s.dequeue op c).md = s.md := by unfold State.dequeue; split <;> (try split) <;> simp
@[simp] theorem State.dequeue_ch (s : State) (op : Nat) (c : Cmd) : (s.dequeue op c).ch = s.ch := by unfold State.dequeue; split <;> (try split) <;> simp
@[simp] theorem State.dequeue_ix (s : State) (op : Nat) (c : Cmd) : (s.dequeue op c).ix = s.ix := by unfold State.dequeue; split <;> (try split) <;> simp
@[simp] theorem State.dequeue_wd (s : State) (op : Nat) (c : Cmd) : (s.dequeue op c).wd = s.wd := by unfold State.dequeue; split <;> (try split) <;> simp
@[simp] theorem State.dequeue_sf (s : State) (op : Nat) (c : Cmd) : (s.dequeue op c).sf = s.sf := by unfold State.dequeue; split <;> (try split) <;> simp
@[simp] theorem State.dequeue_ct (s : State) (op : Nat) (c : Cmd) : (s.dequeue op c).ct = s.ct := by unfold State.dequeue; split <;> (try split) <;> simp
@[simp] theorem State.dequeue_dr (s : State) (op : Nat) (c : Cmd) : (s.dequeue op c).dr = s.dr := by unfold State.dequeue; split <;> (try split) <;> simp
@[simp] theorem State.dequeue_tm (s : State) (op : Nat) (c : Cmd) : (s.dequeue op c).tm = s.tm := by unfold State.dequeue; split <;> (try split) <;> simp
@[simp] theorem State.dequeue_dm (s : State) (op : Nat) (c : Cmd) : (s.dequeue op c).dm = s.dm := by unfold State.dequeue; split <;> (try split) <;> simp
@[simp] theorem State.dequeue_ml (s : State) (op : Nat) (c : Cmd) : (s.dequeue op c).ml = s.ml := by unfold State.dequeue; split <;> (try split) <;> simp
@[simp] theorem State.dequeue_pw (s : State) (op : Nat) (c : Cmd) : (s.dequeue op c).pw = s.pw := by unfold State.dequeue; split <;> (try split) <;> simp
@[simp] theorem State.dequeue_lc (s : State) (op : Nat) (c : Cmd) : (s.dequeue op c).lc = s.lc := by unfold State.dequeue; split <;> (try split) <;> simp
@[simp] theorem State.dequeue_log (s : State) (op : Nat) (c : Cmd) : (s.dequeue op c).log = s.log := by unfold State.dequeue; split <;> (try split) <;> simp
@[simp] theorem State.dequeue_out (s : State) (op : Nat) (c : Cmd) : (s.dequeue op c).out = s.out := by unfold State.dequeue; split <;> (try split) <;> simp
@[simp] theorem State.dequeue_free (s : State) (op : Nat) (c : Cmd) : (s.dequeue op c).free = s.free := by unfold State.dequeue; split <;> (try split) <;> simp
@[simp] theorem State.dequeue_pending (s : State) (op : Nat) (c : Cmd) : (s.dequeue op c).pending = s.pending := by unfold State.dequeue; split <;> (try split) <;> simp

theorem State.reg_queueSync (s : State) {o : Nat} (h : o ≠ CP_Q_STAT) : s.queueSync.reg o = s.reg o := by
  simp [State.queueSync, State.reg_setF_ne, h]

/-- Taking a command from the queue changes CP_Q_STAT alone among the registers. -/
theorem State.reg_dequeue (s : State) (op : Nat) (c : Cmd) {o : Nat} (h : o ≠ CP_Q_STAT) : (s.dequeue op c).reg o = s.reg o := by
  unfold State.dequeue
  split
  · rfl
  · split
    · rw [State.reg_queueSync _ h]; rfl
    · rfl

theorem State.rf_dequeue (s : State) (op : Nat) (c : Cmd) {o : Nat} (f : Fld) (h : o ≠ CP_Q_STAT) : (s.dequeue op c).rf o f = s.rf o f := by
  simp [State.rf, s.reg_dequeue op c h]

theorem State.dequeue_recovery (s : State) (op : Nat) (c : Cmd) : (s.dequeue op c).cp.recovery = s.cp.recovery := by
  unfold State.dequeue
  repeat' split
  all_goals simp

@[simp] theorem State.permits_dequeue (s : State) (op p : Nat) (c : Cmd) : (s.dequeue op c).permits p = s.permits p := by
  simp [State.permits, State.dequeue_recovery]

@[simp] theorem State.role_dequeue (s : State) (op : Nat) (c : Cmd) : (s.dequeue op c).role = s.role :=
  s.rf_dequeue op c _ (by decide)

@[simp] theorem State.pairRefuses_dequeue (s : State) (op p : Nat) (c : Cmd) (q : Bool) : (s.dequeue op c).pairRefuses p q = s.pairRefuses p q := by
  simp [State.pairRefuses, State.standby]

@[simp] theorem State.replyRoom_dequeue (s : State) (op : Nat) (c : Cmd) (t : Transport) : (s.dequeue op c).replyRoom t = s.replyRoom t := by
  unfold State.replyRoom
  cases t with
  | udp n mac ip port => simp only; rw [s.rf_dequeue op c _ (by unfold ET_P_CTL CP_Q_STAT; omega)]
  | _ => rfl

/-- What Nieth judges of a command that it takes: the command's own checks, then its effect. -/
theorem State.judge_taken {s : State} {op : Nat} {c : Cmd} (h : Taken op c s) (params : State → Option Bad) (body : State → CmdRes) :
    (s.dequeue op c).judge op c params body = (match params (s.dequeue op c) with | some b => .refuse b | none => body (s.dequeue op c)) := by
  have hp := h.permits
  have hr := h.role
  have hf := h.flag2
  unfold State.judge
  cases params (s.dequeue op c) <;>
    simp only [State.permits_dequeue, hp, hf, State.pairRefuses_dequeue, hr, Bool.not_true, Bool.false_eq_true, if_false, bne_self_eq_false, Bool.false_and]

theorem State.command_taken {s : State} {op : Nat} {c : Cmd} (h : Taken op c s) (params : State → Option Bad) (body : State → CmdRes) :
    s.command op c params body = (s.dequeue op c).finish op c (isQuery op c)
      (match params (s.dequeue op c) with | some b => .refuse b | none => body (s.dequeue op c)) := by
  rw [State.command, if_pos h.takes, State.judge_taken h]

/-- A command that passes its checks and whose effect succeeds is answered OK (R402). -/
theorem State.command_ok {s : State} {op : Nat} {c : Cmd} (h : Taken op c s) {params : State → Option Bad} {body : State → CmdRes}
    {ws : List Word} {e : State} (hp : params (s.dequeue op c) = none) (hb : body (s.dequeue op c) = .ok ws e) (hf : Fits ws.length c s) :
    s.command op c params body = e.answer op c (isQuery op c) (replyTo op c stOk 0 0 ws) (!isQuery op c) := by
  rw [State.command_taken h, hp, hb]
  unfold Fits at hf
  simp only [State.finish, State.replyRoom_dequeue]
  rw [if_neg (by omega)]

/-- A command that fails a check is answered with the refusal, and nothing else changes (R401). -/
theorem State.command_refuse {s : State} {op : Nat} {c : Cmd} (h : Taken op c s) {params : State → Option Bad} {body : State → CmdRes}
    {b : Bad} (hp : params (s.dequeue op c) = some b) (hb : b.status ≠ stSignature) :
    s.command op c params body = (s.dequeue op c).answer op c (isQuery op c) (replyTo op c b.status 0 b.word b.words) false := by
  rw [State.command_taken h, hp]
  simp [State.finish, hb]

theorem State.command_body_refuse {s : State} {op : Nat} {c : Cmd} (h : Taken op c s) {params : State → Option Bad} {body : State → CmdRes}
    {b : Bad} (hp : params (s.dequeue op c) = none) (hb : body (s.dequeue op c) = .refuse b) (hs : b.status ≠ stSignature) :
    s.command op c params body = (s.dequeue op c).answer op c (isQuery op c) (replyTo op c b.status 0 b.word b.words) false := by
  rw [State.command_taken h, hp, hb]
  simp [State.finish, hs]

/-- A long operation enters the table of running operations and is answered IN_PROGRESS (R402, R407). -/
theorem State.command_progress {s : State} {op : Nat} {c : Cmd} (h : Taken op c s) {params : State → Option Bad} {body : State → CmdRes}
    {ws : List Word} {e : State} (hp : params (s.dequeue op c) = none) (hb : body (s.dequeue op c) = .progress ws e)
    (hn : (s.dequeue op c).cp.running.length < 8) :
    s.command op c params body = ({ e with cp := { e.cp with running := e.cp.running ++ [(⟨op, c⟩ : QEntry)] } }.answer op c (isQuery op c)
      (replyTo op c stInProgress 0 0 ws) false).queueSync := by
  rw [State.command_taken h, hp, hb]
  simp only [State.finish]
  rw [if_neg (by omega)]

end Sys2Proof.Machine
end

