-- ==== Sys2Proof/Laws/Invariant.lean ====
section
/-! SUPPORT. The shared operations keep `State.Wf`: what touches none of its parts, every way of writing a register, the log, folds, and taking and answering a Pelusk command. -/

namespace Sys2Proof.Machine

variable {s t : State}

/-! ### What the invariant rests on -/

/-- The invariant looks at five fields alone. -/
theorem State.Wf.congr (h : s.Wf) (hr : t.regs = s.regs) (hs : t.shadow = s.shadow) (hg : t.staged = s.staged) (hm : t.mem = s.mem) (hl : t.log = s.log) :
    t.Wf := by
  have e : ∀ o, t.reg o = s.reg o := fun o => by unfold State.reg; rw [hr]
  have f : ∀ o g, t.rf o g = s.rf o g := fun o g => by unfold State.rf; rw [e]
  exact ⟨hr ▸ h.regs, hs ▸ h.shadow, hg ▸ h.staged, hm ▸ h.mem, hl ▸ h.log, (e _).trans h.id, (e _).trans h.rev, (f _ _).trans h.slices,
    (f _ _).trans h.tiles, (f _ _).trans h.ports⟩

/-- New contents of the register file, canonical, that leave the identification registers as they are. -/
theorem State.Wf.withRegs (h : s.Wf) {r : Tbl Word} (hw : tblWf 0 r = true) (hi : ∀ o, idReg o → tblGet 0 r o = s.reg o) : ({ s with regs := r } : State).Wf := by
  have f : ∀ g, ({ s with regs := r } : State).rf GLB_CAP g = s.rf GLB_CAP g := fun g => congrArg (fget · g) (hi _ (.inr (.inr rfl)))
  exact ⟨hw, h.shadow, h.staged, h.mem, h.log, (hi _ (.inl rfl)).trans h.id, (hi _ (.inr (.inl rfl))).trans h.rev, (f _).trans h.slices,
    (f _).trans h.tiles, (f _).trans h.ports⟩

theorem not_idReg {o : Nat} (h : GLB_CAP < o) : ¬ idReg o := by
  unfold idReg GLB_ID GLB_REV
  unfold GLB_CAP at *
  omega

/-! ### Registers -/

theorem State.Wf.setReg (h : s.Wf) {o : Nat} (ho : ¬ idReg o) (w : Word) : (s.setReg o w).Wf :=
  h.withRegs (tblWf_set _ _ _ _ h.regs) fun _ ha => tblGet_set_ne _ _ _ fun e => ho (e ▸ ha)

/-- Writing back what a register holds. -/
theorem State.Wf.setReg_same (h : s.Wf) {o : Nat} {w : Word} (hw : w = s.reg o) : (s.setReg o w).Wf :=
  h.withRegs (tblWf_set _ _ _ _ h.regs) fun a _ => by
    rw [tblGet_set]
    split
    · rename_i e; rw [hw, e]
    · rfl

theorem State.Wf.setF (h : s.Wf) {o : Nat} (ho : ¬ idReg o) (f : Fld) (v : Nat) : (s.setF o f v).Wf := h.setReg ho _

theorem State.Wf.setFB (h : s.Wf) {o : Nat} (ho : ¬ idReg o) (f : Fld) (i : Nat) (b : Bool) : (s.setFB o f i b).Wf := h.setReg ho _

theorem State.Wf.setReg64 (h : s.Wf) {o : Nat} (h1 : ¬ idReg o) (h2 : ¬ idReg (o + 4)) (v : Nat) : (s.setReg64 o v).Wf := (h.setReg h1 _).setReg h2 _

/-- The invariant says nothing of what happens in the present cycle. -/
theorem State.Wf.withFresh (h : s.Wf) (f : Tbl Word) : ({ s with fresh := f } : State).Wf := h.congr rfl rfl rfl rfl rfl

theorem State.Wf.note (h : s.Wf) (o : Nat) (w : Word) : (s.note o w).Wf := h.withFresh _

theorem State.Wf.setSeen (h : s.Wf) {o : Nat} (ho : ¬ idReg o) (f : Fld) (v : Nat) : (s.setSeen o f v).Wf := (h.setF ho f v).note _ _

theorem State.Wf.setSeenB (h : s.Wf) {o : Nat} (ho : ¬ idReg o) (f : Fld) (i : Nat) : (s.setSeenB o f i).Wf := (h.setFB ho f i true).note _ _

theorem State.Wf.bumpBy (h : s.Wf) {o : Nat} (ho : ¬ idReg o) (f : Fld) (n : Nat) : (s.bumpBy o f n).Wf := (h.setF ho f _).note _ _

theorem State.Wf.bump (h : s.Wf) {o : Nat} (ho : ¬ idReg o) : (s.bump o).Wf := h.bumpBy ho _ _

theorem State.Wf.bump64 (h : s.Wf) {o : Nat} (h1 : ¬ idReg o) (h2 : ¬ idReg (o + 4)) (n : Nat) : (s.bump64 o n).Wf :=
  ((h.setReg64 h1 h2 _).note _ _).note _ _

theorem State.Wf.clearCount (h : s.Wf) {o : Nat} (ho : ¬ idReg o) (f : Fld) : (s.clearCount o f).Wf := h.setF ho f _

theorem State.Wf.clearOnes (h : s.Wf) {o : Nat} (ho : ¬ idReg o) (v : Word) : (s.clearOnes o v).Wf := h.setReg ho _

theorem State.Wf.clearCounters (h : s.Wf) {l : List Nat} (hl : ∀ o ∈ l, ¬ idReg o) : (s.clearCounters l).Wf :=
  h.withRegs (tblWf_foldSet _ _ _ _ h.regs) fun a ha => by
    rw [tblGet_foldSet, if_neg fun hm => hl a hm ha]
    rfl

theorem State.Wf.clearRegs (h : s.Wf) {l : List Nat} (hl : ∀ o ∈ l, ¬ idReg o) : (s.clearRegs l).Wf :=
  h.withRegs (tblWf_setAll _ _ _ _ h.regs) fun a ha => by
    rw [tblGet_setAll, if_neg fun hm => hl a hm ha]
    rfl

/-- NCH is not among what identifies the device. -/
theorem State.Wf.setNch (h : s.Wf) (v : Nat) : (s.setF GLB_CAP GLB_CAP_NCH v).Wf := by
  have e : ∀ g, GLB_CAP_NCH.apart g → (s.setF GLB_CAP GLB_CAP_NCH v).rf GLB_CAP g = s.rf GLB_CAP g := fun g hg => by
    unfold State.rf
    rw [show (s.setF GLB_CAP GLB_CAP_NCH v).reg GLB_CAP = fput (s.reg GLB_CAP) GLB_CAP_NCH v from State.reg_setReg_same _ _ _]
    exact fget_fput_apart _ _ _ _ (by decide) hg
  exact ⟨tblWf_set _ _ _ _ h.regs, h.shadow, h.staged, h.mem, h.log, (State.reg_setReg_ne s _ (by decide)).trans h.id,
    (State.reg_setReg_ne s _ (by decide)).trans h.rev, (e _ (.inl (by decide))).trans h.slices, (e _ (.inl (by decide))).trans h.tiles,
    (e _ (.inl (by decide))).trans h.ports⟩

/-! ### Registers written field by field (R14, R18) -/

theorem fput_fget (w : Word) (f : Fld) : fput w f (fget w f) = w := by
  unfold fput fget
  rw [Nat.mod_mod, Nat.sub_add_cancel]
  · simp
  · exact (Nat.mul_le_mul_right _ (Nat.mod_le _ _)).trans (Nat.div_mul_le_self _ _)

/-- A register whose fields are all read-only keeps its value. -/
theorem fieldsWrite_ro (old v : Word) (ds : List FieldDesc) (h : ∀ d ∈ ds, d.acc = .ro) : (fieldsWrite old v ds).1 = old := by
  induction ds with
  | nil => rfl
  | cons d ds ih =>
    simp only [fieldsWrite, fieldWrite, h d (by simp), ih fun x hx => h x (by simp [hx])]
    exact fput_fget _ _

/-- Every field of an identification register is read-only, and none belongs to the profile. -/
theorem idReg_fields {o : Nat} {d : RegDesc} (hd : regAt o = some d) (ho : idReg o) : ∀ x ∈ d.fields, x.acc = .ro ∧ x.profile = false := by
  have key : ∀ a ∈ [GLB_ID, GLB_REV, GLB_CAP], ∀ e ∈ regAt a, ∀ x ∈ e.fields, x.acc = .ro ∧ x.profile = false := by decide
  exact key o (by rcases ho with rfl | rfl | rfl <;> simp) d hd

/-- A register without a rule of `crossKeep` takes what its fields take. -/
theorem crossKeep_none {base : Nat}
    (h : base ∉ [SF_CU_CTL 0, MD_SL_RING_LEN 0, MD_SL_RING_BASE_LO 0, IX_DUMP_BASE_LO, IX_DUMP_LEN, ET_DS_CTL, TM_SRC_LIM 0]) (old w : Word) :
    crossKeep base old w = (w, false) := by
  simp only [List.mem_cons, List.not_mem_nil, or_false, not_or] at h
  obtain ⟨h1, h2, h3, h4, h5, h6, h7⟩ := h
  rw [crossKeep, if_neg h1, if_neg h2, if_neg (by rintro (h | h | h) <;> contradiction), if_neg h6, if_neg h7]

theorem regAt_base_id {o : Nat} {d : RegDesc} (hd : regAt o = some d) (ho : idReg o) :
    d.base ∉ [SF_CU_CTL 0, MD_SL_RING_LEN 0, MD_SL_RING_BASE_LO 0, IX_DUMP_BASE_LO, IX_DUMP_LEN, ET_DS_CTL, TM_SRC_LIM 0] := by
  have key : ∀ a ∈ [GLB_ID, GLB_REV, GLB_CAP], ∀ e ∈ regAt a,
      e.base ∉ [SF_CU_CTL 0, MD_SL_RING_LEN 0, MD_SL_RING_BASE_LO 0, IX_DUMP_BASE_LO, IX_DUMP_LEN, ET_DS_CTL, TM_SRC_LIM 0] := by decide
  exact key o (by rcases ho with rfl | rfl | rfl <;> simp) d hd

/-- A write of an identification register changes nothing (R550). -/
theorem idReg_write {o : Nat} {d : RegDesc} (hd : regAt o = some d) (ho : idReg o) (old v : Word) : (d.write old v).1 = old := by
  simp only [RegDesc.write, crossKeep_none (regAt_base_id hd ho)]
  exact fieldsWrite_ro _ _ _ fun x hx => (idReg_fields hd ho x hx).1

theorem idReg_w1c {o : Nat} {d : RegDesc} (hd : regAt o = some d) (ho : idReg o) : w1cMask d.fields = 0 := by
  have key : ∀ a ∈ [GLB_ID, GLB_REV, GLB_CAP], ∀ e ∈ regAt a, w1cMask e.fields = 0 := by decide
  exact key o (by rcases ho with rfl | rfl | rfl <;> simp) d hd

theorem State.Wf.setWrite (h : s.Wf) {o : Nat} {d : RegDesc} (hd : regAt o = some d) (v : Word) : (s.setReg o (d.write (s.reg o) v).1).Wf := by
  by_cases ho : idReg o
  · exact h.setReg_same (idReg_write hd ho _ _)
  · exact h.setReg ho _

theorem State.Wf.config (h : s.Wf) (o : Nat) (v : Word) : (s.config o v).Wf := by
  unfold State.config
  split
  · exact h.setWrite ‹_› v
  · exact h

theorem State.Wf.configAll (h : s.Wf) (l : List (Nat × Word)) : (s.configAll l).Wf := by
  induction l generalizing s with
  | nil => exact h
  | cons p l ih => exact ih (h.config _ _)

/-- A register with profile fields identifies nothing. -/
theorem profReg_not_idReg {o : Nat} {d : RegDesc} (hd : profReg o = some d) : ¬ idReg o := by
  intro ho
  unfold profReg at hd
  rw [Option.filter_eq_some_iff, List.any_eq_true] at hd
  obtain ⟨h1, x, hx, hp⟩ := hd
  rw [(idReg_fields h1 ho x hx).2] at hp
  cases hp

/-! ### The log, interrupts and violations -/

theorem State.Wf.logEvent (h : s.Wf) (code sev : Nat) (d : List Word) : (s.logEvent code sev d).Wf := by
  have key : ∀ l : List LogEntry, l.length ≤ 262144 - 1024 → ({ s with log := l } : State).Wf := fun l hl =>
    ⟨h.regs, h.shadow, h.staged, h.mem, hl, h.id, h.rev, h.slices, h.tiles, h.ports⟩
  have kept : ∀ n, logKept n ≤ 262144 - 1024 := fun n => by unfold logKept; omega
  exact (key _ ((List.length_take_le _ _).trans (kept _))).setReg (not_idReg (by decide)) _

theorem State.Wf.emit (h : s.Wf) (o : Out) : (s.emit o).Wf := h.congr rfl rfl rfl rfl rfl

theorem State.Wf.draw (h : s.Wf) : s.draw.Wf := h.congr rfl rfl rfl rfl rfl

theorem State.Wf.signal (h : s.Wf) (v : Nat) : (s.signal v).Wf := by
  unfold State.signal
  split
  · exact h.setF (not_idReg (by unfold msixPba GLB_CAP; omega)) _ _
  · exact h.emit _

theorem State.Wf.raise (h : s.Wf) (i : Nat) : (s.raise i).Wf := by
  have h1 : (s.setSeenB EV_INT_STAT EV_INT_STAT_PEND i).Wf := h.setSeenB (not_idReg (by decide)) _ _
  unfold State.raise
  dsimp only
  split
  · exact h1.signal _
  · exact h1

theorem State.Wf.seen (h : s.Wf) {o : Nat} (ho : ¬ idReg o) (f : Fld) (i : Nat) : (s.seen o f i).Wf := (h.setSeen ho _ _).raise _

theorem State.Wf.logViolation (h : s.Wf) : s.logViolation.Wf :=
  State.Wf.logEvent (s := { s with cp := { s.cp with avSince := false } }) (h.congr rfl rfl rfl rfl rfl) _ _ _

theorem State.Wf.noteViolation (h : s.Wf) (w : Word) (a d : Nat) : (s.noteViolation w a d).Wf := by
  unfold State.noteViolation
  split
  · exact (((h.note _ _).note _ _).note _ _).note _ _
  · exact h

theorem State.Wf.violation (h : s.Wf) (src kind addr data : Nat) : (s.violation src kind addr data).Wf := by
  have h1 : ((s.bump GLB_AV_COUNT).noteViolation (w32 (2 ^ 31 + src % 8 * 2 ^ 28 + kind % 16 * 2 ^ 24)) addr data).Wf :=
    (h.bump (not_idReg (by decide))).noteViolation _ _ _
  refine State.Wf.raise ?_ _
  split
  · exact h1.congr rfl rfl rfl rfl rfl
  · refine State.Wf.logViolation (State.Wf.setReg (State.Wf.setReg64 (h1.setReg ?_ _) ?_ ?_ _) ?_ _) <;> exact not_idReg (by decide)

theorem State.Wf.plainWrite (h : s.Wf) (r : Requester) {o : Nat} {d : RegDesc} (hd : regAt o = some d) (v : Word) : (s.plainWrite r o v d).Wf := by
  have h1 : (s.setReg o ((d.write (s.reg o) v).1 ||| (s.freshAt o &&& w1cMask d.fields))).Wf := by
    by_cases ho : idReg o
    · exact h.setReg_same (by rw [idReg_write hd ho, idReg_w1c hd ho]; simp)
    · exact h.setReg ho _
  unfold State.plainWrite
  dsimp only
  split
  · exact h1.violation _ _ _ _
  · exact h1

/-! ### Memory, pairs, folds -/

theorem State.Wf.memWrite (h : s.Wf) (a : Nat) (bs : List Byte) : (s.memWrite a bs).Wf :=
  ⟨h.regs, h.shadow, h.staged, tblWf_setRun _ _ _ _ h.mem, h.log, h.id, h.rev, h.slices, h.tiles, h.ports⟩

theorem State.Wf.setShadow (h : s.Wf) (k : Nat) (v : Option Word) : ({ s with shadow := tblSet none s.shadow k v } : State).Wf :=
  ⟨h.regs, tblWf_set _ _ _ _ h.shadow, h.staged, h.mem, h.log, h.id, h.rev, h.slices, h.tiles, h.ports⟩

theorem State.Wf.setStaged (h : s.Wf) (k : Nat) (v : Option Word) : ({ s with staged := tblSet none s.staged k v } : State).Wf :=
  ⟨h.regs, h.shadow, tblWf_set _ _ _ _ h.staged, h.mem, h.log, h.id, h.rev, h.slices, h.tiles, h.ports⟩

theorem State.Wf.foldl {β : Type} {f : State → β → State} {l : List β} (h : s.Wf) (hf : ∀ (u : State) (b : β), b ∈ l → u.Wf → (f u b).Wf) :
    (l.foldl f s).Wf := by
  induction l generalizing s with
  | nil => exact h
  | cons x l ih => exact ih (hf _ _ (by simp) h) fun u b hb hu => hf u b (by simp [hb]) hu

/-- The invariant through a conditional of which nothing more is known. -/
theorem State.Wf.ite {c : Prop} [Decidable c] {a b : State} (ha : a.Wf) (hb : b.Wf) : (if c then a else b).Wf := by
  split
  · exact ha
  · exact hb

/-- What a powered device does, a meaning does. -/
theorem whenOn_wf (h : s.Wf) {f : State → State} (hf : ∀ u : State, u.Wf → (f u).Wf) : ∃ t, whenOn s f = .next t ∧ t.Wf := by
  refine ⟨_, rfl, ?_⟩
  split
  · exact hf _ h
  · exact h

/-! ### Replies (R399, R402, R404, R405) -/

theorem State.Wf.queueSync (h : s.Wf) : s.queueSync.Wf :=
  ((h.setF (not_idReg (by decide)) _ _).setF (not_idReg (by decide)) _ _).setF (not_idReg (by decide)) _ _

theorem State.Wf.dequeue (h : s.Wf) (op : Nat) (c : Cmd) : (s.dequeue op c).Wf := by
  unfold State.dequeue
  split
  · exact h
  · exact State.Wf.ite (State.Wf.queueSync (h.congr rfl rfl rfl rfl rfl)) h

theorem State.Wf.setPort (h : s.Wf) (n : Nat) (p : PortSt) : (s.setPort n p).Wf := h.congr rfl rfl rfl rfl rfl

theorem State.Wf.bufWrite (h : s.Wf) (off : Nat) (bs : List Byte) : (s.bufWrite off bs).Wf := h.congr rfl rfl rfl rfl rfl

theorem State.Wf.mlEmit (h : s.Wf) (b : MlBlock) : (s.mlEmit b).Wf :=
  State.Wf.emit (s := { s with ml := { s.ml with ackDue := false } }) (h.congr rfl rfl rfl rfl rfl) _

theorem State.Wf.stampTx (h : s.Wf) (n : Nat) (f : TxFrame) : (s.stampTx n f).Wf := by
  unfold State.stampTx
  split
  · exact h
  · exact h.congr rfl rfl rfl rfl rfl

theorem State.Wf.txBegin (h : s.Wf) (n c : Nat) (f : TxFrame) (cut : Option TxFrame) : (s.txBegin n c f cut).Wf :=
  State.Wf.stampTx (h.setPort _ _) _ _

theorem State.Wf.txStart (h : s.Wf) (n : Nat) : (s.txStart n).Wf := by
  unfold State.txStart
  dsimp only
  refine State.Wf.ite h ?_
  split
  · exact State.Wf.ite ((h.txBegin _ _ _ _).bump (not_idReg (by unfold ET_P_TX_PREEMPT GLB_CAP; omega))) h
  · exact h
  · exact h.txBegin _ _ _ _
  · exact h.setPort _ _
  · split
    · exact h
    · exact h.txBegin _ _ _ _

theorem State.Wf.c0Wait (h : s.Wf) (n : Nat) (f : TxFrame) : (s.c0Wait n f).Wf :=
  State.Wf.ite (h.setPort _ _) (h.bump (not_idReg (by unfold ET_P_C0_OVERFLOW GLB_CAP; omega)))

theorem State.Wf.txQueue (h : s.Wf) (n : Nat) (f : TxFrame) : (s.txQueue n f).Wf :=
  State.Wf.ite (h.c0Wait _ _) (State.Wf.ite (State.Wf.txStart (h.setPort _ _) _) (State.Wf.txStart (h.setPort _ _) _))

theorem State.Wf.mlSend (h : s.Wf) (m : MlMsg) : (s.mlSend m).Wf := by
  exact State.Wf.ite (State.Wf.foldl (h.congr rfl rfl rfl rfl rfl) fun u b _ hu => hu.mlEmit b) (h.congr rfl rfl rfl rfl rfl)

theorem State.Wf.deltaSend (h : s.Wf) : s.deltaSend.Wf := State.Wf.ite (h.mlSend _) h

theorem State.Wf.slotReply (h : s.Wf) (k : Nat) (r : Reply) : (s.slotReply k r).Wf := by
  have h1 : ((s.bufWrite (replySlot k) r.bytes).setSeenB CP_MB_STAT CP_MB_STAT_REPLY k).Wf :=
    State.Wf.setSeenB (h.bufWrite _ _) (not_idReg (by decide)) _ _
  exact State.Wf.ite (h1.raise _) h1

theorem State.Wf.sendNow (h : s.Wf) (t : Transport) (query : Bool) (r : Reply) : (s.sendNow t query r).Wf := by
  unfold State.sendNow
  split
  · exact h.slotReply _ _
  · exact State.Wf.ite (h.draw.txQueue _ _) h
  · exact State.Wf.ite (h.mlSend _) h
  · exact h.congr rfl rfl rfl rfl rfl
  · exact h

theorem State.Wf.cacheReply (h : s.Wf) (r : Reply) (script : Bool) : (s.cacheReply r script).Wf :=
  State.Wf.ite (h.congr rfl rfl rfl rfl rfl) (h.congr rfl rfl rfl rfl rfl)

theorem State.Wf.answer (h : s.Wf) (op : Nat) (c : Cmd) (query : Bool) (r : Reply) (changed : Bool) : (s.answer op c query r changed).Wf := by
  have h1 : (if query then s else s.cacheReply r (c.transport == .script)).Wf := State.Wf.ite h (h.cacheReply _ _)
  unfold State.answer
  generalize (if query then s else s.cacheReply r (c.transport == .script)) = s1 at h1
  dsimp only
  exact State.Wf.ite (State.Wf.ite (h1.deltaSend.congr rfl rfl rfl rfl rfl) (h1.deltaSend.sendNow _ _ _)) (h1.sendNow _ _ _)

/-! ### A command taken from the queue (R401) -/

/-- The state that a command's outcome leaves, if it leaves one, meets the invariant. -/
def CmdRes.Wf : CmdRes → Prop
  | .refuse _ => True
  | .counted _ t => t.Wf
  | .ok _ t => t.Wf
  | .progress _ t => t.Wf
  | .scheduled _ t => t.Wf
  | .later t => t.Wf

theorem State.Wf.finish (h : s.Wf) (op : Nat) (c : Cmd) (query : Bool) {x : CmdRes} (hx : x.Wf) : (s.finish op c query x).Wf := by
  unfold State.finish
  split
  · refine State.Wf.answer (State.Wf.ite ?_ h) _ _ _ _ _
    exact State.Wf.logEvent (h.bump (not_idReg (by decide))) _ _ _
  · exact State.Wf.answer hx _ _ _ _ _
  · exact State.Wf.ite (h.answer _ _ _ _ _) (State.Wf.answer hx _ _ _ _ _)
  · exact State.Wf.answer hx _ _ _ _ _
  · exact hx
  · refine State.Wf.ite (h.answer _ _ _ _ _) (State.Wf.queueSync (State.Wf.answer ?_ _ _ _ _ _))
    exact State.Wf.congr hx rfl rfl rfl rfl rfl

theorem State.Wf.command (h : s.Wf) (op : Nat) (c : Cmd) (params : State → Option Bad) {body : State → CmdRes}
    (hb : ∀ u : State, u.Wf → (body u).Wf) : (s.command op c params body).Wf := by
  refine State.Wf.ite (State.Wf.finish (h.dequeue op c) _ _ _ ?_) h
  unfold State.judge bad
  split
  · trivial
  · split
    · trivial
    · split
      · trivial
      · split
        · trivial
        · exact hb _ (h.dequeue op c)

end Sys2Proof.Machine
end

