-- ==== Sys2Proof/WellFormed.lean ====
section
/-! DEFINITION. Well-formed commands: every index names something that the device has, and every payload fits a packet. -/

namespace Sys2Proof

open Machine

/-- A transport names a slot or a port that exists, and addresses within their widths (R390). -/
def Machine.Transport.wf : Transport → Bool
  | .slot k => decide (k < 5)
  | .udp n mac _ port => decide (n < 4) && decide (mac < 2 ^ 48) && decide (port < 65536)
  | .miltia => true
  | .script => true
  | .muted => true

/-- A packet is at most 4,116 bytes, 20 of them header and CRC (R394, R398). -/
def Machine.Cmd.wf (c : Cmd) : Bool := c.transport.wf && decide (c.payload.length ≤ 1024)

/-- A receive lane: of the eight of an octet, or of the four of the Miltia link, which octet number 64 names (R61, R434). -/
def linkLane (o j : Nat) : Bool := (decide (o < 64) && decide (j < 8)) || (o == 64 && decide (j < 4))

/-- A command's operands name things that exist. -/
def Instr.wf : Instr → Bool
  | .registerWrite _ off be _ => decide (off < 2 ^ 26) && decide (be < 16)
  | .pairLoRead _ off => Sys2Proof.Machine.isPair off
  | .pairHiRead _ off => (Sys2Proof.Machine.isPair (off - 4) && decide (4 ≤ off)) || off == Sys2Proof.Machine.TM_PTP_SNAP_T32
  | .pairLoWrite _ off _ => Sys2Proof.Machine.isPair off
  | .pairHiWrite _ off _ => Sys2Proof.Machine.isPair (off - 4) && decide (4 ≤ off)
  | .avLogRepeat => true
  | .glbCntClrAv => true
  | .ppsEdge k _ phase => decide (k < 6) && decide (phase < 16)
  | .epochLoad offs _ _ _ => decide (offs.length = 6)
  | .missedPps => true
  | .eventCommit h => decide (h < 65536)
  | .eventFire => true
  | .c0SpacingRelease n => decide (n < 4)
  | .dataBlockReceived o j raw => decide (o < 64) && decide (j < 8) && decide (raw.length = 16)
  | .idleBlockReceived o j raw => decide (o < 64) && decide (j < 8) && decide (raw.length = 16)
  | .checkBlockReceived o j raw => decide (o < 64) && decide (j < 8) && decide (raw.length = 16)
  | .degradedClear o j => decide (o < 64) && decide (j < 8)
  | .controlReplyReceived o j raw => decide (o < 64) && decide (j < 8) && decide (raw.length = 16)
  | .blockLockGained o j _ lane seq count _ _ _ => linkLane o j && decide (lane < 8) && decide (seq < 128) && decide (count < 2 ^ 48)
  | .blockLockLost o j => linkLane o j
  | .lossOfSignal o lane => decide (o < 65) && lane.all (linkLane o)
  | .lossOfSignalClear o lane => decide (o < 65) && lane.all (linkLane o)
  | .forwardedClockLost o => decide (o < 65)
  | .laneSlip o j _ => decide (o < 64) && decide (j < 8)
  | .releasePointSet leads => leads.all fun l => decide (l.1 < 512)
  | .sampleRelease => true
  | .controlReplyTimeout o => decide (o < 65)
  | .statusPoll => true
  | .statusReplyTimeout o => decide (o < 64)
  | .ladderStart o => decide (o < 64)
  | .ladderStepTimeout o => decide (o < 65)
  | .rungSwitch o => decide (o < 65)
  | .forwardedClockLock o => decide (o < 65)
  | .dwellPassed o => decide (o < 65)
  | .octetDownRetry o => decide (o < 65)
  | .eqFreeze o j => decide (o < 64) && decide (j < 8)
  | .eqResume o j => decide (o < 64) && decide (j < 8)
  | .pathRejoin o p => decide (o < 64) && decide (p < 8)
  | .controlWakeDone o => decide (o < 64)
  | .laneLadder c => c.wf
  | .laneSleep c => c.wf
  | .lanePrbs c => c.wf
  | .laneStatus c => c.wf
  | .adcAccess c => c.wf
  | .releaseSet c => c.wf
  | .slCntClrAll => true
  | .slCntClrOctet o => decide (o < 64)
  | .bundleIssue i => decide (i.slice < 64) && i.ecc.groups.all fun g => decide (g.1 < 8)
  | .vldsStallEnd i => decide (i.slice < 64) && i.ecc.groups.all fun g => decide (g.1 < 8)
  | .outComplete k => decide (k < 64)
  | .sliceAutoRestart k => decide (k < 64)
  | .programSwapLoadDone k => decide (k < 64)
  | .mdProgStore c => c.wf
  | .mdProgSwap c => c.wf
  | .mdSliceStatus c => c.wf
  | .mdSliceRestart c => c.wf
  | .mdProgList c => c.wf
  | .mdProgErase c => c.wf
  | .mdCntClrAll => true
  | .mdCntClrSlice k => decide (k < 64)
  | .scaleEpochBoundary k => decide (k < 64)
  | .calBankCopyDone k => decide (k < 64)
  | .chDelaySet c => c.wf
  | .chCalLoad c => c.wf
  | .chCalSwap c => c.wf
  | .chCalFetch c => c.wf
  | .chCalFetchDone => true
  | .chCalStore c => c.wf
  | .chCalStoreDone => true
  | .chTargetSet c => c.wf
  | .chScaleRead c => c.wf
  | .stagingFillArrival _ => true
  | .indigoPassStart d => decide (d < 2)
  | .indigoPassEnd d => decide (d < 2)
  | .passDeadline _ => true
  | .integrationBoundary => true
  | .bankClose => true
  | .drainEnd => true
  | .drainRingSpace => true
  | .ixProductSet c => c.wf
  | .ixBudgetCheck c => c.wf
  | .ixIntegStop c => c.wf
  | .ixStatus c => c.wf
  | .ixDumpRelease c => c.wf
  | .ixTileMap c => c.wf
  | .ixDumpRing c => c.wf
  | .ixCntClrAll => true
  | .ixCntClrSat => true
  | .woadPassStart => true
  | .beamPacketEmit b => decide (b < 64)
  | .totalPowerClose b => decide (b < 64)
  | .woadResumeGap => true
  | .polyTableCopyDone => true
  | .wdPolyLoad c => c.wf
  | .wdPolyLoadDone => true
  | .wdPolySwap c => c.wf
  | .wdBeamConfig c => c.wf
  | .wdBudgetCheck c => c.wf
  | .wdStatus c => c.wf
  | .wdPolyFetch c => c.wf
  | .wdPolyFetchDone => true
  | .wdPolyStore c => c.wf
  | .wdPolyStoreDone => true
  | .wdCntClrAll => true
  | .trainingEnd t => decide (t < 16)
  | .hitHoldExpire c p => decide (c < 8) && decide (p < 512)
  | .trigPulseEnd o => decide (o < 8)
  | .triginEdge x _ _ => decide (x < 4)
  | .messageSpanEnd => true
  | .messageCheckDone q => decide (q < 2 ^ 32)
  | .messageCheckTimeout q => decide (q < 2 ^ 32)
  | .umberSlabWrite => true
  | .sfUbArm _ => true
  | .sfUbLenWrite _ _ => true
  | .sfTrigConfig c => c.wf
  | .sfTbpLoad c => c.wf
  | .sfStatus c => c.wf
  | .sfUbConfig c => c.wf
  | .sfUbRearm c => c.wf
  | .sfUbStatus c => c.wf
  | .sfCntClrAll => true
  | .frameReceive n _ _ => decide (n < 4)
  | .pfcRefresh n cls => decide (n < 4) && decide (cls < 4)
  | .pfcXon n cls => decide (n < 4) && decide (cls < 4)
  | .pauseFrameReceived n => decide (n < 4)
  | .pfcFrameReceived n => decide (n < 4)
  | .pauseTimerExpire n q => decide (n < 4) && decide (q < 8)
  | .arpRequestReceived n => decide (n < 4)
  | .ctBlockReceived n => decide (n < 4)
  | .ctNakReceived n => decide (n < 4)
  | .ctGoneReceived n => decide (n < 4)
  | .ctBlockQueue m b r _ => decide (m < 4) && decide (b < 128) && decide (r < 8)
  | .nakDelayExpire m p => decide (m < 4) && decide (p < 4)
  | .nakRetryExpire m p => decide (m < 4) && decide (p < 4)
  | .graceExpire st => decide (st % 8192 = 0) && decide (st < 2 ^ 64)
  | .frameTransmitEnd n _ _ => decide (n < 4)
  | .linkUp n => decide (n < 4)
  | .linkDown n => decide (n < 4)
  | .preemptVerifyRetry n => decide (n < 4)
  | .respondMpacketReceived n => decide (n < 4)
  | .dumpStreamSend => true
  | .etPortConfig c => c.wf
  | .etFilterSet c => c.wf
  | .etCtConfig c => c.wf
  | .etPortStatus c => c.wf
  | .etCtStatus c => c.wf
  | .etDsConfig c => c.wf
  | .etDumpResend c => c.wf
  | .etCntClrAll => true
  | .etCntClrCt => true
  | .etCntClrPorts mask => decide (mask < 16)
  | .gateClose offs _ _ _ => decide (offs.length = 6)
  | .qualCountReached k => decide (k < 6)
  | .persistExpire k => decide (k < 6)
  | .wtrExpire k => decide (k < 6)
  | .refClockLoss k => decide (k < 6)
  | .ppsLoss k => decide (k < 6)
  | .ptpLoss d _ => decide (d < 2)
  | .sourceSignalPresent k => decide (k < 6)
  | .coarseFreqDone k _ => decide (k < 6)
  | .initialLockDone offs _ _ _ _ => decide (offs.length = 6)
  | .switchLocked => true
  | .clkoutStart n => decide (n < 4)
  | .framePulseStart n => decide (n < 4)
  | .framePulseEnd n => decide (n < 4)
  | .ptpSyncReceived n => decide (n < 4)
  | .ptpFollowUpReceived n => decide (n < 4)
  | .ptpDelayRespReceived n => decide (n < 4)
  | .ptpAnnounceReceived n => decide (n < 4)
  | .ptpOtherDiscard n => decide (n < 4)
  | .ptpDelayReqSend d => decide (d < 2)
  | .ptpLargeOffset => true
  | .ptpSecondSnapshot => true
  | .ptpSnapSecLoRead _ => true
  | .tmSrcConfig c => c.wf
  | .tmRefSelect c => c.wf
  | .tmHoConfig c => c.wf
  | .tmOutConfig c => c.wf
  | .tmEpochLoad c => c.wf
  | .tmTaiMap c => c.wf
  | .tmPtpConfig c => c.wf
  | .tmPtpStep c => c.wf
  | .tmStatus c => c.wf
  | .tmPtpTsRead c => c.wf
  | .tmCntClrAll => true
  | .dramRequest m cls _ _ _ _ _ => decide (m < 5) && decide (cls < 4)
  | .dramReadComplete n found => decide (n < 16) && found.all fun f => decide (f < 3)
  | .requestAgePromote n _ => decide (n < 16)
  | .refreshDue n r => decide (n < 16) && decide (r < 2)
  | .postponedRefreshMakeup n r => decide (n < 16) && decide (r < 2)
  | .rankPowerDown n r => decide (n < 16) && decide (r < 2)
  | .rowIdleClose n r b => decide (n < 16) && decide (r < 2) && decide (b < 32)
  | .scrubPatrolRead found => decide (found < 3)
  | .memoryRailFault => true
  | .drStatus c => c.wf
  | .drBoardSet c => c.wf
  | .drSweep c => c.wf
  | .drSweepDone => true
  | .drTableStore c => c.wf
  | .drTableStoreDone => true
  | .drSchedConfig c => c.wf
  | .drCntClrAll => true
  | .drCntClrCh mask => decide (mask < 65536)
  | .dmChCtlGo _ n _ => decide (n < 32)
  | .dmChCtlAbort _ n _ => decide (n < 32)
  | .dmChCtlKick _ n _ => decide (n < 32)
  | .dmChDescWrite _ n _ _ => decide (n < 32)
  | .dmIntStatClear _ => true
  | .dmHaltStatClear _ => true
  | .dmIntEnWrite _ => true
  | .dmHaltEnWrite _ => true
  | .dmCntClrWrite _ => true
  | .descriptorFetchDone n _ => decide (n < 32)
  | .dmaBeatDone n _ _ _ => decide (n < 32)
  | .dmaBeatError n _ => decide (n < 32)
  | .dmaBeatTimeout n _ => decide (n < 32)
  | .dmaRetryIssue n _ => decide (n < 32)
  | .descriptorComplete n _ => decide (n < 32)
  | .abortHalt n => decide (n < 32)
  | .dmStart c => c.wf
  | .dmKick c => c.wf
  | .dmAbort c => c.wf
  | .dmStatus c => c.wf
  | .requestSlotWrite _ k off _ => decide (k < 5) && decide (off < 0x2000)
  | .mailboxDoorbell _ k => decide (k < 8)
  | .mailboxReplyRelease mask => decide (mask < 32)
  | .noticeRingReadAdvance _ _ => true
  | .cpCntClrAll => true
  | .mgmtRegisterWrite off _ => decide (off < 2 ^ 32)
  | .mgmtRegisterRead off => decide (off < 2 ^ 32)
  | .mgmtBlockRead off n => decide (off < 2 ^ 32) && decide (n ≤ 4128)
  | .mgmtSlotWrite off bs => decide (off < 65536) && decide (1 ≤ bs.length) && decide (bs.length ≤ 4116)
  | .mgmtDoorbell => true
  | .mgmtUnknownCode code => decide (code < 256) && (decide (code = 0) || decide (5 < code))
  | .peluskDatagramReceived n => decide (n < 4)
  | .bar2Read o r => decide (o + r.len ≤ 2 ^ 28) && r.found.all fun f => decide (f < 3)
  | .bar2Write o bs => decide (o + bs.length ≤ 2 ^ 28)
  | .functionLevelReset => true
  | .pcieLinkLoss => true
  | .sysInfo c => c.wf
  | .sysResetWarm c => c.wf
  | .sysResetCompute c => c.wf
  | .sysSession c => c.wf
  | .sysRegWrite c => c.wf
  | .sysAperture c => c.wf
  | .scList c => c.wf
  | .scCancel c => c.wf
  | .profStore c => c.wf
  | .profActivate c => c.wf
  | .profList c => c.wf
  | .scCntClrAll => true
  | .niethServing => true
  | .computeRestartDone => true
  | .vinValid pins => pins.all fun p => decide (p < 4)
  | .coldResetAssert => true
  | .coldResetRelease pins => pins.all fun p => decide (p < 4)
  | .startupDiodeOk _ => true
  | .wipeComplete fails chans _ => decide (fails < 64) && decide (chans < 65536)
  | .refWaitDone => true
  | .refWaitExpire => true
  | .startupEpochArm => true
  | .profilePinsUnstable samples => decide (samples < 256)
  | .miltiaDataBlockReceived b => decide (b.length = 256)
  | .miltiaAckBlockReceived b => decide (b.length = 256)
  | .miltiaLinkBlockReceived b => decide (b.length = 256)
  | .miltiaIdleBlockReceived b => decide (b.length = 256)
  | .miltiaAckTimer => true
  | .miltiaResendTimeout => true
  | .miltiaLinkDown lock => decide (lock < 16)
  | .miltiaRelockTimeout => true
  | .miltiaLinkUp rung _ _ => decide (rung < 4)
  | .heartbeatSend => true
  | .heartbeatWordReceived p n bs => (decide (p = 0) && decide (bs.length = 256)) || (decide (p = 1) && decide (bs.length = 15)) || (decide (p = 2) && decide (n < 4))
  | .hbPathTimeout p => decide (p < 3)
  | .promotion => true
  | .fenceSettle => true
  | .leaseExpire => true
  | .checkpointFullSend => true
  | .verdigrisItemStart => true
  | .verdigrisItemDone _ => true
  | .takeoverComputeReady => true
  | .takeoverBoundary => true
  | .handoverDiscardQueued => true
  | .roleStatus c => c.wf
  | .roleConfig c => c.wf
  | .roleLease c => c.wf
  | .roleWarm c => c.wf
  | .roleWarmDone => true
  | .roleHandover c => c.wf
  | .roleFence c => c.wf
  | .mlRelay c => c.wf
  | .mlRelayReply => true
  | .roleHealth c => c.wf
  | .mlLadder c => c.wf
  | .mlCntClrAll => true
  | .vinPowerWarn _ => true
  | .undervoltageLockout => true
  | .overvoltageLockout => true
  | .auxRailFault _ _ => true
  | .auxRailRetry _ _ _ => true
  | .senseWireOpen r => decide (r < 12)
  | .droopSag d => decide (d < 3)
  | .droopStretchEnd d _ => decide (d < 3)
  | .slowRound raws _ _ _ _ _ bth _ => decide (raws.length = 64) && decide (bth < 3)
  | .fastReading n _ => decide (n < 64)
  | .ksStepTick => true
  | .shutdownLogWritten => true
  | .criticalRestart _ pins => pins.all fun p => decide (p < 4)
  | .pwStatus c => c.wf
  | .pwTempRead c => c.wf
  | .pwConfig c => c.wf
  | .pwRestart c => c.wf
  | .pwLogRead c => c.wf
  | .pwDiodeRead c _ => c.wf
  | .pwCntClrAll => true
  | .fwStore c => c.wf
  | .fwActivate c => c.wf
  | .niethHandoffDone => true
  | .fwCommit c => c.wf
  | .trialAutoCommit => true
  | .watchdogFault => true
  | .lockstepFault => true
  | .fwList c => c.wf
  | .lcStatus c => c.wf
  | .lcIdentity c => c.wf
  | .lcNonce c => c.wf
  | .lcProvision c => c.wf
  | .lcTransition c => c.wf
  | .lcOwnerRotate c => c.wf
  | .lcTransitionDone _ => true
  | .transitionReset pins => pins.all fun p => decide (p < 4)
  | .nonceExpire => true
  | .lcAttest c => c.wf
  | .pePerstAssert => true
  | .pePerstRelease => true
  | .padFault b _ _ => decide (b < 32)
  | .tapInstruction n => decide (n < 5)
  | .evIntStatClear _ => true
  | .evIntEnWrite _ => true
  | .evMdExcClear q _ => decide (q < 2)
  | .evMdEvtClear q _ => decide (q < 2)
  | .msixUnmask v => decide (v < 128)
  | .prbsPatternReceived o j _ => decide (o < 64) && decide (j < 8)
  | .woadPassEnd => true
  | .stateRecordPeriod => true
  | .leaseStart => true
  | .pairingWaitExpire => true
  | .housekeepingPowerOn => true

end Sys2Proof
end

