-- ==== Sys2Proof/Tests/Slice0.lean ====
section
/-! SUPPORT. The model's own tests: ill-formed commands refused, expected results from the specification, and a witness for the hypotheses of every statement. -/

namespace Sys2Proof.Machine.Tests

set_option Elab.async false

/-- Registers written in order. -/
def wr (s : State) (l : List (Nat × Word)) : State := l.foldl (fun s p => s.setReg p.1 p.2) s

/-- A powered device in life-cycle state 2 (DEPLOYED), Nieth serving, the compute dies powered, every register 0, at 2.0 GS/s. -/
def base : State :=
  { State.reset with
    regs := []
    pw := { State.reset.pw with power := .on, compOn := true }
    cp := { State.reset.cp with serving := true }
    lc := { State.reset.lc with state := 2 }
    time := { State.reset.time with rateN := 200 } }

/-- The same with array time RUNNING. -/
def timed (t : Nat) : State := { wr base [(TM_ATC_STAT, 0x80000000#32)] with time := { base.time with atc := t } }

/-- A command on request slot 4 with a payload. -/
def cmd (ws : List Word) : Cmd :=
  { source := 1, seq := 1, ack := true, scheduled := false, relayed := false, transport := .slot 4, crc := 0, payload := ws }

/-- The next state of an outcome; the state after reset where there is none. -/
def nx : Host.Outcome State Fault Refusal → State
  | .next t => t
  | _ => State.reset

/-! The conditions of `Taken`, `Fits` and `Issues`, evaluated: `taken_of`, `fits_of` and `issues_of` say that they are those. -/

def tk (op : Nat) (c : Cmd) (s : State) : Bool :=
  s.takes op c && s.permits op && (c.scheduled == (schedInfo op).isSome) && !s.pairRefuses op (isQuery op c)

def fit (n : Nat) (c : Cmd) (s : State) : Bool := decide (4 * (1 + n) ≤ s.replyRoom c.transport)

def iss (k b : Nat) (s : State) : Bool :=
  s.on && decide (k < 64) && (s.sliceState k == mdRunning) && s.running && !s.awaits (s.slice k).st && (s.rf (MD_SL_CTL k) MD_SL_CTL_SLOT != stdProgram) &&
    !(s.slice k).stall && (tblGet 0 (s.slice k).imem (s.slice k).pc == b) && !s.isLate k

theorem taken_of {op : Nat} {c : Cmd} {s : State} (h : tk op c s = true) : Taken op c s := by
  simp only [tk, Bool.and_eq_true, Bool.not_eq_true', beq_iff_eq] at h
  constructor <;> tauto

theorem fits_of {n : Nat} {c : Cmd} {s : State} (h : fit n c s = true) : Fits n c s := by simpa [fit, Fits] using h

theorem issues_of {k b : Nat} {s : State} (h : iss k b s = true) : Issues k b s := by
  simp only [iss, Bool.and_eq_true, Bool.not_eq_true', beq_iff_eq, bne_iff_ne, decide_eq_true_eq] at h
  constructor <;> tauto

/-! ### Ill-formed commands -/

theorem test_ill_formed_packets :
    ([cmd (List.replicate 1025 0), { cmd [] with transport := .slot 5 }, { cmd [] with transport := .udp 4 0 0 0 }, { cmd [] with transport := .udp 0 (2 ^ 48) 0 0 },
      { cmd [] with transport := .udp 0 0 0 65536 }].all fun c =>
      [Instr.laneLadder, .laneSleep, .lanePrbs, .laneStatus, .adcAccess, .releaseSet, .mdProgStore, .mdProgSwap, .mdSliceStatus, .mdSliceRestart, .mdProgList, .mdProgErase,
       .chDelaySet, .chCalLoad, .chCalSwap, .chCalFetch, .chCalStore, .chTargetSet, .chScaleRead, .ixProductSet, .ixBudgetCheck, .ixIntegStop, .ixStatus, .ixDumpRelease,
       .ixTileMap, .ixDumpRing, .wdPolyLoad, .wdPolySwap, .wdBeamConfig, .wdBudgetCheck, .wdStatus, .wdPolyFetch, .wdPolyStore, .sfTrigConfig, .sfTbpLoad, .sfStatus,
       .sfUbConfig, .sfUbRearm, .sfUbStatus, .etPortConfig, .etFilterSet, .etCtConfig, .etPortStatus, .etCtStatus, .etDsConfig, .etDumpResend, .tmSrcConfig, .tmRefSelect,
       .tmHoConfig, .tmOutConfig, .tmEpochLoad, .tmTaiMap, .tmPtpConfig, .tmPtpStep, .tmStatus, .tmPtpTsRead, .drStatus, .drBoardSet, .drSweep, .drTableStore, .drSchedConfig,
       .dmStart, .dmKick, .dmAbort, .dmStatus, .sysInfo, .sysResetWarm, .sysResetCompute, .sysSession, .sysRegWrite, .sysAperture, .scList, .scCancel, .profStore, .profActivate,
       .profList, .roleStatus, .roleConfig, .roleLease, .roleWarm, .roleHandover, .roleFence, .mlRelay, .roleHealth, .mlLadder, .pwStatus, .pwTempRead, .pwConfig, .pwRestart,
       .pwLogRead, (.pwDiodeRead · 0), .fwStore, .fwActivate, .fwCommit, .fwList, .lcStatus, .lcIdentity, .lcNonce, .lcProvision, .lcTransition, .lcOwnerRotate, .lcAttest].all fun f =>
        !(f c).wf && (f (cmd [])).wf) = true := by decide +kernel

theorem test_ill_formed_lanes_and_slices :
    ([Instr.statusReplyTimeout, .ladderStart, .controlWakeDone, .slCntClrOctet, (.bundleIssue ⟨·, .clean⟩), (.vldsStallEnd ⟨·, .clean⟩), .outComplete, .sliceAutoRestart, .programSwapLoadDone, .mdCntClrSlice,
      .scaleEpochBoundary, .calBankCopyDone, .beamPacketEmit, .totalPowerClose, (.fastReading · none)].all fun f => !(f 64).wf && (f 63).wf) = true ∧
    ([Instr.ladderStepTimeout, .dwellPassed, .forwardedClockLost, .controlReplyTimeout, .rungSwitch, .forwardedClockLock, .octetDownRetry, (.lossOfSignal · none),
      (.lossOfSignalClear · none)].all fun f => !(f 65).wf && (f 64).wf) = true ∧
    ([Instr.blockLockLost, (.blockLockGained · · false 0 0 0 0 0 0), (fun o j => .lossOfSignal o (some j)), (fun o j => .lossOfSignalClear o (some j))].all fun f =>
      !(f 65 0).wf && !(f 64 4).wf && !(f 0 8).wf && (f 64 3).wf && (f 63 7).wf) = true ∧
    ([Instr.degradedClear, (.laneSlip · · 0), .eqFreeze, .eqResume, .pathRejoin, (.prbsPatternReceived · · []), (.dataBlockReceived · · (be 16 0)), (.idleBlockReceived · · (be 16 0)),
      (.checkBlockReceived · · (be 16 0)), (.controlReplyReceived · · (be 16 0))].all fun f => !(f 64 0).wf && !(f 0 8).wf && (f 63 7).wf) = true ∧
    ([Instr.dataBlockReceived, .idleBlockReceived, .checkBlockReceived, .controlReplyReceived].all fun f => !(f 0 0 (be 15 0)).wf) = true ∧
    ([Instr.blockLockGained 0 0 false 8 0 0 0 0 0, .blockLockGained 0 0 false 0 128 0 0 0 0, .blockLockGained 0 0 false 0 0 (2 ^ 48) 0 0 0, .releasePointSet [(512, 0)],
      .bundleIssue ⟨0, { Ecc.clean with groups := [(8, 0)] }⟩, .vldsStallEnd ⟨0, { Ecc.clean with groups := [(8, 0)] }⟩, .indigoPassStart 2, .indigoPassEnd 2, .trainingEnd 16, .hitHoldExpire 8 0,
      .hitHoldExpire 0 512, .trigPulseEnd 8, .triginEdge 4 true 0, .messageCheckDone (2 ^ 32), .messageCheckTimeout (2 ^ 32)].all fun i => !i.wf) = true := by decide +kernel

theorem test_ill_formed_ports_and_times :
    ([Instr.c0SpacingRelease, (.frameReceive · [] false), .pauseFrameReceived, .pfcFrameReceived, .arpRequestReceived, .ctBlockReceived, .ctNakReceived, .ctGoneReceived, (.frameTransmitEnd · false false),
      .linkUp, .linkDown, .preemptVerifyRetry, .respondMpacketReceived, (.pfcRefresh · 0), (.pfcXon · 0), (.pfcRefresh 0), (.pfcXon 0), (.pauseTimerExpire · 0), (.ctBlockQueue · 0 0 false), (.nakDelayExpire · 0),
      .nakDelayExpire 0, (.nakRetryExpire · 0), .nakRetryExpire 0, .clkoutStart, .framePulseStart, .framePulseEnd, .ptpSyncReceived, .ptpFollowUpReceived, .ptpDelayRespReceived,
      .ptpAnnounceReceived, .ptpOtherDiscard, .peluskDatagramReceived, (fun k => .vinValid (some k)), (fun k => .coldResetRelease (some k)), (fun k => .criticalRestart 0 (some k)),
      (fun k => .transitionReset (some k)), (.heartbeatWordReceived 2 · []), (.miltiaLinkUp · 0 0), (.dramRequest 0 · false 0 [] 0 false)].all fun f => !(f 4).wf && (f 3).wf) = true ∧
    ([Instr.qualCountReached, .persistExpire, .wtrExpire, .refClockLoss, .ppsLoss, .sourceSignalPresent, (.coarseFreqDone · 0), (.ppsEdge · 0 0)].all fun f => !(f 6).wf && (f 5).wf) = true ∧
    ([fun l => Instr.epochLoad l 0 0 0, fun l => .gateClose l 0 0 0, fun l => .initialLockDone l 0 0 0 0].all fun f => !(f [0]).wf && (f [0, 0, 0, 0, 0, 0]).wf) = true ∧
    ([Instr.registerWrite .cp (2 ^ 26) 15 0, .registerWrite .cp 0 16 0, .pairLoRead .cp GLB_ID, .pairHiRead .cp SC_NEXT_LO, .pairHiRead .cp 0, .pairLoWrite .cp GLB_ID 0, .pairHiWrite .cp SC_NEXT_LO 0,
      .pairHiWrite .cp 0 0, .ppsEdge 0 0 16, .eventCommit 65536, .pauseTimerExpire 0 8, .ctBlockQueue 0 128 0 false, .ctBlockQueue 0 0 8 false, .graceExpire 1, .graceExpire (2 ^ 64), .etCntClrPorts 16,
      .ptpLoss 2 true, .ptpDelayReqSend 2].all fun i => !i.wf) = true := by decide +kernel

theorem test_ill_formed_memory_and_host :
    ([(.dramReadComplete · []), (.requestAgePromote · 0), (.refreshDue · 0), (.postponedRefreshMakeup · 0), (.rankPowerDown · 0), (.rowIdleClose · 0 0), fun n => Instr.drCntClrCh (2 ^ n)].all fun f => !(f 16).wf && (f 15).wf) = true ∧
    ([fun r => Instr.refreshDue 0 r, .postponedRefreshMakeup 0, .rankPowerDown 0, (.rowIdleClose 0 · 0), (.evMdExcClear · 0), (.evMdEvtClear · 0)].all fun f => !(f 2).wf && (f 1).wf) = true ∧
    ([Instr.scrubPatrolRead, (fun f => .dramReadComplete 0 [f]), (fun f => .bar2Read 0 ⟨1, [f]⟩), .droopSag, (.droopStretchEnd · 0), fun b => .slowRound (List.replicate 64 none) 0 0 0 0 0 b 0].all fun f => !(f 3).wf && (f 2).wf) = true ∧
    ([(.dmChCtlGo .cp · 0), (.dmChCtlAbort .cp · 0), (.dmChCtlKick .cp · 0), (.dmChDescWrite .cp · false 0), (.descriptorFetchDone · []), (.dmaBeatDone · 0 [] []), (.dmaBeatError · .fetch),
      (.dmaBeatTimeout · .fetch), (.dmaRetryIssue · .fetch), (.descriptorComplete · 0), Instr.abortHalt, (.padFault · 0 0), .mailboxReplyRelease, .rowIdleClose 0 0].all fun f => !(f 32).wf && (f 31).wf) = true ∧
    ([Instr.dramRequest 5 0 false 0 [] 0 false, .requestSlotWrite .cp 5 0 [], .requestSlotWrite .cp 0 0x2000 [], .mailboxDoorbell .cp 8, .mgmtRegisterWrite (2 ^ 32) 0, .mgmtRegisterRead (2 ^ 32),
      .mgmtBlockRead (2 ^ 32) 0, .mgmtBlockRead 0 4129, .mgmtSlotWrite 65536 [0], .mgmtSlotWrite 0 [], .mgmtSlotWrite 0 (List.replicate 4117 0), .mgmtUnknownCode 256, .mgmtUnknownCode 5,
      .bar2Read (2 ^ 28) ⟨1, []⟩, .miltiaLinkDown 16, .bar2Write (2 ^ 28) [0], .wipeComplete 64 0 0, .wipeComplete 0 65536 0, .profilePinsUnstable 256, .miltiaDataBlockReceived [], .miltiaAckBlockReceived [], .miltiaLinkBlockReceived [],
      .miltiaIdleBlockReceived [], .heartbeatWordReceived 3 0 [], .heartbeatWordReceived 0 0 [], .heartbeatWordReceived 1 0 [], .hbPathTimeout 3, .senseWireOpen 12, .slowRound [] 0 0 0 0 0 0 0, .tapInstruction 5,
      .msixUnmask 128].all fun i => !i.wf) = true := by decide +kernel

/-! ### Registers, interrupts and counters -/

theorem witness_StepRunsTheFrontCommand : { base with pending := [.statusPoll] }.pending = .statusPoll :: [] := by decide +kernel

theorem witness_IdleStepIsOneSaffronCycle :
    State.reset.pending = [] ∧ ({ State.reset with pw := { State.reset.pw with power := .off } } : State).pw.power = .off ∧ State.reset.on = false ∧
    (let s := { timed 5 with cp := State.reset.cp }; s.on = true ∧ s.cp.serving = false ∧ s.time.rateN ≤ 200 ∧ s.time.phase < 200 ∧ s.running = true) := by
  decide +kernel

theorem witness_InterruptWordsClearEnableAndUnmask : base.on = true ∧
    (∀ i < 16, ((5#32) &&& ~~~base.reg EV_INT_EN).getLsbD i = true → (base.reg EV_INT_STAT).getLsbD i = false) ∧
    (let s := wr base [(EV_INT_STAT, 8#32), (msixCtl 35, 0#32), (msixPba 35, 8#32)]
     (8#32) &&& ~~~s.reg EV_INT_EN = BitVec.ofNat 32 (2 ^ 3) ∧ (s.reg EV_INT_STAT).getLsbD 3 = true ∧ s.flag (msixCtl 35) msixMask = false ∧
     s.flag (msixPba 35) ⟨35 % 32, 1⟩ = true) ∧ base.flag (msixPba 35) ⟨35 % 32, 1⟩ = false := by decide +kernel

/-- R550: a device whose identification registers hold their values, with a command that changes registers waiting. -/
theorem witness_StepsCompleteAndKeepTheStateWellFormed :
    (let s := wr base [(GLB_ID, 0x4F4C0512#32), (GLB_REV, 0x01010101#32), (GLB_CAP, 0x403FF400#32), (GLB_AV_COUNT, 7#32)]
     ({ s with pending := [.glbCntClrAv], mem := [(5, 1#8)] } : State)).Wf :=
  by constructor <;> decide +kernel

theorem witness_ViolationsClearedAndLogged :
    (base.freshAt GLB_AV_STAT = 0 ∧ base.freshAt GLB_AV_COUNT = 0 ∧ base.cp.avSince = false ∧ ({ base with cp := { base.cp with avSince := true } } : State).cp.avSince = true) ∧
    (base.violation 2 1 8 3).freshAt GLB_AV_STAT ≠ 0 := by decide +kernel

/-- R15: a violation in the same cycle as the clear of the counter leaves it 1. -/
theorem test_clear_keeps_the_same_cycle :
    (nx (execGlbCntClrAv (base.violation 2 1 8 3))).reg GLB_AV_COUNT = 1#32 ∧ (nx (execGlbCntClrAv { base.violation 2 1 8 3 with fresh := [] })).reg GLB_AV_COUNT = 0#32 := by
  decide +kernel

theorem witness_ViolationIsCountedAndTheFirstRecorded :
    base.flag GLB_AV_STAT GLB_AV_STAT_VALID = false ∧ (wr base [(GLB_AV_STAT, 0x80000000#32)]).flag GLB_AV_STAT GLB_AV_STAT_VALID = true := by decide +kernel

theorem witness_PairReadsUseShadowCopies :
    isPair SC_NEXT_LO = true ∧ SC_NEXT_LO % 4 = 0 ∧ tblGet none base.shadow (pairKey .bar0 SC_NEXT_HI) = none ∧
    tblGet none (base.latch .bar0 SC_NEXT_HI).shadow (pairKey .bar0 SC_NEXT_HI) = some 0#32 := by decide +kernel

/-- R20: a host that reads _LO of a counter pair, then counts, then reads _HI, sees the latched half. -/
theorem test_pair_read_is_not_torn :
    let s := wr base [(ET_P_RX_FRAMES_LO 0, 0xFFFFFFFF#32), (ET_P_RX_FRAMES_LO 0 + 4, 1#32)]
    let t := (nx (execPairLoRead .bar0 (ET_P_RX_FRAMES_LO 0) s)).bump64 (ET_P_RX_FRAMES_LO 0) 1
    (nx (execPairHiRead .bar0 (ET_P_RX_FRAMES_LO 0 + 4) t)).out.head? = some (.regRead .bar0 (ET_P_RX_FRAMES_LO 0 + 4) 1#32) := by decide +kernel

/-- R21: a counter stops at all ones. -/
theorem test_counter_saturates : ((wr base [(CP_CMDS, 0xFFFFFFFF#32)]).bump CP_CMDS).reg CP_CMDS = 0xFFFFFFFF#32 := by decide +kernel

theorem witness_RegisterWritesStageOrAreRefused : base.on = true ∧ Requester.bar0 ≠ .cp ∧ Requester.mgmt ≠ .cp := by decide +kernel

theorem witness_CounterClearsZeroTheirCountersAlone : base.on = true := by decide +kernel

/-! ### Sample lanes -/

/-- Lane 1 of octet 3 locked, with a lane state. -/
def lane3 (l : LaneSt) : State := (wr base [(SL_LANE_STAT 3 1, 0x40000000#32)]).setLane 3 1 l

/-- A data block of LANE 0 and SEQ 0 (R67): samples 0 but for the first, 0x7FF. -/
def dataBlk : List Byte := be 1 0x80 ++ be 2 0x7FF0 ++ be 13 0

/-- A check block: COUNT 5, a CRC16, no format change. -/
def checkBlk (crc : Nat) : List Byte := be 1 0xC0 ++ be 1 0x1E ++ be 6 5 ++ be 2 crc ++ be 6 0

/-- Lane 1 of octet 3 in service as index 0, a sample of its frame released at period 8,000 and one waiting. -/
def served : State :=
  let s := wr (timed 8192) [(SL_LANE_STAT 3 1, 0x40000000#32), (SL_REL_STAT, 0x80000000#32), (SL_OCT_STAT 3, 0x28000001#32)]
  let s := s.setLane 3 1 { laneReset with frameCount := 5, crc := 0x1234, part := false, frameIdx := 8000, head := 8001, rel := [8000], relOld := [7999], fifo := [{ v := 9, crc := false, chk := false }] }
  { s with md := { s.md with
      w := 8001, store := [(24 * 131072 + 8000, some { t := 8000, v := 7, loss := false, crc := false, chk := false, ecc := false })]
      past := [(24 * 131072 + 7999, some { t := 7999, v := 6, loss := false, crc := false, chk := false, ecc := false })] } }

theorem test_idle_block_kind : blockKind (be 1 0xC0 ++ be 1 0x2D ++ be 14 0) = .idle := by decide +kernel

/-- R68: ten 12-bit samples, the oldest in the highest bits. -/
theorem test_data_block_samples : blockSamples false dataBlk = [0x7FF, 0, 0, 0, 0, 0, 0, 0, 0, 0] := by decide +kernel

/-- R71: the CRC16 with initial value 0xFFFF of the ASCII digits 1 to 9 is 0x29B1. -/
theorem test_crc16 : crc16 0xFFFF ((List.range 9).map fun k => BitVec.ofNat 8 (0x31 + k)) = 0x29B1 := by decide +kernel

theorem witness_BlocksEnterTheirLaneAlone :
    (let s := lane3 { laneReset with frameCount := 5, crc := 0x1234, part := false, clean := 4096 }
     s.on = true ∧ s.locked 3 1 = true ∧ ((s.lane 3 1).hdr.filter id).length < 16 ∧ (s.oct 3).step ≠ .dwell ∧ ((s.lane 3 1).fails.filter id).length < 7 ∧
     (s.lane 3 1).frameErr = false ∧ (s.lane 3 1).part = false ∧ 4096 ≤ (s.lane 3 1).clean ∧ (s.lane 3 1).frameCount < 2 ^ 48 ∧
     (dataBlk.length = 16 ∧ headerBad (s.lane 3 1) (upright (s.lane 3 1).inv dataBlk) = false ∧ blockKind (upright (s.lane 3 1).inv dataBlk) = .data) ∧
     ∀ b ∈ [checkBlk 0x1234, checkBlk 0x4321], b.length = 16 ∧ headerBad (s.lane 3 1) b = false ∧ blockKind b = .check ∧ beAt b 2 6 = 5 ∧
       bit (beAt b 11 1) 0 = false) ∧
    (let b := be 1 0xC0 ++ be 1 0x2D ++ be 14 0; b.length = 16 ∧ headerBad laneReset b = false ∧ blockKind b = .idle) ∧
    beAt (checkBlk 0x1234) 8 2 = 0x1234 ∧ beAt (checkBlk 0x4321) 8 2 ≠ 0x1234 ∧
    (let s := served
     (s.lane 3 1).rel = [8000] ∧ (s.lane 3 1).relOld = [7999] ∧ (s.smp 24 8000).any (fun x => !x.loss) = true ∧ (smpAt s.md.past 24 7999).any (fun x => !x.loss) = true) := by decide +kernel

/-- R73: a frame that fails marks the samples of its that were released before, and those not yet released. -/
theorem test_frame_failure_marks_samples :
    let t := nx (execCheckBlockReceived 3 1 (checkBlk 0x4321) served)
    ((t.smp 24 8000).map fun x => (x.v, x.crc, x.chk)) = some (7, true, true) ∧ ((t.lane 3 1).fifo.map fun x => (x.crc, x.chk)) = [(true, true)] := by decide +kernel

theorem witness_LossOfLockSignalAndClock :
    (let s := lane3 laneReset
     s.on = true ∧ s.locked 3 1 = true ∧ (s.lane 3 1).idx < 8 ∧ s.rxOff 3 = false) ∧
    ((base.setF (SL_OCT_CTL 3) SL_OCT_CTL_RX_SLEEP 1).setF (SL_OCT_STAT 3) SL_OCT_STAT_STATE 7).rxOff 3 = true ∧
    (∀ b ∈ [true, false], let s := served.setLane 3 1 { served.lane 3 1 with frameErr := b }
     s.locked 3 1 = true ∧ (s.lane 3 1).frameErr = b ∧ (s.lane 3 1).rel = [8000] ∧ (s.smp 24 8000).any (fun x => !x.loss) = true) := by decide +kernel

theorem witness_LadderClimbsFailsAndRetries :
    (wr base [(SL_OCT_CTL 0, 0x04000000#32)]).flag (SL_OCT_CTL 0) SL_OCT_CTL_RELADDER = true ∧
    ((base.setOct 2 { octReset with step := .switching, goal := 2 }).oct 2).step = .switching ∧
    (∀ g ∈ [1, 3], let s := (List.range 8).foldl (fun s j => s.setLane 2 j { laneReset with clean := 4096 }) (base.setOct 2 { octReset with step := .dwell, goal := g, target := 3 })
      (s.oct 2).step = .dwell ∧ (∀ j < 8, s.due 2 j = true → 4096 ≤ (s.lane 2 j).clean) ∧ (s.oct 2).x = none ∧ (s.oct 2).todo = [] ∧ s.ctlAsleep 2 = false ∧ (s.oct 2).waking = false ∧
      (∀ j < 8, (s.lane 2 j).fmt8 = s.flag (SL_OCT_CTL 2) SL_OCT_CTL_FMT) ∧ (if g = 1 then g < climbTo (s.oct 2) else climbTo (s.oct 2) ≤ g)) ∧
    ((base.setOct 2 { octReset with step := .lock0 }).oct 2).fck = false ∧
    ((base.setOct 2 { octReset with step := .clock }).oct 2).back = false ∧
    (let s := base.setOct 2 { octReset with retry := true }; s.octState 2 = ocDown ∧ (s.oct 2).step = .idle ∧ (s.oct 2).retry = true) := by decide +kernel

/-- A control reply to a message under TAG 7: result 0. -/
def replyOf (msg : Nat) : List Byte :=
  let b := be 1 0xC0 ++ be 1 0x5A ++ be 1 msg ++ be 1 7 ++ be 10 0
  b ++ be 2 (crc16 0xFFFF b)

/-- The reply to PRBS. -/
def replyBlk : List Byte := replyOf 5

/-- R67: SEQ steps by one on the blocks that an octet's control lane sends. -/
theorem test_control_sequence :
    let s := base.setOct 3 { octReset with waking := true, seq := 7, todo := [{ why := .prbs, msg := 5, tag := 0, args := [], attempt := 0 }] }
    ((nx (execControlWakeDone 3 s)).oct 3).seq = 0 := by decide +kernel

theorem witness_ControlExchangesCompleteAndRepeat :
    (∀ m ∈ [({ why := .prbs, msg := 5, tag := 7, args := [], attempt := 1 } : CtlMsg), { why := .prbs, msg := 5, tag := 7, args := [], attempt := 4 },
        { why := .access (cmd []), msg := 5, tag := 7, args := [], attempt := 1 }], ∀ v ∈ [0, 0x10000002],
      let s := ((lane3 laneReset).setReg (SL_OCT_PRBS 3) (w32 v)).setOct 3 { octReset with x := some m }
      s.on = true ∧ s.locked 3 1 = true ∧ replyBlk.length = 16 ∧ blockKind replyBlk = .reply ∧ headerBad (s.lane 3 1) replyBlk = false ∧
      (s.oct 3).poll = none ∧ (s.oct 3).todo = [] ∧ (s.oct 3).woken = false ∧
      beAt replyBlk 14 2 = crc16 0xFFFF (replyBlk.take 14) ∧ m.tag = beAt replyBlk 3 1 ∧ m.msg = beAt replyBlk 2 1 ∧ beAt replyBlk 12 1 = 0) ∧
    (let b := replyBlk.take 15 ++ [0]; blockKind b = .reply ∧ beAt b 14 2 ≠ crc16 0xFFFF (b.take 14)) ∧
    (beAt (replyOf 8) 2 1 = 8 ∧ beAt (replyOf 8) 14 2 = crc16 0xFFFF ((replyOf 8).take 14) ∧ beAt (replyOf 8) 3 1 = 7 ∧ blockKind (replyOf 8) = .reply ∧
      headerBad laneReset (replyOf 8) = false) ∧
    ((base.setOct 3 { octReset with poll := some 9, missed := 2 }).oct 3).poll.isSome = true ∧
    (let x := (base.setOct 3 { octReset with waking := true, todo := [{ why := .prbs, msg := 5, tag := 0, args := [], attempt := 0 }] }).oct 3
     x.waking = true ∧ x.pollDue = false ∧ x.x = none ∧ x.todo ≠ []) := by decide +kernel

/-- Array time 8,192 with the release point set, period 8,000 due, and no path in service. -/
def releasing : State := { wr (timed 8192) [(SL_REL_STAT, 0x80000000#32)] with sl := { base.sl with next := 8000 } }

theorem witness_LockReleaseRejoinAndPrbs :
    (let s := wr (base.setOct 3 { octReset with step := .lock0, fck := true }) [(SL_OCT_STAT 3, 0x08000000#32)]
     s.locked 3 1 = false ∧ s.flag (SL_LANE_STAT 3 1) SL_LANE_STAT_LOS = false ∧ (s.oct 3).fck = true ∧ s.due 3 1 = true ∧ s.octState 3 = ocL0Lock ∧
     (s.oct 3).step = .lock0 ∧ (s.lane 3 1).prbs = none ∧ s.relSet = false) ∧
    (let s := (List.range 64).foldl (fun s o => s.setOct o { octReset with first := true }) (wr base [(SL_OCT_STAT 3, 0x28000001#32), (SL_LANE_STAT 3 1, 0x40000000#32)])
     s.relSet = false ∧ (∀ k < 64, (s.oct k).first = true) ∧ s.rf (SL_OCT_STAT 3) SL_OCT_STAT_IN_SERVICE ≠ 0 ∧ s.locked 3 1 = true ∧ (s.lane 3 1).idx < 8) ∧
    ((timed 5).running = true ∧ ({ timed 5 with sl := { base.sl with next := 6 } } : State).relSet = false ∧ (timed 5).now < 6) ∧
    (∀ s ∈ [releasing, { releasing with regs := (timed 8192).regs }], s.running = true ∧ s.sl.next + (if s.relSet then s.latency else 0) ≤ s.now ∧ s.arrived s.sl.next = true) ∧ releasing.relSet = true ∧
    (let s := (wr (timed 8192) [(SL_REL_STAT, 0x80000000#32), (SL_LANE_STAT 3 1, 0x40000000#32), (SL_OCT_STAT 3, 0xE8000000#32)]).setLane 3 1 { laneReset with wait := true, clean := 64 }
     s.running = true ∧ s.laneOf 3 0 = some 1 ∧ (s.lane 3 1).wait = true ∧ s.mayServe 3 1 = true ∧ 64 ≤ (s.lane 3 1).clean ∧ s.rejoinAt s.sl.next = s.sl.next) ∧
    (let s := (wr base [(SL_OCT_PRBS 3, 0x10000002#32)]).setLane 3 1 { laneReset with prbs := some [true] }
     s.flag (SL_OCT_PRBS 3) SL_OCT_PRBS_CHK_EN = true ∧ s.rfb (SL_OCT_PRBS 3) SL_OCT_PRBS_CHK_LANES 1 = true ∧ (s.lane 3 1).prbs = some [true]) := by decide +kernel

theorem witness_LaneCommandsTakeEffect :
    (let s := wr base [(SL_OCT_CTL 0, 0x08000000#32)]
     let c := cmd [0, 0, 1]
     tk 0x0201 c s = true ∧ tk 0x0202 c s = true ∧ fit 0 c s = true ∧ c.payload.length = 3 ∧ bit (c.w 0).toNat 1 = false ∧ bit (c.w 0).toNat 0 = false ∧
      ∀ o ∈ c.mask64 1, s.flag (SL_OCT_STAT o) SL_OCT_STAT_CTL_FAULT = false ∧ s.flag (SL_OCT_CTL o) SL_OCT_CTL_RX_SLEEP = false ∧ s.rxAsleep o = false ∧ s.laddering o = false) ∧
    (let c := cmd [0x40000000, 0, 1]; (∀ o ∈ c.mask64 1, carries (c.f 0 31 30) (base.flag (SL_OCT_CTL o) SL_OCT_CTL_FMT) 40 = true) ∧
      carries 0 (base.flag (SL_OCT_CTL 0) SL_OCT_CTL_FMT) 200 = false ∧ (c.mask64 1).head? = some 0) ∧
    (let s := base.setF (SL_OCT_STAT 0) SL_OCT_STAT_CTL_FAULT 1
     tk 0x0202 (cmd [2, 0, 1]) s = true ∧ bit ((cmd [2, 0, 1]).w 0).toNat 1 ≠ s.flag (SL_OCT_CTL 0) SL_OCT_CTL_RX_SLEEP ∧ s.flag (SL_OCT_STAT 0) SL_OCT_STAT_CTL_FAULT = true) ∧
    (tk 0x0203 (cmd [0, 0]) base = true ∧ base.rxAsleep 0 = false ∧ base.laddering 0 = false) ∧ (tk 0x0204 (cmd [0]) base = true ∧ fit 10 (cmd [0]) base = true) ∧
    tk 0x0205 (cmd [0, 0, 0]) base = true ∧ (tk 0x0206 (cmd []) base = true ∧ base.integrating = false) := by decide +kernel

/-! ### Madder slices and channeliser -/

/-- Slice 5 RUNNING program 0 with a bundle at its program counter 0. -/
def running5 (b : Nat) (m : MdSlice) : State :=
  ((timed 100).setF (MD_SL_STAT 5) MD_SL_STAT_STATE mdRunning).setSlice 5 { m with imem := [(0, b)] }

/-- Words of bundles, written from the encodings of R107, R110, R114 and R124: SLI S3, −1; VADD V1 ← V2 + V3 with VADD V2 ← V1 + V3; MAC A1 += V2 × V3;
SST S4 through I0; VLDS V1 of path 0 through I0. -/
def bSli : Nat := (0x09 * 2 ^ 18 + 3 * 2 ^ 14 + 0x3FFF) * 2 ^ 104
def bVadd : Nat := (0x0B * 2 ^ 22 + 1 * 2 ^ 18 + 2 * 2 ^ 14 + 3 * 2 ^ 10) * 2 ^ 28 + (0x0B * 2 ^ 22 + 2 * 2 ^ 18 + 1 * 2 ^ 14 + 3 * 2 ^ 10)
def bMac : Nat := (0x02 * 2 ^ 22 + 1 * 2 ^ 18 + 2 * 2 ^ 14 + 3 * 2 ^ 10) * 2 ^ 28
def bSst : Nat := (0x9 * 2 ^ 20 + 4 * 2 ^ 16) * 2 ^ 80
def bVlds : Nat := (0xA * 2 ^ 20 + 1 * 2 ^ 16) * 2 ^ 80
def bOut : Nat := 0xB * 2 ^ 20 * 2 ^ 56
def bEvt : Nat := (0x18 * 2 ^ 18 + 0x1234) * 2 ^ 104
def bHalt : Nat := 0x19 * 2 ^ 18 * 2 ^ 104

/-- R124: SLI sign-extends its immediate. -/
theorem test_sli : ((nx (execBundleIssue ⟨5, .clean⟩ (running5 bSli sliceReset))).slice 5).sget 3 = 0xFFFFFFFF := by decide +kernel

theorem witness_BundleFlowSlotMovesScalarsAndPc :
    (∀ m ∈ [sliceReset, { sliceReset with calls := [7] }], iss 5 bSli (running5 bSli m) = true) ∧ (sliceReset.calls.length < 8 ∧ sliceReset.loops = []) ∧
    slotX bSli = 0 ∧ slotY bSli = 0 ∧ slotC1 bSli = 0 ∧ slotC2 bSli = 0 ∧ fOp (slotF bSli) = 0x09 ∧
    (∀ f ∈ [0x00, 0x0B, 0x0C, 0x0D, 0x10, 0x03, 0x04, 0x05, 0x06, 0x07, 0x08], fOp (slotF (f * 2 ^ 18 * 2 ^ 104)) = f ∧ slotX (f * 2 ^ 18 * 2 ^ 104) = 0) ∧
    iss 5 0 (running5 0 { sliceReset with loops := [{ first := 0, last := 0, left := 2 }] }) = true := by decide +kernel

theorem witness_BundleSlotsReadBeforeTheyWrite :
    (iss 5 bVadd (running5 bVadd sliceReset) = true ∧ slotF bVadd = 0 ∧ slotX bVadd = 0 ∧ slotY bVadd = 0 ∧ cOp (slotC1 bVadd) = 0x0B ∧ cOp (slotC2 bVadd) = 0x0B ∧
      cM (slotC1 bVadd) = 0 ∧ cM (slotC2 bVadd) = 0 ∧ cD (slotC1 bVadd) ≠ cD (slotC2 bVadd)) ∧
    (iss 5 bMac (running5 bMac sliceReset) = true ∧ slotC2 bMac = 0 ∧ cOp (slotC1 bMac) = 0x02) ∧
    (iss 5 bSst (running5 bSst sliceReset) = true ∧ mOp (slotX bSst) = 0x9 ∧ mMode (slotX bSst) = 0 ∧ slotC1 bSst = 0) := by decide +kernel

/-- R116: a sum beyond 44 bits takes the nearer extreme and sets GOV, and a lane with GOV set keeps it. -/
theorem test_accumulator_clamps : accAdd (2 ^ 43 - 2, false) 5 = (2 ^ 43 - 1, true) ∧ accAdd (2 ^ 43 - 1, true) (-5) = (2 ^ 43 - 1, true) := by decide +kernel

/-- Slice 5 stalled at a VLDS whose samples have come. -/
def stalled5 : State :=
  let s : State := running5 bVlds { sliceReset with stall := true }
  { s with md := { s.md with w := 200 } }

theorem witness_ProgramEventsHaltAndSampleReads :
    (iss 5 bEvt (running5 bEvt sliceReset) = true ∧ fOp (slotF bEvt) = 0x18) ∧
    (iss 5 bHalt (running5 bHalt sliceReset) = true ∧ fOp (slotF bHalt) = 0x19 ∧ slotY bHalt = 0 ∧ sliceReset.hdr.stage = false) ∧
    (iss 5 bVlds (running5 bVlds sliceReset) = true ∧ mOp (slotX bVlds) = 0xA ∧ (Int.ofNat (running5 bVlds sliceReset).md.w) ≤ (running5 bVlds sliceReset).vldsTime 5 (slotX bVlds) + 127) ∧
    (let m : MdSlice := { sliceReset with waits := [{ path := 0, ring := false, last := false, flags := 0, data := List.replicate 65536 0, st := 0, reads := [], newest := 0 }], s := [(0, 2048)] }
     iss 5 bOut (running5 bOut m) = true ∧ slotX bOut = 0 ∧ mOp (slotY bOut) = 0xB ∧ 65536 < m.portBytes + 2 * outLen m (slotY bOut)) ∧
    (iss 5 0 (running5 0 sliceReset) = true ∧ slotX 0 = 0 ∧ slotY 0 = 0 ∧ slotC1 0 = 0 ∧ slotC2 0 = 0 ∧ slotF 0 = 0) ∧
    (let s : State := stalled5
     iss 5 bVlds (s.setSlice 5 { s.slice 5 with stall := false }) = true ∧ (s.slice 5).stall = true ∧ s.vldsTime 5 (slotX bVlds) + 127 < Int.ofNat s.md.w ∧
     0 ≤ s.vldsTime 5 (slotX bVlds) ∧ s.held (s.vldsTime 5 (slotX bVlds)) = true) := by decide +kernel

/-- R104, R552: an uncorrectable error stops the slice with CODE 4; corrected ones are counted and the bundle runs. -/
theorem test_ecc : (nx (execBundleIssue ⟨5, 0, true, []⟩ (running5 0 sliceReset))).rf (MD_SL_EXC 5) MD_SL_EXC_CODE = 4 ∧
    (nx (execBundleIssue ⟨5, 3, false, []⟩ (running5 0 sliceReset))).reg (MD_SL_ECCCNT 5) = 3#32 := by decide +kernel

/-- R136, R552: HALT stops the slice, with CODE 6. -/
theorem test_halt : (nx (execBundleIssue ⟨5, .clean⟩ (running5 bHalt sliceReset))).sliceState 5 = mdHalted ∧
    (nx (execBundleIssue ⟨5, .clean⟩ (running5 bHalt sliceReset))).rf (MD_SL_EXC 5) MD_SL_EXC_CODE = 6 := by decide +kernel

/-- An output of path 0 that waits in the port's queue: its length and flag word. -/
def outOf (ring : Bool) (n flags : Nat) : OutWait :=
  { path := 0, ring := ring, last := true, flags := flags, data := List.replicate n 3, st := 8192, reads := [], newest := 0 }

theorem witness_SlicesRestartSwapAndDeliver :
    (let s := ((((timed 100).setF (MD_SL_EXC 5) MD_SL_EXC_CODE 1).setF (MD_SL_CTL 5) MD_SL_CTL_AUTO_RESTART 1).setF (MD_SL_CTL 5) MD_SL_CTL_SLOT 16)
     s.sliceState 5 = mdIdle ∧ s.rf (MD_SL_EXC 5) MD_SL_EXC_CODE ≠ 0 ∧ s.rf (MD_SL_EXC 5) MD_SL_EXC_CODE ≠ excHalt ∧ s.flag (MD_SL_CTL 5) MD_SL_CTL_AUTO_RESTART = true ∧
     s.running = true ∧ s.coreStopped = false ∧ s.programAt 5 (spectrumAt s.md.w) = 16 ∧ s.loadable 16 = true) ∧
    (let s := (base.setF (MD_SL_STAT 5) MD_SL_STAT_STATE mdSwapping).setSlice 5 { sliceReset with swap := [(8192, 2)] }
     s.sliceState 5 = mdSwapping ∧ (s.slice 5).swap = (8192, 2) :: [] ∧ s.awaits 8192 = false) ∧
    (∀ ring n fw, let w := outOf ring n fw
      w.path < 8 ∧ w.newest = 0 ∧ ∀ mute, let m : MdSlice := { sliceReset with waits := [w], mute := mute }
        ((base.setSlice 5 m).slice 5).waits = [w] ∧ (tblGet [] m.sent w.path ++ w.data).length = n) ∧
    (∀ mute ∈ [0, 1], ({ sliceReset with mute := mute } : MdSlice).muted 0 8192 = decide (mute = 1)) ∧
    base.coreStopped = false ∧ (∀ f ∈ [0, 8193], decide (({ sliceReset with fault := f } : MdSlice).fault ≤ 8192) = decide (f = 0)) ∧
    (let s := base.setReg64 (MD_SL_RING_BASE_LO 5) (2 ^ 40); base.drIn (base.reg64 (MD_SL_RING_BASE_LO 5)) 4096 = true ∧ s.drIn (s.reg64 (MD_SL_RING_BASE_LO 5)) 1 = false) ∧
    (let s : State := { base with md := { base.md with w := 200, store := [(40 * 131072 + 99, some { t := 99, v := 1, loss := false, crc := false, chk := true, ecc := false })] } }
     s.covered true (pathOf 5 0) 99 = true) ∧
    fwLoss 0x20 = true ∧ fwLoss 0x02 = false := by
  refine ⟨by decide +kernel, by decide +kernel, fun ring n fw => ⟨by simp [outOf], rfl, fun mute => ⟨rfl, by simp [outOf, sliceReset, tblGet]⟩⟩, ?_⟩
  decide +kernel

theorem witness_ScaleEpochsAndCalibrationCopies :
    (let s := { ((base.setF (MD_SL_CTL 5) MD_SL_CTL_SLOT 16).setF (MD_SL_STAT 5) MD_SL_STAT_STATE mdRunning).setSlice 5 { sliceReset with st := 8388608 } with ch := { base.ch with epoch := [(5, 8193)] } }
     s.rf (MD_SL_CTL 5) MD_SL_CTL_SLOT = stdProgram ∧ s.sliceState 5 ∈ [mdRunning, mdSwapping] ∧ tblGet 0 s.ch.epoch 5 ≠ 0 ∧ s.epochDue 5 (s.slice 5).st = some 8388608 ∧
     s.awaits 8388608 = false) ∧
    (base.setF (MD_CH_SL_STAT 5) MD_CH_SL_STAT_COPYING 1).flag (MD_CH_SL_STAT 5) MD_CH_SL_STAT_COPYING = true ∧
    (let s := { base with ch := { base.ch with fetch := [(1, 3)], store := some 2 }, cp := { base.cp with running := [⟨0x0313, cmd []⟩, ⟨0x0314, cmd []⟩] } }
     s.ch.fetch = [(1, 3)] ∧ s.ch.store = some 2 ∧ s.runningOp 0x0313 = some ⟨0x0313, cmd []⟩ ∧ s.runningOp 0x0314 = some ⟨0x0314, cmd []⟩) := by decide +kernel

theorem witness_MadderAndChannelCommandsTakeEffect :
    (let s : State := { base with lc := { base.lc with state := 1 } }
     tk 0x0301 (cmd [0, 0, 5]) s = true ∧ (cmd [0, 0, 5]).f 0 31 31 = 0 ∧ s.progRuns 0 = false ∧ ((s.setF (MD_SL_STAT 5) MD_SL_STAT_STATE mdRunning)).progRuns 0 = true) ∧
    base.progInUse 0 = false ∧ (base.setF (MD_SL_CTL 5) MD_SL_CTL_RUN 1).progInUse 0 = true ∧
    tk 0x0303 (cmd [0]) base = true ∧
    (∀ n ∈ [0, 16], let s := (base.setF (MD_SL_STAT 5) MD_SL_STAT_STATE mdHalted).setF (MD_SL_CTL 5) MD_SL_CTL_SLOT n
     tk 0x0304 (cmd [0, 32]) s = true ∧ s.coreStopped = false ∧ (∀ k < 64, bit ((cmd [0, 32]).q 0) k = true → s.sliceState k = mdHalted ∨ s.sliceState k = mdDead) ∧
     (if n = 16 then s.loadBad (s.programAt 5 (spectrumAt s.md.w)) = none ∧ s.loadable (s.programAt 5 (spectrumAt s.md.w)) = true
      else ((s.loadBad (s.programAt 5 (spectrumAt s.md.w))).map fun b => b.status) = some stBadParam)) ∧
    (bit ((cmd [0, 32]).q 0) 5 = true ∧ (running5 0 sliceReset).sliceState 5 = mdRunning) ∧
    tk 0x0305 (cmd []) base = true ∧ tk 0x0306 (cmd [0]) base = true ∧ (tk 0x0311 (cmd [0, 0, 5]) base = true ∧ base.calBusy 0 = false) ∧
    (base.setF (MD_CH_SL_STAT 0) MD_CH_SL_STAT_COPYING 1).calBusy 0 = true ∧
    (tk 0x0313 (cmd [0, 0, 1]) base = true ∧ ∀ k < 64, base.calBusy k = false) ∧ (tk 0x0314 (cmd [0]) base = true ∧ base.ch.store = none) ∧ tk 0x0316 (cmd [0]) base = true ∧
    (∀ n ∈ [0, 17, 459, 296], fit n (cmd []) base = true) := by decide +kernel

/-! ### Host interface and Pelusk -/

theorem witness_SlotsDoorbellsAndNoticeRings :
    (base.slotBusy 4 = false ∧ (wr base [(CP_MB_STAT, 16#32)]).slotBusy 4 = true ∧ (0 : Nat) + (List.replicate 4116 (0 : Byte)).length ≤ 4116) ∧
    (let s := { base with cp := { base.cp with serving := false } }; s.cp.serving = false ∧ s.cp.recovery = false ∧ s.lc.handoff = none ∧ s.slotBusy 0 = false) ∧
    (let s := { base with cp := { base.cp with heldH := [replyTo 0x0101 (cmd []) 0 0 0 []] } }
     s.cp.heldM = [] ∧ (s.rf CP_NT_WR CP_NT_WR_H_WR + 1) % 16 ≠ (0#32).toNat % 16) := by decide +kernel

/-- `base` with a packet written into request slot 0. -/
def slotted (bs : List Byte) : State :=
  { base with cp := { base.cp with buf := tblSetRun 0 [] (requestSlot 0) bs, reqLen := [(0, bs.length)] } }

/-- CP_CMDS apart, a SYS_SESSION of source 1, sequence 7. -/
def sessionPkt : List Byte := packet 0 0x0103 0 7 1 []

/-- The CRC-32C of the ASCII digits 1 to 9 is 0xE3069283. -/
theorem test_crc32c : crc32c ((List.range 9).map fun k => BitVec.ofNat 8 (0x31 + k)) = 0xE3069283 := by decide +kernel

theorem test_session_queued : (nx (execMailboxDoorbell .bar0 0 (slotted sessionPkt))).cp.queue.length = 1 := by decide +kernel

/-- Packets of a table: accepted at checks 1 to 4, a bad magic, a bad CRC, a bad length, source 0. -/
theorem witness_PacketsAreCheckedInOrder :
    (∀ b ∈ [sessionPkt, packet 0 0x0101 0 7 1 [], packet 0 0x0EEE 0 7 1 []], let p := (slotted b).slotPacket 0
      headerOk p = true ∧ crcOk p = true ∧ lengthOk p = true ∧ (cmdOf (.slot 0) p (beAt p 6 2)).relayed = false ∧ (cmdOf (.slot 0) p (beAt p 6 2)).source ≠ 0 ∧
      (slotted b).queueRoom (.slot 0) 1 = true ∧ (slotted b).source 1 = none ∧ (slotted b).cp.sources.length < 32) ∧
    (isQuery 0x0103 (cmd []) = false ∧ isQuery 0x0101 (cmd []) = true ∧ (opInfo 0x0EEE).isNone = true ∧ (opInfo 0x0103).isSome = true) ∧
    headerOk ((slotted (be 19 0)).slotPacket 0) = false ∧
    (let p := (slotted (sessionPkt.take 19 ++ [0])).slotPacket 0; headerOk p = true ∧ crcOk p = false) ∧
    (let p := (slotted (packet 0 0x0103 1 7 1 [])).slotPacket 0; crcOk p = true ∧ lengthOk p = false) ∧
    (let p := (slotted (packet 0 0x0103 0 7 0 [])).slotPacket 0; crcOk p = true ∧ lengthOk p = true ∧ (cmdOf (.slot 0) p 0).source = 0) ∧
    (let c := cmdOf (.slot 0) sessionPkt 0
     let q : QEntry := ⟨0x0103, c⟩
     ({ base with cp := { base.cp with queue := [q] } } : State).inFlight (fun q => q.cmd.source == c.source && q.cmd.seq == c.seq && !isQuery q.op q.cmd) = true ∧
     ({ base with cp := { base.cp with queue := List.replicate 16 q } } : State).queueRoom (.slot 0) 1 = false) ∧
    (let x : SourceSt := ⟨1, 7, [⟨7, 5, some (replyTo 0x0103 (cmd []) 0 0 0 [])⟩]⟩
     ({ base with cp := { base.cp with sources := [x] } } : State).source 1 = some x ∧ (x.cache.find? fun e => e.seq == 7).isSome = true ∧
     x.cache.find? (fun e => e.seq == 9) = none ∧ 1 ≤ ((9#32) - x.last).toNat ∧ x.cache.find? (fun e => e.seq == 6) = none ∧
     ¬ ((6#32) - x.last).toNat ≤ 2 ^ 31 - 1) := by decide +kernel

/-- A Pelusk datagram held by port 2 that carries a packet. -/
def pkFrame (bs : List Byte) : RxFrame :=
  { cls := 3, etype := 0x0800, src := 5, len := 100, body := be 12 0 ++ be 4 9 ++ be 4 0 ++ be 2 77 ++ be 2 0 ++ be 2 (8 + bs.length) ++ be 2 0 ++ bs }

theorem witness_DatagramsBar2ResetsAndPcie :
    (∀ b ∈ [packet 0 0x0101 0 7 1 [], be 20 0], let s := base.setPort 2 { portReset with rx := [pkFrame b] }
      (s.port 2).rx.filter isPelusk = [pkFrame b] ∧ (datagram 2 (pkFrame b)).2 = b ∧ s.cp.serving = true ∧ s.cp.held = []) ∧
    (let p := packet 0 0x0101 0 7 1 []; headerOk p = true ∧ crcOk p = true ∧ lengthOk p = true ∧ headerOk (be 20 0) = false ∧
      base.queueRoom (.udp 2 5 9 77) 1 = true) ∧
    (isPair GLB_ID = false ∧ tblGet none base.shadow (pairKey .mgmt GLB_ID) = none) ∧
    (let s := base.setF DR_STAT DR_STAT_STATE drReady
     s.bar2Ok 0 4 = true ∧ s.bar2Ok (2 ^ 28) 4 = false ∧ s.dmProtected (s.reg64 CP_AP_BASE_LO) 4 = false ∧
     (codewords (s.reg64 CP_AP_BASE_LO) 4).all (fun w => !tblGet false s.dr.poison w) = true ∧
     ((s.setReg64 IX_DUMP_BASE_LO 0).setReg IX_DUMP_LEN 4096#32).dmProtected 0 4 = true) ∧
    ({ base with cp := { base.cp with pcieUp := true } } : State).cp.pcieUp = true ∧ (base.setF (DM_CH_STAT 3) DM_CH_STAT_STATE 1).dmActive 3 = true := by decide +kernel

/-- A start-up script's SYS_REG_WRITE of one pair. -/
def scriptCmd (ws : List Word) : Cmd := { cmd ws with source := 0, transport := .script }

theorem witness_SystemAndProfileCommandsTakeEffect :
    tk 0x0101 (cmd []) base = true ∧ tk 0x0103 (cmd []) base = true ∧ (base.dequeue 0x0103 (cmd [])).sourceBusy 1 = false ∧
    tk 0x0105 (cmd [0, 0]) base = true ∧ (cmd [0, 0]).q 0 % 2 ^ 20 = 0 ∧ (cmd [0, 0]).q 0 < base.drSize ∧ tk 0x0105 (cmd [0, 1]) base = true ∧ (cmd [0, 1]).q 0 % 2 ^ 20 ≠ 0 ∧
    tk 0x0D01 (cmd [0]) base = true ∧
    (∀ b ∈ [true, false],
      let x : Event := { handle := 5, t := 100, f := 8192, op := 0x0310, alignI := false, committed := b, cmd := cmd [] }
      let s := { base with events := [x] }
      tk 0x0D02 (cmd [5]) s = true ∧ s.event ((cmd [5]).f 0 15 0) = some x ∧ s.running = false) ∧
    (tk 0x0D03 (cmd [0, 0, 4, 1]) base = true ∧ chunkBad (2 ^ 21) (cmd [0, 0, 4, 1]) = none ∧ (cmd [0, 0, 4, 1]).f 0 31 31 = 0 ∧ base.activating 0 = false) ∧
    tk 0x0D05 (cmd []) base = true ∧ (tk 0x0104 (cmd []) base = true ∧ (cmd []).transport ≠ .script) ∧
    (let c := scriptCmd [1, BitVec.ofNat 32 PW_CTL, 1#32]
     let s := { base with cp := { base.cp with scriptRun := true } }
     tk 0x0104 c s = true ∧ c.transport = .script ∧ s.cp.scriptOf = none ∧ (profReg (BitVec.ofNat 32 PW_CTL).toNat).isSome = true ∧
     ((s.dequeue 0x0104 c).regWriteAll c).regOver c = none) ∧
    (∀ n ∈ [0, 1, 5, 104, 1017], fit n (cmd []) base = true) := by decide +kernel

theorem witness_AnswersReachTheirTransport :
    base.ckptOn = false ∧ (replyTo 0x0101 (cmd []) 0 0 0 []).source = (cmd []).source ∧
    (replyTo 0x0201 { cmd [] with ack := false } stOk 0 0 []).leaves false = false ∧ (replyTo 0x0201 (cmd []) stOk 0 0 []).leaves false = true ∧
    base.flag (ET_P_STAT 2) ET_P_STAT_LINK = false := by decide +kernel

theorem witness_CommandRefusalsFollowTheOrderOfChecks :
    base.takes 0x0101 (cmd []) = true ∧ ({ base with cp := { base.cp with serving := false } } : State).takes 0x0101 (cmd []) = false ∧
    ({ base with lc := { base.lc with state := 4 } } : State).permits 0x0201 = false ∧ base.permits 0x0201 = true ∧
    (schedInfo 0x0201).isSome = false ∧ (schedInfo 0x0401).isSome = true ∧ (wr base [(ML_STAT, BitVec.ofNat 32 (2 ^ ML_STAT_STATE.lo * 2))]).standby = true ∧
    base.standby = false ∧ base.replyRoom (cmd []).transport < 4 * (1 + (List.replicate 1024 (0 : Word)).length) := by decide +kernel

/-! ### The scheduler -/

/-- A scheduled command at array time 2^36. -/
def schedCmd (ws : List Word) : Cmd := { cmd (16 :: 0 :: ws) with scheduled := true }

/-- Array time RUNNING with an integration, the PTP clock set, a dump ring and firmware in slot B. -/
def ready : State :=
  { (((((timed 0).setF IX_CTL IX_CTL_RUN 1).setF TM_PTP_STAT TM_PTP_STAT_SET 1).setReg IX_DUMP_LEN 0x1000000#32).setReg IX_STAGE_CH 0x00001000#32) with
    lc := { base.lc with slotB := { fwEmpty with valid := true } } }

/-- Images for SF_TRIG_CONFIG with every field in its range. -/
def trigImages : List Word :=
  fput 0 SF_CTL_PW 1 :: List.replicate 9 0 ++ (List.replicate 16 [fput (fput 0 SF_TB_CTL_A 8) SF_TB_CTL_K 1, 0]).flatten ++ List.replicate 8 0 ++
    List.replicate 512 (fput 0 SF_PATH_HLEV 1) ++ [0, 0]

def nakImage : Word := fput (fput (fput 0 ET_CT_NAK_REORDER 8) ET_CT_NAK_DELAY 20) ET_CT_NAK_RETRY 80

/-- Whether nothing keeps a scheduled command out of the queue. -/
def schedOk (op : Nat) (c : Cmd) (s : State) : Bool :=
  let d := s.dequeue op c
  let f := d.boundaryOf op (d.schedTime c)
  s.takes op c && s.permits op && (c.scheduled == (schedInfo op).isSome) && !s.pairRefuses op (isQuery op c) &&
    ((d.projected f).schedParams op c).isNone && d.running && decide (d.now + d.lead op ≤ f) && decide (s.events.length < 256) &&
    (d.schedRefusal (d.projected f) s.events op f c).isNone

theorem witness_ScheduledCommandsQueueTheirEvent :
    schedOk 0x0302 (schedCmd [16, 0, 32]) ready = true ∧ schedOk 0x0310 (schedCmd [1, 0]) ready = true ∧ schedOk 0x0312 (schedCmd [0, 32, 1]) ready = true ∧
    schedOk 0x0315 (schedCmd [160]) ready = true ∧ schedOk 0x0403 (schedCmd []) ready = true ∧ schedOk 0x0502 (schedCmd []) ready = true ∧
    schedOk 0x0401 (schedCmd [2000, 0, 0, 1, 1, 1]) ready = true ∧ schedOk 0x0503 (schedCmd [0x00000080, 0, 0, 0]) ready = true ∧ schedOk 0x0601 (schedCmd trigImages) ready = true ∧
    schedOk 0x0604 (schedCmd [0, 0, 0, 0x10000000, 4096, 1, 7]) ready = true ∧ schedOk 0x0703 (schedCmd [0, 200, nakImage, 0x01005E00, 0x0100]) ready = true ∧ schedOk 0x0806 (schedCmd [0, 0, 0, 0]) ready = true ∧
    schedOk 0x0808 (schedCmd [0, 0]) ready = true ∧ schedOk 0x0C11 (schedCmd [0]) ready = true := by
  and_intros <;> decide +kernel

/-- PROF_ACTIVATE needs an image whose signature verifies, which the model leaves open: where one verifies, the command is accepted. -/
def profBytes : List Byte := le 4 0x50524F46 ++ le 2 1 ++ le 26 0 ++ le 1 255 ++ le 1 255 ++ le 222 0

theorem witness_PROF_ACTIVATE (h : Config.falconVerify [] (profBytes.take (profBody profBytes)) (profBytes.drop (profBody profBytes)) = true) :
    base.profCheck 0 profBytes = none := by
  have h1 : profHdrOk 0 profBytes = true := by decide +kernel
  have h2 : scriptBad (profScript profBytes) = none := by decide +kernel
  have h3 : base.lc.ownerKey = [] := by decide +kernel
  simp [State.profCheck, h3, h, h1, h2]

/-- R55: a time on no boundary rounds up. -/
theorem test_spectrum_boundary : spectrumAt 8193 = 16384 ∧ spectrumAt 8192 = 8192 := by decide +kernel

theorem witness_ScheduledCommandsAreRefusedAndCounted :
    (∀ s ∈ [base, ready, { ready with time := { ready.time with atc := 2 ^ 36 } }], (let d := s.dequeue 0x0315 (schedCmd [160])
      (s.takes 0x0315 (schedCmd [160]) && s.permits 0x0315 && !s.pairRefuses 0x0315 false) = true ∧
      (d.projected (d.boundaryOf 0x0315 (2 ^ 36))).schedParams 0x0315 (schedCmd [160]) = none)) ∧
    base.running = false ∧ (schedCmd [160]).transport ≠ .script ∧
    (let s : State := { ready with time := { ready.time with atc := 2 ^ 36 } }; s.running = true ∧ s.boundaryOf 0x0315 (2 ^ 36) < s.now + s.lead 0x0315) ∧
    (let x : Event := { handle := 5, t := 100, f := 8192, op := 0x0502, alignI := false, committed := false, cmd := cmd [] }
     let s : State := { ready with events := List.replicate 256 x }
     256 ≤ s.events.length ∧ s.now + s.lead 0x0315 ≤ s.boundaryOf 0x0315 (2 ^ 36)) ∧
    (let x : Event := { handle := 5, t := 100, f := 8192, op := 0x0502, alignI := false, committed := false, cmd := cmd [] }
     ({ ready with events := [x] }.schedRefusal ready [x] 0x0502 (2 ^ 36) (schedCmd [])).isSome = true) := by decide +kernel

/-- An event of the queue at boundary 8,192. -/
def ev (op : Nat) (committed : Bool) (ws : List Word) : Event :=
  { handle := 5, t := 8192, f := 8192, op := op, alignI := false, committed := committed, cmd := schedCmd ws }

theorem witness_EventsCommitOrAreDiscarded :
    base.event 5 = none ∧
    (∀ x ∈ [ev 0x0315 false [160], ev 0x0315 false [0]], let s : State := { timed 8000 with events := [x] }; s.event 5 = some x ∧ s.commitDue x = true) ∧
    (let s : State := { timed 8000 with events := [ev 0x0315 false [160]] }; s.commitRefusal (ev 0x0315 false [160]) = none) ∧
    (let s : State := { timed 8000 with events := [ev 0x0315 false [0]] }; (s.commitRefusal (ev 0x0315 false [0])).isSome = true) ∧
    (let x := ev 0x0604 false [0, 0, 0, 0x10000000, 4096, 1, 7]
     let s : State := { timed 8000 with events := [x] }; s.event 5 = some x ∧ s.commitDue x = true ∧ s.commitRefusal x = none) ∧
    ({ timed 0 with events := [ev 0x0315 true [160]] } : State).commitDue (ev 0x0315 true [160]) = false ∧
    ({ timed 8000 with events := [ev 0x0D04 false [0]] } : State).commitDue (ev 0x0D04 false [0]) = true := by decide +kernel

theorem witness_EventsFireInOrderAndTakeEffect :
    base.nextFire = none ∧
    (∀ x ∈ [ev 0x0302 true [16, 0, 32], ev 0x0310 true [1, 0], ev 0x0312 true [0, 32, 1], ev 0x0315 true [160], ev 0x0806 true [0, 0, 0, 0]],
      let s : State := { timed 8192 with events := [x] }
      s.nextFire = some x ∧ s.running = true ∧ x.committed = true ∧ x.f ≤ s.now ∧ s.cp.scriptRun = false ∧ s.noAction x = false) ∧
    (let x := ev 0x0403 true []
     let s : State := { timed 8192 with events := [x] }; s.nextFire = some x ∧ s.noAction x = true) ∧
    (let x := ev 0x0315 true [160]
     let s : State := { timed 8191 with events := [x] }; s.nextFire = some x ∧ s.now < x.f) := by decide +kernel

/-- R165: the target fired at its boundary is the one in force. -/
theorem test_target_fires : (nx (execEventFire { timed 8192 with events := [ev 0x0315 true [160]] })).rf MD_CH_TARGET MD_CH_TARGET_TARGET = 160 := by
  decide +kernel

/-! ### Start-up and resets -/

/-- A device at start-up step `p`, with profile pins `pins`. -/
def atStep (p : Nat) (pins : Option Nat) : State :=
  { wr base [(CP_SYS_STAT, fput 0 CP_SYS_STAT_PHASE p)] with cp := { base.cp with serving := false, pins := pins } }

/-- A device in power state `p`. -/
def inPower (p : Power) : State := { base with pw := { base.pw with power := p } }

theorem witness_PowerCyclesKeepOnlyTheFlash :
    (State.reset.pw.power = .housekeeping ∧ State.reset.pw.warned = true ∧ ({ State.reset with pw := { State.reset.pw with warned := false } } : State).pw.warned = false ∧ State.reset.slotFailing State.reset.lc.committed = none) ∧
    ((inPower .on).pw.power = .on ∧ (inPower .critical).pw.power = .critical ∧ (inPower .heldReset).pw.power = .heldReset) ∧
    (let s : State := { State.reset with lc := { State.reset.lc with committed := 1 } }
     s.lc.committed < 2 ∧ (s.slotFailing 1).isSome = true ∧ s.slotFailing 0 = none) ∧
    (let s : State := { State.reset with lc := { State.reset.lc with slotA := fwEmpty } }
     s.lc.committed < 2 ∧ (s.slotFailing s.lc.committed).isSome = true ∧ (s.slotFailing (1 - s.lc.committed)).isSome = true) ∧
    (let s : State := { base with lc := { base.lc with transReset := true } }; s.on = true ∧ s.lc.transReset = true) ∧
    (let s : State := { inPower .critical with pw := { base.pw with power := .critical, hkAuto := true } }
     s.pw.power = .critical ∧ s.pw.hkAuto = true ∧ s.restartBudget = true) := by decide +kernel

theorem witness_StartUpStepsFollowEachOther :
    ((atStep 2 none).on = true ∧ (atStep 2 none).phase = 2 ∧ (atStep 2 none).cp.pins = none) ∧
    ((atStep 3 (some 0)).on = true ∧ (atStep 3 (some 0)).phase = 3) ∧
    (let s := atStep 4 (some 4); s.on = true ∧ s.phase = 4 ∧ s.profChosen = none ∧ s.lc.state ≠ lcDecommissioned ∧ s.drFailed = false ∧ s.wipeItems 0 0 = 0) ∧
    (let s := atStep 6 none
     s.phase = 6 ∧ s.rf TM_ATC_STAT TM_ATC_STAT_STATE = 0 ∧ s.cp.startRefWait = 0 ∧ s.cp.startEpoch = 0) ∧
    (∀ b ∈ [true, false], ((List.range 64).foldl (fun s o => s.setOct o { octReset with first := b }) (atStep 6 none)).laddersEnded = b) ∧
    (let s : State := { wr (atStep 6 none) [(TM_STAT, fput (fput 0 TM_STAT_CORE coreLocked) TM_STAT_SEL 0), (TM_SRC_CTL 0, fput 0 TM_SRC_CTL_PPS_EN 1)] with
       cp := { (atStep 6 none).cp with startEpoch := 1 } }
     s.phase = 6 ∧ s.cp.startEpoch = 1 ∧ s.core = coreLocked ∧ s.usesPps (s.rf TM_STAT TM_STAT_SEL) = true) ∧
    (let s : State := { atStep 6 none with cp := { (atStep 6 none).cp with startEpoch := 1 } }; s.cp.startEpoch = 1 ∧ s.core ≠ coreLocked) ∧
    (let s : State := { wr (atStep 6 none) [(TM_STAT, 0#32), (TM_SRC_STAT 0, fput 0 TM_SRC_STAT_QSTATE qQualified)] with
       cp := { (atStep 6 none).cp with startRefWait := 1, startRefMax := 5 } }
     s.on = true ∧ s.refWaits = true ∧ s.refReady = true ∧ s.cp.startRefMax ≠ 0) := by decide +kernel

/-- A profile that the pins select runs where its image passes R417, whose signature the model leaves open. -/
theorem witness_profChosen (s : State) (h1 : s.cp.pins = some 0) (h2 : s.lc.state = 2) (h3 : (s.prof 0).valid = true)
    (h4 : s.profCheck 0 (s.prof 0).bytes = none) : s.profChosen = some 0 := by
  simp [State.profChosen, h1, h2, h3, h4, lcDecommissioned]

theorem test_script_empty : profScript profBytes = [] := by decide +kernel

theorem witness_WarmAndComputeResets :
    (let s : State := { base with cp := { base.cp with queue := [⟨0x0102, cmd [1]⟩] } }
     s.on = true ∧ s.cp.recovery = false ∧ s.inTrial = false ∧ s.cp.running = [] ∧ s.cp.queue = [⟨0x0102, cmd [1]⟩] ∧ s.dm.aborts = [] ∧
       isQuery 0x0102 (cmd [1]) = false ∧ (cmd [1]).transport ≠ .script) ∧
    (let s := base.setF CP_FW_STAT CP_FW_STAT_TRIAL 1; s.cp.recovery = false ∧ s.inTrial = true ∧ s.lc.committed < 2) ∧
    (let s : State := { base with cp := { base.cp with serving := false } }; s.cp.serving = false ∧ s.cp.recovery = false ∧ s.lc.handoff = none ∧ s.cp.held = []) ∧
    (let s : State := { base with cp := { base.cp with serving := false, held := [⟨.slot 0, [1]⟩] } }; s.cp.serving = false ∧ s.cp.held = [⟨.slot 0, [1]⟩]) ∧
    tk 0x0102 (cmd [1]) base = true ∧ tk 0x0102 (cmd [2]) base = true ∧ base.commitSoon = none ∧ base.cp.scriptRun = false ∧ base.cp.running = [] ∧
      4 ≤ base.replyRoom (.slot 4) ∧ base.pw.compOn = true ∧ base.thermal = false ∧
    (let s : State := { timed 8000 with events := [ev 0x0315 false [160]] }; (s.commitSoon).isSome = true) ∧
    (let s : State := { base with pw := { base.pw with compOn := false, compRestart := true } }; s.on = true ∧ s.pw.compRestart = true ∧ s.thermal = false ∧ s.integrating = false) := by
  decide +kernel

/-! ### Power, correlator and beamformer -/

/-- `base` with a sensor's state, late enough for any step of the throttle. -/
def withSensor (n : Nat) (x : Sensor) : State := { base with time := { base.time with cycles := 10 ^ 9 } }.setSensor n x

/-- A first reading in units of 0.0625 °C, filtered. -/
def readAs (r : Int) : Sensor := { seen := true, num := r, exp := 0, raw := r, pend := false, lost := false }

theorem witness_InputRailsDroopAndPads :
    (base.pw.auxOff = false ∧ ({ base with pw := { base.pw with auxOff := true } } : State).pw.auxOff = true) ∧
    (∀ d ∈ [0, 1, 2], (d = 0 ∨ base.diePowered (d - 1) = true) ∧ base.rfb PW_DROOP PW_DROOP_NOW (2 - d) = false ∧
      (base.setFB PW_DROOP PW_DROOP_NOW (2 - d) true).rfb PW_DROOP PW_DROOP_NOW (2 - d) = true) ∧
    ((base.reg PW_PAD).getLsbD 14 = false ∧ ((base.setReg PW_PAD 0x80000000#32).reg PW_PAD).getLsbD 31 = true) ∧
    (let s := ((withSensor 0 (readAs 1600)).setF PW_THROT (kFld 0) 7)
     s.kOf 0 = 7 ∧ s.dieHot 0 (100 * 16) = true ∧ 2000000 ≤ s.time.cycles - tblGet 0 s.pw.stepAt 3 ∧ s.kOf 3 < 7) ∧
    (let s := ((withSensor 0 (readAs 1599)).setF PW_THROT (kFld 3) 1)
     s.dieHot 0 (100 * 16) = false ∧ s.kOf 1 ≠ 7 ∧ 200000000 ≤ s.time.cycles - tblGet 0 s.pw.stepAt 3 ∧ 0 < s.kOf 3) ∧
    (({ base with pw := { base.pw with shutPend := true } } : State).pw.shutPend = true ∧ base.pw.shutPend = false) := by decide +kernel

theorem witness_SensorReadingsThrottleAndShutDown :
    (base.role ≠ roleActive ∧ base.diePowered (dieOfSensor 3) = true ∧ base.diePowered (dieOfSensor 50) = true ∧ (base.sensor 3).seen = false ∧ (base.sensor 3).pend = false) ∧
    ((withSensor 3 (readAs 320)).flag (PW_TS 3) PW_TS_FAST = false ∧ ((withSensor 3 (readAs 320)).sensor 3).seen = true) ∧
    (let s := withSensor 3 (readAs 1700)
     let t := nx (execFastReading 3 (some 1700) (s.setF (PW_TS 3) PW_TS_FAST 1))
     t.dieHot 0 (100 * 16) = true ∧ s.kOf 0 < 7 ∧ tblGet 0 s.pw.stepAt 0 + 2000000 ≤ s.time.cycles ∧ 4 ≤ t.sensLeft 0) ∧
    (∀ p ∈ [(3, 1840), (50, 1840), (50, 2000), (63, 2400)], let s := withSensor p.1 { readAs p.2 with pend := true }
      (s.sensor p.1).pend = true ∧ (s.sensor p.1).raw = p.2 ∧ s.diePowered (dieOfSensor p.1) = true ∧ s.rf PW_STAT PW_STAT_STATE = 0 ∧ p.2 ≤ 150 * 16 ∧ 115 * 16 ≤ p.2) ∧
    ((base.sensor 3).lost = false ∧ 5 ≤ base.sensLeft 0) ∧
    ((List.replicate 64 (some (320 : Int))).length = 64 ∧ (∀ n ∈ List.range 64, (List.replicate 64 (some (320 : Int))).getD n none = some 320 ∧ (base.sensor n).pend = false) ∧
      base.thermal = false) ∧
    (∀ n ∈ [0, 3], let s : State := { (base.setF PW_STAT PW_STAT_STATE 1).setF PW_CTL PW_CTL_AUTO_RESTART 1 with pw := { base.pw with restarts := List.replicate n 0 } }
      s.thermal = true ∧ s.pw.shutPend = false ∧ s.flag PW_CTL PW_CTL_AUTO_RESTART = true ∧ s.coreStopped = false ∧ s.restartBudget = decide (n = 0) ∧ s.role ≠ roleLampblack) := by decide +kernel

theorem witness_PowerCommandsTakeEffect :
    (tk 0x0B01 (cmd []) base = true ∧ tk 0x0B02 (cmd []) base = true ∧ tk 0x0B03 (cmd [0, 7]) base = true ∧ tk 0x0B04 (cmd []) base = true ∧
      (∀ n ∈ [0, 1, 2, 16, 64], fit n (cmd []) base = true) ∧ base.thermal = false) ∧
    (let s := base.setF PW_STAT PW_STAT_STATE 1; tk 0x0B04 (cmd []) s = true ∧ s.thermal = true ∧ s.pw.shutPend = false ∧ s.diodeCool = false) ∧
    (let s := (base.setF PW_STAT PW_STAT_STATE 1).setF PW_DIODE PW_DIODE_VALID 1
     tk 0x0B04 (cmd []) s = true ∧ s.thermal = true ∧ s.diodeCool = true ∧ s.coreStopped = false ∧ s.role ≠ roleLampblack) ∧
    ((base.setF ML_STAT ML_STAT_STATE roleLampblack).role = roleLampblack) ∧
    ((∀ c ∈ [cmd [0, 0], cmd [0, 64], cmd [0, 63]], tk 0x0B05 c base = true) ∧ base.log = [] ∧
      ({ base with log := [{ atc := 0, ms := 0, code := 0x0B01, sev := 0, seq := 0, detail := [] }] } : State).log.getLast?.isSome = true) ∧
    (tk 0x0B06 (cmd []) base = true ∧ (withSensor 45 (readAs 400)).sensOk 45 = true ∧ ∀ m ∈ List.range 62, (withSensor 45 (readAs 400)).sensOk m = true → m = 45) := by decide +kernel

/-- A fill of path 3 at array time 0. -/
def fill0 (st : Nat) : Fill := { path := 3, st := st, data := [1, 2], loss := false, crc := false, warm := false, seeded := false }

/-- Selection 0 to 15, staging depth 4, half 0 taking spectra from array time `a` on, and an integration from 0 open in bank A. -/
def staging (h : Half) : State :=
  { ((timed 0).setF IX_STAGE IX_STAGE_T 4).setReg IX_STAGE_CH 16#32 with
    ix := { base.ix with half0 := h, nextBase := 32768, bankA := { bankFree with start := some 0 } } }

def half4 : Half := { halfFree with base := some 0, cap := 4, first := 0, count := 16 }

theorem witness_StagingPassesAndTheirSums :
    (base.ch.recs = [] ∧ base.md.fills = [] ∧ base.ctRuns = false ∧ base.ct.olds = [] ∧ base.pw.compOn = true) ∧
    (let s := staging half4; s.halfOf 0 = some false ∧ 0 < s.ix.nextBase ∧ 0 < (s.half false).count) ∧
    (let s : State := { staging half4 with ix := { (staging half4).ix with half1 := { half4 with base := some 65536 } } }
     ∀ n ∈ [0, 3], s.halfOf (s.ix.nextBase + 8192 * n) = none ∧ s.ix.half0.base.isSome = true ∧ s.ix.half1.base.isSome = true ∧ (s.stCfg s.ix.nextBase).t ≠ 0 ∧
       s.bankAt (s.ix.nextBase + 8192 * n) = some false) ∧
    (∀ d ∈ [0, 1], let s := staging { half4 with full := true }
      s.ix.half0.pass d = .waiting ∧ s.ix.half0.full = true ∧ s.ix.half1.pass d ≠ .busy ∧ s.ix.half1.full = false ∧ s.fits d 0 s.ix.half0 = true) ∧
    (let s : State := { staging { half4 with full := true } with
        time := { base.time with rateN := 10 ^ 9 }, ix := { (staging { half4 with full := true }).ix with bankA := { bankFree with start := some 0, regions := [⟨0, 1, 0, 1, 0, 1⟩] } } }
     (∀ q ∈ [0, 1, 2], s.fits 0 q s.ix.half0 = false) ∧ s.shedMask 0 s.ix.half0 = 1) ∧
    (base.ix.half0.pass 0 ≠ .busy ∧ base.ix.half1.pass 1 ≠ .busy) ∧
    (∀ d ∈ [0, 1], let s := staging { (half4.setPass d .busy 0).setPass (1 - d) .over 0 with woad := .over }
      s.ix.half0.pass d = .busy ∧ s.ix.half1.pass d ≠ .busy ∧ s.bankAt (s.ix.half0.base.getD 0) = some false ∧ s.ix.half0.pass (1 - d) = .over ∧ s.ix.half0.woad = .over) := by
  and_intros <;> decide +kernel

/-- An integration of one spectrum open in bank A from 0 on, due to close at `due`; array time 100,000. -/
def integ (due : Nat) : State :=
  { (((timed 100000).setF IX_CTL IX_CTL_RUN 1).setF IX_INT_LEN IX_INT_LEN_NSPEC 4).setReg64 IX_NEXT_CLOSE_LO due with
    ix := { base.ix with bankA := { bankFree with start := some 0 } } }

/-- The same with bank A closed at 32,768 and bank B as given. -/
def closed (draining : Bool) (b : Bank) : State :=
  { integ 131072 with ix := { base.ix with bankA := { bankFree with start := some 0, stop := some 32768, draining := draining }, bankB := b, done := 32768 } }

/-- A ring of `n` bytes at address 0. -/
def ringed (n : Nat) (s : State) : State := s.setReg IX_DUMP_LEN (w32 n)

theorem witness_IntegrationsCloseDrainAndChange :
    (base.on = true ∧ base.ckptOn = false ∧ base.curBank = none ∧ base.closing = none ∧ base.drainBank = none ∧ base.ix.lostQ = [] ∧ base.closeDue = false) ∧
    ((integ 100001).curBank = some false ∧ ¬ (integ 100001).dueAt ≤ (integ 100001).now) ∧
    (let s := integ 32768
     s.curBank = some false ∧ s.integrating = true ∧ s.running = true ∧ s.pw.compOn = true ∧ s.ix.deferred = false ∧ s.dueAt ≤ s.now ∧ (s.bank true).start = none ∧
       s.ix.anchor + 1 * s.intLen = s.dueAt ∧ 0 < s.intLen ∧ s.dueAt + s.intLen < 2 ^ 64) ∧
    (let s : State := { integ 32768 with ix := { (integ 32768).ix with bankB := { bankFree with start := some 8192, stop := some 16384 } } }
     s.curBank = some false ∧ s.dueAt ≤ s.now ∧ (s.bank true).start ≠ none) ∧
    (let s := closed false { bankFree with start := some 32768 }; s.closing = some false ∧ (s.bank true).start = some 32768) ∧
    (let s : State := { base with ix := { base.ix with lostQ := [(bankFree, false)] } }
     s.recordPlace bankFree true = none ∧ (ringed (2 ^ 30) s).recordPlace bankFree true = some 0 ∧ s.recordOut bankFree = true ∧ s.drIn 0 4096 = true) ∧
    (let s := closed true { bankFree with start := some 32768 }
     s.drainBank = some false ∧ s.ix.lostQ = [] ∧ s.closeDue = false ∧ s.recordPlace (s.bank false) false = none ∧
       (ringed (2 ^ 30) s).recordPlace (s.bank false) false = some 0 ∧ s.recordOut (s.bank false) = true ∧ s.drIn 0 4096 = true ∧ s.drIn (2 ^ 60) 1 = false ∧ s.ix.deferred = false ∧ s.integrating = true) ∧
    (let s := (closed true bankFree).setF ML_STAT ML_STAT_STATE roleLampblack; s.recordOut (s.bank false) = false) ∧
    (let s := closed true { bankFree with start := some 32768 }
     let t : State := { s with ix := { s.ix with deferred := true } }; t.curBank = some true ∧ t.drainBank = some false ∧ t.ix.deferred = true ∧ t.closeDue = false) ∧
    (∀ r ∈ [0, 1], let s : State := { integ 131072 with events := [ev 0x0401 true [2000, 0, 0, 0, 1, 1], ev 0x0403 true []], ix := { (integ 131072).ix with bankA := { bankFree with start := if r = 0 then none else some 0 } } }
      let u := if r = 0 then s.setF IX_CTL IX_CTL_RUN 0 else s
      u.nextFire = some (ev 0x0401 true [2000, 0, 0, 0, 1, 1]) ∧ u.noAction (ev 0x0401 true [2000, 0, 0, 0, 1, 1]) = false ∧ u.running = true ∧ 8192 ≤ u.now ∧ u.stNow.t = 0 ∧
        (setDesc ((ev 0x0401 true [2000, 0, 0, 0, 1, 1]).cmd.payload.drop 2)).regions ≠ [] ∧ u.integrating = decide (r = 1) ∧ u.curBank = (if r = 0 then none else some false)) ∧
    (let s : State := { (integ 131072).setF IX_STAGE IX_STAGE_T 4 with events := [ev 0x0403 true []] }
     s.nextFire = some (ev 0x0403 true []) ∧ s.noAction (ev 0x0403 true []) = false ∧ s.curBank = some false ∧ s.stNow.t ≠ 0) := by
  and_intros <;> decide +kernel

theorem witness_CorrelatorCommandsTakeEffect :
    (let c := cmd [2000, 0, 0, 0, 1, 1]
     tk 0x0402 c base = true ∧ c.payload.length = setLen c.payload ∧ base.setBad (setDesc c.payload) (fun r => 2 + 4 * r) = none ∧ fit 3 c base = true) ∧
    ((base.setBad (setDesc (cmd [0, 0, 0, 0, 1, 1]).payload) (fun r => 2 + 4 * r)).isSome = true ∧ (cmd [0, 0, 0, 0, 1, 1]).payload.length = setLen (cmd [0, 0, 0, 0, 1, 1]).payload) ∧
    (let c := cmd [2000, 0, 0, 0, 130816, 200]
     c.payload.length = setLen c.payload ∧ base.setBad (setDesc c.payload) (fun r => 2 + 4 * r) = none ∧ base.setOver (setDesc c.payload) = some (1, 0)) ∧
    (tk 0x0404 (cmd []) base = true ∧ fit 11 (cmd []) base = true) ∧
    (tk 0x0405 (cmd [7]) base = true ∧ base.ix.ring = [] ∧
      ({ base with ix := { base.ix with ring := [{ seq := 7, off := 0, len := 64, sent := 0, stream := false, freed := false }] } } : State).ix.ring = [] ++ { seq := 7, off := 0, len := 64, sent := 0, stream := false, freed := false } :: []) ∧
    (tk 0x0406 (cmd [0]) base = true ∧ dieGroups 512 0 0 0 [] = []) ∧
    (∀ c ∈ [cmd [1, 0, 0], cmd [0, 0, 1], cmd [0, 0, 4096]], tk 0x0407 c base = true ∧ base.rf IX_STAT IX_STAT_STATE = 0 ∧ base.ix.regions = []) ∧
    ((base.setF IX_STAT IX_STAT_STATE 1).rf IX_STAT IX_STAT_STATE ≠ 0) ∧
    (let s : State := { base with ix := { base.ix with regions := [⟨0, 1, 0, 1, 0, 1⟩] } }
     s.ix.regions ≠ [] ∧ 4096 < 2 * setRecordLen s.mode { nspec := s.rf IX_INT_LEN IX_INT_LEN_NSPEC, fmt := s.rf IX_CTL IX_CTL_FMT, regions := s.ix.regions }) := by
  and_intros <;> decide +kernel

/-- One spectrum in staging with no path in it. -/
def spec0 (st : Nat) : StSpec := { st := st, paths := [], pieces := [], graced := false }

/-- Woad RUN over channels 0 to 127 with beam 0 enabled: its FMT, SPK and NINT. -/
def woad (fmt spk nint : Nat) (h : Half) : State :=
  { wr (timed 100000) [(WD_CTL, 0x80000000#32), (WD_CH, 128#32), (WD_BM_CTL 0, fput (fput 0 WD_BM_CTL_EN 1) WD_BM_CTL_FMT fmt),
      (WD_BM_PKT 0, fput (fput 0 WD_BM_PKT_SPK spk) WD_BM_PKT_NINT nint)] with
    ix := { base.ix with half0 := h } }

def full1 (st : Nat) (p : PassSt) : Half := { halfFree with base := some st, cap := 1, full := true, specs := [spec0 st], woad := p }

/-- A packet of beam 0 at array time `t`. -/
def pkt (t : Nat) : BeamPkt :=
  { format := 1, mode := 0, member := 0, atc := t, firstCh := 0, nch := 128, nspec := 1, pbin := 0, shift := 0, seg := 0, flags := 0, countA := 0, countB := 0, payload := [], regs := [0, 0, 0, 0, 0, 0] }

theorem witness_WoadFormsBeams :
    (base.wd.olds = [] ∧ base.wd.gap = none ∧ base.wdRuns = false ∧ base.ix.half0.woad ≠ .busy) ∧
    (let s := woad 0 0 0 (full1 0 .waiting)
     s.wd.olds = [] ∧ s.wd.gap = none ∧ s.ix.drops = [] ∧ s.wdRuns = true ∧ s.woadOn = true ∧ s.ix.half1.woad ≠ .busy ∧ s.ix.half0.full = true ∧ s.ix.half0.woad = .waiting ∧
       s.ix.half1.full = false ∧ s.wdRegs.beams.length = 1 ∧ s.wdFits s.wdRegs (modePaths s.ix.half0.mode) (s.rf PW_THROT PW_THROT_K_W) 0 = true) ∧
    (let s : State := { woad 0 0 0 (full1 0 .waiting) with time := { (timed 100000).time with rateN := 10 ^ 9 } }
     (∀ q ∈ [0, 1, 2], s.wdFits s.wdRegs 512 0 q = decide (0 < q)) ∧ (s.beam 0).opened = [] ∧ (s.beam 0).ready = [] ∧ (s.beam 0).tpStart = none ∧ (s.beam 0).tpDone = [] ∧ s.outputs = true) ∧
    (∀ p ∈ [(0, 1, 0, 0), (0, 0, 0, 0), (2, 0, 1, 0), (2, 0, 1, 8192)],
      let s := { woad p.1 p.2.1 p.2.2.1 (full1 p.2.2.2 .busy) with wd := { base.wd with next := p.2.2.2 } }
      s.woadOn = true ∧ s.ix.half0.woad = .busy ∧ s.ix.half1.woad ≠ .busy ∧ s.ix.half0.specs = [spec0 p.2.2.2] ∧ s.wd.next = p.2.2.2 ∧ s.wd.swaps = [] ∧ s.wd.olds = [] ∧
        (s.wdRegs.beams.map fun b => (bmFmt b.2, bmSpk b.2, bmNint b.2)) = [(p.1, p.2.1 + 1, p.2.2.1 + 1)]) ∧
    (let s : State := { woad 0 1 0 (full1 0 .waiting) with ix := { base.ix with half0 := full1 0 .waiting, half1 := full1 8192 .waiting } }
     s.wdRuns = true ∧ (s.half false).full = true ∧ (s.half true).full = true ∧ (s.half false).base.getD 0 < (s.half true).base.getD 0 ∧ s.wd.next = 0 ∧ s.wdRegs.beams ≠ []) ∧
    (let s : State := { base with wd := { base.wd with beams := [(0, { beamReset with ready := [pkt 0], tpDone := [pkt 0], tpStart := some 0 })] } }
     (s.beam 0).ready = [pkt 0] ∧ (s.beam 0).tpDone = [pkt 0] ∧ (pkt 0).atc ≤ 0 ∧ s.outputs = true ∧ s.flag (ET_P_STAT (bmPort (pkt 0).regs)) ET_P_STAT_LINK = false ∧
       (s.port 0).txFill 1 + 200 + (pkt 0).payload.length ≤ txPart 1) ∧
    (∀ h ∈ [halfFree, full1 0 .waiting], let s : State := { woad 0 0 0 h with wd := { base.wd with gap := some 0 } }; s.wd.gap = some 0 ∧ s.woadOn = true ∧ s.wd.olds = []) := by decide +kernel

/-- An event at 8,192 in front of a device that runs. -/
def firing (op : Nat) (ws : List Word) (s : State) : State := { s with time := { s.time with atc := 8192 }, events := [ev op true ws] }

theorem witness_WoadTablesAndCommands :
    (∀ c ∈ [cmd [1, 0, 0, 0], cmd [0, 0, 262144, 0], cmd [0, 0, 1, 262144], cmd [0, 0, 0, 262144]], tk 0x0501 c base = true) ∧
    (base.drFailed = false ∧ base.polyBusy = false ∧ base.cp.running.length < 8 ∧ (base.setF WD_TABLE WD_TABLE_COPYING 1).polyBusy = true ∧
      (base.setF DR_STAT DR_STAT_STATE drFail).drFailed = true) ∧
    (∀ w ∈ [5, 6], tk 0x0506 (cmd [w32 w]) base = true ∧ tk 0x0507 (cmd [w32 w]) base = true ∧ (cmd [w32 w]).f 0 2 0 = w) ∧
    (base.wd.store = none ∧ ({ base with wd := { base.wd with store := some 1 } } : State).wd.store.isSome = true) ∧
    ((base.setF WD_TABLE WD_TABLE_COPYING 1).flag WD_TABLE WD_TABLE_COPYING = true) ∧
    (let s : State := { base with wd := { base.wd with load := some (0, 0, 2), fetch := some 1, store := some 2 }, cp := { base.cp with running := [⟨0x0501, cmd []⟩, ⟨0x0506, cmd []⟩, ⟨0x0507, cmd []⟩] } }
     s.runningOp 0x0501 = some ⟨0x0501, cmd []⟩ ∧ s.runningOp 0x0506 = some ⟨0x0506, cmd []⟩ ∧ s.runningOp 0x0507 = some ⟨0x0507, cmd []⟩ ∧ s.drIn 0 64 = true ∧ s.drIn (2 ^ 60) 64 = false) ∧
    (let s := ready
     tk 0x0504 (cmd [0x80, 0, 0, 0]) s = true ∧ (cmd [0x80, 0, 0, 0]).payload.length = wdLen (cmd [0x80, 0, 0, 0]).payload ∧ s.wdBad (cmd [0x80, 0, 0, 0]).payload 0 = none ∧
       s.wdBudget (wdOf (cmd [0x80, 0, 0, 0]).payload) = none ∧ fit 1 (cmd []) s = true ∧ (s.wdBad (cmd [0x81, 0, 0, 0]).payload 0).isSome = true) ∧
    (let s : State := { ready.setF (ET_P_CTL 0) ET_P_CTL_MAXFRAME 9018 with time := { ready.time with rateN := 10 ^ 9 } }
     let c := cmd [0x80, 0, 0, 1, 0, 0x80000000, 0, 0, 0, 0, 0]
     tk 0x0504 c s = true ∧ c.payload.length = wdLen c.payload ∧ s.wdBad c.payload 0 = none ∧ (s.wdBudget (wdOf c.payload)).isSome = true) ∧
    (tk 0x0505 (cmd []) base = true ∧ fit 71 (cmd []) base = true) ∧
    (∀ p ∈ [(0x0502, ([] : List Word)), (0x0503, [0x80, 0, 0, 0])], ∀ r ∈ [0, 1], let s := (firing p.1 p.2 (timed 0)).setF WD_CTL WD_CTL_RUN r
      s.nextFire = some (ev p.1 true p.2) ∧ s.running = true ∧ 8192 ≤ s.now ∧ s.wdRuns = decide (r = 1) ∧
        (p.1 = 0x0503 → (ev p.1 true p.2).cmd.payload.length = 2 + wdLen ((ev p.1 true p.2).cmd.payload.drop 2))) := by
  and_intros <;> decide +kernel

/-! ### Trigger system and Ethernet -/

/-- A message with a sequence number and the samples it used. -/
def msg (q : Nat) (uses : List (Nat × Nat × Nat)) : TrigMsg :=
  { seq := q, trig := false, atc := 0, sub := 0, first := 0, all := 0, tin := 1, src := 0, extra := 0, loss := false, unchecked := false, froze := false, power := 0, base := 0
    uses := uses, usesOld := [], ready := false }

/-- A sample of path 0 at array time `t` whose check block has not come. -/
def unchecked (t : Nat) (s : State) : State :=
  { s with md := { s.md with w := t + 1, store := [(t, some { t := t, v := 0, loss := false, crc := false, chk := false, ecc := false })] } }

/-- Message port 2, TRIGIN input 0 a message input that arms, and the given messages and span. -/
def trig (span : Bool) (follow : Option TrigMsg) (msgs : List TrigMsg) : State :=
  { wr (timed 1000) [(SF_CTL, fput (fput 0 SF_CTL_MSG_PORTS 4) SF_CTL_PW 1), (SF_TRIGIN, 5#32)] with sf := { base.sf with span := span, follow := follow, msgs := msgs } }

theorem witness_TriggerPinsEdgesAndMessages :
    (let s := trig false none []
     s.on = true ∧ s.triginFunc 0 ≠ 0 ∧ bit (s.trigin 0) 2 = true ∧ s.rf SF_CTL SF_CTL_MSG_PORTS ≠ 0 ∧ (∀ n ∈ [0, 1000], s.msgsHeld n = false) ∧ s.freezesOn 0 1 = false ∧
       (s.port 2).c0Gap = false ∧ (s.port 2).c0q = [] ∧ (s.port 2).txFill 0 + 70 ≤ txPart 0 ∧ s.flag (ET_P_STAT 2) ET_P_STAT_LINK = false) ∧
    (let f : TxFrame := { cls := 0, bytes := [], c0Message := true }
     let s := (trig false none []).setPort 2 { portReset with c0Gap := true, c0q := List.replicate 64 f }
     (s.port 2).c0Gap = true ∧ 64 ≤ (s.port 2).c0q.length ∧ (((trig false none []).setPort 2 { portReset with c0Gap := true }).port 2).c0q.length < 64) ∧
    (∀ p ∈ [(0, ubOff), (1, ubRunning)], let s := ((trig false none []).setF SF_UB_CTL SF_UB_CTL_FRZ_SRC 1 |>.setF SF_UB_CTL SF_UB_CTL_EN p.1).setF SF_UB_STAT SF_UB_STAT_STATE p.2
      s.freezesOn 0 1 = true ∧ s.ubFreezable = decide (p.1 = 1)) ∧
    (∀ p ∈ [(none, []), (some 768, []), (some 1280, []), (some 1280, [768])], let s : State := { trig false none [] with sf := { (trig false none []).sf with
        fillAt := p.1, slabs := p.2.map fun a => { atc := a, old := false, dropped := false, newgen := false, freeze := false } } }
      s.now / 256 * 256 + 256 * min (s.ubAhead.rf SF_UB_POST SF_UB_POST_POST) (s.ubAhead.rf SF_UB_LEN SF_UB_LEN_LEN - 2) = 768 ∧ s.sf.fillAt = p.1 ∧ s.sf.slabs.isEmpty = p.2.isEmpty) ∧
    (∀ f ∈ [none, some (msg 1 [])], (trig true f []).sf.span = true ∧ (trig true f []).sf.follow = f) ∧
    ((trig true (some (msg 1 [(0, 0, 0)])) []).sf.follow = some (msg 1 [(0, 0, 0)]) ∧ base.rf SF_CTL SF_CTL_MSG_PORTS = 0) ∧
    (let s := (base.setTb 3 { tbReset with train := 257 }).setF (SF_TB_CTL 3) SF_TB_CTL_A 8; 2 ^ s.rf (SF_TB_CTL 3) SF_TB_CTL_A + 1 ≤ (s.tb 3).train) ∧
    (let s : State := { base.setFB SF_STAT SF_STAT_TRIG_NOW 7 true with sf := { base.sf with hits := [(512, 0)], pins := 128 } }
     s.rfb SF_STAT SF_STAT_TRIG_NOW 7 = true ∧ bit s.sf.pins 7 = true ∧ bit s.sf.outs 7 = false ∧ tblGet 0 s.sf.fell 7 + s.rf SF_CTL SF_CTL_PW ≤ s.time.cycles) ∧
    (let s := trig true none [msg 9 []]; s.sf.msgs = [msg 9 []] ∧ s.usesChecked (msg 9 []) = true ∧ (msg 9 []).unchecked = false) ∧
    (let s := unchecked 0 (trig true none [msg 9 [(0, 0, 0)]]); s.sf.msgs = [msg 9 [(0, 0, 0)]] ∧ s.usesChecked (msg 9 [(0, 0, 0)]) = false) ∧
    ((trig true none [msg 8 [(0, 0, 0)], msg 9 []]).sf.msgs = [msg 8 [(0, 0, 0)], msg 9 []] ∧ (msg 8 [(0, 0, 0)]).seq ≠ 9) := by
  and_intros <;> decide +kernel

def slab (t : Nat) (dropped : Bool) : Slab := { atc := t, old := false, dropped := dropped, newgen := false, freeze := false }
def chg (base len : Nat) : UbChange := { base := base, len := len, sel := none, ctl := none }

/-- Umber RUNNING over a ring of 64 slabs of no path at address 0. -/
def umber (st : Nat) (f : SfSt → SfSt) : State :=
  { wr base [(SF_UB_CTL, fput 0 SF_UB_CTL_EN 1), (SF_UB_LEN, 64#32), (SF_UB_STAT, fput 0 SF_UB_STAT_STATE st)] with sf := f base.sf }

theorem witness_UmberWritesAndCommands :
    (∀ d ∈ [slab 512 false, slab 512 true], let s := umber ubRunning fun x => { x with slabs := [d], lastWrit := some 256 }
      s.sf.slabs = d :: [] ∧ s.slabChecked d = true ∧ s.sf.turn = [] ∧ s.drIn 0 64 = true) ∧
    ((unchecked 512 ((umber ubRunning fun x => { x with slabs := [slab 512 false] }).setF (SF_UB_SEL 0) SF_UB_SEL_EN_A 1)).slabChecked (slab 512 false) = false) ∧
    (let s := umber ubPost fun x => { x with slabs := [slab 512 false], lastSlab := some 512 }
     s.sf.lastSlab = some 512 ∧ s.ubState = ubPost) ∧
    (∀ b ∈ [0, 4096], let s := umber ubRunning fun x => { x with slabs := [slab 512 false, slab 768 false], turn := [⟨768, false, some (chg b 128)⟩] }
      s.sf.turn = [⟨768, false, some (chg b 128)⟩] ∧ s.sf.slabs = slab 512 false :: [slab 768 false] ∧ (slab 768 false).before ⟨768, false, some (chg b 128)⟩ = false ∧ s.sf.lastSlab ≠ some 512 ∧ s.ubState ≠ ubOff ∧
        s.flag SF_UB_CTL SF_UB_CTL_EN = true ∧ s.reg64 SF_UB_BASE_LO = 0) ∧
    (∀ h ∈ [none, some (chg 0 64)], ∀ st ∈ [ubRunning, ubPost], let s := umber st fun x => { x with chgs := [(8192, 0, chg 0 128)], held := h, slabs := [slab 7936 false], fillAt := some 8192 }
      s.sf.chgs = [(8192, 0, chg 0 128)] ∧ s.sf.turn = [] ∧ s.ubState = st ∧ s.sf.held = h ∧ (slab 7936 false).atc < 8192 ∧ s.sf.fillAt ≠ none ∧
        (s.ubWrite (chg 0 128)).flag SF_UB_CTL SF_UB_CTL_EN = true) ∧
    (let c : UbChange := { chg 0 128 with ctl := some (0, 0) }; ((umber ubRunning id).ubWrite c).flag SF_UB_CTL SF_UB_CTL_EN = false) ∧
    (bit (1#32).toNat 0 = true ∧ (umber ubFrozen id).ubState = ubFrozen ∧ (umber ubFrozen fun x => { x with held := some (chg 0 64) }).sf.held = some (chg 0 64) ∧
      tk 0x0605 (cmd []) (umber ubFrozen id) = true ∧ tk 0x0605 (cmd []) base = true ∧ fit 0 (cmd []) base = true ∧ base.ubState ≠ ubFrozen) ∧
    (base.ringOk 0 64 64 = true ∧ base.ringOk 0 63 64 = false ∧ base.events = []) ∧
    (tk 0x0606 (cmd []) base = true ∧ fit 11 (cmd []) base = true ∧ tk 0x0603 (cmd []) base = true ∧ fit 52 (cmd []) base = true) ∧
    (∀ c ∈ [cmd [8191, 2, 0, 0], cmd [8191, 1, 0x200], cmd [8191, 1, 0x100]], tk 0x0602 c base = true ∧ c.payload.length = 2 + (c.w 1).toNat) ∧
    (bits (w32 0x200).toNat 9 8 = 2 ∧ base.trigQueued = false ∧ ({ base with events := [ev 0x0601 true []] } : State).trigQueued = true) ∧
    ((firing 0x0601 trigImages (timed 0)).nextFire = some (ev 0x0601 true trigImages)) := by
  and_intros <;> decide +kernel

/-- A frame of 60 bytes to the broadcast address with its FCS. -/
def etherFrame (et : Nat) (body : List Byte) : List Byte :=
  let bs := be 6 0xFFFFFFFFFFFF ++ be 6 5 ++ be 2 et ++ body ++ List.replicate (46 - body.length) 0
  bs ++ le 4 (crc32 bs)

/-- Port 2 with its link up, MAXFRAME 1,518, taking broadcast, flow control `fc`. -/
def linked (fc : Nat) (p : PortSt) : State :=
  (((base.setF (ET_P_STAT 2) ET_P_STAT_LINK 1).setF (ET_P_CTL 2) ET_P_CTL_MAXFRAME 1518).setF (ET_P_CTL 2) ET_P_CTL_FC_MODE fc |>.setF (ET_P_CTL 2) ET_P_CTL_BCAST 1).setPort 2 p

/-- A held frame of class 3 with `n` bytes. -/
def rx3 (et n : Nat) (body : List Byte) : RxFrame := { cls := 3, etype := et, src := 5, body := body, len := n }

theorem witness_PortsReceiveAndPause :
    ((linked 0 portReset).flag (ET_P_STAT 2) ET_P_STAT_LINK = true ∧ base.flag (ET_P_STAT 2) ET_P_STAT_LINK = false) ∧
    (∀ q ∈ [(0x88B8, [0]), (0x0800, [0]), (0x1234, [0]), (0x8808, be 2 1), (0x8808, be 2 7)], let b := etherFrame q.1 q.2
      let s := linked 0 portReset
      b.length = 64 ∧ b.length ≤ s.rf (ET_P_CTL 2) ET_P_CTL_MAXFRAME ∧ crc32 (b.take 60) = leAt b 60 4 ∧ etherOf (b.take 60) = (q.1, (b.take 60).drop 14) ∧
        s.filterPass 2 (beAt b 0 6) = true ∧ s.classify 2 q.1 ((b.take 60).drop 14) =
          (if q.1 = 0x88B8 then RxKind.stored 0 else if q.1 = 0x0800 then .ipDiscard else if q.1 = 0x1234 then .unclaimed else .control)) ∧
    (∀ e ∈ [0x88B8, 0x88F7], ∀ k ∈ [0, 11], let f : RxFrame := { cls := 0, etype := e, src := 5, body := be 1 k, len := 64 }
      decide (isPtp f = true ∧ ptpType (ptpBody f) < 4) = decide (e = 0x88F7 ∧ k = 0)) ∧
    ((linked 0 portReset).filterPass 2 7 = false ∧ crc32 (be 60 0) ≠ 0) ∧
    (∀ n ∈ [786432, 589824, 0], let s := (linked 2 { portReset with rx := [rx3 0x0800 n []] }).setF (ET_P_CTL 2) ET_P_CTL_TX_PFC 1 |>.setF (ET_P_PRIO 2) ET_P_PRIO_C3 3
      s.sendsPfc 2 3 = true ∧ (s.port 2).xoff.contains 3 = false ∧ s.prio 2 3 < 8 ∧ (s.port 2).rxFill 3 = n ∧ (s.port 2).inTx = none ∧ (s.port 2).cut = none ∧ (s.port 2).tx = []) ∧
    (let s := base.setPort 2 { portReset with rx := [rx3 0x0800 64 [], rx3 0x0806 64 []] }
     (s.port 2).rx = [rx3 0x0800 64 []] ++ rx3 0x0806 64 [] :: [] ∧ (rx3 0x0800 64 []).etype ≠ 0x0806) ∧
    (∀ n ∈ [400000, 0], let s := (linked 2 { portReset with rx := [rx3 0x0800 n []], xoff := [3] }).setF (ET_P_CTL 2) ET_P_CTL_TX_PFC 1 |>.setF (ET_P_PRIO 2) ET_P_PRIO_C3 3
      s.sendsPfc 2 3 = true ∧ (s.port 2).xoff.contains 3 = true ∧ decide (rxPart 3 < 2 * (s.port 2).rxFill 3) = decide (n ≠ 0)) ∧
    (∀ p ∈ [(1, 1), (2, 0x0101), (0, 1)], let s := linked p.1 { portReset with ctl := [be 2 p.2 ++ be 20 7] }
      (s.port 2).ctl = [] ++ (be 2 p.2 ++ be 20 7) :: [] ∧ beAt (be 2 p.2 ++ be 20 7) 0 2 = p.2 ∧ s.rf (ET_P_CTL 2) ET_P_CTL_FC_MODE = p.1) ∧
    (tblGet 0 ((base.setPort 2 { portReset with timers := [(7, 9)] }).port 2).timers 7 ≠ 0) := by
  and_intros <;> decide +kernel

def txf (cls : Nat) : TxFrame := { cls := cls, bytes := be 20 1, c0Message := false }

theorem witness_PortsSendAndLink :
    ((base.port 2).c0Gap = false ∧ (base.port 2).inTx = none ∧ ((base.setPort 2 { portReset with c0Gap := true }).port 2).c0q = []) ∧
    (∀ up ∈ [0, 1], let s := (base.setPort 2 { portReset with c0Gap := true, c0q := [txf 0] }).setF (ET_P_STAT 2) ET_P_STAT_LINK up
      (s.port 2).c0Gap = true ∧ (s.port 2).c0q = txf 0 :: [] ∧ (s.port 2).txFill (txf 0).cls + (txf 0).len ≤ txPart (txf 0).cls ∧ s.paused 2 0 = false ∧ (s.port 2).tx = []) ∧
    (let big : TxFrame := { txf 0 with bytes := List.replicate 700 0 }
     (({ portReset with tx := List.replicate 99 big } : PortSt).txFill 0 + big.len > txPart 0)) ∧
    (∀ f ∈ [{ txf 0 with c0Message := true }, txf 1, txf 4, { txf 2 with record := some 7 }], (base.setPort 2 { portReset with inTx := some f }).port 2 = { portReset with inTx := some f }) ∧
    (∀ h ∈ [0, 1], let s : State := { base.setF ET_DS_CTL ET_DS_CTL_HOLD h with ix := { base.ix with ring := [{ seq := 7, off := 0, len := 64, sent := 64, stream := true }] } }
      s.flag ET_DS_CTL ET_DS_CTL_HOLD = decide (h = 1) ∧ s.ix.ring = [] ++ { seq := 7, off := 0, len := 64, sent := 64, stream := true } :: []) ∧
    (∀ q ∈ [(1, 0), (2, 1), (2, 3)], let s := (base.setPort 2 { portReset with inTx := some (txf 3), tx := [txf q.1, txf q.2] }).setF (ET_P_STAT 2) ET_P_STAT_LINK 1
      (s.port 2).tx = [txf q.1, txf q.2] ∧ (s.port 2).held = [] ∧ (s.port 2).cut = none ∧ (txf 2).resend = false ∧ ∀ k ∈ [0, 1, 2, 3], s.paused 2 k = false) ∧
    (let s := ((base.setPort 2 { portReset with inTx := some (txf 3), tx := [txf 1, txf 0] }).setF (ET_P_STAT 2) ET_P_STAT_LINK 1).setF (ET_P_PRIO 2) ET_P_PRIO_C1 5
     let t := s.setFB (ET_P_STAT 2) ET_P_STAT_PAUSED (s.prio 2 0) true
     t.paused 2 0 = true ∧ t.paused 2 1 = false) ∧
    ((txf 2).len ≤ txPart 2 ∧ (({ portReset with inTx := some (txf 3), tx := [txf 2], held := [txf 2] } : PortSt)).held = [txf 2]) ∧
    (let s := (base.setPort 2 { portReset with tx := [txf 1] }).setF (ET_P_CTL 2) ET_P_CTL_EN 1
     s.flag (ET_P_CTL 2) ET_P_CTL_EN = true ∧ s.flag (ET_P_STAT 2) ET_P_STAT_LINK = false ∧ (s.port 2).tx = [txf 1] ∧ (s.port 2).inTx = none ∧ (s.port 2).cut = none ∧ s.paused 2 1 = false) ∧
    (((base.setPort 2 { portReset with verify := 2 }).port 2).verify = 2 ∧ base.flag (ET_P_STAT 2) ET_P_STAT_PREEMPT_OK = false) ∧
    (base.flag IX_CTL IX_CTL_EXPORT_ETH = false) ∧
    (∀ seg ∈ [0, 1024], let r : DumpRec := { seq := 7, off := 0, len := 2048, sent := 0, stream := true }
      let s : State := { (base.setF IX_CTL IX_CTL_EXPORT_ETH 1).setF ET_DS_CTL ET_DS_CTL_SEG seg with ix := { base.ix with ring := [r] } }
      s.flag IX_CTL IX_CTL_EXPORT_ETH = true ∧ s.outputs = true ∧ s.ix.ring.find? (fun x => x.stream && x.sent == 0) = some r ∧ s.rf ET_DS_CTL ET_DS_CTL_SEG = seg ∧
        s.flag (ET_P_STAT (s.rf ET_DS_CTL ET_DS_CTL_PORT)) ET_P_STAT_LINK = false) := by
  and_intros <;> decide +kernel

theorem be_length (n v : Nat) : (be n v).length = n := by induction n with | zero => rfl | succ n ih => simp [be, ih]

theorem beVal_fold (n v a : Nat) : (be n v).foldl (fun a b => a * 256 + b.toNat) a = a * 256 ^ n + v % 256 ^ n := by
  induction n generalizing a with
  | zero => simp [be, Nat.mod_one]
  | succ n ih =>
    have h : (BitVec.ofNat 8 (v / 256 ^ n)).toNat = v / 256 ^ n % 256 := by simp
    rw [be, List.foldl_cons, ih, h, Nat.pow_succ, Nat.mod_mul]
    ring

theorem crc32c_lt (l : List Byte) : crc32c l < 2 ^ 32 := by
  have step : ∀ c, c < 2 ^ 32 → crcStep 0x82F63B78 c < 2 ^ 32 := fun c h => by
    unfold crcStep
    split
    · exact Nat.xor_lt_two_pow (by omega) (by omega)
    · omega
  have byte : ∀ (b : Byte) c, c < 2 ^ 32 → crcByte 0x82F63B78 c b < 2 ^ 32 := fun b c h => by
    unfold crcByte
    exact step _ (step _ (step _ (step _ (step _ (step _ (step _ (step _ (Nat.xor_lt_two_pow h (by have := b.isLt; omega)))))))))
  have all : ∀ (l : List Byte) c, c < 2 ^ 32 → l.foldl (crcByte 0x82F63B78) c < 2 ^ 32 := fun l => by
    induction l with
    | nil => exact fun c h => h
    | cons b l ih => exact fun c h => ih _ (byte b c h)
  exact Nat.xor_lt_two_pow (all l _ (by omega)) (by omega)

/-- A block of member 1 for member 0 (R284): its flag byte, SEQ, array time and EPOCH; 16 paths from 512 on, 512 channels from 0 on, every sample 0. -/
def ctHead (fl q st ep : Nat) : List Byte :=
  be 2 0x4354 ++ be 1 1 ++ be 1 fl ++ be 1 0x41 ++ be 1 0 ++ be 2 512 ++ be 4 q ++ be 8 st ++ be 2 0 ++ be 1 (if fl = 2 then 1 else 0x49) ++ be 1 0 ++ be 4 ep ++ be 4 0

def ctBody (fl q st ep : Nat) : List Byte := ctHead fl q st ep ++ List.replicate 8192 0

def ctBlk (fl q st ep : Nat) : List Byte := ctBody fl q st ep ++ be 4 (crc32c (ctBody fl q st ep))

theorem ctBlk_crc (fl q st ep : Nat) : 8228 ≤ (ctBlk fl q st ep).length ∧ crc32c ((ctBlk fl q st ep).take 8224) = beAt (ctBlk fl q st ep) 8224 4 := by
  have h : (ctBody fl q st ep).length = 8224 := by simp only [ctBody, ctHead, List.length_append, be_length, List.length_replicate]
  have b4 : (be 4 (crc32c (ctBody fl q st ep))).length = 4 := be_length _ _
  refine ⟨by rw [ctBlk, List.length_append, h, b4], ?_⟩
  have t : (ctBlk fl q st ep).take 8224 = ctBody fl q st ep := by rw [ctBlk, ← h, List.take_left']; rfl
  have d : (ctBlk fl q st ep).drop 8224 = be 4 (crc32c (ctBody fl q st ep)) := by rw [ctBlk, ← h, List.drop_left']; rfl
  have e : slice (ctBlk fl q st ep) 8224 4 = be 4 (crc32c (ctBody fl q st ep)) := by
    rw [slice, d, List.take_of_length_le (by omega), b4]; simp
  rw [t, beAt, e, beVal, beVal_fold]
  exact (by simpa using Nat.mod_eq_of_lt (crc32c_lt _) : _ = _).symm

/-- The corner turn of member 0 of two RUNs on port 2; a frame of it received there, and the stream of member 1 at its port 0 in MODE 1. -/
def turning (b : List Byte) (x : CtStream) (known : Nat) : State :=
  { (((base.setF ET_CT_CTL ET_CT_CTL_RUN 1).setF ET_CT_CTL ET_CT_CTL_MODE 1).setF ET_CT_CTL ET_CT_CTL_PORTS 4).setPort 2
      { portReset with rx := [{ cls := 1, etype := 0x88B5, src := 5, body := b, len := 8246 }] } with
    ct := { base.ct with rx := [(36, x)], epochs := [(9, known)] } }

def strm (e : Nat) (missing : List CtMissing) (any : Bool) : CtStream := { ctStream0 with e := e, missing := missing, any := any }

/-- A NAK (KIND 1) or GONE (KIND 2) of member 1 for a member, listing SEQ 7 (R292). -/
def ctlBody (kind to' ep : Nat) : List Byte :=
  be 2 0x434E ++ be 1 1 ++ be 1 kind ++ be 1 0x41 ++ be 1 to' ++ be 1 1 ++ be 1 0 ++ be 4 ep ++ be 4 7 ++ be 2 1 ++ be 2 0 ++ be 26 0

def ctlFrame (kind to' ep : Nat) : RxFrame := { cls := 1, etype := 0x88B6, src := 5, body := ctlBody kind to' ep, len := 64 }

theorem tblGet_pairs {α : Type} (d v : α) : ∀ (l : List Nat) {p : Nat}, p ∈ l → tblGet d (l.map fun q => (q, v)) p = v
  | q :: l, p, h => by
    by_cases e : q = p
    · simp [tblGet, e]
    · simpa [tblGet, e] using tblGet_pairs d v l ((List.mem_cons.1 h).resolve_left (Ne.symm e))

theorem localDone_all (h : Half) (hm : h.member = 0) (x : StSpec)
    (hx : x.paths = (List.range 512).map fun p => (p, { stPathNone with here := true })) : h.localDone x = true := by
  simp only [Half.localDone, List.all_eq_true, hm, hx]
  intro p hp
  rw [Nat.mul_zero, Nat.zero_add, tblGet_pairs _ _ _ hp]

theorem witness_CornerTurnCarriesBlocks :
    (base.ctRuns = false ∧ base.ct.olds = [] ∧ (turning [] ctStream0 0).ctRuns = true ∧ (turning [] ctStream0 0).ct.olds = [] ∧ (∀ st ∈ [8192, 8193], (turning [] ctStream0 0).outputsAt st = true ∧ (turning [] ctStream0 0).ctAt st = none)) ∧
    (let s := turning [] ctStream0 0
     let f := fun i : Nat => ({ fill0 8192 with path := i } : Fill)
     let t : State := { s with ct := { s.ct with src := (List.range 16).map f } }
     ctPort (t.rf ET_CT_CTL ET_CT_CTL_PORTS) 0 = some 2 ∧ t.ctSpec 0 = some 8192 ∧ 7 * 512 / modeChans t.mode = 1 ∧ (1 : Nat) ≠ t.member ∧ (8192, 0, 7) ∉ t.ct.queued ∧
       t.flag (ET_P_STAT 2) ET_P_STAT_LINK = false ∧ (t.port 2).txFill 1 + 8246 ≤ txPart 1 ∧ t.ctRecsFor 1 = []) ∧
    (let s := turning [] ctStream0 0
     let x : ScaleRec := { path := 3, st := 8192, closing := false, epoch := 8192, bytes := List.replicate 1184 0 }
     let t : State := { s with ct := { s.ct with recs := [{ what := x, had := [], old := false }], sentTo := (List.range 32).map fun b => (b, 8193) } }
     t.ctRecsFor 1 = [x] ∧ x.path / 16 = 0 ∧ 1 ∈ t.ctOthers ∧ x.bytes.length = 1184) ∧
    (∀ n ∈ [0, 2], let big : TxFrame := { txf 1 with bytes := List.replicate 2200 0 }
      decide (txPart 1 < ({ portReset with tx := List.replicate (n * 714) big } : PortSt).txFill 1 + 8246) = decide (n = 2)) ∧
    (∀ f ∈ (base.port 2).rx, f.etype ≠ 0x88B5) ∧
    (∀ p ∈ [(0, 0, 0, 0), (0, 1, 8193, 0), (0, 1, 8192, 4), (0, 9, 8192, 9), (0, 1, 8192, 5), (2, 1, 8192, 5)], let b := ctBlk p.1 p.2.1 p.2.2.1 p.2.2.2
      let s := turning b (strm 1 [] false) 6
      (s.port 2).rx.head?.map (·.etype) = some 0x88B5 ∧ s.ctWellFormed b = true ∧ beAt b 4 1 % 8 = 1 ∧ s.ctKey (beAt b 4 1 % 8) (beAt b 4 1 / 16 % 4) = 36 ∧
        beAt b 8 4 = p.2.1 ∧ beAt b 12 8 = p.2.2.1 ∧ beAt b 24 4 = p.2.2.2 ∧ (s.ctRx 36).e = 1 ∧ tblGet 0 s.ct.epochs (8 * s.mode + 1) = 6 ∧ s.ctAt p.2.2.1 = none) ∧
    ((turning [] ctStream0 0).ctWellFormed (ctBlk 3 0 0 0) = false ∧ (ctHead 0 0 0 0).length = 32 ∧ beAt (ctHead 0 0 0 0) 4 1 % 8 ≠ (turning [] ctStream0 0).member) ∧
    (∀ b ∈ [ctBlk 0 1 8192 5], ∀ x ∈ [strm 1 [] false, strm 0 [] false, strm 5 [{ seq := 1, lo := 8192, hi := 8192 }] false, strm 5 [] false, strm 2 [] false, strm (2 ^ 32 - 3000) [] false, strm 9 [] true],
      (turning b x 6).ctRx 36 = x ∧ (turning b x 6).ctOwes 1 = [] ∧ (turning b x 6).ctOver 8192 = false) ∧
    (let s := turning [] ctStream0 0
     let h : State := { s with ix := { s.ix with half0 := { half4 with mode := 1 }, nextBase := 32768 } }
     s.halfOf 8192 = none ∧ s.ctPast 8192 = false ∧ ({ s with ix := { s.ix with nextBase := 16384 } } : State).ctPast 8192 = true ∧ h.halfOf 8192 = some false ∧ h.ctPast 8192 = false ∧
       8192 < h.ix.nextBase ∧ h.pw.compOn = true ∧ (h.half false).specs = []) ∧
    (∀ naked ∈ [false, true], let s := turning [] { strm 9 [{ seq := 7, lo := 8192, hi := 8192 }] false with naked := naked } 0
      s.ctRuns = true ∧ s.ct.olds = [] ∧ s.ctKey 1 0 = 36 ∧ (s.ctRx 36).naked = naked ∧ (s.ctRx 36).missing ≠ [] ∧
        s.flag (ET_P_STAT 0) ET_P_STAT_LINK = false ∧ (s.port 0).txFill 1 + 400 ≤ txPart 1) ∧
    (∀ p ∈ [(1, 0, 0), (1, 1, 0), (1, 0, 9), (2, 1, 0)], let s := (turning [] (strm 9 [{ seq := 7, lo := 8192, hi := 8192 }] false) 0).setPort 2 { portReset with rx := [ctlFrame p.1 p.2.1 p.2.2] }
      (s.port 2).rx = [] ++ ctlFrame p.1 p.2.1 p.2.2 :: [] ∧ (ctlFrame p.1 p.2.1 p.2.2).etype = 0x88B6 ∧ beAt (ctlBody p.1 p.2.1 p.2.2) 3 1 = p.1 ∧ s.ctCtlOk (ctlBody p.1 p.2.1 p.2.2) = true ∧
        ctListed (ctlBody p.1 p.2.1 p.2.2) = [7] ∧ beAt (ctlBody p.1 p.2.1 p.2.2) 5 1 % 8 = p.2.1 ∧ beAt (ctlBody p.1 p.2.1 p.2.2) 8 4 = p.2.2 ∧ s.epochField = 0 ∧ s.ctStored 1 0 = [] ∧ s.ctOfMode 1 = none ∧
        s.ctKey 1 0 = 36 ∧ (s.ctRx 36).missing.find? (fun y => y.seq == 7) = some { seq := 7, lo := 8192, hi := 8192 }) ∧
    (let y : CtBlock := { member := 1, port := 0, seq := 7, bytes := [] }
     (({ base with ct := { base.ct with sram := [y] } } : State).ctStored 1 0).filter (fun y => y.seq == 7) = [y] ∧ (base.port 0).txFill 1 + 8300 ≤ txPart 1) ∧
    (base.ctCtlOk (be 46 0) = false) ∧
    (let paths : Tbl StPath := (List.range 512).map fun p => (p, { stPathNone with here := true })
     let x : StSpec := { spec0 8192 with paths := paths }
     let s := turning [] ctStream0 0
     let t : State := { s with ix := { s.ix with half0 := { half4 with mode := 1, specs := [x] }, nextBase := 32768 } }
     t.halfOf 8192 = some false ∧ (t.half false).mode ≠ 0 ∧ (t.half false).specs = [] ++ x :: [] ∧ x.st = 8192 ∧ (t.half false).localDone x = true ∧ x.graced = false ∧
       (t.half false).localDone (spec0 8192) = false) := by
  and_intros <;> first | with_reducible exact localDone_all _ (by decide +kernel) _ (by dsimp only) | decide +kernel

/-! ### Network commands, time and memory -/

/-- ET_PORT_CONFIG of port 2 with an image of ET_P_CTL, four priorities. -/
def portCmd (ctl : Nat) : Cmd := cmd [2, fput (w32 ctl) ET_P_CTL_MAXFRAME 9018, fput (fput (fput 0 ET_P_PRIO_C0 7) ET_P_PRIO_C1 5) ET_P_PRIO_C2 3, 0, 0, 0, 0]

theorem witness_NetworkCommandsTakeEffect :
    (∀ ctl ∈ [2 ^ ET_P_CTL_EN.lo, 0, 2 ^ ET_P_CTL_PREEMPT.lo], ∀ up ∈ [0, 1], let s := base.setF (ET_P_STAT 2) ET_P_STAT_LINK up
      tk 0x0701 (portCmd ctl) s = true ∧ (portCmd ctl).payload.length = 7 ∧ (portCmd ctl).f 0 1 0 = 2 ∧ s.portBad (portCmd ctl) = none ∧ s.flag ET_CT_CTL ET_CT_CTL_RUN = false ∧
        ((s.dequeue 0x0701 (portCmd ctl)).portConfig 2 ((portCmd ctl).payload.drop 1)).portC1Ok 2 (wdLine ((s.dequeue 0x0701 (portCmd ctl)).portConfig 2 ((portCmd ctl).payload.drop 1)).wdRegs 2) = true) ∧
    (let s := turning [] ctStream0 0; bit (s.rf ET_CT_CTL ET_CT_CTL_PORTS) 2 = true ∧ s.flag ET_CT_CTL ET_CT_CTL_RUN = true ∧ s.portBad (portCmd 0) = none) ∧
    ((base.portBad (cmd [2, 0, 0, 0, 0, 0, 0])).isSome = true ∧ fget (portCmd 0 |>.w 1) ET_P_CTL_PREEMPT = 0 ∧ (base.setF SF_CTL SF_CTL_MSG_PORTS 4).rfb SF_CTL SF_CTL_MSG_PORTS 2 = true) ∧
    (tk 0x0702 (cmd (0x00400002 :: List.replicate 144 0)) base = true ∧ (cmd (0x00400002 :: List.replicate 144 0)).payload.length = 17 + 2 * 64 ∧ (cmd (0x00400002 :: List.replicate 144 0)).f 0 22 16 = 64) ∧
    (tk 0x0702 (cmd (0x00410002 :: List.replicate 144 0)) base = true ∧ 64 < (cmd (0x00410002 :: List.replicate 144 0)).f 0 22 16) ∧
    (tk 0x0704 (cmd [2]) base = true ∧ fit 28 (cmd [2]) base = true ∧ tk 0x0705 (cmd []) base = true ∧ fit 19 (cmd []) base = true) ∧
    (∀ g ∈ [1024, 8192, 8256], let c := cmd [fput (fput 0 ET_DS_CTL_SEG g) ET_DS_CTL_PORT 2, 0, 0, 0, 0]
      let s := base.setF (ET_P_CTL 2) ET_P_CTL_MAXFRAME 9018
      tk 0x0706 c s = true ∧ fget (c.w 0) ET_DS_CTL_SEG = g ∧ (82 + g ≤ s.rf (ET_P_CTL 2) ET_P_CTL_MAXFRAME) ∧ decide (g ≤ 8192) = decide (g ≠ 8256)) ∧
    (tk 0x0707 (cmd [7, 0, 64]) base = true ∧ base.ix.ring = []) ∧
    (∀ o ∈ [0, 1], let r : DumpRec := { seq := 7, off := 0, len := 64, sent := 64, stream := true }
      let s : State := { base.setF ET_DS_CTL ET_DS_CTL_SEG 1024 with ix := { base.ix with ring := [r] } }
      s.ix.ring.find? (fun r => r.seq == 7 && !r.freed) = some r ∧ decide (o + 64 ≤ r.len) = decide (o = 0) ∧ s.rf ET_DS_CTL ET_DS_CTL_SEG ≠ 0) := by
  and_intros <;> decide +kernel

theorem witness_MissedPpsKeepsTheLoadArmed :
    (let s := (timed 0).setF TM_ATC_CTL TM_ATC_CTL_ARM 1
     s.flag TM_ATC_CTL TM_ATC_CTL_ARM = true ∧ s.tm.edge = none ∧ s.pending = [] ∧ s.running = true) ∧
    (let s : State := { base with cp := { base.cp with serving := false } }; s.cp.serving = false ∧ s.flag TM_ATC_CTL TM_ATC_CTL_ARM = false) := by decide +kernel

/-- Source `k` in a qualification state with LEFT, the core in a state with a selection. -/
def src (k q left core sel : Nat) (x : SrcSt) : State :=
  ((((base.enterQ k q left).setF TM_STAT TM_STAT_CORE core).setF TM_STAT TM_STAT_SEL sel).setF (TM_SRC_CTL k) TM_SRC_CTL_QUAL 16).setSource k x

theorem witness_SourcesQualifyAndSteerTime :
    (∀ q ∈ [qQualifying, qDisq], let s := src 2 q 0 coreFreeRun 7 src0; s.rf (TM_SRC_STAT 2) TM_SRC_STAT_LEFT = 0 ∧ s.qstate 2 = q ∧ s.core = coreFreeRun ∧ s.rf TM_STAT TM_STAT_SEL = 7) ∧
    (∀ j ∈ [0, 1, 3, 4, 5], (src 2 qQualifying 0 coreFreeRun 7 src0).qstate j = qOff) ∧
    (∀ q ∈ [qSoft, qWtr], (src 2 q 0 coreFreeRun 7 src0).qstate 2 = q ∧ (src 2 q 0 coreFreeRun 7 src0).rf (TM_SRC_STAT 2) TM_SRC_STAT_LEFT = 0) ∧
    (∀ t ∈ [0, 1], let s := (src 2 qQualified 0 coreLocked 2 src0).setF TM_HO_STAT TM_HO_STAT_TRAINED t
      s.qstate 2 ≠ qOff ∧ s.qstate 2 ≠ qAbsent ∧ s.rf TM_STAT TM_STAT_SEL = 2 ∧ s.core = coreLocked ∧ s.trained = decide (t = 1) ∧ (s.setF (TM_SRC_CTL 2) TM_SRC_CTL_PPS_EN 1).usesPps 2 = true) ∧
    (src 2 qAbsent 0 coreFreeRun 7 src0).qstate 2 ≠ qOff ∧
    (∀ q ∈ [qAbsent, qDisq], let s := src 2 q 0 coreFreeRun 7 src0; s.qstate 2 = q ∧ s.qstate 2 ≠ qOff ∧ (s.source6 2).present = false) ∧
    (let s := (src 2 qQualifying 9 coreFreeRun 7 src0).setF (TM_SRC_LIM 2) TM_SRC_LIM_HARD 5
     s.qstate 2 = qQualifying ∧ (s.source6 2).offs = [] ∧ mag (-500) ≤ 100 * s.rf (TM_SRC_LIM 2) TM_SRC_LIM_HARD ∧ s.tm.anyQual = false) ∧
    (∀ p ∈ [(coreLocked, 2), (coreSwitching, 2), (coreFreeRun, 7)], let s := { src 2 qQualified 0 p.1 p.2 src0 with time := { (timed 5).time with cycles := 9 } }
      let t := ((s.setF (TM_SRC_CTL 2) TM_SRC_CTL_PPS_EN 1).setF TM_ATC_CTL TM_ATC_CTL_ARM 1).setF TM_ATC_STAT TM_ATC_STAT_STATE 2
      t.usesPps 2 = true ∧ t.running = true ∧ t.tm.epoch2 = false ∧ t.tm.initial = false ∧ t.tm.delta = none ∧ t.tm.edge = none ∧ t.time.armedAt < t.time.cycles ∧ t.core = p.1) ∧
    (∀ v ∈ [0, 1], let s : State := { ((src 4 qQualified 0 coreLocked 4 src0).setF TM_PTP_CTL TM_PTP_CTL_ENA 1).setF TM_PTP_STAT TM_PTP_STAT_SET 1 with
        tm := { base.tm with dom := [(0, { ptpDom0 with done := decide (v = 1) })] } }
      s.qstate 4 ≠ qOff ∧ s.usesPps 4 = true ∧ s.virtualEdge 0 = decide (v = 1)) ∧
    (∀ c ∈ [0, 2 * 10 ^ 9], let s : State := { base with time := { base.time with cycles := c }, tm := { base.tm with gateAt := 7 } }
      s.boundaryPast 0 = true ∧ decide (s.tm.gateAt < s.time.cycles) = decide (c ≠ 0) ∧ ({ s with time := { s.time with cycles := 9 } } : State).boundaryPast 0 = false) ∧
    (∀ y ∈ [0, 501], let s := (src 2 qDisq 3 coreFreeRun 7 { src0 with offs := [y] }).setF (TM_SRC_LIM 2) TM_SRC_LIM_HARD 5
      (s.source6 2).whole = false ∧ s.qstate 2 ≠ qOff ∧ ((s.checks 2).hard || (s.checks 2).cls || (s.checks 2).lost) = decide (y = 501)) ∧
    (let s := src 2 qQualified 3 coreFreeRun 7 { src0 with present := true, whole := true, cur := [4], offs := List.replicate 15 0 }
     let t := (s.setF (TM_SRC_LIM 2) TM_SRC_LIM_HARD 5).setF (TM_SRC_LIM 2) TM_SRC_LIM_SOFT 2
     t.tm.cfgs = [] ∧ (t.source6 2).whole = true ∧ t.usesPps 2 = false ∧ t.flag (TM_SRC_STAT 2) TM_SRC_STAT_CLK_LOSS = false ∧ t.flag (TM_SRC_STAT 2) TM_SRC_STAT_PPS_LOSS = false ∧
       (∀ y ∈ [-501, 501, 300, 200], mag y < 2 ^ 31 ∧ decide (100 * t.rf (TM_SRC_LIM 2) TM_SRC_LIM_HARD < mag y) = decide (500 < mag y) ∧
         decide (100 * t.rf (TM_SRC_LIM 2) TM_SRC_LIM_SOFT < mag y) = decide (200 < mag y)) ∧ 15 ≤ (t.source6 2).offs.length ∧
       mag (slope680 (((0 : Int) :: (t.source6 2).offs).take 16) 15) ≤ 6800 * t.rf (TM_SRC_TIME 2) TM_SRC_TIME_DRIFT) ∧
    (∀ q ∈ [qQualifying, qDisq, qWtr], (src 2 q 3 coreFreeRun 7 src0).qstate 2 = q) ∧
    (let s := ((base.setF TM_STAT TM_STAT_CORE coreHoldover).setF TM_HO_CFG TM_HO_CFG_AGE 255).setF TM_HO_CFG TM_HO_CFG_SPEC 1
     s.core = coreHoldover ∧ s.tm.cfgs = [] ∧ s.hoPast (s.tm.hoT + 1) = false ∧ (∀ k ∈ List.range 6, s.qstate k = qOff)) ∧
    (∀ b ∈ [true, false], let s : State := { base.setF TM_STAT TM_STAT_CORE coreHoldover with tm := { base.tm with hoV := 9, hoOver := b } }; s.core = coreHoldover ∧ s.hoPast (s.tm.hoT + 1) = true ∧ s.tm.hoOver = b) ∧
    (let s := src 2 qQualified 0 coreSwitching 2 src0
     s.core = coreSwitching ∧ s.tm.initial = false ∧ s.rf TM_STAT TM_STAT_SEL < 6 ∧ s.qstate 2 = qQualified ∧ (s.source6 2).whole = false ∧ s.srcWant = some 2 ∧ ((s.checks 2).hard || (s.checks 2).cls || (s.checks 2).lost) = false ∧
       ({ s with tm := { s.tm with initial := true, calm := 10 } } : State).srcWant = some 2) ∧
    (∀ pps ∈ [0, 1], let s := ((src 2 qOff 0 coreSwitching 2 src0).enterQ 3 qQualified 0).setF (TM_SRC_CTL 3) TM_SRC_CTL_PPS_EN pps
      s.srcWant = some 3 ∧ s.usesPps 3 = decide (pps = 1)) ∧
    (let s : State := { base with tm := { base.tm with edge := some (3, 0), ckWait := 4, frames := 4 } }
     s.tm.edge = some (3, 0) ∧ s.running = false ∧ bit s.tm.ckWait 2 = true) ∧
    (∀ o ∈ [0, 3], let s : State := ((timed 0).setF (TM_FR_CTL 2) TM_FR_CTL_EN 1).setF (TM_FR_OFS 2) TM_FR_OFS_OFFSET o
      s.running = true ∧ s.flag (TM_FR_CTL 2) TM_FR_CTL_EN = true ∧ s.boundaryPast (s.frameLate 2) = decide (o = 0)) ∧
    (tblGet 0 base.tm.frameEnd 2 ≤ base.time.cycles ∧ ¬ tblGet 0 ({ base with tm := { base.tm with frameEnd := [(2, 9)] } } : State).tm.frameEnd 2 ≤ base.time.cycles) := by
  and_intros <;> decide +kernel

/-- Domain 0 of PTP number 9 over Ethernet on port 2, with its state, and a message held there. -/
def ptp (x : PtpDom) (b : List Byte) : State :=
  { ((base.setF TM_PTP_CTL TM_PTP_CTL_ENA 1).setF TM_PTP_CTL TM_PTP_CTL_PORTA 2).setF TM_PTP_CTL TM_PTP_CTL_DOMA 9 with
    et := [(2, { portReset with rx := [{ cls := 0, etype := 0x88F7, src := 5, body := b, len := 100 }] })], tm := { base.tm with dom := [(0, x)] } }

/-- A PTP message (IEEE 1588): messageType, flags, sequenceId 7 and the body; domain 9, source port identity 77. -/
def ptpMsg (kind flags : Nat) (body : List Byte) : List Byte :=
  be 1 kind ++ be 1 2 ++ be 2 44 ++ be 1 9 ++ be 1 0 ++ be 2 flags ++ be 8 0 ++ be 4 0 ++ be 10 77 ++ be 2 7 ++ be 1 0 ++ be 1 0 ++ body

theorem witness_PtpMessagesSteerTheClock :
    (∀ k ∈ [0, 8, 9, 11, 1], let b := ptpMsg k 0x0200 (be 44 0)
      let s := ptp { ptpDom0 with master := some 77 } b
      (s.port 2).rx.length = 1 ∧ ((s.port 2).rx.head?.any fun f => isPtp f && ptpBody f == b) = true ∧ ptpType b = k ∧ s.domOn 0 = true ∧ s.domPort 0 = 2 ∧ s.domUdp 0 = false ∧ s.domNum 0 = ptpDomNum b ∧
        (s.ptpDomain 0).master = some (ptpSource b) ∧ s.domOn 1 = false ∧ ptpTwoStep b = true ∧ ptpSeq b = 7) ∧
    (let x : PtpDom := { ptpDom0 with master := some 77, synced := true, syncSeq := 7 }; x.synced = true ∧ x.t1 = none ∧ x.syncSeq = ptpSeq (ptpMsg 8 0 (be 44 0))) ∧
    (∀ set' ∈ [0, 1], let x : PtpDom := { ptpDom0 with master := some 77, synced := true, reqSeq := 7, t1 := some 5, t3 := some 9 }
      let s := (ptp x (ptpMsg 9 0 (be 20 0))).setF TM_PTP_STAT TM_PTP_STAT_SET set'
      (s.ptpDomain 0).master = some 77 ∧ (s.ptpDomain 0).synced = true ∧ (s.ptpDomain 0).t1 = some 5 ∧ (s.ptpDomain 0).t3 = some 9 ∧ (s.ptpDomain 0).reqSeq = ptpSeq (ptpMsg 9 0 (be 20 0)) ∧
        s.flag TM_PTP_STAT TM_PTP_STAT_SET = decide (set' = 1) ∧ (s.setF TM_PTP_STAT TM_PTP_STAT_STEER 1).rf TM_PTP_STAT TM_PTP_STAT_STEER = 0 + 1) ∧
    (∀ z ∈ [0, 2 ^ 40], let g : Foreign := { key := 0, id := 77, cls := 0, last := 0, prev := none, every := 1 }
     let b := ptpMsg 11 0 (be 44 0)
     beAt b 61 2 < 255 ∧ ¬ beAt (ptpMsg 11 0 (be 27 0 ++ be 2 255 ++ be 15 0)) 61 2 < 255 ∧ decide (z ≤ g.last + 4 * announceEvery b) = decide (z = 0) ∧ ((ptp { ptpDom0 with foreign := [g] } (ptpMsg 11 0 (be 44 0))).ptpDomain 0).foreign = [g] ∧ g.id = ptpSource (ptpMsg 11 0 (be 44 0)) ∧ ((ptp ptpDom0 []).ptpDomain 0).foreign = [] ∧
       ((ptp ptpDom0 []).ptpDomain 0).master = none) ∧
    ((base.port 2).rx = [] ∧ base.rf TM_PTP_STAT TM_PTP_STAT_STEER = base.steerPick ∧ base.domOn 0 = false) ∧
    (∀ q ∈ [qQualified, qOff], let s := ((ptp { ptpDom0 with master := some 77 } []).enterQ 4 q 0); s.domOn 0 = true ∧ (s.ptpDomain 0).master = some 77 ∧ s.qstate 4 = q) ∧
    (let s := ptp { ptpDom0 with master := some 77 } []
     (s.ptpDomain 0).master.isSome = true ∧ s.flag (ET_P_STAT (s.domPort 0)) ET_P_STAT_LINK = false ∧ (s.port 2).txFill 0 + 94 ≤ txPart 0 ∧ (s.port 2).c0q.length < 64) ∧
    (let s := ((ptp { ptpDom0 with offs := -1000001 } []).setF TM_PTP_STAT TM_PTP_STAT_SET 1).setF TM_PTP_STAT TM_PTP_STAT_STEER 1
     s.flag TM_PTP_STAT TM_PTP_STAT_SET = true ∧ s.rf TM_PTP_STAT TM_PTP_STAT_STEER ≠ 0 ∧ 1000000 < mag (s.ptpDomain (s.rf TM_PTP_STAT TM_PTP_STAT_STEER - 1)).offs) := by
  and_intros <;> decide +kernel

/-- A Delay_Resp that carries the device's own port identity, which the model leaves open (IEEE 1588). -/
theorem witness_delay_resp_identity (d : Nat) :
    beAt (ptpMsg 9 0 (be 10 0 ++ be 10 (Config.portIdentity d))) 44 10 = Config.portIdentity d % 2 ^ 80 := by
  have l : (ptpMsg 9 0 (be 10 0)).length = 44 := by decide +kernel
  have e : ptpMsg 9 0 (be 10 0 ++ be 10 (Config.portIdentity d)) = ptpMsg 9 0 (be 10 0) ++ be 10 (Config.portIdentity d) := by simp [ptpMsg]
  have q : slice (ptpMsg 9 0 (be 10 0) ++ be 10 (Config.portIdentity d)) 44 10 = be 10 (Config.portIdentity d) := by
    rw [slice, ← l, List.drop_left' rfl, List.take_of_length_le (by rw [be_length]), be_length]
    simp
  rw [e, beAt, q, beVal, beVal_fold]
  simp

theorem witness_TimingCommandsTakeEffect :
    (∀ p ∈ [(6, 2, 1), (2, 1, 2), (2, 2, 1)], let c := cmd [w32 p.1, fput 0 TM_SRC_CTL_QUAL 16, 10000000, fput (fput 0 TM_SRC_LIM_HARD p.2.1) TM_SRC_LIM_SOFT p.2.2,
        fput (fput 0 TM_SRC_TIME_PERSIST 1) TM_SRC_TIME_DRIFT 1, fput 0 TM_SRC_PPS_PPS_LIM 1]
      tk 0x0801 c base = true ∧ c.payload.length = 6 ∧ c.f 0 2 0 = p.1 ∧ (p.1 < 6 → imagesBad c [(1, TM_SRC_CTL p.1)] = none) ∧ fget (c.w 2) TM_SRC_FREQ_FREQ = 10000000 ∧
        decide (fget (c.w 3) TM_SRC_LIM_SOFT < fget (c.w 3) TM_SRC_LIM_HARD) = decide (p.2.2 < p.2.1) ∧ (p.1 < 6 → p.2.2 < p.2.1 → imagesBad c [(3, TM_SRC_LIM p.1), (4, TM_SRC_TIME p.1), (5, TM_SRC_PPS p.1)] = none) ∧
        tblGet [] base.tm.cfgs p.1 = []) ∧
    (let s := src 2 qQualified 0 coreLocked 2 src0; s.rf TM_STAT TM_STAT_SEL = 2 ∧ s.core = coreLocked ∧ 10000000 ≠ s.rf (TM_SRC_FREQ 2) TM_SRC_FREQ_FREQ ∧ base.rf TM_STAT TM_STAT_SEL ≠ 2) ∧
    (∀ p ∈ [(6, 0), (5, 101), (5, 100)], let c := cmd [fput (fput 0 TM_CTL_MSEL p.1) TM_CTL_SLEW p.2]
      tk 0x0802 c base = true ∧ fget (c.w 0) TM_CTL_MSEL = p.1 ∧ fget (c.w 0) TM_CTL_SLEW = p.2) ∧
    (∀ k ∈ [coreHoldover, coreLocked], let c := cmd [fput 0 TM_HO_CFG_SPEC 1, fput 0 TM_LOCOSC_FREQ 10000000]
      let s := base.setF TM_STAT TM_STAT_CORE k
      tk 0x0803 c s = true ∧ imagesBad c [(0, TM_HO_CFG), (1, TM_LOCOSC)] = none ∧ s.core = k ∧ fget (c.w 1) TM_LOCOSC_FREQ ≠ s.rf TM_LOCOSC TM_LOCOSC_FREQ) ∧
    (let c := cmd [0x84, 0, 0, 0x80000000, 0, 0, 0, 0, 0, 0, 0, 1, 0]; let d := cmd [0x84, 0, 0, fput 0 TM_CK_CTL_FREQ 10000, 0, 0, 0, 0, 0, 0, 0, fput 0 TM_FR_CTL_WIDTH 1, 0]
     tk 0x0804 d base = true ∧ d.payload.length = 13 ∧ imagesBad d (outRegs (d.f 0 7 0)) = none ∧ (imagesBad c (outRegs (c.f 0 7 0))).isSome = true) ∧
    (∀ p ∈ [(0, 1), (0, 0), (2 ^ 31, 0), (2 ^ 30, 0)], let c := cmd [w32 p.1, 0, w32 p.2, 0, 0]
      let s := (src 4 qQualified 0 coreLocked 4 src0).setF TM_PTP_STAT TM_PTP_STAT_SET 1
      tk 0x0805 c s = true ∧ decide (c.q 1 % 8192 = 0) = decide (p.2 = 0) ∧ s.core = coreLocked ∧ s.usesPps (s.rf TM_STAT TM_STAT_SEL) = true ∧ s.running = false) ∧
    ((timed 0).running = true ∧ base.core ≠ coreLocked ∧ tk 0x0805 (cmd [0, 0, 0, 0, 0]) base = true) ∧
    (let c := cmd [fput 0 TM_PTP_CTL_ENA 1, 0, 0]
     tk 0x0807 c base = true ∧ domSettings (c.w 0) 0 0 ≠ domSettings (base.reg TM_PTP_CTL) 0 0 ∧ domSettings (c.w 0) 0 1 = domSettings (base.reg TM_PTP_CTL) (base.ptpDomain 1).asym 1 ∧
       (let s := src 4 qQualified 0 coreLocked 4 src0; s.rf TM_STAT TM_STAT_SEL = 4 + 0 ∧ s.core = coreLocked) ∧ base.rf TM_STAT TM_STAT_SEL ≠ 4) ∧
    (tk 0x0809 (cmd []) base = true ∧ fit 25 (cmd []) base = true ∧ tk 0x080A (cmd [2]) base = true ∧ fit 3 (cmd [2]) base = true ∧ tblGet [] base.tm.ts 2 = []) := by
  and_intros <;> decide +kernel

/-- DRAM READY, with requests in the queue of channel 0. -/
def dram (q : List DrReq) : State := { base.setF DR_STAT DR_STAT_STATE drReady with dr := { base.dr with q := [(0, q)] } }

/-- A request for 64 bytes of channel 0, of master 1. -/
def req (cls a : Nat) (write : Bool) : DrReq :=
  { master := 1, cls := cls, write := write, addr := a, data := if write then be 64 0 else [], len := 64, promoted := false, passed := 0 }

theorem witness_DramServesAndRefreshes :
    (base.drReady = false ∧ (dram []).drReady = true ∧ (dram []).drSize = 2 ^ 30 ∧ (dram []).drChan 0 = 0 ∧ 192 % 256 + 64 ≤ 256 ∧ (dram []).drSize < 2 ^ 30 - 63 + 64) ∧
    (drRoom ((dram []).drQ 0) 1 = true ∧ drRoom (List.replicate 28 (req 1 0 false)) 1 = false ∧ drRoom (List.replicate 4 (req 0 0 false)) 0 = false ∧ (req 1 0 true).behind (req 1 64 true) = true) ∧
    (let s := dram [req 1 0 false]
     s.dr.held = [] ∧ s.drQ 0 = [req 1 0 false] ∧ (req 1 0 false).write = false ∧ (req 1 0 false).master ≠ drPatrol ∧ (req 1 0 false).data = [] ∧ (req 1 0 false).done = 0 ∧ s.drChan (req 1 0 false).addr = 0 ∧ s.poisoned 0 64 = false ∧ tblGet false s.dr.poison 0 = false) ∧
    (let s : State := { dram [req 1 0 false] with dr := { (dram [req 1 0 false]).dr with poison := [(1, true)] } }
     s.poisoned 0 64 = true ∧ (codewords 0 64).filter (fun w => tblGet false s.dr.poison w || ((codewords 0 64).zip []).any fun e => e.1 == w && e.2 == 2) = [1]) ∧
    (((codewords 0 64).zip [0, 1, 2]).filter fun e => e.2 == 1).map (·.1) = [1] ∧
    ((dram [req 1 0 false, req 0 64 false]).drQ 0 = [req 1 0 false, req 0 64 false] ∧ (req 0 64 false).overlaps (req 1 0 false) = false) ∧
    (let s := dram [req 1 0 true, req 1 32 false]
     (req 1 0 true).done = 0 ∧ s.dr.poison = [] ∧ s.drQ 0 = [req 1 0 true, req 1 32 false] ∧ (req 1 0 true).addr < (req 1 32 false).addr + (req 1 32 false).len ∧
       (req 1 32 false).addr < (req 1 0 true).addr + (req 1 0 true).len) ∧
    ((dram [req 1 0 false, req 0 0 false, { req 1 0 false with promoted := true }]).drQ 0 = [req 1 0 false, req 0 0 false, { req 1 0 false with promoted := true }]) ∧
    (∀ p ∈ [7, 8], ∀ pd ∈ [false, true], let s : State := { dram [req 1 0 false] with dr := { (dram [req 1 0 false]).dr with post := [(0, p)], pd := [(0, pd)] } }
      s.drReady = true ∧ 0 < 2 ^ s.drM ∧ 0 < s.drRanks ∧ tblGet 0 s.dr.post (rankNo 0 0) = p ∧ tblGet false s.dr.pd (rankNo 0 0) = pd ∧ tblGet 0 s.dr.post (rankNo 0 (1 - 0)) = 0) ∧
    (∀ d ∈ [0, 32], let q : DrReq := { req 1 0 true with done := d }
      (dram [q]).drQ 0 = [q] ∧ decide (q.len ≤ q.done + q.burst) = decide (d = 32) ∧ (dram [q]).dr.held = [] ∧ (dram [q]).dr.poison = []) ∧
    (let s : State := { (dram []).setF DR_CFG DR_CFG_PD_IDLE 1 with dr := { (dram []).dr with post := [(0, 1)] } }
     s.drQ 0 = [] ∧ tblGet 0 s.dr.post (rankNo 0 0) ≠ 0 ∧ s.rf DR_CFG DR_CFG_PD_IDLE ≠ 0) ∧
    ((dram [req 1 0 false]).drRank 0 = 0 ∧ (dram [req 1 0 false]).drBankOf 0 = 0 ∧ ((dram [req 2 0 false]).drQ 0).all (fun q => decide (q.cls ≤ 1)) = false) ∧
    (((dram []).setF DR_MAINT DR_MAINT_SCRUB_H 1).rf DR_MAINT DR_MAINT_SCRUB_H ≠ 0 ∧ (dram []).poisoned ((dram []).dr.patrol * 8) 8 = false) ∧
    (base.rf DR_STAT DR_STAT_STATE = drOff ∧ (dram []).rf DR_STAT DR_STAT_STATE ≠ drOff ∧ (8 : Nat) ∉ [9, 10, 11]) := by
  and_intros <;> decide +kernel

/-- A device in life-cycle state 0 (BLANK). -/
def early (s : State) : State := { s with lc := { s.lc with state := 0 } }

/-- DR_BOARD_SET with its geometry, timing and refresh images. -/
def boardCmd (cfg tim refi : Nat) : Cmd :=
  cmd ([w32 cfg, fput (fput (fput (fput 0 DR_TIM_TRFC tim) DR_TIM_TRC 1) DR_TIM_RL 3) DR_TIM_WL 1, fput 0 DR_MAINT_REFI refi] ++ List.replicate 16 0)

theorem witness_MemoryCommandsTakeEffect :
    (tk 0x0901 (cmd []) base = true ∧ fit 83 (cmd []) base = true) ∧
    (∀ p ∈ [(0, 0, 50), (0, 1, 49), (0, 10, 1000)], let c := boardCmd p.1 p.2.1 p.2.2
      tk 0x0902 c (early base) = true ∧ c.payload.length = 19 ∧ fget (c.w 0) DR_CFG_NCH < 3 ∧ fget (c.w 1) DR_TIM_TRFC = p.2.1 ∧ fget (c.w 1) DR_TIM_RL = 3 ∧ fget (c.w 2) DR_MAINT_REFI = p.2.2) ∧
    (¬ fget ((boardCmd (2 ^ 32 - 1) 1 50).w 0) DR_CFG_NCH < 3) ∧
    (tk 0x0903 (cmd [1, 1]) (early (dram [])) = true ∧ (dram []).dr.sweep = none ∧ (dram []).rf IX_STAT IX_STAT_STATE = 0 ∧ (dram []).rf SF_UB_STAT SF_UB_STAT_STATE = 0 ∧ (dram []).cp.running.length < 8) ∧
    (∀ k ∈ List.range 64, ((dram []).slice k).hdr.ring = false) ∧
    (∀ n ∈ List.range 32, (dram []).rf (DM_CH_STAT n) DM_CH_STAT_STATE ≠ 1 ∧ (dram []).rf (DM_CH_STAT n) DM_CH_STAT_STATE ≠ 2) ∧
    (let s := (base.setF DR_STAT DR_STAT_STATE drFail).setF DR_STAT DR_STAT_FAIL_CH 1; s.drFailed = true ∧ s.rf DR_STAT DR_STAT_FAIL_CH ≠ 0 ∧ s.flag DR_STAT DR_STAT_RAIL_FAULT = false) ∧
    (tk 0x0904 (cmd []) base = true ∧ base.dr.storing = false ∧ ({ base with dr := { base.dr with storing := true } } : State).dr.storing = true ∧ base.drReady = false) ∧
    (∀ w ∈ [0x0A0A0100, 0x090A0100], let c := cmd [w32 w, 0]; tk 0x0905 c base = true ∧ decide (10 ≤ c.f 0 31 24) = decide (w = 0x0A0A0100) ∧ 10 ≤ c.f 0 23 16 ∧ 1 ≤ c.f 0 15 8) ∧
    (let s : State := { base with dr := { base.dr with sweep := some (1, false), storing := true }, cp := { base.cp with running := [⟨0x0903, cmd []⟩, ⟨0x0904, cmd []⟩] } }
     s.dr.sweep = some (1, false) ∧ s.runningOp 0x0903 = some ⟨0x0903, cmd []⟩ ∧ s.dr.storing = true ∧ s.runningOp 0x0904 = some ⟨0x0904, cmd []⟩) := by
  and_intros <;> decide +kernel

/-- A descriptor at 64 of 16 bytes from 0 to 128, all issued in one beat, with its CTL. -/
def dsc (ctl : Nat) (beats : List DmBeat) : DmDesc :=
  { addr := 64, src := 0, dst := 128, next := 256, count := 16, ctl := ctl, issued := 16, beats := beats, wbTries := 0, wbWait := false, dead := false }

def beat (tries : Nat) (wait keep : Bool) : DmBeat := { off := 0, len := 16, src := [], tries := tries, wait := wait, keep := keep }

/-- Channel 3 in a state, with what it holds; DRAM READY. -/
def dma (st : Nat) (c : DmChan) : State := { (dram []).setF (DM_CH_STAT 3) DM_CH_STAT_STATE st with dm := { base.dm with chans := [(3, c)] } }

theorem witness_FillWritesItsConstant :
    (∀ q ∈ [128, 2 ^ 63], let d : DmDesc := { dsc 1 [beat 0 false false] with dst := q }
      let s := dma dmRunning { dmChan0 with descs := [d] }
      (s.dmc 3).descs[0]? = some d ∧ d.op = 1 ∧ d.firstBeat = some (beat 0 false false) ∧ s.beatUndecoded d (beat 0 false false) = none ∧ (s.dmc 3).beatHeld 0 d (beat 0 false false) = false) := by
  decide +kernel

theorem witness_DmaChannelsRunChains :
    (∀ st ∈ [dmIdle, dmRunning, dmWaiting, dmHalted], let s := dma st dmChan0
      s.dmState 3 = st ∧ s.flag (DM_CH_STAT 3) DM_CH_STAT_FW_OWNED = false ∧ (s.dmc 3).halt = none) ∧
    ((base.setF (DM_CH_STAT 3) DM_CH_STAT_FW_OWNED 1).flag (DM_CH_STAT 3) DM_CH_STAT_FW_OWNED = true ∧ fget (fput 0 DM_CH_CTL_HOP_LIMIT 1) DM_CH_CTL_HOP_LIMIT ≠ 0 ∧
      fget (fput 0 DM_CH_CTL_HOP_LIMIT 1) DM_CH_CTL_ABORT = 0 ∧ fget (fput 0 DM_CH_CTL_HOP_LIMIT 1) DM_CH_CTL_KICK = 0 ∧ fget (fput 0 DM_CH_CTL_HOP_LIMIT 1) DM_CH_CTL_GO = 0) ∧
    ((8#32 &&& ~~~base.reg DM_INT_EN) = BitVec.ofNat 32 (2 ^ 3) ∧ ((base.setReg DM_INT_STAT 8#32).reg DM_INT_STAT).getLsbD 3 = true ∧ ((base.setReg DM_HALT_STAT 8#32).reg DM_HALT_STAT).getLsbD 3 = true ∧
      (8#32 &&& ~~~base.reg DM_HALT_EN) = BitVec.ofNat 32 (2 ^ 3) ∧ base.flag (msixCtl 3) msixMask = false) ∧
    (∀ a ∈ [0, 2 ^ 62], let s := dma dmRunning { dmChan0 with fetch := some (a, 0, false) }
      (s.dmc 3).fetch = some (a, 0, false) ∧ (s.dmc 3).descs = [] ∧ s.dmUndecoded a 32 false = decide (a ≠ 0) ∧ s.poisoned 0 32 = false) ∧
    (∀ p ∈ [(0x8100, 1), (0x0000, 2), (0x0003, 3)], let host := le 8 0 ++ le 8 128 ++ le 8 0 ++ le 4 16 ++ le 2 p.1 ++ le 2 0
      let s := dma dmRunning { dmChan0 with fetch := some (2 ^ 63, 0, false) }
      let d := dmParse (2 ^ 63) (slice host 0 32)
      s.dmUndecoded (2 ^ 63) 32 false = false ∧ (d.wb && bit d.ctl 15) = decide (p.2 = 1) ∧ (p.2 ≠ 1 → s.descBad d = decide (p.2 = 3)) ∧ d.count = 16) ∧
    (({ dram [] with dr := { (dram []).dr with poison := [(1, true)] } } : State).poisoned 0 32 = true) ∧
    (∀ op ∈ [0, 2, 0x82], let d := dsc op [beat 0 false false]
      let s : State := { dma dmRunning { dmChan0 with descs := [d] } with mem := [(143, 1)] }
      (s.dmc 3).beatHeld 0 d (beat 0 false false) = false ∧ (∀ v ∈ ([] : List Byte), v = 0) ∧
        (s.dmc 3).descs[0]? = some d ∧ d.firstBeat = some (beat 0 false false) ∧ s.beatUndecoded d (beat 0 false false) = none ∧ s.beatPoisoned d (beat 0 false false) = false ∧ d.op = op % 4 ∧
        d.dst + 0 < 2 ^ 63 ∧ d.cmpStop = decide (op = 0x82) ∧ firstDiff (s.memRead 0 16) (s.memRead 128 16) 0 = some 15 ∧ s.memRead 0 16 = s.memRead 64 16 ∧ s.flag (DM_CH_STAT 3) DM_CH_STAT_CMP_FAIL = false) ∧
    (let d := dsc 0 [beat 0 false false]
     let s : State := { dma dmRunning { dmChan0 with descs := [d] } with dr := { (dram []).dr with poison := [(1, true)] } }
     s.beatPoisoned d (beat 0 false false) = true) ∧
    (let d : DmDesc := dsc 0 [beat 0 false false]
     let e : DmDesc := { d with addr := 96, src := 128, dst := 256 }
     ({ dmChan0 with descs := [d, e] } : DmChan).beatHeld 1 e (beat 0 false false) = true) ∧
    (let h : DmHalt := { code := dmLastBeat, cur := 64, err := 128, remain := 16, fetch := false, overlap := false }
     let d : DmDesc := { dsc 0x104 [] with addr := 2 ^ 62 }
     let s := dma dmRunning { dmChan0 with descs := [d], halt := some h }
     (s.dmc 3).halt = some h ∧ h.code ≠ dmAborted ∧ d.finished = true ∧ d.wbWait = false ∧ d.wb = true ∧ s.dmUndecoded (d.addr + 29) 1 true = true) ∧
    (∀ p ∈ [(128, 0), (128, 1), (2 ^ 63, 1)], let d : DmDesc := { dsc 0 [beat 1 false false] with dst := p.1 }
      let s := dma dmRunning { dmChan0 with descs := [d], retry := 2 * p.2 }
      (s.dmc 3).descs = [d] ∧ d.beats = [beat 1 false false] ∧ s.beatUndecoded d (beat 1 false false) = none ∧ decide (1 < (s.dmc 3).retry) = decide (p.2 = 1) ∧ d.count ≤ 0 + 16) ∧
    (∀ r ∈ [0, 1], let s := dma dmRunning { dmChan0 with fetch := some (0, 0, false), retry := r }; s.dmUndecoded 0 32 false = false ∧ decide (0 < (s.dmc 3).retry) = decide (r = 1)) ∧
    (((dma dmRunning { dmChan0 with fetch := some (0, 0, true) }).dmc 3).fetch = some (0, 0, true) ∧ ((dma dmRunning { dmChan0 with descs := [dsc 0 [beat 0 true true]] }).dmc 3).descs = [dsc 0 [beat 0 true true]]) ∧
    (∀ p ∈ [(0x1C, 1), (0x104, 1), (0x04, 1), (0x04, 0)], let d := dsc p.1 []
      let s := dma dmRunning { dmChan0 with descs := [d], limit := p.2 }
      (s.dmc 3).descs = [d] ∧ (s.dmc 3).halt = none ∧ d.finished = true ∧ d.wbWait = false ∧ d.wb = decide (p.1 = 0x104) ∧ s.dmUndecoded (d.addr + 29) 1 true = false ∧ d.barrier = true ∧
        d.last = decide (p.1 = 0x1C) ∧ d.ring = false ∧ (s.dmc 3).limit = p.2) ∧
    (let h : DmHalt := { code := dmAborted, cur := 64, err := 128, remain := 16, fetch := false, overlap := false }
     let s := dma dmRunning { dmChan0 with descs := [dsc 0 [beat 0 true false]], halt := some h }
     (s.dmc 3).halt = some h ∧ (s.dmc 3).busy = false ∧ s.dm.aborts = [] ∧ ((dma dmRunning { dmChan0 with descs := [dsc 0 [beat 0 false false]] }).dmc 3).busy = true) ∧
    (∀ k ∈ [cmd [3, 0, 0], cmd [0x103, 0, 0]], tk 0x0910 k base = true ∧ k.f 0 4 0 = 3 ∧ k.payload.length = 3) ∧
    (∀ o ∈ [0x0911, 0x0912, 0x0913], tk o (cmd [3]) base = true ∧ fit 10 (cmd [3]) base = true) := by
  and_intros <;> decide +kernel

/-! ### Pairs, life cycle and firmware -/

/-- A paired unit in a role, with the state of its link; the link up or not; its pair's state. -/
def pairOf (role link up : Nat) (m : MlSt) : State :=
  { (((base.setF ML_CTL ML_CTL_PAIRED 1).setF ML_STAT ML_STAT_STATE role).setF ML_LINK_STAT ML_LINK_STAT_STATE link).setF ML_STAT ML_STAT_LINK_UP up with ml := m }

def ml0 : MlSt := State.reset.ml

/-- A control message of the link, from TYPE to RESULT (R84, R434). -/
def linkMsg (type msg arg result : Nat) : List Byte := be 1 type ++ be 1 msg ++ be 1 0 ++ be 1 arg ++ be 7 0 ++ be 1 result

/-- A DATA block that waits for its acknowledgement. -/
def sentBlk (q : Nat) : MlBlock := { seq := q, first := true, last := true, data := [1], msg := 0 }

theorem witness_MiltiaLinkDeliversInOrder :
    (∀ k ∈ [1, 2, 4, 5], let b := mlBlock k 0 7 9 [1]; b.length = 256 ∧ mbOk b = true ∧ mbType b = k ∧ mbOk (b.take 255 ++ [b.getD 255 0 ^^^ 1]) = false) ∧
    ((pairOf 2 5 1 ml0).paired = true ∧ (pairOf 2 5 1 ml0).linkUp = true ∧ (pairOf 2 5 0 ml0).linkUp = false ∧ base.paired = false ∧ ml0.nakSent = false ∧ ml0.sent = [] ∧ ml0.ladder = .idle ∧ (pairOf 2 5 1 ml0).on = true) ∧
    (∀ f ∈ [0, 1, 2, 3], let b := mlBlock 1 f 7 9 [1]
      mbSeq b = 7 ∧ bit (mbFlags b) 0 = decide (f % 2 = 1) ∧ bit (mbFlags b) 1 = decide (2 ≤ f) ∧ mbData b = [1] ∧ ({ ml0 with rxSeq := 7, rxBuf := some [] } : MlSt).rxSeq = 7 ∧ ml0.rxSeq ≠ 7) ∧
    (∀ r ∈ [1, 2], (pairOf r 5 1 { ml0 with ckpt := some base.takeCkpt }).standby = true) ∧ ((pairOf 3 5 1 ml0).standby = false ∧ ml0.ckpt = none) ∧
    (∀ p ∈ [(0, 9, 65535), (4, 9, 65535), (0, 0, 65535), (0, 10, 9), (4, 12, 9), (0, 12, 9)], let b := mlBlock 2 p.1 7 p.2.1 []
      mbAck b = p.2.1 ∧ bit (mbFlags b) 2 = decide (p.1 = 4) ∧
        ([(9, 1), (0, 1), (10, 1), (12, 3)].any fun q => q.1 = p.2.1) ∧ ({ ml0 with sent := [sentBlk p.2.2], txSeq := 0 } : MlSt).wait = [] ∧ ({ ml0 with sent := [sentBlk p.2.2] } : MlSt).held = []) ∧
    ((9 + 65536 - 9) % 65536 = 0 ∧ (10 + 65536 - 9) % 65536 = 1 ∧ (0 + 65536 - 65535) % 65536 = 1 ∧ (12 + 65536 - 9) % 65536 = 3) ∧
    (∀ l ∈ [1, 2, 3], (pairOf 2 l 0 ml0).linkLadder = true) ∧
    (∀ p ∈ [(1, 3), (2, 0), (2, 3), (3, 2)], let b := mlBlock 4 0 0 0 (linkMsg 0x4B p.1 p.2 0)
      b.length = 256 ∧ mbOk b = true ∧ mbType b = 4 ∧ beAt (mbData b) 0 1 = 0x4B ∧ beAt (mbData b) 1 1 = p.1 ∧ beAt (mbData b) 3 1 = p.2) ∧
    (∀ lock ∈ [7, 15], ∀ l ∈ [Ladder.dwell, .idle], let s := (pairOf 2 lkDwell 0 { ml0 with ladder := l, clean := 65536 }).setF ML_LINK_STAT ML_LINK_STAT_LOCK lock
      s.linkLocked = decide (lock = 15) ∧ s.ml.ladder = l ∧ s.linkUp = false ∧ 65536 ≤ s.ml.clean) ∧
    (∀ m ∈ [1, 2, 3], ∀ r ∈ [0, 1], let a : LinkAsk := { msg := m, arg := 1, tag := 0, attempt := 1 }
      let s := (pairOf 2 lkStep 0 { ml0 with ask := some a }).setF ML_CTL ML_CTL_TARGET_RUNG 1
      let d := mbData (mlBlock 4 0 0 0 (linkMsg 0x5A m 1 r))
      s.linkLadder = true ∧ beAt d 0 1 = 0x5A ∧ s.ml.ask = some a ∧ beAt d 1 1 = a.msg ∧ beAt d 2 1 = a.tag ∧ beAt d 11 1 = r ∧ s.linkRung < min (s.rf ML_CTL ML_CTL_TARGET_RUNG) (1 % 4) ∧
        (∀ n ∈ [1, 4], ({ s.ml with ask := some { a with attempt := n } } : MlSt).ask = some { a with attempt := n })) ∧
    (∀ l ∈ [Ladder.idle, .lock0, .hello, .propose, .commit, .switching, .clock, .lanes, .dwell], ({ ml0 with ladder := l } : MlSt).ladder = l) ∧
    (let s := pairOf 2 lkDown 0 ml0; s.paired = true ∧ s.linkUp = false ∧ s.link = lkDown ∧ s.ml.retry = false) ∧
    (∀ lock ∈ [7, 3], let s := (pairOf 2 lkL0Lock 0 { ml0 with fck := true, ladder := .lock0, tag := 0 }).setF ML_LINK_STAT ML_LINK_STAT_LOCK lock
      s.flag ML_CTL ML_CTL_PAIRED = true ∧ s.ml.fck = true ∧ 3 ∉ s.ml.los ∧ s.rfb ML_LINK_STAT ML_LINK_STAT_LOCK 0 = true ∧ s.rfb ML_LINK_STAT ML_LINK_STAT_LOCK 1 = true ∧
        s.rfb ML_LINK_STAT ML_LINK_STAT_LOCK 2 = decide (lock = 7) ∧ s.ml.ladder ∈ [.lock0, .lanes]) ∧
    (8 ≤ ({ ml0 with resends := 8 } : MlSt).resends ∧ ((pairOf 2 5 1 ml0).setF ML_HB_STAT ML_HB_STAT_PATH_UP 2).rf ML_HB_STAT ML_HB_STAT_PATH_UP % 4 ≠ 0 ∧ ml0.held = []) ∧
    (∀ g ∈ [0, 1], let s := (pairOf 2 lkStep 0 { ml0 with top := 3, tag := 0 }).setF ML_CTL ML_CTL_TARGET_RUNG g; s.link = lkStep ∧ decide (s.linkRung < s.linkGoal) = decide (g = 1)) ∧
    (∀ l ∈ [lkDwell, lkStep], let s := (pairOf 3 l 0 { ml0 with msgs := [(0, .relay [1])] }).setF ML_LINK_STAT ML_LINK_STAT_LOCK 15
      s.paired = true ∧ s.linkUp = false ∧ s.role = roleActive ∧ s.linkLocked = true ∧ s.ml.ladder = .idle ∧ s.linkRung = 0 ∧ ckptFormat s.activeFw.ckptVer s.activeFw.ckptMin 0 1 = none ∧ ckptFormat 3 1 4 2 = some 3) ∧
    ((pairOf 3 5 1 { ml0 with ckptFmt := some 1 }).ckptOn = true ∧ (pairOf 3 5 1 ml0).ckptOn = false ∧ (pairOf 3 5 1 ml0).integrating = false ∧
      ((pairOf 3 5 1 ml0).setF IX_CTL IX_CTL_RUN 1).integrating = true ∧ (pairOf 3 5 1 ml0).pw.compOn = true) := by
  and_intros <;> decide +kernel

/-- A paired unit in a role whose array time runs. -/
def clocked (role up : Nat) (m : MlSt) : State :=
  { wr (pairOf role 5 up m) [(TM_ATC_STAT, 0x80000000#32), (TM_STAT, fput 0 TM_STAT_CORE coreLocked)] with time := { base.time with atc := 200 } }

/-- The heartbeat word that a peer in a role sends with an epoch. -/
def peerWord (role epoch : Nat) : List Byte := (((pairOf role 5 1 { ml0 with hbTx := [(0, 5), (1, 5), (2, 5)] }).setF ML_CTL ML_CTL_UNIT 1).setReg ML_EPOCH (w32 epoch)).hbWord 0

/-- A ROLE_HANDOVER at array time 2^36, relayed by the peer or not. -/
def handover (relayed : Bool) : Cmd := { schedCmd [] with relayed := relayed }

theorem witness_PairRolesMoveByHeartbeatsAndCommands :
    (base.role = roleUnpaired ∧ (pairOf 3 5 1 ml0).role ≠ roleUnpaired ∧ (pairOf 3 5 1 ml0).rf ML_CTL ML_CTL_BEACON_PORTS = 0) ∧
    (let s := (pairOf 3 5 0 ml0).setF ML_CTL ML_CTL_BEACON_PORTS 4
     s.rfb ML_CTL ML_CTL_BEACON_PORTS 2 = true ∧ s.flag (ET_P_STAT 2) ET_P_STAT_LINK = false ∧ (s.port 2).txFill 0 + 64 ≤ txPart 0 ∧ s.linkUp = false ∧ (s.port 2).c0q.length < 64) ∧
    ((let s := (pairOf 3 5 1 ml0).setF ML_CTL ML_CTL_UNIT 1
      let u := pairOf 2 5 1 ml0
      u.rf ML_CTL ML_CTL_PAIR_ID = s.rf ML_CTL ML_CTL_PAIR_ID ∧ u.rf ML_CTL ML_CTL_UNIT ≠ s.rf ML_CTL ML_CTL_UNIT ∧ tblGet 0 u.ml.hbRx 0 ≠ tblGet 0 s.ml.hbTx 0 % 65536 + 1)) ∧
    (∀ r ∈ [3, 4], let w := peerWord r 7
      (∀ p ∈ [0, 1, 2], (pairOf 3 5 1 ml0).hbValid p w = true) ∧ decide (beAt w 2 1 = 1) = decide (r = 3) ∧ beAt w 4 4 = 7 ∧ (mlBlock 3 0 0 0 w).length = 256 ∧ mbOk (mlBlock 3 0 0 0 w) = true ∧
        mbType (mlBlock 3 0 0 0 w) = 3 ∧ mbData (mlBlock 3 0 0 0 w) = w ∧ (0xD5#8 :: w.drop 2).length = 15 ∧ be 2 0x4842 ++ (0xD5#8 :: w.drop 2).drop 1 = w) ∧
    (let f : RxFrame := { cls := 0, etype := 0x88B8, src := 5, len := 64, body := peerWord 3 7 ++ be 26 0 }
     let s := (pairOf 2 5 1 ml0).setPort 2 { portReset with rx := [f] }
     s.rxHead 2 (fun f => f.etype == 0x88B8) = some f ∧ (s.rxTake 2 f).paired = true ∧ (s.rxTake 2 f).hbValid 2 (f.body.take 16) = true) ∧
    (∀ e ∈ [6, 8], let u := ((pairOf 3 5 1 { ml0 with heard := true }).setReg ML_EPOCH (w32 e))
      u.ml.pairing = false ∧ u.role = roleActive ∧ u.ml.heard = true ∧ (decide ((u.reg ML_EPOCH).toNat < 7) || (decide (7 = (u.reg ML_EPOCH).toNat) && u.flag ML_CTL ML_CTL_UNIT)) = decide (e = 6) ∧ u.rf ML_HB_STAT ML_HB_STAT_PATH_UP = 0) ∧
    (∀ p ∈ [0, 1, 2], ((pairOf 3 5 1 ml0).setFB ML_HB_STAT ML_HB_STAT_PATH_UP (2 - p) true).rfb ML_HB_STAT ML_HB_STAT_PATH_UP (2 - p) = true ∧ (pairOf 3 5 1 ml0).rfb ML_HB_STAT ML_HB_STAT_PATH_UP (2 - p) = false) ∧
    (∀ r ∈ [1, 2], let s := clocked r 0 { ml0 with step9 := 1 }
      s.standby = true ∧ s.running = true ∧ s.flag ML_CTL ML_CTL_UNIT = false ∧ s.flag ML_CTL ML_CTL_LEASE = false ∧ s.ml.peerFenced = false ∧ s.rf ML_HB_STAT ML_HB_STAT_PATH_UP = 0 ∧ (pairOf r 5 0 ml0).running = false ∧
        (s.setF ML_CTL ML_CTL_UNIT 1).flag ML_CTL ML_CTL_UNIT = true ∧ s.time.cycles + 1 < s.ml.step9 + 2000000 ∧ (s.setF ML_CTL ML_CTL_LEASE 1).leaseHolds = false) ∧
    (∀ m ∈ [ml0, { ml0 with silent := true }], let s := (clocked 2 0 { m with lease := some (100, 10000000) }).setF ML_CTL ML_CTL_LEASE 1
      s.paired = true ∧ s.flag ML_CTL ML_CTL_LEASE = true ∧ s.flag ML_STAT ML_STAT_LEASE_HELD = false ∧ s.leaseHolds = true ∧ s.standby = true ∧ s.ml.silent = m.silent ∧ s.ml.peerFenced = false ∧ s.flag ML_CTL ML_CTL_UNIT = false) ∧
    (∀ l ∈ [0, 1], let s := ((clocked 3 0 ml0).setF ML_STAT ML_STAT_LEASE_HELD 1).setF ML_CTL ML_CTL_LEASE l
      s.flag ML_STAT ML_STAT_LEASE_HELD = true ∧ s.leaseHolds = false ∧ s.flag ML_CTL ML_CTL_LEASE = decide (l = 1) ∧ s.role = roleActive) ∧
    (∀ w ∈ [true, false], let s := pairOf 4 5 1 { ml0 with fenceWarm := w, drainOld := true }; s.role = roleFenced ∧ s.ml.fenceWarm = w ∧ s.linkUp = true ∧ s.pw.compOn = true ∧ s.ml.drainOld = true) ∧
    ((pairOf 0 0 0 { ml0 with pairing := true }).ml.pairing = true) ∧
    (∀ k ∈ [none, some base.takeCkpt], let s := pairOf 3 5 1 { ml0 with takeover := true, takeBoundary := true, ckpt := k }
      s.ml.takeover = true ∧ s.role = roleActive ∧ s.thermal = false ∧ s.ml.takeBoundary = true ∧ s.ml.ckpt = k) ∧
    (∀ i ∈ [0, 127], let s := pairOf 1 5 1 { ml0 with nextItem := i }; s.role = roleLampblack ∧ s.ml.item = none ∧ s.thermal = false ∧ s.dieHot (dieOfItem i) (deg 100) = false) ∧
    (let s := (pairOf 1 5 1 { ml0 with nextItem := 3 }).setSensor 0 { sensor0 with seen := true, num := deg 120 }
     s.role = roleLampblack ∧ s.ml.item = none ∧ (dieOfItem 3) = 0 ∧ s.dieHot 0 (deg 100) = true) ∧
    (∀ i ∈ [0, 127], let s := pairOf 1 5 1 { ml0 with item := some i, report := List.replicate 10 7 }
      s.ml.item = some i ∧ s.role = roleLampblack ∧ s.healthReport ≠ s.ml.report ∧ ({ s with ml := { s.ml with report := s.healthReport } } : State).ml.report = s.healthReport) := by
  and_intros <;> decide +kernel

theorem witness_PairCommandsTakeEffect :
    (tk 0x0A01 (cmd []) base = true ∧ fit 15 (cmd []) base = true ∧ tk 0x0A08 (cmd []) base = true) ∧
    (∀ q ∈ [(1, 0), (1, 1), (2, 0), (3, 0), (4, 1), (0, 0), (0, 1)], let s := pairOf q.1 5 1 ml0
      let c := cmd [fput 0 ML_CTL_PAIRED q.2, 0, 0]
      tk 0x0A02 c s = true ∧ c.payload.length = 3 ∧ badImage ML_CTL (c.w 0) = false ∧ fit 0 c s = true ∧ fget (c.w 0) ML_CTL_PAIRED = q.2 ∧ s.role = q.1) ∧
    ((∀ c ∈ [cmd [0, 100, 0, 10000000], cmd [0, 100, 0, 150], cmd [0, 100, 0, 100], cmd [0, 100, 1, 0]], let s := (clocked 3 1 ml0).setF ML_CTL ML_CTL_LEASE 1
      tk 0x0A03 c s = true ∧ c.payload.length = 4 ∧ s.flag ML_CTL ML_CTL_LEASE = true ∧ s.running = true ∧ s.core ≠ coreFreeRun ∧ c.q 0 = 100) ∧ (cmd [0, 100, 0, 150]).q 2 ≤ (clocked 3 1 ml0).now ∧
        (cmd [0, 100, 0, 100]).q 2 ≤ 100 ∧ (clocked 3 1 ml0).now < (cmd [0, 100, 0, 10000000]).q 2 ∧ (pairOf 3 5 1 ml0).flag ML_CTL ML_CTL_LEASE = false) ∧
    (∀ r ∈ [1, 2, 3], ∀ w ∈ [none, some true], let s := pairOf r 5 1 { ml0 with warming := w }
      tk 0x0A04 (cmd [1]) s = true ∧ s.standby = decide (r ≠ 3) ∧ s.linkUp = true ∧ s.ml.warming = w ∧ s.cp.running.length < 8) ∧
    (∀ rel ∈ [true, false], let s := (clocked (if rel then 2 else 3) 1 ml0).setF ML_HB_STAT ML_HB_STAT_PEER_STATE 3
      let c := handover rel
      let d := s.dequeue 0x0A05 c
      tk 0x0A05 c s = true ∧ c.payload.length = 2 ∧ c.transport ≠ .script ∧ s.running = true ∧ s.now + s.lead 0x0A05 ≤ spectrumAt c.time ∧ s.events.length < 256 ∧ s.handoverOk c = true ∧ c.relayed = rel ∧
        d.schedRefusal (d.projected (spectrumAt c.time)) s.events 0x0A05 (spectrumAt c.time) c = none ∧ (s.setF ML_STAT ML_STAT_LINK_UP 0).handoverOk c = false) ∧
    (∀ r ∈ [2, 3], tk 0x0A06 (cmd [1]) (pairOf r 5 1 ml0) = true ∧ (cmd [1]).payload.length = 1 ∧ fit 0 (cmd [1]) (pairOf r 5 1 ml0) = true) ∧
    (∀ up ∈ [0, 1], let c := cmd (packWordsBE sessionPkt); let s := pairOf 2 5 up ml0
      tk 0x0A07 c s = true ∧ relayBad c = none ∧ s.linkUp = decide (up = 1) ∧ s.cp.running.length < 8) ∧
    (∀ l ∈ [lkStep, lkRunning], let s := pairOf 2 l 1 ml0
      tk 0x0A09 (cmd [0]) s = true ∧ s.paired = true ∧ s.linkLadder = decide (l = lkStep) ∧ s.events = [] ∧ base.paired = false ∧ ({ s with events := [ev 0x0A05 false []] } : State).events ≠ []) ∧
    (∀ r ∈ [1, 2, 3], ∀ b ∈ [true, false], let s : State := { pairOf r 5 1 { ml0 with warming := some b } with cp := { base.cp with running := [⟨0x0A04, cmd [1]⟩] } }
      s.runningOp 0x0A04 = some ⟨0x0A04, cmd [1]⟩ ∧ s.ml.warming = some b ∧ s.thermal = false ∧ s.linkUp = true ∧ s.role = r) ∧
    (let p := packet 0 0x0103 0 7 1 []
     let q : QEntry := ⟨0x0A07, cmd (packWordsBE p)⟩
     let s : State := { pairOf 2 5 1 { ml0 with replies := [p] } with cp := { base.cp with running := [q] } }
     s.ml.replies = [p] ∧ s.cp.running = [q] ∧ (q.cmd.w 2).toNat = beAt p 8 4 ∧ (q.cmd.w 3).toNat = beAt p 12 4) := by
  and_intros <;> decide +kernel

/-- A device in life-cycle state `n`. -/
def inLife (n : Nat) : State := { base with lc := { base.lc with state := n } }

/-- The same with firmware slot `n` in trial. -/
def inTrialOf (s : State) : State := s.setF CP_FW_STAT CP_FW_STAT_TRIAL 1

/-- The words W0 to W48 of an authorisation (R504), its signature of no bytes, and what follows. -/
def authOf (op target : Nat) (nonce ident arg tail : List Word) : Cmd :=
  cmd ([0x4C434155, w32 (0x01000000 + op % 256 * 65536 + target * 256)] ++ nonce ++ ident ++ arg ++ List.replicate 6 0 ++ [0] ++ tail)

def zeros16 : List Word := List.replicate 16 0

theorem witness_LifeCycleFirmwareAndAttestation :
    (∀ a ∈ [0, 1], let s := (inTrialOf base).setF CP_FW_STAT CP_FW_STAT_AUTO_COMMIT a
      s.on = true ∧ s.flag CP_FW_STAT CP_FW_STAT_TRIAL = true ∧ s.flag CP_FW_STAT CP_FW_STAT_AUTO_COMMIT = decide (a = 1) ∧ s.cp.serving = true) ∧
    ((∀ n ∈ [0, 2, 3, 4, 5], ∀ l ∈ [0, 1, 3], (decide (n ≤ 2) || (decide (n ≤ 4) && (decide ((inLife l).lc.state = lcBlank) || decide ((inLife l).lc.state = lcMaintenance)))) = decide (n ≤ 2 ∨ n ≤ 4 ∧ l ≠ 1))) ∧
    (∀ o ∈ [0x0C04, 0x0C05, 0x0C06], let s : State := { base with lc := { base.lc with trans := some (4, []) }, cp := { base.cp with running := [⟨o, cmd []⟩] } }
      s.lc.trans = some (4, []) ∧ s.cp.running = [⟨o, cmd []⟩] ∧ o ∈ [0x0C04, 0x0C05, 0x0C06]) ∧
    (let c := cmd [1, 0, 5]
     (∀ s ∈ [base, inTrialOf base, { base with events := [ev 0x0C11 false [0]] }], tk 0x0C10 c s = true ∧ s.cp.recovery = false ∧ s.rf CP_FW_STAT CP_FW_STAT_ACTIVE_SLOT = 0) ∧ c.f 0 0 0 = 1 ∧
       (c.w 1).toNat + 4 * (c.payload.length - 2) ≤ 2 ^ 25 ∧ fit 0 c base = true ∧ c.f 0 31 31 = 0 ∧ (cmd [0x80000001, 0, 5]).f 0 31 31 = 1 ∧ (cmd [0, 0, 5]).f 0 0 0 = 0 ∧
       fwFailing base.lc.svnMin (List.replicate 64 0) = some 1) ∧
    (∀ s ∈ [base, inTrialOf base], tk 0x0C12 (cmd [1]) s = true ∧ (cmd [1]).payload.length = 1 ∧ fit 0 (cmd [1]) s = true) ∧
    (∀ p ∈ [(0x0C13, 58), (0x0C01, 4), (0x0C02, 898), (0x0C03, 8)], tk p.1 (cmd []) base = true ∧ fit p.2 (cmd []) base = true) ∧
    (tk 0x0C07 (cmd (List.replicate 8 0)) base = true ∧ (cmd (List.replicate 8 0)).payload.length = 8 ∧ fit 689 (cmd (List.replicate 8 0)) base = true ∧ fit 689 { cmd [] with transport := .udp 2 0 0 0 } base = false) ∧
    (let c := cmd (List.replicate (49 + 449) 0)
     tk 0x0C04 c (inLife 0) = true ∧ c.payload.length = 49 + ((c.w 48).toNat + 3) / 4 + 449 ∧ c.w 0 ≠ 0x4C434155 ∧ tk 0x0C06 c (inLife 3) = true) ∧
    (∀ p ∈ [(0, 3, 0), (0, 4, 0), (0, 4, 5), (2, 0, 0), (2, 3, 0), (2, 4, 0)], let c := cmd ([0, w32 (p.2.1 * 256)] ++ List.replicate 46 0 ++ w32 p.2.2 :: List.replicate ((p.2.2 + 3) / 4) 0)
      tk 0x0C05 c (inLife p.1) = true ∧ c.f 1 15 8 = p.2.1 ∧ c.payload.length = 49 + ((c.w 48).toNat + 3) / 4 ∧ (c.w 48).toNat = p.2.2 ∧ c.w 0 ≠ 0x4C434155) ∧
    ((inLife 0).role ≠ roleActive ∧ (inLife 0).events = [] ∧ (inLife 0).lc.trans = none ∧ (inLife 0).lc.transReset = false ∧ (inLife 0).cp.running = [] ∧
      (inLife 0).flag CP_FW_STAT CP_FW_STAT_TRIAL = false ∧ ((inLife 0).setF ML_STAT ML_STAT_STATE 3).role = roleActive) := by
  and_intros <;> decide +kernel

theorem run_at {n i : Nat} {p a l b : List Word} (hp : p = a ++ (l ++ b)) (ha : a.length = i) (hl : l.length = n) :
    (List.range n).map (fun k => p.getD (i + k) 0) = l := by
  subst hp ha hl
  apply List.ext_getElem (by simp)
  intro i _ h2
  simp [List.getElem?_append_right, List.getElem?_append_left h2, h2]

theorem bytesToWordsBE_length (bs : List Byte) (n : Nat) : (bytesToWordsBE bs n).length = n := by
  induction n generalizing bs with
  | zero => rfl
  | succ n ih => rw [bytesToWordsBE, List.length_cons, ih]

/-- The authorisations that the signature checks of R504 accept: where the key verifies one, every condition on its command holds together. -/
theorem witness_authorised (op target : Nat) (nonce ident arg : List Word) (owner key : List Byte)
    (hn : nonce.length = 8) (hi : ident.length = 16) (ha : arg.length = 16)
    (hf : Config.falconVerify key (wordsBE ((authOf op target nonce ident arg (bytesToWordsBE owner 449)).payload.take 48)) [] = true) :
    let c := authOf op target nonce ident arg (bytesToWordsBE owner 449)
    c.w 0 = 0x4C434155 ∧ c.w 1 = w32 (0x01000000 + op % 256 * 65536 + target * 256) ∧ (List.range 8).map (fun k => c.w (2 + k)) = nonce ∧
    (List.range 16).map (fun k => c.w (10 + k)) = ident ∧ (List.range 16).map (fun k => c.w (26 + k)) = arg ∧ (List.range 6).map (fun k => c.w (42 + k)) = List.replicate 6 0 ∧
    c.w 48 = 0 ∧ c.payload.length = 49 + 0 + 449 ∧ Config.falconVerify key (wordsBE (c.payload.take 48)) ((wordsBE (c.payload.drop 49)).take 0) = true := by
  let w : List Word := [0x4C434155, w32 (0x01000000 + op % 256 * 65536 + target * 256)]
  let z : List Word := 0 :: bytesToWordsBE owner 449
  have assoc : ∀ a b c d e t : List Word, ∀ x, a ++ b ++ c ++ d ++ e ++ [x] ++ t = a ++ (b ++ (c ++ (d ++ (e ++ x :: t)))) := by simp
  have q0 : (authOf op target nonce ident arg (bytesToWordsBE owner 449)).payload = w ++ (nonce ++ (ident ++ (arg ++ (List.replicate 6 0 ++ z)))) := assoc _ _ _ _ _ _ _
  have q1 := q0.trans (List.append_assoc w nonce _).symm
  have q2 := q1.trans (List.append_assoc (w ++ nonce) ident _).symm
  have q3 := q2.trans (List.append_assoc (w ++ nonce ++ ident) arg _).symm
  have q4 := q3.trans (List.append_assoc (w ++ nonce ++ ident ++ arg) (List.replicate 6 0) _).symm
  have h1 : (w ++ nonce).length = 10 := by rw [List.length_append, hn]; rfl
  have h2 : (w ++ nonce ++ ident).length = 26 := by rw [List.length_append, h1, hi]
  have h3 : (w ++ nonce ++ ident ++ arg).length = 42 := by rw [List.length_append, h2, ha]
  have h4 : (w ++ nonce ++ ident ++ arg ++ List.replicate 6 0).length = 48 := by rw [List.length_append, h3]; rfl
  refine ⟨rfl, rfl, run_at q0 rfl hn, run_at q1 h1 hi, run_at q2 h2 ha, run_at q3 h3 rfl, (List.cons.inj (run_at (n := 1) (l := [0]) q4 h4 rfl)).1, ?_, hf⟩
  rw [q4, List.length_append, h4, List.length_cons, bytesToWordsBE_length]

/-- The header of a firmware image of 128 bytes with no signature (R493). -/
def fwHead : List Byte := le 4 0x4E494657 ++ le 2 1 ++ le 10 0 ++ le 4 128 ++ le 8 0 ++ le 36 0

/-- An image whose key digest and signature verify passes R494. -/
theorem witness_fwImage (h1 : Config.shake256 (Config.presentedKey fwHead) = Config.vendorDigest 0)
    (h2 : Config.falconVerify (Config.presentedKey fwHead) (fwHead.take 128) [] = true) : fwFailing 0 fwHead = none := by
  have a : fwHdrOk fwHead = true := by decide +kernel
  have b : leAt fwHead 22 1 = 0 := by decide +kernel
  have c : fwLen fwHead = 128 := by decide +kernel
  have d : slice fwHead 128 (fwSiglen fwHead) = [] := by decide +kernel
  simp only [fwFailing, a, b, c, d, h1, h2, Bool.not_true, bne_self_eq_false, Bool.false_eq_true, if_false, Nat.not_lt_zero]

end Sys2Proof.Machine.Tests
end

-- ==== Every operation keeps the invariant ====
section

namespace Sys2Proof.Machine

-- One thread: with a thread for each of so many lemmas Lean runs out of the stack memory that the check leaves it.
set_option Elab.async false

/-! Every function of the model that answers a state keeps `State.Wf`, in the order of the model. For `State.foo` the lemma is `State.Wf.foo`, so
that a chain of operations is a chain of lemmas; for a command's meaning `execFoo` it is `execFoo_wf`. Two facts carry them: the registers that
identify the device lie at the lowest offsets, so a write of any other register keeps them (`notId`, `notIdAt`), and the fields that the invariant
does not speak of may take any value (`State.Wf.others`). -/

variable {s t : State}

/-! ### Shared rules -/

/-- An outcome is a next state that meets the invariant. -/
def NextWf (o : Host.Outcome State Fault Refusal) : Prop := ∃ t, o = .next t ∧ t.Wf

/-- Whatever the other fields are given. -/
theorem State.Wf.others (h : s.Wf) {fresh : Tbl Word} {time : TimeSt} {cp : CpSt} {events : List Event} {et : Tbl PortSt} {sl : SlSt} {md : MdSt}
    {ch : ChSt} {ix : IxSt} {wd : WdSt} {sf : SfSt} {ct : CtSt} {dr : DrSt} {tm : TmSt} {dm : DmSt} {ml : MlSt} {pw : PwSt} {lc : LcSt}
    {out : List Out} {free : Nat} {pending : List Instr} :
    (State.mk s.regs s.shadow s.staged fresh time cp events et s.mem sl md ch ix wd sf ct dr tm dm ml pw lc s.log out free pending).Wf :=
      h.congr rfl rfl rfl rfl rfl

/-- A register that lies above the identification registers is none of them. -/
theorem notId {o : Nat} (h : GLB_CAP < o := by decide) : ¬ idReg o := not_idReg h

/-- A state on the way to the goal, named once. -/
theorem State.Wf.andThen {p : Prop} (h : s.Wf) (k : s.Wf → p) : p := k h

theorem notIdAt {b k : Nat} (h : GLB_CAP < b := by decide) : ¬ idReg (b + k) := not_idReg (Nat.lt_add_right k h)

theorem notIdAt2 {b k j : Nat} (h : GLB_CAP < b := by decide) : ¬ idReg (b + k + j) := not_idReg (Nat.lt_add_right j (Nat.lt_add_right k h))

theorem notIdIf {c : Prop} [Decidable c] {a b : Nat} (ha : ¬ idReg a) (hb : ¬ idReg b) : ¬ idReg (if c then a else b) := by
  split
  · exact ha
  · exact hb

theorem notIds {l : List Nat} (h : ∀ o ∈ l, GLB_CAP < o) : ∀ o ∈ l, ¬ idReg o := fun o ho => not_idReg (h o ho)

theorem not_idReg_rxDrop (n c : Nat) : ¬ idReg (rxDrop n c) := by
  unfold rxDrop
  split <;> exact notIdAt

theorem whenOn_next (h : s.Wf) {f : State → State} (hf : ∀ u : State, u.Wf → (f u).Wf) : NextWf (whenOn s f) := whenOn_wf h hf

theorem nextOf_wf (_ : s.Wf) {o : Host.Outcome State Fault Refusal} (ho : NextWf o) : (nextOf s o).Wf := by
  obtain ⟨t, rfl, ht⟩ := ho
  exact ht

theorem CmdRes.Wf.ite {c : Prop} [Decidable c] {a b : CmdRes} (ha : a.Wf) (hb : b.Wf) : (if c then a else b).Wf := by
  split
  · exact ha
  · exact hb

/-- A state, where there is one, meets the invariant. -/
def OptWf (o : Option State) : Prop := ∀ t, o = some t → t.Wf

theorem OptWf.none : OptWf none := fun _ ht => nomatch ht

theorem OptWf.some (h : s.Wf) : OptWf (some s) := fun _ ht => Option.some.inj ht ▸ h

theorem OptWf.ite {c : Prop} [Decidable c] {a b : Option State} (ha : OptWf a) (hb : OptWf b) : OptWf (if c then a else b) := by
  split
  · exact ha
  · exact hb

theorem OptWf.or {a b : Option State} (ha : OptWf a) (hb : OptWf b) : OptWf (a.or b) := by
  cases a with
  | none => exact hb
  | some u => exact ha

theorem OptWf.map {β : Type} {o : Option β} {f : β → State} (hf : ∀ b, o = .some b → (f b).Wf) : OptWf (o.map f) := fun _ ht =>
  let ⟨b, hb, e⟩ := Option.map_eq_some_iff.1 ht
  e ▸ hf b hb

theorem OptWf.getD {o : Option State} (ho : OptWf o) (h : s.Wf) : (o.getD s).Wf := by
  cases o with
  | none => exact h
  | some u => exact ho u rfl

/-! ### Reset -/

/-- The power-on values meet the invariant. -/
theorem reset_wf : State.reset.Wf := by
  constructor <;> decide +kernel

theorem State.Wf.nonvolatile (h : s.Wf) (p : Power) : (s.nonvolatile p).Wf :=
  have hr : (State.reset.setReg PW_LOG_SEQ (tblGet 0 s.regs PW_LOG_SEQ)).Wf := reset_wf.setReg notId _
  ⟨hr.regs, hr.shadow, hr.staged, hr.mem, h.log, hr.id, hr.rev, hr.slices, hr.tiles, hr.ports⟩

/-! ### State operations -/

theorem State.Wf.setLane (h : s.Wf) (o j : Nat) (l : LaneSt) : (s.setLane o j l).Wf := h.others

theorem State.Wf.setSlice (h : s.Wf) (k : Nat) (m : MdSlice) : (s.setSlice k m).Wf := h.others

theorem State.Wf.stageHalf (h : s.Wf) (r : Requester) (off : Nat) (v : Word) : (s.stageHalf r off v).Wf := h.setStaged _ _

theorem State.Wf.unstage (h : s.Wf) (r : Requester) (off : Nat) : (s.unstage r off).Wf := h.setStaged _ _

theorem State.Wf.nextSync (h : s.Wf) : s.nextSync.Wf := h.setReg64 notId notId _

/-! ### DRAM contents -/

theorem State.Wf.drBad (h : s.Wf) (src a : Nat) : (s.drBad src a).Wf := h.violation _ _ _ _

theorem State.Wf.drUe (h : s.Wf) (a : Nat) : (s.drUe a).Wf := (((h.bump notIdAt).setReg64 notIdAt notIdAt2 _).logEvent _ _ _).seen notId _ _

theorem State.Wf.drUes (h : s.Wf) (a n : Nat) : (s.drUes a n).Wf := h.foldl fun _ _ _ hu => hu.drUe _

theorem State.Wf.drWrite (h : s.Wf) (a : Nat) (bs : List Byte) : (s.drWrite a bs).Wf := (h.memWrite _ _).others.foldl fun _ _ _ hu => hu.drUe _

theorem State.Wf.drStore (h : s.Wf) (a : Nat) (bs : List Byte) : (s.drStore a bs).Wf := .ite (h.drWrite _ _) (h.drBad _ _)

/-! ### Madder instructions -/

theorem State.Wf.markStored (h : s.Wf) (p : Nat) (ts old : List Nat) (f : Smp → Smp) : (s.markStored p ts old f).Wf := h.others

theorem State.Wf.zeroGroup (h : s.Wf) (p g : Nat) : (s.zeroGroup p g).Wf := h.others

theorem State.Wf.eccSeen (h : s.Wf) (k : Nat) (e : Ecc) : (s.eccSeen k e).Wf :=
  (h.foldl fun _ _ _ hu => hu.zeroGroup _ _).andThen fun h1 => .ite h1 (((h1.setSlice _ _).bumpBy notIdAt _ _).setSeen notIdAt _ _)

theorem State.Wf.ringBlock (h : s.Wf) (k path st flags : Nat) (last : Bool) (data : List Byte) : (s.ringBlock k path st flags last data).Wf :=
  ((h.drStore _ _).setSlice _ _).setReg notIdAt _

theorem State.Wf.blockOut (h : s.Wf) (k : Nat) (w : OutWait) : (s.blockOut k w).Wf := .ite (h.ringBlock _ _ _ _ _ _) (h.setSlice _ _)

theorem State.Wf.portDrain (h : s.Wf) (k : Nat) : (s.portDrain k).Wf := (h.setSlice _ _).foldl fun _ _ _ hu => hu.blockOut _ _

theorem State.Wf.outSlot (h : s.Wf) (k w : Nat) (m0 : MdSlice) : (s.outSlot k w m0).Wf := (h.setSlice _ _).portDrain _

theorem State.Wf.zeroSpectra (h : s.Wf) (k st n : Nat) : (s.zeroSpectra k st n).Wf := h.others

theorem State.Wf.sliceExc (h : s.Wf) (k code : Nat) : (s.sliceExc k code).Wf := by
  unfold State.sliceExc
  extract_lets _ _ _ _ _ _ _ s3
  have h3 : s3.Wf := (((((h.setSlice _ _).setF notIdAt _ _).setF notIdAt _ _).setF notIdAt _ _).setSeenB (notIdIf notId notId) _ _).raise _
  exact ((State.Wf.ite (h3.logEvent _ _ _) h3).portDrain _).others.zeroSpectra _ _ _

theorem State.Wf.applyDelays (h : s.Wf) (k : Nat) : (s.applyDelays k).Wf := (h.setSlice _ _).foldl fun _ _ _ hu => hu.setF notIdAt2 _ _

theorem State.Wf.nextSpectrum (h : s.Wf) (k : Nat) : (s.nextSpectrum k).Wf := by
  unfold State.nextSpectrum
  extract_lets _ _ _ _ _ s3
  have h3 : s3.Wf := ((((h.setSlice _ _).setReg64 notIdAt notIdAt2 _).setF notIdAt _ _).setF notIdAt _ _).andThen fun h1 => .applyDelays
    (.ite h1 (h1.zeroSpectra _ _ _)) _
  exact .ite (h3.setF notIdAt _ _) h3

theorem State.Wf.progEvent (h : s.Wf) (k imm : Nat) : (s.progEvent k imm).Wf :=
  (((h.setF notIdAt _ _).bumpBy notIdAt _ _).setSeenB (notIdIf notId notId) _ _).raise _

theorem State.Wf.mdCounts (h : s.Wf) (k gov sat : Nat) : (s.mdCounts k gov sat).Wf := by
  unfold State.mdCounts
  extract_lets s1
  have h1 : s1.Wf := .ite h ((h.bumpBy notIdAt _ _).setSeen notIdAt _ _)
  exact .ite h1 ((h1.bumpBy notIdAt _ _).setSeen notIdAt _ _)

theorem State.Wf.issue (h : s.Wf) (k : Nat) (e : Ecc) : (s.issue k e).Wf := by
  refine .ite (h.setSlice _ _) (.ite h ?_)
  extract_lets s0 m0 _ _ _ _ _ _ _ s1 s2 s3 s4
  have h0 : s0.Wf := h.eccSeen _ _
  have h1 : s1.Wf := (h0.setSlice _ _).mdCounts _ _ _
  have h2 : s2.Wf := .ite (h1.outSlot _ _ _) h1
  have h3 : s3.Wf := .ite (h2.progEvent _ _) h2
  have h4 : s4.Wf := .ite (h3.nextSpectrum _) h3
  generalize (if e.double then some excEcc else _) = x
  cases x with
  | some code => exact h0.sliceExc _ _
  | none => exact .ite (h4.sliceExc _ _) h4

/-! ### Sending on the Miltia link -/

theorem State.Wf.mlPump (h : s.Wf) : s.mlPump.Wf := .ite (h.others.foldl fun _ _ _ hu => hu.mlEmit _) h

theorem State.Wf.linkSend (h : s.Wf) (type msg tag arg result : Nat) : (s.linkSend type msg tag arg result).Wf := h.emit _

theorem State.Wf.linkAsk (h : s.Wf) (step : Ladder) (st msg arg : Nat) : (s.linkAsk step st msg arg).Wf :=
  ((h.setF notId _ _).linkSend _ _ _ _ _).others

theorem State.Wf.linkOff (h : s.Wf) (step : Ladder) (st : Nat) : (s.linkOff step st).Wf :=
  ((((h.setF notId _ _).setF notId _ _).setF notId _ _).setF notId _ _).others

theorem State.Wf.linkStart (h : s.Wf) : s.linkStart.Wf := h.linkOff _ _

theorem State.Wf.linkFail (h : s.Wf) : s.linkFail.Wf := (h.linkOff _ _).others

theorem State.Wf.linkClimb (h : s.Wf) : s.linkClimb.Wf := .ite (h.linkAsk _ _ _ _) h.others

theorem State.Wf.linkCommit (h : s.Wf) (r : Nat) : (s.linkCommit r).Wf := (h.setF notId _ _).others

theorem State.Wf.linkSwitch (h : s.Wf) : s.linkSwitch.Wf := .ite (((h.setF notId _ _).setF notId _ _).others) h

theorem State.Wf.linkClock (h : s.Wf) : s.linkClock.Wf := .ite h.others h

theorem State.Wf.linkLanes (h : s.Wf) : s.linkLanes.Wf := .ite h (.ite (h.linkAsk _ _ _ _) (.ite ((h.setF notId _ _).others) h))

theorem State.Wf.linkGain (h : s.Wf) (j : Nat) : (s.linkGain j).Wf := .ite ((h.setFB notId _ _ _).linkLanes) h

theorem State.Wf.linkLose (h : s.Wf) (j : Nat) : (s.linkLose j).Wf := .ite ((h.setFB notId _ _ _).others) h

theorem State.Wf.linkDark (h : s.Wf) (lane : Option Nat) : (s.linkDark lane).Wf := by
  unfold State.linkDark
  split
  · exact (h.linkLose _).others
  · exact (h.setF notId _ _).others

theorem State.Wf.linkSeen (h : s.Wf) (lane : Option Nat) : (s.linkSeen lane).Wf := by
  unfold State.linkSeen
  split
  · exact h.others
  · exact h

theorem State.Wf.linkCount (h : s.Wf) (ok : Bool) : (s.linkCount ok).Wf := .ite h.others h

theorem State.Wf.linkDwell (h : s.Wf) : s.linkDwell.Wf := .ite h.linkClimb h

theorem State.Wf.linkTimeout (h : s.Wf) : s.linkTimeout.Wf := by
  unfold State.linkTimeout
  split
  · exact h.linkFail
  · exact h.linkFail
  · exact h.linkFail
  · exact h.linkFail
  · exact h

theorem State.Wf.linkAgain (h : s.Wf) : s.linkAgain.Wf := by
  unfold State.linkAgain
  split
  · exact h
  · exact .ite (h.others.linkSend _ _ _ _ _) h.linkFail

theorem State.Wf.linkRetry (h : s.Wf) : s.linkRetry.Wf := .ite h.linkStart h

theorem State.Wf.configTable (h : s.Wf) : s.configTable.Wf := h.foldl fun _ _ _ hu => hu.setReg notIdAt _

theorem State.Wf.ubRegsWrite (h : s.Wf) (c : UbChange) : (s.ubRegsWrite c).Wf := by
  unfold State.ubRegsWrite
  extract_lets _ s2
  have h2 : s2.Wf := by
    unfold s2
    split
    · exact ((h.setReg64 notId notId _).setF notId _ _).configAll _
    · exact ((h.setReg64 notId notId _).setF notId _ _)
  split
  · exact (h2.config _ _).config _ _
  · exact h2

theorem State.Wf.recordSend (h : s.Wf) : s.recordSend.Wf := .ite (h.mlSend _) h

/-! ### The grid, staging and banks -/

theorem not_idReg_ctRegs : ∀ o ∈ ctRegs, ¬ idReg o := notIds (by decide)

theorem State.Wf.ctLoad (h : s.Wf) (ws : List Word) : (s.ctLoad ws).Wf :=
  h.foldl fun _ r hr hu => hu.setReg (not_idReg_ctRegs r.1 (List.of_mem_zip hr).1) _

theorem State.Wf.ctUnder {f : State → State} (h : s.Wf) (o : Option (List Word)) (hf : ∀ (u : State), u.Wf → (f u).Wf) : (s.ctUnder o f).Wf := by
  unfold State.ctUnder
  split
  · exact (hf _ (h.ctLoad _)).ctLoad _
  · exact hf _ h

theorem State.Wf.setBank (h : s.Wf) (b : Bool) (x : Bank) : (s.setBank b x).Wf := .ite h.others h.others

theorem State.Wf.bankFlag (h : s.Wf) (b : Bool) (i : Nat) : (s.bankFlag b i).Wf := h.setBank _ _

theorem State.Wf.cutAt (h : s.Wf) (b : Nat) : (s.cutAt b).Wf := h.others

theorem State.Wf.epochBound (h : s.Wf) (b : Nat) (runs : Bool) : (s.epochBound b runs).Wf := h.others

theorem State.Wf.endIntegration (h : s.Wf) (b : Nat) : (s.endIntegration b).Wf := by
  unfold State.endIntegration
  split
  · exact ((h.setBank _ _).cutAt _).epochBound _ _
  · exact h.epochBound _ _

theorem State.Wf.startIntegration (h : s.Wf) (b flags : Nat) : (s.startIntegration b flags).Wf := by
  unfold State.startIntegration
  split
  · extract_lets s1
    have h1 : s1.Wf := ((h.setBank _ _).setF notId _ _).setReg64 notId notId _
    exact .ite ((h1.setF notId _ _).setReg64 notId notId _) h1
  · exact h

theorem State.Wf.regrid (h : s.Wf) (b : Nat) : (s.regrid b).Wf := h.others.nextSync

theorem State.Wf.closeAt (h : s.Wf) (b flags : Nat) : (s.closeAt b flags).Wf := by
  refine .ite ((h.endIntegration _).startIntegration _ _) ?_
  refine .ite h ?_
  split
  · exact ((h.bankFlag _ _).others.bump notId).seen notId _ _
  · exact h

theorem State.Wf.endEarly (h : s.Wf) : s.endEarly.Wf := by
  refine .ite ?_ h
  split
  · exact ((h.bankFlag _ _).others.closeAt _ _).andThen fun h1 => .ite h1 (h1.regrid _)
  · exact h

theorem State.Wf.setScale (h : s.Wf) (p : Nat) (x : ScaleSt) : (s.setScale p x).Wf := h.others

theorem State.Wf.seedNow (h : s.Wf) (p : Nat) : (s.seedNow p).Wf := .ite (h.setScale _ _) (((h.setScale _ _).setFB notIdAt _ _ _).bump notIdAt)

theorem State.Wf.setHalf (h : s.Wf) (x0 : Bool) (x : Half) : (s.setHalf x0 x).Wf := .ite h.others h.others

theorem State.Wf.openHalf (h : s.Wf) (x0 : Bool) : (s.openHalf x0).Wf := (h.setHalf _ _).others

theorem State.Wf.openFor (h : s.Wf) (st : Nat) : (s.openFor st).Wf := .ite h (.ite (h.openHalf _) (.ite (h.openHalf _) h))

theorem State.Wf.dropNext (h : s.Wf) : s.dropNext.Wf := h.others

theorem State.Wf.countDrop (h : s.Wf) (st : Nat) : (s.countDrop st).Wf := by
  unfold State.countDrop
  split
  · exact h.setBank _ _
  · exact h

theorem State.Wf.dropSpec (h : s.Wf) : s.dropSpec.Wf := ((h.dropNext.bump notId).seen notId _ _).countDrop _

theorem State.Wf.stageRoom (h : s.Wf) (st : Nat) : (s.stageRoom st).Wf :=
  ((h.openFor _).openFor _).andThen fun h1 => .ite h1 (h1.foldl fun _ _ _ hu => hu.dropSpec)

theorem State.Wf.completeHalf (h : s.Wf) (x0 : Bool) : (s.completeHalf x0).Wf := .ite (h.setHalf _ _) h

theorem State.Wf.stageUpd (h : s.Wf) (st : Nat) (f : Half → StSpec → StSpec) : (s.stageUpd st f).Wf := by
  unfold State.stageUpd
  split
  · exact h.stageRoom _
  · exact ((h.stageRoom _).setHalf _ _).completeHalf _

theorem State.Wf.stageFill (h : s.Wf) (f : Fill) : (s.stageFill f).Wf := h.stageUpd _ _

theorem State.Wf.releaseHalf (h : s.Wf) (x0 : Bool) : (s.releaseHalf x0).Wf := .ite (h.setHalf _ _) h

theorem State.Wf.ringRd (h : s.Wf) (wr : Nat) : (s.ringRd wr).Wf := h.setReg notId _

theorem State.Wf.ringPut (h : s.Wf) (off : Nat) (bytes : List Byte) : (s.ringPut off bytes).Wf :=
  (((h.drStore _ _).others.setReg notId _).setReg notId _).ringRd _

theorem State.Wf.ringTrim (h : s.Wf) (rs : List DumpRec) : (s.ringTrim rs).Wf := h.others.ringRd _

theorem State.Wf.ringSent (h : s.Wf) (seq : Nat) : (s.ringSent seq).Wf := h.ringTrim _

theorem State.Wf.ringRelease (h : s.Wf) (seq : Nat) : (s.ringRelease seq).Wf := h.ringTrim _

/-! ### Frames and ports -/

theorem State.Wf.stampPtp (h : s.Wf) (n : Nat) (x : PtpTs) : (s.stampPtp n x).Wf := h.others

theorem State.Wf.stampRx (h : s.Wf) (n : Nat) (f : RxFrame) : (s.stampRx n f).Wf := .ite (h.stampPtp _ _) h

theorem State.Wf.setDom (h : s.Wf) (d : Nat) (x : PtpDom) : (s.setDom d x).Wf := h.others

theorem State.Wf.txPut (h : s.Wf) (n : Nat) (f : TxFrame) : (s.txPut n f).Wf := (h.setPort _ _).txStart _

theorem State.Wf.txBeam (h : s.Wf) (n : Nat) (f : TxFrame) : (s.txBeam n f).Wf := .ite ((h.bump notIdAt).seen notIdAt _ _) (h.txQueue _ _)

theorem State.Wf.txNak (h : s.Wf) (n : Nat) (f : TxFrame) : (s.txNak n f).Wf := .ite (h.seen notIdAt _ _) (h.txQueue _ _)

theorem State.Wf.c0Offer (h : s.Wf) (n : Nat) (f : TxFrame) : (s.c0Offer n f).Wf := .ite ((h.setPort _ _).txPut _ _) (h.c0Wait _ _)

/-! ### The Pelusk protocol -/

theorem State.Wf.freeSlot (h : s.Wf) (k : Nat) : (s.freeSlot k).Wf := h.others.setFB notId _ _ _

theorem State.Wf.hostNotice (h : s.Wf) (r : Reply) : (s.hostNotice r).Wf := .ite (h.others.setF notId _ _) (((h.bufWrite _ _).setF notId _ _).raise _)

theorem State.Wf.mgmtNotice (h : s.Wf) (r : Reply) : (s.mgmtNotice r).Wf := .ite (h.others.setF notId _ _) ((h.bufWrite _ _).setF notId _ _)

theorem State.Wf.udpReply (h : s.Wf) (n mac : Nat) (ip : Word) (port : Nat) (r : Reply) : (s.udpReply n mac ip port r).Wf := h.draw.txQueue _ _

theorem State.Wf.sendLater (h : s.Wf) (x0 : Transport) (r : Reply) : (s.sendLater x0 r).Wf := by
  unfold State.sendLater
  split
  · exact .ite (h.hostNotice _) (h.mgmtNotice _)
  · exact .ite (h.udpReply _ _ _ _ _) h
  · exact .ite (h.mlSend _) h
  · exact h
  · exact h

theorem State.Wf.putSource (h : s.Wf) (x : SourceSt) : (s.putSource x).Wf := h.others

theorem State.Wf.roomForSource (h : s.Wf) : OptWf s.roomForSource := by
  refine .ite (.some h) ?_
  split
  · exact .none
  · exact .some (h.others.bump notId)

theorem State.Wf.signatureFail (h : s.Wf) (op : Nat) (c : Cmd) : (s.signatureFail op c).Wf := (h.bump notId).logEvent _ _ _

theorem State.Wf.final (h : s.Wf) (q : QEntry) (status : Nat) (words : List Word) : (s.final q status words).Wf :=
  (h.others.queueSync.cacheReply _ _).andThen fun h1 => .ite h (.ite h1.deltaSend.others (.sendLater (.ite h1.deltaSend h1) _ _))

theorem State.Wf.busy (h : s.Wf) (op : Nat) (c : Cmd) (query : Bool) : (s.busy op c query).Wf := ((h.bump notId).draw).sendNow _ _ _

theorem State.Wf.enqueue (h : s.Wf) (op : Nat) (c : Cmd) : (s.enqueue op c).Wf := by
  refine .ite (.ite (h.others.bump notId).queueSync (h.busy _ _ _)) ?_
  split
  · exact h.busy _ _ _
  next s1 hs =>
    have h1 : s1.Wf := OptWf.ite (.some h) h.roomForSource s1 hs
    exact .ite (((h1.putSource _).cacheReply _ _).queueSync.sendNow _ _ _)
      (.ite (((h1.putSource _).others).bump notId).queueSync (h.busy _ _ _))

theorem State.Wf.arrive (h : s.Wf) (x0 : Transport) (bs : List Byte) : (s.arrive x0 bs).Wf := by
  refine .ite h ?_
  refine .ite ?_ ?_
  · dsimp only
    split
    · exact (h.bump notId).freeSlot _
    · exact (h.bump notId)
  · refine .ite ((h.bump notId).sendNow _ _ _) ?_
    refine .ite (h.sendNow _ _ _) ?_
    refine .ite (h.sendNow _ _ _) ?_
    refine .ite (h.enqueue _ _) ?_
    dsimp only
    split
    · exact h.sendNow _ _ _
    · exact h.sendNow _ _ _
    · exact (h.bump notId).sendNow _ _ _
    · exact h.enqueue _ _

theorem State.Wf.packetIn (h : s.Wf) (x0 : Transport) (bs : List Byte) : (s.packetIn x0 bs).Wf := .ite (h.arrive _ _) h.others

theorem State.Wf.doorbell (h : s.Wf) (k : Nat) : (s.doorbell k).Wf := (h.setFB notId _ _ _).packetIn _ _

theorem State.Wf.queuedFlags (h : s.Wf) : s.queuedFlags.Wf := ((h.setF notId _ _).setF notId _ _).foldl fun _ _ _ hu => hu.setF notIdAt _ _

theorem State.Wf.schedSync (h : s.Wf) : s.schedSync.Wf := (h.queuedFlags.setF notId _ _).nextSync

theorem State.Wf.queueEvent (h : s.Wf) (op x1 f : Nat) (alignI : Bool) (c : Cmd) : (s.queueEvent op x1 f alignI c).Wf :=
  (h.others.setF notId _ _).schedSync

theorem State.Wf.dropEvent (h : s.Wf) (x0 : Nat) : (s.dropEvent x0).Wf := h.others.schedSync

theorem State.Wf.notice (h : s.Wf) (e : Event) (status : Nat) (words : List Word) : (s.notice e status words).Wf := h.sendLater _ _

theorem State.Wf.logDiscard (h : s.Wf) (e : Event) (status : Nat) : (s.logDiscard e status).Wf := h.logEvent _ _ _

/-! ### Scale epochs and calibration banks -/

theorem State.Wf.seedSlice (h : s.Wf) (k b : Nat) : (s.seedSlice k b).Wf :=
  (((h.others.foldl fun _ _ _ hu => hu.setScale _ _).setF notIdAt _ _).bumpBy notIdAt _ _).setReg64 notId notId _

theorem State.Wf.epochStart (h : s.Wf) (k st : Nat) : (s.epochStart k st).Wf := .ite (h.seedSlice _ _) h

theorem State.Wf.scaleSpill (h : s.Wf) (k : Nat) : (s.scaleSpill k).Wf := h.setSlice _ _

theorem State.Wf.scaleFill (h : s.Wf) (k : Nat) : (s.scaleFill k).Wf := h.foldl fun _ _ _ hu => hu.setScale _ _

theorem State.Wf.scaleLost (h : s.Wf) (k : Nat) : (s.scaleLost k).Wf := (h.others.foldl fun _ _ _ hu => hu.setScale _ _).setF notIdAt _ _

theorem State.Wf.swapReached (h : s.Wf) (k st : Nat) : (s.swapReached k st).Wf := (h.setSlice _ _).setF notIdAt _ _

theorem State.Wf.calSwitch (h : s.Wf) (k : Nat) : (s.calSwitch k).Wf := ((h.others.setF notIdAt _ _).setF notIdAt _ _).schedSync

theorem State.Wf.calSwap (h : s.Wf) (k st : Nat) : (s.calSwap k st).Wf :=
  .ite (.ite (h.calSwitch _) ((h.calSwitch _).foldl fun _ _ _ hu => .ite (hu.seedNow _) hu)) h

/-! ### Global and interrupt registers -/

theorem execAvLogRepeat_wf (h : s.Wf) : NextWf (execAvLogRepeat s) := whenOn_next h fun _ hu => .ite hu.logViolation hu

theorem not_idReg_avRegs : ∀ o ∈ avRegs, ¬ idReg o := notIds (by decide)

theorem State.Wf.avClear (h : s.Wf) : s.avClear.Wf := by
  unfold State.avClear
  extract_lets _ s1
  have h1 : s1.Wf := h.others.clearCounters (notIds (by decide))
  exact .ite (h1.setF notId _ _) (.ite h1 (h1.foldl fun _ o ho hu => hu.setReg (not_idReg_avRegs o ho) _).logViolation)

theorem execGlbCntClrAv_wf (h : s.Wf) : NextWf (execGlbCntClrAv s) := whenOn_next h fun _ hu => hu.avClear

theorem execEvIntStatClear_wf (h : s.Wf) (v : Word) : NextWf (execEvIntStatClear v s) := whenOn_next h fun _ hu => hu.clearOnes notId _

theorem enableSignals_wf (h : s.Wf) (rise : Nat) (is : List Nat) : (enableSignals s rise is).Wf := h.foldl fun _ _ _ hu => .ite (hu.signal _) hu

theorem execEvIntEnWrite_wf (h : s.Wf) (v : Word) : NextWf (execEvIntEnWrite v s) :=
  whenOn_next h fun _ hu => enableSignals_wf (hu.setReg notId _) _ _

theorem execEvMdExcClear_wf (h : s.Wf) (q : Nat) (v : Word) : NextWf (execEvMdExcClear q v s) := by
  refine whenOn_next h fun _ hu => ?_
  split
  · exact hu.clearOnes notId _
  · exact hu.clearOnes notId _
  · exact hu

theorem execEvMdEvtClear_wf (h : s.Wf) (q : Nat) (v : Word) : NextWf (execEvMdEvtClear q v s) := by
  refine whenOn_next h fun _ hu => ?_
  split
  · exact hu.clearOnes notId _
  · exact hu.clearOnes notId _
  · exact hu

theorem State.Wf.unmask (h : s.Wf) (v : Nat) : (s.unmask v).Wf := .ite (((h.setF notIdAt2 _ _).setF notIdAt _ _).emit _) (h.setF notIdAt2 _ _)

theorem execMsixUnmask_wf (h : s.Wf) (v : Nat) : NextWf (execMsixUnmask v s) := whenOn_next h fun _ hu => .ite (hu.unmask _) hu

theorem State.Wf.latch (h : s.Wf) (r : Requester) (off : Nat) : (s.latch r off).Wf := h.setShadow _ _

theorem State.Wf.pairLoRead (h : s.Wf) (r : Requester) (off : Nat) : (s.pairLoRead r off).Wf := .emit (.ite ((h.latch _ _).latch _ _) (h.latch _ _)) _

theorem State.Wf.pairHiRead (h : s.Wf) (r : Requester) (off : Nat) : (s.pairHiRead r off).Wf := by
  unfold State.pairHiRead
  split
  · exact (h.setShadow _ _).emit _
  · exact h.emit _

theorem execPairLoRead_wf (h : s.Wf) (r : Requester) (off : Nat) : NextWf (execPairLoRead r off s) :=
  whenOn_next h fun _ hu => .ite (hu.pairLoRead _ _) hu

theorem execPairHiRead_wf (h : s.Wf) (r : Requester) (off : Nat) : NextWf (execPairHiRead r off s) :=
  whenOn_next h fun _ hu => .ite (hu.pairHiRead _ _) hu

/-! ### Saffron, one sample period -/

theorem State.Wf.sfTake (h : s.Wf) (smp : Nat → Smp) : (s.sfTake smp).Wf := by
  unfold State.sfTake
  extract_lets _ _ _ _ s1
  have h1 : s1.Wf := h.others
  exact .ite h1 ((h1.bumpBy notId _ _).seen notId _ _)

theorem State.Wf.setTb (h : s.Wf) (x0 : Nat) (x : TbSt) : (s.setTb x0 x).Wf := h.others.setF notIdAt _ _

theorem State.Wf.train (h : s.Wf) (x0 : Nat) : (s.train x0).Wf := (h.setTb _ _).setF notIdAt _ _

theorem State.Wf.tbLive (h : s.Wf) (x0 : Nat) : (s.tbLive x0).Wf :=
  .ite ((State.Wf.ite h (h.train _)).setTb _ _) (((h.setTb _ _).setF notIdAt _ _).setF notIdAt _ _)

theorem State.Wf.tbStep (h : s.Wf) (x0 : Nat) : (s.tbStep x0).Wf :=
  .ite (h.tbLive _) (.ite (((h.tbLive _).setTb _ _).setF notIdAt _ _)
    (.ite ((((h.tbLive _).setTb _ _).setF notIdAt _ _).bump notIdAt) (((h.tbLive _).setTb _ _).setF notIdAt _ _)))

theorem State.Wf.tbReplaced (h : s.Wf) (repl : Tbl Bool) (t : Nat) : (s.tbReplaced repl t).Wf := by
  unfold State.tbReplaced
  extract_lets _ _ s1
  have h1 : s1.Wf := h.setF notIdAt _ _
  exact .ite ((h1.train _).seen notIdAt _ _) h1

theorem State.Wf.cuTake (h : s.Wf) (c : Nat) : (s.cuTake c).Wf := .ite h h.others

theorem State.Wf.cuStep (h : s.Wf) (c : Nat) : (s.cuStep c).Wf := .ite ((h.cuTake _).bump notIdAt) (h.cuTake _)

theorem State.Wf.pinsShow (h : s.Wf) (n : Nat) : (s.pinsShow n).Wf := h.setF notId _ _

theorem State.Wf.pinsOut (h : s.Wf) (t : State) : (s.pinsOut t).Wf := h.others

theorem State.Wf.outStep (h : s.Wf) (n : Nat) : (s.outStep n).1.Wf := h.others.pinsShow n

theorem State.Wf.trigOffer (h : s.Wf) (m : TrigMsg) : (s.trigOffer m).Wf := by
  refine .ite h ?_
  extract_lets s1
  have h1 : s1.Wf := (h.bump notId).foldl fun _ _ _ hu => .ite (hu.c0Offer _ _) hu
  exact .ite (h1.seen notId _ _) h1

theorem State.Wf.trigFlush (h : s.Wf) (ms : List TrigMsg) : (s.trigFlush ms).Wf := by
  induction ms generalizing s with
  | nil => exact h.others
  | cons m ms ih => exact .ite (ih (h.trigOffer m)) h.others

theorem State.Wf.trigSend (h : s.Wf) (m : TrigMsg) : (s.trigSend m).Wf := h.others.trigFlush _

theorem State.Wf.msgEvent (h : s.Wf) (m : TrigMsg) : (s.msgEvent m).Wf := .ite h (.ite h.others (h.others.trigSend _))

theorem State.Wf.ubWrite (h : s.Wf) (c : UbChange) : (s.ubWrite c).Wf := (h.ubRegsWrite _).setF notId _ _

theorem State.Wf.ubFrozenNow (h : s.Wf) : s.ubFrozenNow.Wf := (((h.setF notId _ _).setReg notId _).setReg notId _).others.raise _

theorem State.Wf.ubCutShort (h : s.Wf) : s.ubCutShort.Wf := by
  unfold State.ubCutShort
  split
  · exact h.others
  · exact h.ubFrozenNow

theorem State.Wf.freeze (h : s.Wf) (x0 : Nat) : (s.freeze x0).Wf :=
  ((h.setReg64 notId notId _).setF notId _ _).andThen fun h1 => .ite (.ite h1.ubCutShort h1.others) (h.bump notId)

theorem State.Wf.ubFill (h : s.Wf) (n : Nat) : (s.ubFill n).Wf := by
  unfold State.ubFill
  split
  · exact h
  · exact .ite h.others h

theorem State.Wf.ubStart (h : s.Wf) (a : Nat) : (s.ubStart a).Wf := (((h.setReg notId _).setReg notId _).setF notId _ _).others

theorem State.Wf.ubStop (h : s.Wf) : s.ubStop.Wf := (h.setF notId _ _).others

theorem State.Wf.ubGen (h : s.Wf) : s.ubGen.Wf := (h.setF notId _ _).others

theorem State.Wf.ubCut (h : s.Wf) (span : Nat) : (s.ubCut span).Wf := .ite (((h.setReg notId _).bumpBy notId _ _).seen notId _ _) (h.setReg notId _)

theorem State.Wf.ubReach (h : s.Wf) (next b : Nat) (c : UbChange) : (s.ubReach next b c).Wf :=
  .ite (h.others.setF notId _ _) (.ite h.others.others (.ite h.others.others h.others))

theorem State.Wf.ubTurn (h : s.Wf) (c : UbChange) : (s.ubTurn c).Wf := by
  unfold State.ubTurn
  extract_lets _ _ _ s2
  have h2 : s2.Wf := .ite (((h.ubWrite _).setF notId _ _).ubCut _) ((((h.ubWrite _).setF notId _ _).ubCut _).setReg notId _)
  exact .ite (h2.setF notId _ _) (.ite (h2.setF notId _ _) h2)

theorem State.Wf.ubLoaded (h : s.Wf) : s.ubLoaded.Wf := ((h.setReg notId _).setF notId _ _).others

theorem State.Wf.takeTurn (h : s.Wf) (c : UbTurn) : (s.takeTurn c).Wf := by
  unfold State.takeTurn
  split
  · exact h.ubTurn _
  · exact h.ubLoaded

theorem State.Wf.ubTurns (h : s.Wf) : s.ubTurns.Wf := (h.others.foldl fun _ _ _ hu => hu.takeTurn _).setF notId _ _

theorem State.Wf.ubChanges (h : s.Wf) (next : Nat) : (s.ubChanges next).Wf := (h.others.foldl fun _ _ _ hu => hu.ubReach _ _ _).ubTurns

theorem State.Wf.ubCommit (h : s.Wf) (b x1 : Nat) (c : UbChange) : (s.ubCommit b x1 c).Wf := h.others.setF notId _ _

theorem State.Wf.trigApply (h : s.Wf) (ws : List Word) : (s.trigApply ws).Wf := (h.configAll _).configTable.foldl fun _ _ _ hu => .ite (hu.train _) hu

theorem State.Wf.trigCfgs (h : s.Wf) (n : Nat) : (s.trigCfgs n).Wf := h.others.foldl fun _ _ _ hu => hu.trigApply _

theorem State.Wf.triggers (h : s.Wf) (n mask : Nat) : (s.triggers n mask).Wf :=
  (State.Wf.ite (h.freeze _) h).andThen fun h1 => .ite h (.ite h1 (h1.msgEvent _))

theorem State.Wf.saffron (h : s.Wf) (n : Nat) (smp : Nat → Smp) : (s.saffron n smp).Wf := by
  unfold State.saffron
  extract_lets _ s1 s' s2 s3 r
  have h1 : s1.Wf := ((h.trigCfgs n).sfTake smp).foldl fun _ t _ hu => hu.tbReplaced _ t
  have h2 : s2.Wf := h1.others.foldl fun _ t _ hu => hu.tbStep t
  have h3 : s3.Wf := h2.foldl fun _ c _ hu => hu.cuStep c
  have hr : r.1.Wf := h3.outStep n
  exact (((hr.triggers n r.2).ubFill n).ubChanges (n + 1)).pinsOut s

/-! ### Sample lanes -/

theorem State.Wf.setOct (h : s.Wf) (o : Nat) (x : OctSt) : (s.setOct o x).Wf := h.others

theorem State.Wf.setOctState (h : s.Wf) (o v : Nat) : (s.setOctState o v).Wf := h.setF notIdAt _ _

theorem State.Wf.ctlPut (h : s.Wf) (o : Nat) (b : Nat → List Byte) : (s.ctlPut o b).Wf := (h.setOct _ _).emit _

theorem State.Wf.ctlNow (h : s.Wf) (o : Nat) (m : CtlMsg) : (s.ctlNow o m).Wf := by
  unfold State.ctlNow
  exact (h.setOct _ _).ctlPut _ _

theorem State.Wf.ctlNext (h : s.Wf) (o : Nat) : (s.ctlNext o).Wf := by
  unfold State.ctlNext
  dsimp only
  split
  · exact h
  · exact .ite (h.setOct _ _) h
  · exact .ite h (.ite (h.setOct _ _) ((h.setOct _ _).ctlNow _ _))

theorem State.Wf.ctlSend (h : s.Wf) (o : Nat) (why : CtlFor) (msg : Nat) (args : List Byte) : (s.ctlSend o why msg args).Wf :=
  (h.setOct _ _).ctlNext _

theorem State.Wf.sendHello (h : s.Wf) (o : Nat) : (s.sendHello o).Wf := ((h.setOct _ _).setOctState _ _).ctlSend _ _ _ _

theorem State.Wf.sendPropose (h : s.Wf) (o r : Nat) : (s.sendPropose o r).Wf := ((h.setOct _ _).setOctState _ _).ctlSend _ _ _ _

theorem State.Wf.sendCommit (h : s.Wf) (o r : Nat) : (s.sendCommit o r).Wf := (h.setOct _ _).ctlSend _ _ _ _

theorem State.Wf.serve (h : s.Wf) (o j : Nat) : (s.serve o j).Wf := .ite (h.setLane _ _ _) ((h.setFB notIdAt _ _ _).setLane _ _ _)

theorem State.Wf.outOfService (h : s.Wf) (o j : Nat) : (s.outOfService o j).Wf := (h.setFB notIdAt _ _ _).setLane _ _ _

theorem State.Wf.orderCheck (h : s.Wf) (o : Nat) : (s.orderCheck o).Wf := (h.foldl fun _ _ _ hu => hu.outOfService _ _).setF notIdAt _ _

theorem State.Wf.serveAll (h : s.Wf) (o : Nat) : (s.serveAll o).Wf := h.foldl fun _ _ _ hu => .ite (hu.serve _ _) hu

theorem State.Wf.markFrame (h : s.Wf) (o j : Nat) (fail chk : Bool) : (s.markFrame o j fail chk).Wf := (h.setLane _ _ _).markStored _ _ _ _

theorem State.Wf.loseLock (h : s.Wf) (counted : Bool) (o j : Nat) : (s.loseLock counted o j).Wf := by
  refine .ite ?_ h
  extract_lets s1
  have h1 : s1.Wf := ((h.markFrame _ _ _ _).setF notIdAt2 _ _).outOfService _ _
  exact (State.Wf.ite ((h1.setLane _ _ _).bump notIdAt2) (h1.setLane _ _ _)).andThen fun h1 => .ite (h1.bump notIdAt2) h1

theorem State.Wf.loseAll (h : s.Wf) (counted : Bool) (o : Nat) : (s.loseAll counted o).Wf := h.foldl fun _ _ _ hu => hu.loseLock _ _ _

theorem State.Wf.goDown (h : s.Wf) (step0 : Bool) (o : Nat) : (s.goDown step0 o).Wf := (((h.loseAll _ _).setOct _ _).setOctState _ _).setF notIdAt _ _

theorem State.Wf.ladderEnd (h : s.Wf) (o st : Nat) : (s.ladderEnd o st).Wf :=
  ((((h.setOct _ _).setOctState _ _).orderCheck _).serveAll _).ctlSend _ _ _ _

theorem State.Wf.climb (h : s.Wf) (o : Nat) : (s.climb o).Wf := .ite (h.sendPropose _ _) (h.ladderEnd _ _)

theorem State.Wf.attemptFail (h : s.Wf) (o failed : Nat) : (s.attemptFail o failed).Wf := .ite (h.goDown _ _) ((h.setOct _ _).sendPropose _ _)

theorem State.Wf.returned (h : s.Wf) (o : Nat) : (s.returned o).Wf :=
  .ite ((h.setOct _ _).sendPropose _ _) (.ite ((((h.setOct _ _).foldl fun _ _ _ hu => .ite (hu.setF notIdAt2 _ _) hu).setOct _ _).sendPropose _ _)
    ((h.setOct _ _).ladderEnd _ _))

theorem State.Wf.lanesDone (h : s.Wf) (o : Nat) : (s.lanesDone o).Wf :=
  .ite (.ite (h.returned _) (((h.foldl fun _ _ _ hu => hu.setLane _ _ _).setOct _ _).setOctState _ _)) (.ite (h.sendHello _) h)

theorem State.Wf.header (h : s.Wf) (o j : Nat) (b : List Byte) : (s.header o j b).1.Wf :=
  State.Wf.setLane (.ite (h.bump notIdAt2) h) _ _ _

theorem State.Wf.block (h : s.Wf) (k : BlockKind → Bool) (o j : Nat) (raw : List Byte) {body : State → List Byte → State}
    (hb : ∀ (u : State) (b : List Byte), u.Wf → (body u b).Wf) : (s.block k o j raw body).Wf := by
  have h1 := hb _ (upright (s.lane o j).inv raw) (h.header o j (upright (s.lane o j).inv raw))
  exact .ite (.ite (h1.loseLock _ _ _) h1) h

theorem State.Wf.frameEnd (h : s.Wf) (o j : Nat) (fail : Bool) : (s.frameEnd o j fail).Wf := by
  unfold State.frameEnd
  extract_lets _ _ _ _ _ s2
  have h2 : s2.Wf := ((h.markFrame _ _ _ _).setLane _ _ _).andThen fun h1 => .ite (h1.bump notIdAt2) h1
  exact (State.Wf.ite (h2.setF notIdAt2 _ _) h2).andThen fun h1 => .ite (h1.attemptFail _ _) h1

theorem State.Wf.check (h : s.Wf) (o j : Nat) (b : List Byte) : (s.check o j b).Wf :=
  (((State.Wf.ite (h.bump notIdAt2) h).frameEnd _ _ _).setLane _ _ _).andThen fun h1 => .ite (h1.loseLock _ _ _) h1

theorem execDataBlockReceived_wf (h : s.Wf) (o j : Nat) (raw : List Byte) : NextWf (execDataBlockReceived o j raw s) :=
  whenOn_next h fun _ hu => hu.block _ _ _ _ fun _ _ hv => .ite hv (hv.setLane _ _ _)

theorem execIdleBlockReceived_wf (h : s.Wf) (o j : Nat) (raw : List Byte) : NextWf (execIdleBlockReceived o j raw s) :=
  whenOn_next h fun _ hu => hu.block _ _ _ _ fun _ _ hv => hv.setLane _ _ _

theorem execCheckBlockReceived_wf (h : s.Wf) (o j : Nat) (raw : List Byte) : NextWf (execCheckBlockReceived o j raw s) :=
  whenOn_next h fun _ hu => hu.block _ _ _ _ fun _ _ hv => hv.check _ _ _

theorem execDegradedClear_wf (h : s.Wf) (o j : Nat) : NextWf (execDegradedClear o j s) := whenOn_next h fun _ hu => .ite (hu.setF notIdAt2 _ _) hu

theorem State.Wf.prbsLanes (h : s.Wf) (o : Nat) : (s.prbsLanes o).Wf :=
  h.foldl fun _ _ _ hu => .ite ((hu.loseLock _ _ _).setLane _ _ _) (hu.setLane _ _ _)

theorem State.Wf.accessEnd (h : s.Wf) (c : Cmd) (status : Nat) (ws : List Word) : (s.accessEnd c status ws).Wf := h.answer _ _ _ _ _

theorem State.Wf.ctlFailed (h : s.Wf) (o : Nat) (why : CtlFor) (status : Nat) : (s.ctlFailed o why status).Wf := by
  unfold State.ctlFailed
  split
  · exact h.goDown _ _
  · exact h.attemptFail _ _
  · exact h.attemptFail _ _
  · exact h.accessEnd _ _ _
  · exact h.prbsLanes _
  · exact h.setF notIdAt _ _
  · exact h.setF notIdAt _ _
  · exact h

theorem State.Wf.ctlSleepNow (h : s.Wf) (o : Nat) : (s.ctlSleepNow o).Wf :=
  ((h.setF notIdAt _ _).setOct _ _).andThen fun h1 => .ite (h1.setOct _ _) h1

theorem State.Wf.rxSleepNow (h : s.Wf) (o : Nat) (thenCtl : Bool) : (s.rxSleepNow o thenCtl).Wf :=
  (((h.loseAll _ _).setOctState _ _).setOct _ _).andThen fun h1 => .ite (h1.ctlSleepNow _) h1

theorem State.Wf.ctlDone (h : s.Wf) (o : Nat) (why : CtlFor) (b : List Byte) : (s.ctlDone o why b).Wf := by
  unfold State.ctlDone
  dsimp only
  split
  · exact (h.setOct _ _).climb _
  · exact .ite (h.sendCommit _ _) h
  · exact .ite (h.setOct _ _) h
  · exact (h.setOct _ _).foldl fun _ _ _ hu => .ite (hu.setLane _ _ _) hu
  · exact h.prbsLanes _
  · exact h.rxSleepNow _ _
  · exact ((h.setOctState _ _).orderCheck _).serveAll _
  · exact h.accessEnd _ _ _

theorem execControlReplyReceived_wf (h : s.Wf) (o j : Nat) (raw : List Byte) : NextWf (execControlReplyReceived o j raw s) := by
  refine whenOn_next h fun _ hu => ?_
  refine hu.block _ _ _ _ fun _ _ hv => ?_
  refine .ite hv ?_
  refine .ite ((hv.setOct _ _).setF notIdAt _ _) ?_
  split
  · exact hv
  · exact ((hv.setOct _ _).setF notIdAt _ _).andThen fun h1 => .ite (.ctlNext (.ite (h1.ctlDone _ _ _) (h1.ctlFailed _ _ _)) _) hv

theorem execControlReplyTimeout_wf (h : s.Wf) (o : Nat) : NextWf (execControlReplyTimeout o s) := by
  refine whenOn_next h fun _ hu => ?_
  refine .ite hu.linkAgain ?_
  split
  · exact hu
  · exact .ite (((hu.setOct _ _).bump notIdAt).ctlPut _ _) ((((hu.setOct _ _).setF notIdAt _ _).ctlFailed _ _ _).ctlNext _)

theorem State.Wf.statusNow (h : s.Wf) (o : Nat) : (s.statusNow o).Wf := by
  unfold State.statusNow
  exact (h.setOct _ _).ctlPut _ _

theorem State.Wf.pollOct (h : s.Wf) (o : Nat) : (s.pollOct o).Wf := .ite (.ite (h.setOct _ _) (h.statusNow _)) h

theorem execStatusPoll_wf (h : s.Wf) : NextWf (execStatusPoll s) := whenOn_next h fun _ hu => hu.foldl fun _ _ _ hv => hv.pollOct _

theorem execStatusReplyTimeout_wf (h : s.Wf) (o : Nat) : NextWf (execStatusReplyTimeout o s) :=
  whenOn_next h fun _ hu => .ite (.ite ((hu.setOct _ _).setF notIdAt _ _) (hu.setOct _ _)) hu

theorem execControlWakeDone_wf (h : s.Wf) (o : Nat) : NextWf (execControlWakeDone o s) :=
  whenOn_next h fun _ hu => .ite (.ctlNext (.ite ((hu.setOct _ _).statusNow _) (hu.setOct _ _)) _) hu

theorem State.Wf.storeOfs (h : s.Wf) (o ofs : Nat) : (s.storeOfs o ofs).Wf :=
  .ite h (.ite ((h.setOct _ _).setReg64 notIdAt notIdAt2 _) (.ite h (((h.setReg64 notIdAt notIdAt2 _).seen notIdAt _ _).logEvent _ _ _)))

theorem State.Wf.putLead (h : s.Wf) (o j : Nat) (d : Int) : (s.putLead o j d).Wf := .ite (h.setF notIdAt2 _ _) ((h.setF notIdAt2 _ _).draw)

theorem execBlockLockGained_wf (h : s.Wf) (o j : Nat) (b7 : Bool) (lane seq count idx : Nat) (lead : Int) (ofs : Nat) :
    NextWf (execBlockLockGained o j b7 lane seq count idx lead ofs s) :=
  whenOn_next h fun _ hu => .ite (hu.linkGain _)
    (.ite hu ((((((((((hu.setLane _ _ _).setF notIdAt2 _ _).setFB notIdAt _ _ _).setF notIdAt _ _).putLead _ _ _).setF notIdAt2 _ _).storeOfs _
    _).orderCheck _).serveAll _).lanesDone _))

theorem execBlockLockLost_wf (h : s.Wf) (o j : Nat) : NextWf (execBlockLockLost o j s) :=
  whenOn_next h fun _ hu => .ite (hu.linkLose _) (hu.loseLock _ _ _)

theorem State.Wf.clockLost (h : s.Wf) (o : Nat) : (s.clockLost o).Wf := (((h.setOct _ _).setF notIdAt _ _).seen notIdAt _ _).loseAll _ _

theorem execLossOfSignal_wf (h : s.Wf) (o : Nat) (lane : Option Nat) : NextWf (execLossOfSignal o lane s) := by
  refine whenOn_next h fun _ hu => ?_
  refine .ite (hu.linkDark _) ?_
  refine .ite hu ?_
  split
  · exact hu.clockLost _
  · exact (hu.loseLock _ _ _).setF notIdAt2 _ _

theorem execLossOfSignalClear_wf (h : s.Wf) (o : Nat) (lane : Option Nat) : NextWf (execLossOfSignalClear o lane s) := by
  refine whenOn_next h fun _ hu => ?_
  refine .ite (hu.linkSeen _) ?_
  split
  · exact hu
  · exact hu.setF notIdAt2 _ _

theorem execForwardedClockLost_wf (h : s.Wf) (o : Nat) : NextWf (execForwardedClockLost o s) :=
  whenOn_next h fun _ hu => .ite (hu.linkDark _) (.ite hu (hu.clockLost _))

theorem execLaneSlip_wf (h : s.Wf) (o j : Nat) (lead : Int) : NextWf (execLaneSlip o j lead s) :=
  whenOn_next h fun _ hu => .ite (((hu.loseLock _ _ _).putLead _ _ _).seen notIdAt2 _ _) hu

theorem execEqFreeze_wf (h : s.Wf) (o j : Nat) : NextWf (execEqFreeze o j s) := whenOn_next h fun _ hu => hu.setF notIdAt2 _ _

theorem execEqResume_wf (h : s.Wf) (o j : Nat) : NextWf (execEqResume o j s) := whenOn_next h fun _ hu => hu.setF notIdAt2 _ _

theorem execLadderStart_wf (h : s.Wf) (o : Nat) : NextWf (execLadderStart o s) :=
  whenOn_next h fun _ hu => .ite (((((((hu.loseAll _ _).setF notIdAt _ _).foldl fun _ _ _ hv => hv.setF notIdAt2 _ _).setOct _ _).setOctState _
    _).setF notIdAt _ _).ctlNext _) hu

theorem State.Wf.stepTimeout (h : s.Wf) (o : Nat) : (s.stepTimeout o).Wf := by
  unfold State.stepTimeout
  dsimp only
  split
  · exact .ite ((h.foldl fun _ _ _ hu => .ite hu (hu.setF notIdAt2 _ _)).sendHello _) (h.goDown _ _)
  · exact h.attemptFail _ _
  · exact h.attemptFail _ _
  · exact h.attemptFail _ _
  · exact h

theorem execLadderStepTimeout_wf (h : s.Wf) (o : Nat) : NextWf (execLadderStepTimeout o s) :=
  whenOn_next h fun _ hu => .ite hu.linkTimeout (hu.stepTimeout _)

theorem execRungSwitch_wf (h : s.Wf) (o : Nat) : NextWf (execRungSwitch o s) :=
  whenOn_next h fun _ hu => .ite hu.linkSwitch (.ite (((hu.loseAll _ _).setOct _ _).setF notIdAt _ _) hu)

theorem execForwardedClockLock_wf (h : s.Wf) (o : Nat) : NextWf (execForwardedClockLock o s) :=
  whenOn_next h fun _ hu => .ite hu.linkClock (.ite hu ((hu.setOct _ _).setF notIdAt _ _))

theorem State.Wf.dwellEnd (h : s.Wf) (o : Nat) : (s.dwellEnd o).Wf := .ite ((h.setOct _ _).climb _) h

theorem execDwellPassed_wf (h : s.Wf) (o : Nat) : NextWf (execDwellPassed o s) := whenOn_next h fun _ hu => .ite hu.linkDwell (hu.dwellEnd _)

theorem execOctetDownRetry_wf (h : s.Wf) (o : Nat) : NextWf (execOctetDownRetry o s) :=
  whenOn_next h fun _ hu => .ite hu.linkRetry (.ite (((hu.foldl fun _ _ _ hv => hv.setF notIdAt2 _ _).setOct _ _).setOctState _ _) hu)

theorem State.Wf.rejoin (h : s.Wf) (o i b : Nat) : (s.rejoin o i b).Wf := by
  unfold State.rejoin
  extract_lets s1
  have h1 : s1.Wf := by
    unfold s1
    split
    · exact .ite ((h.setFB notIdAt _ _ _).setLane _ _ _) h
    · exact h
  exact .ite (h1.setSlice _ _) (.ite ((h1.setSlice _ _).setScale _ _) ((h1.setSlice _ _).seedNow _))

theorem execPathRejoin_wf (h : s.Wf) (o i : Nat) : NextWf (execPathRejoin o i s) := whenOn_next h fun _ hu => .ite (hu.rejoin _ _ _) hu

theorem State.Wf.leadSet (h : s.Wf) (q : Nat × Int) : (s.leadSet q).Wf :=
  .ite (((h.putLead _ _ _).setF notIdAt2 _ _).outOfService _ _) (h.putLead _ _ _)

theorem State.Wf.rederive (h : s.Wf) (x0 : Int) : (s.rederive x0).Wf := by
  refine h.foldl fun _ _ _ hu => ?_
  split
  · exact (hu.setOct _ _).setReg64 notIdAt notIdAt2 _
  · exact hu

theorem execReleasePointSet_wf (h : s.Wf) (leads : List (Nat × Int)) : NextWf (execReleasePointSet leads s) :=
  whenOn_next h fun _ hu => (((hu.setF notId _ _).setF notId _ _).foldl fun _ _ _ hv => hv.leadSet _).andThen fun h1 => .ite hu
    (.ite (h1.rederive _) h1)

theorem State.Wf.lanesEpoch (h : s.Wf) (load : Nat) : (s.lanesEpoch load).Wf := .ite (h.others.rederive _) h.others

theorem State.Wf.lanesPop (h : s.Wf) (x0 : Nat) (x : Nat → Smp) : (s.lanesPop x0 x).Wf := h.foldl fun _ _ _ hu => .ite (hu.setLane _ _ _) hu

theorem State.Wf.lanesDrop (h : s.Wf) : s.lanesDrop.Wf := h.foldl fun _ _ _ hu => hu.setLane _ _ _

theorem State.Wf.storeSamples (h : s.Wf) (x0 : Nat) (smp : Nat → Smp) : (s.storeSamples x0 smp).Wf := h.others

theorem State.Wf.spectrumEnd (h : s.Wf) (st : Nat) : (s.spectrumEnd st).Wf :=
  h.foldl fun _ _ _ hu => .ite ((State.Wf.ite hu ((hu.calSwap _ _).swapReached _ _)).zeroSpectra _ _ _)
    (State.Wf.ite hu ((hu.calSwap _ _).swapReached _ _))

theorem State.Wf.lateCheck (h : s.Wf) : s.lateCheck.Wf := h.foldl fun _ _ _ hu => .ite (hu.sliceExc _ _) hu

theorem execSampleRelease_wf (h : s.Wf) : NextWf (execSampleRelease s) :=
  whenOn_next h fun _ hu => ((((hu.storeSamples _ _).saffron _ _).lanesPop _ _).others).andThen fun h1 => .ite (.ite hu.lanesDrop hu)
    (.ite hu (.ite (h1.lateCheck.spectrumEnd _) h1.lateCheck))

theorem State.Wf.ctlIdle (h : s.Wf) (o : Nat) : (s.ctlIdle o).Wf := .ite h (.ite ((h.setOct _ _).emit _) (h.ctlPut _ _))

theorem State.Wf.ctlTick (h : s.Wf) : s.ctlTick.Wf := h.foldl fun _ _ _ hu => hu.ctlIdle _

theorem execPrbsPatternReceived_wf (h : s.Wf) (o j : Nat) (bs : List Bool) : NextWf (execPrbsPatternReceived o j bs s) := by
  refine whenOn_next h fun _ hu => ?_
  refine .ite hu ?_
  dsimp only
  split
  · exact hu
  · split
    · exact hu
    · exact ((hu.setLane _ _ _).setFB notIdAt _ _ _).bumpBy notIdAt2 _ _
  · exact (hu.setLane _ _ _).bumpBy notIdAt2 _ _

theorem laneRefuse_wf {os : List Nat} {needsRx : Bool} {needsCtl : Nat → Bool} {r : CmdRes} (hr : s.laneRefuse os needsRx needsCtl = some r) : r.Wf :=
    by
  unfold State.laneRefuse at hr
  split at hr
  · cases hr
    trivial
  · split at hr
    · cases hr
      trivial
    · cases hr

theorem execLaneLadder_wf (h : s.Wf) (c : Cmd) : NextWf (execLaneLadder c s) := by
  refine ⟨_, rfl, h.command _ _ _ fun u hu => ?_⟩
  extract_lets os
  generalize hx : u.laneRefuse os true _ = x
  generalize os.find? _ = y
  cases x with
  | some r => exact laneRefuse_wf hx
  | none =>
    cases y with
    | some o => trivial
    | none => exact State.Wf.foldl hu fun _ _ _ hv => ((hv.setF notIdAt _ _).setF notIdAt _ _).setF notIdAt _ _

theorem State.Wf.ctlWake (h : s.Wf) (o : Nat) : (s.ctlWake o).Wf := .ite ((h.setF notIdAt _ _).setOct _ _) ((h.setF notIdAt _ _).setOct _ _)

theorem State.Wf.sleepOct (h : s.Wf) (rx ctl : Bool) (o : Nat) : (s.sleepOct rx ctl o).Wf := by
  unfold State.sleepOct
  extract_lets was s1 s2
  have h1 : s1.Wf := .ite h (h.ctlWake _)
  have h2 : s2.Wf := .ite ((h1.setF notIdAt _ _).ctlSend _ _ _ _) h1
  exact .ite ((h1.setF notIdAt _ _).ctlSend _ _ _ _) (.ite (h2.ctlSleepNow _) h2)

theorem execLaneSleep_wf (h : s.Wf) (c : Cmd) : NextWf (execLaneSleep c s) := by
  refine ⟨_, rfl, h.command _ _ _ fun u hu => ?_⟩
  dsimp only
  split
  · exact laneRefuse_wf ‹_›
  · exact State.Wf.foldl hu fun _ _ _ hv => hv.sleepOct _ _ _

/-- A register of one octet. -/
theorem not_idReg_octet {off o : Nat} (ho : (off == SL_OCT_CTL o || off == SL_OCT_PRBS o) = true) : ¬ idReg off := by
  simp only [Bool.or_eq_true, beq_iff_eq] at ho
  rcases ho with rfl | rfl <;> exact notIdAt

theorem State.Wf.octetWrite (h : t.Wf) (s : State) (off : Nat) : (s.octetWrite t off).Wf := by
  unfold State.octetWrite
  split
  · exact h
  next o ho =>
    have hoff : ¬ idReg off := not_idReg_octet (o := o) (by simpa using List.find?_some ho)
    refine .ite (((h.setF hoff _ _).setF hoff _ _).sleepOct _ _ _) ?_
    extract_lets _ t1 t2 t3
    have h1 : t1.Wf := .ite (h.setOct _ _) h
    have h2 : t2.Wf := .ite (h1.foldl fun _ _ _ hu => .ite (hu.bump notIdAt2) hu) h1
    have h3 : t3.Wf := (h2.setF hoff _ _).setF hoff _ _
    exact .ite h3 (h3.prbsLanes _)

theorem execLanePrbs_wf (h : s.Wf) (c : Cmd) : NextWf (execLanePrbs c s) := by
  refine ⟨_, rfl, h.command _ _ _ fun u hu => ?_⟩
  dsimp only
  split
  · exact laneRefuse_wf ‹_›
  · have h1 := hu.setReg (o := SL_OCT_PRBS (c.f 1 5 0)) notIdAt (c.w 0 &&& 0xF70000FF)
    exact State.Wf.ctlSend (.ite h1 (h1.prbsLanes _)) _ _ _ _

theorem execLaneStatus_wf (h : s.Wf) (c : Cmd) : NextWf (execLaneStatus c s) := ⟨_, rfl, h.command _ _ _ fun _ hu => hu⟩

theorem execAdcAccess_wf (h : s.Wf) (c : Cmd) : NextWf (execAdcAccess c s) :=
  ⟨_, rfl, h.command _ _ _ fun _ hu => CmdRes.Wf.ite trivial (CmdRes.Wf.ite (hu.ctlSend _ _ _ _) (hu.ctlSend _ _ _ _))⟩

theorem execReleaseSet_wf (h : s.Wf) (c : Cmd) : NextWf (execReleaseSet c s) :=
  ⟨_, rfl, h.command _ _ _ fun _ hu => (hu.endEarly.setF notId _ _).foldl fun _ _ _ hv => (hv.setOct _ _).foldl fun _ _ _ hw => hw.setF notIdAt2 _ _⟩

theorem notIdFlat {β : Type} {l : List β} {f : β → List Nat} (hf : ∀ k, ∀ o ∈ f k, ¬ idReg o) : ∀ o ∈ l.flatMap f, ¬ idReg o := fun o ho =>
  let ⟨k, _, hk⟩ := List.mem_flatMap.1 ho
  hf k o hk

theorem notIdMap {β : Type} {l : List β} {f : β → Nat} (hf : ∀ k, ¬ idReg (f k)) : ∀ o ∈ l.map f, ¬ idReg o :=
  List.forall_mem_map.2 fun k _ => hf k

theorem not_idReg_slCounters (o : Nat) : ∀ a ∈ slCounters o, ¬ idReg a :=
  List.forall_mem_cons.2 ⟨notIdAt, notIdFlat fun _ => by
    simp only [List.forall_mem_cons]
    exact ⟨notIdAt2, notIdAt2, notIdAt2, notIdAt2, notIdAt2, List.forall_mem_nil _⟩⟩

theorem execSlCntClrAll_wf (h : s.Wf) : NextWf (execSlCntClrAll s) :=
  whenOn_next h fun _ hu => hu.clearCounters (notIdFlat not_idReg_slCounters)

theorem execSlCntClrOctet_wf (h : s.Wf) (o : Nat) : NextWf (execSlCntClrOctet o s) :=
  whenOn_next h fun _ hu => .ite (hu.clearCounters (not_idReg_slCounters o)) hu

/-! ### The memory controller -/

theorem State.Wf.drTouch (h : s.Wf) (a : Nat) : (s.drTouch a).Wf := h.others

theorem State.Wf.drClose (h : s.Wf) (n r : Nat) : (s.drClose n r).Wf := h.others

theorem State.Wf.setDrQ (h : s.Wf) (n : Nat) (q : List DrReq) : (s.setDrQ n q).Wf := h.others

theorem State.Wf.drWake (h : s.Wf) (k : Nat) : (s.drWake k).Wf := h.others

theorem State.Wf.drPut (h : s.Wf) (r : DrReq) : (s.drPut r).Wf := .ite ((h.setDrQ _ _).drWake _) h.others

theorem State.Wf.drUnhold (h : s.Wf) : s.drUnhold.Wf := h.others.foldl fun _ _ _ hu => hu.drPut _

theorem execDramRequest_wf (h : s.Wf) (m cls : Nat) (w : Bool) (a : Nat) (bs : List Byte) (n : Nat) (extra : Bool) :
    NextWf (execDramRequest m cls w a bs n extra s) :=
  whenOn_next h fun _ hu => .ite hu (.ite ((hu.drBad _ _).emit _) ((State.Wf.ite (hu.bump notId) hu).foldl fun _ _ _ hv => hv.drPut _))

theorem State.Wf.drCe (h : s.Wf) (a : Nat) : (s.drCe a).Wf := ((h.bump notIdAt).seen notId _ _).andThen fun h1 => .ite h1 (h1.drPut _)

theorem State.Wf.drBegin (h : s.Wf) (r : DrReq) : (s.drBegin r).Wf := .ite (h.drTouch _) h

theorem State.Wf.drServe (h : s.Wf) (n : Nat) (r : DrReq) : (s.drServe n r).Wf := ((h.setDrQ _ _).drBegin _).others.drUnhold

theorem State.Wf.drRest (h : s.Wf) (r : DrReq) : (s.drRest r).Wf := h.drWrite _ _

theorem State.Wf.drBurst (h : s.Wf) (n : Nat) : (s.drBurst n).Wf := by
  unfold State.drBurst
  split
  · exact h
  · exact ((h.setDrQ _ _).drBegin _).andThen fun h1 => .ite (.ite ((h.drServe _ _).drRest _) h) (.ite (h1.drWrite _ _) h1)

theorem State.Wf.drWrites (h : s.Wf) (n k : Nat) : (s.drWrites n k).Wf := by
  induction k generalizing s with
  | zero => exact h
  | succ k ih =>
    unfold State.drWrites
    split
    · exact .ite (ih ((h.drServe _ _).drRest _)) h
    · exact h

theorem State.Wf.drFound (h : s.Wf) (a n : Nat) (found : List Nat) : (s.drFound a n found).Wf := (h.others.drUes _ _).foldl fun _ _ _ hu => hu.drCe _

theorem State.Wf.drReturn (h : s.Wf) (n : Nat) (r : DrReq) (found : List Nat) : (s.drReturn n r found).Wf :=
  ((h.drServe _ _).drFound _ _ _).andThen fun h1 => .ite h1 (h1.emit _)

theorem execDramReadComplete_wf (h : s.Wf) (n : Nat) (found : List Nat) : NextWf (execDramReadComplete n found s) := by
  refine whenOn_next h fun _ hu => ?_
  refine .ite hu ?_
  dsimp only
  split
  · exact (hu.drWrites _ _)
  · exact (hu.drWrites _ _).drReturn _ _ _

theorem execRequestAgePromote_wf (h : s.Wf) (n i : Nat) : NextWf (execRequestAgePromote n i s) := by
  refine whenOn_next h fun _ hu => ?_
  split
  · exact hu
  · exact .ite hu ((hu.setDrQ _ _).bump notIdAt)

theorem State.Wf.setPost (h : s.Wf) (n r v : Nat) : (s.setPost n r v).Wf := h.others.setF notIdAt _ _

theorem State.Wf.drFinish (h : s.Wf) (n k : Nat) : (s.drFinish n k).Wf := by
  induction k generalizing s with
  | zero => exact h
  | succ k ih => exact .ite (ih (h.drBurst _)) h

theorem execRefreshDue_wf (h : s.Wf) (n r : Nat) : NextWf (execRefreshDue n r s) :=
  whenOn_next h fun _ hu => .ite hu (.ite ((((((hu.drWake _).drFinish _ _).setPost _ _ _).drClose _ _).bump notIdAt).seen notId _ _)
    (.ite (hu.setPost _ _ _) ((hu.drWake _).drClose _ _)))

theorem execPostponedRefreshMakeup_wf (h : s.Wf) (n r : Nat) : NextWf (execPostponedRefreshMakeup n r s) :=
  whenOn_next h fun _ hu => .ite (((hu.setPost _ _ _).drWake _).drClose _ _) hu

theorem execRankPowerDown_wf (h : s.Wf) (n r : Nat) : NextWf (execRankPowerDown n r s) := whenOn_next h fun _ hu => .ite (hu.others.drClose _ _) hu

theorem execRowIdleClose_wf (h : s.Wf) (n r b : Nat) : NextWf (execRowIdleClose n r b s) := whenOn_next h fun _ hu => .ite hu.others hu

theorem execScrubPatrolRead_wf (h : s.Wf) (found : Nat) : NextWf (execScrubPatrolRead found s) :=
  whenOn_next h fun _ hu => .ite (.ite ((hu.others.drPut _).drReturn _ _ _) (hu.others.drPut _)) hu

theorem execMemoryRailFault_wf (h : s.Wf) : NextWf (execMemoryRailFault s) := by
  refine whenOn_next h fun _ hu => ?_
  refine .ite hu ?_
  split
  · exact (((((((hu.setF notId _ _).setF notId _ _).foldl fun _ _ _ hv => hv.setFB notId _ _ _).setSeenB notId _ _).bump notId).logEvent _ _ _).raise
      _).draw.others

theorem State.Wf.phySwitch (h : s.Wf) : s.phySwitch.Wf := h.others

theorem execDrStatus_wf (h : s.Wf) (c : Cmd) : NextWf (execDrStatus c s) := ⟨_, rfl, h.command _ _ _ fun _ hu => hu⟩

theorem execDrBoardSet_wf (h : s.Wf) (c : Cmd) : NextWf (execDrBoardSet c s) := ⟨_, rfl, h.command _ _ _ fun _ hu => hu.others⟩

theorem execDrSweep_wf (h : s.Wf) (c : Cmd) : NextWf (execDrSweep c s) :=
  ⟨_, rfl, h.command _ _ _ fun _ hu => CmdRes.Wf.ite trivial (CmdRes.Wf.ite trivial ((hu.others.setF notId _ _).setF notId _ _))⟩

theorem State.Wf.sweepFill (h : s.Wf) (u n : Nat) : (s.sweepFill u n).Wf := h.foldl fun _ _ _ hu => hu.foldl fun _ _ _ hv => hv.drWrite _ _

theorem State.Wf.sweepChan (h : s.Wf) (u : Nat) (load : Bool) (n : Nat) : (s.sweepChan u load n).Wf :=
  .ite (h.sweepFill _ _) (((h.sweepFill _ _).foldl fun _ _ _ hu => hu.setReg notIdAt2 _).others)

theorem execDrSweepDone_wf (h : s.Wf) : NextWf (execDrSweepDone s) := by
  refine whenOn_next h fun _ hu => ?_
  split
  · exact (((hu.foldl fun _ _ _ hv => hv.sweepChan _ _ _).others.setF notId _ _).setF notId _ _).draw.final _ _ _
  · exact hu

theorem execDrTableStore_wf (h : s.Wf) (c : Cmd) : NextWf (execDrTableStore c s) :=
  ⟨_, rfl, h.command _ _ _ fun _ hu => CmdRes.Wf.ite trivial hu.others⟩

theorem execDrTableStoreDone_wf (h : s.Wf) : NextWf (execDrTableStoreDone s) := by
  refine whenOn_next h fun _ hu => ?_
  split
  · exact .ite (hu.others.final _ _ _) hu
  · exact hu

theorem execDrSchedConfig_wf (h : s.Wf) (c : Cmd) : NextWf (execDrSchedConfig c s) :=
  ⟨_, rfl, h.command _ _ _ fun _ hu => ((hu.setReg notId _).setF notId _ _).others⟩

theorem not_idReg_drCounters (n : Nat) : ∀ o ∈ drCounters n, ¬ idReg o := by
  unfold drCounters
  simp only [List.forall_mem_cons]
  exact ⟨notIdAt, notIdAt, notIdAt, notIdAt, List.forall_mem_nil _⟩

theorem execDrCntClrAll_wf (h : s.Wf) : NextWf (execDrCntClrAll s) :=
  whenOn_next h fun _ hu => hu.clearCounters (List.forall_mem_cons.2 ⟨notId, notIdFlat not_idReg_drCounters⟩)

theorem execDrCntClrCh_wf (h : s.Wf) (mask : Nat) : NextWf (execDrCntClrCh mask s) :=
  whenOn_next h fun _ hu => hu.clearCounters (notIdFlat not_idReg_drCounters)

/-! ### Indigo -/

theorem execStagingFillArrival_wf (h : s.Wf) (rec : Bool) : NextWf (execStagingFillArrival rec s) := by
  refine whenOn_next h fun _ hu => ?_
  refine .ite ?_ ?_
  · split
    · exact hu
    · exact .ite hu.others.others hu.others
  · split
    · exact hu
    · exact (State.Wf.ite hu.others.others hu.others).andThen fun h1 => .ite (h1.stageFill _) h1

theorem execIndigoPassStart_wf (h : s.Wf) (d : Nat) : NextWf (execIndigoPassStart d s) := by
  refine whenOn_next h fun _ hu => ?_
  refine .ite hu ?_
  split
  · exact hu
  · exact ((hu.setHalf _ _).setF notId _ _).andThen fun h1 => .ite h1 ((h1.bump notId).seen notId _ _)

theorem State.Wf.saturate (h : s.Wf) (b : Bool) (entry tile : Nat) : (s.saturate b entry tile).Wf :=
  (((h.setBank _ _).setSeenB notIdAt _ _).seen notId _ _).andThen fun h1 => .ite h1 (h1.bump notId)

theorem State.Wf.vatAdd (h : s.Wf) (b : Bool) (entry tile : Nat) (v : Int × Int) : (s.vatAdd b entry tile v).Wf :=
  .ite ((h.setBank _ _).saturate _ _ _) (h.setBank _ _)

theorem State.Wf.specAdd (h : s.Wf) (b : Bool) (i tile : Nat) (v : Int) : (s.specAdd b i tile v).Wf :=
  .ite ((h.setBank _ _).saturate _ _ _) (h.setBank _ _)

theorem State.Wf.groupAdd (h : s.Wf) (b : Bool) (x1 : Half) (d : Nat) (g : Group) (tile : Nat) : (s.groupAdd b x1 d g tile).Wf := by
  unfold State.groupAdd
  extract_lets _ _ s1
  have h1 : s1.Wf := by
    unfold s1
    split
    · exact h
    · split
      · exact h
      · exact .ite h (h.foldl fun _ _ _ hu => .ite (hu.vatAdd _ _ _ _) hu)
  exact h1

theorem State.Wf.passAdd (h : s.Wf) (b : Bool) (x1 : Half) (d : Nat) : (s.passAdd b x1 d).Wf :=
  ((h.foldl fun _ _ _ hu => hu.groupAdd _ _ _ _ _).foldl fun _ _ _ hu => hu.foldl fun _ _ _ hv => hv.specAdd _ _ _ _).setBank _ _

theorem State.Wf.passCount (h : s.Wf) (b : Bool) (x1 : Half) : (s.passCount b x1).Wf := h.setBank _ _

theorem execIndigoPassEnd_wf (h : s.Wf) (d : Nat) : NextWf (execIndigoPassEnd d s) := by
  refine whenOn_next h fun _ hu => ?_
  split
  · exact hu
  · extract_lets _ _ s1 _ _ _ s3
    have h1 : s1.Wf := by
      unfold s1
      split
      · exact hu.passAdd _ _ _
      · exact hu
    have h3 : s3.Wf := by
      refine .ite ?_ (h1.setHalf _ _)
      split
      · exact (h1.setHalf _ _).passCount _ _
      · exact (h1.setHalf _ _)
    exact ((State.Wf.ite h3.others h3).setF notId _ _).releaseHalf _

theorem State.Wf.recsDone (h : s.Wf) (b : Bank) : (s.recsDone b).Wf := h.others

theorem execIntegrationBoundary_wf (h : s.Wf) : NextWf (execIntegrationBoundary s) := whenOn_next h fun _ hu => .ite ((hu.closeAt _ _).recordSend) hu

theorem State.Wf.recordPut (h : s.Wf) (b : Bank) (off : Nat) (bytes : List Byte) : (s.recordPut b off bytes).Wf :=
  .ite (h.ringPut _ _) (h.setReg notId _)

theorem State.Wf.drainWait (h : s.Wf) (b : Bank) : (s.drainWait b).Wf := h.setF notId _ _

theorem execBankClose_wf (h : s.Wf) : NextWf (execBankClose s) := by
  refine whenOn_next h fun _ hu => ?_
  split
  · exact hu
  · extract_lets _ _ _ s1
    have h1 : s1.Wf := ((hu.setBank _ _).setF notId _ _).setF notId _ _
    split
    · exact ((h1.drainWait _).setF notId _ _).setReg64 notId notId _
    · exact (h1.drainWait _)

theorem State.Wf.afterDrain (h : s.Wf) : s.afterDrain.Wf := .ite ((h.others.closeAt _ _).regrid _) (.ite (h.regrid _) (.ite (h.setF notId _ _) h))

theorem lostWrite_wf (h : s.Wf) (l : List (Bank × Bool)) : (lostWrite l s).Wf := by
  induction l generalizing s with
  | nil => exact h.others
  | cons r l ih =>
    unfold lostWrite
    split
    · exact ih ((((h.recordPut _ _ _).recsDone _).bump notId).seen notId _ _)
    · exact h.others

theorem State.Wf.lostFlush (h : s.Wf) : s.lostFlush.Wf := lostWrite_wf h _

theorem execDrainEnd_wf (h : s.Wf) : NextWf (execDrainEnd s) := by
  refine whenOn_next h fun u hu => ?_
  extract_lets s0
  have h0 : s0.lostFlush.Wf := State.Wf.lostFlush (.ite (hu.closeAt _ _) hu)
  split
  · dsimp only
    split
    · exact h0
    · exact ((((((h0.recordPut _ _ _).recsDone _).setBank _ _).setF notId _ _).setF notId _ _).setF notId _ _).afterDrain
  · exact h0

theorem execDrainRingSpace_wf (h : s.Wf) : NextWf (execDrainRingSpace s) := by
  refine whenOn_next h fun _ hu => ?_
  dsimp only
  split
  · exact hu.lostFlush.setF notId _ _
  · exact hu.lostFlush.drainWait _

theorem State.Wf.lostRecord (h : s.Wf) (c : Bool) (flags : Nat) : (s.lostRecord c flags).Wf := (h.others.setBank _ _).lostFlush

theorem State.Wf.computeLost (h : s.Wf) (flags : Nat) : (s.computeLost flags).Wf :=
  (State.Wf.ite (h.lostRecord _ _) h).andThen fun h1 =>
    ((((((State.Wf.ite (h1.lostRecord _ _) h1).others.setF notId _ _).setReg notId _).setF notId _ _).setF notId _ _).setF notId _ _).setF notId _ _

theorem State.Wf.resumeWait (h : s.Wf) (b : Nat) : (s.resumeWait b).Wf := .ite (h.others.setF notId _ _) h

theorem State.Wf.resumeDue (h : s.Wf) : s.resumeDue.Wf := by
  unfold State.resumeDue
  split
  · exact .ite h (.ite (h.others.setF notId _ _) h.others)
  · exact h

theorem State.Wf.integResume (h : s.Wf) (x0 flags : Nat) : (s.integResume x0 flags).Wf :=
  .ite ((((h.others.epochBound _ _).startIntegration _ _).regrid _).resumeWait _) h.others

theorem State.Wf.regionRegs (h : s.Wf) (d : SetDesc) : (s.regionRegs d).Wf := by
  refine h.foldl fun u i _ hu => ?_
  split
  · exact ((((hu.setReg notIdAt _).setReg notIdAt _).setReg notIdAt _).setReg notIdAt _).setReg notIdAt _
  · refine hu.clearRegs ?_
    simp only [List.forall_mem_cons]
    exact ⟨notIdAt, notIdAt, notIdAt, notIdAt, notIdAt, List.forall_mem_nil _⟩

theorem State.Wf.setConfig (h : s.Wf) (b : Nat) (d : SetDesc) : (s.setConfig b d).Wf :=
  (((((((((h.setF notId _ _).setF notId _ _).setF notId _ _).setF notId _ _).setReg notId _).setReg notId _).setReg notId _).regionRegs _).setF notId
    _ _).others

theorem State.Wf.stageFrom (ht : t.Wf) (s : State) (b : Nat) : (s.stageFrom t b).Wf := .ite ht.others ht.others

theorem State.Wf.endAt (h : s.Wf) (b : Nat) : (s.endAt b).Wf := by
  unfold State.endAt
  split
  · exact .ite (h.setBank _ _) (h.endIntegration _)
  · exact h

theorem State.Wf.applySet (h : s.Wf) (b : Nat) (d : SetDesc) : (s.applySet b d).Wf :=
  ((((State.Wf.epochBound (.ite (h.endAt _) h) _ _).setConfig _ _).stageFrom _ _).startIntegration _ _).regrid _

theorem State.Wf.applyStop (h : s.Wf) (b : Nat) : (s.applyStop b).Wf := by
  unfold State.applyStop
  extract_lets _ s2
  have h2 : s2.Wf := (((State.Wf.ite ((h.endAt _).epochBound _ _) h).setF notId _ _).setF notId _ _).regrid _
  exact .ite (h2.setF notId _ _) h2

theorem execIxStatus_wf (h : s.Wf) (c : Cmd) : NextWf (execIxStatus c s) := ⟨_, rfl, h.command _ _ _ fun _ hu => hu⟩

theorem execIxDumpRelease_wf (h : s.Wf) (c : Cmd) : NextWf (execIxDumpRelease c s) := ⟨_, rfl, h.command _ _ _ fun _ hu => hu.ringRelease _⟩

theorem execIxTileMap_wf (h : s.Wf) (c : Cmd) : NextWf (execIxTileMap c s) := ⟨_, rfl, h.command _ _ _ fun _ hu => hu⟩

theorem execIxDumpRing_wf (h : s.Wf) (c : Cmd) : NextWf (execIxDumpRing c s) :=
  ⟨_, rfl, h.command _ _ _ fun _ hu => CmdRes.Wf.ite trivial
    (CmdRes.Wf.ite trivial (((((hu.setReg64 notId notId _).setReg notId _).setReg notId _).setReg notId _).others))⟩

theorem execIxCntClrAll_wf (h : s.Wf) : NextWf (execIxCntClrAll s) := whenOn_next h fun _ hu => hu.clearCounters (notIds (by decide))

theorem execIxCntClrSat_wf (h : s.Wf) : NextWf (execIxCntClrSat s) :=
  whenOn_next h fun _ hu => hu.clearCounters (notIdMap fun _ => notIdAt)

/-! ### Ethernet ports -/

theorem State.Wf.setXoff (h : s.Wf) (n : Nat) (l : List Nat) : (s.setXoff n l).Wf := (h.setPort _ _).setF notIdAt _ _

theorem State.Wf.pfcCheck (h : s.Wf) (n cls : Nat) : (s.pfcCheck n cls).Wf := .ite ((h.setXoff _ _).txQueue _ _) h

theorem State.Wf.rxStore (h : s.Wf) (n : Nat) (f : RxFrame) : (s.rxStore n f).Wf :=
  .ite ((h.bump (not_idReg_rxDrop _ _)).seen notIdAt _ _) (((h.setPort _ _).pfcCheck _ _).stampRx _ _)

theorem execFrameReceive_wf (h : s.Wf) (n : Nat) (bytes : List Byte) (coding : Bool) : NextWf (execFrameReceive n bytes coding s) := by
  refine whenOn_next h fun u hu => ?_
  have hfcs := (hu.bump (o := ET_P_RX_FCS_ERR n) notIdAt).seen (o := ET_P_STAT n) notIdAt ET_P_STAT_FCS_SEEN evEthernet
  refine .ite hu (.ite hfcs (.ite (hu.bump notIdAt) (.ite (hu.bump notIdAt) (.ite hfcs ?_))))
  extract_lets s1 e
  have h1 : s1.Wf := (hu.bump64 notIdAt notIdAt2 _).bump64 notIdAt notIdAt2 _
  refine .ite (h1.bump notIdAt) ?_
  split
  · exact .ite (h1.setPort _ _) (h1.bump notIdAt)
  · exact h1.bump notIdAt
  · exact h1.bump notIdAt
  · exact h1.rxStore _ _

theorem State.Wf.rxTake (h : s.Wf) (n : Nat) (f : RxFrame) : (s.rxTake n f).Wf := h.setPort _ _

theorem execArpRequestReceived_wf (h : s.Wf) (n : Nat) : NextWf (execArpRequestReceived n s) := by
  refine whenOn_next h fun _ hu => ?_
  split
  · exact hu
  · exact (hu.rxTake _ _).txQueue _ _

theorem execPfcRefresh_wf (h : s.Wf) (n cls : Nat) : NextWf (execPfcRefresh n cls s) := whenOn_next h fun _ hu => .ite (hu.txQueue _ _) hu

theorem execPfcXon_wf (h : s.Wf) (n cls : Nat) : NextWf (execPfcXon n cls s) := whenOn_next h fun _ hu => .ite ((hu.setXoff _ _).txQueue _ _) hu

theorem State.Wf.pauseSet (h : s.Wf) (n q time : Nat) : (s.pauseSet n q time).Wf := (h.setPort _ _).setFB notIdAt _ _ _

theorem State.Wf.ctlTake (h : s.Wf) (n : Nat) (b : List Byte) : (s.ctlTake n b).Wf := h.setPort _ _

theorem execPauseFrameReceived_wf (h : s.Wf) (n : Nat) : NextWf (execPauseFrameReceived n s) := by
  refine whenOn_next h fun _ hu => ?_
  split
  · exact hu
  · exact ((hu.ctlTake _ _).bump notIdAt).andThen fun h1 => .ite (h1.bump notIdAt) ((h1.foldl fun _ _ _ hv => hv.pauseSet _ _ _).txStart _)

theorem execPfcFrameReceived_wf (h : s.Wf) (n : Nat) : NextWf (execPfcFrameReceived n s) := by
  refine whenOn_next h fun _ hu => ?_
  split
  · exact hu
  · exact ((hu.ctlTake _ _).bump notIdAt).andThen fun h1 => .ite (h1.bump notIdAt) ((h1.foldl fun _ _ _ hv => .ite (hv.pauseSet _ _ _) hv).txStart _)

theorem execPauseTimerExpire_wf (h : s.Wf) (n q : Nat) : NextWf (execPauseTimerExpire n q s) :=
  whenOn_next h fun _ hu => .ite ((hu.pauseSet _ _ _).txStart _) hu

theorem execC0SpacingRelease_wf (h : s.Wf) (n : Nat) : NextWf (execC0SpacingRelease n s) := by
  refine whenOn_next h fun _ hu => ?_
  refine .ite ?_ hu
  split
  · exact hu.setPort _ _
  · exact .ite hu ((hu.setPort _ _).txPut _ _)

theorem execFrameTransmitEnd_wf (h : s.Wf) (n : Nat) (late extra : Bool) : NextWf (execFrameTransmitEnd n late extra s) := by
  refine whenOn_next h fun _ hu => ?_
  split
  · exact hu
  · extract_lets _ s1 s2 s3 _ s5
    have h1 : s1.Wf := (((hu.setPort _ _).bump64 notIdAt notIdAt2 _).bump64 notIdAt notIdAt2 _).emit _
    have h2 : s2.Wf := .ite ((h1.bump notIdAt).seen notIdAt _ _) h1
    have h3 : s3.Wf := .ite (h2.bump notIdAt) h2
    have h5 : s5.Wf := by
      unfold s5
      split
      · exact (State.Wf.ite (h3.bump notIdAt) h3).ringSent _
      · exact (State.Wf.ite (h3.bump notIdAt) h3)
    exact h5.txStart _

theorem State.Wf.verifyStart (h : s.Wf) (n : Nat) : (s.verifyStart n).Wf := .ite ((h.setPort _ _).emit _) (h.setPort _ _)

theorem State.Wf.linkLost (h : s.Wf) (n cause : Nat) : (s.linkLost n cause).Wf :=
  ((((h.setPort _ _).setF notIdAt _ _).setF notIdAt _ _).seen notIdAt _ _).logEvent _ _ _

theorem execLinkUp_wf (h : s.Wf) (n : Nat) : NextWf (execLinkUp n s) :=
  whenOn_next h fun _ hu => .ite ((((hu.setPort _ _).setF notIdAt _ _).verifyStart _).txStart _) hu

theorem execLinkDown_wf (h : s.Wf) (n : Nat) : NextWf (execLinkDown n s) := whenOn_next h fun _ hu => .ite (hu.linkLost _ _) hu

theorem execPreemptVerifyRetry_wf (h : s.Wf) (n : Nat) : NextWf (execPreemptVerifyRetry n s) :=
  whenOn_next h fun _ hu => .ite ((hu.setPort _ _).emit _) hu

theorem execRespondMpacketReceived_wf (h : s.Wf) (n : Nat) : NextWf (execRespondMpacketReceived n s) :=
  whenOn_next h fun _ hu => .ite (((hu.setPort _ _).setF notIdAt _ _).txStart _) hu

theorem State.Wf.dumpPacket (h : s.Wf) (r : DumpRec) (o n : Nat) (resent : Bool) (rec : Option Nat) : (s.dumpPacket r o n resent rec).Wf :=
  (((h.drUes _ _).draw).setReg notId _).txQueue _ _

theorem State.Wf.dumpPackets (h : s.Wf) (r : DumpRec) (o n : Nat) (resent : Bool) : (s.dumpPackets r o n resent).Wf :=
  .ite h (h.foldl fun _ _ _ hu => hu.dumpPacket _ _ _ _ _)

theorem execDumpStreamSend_wf (h : s.Wf) : NextWf (execDumpStreamSend s) := by
  refine whenOn_next h fun _ hu => ?_
  refine .ite hu ?_
  split
  · exact hu
  · exact hu.others.dumpPackets _ _ _ _

theorem State.Wf.portConfig (h : s.Wf) (n : Nat) (ws : List Word) : (s.portConfig n ws).Wf :=
  ((h.configAll _).setXoff _ _).andThen fun h1 => .ite ((h1.setPort _ _).linkLost _ _) (.ite ((h1.setF notIdAt _ _).verifyStart _) h1)

theorem execEtPortConfig_wf (h : s.Wf) (c : Cmd) : NextWf (execEtPortConfig c s) :=
  ⟨_, rfl, h.command _ _ _ fun _ hu => CmdRes.Wf.ite trivial (CmdRes.Wf.ite trivial (hu.portConfig _ _))⟩

theorem execEtFilterSet_wf (h : s.Wf) (c : Cmd) : NextWf (execEtFilterSet c s) := ⟨_, rfl, h.command _ _ _ fun _ hu => (hu.configAll _).configAll _⟩

theorem execEtPortStatus_wf (h : s.Wf) (c : Cmd) : NextWf (execEtPortStatus c s) := ⟨_, rfl, h.command _ _ _ fun _ hu => hu⟩

theorem execEtDsConfig_wf (h : s.Wf) (c : Cmd) : NextWf (execEtDsConfig c s) := ⟨_, rfl, h.command _ _ _ fun _ hu => hu.configAll _⟩

theorem execEtDumpResend_wf (h : s.Wf) (c : Cmd) : NextWf (execEtDumpResend c s) := by
  refine ⟨_, rfl, ?_⟩
  refine h.command _ _ _ fun _ hu => ?_
  split
  · exact trivial
  · exact hu.dumpPackets _ _ _ _

theorem not_idReg_ctCounters : ∀ o ∈ ctCounters, ¬ idReg o := notIds (by decide)

theorem not_idReg_portRegs (n : Nat) : ∀ o ∈ portRegs n, ¬ idReg o := by
  unfold portRegs portPairs portCounters
  simp only [List.forall_mem_append, List.flatMap_cons, List.flatMap_nil, List.forall_mem_cons]
  exact ⟨⟨⟨notIdAt, notIdAt2, List.forall_mem_nil _⟩, ⟨notIdAt, notIdAt2, List.forall_mem_nil _⟩, ⟨notIdAt, notIdAt2, List.forall_mem_nil _⟩,
      ⟨notIdAt, notIdAt2, List.forall_mem_nil _⟩, List.forall_mem_nil _⟩,
    notIdAt, notIdAt, notIdAt, notIdAt, notIdAt, notIdAt, notIdAt, notIdAt, notIdAt, notIdAt, notIdAt, notIdAt, notIdAt, notIdAt, notIdAt,
    notIdAt, notIdAt, notIdAt, notIdAt, List.forall_mem_nil _⟩

theorem execEtCntClrAll_wf (h : s.Wf) : NextWf (execEtCntClrAll s) :=
  whenOn_next h fun _ hu => hu.clearCounters (List.forall_mem_append.2 ⟨not_idReg_ctCounters, notIdFlat not_idReg_portRegs⟩)

theorem execEtCntClrCt_wf (h : s.Wf) : NextWf (execEtCntClrCt s) := whenOn_next h fun _ hu => hu.clearCounters not_idReg_ctCounters

theorem execEtCntClrPorts_wf (h : s.Wf) (mask : Nat) : NextWf (execEtCntClrPorts mask s) :=
  whenOn_next h fun _ hu => hu.clearCounters (notIdFlat not_idReg_portRegs)

/-! ### Woad -/

theorem State.Wf.setBeam (h : s.Wf) (b : Nat) (x : BeamSt) : (s.setBeam b x).Wf := h.others

theorem State.Wf.closeVoltage (h : s.Wf) (c : WdCfg) (b : Nat) (ws : List Word) : (s.closeVoltage c b ws).Wf :=
  .ite h (.ite (h.setBeam _ _) (((h.setBeam _ _).bumpBy notId _ _).seen notId _ _))

theorem State.Wf.closePower (h : s.Wf) (c : WdCfg) (b : Nat) (ws : List Word) (stop : Nat) (cut : Bool) : (s.closePower c b ws stop cut).Wf :=
  .ite h (h.setBeam _ _)

theorem State.Wf.beamSend (h : s.Wf) (b : Nat) (p : BeamPkt) : (s.beamSend b p).Wf :=
  ((h.draw.txBeam _ _).setReg notIdAt _).andThen fun h1 => .ite h (.ite (h1.bump notId) h1)

theorem State.Wf.beamUpTo (h : s.Wf) (b x1 : Nat) : (s.beamUpTo b x1).Wf := (h.setBeam _ _).foldl fun _ _ _ hu => hu.beamSend _ _

theorem State.Wf.beamFlush (h : s.Wf) (b : Nat) : (s.beamFlush b).Wf := h.beamUpTo _ _

theorem execBeamPacketEmit_wf (h : s.Wf) (b : Nat) : NextWf (execBeamPacketEmit b s) := by
  refine whenOn_next h fun _ hu => ?_
  split
  · exact hu
  · dsimp only
    split
    · exact .ite (((hu.beamUpTo _ _).setBeam _ _).beamSend _ _) (hu.beamUpTo _ _)
    · exact (hu.beamUpTo _ _)

theorem execTotalPowerClose_wf (h : s.Wf) (b : Nat) : NextWf (execTotalPowerClose b s) := by
  refine whenOn_next h fun _ hu => ?_
  split
  · exact hu
  · dsimp only
    split
    · exact ((hu.beamUpTo _ _).setBeam _ _).beamSend _ _
    · exact (hu.beamUpTo _ _)

theorem State.Wf.closeBeams (h : s.Wf) (c : WdCfg) (at_ : Nat) (cut : Bool) : (s.closeBeams c at_ cut).Wf :=
  h.foldl fun _ _ _ hu => (hu.closeVoltage _ _ _).closePower _ _ _ _ _

theorem State.Wf.wdFresh (h : s.Wf) (old new : WdCfg) : (s.wdFresh old new).Wf := h.foldl fun _ _ _ hu => .ite (hu.setBeam _ _) hu

theorem State.Wf.wdReachCfg (h : s.Wf) (st : Nat) : (s.wdReachCfg st).Wf := h.foldl fun _ _ _ hu => (hu.closeBeams _ _ _).others.wdFresh _ _

theorem State.Wf.shedOver (h : s.Wf) : s.shedOver.Wf := (h.setF notId _ _).others

theorem State.Wf.wdReachSwap (h : s.Wf) (st : Nat) : (s.wdReachSwap st).Wf := h.others

theorem State.Wf.beamTake (h : s.Wf) (c : WdCfg) (x : StSpec) (dropped shed swap : Bool) (b : Nat × List Word) :
    (s.beamTake c x dropped shed swap b).Wf :=
  .ite (.ite h (.ite ((State.Wf.ite ((h.setBeam _ _).seen notId _ _) (h.setBeam _ _)).closeVoltage _ _ _)
    (State.Wf.ite ((h.setBeam _ _).seen notId _ _) (h.setBeam _ _))))
    (.ite ((State.Wf.ite ((h.setBeam _ _).seen notId _ _) (h.setBeam _ _)).closePower _ _ _ _ _)
    (State.Wf.ite ((h.setBeam _ _).seen notId _ _) (h.setBeam _ _)))

theorem State.Wf.wdSpectrum (h : s.Wf) (x : StSpec) (dropped : Bool) (shed : Nat) : (s.wdSpectrum x dropped shed).Wf := by
  refine .ite h ?_
  extract_lets _ _ _ s2
  have h2 : s2.Wf := (h.wdReachCfg _).foldl fun _ _ _ hu => hu.beamTake _ _ _ _ _ _
  exact ((h2.wdReachSwap _).others).andThen fun h1 => .ite ((h1.bump notId).seen notId _ _) h1

theorem State.Wf.wdDropped (h : s.Wf) (a : Nat) : (s.wdDropped a).Wf := h.foldl fun _ _ _ hu => .ite (hu.wdSpectrum _ _ _) hu

theorem State.Wf.shedBeam (h : s.Wf) (c : WdCfg) (a n : Nat) (b : Nat × List Word) : (s.shedBeam c a n b).Wf :=
  (((h.closeVoltage _ _ _).setBeam _ _).beamFlush _).others

theorem State.Wf.shedNew (h : s.Wf) (x0 : Half) (st : Nat) : (s.shedNew x0 st).Wf := (h.wdReachCfg _).others.foldl fun _ _ _ hu => hu.shedBeam _ _ _ _

theorem State.Wf.wdInPass (h : s.Wf) (x0 : Half) (x : StSpec) (dropped : Bool) : (s.wdInPass x0 x dropped).Wf :=
  (State.Wf.ite (h.shedNew _ _) h).wdSpectrum _ _ _

theorem State.Wf.wdForm (h : s.Wf) (x0 : Half) (n : Nat) : (s.wdForm x0 n).Wf :=
  ((h.wdDropped _).foldl fun _ _ _ hu => hu.wdInPass _ _ _).foldl fun _ _ _ hu => hu.wdInPass _ _ _

theorem State.Wf.wdResume (h : s.Wf) : s.wdResume.Wf := by
  unfold State.wdResume
  split
  · exact h
  · exact .ite h ((((h.closeBeams _ _ _).wdReachCfg _).foldl fun _ _ _ hu => (hu.setBeam _ _).beamFlush _).others)

theorem execWoadPassStart_wf (h : s.Wf) : NextWf (execWoadPassStart s) := by
  refine whenOn_next h fun _ hu => ?_
  refine .ite hu.wdResume ?_
  split
  · exact hu.wdResume
  · exact ((((hu.wdResume.wdDropped _).wdReachCfg _).shedOver.setHalf _ _).setF notId _ _).andThen fun h1 => .ite h1
      (((h1.foldl fun _ _ _ hv => hv.shedBeam _ _ _ _).bump notId).seen notId _ _)

theorem State.Wf.wdPassOver (h : s.Wf) (hb : Bool) (n : Nat) : (s.wdPassOver hb n).Wf := (((h.wdForm _ _).shedOver).setHalf _ _).releaseHalf _

theorem execWoadPassEnd_wf (h : s.Wf) : NextWf (execWoadPassEnd s) := by
  refine whenOn_next h fun _ hu => ?_
  split
  · exact hu
  · exact .ite (hu.wdPassOver _ _) hu

theorem execPassDeadline_wf (h : s.Wf) (x0 : Bool) : NextWf (execPassDeadline x0 s) :=
  whenOn_next h fun _ hu => .ite (hu.wdResume.draw.wdPassOver _ _) hu.wdResume

theorem execWoadResumeGap_wf (h : s.Wf) : NextWf (execWoadResumeGap s) := whenOn_next h fun _ hu => hu.wdResume

theorem State.Wf.polySet (h : s.Wf) (x0 first : Nat) (xs : List PolySlot) : (s.polySet x0 first xs).Wf := h.others

theorem execPolyTableCopyDone_wf (h : s.Wf) : NextWf (execPolyTableCopyDone s) :=
  whenOn_next h fun _ hu => .ite ((hu.polySet _ _ _).setF notId _ _) hu

theorem execWdPolyLoad_wf (h : s.Wf) (c : Cmd) : NextWf (execWdPolyLoad c s) :=
  ⟨_, rfl, h.command _ _ _ fun _ hu => CmdRes.Wf.ite trivial (CmdRes.Wf.ite trivial (hu.others.setF notId _ _))⟩

theorem execWdPolyLoadDone_wf (h : s.Wf) : NextWf (execWdPolyLoadDone s) := by
  refine whenOn_next h fun _ hu => ?_
  split
  · exact (hu.others.setF notId _ _).andThen fun h1 => .ite (((h1.drUes _ _).polySet _ _ _).final _ _ _) ((h1.drBad _ _).final _ _ _)
  · exact hu

theorem execWdPolyFetch_wf (h : s.Wf) (c : Cmd) : NextWf (execWdPolyFetch c s) :=
  ⟨_, rfl, h.command _ _ _ fun _ hu => CmdRes.Wf.ite trivial (hu.others.setF notId _ _)⟩

theorem execWdPolyFetchDone_wf (h : s.Wf) : NextWf (execWdPolyFetchDone s) := by
  refine whenOn_next h fun _ hu => ?_
  split
  · exact (((hu.polySet _ _ _).others).setF notId _ _).final _ _ _
  · exact hu

theorem execWdPolyStore_wf (h : s.Wf) (c : Cmd) : NextWf (execWdPolyStore c s) :=
  ⟨_, rfl, h.command _ _ _ fun _ hu => CmdRes.Wf.ite trivial hu.others⟩

theorem execWdPolyStoreDone_wf (h : s.Wf) : NextWf (execWdPolyStoreDone s) := by
  refine whenOn_next h fun _ hu => ?_
  split
  · exact hu.others.final _ _ _
  · exact hu

theorem State.Wf.applyPolySwap (h : s.Wf) (b : Nat) : (s.applyPolySwap b).Wf :=
  ((((h.setF notId _ _).setF notId _ _).setF notId _ _).setF notId _ _).others

theorem State.Wf.utilFollow (h : s.Wf) : s.utilFollow.Wf := .ite (((h.setReg notId _).setReg notId _).setReg notId _) (h.setReg notId _)

theorem State.Wf.wdWrite (h : s.Wf) (c : WdCfg) : (s.wdWrite c).Wf := by
  refine (((((h.setF notId _ _).setF notId _ _).setReg notId _).setReg64 notId notId _).setReg notId _).foldl fun _ _ _ hu => ?_
  split
  · exact (((((hu.setReg notIdAt _).setReg notIdAt _).setReg notIdAt _).setReg notIdAt _).setReg notIdAt _).setReg notIdAt _
  · exact hu.setF notIdAt _ _

theorem State.Wf.applyBeams (h : s.Wf) (b : Nat) (c : WdCfg) : (s.applyBeams b c).Wf := .ite (h.others.wdWrite _) ((h.others.wdFresh _ _).wdWrite _)

theorem execIxBudgetCheck_wf (h : s.Wf) (c : Cmd) : NextWf (execIxBudgetCheck c s) := by
  refine ⟨_, rfl, ?_⟩
  refine h.command _ _ _ fun _ hu => ?_
  split
  · exact trivial
  · exact hu

theorem execWdBudgetCheck_wf (h : s.Wf) (c : Cmd) : NextWf (execWdBudgetCheck c s) := by
  refine ⟨_, rfl, ?_⟩
  refine h.command _ _ _ fun _ hu => ?_
  split
  · exact trivial
  · exact hu

theorem execWdStatus_wf (h : s.Wf) (c : Cmd) : NextWf (execWdStatus c s) := ⟨_, rfl, h.command _ _ _ fun _ hu => hu⟩

theorem execWdCntClrAll_wf (h : s.Wf) : NextWf (execWdCntClrAll s) := whenOn_next h fun _ hu => hu.clearCounters (notIds (by decide))

/-! ### The corner turn -/

theorem State.Wf.ctSend (h : s.Wf) (m port : Nat) (body : List Byte) : (s.ctSend m port body).Wf :=
  .ite ((h.others.bump notId).seen notId _ _) ((h.others.txQueue _ _).bump64 notId notId _)

theorem State.Wf.ctData (h : s.Wf) (m b r : Nat) : (s.ctData m b r).Wf := by
  unfold State.ctData
  split
  · exact .ite h (.ite (h.ctSend _ _ _).others (h.ctSend _ _ _).others)
  · exact h

theorem State.Wf.ctRecords (h : s.Wf) (m : Nat) : (s.ctRecords m).Wf := by
  unfold State.ctRecords
  split
  · exact h
  · split
    · exact h
    · exact .ite h ((h.ctSend _ _ _).others)

theorem execCtBlockQueue_wf (h : s.Wf) (m b r : Nat) (rec : Bool) : NextWf (execCtBlockQueue m b r rec s) := by
  refine whenOn_next h fun _ hu => ?_
  split
  · exact hu
  · exact .ite hu (hu.ctUnder _ fun _ hv => .ite hv (.ite (hv.ctRecords _) (hv.ctData _ _ _)))

theorem State.Wf.ctSync (h : s.Wf) : s.ctSync.Wf := (h.setF notId _ _).setReg notId _

theorem State.Wf.setCtRx (h : s.Wf) (k : Nat) (x : CtStream) : (s.setCtRx k x).Wf := h.others.ctSync

theorem State.Wf.ctNak (h : s.Wf) (k : Nat) : (s.ctNak k).Wf := .ite h (((h.setCtRx _ _).txNak _ _).bump notId)

theorem State.Wf.ctPlace (h : s.Wf) (path chan st scale : Nat) (payload : List Byte) : (s.ctPlace path chan st scale payload).Wf :=
  .ite h (h.stageUpd _ _)

theorem State.Wf.ctTakeRecs (h : s.Wf) (n st : Nat) (payload : List Byte) : (s.ctTakeRecs n st payload).Wf := h.others

theorem State.Wf.ctEpoch (h : s.Wf) (m epoch : Nat) : (s.ctEpoch m epoch).Wf := .ite (h.others.foldl fun _ _ _ hu => hu.setCtRx _ _) h.others

theorem State.Wf.ctReorder (h : s.Wf) (k : Nat) : (s.ctReorder k).Wf := by
  unfold State.ctReorder
  dsimp only
  split
  · exact h
  · exact .ite (h.ctNak _) h

theorem State.Wf.ctLost (h : s.Wf) (n : Nat) : (s.ctLost n).Wf := .ite h ((h.bumpBy notId _ _).seen notId _ _)

theorem State.Wf.ctZero (h : s.Wf) (st : Nat) (lost : List (Nat × Nat)) (graced short : Bool) : (s.ctZero st lost graced short).Wf := by
  unfold State.ctZero
  split
  · exact h
  · exact (h.setHalf _ _).completeHalf _

theorem State.Wf.ctSettle (h : s.Wf) (st m n : Nat) : (s.ctSettle st m n).Wf := by
  have key : ∀ (l : List Nat) (a : Nat × State) (f : Nat × State → Nat → Nat × State), (∀ a k, a.2.Wf → (f a k).2.Wf) → a.2.Wf → (l.foldl f a).2.Wf :=
    fun l a f hf ha => List.foldlRecOn l f (motive := fun a => a.2.Wf) ha fun a ha k _ => hf a k ha
  unfold State.ctSettle
  extract_lets one r left
  have hr : r.2.Wf := key _ _ _ (fun a k ha => by
    unfold one
    dsimp only
    split
    · exact ha
    · exact ha.setCtRx _ _) h
  exact hr.others

theorem State.Wf.ctLose (h : s.Wf) (st : Nat) : (s.ctLose st).Wf := ((h.foldl fun _ _ _ hu => hu.ctSettle _ _ _).ctLost _).ctZero _ _ _ _

theorem State.Wf.ctBehind (h : s.Wf) (m st : Nat) (data : Bool) : (s.ctBehind m st data).Wf :=
  ((State.Wf.ite h.others h).foldl fun _ _ _ hu => hu.ctLose _).andThen fun h1 => .ite (h1.ctLose _) h1

theorem State.Wf.ctAccept (h : s.Wf) (b : List Byte) : (s.ctAccept b).Wf :=
  ((h.bump64 notId notId _).ctBehind _ _ _).andThen fun h1 => .ite (h1.ctTakeRecs _ _ _) (h1.ctPlace _ _ _ _ _)

theorem State.Wf.ctBlock (h : s.Wf) (n src : Nat) (b : List Byte) : (s.ctBlock n src b).Wf := by
  unfold State.ctBlock
  dsimp only
  split
  · exact (((h.ctEpoch _ _).others.setCtRx _ _).ctAccept _).ctReorder _
  · exact (((((h.ctEpoch _ _).others.setCtRx _ _).bump notId).seen notId _ _).ctAccept _).ctReorder _
  · exact (h.ctEpoch _ _).others.bump notId
  · exact (h.ctEpoch _ _).others.bump notId

theorem State.Wf.ctCrcFailed (h : s.Wf) (n src : Nat) (b : List Byte) : (s.ctCrcFailed n src b).Wf :=
  .ite (h.bump notId) (((h.bump notId).others.setCtRx _ _).ctReorder _)

theorem State.Wf.ctReceive (h : s.Wf) (n src : Nat) (b : List Byte) : (s.ctReceive n src b).Wf :=
  .ite h (.ite (h.ctCrcFailed _ _ _) (.ite (h.bump notId) (.ite (h.bump notId) (.ite ((h.bump notId).seen notId _ _) (h.ctBlock _ _ _)))))

theorem execCtBlockReceived_wf (h : s.Wf) (n : Nat) : NextWf (execCtBlockReceived n s) := by
  refine whenOn_next h fun _ hu => ?_
  split
  · exact hu
  · exact (hu.rxTake _ _).ctUnder _ fun _ hv => hv.ctReceive _ _ _

theorem State.Wf.ctNakDue (h : s.Wf) (m p : Nat) (again : Bool) : (s.ctNakDue m p again).Wf :=
  .ite h (h.foldl fun _ _ _ hu => hu.ctUnder _ fun _ hv => .ite (hv.ctNak _) hv)

theorem execNakDelayExpire_wf (h : s.Wf) (m p : Nat) : NextWf (execNakDelayExpire m p s) := whenOn_next h fun _ hu => hu.ctNakDue _ _ _

theorem execNakRetryExpire_wf (h : s.Wf) (m p : Nat) : NextWf (execNakRetryExpire m p s) := whenOn_next h fun _ hu => hu.ctNakDue _ _ _

theorem State.Wf.ctResend (h : s.Wf) (x : CtBlock) : (s.ctResend x).Wf :=
  .ite (((h.bump notId).bump notId).seen notId _ _) ((h.bump notId).txQueue _ _)

theorem State.Wf.ctAnswer (h : s.Wf) (n src : Nat) (b : List Byte) : (s.ctAnswer n src b).Wf :=
  ((h.bump notId).foldl fun _ _ _ hu => hu.ctResend _).andThen fun h1 => .ite h (.ite (h.bump notId) (.ite h1 ((h1.txNak _ _).bumpBy notId _ _)))

theorem execCtNakReceived_wf (h : s.Wf) (n : Nat) : NextWf (execCtNakReceived n s) := by
  refine whenOn_next h fun _ hu => ?_
  split
  · exact hu
  · exact (hu.rxTake _ _).ctUnder _ fun _ hv => hv.ctAnswer _ _ _

theorem execGraceExpire_wf (h : s.Wf) (st : Nat) : NextWf (execGraceExpire st s) := by
  refine whenOn_next h fun _ hu => ?_
  split <;> exact .ite (hu.ctLose _) hu

theorem State.Wf.ctGoneOne (h : s.Wf) (k q : Nat) : (s.ctGoneOne k q).Wf := by
  unfold State.ctGoneOne
  split
  · exact h
  · dsimp only
    split
    · exact ((h.setCtRx _ _).ctLost _).draw.ctZero _ _ _ _
    · exact ((h.setCtRx _ _).ctLost _).draw

theorem State.Wf.ctGone (h : s.Wf) (b : List Byte) : (s.ctGone b).Wf := .ite h (h.foldl fun _ _ _ hu => hu.ctGoneOne _ _)

theorem execCtGoneReceived_wf (h : s.Wf) (n : Nat) : NextWf (execCtGoneReceived n s) := by
  refine whenOn_next h fun _ hu => ?_
  split
  · exact hu
  · exact (hu.rxTake _ _).ctUnder _ fun _ hv => hv.ctGone _

theorem State.Wf.ctWrite (h : s.Wf) (c : Cmd) : (s.ctWrite c).Wf := h.configAll _

theorem State.Wf.ctKeep (h : s.Wf) (b : Nat) : (s.ctKeep b).Wf := h.others

theorem State.Wf.ctRestart (h : s.Wf) : s.ctRestart.Wf := h.others.ctSync

theorem State.Wf.applyCt (h : s.Wf) (b : Nat) (c : Cmd) : (s.applyCt b c).Wf := by
  unfold State.applyCt
  extract_lets s1
  have h1 : s1.Wf := (h.ctKeep _).ctWrite _
  exact .ite h1 (.ite (((((State.Wf.utilFollow (.ite h1 h1.ctRestart)).endAt _).setConfig _ _).stageFrom _ _).startIntegration _ _)
    (.ite (((State.Wf.utilFollow (.ite h1 h1.ctRestart)).setF notId _ _).stageFrom _ _) (State.Wf.utilFollow (.ite h1 h1.ctRestart))))

theorem execEtCtStatus_wf (h : s.Wf) (c : Cmd) : NextWf (execEtCtStatus c s) := ⟨_, rfl, h.command _ _ _ fun _ hu => hu⟩

/-! ### Madder programs -/

theorem State.Wf.scaleHand (h : s.Wf) (k n : Nat) : (s.scaleHand k n).Wf := .ite (h.scaleSpill _) (.ite (h.scaleFill _) h)

theorem State.Wf.startSlice (h : s.Wf) (k n st : Nat) : (s.startSlice k n st).Wf := by
  unfold State.startSlice
  extract_lets _ s1
  have h1 : s1.Wf := (((((h.scaleHand _ _).setSlice _ _).setF notIdAt _ _).setF notIdAt _ _).setReg64 notIdAt notIdAt2 _).applyDelays _
  exact .ite ((State.Wf.calSwap (.ite h1 (h1.scaleLost _)) _ _).epochStart _ _) (State.Wf.calSwap (.ite h1 (h1.scaleLost _)) _ _)

theorem State.Wf.restartSlice (h : s.Wf) (k : Nat) : (s.restartSlice k).Wf := .ite (((h.setSlice _ _).zeroSpectra _ _ _).startSlice _ _ _) h

theorem execSliceAutoRestart_wf (h : s.Wf) (k : Nat) : NextWf (execSliceAutoRestart k s) :=
  whenOn_next h fun _ hu => .ite ((hu.restartSlice _).setSlice _ _) hu

theorem State.Wf.setProg (h : s.Wf) (n : Nat) (x : ProgSlot) : (s.setProg n x).Wf := h.others.setFB notId _ _ _

theorem execMdProgStore_wf (h : s.Wf) (c : Cmd) : NextWf (execMdProgStore c s) := by
  refine ⟨_, rfl, ?_⟩
  refine h.command _ _ _ fun _ hu => ?_
  refine CmdRes.Wf.ite trivial ?_
  refine CmdRes.Wf.ite hu.others ?_
  dsimp only
  split
  · exact trivial
  · exact hu.others.setProg _ _

theorem execMdSliceStatus_wf (h : s.Wf) (c : Cmd) : NextWf (execMdSliceStatus c s) := ⟨_, rfl, h.command _ _ _ fun _ hu => hu⟩

theorem execMdSliceRestart_wf (h : s.Wf) (c : Cmd) : NextWf (execMdSliceRestart c s) := by
  refine ⟨_, rfl, ?_⟩
  refine h.command _ _ _ fun _ hu => ?_
  refine CmdRes.Wf.ite ?_ trivial
  split
  · exact trivial
  · exact hu.foldl fun _ _ _ hv => hv.restartSlice _

theorem execMdProgList_wf (h : s.Wf) (c : Cmd) : NextWf (execMdProgList c s) := ⟨_, rfl, h.command _ _ _ fun _ hu => hu⟩

theorem execMdProgErase_wf (h : s.Wf) (c : Cmd) : NextWf (execMdProgErase c s) :=
  ⟨_, rfl, h.command _ _ _ fun _ hu => CmdRes.Wf.ite trivial (hu.setProg _ _)⟩

theorem not_idReg_mdCounters (k : Nat) : ∀ o ∈ mdCounters k, ¬ idReg o := by
  unfold mdCounters
  simp only [List.forall_mem_cons]
  exact ⟨notIdAt, notIdAt, notIdAt, notIdAt, notIdAt, notIdAt, notIdAt, List.forall_mem_nil _⟩

theorem execMdCntClrAll_wf (h : s.Wf) : NextWf (execMdCntClrAll s) :=
  whenOn_next h fun _ hu => (hu.clearCounters (notIdFlat not_idReg_mdCounters)).foldl fun _ _ _ hv => (hv.setF notIdAt _ _).clearCount notIdAt _

theorem execMdCntClrSlice_wf (h : s.Wf) (k : Nat) : NextWf (execMdCntClrSlice k s) :=
  whenOn_next h fun _ hu => .ite ((hu.clearCounters (not_idReg_mdCounters k)).clearCount notIdAt _) hu

/-! ### Sensors and dies -/

theorem State.Wf.setSensor (h : s.Wf) (n : Nat) (x : Sensor) : (s.setSensor n x).Wf := h.others

theorem State.Wf.sensFresh (h : s.Wf) (d : Nat) : (s.sensFresh d).Wf := h.foldl fun _ _ _ hu => (hu.setSensor _ _).setReg notIdAt _

theorem State.Wf.kwSync (h : s.Wf) : s.kwSync.Wf := h.setF notId _ _

theorem State.Wf.dieUp (h : s.Wf) (d : Nat) : (s.dieUp d).Wf := ((h.sensFresh _).setF notId _ _).others

theorem State.Wf.compUp (h : s.Wf) : s.compUp.Wf := (((h.dieUp _).dieUp _).setF notId _ _).others

theorem State.Wf.compDown (h : s.Wf) : s.compDown.Wf := (((h.sensFresh _).sensFresh _).setF notId _ _).others

/-! ### Saffron and Umber -/

theorem execTrainingEnd_wf (h : s.Wf) (x0 : Nat) : NextWf (execTrainingEnd x0 s) :=
  whenOn_next h fun _ hu => .ite ((hu.setTb _ _).setF notIdAt _ _) hu

theorem execHitHoldExpire_wf (h : s.Wf) (c p : Nat) : NextWf (execHitHoldExpire c p s) := whenOn_next h fun _ hu => .ite hu.others hu

theorem execTrigPulseEnd_wf (h : s.Wf) (o : Nat) : NextWf (execTrigPulseEnd o s) :=
  whenOn_next h fun _ hu => .ite (((hu.setFB notId _ _ _).others).pinsOut _) hu

theorem execTriginEdge_wf (h : s.Wf) (i : Nat) (asserted : Bool) (sub : Nat) : NextWf (execTriginEdge i asserted sub s) := by
  refine whenOn_next h fun u hu => .ite hu (.ite hu.others ?_)
  extract_lets _ s2 _ s3
  have h2 : s2.Wf := (hu.others.setReg64 notIdAt notIdAt2 _).setF notId _ _
  have h3 : s3.Wf := .ite (h2.freeze _) h2
  exact .ite (h3.msgEvent _) h3

theorem execMessageSpanEnd_wf (h : s.Wf) : NextWf (execMessageSpanEnd s) := by
  refine whenOn_next h fun _ hu => ?_
  refine .ite hu ?_
  split
  · exact hu.others
  · exact .ite hu.others.others (((hu.others.bump notId).seen notId _ _).trigSend _)

theorem State.Wf.msgReady (h : s.Wf) (q : Nat) (unchecked : Bool) : (s.msgReady q unchecked).Wf := h.trigFlush _

theorem execMessageCheckDone_wf (h : s.Wf) (q : Nat) : NextWf (execMessageCheckDone q s) := whenOn_next h fun _ hu => .ite (hu.msgReady _ _) hu

theorem execMessageCheckTimeout_wf (h : s.Wf) (q : Nat) : NextWf (execMessageCheckTimeout q s) := whenOn_next h fun _ hu => .ite (hu.msgReady _ _) hu

theorem State.Wf.ubFreezeEnd (h : s.Wf) (x : Slab) : (s.ubFreezeEnd x).Wf := .ite h.ubFrozenNow h

theorem State.Wf.slabWrite (h : s.Wf) (x : Slab) : (s.slabWrite x).Wf :=
  ((((State.Wf.ite ((h.bump notId).seen notId _ _) (h.drStore _ _)).drStore _ _).setReg notId _).setReg notId _).others.ubFreezeEnd _

theorem execUmberSlabWrite_wf (h : s.Wf) : NextWf (execUmberSlabWrite s) := by
  refine whenOn_next h fun _ hu => ?_
  split
  · exact hu
  · exact .ite ((hu.others.slabWrite _).ubTurns) hu

theorem State.Wf.rearm (h : s.Wf) : s.rearm.Wf := by
  unfold State.rearm
  extract_lets _ s1
  have h1 : s1.Wf := by
    unfold s1
    split
    · exact ((h.ubWrite _).others).setReg notId _
    · exact h.setReg notId _
  exact (((h1.setReg notId _).ubGen).setF notId _ _).andThen fun h1 => .ite ((h1.setF notId _ _).others) h1.ubStop

theorem execSfUbArm_wf (h : s.Wf) (v : Word) : NextWf (execSfUbArm v s) := whenOn_next h fun _ hu => .ite hu.rearm hu

theorem State.Wf.ubLenWrite (h : s.Wf) (r : Requester) (v : Word) : (s.ubLenWrite r v).Wf := .ite (h.ubCommit _ _ _) (h.violation _ _ _ _)

theorem execSfUbLenWrite_wf (h : s.Wf) (r : Requester) (v : Word) : NextWf (execSfUbLenWrite r v s) := whenOn_next h fun _ hu => hu.ubLenWrite _ _

theorem State.Wf.applyTrig (h : s.Wf) (b : Nat) (c : Cmd) : (s.applyTrig b c).Wf := h.others

theorem execSfTbpLoad_wf (h : s.Wf) (c : Cmd) : NextWf (execSfTbpLoad c s) :=
  ⟨_, rfl, h.command _ _ _ fun _ hu => CmdRes.Wf.ite trivial (hu.configAll _)⟩

theorem execSfStatus_wf (h : s.Wf) (c : Cmd) : NextWf (execSfStatus c s) := ⟨_, rfl, h.command _ _ _ fun _ hu => hu⟩

theorem execSfUbRearm_wf (h : s.Wf) (c : Cmd) : NextWf (execSfUbRearm c s) := ⟨_, rfl, h.command _ _ _ fun _ hu => CmdRes.Wf.ite hu.rearm trivial⟩

theorem execSfUbStatus_wf (h : s.Wf) (c : Cmd) : NextWf (execSfUbStatus c s) := ⟨_, rfl, h.command _ _ _ fun _ hu => hu⟩

theorem execSfCntClrAll_wf (h : s.Wf) : NextWf (execSfCntClrAll s) := by
  refine whenOn_next h fun _ hu => hu.clearCounters ?_
  unfold sfCounters
  exact List.forall_mem_append.2 ⟨List.forall_mem_append.2 ⟨notIds (by decide), notIdMap fun _ => notIdAt⟩, notIdMap fun _ => notIdAt⟩

/-! ### The timing core -/

theorem State.Wf.setSource (h : s.Wf) (k : Nat) (x : SrcSt) : (s.setSource k x).Wf := h.others

theorem State.Wf.enterQ (h : s.Wf) (k q left : Nat) : (s.enterQ k q left).Wf := (h.setF notIdAt _ _).setF notIdAt _ _

theorem State.Wf.hardFail (h : s.Wf) (k : Nat) : (s.hardFail k).Wf :=
  ((h.setSource _ _).enterQ _ _ _).andThen fun h1 => .ite h (.ite h1 ((h1.bump notIdAt).seen notIdAt _ _))

theorem State.Wf.softAlarm (h : s.Wf) (k : Nat) : (s.softAlarm k).Wf := by
  unfold State.softAlarm
  extract_lets _ s1
  have h1 : s1.Wf := ((h.setSource _ _).enterQ _ _ _).seen notIdAt _ _
  exact .ite (h1.seen notId _ _) h1

theorem State.Wf.qualified (h : s.Wf) (k : Nat) : (s.qualified k).Wf := (h.enterQ _ _ _).others

theorem State.Wf.showSource (h : s.Wf) (k : Nat) : (s.showSource k).Wf := ((h.setReg notIdAt _).setF notIdAt _ _).setF notIdAt _ _

theorem State.Wf.showChecks (h : s.Wf) (k : Nat) (c : Checks) : (s.showChecks k c).Wf :=
  ((((h.setF notIdAt _ _).setF notIdAt _ _).setF notIdAt _ _).setF notIdAt _ _).setF notIdAt _ _

theorem State.Wf.leftDown (h : s.Wf) (k : Nat) : (s.leftDown k).Wf := h.setF notIdAt _ _

theorem State.Wf.softGate (h : s.Wf) (k : Nat) : (s.softGate k).Wf := .ite ((h.setSource _ _).qualified _) ((h.setSource _ _).leftDown _)

theorem State.Wf.qualify (h : s.Wf) (k : Nat) (c : Checks) : (s.qualify k c).Wf := by
  refine .ite (h.hardFail _) ?_
  extract_lets _ _ s1
  have h1 : s1.Wf := .ite (h.setSource _ _) h
  exact .ite (.ite (h1.leftDown _) (h1.setF notIdAt _ _))
    (.ite (.ite (h1.softAlarm _) h1) (.ite (h1.softGate _) (.ite (.ite (h1.leftDown _) (h1.hardFail _)) h1)))

theorem State.Wf.idleGate (h : s.Wf) (k : Nat) : (s.idleGate k).Wf := .ite ((h.showChecks _ _).hardFail _) (h.showChecks _ _)

theorem State.Wf.sourceGate (h : s.Wf) (k : Nat) (off : Int) : (s.sourceGate k off).Wf :=
  .ite (h.setSource _ _) (.ite ((h.setSource _ _).idleGate _) ((((h.setSource _ _).showSource _).showChecks _ _).qualify _ _))

theorem State.Wf.untrain (h : s.Wf) : s.untrain.Wf := (h.others.setF notId _ _).setF notId _ _

theorem State.Wf.noSource (h : s.Wf) : s.noSource.Wf := by
  unfold State.noSource
  extract_lets s1
  have h1 : s1.Wf := ((h.setF notId _ _).setF notId _ _).setF notId _ _
  exact .ite (((h1.others.untrain.setF notId _ _).setReg notId _).seen notId _ _) (((h1.others.untrain.setF notId _ _).setReg notId _).seen notId _ _)

theorem State.Wf.switchTo (h : s.Wf) (k : Nat) : (s.switchTo k).Wf := by
  unfold State.switchTo
  extract_lets _ _ s2
  have h2 : s2.Wf := (((h.others.setF notId _ _).setF notId _ _).setF notId _ _).setReg notId _
  exact .ite h2 (h2.setF notId _ _)

theorem State.Wf.goTo (h : s.Wf) (x0 : Option Nat) : (s.goTo x0).Wf := by
  unfold State.goTo
  split
  · exact h.switchTo _
  · exact h.noSource

theorem State.Wf.reselect (h : s.Wf) : s.reselect.Wf := by
  refine .ite (.ite (h.setF notId _ _) (h.goTo _)) ?_
  refine .ite (.ite h (h.goTo _)) ?_
  split
  · exact h.switchTo _
  · exact h

theorem State.Wf.steer (h : s.Wf) : s.steer.Wf := .ite h (.ite (h.setF notId _ _).others ((h.setF notId _ _).others.seen notId _ _))

theorem State.Wf.tmChange (h : s.Wf) : s.tmChange.Wf := ((h.reselect.setF notId _ _).steer).others

theorem State.Wf.trainGate (h : s.Wf) (base : Int) : (s.trainGate base).Wf :=
  (h.others.setF notId _ _).andThen fun h1 => .ite ((h1.setF notId _ _).setF notId _ _) h1

theorem State.Wf.holdGate (h : s.Wf) : s.holdGate.Wf := (h.others.setReg notId _).andThen fun h1 => .ite ((h1.seen notId _ _).logEvent _ _ _) h1

theorem State.Wf.sourceFollow (h : s.Wf) (t : State) (k : Nat) : (s.sourceFollow t k).Wf :=
  (((h.setSource _ _).showSource _).setReg notIdAt _).andThen fun h1 => .ite h1 (.ite (h1.setF notIdAt _ _) h)

theorem State.Wf.applySource (h : s.Wf) (k : Nat) (ws : List Word) : (s.applySource k ws).Wf := (h.configAll _).sourceFollow _ _

theorem State.Wf.applySources (h : s.Wf) : s.applySources.Wf := (h.foldl fun _ _ _ hu => hu.applySource _ _).others

theorem State.Wf.switchGate (h : s.Wf) (phase ferr : Int) : (s.switchGate phase ferr).Wf := .ite h.others h

theorem State.Wf.gateBegin (h : s.Wf) : s.gateBegin.Wf := (h.foldl fun _ _ _ hu => hu.setDom _ _).others

theorem State.Wf.gate (h : s.Wf) (offs : List Int) (base phase ferr : Int) : (s.gate offs base phase ferr).Wf := by
  unfold State.gate
  extract_lets _ _ _ s3
  have h3 : s3.Wf := ((h.applySources.foldl fun _ _ _ hu => hu.sourceGate _ _).gateBegin).others.switchGate _ _
  exact (State.Wf.ite (h3.trainGate _) h3).andThen fun h1 => (State.Wf.ite h1.holdGate h1).others.tmChange.others

theorem State.Wf.gridMove (h : s.Wf) (move : Int) : (s.gridMove move).Wf := h.foldl fun _ _ _ hu => hu.setSource _ _

theorem execGateClose_wf (h : s.Wf) (offs : List Int) (base phase ferr : Int) : NextWf (execGateClose offs base phase ferr s) :=
  whenOn_next h fun _ hu => .ite (hu.gate _ _ _ _) hu

theorem execQualCountReached_wf (h : s.Wf) (k : Nat) : NextWf (execQualCountReached k s) :=
  whenOn_next h fun _ hu => .ite hu (.ite ((hu.qualified _).tmChange) (.ite ((hu.enterQ _ _ _).tmChange) hu))

theorem execPersistExpire_wf (h : s.Wf) (k : Nat) : NextWf (execPersistExpire k s) := whenOn_next h fun _ hu => .ite ((hu.hardFail _).tmChange) hu

theorem execWtrExpire_wf (h : s.Wf) (k : Nat) : NextWf (execWtrExpire k s) := whenOn_next h fun _ hu => .ite ((hu.qualified _).tmChange) hu

theorem State.Wf.signalLost (h : s.Wf) (k : Nat) (f : Fld) : (s.signalLost k f).Wf :=
  ((((h.setSource _ _).showSource _).setF notIdAt _ _).hardFail _).tmChange

theorem execRefClockLoss_wf (h : s.Wf) (k : Nat) : NextWf (execRefClockLoss k s) :=
  whenOn_next h fun _ hu => .ite ((hu.setSource _ _).signalLost _ _) hu

theorem execPpsLoss_wf (h : s.Wf) (k : Nat) : NextWf (execPpsLoss k s) := whenOn_next h fun _ hu => .ite (hu.signalLost _ _) hu

theorem execSourceSignalPresent_wf (h : s.Wf) (k : Nat) : NextWf (execSourceSignalPresent k s) :=
  whenOn_next h fun _ hu => ((hu.setSource _ _).setF notIdAt _ _).andThen fun h1 => .ite hu (.ite ((h1.enterQ _ _ _).tmChange) h1)

theorem execCoarseFreqDone_wf (h : s.Wf) (k : Nat) (off : Int) : NextWf (execCoarseFreqDone k off s) :=
  whenOn_next h fun _ hu => .ite ((hu.setSource _ _).tmChange) hu

theorem State.Wf.phaseStep (h : s.Wf) (move : Int) : (s.phaseStep move).Wf := (h.gridMove _).others

theorem execInitialLockDone_wf (h : s.Wf) (offs : List Int) (base phase ferr move : Int) : NextWf (execInitialLockDone offs base phase ferr move s) :=
  whenOn_next h fun _ hu => (State.Wf.ite hu ((hu.gate _ _ _ _).phaseStep _)).andThen fun h1 => .ite
    (.ite ((((h1.setF notId _ _).setF notId _ _).setF notId _ _).tmChange) h1) hu

theorem execSwitchLocked_wf (h : s.Wf) : NextWf (execSwitchLocked s) :=
  whenOn_next h fun _ hu => .ite ((((hu.setF notId _ _).setF notId _ _).bump notId).tmChange) hu

theorem State.Wf.measureDelta (h : s.Wf) (k : Nat) (pos : Int) : (s.measureDelta k pos).Wf := .ite (h.others.setF notId _ _) h

theorem State.Wf.epoch2At (h : s.Wf) : OptWf s.epoch2At :=
  .ite (.some h) (.ite (.some (h.others.setReg64 notId notId _)) .none)

theorem State.Wf.epochEdge (h : s.Wf) (pos : Int) (phase : Nat) : (s.epochEdge pos phase).Wf := by
  refine .ite ?_ h
  split
  next s1 hs => exact (h.epoch2At s1 hs).others
  · exact h

theorem execPpsEdge_wf (h : s.Wf) (k : Nat) (pos : Int) (phase : Nat) : NextWf (execPpsEdge k pos phase s) :=
  whenOn_next h fun _ hu => ((hu.setSource _ _).setF notIdAt _ _).andThen fun h1 => .ite hu
    (.ite h1 (((State.Wf.ite (h1.setReg64 notId notId _) h1).measureDelta _ _).epochEdge _ _))

theorem execMissedPps_wf (h : s.Wf) : NextWf (execMissedPps s) := whenOn_next h fun _ hu => .ite (hu.seen notId _ _) hu

theorem State.Wf.ckChange (h : s.Wf) (n : Nat) : (s.ckChange n).Wf := h.others

theorem execClkoutStart_wf (h : s.Wf) (n : Nat) : NextWf (execClkoutStart n s) := whenOn_next h fun _ hu => .ite hu.others hu

theorem execFramePulseStart_wf (h : s.Wf) (n : Nat) : NextWf (execFramePulseStart n s) := whenOn_next h fun _ hu => .ite hu.others hu

theorem execFramePulseEnd_wf (h : s.Wf) (n : Nat) : NextWf (execFramePulseEnd n s) := whenOn_next h fun _ hu => .ite hu.others hu

theorem State.Wf.ptpTake {act : State → Nat → RxFrame → State} (h : s.Wf) (n : Nat) (p : Nat → Bool)
    (hact : ∀ (u : State) (a1 : Nat) (a2 : RxFrame), u.Wf → (act u a1 a2).Wf) : (s.ptpTake n p act).Wf := by
  unfold State.ptpTake
  split
  · exact h
  · exact (h.rxTake _ _).foldl fun _ _ _ hu => hact _ _ _ hu

theorem State.Wf.ptpSync (h : s.Wf) (n d : Nat) (f : RxFrame) : (s.ptpSync n d f).Wf := .ite h (h.setDom _ _)

theorem execPtpSyncReceived_wf (h : s.Wf) (n : Nat) : NextWf (execPtpSyncReceived n s) :=
  whenOn_next h fun _ hu => hu.ptpTake _ _ fun _ _ _ hv => hv.ptpSync _ _ _

theorem State.Wf.ptpFollow (h : s.Wf) (d : Nat) (b : List Byte) : (s.ptpFollow d b).Wf := .ite (h.setDom _ _) h

theorem execPtpFollowUpReceived_wf (h : s.Wf) (n : Nat) : NextWf (execPtpFollowUpReceived n s) :=
  whenOn_next h fun _ hu => hu.ptpTake _ _ fun _ _ _ hv => hv.ptpFollow _ _

theorem State.Wf.ptpStepBy (h : s.Wf) (ns : Int) : (s.ptpStepBy ns).Wf := h.others.foldl fun _ _ _ hu => .ite (hu.setDom _ _) hu

theorem State.Wf.ptpFilter (h : s.Wf) (d : Nat) : (s.ptpFilter d).Wf := (h.setDom _ _).draw

theorem State.Wf.ptpServo (h : s.Wf) : s.ptpServo.Wf := h.others.draw

theorem State.Wf.ptpOffset (h : s.Wf) (d : Nat) (o : Int) : (s.ptpOffset d o).Wf := by
  unfold State.ptpOffset
  extract_lets _ s1
  have h1 : s1.Wf := (h.setDom _ _).ptpFilter _
  exact .ite ((h1.ptpStepBy _).setF notId _ _) (.ite ((State.Wf.ite (h1.setF notId _ _) h1).ptpServo) h1)

theorem State.Wf.ptpResp (h : s.Wf) (d : Nat) (b : List Byte) : (s.ptpResp d b).Wf := by
  unfold State.ptpResp
  dsimp only
  split
  · exact .ite (h.ptpOffset _ _) h
  · exact h

theorem execPtpDelayRespReceived_wf (h : s.Wf) (n : Nat) : NextWf (execPtpDelayRespReceived n s) :=
  whenOn_next h fun _ hu => (hu.ptpTake _ _ fun _ _ _ hv => hv.ptpResp _ _).steer

theorem State.Wf.ptpAnnounce (h : s.Wf) (d : Nat) (b : List Byte) : (s.ptpAnnounce d b).Wf := h.setDom _ _

theorem execPtpAnnounceReceived_wf (h : s.Wf) (n : Nat) : NextWf (execPtpAnnounceReceived n s) :=
  whenOn_next h fun _ hu => hu.ptpTake _ _ fun _ _ _ hv => hv.ptpAnnounce _ _

theorem execPtpOtherDiscard_wf (h : s.Wf) (n : Nat) : NextWf (execPtpOtherDiscard n s) := whenOn_next h fun _ hu => hu.ptpTake _ _ fun _ _ _ hv => hv

theorem execPtpLoss_wf (h : s.Wf) (d : Nat) (announce : Bool) : NextWf (execPtpLoss d announce s) :=
  whenOn_next h fun _ hu => (State.Wf.ite (hu.setDom _ _) hu).andThen fun h1 => .ite (.ite h1 ((h1.setSource _ _).signalLost _ _)) hu

theorem execPtpDelayReqSend_wf (h : s.Wf) (d : Nat) : NextWf (execPtpDelayReqSend d s) :=
  whenOn_next h fun _ hu => .ite (((hu.setDom _ _).draw).txQueue _ _) hu

theorem execPtpLargeOffset_wf (h : s.Wf) : NextWf (execPtpLargeOffset s) := whenOn_next h fun _ hu => .ite (hu.setF notId _ _) hu

theorem execPtpSecondSnapshot_wf (h : s.Wf) : NextWf (execPtpSecondSnapshot s) :=
  whenOn_next h fun _ hu => .ite ((hu.setReg64 notId notId _).setReg notId _) hu

theorem execPtpSnapSecLoRead_wf (h : s.Wf) (r : Requester) : NextWf (execPtpSnapSecLoRead r s) := whenOn_next h fun _ hu => hu.pairLoRead _ _

theorem execTmSrcConfig_wf (h : s.Wf) (c : Cmd) : NextWf (execTmSrcConfig c s) :=
  ⟨_, rfl, h.command _ _ _ fun _ hu => CmdRes.Wf.ite trivial hu.others⟩

theorem execTmRefSelect_wf (h : s.Wf) (c : Cmd) : NextWf (execTmRefSelect c s) := ⟨_, rfl, h.command _ _ _ fun _ hu => hu.config _ _⟩

theorem execTmHoConfig_wf (h : s.Wf) (c : Cmd) : NextWf (execTmHoConfig c s) :=
  ⟨_, rfl, h.command _ _ _ fun _ hu => CmdRes.Wf.ite trivial (State.Wf.ite (hu.configAll _).untrain (hu.configAll _))⟩

theorem State.Wf.outputsFollow (h : s.Wf) (old : Nat → Word) : (s.outputsFollow old).Wf :=
  h.foldl fun _ _ _ hu => .ite (State.Wf.ite hu (hu.ckChange _)) (State.Wf.ite hu (hu.ckChange _)).others

theorem execTmOutConfig_wf (h : s.Wf) (c : Cmd) : NextWf (execTmOutConfig c s) :=
  ⟨_, rfl, h.command _ _ _ fun _ hu => (hu.configAll _).outputsFollow _⟩

theorem State.Wf.armLoad (h : s.Wf) (load sec : Nat) (fromPtp : Bool) : (s.armLoad load sec fromPtp).Wf :=
  ((h.others.setReg64 notId notId _).setF notId _ _).andThen fun h1 => .ite h1 (h1.setF notId _ _)

theorem execTmEpochLoad_wf (h : s.Wf) (c : Cmd) : NextWf (execTmEpochLoad c s) :=
  ⟨_, rfl, h.command _ _ _ fun _ hu => CmdRes.Wf.ite trivial (hu.armLoad _ _ _)⟩

theorem State.Wf.applyTaiMap (h : s.Wf) (c : Cmd) : (s.applyTaiMap c).Wf := (h.setReg64 notId notId _).setReg64 notId notId _

theorem State.Wf.applyPtpStep (h : s.Wf) (c : Cmd) : (s.applyPtpStep c).Wf := ((h.ptpStepBy _).seen notId _ _).logEvent _ _ _

theorem State.Wf.domRestart (h : s.Wf) (d : Nat) (asym : Int) : (s.domRestart d asym).Wf :=
  ((((h.setDom _ _).setSource _ _).showSource _).setReg notIdAt _).andThen fun h1 => .ite h1 (h1.setF notIdAt _ _)

theorem execTmPtpConfig_wf (h : s.Wf) (c : Cmd) : NextWf (execTmPtpConfig c s) :=
  ⟨_, rfl, h.command _ _ _ fun _ hu => CmdRes.Wf.ite trivial (((hu.config _ _).foldl fun _ _ _ hv => hv.domRestart _ _).tmChange)⟩

theorem execTmStatus_wf (h : s.Wf) (c : Cmd) : NextWf (execTmStatus c s) := ⟨_, rfl, h.command _ _ _ fun _ hu => hu⟩

theorem execTmPtpTsRead_wf (h : s.Wf) (c : Cmd) : NextWf (execTmPtpTsRead c s) := ⟨_, rfl, h.command _ _ _ fun _ hu => hu⟩

theorem execTmCntClrAll_wf (h : s.Wf) : NextWf (execTmCntClrAll s) :=
  whenOn_next h fun _ hu => hu.clearCounters (List.forall_mem_cons.2 ⟨notId, notIdMap fun _ => notIdAt⟩)

/-! ### Roles of a pair -/

theorem State.Wf.setRole (h : s.Wf) (r : Nat) : (s.setRole r).Wf := h.setF notId _ _

theorem State.Wf.umberFollow (h : s.Wf) (old : List Word) : (s.umberFollow old).Wf :=
  ((h.setF notId _ _).ubStop).andThen fun h1 => .ite h (.ite (h1.others.ubStart _) h1.others)

theorem State.Wf.timingFollow (h : s.Wf) (t : State) : (s.timingFollow t).Wf := by
  unfold State.timingFollow
  extract_lets _ _ _ s2
  have h2 : s2.Wf := (h.foldl fun _ _ _ hu => hu.sourceFollow _ _).foldl fun _ _ _ hu => hu.domRestart _ _
  exact ((State.Wf.ite h2 h2.untrain).outputsFollow _).andThen fun h1 => .ite h1 h1.tmChange

/-- Nothing that identifies the device is taken from a checkpoint. -/
theorem ckptTakes_idReg {o : Nat} (ho : idReg o) : ckptTakes o = false := by
  rcases ho with rfl | rfl | rfl <;> decide

theorem tblWf_takeReg (ck t : Tbl Word) (off : Nat) (ht : tblWf 0 t = true) : tblWf 0 (takeReg ck t off) = true := by
  unfold takeReg
  split
  · exact ht
  · split
    · exact tblWf_set _ _ _ _ ht
    · split
      · exact tblWf_set _ _ _ _ ht
      · exact ht

theorem tblGet_takeReg_idReg (ck t : Tbl Word) (off : Nat) {o : Nat} (ho : idReg o) : tblGet 0 (takeReg ck t off) o = tblGet 0 t o := by
  unfold takeReg
  split
  · rfl
  next hoff =>
    have hne : o ≠ off := by
      rintro rfl
      simp [ckptTakes_idReg ho] at hoff
    split
    · exact tblGet_set_ne _ _ _ hne
    · split
      · exact tblGet_set_ne _ _ _ hne
      · rfl

theorem State.Wf.ckptLight (h : s.Wf) (c : Ckpt) : (s.ckptLight c).Wf := by
  have hw : ∀ l : List Nat, tblWf 0 (l.foldl (takeReg c.regs) s.regs) = true := fun l =>
    List.foldlRecOn l _ (motive := fun t => tblWf 0 t = true) h.regs fun t ht o _ => tblWf_takeReg _ t o ht
  have hg : ∀ (l : List Nat) (o : Nat), idReg o → tblGet 0 (l.foldl (takeReg c.regs) s.regs) o = s.reg o := fun l o ho =>
    List.foldlRecOn l _ (motive := fun t => tblGet 0 t o = s.reg o) rfl fun t ht a _ => (tblGet_takeReg_idReg _ t a ho).trans ht
  refine State.Wf.timingFollow (State.Wf.umberFollow (State.Wf.foldl (h.withRegs (hw _) (hg _)).others fun u t _ hu => ?_) _) _
  exact .ite (hu.train t) hu

theorem State.Wf.ckptTables (h : s.Wf) (c : Ckpt) : (s.ckptTables c).Wf := (h.foldl fun _ _ _ hu => hu.setSlice _ _).others

theorem State.Wf.openFrom (h : s.Wf) (b flags : Nat) : (s.openFrom b flags).Wf :=
  .ite ((((h.epochBound _ _).startIntegration _ _).setReg64 notId notId _).regrid _) h

theorem State.Wf.slicesFrom (h : s.Wf) (b : Nat) : (s.slicesFrom b).Wf := h.foldl fun _ _ _ hu => .ite (hu.others.startSlice _ _ _) hu

theorem State.Wf.pipelineFrom (h : s.Wf) (b : Nat) : (s.pipelineFrom b).Wf := (h.shedOver.setReg notId _).others

theorem State.Wf.ckptWarm (h : s.Wf) (t : State) (c : Ckpt) : (s.ckptWarm t c).Wf := by
  unfold State.ckptWarm
  extract_lets _ _ _ _ s3
  have h3 : s3.Wf := (h.ckptTables _).others.foldl fun _ _ _ hu => .ite hu (.ite (hu.startSlice _ _ _) (hu.setF notIdAt _ _))
  exact .ite h3 (h3.others.openFrom _ _)

theorem State.Wf.ckptApply (h : s.Wf) (c : Ckpt) : (s.ckptApply c).Wf :=
  (((h.ckptLight _).others).schedSync).andThen fun h1 => .ite (h1.ckptWarm _ _) h1

theorem State.Wf.eventsLive (h : s.Wf) (es : List Event) : (s.eventsLive es).Wf :=
  (((h.foldl fun _ _ _ hu => hu.logDiscard _ _).others.foldl fun _ _ _ hu => hu.logDiscard _ _).setF notId _ _).schedSync

theorem not_idReg_seqRegs : ∀ o ∈ seqRegs, ¬ idReg o :=
  List.forall_mem_append.2 ⟨List.forall_mem_append.2 ⟨notIds (by decide), notIdMap fun _ => notIdAt⟩, notIds (by decide)⟩

theorem State.Wf.takeSeqs (h : s.Wf) : s.takeSeqs.Wf := by
  unfold State.takeSeqs
  split
  · exact h.eventsLive _
  next c _ =>
    have h1 : ({ s with regs := seqRegs.foldl (fun (t : Tbl Word) (o : Nat) => tblSet 0 t o (tblGet 0 c.regs o)) s.regs } : State).Wf :=
      h.withRegs (tblWf_foldSet _ _ _ _ h.regs) fun o ho => by
        rw [tblGet_foldSet, if_neg fun hm => not_idReg_seqRegs o hm ho]
        rfl
    exact h1.others.queueSync.eventsLive _

theorem State.Wf.goDark (h : s.Wf) : s.goDark.Wf := by
  unfold State.goDark
  extract_lets _ s1
  have h1 : s1.Wf := by
    refine State.Wf.foldl h.compDown fun u k _ hu => ?_
    extract_lets m t
    have ht : t.Wf := State.Wf.setSlice (by
      split
      · exact hu.setF notIdAt _ _
      · exact hu) _ _
    exact .ite ht (ht.setF notIdAt _ _)
  exact ((((h1.pipelineFrom _).others.setF notId _ _).setF notId _ _).setF notId _ _).setF notId _ _

theorem State.Wf.toLampblack (h : s.Wf) : s.toLampblack.Wf := (h.goDark.setRole _).others

theorem State.Wf.pipelineUp (h : s.Wf) (b flags : Nat) : (s.pipelineUp b flags).Wf := by
  unfold State.pipelineUp
  extract_lets s1
  have h1 : s1.Wf := ((h.pipelineFrom _).slicesFrom _).openFrom _ _
  split
  · exact h1.ckptTables _
  · exact h1

theorem State.Wf.toWarm (h : s.Wf) : s.toWarm.Wf := ((h.compUp.setRole _).pipelineUp _ _).others

theorem State.Wf.hbCount (h : s.Wf) (p : Nat) : (s.hbCount p).Wf := h.others

theorem State.Wf.hbSend (h : s.Wf) : s.hbSend.Wf := by
  refine .ite h ?_
  extract_lets _ _ _ _ s3
  have h3 : s3.Wf := ((State.Wf.ite ((h.emit _).others) h).emit _).foldl fun _ _ _ hu => .ite (hu.txQueue _ _) hu
  exact .ite (State.Wf.hbCount (.ite (h3.hbCount _) h3) _) ((State.Wf.hbCount (.ite (h3.hbCount _) h3) _).hbCount _)

theorem State.Wf.dropFrames (h : s.Wf) (f : TxFrame → Bool) : (s.dropFrames f).Wf := h.foldl fun _ _ _ hu => hu.setPort _ _

theorem State.Wf.dropOutputs (h : s.Wf) : s.dropOutputs.Wf := h.dropFrames _

theorem State.Wf.abandonOpen (h : s.Wf) : s.abandonOpen.Wf := by
  unfold State.abandonOpen
  split
  · exact h.setBank _ _
  · exact h

theorem State.Wf.fence (h : s.Wf) (warm : Bool) (planned : Option Nat) : (s.fence warm planned).Wf :=
  ((h.setRole _).bump notId).andThen fun h1 => .ite h
    ((((State.Wf.ite h1.others (((h1.others.setF notId _ _).pinsOut _).dropOutputs)).dropFrames _).abandonOpen).hbSend)

theorem State.Wf.settle (h : s.Wf) : s.settle.Wf :=
  .ite h (.ite ((((h.setReg notId _).setRole _).openFrom _ _).others) (h.setReg notId _).toLampblack.others)

theorem State.Wf.newEpoch (h : s.Wf) : s.newEpoch.Wf := (h.setReg notId _).others.logEvent _ _ _

theorem State.Wf.lostToTakeover (h : s.Wf) (b : Nat) : (s.lostToTakeover b).Wf := by
  unfold State.lostToTakeover
  split
  · exact h
  · exact .ite (h.foldl fun _ _ _ hu => (hu.setBank _ _).lostRecord _ _) h

theorem State.Wf.takeStreams (h : s.Wf) : s.takeStreams.Wf := h.others.ubGen

theorem State.Wf.takeCold (h : s.Wf) (b : Nat) : (s.takeCold b).Wf := (((h.pipelineFrom _).lostToTakeover _).pipelineUp _ _).takeStreams

theorem State.Wf.takeWarm (h : s.Wf) (planned : Bool) : (s.takeWarm planned).Wf := by
  unfold State.takeWarm
  extract_lets s1
  have h1 : s1.Wf := by
    unfold s1
    split
    · exact .ite (h.bankFlag _ _) h
    · exact h
  exact h1.takeStreams

theorem State.Wf.staleSeen (h : s.Wf) : s.staleSeen.Wf := .ite h (h.seen notId _ _)

theorem State.Wf.promote (h : s.Wf) (planned : Option Nat) : (s.promote planned).Wf := by
  unfold State.promote
  extract_lets _ _ _ s3
  have h3 : s3.Wf := (((h.staleSeen.newEpoch.setRole _).bump notId).setF notId _ _).setF notId _ _
  exact (State.Wf.ite h3.others.takeSeqs h3.others).andThen fun h1 => .hbSend (.ite (h1.takeWarm _) h1)

theorem State.Wf.tryPromote (h : s.Wf) : s.tryPromote.Wf := .ite (h.setF notId _ _) (.ite (h.promote _) h)

theorem State.Wf.pairedAlone (h : s.Wf) : s.pairedAlone.Wf := ((h.newEpoch.setRole _).others).hbSend

theorem State.Wf.toUnpaired (h : s.Wf) : s.toUnpaired.Wf := .ite (h.setRole _) ((h.setRole _).compUp.pipelineUp _ _)

/-! ### The Miltia link -/

theorem State.Wf.heldReply (h : s.Wf) (q : QEntry) (r : Reply) : (s.heldReply q r).Wf := .ite ((h.cacheReply _ _).sendNow _ _ _) (h.sendLater _ _)

theorem State.Wf.mlDone (h : s.Wf) : s.mlDone.Wf := h.others.foldl fun _ _ _ hu => hu.heldReply _ _

theorem State.Wf.mlAck (h : s.Wf) (a : Nat) : (s.mlAck a).Wf := by
  unfold State.mlAck
  split
  · exact h
  · exact .ite h h.others.mlDone.mlPump

theorem State.Wf.mlResend (h : s.Wf) : s.mlResend.Wf := .ite h ((h.others.bumpBy notId _ _).foldl fun _ _ _ hu => hu.mlEmit _)

theorem State.Wf.mlHeard (h : s.Wf) (b : List Byte) : (s.mlHeard b).Wf := .ite h (.ite ((h.mlAck _).mlResend) (h.mlAck _))

theorem State.Wf.ackBlock (h : s.Wf) (nak : Bool) : (s.ackBlock nak).Wf := (h.emit _).others

theorem State.Wf.mlDiscard (h : s.Wf) : s.mlDiscard.Wf := .ite (h.ackBlock _) h

theorem blockIn_wf {f : State → State} (h : s.Wf) (type : Nat) (b : List Byte) (hf : ∀ (u : State), u.Wf → (f u).Wf) : NextWf (blockIn type b s f) :=
  whenOn_next h fun _ hu => .ite hu (.ite (((hu.bump notId).linkCount _).mlDiscard) (.ite hu (hf _ ((hu.linkCount _).mlHeard _))))

theorem State.Wf.mlApply (h : s.Wf) (m : MlMsg) : (s.mlApply m).Wf := by
  unfold State.mlApply
  split
  · exact .ite (h.ckptApply _) h
  · exact .ite (h.ckptApply _) h
  · split
    · exact .ite (h.ckptApply _) h
    · exact h
  · exact h.packetIn _ _
  · exact h.others

theorem State.Wf.mlTake (h : s.Wf) (b : List Byte) : (s.mlTake b).Wf := by
  unfold State.mlTake
  extract_lets buf
  cases buf with
  | none => exact h
  | some x =>
    refine .ite ?_ h.others
    split
    · exact State.Wf.mlApply h.others _
    · exact h.others

theorem execMiltiaDataBlockReceived_wf (h : s.Wf) (b : List Byte) : NextWf (execMiltiaDataBlockReceived b s) :=
  blockIn_wf h _ _ fun _ hu => .ite hu (.ite (hu.others.mlTake _) hu.mlDiscard)

theorem execMiltiaAckBlockReceived_wf (h : s.Wf) (b : List Byte) : NextWf (execMiltiaAckBlockReceived b s) := blockIn_wf h _ _ fun _ hu => hu.others

theorem execMiltiaIdleBlockReceived_wf (h : s.Wf) (b : List Byte) : NextWf (execMiltiaIdleBlockReceived b s) := blockIn_wf h _ _ fun _ hu => hu.others

theorem State.Wf.linkAsked (h : s.Wf) (msg tag arg : Nat) : (s.linkAsked msg tag arg).Wf :=
  .ite ((h.linkSend _ _ _ _ _).others) (.ite (h.linkSend _ _ _ _ _) (.ite ((h.linkSend _ _ _ _ _).linkCommit _) (h.linkSend _ _ _ _ _)))

theorem State.Wf.linkAnswered (h : s.Wf) (a : LinkAsk) (arg result : Nat) : (s.linkAnswered a arg result).Wf :=
  .ite (.ite h.others h.linkFail) (.ite h.others.linkClimb (.ite (h.linkAsk _ _ _ _) (h.linkCommit _)))

theorem State.Wf.linkReply (h : s.Wf) (d : List Byte) : (s.linkReply d).Wf := by
  unfold State.linkReply
  split
  · exact h
  · exact .ite (h.linkAnswered _ _ _) h

theorem execMiltiaLinkBlockReceived_wf (h : s.Wf) (b : List Byte) : NextWf (execMiltiaLinkBlockReceived b s) :=
  blockIn_wf h _ _ fun _ hu => .ite hu (.ite (hu.linkAsked _ _ _) (.ite (hu.linkReply _) hu))

theorem execMiltiaAckTimer_wf (h : s.Wf) : NextWf (execMiltiaAckTimer s) := whenOn_next h fun _ hu => .ite (hu.ackBlock _) hu

theorem execMiltiaResendTimeout_wf (h : s.Wf) : NextWf (execMiltiaResendTimeout s) := whenOn_next h fun _ hu => .ite hu.mlResend hu

theorem State.Wf.linkGone (h : s.Wf) : s.linkGone.Wf := by
  unfold State.linkGone
  extract_lets _ _ s2
  have h2 : s2.Wf := (h.setF notId _ _).others.foldl fun _ _ _ hu => hu.heldReply _ _
  exact .ite h2.toLampblack h2

theorem execMiltiaLinkDown_wf (h : s.Wf) (lock : Nat) : NextWf (execMiltiaLinkDown lock s) := by
  refine whenOn_next h fun _ hu => ?_
  refine .ite ?_ hu
  extract_lets s1
  have h1 : s1.Wf := (((hu.setF notId _ _).bump notId).setF notId _ _).linkGone
  exact .ite ((h1.seen notId _ _).logEvent _ _ _) h1

theorem execMiltiaRelockTimeout_wf (h : s.Wf) : NextWf (execMiltiaRelockTimeout s) := whenOn_next h fun _ hu => .ite hu.linkStart hu

theorem execMiltiaLinkUp_wf (h : s.Wf) (rung ver min_ : Nat) : NextWf (execMiltiaLinkUp rung ver min_ s) :=
  whenOn_next h fun _ hu => ((((hu.setF notId _ _).setF notId _ _).others.setF notId _ _).mlPump).andThen fun h1 => .ite (.ite (h1.mlSend _) h1) hu

theorem State.Wf.linkIdle (h : s.Wf) : s.linkIdle.Wf := .ite (h.emit _) h

theorem execCheckpointFullSend_wf (h : s.Wf) : NextWf (execCheckpointFullSend s) := whenOn_next h fun _ hu => .ite (hu.mlSend _) hu

theorem execStateRecordPeriod_wf (h : s.Wf) : NextWf (execStateRecordPeriod s) := whenOn_next h fun _ hu => .ite hu hu.recordSend

/-! ### The pair -/

theorem execHeartbeatSend_wf (h : s.Wf) : NextWf (execHeartbeatSend s) := whenOn_next h fun _ hu => hu.hbSend

theorem State.Wf.dualEnd (h : s.Wf) (start : Nat) : (s.dualEnd start).Wf := ((h.logEvent _ _ _).seen notId _ _).bump notId

theorem State.Wf.hbActive (h : s.Wf) (e : Nat) (dark : Bool) : (s.hbActive e dark).Wf := by
  unfold State.hbActive
  extract_lets _ _ _ s1
  have h1 : s1.Wf := (h.setF notId _ _).others
  exact .ite h1.toLampblack.others (.ite (.ite (.ite ((h1.fence _ _).draw.dualEnd _) (h1.fence _ _)) (.ite h1.others h1)) h1)

theorem State.Wf.hbOther (h : s.Wf) (fenced : Bool) : (s.hbOther fenced).Wf := by
  unfold State.hbOther
  extract_lets s1
  have h1 : s1.Wf := by
    refine .ite ?_ h
    split
    · exact h.dualEnd _
    · exact h
  exact (h1.setF notId _ _).others

theorem State.Wf.hbTake (h : s.Wf) (p : Nat) (w : List Byte) : (s.hbTake p w).Wf := by
  unfold State.hbTake
  extract_lets _ _ s1
  have h1 : s1.Wf := (h.setFB notId _ _ _).setF notId _ _
  exact (State.Wf.ite (h1.setReg notId _) ((h1.setReg notId _).setReg notId _)).andThen fun h1 => .ite (h1.others.hbActive _ _) (h1.others.hbOther _)

theorem State.Wf.hbWordIn (h : s.Wf) (p : Nat) (w : List Byte) : (s.hbWordIn p w).Wf := .ite (h.hbTake _ _) h

theorem execHeartbeatWordReceived_wf (h : s.Wf) (p n : Nat) (bs : List Byte) : NextWf (execHeartbeatWordReceived p n bs s) := by
  unfold execHeartbeatWordReceived
  split
  · exact blockIn_wf h _ _ fun _ hu => hu.hbWordIn _ _
  · exact whenOn_next h fun _ hu => .ite (hu.hbWordIn _ _) hu
  · refine whenOn_next h fun _ hu => ?_
    split
    · exact (hu.rxTake _ _).hbWordIn _ _
    · exact hu

theorem execHbPathTimeout_wf (h : s.Wf) (p : Nat) : NextWf (execHbPathTimeout p s) :=
  whenOn_next h fun _ hu => .ite ((hu.setFB notId _ _ _).bump notId) hu

theorem execPromotion_wf (h : s.Wf) : NextWf (execPromotion s) :=
  whenOn_next h fun _ hu => .ite hu (.ite hu.tryPromote (((hu.setF notId _ _).others).tryPromote))

theorem execLeaseStart_wf (h : s.Wf) : NextWf (execLeaseStart s) :=
  whenOn_next h fun _ hu => .ite (.ite (hu.setF notId _ _).tryPromote (hu.setF notId _ _)) hu

theorem execLeaseExpire_wf (h : s.Wf) : NextWf (execLeaseExpire s) :=
  whenOn_next h fun _ hu => .ite (.ite ((hu.setF notId _ _).fence _ _) (hu.setF notId _ _)) hu

theorem execFenceSettle_wf (h : s.Wf) : NextWf (execFenceSettle s) := whenOn_next h fun _ hu => hu.settle

theorem execHandoverDiscardQueued_wf (h : s.Wf) : NextWf (execHandoverDiscardQueued s) := whenOn_next h fun _ hu => .ite hu.dropOutputs.others hu

theorem execPairingWaitExpire_wf (h : s.Wf) : NextWf (execPairingWaitExpire s) := whenOn_next h fun _ hu => .ite hu.pairedAlone hu

theorem execTakeoverComputeReady_wf (h : s.Wf) : NextWf (execTakeoverComputeReady s) := whenOn_next h fun _ hu => .ite hu.compUp.takeSeqs.others hu

theorem execTakeoverBoundary_wf (h : s.Wf) : NextWf (execTakeoverBoundary s) :=
  whenOn_next h fun _ hu => .ite (.ite (hu.others.takeCold _) (hu.others.takeWarm _)) hu

theorem State.Wf.itemOver (h : s.Wf) (i : Nat) : (s.itemOver i).Wf := .ite h.others.others h.others

theorem State.Wf.healthCheck (h : s.Wf) : s.healthCheck.Wf := .ite (h.setF notId _ _) (((h.setF notId _ _).others.logEvent _ _ _).raise _)

theorem execVerdigrisItemStart_wf (h : s.Wf) : NextWf (execVerdigrisItemStart s) := by
  refine whenOn_next h fun _ hu => ?_
  refine .ite ?_ hu
  refine .ite (hu.itemOver _) ?_
  dsimp only
  split
  · exact hu.others.dieUp _
  · exact hu.others

theorem execVerdigrisItemDone_wf (h : s.Wf) (pass : Bool) : NextWf (execVerdigrisItemDone pass s) := by
  refine whenOn_next h fun _ hu => ?_
  split
  · exact hu
  · refine .ite ?_ hu
    extract_lets _ _ s2
    have h2 : s2.Wf := by
      unfold s2
      split
      · exact hu.others.sensFresh _
      · exact hu.others
    exact (h2.itemOver _).healthCheck

theorem execRoleStatus_wf (h : s.Wf) (c : Cmd) : NextWf (execRoleStatus c s) := ⟨_, rfl, h.command _ _ _ fun _ hu => hu⟩

theorem State.Wf.roleConfig (h : s.Wf) (c : Cmd) : (s.roleConfig c).Wf :=
  (((h.configAll _).linkOff _ _).others).andThen fun h1 => .ite (.ite (h.configAll _).others.linkStart (h.configAll _)) (.ite h1 h1.toUnpaired)

theorem execRoleConfig_wf (h : s.Wf) (c : Cmd) : NextWf (execRoleConfig c s) :=
  ⟨_, rfl, h.command _ _ _ fun _ hu => CmdRes.Wf.ite (hu.roleConfig _) trivial⟩

theorem State.Wf.leaseSet (h : s.Wf) (start stop : Nat) : (s.leaseSet start stop).Wf :=
  ((h.others.setReg64 notId notId _).setF notId _ _).andThen fun h1 => .ite (h1.fence _ _) (.ite h1.tryPromote h1)

theorem execRoleLease_wf (h : s.Wf) (c : Cmd) : NextWf (execRoleLease c s) :=
  ⟨_, rfl, h.command _ _ _ fun _ hu => CmdRes.Wf.ite trivial (CmdRes.Wf.ite (hu.bump notId) (hu.leaseSet _ _))⟩

theorem execRoleWarm_wf (h : s.Wf) (c : Cmd) : NextWf (execRoleWarm c s) :=
  ⟨_, rfl, h.command _ _ _ fun _ hu => CmdRes.Wf.ite trivial (CmdRes.Wf.ite trivial hu.others)⟩

theorem execRoleWarmDone_wf (h : s.Wf) : NextWf (execRoleWarmDone s) := by
  refine whenOn_next h fun _ hu => ?_
  split
  · exact hu
  · dsimp only
    split
    · exact hu.others.final _ _ _
    · exact .ite (hu.others.final _ _ _) (.ite (.ite hu (hu.others.toWarm.final _ _ _))
        (.ite (hu.others.toLampblack.final _ _ _) (hu.others.final _ _ _)))

theorem execRoleFence_wf (h : s.Wf) (c : Cmd) : NextWf (execRoleFence c s) :=
  ⟨_, rfl, h.command _ _ _ fun _ hu => CmdRes.Wf.ite (hu.fence _ _) trivial⟩

theorem execMlRelay_wf (h : s.Wf) (c : Cmd) : NextWf (execMlRelay c s) := ⟨_, rfl, h.command _ _ _ fun _ hu => CmdRes.Wf.ite (hu.mlSend _) trivial⟩

theorem execMlRelayReply_wf (h : s.Wf) : NextWf (execMlRelayReply s) := by
  refine whenOn_next h fun _ hu => ?_
  split
  · exact hu
  · dsimp only
    split
    · exact hu.others.final _ _ _
    · exact hu.others

theorem execRoleHealth_wf (h : s.Wf) (c : Cmd) : NextWf (execRoleHealth c s) := ⟨_, rfl, h.command _ _ _ fun _ hu => hu⟩

theorem execMlLadder_wf (h : s.Wf) (c : Cmd) : NextWf (execMlLadder c s) :=
  ⟨_, rfl, h.command _ _ _ fun _ hu => CmdRes.Wf.ite trivial
    (CmdRes.Wf.ite trivial (CmdRes.Wf.ite trivial (((hu.setF notId _ _).linkGone).linkStart)))⟩

theorem execMlCntClrAll_wf (h : s.Wf) : NextWf (execMlCntClrAll s) := whenOn_next h fun _ hu => hu.clearCounters (notIds (by decide))

/-! ### The DMA engine -/

theorem State.Wf.setDmc (h : s.Wf) (n : Nat) (c : DmChan) : (s.setDmc n c).Wf := h.others

theorem State.Wf.dmShow (h : s.Wf) (n : Nat) : (s.dmShow n).Wf := by
  unfold State.dmShow
  split
  · exact h.setReg notIdAt _
  · exact h

theorem State.Wf.dmFetch (h : s.Wf) (n a : Nat) (again : Bool) : (s.dmFetch n a again).Wf := (h.setDmc _ _).setReg64 notIdAt notIdAt2 _

theorem State.Wf.dmSignal (h : s.Wf) (n : Nat) (irq halt : Bool) : (s.dmSignal n irq halt).Wf := by
  unfold State.dmSignal
  extract_lets _ s1
  have h1 : s1.Wf := .ite (h.setSeenB notId _ _) h
  exact (State.Wf.ite (h1.setSeenB notId _ _) h1).andThen fun h1 => .ite (h1.signal _) h1

theorem State.Wf.dmHalt (h : s.Wf) (n : Nat) (x1 : DmHalt) : (s.dmHalt n x1).Wf :=
  ((((((((h.setDmc _ _).setF notIdAt _ _).setF notIdAt _ _).setF notIdAt _ _).setF notIdAt _ _).setReg64 notIdAt notIdAt2 _).setReg64 notIdAt notIdAt2
    _).setReg notIdAt _).dmSignal _ _ _

theorem State.Wf.dmSettle (h : s.Wf) (n : Nat) : (s.dmSettle n).Wf := by
  unfold State.dmSettle
  split
  · exact .ite h (h.dmHalt _ _)
  · exact h

theorem State.Wf.dmStop (h : s.Wf) (n j : Nat) (x2 : DmHalt) : (s.dmStop n j x2).Wf := .ite (h.dmSettle _) ((h.setDmc _ _).dmSettle _)

theorem State.Wf.dmNext (h : s.Wf) (n a : Nat) : (s.dmNext n a).Wf := .ite (.ite (h.dmStop _ _ _) (h.setDmc _ _)) ((h.setDmc _ _).dmFetch _ _ _)

theorem State.Wf.dmAdvance (h : s.Wf) (n : Nat) : (s.dmAdvance n).Wf := by
  refine .ite (h.dmSettle n) ?_
  have h1 := (h.setDmc n { s.dmc n with descs := dmIssueAll 0 (s.dmc n).descs }).dmShow n
  split
  · exact h1.dmNext n _
  · exact h1

theorem State.Wf.dmDecodeHalt (h : s.Wf) (n j a : Nat) (x3 : DmHalt) : (s.dmDecodeHalt n j a x3).Wf := (h.violation _ _ _ _).dmStop _ _ _

theorem State.Wf.dmBegin (h : s.Wf) (n a : Nat) (d : DmDesc) : (s.dmBegin n a d).Wf :=
  .ite ((h.setDmc _ _).setF notIdAt _ _) (.ite ((h.setDmc _ _).dmStop _ _ _) ((h.setDmc _ _).dmAdvance _))

theorem execDescriptorFetchDone_wf (h : s.Wf) (n : Nat) (host : List Byte) : NextWf (execDescriptorFetchDone n host s) := by
  refine whenOn_next h fun _ hu => ?_
  split
  · exact .ite (hu.dmDecodeHalt _ _ _ _) (.ite (hu.drUes _ _) (hu.dmBegin _ _ _))
  · exact hu

theorem State.Wf.setDesc (h : s.Wf) (n j : Nat) (d : DmDesc) : (s.setDesc n j d).Wf := h.setDmc _ _

theorem State.Wf.dmWrite (h : s.Wf) (a : Nat) (bs : List Byte) : (s.dmWrite a bs).Wf := .ite (h.emit _) (h.drWrite _ _)

theorem State.Wf.dmCompare (h : s.Wf) (n j : Nat) (d : DmDesc) (b : DmBeat) (src dst : List Byte) : (s.dmCompare n j d b src dst).Wf := by
  unfold State.dmCompare
  split
  · exact h
  · extract_lets s1
    have h1 : s1.Wf := .ite h ((h.setReg64 notIdAt notIdAt2 _).setSeen notIdAt _ _)
    exact .ite (h1.dmStop _ _ _) h1

theorem State.Wf.dmBeatDone (h : s.Wf) (n j : Nat) (d : DmDesc) (b : DmBeat) (src dst : List Byte) : (s.dmBeatDone n j d b src dst).Wf := by
  unfold State.dmBeatDone
  extract_lets _ _ _ s2
  have h2 : s2.Wf := by
    unfold s2
    split
    · exact (h.setDesc _ _ _).dmWrite _ _
    · exact (h.setDesc _ _ _).dmWrite _ _
    · exact (h.setDesc _ _ _).dmCompare _ _ _ _ _ _
  exact h2.dmAdvance _

theorem State.Wf.beatFound (h : s.Wf) (d : DmDesc) (b : DmBeat) (src dst : List Byte) : (s.beatFound d b src dst).Wf :=
  h.foldl fun _ _ _ hu => .ite hu (hu.drFound _ _ _)

theorem execDmaBeatDone_wf (h : s.Wf) (n j : Nat) (src dst : List Byte) : NextWf (execDmaBeatDone n j src dst s) := by
  refine whenOn_next h fun _ hu => ?_
  split
  · exact hu
  · split
    · exact hu
    · split
      · exact (hu.setDesc _ _ _).dmDecodeHalt _ _ _ _
      · exact (hu.beatFound _ _ _ _).andThen fun h1 => .ite hu (.ite h1 (h1.dmBeatDone _ _ _ _ _ _))

theorem State.Wf.fetchFails (h : s.Wf) (n a tries code : Nat) : (s.fetchFails n a tries code).Wf := .ite (h.setDmc _ _) ((h.setDmc _ _).dmStop _ _ _)

theorem State.Wf.beatFails (h : s.Wf) (n j : Nat) (d : DmDesc) (b : DmBeat) (code : Nat) (read : Bool) : (s.beatFails n j d b code read).Wf :=
  .ite ((h.setDesc _ _ _).dmSettle _) (.ite (h.setDesc _ _ _) ((h.setDesc _ _ _).dmStop _ _ _))

theorem State.Wf.wbFails (h : s.Wf) (n j : Nat) (d : DmDesc) (code : Nat) : (s.wbFails n j d code).Wf :=
  .ite ((h.setDesc _ _ _).dmSettle _) (.ite (h.setDesc _ _ _) (h.dmStop _ _ _))

theorem State.Wf.wbUndecoded (h : s.Wf) (n j : Nat) (d : DmDesc) : (s.wbUndecoded n j d).Wf :=
  .ite (((h.violation _ _ _ _).setDesc _ _ _).dmSettle _) (h.dmDecodeHalt _ _ _ _)

theorem State.Wf.dmFails (h : s.Wf) (n code : Nat) (x : DmAccess) : (s.dmFails n code x).Wf := by
  unfold State.dmFails
  split
  · split
    · exact .ite (h.dmDecodeHalt _ _ _ _) (h.fetchFails _ _ _ _)
    · exact h
  · split
    · exact h
    · split
      · exact h
      · refine .ite h ?_
        split
        · exact (h.setDesc _ _ _).dmDecodeHalt _ _ _ _
        · exact h.beatFails _ _ _ _ _ _
  · split
    · exact .ite (.ite (h.wbUndecoded _ _ _) (h.wbFails _ _ _ _)) h
    · exact h

theorem execDmaBeatError_wf (h : s.Wf) (n : Nat) (x : DmAccess) : NextWf (execDmaBeatError n x s) := whenOn_next h fun _ hu => hu.dmFails _ _ _

theorem execDmaBeatTimeout_wf (h : s.Wf) (n : Nat) (x : DmAccess) : NextWf (execDmaBeatTimeout n x s) :=
  whenOn_next h fun _ hu => .ite hu (hu.dmFails _ _ _)

theorem State.Wf.dmAgain (h : s.Wf) (n : Nat) (x : DmAccess) : OptWf (s.dmAgain n x) := by
  refine .ite .none ?_
  split
  · split
    · exact .some (h.setDmc _ _)
    · exact .none
  · split
    · exact .none
    · split
      · exact .ite (.some (h.setDesc _ _ _)) .none
      · exact .none
  · split
    · exact .ite (.some (h.setDesc _ _ _)) .none
    · exact .none

theorem execDmaRetryIssue_wf (h : s.Wf) (n : Nat) (x : DmAccess) : NextWf (execDmaRetryIssue n x s) := by
  refine whenOn_next h fun u hu => ?_
  split
  next t ht => exact (hu.dmAgain _ _ t ht).bump notIdAt
  · exact hu

theorem State.Wf.dmWriteBack (h : s.Wf) (d : DmDesc) : (s.dmWriteBack d).Wf := .ite (h.dmWrite _ _) h

theorem State.Wf.dmComplete (h : s.Wf) (n j : Nat) (d : DmDesc) : (s.dmComplete n j d).Wf := by
  unfold State.dmComplete
  extract_lets _ s1
  have h1 : s1.Wf := (((h.dmWriteBack _).setDmc _ _).bump notIdAt).dmSignal _ _ _
  refine .ite (h1.dmSettle _) ?_
  refine .ite ((h1.setF notIdAt _ _).setF notIdAt _ _) ?_
  refine .ite (h1.dmNext _ _) ?_
  split
  · exact .ite (h1.dmNext _ _) (h1.dmAdvance _)
  · exact h1.dmAdvance _

theorem execDescriptorComplete_wf (h : s.Wf) (n j : Nat) : NextWf (execDescriptorComplete n j s) := by
  refine whenOn_next h fun _ hu => ?_
  split
  · exact hu
  · exact .ite hu (.ite (hu.wbUndecoded _ _ _) (hu.dmComplete _ _ _))

theorem State.Wf.dmGo (h : s.Wf) (n : Nat) : (s.dmGo n).Wf :=
  ((((((h.setDmc _ _).setF notIdAt _ _).setF notIdAt _ _).setF notIdAt _ _).setF notIdAt _ _).setReg notIdAt _).dmFetch _ _ _

theorem State.Wf.dmKick (h : s.Wf) (n : Nat) : (s.dmKick n).Wf := (h.setF notIdAt _ _).dmFetch _ _ _

theorem State.Wf.dmAbort (h : s.Wf) (n : Nat) : (s.dmAbort n).Wf := by
  unfold State.dmAbort
  dsimp only
  split <;> exact h.setDmc _ _

theorem State.Wf.dmCtl {f : State → State} (h : s.Wf) (r : Requester) (n : Nat) (v : Word) (okay : Bool) (hf : ∀ (u : State), u.Wf → (f u).Wf) :
    (s.dmCtl r n v okay f).Wf :=
  .ite (hf _ h) (h.violation _ _ _ _)

theorem State.Wf.dmCtlWrite (h : s.Wf) (r : Requester) (n : Nat) (v : Word) : (s.dmCtlWrite r n v).Wf := by
  refine .ite (h.violation _ _ _ _) ?_
  extract_lets st lim s1 s2 s3
  have h1 : s1.Wf := h.setF notIdAt _ _
  have h2 : s2.Wf := .ite (h1.violation _ _ _ _) (h1.setF notIdAt _ _)
  have h3 : s3.Wf := .ite (h2.dmCtl _ _ _ _ fun _ hu => hu.dmGo n) h2
  exact .ite (h2.dmCtl _ _ _ _ fun _ hu => hu.dmAbort n) (.ite (h3.dmCtl _ _ _ _ fun _ hu => hu.dmKick n) h3)

theorem execDmChCtlGo_wf (h : s.Wf) (r : Requester) (n : Nat) (v : Word) : NextWf (execDmChCtlGo r n v s) :=
  whenOn_next h fun _ hu => .ite (hu.dmCtlWrite _ _ _) hu

theorem execDmChCtlAbort_wf (h : s.Wf) (r : Requester) (n : Nat) (v : Word) : NextWf (execDmChCtlAbort r n v s) :=
  whenOn_next h fun _ hu => .ite (hu.dmCtlWrite _ _ _) hu

theorem execDmChCtlKick_wf (h : s.Wf) (r : Requester) (n : Nat) (v : Word) : NextWf (execDmChCtlKick r n v s) :=
  whenOn_next h fun _ hu => .ite (hu.dmCtlWrite _ _ _) hu

theorem execAbortHalt_wf (h : s.Wf) (n : Nat) : NextWf (execAbortHalt n s) := by
  refine whenOn_next h fun _ hu => ?_
  split
  · exact .ite hu ((hu.dmHalt _ _).others.foldl fun _ _ _ hv => hv.answer _ _ _ _ _)
  · exact hu

theorem execDmChDescWrite_wf (h : s.Wf) (r : Requester) (n : Nat) (hi : Bool) (v : Word) : NextWf (execDmChDescWrite r n hi v s) :=
  whenOn_next h fun _ hu => .ite hu (.ite (hu.violation _ _ _ _)
    (.ite (hu.violation _ _ _ _) (.ite (hu.stageHalf _ _ _) (((hu.unstage _ _).setReg notIdAt _).setReg (notIdIf notIdAt notIdAt) _))))

theorem execDmIntStatClear_wf (h : s.Wf) (v : Word) : NextWf (execDmIntStatClear v s) := whenOn_next h fun _ hu => hu.clearOnes notId _

theorem execDmHaltStatClear_wf (h : s.Wf) (v : Word) : NextWf (execDmHaltStatClear v s) := whenOn_next h fun _ hu => hu.clearOnes notId _

theorem dmEnable_wf (h : s.Wf) (rise stat : Nat) : (dmEnable s rise stat).Wf := h.foldl fun _ _ _ hu => .ite (hu.signal _) hu

theorem execDmIntEnWrite_wf (h : s.Wf) (v : Word) : NextWf (execDmIntEnWrite v s) := whenOn_next h fun _ hu => dmEnable_wf (hu.setReg notId _) _ _

theorem execDmHaltEnWrite_wf (h : s.Wf) (v : Word) : NextWf (execDmHaltEnWrite v s) := whenOn_next h fun _ hu => dmEnable_wf (hu.setReg notId _) _ _

theorem execDmCntClrWrite_wf (h : s.Wf) (v : Word) : NextWf (execDmCntClrWrite v s) :=
  whenOn_next h fun _ hu => hu.clearCounters (notIdFlat fun _ => by
    simp only [List.forall_mem_cons]
    exact ⟨notIdAt, notIdAt, List.forall_mem_nil _⟩)

theorem execDmStart_wf (h : s.Wf) (c : Cmd) : NextWf (execDmStart c s) :=
  ⟨_, rfl, h.command _ _ _ fun _ hu => CmdRes.Wf.ite trivial ((((hu.setReg64 notIdAt notIdAt2 _).setF notIdAt _ _).setF notIdAt _ _).dmGo _)⟩

theorem execDmKick_wf (h : s.Wf) (c : Cmd) : NextWf (execDmKick c s) := ⟨_, rfl, h.command _ _ _ fun _ hu => CmdRes.Wf.ite trivial (hu.dmKick _)⟩

theorem execDmAbort_wf (h : s.Wf) (c : Cmd) : NextWf (execDmAbort c s) :=
  ⟨_, rfl, h.command _ _ _ fun _ hu => CmdRes.Wf.ite trivial ((hu.dmAbort _).others)⟩

theorem execDmStatus_wf (h : s.Wf) (c : Cmd) : NextWf (execDmStatus c s) := ⟨_, rfl, h.command _ _ _ fun _ hu => hu⟩

/-! ### The host interface -/

theorem State.Wf.slotWrite (h : s.Wf) (r : Requester) (k off : Nat) (bs : List Byte) : (s.slotWrite r k off bs).Wf :=
  (State.Wf.ite h ((h.bufWrite _ _).others)).andThen fun h1 => .ite (h.violation _ _ _ _) (.ite (h1.violation _ _ _ _) h1)

theorem execRequestSlotWrite_wf (h : s.Wf) (r : Requester) (k off : Nat) (bs : List Byte) : NextWf (execRequestSlotWrite r k off bs s) :=
  whenOn_next h fun _ hu => .ite (hu.slotWrite _ _ _ _) hu

theorem State.Wf.ring (h : s.Wf) (r : Requester) (k : Nat) : (s.ring r k).Wf := .ite (h.violation _ _ _ _) (.ite (h.violation _ _ _ _) (h.doorbell _))

theorem execMailboxDoorbell_wf (h : s.Wf) (r : Requester) (k : Nat) : NextWf (execMailboxDoorbell r k s) := whenOn_next h fun _ hu => hu.ring _ _

theorem State.Wf.releaseSlots (h : s.Wf) (mask : Nat) : (s.releaseSlots mask).Wf :=
  h.foldl fun _ _ _ hu => .ite ((hu.setFB notId _ _ _).freeSlot _) hu

theorem execMailboxReplyRelease_wf (h : s.Wf) (mask : Nat) : NextWf (execMailboxReplyRelease mask s) := whenOn_next h fun _ hu => hu.releaseSlots _

theorem State.Wf.noteHeld (h : s.Wf) : s.noteHeld.Wf := h.setF notId _ _

theorem State.Wf.hostFlush (h : s.Wf) : s.hostFlush.Wf := (h.others.foldl fun _ _ _ hu => hu.hostNotice _).noteHeld

theorem State.Wf.mgmtFlush (h : s.Wf) : s.mgmtFlush.Wf := (h.others.foldl fun _ _ _ hu => hu.mgmtNotice _).noteHeld

theorem State.Wf.readAdvance (h : s.Wf) (mgmt : Bool) (v : Word) : (s.readAdvance mgmt v).Wf :=
  .ite ((h.setF notId _ _).mgmtFlush) ((h.setF notId _ _).hostFlush)

theorem execNoticeRingReadAdvance_wf (h : s.Wf) (mgmt : Bool) (v : Word) : NextWf (execNoticeRingReadAdvance mgmt v s) :=
  whenOn_next h fun _ hu => hu.readAdvance _ _

theorem execCpCntClrAll_wf (h : s.Wf) : NextWf (execCpCntClrAll s) := whenOn_next h fun _ hu => hu.clearCounters (notIds (by decide))

theorem State.Wf.readAs (h : s.Wf) (r : Requester) (off : Nat) : (s.readAs r off).2.Wf := by
  unfold State.readAs
  split
  · exact h
  · split
    · exact .ite ((h.latch _ _).latch _ _) (h.latch _ _)
    · split
      · exact h.setShadow _ _
      · exact h

theorem State.Wf.readRun (h : s.Wf) (r : Requester) (off n : Nat) : (s.readRun r off n).2.Wf := by
  induction n generalizing s off with
  | zero => exact h
  | succ n ih => exact ih (h.readAs r off) _

theorem execMgmtRegisterRead_wf (h : s.Wf) (off : Nat) : NextWf (execMgmtRegisterRead off s) :=
  whenOn_next h fun _ hu => (hu.readAs .mgmt off).emit _

theorem execMgmtBlockRead_wf (h : s.Wf) (off n : Nat) : NextWf (execMgmtBlockRead off n s) :=
  whenOn_next h fun _ hu => (hu.readRun .mgmt _ _).emit _

theorem execMgmtSlotWrite_wf (h : s.Wf) (off : Nat) (bs : List Byte) : NextWf (execMgmtSlotWrite off bs s) :=
  whenOn_next h fun _ hu => hu.slotWrite _ _ _ _

theorem execMgmtDoorbell_wf (h : s.Wf) : NextWf (execMgmtDoorbell s) := whenOn_next h fun _ hu => hu.ring _ _

theorem execMgmtUnknownCode_wf (h : s.Wf) (code : Nat) : NextWf (execMgmtUnknownCode code s) := whenOn_next h fun _ hu => .ite hu (hu.emit _)

theorem execPeluskDatagramReceived_wf (h : s.Wf) (n : Nat) : NextWf (execPeluskDatagramReceived n s) := by
  refine whenOn_next h fun _ hu => ?_
  refine .ite ?_ ?_
  · split
    · exact hu
    · exact (hu.rxTake _ _).arrive _ _
  · split
    · exact hu.others
    · exact hu

theorem execBar2Read_wf (h : s.Wf) (o : Nat) (r : MemRead) : NextWf (execBar2Read o r s) :=
  whenOn_next h fun _ hu => .ite ((hu.drFound _ _ _).emit _) ((hu.violation _ _ _ _).emit _)

theorem execBar2Write_wf (h : s.Wf) (o : Nat) (bs : List Byte) : NextWf (execBar2Write o bs s) :=
  whenOn_next h fun _ hu => (hu.violation _ _ _ _).andThen fun h1 => .ite (h1.emit _) (.ite h1 (hu.drWrite _ _))

theorem State.Wf.flr (h : s.Wf) : s.flr.Wf :=
  (((h.foldl fun _ _ _ hu => .ite (hu.dmAbort _) hu).others.foldl fun _ _ _ hu => (hu.setFB notId _ _ _).setFB notId _ _ _).setF notId _ _).noteHeld

theorem execFunctionLevelReset_wf (h : s.Wf) : NextWf (execFunctionLevelReset s) := whenOn_next h fun _ hu => hu.flr.bumpBy notId _ _

theorem execPcieLinkLoss_wf (h : s.Wf) : NextWf (execPcieLinkLoss s) := whenOn_next h fun _ hu => hu

theorem execPePerstAssert_wf (h : s.Wf) : NextWf (execPePerstAssert s) := whenOn_next h fun _ hu => .ite ((hu.flr.bumpBy notId _ _).others) hu

theorem execPePerstRelease_wf (h : s.Wf) : NextWf (execPePerstRelease s) := whenOn_next h fun _ hu => hu.others

theorem execSysInfo_wf (h : s.Wf) (c : Cmd) : NextWf (execSysInfo c s) := ⟨_, rfl, h.command _ _ _ fun _ hu => hu⟩

theorem execSysSession_wf (h : s.Wf) (c : Cmd) : NextWf (execSysSession c s) :=
  ⟨_, rfl, h.command _ _ _ fun _ hu => CmdRes.Wf.ite trivial hu.others.queueSync⟩

theorem execSysAperture_wf (h : s.Wf) (c : Cmd) : NextWf (execSysAperture c s) := ⟨_, rfl, h.command _ _ _ fun _ hu => hu.setReg64 notId notId _⟩

theorem execScList_wf (h : s.Wf) (c : Cmd) : NextWf (execScList c s) := ⟨_, rfl, h.command _ _ _ fun _ hu => hu⟩

theorem execScCancel_wf (h : s.Wf) (c : Cmd) : NextWf (execScCancel c s) := by
  refine ⟨_, rfl, ?_⟩
  refine h.command _ _ _ fun _ hu => ?_
  split
  · exact CmdRes.Wf.ite trivial ((hu.dropEvent _).bump notId)
  · exact trivial

theorem execScCntClrAll_wf (h : s.Wf) : NextWf (execScCntClrAll s) := whenOn_next h fun _ hu => hu.clearCounters (notIds (by decide))

/-! ### Firmware and life cycle -/

theorem State.Wf.setFwSlot (h : s.Wf) (n : Nat) (x : FwSlot) : (s.setFwSlot n x).Wf := h.others

theorem State.Wf.lcSync (h : s.Wf) : s.lcSync.Wf :=
  (((((((((h.setF notId _ _).setF notId _ _).setF notId _ _).setF notId _ _).setF notId _ _).setF notId _ _).setF notId _ _).setF notId _ _).setF
    notId _ _).setF notId _ _

theorem State.Wf.commitTrial (h : s.Wf) (raiseSvn : Bool) : (s.commitTrial raiseSvn).Wf :=
  (((h.others.lcSync.setF notId _ _).setF notId _ _).logEvent _ _ _).raise _

theorem execFwCommit_wf (h : s.Wf) (c : Cmd) : NextWf (execFwCommit c s) :=
  ⟨_, rfl, h.command _ _ _ fun _ hu => CmdRes.Wf.ite trivial (hu.commitTrial _)⟩

theorem execTrialAutoCommit_wf (h : s.Wf) : NextWf (execTrialAutoCommit s) := whenOn_next h fun _ hu => .ite (hu.commitTrial _) hu

theorem execNiethHandoffDone_wf (h : s.Wf) : NextWf (execNiethHandoffDone s) := by
  refine whenOn_next h fun _ hu => ?_
  split
  · exact hu
  · exact ((((((hu.others.setF notId _ _).setF notId _ _).setF notId _ _).lcSync).notice _ _ _).others).foldl fun _ _ _ hv => hv.notice _ _ _

theorem execFwList_wf (h : s.Wf) (c : Cmd) : NextWf (execFwList c s) := ⟨_, rfl, h.command _ _ _ fun _ hu => hu⟩

theorem State.Wf.endNonce (h : s.Wf) : s.endNonce.Wf := h.others.setF notId _ _

theorem execLcNonce_wf (h : s.Wf) (c : Cmd) : NextWf (execLcNonce c s) := ⟨_, rfl, h.command _ _ _ fun _ hu => hu.draw.others.setF notId _ _⟩

theorem execNonceExpire_wf (h : s.Wf) : NextWf (execNonceExpire s) := whenOn_next h fun _ hu => hu.endNonce

theorem State.Wf.transition (h : s.Wf) (op : Nat) (c : Cmd) (target : Nat) (authorised : Bool) (key : List Byte) :
    (s.transition op c target authorised key).Wf := by
  refine CmdRes.Wf.ite ((State.Wf.ite h.endNonce h).signatureFail _ _) ?_
  split
  · exact (State.Wf.ite h.endNonce h)
  · exact (State.Wf.ite h.endNonce h).others

theorem execLcProvision_wf (h : s.Wf) (c : Cmd) : NextWf (execLcProvision c s) := ⟨_, rfl, h.command _ _ _ fun _ hu => hu.transition _ _ _ _ _⟩

theorem execLcTransition_wf (h : s.Wf) (c : Cmd) : NextWf (execLcTransition c s) :=
  ⟨_, rfl, h.command _ _ _ fun _ hu => CmdRes.Wf.ite (State.Wf.ite hu.endNonce hu) (hu.transition _ _ _ _ _)⟩

theorem execLcOwnerRotate_wf (h : s.Wf) (c : Cmd) : NextWf (execLcOwnerRotate c s) := ⟨_, rfl, h.command _ _ _ fun _ hu => hu.transition _ _ _ _ _⟩

theorem State.Wf.eraseOwner (h : s.Wf) : s.eraseOwner.Wf := h.others.foldl fun _ _ _ hu => hu.setProg _ _

theorem execLcTransitionDone_wf (h : s.Wf) (entropyOk : Bool) : NextWf (execLcTransitionDone entropyOk s) := by
  refine whenOn_next h fun _ hu => ?_
  split
  · exact (State.Wf.ite hu.draw.others hu).andThen fun h1 => .ite (hu.others.final _ _ _)
      (((State.Wf.ite h1.eraseOwner h1).others.lcSync.logEvent _ _ _).final _ _ _)
  · exact hu

theorem execLcStatus_wf (h : s.Wf) (c : Cmd) : NextWf (execLcStatus c s) := ⟨_, rfl, h.command _ _ _ fun _ hu => hu⟩

theorem execLcIdentity_wf (h : s.Wf) (c : Cmd) : NextWf (execLcIdentity c s) := ⟨_, rfl, h.command _ _ _ fun _ hu => hu⟩

theorem execLcAttest_wf (h : s.Wf) (c : Cmd) : NextWf (execLcAttest c s) := ⟨_, rfl, h.command _ _ _ fun _ hu => hu⟩

theorem execTapInstruction_wf (h : s.Wf) (n : Nat) : NextWf (execTapInstruction n s) := whenOn_next h fun _ hu => .ite hu.others hu

/-! ### Power and temperature -/

theorem execVinPowerWarn_wf (h : s.Wf) (vin : Nat) : NextWf (execVinPowerWarn vin s) :=
  whenOn_next h fun _ hu => ((hu.logEvent _ _ _).seen notId _ _).others

theorem State.Wf.lockout (h : s.Wf) : s.lockout.Wf := by
  unfold State.lockout
  split
  · exact h
  · exact h
  · exact h
  · exact h.nonvolatile _

theorem execUndervoltageLockout_wf (h : s.Wf) : NextWf (execUndervoltageLockout s) := ⟨_, rfl, h.lockout⟩

theorem execOvervoltageLockout_wf (h : s.Wf) : NextWf (execOvervoltageLockout s) := ⟨_, rfl, h.lockout⟩

theorem State.Wf.auxFault (h : s.Wf) (v i : Nat) : (s.auxFault v i).Wf :=
  (((((h.setSeenB notId _ _).setFB notId _ _ _).bump notId).logEvent _ _ _).raise _).others

theorem execAuxRailFault_wf (h : s.Wf) (v i : Nat) : NextWf (execAuxRailFault v i s) := whenOn_next h fun _ hu => .ite hu (hu.auxFault _ _)

theorem execAuxRailRetry_wf (h : s.Wf) (ok : Bool) (v i : Nat) : NextWf (execAuxRailRetry ok v i s) :=
  whenOn_next h fun _ hu => .ite hu (.ite ((hu.setFB notId _ _ _).others) (hu.auxFault _ _))

theorem execSenseWireOpen_wf (h : s.Wf) (r : Nat) : NextWf (execSenseWireOpen r s) :=
  whenOn_next h fun _ hu => .ite ((hu.setF notId _ _).logEvent _ _ _) hu

theorem execDroopSag_wf (h : s.Wf) (d : Nat) : NextWf (execDroopSag d s) :=
  whenOn_next h fun _ hu => .ite hu ((((hu.setFB notId _ _ _).setSeenB notId _ _).bump notIdAt).raise _)

theorem execDroopStretchEnd_wf (h : s.Wf) (d us : Nat) : NextWf (execDroopStretchEnd d us s) :=
  whenOn_next h fun _ hu => .ite ((hu.setFB notId _ _ _).bumpBy notId _ _) hu

theorem State.Wf.enterBand (h : s.Wf) (n b : Nat) : (s.enterBand n b).Wf :=
  (((h.setF notIdAt _ _).others.drClose _ _).drClose _ _).andThen fun h1 => .ite h1 (h1.seen notIdAt _ _)

theorem State.Wf.chanBand (h : s.Wf) (n : Nat) : (s.chanBand n).Wf :=
  ((h.setF notIdAt _ _).setF notIdAt _ _).andThen fun h1 => .ite h
    (.ite (.ite (h.setF notIdAt _ _) ((h.setF notIdAt _ _).enterBand _ _)) (.ite h1 (h1.enterBand _ _)))

theorem State.Wf.slewBand (h : s.Wf) : s.slewBand.Wf := .ite ((h.setF notId _ _).others) h

theorem State.Wf.setK (h : s.Wf) (d k : Nat) : (s.setK d k).Wf := .ite h ((((State.Wf.ite (h.bump notId) h).setF notId _ _).others).kwSync)

theorem State.Wf.throttle (h : s.Wf) (d : Nat) (spike : Bool) : (s.throttle d spike).Wf := h.others.setK _ _

theorem execKsStepTick_wf (h : s.Wf) : NextWf (execKsStepTick s) := whenOn_next h fun _ hu => .ite (.ite (hu.setK _ _) hu) (.ite (hu.setK _ _) hu)

theorem State.Wf.logShutdown (h : s.Wf) (cause sensor first confirm : Nat) (critical : Bool) :
    (s.logShutdown cause sensor first confirm critical).Wf :=
  h.logEvent _ _ _

theorem State.Wf.stopSlices (h : s.Wf) : s.stopSlices.Wf := h.foldl fun _ _ _ hu => .ite (hu.setSlice _ _) ((hu.setSlice _ _).setF notIdAt _ _)

theorem State.Wf.shutdown (h : s.Wf) (core : Bool) (cause sensor first confirm : Nat) : (s.shutdown core cause sensor first confirm).Wf := by
  unfold State.shutdown
  extract_lets _ s1 s2 s3
  have h1 : s1.Wf := (((h.setF notId _ _).setF notId _ _).bump notId).logShutdown _ _ _ _ _
  have h2 : s2.Wf := (h1.seen notId _ _).fence _ _
  have h3 : s3.Wf := .ite h2.stopSlices h2
  exact .ite h h3.others

theorem State.Wf.critical (h : s.Wf) (sensor first confirm : Nat) : (s.critical sensor first confirm).Wf :=
  ((h.logShutdown _ _ _ _ _).fence _ _).others.nonvolatile _

theorem execShutdownLogWritten_wf (h : s.Wf) : NextWf (execShutdownLogWritten s) :=
  whenOn_next h fun _ hu => .ite ((State.Wf.compDown (.ite (hu.computeLost _) hu)).others) hu

theorem State.Wf.showSensor (h : s.Wf) (n : Nat) : (s.showSensor n).Wf :=
  ((h.setF notIdAt _ _).setF notIdAt _ _).andThen fun h1 => .ite h1 (h1.setF notIdAt _ _)

theorem State.Wf.degraded (h : s.Wf) : s.degraded.Wf := h.setF notId _ _

theorem State.Wf.nearMiss (h : s.Wf) : s.nearMiss.Wf := (h.bump notId).seen notId _ _

theorem State.Wf.sensorLost (h : s.Wf) (n : Nat) : (s.sensorLost n).Wf :=
  (State.Wf.ite ((h.logEvent _ _ _).logEvent _ _ _) (h.logEvent _ _ _)).andThen fun h1 => .ite (h1.shutdown _ _ _ _ _) h1

theorem State.Wf.confirmed (h : s.Wf) (n : Nat) (first second : Int) : (s.confirmed n first second).Wf :=
  .ite (h.critical _ _ _) (.ite (h.shutdown _ _ _ _ _) (.ite (h.shutdown _ _ _ _ _) h))

theorem State.Wf.reading (h : s.Wf) (n : Nat) (r : Option Int) : (s.reading n r).Wf := by
  refine .ite h ?_
  extract_lets _ _ _ _ _ _ s2 _ s4
  have h2 : s2.Wf := (((h.setSensor _ _).showSensor _).degraded).andThen fun h1 => .ite (h1.throttle _ _) h1
  have h4 : s4.Wf := (State.Wf.ite h2.slewBand h2).andThen fun h1 => .ite (h1.chanBand _) h1
  exact (State.Wf.ite (h4.sensorLost _) h4).andThen fun h1 => .ite (.ite (h1.confirmed _ _ _) h1.nearMiss) h1

theorem execFastReading_wf (h : s.Wf) (n : Nat) (raw : Option Int) : NextWf (execFastReading n raw s) :=
  whenOn_next h fun _ hu => .ite (hu.reading _ _) hu

theorem State.Wf.spendRestart (h : s.Wf) : s.spendRestart.Wf := h.others

theorem State.Wf.startCompute (h : s.Wf) : s.startCompute.Wf := ((h.endNonce.setF notId _ _).bumpBy notId _ _).others

theorem State.Wf.recover (h : s.Wf) (commanded : Bool) : (s.recover commanded).Wf := by
  unfold State.recover
  extract_lets _ s1
  have h1 : s1.Wf := ((h.setF notId _ _).setF notId _ _).logEvent _ _ _
  exact .ite h1 (.ite (h1.startCompute.foldl fun _ _ _ hu => .ite (hu.restartSlice _) hu) h1.startCompute)

theorem State.Wf.autoRestart (h : s.Wf) : s.autoRestart.Wf := .ite (.ite (h.setF notId _ _) (.ite (h.spendRestart.recover _) h)) h

theorem State.Wf.readDiode (h : s.Wf) (x0 : Int) : (s.readDiode x0).Wf := (h.setF notId _ _).setF notId _ _

theorem State.Wf.readBoard (h : s.Wf) (k : Nat) (x1 : Int) : (s.readBoard k x1).Wf := by
  unfold State.readBoard
  extract_lets s1
  have h1 : s1.Wf := ((h.setF notId _ _).setF notId _ _).setF notId _ _
  exact .ite (h1.setF notId _ _) h1

theorem execSlowRound_wf (h : s.Wf) (raws : List (Option Int)) (diode : Int) (vin iin pin good bth : Nat) (board : Int) :
    NextWf (execSlowRound raws diode vin iin pin good bth board s) := by
  refine whenOn_next h fun _ hu => ?_
  extract_lets _ s2
  have h2 : s2.Wf := (((((hu.setF notId _ _).setF notId _ _).setF notId _ _).setF notId _ _).readDiode _).readBoard _ _
  exact (h2.foldl fun _ _ _ hv => hv.reading _ _).andThen fun h1 => .ite h1.autoRestart h1

theorem execComputeRestartDone_wf (h : s.Wf) : NextWf (execComputeRestartDone s) :=
  whenOn_next h fun _ hu => .ite ((hu.compUp.integResume _ _).others) hu

theorem execPadFault_wf (h : s.Wf) (b driven ball : Nat) : NextWf (execPadFault b driven ball s) :=
  whenOn_next h fun _ hu => .ite ((State.Wf.ite hu ((hu.setSeenB notId _ _).logEvent _ _ _)).raise _) hu

theorem execPwStatus_wf (h : s.Wf) (c : Cmd) : NextWf (execPwStatus c s) := ⟨_, rfl, h.command _ _ _ fun _ hu => hu⟩

theorem execPwTempRead_wf (h : s.Wf) (c : Cmd) : NextWf (execPwTempRead c s) := ⟨_, rfl, h.command _ _ _ fun _ hu => hu⟩

theorem State.Wf.pwConfig (h : s.Wf) (ctl slew : Word) : (s.pwConfig ctl slew).Wf := (h.configAll _).others

theorem execPwConfig_wf (h : s.Wf) (c : Cmd) : NextWf (execPwConfig c s) := ⟨_, rfl, h.command _ _ _ fun _ hu => hu.pwConfig _ _⟩

theorem execPwRestart_wf (h : s.Wf) (c : Cmd) : NextWf (execPwRestart c s) :=
  ⟨_, rfl, h.command _ _ _ fun _ hu => CmdRes.Wf.ite trivial (CmdRes.Wf.ite trivial (hu.recover _))⟩

theorem execPwLogRead_wf (h : s.Wf) (c : Cmd) : NextWf (execPwLogRead c s) := ⟨_, rfl, h.command _ _ _ fun _ hu => hu⟩

theorem execPwDiodeRead_wf (h : s.Wf) (c : Cmd) (diode : Int) : NextWf (execPwDiodeRead c diode s) :=
  ⟨_, rfl, h.command _ _ _ fun _ hu => (hu.readDiode _).draw⟩

theorem execPwCntClrAll_wf (h : s.Wf) : NextWf (execPwCntClrAll s) := whenOn_next h fun _ hu => hu.clearCounters (notIds (by decide))

/-! ### The channeliser -/

theorem State.Wf.sendRecord (h : s.Wf) (p st epoch : Nat) (closing noData : Bool) : (s.sendRecord p st epoch closing noData).Wf := h.others

theorem State.Wf.stdPath (h : s.Wf) (k j : Nat) : (s.stdPath k j).Wf := by
  unfold State.stdPath
  extract_lets _ _ _ _ _ _ _ _ _ _ _ _ _ _ _ _ _ _ _ _ s2
  have h2 : s2.Wf := .ite ((h.setScale _ _).sendRecord _ _ _ _ _) (h.setScale _ _)
  exact (State.Wf.ite (h2.bumpBy notIdAt _ _) h2).andThen fun h1 => (State.Wf.ite (h1.bump notIdAt) h1).setSlice _ _

theorem State.Wf.stdSpectrum (h : s.Wf) (k : Nat) (e : Ecc) : (s.stdSpectrum k e).Wf :=
  .ite (.ite ((h.eccSeen _ _).sliceExc _ _) (((((h.eccSeen _ _).calSwap _ _).foldl fun _ _ _ hu => hu.stdPath _ _).setSlice _ _).nextSpectrum _)) h

theorem State.Wf.issueSlice (h : s.Wf) (k : Nat) (e : Ecc) : (s.issueSlice k e).Wf := .ite (.ite (h.stdSpectrum _ _) (h.issue _ _)) h

theorem execBundleIssue_wf (h : s.Wf) (i : Issue) : NextWf (execBundleIssue i s) := whenOn_next h fun _ hu => .ite hu (hu.issueSlice _ _)

theorem execVldsStallEnd_wf (h : s.Wf) (i : Issue) : NextWf (execVldsStallEnd i s) :=
  whenOn_next h fun _ hu => .ite ((hu.setSlice _ _).issueSlice _ _) hu

theorem State.Wf.pathSeen (h : s.Wf) (k j fw : Nat) (stage : Bool) : (s.pathSeen k j fw stage).Wf := by
  unfold State.pathSeen
  extract_lets _ s2
  have h2 : s2.Wf := (State.Wf.ite (h.setSeen notIdAt2 _ _) h).andThen fun h1 => .ite (h1.setSeen notIdAt2 _ _) h1
  exact (State.Wf.ite (h2.setSeen notIdAt2 _ _) h2).andThen fun h1 => .ite (h1.bump notIdAt) h1

theorem State.Wf.lastOut (h : s.Wf) (k : Nat) (w : OutWait) (fw : Nat) : (s.lastOut k w fw).Wf :=
  .ite (h.ringBlock _ _ _ _ _ _) (.ite (h.setSlice _ _).others (h.setSlice _ _))

theorem execOutComplete_wf (h : s.Wf) (k : Nat) : NextWf (execOutComplete k s) := by
  refine whenOn_next h fun _ hu => ?_
  dsimp only
  split
  · exact hu
  · exact .ite hu (.ite hu (((((hu.setSlice _ _).pathSeen _ _ _ _).lastOut _ _ _).setSlice _ _).portDrain _))

theorem State.Wf.epochPath (h : s.Wf) (k b j : Nat) : (s.epochPath k b j).Wf :=
  (((h.sendRecord _ _ _ _ _).setScale _ _).setFB notIdAt _ _ _).andThen fun h1 => .ite (h1.bump notIdAt) h1

theorem State.Wf.epochCross (h : s.Wf) (k b : Nat) : (s.epochCross k b).Wf :=
  .ite ((h.foldl fun _ _ _ hu => hu.epochPath _ _ _).others.setReg64 notId notId _) h

theorem execScaleEpochBoundary_wf (h : s.Wf) (k : Nat) : NextWf (execScaleEpochBoundary k s) := by
  refine whenOn_next h fun _ hu => ?_
  split
  · exact hu
  · exact .ite hu (hu.epochCross _ _)

theorem execProgramSwapLoadDone_wf (h : s.Wf) (k : Nat) : NextWf (execProgramSwapLoadDone k s) := by
  refine whenOn_next h fun _ hu => ?_
  split
  · refine .ite ?_ hu
    refine .startSlice ?_ _ _ _
    split
    · exact hu.epochCross _ _
    · exact hu
  · exact hu

theorem execCalBankCopyDone_wf (h : s.Wf) (k : Nat) : NextWf (execCalBankCopyDone k s) :=
  whenOn_next h fun _ hu => .ite ((hu.setSlice _ _).setF notIdAt _ _) hu

theorem execChCalLoad_wf (h : s.Wf) (c : Cmd) : NextWf (execChCalLoad c s) :=
  ⟨_, rfl, h.command _ _ _ fun _ hu => CmdRes.Wf.ite trivial (hu.setSlice _ _)⟩

theorem execChCalFetch_wf (h : s.Wf) (c : Cmd) : NextWf (execChCalFetch c s) := ⟨_, rfl, h.command _ _ _ fun _ hu => CmdRes.Wf.ite trivial hu.others⟩

theorem State.Wf.calLoadSet (h : s.Wf) (set k : Nat) (bank : Bool) : (s.calLoadSet set k bank).Wf := h.setSlice _ _

theorem execChCalFetchDone_wf (h : s.Wf) : NextWf (execChCalFetchDone s) := by
  refine whenOn_next h fun _ hu => ?_
  split
  · exact (hu.foldl fun _ _ _ hv => hv.calLoadSet _ _ _).others.final _ _ _
  · exact hu

theorem execChCalStore_wf (h : s.Wf) (c : Cmd) : NextWf (execChCalStore c s) := ⟨_, rfl, h.command _ _ _ fun _ hu => CmdRes.Wf.ite trivial hu.others⟩

theorem execChCalStoreDone_wf (h : s.Wf) : NextWf (execChCalStoreDone s) := by
  refine whenOn_next h fun _ hu => ?_
  split
  · exact hu.others.final _ _ _
  · exact hu

theorem execChScaleRead_wf (h : s.Wf) (c : Cmd) : NextWf (execChScaleRead c s) := ⟨_, rfl, h.command _ _ _ fun _ hu => hu⟩

/-! ### Scheduled commands -/

theorem State.Wf.schedule (h : s.Wf) (op : Nat) (c : Cmd) : (s.schedule op c).Wf := by
  refine CmdRes.Wf.ite (h.bump notId) ?_
  refine CmdRes.Wf.ite (h.bump notId) ?_
  refine CmdRes.Wf.ite (h.bump notId) ?_
  split
  · exact CmdRes.Wf.ite (h.bump notId) trivial
  · exact h.queueEvent _ _ _ _ _

theorem State.Wf.schedCommand (h : s.Wf) (op : Nat) (c : Cmd) : (s.schedCommand op c).Wf := h.command _ _ _ fun _ hu => hu.schedule _ _

theorem execMdProgSwap_wf (h : s.Wf) (c : Cmd) : NextWf (execMdProgSwap c s) := ⟨_, rfl, h.schedCommand _ _⟩

theorem execChDelaySet_wf (h : s.Wf) (c : Cmd) : NextWf (execChDelaySet c s) := ⟨_, rfl, h.schedCommand _ _⟩

theorem execChCalSwap_wf (h : s.Wf) (c : Cmd) : NextWf (execChCalSwap c s) := ⟨_, rfl, h.schedCommand _ _⟩

theorem execChTargetSet_wf (h : s.Wf) (c : Cmd) : NextWf (execChTargetSet c s) := ⟨_, rfl, h.schedCommand _ _⟩

theorem execIxProductSet_wf (h : s.Wf) (c : Cmd) : NextWf (execIxProductSet c s) := ⟨_, rfl, h.schedCommand _ _⟩

theorem execIxIntegStop_wf (h : s.Wf) (c : Cmd) : NextWf (execIxIntegStop c s) := ⟨_, rfl, h.schedCommand _ _⟩

theorem execWdPolySwap_wf (h : s.Wf) (c : Cmd) : NextWf (execWdPolySwap c s) := ⟨_, rfl, h.schedCommand _ _⟩

theorem execWdBeamConfig_wf (h : s.Wf) (c : Cmd) : NextWf (execWdBeamConfig c s) := ⟨_, rfl, h.schedCommand _ _⟩

theorem execSfTrigConfig_wf (h : s.Wf) (c : Cmd) : NextWf (execSfTrigConfig c s) := ⟨_, rfl, h.schedCommand _ _⟩

theorem execSfUbConfig_wf (h : s.Wf) (c : Cmd) : NextWf (execSfUbConfig c s) := ⟨_, rfl, h.schedCommand _ _⟩

theorem execEtCtConfig_wf (h : s.Wf) (c : Cmd) : NextWf (execEtCtConfig c s) := ⟨_, rfl, h.schedCommand _ _⟩

theorem execTmTaiMap_wf (h : s.Wf) (c : Cmd) : NextWf (execTmTaiMap c s) := ⟨_, rfl, h.schedCommand _ _⟩

theorem execTmPtpStep_wf (h : s.Wf) (c : Cmd) : NextWf (execTmPtpStep c s) := ⟨_, rfl, h.schedCommand _ _⟩

theorem execFwActivate_wf (h : s.Wf) (c : Cmd) : NextWf (execFwActivate c s) := ⟨_, rfl, h.schedCommand _ _⟩

theorem execProfActivate_wf (h : s.Wf) (c : Cmd) : NextWf (execProfActivate c s) := ⟨_, rfl, h.schedCommand _ _⟩

theorem State.Wf.handover (h : s.Wf) (c : Cmd) : (s.handover c).Wf := by
  have hs := h.schedule 0x0A05 c
  unfold State.handover
  generalize s.schedule 0x0A05 c = x at hs
  cases x with
  | scheduled ws s1 => exact .ite hs (State.Wf.others (hs.mlSend _))
  | _ => exact hs

theorem execRoleHandover_wf (h : s.Wf) (c : Cmd) : NextWf (execRoleHandover c s) := ⟨_, rfl, h.command _ _ _ fun _ hu => hu.handover _⟩

theorem State.Wf.applySwap (h : s.Wf) (b n mask : Nat) : (s.applySwap b n mask).Wf :=
  h.foldl fun _ _ _ hu => .ite (((hu.setSlice _ _).setF notIdAt _ _).setF notIdAt _ _) ((hu.setSlice _ _).setF notIdAt _ _)

theorem State.Wf.applyDelaySet (h : s.Wf) (b : Nat) (c : Cmd) : (s.applyDelaySet b c).Wf :=
  h.foldl fun _ _ _ hu => .ite ((hu.setSlice _ _).applyDelays _) (hu.setSlice _ _)

theorem State.Wf.applyCalSwap (h : s.Wf) (b mask : Nat) (keep : Bool) : (s.applyCalSwap b mask keep).Wf := by
  refine h.foldl fun _ _ _ hu => ?_
  extract_lets _ _ s2
  have h2 : s2.Wf := .ite hu.others (hu.others.foldl fun _ _ _ hv => hv.setScale _ _)
  exact .ite h2 (h2.calSwitch _)

theorem State.Wf.applyTarget (h : s.Wf) (b tau : Nat) : (s.applyTarget b tau).Wf := h.others.setF notId _ _

theorem State.Wf.applyHandoff (h : s.Wf) (e : Event) : (s.applyHandoff e).Wf := h.others

theorem State.Wf.applyProfile (h : s.Wf) (b n : Nat) : (s.applyProfile b n).Wf := by
  unfold State.applyProfile
  extract_lets _ _ _ s1
  have h1 : s1.Wf := .ite ((h.foldl fun _ _ _ hu => hu.calLoadSet _ _ _).applyCalSwap _ _ _) h
  exact ((((State.Wf.ite ((h1.polySet _ _ _).applyPolySwap _) h1).foldl fun _ _ _ hu => hu.applySwap _ _ _).setF notId _ _).setF notId _ _).others

theorem State.Wf.applyEvent (h : s.Wf) (e : Event) : (s.applyEvent e).Wf := by
  unfold State.applyEvent
  dsimp only
  split
  · exact h.applySwap _ _ _
  · exact h.applyDelaySet _ _
  · exact h.applyCalSwap _ _ _
  · exact h.applyTarget _ _
  · exact h.applySet _ _
  · exact h.applyStop _
  · exact h.applyPolySwap _
  · exact h.applyBeams _ _
  · exact h.applyTrig _ _
  · exact h.applyCt _ _
  · exact h.applyTaiMap _
  · exact h.applyPtpStep _
  · exact .ite (h.promote _) (h.fence _ _)
  · exact h.applyHandoff _
  · exact h.applyProfile _ _
  · exact h

theorem State.Wf.notify (h : s.Wf) (e : Event) (status : Nat) (words : List Word) : (s.notify e status words).Wf := .ite h.others (h.notice _ _ _)

theorem State.Wf.fireEvent (h : s.Wf) (e : Event) : (s.fireEvent e).Wf := by
  unfold State.fireEvent
  extract_lets s1 s2
  have h1 : s1.Wf := h.dropEvent _
  have h2 : s2.Wf := (((h1.applyEvent e).bump notId).schedSync).deltaSend
  refine .ite (((h1.logDiscard _ _).bump notId).notify _ _ _) ?_
  split
  · exact State.Wf.notify h2.others _ _ _
  · exact .ite h2 (h2.notify _ _ _)

theorem execEventFire_wf (h : s.Wf) : NextWf (execEventFire s) := by
  refine whenOn_next h fun _ hu => ?_
  split
  · exact .ite (hu.fireEvent _) hu
  · exact hu

theorem State.Wf.discardEvent (h : s.Wf) (e : Event) (status : Nat) : (s.discardEvent e status).Wf :=
  ((((h.dropEvent _).logDiscard _ _).bump notId).raise _).notify _ _ _

theorem State.Wf.markCommitted (h : s.Wf) (x0 : Nat) : (s.markCommitted x0).Wf := h.others

/-! ### Resets and start-up steps 1 and 2 -/

theorem State.Wf.setPhase (h : s.Wf) (p : Nat) : (s.setPhase p).Wf := h.setF notId _ _

theorem State.Wf.markInvalid (h : s.Wf) (n : Nat) : (s.markInvalid n).Wf := h.setFwSlot _ _

theorem State.Wf.bootFrom (h : s.Wf) (n : Nat) : (s.bootFrom n).Wf := (h.others.setF notId _ _).lcSync

theorem State.Wf.secureBoot (h : s.Wf) : s.secureBoot.Wf := by
  unfold State.secureBoot
  dsimp only
  split
  · exact h.bootFrom _
  · exact .ite ((((h.markInvalid _).bootFrom _).seen notId _ _).logEvent _ _ _) h.others.lcSync

theorem State.Wf.trialLost (h : s.Wf) : s.trialLost.Wf := .ite (h.others.seen notId _ _) h

theorem State.Wf.storeSync (h : s.Wf) : s.storeSync.Wf := h.foldl fun _ _ _ hu => hu.setFB notId _ _ _

theorem State.Wf.unlogged (h : s.Wf) : s.unlogged.Wf := .ite h ((h.logEvent _ _ _).seen notId _ _)

theorem State.Wf.startUp (h : s.Wf) (cause : Nat) (pins : Option Nat) : (s.startUp cause pins).Wf := by
  unfold State.startUp
  extract_lets _ s1 _ s3
  have h1 : s1.Wf := ((((h.nonvolatile _).setPhase _).setF notId _ _).setF notId _ _).setReg notId _
  have h3 : s3.Wf := ((h1.setF notId _ _).storeSync).andThen fun h1 => .trialLost (.secureBoot (.ite h1.unlogged h1))
  split
  · exact h3.others
  · exact (h3.others.others.setF notId _ _).andThen fun h1 => .ite h1 (h1.setPhase _)

theorem execHousekeepingPowerOn_wf (h : s.Wf) : NextWf (execHousekeepingPowerOn s) := by
  refine ⟨_, rfl, ?_⟩
  split
  · exact h
  · exact h
  · exact (h.nonvolatile _).others

theorem execVinValid_wf (h : s.Wf) (pins : Option Nat) : NextWf (execVinValid pins s) := by
  refine ⟨_, rfl, ?_⟩
  split
  · exact h.startUp _ _
  · exact h.startUp _ _
  · exact h.startUp _ _
  · exact h

theorem execColdResetAssert_wf (h : s.Wf) : NextWf (execColdResetAssert s) := by
  refine ⟨_, rfl, ?_⟩
  split
  · exact h.nonvolatile _
  · exact h.nonvolatile _
  · exact h

theorem execColdResetRelease_wf (h : s.Wf) (pins : Option Nat) : NextWf (execColdResetRelease pins s) := by
  refine ⟨_, rfl, ?_⟩
  split
  · exact h.startUp _ _
  · exact h

theorem execCriticalRestart_wf (h : s.Wf) (diode : Int) (pins : Option Nat) : NextWf (execCriticalRestart diode pins s) := by
  refine ⟨_, rfl, ?_⟩
  split
  · exact .ite (((h.spendRestart.startUp _ _).readDiode _).logEvent _ _ _) h
  · exact h

theorem execTransitionReset_wf (h : s.Wf) (pins : Option Nat) : NextWf (execTransitionReset pins s) :=
  whenOn_next h fun _ hu => .ite (hu.startUp _ _) hu

theorem execProfilePinsUnstable_wf (h : s.Wf) (samples : Nat) : NextWf (execProfilePinsUnstable samples s) :=
  whenOn_next h fun _ hu => (hu.others.logEvent _ _ _).andThen fun h1 => .ite (.ite h1 (h1.setPhase _)) hu

theorem State.Wf.abandon (h : s.Wf) (kind : Nat) (q : QEntry) : (s.abandon kind q).Wf :=
  (State.Wf.ite h (h.cacheReply _ _)).andThen fun h1 => .ite h1.others h1

theorem State.Wf.flashDone (h : s.Wf) : s.flashDone.Wf :=
  have h1 := nextOf_wf h (execChCalStoreDone_wf h)
  have h2 := nextOf_wf h1 (execWdPolyStoreDone_wf h1)
  nextOf_wf h2 (execDrTableStoreDone_wf h2)

theorem State.Wf.accessDrop (h : s.Wf) : s.accessDrop.Wf := h.foldl fun _ _ _ hu => .ite hu ((hu.setOct _ _).ctlNext _)

theorem State.Wf.opsStop (h : s.Wf) : s.opsStop.Wf := ((h.accessDrop.others.setF notId _ _).setF notId _ _).setF notId _ _

theorem State.Wf.cpClear (h : s.Wf) : s.cpClear.Wf :=
  (((h.clearRegs (notIds (by decide))).setF notId _ _).setF notId _ _).setF notId _ _

theorem State.Wf.boxesEmpty (h : s.Wf) : s.boxesEmpty.Wf :=
  (((h.others.foldl fun _ _ _ hu => hu.freeSlot _).setF notId _ _).setF notId _ _).setF notId _ _

/-- With the shadow copies and the staged halves gone. -/
theorem State.Wf.noHalves (h : s.Wf) {cp : CpSt} : ({ s with shadow := [], staged := [], cp := cp } : State).Wf :=
  ⟨h.regs, rfl, rfl, h.mem, h.log, h.id, h.rev, h.slices, h.tiles, h.ports⟩

theorem State.Wf.warmReset (h : s.Wf) : s.warmReset.Wf := by
  unfold State.warmReset
  extract_lets s1 s2 s3 _ _ s4
  have h2 : s2.Wf := h.flashDone.foldl fun _ _ _ hu => hu.abandon _ _
  have h3 : s3.Wf := h2.foldl fun _ _ _ hu => hu.abandon _ _
  have h4 : s4.Wf := h3.opsStop.noHalves
  exact (h4.cpClear.boxesEmpty.endNonce.queueSync.setF notId _ _).bumpBy notId _ _

theorem State.Wf.resetCheck (h : s.Wf) (c : Cmd) : (s.resetCheck c).Wf := by
  refine CmdRes.Wf.ite ?_ (CmdRes.Wf.ite trivial h)
  split
  · exact trivial
  · exact CmdRes.Wf.ite trivial h

theorem State.Wf.computeRestart (h : s.Wf) : s.computeRestart.Wf := ((h.computeLost _).compDown).startCompute

theorem State.Wf.sysReset (h : s.Wf) (c : Cmd) : (s.sysReset c).Wf := by
  unfold State.sysReset
  extract_lets t
  have ht : t.Wf := h.command _ _ _ fun _ hu => hu.resetCheck c
  refine .ite ?_ ht
  split
  · exact .ite ht.warmReset ht.computeRestart
  · exact ht

theorem execSysResetWarm_wf (h : s.Wf) (c : Cmd) : NextWf (execSysResetWarm c s) := ⟨_, rfl, h.sysReset _⟩

theorem execSysResetCompute_wf (h : s.Wf) (c : Cmd) : NextWf (execSysResetCompute c s) := ⟨_, rfl, h.sysReset _⟩

theorem State.Wf.niethFault (h : s.Wf) (cause : Nat) : (s.niethFault cause).Wf :=
  .ite ((((((h.warmReset.others.setF notId _ _).setF notId _ _).setF notId _ _).lcSync).seen notId _ _).logEvent _ _ _) h.warmReset

theorem execWatchdogFault_wf (h : s.Wf) : NextWf (execWatchdogFault s) := whenOn_next h fun _ hu => .ite hu (hu.niethFault _)

theorem execLockstepFault_wf (h : s.Wf) : NextWf (execLockstepFault s) := whenOn_next h fun _ hu => .ite hu (hu.niethFault _)

theorem State.Wf.takeHeld (h : s.Wf) (x0 : HeldPacket) : (s.takeHeld x0).Wf := by
  unfold State.takeHeld
  split
  · refine .arrive ?_ _ _
    split
    · exact h.rxTake _ _
    · exact h
  · exact h.arrive _ _

theorem execNiethServing_wf (h : s.Wf) : NextWf (execNiethServing s) :=
  whenOn_next h fun _ hu => .ite hu (hu.others.foldl fun _ _ _ hv => hv.takeHeld _)

theorem execProfStore_wf (h : s.Wf) (c : Cmd) : NextWf (execProfStore c s) := by
  refine ⟨_, rfl, ?_⟩
  refine h.command _ _ _ fun _ hu => ?_
  refine CmdRes.Wf.ite trivial ?_
  refine CmdRes.Wf.ite hu.others ?_
  dsimp only
  split
  · exact trivial
  · exact hu.others.others

theorem execProfList_wf (h : s.Wf) (c : Cmd) : NextWf (execProfList c s) := ⟨_, rfl, h.command _ _ _ fun _ hu => hu⟩

theorem State.Wf.fwStore (h : s.Wf) (c : Cmd) : (s.fwStore c).Wf := by
  unfold State.fwStore
  dsimp only
  split
  · exact trivial
  · refine CmdRes.Wf.ite h.others ?_
    split
    · exact trivial
    · exact (h.others.setFwSlot _ _).lcSync

theorem execFwStore_wf (h : s.Wf) (c : Cmd) : NextWf (execFwStore c s) := by
  refine ⟨_, rfl, ?_⟩
  have ht := h.command 0x0C10 c (fun _ => chunkBad (2 ^ 25) c) fun _ hu => hu.fwStore c
  refine .ite ?_ ht
  split
  · exact State.Wf.startUp ht.others _ _
  · exact ht

/-! ### Register writes -/

theorem clearIf_wf (h : s.Wf) {act : State → Host.Outcome State Fault Refusal} (ha : NextWf (act s)) (v : Word) (f : Fld) : (clearIf v f act s).Wf :=
  .ite (nextOf_wf h ha) h

theorem State.Wf.counterClear (h : s.Wf) (off : Nat) (v : Word) : OptWf (s.counterClear off v) := by
  have clear : ∀ {u : State} {act : State → Host.Outcome State Fault Refusal} (f : Fld), u.Wf → (∀ {w : State}, w.Wf → NextWf (act w)) →
    (clearIf v f act u).Wf :=
    fun f hu ha => clearIf_wf hu (ha hu) v f
  have one : ∀ {act : State → Host.Outcome State Fault Refusal} (f : Fld), (∀ {w : State}, w.Wf → NextWf (act w)) →
    OptWf (some (clearIf v f act s)) :=
    fun f ha => .some (clear f h ha)
  have ht := clear ET_CNT_CLR_CT (clear ET_CNT_CLR_ALL h execEtCntClrAll_wf) execEtCntClrCt_wf
  have hd := clear DR_CNT_CLR_ALL h execDrCntClrAll_wf
  refine .ite (one _ execGlbCntClrAv_wf) (.ite (.some (clear _ (clear _ h execSlCntClrAll_wf) fun hu => execSlCntClrOctet_wf hu _)) ?_)
  refine .ite (.some (clear _ (clear _ h execMdCntClrAll_wf) fun hu => execMdCntClrSlice_wf hu _)) ?_
  refine .ite (.some (clear _ (clear _ h execIxCntClrAll_wf) execIxCntClrSat_wf)) (.ite (one _ execWdCntClrAll_wf) ?_)
  refine .ite (one _ execSfCntClrAll_wf) (.ite (.some (nextOf_wf ht (execEtCntClrPorts_wf ht _))) (.ite (one _ execTmCntClrAll_wf) ?_))
  refine .ite (.some (nextOf_wf hd (execDrCntClrCh_wf hd _))) (.ite (.some (nextOf_wf h (execDmCntClrWrite_wf h v))) ?_)
  exact .ite (one _ execCpCntClrAll_wf) (.ite (one _ execMlCntClrAll_wf) (.ite (one _ execPwCntClrAll_wf) (.ite (one _ execScCntClrAll_wf) .none)))

theorem not_idReg_msixAt {off : Nat} {p : Nat × Nat} (hp : msixAt off = some p) : ¬ idReg off := by
  unfold msixAt at hp
  split at hp
  · exact not_idReg (by unfold GLB_CAP; omega)
  · cases hp

theorem State.Wf.interruptWrite (h : s.Wf) (off : Nat) (v : Word) : OptWf (s.interruptWrite off v) := by
  have act : ∀ {o : Host.Outcome State Fault Refusal}, NextWf o → OptWf (some (nextOf s o)) := fun ho => .some (nextOf_wf h ho)
  refine .ite (act (execEvIntStatClear_wf h v)) (.ite (act (execEvIntEnWrite_wf h v)) (.ite (act (execEvMdExcClear_wf h 0 v)) ?_))
  refine .ite (act (execEvMdExcClear_wf h 1 v)) (.ite (act (execEvMdEvtClear_wf h 0 v)) (.ite (act (execEvMdEvtClear_wf h 1 v)) (.ite (.some h) ?_)))
  exact .map fun p hp => .ite (h.setReg (not_idReg_msixAt hp) v) (.ite (h.unmask _) (h.setF notIdAt2 _ _))

theorem State.Wf.mailboxWrite (h : s.Wf) (r : Requester) (off : Nat) (v : Word) : OptWf (s.mailboxWrite r off v) :=
  .ite (.some (h.ring r _)) (.ite (.some (h.releaseSlots _)) (.ite (.some (h.readAdvance _ v)) (.ite (.some (h.readAdvance _ v)) .none)))

theorem State.Wf.dmaChannelWrite (h : s.Wf) (r : Requester) (n off : Nat) (v : Word) : (s.dmaChannelWrite r n off v).Wf := by
  refine .ite (h.dmCtlWrite r n v) (.ite (nextOf_wf h (execDmChDescWrite_wf h r n _ v)) (.ite (nextOf_wf h (execDmChDescWrite_wf h r n _ v)) ?_))
  split
  next d hd => exact .ite (h.violation _ _ _ _) (h.plainWrite r hd v)
  · exact h.violation _ _ _ _

theorem State.Wf.dmaWrite (h : s.Wf) (r : Requester) (off : Nat) (v : Word) : OptWf (s.dmaWrite r off v) := by
  have act : ∀ {o : Host.Outcome State Fault Refusal}, NextWf o → OptWf (some (nextOf s o)) := fun ho => .some (nextOf_wf h ho)
  refine .ite (act (execDmIntStatClear_wf h v)) (.ite (act (execDmHaltStatClear_wf h v)) (.ite (act (execDmIntEnWrite_wf h v)) ?_))
  exact .ite (act (execDmHaltEnWrite_wf h v)) (.map fun n _ => h.dmaChannelWrite r n off v)

theorem State.Wf.umberWrite (h : s.Wf) (r : Requester) (off : Nat) (v : Word) : OptWf (s.umberWrite r off v) :=
  .ite (.some (h.stageHalf r off v)) (.ite (.some (h.ubLenWrite r v)) (.ite (.some (nextOf_wf h (execSfUbArm_wf h v))) .none))

theorem State.Wf.pairLo (h : s.Wf) (r : Requester) (off : Nat) (v : Word) : (s.pairLo r off v).Wf := h.stageHalf _ _ _

theorem State.Wf.pairHi (h : s.Wf) (r : Requester) (off : Nat) (v : Word) : (s.pairHi r off v).Wf := by
  have h1 := h.unstage r off
  unfold State.pairHi
  dsimp only
  split
  next a b ha hb => exact (h1.plainWrite r ha _).plainWrite r hb v
  · exact h1

theorem State.Wf.armWrite (ht : t.Wf) (s : State) (off : Nat) : (s.armWrite t off).Wf := .ite (.ite ht.others (ht.others.setF notId _ _)) ht

theorem State.Wf.otherWrite (h : s.Wf) (r : Requester) (off : Nat) (v : Word) : (s.otherWrite r off v).Wf := by
  unfold State.otherWrite
  split
  · exact h.violation _ _ _ _
  next d hd =>
    exact .ite (h.violation _ _ _ _) (.ite (h.pairLo r off v) (.ite (h.pairHi r off v)
      (((h.plainWrite r hd v).armWrite s off).octetWrite s off)))

theorem State.Wf.wordWrite (h : s.Wf) (r : Requester) (off : Nat) (v : Word) : (s.wordWrite r off v).Wf :=
  OptWf.getD (.or (h.counterClear off v) (.or (h.interruptWrite off v)
    (.or (h.mailboxWrite r off v) (.or (h.dmaWrite r off v) (h.umberWrite r off v)))))
    (h.otherWrite r off v)

theorem State.Wf.busWrite (h : s.Wf) (r : Requester) (off be : Nat) (v : Word) : (s.busWrite r off be v).Wf := by
  refine .ite h ?_
  refine .ite (h.violation _ _ _ _) ?_
  split
  · exact h.foldl fun _ _ _ hu => hu.slotWrite _ _ _ _
  · exact .ite (h.violation _ _ _ _) (h.wordWrite _ _ _)

theorem execRegisterWrite_wf (h : s.Wf) (r : Requester) (off be : Nat) (v : Word) : NextWf (execRegisterWrite r off be v s) :=
  whenOn_next h fun _ hu => hu.busWrite _ _ _ _

theorem execPairLoWrite_wf (h : s.Wf) (r : Requester) (off : Nat) (v : Word) : NextWf (execPairLoWrite r off v s) :=
  whenOn_next h fun _ hu => .ite (hu.busWrite _ _ _ _) hu

theorem execPairHiWrite_wf (h : s.Wf) (r : Requester) (off : Nat) (v : Word) : NextWf (execPairHiWrite r off v s) :=
  whenOn_next h fun _ hu => .ite (hu.busWrite _ _ _ _) hu

theorem execMgmtRegisterWrite_wf (h : s.Wf) (off : Nat) (v : Word) : NextWf (execMgmtRegisterWrite off v s) :=
  whenOn_next h fun _ hu => hu.busWrite _ _ _ _

/-! ### Profile scripts -/

theorem State.Wf.profPut (h : s.Wf) {off : Nat} (ho : ¬ idReg off) (v : Word) (d : RegDesc) : (s.profPut off v d).Wf := by
  unfold State.profPut
  extract_lets x y s1 _ s2
  have h1 : s1.Wf := h.setReg ho _
  have h2 : s2.Wf := .ite h1.others h1
  exact .ite (h2.violation _ _ _ _) h2

theorem State.Wf.profWrite (h : s.Wf) (off : Nat) (v : Word) {d : RegDesc} (hd : profReg off = some d) : (s.profWrite off v d).Wf := by
  have ho := profReg_not_idReg hd
  refine .ite (h.stageHalf _ _ _) (.ite ?_ (h.profPut ho v d))
  split
  next a ha => exact ((h.unstage _ _).profPut (profReg_not_idReg ha) _ a).profPut ho v d
  · exact h.profPut ho v d

theorem State.Wf.regWriteAll (h : s.Wf) (c : Cmd) : (s.regWriteAll c).Wf := by
  refine h.foldl fun u p _ hu => ?_
  split
  next d hd => exact hu.profWrite _ _ hd
  · exact hu

theorem State.Wf.regCommand (h : s.Wf) (c : Cmd) : (s.regCommand c).Wf := by
  refine h.command _ _ _ fun _ hu => ?_
  split
  · exact trivial
  · exact hu.regWriteAll _

theorem execSysRegWrite_wf (h : s.Wf) (c : Cmd) : NextWf (execSysRegWrite c s) := ⟨_, rfl, h.regCommand _⟩

theorem State.Wf.runSystem (h : s.Wf) (op : Nat) (c : Cmd) : (s.runSystem op c).Wf := by
  unfold State.runSystem
  split
  · exact nextOf_wf h (execSysInfo_wf h _)
  · exact h.sysReset _
  · exact nextOf_wf h (execSysSession_wf h _)
  · exact h.regCommand _
  · exact nextOf_wf h (execSysAperture_wf h _)
  · exact h

theorem State.Wf.runLanes (h : s.Wf) (op : Nat) (c : Cmd) : (s.runLanes op c).Wf := by
  unfold State.runLanes
  split
  · exact nextOf_wf h (execLaneLadder_wf h _)
  · exact nextOf_wf h (execLaneSleep_wf h _)
  · exact nextOf_wf h (execLanePrbs_wf h _)
  · exact nextOf_wf h (execLaneStatus_wf h _)
  · exact nextOf_wf h (execAdcAccess_wf h _)
  · exact nextOf_wf h (execReleaseSet_wf h _)
  · exact h

theorem State.Wf.runMadder (h : s.Wf) (op : Nat) (c : Cmd) : (s.runMadder op c).Wf := by
  unfold State.runMadder
  split
  · exact nextOf_wf h (execMdProgStore_wf h _)
  · exact nextOf_wf h (execMdProgSwap_wf h _)
  · exact nextOf_wf h (execMdSliceStatus_wf h _)
  · exact nextOf_wf h (execMdSliceRestart_wf h _)
  · exact nextOf_wf h (execMdProgList_wf h _)
  · exact nextOf_wf h (execMdProgErase_wf h _)
  · exact nextOf_wf h (execChDelaySet_wf h _)
  · exact nextOf_wf h (execChCalLoad_wf h _)
  · exact nextOf_wf h (execChCalSwap_wf h _)
  · exact nextOf_wf h (execChCalFetch_wf h _)
  · exact nextOf_wf h (execChCalStore_wf h _)
  · exact nextOf_wf h (execChTargetSet_wf h _)
  · exact nextOf_wf h (execChScaleRead_wf h _)
  · exact h

theorem State.Wf.runCorrelator (h : s.Wf) (op : Nat) (c : Cmd) : (s.runCorrelator op c).Wf := by
  unfold State.runCorrelator
  split
  · exact nextOf_wf h (execIxProductSet_wf h _)
  · exact nextOf_wf h (execIxBudgetCheck_wf h _)
  · exact nextOf_wf h (execIxIntegStop_wf h _)
  · exact nextOf_wf h (execIxStatus_wf h _)
  · exact nextOf_wf h (execIxDumpRelease_wf h _)
  · exact nextOf_wf h (execIxTileMap_wf h _)
  · exact nextOf_wf h (execIxDumpRing_wf h _)
  · exact h

theorem State.Wf.runBeams (h : s.Wf) (op : Nat) (c : Cmd) : (s.runBeams op c).Wf := by
  unfold State.runBeams
  split
  · exact nextOf_wf h (execWdPolyLoad_wf h _)
  · exact nextOf_wf h (execWdPolySwap_wf h _)
  · exact nextOf_wf h (execWdBeamConfig_wf h _)
  · exact nextOf_wf h (execWdBudgetCheck_wf h _)
  · exact nextOf_wf h (execWdStatus_wf h _)
  · exact nextOf_wf h (execWdPolyFetch_wf h _)
  · exact nextOf_wf h (execWdPolyStore_wf h _)
  · exact h

theorem State.Wf.runTrigger (h : s.Wf) (op : Nat) (c : Cmd) : (s.runTrigger op c).Wf := by
  unfold State.runTrigger
  split
  · exact nextOf_wf h (execSfTrigConfig_wf h _)
  · exact nextOf_wf h (execSfTbpLoad_wf h _)
  · exact nextOf_wf h (execSfStatus_wf h _)
  · exact nextOf_wf h (execSfUbConfig_wf h _)
  · exact nextOf_wf h (execSfUbRearm_wf h _)
  · exact nextOf_wf h (execSfUbStatus_wf h _)
  · exact h

theorem State.Wf.runNetwork (h : s.Wf) (op : Nat) (c : Cmd) : (s.runNetwork op c).Wf := by
  unfold State.runNetwork
  split
  · exact nextOf_wf h (execEtPortConfig_wf h _)
  · exact nextOf_wf h (execEtFilterSet_wf h _)
  · exact nextOf_wf h (execEtCtConfig_wf h _)
  · exact nextOf_wf h (execEtPortStatus_wf h _)
  · exact nextOf_wf h (execEtCtStatus_wf h _)
  · exact nextOf_wf h (execEtDsConfig_wf h _)
  · exact nextOf_wf h (execEtDumpResend_wf h _)
  · exact h

theorem State.Wf.runTiming (h : s.Wf) (op : Nat) (c : Cmd) : (s.runTiming op c).Wf := by
  unfold State.runTiming
  split
  · exact nextOf_wf h (execTmSrcConfig_wf h _)
  · exact nextOf_wf h (execTmRefSelect_wf h _)
  · exact nextOf_wf h (execTmHoConfig_wf h _)
  · exact nextOf_wf h (execTmOutConfig_wf h _)
  · exact nextOf_wf h (execTmEpochLoad_wf h _)
  · exact nextOf_wf h (execTmTaiMap_wf h _)
  · exact nextOf_wf h (execTmPtpConfig_wf h _)
  · exact nextOf_wf h (execTmPtpStep_wf h _)
  · exact nextOf_wf h (execTmStatus_wf h _)
  · exact nextOf_wf h (execTmPtpTsRead_wf h _)
  · exact h

theorem State.Wf.runMemory (h : s.Wf) (op : Nat) (c : Cmd) : (s.runMemory op c).Wf := by
  unfold State.runMemory
  split
  · exact nextOf_wf h (execDrStatus_wf h _)
  · exact nextOf_wf h (execDrBoardSet_wf h _)
  · exact nextOf_wf h (execDrSweep_wf h _)
  · exact nextOf_wf h (execDrTableStore_wf h _)
  · exact nextOf_wf h (execDrSchedConfig_wf h _)
  · exact nextOf_wf h (execDmStart_wf h _)
  · exact nextOf_wf h (execDmKick_wf h _)
  · exact nextOf_wf h (execDmAbort_wf h _)
  · exact nextOf_wf h (execDmStatus_wf h _)
  · exact h

theorem State.Wf.runPair (h : s.Wf) (op : Nat) (c : Cmd) : (s.runPair op c).Wf := by
  unfold State.runPair
  split
  · exact nextOf_wf h (execRoleStatus_wf h _)
  · exact nextOf_wf h (execRoleConfig_wf h _)
  · exact nextOf_wf h (execRoleLease_wf h _)
  · exact nextOf_wf h (execRoleWarm_wf h _)
  · exact nextOf_wf h (execRoleHandover_wf h _)
  · exact nextOf_wf h (execRoleFence_wf h _)
  · exact nextOf_wf h (execMlRelay_wf h _)
  · exact nextOf_wf h (execRoleHealth_wf h _)
  · exact nextOf_wf h (execMlLadder_wf h _)
  · exact h

theorem State.Wf.runPower (h : s.Wf) (op : Nat) (c : Cmd) : (s.runPower op c).Wf := by
  unfold State.runPower
  split
  · exact nextOf_wf h (execPwStatus_wf h _)
  · exact nextOf_wf h (execPwTempRead_wf h _)
  · exact nextOf_wf h (execPwConfig_wf h _)
  · exact nextOf_wf h (execPwRestart_wf h _)
  · exact nextOf_wf h (execPwLogRead_wf h _)
  · exact nextOf_wf h (execPwDiodeRead_wf h _ _)
  · exact h

theorem State.Wf.runSecurity (h : s.Wf) (op : Nat) (c : Cmd) : (s.runSecurity op c).Wf := by
  unfold State.runSecurity
  split
  · exact nextOf_wf h (execLcStatus_wf h _)
  · exact nextOf_wf h (execLcIdentity_wf h _)
  · exact nextOf_wf h (execLcNonce_wf h _)
  · exact nextOf_wf h (execLcProvision_wf h _)
  · exact nextOf_wf h (execLcTransition_wf h _)
  · exact nextOf_wf h (execLcOwnerRotate_wf h _)
  · exact nextOf_wf h (execLcAttest_wf h _)
  · exact nextOf_wf h (execFwStore_wf h _)
  · exact nextOf_wf h (execFwActivate_wf h _)
  · exact nextOf_wf h (execFwCommit_wf h _)
  · exact nextOf_wf h (execFwList_wf h _)
  · exact h

theorem State.Wf.runScheduler (h : s.Wf) (op : Nat) (c : Cmd) : (s.runScheduler op c).Wf := by
  unfold State.runScheduler
  split
  · exact nextOf_wf h (execScList_wf h _)
  · exact nextOf_wf h (execScCancel_wf h _)
  · exact nextOf_wf h (execProfStore_wf h _)
  · exact nextOf_wf h (execProfActivate_wf h _)
  · exact nextOf_wf h (execProfList_wf h _)
  · exact h

theorem State.Wf.runCommand (h : s.Wf) (op : Nat) (c : Cmd) : (s.runCommand op c).Wf := by
  unfold State.runCommand
  split
  · exact h.runSystem _ _
  · exact h.runLanes _ _
  · exact h.runMadder _ _
  · exact h.runCorrelator _ _
  · exact h.runBeams _ _
  · exact h.runTrigger _ _
  · exact h.runNetwork _ _
  · exact h.runTiming _ _
  · exact h.runMemory _ _
  · exact h.runPair _ _
  · exact h.runPower _ _
  · exact h.runSecurity _ _
  · exact h.runScheduler _ _
  · exact h

theorem State.Wf.sourcesStart (h : s.Wf) : s.sourcesStart.Wf := h.foldl fun _ _ _ hu => .ite (hu.setF notIdAt _ _) hu

theorem State.Wf.runsFollow (h : s.Wf) : s.runsFollow.Wf := ((((h.setF notId _ _).setF notId _ _).setReg notId _).setF notId _ _).others

theorem State.Wf.pairStart (h : s.Wf) : s.pairStart.Wf := .ite (h.setReg notId _).toLampblack.linkStart (h.setReg notId _)

theorem State.Wf.laddersStart (h : s.Wf) : s.laddersStart.Wf := h.foldl fun _ _ _ hu => hu.setF notIdAt _ _

theorem State.Wf.afterScript (h : s.Wf) : s.afterScript.Wf := (((h.sourcesStart.runsFollow.outputsFollow _).pairStart).laddersStart).setPhase _

theorem State.Wf.scriptEnd (h : s.Wf) : s.scriptEnd.Wf := .ite h.others.afterScript h.others

theorem State.Wf.scriptFail (h : s.Wf) (i op status : Nat) : (s.scriptFail i op status).Wf := by
  unfold State.scriptFail
  extract_lets s1
  have h1 : s1.Wf := ((h.setF notId _ _).setF notId _ _).logEvent _ _ _
  split
  · exact h1.others.scriptEnd
  · exact h1.scriptEnd

theorem State.Wf.scriptPacket (h : s.Wf) (bs : List Byte) : (s.scriptPacket bs).Wf := by
  refine .ite ((h.others.bump notId).runCommand _ _) ?_
  split
  · exact (h.others.others.bump notId).runCommand _ _
  · exact h.others.others
  · exact (h.others.bump notId).others

theorem State.Wf.scriptGo (h : s.Wf) (k : Nat) : (State.scriptGo k s).Wf := by
  induction k generalizing s with
  | zero => exact h
  | succ k ih =>
    unfold State.scriptGo
    split
    · exact h.scriptEnd
    next p _ =>
      have hp := h.scriptPacket p
      dsimp only
      split
      · exact hp
      · exact .ite (hp.scriptFail _ _ _) (ih hp)

theorem State.Wf.scriptStart (h : s.Wf) (n : Nat) (of at' : Option Nat) : (s.scriptStart n of at').Wf := h.others.scriptGo _

theorem State.Wf.scriptResume (h : s.Wf) : s.scriptResume.Wf := by
  refine .ite h ?_
  split
  · exact h
  · exact .ite (h.scriptFail _ _ _) (h.scriptGo _)

/-! ### Start-up steps 3 to 8 -/

theorem State.Wf.commitEffect (h : s.Wf) (e : Event) : (s.commitEffect e).Wf := by
  unfold State.commitEffect
  split
  · exact h.ubCommit _ _ _
  · exact h.scriptStart _ _ _
  · exact h

theorem execEventCommit_wf (h : s.Wf) (x0 : Nat) : NextWf (execEventCommit x0 s) := by
  refine whenOn_next h fun _ hu => ?_
  split
  · refine .ite ?_ hu
    split
    · exact hu.discardEvent _ _
    · exact (hu.markCommitted _).commitEffect _
  · exact hu

theorem State.Wf.boardConfig (h : s.Wf) (ws : List Word) : (s.boardConfig ws).Wf := h.configAll _

theorem State.Wf.schedDefault (h : s.Wf) : s.schedDefault.Wf := ((h.setF notId _ _).setF notId _ _).setF notId _ _

theorem State.Wf.dlyLoad (h : s.Wf) : s.dlyLoad.Wf := by
  unfold State.dlyLoad
  split
  · exact (h.foldl fun _ _ _ hu => hu.setReg notIdAt2 _).others
  · exact (h.foldl fun _ _ _ hu => hu.setReg notIdAt2 _).setF notId _ _

theorem State.Wf.firstBand (h : s.Wf) (n : Nat) : (s.firstBand n).Wf := .ite ((h.setF notIdAt _ _).enterBand _ _) ((h.setF notIdAt _ _).enterBand _ _)

theorem State.Wf.dramUp (h : s.Wf) : s.dramUp.Wf := by
  refine .ite h ?_
  split
  · exact (h.setF notId _ _).setF notId _ _
  · exact ((((h.boardConfig _).setF notId _ _).foldl fun _ _ _ hu => hu.setFB notId _ _ _).dlyLoad.foldl fun _ _ _ hu => hu.firstBand _).phySwitch

theorem execStartupDiodeOk_wf (h : s.Wf) (x0 : Int) : NextWf (execStartupDiodeOk x0 s) :=
  whenOn_next h fun _ hu => .ite (((((hu.readDiode _).setPhase _).compUp).schedDefault).dramUp) hu

theorem State.Wf.wiped (h : s.Wf) : s.wiped.Wf :=
  have h1 : ({ s with mem := [] } : State).Wf := ⟨h.regs, h.shadow, h.staged, rfl, h.log, h.id, h.rev, h.slices, h.tiles, h.ports⟩
  h1.others

theorem State.Wf.dramChecked (h : s.Wf) (chans : Nat) : (s.dramChecked chans).Wf :=
  .ite h (.ite ((h.setF notId _ _).setNch _) ((h.setF notId _ _).setF notId _ _))

theorem State.Wf.wipeEnd (h : s.Wf) (items ms : Nat) : (s.wipeEnd items ms).Wf :=
  .ite ((h.setF notId _ _).others.setF notId _ _) ((((h.setF notId _ _).setF notId _ _).setF notId _ _).logEvent _ _ _)

theorem State.Wf.fwZero (h : s.Wf) : s.fwZero.Wf := by
  refine h.foldl fun u p _ hu => ?_
  split
  next d hd => exact hu.setReg (profReg_not_idReg hd) _
  · exact hu

theorem not_idReg_portSilent (uid n : Nat) : ∀ x ∈ portSilent uid n, ¬ idReg x.1 := by
  unfold portSilent
  simp only [List.forall_mem_cons]
  exact ⟨notIdAt, notIdAt, notIdAt, notIdAt, notIdAt, notIdAt, notIdAt, notIdAt, notIdAt, notIdAt, notIdAt, List.forall_mem_nil _⟩

theorem not_idReg_sourceSilent (k : Nat) : ∀ x ∈ sourceSilent k, ¬ idReg x.1 := by
  unfold sourceSilent
  simp only [List.forall_mem_cons]
  exact ⟨notIdAt, notIdAt, notIdAt, notIdAt, notIdAt, notIdAt, notIdAt, notIdAt, notIdAt, List.forall_mem_nil _⟩

theorem not_idReg_silentValues (uid : Nat) : ∀ x ∈ silentValues uid, ¬ idReg x.1 := by
  have single : ∀ x ∈ singleSilent, ¬ idReg x.1 := fun x hx => not_idReg ((by decide : ∀ x ∈ singleSilent, GLB_CAP < x.1) x hx)
  unfold silentValues
  simp only [List.forall_mem_append, List.forall_mem_map, List.mem_flatMap, forall_exists_index, and_imp]
  refine ⟨⟨⟨⟨⟨⟨⟨⟨single, fun _ _ => notIdAt⟩, ?_⟩, ?_⟩, fun _ _ => notIdAt⟩, fun _ k _ => not_idReg_portSilent uid k _⟩,
    fun _ k _ => not_idReg_sourceSilent k _⟩, fun _ _ => notIdAt⟩, fun _ _ => notIdAt⟩
  · rintro x k -
    revert x
    simp only [List.forall_mem_cons]
    exact ⟨notIdAt, notIdAt, notIdAt, List.forall_mem_nil _⟩
  · rintro x k -
    revert x
    simp only [List.forall_mem_cons]
    exact ⟨notIdAt, notIdAt, List.forall_mem_nil _⟩

theorem State.Wf.silent (h : s.Wf) : s.silent.Wf :=
  (h.fwZero.foldl fun _ x hx hu => hu.setF (not_idReg_silentValues _ x hx) _ _).others

theorem State.Wf.calStart (h : s.Wf) (set k : Nat) : (s.calStart set k).Wf := h.setSlice _ _

theorem State.Wf.polyStart (h : s.Wf) (set : Nat) : (s.polyStart set).Wf := .ite ((h.polySet _ _ _).polySet _ _ _) h.others

theorem State.Wf.headerStart (h : s.Wf) (p : Nat) : (s.headerStart p).Wf :=
  (((h.others.foldl fun _ _ _ hu => (hu.setF notIdAt _ _).calStart _ _).polyStart _).setF notId _ _).setF notId _ _

theorem State.Wf.headerNone (h : s.Wf) : s.headerNone.Wf := h.foldl fun _ _ _ hu => hu.calStart _ _

theorem State.Wf.profileStep (h : s.Wf) (wipeOk : Bool) : (s.profileStep wipeOk).Wf := by
  unfold State.profileStep
  dsimp only
  split
  · exact (h.silent.headerStart _).scriptStart _ _ _
  · exact h.silent.headerNone.afterScript

theorem execWipeComplete_wf (h : s.Wf) (fails chans ms : Nat) : NextWf (execWipeComplete fails chans ms s) :=
  whenOn_next h fun _ hu => .ite ((((hu.wiped.dramChecked _).wipeEnd _ _).setPhase _).profileStep _) hu

theorem execRefWaitDone_wf (h : s.Wf) : NextWf (execRefWaitDone s) := whenOn_next h fun _ hu => .ite hu.others hu

theorem execRefWaitExpire_wf (h : s.Wf) : NextWf (execRefWaitExpire s) := whenOn_next h fun _ hu => .ite (hu.others.setF notId _ _) hu

theorem State.Wf.epochArm (h : s.Wf) : OptWf s.epochArm := by
  unfold State.epochArm
  dsimp only
  split
  · exact .some h
  · exact .ite (.some (h.armLoad _ _ _)) .none
  · exact .ite (.some (h.armLoad _ _ _).others) .none

theorem execStartupEpochArm_wf (h : s.Wf) : NextWf (execStartupEpochArm s) := by
  refine whenOn_next h fun u hu => .ite ?_ hu
  split
  next t ht => exact (hu.epochArm t ht).setPhase 8
  · exact hu

/-! ### The epoch load -/

theorem State.Wf.cancelEvent (h : s.Wf) (e : Event) : (s.cancelEvent e).Wf := (((h.dropEvent _).logEvent _ _ _).bump notId).notify _ _ _

theorem State.Wf.cancelChanges (h : s.Wf) : s.cancelChanges.Wf := h.others

theorem State.Wf.cancelAll (h : s.Wf) : s.cancelAll.Wf := (h.cancelChanges.foldl fun _ _ _ hu => hu.cancelEvent _).schedSync

theorem State.Wf.flushHalf (h : s.Wf) : s.flushHalf.Wf := by
  unfold State.flushHalf
  split
  · exact h
  · extract_lets _ _ _ s3 _ s5
    have h3 : s3.Wf := nextOf_wf (nextOf_wf (h.setHalf _ _) (execIndigoPassStart_wf (h.setHalf _ _) _))
      (execIndigoPassEnd_wf (nextOf_wf (h.setHalf _ _) (execIndigoPassStart_wf (h.setHalf _ _) _)) _)
    have h5 : s5.Wf := nextOf_wf (nextOf_wf h3 (execIndigoPassStart_wf h3 _)) (execIndigoPassEnd_wf (nextOf_wf h3 (execIndigoPassStart_wf h3 _)) _)
    exact (nextOf_wf (nextOf_wf h5 (execWoadPassStart_wf h5)) (execWoadPassEnd_wf (nextOf_wf h5 (execWoadPassStart_wf h5)))).setHalf _ _

theorem State.Wf.integrationCut (h : s.Wf) (e : Nat) : (s.integrationCut e).Wf := by
  unfold State.integrationCut
  split
  · exact (h.setBank _ _).others
  · exact h

theorem State.Wf.banksClose (h : s.Wf) : s.banksClose.Wf :=
  have h1 := nextOf_wf h (execBankClose_wf h)
  nextOf_wf h1 (execBankClose_wf h1)

theorem State.Wf.integrationFrom (h : s.Wf) (load : Nat) : (s.integrationFrom load).Wf :=
  .ite h.others (.ite (h.others.startIntegration _ _) h.others.others)

theorem State.Wf.epochCut (h : s.Wf) (k e j : Nat) : (s.epochCut k e j).Wf := by
  unfold State.epochCut
  extract_lets _ _ _ _ _ _ s1
  have h1 : s1.Wf := ((h.sendRecord _ _ _ _ _).setScale _ _).setFB notIdAt _ _ _
  exact .ite (h1.bump notIdAt) h1

theorem State.Wf.sliceMoved (h : s.Wf) (load k : Nat) : (s.sliceMoved load k).Wf := (h.setSlice _ _).others

theorem State.Wf.sliceReload (h : s.Wf) (e load k : Nat) : (s.sliceReload e load k).Wf := by
  unfold State.sliceReload
  extract_lets _ s1 _ _ t _ s2 s3
  have h1 : s1.Wf := State.Wf.sliceMoved (by
    split
    · exact h.setF notIdAt _ _
    · exact h) _ _
  have ht : t.Wf := h.foldl fun _ _ _ hu => hu.epochCut _ _ _
  have h3 : s3.Wf := State.Wf.sliceMoved (.ite (ht.others.setReg64 notId notId _) h) load k
  exact .ite h1.others (.ite (h3.startSlice _ _ _) h3)

theorem State.Wf.ubReload (h : s.Wf) (was load : Nat) : (s.ubReload was load).Wf := by
  unfold State.ubReload
  dsimp only
  split
  · exact h.others
  · exact h.others.others.ubTurns

theorem State.Wf.sfReload (h : s.Wf) (was load : Nat) : (s.sfReload was load).Wf := h.others

theorem State.Wf.wdReload (h : s.Wf) (e load : Nat) : (s.wdReload e load).Wf := ((h.wdReachCfg _).closeBeams _ _ _).others

theorem State.Wf.reepochEnd (h : s.Wf) : s.reepochEnd.Wf := ((h.cancelAll.flushHalf.flushHalf.integrationCut _).banksClose).seen notId _ _

theorem State.Wf.reepochStart (h : s.Wf) (e was load : Nat) : (s.reepochStart e was load).Wf :=
  (((((h.wdReload _ _).integrationFrom _).foldl fun _ _ _ hu => hu.sliceReload _ _ _).ubReload _ _).sfReload _ _).others

theorem State.Wf.eventsFrom (h : s.Wf) (load : Nat) : (s.eventsFrom load).Wf := h.others.schedSync

theorem State.Wf.ubFirst (h : s.Wf) (load : Nat) : (s.ubFirst load).Wf := .ite h (.ite (h.ubStart _) (h.logEvent _ _ _))

theorem State.Wf.firstStart (h : s.Wf) (load : Nat) : (s.firstStart load).Wf :=
  ((((State.Wf.ite h.others (h.others.slicesFrom _)).foldl fun _ _ _ hu => .ite (hu.train _) hu).ubFirst _).eventsFrom _).setPhase _

theorem State.Wf.atcLoad (h : s.Wf) (k : Nat) : (s.atcLoad k).Wf :=
  (((((h.others.setF notId _ _).setF notId _ _).setF notId _ _).setReg64 notId notId _).setReg64 notId notId _).utilFollow

theorem execEpochLoad_wf (h : s.Wf) (offs : List Int) (base phase ferr : Int) : NextWf (execEpochLoad offs base phase ferr s) := by
  refine whenOn_next h fun _ hu => ?_
  split
  · exact hu
  · exact ((hu.gate _ _ _ _).gridMove _).andThen fun h1 => .ite (((h1.reepochEnd.atcLoad _).lanesEpoch _).reepochStart _ _ _)
      (((h1.atcLoad _).lanesEpoch _).firstStart _)

/-! ### Every command -/

theorem exec_wf (h : s.Wf) : ∀ i : Instr, NextWf (exec i s)
  | .registerWrite r off be v => execRegisterWrite_wf h r off be v
  | .pairLoRead r off => execPairLoRead_wf h r off
  | .pairHiRead r off => execPairHiRead_wf h r off
  | .pairLoWrite r off v => execPairLoWrite_wf h r off v
  | .pairHiWrite r off v => execPairHiWrite_wf h r off v
  | .avLogRepeat => execAvLogRepeat_wf h
  | .glbCntClrAv => execGlbCntClrAv_wf h
  | .ppsEdge k pos phase => execPpsEdge_wf h k pos phase
  | .epochLoad offs base phase ferr => execEpochLoad_wf h offs base phase ferr
  | .missedPps => execMissedPps_wf h
  | .eventCommit x => execEventCommit_wf h x
  | .eventFire => execEventFire_wf h
  | .c0SpacingRelease n => execC0SpacingRelease_wf h n
  | .dataBlockReceived o j raw => execDataBlockReceived_wf h o j raw
  | .idleBlockReceived o j raw => execIdleBlockReceived_wf h o j raw
  | .checkBlockReceived o j raw => execCheckBlockReceived_wf h o j raw
  | .degradedClear o j => execDegradedClear_wf h o j
  | .controlReplyReceived o j raw => execControlReplyReceived_wf h o j raw
  | .blockLockGained o j b7 lane seq count idx lead ofs => execBlockLockGained_wf h o j b7 lane seq count idx lead ofs
  | .blockLockLost o j => execBlockLockLost_wf h o j
  | .lossOfSignal o lane => execLossOfSignal_wf h o lane
  | .lossOfSignalClear o lane => execLossOfSignalClear_wf h o lane
  | .forwardedClockLost o => execForwardedClockLost_wf h o
  | .laneSlip o j lead => execLaneSlip_wf h o j lead
  | .releasePointSet leads => execReleasePointSet_wf h leads
  | .sampleRelease => execSampleRelease_wf h
  | .controlReplyTimeout o => execControlReplyTimeout_wf h o
  | .statusPoll => execStatusPoll_wf h
  | .statusReplyTimeout o => execStatusReplyTimeout_wf h o
  | .ladderStart o => execLadderStart_wf h o
  | .ladderStepTimeout o => execLadderStepTimeout_wf h o
  | .rungSwitch o => execRungSwitch_wf h o
  | .forwardedClockLock o => execForwardedClockLock_wf h o
  | .dwellPassed o => execDwellPassed_wf h o
  | .octetDownRetry o => execOctetDownRetry_wf h o
  | .eqFreeze o j => execEqFreeze_wf h o j
  | .eqResume o j => execEqResume_wf h o j
  | .pathRejoin o p => execPathRejoin_wf h o p
  | .controlWakeDone o => execControlWakeDone_wf h o
  | .laneLadder c => execLaneLadder_wf h c
  | .laneSleep c => execLaneSleep_wf h c
  | .lanePrbs c => execLanePrbs_wf h c
  | .laneStatus c => execLaneStatus_wf h c
  | .adcAccess c => execAdcAccess_wf h c
  | .releaseSet c => execReleaseSet_wf h c
  | .slCntClrAll => execSlCntClrAll_wf h
  | .slCntClrOctet o => execSlCntClrOctet_wf h o
  | .bundleIssue k => execBundleIssue_wf h k
  | .vldsStallEnd k => execVldsStallEnd_wf h k
  | .outComplete k => execOutComplete_wf h k
  | .sliceAutoRestart k => execSliceAutoRestart_wf h k
  | .programSwapLoadDone k => execProgramSwapLoadDone_wf h k
  | .mdProgStore c => execMdProgStore_wf h c
  | .mdProgSwap c => execMdProgSwap_wf h c
  | .mdSliceStatus c => execMdSliceStatus_wf h c
  | .mdSliceRestart c => execMdSliceRestart_wf h c
  | .mdProgList c => execMdProgList_wf h c
  | .mdProgErase c => execMdProgErase_wf h c
  | .mdCntClrAll => execMdCntClrAll_wf h
  | .mdCntClrSlice k => execMdCntClrSlice_wf h k
  | .scaleEpochBoundary k => execScaleEpochBoundary_wf h k
  | .calBankCopyDone k => execCalBankCopyDone_wf h k
  | .chDelaySet c => execChDelaySet_wf h c
  | .chCalLoad c => execChCalLoad_wf h c
  | .chCalSwap c => execChCalSwap_wf h c
  | .chCalFetch c => execChCalFetch_wf h c
  | .chCalFetchDone => execChCalFetchDone_wf h
  | .chCalStore c => execChCalStore_wf h c
  | .chCalStoreDone => execChCalStoreDone_wf h
  | .chTargetSet c => execChTargetSet_wf h c
  | .chScaleRead c => execChScaleRead_wf h c
  | .stagingFillArrival rec => execStagingFillArrival_wf h rec
  | .indigoPassStart d => execIndigoPassStart_wf h d
  | .indigoPassEnd d => execIndigoPassEnd_wf h d
  | .passDeadline x => execPassDeadline_wf h x
  | .integrationBoundary => execIntegrationBoundary_wf h
  | .bankClose => execBankClose_wf h
  | .drainEnd => execDrainEnd_wf h
  | .drainRingSpace => execDrainRingSpace_wf h
  | .ixProductSet c => execIxProductSet_wf h c
  | .ixBudgetCheck c => execIxBudgetCheck_wf h c
  | .ixIntegStop c => execIxIntegStop_wf h c
  | .ixStatus c => execIxStatus_wf h c
  | .ixDumpRelease c => execIxDumpRelease_wf h c
  | .ixTileMap c => execIxTileMap_wf h c
  | .ixDumpRing c => execIxDumpRing_wf h c
  | .ixCntClrAll => execIxCntClrAll_wf h
  | .ixCntClrSat => execIxCntClrSat_wf h
  | .woadPassStart => execWoadPassStart_wf h
  | .beamPacketEmit b => execBeamPacketEmit_wf h b
  | .totalPowerClose b => execTotalPowerClose_wf h b
  | .woadResumeGap => execWoadResumeGap_wf h
  | .polyTableCopyDone => execPolyTableCopyDone_wf h
  | .wdPolyLoad c => execWdPolyLoad_wf h c
  | .wdPolyLoadDone => execWdPolyLoadDone_wf h
  | .wdPolySwap c => execWdPolySwap_wf h c
  | .wdBeamConfig c => execWdBeamConfig_wf h c
  | .wdBudgetCheck c => execWdBudgetCheck_wf h c
  | .wdStatus c => execWdStatus_wf h c
  | .wdPolyFetch c => execWdPolyFetch_wf h c
  | .wdPolyFetchDone => execWdPolyFetchDone_wf h
  | .wdPolyStore c => execWdPolyStore_wf h c
  | .wdPolyStoreDone => execWdPolyStoreDone_wf h
  | .wdCntClrAll => execWdCntClrAll_wf h
  | .trainingEnd t => execTrainingEnd_wf h t
  | .hitHoldExpire c p => execHitHoldExpire_wf h c p
  | .trigPulseEnd o => execTrigPulseEnd_wf h o
  | .triginEdge x asserted sub => execTriginEdge_wf h x asserted sub
  | .messageSpanEnd => execMessageSpanEnd_wf h
  | .messageCheckDone q => execMessageCheckDone_wf h q
  | .messageCheckTimeout q => execMessageCheckTimeout_wf h q
  | .umberSlabWrite => execUmberSlabWrite_wf h
  | .sfUbArm v => execSfUbArm_wf h v
  | .sfUbLenWrite r v => execSfUbLenWrite_wf h r v
  | .sfTrigConfig c => execSfTrigConfig_wf h c
  | .sfTbpLoad c => execSfTbpLoad_wf h c
  | .sfStatus c => execSfStatus_wf h c
  | .sfUbConfig c => execSfUbConfig_wf h c
  | .sfUbRearm c => execSfUbRearm_wf h c
  | .sfUbStatus c => execSfUbStatus_wf h c
  | .sfCntClrAll => execSfCntClrAll_wf h
  | .frameReceive n bytes coding => execFrameReceive_wf h n bytes coding
  | .pfcRefresh n cls => execPfcRefresh_wf h n cls
  | .pfcXon n cls => execPfcXon_wf h n cls
  | .pauseFrameReceived n => execPauseFrameReceived_wf h n
  | .pfcFrameReceived n => execPfcFrameReceived_wf h n
  | .pauseTimerExpire n q => execPauseTimerExpire_wf h n q
  | .arpRequestReceived n => execArpRequestReceived_wf h n
  | .ctBlockReceived n => execCtBlockReceived_wf h n
  | .ctNakReceived n => execCtNakReceived_wf h n
  | .ctGoneReceived n => execCtGoneReceived_wf h n
  | .ctBlockQueue m b r rec => execCtBlockQueue_wf h m b r rec
  | .nakDelayExpire m p => execNakDelayExpire_wf h m p
  | .nakRetryExpire m p => execNakRetryExpire_wf h m p
  | .graceExpire st => execGraceExpire_wf h st
  | .frameTransmitEnd n late extra => execFrameTransmitEnd_wf h n late extra
  | .linkUp n => execLinkUp_wf h n
  | .linkDown n => execLinkDown_wf h n
  | .preemptVerifyRetry n => execPreemptVerifyRetry_wf h n
  | .respondMpacketReceived n => execRespondMpacketReceived_wf h n
  | .dumpStreamSend => execDumpStreamSend_wf h
  | .etPortConfig c => execEtPortConfig_wf h c
  | .etFilterSet c => execEtFilterSet_wf h c
  | .etCtConfig c => execEtCtConfig_wf h c
  | .etPortStatus c => execEtPortStatus_wf h c
  | .etCtStatus c => execEtCtStatus_wf h c
  | .etDsConfig c => execEtDsConfig_wf h c
  | .etDumpResend c => execEtDumpResend_wf h c
  | .etCntClrAll => execEtCntClrAll_wf h
  | .etCntClrCt => execEtCntClrCt_wf h
  | .etCntClrPorts mask => execEtCntClrPorts_wf h mask
  | .gateClose offs base phase ferr => execGateClose_wf h offs base phase ferr
  | .qualCountReached k => execQualCountReached_wf h k
  | .persistExpire k => execPersistExpire_wf h k
  | .wtrExpire k => execWtrExpire_wf h k
  | .refClockLoss k => execRefClockLoss_wf h k
  | .ppsLoss k => execPpsLoss_wf h k
  | .ptpLoss d announce => execPtpLoss_wf h d announce
  | .sourceSignalPresent k => execSourceSignalPresent_wf h k
  | .coarseFreqDone k off => execCoarseFreqDone_wf h k off
  | .initialLockDone offs base phase ferr move => execInitialLockDone_wf h offs base phase ferr move
  | .switchLocked => execSwitchLocked_wf h
  | .clkoutStart n => execClkoutStart_wf h n
  | .framePulseStart n => execFramePulseStart_wf h n
  | .framePulseEnd n => execFramePulseEnd_wf h n
  | .ptpSyncReceived n => execPtpSyncReceived_wf h n
  | .ptpFollowUpReceived n => execPtpFollowUpReceived_wf h n
  | .ptpDelayRespReceived n => execPtpDelayRespReceived_wf h n
  | .ptpAnnounceReceived n => execPtpAnnounceReceived_wf h n
  | .ptpOtherDiscard n => execPtpOtherDiscard_wf h n
  | .ptpDelayReqSend d => execPtpDelayReqSend_wf h d
  | .ptpLargeOffset => execPtpLargeOffset_wf h
  | .ptpSecondSnapshot => execPtpSecondSnapshot_wf h
  | .ptpSnapSecLoRead r => execPtpSnapSecLoRead_wf h r
  | .tmSrcConfig c => execTmSrcConfig_wf h c
  | .tmRefSelect c => execTmRefSelect_wf h c
  | .tmHoConfig c => execTmHoConfig_wf h c
  | .tmOutConfig c => execTmOutConfig_wf h c
  | .tmEpochLoad c => execTmEpochLoad_wf h c
  | .tmTaiMap c => execTmTaiMap_wf h c
  | .tmPtpConfig c => execTmPtpConfig_wf h c
  | .tmPtpStep c => execTmPtpStep_wf h c
  | .tmStatus c => execTmStatus_wf h c
  | .tmPtpTsRead c => execTmPtpTsRead_wf h c
  | .tmCntClrAll => execTmCntClrAll_wf h
  | .dramRequest m cls w a bs n extra => execDramRequest_wf h m cls w a bs n extra
  | .dramReadComplete n found => execDramReadComplete_wf h n found
  | .requestAgePromote n x => execRequestAgePromote_wf h n x
  | .refreshDue n r => execRefreshDue_wf h n r
  | .postponedRefreshMakeup n r => execPostponedRefreshMakeup_wf h n r
  | .rankPowerDown n r => execRankPowerDown_wf h n r
  | .rowIdleClose n r b => execRowIdleClose_wf h n r b
  | .scrubPatrolRead found => execScrubPatrolRead_wf h found
  | .memoryRailFault => execMemoryRailFault_wf h
  | .drStatus c => execDrStatus_wf h c
  | .drBoardSet c => execDrBoardSet_wf h c
  | .drSweep c => execDrSweep_wf h c
  | .drSweepDone => execDrSweepDone_wf h
  | .drTableStore c => execDrTableStore_wf h c
  | .drTableStoreDone => execDrTableStoreDone_wf h
  | .drSchedConfig c => execDrSchedConfig_wf h c
  | .drCntClrAll => execDrCntClrAll_wf h
  | .drCntClrCh mask => execDrCntClrCh_wf h mask
  | .dmChCtlGo r n v => execDmChCtlGo_wf h r n v
  | .dmChCtlAbort r n v => execDmChCtlAbort_wf h r n v
  | .dmChCtlKick r n v => execDmChCtlKick_wf h r n v
  | .dmChDescWrite r n hi v => execDmChDescWrite_wf h r n hi v
  | .dmIntStatClear v => execDmIntStatClear_wf h v
  | .dmHaltStatClear v => execDmHaltStatClear_wf h v
  | .dmIntEnWrite v => execDmIntEnWrite_wf h v
  | .dmHaltEnWrite v => execDmHaltEnWrite_wf h v
  | .dmCntClrWrite v => execDmCntClrWrite_wf h v
  | .descriptorFetchDone n host => execDescriptorFetchDone_wf h n host
  | .dmaBeatDone n j src dst => execDmaBeatDone_wf h n j src dst
  | .dmaBeatError n x => execDmaBeatError_wf h n x
  | .dmaBeatTimeout n x => execDmaBeatTimeout_wf h n x
  | .dmaRetryIssue n x => execDmaRetryIssue_wf h n x
  | .descriptorComplete n j => execDescriptorComplete_wf h n j
  | .abortHalt n => execAbortHalt_wf h n
  | .dmStart c => execDmStart_wf h c
  | .dmKick c => execDmKick_wf h c
  | .dmAbort c => execDmAbort_wf h c
  | .dmStatus c => execDmStatus_wf h c
  | .requestSlotWrite r k off bs => execRequestSlotWrite_wf h r k off bs
  | .mailboxDoorbell r k => execMailboxDoorbell_wf h r k
  | .mailboxReplyRelease mask => execMailboxReplyRelease_wf h mask
  | .noticeRingReadAdvance mgmt v => execNoticeRingReadAdvance_wf h mgmt v
  | .cpCntClrAll => execCpCntClrAll_wf h
  | .mgmtRegisterWrite off v => execMgmtRegisterWrite_wf h off v
  | .mgmtRegisterRead off => execMgmtRegisterRead_wf h off
  | .mgmtBlockRead off n => execMgmtBlockRead_wf h off n
  | .mgmtSlotWrite off bs => execMgmtSlotWrite_wf h off bs
  | .mgmtDoorbell => execMgmtDoorbell_wf h
  | .mgmtUnknownCode code => execMgmtUnknownCode_wf h code
  | .peluskDatagramReceived n => execPeluskDatagramReceived_wf h n
  | .bar2Read o r => execBar2Read_wf h o r
  | .bar2Write o bs => execBar2Write_wf h o bs
  | .functionLevelReset => execFunctionLevelReset_wf h
  | .pcieLinkLoss => execPcieLinkLoss_wf h
  | .sysInfo c => execSysInfo_wf h c
  | .sysResetWarm c => execSysResetWarm_wf h c
  | .sysResetCompute c => execSysResetCompute_wf h c
  | .sysSession c => execSysSession_wf h c
  | .sysRegWrite c => execSysRegWrite_wf h c
  | .sysAperture c => execSysAperture_wf h c
  | .scList c => execScList_wf h c
  | .scCancel c => execScCancel_wf h c
  | .profStore c => execProfStore_wf h c
  | .profActivate c => execProfActivate_wf h c
  | .profList c => execProfList_wf h c
  | .scCntClrAll => execScCntClrAll_wf h
  | .niethServing => execNiethServing_wf h
  | .computeRestartDone => execComputeRestartDone_wf h
  | .vinValid pins => execVinValid_wf h pins
  | .coldResetAssert => execColdResetAssert_wf h
  | .coldResetRelease pins => execColdResetRelease_wf h pins
  | .startupDiodeOk t => execStartupDiodeOk_wf h t
  | .wipeComplete fails chans ms => execWipeComplete_wf h fails chans ms
  | .refWaitDone => execRefWaitDone_wf h
  | .refWaitExpire => execRefWaitExpire_wf h
  | .startupEpochArm => execStartupEpochArm_wf h
  | .profilePinsUnstable samples => execProfilePinsUnstable_wf h samples
  | .miltiaDataBlockReceived b => execMiltiaDataBlockReceived_wf h b
  | .miltiaAckBlockReceived b => execMiltiaAckBlockReceived_wf h b
  | .miltiaLinkBlockReceived b => execMiltiaLinkBlockReceived_wf h b
  | .miltiaIdleBlockReceived b => execMiltiaIdleBlockReceived_wf h b
  | .miltiaAckTimer => execMiltiaAckTimer_wf h
  | .miltiaResendTimeout => execMiltiaResendTimeout_wf h
  | .miltiaLinkDown lock => execMiltiaLinkDown_wf h lock
  | .miltiaRelockTimeout => execMiltiaRelockTimeout_wf h
  | .miltiaLinkUp rung ver min_ => execMiltiaLinkUp_wf h rung ver min_
  | .heartbeatSend => execHeartbeatSend_wf h
  | .heartbeatWordReceived p n bs => execHeartbeatWordReceived_wf h p n bs
  | .hbPathTimeout p => execHbPathTimeout_wf h p
  | .promotion => execPromotion_wf h
  | .fenceSettle => execFenceSettle_wf h
  | .leaseExpire => execLeaseExpire_wf h
  | .checkpointFullSend => execCheckpointFullSend_wf h
  | .verdigrisItemStart => execVerdigrisItemStart_wf h
  | .verdigrisItemDone pass => execVerdigrisItemDone_wf h pass
  | .takeoverComputeReady => execTakeoverComputeReady_wf h
  | .takeoverBoundary => execTakeoverBoundary_wf h
  | .handoverDiscardQueued => execHandoverDiscardQueued_wf h
  | .roleStatus c => execRoleStatus_wf h c
  | .roleConfig c => execRoleConfig_wf h c
  | .roleLease c => execRoleLease_wf h c
  | .roleWarm c => execRoleWarm_wf h c
  | .roleWarmDone => execRoleWarmDone_wf h
  | .roleHandover c => execRoleHandover_wf h c
  | .roleFence c => execRoleFence_wf h c
  | .mlRelay c => execMlRelay_wf h c
  | .mlRelayReply => execMlRelayReply_wf h
  | .roleHealth c => execRoleHealth_wf h c
  | .mlLadder c => execMlLadder_wf h c
  | .mlCntClrAll => execMlCntClrAll_wf h
  | .vinPowerWarn vin => execVinPowerWarn_wf h vin
  | .undervoltageLockout => execUndervoltageLockout_wf h
  | .overvoltageLockout => execOvervoltageLockout_wf h
  | .auxRailFault v a => execAuxRailFault_wf h v a
  | .auxRailRetry ok v a => execAuxRailRetry_wf h ok v a
  | .senseWireOpen r => execSenseWireOpen_wf h r
  | .droopSag d => execDroopSag_wf h d
  | .droopStretchEnd d us => execDroopStretchEnd_wf h d us
  | .slowRound raws diode vin iin pin good bth board => execSlowRound_wf h raws diode vin iin pin good bth board
  | .fastReading n raw => execFastReading_wf h n raw
  | .ksStepTick => execKsStepTick_wf h
  | .shutdownLogWritten => execShutdownLogWritten_wf h
  | .criticalRestart diode pins => execCriticalRestart_wf h diode pins
  | .pwStatus c => execPwStatus_wf h c
  | .pwTempRead c => execPwTempRead_wf h c
  | .pwConfig c => execPwConfig_wf h c
  | .pwRestart c => execPwRestart_wf h c
  | .pwLogRead c => execPwLogRead_wf h c
  | .pwDiodeRead c diode => execPwDiodeRead_wf h c diode
  | .pwCntClrAll => execPwCntClrAll_wf h
  | .fwStore c => execFwStore_wf h c
  | .fwActivate c => execFwActivate_wf h c
  | .niethHandoffDone => execNiethHandoffDone_wf h
  | .fwCommit c => execFwCommit_wf h c
  | .trialAutoCommit => execTrialAutoCommit_wf h
  | .watchdogFault => execWatchdogFault_wf h
  | .lockstepFault => execLockstepFault_wf h
  | .fwList c => execFwList_wf h c
  | .lcStatus c => execLcStatus_wf h c
  | .lcIdentity c => execLcIdentity_wf h c
  | .lcNonce c => execLcNonce_wf h c
  | .lcProvision c => execLcProvision_wf h c
  | .lcTransition c => execLcTransition_wf h c
  | .lcOwnerRotate c => execLcOwnerRotate_wf h c
  | .lcTransitionDone entropyOk => execLcTransitionDone_wf h entropyOk
  | .transitionReset pins => execTransitionReset_wf h pins
  | .nonceExpire => execNonceExpire_wf h
  | .lcAttest c => execLcAttest_wf h c
  | .pePerstAssert => execPePerstAssert_wf h
  | .pePerstRelease => execPePerstRelease_wf h
  | .padFault b driven ball => execPadFault_wf h b driven ball
  | .tapInstruction n => execTapInstruction_wf h n
  | .evIntStatClear v => execEvIntStatClear_wf h v
  | .evIntEnWrite v => execEvIntEnWrite_wf h v
  | .evMdExcClear q v => execEvMdExcClear_wf h q v
  | .evMdEvtClear q v => execEvMdEvtClear_wf h q v
  | .msixUnmask v => execMsixUnmask_wf h v
  | .prbsPatternReceived o j bs => execPrbsPatternReceived_wf h o j bs
  | .woadPassEnd => execWoadPassEnd_wf h
  | .stateRecordPeriod => execStateRecordPeriod_wf h
  | .leaseStart => execLeaseStart_wf h
  | .pairingWaitExpire => execPairingWaitExpire_wf h
  | .housekeepingPowerOn => execHousekeepingPowerOn_wf h

/-! ### One clock cycle -/

theorem State.Wf.clocks (h : s.Wf) : s.clocks.Wf := h.others

theorem State.Wf.heartAge (h : s.Wf) : s.heartAge.Wf := .ite (h.setF notId _ _) h

theorem State.Wf.drTick (h : s.Wf) : s.drTick.Wf := .ite (h.phySwitch.foldl fun _ _ _ hu => hu.drBurst _) h

theorem State.Wf.slewTake (h : s.Wf) : s.slewTake.Wf := h.others

theorem State.Wf.tick (h : s.Wf) : s.tick.Wf := by
  have h2 := h.clocks.heartAge.drTick.ctlTick.linkIdle.resumeDue.slewTake
  exact .ite (.ite h2.scriptResume h2) h.clocks

/-! ### One step -/

theorem step_wf (h : s.Wf) : NextWf (step s) := by
  unfold step
  split
  · exact ⟨_, rfl, h.tick⟩
  · exact exec_wf h.others _

/-! ### The obligation -/

/-- Settles O60: every operation of the model keeps the invariant, hence so does every command, by cases on it, and so does a step. -/
theorem stepsCompleteAndKeepTheStateWellFormed : Obligations.StepsCompleteAndKeepTheStateWellFormed := fun _ h => ⟨exec_wf h, step_wf h⟩

end Sys2Proof.Machine
end

-- ==== Counter clears ====
section

namespace Sys2Proof.Machine

variable {s : State}

/-- What a powered device does. -/
theorem whenOn_on (h : s.on = true) (f : State → State) : whenOn s f = .next (f s) := by
  unfold whenOn
  rw [if_pos h]

/-! ### Clears of whole counters -/

/-- An instruction that clears the counters `l` and leaves everything else. -/
def Zeroes (s : State) (i : Instr) (l : List Nat) : Prop :=
  ∃ t, exec i s = .next t ∧ t = { s with regs := t.regs } ∧ ∀ o, t.reg o = if o ∈ l then s.freshAt o else s.reg o

theorem zeroes_of_clearCounters (h : s.on = true) {i : Instr} {l : List Nat} (hi : exec i s = whenOn s fun u => u.clearCounters l) : Zeroes s i l :=
  ⟨_, hi.trans (whenOn_on h _), rfl, s.reg_clearCounters l⟩

section
variable (h : s.on = true)
include h

theorem zeroes_slCntClrAll : Zeroes s .slCntClrAll ((List.range 64).flatMap slCounters) := zeroes_of_clearCounters h rfl

theorem zeroes_slCntClrOctet {o : Nat} (ho : o < 64) : Zeroes s (.slCntClrOctet o) (slCounters o) := by
  have hi : exec (.slCntClrOctet o) s = whenOn s fun u => if o < 64 then u.clearCounters (slCounters o) else u := rfl
  exact ⟨_, by rw [hi, whenOn_on h, if_pos ho], rfl, s.reg_clearCounters _⟩

theorem zeroes_ixCntClrAll : Zeroes s .ixCntClrAll ixCounters := zeroes_of_clearCounters h rfl

theorem zeroes_ixCntClrSat : Zeroes s .ixCntClrSat ((List.range 32).map IX_TILE_SAT) := zeroes_of_clearCounters h rfl

theorem zeroes_wdCntClrAll : Zeroes s .wdCntClrAll wdCounters := zeroes_of_clearCounters h rfl

theorem zeroes_sfCntClrAll : Zeroes s .sfCntClrAll sfCounters := zeroes_of_clearCounters h rfl

theorem zeroes_etCntClrAll : Zeroes s .etCntClrAll (ctCounters ++ (List.range 4).flatMap portRegs) := zeroes_of_clearCounters h rfl

theorem zeroes_etCntClrCt : Zeroes s .etCntClrCt ctCounters := zeroes_of_clearCounters h rfl

theorem zeroes_etCntClrPorts (m : Nat) : Zeroes s (.etCntClrPorts m) (((List.range 4).filter (bit m)).flatMap portRegs) :=
  zeroes_of_clearCounters h rfl

theorem zeroes_tmCntClrAll : Zeroes s .tmCntClrAll (TM_SWITCHES :: (List.range 6).map TM_SRC_DISQ) := zeroes_of_clearCounters h rfl

theorem zeroes_drCntClrAll : Zeroes s .drCntClrAll (DR_C1_OVERRUN :: (List.range 16).flatMap drCounters) :=
  zeroes_of_clearCounters h rfl

theorem zeroes_drCntClrCh (m : Nat) : Zeroes s (.drCntClrCh m) (((List.range 16).filter (bit m)).flatMap drCounters) :=
  zeroes_of_clearCounters h rfl

theorem zeroes_dmCntClrWrite (v : Word) :
    Zeroes s (.dmCntClrWrite v) (((List.range 32).filter (bit v.toNat)).flatMap fun n => [DM_CH_DONE n, DM_CH_RETRIES n]) :=
  zeroes_of_clearCounters h rfl

theorem zeroes_cpCntClrAll : Zeroes s .cpCntClrAll [CP_CMDS, CP_BUSY, CP_DUPS, CP_BADCRC, CP_DISCARDS, CP_EVICT, CP_SEC_FAILS] :=
  zeroes_of_clearCounters h rfl

theorem zeroes_scCntClrAll : Zeroes s .scCntClrAll [SC_FIRED, SC_LATE, SC_FULL, SC_CANCELLED, SC_FAILED] :=
  zeroes_of_clearCounters h rfl

theorem zeroes_mlCntClrAll : Zeroes s .mlCntClrAll mlCounters := zeroes_of_clearCounters h rfl

theorem zeroes_pwCntClrAll : Zeroes s .pwCntClrAll pwCounters := zeroes_of_clearCounters h rfl

end

/-! ### Madder: counts that share a register with other fields (R144) -/

/-- The registers of a slice that hold a count or a maximum among other fields lie apart from its counters and from those of the others. -/
theorem mdEvt_notMem_mdCounters {j k : Nat} (hj : j < 64) : MD_SL_EVT j ∉ mdCounters k := by
  simp only [mdCounters, MD_SL_EVT, MD_SL_GOVCNT, MD_SL_SATCNT, MD_SL_ECCCNT, MD_SL_MARKCNT, MD_CH_SL_CLIPS, MD_CH_SL_SEEDS, MD_CH_SL_WARM,
    List.mem_cons, List.not_mem_nil, or_false]
  omega

theorem mdCyc_notMem_mdCounters (j k : Nat) : MD_SL_CYC j ∉ mdCounters k := by
  simp only [mdCounters, MD_SL_CYC, MD_SL_GOVCNT, MD_SL_SATCNT, MD_SL_ECCCNT, MD_SL_MARKCNT, MD_CH_SL_CLIPS, MD_CH_SL_SEEDS, MD_CH_SL_WARM,
    List.mem_cons, List.not_mem_nil, or_false]
  omega

theorem mdEvt_ne_mdCyc (j k : Nat) : MD_SL_EVT j ≠ MD_SL_CYC k := by
  unfold MD_SL_EVT MD_SL_CYC
  omega

theorem mdEvt_inj {j k : Nat} : MD_SL_EVT j = MD_SL_EVT k ↔ j = k := by
  unfold MD_SL_EVT
  omega

theorem mdCyc_inj {j k : Nat} : MD_SL_CYC j = MD_SL_CYC k ↔ j = k := by
  unfold MD_SL_CYC
  omega

/-- Clearing the count of a register: the count is what was counted in this cycle, and the other fields stay. -/
theorem rf_clearCount (s : State) (a : Nat) (f : Fld) (hf : f.lo + f.w ≤ 32) : (s.clearCount a f).rf a f = fget (s.freshAt a) f := by
  rw [s.rf_clearCount_same a f hf]
  exact Nat.mod_mod _ _

theorem reg_clearCount_ne (s : State) {a b : Nat} (f : Fld) (h : b ≠ a) : (s.clearCount a f).reg b = s.reg b := s.reg_setF_ne f _ h

theorem rf_clearCount_ne (s : State) {a b : Nat} (f g : Fld) (h : b ≠ a) : (s.clearCount a f).rf b g = s.rf b g := s.rf_setF_ne f g _ h

theorem rf_clearCount_apart (s : State) (a : Nat) (f g : Fld) (hf : f.lo + f.w ≤ 32) (hg : f.apart g) : (s.clearCount a f).rf a g = s.rf a g :=
  s.rf_setF_apart a f g _ hf hg

theorem rf_clearCounters_notMem (s : State) {l : List Nat} {o : Nat} (f : Fld) (ho : o ∉ l) : (s.clearCounters l).rf o f = s.rf o f := by
  unfold State.rf
  rw [s.reg_clearCounters, if_neg ho]

theorem freshAt_clearCounters (s : State) (l : List Nat) (o : Nat) : (s.clearCounters l).freshAt o = s.freshAt o := by
  unfold State.freshAt
  rw [State.clearCounters_fresh]

theorem exec_mdCntClrSlice (h : s.on = true) {k : Nat} (hk : k < 64) :
    exec (.mdCntClrSlice k) s = .next ((s.clearCounters (mdCounters k)).clearCount (MD_SL_EVT k) MD_SL_EVT_COUNT) := by
  have hi : exec (.mdCntClrSlice k) s =
      whenOn s fun u => if k < 64 then (u.clearCounters (mdCounters k)).clearCount (MD_SL_EVT k) MD_SL_EVT_COUNT else u := rfl
  rw [hi, whenOn_on h, if_pos hk]

/-- A clear of one slice (R144). -/
theorem mdCntClrSlice_clears (h : s.on = true) {k : Nat} (hk : k < 64) :
    ∃ t, exec (.mdCntClrSlice k) s = .next t ∧ t = { s with regs := t.regs } ∧
      t.rf (MD_SL_EVT k) MD_SL_EVT_COUNT = fget (s.freshAt (MD_SL_EVT k)) MD_SL_EVT_COUNT ∧
      (∀ f, MD_SL_EVT_COUNT.apart f → t.rf (MD_SL_EVT k) f = s.rf (MD_SL_EVT k) f) ∧
      ∀ o, o ≠ MD_SL_EVT k → t.reg o = if o ∈ mdCounters k then s.freshAt o else s.reg o := by
  refine ⟨_, exec_mdCntClrSlice h hk, rfl, ?_, fun f hf => ?_, fun o ho => ?_⟩
  · rw [rf_clearCount _ _ _ (by decide), freshAt_clearCounters]
  · rw [rf_clearCount_apart _ _ _ _ (by decide) hf, rf_clearCounters_notMem _ _ (mdEvt_notMem_mdCounters hk)]
  · rw [reg_clearCount_ne _ _ ho, s.reg_clearCounters]

/-- What a clear of every slice does to one of them, besides its counters. -/
def mdClear (s : State) (k : Nat) : State := (s.setF (MD_SL_CYC k) MD_SL_CYC_MAX 0).clearCount (MD_SL_EVT k) MD_SL_EVT_COUNT

theorem exec_mdCntClrAll (h : s.on = true) :
    exec .mdCntClrAll s = .next ((List.range 64).foldl mdClear (s.clearCounters ((List.range 64).flatMap mdCounters))) :=
  have hi : exec .mdCntClrAll s = whenOn s fun u => (List.range 64).foldl mdClear (u.clearCounters ((List.range 64).flatMap mdCounters)) := rfl
  hi.trans (whenOn_on h _)

theorem mdClear_freshAt (s : State) (k o : Nat) : (mdClear s k).freshAt o = s.freshAt o := by
  unfold State.freshAt mdClear
  rw [State.clearCount_fresh, State.setF_fresh]

theorem mdClear_count (s : State) (k : Nat) : (mdClear s k).rf (MD_SL_EVT k) MD_SL_EVT_COUNT = fget (s.freshAt (MD_SL_EVT k)) MD_SL_EVT_COUNT := by
  rw [mdClear, rf_clearCount _ _ _ (by decide), State.freshAt, State.setF_fresh, State.freshAt]

theorem mdClear_max (s : State) (k : Nat) : (mdClear s k).rf (MD_SL_CYC k) MD_SL_CYC_MAX = 0 :=
  (rf_clearCount_ne _ _ _ (mdEvt_ne_mdCyc k k).symm).trans (s.rf_setF_same _ _ _ (by decide))

theorem mdClear_reg (s : State) {k o : Nat} (he : o ≠ MD_SL_EVT k) (hc : o ≠ MD_SL_CYC k) : (mdClear s k).reg o = s.reg o :=
  (reg_clearCount_ne _ _ he).trans (s.reg_setF_ne _ _ hc)

theorem mdClear_evt_apart (s : State) (j k : Nat) {f : Fld} (hf : MD_SL_EVT_COUNT.apart f) : (mdClear s k).rf (MD_SL_EVT j) f = s.rf (MD_SL_EVT j) f := by
  have hc : (s.setF (MD_SL_CYC k) MD_SL_CYC_MAX 0).rf (MD_SL_EVT j) f = s.rf (MD_SL_EVT j) f := s.rf_setF_ne _ _ _ (mdEvt_ne_mdCyc j k)
  by_cases hjk : j = k
  · subst hjk
    exact (rf_clearCount_apart _ _ _ _ (by decide) hf).trans hc
  · exact (rf_clearCount_ne _ _ _ (mt mdEvt_inj.1 hjk)).trans hc

theorem mdClear_cyc_apart (s : State) (j k : Nat) {f : Fld} (hf : MD_SL_CYC_MAX.apart f) : (mdClear s k).rf (MD_SL_CYC j) f = s.rf (MD_SL_CYC j) f := by
  refine (rf_clearCount_ne _ _ _ (mdEvt_ne_mdCyc k j).symm).trans ?_
  by_cases hjk : j = k
  · subst hjk
    exact s.rf_setF_apart _ _ _ _ (by decide) hf
  · exact s.rf_setF_ne _ _ _ (mt mdCyc_inj.1 hjk)

/-- The fields of a slice that a clear zeroes hold what was counted in this cycle. -/
def MdCleared (j : Nat) (s : State) : Prop :=
  s.rf (MD_SL_EVT j) MD_SL_EVT_COUNT = fget (s.freshAt (MD_SL_EVT j)) MD_SL_EVT_COUNT ∧ s.rf (MD_SL_CYC j) MD_SL_CYC_MAX = 0

theorem mdClear_cleared (s : State) (k : Nat) : MdCleared k (mdClear s k) :=
  ⟨by rw [mdClear_count, mdClear_freshAt], mdClear_max s k⟩

/-- Another slice's clear leaves a slice's cleared fields as they are, and its own clears them again. -/
theorem mdClear_keeps {j : Nat} (k : Nat) (h : MdCleared j s) : MdCleared j (mdClear s k) := by
  by_cases hjk : j = k
  · exact hjk ▸ mdClear_cleared s j
  · obtain ⟨hcount, hmax⟩ := h
    unfold MdCleared State.rf at *
    rw [mdClear_freshAt, mdClear_reg s (mt mdEvt_inj.1 hjk) (mdEvt_ne_mdCyc j k), mdClear_reg s (mdEvt_ne_mdCyc k j).symm (mt mdCyc_inj.1 hjk)]
    exact ⟨hcount, hmax⟩

theorem mdClear_regs (s : State) (k : Nat) : mdClear s k = { s with regs := (mdClear s k).regs } := by
  unfold mdClear State.clearCount State.setF State.setReg
  rfl

/-- A fold of clears changes registers alone. -/
theorem foldl_mdClear_regs (l : List Nat) (s : State) : l.foldl mdClear s = { s with regs := (l.foldl mdClear s).regs } := by
  obtain ⟨r, hr⟩ : ∃ r, l.foldl mdClear s = { s with regs := r } :=
    List.foldlRecOn l mdClear (motive := fun t => ∃ r, t = { s with regs := r }) ⟨s.regs, rfl⟩ fun t ht k _ => by
      obtain ⟨r, rfl⟩ := ht
      exact ⟨_, mdClear_regs _ k⟩
  rw [hr]

theorem foldl_mdClear_freshAt (l : List Nat) (s : State) (o : Nat) : (l.foldl mdClear s).freshAt o = s.freshAt o :=
  List.foldlRecOn l mdClear (motive := fun t => t.freshAt o = s.freshAt o) rfl fun t ht k _ => (mdClear_freshAt t k o).trans ht

theorem foldl_mdClear_reg (l : List Nat) (s : State) {o : Nat} (ho : ∀ k ∈ l, o ≠ MD_SL_EVT k ∧ o ≠ MD_SL_CYC k) : (l.foldl mdClear s).reg o = s.reg o :=
  List.foldlRecOn l mdClear (motive := fun t => t.reg o = s.reg o) rfl fun t ht k hk => (mdClear_reg t (ho k hk).1 (ho k hk).2).trans ht

theorem foldl_mdClear_evt_apart (l : List Nat) (s : State) (j : Nat) {f : Fld} (hf : MD_SL_EVT_COUNT.apart f) :
    (l.foldl mdClear s).rf (MD_SL_EVT j) f = s.rf (MD_SL_EVT j) f :=
  List.foldlRecOn l mdClear (motive := fun t => t.rf (MD_SL_EVT j) f = s.rf (MD_SL_EVT j) f) rfl fun t ht k _ => (mdClear_evt_apart t j k hf).trans ht

theorem foldl_mdClear_cyc_apart (l : List Nat) (s : State) (j : Nat) {f : Fld} (hf : MD_SL_CYC_MAX.apart f) :
    (l.foldl mdClear s).rf (MD_SL_CYC j) f = s.rf (MD_SL_CYC j) f :=
  List.foldlRecOn l mdClear (motive := fun t => t.rf (MD_SL_CYC j) f = s.rf (MD_SL_CYC j) f) rfl fun t ht k _ => (mdClear_cyc_apart t j k hf).trans ht

theorem foldl_mdClear_cleared (l : List Nat) (s : State) {j : Nat} (hj : j ∈ l) : MdCleared j (l.foldl mdClear s) := by
  induction l generalizing s with
  | nil => cases hj
  | cons k l ih =>
    rcases List.mem_cons.1 hj with rfl | hl
    · exact List.foldlRecOn l mdClear (motive := MdCleared j) (mdClear_cleared s j) fun _ ht k _ => mdClear_keeps k ht
    · exact ih (mdClear s k) hl

/-- A clear of every slice (R144). -/
theorem mdCntClrAll_clears (h : s.on = true) :
    ∃ t, exec .mdCntClrAll s = .next t ∧ t = { s with regs := t.regs } ∧
      (∀ k < 64, t.rf (MD_SL_EVT k) MD_SL_EVT_COUNT = fget (s.freshAt (MD_SL_EVT k)) MD_SL_EVT_COUNT ∧ t.rf (MD_SL_CYC k) MD_SL_CYC_MAX = 0 ∧
        (∀ f, MD_SL_EVT_COUNT.apart f → t.rf (MD_SL_EVT k) f = s.rf (MD_SL_EVT k) f) ∧
        ∀ f, MD_SL_CYC_MAX.apart f → t.rf (MD_SL_CYC k) f = s.rf (MD_SL_CYC k) f) ∧
      ∀ o, (∀ k < 64, o ≠ MD_SL_EVT k ∧ o ≠ MD_SL_CYC k) →
        t.reg o = if o ∈ (List.range 64).flatMap mdCounters then s.freshAt o else s.reg o := by
  have notMem : ∀ {o : Nat}, (∀ k, o ∉ mdCounters k) → o ∉ (List.range 64).flatMap mdCounters := fun ho hm =>
    let ⟨k, _, hk⟩ := List.mem_flatMap.1 hm
    ho k hk
  refine ⟨_, exec_mdCntClrAll h, foldl_mdClear_regs _ _, fun k hk => ?_, fun o ho => ?_⟩
  · obtain ⟨hcount, hmax⟩ := foldl_mdClear_cleared (List.range 64) (s.clearCounters ((List.range 64).flatMap mdCounters)) (List.mem_range.2 hk)
    rw [foldl_mdClear_freshAt, freshAt_clearCounters] at hcount
    refine ⟨hcount, hmax, fun f hf => (foldl_mdClear_evt_apart _ _ _ hf).trans ?_, fun f hf => (foldl_mdClear_cyc_apart _ _ _ hf).trans ?_⟩
    · exact rf_clearCounters_notMem _ _ (notMem fun _ => mdEvt_notMem_mdCounters hk)
    · exact rf_clearCounters_notMem _ _ (notMem fun _ => mdCyc_notMem_mdCounters _ _)
  · exact (foldl_mdClear_reg _ _ fun k hk => ho k (List.mem_range.1 hk)).trans (s.reg_clearCounters _ o)

/-- Settles O9: each clear is a `clearCounters` of its block's counters, and Madder's clears also a fold over the slices. -/
theorem counterClearsZeroTheirCountersAlone : Obligations.CounterClearsZeroTheirCountersAlone := fun _ h =>
  ⟨zeroes_slCntClrAll h, fun _ => zeroes_slCntClrOctet h, zeroes_ixCntClrAll h, zeroes_ixCntClrSat h, zeroes_wdCntClrAll h, zeroes_sfCntClrAll h,
    zeroes_etCntClrAll h, zeroes_etCntClrCt h, zeroes_etCntClrPorts h, zeroes_tmCntClrAll h, zeroes_drCntClrAll h, zeroes_drCntClrCh h,
    zeroes_dmCntClrWrite h, zeroes_cpCntClrAll h, zeroes_scCntClrAll h, zeroes_mlCntClrAll h, zeroes_pwCntClrAll h,
    fun _ => mdCntClrSlice_clears h, mdCntClrAll_clears h⟩

end Sys2Proof.Machine
end

-- ==== Reads of register pairs ====
section

namespace Sys2Proof.Machine

variable {s : State}

/-! ### Shadow copies (R20) -/

theorem latch_shadow (s : State) (r : Requester) (off : Nat) : (s.latch r off).shadow = tblSet none s.shadow (pairKey r off) (some (s.readReg off)) := rfl

theorem shadow_latch_same (s : State) (r : Requester) (off : Nat) : tblGet none (s.latch r off).shadow (pairKey r off) = some (s.readReg off) := by
  rw [latch_shadow, tblGet_set_same]

theorem shadow_latch_ne (s : State) (r : Requester) {off k : Nat} (hk : k ≠ pairKey r off) :
    tblGet none (s.latch r off).shadow k = tblGet none s.shadow k := by
  rw [latch_shadow, tblGet_set_ne _ _ _ hk]

theorem pairKey_inj {r : Requester} {a b : Nat} : pairKey r a = pairKey r b ↔ a = b := by
  unfold pairKey
  omega

/-- What a read of a _LO half latches. -/
def loLatched (s : State) (r : Requester) (lo : Nat) : State :=
  if lo = TM_PTP_SNAP_SEC_LO then (s.latch r (lo + 4)).latch r TM_PTP_SNAP_T32 else s.latch r (lo + 4)

theorem loLatched_shadow_alone (s : State) (r : Requester) (lo : Nat) : loLatched s r lo = { s with shadow := (loLatched s r lo).shadow } := by
  unfold loLatched
  split <;> rfl

theorem loLatched_hi (s : State) (r : Requester) (lo : Nat) : tblGet none (loLatched s r lo).shadow (pairKey r (lo + 4)) = some (s.readReg (lo + 4)) := by
  unfold loLatched
  split
  next hlo =>
    have hne : pairKey r (lo + 4) ≠ pairKey r TM_PTP_SNAP_T32 := by
      rw [hlo, Ne, pairKey_inj]
      decide
    rw [shadow_latch_ne _ _ hne, shadow_latch_same]
  · exact shadow_latch_same _ _ _

theorem loLatched_ne (s : State) (r : Requester) {lo k : Nat} (hk : k ≠ pairKey r (lo + 4))
    (hsnap : lo = TM_PTP_SNAP_SEC_LO → k ≠ pairKey r TM_PTP_SNAP_T32) : tblGet none (loLatched s r lo).shadow k = tblGet none s.shadow k := by
  unfold loLatched
  split
  next hlo => rw [shadow_latch_ne _ _ (hsnap hlo), shadow_latch_ne _ _ hk]
  · exact shadow_latch_ne _ _ hk

/-! ### The instructions -/

theorem exec_pairLoRead (h : s.on = true) (r : Requester) {lo : Nat} (hp : isPair lo = true) :
    exec (.pairLoRead r lo) s = .next ((loLatched s r lo).emit (.regRead r lo (s.readReg lo))) := by
  have hi : exec (.pairLoRead r lo) s = whenOn s fun u => if isPair lo then u.pairLoRead r lo else u := rfl
  rw [hi, whenOn_on h, if_pos hp]
  rfl

theorem exec_pairHiRead (h : s.on = true) (r : Requester) {lo : Nat} (hp : isPair lo = true) :
    exec (.pairHiRead r (lo + 4)) s = .next (s.pairHiRead r (lo + 4)) := by
  have hi : exec (.pairHiRead r (lo + 4)) s =
      whenOn s fun u => if (isPair (lo + 4 - 4) && decide (4 ≤ lo + 4)) || lo + 4 == TM_PTP_SNAP_T32 then u.pairHiRead r (lo + 4) else u := rfl
  rw [hi, whenOn_on h, if_pos (by simp [hp])]

theorem exec_mgmtRegisterRead (h : s.on = true) (off : Nat) :
    exec (.mgmtRegisterRead off) s = .next ((s.readAs .mgmt off).2.emit (.mgmtRead (be 4 (s.readAs .mgmt off).1.toNat))) := by
  have hi : exec (.mgmtRegisterRead off) s = whenOn s fun u => (u.readAs .mgmt off).2.emit (.mgmtRead (be 4 (u.readAs .mgmt off).1.toNat)) := rfl
  rw [hi, whenOn_on h]

theorem pairHiRead_copy {r : Requester} {off : Nat} {w : Word} (hw : tblGet none s.shadow (pairKey r off) = some w) :
    s.pairHiRead r off = { s with shadow := tblSet none s.shadow (pairKey r off) none }.emit (.regRead r off w) := by
  unfold State.pairHiRead
  rw [hw]

theorem pairHiRead_noCopy {r : Requester} {off : Nat} (hw : tblGet none s.shadow (pairKey r off) = none) :
    s.pairHiRead r off = s.emit (.regRead r off (s.readReg off)) := by
  unfold State.pairHiRead
  rw [hw]

/-- A _LO half read through the management port latches its _HI half. -/
theorem readAs_lo (r : Requester) {lo : Nat} (hp : isPair lo = true) (h4 : lo % 4 = 0) (hs : lo ≠ TM_PTP_SNAP_SEC_LO) :
    s.readAs r lo = (s.readReg lo, s.latch r (lo + 4)) := by
  unfold State.readAs
  rw [if_neg (by omega), if_pos hp]
  exact congrArg (Prod.mk _) (if_neg hs)

theorem exec_mgmtRegisterRead_lo (h : s.on = true) {lo : Nat} (hp : isPair lo = true) (h4 : lo % 4 = 0) (hs : lo ≠ TM_PTP_SNAP_SEC_LO) :
    exec (.mgmtRegisterRead lo) s = .next ((s.latch .mgmt (lo + 4)).emit (.mgmtRead (be 4 (s.readReg lo).toNat))) := by
  rw [exec_mgmtRegisterRead h, readAs_lo .mgmt hp h4 hs]

/-- Settles O6: by what each read makes of the shadow table. -/
theorem pairReadsUseShadowCopies : Obligations.PairReadsUseShadowCopies := by
  intro s r lo h hp
  refine ⟨⟨_, exec_pairLoRead h r hp, ?_, ?_, loLatched_hi s r lo, fun _ => loLatched_ne s r⟩, fun w hw => ?_, fun hw => ?_, fun hs h4 => ?_⟩
  · rw [loLatched_shadow_alone]
    rfl
  · rw [loLatched_shadow_alone]
    rfl
  · exact ⟨_, by rw [exec_pairHiRead h r hp, pairHiRead_copy hw], rfl, rfl, tblGet_set_same none none s.shadow _,
      fun _ hk => tblGet_set_ne none none s.shadow hk⟩
  · rw [exec_pairHiRead h r hp, pairHiRead_noCopy hw]
    rfl
  · exact ⟨_, exec_mgmtRegisterRead_lo h hp h4 hs, rfl, shadow_latch_same _ _ _, rfl⟩

end Sys2Proof.Machine
end

-- ==== Register writes ====
section

namespace Sys2Proof.Machine

variable {s : State} {r : Requester} {off : Nat}

/-! ### A write of one word -/

/-- The counter-clear registers (R15). -/
def clearOffs : List Nat :=
  [GLB_CNT_CLR, SL_CNT_CLR, MD_CNT_CLR, IX_CNT_CLR, WD_CNT_CLR, SF_CNT_CLR, ET_CNT_CLR, TM_CNT_CLR, DR_CNT_CLR, DM_CNT_CLR, CP_CNT_CLR, ML_CNT_CLR,
    PW_CNT_CLR, SC_CNT_CLR]

/-- The other registers whose writes have an effect of their own, but for the vectors and the DMA channels. -/
def effectOffs : List Nat :=
  [EV_INT_STAT, EV_INT_EN, EV_MD_EXC0, EV_MD_EXC1, EV_MD_EVT0, EV_MD_EVT1, CP_MB_DB, CP_MB_STAT, CP_NT_H_RD, CP_NT_M_RD, DM_INT_STAT, DM_HALT_STAT,
    DM_INT_EN, DM_HALT_EN, SF_UB_BASE_LO, SF_UB_BASE_HI, SF_UB_LEN, SF_UB_ARM]

/-- An offset whose write has no effect of its own. -/
def plainOff (off : Nat) : Bool :=
  !clearOffs.contains off && !effectOffs.contains off && !isPba off && (msixAt off).isNone && (dmaAt off).isNone

theorem counterClear_none (h : off ∉ clearOffs) (s : State) (v : Word) : s.counterClear off v = none := by
  simp only [clearOffs, List.mem_cons, List.not_mem_nil, or_false, not_or] at h
  simp only [State.counterClear, h, if_false]

theorem wordWrite_plain (h : plainOff off = true) (s : State) (r : Requester) (v : Word) : s.wordWrite r off v = s.otherWrite r off v := by
  simp only [plainOff, Bool.and_eq_true, Bool.not_eq_true', List.contains_eq_mem, decide_eq_false_iff_not, Option.isNone_iff_eq_none] at h
  obtain ⟨⟨⟨⟨hc, he⟩, hp⟩, hm⟩, hd⟩ := h
  simp only [effectOffs, List.mem_cons, List.not_mem_nil, or_false, not_or] at he
  simp [State.wordWrite, counterClear_none hc, State.interruptWrite, State.mailboxWrite, State.dmaWrite, State.umberWrite, he, hp, hm, hd]

/-- A whole word at an aligned offset outside the request slots. -/
theorem busWrite_word (s : State) (r : Requester) (v : Word) (h4 : off % 4 = 0) (hend : off < busEnd) (hslot : slotAt off = none) :
    s.busWrite r off 15 v = s.wordWrite r off v := by
  have ha : off / 4 * 4 = off := by omega
  unfold State.busWrite
  simp only [ha, hslot]
  rw [if_neg (by decide), if_neg (by omega), if_neg (by decide)]

/-- Some bytes of a word, but not all four. -/
theorem busWrite_partial (s : State) (r : Requester) (v : Word) (h4 : off % 4 = 0) (hend : off < busEnd) (hslot : slotAt off = none) {be : Nat}
    (h0 : 0 < be) (h15 : be < 15) : s.busWrite r off be v = s.violation (avSrc r) avPartial off v.toNat := by
  have ha : off / 4 * 4 = off := by omega
  unfold State.busWrite
  simp only [ha, hslot]
  rw [if_neg (by omega), if_neg (by omega), if_pos (by omega)]

/-- An offset of one whole word that only holds what is written. -/
def wordOff (off : Nat) : Bool := plainOff off && off % 4 == 0 && decide (off < busEnd) && (slotAt off).isNone

/-- A word written where a register only holds what is written. -/
theorem busWrite_plain (h : wordOff off = true) (s : State) (r : Requester) (v : Word) :
    s.busWrite r off 15 v = s.otherWrite r off v := by
  simp only [wordOff, Bool.and_eq_true, beq_iff_eq, decide_eq_true_eq, Option.isNone_iff_eq_none] at h
  obtain ⟨⟨⟨hp, h4⟩, hend⟩, hslot⟩ := h
  rw [busWrite_word s r v h4 hend hslot, wordWrite_plain hp]

/-! ### Registers that a host may not write (R548, R551) -/

theorem otherWrite_hidden (hr : r ≠ .cp) {d : RegDesc} (hd : regAt off = some d) (hh : d.host = false) (s : State) (v : Word) :
    s.otherWrite r off v = s.violation (avSrc r) avHostWrite off v.toNat := by
  unfold State.otherWrite
  rw [hd]
  exact if_pos (by simp [hr, hh])

theorem otherWrite_undecoded (hd : regAt off = none) (hs : isReplySpace off = false) (s : State) (r : Requester) (v : Word) :
    s.otherWrite r off v = s.violation (avSrc r) avUndecoded off v.toNat := by
  unfold State.otherWrite
  rw [hd, hs]
  rfl

/-! ### Registers that are one whole read-write field -/

/-- The registers that check their fields against one another. -/
def crossBases : List Nat := [SF_CU_CTL 0, MD_SL_RING_LEN 0, MD_SL_RING_BASE_LO 0, IX_DUMP_BASE_LO, IX_DUMP_LEN, ET_DS_CTL, TM_SRC_LIM 0]

/-- One field of 32 bits, read and written as it is. -/
def wholeReg (base : Nat) (dims : List (Nat × Nat)) (profile : Bool) : RegDesc :=
  { base := base, dims := dims, host := false, rst := 0, fields := [{ fld := counter32, acc := .rw, profile := profile, enc := [] }] }

theorem wholeReg_write {base : Nat} (h : base ∉ crossBases) (dims : List (Nat × Nat)) (profile : Bool) (old v : Word) :
    (wholeReg base dims profile).write old v = (v, false) := by
  have hv : fget v counter32 = v.toNat := by
    have := v.isLt
    simp [fget, counter32, Nat.mod_eq_of_lt this]
  have hf : fieldsWrite old v (wholeReg base dims profile).fields = (v, false) := by
    simp [wholeReg, fieldsWrite, fieldWrite, fput_whole, hv]
  simp only [RegDesc.write, hf, show (wholeReg base dims profile).base = base from rfl, crossKeep_none h, Bool.or_false]

theorem plainWrite_whole {base : Nat} (h : base ∉ crossBases) (dims : List (Nat × Nat)) (profile : Bool) (s : State) (r : Requester) (off : Nat)
    (v : Word) :
    s.plainWrite r off v (wholeReg base dims profile) = s.setReg off v := by
  have hm : w1cMask (wholeReg base dims profile).fields = 0 := rfl
  simp [State.plainWrite, wholeReg_write h, hm]

/-! ### Pairs (R20) -/

theorem otherWrite_lo {d : RegDesc} (hd : regAt off = some d) (hp : isPair off = true) (s : State) (v : Word) :
    s.otherWrite .cp off v = s.stageHalf .cp off v := by
  unfold State.otherWrite
  rw [hd]
  simp [hp, State.pairLo]

theorem otherWrite_hi {lo : Nat} {d : RegDesc} (hd : regAt (lo + 4) = some d) (hp : isPair lo = true) (hn : isPair (lo + 4) = false) (s : State)
    (v : Word) : s.otherWrite .cp (lo + 4) v = s.pairHi .cp (lo + 4) v := by
  unfold State.otherWrite
  rw [hd]
  simp [hp, hn]

/-- Both halves of a pair of whole registers are written in one step. -/
theorem pairHi_whole {lo : Nat} (hlo : regAt lo = some (wholeReg lo [] false)) (hhi : regAt (lo + 4) = some (wholeReg (lo + 4) [] false))
    (kl : lo ∉ crossBases) (kh : lo + 4 ∉ crossBases) (s : State) (r : Requester) (v : Word) :
    s.pairHi r (lo + 4) v = ((s.unstage r (lo + 4)).setReg lo (s.stagedLow r (lo + 4))).setReg (lo + 4) v := by
  unfold State.pairHi
  simp only [Nat.add_sub_cancel, hlo, hhi, plainWrite_whole kl, plainWrite_whole kh]

/-- A pair of whole registers that the control processor writes half by half. -/
def WholePair (lo : Nat) : Prop :=
  regAt lo = some (wholeReg lo [] false) ∧ regAt (lo + 4) = some (wholeReg (lo + 4) [] false) ∧
  (isPair lo && !isPair (lo + 4)) = true ∧
  ∀ a ∈ [lo, lo + 4], a ∉ crossBases ∧ wordOff a = true

theorem wholePair_atcLoad : WholePair TM_ATC_LOAD_LO := by
  unfold WholePair
  decide +kernel

theorem wholePair_taiAtc : WholePair TM_TAI_ATC_LO := by
  unfold WholePair
  decide +kernel

theorem exec_pairLoWrite {lo : Nat} (h : s.on = true) (hw : WholePair lo) (v : Word) : exec (.pairLoWrite .cp lo v) s = .next (s.stageHalf .cp lo v) := by
  obtain ⟨hlo, -, hp, hoff⟩ := hw
  rw [Bool.and_eq_true] at hp
  have hi : exec (.pairLoWrite .cp lo v) s = whenOn s fun u => if isPair lo then u.busWrite .cp lo 15 v else u := rfl
  rw [hi, whenOn_on h, if_pos hp.1, busWrite_plain (hoff lo (by simp)).2, otherWrite_lo hlo hp.1]

theorem exec_pairHiWrite {lo : Nat} (h : s.on = true) (hw : WholePair lo) (v : Word) :
    exec (.pairHiWrite .cp (lo + 4) v) s = .next (((s.unstage .cp (lo + 4)).setReg lo (s.stagedLow .cp (lo + 4))).setReg (lo + 4) v) := by
  obtain ⟨hlo, hhi, hp, hoff⟩ := hw
  rw [Bool.and_eq_true, Bool.not_eq_true'] at hp
  obtain ⟨hkl, -⟩ := hoff lo (by simp)
  obtain ⟨hkh, hbus⟩ := hoff (lo + 4) (by simp)
  have hi : exec (.pairHiWrite .cp (lo + 4) v) s =
      whenOn s fun u => if isPair (lo + 4 - 4) && decide (4 ≤ lo + 4) then u.busWrite .cp (lo + 4) 15 v else u := rfl
  rw [hi, whenOn_on h, if_pos (by simp [hp.1]), busWrite_plain hbus, otherWrite_hi hhi hp.1 hp.2, pairHi_whole hlo hhi hkl hkh]

/-- What the writes of a pair's halves do (R20). -/
theorem wholePair_writes {lo : Nat} (h : s.on = true) (hw : WholePair lo) (v : Word) :
    (∃ t, exec (.pairLoWrite .cp lo v) s = .next t ∧ t = { s with staged := t.staged } ∧ tblGet none t.staged (pairKey .cp lo) = some v ∧
      ∀ k, k ≠ pairKey .cp lo → tblGet none t.staged k = tblGet none s.staged k) ∧
    (∃ t, exec (.pairHiWrite .cp (lo + 4) v) s = .next t ∧ t = { s with staged := t.staged, regs := t.regs } ∧ t.reg (lo + 4) = v ∧
      t.reg lo = (tblGet none s.staged (pairKey .cp lo)).getD (s.reg lo) ∧ tblGet none t.staged (pairKey .cp lo) = none ∧
      (∀ k, k ≠ pairKey .cp lo → tblGet none t.staged k = tblGet none s.staged k) ∧ ∀ o, o ≠ lo → o ≠ lo + 4 → t.reg o = s.reg o) := by
  refine ⟨⟨_, exec_pairLoWrite h hw v, rfl, tblGet_set_same none (some v) s.staged _, fun k hk => tblGet_set_ne none (some v) s.staged hk⟩,
    _, exec_pairHiWrite h hw v, rfl, State.reg_setReg_same _ _ _, ?_, ?_, fun k hk => ?_, fun o ho ho' => ?_⟩
  · rw [State.reg_setReg_ne _ _ (by omega), State.reg_setReg_same]
    rfl
  · exact tblGet_set_same none none s.staged _
  · exact tblGet_set_ne none none s.staged hk
  · rw [State.reg_setReg_ne _ _ ho', State.reg_setReg_ne _ _ ho]
    rfl

/-! ### The instructions -/

theorem exec_registerWrite (h : s.on = true) (r : Requester) (off be : Nat) (v : Word) :
    exec (.registerWrite r off be v) s = .next (s.busWrite r off be v) := by
  have hi : exec (.registerWrite r off be v) s = whenOn s fun u => u.busWrite r off be v := rfl
  rw [hi, whenOn_on h]

theorem exec_mgmtRegisterWrite (h : s.on = true) (off : Nat) (v : Word) : exec (.mgmtRegisterWrite off v) s = .next (s.busWrite .mgmt off 15 v) := by
  have hi : exec (.mgmtRegisterWrite off v) s = whenOn s fun u => u.busWrite .mgmt off 15 v := rfl
  rw [hi, whenOn_on h]

/-- The registers of the statement that no host writes. -/
theorem hidden_regs : ∀ off ∈ [GLB_ID, TM_ATC_LOAD_LO, TM_ATC_LOAD_HI],
    (regAt off).any (fun d => !d.host) = true ∧ wordOff off = true := by
  decide +kernel

theorem busWrite_hidden (hr : r ≠ .cp) (ho : off ∈ [GLB_ID, TM_ATC_LOAD_LO, TM_ATC_LOAD_HI]) (s : State) (v : Word) :
    s.busWrite r off 15 v = s.violation (avSrc r) avHostWrite off v.toNat := by
  obtain ⟨hd, hoff⟩ := hidden_regs off ho
  obtain ⟨d, hd, hh⟩ := (Option.any_eq_true _ _).1 hd
  rw [busWrite_plain hoff, otherWrite_hidden hr hd (by simpa using hh)]

theorem busWrite_undecoded (s : State) (r : Requester) (v : Word) : s.busWrite r 0x30 15 v = s.violation (avSrc r) avUndecoded 0x30 v.toNat := by
  rw [busWrite_plain (by decide), otherWrite_undecoded (by decide +kernel) (by decide)]

/-- Words of write-one-to-clear bits take effect whoever writes them (R14). -/
theorem busWrite_mdExc0 (h : s.on = true) (r : Requester) (v : Word) : s.busWrite r EV_MD_EXC0 15 v = s.clearOnes EV_MD_EXC0 v := by
  have hi : s.interruptWrite EV_MD_EXC0 v = some (nextOf s (whenOn s fun u => u.clearOnes EV_MD_EXC0 v)) := rfl
  rw [busWrite_word s r v (by decide) (by decide) (by decide), State.wordWrite, counterClear_none (by decide), hi, whenOn_on h]
  rfl

theorem busWrite_mdEvt1 (h : s.on = true) (r : Requester) (v : Word) : s.busWrite r EV_MD_EVT1 15 v = s.clearOnes EV_MD_EVT1 v := by
  have hi : s.interruptWrite EV_MD_EVT1 v = some (nextOf s (whenOn s fun u => u.clearOnes EV_MD_EVT1 v)) := rfl
  rw [busWrite_word s r v (by decide) (by decide) (by decide), State.wordWrite, counterClear_none (by decide), hi, whenOn_on h]
  rfl

/-- The beams' dips are whole registers, and no others. -/
theorem wdBmDip_whole : ∀ b < 64, regAt (WD_BM_DIP b) = some (wholeReg (WD_BM_DIP 0) [(64, 0x20)] true) ∧
    wordOff (WD_BM_DIP b) = true ∧
    (isPair (WD_BM_DIP b) || isPair (WD_BM_DIP b - 4)) = false := by
  decide +kernel

/-- Past the octets no register of an octet lies. -/
theorem octetWrite_past (h : SL_OCT_PRBS 64 ≤ off) (s t : State) : s.octetWrite t off = t := by
  have hn : ((List.range 64).find? fun o => off == SL_OCT_CTL o || off == SL_OCT_PRBS o) = none := by
    rw [List.find?_eq_none]
    intro o ho
    have := List.mem_range.1 ho
    simp only [SL_OCT_PRBS, SL_OCT_CTL, Bool.or_eq_true, beq_iff_eq] at *
    omega
  unfold State.octetWrite
  rw [hn]

theorem busWrite_wdBmDip (s : State) (v : Word) {b : Nat} (hb : b < 64) : s.busWrite .cp (WD_BM_DIP b) 15 v = s.setReg (WD_BM_DIP b) v := by
  obtain ⟨hd, hoff, hp⟩ := wdBmDip_whole b hb
  obtain ⟨hlo, hhi⟩ := Bool.or_eq_false_iff.1 hp
  have harm : WD_BM_DIP b ≠ TM_ATC_CTL := by
    unfold WD_BM_DIP TM_ATC_CTL
    omega
  have hoct : SL_OCT_PRBS 64 ≤ WD_BM_DIP b := by
    unfold SL_OCT_PRBS WD_BM_DIP
    omega
  rw [busWrite_plain hoff, State.otherWrite, hd]
  simp only [hlo, hhi, bne_self_eq_false, Bool.false_and, Bool.false_eq_true, if_false]
  rw [octetWrite_past hoct, State.armWrite, if_neg fun h => harm h.1, plainWrite_whole (by decide)]

/-- Settles O7: each write is the bus write of one word, which stages, stores, clears or is refused by its offset and requester. -/
theorem registerWritesStageOrAreRefused : Obligations.RegisterWritesStageOrAreRefused := by
  intro s v h
  refine ⟨fun lo hlo => ?_, fun r hr => ⟨fun off ho => ?_, ?_, fun be h15 h0 => ?_⟩, ?_, ?_, fun b hb => ?_, fun r => ?_⟩
  · have hw : WholePair lo := by
      simp only [List.mem_cons, List.not_mem_nil, or_false] at hlo
      rcases hlo with rfl | rfl
      · exact wholePair_atcLoad
      · exact wholePair_taiAtc
    exact wholePair_writes h hw v
  · rw [exec_registerWrite h, busWrite_hidden hr ho]
  · rw [exec_registerWrite h, busWrite_undecoded]
  · rw [exec_registerWrite h, busWrite_partial s r v (by decide) (by decide) (by decide) h0 h15]
  · rw [exec_mgmtRegisterWrite h, busWrite_hidden (by decide) (by decide)]
    rfl
  · rw [exec_mgmtRegisterWrite h, busWrite_mdExc0 h]
    rfl
  · rw [exec_registerWrite h, busWrite_wdBmDip s v hb]
  · rw [exec_registerWrite h, busWrite_mdEvt1 h]
    rfl

end Sys2Proof.Machine
end

-- ==== Sample lanes: rules of their state ====
section

namespace Sys2Proof.Machine

variable {s t u : State}

/-! ### Bits and fields -/

theorem bit_eq_testBit (v i : Nat) : bit v i = v.testBit i := by
  rw [bit, Nat.testBit_eq_decide_div_mod_eq]
  rfl

theorem bit_mod_two_pow (v : Nat) {i w : Nat} (h : i < w) : bit (v % 2 ^ w) i = bit v i := by
  simp [bit_eq_testBit, Nat.testBit_mod_two_pow, h]

theorem bit_add_two_pow (v i : Nat) : bit (v + 2 ^ i) i = !bit v i := by
  rw [bit_eq_testBit, bit_eq_testBit, Nat.add_comm, Nat.testBit_two_pow_add_eq]

theorem bit_setBit (v i : Nat) : bit (setBit v i) i = true := by
  unfold setBit
  split
  · assumption
  next h => rw [bit_add_two_pow, Bool.eq_false_iff.2 h, Bool.not_false]

theorem bit_clrBit (v i : Nat) : bit (clrBit v i) i = false := by
  unfold clrBit
  split
  next h =>
    have hle : 2 ^ i ≤ v := Nat.ge_two_pow_of_testBit (bit_eq_testBit v i ▸ h)
    obtain ⟨w, rfl⟩ := Nat.exists_eq_add_of_le' hle
    rw [Nat.add_sub_cancel]
    simpa [bit_add_two_pow] using h
  next h => exact Bool.eq_false_iff.2 h

/-- A bit of a field after a write of that bit. -/
theorem State.rfb_setFB_same (s : State) (a : Nat) {f : Fld} {i : Nat} (b : Bool) (hf : f.lo + f.w ≤ 32) (hi : i < f.w) :
    (s.setFB a f i b).rfb a f i = b := by
  rw [State.rfb, State.setFB, s.rf_setF_same _ _ _ hf, bit_mod_two_pow _ hi]
  cases b
  · exact bit_clrBit _ _
  · exact bit_setBit _ _

theorem State.flag_setF_same (s : State) (a : Nat) (f : Fld) (v : Nat) (hf : f.lo + f.w ≤ 32) : (s.setF a f v).flag a f = (v % 2 ^ f.w == 1) := by
  rw [State.flag, s.rf_setF_same _ _ _ hf]

theorem State.rf_of_reg {a : Nat} (h : t.reg a = s.reg a) (f : Fld) : t.rf a f = s.rf a f := congrArg (fget · f) h

theorem State.flag_of_rf {a : Nat} {f : Fld} (h : t.rf a f = s.rf a f) : t.flag a f = s.flag a f := congrArg (· == 1) h

theorem State.flag_of_reg {a : Nat} (h : t.reg a = s.reg a) (f : Fld) : t.flag a f = s.flag a f := State.flag_of_rf (State.rf_of_reg h f)

theorem State.rfb_of_reg {a : Nat} (h : t.reg a = s.reg a) (f : Fld) (i : Nat) : t.rfb a f i = s.rfb a f i :=
  congrArg (bit · i) (State.rf_of_reg h f)

/-! ### Lanes and octets after a write -/

@[simp] theorem State.oct_setOct_same (s : State) (o : Nat) (x : OctSt) : (s.setOct o x).oct o = x := tblGet_set_same octReset x s.sl.octs o

theorem State.oct_setOct_ne (s : State) {o p : Nat} (x : OctSt) (h : p ≠ o) : (s.setOct o x).oct p = s.oct p :=
  tblGet_set_ne octReset x s.sl.octs h

theorem State.lane_setLane (s : State) (o j p q : Nat) (l : LaneSt) :
    (s.setLane o j l).lane p q = if 8 * p + q = 8 * o + j then l else s.lane p q := tblGet_set laneReset l s.sl.lanes (8 * o + j) (8 * p + q)

@[simp] theorem State.lane_setLane_same (s : State) (o j : Nat) (l : LaneSt) : (s.setLane o j l).lane o j = l :=
  tblGet_set_same laneReset l s.sl.lanes (8 * o + j)

theorem State.lane_setLane_ne (s : State) {o j p q : Nat} (l : LaneSt) (h : 8 * p + q ≠ 8 * o + j) : (s.setLane o j l).lane p q = s.lane p q :=
  tblGet_set_ne laneReset l s.sl.lanes h

/-- Lanes of two octets, and two lanes of one octet, are different lanes. -/
theorem laneIdx_ne {o j o' j' : Nat} (hj : j < 8) (hj' : j' < 8) (h : (o', j') ≠ (o, j)) : 8 * o' + j' ≠ 8 * o + j := by
  rw [Ne, Prod.mk.injEq] at h
  omega

@[simp] theorem State.lane_setOct (s : State) (o : Nat) (x : OctSt) (p q : Nat) : (s.setOct o x).lane p q = s.lane p q := (rfl)
@[simp] theorem State.oct_setLane (s : State) (o j : Nat) (l : LaneSt) (p : Nat) : (s.setLane o j l).oct p = s.oct p := (rfl)
@[simp] theorem State.reg_setOct (s : State) (o : Nat) (x : OctSt) (a : Nat) : (s.setOct o x).reg a = s.reg a := (rfl)
@[simp] theorem State.reg_setLane (s : State) (o j : Nat) (l : LaneSt) (a : Nat) : (s.setLane o j l).reg a = s.reg a := (rfl)
@[simp] theorem State.rf_setOct (s : State) (o : Nat) (x : OctSt) (a : Nat) (f : Fld) : (s.setOct o x).rf a f = s.rf a f := (rfl)
@[simp] theorem State.oct_setF (s : State) (a : Nat) (f : Fld) (v p : Nat) : (s.setF a f v).oct p = s.oct p := (rfl)
@[simp] theorem State.lane_setF (s : State) (a : Nat) (f : Fld) (v p q : Nat) : (s.setF a f v).lane p q = s.lane p q := (rfl)
@[simp] theorem State.lane_setFB (s : State) (a : Nat) (f : Fld) (i : Nat) (b : Bool) (p q : Nat) : (s.setFB a f i b).lane p q = s.lane p q := (rfl)
@[simp] theorem State.oct_bump (s : State) (a p : Nat) : (s.bump a).oct p = s.oct p := (rfl)
@[simp] theorem State.lane_bump (s : State) (a p q : Nat) : (s.bump a).lane p q = s.lane p q := (rfl)
@[simp] theorem State.oct_emit (s : State) (x : Out) (p : Nat) : (s.emit x).oct p = s.oct p := (rfl)

@[simp] theorem State.reg_markStored (s : State) (p : Nat) (ts old : List Nat) (f : Smp → Smp) (a : Nat) :
    (s.markStored p ts old f).reg a = s.reg a := (rfl)

theorem State.oct_of_octs (h : t.sl.octs = s.sl.octs) (p : Nat) : t.oct p = s.oct p := congrArg (tblGet octReset · p) h

theorem State.lane_of_lanes (h : t.sl.lanes = s.sl.lanes) (p q : Nat) : t.lane p q = s.lane p q := congrArg (tblGet laneReset · (8 * p + q)) h

/-- A write of a field changes its register alone. -/
theorem onlyRegs_setF (s : State) (a : Nat) (f : Fld) (v : Nat) : OnlyRegs [a] s (s.setF a f v) :=
  ⟨rfl, fun _ h => ⟨s.reg_setF_ne f v (List.ne_of_not_mem_cons h), rfl⟩⟩

/-! ### Samples marked in the stores (R73) -/

/-- The mark that a stored sample takes: none where zeros have replaced it. -/
def markSmp (f : Smp → Smp) (x : Smp) : Smp := if x.loss then x else f x

/-- A change of samples that keeps their array time and their loss flag, and that a second time changes nothing. -/
structure MarkFn (f : Smp → Smp) : Prop where
  t : ∀ x, (f x).t = x.t
  loss : ∀ x, (f x).loss = x.loss
  twice : ∀ x, f (f x) = f x

theorem markFn_flags (fail chk : Bool) : MarkFn fun x => { x with crc := x.crc || fail, chk := x.chk || chk } :=
  ⟨fun _ => rfl, fun _ => rfl, fun _ => by simp⟩

theorem MarkFn.markSmp_twice {f : Smp → Smp} (hf : MarkFn f) (x : Smp) : markSmp f (markSmp f x) = markSmp f x := by
  unfold markSmp
  cases h : x.loss <;> simp [h, hf.loss, hf.twice]

/-- The key of a path's ring entry for an array time (R127). -/
def ringKey (p t : Nat) : Nat := p * 131072 + t % 131072

theorem ringKey_inj {p q t τ : Nat} (h : ringKey p t = ringKey q τ) : p = q ∧ t % 131072 = τ % 131072 := by
  unfold ringKey at h
  omega

theorem smpAt_eq (st : Tbl (Option Smp)) (p t : Nat) :
    smpAt st p t = (tblGet none st (ringKey p t)).bind fun x => if x.t = t then some x else none := by
  unfold smpAt ringKey
  split <;> simp [*]

theorem markOne_held {p t : Nat} {f : Smp → Smp} {st : Tbl (Option Smp)} {x : Smp} (hx : tblGet none st (ringKey p t) = some x) :
    markOne p f st t = if x.t = t ∧ x.loss = false then tblSet none st (ringKey p t) (some (f x)) else st := by
  unfold ringKey at *
  simp only [markOne, hx]

theorem markOne_empty {p t : Nat} {f : Smp → Smp} {st : Tbl (Option Smp)} (hx : tblGet none st (ringKey p t) = none) : markOne p f st t = st := by
  unfold ringKey at *
  simp only [markOne, hx]

theorem smpAt_markOne_same {f : Smp → Smp} (hf : MarkFn f) (p t : Nat) (st : Tbl (Option Smp)) :
    smpAt (markOne p f st t) p t = (smpAt st p t).map (markSmp f) := by
  cases hx : tblGet none st (ringKey p t) with
  | none => simp [markOne_empty hx, smpAt_eq, hx]
  | some x =>
    by_cases ht : x.t = t
    · cases hl : x.loss <;> simp [markOne_held hx, smpAt_eq, markSmp, hx, ht, hl, hf.t]
    · simp [markOne_held hx, smpAt_eq, hx, ht]

theorem smpAt_markOne_ne {f : Smp → Smp} (hf : MarkFn f) {p q t τ : Nat} (st : Tbl (Option Smp)) (h : q ≠ p ∨ τ ≠ t) :
    smpAt (markOne p f st t) q τ = smpAt st q τ := by
  cases hx : tblGet none st (ringKey p t) with
  | none => rw [markOne_empty hx]
  | some x =>
    rw [markOne_held hx]
    split
    next ht =>
      obtain ⟨ht, -⟩ := ht
      by_cases hk : ringKey q τ = ringKey p t
      · have hne : t ≠ τ := fun e => h.elim (fun hq => hq (ringKey_inj hk).1) fun hτ => hτ e.symm
        simp [smpAt_eq, hk, hx, hf.t, ht, hne]
      · rw [smpAt_eq, smpAt_eq, tblGet_set_ne _ _ _ hk]
    · rfl

theorem smpAt_foldl_markOne_notMem {f : Smp → Smp} (hf : MarkFn f) {p q τ : Nat} (ts : List Nat) (st : Tbl (Option Smp)) (h : q ≠ p ∨ τ ∉ ts) :
    smpAt (ts.foldl (markOne p f) st) q τ = smpAt st q τ :=
  List.foldlRecOn ts (markOne p f) (motive := fun st' => smpAt st' q τ = smpAt st q τ) rfl fun st' ih _ ht =>
    (smpAt_markOne_ne hf st' (h.imp_right fun hτ e => hτ (e ▸ ht))).trans ih

theorem smpAt_foldl_markOne_mem {f : Smp → Smp} (hf : MarkFn f) {p τ : Nat} : ∀ (ts : List Nat) (st : Tbl (Option Smp)), τ ∈ ts →
    smpAt (ts.foldl (markOne p f) st) p τ = (smpAt st p τ).map (markSmp f) := by
  intro ts
  induction ts with
  | nil => intro st h; cases h
  | cons t ts ih =>
    intro st h
    rw [List.foldl_cons]
    by_cases hτ : τ ∈ ts
    · rw [ih _ hτ]
      by_cases ht : τ = t
      · subst ht
        rw [smpAt_markOne_same hf, Option.map_map]
        exact congrArg (Option.map · _) (funext hf.markSmp_twice)
      · rw [smpAt_markOne_ne hf _ (.inr ht)]
    · obtain rfl : τ = t := (List.mem_cons.1 h).resolve_right hτ
      rw [smpAt_foldl_markOne_notMem hf ts _ (.inr hτ), smpAt_markOne_same hf]

/-- A sample that has been released and that zeros have not replaced takes the mark. -/
theorem smpAt_marked {f : Smp → Smp} (hf : MarkFn f) {p τ : Nat} {ts : List Nat} {st : Tbl (Option Smp)} {x : Smp} (hτ : τ ∈ ts)
    (hx : smpAt st p τ = some x) (hl : x.loss = false) : smpAt (ts.foldl (markOne p f) st) p τ = some (f x) := by
  rw [smpAt_foldl_markOne_mem hf ts st hτ, hx, Option.map_some, markSmp, hl]
  rfl

/-! ### Folds over lanes and octets -/

/-- A fold whose step at `k` settles `k` where it still stands as it did, and leaves the others as they stand. -/
theorem foldl_local {f : State → Nat → State} {Q P : Nat → State → Prop} {l : List Nat} (hl : l.Nodup) (h0 : ∀ j ∈ l, Q j s)
    (hset : ∀ u, ∀ k ∈ l, Q k u → P k (f u k)) (hQ : ∀ u, ∀ k ∈ l, ∀ j, j ≠ k → Q j u → Q j (f u k))
    (hP : ∀ u, ∀ k ∈ l, ∀ j, j ≠ k → P j u → P j (f u k)) {j : Nat} (hj : j ∈ l) : P j (l.foldl f s) := by
  induction l generalizing s with
  | nil => cases hj
  | cons k l ih =>
    obtain ⟨hk, hn⟩ := List.nodup_cons.1 hl
    rcases List.mem_cons.1 hj with rfl | hj
    · exact List.foldlRecOn l f (motive := P j) (hset s j (by simp) (h0 j (by simp))) fun u hu i hi =>
        hP u i (by simp [hi]) j (fun e => hk (e ▸ hi)) hu
    · exact ih hn (fun i hi => hQ s k (by simp) i (fun e => hk (e ▸ hi)) (h0 i (by simp [hi]))) (fun u i hi => hset u i (by simp [hi]))
        (fun u i hi => hQ u i (by simp [hi])) (fun u i hi => hP u i (by simp [hi])) hj

end Sys2Proof.Machine
end

-- ==== Sample lanes: blocks ====
section

namespace Sys2Proof.Machine

variable {s : State} {o j : Nat} {raw : List Byte}

/-! ### Headers -/

/-- A lane that has taken an expected header has no break of SEQ. -/
theorem laneHeader_broke {l : LaneSt} {b : List Byte} (h : headerBad l b = false) : (laneHeader l b).broke = false := by
  simp only [headerBad, Bool.or_eq_false_iff] at h
  exact h.1.2

theorem laneHeader_hdr (l : LaneSt) (b : List Byte) : (laneHeader l b).hdr = (headerBad l b :: l.hdr).take 64 := rfl

/-- An expected header ends no lock (R74). -/
theorem lockEnds_laneHeader {l : LaneSt} {b : List Byte} (h : headerBad l b = false) (hn : (l.hdr.filter id).length < 16) :
    lockEnds l (laneHeader l b) = false := by
  have hle : ((laneHeader l b).hdr.filter id).length ≤ (l.hdr.filter id).length := by
    rw [laneHeader_hdr, h, List.take_succ_cons, List.filter_cons_of_neg (by simp)]
    exact ((List.take_sublist 63 l.hdr).filter id).length_le
  rw [lockEnds, laneHeader_broke h, Bool.and_false, Bool.or_false, decide_eq_false_iff_not]
  omega

/-- The block that a lane takes from the bytes it receives, its polarity corrected (R76). -/
def rxBlock (s : State) (o j : Nat) (raw : List Byte) : List Byte := upright (s.lane o j).inv raw

/-- The state in which a lane has taken the header of a block, and not yet its body. -/
def headed (s : State) (o j : Nat) (raw : List Byte) : State := s.setLane o j (laneHeader (s.lane o j) (rxBlock s o j raw))

/-- A 16-byte block whose header is as its locked lane expects it. -/
structure Expected (s : State) (o j : Nat) (raw : List Byte) : Prop where
  locked : s.locked o j = true
  length : raw.length = 16
  header : headerBad (s.lane o j) (rxBlock s o j raw) = false
  errors : ((s.lane o j).hdr.filter id).length < 16

theorem Expected.header_eq (h : Expected s o j raw) : s.header o j (rxBlock s o j raw) = (headed s o j raw, false) := by
  simp only [State.header, h.header, lockEnds_laneHeader h.header h.errors, Bool.false_eq_true, if_false]
  rfl

/-- What an expected block does: its body finds the header taken into the lane. -/
theorem Expected.exec_eq (h : Expected s o j raw) (hon : s.on = true) {i : Instr} {k : BlockKind → Bool} {body : State → List Byte → State}
    (hi : exec i s = whenOn s fun u => u.block k o j raw body) (hk : k (blockKind (rxBlock s o j raw)) = true) :
    exec i s = .next (body (headed s o j raw) (rxBlock s o j raw)) := by
  have hr := h.header_eq
  unfold rxBlock at *
  rw [hi, whenOn_on hon]
  simp only [State.block, h.locked, h.length, hk, hr, decide_true, Bool.and_self, if_true, Bool.false_eq_true, if_false]

theorem lane_headed (s : State) (o j : Nat) (raw : List Byte) : (headed s o j raw).lane o j = laneHeader (s.lane o j) (rxBlock s o j raw) :=
  s.lane_setLane_same o j _

/-! ### What a block leaves of the other lanes -/

/-- Of the sample lanes' state, lane `j` of octet `o` alone has changed. -/
def OneLane (s : State) (o j : Nat) (t : State) : Prop :=
  t.sl = { s.sl with lanes := t.sl.lanes } ∧ ∀ o' j', o' < 64 → j' < 8 → (o', j') ≠ (o, j) → t.lane o' j' = s.lane o' j'

theorem oneLane_setLane (s : State) (hj : j < 8) (l : LaneSt) : OneLane s o j (s.setLane o j l) :=
  ⟨rfl, fun _ _ _ hj' h => s.lane_setLane_ne l (laneIdx_ne hj hj' h)⟩

theorem OneLane.setLane {t : State} (h : OneLane s o j t) (hj : j < 8) (l : LaneSt) : OneLane s o j (t.setLane o j l) :=
  ⟨by rw [State.setLane, h.1], fun o' j' ho' hj' hne => (t.lane_setLane_ne l (laneIdx_ne hj hj' hne)).trans (h.2 o' j' ho' hj' hne)⟩

theorem OneLane.of_sl {t u : State} (h : OneLane s o j t) (e : u.sl = t.sl) : OneLane s o j u := by
  have hl : ∀ p q, u.lane p q = t.lane p q := State.lane_of_lanes (congrArg SlSt.lanes e)
  exact ⟨by rw [e, h.1], fun o' j' ho' hj' hne => (hl o' j').trans (h.2 o' j' ho' hj' hne)⟩

theorem oneLane_headed (s : State) (hj : j < 8) (raw : List Byte) : OneLane s o j (headed s o j raw) := oneLane_setLane s hj _

/-! ### Data and idle blocks (R68, R69) -/

/-- A data block enters its lane whole, and nothing else. -/
theorem Expected.data (h : Expected s o j raw) (hon : s.on = true) (hj : j < 8) (hk : blockKind (rxBlock s o j raw) = .data) :
    ∃ t, exec (.dataBlockReceived o j raw) s = .next t ∧ t = { s with sl := t.sl } ∧ OneLane s o j t ∧
      (t.lane o j).fifo = (s.lane o j).fifo ++
        (blockSamples (s.lane o j).fmt8 (rxBlock s o j raw)).map (fun v => { v := v, crc := false, chk := false }) ∧
      (t.lane o j).count = ((s.lane o j).count + 1) % 2 ^ 48 ∧ (t.lane o j).crc = crc16 (s.lane o j).crc (rxBlock s o j raw) := by
  refine ⟨_, h.exec_eq hon rfl (by rw [hk]; rfl), ?_⟩
  rw [if_neg (by rw [hk]; decide)]
  refine ⟨rfl, (oneLane_headed s hj raw).setLane hj _, ?_⟩
  simp only [State.lane_setLane_same, lane_headed]
  exact ⟨rfl, rfl, rfl⟩

/-- An idle block enters the CRC16 of its lane, and nothing else. -/
theorem Expected.idle (h : Expected s o j raw) (hon : s.on = true) (hj : j < 8) (hk : blockKind (rxBlock s o j raw) = .idle) :
    ∃ t, exec (.idleBlockReceived o j raw) s = .next t ∧ t = { s with sl := t.sl } ∧ OneLane s o j t ∧
      (t.lane o j).fifo = (s.lane o j).fifo ∧ (t.lane o j).count = (s.lane o j).count ∧
      (t.lane o j).crc = crc16 (s.lane o j).crc (rxBlock s o j raw) := by
  refine ⟨_, h.exec_eq hon rfl (by rw [hk]; rfl), rfl, (oneLane_headed s hj raw).setLane hj _, ?_⟩
  simp only [State.lane_setLane_same, lane_headed]
  exact ⟨rfl, rfl, rfl⟩

/-! ### Frames (R73) -/

/-- A frame of a lane has ended: its samples are marked, those in the lane's FIFO and those released, in the sample store and in what an epoch
load left of it; no other sample is. -/
def FrameMarked (s : State) (o j : Nat) (fail : Bool) (t : State) : Prop :=
  let l := s.lane o j
  (t.lane o j).fifo = l.fifo.take (l.frameIdx - l.head) ++ (l.fifo.drop (l.frameIdx - l.head)).map (fun x => { x with crc := x.crc || fail, chk := true }) ∧
    (t.lane o j).rel = [] ∧ (t.lane o j).relOld = [] ∧ (∀ p τ, (p ≠ 8 * o + l.idx ∨ τ ∉ l.rel) → t.smp p τ = s.smp p τ) ∧
    (∀ (τ : Nat) (x : Smp), τ ∈ l.rel → s.smp (8 * o + l.idx) τ = some x → x.loss = false →
      t.smp (8 * o + l.idx) τ = some { x with crc := x.crc || fail, chk := true }) ∧
    (∀ (τ : Nat) (x : Smp), τ ∈ l.relOld → smpAt s.md.past (8 * o + l.idx) τ = some x → x.loss = false →
      smpAt t.md.past (8 * o + l.idx) τ = some { x with crc := x.crc || fail, chk := true })

/-- The lane whose frame has ended, its samples marked. -/
def markedLane (l : LaneSt) (fail chk : Bool) : LaneSt :=
  { l with
    fifo := l.fifo.take (l.frameIdx - l.head) ++ (l.fifo.drop (l.frameIdx - l.head)).map fun x => { x with crc := x.crc || fail, chk := x.chk || chk }
    rel := [], relOld := [] }

theorem lane_markFrame (s : State) (o j : Nat) (fail chk : Bool) : (s.markFrame o j fail chk).lane o j = markedLane (s.lane o j) fail chk :=
  s.lane_setLane_same o j _

theorem markFrame_smp_other (s : State) (o j : Nat) (fail chk : Bool) {p τ : Nat} (h : p ≠ 8 * o + (s.lane o j).idx ∨ τ ∉ (s.lane o j).rel) :
    (s.markFrame o j fail chk).smp p τ = s.smp p τ := smpAt_foldl_markOne_notMem (markFn_flags fail chk) _ _ h

theorem markFrame_smp_rel (s : State) (o j : Nat) (fail chk : Bool) {τ : Nat} {x : Smp} (hτ : τ ∈ (s.lane o j).rel)
    (hx : s.smp (8 * o + (s.lane o j).idx) τ = some x) (hl : x.loss = false) :
    (s.markFrame o j fail chk).smp (8 * o + (s.lane o j).idx) τ = some { x with crc := x.crc || fail, chk := x.chk || chk } :=
  smpAt_marked (markFn_flags fail chk) hτ hx hl

theorem markFrame_past_relOld (s : State) (o j : Nat) (fail chk : Bool) {τ : Nat} {x : Smp} (hτ : τ ∈ (s.lane o j).relOld)
    (hx : smpAt s.md.past (8 * o + (s.lane o j).idx) τ = some x) (hl : x.loss = false) :
    smpAt (s.markFrame o j fail chk).md.past (8 * o + (s.lane o j).idx) τ = some { x with crc := x.crc || fail, chk := x.chk || chk } :=
  smpAt_marked (markFn_flags fail chk) hτ hx hl

/-- Marks are what is left when the lane's fields but for its samples and the registers change after it. -/
theorem frameMarked_of_markFrame (s : State) {fail : Bool} {t : State} (hm : t.md = (s.markFrame o j fail true).md)
    (hf : (t.lane o j).fifo = ((s.markFrame o j fail true).lane o j).fifo) (hr : (t.lane o j).rel = []) (ho : (t.lane o j).relOld = []) :
    FrameMarked s o j fail t := by
  have hs : ∀ p τ, t.smp p τ = (s.markFrame o j fail true).smp p τ := fun p τ => congrArg (fun m => smpAt (MdSt.store m) p τ) hm
  refine ⟨?_, hr, ho, fun p τ h => (hs p τ).trans (markFrame_smp_other s o j fail true h), fun τ x hτ hx hl => ?_, fun τ x hτ hx hl => ?_⟩
  · rw [hf, lane_markFrame]
    simp only [markedLane, Bool.or_true]
  · rw [hs, markFrame_smp_rel s o j fail true hτ hx hl, Bool.or_true]
  · rw [hm, markFrame_past_relOld s o j fail true hτ hx hl, Bool.or_true]

/-! ### Check blocks (R70 to R73, R95) -/

/-- A lane at the end of its frame. -/
def endedLane (l : LaneSt) (fail : Bool) : LaneSt :=
  { markedLane l fail true with
    fails := (fail :: l.fails).take 64, clean := if fail then 0 else l.clean + 1, frameIdx := l.head + (markedLane l fail true).fifo.length
    frameCount := l.count, crc := 0xFFFF, frameErr := false, part := false }

/-- One failure more makes eight of the last 64 at the earliest with the eighth (R95). -/
theorem fails_lt {l : List Bool} (h : (l.filter id).length < 7) (b : Bool) : ¬ 8 ≤ (((b :: l).take 64).filter id).length := by
  have htake := ((List.take_sublist 64 (b :: l)).filter id).length_le
  have hcons : ((b :: l).filter id).length ≤ (l.filter id).length + 1 := by cases b <;> simp
  omega

/-- The end of a frame that makes no lane DEGRADED and fails no dwell. -/
theorem frameEnd_eq (s : State) (o j : Nat) (fail : Bool) (hf : ((s.lane o j).fails.filter id).length < 7) (hd : (s.oct o).step ≠ .dwell) :
    s.frameEnd o j fail =
      (let u := (s.markFrame o j fail true).setLane o j (endedLane (s.lane o j) fail)
       if fail then u.bump (SL_LANE_CRCERR o j) else u) := by
  unfold State.frameEnd
  extract_lets s0 l fs l1 s1 s2 s3 u
  have hl : l = markedLane (s.lane o j) fail true := lane_markFrame s o j fail true
  have h1 : s1 = u := by
    unfold s1 l1 fs
    rw [hl]
    rfl
  have h3 : s3 = s2 := if_neg (by unfold fs; rw [hl]; exact fails_lt hf fail)
  have hstep : (s3.oct o).step = (s.oct o).step := by
    rw [h3]
    unfold s2
    split <;> rfl
  rw [if_neg (by rw [hstep, beq_false_of_ne hd, Bool.and_false, Bool.false_and]; decide), h3, ← h1]

/-- The check block of a whole frame that carries the expected count and no flag, outside a dwell. -/
structure FrameEnds (s : State) (o j : Nat) (b : List Byte) : Prop where
  count : beAt b 2 6 = (s.lane o j).frameCount
  small : (s.lane o j).frameCount < 2 ^ 48
  clean : (s.lane o j).frameErr = false
  flags : bit (beAt b 11 1) 0 = false
  step : (s.oct o).step ≠ .dwell
  fails : ((s.lane o j).fails.filter id).length < 7
  whole : (s.lane o j).part = false

/-- A lane after such a check block. -/
def checkedLane (l : LaneSt) (fail : Bool) : LaneSt := { endedLane l fail with jump := none, fmt8 := l.fmtNext.getD l.fmt8, fmtNext := none }

/-- Such a check block ends its frame, failed where its CRC16 differs, and no loss of lock comes of it. -/
theorem FrameEnds.check_eq {b : List Byte} (h : FrameEnds s o j b) {fail : Bool} (hfail : (beAt b 8 2 != (s.lane o j).crc) = fail) :
    s.check o j b =
      (let u := (s.markFrame o j fail true).setLane o j (endedLane (s.lane o j) fail)
       if fail then (u.bump (SL_LANE_CRCERR o j)).setLane o j (checkedLane (s.lane o j) fail) else u.setLane o j (checkedLane (s.lane o j) fail)) := by
  have hdiff : (beAt b 2 6 + 2 ^ 48 - (s.lane o j).frameCount) % 2 ^ 48 = 0 := by
    rw [h.count, Nat.add_sub_cancel_left, Nat.mod_self]
  simp only [State.check, h.whole, h.clean, h.flags, hdiff, hfail, Bool.false_eq_true, if_false, bne_self_eq_false, Bool.and_false, Bool.or_false,
    Bool.not_false, Bool.true_and, if_true, frameEnd_eq s o j fail h.fails h.step]
  cases fail
  · simp only [Bool.false_eq_true, if_false, State.lane_setLane_same]
    rfl
  · simp only [if_true, State.lane_bump, State.lane_setLane_same]
    rfl

theorem FrameEnds.md_check {b : List Byte} (h : FrameEnds s o j b) {fail : Bool} (hfail : (beAt b 8 2 != (s.lane o j).crc) = fail) :
    (s.check o j b).md = (s.markFrame o j fail true).md := by
  rw [h.check_eq hfail]
  cases fail <;> rfl

theorem FrameEnds.lane_check {b : List Byte} (h : FrameEnds s o j b) {fail : Bool} (hfail : (beAt b 8 2 != (s.lane o j).crc) = fail) :
    (s.check o j b).lane o j = checkedLane (s.lane o j) fail := by
  rw [h.check_eq hfail]
  cases fail <;> exact State.lane_setLane_same _ _ _ _

theorem FrameEnds.oneLane_check {b : List Byte} (h : FrameEnds s o j b) (hj : j < 8) {fail : Bool} (hfail : (beAt b 8 2 != (s.lane o j).crc) = fail) :
    OneLane s o j (s.check o j b) := by
  have hm : OneLane s o j ((s.markFrame o j fail true).setLane o j (endedLane (s.lane o j) fail)) :=
    ((oneLane_setLane s hj (markedLane (s.lane o j) fail true)).of_sl rfl).setLane hj _
  rw [h.check_eq hfail]
  cases fail
  · exact hm.setLane hj _
  · exact (hm.of_sl rfl).setLane hj _

theorem FrameEnds.marked {b : List Byte} (h : FrameEnds s o j b) {fail : Bool} (hfail : (beAt b 8 2 != (s.lane o j).crc) = fail) :
    FrameMarked s o j fail (s.check o j b) := by
  have hl := h.lane_check hfail
  exact frameMarked_of_markFrame s (h.md_check hfail) (by rw [hl, lane_markFrame]; rfl) (by rw [hl]; rfl) (by rw [hl]; rfl)

/-- A clean frame changes the lane and the marks of samples alone. -/
theorem FrameEnds.check_clean_shape {b : List Byte} (h : FrameEnds s o j b) (hfail : (beAt b 8 2 != (s.lane o j).crc) = false) {t : State}
    (ht : t = s.check o j b) : t = { s with sl := t.sl, md := { s.md with store := t.md.store, past := t.md.past } } := by
  rw [ht, h.check_eq hfail]
  rfl

/-- A failed one also counts. -/
theorem FrameEnds.check_failed_shape {b : List Byte} (h : FrameEnds s o j b) (hfail : (beAt b 8 2 != (s.lane o j).crc) = true) {t : State}
    (ht : t = s.check o j b) :
    t = { s with sl := t.sl, regs := t.regs, fresh := t.fresh, md := { s.md with store := t.md.store, past := t.md.past } } := by
  rw [ht, h.check_eq hfail]
  rfl

theorem FrameEnds.reg_check_failed {b : List Byte} (h : FrameEnds s o j b) (hfail : (beAt b 8 2 != (s.lane o j).crc) = true) :
    (s.check o j b).reg (SL_LANE_CRCERR o j) = w32 (min (2 ^ 32 - 1) ((s.reg (SL_LANE_CRCERR o j)).toNat + 1)) ∧
      ∀ a, a ≠ SL_LANE_CRCERR o j → (s.check o j b).reg a = s.reg a := by
  rw [h.check_eq hfail]
  exact ⟨State.reg_bump_same _ _, fun _ ha => State.reg_bump_ne _ ha⟩

/-- A header taken changes nothing of what a check block looks at. -/
theorem frameEnds_headed (h : Expected s o j raw) {b : List Byte} (he : FrameEnds s o j b) : FrameEnds (headed s o j raw) o j b := by
  obtain ⟨hcount, hsmall, hclean, hflags, hstep, hfails, hwhole⟩ := he
  refine ⟨?_, ?_, ?_, hflags, hstep, ?_, ?_⟩ <;> rw [lane_headed]
  · exact hcount
  · exact hsmall
  · exact Bool.or_eq_false_iff.2 ⟨hclean, h.header⟩
  · exact hfails
  · exact hwhole

theorem frameMarked_headed {fail : Bool} {t : State} (h : FrameMarked (headed s o j raw) o j fail t) : FrameMarked s o j fail t := by
  unfold FrameMarked at h
  rw [lane_headed] at h
  exact h

theorem oneLane_of_headed {t : State} (hj : j < 8) (h : OneLane (headed s o j raw) o j t) : OneLane s o j t :=
  ⟨h.1, fun o' j' ho' hj' hne => (h.2 o' j' ho' hj' hne).trans ((oneLane_headed s hj raw).2 o' j' ho' hj' hne)⟩

/-- A check block with the frame's CRC16 ends a clean frame. -/
theorem Expected.check_clean (h : Expected s o j raw) (hon : s.on = true) (hj : j < 8) (hk : blockKind (rxBlock s o j raw) = .check)
    (he : FrameEnds s o j (rxBlock s o j raw)) (hc : beAt (rxBlock s o j raw) 8 2 = (s.lane o j).crc) :
    ∃ t, exec (.checkBlockReceived o j raw) s = .next t ∧ t = { s with sl := t.sl, md := { s.md with store := t.md.store, past := t.md.past } } ∧
      OneLane s o j t ∧ (t.lane o j).clean = (s.lane o j).clean + 1 ∧ (t.lane o j).frameCount = (s.lane o j).count ∧ (t.lane o j).crc = 0xFFFF ∧
      FrameMarked s o j false t := by
  have he' := frameEnds_headed h he
  have hfail : (beAt (rxBlock s o j raw) 8 2 != ((headed s o j raw).lane o j).crc) = false := by
    rw [lane_headed]
    exact bne_eq_false_iff_eq.2 hc
  refine ⟨_, h.exec_eq hon rfl (by rw [hk]; rfl), ?_, oneLane_of_headed hj (he'.oneLane_check hj hfail), ?_, ?_, ?_,
    frameMarked_headed (he'.marked hfail)⟩
  · simpa only [headed, State.setLane] using he'.check_clean_shape hfail rfl
  all_goals rw [he'.lane_check hfail, lane_headed]; rfl

/-- One with another CRC16 ends a failed frame, which is counted. -/
theorem Expected.check_failed (h : Expected s o j raw) (hon : s.on = true) (hj : j < 8) (hk : blockKind (rxBlock s o j raw) = .check)
    (he : FrameEnds s o j (rxBlock s o j raw)) (hc : beAt (rxBlock s o j raw) 8 2 ≠ (s.lane o j).crc) :
    ∃ t, exec (.checkBlockReceived o j raw) s = .next t ∧
      t = { s with sl := t.sl, regs := t.regs, fresh := t.fresh, md := { s.md with store := t.md.store, past := t.md.past } } ∧
      OneLane s o j t ∧ (t.lane o j).clean = 0 ∧ t.reg (SL_LANE_CRCERR o j) = w32 (min (2 ^ 32 - 1) ((s.reg (SL_LANE_CRCERR o j)).toNat + 1)) ∧
      (∀ a, a ≠ SL_LANE_CRCERR o j → t.reg a = s.reg a) ∧ FrameMarked s o j true t := by
  have he' := frameEnds_headed h he
  have hfail : (beAt (rxBlock s o j raw) 8 2 != ((headed s o j raw).lane o j).crc) = true := by
    rw [lane_headed]
    exact bne_iff_ne.2 hc
  refine ⟨_, h.exec_eq hon rfl (by rw [hk]; rfl), ?_, oneLane_of_headed hj (he'.oneLane_check hj hfail), ?_, ?_, fun a ha => ?_,
    frameMarked_headed (he'.marked hfail)⟩
  · simpa only [headed, State.setLane] using he'.check_failed_shape hfail rfl
  · rw [he'.lane_check hfail]
    rfl
  · exact (he'.reg_check_failed hfail).1
  · exact (he'.reg_check_failed hfail).2 a ha

/-- The end of DEGRADED (R95). -/
theorem degradedClear_clears (h : s.on = true) (hc : 4096 ≤ (s.lane o j).clean) :
    ∃ t, exec (.degradedClear o j) s = .next t ∧ t.rf (SL_LANE_STAT o j) SL_LANE_STAT_DEGRADED = 0 ∧ OnlyRegs [SL_LANE_STAT o j] s t := by
  have hi : exec (.degradedClear o j) s =
      whenOn s fun u => if 4096 ≤ (u.lane o j).clean then u.setF (SL_LANE_STAT o j) SL_LANE_STAT_DEGRADED 0 else u := rfl
  refine ⟨s.setF (SL_LANE_STAT o j) SL_LANE_STAT_DEGRADED 0, by rw [hi, whenOn_on h, if_pos hc], s.rf_setF_same _ _ _ (by decide), onlyRegs_setF _ _ _ _⟩

/-- Settles O10: each block is its body on the state that has taken the header, and the body changes its own lane. -/
theorem blocksEnterTheirLaneAlone : Obligations.BlocksEnterTheirLaneAlone := by
  intro s o j raw hon _ hj
  refine ⟨fun hl hr hb hn => ?_, degradedClear_clears hon⟩
  have h : Expected s o j raw := ⟨hl, hr, hb, hn⟩
  refine ⟨h.data hon hj, h.idle hon hj, fun hk h1 h2 h3 h4 h5 h6 h7 => ?_⟩
  have he : FrameEnds s o j (rxBlock s o j raw) := ⟨h1, h2, h3, h4, h5, h6, h7⟩
  exact ⟨h.check_clean hon hj hk he, h.check_failed hon hj hk he⟩

end Sys2Proof.Machine
end

-- ==== Sample lanes: what their operations leave ====
section

namespace Sys2Proof.Machine

variable {s t u : State} {o j : Nat}

/-! ### The parts of the state that the sample lanes touch -/

/-- Nothing but the lanes and octets, the registers, the outputs, the free values and the stores of samples has changed. -/
def Kept (s t : State) : Prop :=
  t = { s with sl := t.sl, regs := t.regs, out := t.out, free := t.free, fresh := t.fresh, md := { s.md with store := t.md.store, past := t.md.past } }

theorem Kept.refl (s : State) : Kept s s := rfl

theorem Kept.trans (h : Kept s t) (h' : Kept t u) : Kept s u := by
  unfold Kept at *
  rw [h', h]

theorem kept_setF (s : State) (a : Nat) (f : Fld) (v : Nat) : Kept s (s.setF a f v) := (rfl)
theorem kept_bump (s : State) (a : Nat) : Kept s (s.bump a) := (rfl)
theorem kept_setLane (s : State) (o j : Nat) (l : LaneSt) : Kept s (s.setLane o j l) := (rfl)
theorem kept_setOct (s : State) (o : Nat) (x : OctSt) : Kept s (s.setOct o x) := (rfl)
theorem kept_draw (s : State) : Kept s s.draw := (rfl)
theorem kept_markStored (s : State) (p : Nat) (ts old : List Nat) (f : Smp → Smp) : Kept s (s.markStored p ts old f) := (rfl)

/-- Without outputs or free values. -/
theorem Kept.silent (h : Kept s t) (ho : t.out = s.out) (hf : t.free = s.free) :
    t = { s with sl := t.sl, regs := t.regs, fresh := t.fresh, md := { s.md with store := t.md.store, past := t.md.past } } :=
  Eq.trans h (by rw [ho, hf])

/-- Without free values. -/
theorem Kept.undrawn (h : Kept s t) (hf : t.free = s.free) :
    t = { s with sl := t.sl, regs := t.regs, out := t.out, fresh := t.fresh, md := { s.md with store := t.md.store, past := t.md.past } } :=
  Eq.trans h (by rw [hf])

/-! ### Operations on the lanes of an octet -/

/-- The registers of an octet that a loss of lock or a change of service writes. -/
def lossReg (o a : Nat) : Prop := a = SL_OCT_STAT o ∨ ∃ j < 8, a = SL_LANE_STAT o j ∨ a = SL_LANE_CRCERR o j ∨ a = SL_LANE_LOCKLOSS o j

/-- Lanes of octet `o` have changed, with their locks, their error counts and the octet's paths in service, and samples have been marked; nothing
else has. -/
structure LanesOnly (o : Nat) (s t : State) : Prop where
  kept : Kept s t
  out : t.out = s.out
  free : t.free = s.free
  octs : t.sl.octs = s.sl.octs
  lane : ∀ p q, q < 8 → p ≠ o → t.lane p q = s.lane p q
  reg : ∀ a, ¬ lossReg o a → t.reg a = s.reg a
  stat : ∀ f, SL_OCT_STAT_IN_SERVICE.apart f → SL_OCT_STAT_ORDER_FAULT.apart f → t.rf (SL_OCT_STAT o) f = s.rf (SL_OCT_STAT o) f
  laneStat : ∀ q f, q < 8 → SL_LANE_STAT_LOCK.apart f → t.rf (SL_LANE_STAT o q) f = s.rf (SL_LANE_STAT o q) f

theorem LanesOnly.refl (o : Nat) (s : State) : LanesOnly o s s :=
  ⟨.refl s, rfl, rfl, rfl, fun _ _ _ _ => rfl, fun _ _ => rfl, fun _ _ _ => rfl, fun _ _ _ _ => rfl⟩

theorem LanesOnly.oct (h : LanesOnly o s t) (p : Nat) : t.oct p = s.oct p := State.oct_of_octs h.octs p

theorem LanesOnly.setLane (h : LanesOnly o s t) (hj : j < 8) (l : LaneSt) : LanesOnly o s (t.setLane o j l) where
  kept := h.kept.trans (kept_setLane _ _ _ _)
  out := h.out
  free := h.free
  octs := h.octs
  lane p q hq hp := (t.lane_setLane_ne l (by omega)).trans (h.lane p q hq hp)
  reg := h.reg
  stat := h.stat
  laneStat := h.laneStat

/-- A write of a register of the octet that keeps the fields apart from those of service and lock. -/
theorem LanesOnly.write (h : LanesOnly o s t) (hk : Kept t u) (ho : u.out = t.out) (hf : u.free = t.free) (hs : u.sl = t.sl)
    (hr : ∀ a, ¬ lossReg o a → u.reg a = t.reg a)
    (hstat : ∀ f, SL_OCT_STAT_IN_SERVICE.apart f → SL_OCT_STAT_ORDER_FAULT.apart f → u.rf (SL_OCT_STAT o) f = t.rf (SL_OCT_STAT o) f)
    (hlane : ∀ q f, q < 8 → SL_LANE_STAT_LOCK.apart f → u.rf (SL_LANE_STAT o q) f = t.rf (SL_LANE_STAT o q) f) : LanesOnly o s u where
  kept := h.kept.trans hk
  out := ho.trans h.out
  free := hf.trans h.free
  octs := (congrArg SlSt.octs hs).trans h.octs
  lane p q hq hp := (State.lane_of_lanes (congrArg SlSt.lanes hs) p q).trans (h.lane p q hq hp)
  reg a ha := (hr a ha).trans (h.reg a ha)
  stat f h1 h2 := (hstat f h1 h2).trans (h.stat f h1 h2)
  laneStat q f hq hf := (hlane q f hq hf).trans (h.laneStat q f hq hf)

/-- A field of the octet's service. -/
def serviceFld (f : Fld) : Prop := f = SL_OCT_STAT_IN_SERVICE ∨ f = SL_OCT_STAT_ORDER_FAULT

theorem LanesOnly.setService (h : LanesOnly o s t) {f : Fld} (hf : serviceFld f) (v : Nat) : LanesOnly o s (t.setF (SL_OCT_STAT o) f v) := by
  refine h.write (kept_setF _ _ _ _) (t.setF_out _ _ _) (t.setF_free _ _ _) (t.setF_sl _ _ _) (fun a ha => t.reg_setF_ne _ _ fun e => ha (.inl e)) (fun g h1 h2 => ?_) fun q g _ _ => ?_
  · rcases hf with rfl | rfl
    · exact t.rf_setF_apart _ _ _ _ (by decide) h1
    · exact t.rf_setF_apart _ _ _ _ (by decide) h2
  · exact t.rf_setF_ne _ _ _ (by unfold SL_LANE_STAT SL_OCT_STAT; omega)

theorem LanesOnly.setLock (h : LanesOnly o s t) (hj : j < 8) (v : Nat) : LanesOnly o s (t.setF (SL_LANE_STAT o j) SL_LANE_STAT_LOCK v) := by
  refine h.write (kept_setF _ _ _ _) (t.setF_out _ _ _) (t.setF_free _ _ _) (t.setF_sl _ _ _)
    (fun a ha => t.reg_setF_ne _ _ fun e => ha (.inr ⟨j, hj, .inl e⟩)) (fun g _ _ => ?_) fun q g _ hg => ?_
  · exact t.rf_setF_ne _ _ _ (by unfold SL_LANE_STAT SL_OCT_STAT; omega)
  · by_cases hq : SL_LANE_STAT o q = SL_LANE_STAT o j
    · rw [hq]
      exact t.rf_setF_apart _ _ _ _ (by decide) hg
    · exact t.rf_setF_ne _ _ _ hq

theorem LanesOnly.count (h : LanesOnly o s t) {a : Nat} (hj : j < 8) (ha : a = SL_LANE_CRCERR o j ∨ a = SL_LANE_LOCKLOSS o j) :
    LanesOnly o s (t.bump a) := by
  have hne : ∀ b, b = SL_OCT_STAT o ∨ (∃ q < 8, b = SL_LANE_STAT o q) → b ≠ a := by
    rintro b (rfl | ⟨q, hq, rfl⟩) <;> rcases ha with rfl | rfl <;>
      simp only [SL_LANE_STAT, SL_OCT_STAT, SL_LANE_CRCERR, SL_LANE_LOCKLOSS] <;> omega
  exact h.write (kept_bump _ _) (t.bump_out _) (t.bump_free _) (t.bump_sl _) (fun b hb => t.reg_bump_ne fun e => hb (.inr ⟨j, hj, .inr (e ▸ ha)⟩))
    (fun f _ _ => State.rf_of_reg (t.reg_bump_ne (hne _ (.inl rfl))) f)
    fun q f hq _ => State.rf_of_reg (t.reg_bump_ne (hne _ (.inr ⟨q, hq, rfl⟩))) f

theorem LanesOnly.markStored (h : LanesOnly o s t) (p : Nat) (ts old : List Nat) (f : Smp → Smp) : LanesOnly o s (t.markStored p ts old f) :=
  ⟨h.kept.trans (kept_markStored _ _ _ _ _), h.out, h.free, h.octs, h.lane, h.reg, h.stat, h.laneStat⟩

theorem LanesOnly.ite {c : Prop} [Decidable c] (ht : LanesOnly o s t) (hu : LanesOnly o s u) : LanesOnly o s (if c then t else u) := by
  split
  · exact ht
  · exact hu

theorem LanesOnly.foldl {f : State → Nat → State} {l : List Nat} (h : LanesOnly o s t) (hf : ∀ u, ∀ k ∈ l, LanesOnly o s u → LanesOnly o s (f u k)) :
    LanesOnly o s (l.foldl f t) := List.foldlRecOn l f h fun u hu k hk => hf u k hk hu

theorem LanesOnly.outOfService (h : LanesOnly o s t) (hj : j < 8) : LanesOnly o s (t.outOfService o j) := (h.setService (.inl rfl) _).setLane hj _

theorem LanesOnly.serve (h : LanesOnly o s t) (hj : j < 8) : LanesOnly o s (t.serve o j) :=
  .ite (h.setLane hj _) ((h.setService (.inl rfl) _).setLane hj _)

theorem LanesOnly.orderCheck (h : LanesOnly o s t) : LanesOnly o s (t.orderCheck o) :=
  (h.foldl fun _ _ hk hu => hu.outOfService (List.mem_range.1 (List.mem_of_mem_filter hk))).setService (.inr rfl) _

theorem LanesOnly.serveAll (h : LanesOnly o s t) : LanesOnly o s (t.serveAll o) :=
  h.foldl fun _ _ hk hu => .ite (hu.serve (List.mem_range.1 hk)) hu

theorem LanesOnly.markFrame (h : LanesOnly o s t) (hj : j < 8) (fail chk : Bool) : LanesOnly o s (t.markFrame o j fail chk) :=
  (h.setLane hj _).markStored _ _ _ _

theorem LanesOnly.loseLock (h : LanesOnly o s t) (hj : j < 8) (counted : Bool) : LanesOnly o s (t.loseLock counted o j) := by
  refine .ite ?_ h
  extract_lets s1 l s2 s3
  have h2 : LanesOnly o s s2 := (((h.markFrame hj _ _).setLock hj 0).outOfService hj).setLane hj _
  have h3 : LanesOnly o s s3 := .ite (h2.count hj (.inl rfl)) h2
  exact .ite (h3.count hj (.inr rfl)) h3

theorem LanesOnly.loseAll (h : LanesOnly o s t) (counted : Bool) : LanesOnly o s (t.loseAll counted o) :=
  h.foldl fun _ _ hk hu => hu.loseLock (List.mem_range.1 hk) _

theorem LanesOnly.prbsLanes (h : LanesOnly o s t) : LanesOnly o s (t.prbsLanes o) :=
  h.foldl fun _ _ hk hu => .ite ((hu.loseLock (List.mem_range.1 hk) _).setLane (List.mem_range.1 hk) _) (hu.setLane (List.mem_range.1 hk) _)

/-! ### Loss of lock (R94) -/

theorem locked_setLock (s : State) (o j : Nat) : (s.setF (SL_LANE_STAT o j) SL_LANE_STAT_LOCK 0).locked o j = false := by
  rw [State.locked, s.flag_setF_same _ _ _ (by decide)]
  rfl

/-- LOCK of a lane where its register is written in other fields alone. -/
theorem locked_of_rf (h : t.rf (SL_LANE_STAT o j) SL_LANE_STAT_LOCK = s.rf (SL_LANE_STAT o j) SL_LANE_STAT_LOCK) : t.locked o j = s.locked o j :=
  State.flag_of_rf h

theorem locked_of_reg (h : t.reg (SL_LANE_STAT o j) = s.reg (SL_LANE_STAT o j)) : t.locked o j = s.locked o j := State.flag_of_reg h _

/-- A lane without lock, its unreleased samples dropped. -/
def lostLane (l : LaneSt) : LaneSt :=
  { l with
    head := l.head + l.fifo.length, fifo := [], frameIdx := l.head + l.fifo.length, hdr := [], broke := false, jump := none, part := true
    frameErr := false, rel := [], relOld := [], wait := true, clean := 0 }

/-- A lane has lost lock, before any count of it. -/
def lockDropped (s : State) (o j : Nat) : State :=
  (((s.markFrame o j true false).setF (SL_LANE_STAT o j) SL_LANE_STAT_LOCK 0).outOfService o j).setLane o j (lostLane (s.lane o j))

theorem markedLane_length (l : LaneSt) (fail chk : Bool) : (markedLane l fail chk).fifo.length = l.fifo.length := by
  simp only [markedLane, List.length_append, List.length_map, List.length_take, List.length_drop]
  omega

theorem loseLock_eq (h : s.locked o j = true) (counted : Bool) :
    s.loseLock counted o j =
      (let s2 := lockDropped s o j
       let s3 := if (s.lane o j).frameErr then s2.bump (SL_LANE_CRCERR o j) else s2
       if counted then s3.bump (SL_LANE_LOCKLOSS o j) else s3) := by
  rw [State.loseLock, if_pos h]
  extract_lets s1 l s2 s3 s2' s3'
  have hl : l = { markedLane (s.lane o j) true false with wait := true, clean := 0 } := by
    unfold l s1 State.outOfService
    simp only [State.lane_setLane_same, State.lane_setF, lane_markFrame]
  have h2 : s2 = s2' := by
    unfold s2 s2' lockDropped
    rw [hl]
    simp only [lostLane, markedLane_length]
    simp only [markedLane]
    rfl
  unfold s3 s3'
  rw [h2]

/-- Only counters lie between a lane's loss of lock and its end. -/
theorem loseLock_sl (h : s.locked o j = true) (counted : Bool) : (s.loseLock counted o j).sl = (lockDropped s o j).sl := by
  rw [loseLock_eq h]
  cases counted <;> cases (s.lane o j).frameErr <;> simp

theorem loseLock_md (h : s.locked o j = true) (counted : Bool) : (s.loseLock counted o j).md = (s.markFrame o j true false).md := by
  have hd : (lockDropped s o j).md = (s.markFrame o j true false).md := by simp [lockDropped, State.outOfService, State.setLane]
  rw [loseLock_eq h, ← hd]
  cases counted <;> cases (s.lane o j).frameErr <;> simp

theorem loseLock_reg_ne (h : s.locked o j = true) (counted : Bool) {a : Nat} (h1 : a ≠ SL_LANE_CRCERR o j) (h2 : a ≠ SL_LANE_LOCKLOSS o j) :
    (s.loseLock counted o j).reg a = (lockDropped s o j).reg a := by
  rw [loseLock_eq h]
  cases counted <;> cases (s.lane o j).frameErr <;> simp [State.reg_bump_ne, h1, h2]

theorem lane_loseLock (h : s.locked o j = true) (counted : Bool) : (s.loseLock counted o j).lane o j = lostLane (s.lane o j) :=
  (State.lane_of_lanes (congrArg SlSt.lanes (loseLock_sl h counted)) o j).trans (State.lane_setLane_same _ _ _ _)

theorem reg_markFrame (s : State) (o j : Nat) (fail chk : Bool) (a : Nat) : (s.markFrame o j fail chk).reg a = s.reg a := by
  rw [State.markFrame, State.reg_markStored, State.reg_setLane]

theorem lockDropped_reg_ne (s : State) (o j : Nat) {a : Nat} (h1 : a ≠ SL_OCT_STAT o) (h2 : a ≠ SL_LANE_STAT o j) :
    (lockDropped s o j).reg a = s.reg a := by
  simp only [lockDropped, State.outOfService, State.reg_setLane, State.reg_setFB_ne _ _ _ _ h1, State.reg_setF_ne _ _ _ h2, reg_markFrame]

theorem laneStat_ne_octStat (o j p : Nat) : SL_LANE_STAT o j ≠ SL_OCT_STAT p := by
  unfold SL_LANE_STAT SL_OCT_STAT
  omega

theorem laneStat_ne_crcErr (o j p q : Nat) : SL_LANE_STAT o j ≠ SL_LANE_CRCERR p q := by
  unfold SL_LANE_STAT SL_LANE_CRCERR
  omega

theorem laneStat_ne_lockLoss (o j p q : Nat) : SL_LANE_STAT o j ≠ SL_LANE_LOCKLOSS p q := by
  unfold SL_LANE_STAT SL_LANE_LOCKLOSS
  omega

theorem reg_laneStat_lockDropped (s : State) (o j : Nat) :
    (lockDropped s o j).reg (SL_LANE_STAT o j) =
      ((s.markFrame o j true false).setF (SL_LANE_STAT o j) SL_LANE_STAT_LOCK 0).reg (SL_LANE_STAT o j) := by
  simp only [lockDropped, State.outOfService, State.reg_setLane, State.reg_setFB_ne _ _ _ _ (laneStat_ne_octStat o j o)]

/-- A lane is without lock after it has lost it. -/
theorem locked_loseLock (s : State) (o j : Nat) (counted : Bool) : (s.loseLock counted o j).locked o j = false := by
  cases h : s.locked o j with
  | false => rw [State.loseLock, if_neg (by rw [h]; decide), h]
  | true =>
    rw [locked_of_reg (loseLock_reg_ne h counted (laneStat_ne_crcErr _ _ _ _) (laneStat_ne_lockLoss _ _ _ _)),
      locked_of_reg (reg_laneStat_lockDropped s o j), locked_setLock]

theorem laneStat_inj {o j p q : Nat} (hj : j < 8) (hq : q < 8) : SL_LANE_STAT p q = SL_LANE_STAT o j ↔ p = o ∧ q = j := by
  unfold SL_LANE_STAT
  omega

/-- The registers of other lanes and their counts keep their values. -/
theorem reg_loseLock_other (s : State) {o j a : Nat} (counted : Bool) (h1 : a ≠ SL_OCT_STAT o) (h2 : a ≠ SL_LANE_STAT o j)
    (h3 : a ≠ SL_LANE_CRCERR o j) (h4 : a ≠ SL_LANE_LOCKLOSS o j) : (s.loseLock counted o j).reg a = s.reg a := by
  cases h : s.locked o j with
  | false => rw [State.loseLock, if_neg (by rw [h]; decide)]
  | true => rw [loseLock_reg_ne h counted h3 h4, lockDropped_reg_ne s o j h1 h2]

theorem reg_laneStat_loseLock_other (s : State) {o j p q : Nat} (counted : Bool) (h : SL_LANE_STAT p q ≠ SL_LANE_STAT o j) :
    (s.loseLock counted o j).reg (SL_LANE_STAT p q) = s.reg (SL_LANE_STAT p q) :=
  reg_loseLock_other s counted (laneStat_ne_octStat _ _ _) h (laneStat_ne_crcErr _ _ _ _) (laneStat_ne_lockLoss _ _ _ _)

/-- A lane without lock stays so while other lanes lose theirs. -/
theorem locked_loseLock_false (counted : Bool) (k : Nat) (h : s.locked o j = false) : (s.loseLock counted o k).locked o j = false := by
  by_cases e : SL_LANE_STAT o j = SL_LANE_STAT o k
  · have := locked_loseLock s o k counted
    unfold State.locked at *
    rwa [e]
  · rw [locked_of_reg (reg_laneStat_loseLock_other s counted e), h]

theorem locked_loseAll (s : State) (counted : Bool) (o : Nat) (hj : j < 8) : (s.loseAll counted o).locked o j = false :=
  foldl_local (P := fun k u => u.locked o k = false) (Q := fun _ _ => True) List.nodup_range (fun _ _ => trivial)
    (fun u k _ _ => locked_loseLock u o k counted) (fun _ _ _ _ _ _ => trivial) (fun _ k _ _ _ h => locked_loseLock_false counted k h)
    (List.mem_range.2 hj)

/-- Where it is not counted, a loss of lock leaves every LOCKLOSS as it was. -/
theorem lockLoss_loseAll_uncounted (s : State) (o j : Nat) : (s.loseAll false o).reg (SL_LANE_LOCKLOSS o j) = s.reg (SL_LANE_LOCKLOSS o j) := by
  refine List.foldlRecOn (List.range 8) _ (motive := fun u : State => u.reg (SL_LANE_LOCKLOSS o j) = s.reg (SL_LANE_LOCKLOSS o j)) rfl fun u hu k hk => ?_
  have hk8 := List.mem_range.1 hk
  rw [← hu]
  cases h : u.locked o k with
  | false => rw [State.loseLock, if_neg (by rw [h]; decide)]
  | true =>
    have h1 : SL_LANE_LOCKLOSS o j ≠ SL_OCT_STAT o := by unfold SL_LANE_LOCKLOSS SL_OCT_STAT; omega
    have h2 : SL_LANE_LOCKLOSS o j ≠ SL_LANE_STAT o k := (laneStat_ne_lockLoss _ _ _ _).symm
    have h3 : SL_LANE_LOCKLOSS o j ≠ SL_LANE_CRCERR o k := by unfold SL_LANE_LOCKLOSS SL_LANE_CRCERR; omega
    rw [loseLock_eq h, ← lockDropped_reg_ne u o k h1 h2]
    cases (u.lane o k).frameErr <;> simp [State.reg_bump_ne, h3]

/-! ### Service (R77, R79, R94) -/

/-- Lanes of octet `o` have entered or left service: of each lane, only whether it waits to rejoin and its count of clean frames; of the registers,
SL_OCT_STAT alone. -/
structure ServiceOnly (o : Nat) (s t : State) : Prop extends LanesOnly o s t where
  lanes : ∀ p q, t.lane p q = { s.lane p q with wait := (t.lane p q).wait, clean := (t.lane p q).clean }
  regs : ∀ a, a ≠ SL_OCT_STAT o → t.reg a = s.reg a

theorem ServiceOnly.refl (o : Nat) (s : State) : ServiceOnly o s s := ⟨.refl o s, fun _ _ => rfl, fun _ _ => rfl⟩

theorem ServiceOnly.setService (h : ServiceOnly o s t) {f : Fld} (hf : serviceFld f) (v : Nat) : ServiceOnly o s (t.setF (SL_OCT_STAT o) f v) :=
  ⟨h.toLanesOnly.setService hf v, fun p q => by rw [State.lane_setF]; exact h.lanes p q, fun a ha => (t.reg_setF_ne _ _ ha).trans (h.regs a ha)⟩

theorem ServiceOnly.setWait (h : ServiceOnly o s t) (hj : j < 8) {l : LaneSt} (hl : l = { t.lane o j with wait := l.wait, clean := l.clean }) :
    ServiceOnly o s (t.setLane o j l) := by
  refine ⟨h.toLanesOnly.setLane hj _, fun p q => ?_, h.regs⟩
  rw [State.lane_setLane]
  split
  next e =>
    have es : s.lane p q = s.lane o j := congrArg (tblGet laneReset s.sl.lanes) e
    rw [es, hl, h.lanes o j]
  · exact h.lanes p q

theorem ServiceOnly.ite {c : Prop} [Decidable c] (ht : ServiceOnly o s t) (hu : ServiceOnly o s u) : ServiceOnly o s (if c then t else u) := by
  split
  · exact ht
  · exact hu

theorem ServiceOnly.foldl {f : State → Nat → State} {l : List Nat} (h : ServiceOnly o s t)
    (hf : ∀ u, ∀ k ∈ l, ServiceOnly o s u → ServiceOnly o s (f u k)) : ServiceOnly o s (l.foldl f t) :=
  List.foldlRecOn l f h fun u hu k hk => hf u k hk hu

theorem ServiceOnly.outOfService (h : ServiceOnly o s t) (hj : j < 8) : ServiceOnly o s (t.outOfService o j) :=
  (h.setService (.inl rfl) _).setWait hj rfl

theorem ServiceOnly.serve (h : ServiceOnly o s t) (hj : j < 8) : ServiceOnly o s (t.serve o j) :=
  .ite (h.setWait hj rfl) ((h.setService (.inl rfl) _).setWait hj rfl)

theorem ServiceOnly.orderCheck (h : ServiceOnly o s t) : ServiceOnly o s (t.orderCheck o) :=
  (h.foldl fun _ _ hk hu => hu.outOfService (List.mem_range.1 (List.mem_of_mem_filter hk))).setService (.inr rfl) _

theorem ServiceOnly.serveAll (h : ServiceOnly o s t) : ServiceOnly o s (t.serveAll o) :=
  h.foldl fun _ _ hk hu => .ite (hu.serve (List.mem_range.1 hk)) hu

/-! ### The control lane (R84 to R87, R99) -/

/-- Control messages of octet `o` have been queued or sent: of the octet, what belongs to its exchanges has changed; nothing else has but the
outputs. -/
structure CtlOnly (o : Nat) (s t : State) : Prop where
  eq : t = { s with sl := { s.sl with octs := t.sl.octs }, out := t.out }
  oct : ∀ p, p ≠ o → t.oct p = s.oct p
  ladder : t.oct o = { s.oct o with
    tag := (t.oct o).tag, seq := (t.oct o).seq, x := (t.oct o).x, todo := (t.oct o).todo, waking := (t.oct o).waking, woken := (t.oct o).woken }

theorem CtlOnly.refl (o : Nat) (s : State) : CtlOnly o s s := ⟨rfl, fun _ _ => rfl, rfl⟩

theorem CtlOnly.regs (h : CtlOnly o s t) : t.regs = s.regs := by rw [h.eq]

theorem CtlOnly.lanes (h : CtlOnly o s t) : t.sl.lanes = s.sl.lanes := by rw [h.eq]

theorem CtlOnly.reg (h : CtlOnly o s t) (a : Nat) : t.reg a = s.reg a := congrArg (tblGet 0 · a) h.regs

theorem CtlOnly.lane (h : CtlOnly o s t) (p q : Nat) : t.lane p q = s.lane p q := State.lane_of_lanes h.lanes p q

theorem CtlOnly.free (h : CtlOnly o s t) : t.free = s.free := by rw [h.eq]

theorem CtlOnly.kept (h : CtlOnly o s t) : Kept s t := by
  rw [h.eq]
  rfl

theorem CtlOnly.setOct (h : CtlOnly o s t) {x : OctSt}
    (hx : x = { t.oct o with tag := x.tag, seq := x.seq, x := x.x, todo := x.todo, waking := x.waking, woken := x.woken }) :
    CtlOnly o s (t.setOct o x) := by
  refine ⟨?_, fun p hp => (t.oct_setOct_ne x hp).trans (h.oct p hp), ?_⟩
  · rw [State.setOct, h.eq]
  · rw [State.oct_setOct_same, hx, h.ladder]

theorem CtlOnly.emit (h : CtlOnly o s t) (x : Out) : CtlOnly o s (t.emit x) :=
  ⟨by rw [State.emit, h.eq], h.oct, h.ladder⟩

theorem CtlOnly.ite {c : Prop} [Decidable c] (ht : CtlOnly o s t) (hu : CtlOnly o s u) : CtlOnly o s (if c then t else u) := by
  split
  · exact ht
  · exact hu

theorem CtlOnly.ctlPut (h : CtlOnly o s t) (b : Nat → List Byte) : CtlOnly o s (t.ctlPut o b) := (h.setOct rfl).emit _

theorem CtlOnly.ctlNow (h : CtlOnly o s t) (m : CtlMsg) : CtlOnly o s (t.ctlNow o m) := by
  unfold State.ctlNow
  exact (h.setOct rfl).ctlPut _

theorem CtlOnly.ctlNext (h : CtlOnly o s t) : CtlOnly o s (t.ctlNext o) := by
  unfold State.ctlNext
  dsimp only
  split
  · exact h
  · exact .ite (h.setOct rfl) h
  · exact .ite h (.ite (h.setOct rfl) ((h.setOct rfl).ctlNow _))

theorem CtlOnly.ctlSend (h : CtlOnly o s t) (why : CtlFor) (msg : Nat) (args : List Byte) : CtlOnly o s (t.ctlSend o why msg args) :=
  (h.setOct rfl).ctlNext

/-! ### One octet (R89) -/

/-- A register of octet `o` or of its lanes. -/
def octetReg (o a : Nat) : Prop := 0x101000 + 0x400 * o ≤ a ∧ a < 0x101400 + 0x400 * o

/-- Of the octets, `o` alone has changed, with its lanes and its registers. -/
structure OctetOnly (o : Nat) (s t : State) : Prop where
  kept : Kept s t
  free : t.free = s.free
  oct : ∀ p, p ≠ o → t.oct p = s.oct p
  lane : ∀ p q, q < 8 → p ≠ o → t.lane p q = s.lane p q
  reg : ∀ a, ¬ octetReg o a → t.reg a = s.reg a

theorem OctetOnly.refl (o : Nat) (s : State) : OctetOnly o s s := ⟨.refl s, rfl, fun _ _ => rfl, fun _ _ _ _ => rfl, fun _ _ => rfl⟩

theorem OctetOnly.trans (h : OctetOnly o s t) (h' : OctetOnly o t u) : OctetOnly o s u where
  kept := h.kept.trans h'.kept
  free := h'.free.trans h.free
  oct p hp := (h'.oct p hp).trans (h.oct p hp)
  lane p q hq hp := (h'.lane p q hq hp).trans (h.lane p q hq hp)
  reg a ha := (h'.reg a ha).trans (h.reg a ha)

theorem octetReg_of_lossReg {a : Nat} (h : lossReg o a) : octetReg o a := by
  unfold octetReg
  rcases h with rfl | ⟨j, hj, rfl | rfl | rfl⟩ <;>
    simp only [SL_OCT_STAT, SL_LANE_STAT, SL_LANE_CRCERR, SL_LANE_LOCKLOSS] <;> omega

theorem OctetOnly.lanes (h : OctetOnly o s t) (h' : LanesOnly o t u) : OctetOnly o s u :=
  h.trans ⟨h'.kept, h'.free, fun p _ => h'.oct p, h'.lane, fun a ha => h'.reg a fun hl => ha (octetReg_of_lossReg hl)⟩

theorem OctetOnly.ctl (h : OctetOnly o s t) (h' : CtlOnly o t u) : OctetOnly o s u :=
  h.trans ⟨h'.kept, h'.free, h'.oct, fun p q _ _ => h'.lane p q, fun a _ => h'.reg a⟩

theorem OctetOnly.setOct (h : OctetOnly o s t) (x : OctSt) : OctetOnly o s (t.setOct o x) :=
  h.trans ⟨kept_setOct _ _ _, rfl, fun _ hp => t.oct_setOct_ne x hp, fun _ _ _ _ => t.lane_setOct _ _ _ _, fun _ _ => t.reg_setOct _ _ _⟩

theorem OctetOnly.setF (h : OctetOnly o s t) {a : Nat} (ha : octetReg o a) (f : Fld) (v : Nat) : OctetOnly o s (t.setF a f v) :=
  h.trans ⟨kept_setF _ _ _ _, t.setF_free _ _ _, fun _ _ => t.oct_setF _ _ _ _, fun _ _ _ _ => t.lane_setF _ _ _ _ _,
    fun _ hb => t.reg_setF_ne _ _ fun e => hb (e ▸ ha)⟩

theorem octetReg_ctl (o : Nat) : octetReg o (SL_OCT_CTL o) := by
  unfold octetReg SL_OCT_CTL
  omega

theorem octetReg_stat (o : Nat) : octetReg o (SL_OCT_STAT o) := by
  unfold octetReg SL_OCT_STAT
  omega

theorem octetReg_laneStat (o : Nat) (hj : j < 8) : octetReg o (SL_LANE_STAT o j) := by
  unfold octetReg SL_LANE_STAT
  omega

theorem OctetOnly.setOctState (h : OctetOnly o s t) (v : Nat) : OctetOnly o s (t.setOctState o v) := h.setF (octetReg_stat o) _ _

theorem OctetOnly.foldl {f : State → Nat → State} {l : List Nat} (h : OctetOnly o s t) (hf : ∀ u, ∀ k ∈ l, OctetOnly o s u → OctetOnly o s (f u k)) :
    OctetOnly o s (l.foldl f t) := List.foldlRecOn l f h fun u hu k hk => hf u k hk hu

end Sys2Proof.Machine
end

-- ==== Sample lanes: loss of lock, of signal and of the forwarded clock ====
section

namespace Sys2Proof.Machine

variable {s t u : State} {o j : Nat}

/-! ### A lane that has lost lock (R94, R559) -/

/-- The lane of every other lane, and its LANE_STAT, stand as they did. -/
def OtherLanes (s : State) (o j : Nat) (t : State) : Prop :=
  ∀ o' j', o' < 64 → j' < 8 → (o', j') ≠ (o, j) → t.lane o' j' = s.lane o' j' ∧ t.reg (SL_LANE_STAT o' j') = s.reg (SL_LANE_STAT o' j')

/-- Lane `j` of octet `o` has lost lock, counted once, and its unreleased samples; of those released, its cut frame's are marked. -/
def Lost (s : State) (o j : Nat) (t : State) : Prop :=
  t.locked o j = false ∧ (t.lane o j).fifo = [] ∧ (t.lane o j).head = (s.lane o j).head + (s.lane o j).fifo.length ∧
    (t.lane o j).wait = true ∧ t.reg (SL_LANE_LOCKLOSS o j) = w32 (min (2 ^ 32 - 1) ((s.reg (SL_LANE_LOCKLOSS o j)).toNat + 1)) ∧
    OtherLanes s o j t ∧ t.sl.octs = s.sl.octs ∧
    ((s.lane o j).frameErr = true → t.reg (SL_LANE_CRCERR o j) = w32 (min (2 ^ 32 - 1) ((s.reg (SL_LANE_CRCERR o j)).toNat + 1))) ∧
    ((s.lane o j).frameErr = false → t.reg (SL_LANE_CRCERR o j) = s.reg (SL_LANE_CRCERR o j)) ∧
    (∀ p τ, (p ≠ 8 * o + (s.lane o j).idx ∨ τ ∉ (s.lane o j).rel) → t.smp p τ = s.smp p τ) ∧
    (∀ (τ : Nat) (x : Smp), τ ∈ (s.lane o j).rel → s.smp (8 * o + (s.lane o j).idx) τ = some x → x.loss = false →
      t.smp (8 * o + (s.lane o j).idx) τ = some { x with crc := true })

theorem otherLanes_loseLock (h : s.locked o j = true) (hj : j < 8) (counted : Bool) : OtherLanes s o j (s.loseLock counted o j) := by
  intro p q _ hq hne
  have hidx := laneIdx_ne hj hq hne
  refine ⟨(State.lane_of_lanes (congrArg SlSt.lanes (loseLock_sl h counted)) p q).trans ?_,
    reg_laneStat_loseLock_other s counted fun e => hne (Prod.ext_iff.2 ((laneStat_inj hj hq).1 e))⟩
  rw [lockDropped, State.lane_setLane_ne _ _ hidx, State.outOfService, State.lane_setLane_ne _ _ hidx, State.lane_setFB, State.lane_setF]
  exact State.lane_setLane_ne _ _ hidx

theorem crcErr_ne_lockLoss (o j p q : Nat) : SL_LANE_CRCERR o j ≠ SL_LANE_LOCKLOSS p q := by
  unfold SL_LANE_CRCERR SL_LANE_LOCKLOSS
  omega

theorem crcErr_ne_octStat (o j : Nat) : SL_LANE_CRCERR o j ≠ SL_OCT_STAT o := by
  unfold SL_LANE_CRCERR SL_OCT_STAT
  omega

theorem lockLoss_ne_octStat (o j : Nat) : SL_LANE_LOCKLOSS o j ≠ SL_OCT_STAT o := by
  unfold SL_LANE_LOCKLOSS SL_OCT_STAT
  omega

/-- The counts of a lane do not change before its lock has been dropped. -/
theorem reg_counts_lockDropped (s : State) (o j : Nat) :
    (lockDropped s o j).reg (SL_LANE_CRCERR o j) = s.reg (SL_LANE_CRCERR o j) ∧
      (lockDropped s o j).reg (SL_LANE_LOCKLOSS o j) = s.reg (SL_LANE_LOCKLOSS o j) :=
  ⟨lockDropped_reg_ne s o j (crcErr_ne_octStat _ _) (laneStat_ne_crcErr _ _ _ _).symm,
    lockDropped_reg_ne s o j (lockLoss_ne_octStat _ _) (laneStat_ne_lockLoss _ _ _ _).symm⟩

theorem lockLoss_loseLock (h : s.locked o j = true) :
    (s.loseLock true o j).reg (SL_LANE_LOCKLOSS o j) = w32 (min (2 ^ 32 - 1) ((s.reg (SL_LANE_LOCKLOSS o j)).toNat + 1)) := by
  rw [loseLock_eq h, ← (reg_counts_lockDropped s o j).2]
  cases (s.lane o j).frameErr <;> simp only [Bool.false_eq_true, if_true, if_false]
  · rw [State.reg_bump_same]
  · rw [State.reg_bump_same, State.reg_bump_ne _ (crcErr_ne_lockLoss _ _ _ _).symm]

/-- A cut frame with a header error counts as failed, another does not. -/
theorem crcErr_loseLock (h : s.locked o j = true) (counted : Bool) : (s.loseLock counted o j).reg (SL_LANE_CRCERR o j) =
    if (s.lane o j).frameErr then w32 (min (2 ^ 32 - 1) ((s.reg (SL_LANE_CRCERR o j)).toNat + 1)) else s.reg (SL_LANE_CRCERR o j) := by
  rw [loseLock_eq h, ← (reg_counts_lockDropped s o j).1]
  cases counted <;> cases (s.lane o j).frameErr <;> simp only [Bool.false_eq_true, if_true, if_false]
  · rw [State.reg_bump_same]
  · rw [State.reg_bump_ne _ (crcErr_ne_lockLoss _ _ _ _)]
  · rw [State.reg_bump_ne _ (crcErr_ne_lockLoss _ _ _ _), State.reg_bump_same]

theorem smp_of_md (h : t.md = u.md) (p τ : Nat) : t.smp p τ = u.smp p τ := congrArg (fun m => smpAt (MdSt.store m) p τ) h

theorem lost_loseLock (h : s.locked o j = true) (hj : j < 8) : Lost s o j (s.loseLock true o j) := by
  have hl := lane_loseLock h true
  have hsmp := smp_of_md (loseLock_md h true)
  refine ⟨locked_loseLock s o j true, by rw [hl]; rfl, by rw [hl]; rfl, by rw [hl]; rfl, lockLoss_loseLock h, otherLanes_loseLock h hj true,
    ((LanesOnly.refl o s).loseLock hj true).octs, fun he => ?_, fun he => ?_, fun p τ hp => ?_, fun τ x hτ hx hloss => ?_⟩
  · rw [crcErr_loseLock h, if_pos he]
  · rw [crcErr_loseLock h, if_neg (by rw [he]; decide)]
  · exact (hsmp p τ).trans (markFrame_smp_other s o j true false hp)
  · rw [hsmp, markFrame_smp_rel s o j true false hτ hx hloss, Bool.or_true, Bool.or_false]

/-- A lane's status written in fields other than LOCK, and interrupts, leave its loss of lock as it is. -/
theorem Lost.of_laneStat (h : Lost s o j t) (hj : j < 8) (hsl : u.sl = t.sl) (hmd : u.md = t.md)
    (hreg : ∀ a, ¬ intReg a → a ≠ SL_LANE_STAT o j → u.reg a = t.reg a) (hlock : u.locked o j = t.locked o j) : Lost s o j u := by
  obtain ⟨hlocked, hfifo, hhead, hwait, hloss, hother, hocts, herr, hnoerr, hsmp, hrel⟩ := h
  have hlane : ∀ p q, u.lane p q = t.lane p q := State.lane_of_lanes (congrArg SlSt.lanes hsl)
  have hcrc : u.reg (SL_LANE_CRCERR o j) = t.reg (SL_LANE_CRCERR o j) :=
    hreg _ (by unfold intReg SL_LANE_CRCERR EV_INT_STAT; omega) (laneStat_ne_crcErr _ _ _ _).symm
  have hcnt : u.reg (SL_LANE_LOCKLOSS o j) = t.reg (SL_LANE_LOCKLOSS o j) :=
    hreg _ (by unfold intReg SL_LANE_LOCKLOSS EV_INT_STAT; omega) (laneStat_ne_lockLoss _ _ _ _).symm
  refine ⟨hlock.trans hlocked, by rwa [hlane], by rwa [hlane], by rwa [hlane], hcnt.trans hloss, fun p q hp hq hne => ?_,
    (congrArg SlSt.octs hsl).trans hocts, fun he => hcrc.trans (herr he), fun he => hcrc.trans (hnoerr he),
    fun p τ hp => (smp_of_md hmd p τ).trans (hsmp p τ hp), fun τ x hτ hx hl => (smp_of_md hmd _ τ).trans (hrel τ x hτ hx hl)⟩
  obtain ⟨hl, hr⟩ := hother p q hp hq hne
  refine ⟨(hlane p q).trans hl, (hreg _ (by unfold intReg SL_LANE_STAT EV_INT_STAT; omega) fun e => hne ?_).trans hr⟩
  exact Prod.ext_iff.2 ((laneStat_inj hj hq).1 e)

theorem Lost.setF (h : Lost s o j t) (hj : j < 8) {f : Fld} (hf : f.lo + f.w ≤ 32) (v : Nat) (hl : f.apart SL_LANE_STAT_LOCK) :
    Lost s o j (t.setF (SL_LANE_STAT o j) f v) :=
  h.of_laneStat hj (t.setF_sl _ _ _) (t.setF_md _ _ _) (fun _ _ ha => t.reg_setF_ne _ _ ha) (locked_of_rf (t.rf_setF_apart _ _ _ _ hf hl))

/-- The path of a lane that has lost lock is out of service. -/
theorem inService_loseLock (h : s.locked o j = true) (hi : (s.lane o j).idx < 8) (counted : Bool) :
    (s.loseLock counted o j).inService o (s.lane o j).idx = false := by
  have hr : (s.loseLock counted o j).reg (SL_OCT_STAT o) = (lockDropped s o j).reg (SL_OCT_STAT o) :=
    loseLock_reg_ne h counted (crcErr_ne_octStat _ _).symm (lockLoss_ne_octStat _ _).symm
  rw [State.inService, State.rfb_of_reg hr, lockDropped, State.outOfService, State.lane_setF, lane_markFrame]
  exact State.rfb_setFB_same _ _ false (by decide) hi

/-! ### Slip, signal and forwarded clock (R75, R80, R95) -/

theorem State.rf_seen_apart (s : State) (a : Nat) (f g : Fld) (i : Nat) (hi : i < 96) (h : ¬ intReg a) (hf : f.lo + f.w ≤ 32) (hg : f.apart g) :
    (s.seen a f i).rf a g = s.rf a g := by
  rw [State.seen, State.rf, State.reg_raise _ _ hi h, State.setSeen, State.reg_note]
  exact s.rf_setF_apart a f g 1 hf hg

theorem kept_seen (s : State) (a : Nat) (f : Fld) (i : Nat) : Kept s (s.seen a f i) := by
  unfold State.seen State.raise State.signal
  dsimp only
  split
  · split <;> rfl
  · rfl

theorem not_intReg_laneStat (o : Nat) (hj : j < 8) : ¬ intReg (SL_LANE_STAT o j) := by
  unfold intReg SL_LANE_STAT EV_INT_STAT
  omega

theorem not_intReg_octStat (o : Nat) : ¬ intReg (SL_OCT_STAT o) := by
  unfold intReg SL_OCT_STAT EV_INT_STAT
  omega

theorem putLead_held (s : State) (o j : Nat) {d : Int} (h0 : 0 ≤ d) (h1 : d < 65536) :
    s.putLead o j d = s.setF (SL_LANE_STAT o j) SL_LANE_STAT_LEAD d.toNat := if_pos ⟨h0, h1⟩

/-- A lead is stored in LEAD, which may take a free value. -/
theorem putLead_eq (s : State) (o j : Nat) (d : Int) :
    ∃ v, s.putLead o j d = s.setF (SL_LANE_STAT o j) SL_LANE_STAT_LEAD v ∨ s.putLead o j d = (s.setF (SL_LANE_STAT o j) SL_LANE_STAT_LEAD v).draw := by
  unfold State.putLead
  split
  · exact ⟨_, .inl rfl⟩
  · exact ⟨_, .inr rfl⟩

theorem kept_putLead (s : State) (o j : Nat) (d : Int) : Kept s (s.putLead o j d) := by
  obtain ⟨v, h | h⟩ := putLead_eq s o j d <;> rw [h]
  · exact kept_setF _ _ _ _
  · exact (kept_setF _ _ _ _).trans (kept_draw _)

theorem Lost.draw (h : Lost s o j t) (hj : j < 8) : Lost s o j t.draw := h.of_laneStat hj rfl rfl (fun _ _ _ => rfl) rfl

theorem Lost.putLead (h : Lost s o j t) (hj : j < 8) (d : Int) : Lost s o j (t.putLead o j d) := by
  obtain ⟨v, e | e⟩ := putLead_eq t o j d <;> rw [e]
  · exact h.setF hj (by decide) v (.inl (by decide))
  · exact (h.setF hj (by decide) v (.inl (by decide))).draw hj

theorem Lost.slip (h : Lost s o j t) (hj : j < 8) : Lost s o j (t.seen (SL_LANE_STAT o j) SL_LANE_STAT_SLIP evLanes) :=
  h.of_laneStat hj (State.seen_sl _ _ _ _) (State.seen_md _ _ _ _) (fun _ hi ha => t.reg_seen _ _ _ (by decide) hi ha)
    (locked_of_rf (t.rf_seen_apart _ _ _ _ (by decide) (not_intReg_laneStat o hj) (by decide) (.inl (by decide))))

/-- A lane that loses block lock does nothing else. -/
theorem blockLockLost_loses (hon : s.on = true) (ho : o < 64) (h : s.locked o j = true) (hidx : (s.lane o j).idx < 8) (hj : j < 8) :
    ∃ t, exec (.blockLockLost o j) s = .next t ∧ Lost s o j t ∧
      t = { s with sl := t.sl, regs := t.regs, fresh := t.fresh, md := { s.md with store := t.md.store, past := t.md.past } } ∧
      t.inService o (s.lane o j).idx = false := by
  have hi : exec (.blockLockLost o j) s = whenOn s fun u => if o = 64 then u.linkLose j else u.loseLock true o j := rfl
  have hlose := (LanesOnly.refl o s).loseLock hj true
  exact ⟨s.loseLock true o j, by rw [hi, whenOn_on hon, if_neg ho.ne], lost_loseLock h hj, hlose.kept.silent hlose.out hlose.free,
    inService_loseLock h hidx true⟩

/-- A slip loses the lane's lock, sets SLIP and stores the lead. -/
theorem laneSlip_loses (hon : s.on = true) (h : s.locked o j = true) (hj : j < 8) (lead : Int) :
    ∃ t, exec (.laneSlip o j lead) s = .next t ∧ Lost s o j t ∧ t.rf (SL_LANE_STAT o j) SL_LANE_STAT_SLIP = 1 ∧ Kept s t ∧
      (0 ≤ lead → lead < 65536 → t.rf (SL_LANE_STAT o j) SL_LANE_STAT_LEAD = lead.toNat ∧ t.free = s.free) := by
  have hi : exec (.laneSlip o j lead) s = whenOn s fun u =>
      if u.locked o j then ((u.loseLock true o j).putLead o j lead).seen (SL_LANE_STAT o j) SL_LANE_STAT_SLIP evLanes else u := rfl
  have hlose := (LanesOnly.refl o s).loseLock hj true
  have hreg := not_intReg_laneStat o hj
  refine ⟨((s.loseLock true o j).putLead o j lead).seen (SL_LANE_STAT o j) SL_LANE_STAT_SLIP evLanes, by rw [hi, whenOn_on hon, if_pos h],
    ((lost_loseLock h hj).putLead hj lead).slip hj, State.rf_seen_same _ _ _ _ (by decide) hreg (by decide),
    (hlose.kept.trans (kept_putLead _ _ _ _)).trans (kept_seen _ _ _ _), fun h0 h1 => ?_⟩
  rw [putLead_held _ _ _ h0 h1, State.rf_seen_apart _ _ _ _ _ (by decide) hreg (by decide) (.inr (by decide)), State.rf_setF_same _ _ _ _ (by decide),
    State.seen_free, State.setF_free]
  have hw : lead.toNat < 2 ^ SL_LANE_STAT_LEAD.w := by
    rw [show SL_LANE_STAT_LEAD.w = 16 from rfl]
    omega
  exact ⟨Nat.mod_eq_of_lt hw, hlose.free⟩

/-- A lost forwarded clock reads so, and takes the locks of its octet's lanes and of no other. -/
theorem clockLost_loses (s : State) (o : Nat) : ∃ t, s.clockLost o = t ∧ t.rf (SL_OCT_STAT o) SL_OCT_STAT_FCK_LOSS = 1 ∧
    t.rf (SL_OCT_STAT o) SL_OCT_STAT_FCK_LOST_SEEN = 1 ∧ (t.oct o).fck = false ∧ (∀ k < 8, t.locked o k = false) ∧ Kept s t ∧ t.free = s.free ∧
    ∀ p q, p < 64 → q < 8 → p ≠ o → t.lane p q = s.lane p q := by
  obtain ⟨s1, hs1⟩ : ∃ u, ((s.setOct o { s.oct o with fck := false }).setF (SL_OCT_STAT o) SL_OCT_STAT_FCK_LOSS 1).seen
    (SL_OCT_STAT o) SL_OCT_STAT_FCK_LOST_SEEN evLanes = u := ⟨_, rfl⟩
  have h : LanesOnly o s1 (s1.loseAll true o) := (LanesOnly.refl o s1).loseAll true
  have hreg := not_intReg_octStat o
  have hsl : s1.sl = (s.setOct o { s.oct o with fck := false }).sl := by rw [← hs1, State.seen_sl, State.setF_sl]
  refine ⟨s1.loseAll true o, congrArg (State.loseAll · true o) hs1, ?_, ?_, ?_, fun k hk => locked_loseAll s1 true o hk,
    Kept.trans ?_ h.kept, h.free.trans ?_, fun p q _ hq hp => ?_⟩
  · rw [h.stat _ (.inl (by decide)) (.inl (by decide)), ← hs1, State.rf_seen_apart _ _ _ _ _ (by decide) hreg (by decide) (.inl (by decide)),
      State.rf_setF_same _ _ _ _ (by decide)]
    rfl
  · rw [h.stat _ (.inl (by decide)) (.inr (by decide)), ← hs1]
    exact State.rf_seen_same _ _ _ _ (by decide) hreg (by decide)
  · rw [h.oct, State.oct_of_octs (congrArg SlSt.octs hsl), State.oct_setOct_same]
  · rw [← hs1]
    exact ((kept_setOct _ _ _).trans (kept_setF _ _ _ _)).trans (kept_seen _ _ _ _)
  · rw [← hs1, State.seen_free, State.setF_free]
    rfl
  · rw [h.lane p q hq hp, State.lane_of_lanes (congrArg SlSt.lanes hsl), State.lane_setOct]

/-- The forwarded clock and its signal are lost in one way (R95). -/
theorem clockLost_exec (hon : s.on = true) (ho : o < 64) (hr : s.rxOff o = false) :
    ∀ i ∈ [Instr.forwardedClockLost o, .lossOfSignal o none], exec i s = .next (s.clockLost o) := by
  have h1 : exec (.forwardedClockLost o) s = whenOn s fun u => if o = 64 then u.linkDark none else if u.rxOff o then u else u.clockLost o := rfl
  have h2 : exec (.lossOfSignal o none) s = whenOn s fun u => if o = 64 then u.linkDark none else if u.rxOff o then u else u.clockLost o := rfl
  simp [h1, h2, whenOn_on hon, hr, ho.ne]

/-- An octet whose receive direction is off takes no loss of signal and no change of its forwarded clock. -/
theorem rxOff_exec (hon : s.on = true) (ho : o < 64) (hr : s.rxOff o = true) (j : Nat) :
    ∀ i ∈ [Instr.lossOfSignal o (some j), .lossOfSignal o none, .forwardedClockLost o, .forwardedClockLock o], exec i s = .next s := by
  have h1 : exec (.lossOfSignal o (some j)) s = whenOn s fun u => if o = 64 then u.linkDark (some j) else if u.rxOff o then u else
    (u.loseLock true o j).setF (SL_LANE_STAT o j) SL_LANE_STAT_LOS 1 := rfl
  have h2 : exec (.lossOfSignal o none) s = whenOn s fun u => if o = 64 then u.linkDark none else if u.rxOff o then u else u.clockLost o := rfl
  have h3 : exec (.forwardedClockLost o) s = whenOn s fun u => if o = 64 then u.linkDark none else if u.rxOff o then u else u.clockLost o := rfl
  have h4 : exec (.forwardedClockLock o) s = whenOn s fun u => if o = 64 then u.linkClock else if u.rxOff o then u else
    (u.setOct o { u.oct o with fck := true, step := if (u.oct o).step = .clock then .lanes else (u.oct o).step }).setF
      (SL_OCT_STAT o) SL_OCT_STAT_FCK_LOSS 0 := rfl
  simp [h1, h2, h3, h4, whenOn_on hon, hr, ho.ne]

/-- What a lane that loses its signal does: it loses lock, and reads LOS. -/
theorem lossOfSignal_loses (hon : s.on = true) (ho : o < 64) (hr : s.rxOff o = false) (h : s.locked o j = true) (hj : j < 8) :
    ∃ t, exec (.lossOfSignal o (some j)) s = .next t ∧ Lost s o j t ∧ t.rf (SL_LANE_STAT o j) SL_LANE_STAT_LOS = 1 ∧ Kept s t ∧
      t.out = s.out ∧ t.free = s.free := by
  have hi : exec (.lossOfSignal o (some j)) s = whenOn s fun u => if o = 64 then u.linkDark (some j) else if u.rxOff o then u else
    (u.loseLock true o j).setF (SL_LANE_STAT o j) SL_LANE_STAT_LOS 1 := rfl
  have hlose := (LanesOnly.refl o s).loseLock hj true
  refine ⟨(s.loseLock true o j).setF (SL_LANE_STAT o j) SL_LANE_STAT_LOS 1, ?_, (lost_loseLock h hj).setF hj (by decide) 1 (.inr (by decide)),
    State.rf_setF_same _ _ _ _ (by decide), hlose.kept.trans (kept_setF _ _ _ _), by rw [State.setF_out, hlose.out], by rw [State.setF_free, hlose.free]⟩
  rw [hi, whenOn_on hon, if_neg ho.ne, if_neg (by rw [hr]; decide)]

/-- A field of one register written, and nothing else. -/
theorem exec_setF (hon : s.on = true) {i : Instr} {a v : Nat} {f : Fld} (hi : exec i s = whenOn s fun u => u.setF a f v) (hf : f.lo + f.w ≤ 32)
    (hv : v % 2 ^ f.w = v) : ∃ t, exec i s = .next t ∧ t.rf a f = v ∧ OnlyRegs [a] s t :=
  ⟨s.setF a f v, by rw [hi, whenOn_on hon], (s.rf_setF_same a f v hf).trans hv, onlyRegs_setF s a f v⟩

/-- The forwarded clock locks, and with the ladder at step 4 moves it to step 5 (R89). -/
theorem forwardedClockLock_steps (hon : s.on = true) (ho : o < 64) (hr : s.rxOff o = false) :
    ∃ t, exec (.forwardedClockLock o) s = .next t ∧ t.rf (SL_OCT_STAT o) SL_OCT_STAT_FCK_LOSS = 0 ∧ (t.oct o).fck = true ∧
      (t.oct o).step = (if (s.oct o).step = .clock then .lanes else (s.oct o).step) ∧ t = { s with sl := t.sl, regs := t.regs } ∧
      t.sl.lanes = s.sl.lanes ∧ ∀ a, a ≠ SL_OCT_STAT o → t.reg a = s.reg a := by
  have hi : exec (.forwardedClockLock o) s = whenOn s fun u => if o = 64 then u.linkClock else if u.rxOff o then u else
    (u.setOct o { u.oct o with fck := true, step := if (u.oct o).step = .clock then .lanes else (u.oct o).step }).setF
      (SL_OCT_STAT o) SL_OCT_STAT_FCK_LOSS 0 := rfl
  refine ⟨(s.setOct o { s.oct o with fck := true, step := if (s.oct o).step = .clock then .lanes else (s.oct o).step }).setF
    (SL_OCT_STAT o) SL_OCT_STAT_FCK_LOSS 0, ?_, State.rf_setF_same _ _ _ _ (by decide), ?_, ?_, rfl, ?_, fun a ha => ?_⟩
  · rw [hi, whenOn_on hon, if_neg ho.ne, if_neg (by rw [hr]; decide)]
  · rw [State.oct_setF, State.oct_setOct_same]
  · rw [State.oct_setF, State.oct_setOct_same]
  · rw [State.setF_sl]
    rfl
  · rw [State.reg_setF_ne _ _ _ ha, State.reg_setOct]

/-- Settles O11: every loss of lock goes through one operation on its lane; the loss of the forwarded clock applies it to the eight lanes of its
octet, and the other events write one field of a status register. -/
theorem lossOfLockSignalAndClock : Obligations.LossOfLockSignalAndClock := by
  unfold Obligations.LossOfLockSignalAndClock
  intro s o j lead hon ho hj only lost kept
  refine ⟨fun h hidx => ⟨?_, ?_, fun hr => ?_⟩, fun hr => rxOff_exec hon ho hr j, ?_, exec_setF hon rfl (by decide) rfl,
    exec_setF hon rfl (by decide) rfl, fun hr => ⟨fun i hi => ?_, forwardedClockLock_steps hon ho hr⟩⟩
  · exact blockLockLost_loses hon ho h hidx hj
  · obtain ⟨t, ht, hlost, hslip, hk, hlead⟩ := laneSlip_loses hon h hj lead
    exact ⟨t, ht, hlost, hslip, hk, hlead⟩
  · obtain ⟨t, ht, hlost, hlos, hk, hout, hfree⟩ := lossOfSignal_loses hon ho hr h hj
    exact ⟨t, ht, hlost, hlos, hk.silent hout hfree⟩
  · refine exec_setF hon ?_ (by decide) rfl
    have hi : exec (.lossOfSignalClear o (some j)) s =
        whenOn s fun u => if o = 64 then u.linkSeen (some j) else u.setF (SL_LANE_STAT o j) SL_LANE_STAT_LOS 0 := rfl
    rw [hi]
    simp only [ho.ne, if_false]
  · obtain ⟨t, ht, hloss, hseen, hfck, hlocks, hk, hfree, hother⟩ := clockLost_loses s o
    exact ⟨t, (clockLost_exec hon ho hr i hi).trans (congrArg _ ht), hloss, hseen, hfck, hlocks, hk.undrawn hfree, hother⟩

end Sys2Proof.Machine
end

-- ==== Sample lanes: the ladder ====
section

namespace Sys2Proof.Machine

variable {s t u : State} {o j : Nat}

/-- Nothing but octet `o`, its lanes and what the ladder may write has changed. -/
def OnlyOctet (s : State) (o : Nat) (t : State) : Prop :=
  t = { s with sl := t.sl, regs := t.regs, out := t.out, fresh := t.fresh, md := { s.md with store := t.md.store, past := t.md.past } } ∧
    (∀ o' < 64, o' ≠ o → t.oct o' = s.oct o' ∧ t.reg (SL_OCT_STAT o') = s.reg (SL_OCT_STAT o')) ∧
    ∀ o' j', o' < 64 → j' < 8 → o' ≠ o → t.lane o' j' = s.lane o' j'

theorem OctetOnly.onlyOctet (h : OctetOnly o s t) : OnlyOctet s o t := by
  refine ⟨h.kept.undrawn h.free, fun p _ hp => ⟨h.oct p hp, h.reg _ fun hr => ?_⟩, fun p q _ hq hp => h.lane p q hq hp⟩
  unfold octetReg SL_OCT_STAT at hr
  omega

/-! ### Registers that lie apart -/

theorem octStat_ne_octCtl (o : Nat) : SL_OCT_STAT o ≠ SL_OCT_CTL o := by
  unfold SL_OCT_STAT SL_OCT_CTL
  omega

theorem laneStat_ne_octCtl (o j : Nat) : SL_LANE_STAT o j ≠ SL_OCT_CTL o := by
  unfold SL_LANE_STAT SL_OCT_CTL
  omega

theorem not_lossReg_octCtl (o : Nat) : ¬ lossReg o (SL_OCT_CTL o) := by
  rintro (h | ⟨j, hj, h | h | h⟩) <;> simp only [SL_OCT_CTL, SL_OCT_STAT, SL_LANE_STAT, SL_LANE_CRCERR, SL_LANE_LOCKLOSS] at h <;> omega

/-- LOCK of a lane while its octet's status is written. -/
theorem locked_setF_octStat (s : State) (o j : Nat) (f : Fld) (v : Nat) : (s.setF (SL_OCT_STAT o) f v).locked o j = s.locked o j :=
  locked_of_reg (s.reg_setF_ne _ _ (laneStat_ne_octStat o j o))

/-! ### Lanes taken back at step 0 (R89) -/

/-- EXCLUDED of every lane of the octet is cleared. -/
def unexclude (s : State) (o : Nat) : State := (List.range 8).foldl (fun s j => s.setF (SL_LANE_STAT o j) SL_LANE_STAT_EXCLUDED 0) s

theorem OctetOnly.unexclude (h : OctetOnly o s t) : OctetOnly o s (unexclude t o) :=
  h.foldl fun _ _ hk hu => hu.setF (octetReg_laneStat o (List.mem_range.1 hk)) _ _

theorem reg_unexclude_ne (s : State) {o a : Nat} (ha : ∀ j, a ≠ SL_LANE_STAT o j) : (unexclude s o).reg a = s.reg a :=
  List.foldlRecOn (List.range 8) _ (motive := fun u : State => u.reg a = s.reg a) rfl fun u hu k _ => (u.reg_setF_ne _ _ (ha k)).trans hu

theorem locked_unexclude (s : State) (o j : Nat) : (unexclude s o).locked o j = s.locked o j := by
  refine List.foldlRecOn (List.range 8) _ (motive := fun u : State => u.locked o j = s.locked o j) rfl fun u hu k hk => ?_
  rw [← hu]
  refine locked_of_rf ?_
  by_cases e : SL_LANE_STAT o j = SL_LANE_STAT o k
  · rw [e]
    exact u.rf_setF_apart _ _ _ _ (by decide) (.inl (by decide))
  · exact u.rf_setF_ne _ _ _ e

theorem excluded_unexclude (s : State) (o : Nat) (hj : j < 8) : (unexclude s o).flag (SL_LANE_STAT o j) SL_LANE_STAT_EXCLUDED = false := by
  have hset : ∀ (u : State) (k : Nat), (u.setF (SL_LANE_STAT o k) SL_LANE_STAT_EXCLUDED 0).flag (SL_LANE_STAT o k) SL_LANE_STAT_EXCLUDED = false :=
    fun u k => u.flag_setF_same _ _ 0 (by decide)
  refine foldl_local (P := fun j u => u.flag (SL_LANE_STAT o j) SL_LANE_STAT_EXCLUDED = false) (Q := fun _ _ => True) List.nodup_range
    (fun _ _ => trivial) (fun u k _ _ => hset u k) (fun _ _ _ _ _ _ => trivial) (fun u k _ i hi h => ?_) (List.mem_range.2 hj)
  rw [← h]
  exact State.flag_of_rf (u.rf_setF_ne _ _ _ (by unfold SL_LANE_STAT; omega))

/-! ### Messages sent at once (R84) -/

/-- A message goes out under the octet's next TAG in the control lane's next SEQ. -/
theorem ctlNow_sends (s : State) (o : Nat) (m : CtlMsg) :
    ((s.ctlNow o m).oct o = { s.oct o with
        tag := ((s.oct o).tag + 1) % 256, seq := ((s.oct o).seq + 1) % 8, x := some { m with tag := (s.oct o).tag, attempt := 1 } }) ∧
      (s.ctlNow o m).out = .ctl o (ctlBlock (s.oct o).seq m.msg (s.oct o).tag m.args) :: s.out := by
  unfold State.ctlNow State.ctlPut
  simp only [State.oct_emit, State.oct_setOct_same, true_and]
  rfl

theorem ctlAsleep_setOct (s : State) (o : Nat) (y : OctSt) :
    (s.setOct o y).ctlAsleep o = (s.flag (SL_OCT_CTL o) SL_OCT_CTL_CTL_SLEEP && !y.woken && !y.waking) := by
  rw [State.ctlAsleep, State.oct_setOct_same]
  rfl

/-- The first waiting message of an octet whose control lane is awake and free is sent. -/
theorem ctlNext_now {m : CtlMsg} {ms : List CtlMsg} (hx : (s.oct o).x = none) (ht : (s.oct o).todo = m :: ms) (ha : s.ctlAsleep o = false)
    (hw : (s.oct o).waking = false) : s.ctlNext o = (s.setOct o { s.oct o with todo := ms }).ctlNow o m := by
  rw [State.ctlNext]
  split
  next h => rw [hx] at h; cases h
  next h => rw [ht] at h; cases h
  next _ h =>
    obtain ⟨rfl, rfl⟩ := List.cons.inj (ht.symm.trans h)
    rw [if_neg (by rw [hw]; decide), if_neg (by rw [ha]; decide)]

/-- An octet whose control lane is awake and free sends a message at once. -/
theorem ctlSend_now (hx : (s.oct o).x = none) (ht : (s.oct o).todo = []) (ha : s.ctlAsleep o = false) (hw : (s.oct o).waking = false)
    (why : CtlFor) (msg : Nat) (args : List Byte) : ((s.ctlSend o why msg args).oct o).seq = ((s.oct o).seq + 1) % 8 ∧
      (s.ctlSend o why msg args).out = .ctl o (ctlBlock (s.oct o).seq msg (s.oct o).tag args) :: s.out := by
  obtain ⟨m, hm⟩ : ∃ m : CtlMsg, m = { why := why, msg := msg, tag := 0, args := args, attempt := 0 } := ⟨_, rfl⟩
  obtain ⟨y, hy⟩ : ∃ y : OctSt, y = { s.oct o with todo := (s.oct o).todo ++ [m] } := ⟨_, rfl⟩
  have hsend : s.ctlSend o why msg args = (s.setOct o y).ctlNext o := by
    rw [hy, hm]
    rfl
  have hnow : (s.setOct o y).ctlNext o = ((s.setOct o y).setOct o { y with todo := [] }).ctlNow o m := by
    have h := ctlNext_now (s := s.setOct o y) (o := o) (m := m) (ms := []) (by rw [State.oct_setOct_same, hy, hx])
      (by rw [State.oct_setOct_same, hy, ht, List.nil_append]) (by rw [ctlAsleep_setOct, ← ha, hy]; rfl) (by rw [State.oct_setOct_same, hy, hw])
    rwa [State.oct_setOct_same] at h
  obtain ⟨hoct, hout⟩ := ctlNow_sends ((s.setOct o y).setOct o { y with todo := [] }) o m
  rw [hsend, hnow, hoct, hout, State.oct_setOct_same, hy, hm]
  exact ⟨rfl, rfl⟩

/-! ### The start and the rungs of a ladder (R89) -/

theorem octState_setRung (s : State) (o v : Nat) : (s.setF (SL_OCT_STAT o) SL_OCT_STAT_RUNG v).octState o = s.octState o :=
  s.rf_setF_apart _ _ _ _ (by decide) (.inr (by decide))

theorem octState_setOctState (s : State) (o : Nat) {v : Nat} (hv : v < 8) : (s.setOctState o v).octState o = v := by
  rw [State.octState, State.setOctState, State.rf_setF_same _ _ _ _ (by decide)]
  exact Nat.mod_eq_of_lt hv

theorem rung_setRung (s : State) (o : Nat) {v : Nat} (hv : v < 4) : (s.setF (SL_OCT_STAT o) SL_OCT_STAT_RUNG v).rung o = v := by
  rw [State.rung, State.rf_setF_same _ _ _ _ (by decide)]
  exact Nat.mod_eq_of_lt hv

theorem octState_of_ctl (h : CtlOnly o s t) : t.octState o = s.octState o := State.rf_of_reg (h.reg _) _

theorem octState_of_lanes (h : LanesOnly o s t) : t.octState o = s.octState o := h.stat _ (.inl (by decide)) (.inl (by decide))

/-- An octet whose ladder starts again (R86, R89). -/
def restartedOct (s : State) (o : Nat) : OctSt :=
  { s.oct o with
    step := .lock0, r := 0, goal := 0, back := false, tries := 0, failed := 0, fck := false, retry := false
    x := (s.oct o).x.filter (!·.climbs), todo := (s.oct o).todo.filter (!·.climbs), poll := none, pollDue := false
    target := s.rf (SL_OCT_CTL o) SL_OCT_CTL_TARGET_RUNG, weak := s.flag (SL_OCT_CTL o) SL_OCT_CTL_EXCLUDE_WEAK }

/-- RELADDER is taken: its octet begins again at step 0 and rung L0, its lanes unlocked and taken back. -/
theorem ladderStart_begins (hon : s.on = true) (h : s.flag (SL_OCT_CTL o) SL_OCT_CTL_RELADDER = true) :
    ∃ t, exec (.ladderStart o) s = .next t ∧ OctetOnly o s t ∧ (∀ j < 8, t.locked o j = false) ∧
      t.flag (SL_OCT_CTL o) SL_OCT_CTL_RELADDER = false ∧ t.octState o = ocL0Lock ∧ t.rung o = 0 ∧ (t.oct o).step = .lock0 ∧ (t.oct o).tries = 0 ∧
      (t.oct o).target = s.rf (SL_OCT_CTL o) SL_OCT_CTL_TARGET_RUNG ∧ ∀ j < 8, t.flag (SL_LANE_STAT o j) SL_LANE_STAT_EXCLUDED = false := by
  obtain ⟨s1, hs1⟩ : ∃ u, (s.loseAll true o).setF (SL_OCT_CTL o) SL_OCT_CTL_RELADDER 0 = u := ⟨_, rfl⟩
  obtain ⟨s2, hs2⟩ : ∃ u, unexclude s1 o = u := ⟨_, rfl⟩
  obtain ⟨y, hy⟩ : ∃ y, restartedOct s2 o = y := ⟨_, rfl⟩
  obtain ⟨s3, hs3⟩ : ∃ u, ((s2.setOct o y).setOctState o ocL0Lock).setF (SL_OCT_STAT o) SL_OCT_STAT_RUNG 0 = u := ⟨_, rfl⟩
  have hexec : exec (.ladderStart o) s = .next (s3.ctlNext o) := by
    have hi : exec (.ladderStart o) s = execLadderStart o s := rfl
    rw [hi, execLadderStart, whenOn_on hon, if_pos h, ← hs3, ← hy, ← hs2, ← hs1]
    rfl
  have hlose : LanesOnly o s (s.loseAll true o) := (LanesOnly.refl o s).loseAll true
  have hctl : CtlOnly o s3 (s3.ctlNext o) := (CtlOnly.refl o s3).ctlNext
  have hreg3 : ∀ a, a ≠ SL_OCT_STAT o → s3.reg a = s2.reg a := fun a ha => by
    rw [← hs3, State.reg_setF_ne _ _ _ ha, State.setOctState, State.reg_setF_ne _ _ _ ha, State.reg_setOct]
  have hcl : (s3.ctlNext o).reg (SL_OCT_CTL o) = s1.reg (SL_OCT_CTL o) := by
    rw [hctl.reg, hreg3 _ (octStat_ne_octCtl o).symm, ← hs2, reg_unexclude_ne _ fun k => (laneStat_ne_octCtl o k).symm]
  have hoct : s3.oct o = y := by
    rw [← hs3, State.oct_setF, State.setOctState, State.oct_setF, State.oct_setOct_same]
  have hlane : ∀ k, (s3.ctlNext o).reg (SL_LANE_STAT o k) = s2.reg (SL_LANE_STAT o k) := fun k =>
    (hctl.reg _).trans (hreg3 _ (laneStat_ne_octStat o k o))
  refine ⟨s3.ctlNext o, hexec, ?_, fun k hk => ?_, ?_, ?_, ?_, ?_, ?_, ?_, fun k hk => ?_⟩
  · refine OctetOnly.ctl ?_ hctl
    rw [← hs3, ← hs2, ← hs1]
    exact ((((((OctetOnly.refl o s).lanes hlose).setF (octetReg_ctl o) _ _).unexclude).setOct _).setOctState _).setF (octetReg_stat o) _ _
  · rw [locked_of_reg (hlane k), ← hs2, locked_unexclude, ← hs1, locked_of_reg (State.reg_setF_ne _ _ _ (laneStat_ne_octCtl o k)),
      locked_loseAll s true o hk]
  · rw [State.flag_of_reg hcl, ← hs1, State.flag_setF_same _ _ _ _ (by decide)]
    rfl
  · rw [octState_of_ctl hctl, ← hs3, octState_setRung, octState_setOctState _ _ (by decide)]
  · rw [State.rung, State.rf_of_reg (hctl.reg _), ← hs3]
    exact rung_setRung _ _ (by decide)
  · rw [hctl.ladder, hoct, ← hy, restartedOct]
  · rw [hctl.ladder, hoct, ← hy, restartedOct]
  · rw [hctl.ladder, hoct, ← hy, restartedOct, ← hs2, State.rf_of_reg (reg_unexclude_ne _ fun k => (laneStat_ne_octCtl o k).symm), ← hs1,
      State.rf_setF_apart _ _ _ _ _ (by decide) (.inl (by decide)), State.rf_of_reg (hlose.reg _ (not_lossReg_octCtl o))]
  · rw [State.flag_of_reg (hlane k), ← hs2, excluded_unexclude _ _ hk]

/-- The receivers switch to the agreed rung: their lanes lose lock, and none counts it. -/
theorem rungSwitch_switches (hon : s.on = true) (ho : o < 64) (hstep : (s.oct o).step = .switching) (hg : (s.oct o).goal < 4) :
    ∃ t, exec (.rungSwitch o) s = .next t ∧ OctetOnly o s t ∧ (∀ j < 8, t.locked o j = false) ∧ t.rung o = (s.oct o).goal ∧ (t.oct o).step = .clock ∧
      (t.oct o).fck = false ∧ ∀ j < 8, t.reg (SL_LANE_LOCKLOSS o j) = s.reg (SL_LANE_LOCKLOSS o j) := by
  have hi : exec (.rungSwitch o) s = whenOn s fun u => if o = 64 then u.linkSwitch else if (u.oct o).step = .switching then
    ((u.loseAll false o).setOct o { u.oct o with step := .clock, fck := false }).setF (SL_OCT_STAT o) SL_OCT_STAT_RUNG (u.oct o).goal else u := rfl
  have hlose : LanesOnly o s (s.loseAll false o) := (LanesOnly.refl o s).loseAll false
  refine ⟨((s.loseAll false o).setOct o { s.oct o with step := .clock, fck := false }).setF (SL_OCT_STAT o) SL_OCT_STAT_RUNG (s.oct o).goal,
    by rw [hi, whenOn_on hon, if_neg ho.ne, if_pos hstep], ((((OctetOnly.refl o s).lanes hlose).setOct _).setF (octetReg_stat o) _ _),
    fun k hk => ?_, rung_setRung _ _ hg, ?_, ?_, fun k _ => ?_⟩
  · rw [locked_setF_octStat]
    exact locked_loseAll s false o hk
  · rw [State.oct_setF, State.oct_setOct_same]
  · rw [State.oct_setF, State.oct_setOct_same]
  · rw [State.reg_setF_ne _ _ _ (lockLoss_ne_octStat o k), State.reg_setOct, lockLoss_loseAll_uncounted]

/-! ### A dwell that every lane due has passed (R89) -/

/-- A passed dwell accepts its rung: the octet climbs from there. -/
theorem dwellPassed_climbs (hon : s.on = true) (ho : o < 64) (hstep : (s.oct o).step = .dwell)
    (hclean : ∀ j < 8, s.due o j = true → 4096 ≤ (s.lane o j).clean) :
    exec (.dwellPassed o) s = .next ((s.setOct o { s.oct o with r := (s.oct o).goal, tries := 0 }).climb o) := by
  have hi : exec (.dwellPassed o) s = whenOn s fun u => if o = 64 then u.linkDwell else u.dwellEnd o := rfl
  have hall : ((List.range 8).all fun j => !s.due o j || decide (4096 ≤ (s.lane o j).clean)) = true := by
    refine List.all_eq_true.2 fun k hk => ?_
    cases hd : s.due o k with
    | false => rfl
    | true => simpa using hclean k (List.mem_range.1 hk) hd
  rw [hi, whenOn_on hon, if_neg ho.ne, State.dwellEnd, if_pos ⟨hstep, hall⟩]

/-- An octet proposes a rung, at once or behind other messages. -/
theorem sendPropose_proposes (s : State) (o r : Nat) : OctetOnly o s (s.sendPropose o r) ∧ (s.sendPropose o r).octState o = ocStep ∧
    ∃ tag seq x todo waking woken, (s.sendPropose o r).oct o =
      { s.oct o with step := .propose, goal := r, tag := tag, seq := seq, x := x, todo := todo, waking := waking, woken := woken } := by
  obtain ⟨u, hu⟩ : ∃ u, (s.setOct o { s.oct o with step := .propose, goal := r }).setOctState o ocStep = u := ⟨_, rfl⟩
  have hctl : CtlOnly o u (u.ctlSend o (.propose r) 0x02 (be 1 r)) := (CtlOnly.refl o u).ctlSend _ _ _
  have hsend : s.sendPropose o r = u.ctlSend o (.propose r) 0x02 (be 1 r) := by rw [State.sendPropose, hu]
  have hoct : u.oct o = { s.oct o with step := .propose, goal := r } := by
    rw [← hu, State.setOctState, State.oct_setF, State.oct_setOct_same]
  rw [hsend]
  refine ⟨OctetOnly.ctl ?_ hctl, ?_, _, _, _, _, _, _, hctl.ladder.trans (by rw [hoct])⟩
  · rw [← hu]
    exact ((OctetOnly.refl o s).setOct _).setOctState _
  · rw [octState_of_ctl hctl, ← hu, octState_setOctState _ _ (by decide)]

/-- Where the control lane is awake and free, a proposal goes out at once. -/
theorem sendPropose_now {r : Nat} (hx : (s.oct o).x = none) (ht : (s.oct o).todo = []) (ha : s.ctlAsleep o = false) (hw : (s.oct o).waking = false) :
    ((s.sendPropose o r).oct o).seq = ((s.oct o).seq + 1) % 8 ∧
      (s.sendPropose o r).out = .ctl o (ctlBlock (s.oct o).seq 0x02 (s.oct o).tag (be 1 r)) :: s.out := by
  obtain ⟨u, hu⟩ : ∃ u, (s.setOct o { s.oct o with step := .propose, goal := r }).setOctState o ocStep = u := ⟨_, rfl⟩
  have hoct : u.oct o = { s.oct o with step := .propose, goal := r } := by
    rw [← hu, State.setOctState, State.oct_setF, State.oct_setOct_same]
  have hctl : u.flag (SL_OCT_CTL o) SL_OCT_CTL_CTL_SLEEP = s.flag (SL_OCT_CTL o) SL_OCT_CTL_CTL_SLEEP := by
    refine State.flag_of_reg ?_ _
    rw [← hu, State.setOctState, State.reg_setF_ne _ _ _ (octStat_ne_octCtl o).symm, State.reg_setOct]
  have hasleep : u.ctlAsleep o = false := by
    rw [← ha, State.ctlAsleep, State.ctlAsleep, hctl, hoct]
  have hout : u.out = s.out := by
    rw [← hu, State.setOctState, State.setF_out]
    rfl
  have h := ctlSend_now (s := u) (o := o) (by rw [hoct, hx]) (by rw [hoct, ht]) hasleep (by rw [hoct, hw]) (.propose r) 0x02 (be 1 r)
  rw [State.sendPropose, hu, ← hout]
  rwa [hoct] at h

/-- The ladder of an octet ends: it stands in its state, its lanes in service. -/
theorem ladderEnd_ends (s : State) (o : Nat) {st : Nat} (hst : st < 8) : OctetOnly o s (s.ladderEnd o st) ∧ (s.ladderEnd o st).octState o = st ∧
    ∃ tag seq x todo waking woken, (s.ladderEnd o st).oct o = { s.oct o with
      step := .idle, first := true, tries := 0, back := false, tag := tag, seq := seq, x := x, todo := todo, waking := waking, woken := woken } := by
  obtain ⟨u, hu⟩ : ∃ u, (s.setOct o { s.oct o with step := .idle, first := true, tries := 0, back := false }).setOctState o st = u := ⟨_, rfl⟩
  have hlanes : LanesOnly o u ((u.orderCheck o).serveAll o) := (LanesOnly.refl o u).orderCheck.serveAll
  have hctl := (CtlOnly.refl o ((u.orderCheck o).serveAll o)).ctlSend (.format (s.flag (SL_OCT_CTL o) SL_OCT_CTL_FMT)) 0x04
    (be 1 (b2n (s.flag (SL_OCT_CTL o) SL_OCT_CTL_FMT)))
  have hend : s.ladderEnd o st = ((u.orderCheck o).serveAll o).ctlSend o (.format (s.flag (SL_OCT_CTL o) SL_OCT_CTL_FMT)) 0x04
      (be 1 (b2n (s.flag (SL_OCT_CTL o) SL_OCT_CTL_FMT))) := by rw [← hu, State.ladderEnd]
  have hoct : u.oct o = { s.oct o with step := .idle, first := true, tries := 0, back := false } := by
    rw [← hu, State.setOctState, State.oct_setF, State.oct_setOct_same]
  rw [hend]
  refine ⟨OctetOnly.ctl (OctetOnly.lanes ?_ hlanes) hctl, ?_, _, _, _, _, _, _, hctl.ladder.trans (by rw [hlanes.oct, hoct])⟩
  · rw [← hu]
    exact ((OctetOnly.refl o s).setOct _).setOctState _
  · rw [octState_of_ctl hctl, octState_of_lanes hlanes, ← hu, octState_setOctState _ _ hst]

/-- From a rung accepted below the target the next one is proposed; else the ladder ends. -/
theorem climb_accepted (s : State) (o : Nat) : (s.setOct o { s.oct o with r := (s.oct o).goal, tries := 0 }).climb o =
    if (s.oct o).goal < climbTo (s.oct o) then
      (s.setOct o { s.oct o with r := (s.oct o).goal, tries := 0 }).sendPropose o ((s.oct o).goal + 1)
    else (s.setOct o { s.oct o with r := (s.oct o).goal, tries := 0 }).ladderEnd o ocRunning := by
  rw [State.climb]
  simp only [State.oct_setOct_same]
  rfl

/-- Below the target, an octet whose control lane is awake and free proposes the next rung. -/
theorem dwellPassed_proposes (hon : s.on = true) (ho : o < 64) (hstep : (s.oct o).step = .dwell)
    (hclean : ∀ j < 8, s.due o j = true → 4096 ≤ (s.lane o j).clean) (hg : (s.oct o).goal < climbTo (s.oct o)) (hx : (s.oct o).x = none)
    (ht : (s.oct o).todo = []) (ha : s.ctlAsleep o = false) (hw : (s.oct o).waking = false) :
    ∃ t, exec (.dwellPassed o) s = .next t ∧ OctetOnly o s t ∧ (t.oct o).r = (s.oct o).goal ∧ (t.oct o).goal = (s.oct o).goal + 1 ∧
      (t.oct o).step = .propose ∧ t.octState o = ocStep ∧ (t.oct o).seq = ((s.oct o).seq + 1) % 8 ∧
      t.out.head? = some (.ctl o (ctlBlock (s.oct o).seq 0x02 (s.oct o).tag (be 1 ((s.oct o).goal + 1)))) := by
  have hexec := dwellPassed_climbs hon ho hstep hclean
  rw [climb_accepted, if_pos hg] at hexec
  obtain ⟨y, hy⟩ : ∃ y : OctSt, { s.oct o with r := (s.oct o).goal, tries := 0 } = y := ⟨_, rfl⟩
  rw [hy] at hexec
  have hasleep : (s.setOct o y).ctlAsleep o = false := by
    rw [ctlAsleep_setOct, ← hy]
    exact ha
  have hnow := sendPropose_now (s := s.setOct o y) (r := (s.oct o).goal + 1) (by rw [State.oct_setOct_same, ← hy]; exact hx)
    (by rw [State.oct_setOct_same, ← hy]; exact ht) hasleep (by rw [State.oct_setOct_same, ← hy]; exact hw)
  obtain ⟨honly, hstate, tag, seq, x, todo, waking, woken, hoct⟩ := sendPropose_proposes (s.setOct o y) o ((s.oct o).goal + 1)
  obtain ⟨hseq, hout⟩ := hnow
  refine ⟨_, hexec, ((OctetOnly.refl o s).setOct y).trans honly, ?_, ?_, ?_, hstate, ?_, ?_⟩
  · rw [hoct, State.oct_setOct_same, ← hy]
  · rw [hoct]
  · rw [hoct]
  · rw [hseq, State.oct_setOct_same, ← hy]
  · rw [hout, State.oct_setOct_same, ← hy, List.head?_cons]

/-- At the target, the ladder ends RUNNING. -/
theorem dwellPassed_ends (hon : s.on = true) (ho : o < 64) (hstep : (s.oct o).step = .dwell)
    (hclean : ∀ j < 8, s.due o j = true → 4096 ≤ (s.lane o j).clean) (hg : climbTo (s.oct o) ≤ (s.oct o).goal) :
    ∃ t, exec (.dwellPassed o) s = .next t ∧ OctetOnly o s t ∧ (t.oct o).r = (s.oct o).goal ∧ (t.oct o).step = .idle ∧ (t.oct o).first = true ∧
      t.octState o = ocRunning := by
  have hexec := dwellPassed_climbs hon ho hstep hclean
  rw [climb_accepted, if_neg (by omega)] at hexec
  obtain ⟨y, hy⟩ : ∃ y : OctSt, { s.oct o with r := (s.oct o).goal, tries := 0 } = y := ⟨_, rfl⟩
  rw [hy] at hexec
  obtain ⟨honly, hstate, tag, seq, x, todo, waking, woken, hoct⟩ := ladderEnd_ends (s.setOct o y) o (st := ocRunning) (by decide)
  refine ⟨_, hexec, ((OctetOnly.refl o s).setOct y).trans honly, ?_, ?_, ?_, hstate⟩
  · rw [hoct, State.oct_setOct_same, ← hy]
  · rw [hoct]
  · rw [hoct]

/-! ### Attempts that fail (R90, R91) -/

/-- A bound of step 0 that passes without a forwarded clock ends the first ladder DOWN. -/
theorem stepTimeout_down (hon : s.on = true) (ho : o < 64) (hstep : (s.oct o).step = .lock0) (hfck : (s.oct o).fck = false) :
    ∃ t, exec (.ladderStepTimeout o) s = .next t ∧ OctetOnly o s t ∧ (∀ j < 8, t.locked o j = false) ∧ t.octState o = ocDown ∧
      (t.oct o).step = .idle ∧ (t.oct o).first = true ∧ (t.oct o).retry = true ∧ t.rung o = 0 := by
  have hi : exec (.ladderStepTimeout o) s = whenOn s fun u => if o = 64 then u.linkTimeout else u.stepTimeout o := rfl
  obtain ⟨s1, hs1⟩ : ∃ u, s.loseAll true o = u := ⟨_, rfl⟩
  have hlose : LanesOnly o s s1 := hs1 ▸ (LanesOnly.refl o s).loseAll true
  have hexec : exec (.ladderStepTimeout o) s = .next (((s1.setOct o { s1.oct o with
      step := .idle, first := (s1.oct o).first || true, retry := true, tries := 0, back := false, r := 0 }).setOctState o ocDown).setF
      (SL_OCT_STAT o) SL_OCT_STAT_RUNG 0) := by
    rw [hi, whenOn_on hon, if_neg ho.ne, State.stepTimeout, hstep]
    simp only [hfck, Bool.false_eq_true, if_false]
    rw [State.goDown, hs1]
  refine ⟨_, hexec, ((((OctetOnly.refl o s).lanes hlose).setOct _).setOctState _).setF (octetReg_stat o) _ _, fun k hk => ?_, ?_, ?_, ?_, ?_,
    rung_setRung _ _ (by decide)⟩
  · rw [locked_setF_octStat, State.setOctState, locked_setF_octStat, ← locked_loseAll s true o hk, hs1]
    exact locked_of_reg (State.reg_setOct _ _ _ _)
  · rw [octState_setRung, octState_setOctState _ _ (by decide)]
  · rw [State.oct_setF, State.setOctState, State.oct_setF, State.oct_setOct_same]
  · rw [State.oct_setF, State.setOctState, State.oct_setF, State.oct_setOct_same, Bool.or_true]
  · rw [State.oct_setF, State.setOctState, State.oct_setF, State.oct_setOct_same]

/-- A bound of step 4 that passes sends the octet back to its last rung, with one more attempt counted. -/
theorem stepTimeout_back (hon : s.on = true) (ho : o < 64) (hstep : (s.oct o).step = .clock) (hback : (s.oct o).back = false) :
    ∃ t, exec (.ladderStepTimeout o) s = .next t ∧ OctetOnly o s t ∧ (t.oct o).tries = (s.oct o).tries + 1 ∧ (t.oct o).back = true ∧
      (t.oct o).goal = (s.oct o).r ∧ (t.oct o).step = .propose := by
  have hi : exec (.ladderStepTimeout o) s = whenOn s fun u => if o = 64 then u.linkTimeout else u.stepTimeout o := rfl
  obtain ⟨y, hy⟩ : ∃ y : OctSt, { s.oct o with tries := (s.oct o).tries + 1, failed := 0, back := true } = y := ⟨_, rfl⟩
  have hexec : exec (.ladderStepTimeout o) s = .next ((s.setOct o y).sendPropose o (s.oct o).r) := by
    rw [hi, whenOn_on hon, if_neg ho.ne, State.stepTimeout, hstep]
    simp only [State.attemptFail, hback, Bool.false_eq_true, if_false]
    rw [← hy]
  obtain ⟨honly, -, tag, seq, x, todo, waking, woken, hoct⟩ := sendPropose_proposes (s.setOct o y) o (s.oct o).r
  refine ⟨_, hexec, ((OctetOnly.refl o s).setOct y).trans honly, ?_, ?_, ?_, ?_⟩
  · rw [hoct, State.oct_setOct_same, ← hy]
  · rw [hoct, State.oct_setOct_same, ← hy]
  · rw [hoct]
  · rw [hoct]

/-- An octet DOWN tries step 0 again, its lanes taken back. -/
theorem octetDownRetry_retries (hon : s.on = true) (ho : o < 64) (hdown : s.octState o = ocDown) (hstep : (s.oct o).step = .idle)
    (hretry : (s.oct o).retry = true) :
    ∃ t, exec (.octetDownRetry o) s = .next t ∧ OctetOnly o s t ∧ t.octState o = ocL0Lock ∧ (t.oct o).step = .lock0 ∧ (t.oct o).tries = 0 ∧
      ∀ j < 8, t.flag (SL_LANE_STAT o j) SL_LANE_STAT_EXCLUDED = false := by
  have hi : exec (.octetDownRetry o) s = whenOn s fun u => if o = 64 then u.linkRetry else
    if u.octState o = ocDown ∧ (u.oct o).step = .idle ∧ (u.oct o).retry = true then
      ((unexclude u o).setOct o { u.oct o with step := .lock0, retry := false, tries := 0, fck := false, r := 0, back := false }).setOctState o ocL0Lock
    else u := rfl
  refine ⟨((unexclude s o).setOct o { s.oct o with step := .lock0, retry := false, tries := 0, fck := false, r := 0, back := false }).setOctState o ocL0Lock,
    by rw [hi, whenOn_on hon, if_neg ho.ne, if_pos ⟨hdown, hstep, hretry⟩], ((OctetOnly.refl o s).unexclude.setOct _).setOctState _,
    octState_setOctState _ _ (by decide), ?_, ?_, fun k hk => ?_⟩
  · rw [State.setOctState, State.oct_setF, State.oct_setOct_same]
  · rw [State.setOctState, State.oct_setF, State.oct_setOct_same]
  · rw [State.setOctState, State.flag_of_reg (State.reg_setF_ne _ _ _ (laneStat_ne_octStat o k o)), ← excluded_unexclude s o hk]
    exact State.flag_of_reg (State.reg_setOct _ _ _ _) _

/-- Settles O12: each event of the ladder is one of its operations on the octet, which leaves every other octet and lane as it stands. -/
theorem ladderClimbsFailsAndRetries : Obligations.LadderClimbsFailsAndRetries := by
  unfold Obligations.LadderClimbsFailsAndRetries
  intro s o hon ho x octet unlocked
  refine ⟨fun h => ?_, fun hstep hg => ?_, fun hstep hclean => ⟨fun hg hx ht ha hw => ?_, fun hg => ?_⟩, fun hstep hfck => ?_, fun hstep hback => ?_,
    fun hdown hstep hretry => ?_⟩
  · obtain ⟨t, ht, honly, hrest⟩ := ladderStart_begins hon h
    exact ⟨t, ht, honly.onlyOctet, hrest⟩
  · obtain ⟨t, ht, honly, hrest⟩ := rungSwitch_switches hon ho hstep hg
    exact ⟨t, ht, honly.onlyOctet, hrest⟩
  · obtain ⟨t, ht, honly, hrest⟩ := dwellPassed_proposes hon ho hstep hclean hg hx ht ha hw
    exact ⟨t, ht, honly.onlyOctet, hrest⟩
  · obtain ⟨t, ht, honly, hrest⟩ := dwellPassed_ends hon ho hstep hclean hg
    exact ⟨t, ht, honly.onlyOctet, hrest⟩
  · obtain ⟨t, ht, honly, hrest⟩ := stepTimeout_down hon ho hstep hfck
    exact ⟨t, ht, honly.onlyOctet, hrest⟩
  · obtain ⟨t, ht, honly, hrest⟩ := stepTimeout_back hon ho hstep hback
    exact ⟨t, ht, honly.onlyOctet, hrest⟩
  · obtain ⟨t, ht, honly, hrest⟩ := octetDownRetry_retries hon ho hdown hstep hretry
    exact ⟨t, ht, honly.onlyOctet, hrest⟩

end Sys2Proof.Machine
end

-- ==== Sample lanes: replies leave them as they are ====
section

namespace Sys2Proof.Machine

variable {s t u : State}

/-- The lanes and octets, and the ring of released samples with its write position, stand as they did. -/
structure SamplesKept (s t : State) : Prop where
  sl : t.sl = s.sl
  w : t.md.w = s.md.w
  store : t.md.store = s.md.store

theorem SamplesKept.refl (s : State) : SamplesKept s s := ⟨rfl, rfl, rfl⟩

theorem SamplesKept.trans (h : SamplesKept s t) (h' : SamplesKept t u) : SamplesKept s u :=
  ⟨h'.sl.trans h.sl, h'.w.trans h.w, h'.store.trans h.store⟩

/-- An operation that touches neither the lanes nor the slices keeps the samples. -/
theorem SamplesKept.congr (h : SamplesKept s t) (hsl : u.sl = t.sl) (hmd : u.md = t.md) : SamplesKept s u :=
  h.trans ⟨hsl, congrArg MdSt.w hmd, congrArg MdSt.store hmd⟩

theorem SamplesKept.ite {c : Prop} [Decidable c] (ht : SamplesKept s t) (hu : SamplesKept s u) : SamplesKept s (if c then t else u) := by
  split
  · exact ht
  · exact hu

theorem SamplesKept.foldl {β : Type} {f : State → β → State} {l : List β} (h : SamplesKept s t)
    (hf : ∀ u b, SamplesKept s u → SamplesKept s (f u b)) : SamplesKept s (l.foldl f t) :=
  List.foldlRecOn l f h fun u hu b _ => hf u b hu

/-! ### Registers, interrupts and the log -/

theorem SamplesKept.setReg (h : SamplesKept s t) (a : Nat) (v : Word) : SamplesKept s (t.setReg a v) := h.congr (t.setReg_sl _ _) (t.setReg_md _ _)
theorem SamplesKept.setReg64 (h : SamplesKept s t) (a v : Nat) : SamplesKept s (t.setReg64 a v) := h.congr (t.setReg64_sl _ _) (t.setReg64_md _ _)
theorem SamplesKept.setF (h : SamplesKept s t) (a : Nat) (f : Fld) (v : Nat) : SamplesKept s (t.setF a f v) := h.congr (t.setF_sl _ _ _) (t.setF_md _ _ _)
theorem SamplesKept.setFB (h : SamplesKept s t) (a : Nat) (f : Fld) (i : Nat) (b : Bool) : SamplesKept s (t.setFB a f i b) :=
  h.congr (t.setFB_sl _ _ _ _) (t.setFB_md _ _ _ _)
theorem SamplesKept.setSeenB (h : SamplesKept s t) (a : Nat) (f : Fld) (i : Nat) : SamplesKept s (t.setSeenB a f i) :=
  h.congr (t.setSeenB_sl _ _ _) (t.setSeenB_md _ _ _)
theorem SamplesKept.bump (h : SamplesKept s t) (a : Nat) : SamplesKept s (t.bump a) := h.congr (t.bump_sl _) (t.bump_md _)
theorem SamplesKept.bumpBy (h : SamplesKept s t) (a : Nat) (f : Fld) (n : Nat) : SamplesKept s (t.bumpBy a f n) :=
  h.congr (t.bumpBy_sl _ _ _) (t.bumpBy_md _ _ _)
theorem SamplesKept.raise (h : SamplesKept s t) (i : Nat) : SamplesKept s (t.raise i) := h.congr (t.raise_sl _) (t.raise_md _)
theorem SamplesKept.seen (h : SamplesKept s t) (a : Nat) (f : Fld) (i : Nat) : SamplesKept s (t.seen a f i) := h.congr (t.seen_sl _ _ _) (t.seen_md _ _ _)
theorem SamplesKept.emit (h : SamplesKept s t) (x : Out) : SamplesKept s (t.emit x) := h.congr (t.emit_sl _) (t.emit_md _)
theorem SamplesKept.draw (h : SamplesKept s t) : SamplesKept s t.draw := h.congr t.draw_sl t.draw_md
theorem SamplesKept.memWrite (h : SamplesKept s t) (a : Nat) (bs : List Byte) : SamplesKept s (t.memWrite a bs) :=
  h.congr (t.memWrite_sl _ _) (t.memWrite_md _ _)
theorem SamplesKept.logEvent (h : SamplesKept s t) (code sev : Nat) (d : List Word) : SamplesKept s (t.logEvent code sev d) :=
  h.congr (t.logEvent_sl _ _ _) (t.logEvent_md _ _ _)

/-! ### Ports and the Miltia link -/

theorem SamplesKept.setPort (h : SamplesKept s t) (n : Nat) (p : PortSt) : SamplesKept s (t.setPort n p) := h.congr rfl rfl

theorem SamplesKept.stampTx (h : SamplesKept s t) (n : Nat) (f : TxFrame) : SamplesKept s (t.stampTx n f) := by
  unfold State.stampTx
  split
  · exact h
  · exact h.congr rfl rfl

theorem SamplesKept.txBegin (h : SamplesKept s t) (n c : Nat) (f : TxFrame) (cut : Option TxFrame) : SamplesKept s (t.txBegin n c f cut) :=
  SamplesKept.stampTx (h.setPort _ _) _ _

theorem SamplesKept.txStart (h : SamplesKept s t) (n : Nat) : SamplesKept s (t.txStart n) := by
  unfold State.txStart
  dsimp only
  refine .ite h ?_
  split
  · exact .ite ((h.txBegin _ _ _ _).bump _) h
  · exact h
  · exact h.txBegin _ _ _ _
  · exact h.setPort _ _
  · split
    · exact h
    · exact h.txBegin _ _ _ _

theorem SamplesKept.c0Wait (h : SamplesKept s t) (n : Nat) (f : TxFrame) : SamplesKept s (t.c0Wait n f) := .ite (h.setPort _ _) (h.bump _)

theorem SamplesKept.txPut (h : SamplesKept s t) (n : Nat) (f : TxFrame) : SamplesKept s (t.txPut n f) := SamplesKept.txStart (h.setPort _ _) n

theorem SamplesKept.txQueue (h : SamplesKept s t) (n : Nat) (f : TxFrame) : SamplesKept s (t.txQueue n f) :=
  .ite (h.c0Wait n f) (.ite (SamplesKept.txStart (h.setPort _ _) n) (h.txPut n f))

theorem SamplesKept.mlEmit (h : SamplesKept s t) (b : MlBlock) : SamplesKept s (t.mlEmit b) :=
  SamplesKept.emit (t := { t with ml := { t.ml with ackDue := false } }) (h.congr rfl rfl) _

theorem SamplesKept.mlSend (h : SamplesKept s t) (m : MlMsg) : SamplesKept s (t.mlSend m) :=
  .ite (SamplesKept.foldl (h.congr rfl rfl) fun _ b hu => hu.mlEmit b) (h.congr rfl rfl)

theorem SamplesKept.deltaSend (h : SamplesKept s t) : SamplesKept s t.deltaSend := .ite (h.mlSend _) h

/-! ### Replies -/

theorem SamplesKept.slotReply (h : SamplesKept s t) (k : Nat) (r : Reply) : SamplesKept s (t.slotReply k r) := by
  have h1 : SamplesKept s ((t.bufWrite (replySlot k) r.bytes).setSeenB CP_MB_STAT CP_MB_STAT_REPLY k) :=
    SamplesKept.setSeenB (t := t.bufWrite (replySlot k) r.bytes) (h.congr rfl rfl) _ _ _
  exact .ite (h1.raise _) h1

theorem SamplesKept.sendNow (h : SamplesKept s t) (x : Transport) (query : Bool) (r : Reply) : SamplesKept s (t.sendNow x query r) := by
  cases x with
  | slot k => exact h.slotReply k r
  | udp n mac ip port => exact .ite (h.draw.txQueue _ _) h
  | miltia => exact .ite (h.mlSend _) h
  | script => exact h.congr rfl rfl
  | muted => exact h

theorem SamplesKept.cacheReply (h : SamplesKept s t) (r : Reply) (script : Bool) : SamplesKept s (t.cacheReply r script) :=
  .ite (h.congr rfl rfl) (h.congr rfl rfl)

theorem SamplesKept.answer (h : SamplesKept s t) (op : Nat) (c : Cmd) (query : Bool) (r : Reply) (changed : Bool) :
    SamplesKept s (t.answer op c query r changed) := by
  have h1 : SamplesKept s (if query then t else t.cacheReply r (c.transport == .script)) := .ite h (h.cacheReply _ _)
  unfold State.answer
  generalize (if query then t else t.cacheReply r (c.transport == .script)) = t1 at h1
  exact .ite (.ite (h1.deltaSend.congr rfl rfl) (h1.deltaSend.sendNow _ _ _)) (h1.sendNow _ _ _)

end Sys2Proof.Machine
end

-- ==== Sample lanes: control exchanges ====
section

namespace Sys2Proof.Machine

variable {s t u : State} {o j : Nat} {raw : List Byte}

/-- Of what the sample lanes touch, the lanes, octets and registers alone. -/
theorem Kept.plain (h : Kept s t) (ho : t.out = s.out) (hf : t.free = s.free) (hfr : t.fresh = s.fresh) (hmd : t.md = s.md) :
    t = { s with sl := t.sl, regs := t.regs } :=
  Eq.trans h (by rw [ho, hf, hfr, hmd])

/-- An octet with nothing to send, and no wake to end, sends nothing. -/
theorem ctlNext_idle (hx : (s.oct o).x = none) (ht : (s.oct o).todo = []) (hw : (s.oct o).woken = false) : s.ctlNext o = s := by
  rw [State.ctlNext]
  simp only [hx, ht, hw, Bool.false_eq_true, if_false]

/-! ### PRBS mode of the lanes (R97) -/

/-- One lane enters PRBS mode where it is checked, else it leaves it. -/
def prbsLane (en : Bool) (o : Nat) (s : State) (j : Nat) : State :=
  if en && s.rfb (SL_OCT_PRBS o) SL_OCT_PRBS_CHK_LANES j then
    (s.loseLock false o j).setLane o j { (s.loseLock false o j).lane o j with prbs := some [], wait := true }
  else s.setLane o j { s.lane o j with prbs := none }

theorem prbsLanes_eq (s : State) (o : Nat) : s.prbsLanes o = (List.range 8).foldl (prbsLane (s.flag (SL_OCT_PRBS o) SL_OCT_PRBS_CHK_EN) o) s := (rfl)

theorem prbsLane_off (s : State) (o j : Nat) : prbsLane false o s j = s.setLane o j { s.lane o j with prbs := none } := (rfl)

/-- Without CHK_EN every lane leaves the checker, and nothing else changes. -/
theorem prbsLanes_off (hen : s.flag (SL_OCT_PRBS o) SL_OCT_PRBS_CHK_EN = false) :
    (∀ k < 8, ((s.prbsLanes o).lane o k).prbs = none) ∧ ∃ ls, s.prbsLanes o = { s with sl := { s.sl with lanes := ls } } := by
  rw [prbsLanes_eq, hen]
  constructor
  · intro k hk
    refine foldl_local (P := fun k u => (u.lane o k).prbs = none) (Q := fun _ _ => True) List.nodup_range (fun _ _ => trivial)
      (fun u i _ _ => by rw [prbsLane_off, State.lane_setLane_same]) (fun _ _ _ _ _ _ => trivial) (fun u i _ k hki h => ?_) (List.mem_range.2 hk)
    rw [prbsLane_off, State.lane_setLane_ne _ _ (by omega), h]
  · refine List.foldlRecOn (List.range 8) _ (motive := fun u : State => ∃ ls, u = { s with sl := { s.sl with lanes := ls } }) ⟨_, rfl⟩ ?_
    rintro u ⟨ls, hu⟩ k -
    rw [prbsLane_off, State.setLane, hu]
    exact ⟨_, rfl⟩

theorem lanesOnly_prbsLane (s : State) (en : Bool) (o : Nat) (hj : j < 8) : LanesOnly o s (prbsLane en o s j) :=
  .ite (((LanesOnly.refl o s).loseLock hj _).setLane hj _) ((LanesOnly.refl o s).setLane hj _)

theorem lane_loseLock_ne (s : State) (counted : Bool) {p q : Nat} (h : 8 * p + q ≠ 8 * o + j) : (s.loseLock counted o j).lane p q = s.lane p q := by
  cases hl : s.locked o j with
  | false => rw [State.loseLock, if_neg (by rw [hl]; decide)]
  | true =>
    rw [State.lane_of_lanes (congrArg SlSt.lanes (loseLock_sl hl counted)), lockDropped, State.lane_setLane_ne _ _ h, State.outOfService,
      State.lane_setLane_ne _ _ h, State.lane_setFB, State.lane_setF]
    exact State.lane_setLane_ne _ _ h

theorem not_lossReg_octPrbs (o : Nat) : ¬ lossReg o (SL_OCT_PRBS o) := by
  rintro (h | ⟨j, hj, h | h | h⟩) <;> simp only [SL_OCT_PRBS, SL_OCT_STAT, SL_LANE_STAT, SL_LANE_CRCERR, SL_LANE_LOCKLOSS] at h <;> omega

/-- With CHK_EN the checked lanes lose lock and wait for their patterns. -/
theorem prbsLanes_on (hen : s.flag (SL_OCT_PRBS o) SL_OCT_PRBS_CHK_EN = true) {k : Nat} (hk : k < 8)
    (hc : s.rfb (SL_OCT_PRBS o) SL_OCT_PRBS_CHK_LANES k = true) :
    ((s.prbsLanes o).lane o k).prbs = some [] ∧ (s.prbsLanes o).locked o k = false := by
  rw [prbsLanes_eq, hen]
  refine foldl_local (P := fun k u => s.rfb (SL_OCT_PRBS o) SL_OCT_PRBS_CHK_LANES k = true → (u.lane o k).prbs = some [] ∧ u.locked o k = false)
    (Q := fun _ u => u.reg (SL_OCT_PRBS o) = s.reg (SL_OCT_PRBS o)) List.nodup_range (fun _ _ => rfl) (fun u i _ hq hi => ?_)
    (fun u i hi _ _ hq => ?_) (fun u i hi k hki h hck => ?_) (List.mem_range.2 hk) hc
  · rw [prbsLane, Bool.true_and, if_pos (by rw [State.rfb_of_reg hq]; exact hi), State.lane_setLane_same]
    exact ⟨rfl, locked_loseLock u o i false⟩
  · exact ((lanesOnly_prbsLane u true o (List.mem_range.1 hi)).reg _ (not_lossReg_octPrbs o)).trans hq
  · obtain ⟨hp, hl⟩ := h hck
    unfold prbsLane
    split
    · rw [State.lane_setLane_ne _ _ (by omega), lane_loseLock_ne _ _ (by omega)]
      exact ⟨hp, locked_loseLock_false false i hl⟩
    · rw [State.lane_setLane_ne _ _ (by omega)]
      exact ⟨hp, hl⟩

/-! ### Replies (R85, R88) -/

/-- What the octet makes of a control reply. -/
def ctlReply (o : Nat) (s : State) (b : List Byte) : State :=
  let x := s.oct o
  if beAt b 14 2 != crc16 0xFFFF (b.take 14) then s
  else if x.poll == some (beAt b 3 1) && beAt b 2 1 == 8 then
    (s.setOct o { x with poll := none, missed := 0 }).setF (SL_OCT_STAT o) SL_OCT_STAT_CTL_FAULT 0
  else
    match x.x with
    | none => s
    | some m =>
      if m.tag = beAt b 3 1 ∧ m.msg = beAt b 2 1 then
        let s1 := (s.setOct o { x with x := none }).setF (SL_OCT_STAT o) SL_OCT_STAT_CTL_FAULT 0
        (if beAt b 12 1 = 0 then s1.ctlDone o m.why b else s1.ctlFailed o m.why stNotPermitted).ctlNext o
      else s

/-- The octet whose exchange has ended, its CTL_FAULT as given. -/
def exchangeEnded (s : State) (o v : Nat) : State := (s.setOct o { s.oct o with x := none }).setF (SL_OCT_STAT o) SL_OCT_STAT_CTL_FAULT v

theorem Expected.reply (h : Expected s o j raw) (hon : s.on = true) (hk : blockKind (rxBlock s o j raw) = .reply) :
    exec (.controlReplyReceived o j raw) s = .next (ctlReply o (headed s o j raw) (rxBlock s o j raw)) :=
  h.exec_eq hon (body := ctlReply o) (k := (· == .reply)) rfl (by rw [hk]; rfl)

theorem ctlReply_bad {b : List Byte} (h : beAt b 14 2 ≠ crc16 0xFFFF (b.take 14)) : ctlReply o s b = s := by
  simp only [ctlReply, bne_iff_ne, h, ne_eq, not_false_eq_true, if_true]

theorem ctlReply_poll {b : List Byte} (h : beAt b 14 2 = crc16 0xFFFF (b.take 14)) (hp : (s.oct o).poll = some (beAt b 3 1)) (hm : beAt b 2 1 = 8) :
    ctlReply o s b = (s.setOct o { s.oct o with poll := none, missed := 0 }).setF (SL_OCT_STAT o) SL_OCT_STAT_CTL_FAULT 0 := by
  simp only [ctlReply, h, hp, hm, bne_self_eq_false, beq_self_eq_true, Bool.and_self, Bool.false_eq_true, if_true, if_false]

/-- A reply with a correct BCRC accepts the outstanding message `m` of an octet that awaits no STATUS and has nothing else to send. -/
structure Accepted (s : State) (o : Nat) (m : CtlMsg) (b : List Byte) : Prop where
  bcrc : beAt b 14 2 = crc16 0xFFFF (b.take 14)
  outstanding : (s.oct o).x = some m
  poll : (s.oct o).poll = none
  todo : (s.oct o).todo = []
  woken : (s.oct o).woken = false
  tag : m.tag = beAt b 3 1
  msg : m.msg = beAt b 2 1
  result : beAt b 12 1 = 0

theorem Accepted.of_oct {b : List Byte} {m : CtlMsg} (h : Accepted s o m b) (e : t.oct o = s.oct o) : Accepted t o m b :=
  ⟨h.bcrc, e ▸ h.outstanding, e ▸ h.poll, e ▸ h.todo, e ▸ h.woken, h.tag, h.msg, h.result⟩

/-- The reply ends the exchange. -/
theorem Accepted.ctlReply_eq {b : List Byte} {m : CtlMsg} (h : Accepted s o m b) :
    ctlReply o s b = ((exchangeEnded s o 0).ctlDone o m.why b).ctlNext o := by
  have hpoll : ((none : Option Nat) == some (beAt b 3 1)) = false := rfl
  simp only [ctlReply, exchangeEnded, h.bcrc, h.outstanding, h.poll, h.tag, h.msg, h.result, hpoll, bne_self_eq_false, Bool.false_and,
    Bool.false_eq_true, and_self, if_true, if_false]

theorem kept_exchangeEnded (s : State) (o v : Nat) : Kept s (exchangeEnded s o v) := (kept_setOct _ _ _).trans (kept_setF _ _ _ _)

theorem oct_exchangeEnded (s : State) (o v : Nat) : (exchangeEnded s o v).oct o = { s.oct o with x := none } := by
  rw [exchangeEnded, State.oct_setF, State.oct_setOct_same]

theorem reg_exchangeEnded (s : State) {o a : Nat} (v : Nat) (ha : a ≠ SL_OCT_STAT o) : (exchangeEnded s o v).reg a = s.reg a := by
  rw [exchangeEnded, State.reg_setF_ne _ _ _ ha, State.reg_setOct]

theorem fault_exchangeEnded (s : State) (o v : Nat) : (exchangeEnded s o v).flag (SL_OCT_STAT o) SL_OCT_STAT_CTL_FAULT = (v % 2 == 1) :=
  State.flag_setF_same _ _ _ _ (by decide)

theorem exchangeEnded_silent (s : State) (o v : Nat) :
    (exchangeEnded s o v).out = s.out ∧ (exchangeEnded s o v).free = s.free ∧ (exchangeEnded s o v).fresh = s.fresh ∧ (exchangeEnded s o v).md = s.md := by
  unfold exchangeEnded
  rw [State.setF_out, State.setF_free, State.setF_fresh, State.setF_md]
  exact ⟨rfl, rfl, rfl, rfl⟩

/-- An exchange of PRBS that ends puts the checked lanes under the checker, or the lanes back; its octet has nothing else to send. -/
theorem prbs_ends {v : Nat} (ht : (s.oct o).todo = []) (hw : (s.oct o).woken = false) :
    ((exchangeEnded s o v).prbsLanes o).ctlNext o = (exchangeEnded s o v).prbsLanes o ∧
      (((exchangeEnded s o v).prbsLanes o).oct o) = { s.oct o with x := none } ∧
      ((exchangeEnded s o v).prbsLanes o).flag (SL_OCT_STAT o) SL_OCT_STAT_CTL_FAULT = (v % 2 == 1) ∧
      Kept s ((exchangeEnded s o v).prbsLanes o) ∧ ((exchangeEnded s o v).prbsLanes o).out = s.out ∧
      ((exchangeEnded s o v).prbsLanes o).free = s.free := by
  have hlanes : LanesOnly o (exchangeEnded s o v) ((exchangeEnded s o v).prbsLanes o) := (LanesOnly.refl o _).prbsLanes
  have hoct := (hlanes.oct o).trans (oct_exchangeEnded s o v)
  obtain ⟨hout, hfree, -, -⟩ := exchangeEnded_silent s o v
  refine ⟨ctlNext_idle (by rw [hoct]) (by rw [hoct, ht]) (by rw [hoct, hw]), hoct, ?_, (kept_exchangeEnded s o v).trans hlanes.kept,
    hlanes.out.trans hout, hlanes.free.trans hfree⟩
  rw [State.flag_of_rf (hlanes.stat _ (.inl (by decide)) (.inl (by decide))), fault_exchangeEnded]

theorem kept_headed (s : State) (o j : Nat) (raw : List Byte) : Kept s (headed s o j raw) := kept_setLane _ _ _ _

theorem oct_headed (s : State) (o j : Nat) (raw : List Byte) (p : Nat) : (headed s o j raw).oct p = s.oct p := State.oct_setLane _ _ _ _ _

theorem reg_headed (s : State) (o j : Nat) (raw : List Byte) (a : Nat) : (headed s o j raw).reg a = s.reg a := State.reg_setLane _ _ _ _ _

theorem headed_silent (s : State) (o j : Nat) (raw : List Byte) : (headed s o j raw).out = s.out ∧ (headed s o j raw).free = s.free ∧
    (headed s o j raw).fresh = s.fresh ∧ (headed s o j raw).md = s.md := ⟨rfl, rfl, rfl, rfl⟩

theorem octPrbs_ne_octStat (o : Nat) : SL_OCT_PRBS o ≠ SL_OCT_STAT o := by
  unfold SL_OCT_PRBS SL_OCT_STAT
  omega

/-- A reply that fails its BCRC enters its lane, and no exchange. -/
theorem Expected.reply_bad (h : Expected s o j raw) (hon : s.on = true) (hk : blockKind (rxBlock s o j raw) = .reply)
    (hc : beAt (rxBlock s o j raw) 14 2 ≠ crc16 0xFFFF ((rxBlock s o j raw).take 14)) :
    exec (.controlReplyReceived o j raw) s = .next (headed s o j raw) := by
  rw [h.reply hon hk, ctlReply_bad hc]

/-- A reply that accepts PRBS (R97). -/
theorem Expected.reply_prbs (h : Expected s o j raw) (hon : s.on = true) (hk : blockKind (rxBlock s o j raw) = .reply) {m : CtlMsg}
    (ha : Accepted s o m (rxBlock s o j raw)) (hwhy : m.why = .prbs) :
    ∃ t, exec (.controlReplyReceived o j raw) s = .next t ∧ (t.oct o).x = none ∧ (t.oct o).missed = (s.oct o).missed ∧
      t.flag (SL_OCT_STAT o) SL_OCT_STAT_CTL_FAULT = false ∧ Kept s t ∧ t.out = s.out ∧ t.free = s.free ∧
      (s.flag (SL_OCT_PRBS o) SL_OCT_PRBS_CHK_EN = false → (∀ k < 8, (t.lane o k).prbs = none) ∧ t.md = s.md ∧ ∀ a, a ≠ SL_OCT_STAT o → t.reg a = s.reg a) ∧
      (s.flag (SL_OCT_PRBS o) SL_OCT_PRBS_CHK_EN = true → ∀ k < 8, s.rfb (SL_OCT_PRBS o) SL_OCT_PRBS_CHK_LANES k = true →
        (t.lane o k).prbs = some [] ∧ t.locked o k = false) := by
  obtain ⟨u, hu⟩ : ∃ u, headed s o j raw = u := ⟨_, rfl⟩
  have hoct : u.oct o = s.oct o := hu ▸ oct_headed s o j raw o
  have hreg : ∀ a, u.reg a = s.reg a := hu ▸ reg_headed s o j raw
  have hkept : Kept s u := hu ▸ kept_headed s o j raw
  obtain ⟨hout, hfree, -, hmd⟩ := headed_silent s o j raw
  rw [hu] at hout hfree hmd
  obtain ⟨hidle, hend, hfault, hkept', hout', hfree'⟩ := prbs_ends (s := u) (o := o) (v := 0) (by rw [hoct, ha.todo]) (by rw [hoct, ha.woken])
  have hprbs : (exchangeEnded u o 0).reg (SL_OCT_PRBS o) = s.reg (SL_OCT_PRBS o) := (reg_exchangeEnded u 0 (octPrbs_ne_octStat o)).trans (hreg _)
  refine ⟨(exchangeEnded u o 0).prbsLanes o, ?_, by rw [hend], by rw [hend, hoct], hfault, hkept.trans hkept', hout'.trans hout, hfree'.trans hfree,
    fun hen => ?_, fun hen k hk hck => ?_⟩
  · rw [h.reply hon hk, hu, (ha.of_oct hoct).ctlReply_eq, hwhy]
    exact congrArg _ hidle
  · obtain ⟨hnone, ls, heq⟩ := prbsLanes_off ((State.flag_of_reg hprbs _).trans hen)
    obtain ⟨-, -, -, hmd'⟩ := exchangeEnded_silent u o 0
    refine ⟨hnone, ?_, fun a ha => ?_⟩
    · rw [heq]
      exact hmd'.trans hmd
    · rw [← hreg a, ← reg_exchangeEnded u 0 ha, heq]
      rfl
  · exact prbsLanes_on ((State.flag_of_reg hprbs _).trans hen) hk ((State.rfb_of_reg hprbs _ k).trans hck)

theorem ctlDone_access (s : State) (o : Nat) (c : Cmd) (b : List Byte) :
    s.ctlDone o (.access c) b = s.answer 0x0205 c false (replyTo 0x0205 c stOk 0 0 [w32 (beAt b 6 4)]) true := (rfl)

/-- A reply that accepts an ADC access answers its command with the word read (R101). -/
theorem Expected.reply_access (h : Expected s o j raw) (hon : s.on = true) (hk : blockKind (rxBlock s o j raw) = .reply) {m : CtlMsg} {c : Cmd}
    (ha : Accepted s o m (rxBlock s o j raw)) (hwhy : m.why = .access c) :
    ∃ e : State, e = { s with sl := e.sl, regs := e.regs } ∧ (e.oct o).x = none ∧ e.flag (SL_OCT_STAT o) SL_OCT_STAT_CTL_FAULT = false ∧
      (∀ a, a ≠ SL_OCT_STAT o → e.reg a = s.reg a) ∧ exec (.controlReplyReceived o j raw) s =
        .next (e.answer 0x0205 c false (replyTo 0x0205 c stOk 0 0 [w32 (beAt (rxBlock s o j raw) 6 4)]) true) := by
  obtain ⟨u, hu⟩ : ∃ u, headed s o j raw = u := ⟨_, rfl⟩
  have hoct : u.oct o = s.oct o := hu ▸ oct_headed s o j raw o
  have hkept : Kept s u := hu ▸ kept_headed s o j raw
  obtain ⟨hout, hfree, hfresh, hmd⟩ := headed_silent s o j raw
  rw [hu] at hout hfree hfresh hmd
  obtain ⟨hout', hfree', hfresh', hmd'⟩ := exchangeEnded_silent u o 0
  have hend := oct_exchangeEnded u o 0
  refine ⟨exchangeEnded u o 0, (hkept.trans (kept_exchangeEnded u o 0)).plain (hout'.trans hout) (hfree'.trans hfree) (hfresh'.trans hfresh)
    (hmd'.trans hmd), by rw [hend], fault_exchangeEnded u o 0, fun a ha => (reg_exchangeEnded u 0 ha).trans ?_, ?_⟩
  · rw [← hu, reg_headed]
  · rw [h.reply hon hk, hu, (ha.of_oct hoct).ctlReply_eq, hwhy, ctlDone_access]
    have hsl := ((SamplesKept.refl (exchangeEnded u o 0)).answer 0x0205 c false
      (replyTo 0x0205 c stOk 0 0 [w32 (beAt (rxBlock s o j raw) 6 4)]) true).sl
    have hans := (State.oct_of_octs (congrArg SlSt.octs hsl) o).trans hend
    exact congrArg _ (ctlNext_idle (by rw [hans]) (by rw [hans, hoct, ha.todo]) (by rw [hans, hoct, ha.woken]))

/-- A reply to the STATUS awaited (R88). -/
theorem Expected.reply_poll (h : Expected s o j raw) (hon : s.on = true) (hk : blockKind (rxBlock s o j raw) = .reply)
    (hp : (s.oct o).poll = some (beAt (rxBlock s o j raw) 3 1)) (hm : beAt (rxBlock s o j raw) 2 1 = 8)
    (hc : beAt (rxBlock s o j raw) 14 2 = crc16 0xFFFF ((rxBlock s o j raw).take 14)) :
    ∃ t, exec (.controlReplyReceived o j raw) s = .next t ∧ (t.oct o).poll = none ∧ (t.oct o).missed = 0 ∧ (t.oct o).x = (s.oct o).x ∧
      t.flag (SL_OCT_STAT o) SL_OCT_STAT_CTL_FAULT = false ∧ t = { s with sl := t.sl, regs := t.regs } ∧
      ∀ a, a ≠ SL_OCT_STAT o → t.reg a = s.reg a := by
  obtain ⟨u, hu⟩ : ∃ u, headed s o j raw = u := ⟨_, rfl⟩
  have hoct : u.oct o = s.oct o := hu ▸ oct_headed s o j raw o
  have hkept : Kept s u := hu ▸ kept_headed s o j raw
  obtain ⟨hout, hfree, hfresh, hmd⟩ := headed_silent s o j raw
  rw [hu] at hout hfree hfresh hmd
  have hexec := (h.reply hon hk).trans (congrArg _ (by rw [hu, ctlReply_poll hc (by rw [hoct, hp]) hm]))
  refine ⟨_, hexec, ?_, ?_, ?_, State.flag_setF_same _ _ _ 0 (by decide),
    (hkept.trans ((kept_setOct _ _ _).trans (kept_setF _ _ _ _))).plain ?_ ?_ ?_ ?_, fun a ha => ?_⟩
  · rw [State.oct_setF, State.oct_setOct_same]
  · rw [State.oct_setF, State.oct_setOct_same]
  · rw [State.oct_setF, State.oct_setOct_same, hoct]
  · rw [State.setF_out]
    exact hout
  · rw [State.setF_free]
    exact hfree
  · rw [State.setF_fresh]
    exact hfresh
  · rw [State.setF_md]
    exact hmd
  · rw [State.reg_setF_ne _ _ _ ha, State.reg_setOct, ← hu, reg_headed]

/-! ### Repeats (R86) -/

theorem ctlPut_eq (s : State) (o : Nat) (b : Nat → List Byte) :
    (s.ctlPut o b).oct o = { s.oct o with seq := ((s.oct o).seq + 1) % 8 } ∧ (s.ctlPut o b).out = .ctl o (b (s.oct o).seq) :: s.out :=
  ⟨by rw [State.ctlPut, State.oct_emit, State.oct_setOct_same], rfl⟩

/-- The message whose reply is late is sent again, up to the fourth attempt. -/
theorem replyTimeout_repeats (hon : s.on = true) (ho : o < 64) {m : CtlMsg} (hx : (s.oct o).x = some m) (ha : m.attempt < 4) :
    ∃ t, exec (.controlReplyTimeout o) s = .next t ∧ (t.oct o).x = some { m with attempt := m.attempt + 1 } ∧
      t.out = .ctl o (ctlBlock (s.oct o).seq m.msg m.tag m.args) :: s.out ∧
      t.reg (SL_OCT_CTLRETRY o) = w32 (min (2 ^ 32 - 1) ((s.reg (SL_OCT_CTLRETRY o)).toNat + 1)) ∧
      t = { s with sl := t.sl, regs := t.regs, out := t.out, fresh := t.fresh } ∧ ∀ a, a ≠ SL_OCT_CTLRETRY o → t.reg a = s.reg a := by
  have hi : exec (.controlReplyTimeout o) s = execControlReplyTimeout o s := rfl
  obtain ⟨u, hu⟩ : ∃ u, (s.setOct o { s.oct o with x := some { m with attempt := m.attempt + 1 } }).bump (SL_OCT_CTLRETRY o) = u := ⟨_, rfl⟩
  have hexec : exec (.controlReplyTimeout o) s = .next (u.ctlPut o fun q => ctlBlock q m.msg m.tag m.args) := by
    rw [hi, execControlReplyTimeout, whenOn_on hon, if_neg ho.ne]
    simp only [hx, ha, if_true, hu]
  have hoct : u.oct o = { s.oct o with x := some { m with attempt := m.attempt + 1 } } := by rw [← hu, State.oct_bump, State.oct_setOct_same]
  have hctl : CtlOnly o u (u.ctlPut o fun q => ctlBlock q m.msg m.tag m.args) := (CtlOnly.refl o u).ctlPut _
  have hkept : Kept s u := hu ▸ (kept_setOct _ _ _).trans (kept_bump _ _)
  obtain ⟨hputOct, hputOut⟩ := ctlPut_eq u o fun q => ctlBlock q m.msg m.tag m.args
  have hout : u.out = s.out := hu ▸ State.bump_out _ _
  have hfree : u.free = s.free := hu ▸ State.bump_free _ _
  have hmd : u.md = s.md := hu ▸ State.bump_md _ _
  refine ⟨_, hexec, by rw [hputOct, hoct], by rw [hputOut, hoct, hout], ?_, ?_, fun a ha => ?_⟩
  · rw [hctl.reg, ← hu, State.reg_bump_same, State.reg_setOct]
  · refine Eq.trans (hkept.trans hctl.kept) ?_
    rw [hctl.free, hfree, hctl.eq, hmd]
  · rw [hctl.reg, ← hu, State.reg_bump_ne _ ha, State.reg_setOct]

/-- After the fourth attempt PRBS is given up. -/
theorem replyTimeout_gives_up (hon : s.on = true) (ho : o < 64) {m : CtlMsg} (hx : (s.oct o).x = some m) (ha : 4 ≤ m.attempt) (hwhy : m.why = .prbs)
    (htodo : (s.oct o).todo = []) (hw : (s.oct o).woken = false) : ∃ t, exec (.controlReplyTimeout o) s = .next t ∧ (t.oct o).x = none ∧
      t.flag (SL_OCT_STAT o) SL_OCT_STAT_CTL_FAULT = true ∧ Kept s t ∧ t.out = s.out ∧ t.free = s.free := by
  have hi : exec (.controlReplyTimeout o) s = execControlReplyTimeout o s := rfl
  obtain ⟨hidle, hend, hfault, hkept, hout, hfree⟩ := prbs_ends (o := o) (v := 1) htodo hw
  refine ⟨(exchangeEnded s o 1).prbsLanes o, ?_, by rw [hend], hfault, hkept, hout, hfree⟩
  rw [hi, execControlReplyTimeout, whenOn_on hon, if_neg ho.ne]
  simp only [hx, Nat.not_lt.2 ha, hwhy, State.ctlFailed, if_false]
  exact congrArg _ hidle

/-! ### STATUS (R88, R99) -/

/-- Control messages have been sent, and what the octets keep of them has changed; nothing else has. -/
def OctsOnly (s t : State) : Prop := t = { s with sl := { s.sl with octs := t.sl.octs }, out := t.out }

theorem OctsOnly.trans (h : OctsOnly s t) (h' : OctsOnly t u) : OctsOnly s u := by
  unfold OctsOnly at *
  rw [h', h]

theorem OctsOnly.reg (h : OctsOnly s t) (a : Nat) : t.reg a = s.reg a := by
  have hr : t.regs = s.regs := by rw [h]
  exact congrArg (tblGet 0 · a) hr

theorem octsOnly_setOct (s : State) (o : Nat) (x : OctSt) : OctsOnly s (s.setOct o x) := (rfl)

theorem octsOnly_ctlPut (s : State) (o : Nat) (b : Nat → List Byte) : OctsOnly s (s.ctlPut o b) := (rfl)

theorem CtlOnly.octsOnly (h : CtlOnly o s t) : OctsOnly s t := h.eq

theorem octsOnly_pollOct (s : State) (o : Nat) : OctsOnly s (s.pollOct o) := by
  unfold State.pollOct State.statusNow
  split
  · split
    · exact octsOnly_setOct _ _ _
    · exact (octsOnly_setOct _ _ _).trans (octsOnly_ctlPut _ _ _)
  · rfl

theorem oct_pollOct_ne (s : State) {o p : Nat} (h : p ≠ o) : (s.pollOct o).oct p = s.oct p := by
  unfold State.pollOct State.statusNow State.ctlPut
  split
  · split
    · exact s.oct_setOct_ne _ h
    · rw [State.oct_emit, State.oct_setOct_ne _ _ h, State.oct_setOct_ne _ _ h]
  · rfl

/-- What a poll sends stays sent. -/
theorem mem_out_pollOct {x : Out} (h : x ∈ s.out) (o : Nat) : x ∈ (s.pollOct o).out := by
  unfold State.pollOct
  split
  · split
    · exact h
    · rw [State.statusNow, (ctlPut_eq _ _ _).2]
      exact List.mem_cons_of_mem _ h
  · exact h

/-- A STATUS is polled for: it goes out, or is kept while the control direction wakes. -/
def Polled (s t : State) (p : Nat) : Prop :=
  if s.octState p = ocRunning ∧ s.flag (SL_OCT_CTL p) SL_OCT_CTL_CTL_SLEEP = false then
    if (s.oct p).waking = true then t.oct p = { s.oct p with pollDue := true }
    else (t.oct p).poll = some (s.oct p).tag ∧ (t.oct p).tag = ((s.oct p).tag + 1) % 256 ∧
      Out.ctl p (ctlBlock (s.oct p).seq 0x08 (s.oct p).tag []) ∈ t.out
  else t.oct p = s.oct p

theorem polled_pollOct (s : State) (o : Nat) : Polled s (s.pollOct o) o := by
  unfold Polled State.pollOct
  split
  · split
    · exact s.oct_setOct_same o _
    · obtain ⟨hoct, hout⟩ := ctlPut_eq (s.setOct o { s.oct o with tag := ((s.oct o).tag + 1) % 256, poll := some (s.oct o).tag, pollDue := false }) o
        fun q => ctlBlock q 0x08 (s.oct o).tag []
      rw [State.statusNow, hoct, hout, State.oct_setOct_same]
      exact ⟨rfl, rfl, List.mem_cons_self⟩
  · rfl

/-- A poll depends on its octet and the registers alone, and what follows it leaves it done. -/
theorem Polled.congr {s' t' : State} {p : Nat} (h : Polled s t p) (hs : s'.oct p = s.oct p) (hr : ∀ a, s'.reg a = s.reg a) (ht : t'.oct p = t.oct p)
    (hout : ∀ x ∈ t.out, x ∈ t'.out) : Polled s' t' p := by
  have hst : s'.octState p = s.octState p := State.rf_of_reg (hr _) _
  have hfl : s'.flag (SL_OCT_CTL p) SL_OCT_CTL_CTL_SLEEP = s.flag (SL_OCT_CTL p) SL_OCT_CTL_CTL_SLEEP := State.flag_of_reg (hr _) _
  unfold Polled at *
  rw [hst, hfl, hs, ht]
  split
  next hc =>
    rw [if_pos hc] at h
    split
    next hw => rwa [if_pos hw] at h
    next hw =>
      rw [if_neg hw] at h
      obtain ⟨hpoll, htag, hmem⟩ := h
      exact ⟨hpoll, htag, hout _ hmem⟩
  next hc => rwa [if_neg hc] at h

theorem polled_all (s : State) {p : Nat} (hp : p < 64) : Polled s ((List.range 64).foldl State.pollOct s) p := by
  refine foldl_local (P := fun p u => Polled s u p) (Q := fun p u => u.oct p = s.oct p ∧ OctsOnly s u) List.nodup_range (fun _ _ => ⟨rfl, rfl⟩)
    (fun u k _ hk => ?_) (fun u k _ i hi hq => ?_) (fun u k _ i hi h => ?_) (List.mem_range.2 hp)
  · obtain ⟨hoct, honly⟩ := hk
    exact (polled_pollOct u k).congr hoct.symm (fun a => (honly.reg a).symm) rfl fun _ hx => hx
  · exact ⟨(oct_pollOct_ne u hi).trans hq.1, hq.2.trans (octsOnly_pollOct u k)⟩
  · exact h.congr rfl (fun _ => rfl) (oct_pollOct_ne u hi) fun _ hx => mem_out_pollOct hx k

theorem octsOnly_pollAll (s : State) : OctsOnly s ((List.range 64).foldl State.pollOct s) :=
  List.foldlRecOn (List.range 64) State.pollOct (motive := OctsOnly s) rfl fun u hu k _ => hu.trans (octsOnly_pollOct u k)

theorem statusPoll_polls (hon : s.on = true) : ∃ t, exec .statusPoll s = .next t ∧ t = { s with sl := t.sl, out := t.out } ∧
    t.sl.lanes = s.sl.lanes ∧ ∀ p < 64, Polled s t p := by
  have hi : exec .statusPoll s = whenOn s fun u => (List.range 64).foldl State.pollOct u := rfl
  obtain ⟨t, ht⟩ : ∃ t, (List.range 64).foldl State.pollOct s = t := ⟨_, rfl⟩
  have honly : OctsOnly s t := ht ▸ octsOnly_pollAll s
  refine ⟨t, by rw [hi, whenOn_on hon, ht], ?_, ?_, fun p hp => ht ▸ polled_all s hp⟩ <;> rw [honly]

/-- An unanswered STATUS counts, and the third in a row sets CTL_FAULT. -/
theorem statusTimeout_counts (hon : s.on = true) (hp : (s.oct o).poll.isSome = true) : ∃ t, exec (.statusReplyTimeout o) s = .next t ∧
    (t.oct o).poll = none ∧ (t.oct o).missed = (s.oct o).missed + 1 ∧
    (2 ≤ (s.oct o).missed → t.flag (SL_OCT_STAT o) SL_OCT_STAT_CTL_FAULT = true) ∧ ((s.oct o).missed < 2 → t.regs = s.regs) ∧
    t = { s with sl := t.sl, regs := t.regs } := by
  have hi : exec (.statusReplyTimeout o) s = execStatusReplyTimeout o s := rfl
  obtain ⟨y, hy⟩ : ∃ y : OctSt, { s.oct o with poll := none, missed := (s.oct o).missed + 1 } = y := ⟨_, rfl⟩
  have hexec : exec (.statusReplyTimeout o) s =
      .next (if 3 ≤ (s.oct o).missed + 1 then (s.setOct o y).setF (SL_OCT_STAT o) SL_OCT_STAT_CTL_FAULT 1 else s.setOct o y) := by
    rw [hi, execStatusReplyTimeout, whenOn_on hon, if_pos hp, ← hy]
  by_cases h3 : 3 ≤ (s.oct o).missed + 1
  · rw [if_pos h3] at hexec
    refine ⟨_, hexec, ?_, ?_, fun _ => State.flag_setF_same _ _ _ 1 (by decide), fun h => absurd h3 (by omega),
      ((kept_setOct _ _ _).trans (kept_setF _ _ _ _)).plain (State.setF_out _ _ _ _) (State.setF_free _ _ _ _) (State.setF_fresh _ _ _ _)
        (State.setF_md _ _ _ _)⟩
    · rw [State.oct_setF, State.oct_setOct_same, ← hy]
    · rw [State.oct_setF, State.oct_setOct_same, ← hy]
  · rw [if_neg h3] at hexec
    refine ⟨_, hexec, ?_, ?_, fun h => absurd h3 (by omega), fun _ => rfl, rfl⟩
    · rw [State.oct_setOct_same, ← hy]
    · rw [State.oct_setOct_same, ← hy]

/-- Once its idle blocks are sent, a woken direction sends its first waiting message. -/
theorem wakeDone_sends (hon : s.on = true) {m : CtlMsg} {ms : List CtlMsg} (hw : (s.oct o).waking = true) (hd : (s.oct o).pollDue = false)
    (hx : (s.oct o).x = none) (ht : (s.oct o).todo = m :: ms) : ∃ t, exec (.controlWakeDone o) s = .next t ∧ (t.oct o).waking = false ∧
      (t.oct o).todo = ms ∧ (t.oct o).x = some { m with tag := (s.oct o).tag, attempt := 1 } ∧
      t.out = .ctl o (ctlBlock (s.oct o).seq m.msg (s.oct o).tag m.args) :: s.out ∧ t = { s with sl := t.sl, out := t.out } := by
  have hi : exec (.controlWakeDone o) s = execControlWakeDone o s := rfl
  obtain ⟨y, hy⟩ : ∃ y : OctSt, { s.oct o with waking := false, woken := s.flag (SL_OCT_CTL o) SL_OCT_CTL_CTL_SLEEP } = y := ⟨_, rfl⟩
  have hawake : (s.setOct o y).ctlAsleep o = false := by
    rw [ctlAsleep_setOct, ← hy]
    simp only [Bool.and_not_self]
  have hnow := ctlNext_now (s := s.setOct o y) (by rw [State.oct_setOct_same, ← hy]; exact hx) (by rw [State.oct_setOct_same, ← hy]; exact ht) hawake
    (by rw [State.oct_setOct_same, ← hy])
  rw [State.oct_setOct_same] at hnow
  have hexec : exec (.controlWakeDone o) s = .next ((s.setOct o y).ctlNext o) := by
    rw [hi, execControlWakeDone, whenOn_on hon, if_pos hw, ← hy]
    exact congrArg (fun u => Host.Outcome.next (State.ctlNext u o)) (if_neg (by rw [hd]; decide))
  rw [hnow] at hexec
  obtain ⟨hoct, hout⟩ := ctlNow_sends ((s.setOct o y).setOct o { y with todo := ms }) o m
  rw [State.oct_setOct_same] at hoct hout
  refine ⟨_, hexec, by rw [hoct, ← hy], by rw [hoct], by rw [hoct, ← hy], by rw [hout, ← hy]; rfl, ?_⟩
  have honly := ((octsOnly_setOct s o y).trans (octsOnly_setOct _ o { y with todo := ms })).trans
    ((CtlOnly.refl o ((s.setOct o y).setOct o { y with todo := ms })).ctlNow m).octsOnly
  refine Eq.trans honly ?_
  rw [honly]

/-- Settles O13: a reply, a repeat, a poll and a wake are each what one octet's exchange does next; its lanes change under PRBS alone. -/
theorem controlExchangesCompleteAndRepeat : Obligations.ControlExchangesCompleteAndRepeat := by
  unfold Obligations.ControlExchangesCompleteAndRepeat
  intro s o j raw hon ho hj x b
  refine ⟨fun hl hlen hk hb hn => ?_, fun m hx ha => replyTimeout_repeats hon ho hx ha, fun m hx ha hwhy ht hw => ?_,
    statusPoll_polls hon, fun hp => statusTimeout_counts hon hp, fun m ms hw hd hx ht => wakeDone_sends hon hw hd hx ht⟩
  · have he : Expected s o j raw := ⟨hl, hlen, hb, hn⟩
    refine ⟨fun hc => ⟨_, he.reply_bad hon hk hc, rfl, rfl⟩, fun m hc hx hp ht hw htag hmsg hr => ?_, fun hp hm hc => he.reply_poll hon hk hp hm hc⟩
    · have ha : Accepted s o m (rxBlock s o j raw) := ⟨hc, hx, hp, ht, hw, htag, hmsg, hr⟩
      refine ⟨fun hwhy => ?_, fun c hwhy => he.reply_access hon hk ha hwhy⟩
      obtain ⟨t, hexec, hx', hmissed, hfault, hkept, hout, hfree, hrest⟩ := he.reply_prbs hon hk ha hwhy
      exact ⟨t, hexec, hx', hmissed, hfault, hkept.silent hout hfree, hrest⟩
  · obtain ⟨t, hexec, hx', hfault, hkept, hout, hfree⟩ := replyTimeout_gives_up hon ho hx ha hwhy ht hw
    exact ⟨t, hexec, hx', hfault, hkept.silent hout hfree⟩

end Sys2Proof.Machine
end

-- ==== Sample lanes: their commands ====
section

namespace Sys2Proof.Machine

variable {s t u : State} {o : Nat} {op : Nat} {c : Cmd}

/-! ### Commands of the lanes -/

section
variable {i : Instr} {params : State → Option Bad} {body : State → CmdRes}

/-- A command whose effect succeeds is answered OK. -/
theorem answers_of_body {ws : List Word} {e : State} (hi : exec i s = .next (s.command op c params body)) (h : Taken op c s)
    (hp : params (s.dequeue op c) = none) (hb : body (s.dequeue op c) = .ok ws e) (hf : Fits ws.length c s) : Answers i op c s ws e :=
  hi.trans (congrArg _ (State.command_ok h hp hb hf))

/-- A command that its effect refuses. -/
theorem refuses_of_body {b : Bad} (hi : exec i s = .next (s.command op c params body)) (h : Taken op c s)
    (hp : params (s.dequeue op c) = none) (hb : body (s.dequeue op c) = .refuse b) (hs : b.status ≠ stSignature) :
    Refuses i op c s b.status b.word b.words :=
  hi.trans (congrArg _ (State.command_body_refuse h hp hb hs))

/-- A command whose reply waits for an event. -/
theorem next_of_body {e : State} (hi : exec i s = .next (s.command op c params body)) (h : Taken op c s)
    (hp : params (s.dequeue op c) = none) (hb : body (s.dequeue op c) = .later e) : exec i s = .next e := by
  rw [hi, State.command_taken h, hp, hb]
  rfl

end

theorem needLen_of_eq {n : Nat} (h : c.payload.length = n) : needLen n c = none := if_pos h

/-- An octet's registers are not those of the command queue. -/
theorem octReg_ne_qStat (o : Nat) : SL_OCT_CTL o ≠ CP_Q_STAT ∧ SL_OCT_STAT o ≠ CP_Q_STAT ∧ SL_OCT_PRBS o ≠ CP_Q_STAT ∧ SL_OCT_MAP o ≠ CP_Q_STAT := by
  unfold SL_OCT_CTL SL_OCT_STAT SL_OCT_PRBS SL_OCT_MAP CP_Q_STAT
  omega

theorem flag_dequeue (s : State) (op : Nat) (c : Cmd) {a : Nat} (ha : a ≠ CP_Q_STAT) (f : Fld) : (s.dequeue op c).flag a f = s.flag a f :=
  State.flag_of_reg (s.reg_dequeue op c ha) f

theorem oct_dequeue (s : State) (op : Nat) (c : Cmd) (o : Nat) : (s.dequeue op c).oct o = s.oct o :=
  State.oct_of_octs (congrArg SlSt.octs (s.dequeue_sl op c)) o

theorem laddering_dequeue (s : State) (op : Nat) (c : Cmd) (o : Nat) : (s.dequeue op c).laddering o = s.laddering o := by
  obtain ⟨hctl, -⟩ := octReg_ne_qStat o
  rw [State.laddering, State.laddering, oct_dequeue, flag_dequeue s op c hctl]

theorem rxAsleep_dequeue (s : State) (op : Nat) (c : Cmd) (o : Nat) : (s.dequeue op c).rxAsleep o = s.rxAsleep o := by
  obtain ⟨hctl, hstat, -⟩ := octReg_ne_qStat o
  rw [State.rxAsleep, State.rxAsleep, State.octState, State.octState, flag_dequeue s op c hctl, s.rf_dequeue op c _ hstat]

/-- Octets whose control lane is sound where it is needed, awake where they must be and in no ladder are not refused (R92). -/
theorem laneRefuse_none {os : List Nat} {needsRx : Bool} {needsCtl : Nat → Bool}
    (h : ∀ o ∈ os, (needsCtl o && s.flag (SL_OCT_STAT o) SL_OCT_STAT_CTL_FAULT) = false ∧ (needsRx && s.rxAsleep o) = false ∧ s.laddering o = false) :
    s.laneRefuse os needsRx needsCtl = none := by
  have h1 : (os.any fun o => (needsCtl o && s.flag (SL_OCT_STAT o) SL_OCT_STAT_CTL_FAULT) || (needsRx && s.rxAsleep o)) = false := by
    refine List.any_eq_false.2 fun o ho => ?_
    obtain ⟨hc, hr, -⟩ := h o ho
    simp [hc, hr]
  have h2 : os.any s.laddering = false := List.any_eq_false.2 fun o ho => by simp [(h o ho).2.2]
  rw [State.laneRefuse, h1, h2]
  rfl

theorem octCtl_inj {o p : Nat} : SL_OCT_CTL p = SL_OCT_CTL o ↔ p = o := by
  unfold SL_OCT_CTL
  omega

theorem mask64_nodup (c : Cmd) (i : Nat) : (c.mask64 i).Nodup := List.nodup_range.filter _

/-! ### LANE_LADDER (R66, R92) -/

/-- A ladder of an octet is asked for. -/
def askLadder (rung weak : Nat) (s : State) (o : Nat) : State :=
  ((s.setF (SL_OCT_CTL o) SL_OCT_CTL_TARGET_RUNG rung).setF (SL_OCT_CTL o) SL_OCT_CTL_EXCLUDE_WEAK weak).setF (SL_OCT_CTL o) SL_OCT_CTL_RELADDER 1

/-- What a ladder is asked for with. -/
def Asked (rung weak o : Nat) (s : State) : Prop :=
  s.flag (SL_OCT_CTL o) SL_OCT_CTL_RELADDER = true ∧ s.rf (SL_OCT_CTL o) SL_OCT_CTL_TARGET_RUNG = rung ∧ s.rf (SL_OCT_CTL o) SL_OCT_CTL_EXCLUDE_WEAK = weak

theorem reg_askLadder_ne (rung weak : Nat) (s : State) {o a : Nat} (ha : a ≠ SL_OCT_CTL o) : (askLadder rung weak s o).reg a = s.reg a := by
  rw [askLadder, State.reg_setF_ne _ _ _ ha, State.reg_setF_ne _ _ _ ha, State.reg_setF_ne _ _ _ ha]

theorem asked_askLadder {rung weak : Nat} (hr : rung < 4) (hw : weak < 2) (s : State) (o : Nat) : Asked rung weak o (askLadder rung weak s o) := by
  refine ⟨State.flag_setF_same _ _ _ 1 (by decide), ?_, ?_⟩
  · rw [askLadder, State.rf_setF_apart _ _ _ _ _ (by decide) (.inl (by decide)), State.rf_setF_apart _ _ _ _ _ (by decide) (.inl (by decide)),
      State.rf_setF_same _ _ _ _ (by decide)]
    exact Nat.mod_eq_of_lt hr
  · rw [askLadder, State.rf_setF_apart _ _ _ _ _ (by decide) (.inr (by decide)), State.rf_setF_same _ _ _ _ (by decide)]
    exact Nat.mod_eq_of_lt hw

/-- Nothing but registers has changed. -/
def RegsOnly (s t : State) : Prop := t = { s with regs := t.regs }

theorem RegsOnly.setF (h : RegsOnly s t) (a : Nat) (f : Fld) (v : Nat) : RegsOnly s (t.setF a f v) := by
  unfold RegsOnly at *
  rw [State.setF, State.setReg, h]

theorem RegsOnly.askLadder (h : RegsOnly s t) (rung weak o : Nat) : RegsOnly s (askLadder rung weak t o) := ((h.setF _ _ _).setF _ _ _).setF _ _ _

theorem askLadder_all {rung weak : Nat} (hr : rung < 4) (hw : weak < 2) {os : List Nat} (hos : os.Nodup) (s : State) :
    RegsOnly s (os.foldl (askLadder rung weak) s) ∧ (∀ o ∈ os, Asked rung weak o (os.foldl (askLadder rung weak) s)) ∧
      ∀ a, (∀ o ∈ os, a ≠ SL_OCT_CTL o) → (os.foldl (askLadder rung weak) s).reg a = s.reg a := by
  refine ⟨List.foldlRecOn os _ (motive := RegsOnly s) rfl fun u hu o _ => hu.askLadder _ _ _, fun o ho => ?_, fun a ha => ?_⟩
  · refine foldl_local (P := Asked rung weak) (Q := fun _ _ => True) hos (fun _ _ => trivial) (fun u k _ _ => asked_askLadder hr hw u k)
      (fun _ _ _ _ _ _ => trivial) (fun u k _ o hok h => ?_) ho
    have hreg := reg_askLadder_ne rung weak u fun e => hok (octCtl_inj.1 e)
    exact ⟨(State.flag_of_reg hreg _).trans h.1, (State.rf_of_reg hreg _).trans h.2.1, (State.rf_of_reg hreg _).trans h.2.2⟩
  · exact List.foldlRecOn os _ (motive := fun u : State => u.reg a = s.reg a) rfl fun u hu o ho => (reg_askLadder_ne _ _ u (ha o ho)).trans hu

/-- What LANE_LADDER and LANE_PRBS need of an octet. -/
def LaneReady (s : State) (o : Nat) : Prop :=
  s.flag (SL_OCT_STAT o) SL_OCT_STAT_CTL_FAULT = false ∧ s.rxAsleep o = false ∧ s.laddering o = false

theorem laneRefuse_of_ready {os : List Nat} (h : ∀ o ∈ os, LaneReady s o) (op : Nat) (c : Cmd) :
    (s.dequeue op c).laneRefuse os true (fun _ => true) = none := by
  refine laneRefuse_none fun o ho => ?_
  obtain ⟨hfault, hrx, hlad⟩ := h o ho
  obtain ⟨-, hstat, -⟩ := octReg_ne_qStat o
  rw [flag_dequeue s op c hstat, rxAsleep_dequeue, laddering_dequeue, hfault, hrx, hlad]
  exact ⟨rfl, rfl, rfl⟩

/-- The rung carries the samples of an octet's format (R66). -/
def rungCarries (c : Cmd) (s : State) (o : Nat) : Bool := carries (c.f 0 31 30) (s.flag (SL_OCT_CTL o) SL_OCT_CTL_FMT) s.time.rateN

theorem rungCarries_dequeue (s : State) (op : Nat) (c : Cmd) : rungCarries c (s.dequeue op c) = rungCarries c s := by
  funext o
  obtain ⟨hctl, -⟩ := octReg_ne_qStat o
  rw [rungCarries, rungCarries, flag_dequeue s op c hctl, State.dequeue_time]

theorem exec_laneLadder (s : State) (c : Cmd) : exec (.laneLadder c) s = execLaneLadder c s := (rfl)

theorem askLadder_fun (rung weak : Nat) : askLadder rung weak = fun s o =>
    ((s.setF (SL_OCT_CTL o) SL_OCT_CTL_TARGET_RUNG rung).setF (SL_OCT_CTL o) SL_OCT_CTL_EXCLUDE_WEAK weak).setF (SL_OCT_CTL o) SL_OCT_CTL_RELADDER 1 :=
  (rfl)

theorem laneLadder_asks (h : Taken 0x0201 c s) (hlen : c.payload.length = 3) (hfits : Fits 0 c s) (hready : ∀ o ∈ c.mask64 1, LaneReady s o)
    (hrung : ∀ o ∈ c.mask64 1, rungCarries c s o = true) :
    ∃ e, Answers (.laneLadder c) 0x0201 c s [] e ∧ e = { s.dequeue 0x0201 c with regs := e.regs } ∧
      (∀ o ∈ c.mask64 1, Asked (c.f 0 31 30) (c.f 0 29 29) o e) ∧ ∀ a, a ≠ CP_Q_STAT → (∀ o ∈ c.mask64 1, a ≠ SL_OCT_CTL o) → e.reg a = s.reg a := by
  have hr : c.f 0 31 30 < 4 := Nat.mod_lt _ (by decide)
  have hw : c.f 0 29 29 < 2 := Nat.mod_lt _ (by decide)
  obtain ⟨hregs, hasked, hother⟩ := askLadder_all hr hw (mask64_nodup c 1) (s.dequeue 0x0201 c)
  have hfind : ((c.mask64 1).find? fun o => !rungCarries c (s.dequeue 0x0201 c) o) = none := by
    refine List.find?_eq_none.2 fun o ho => ?_
    rw [rungCarries_dequeue, hrung o ho]
    decide
  refine ⟨_, answers_of_body (exec_laneLadder s c) h (needLen_of_eq hlen) ?_ hfits, hregs, hasked,
    fun a ha hne => (hother a hne).trans (s.reg_dequeue _ c ha)⟩
  unfold rungCarries at hfind
  dsimp only
  rw [laneRefuse_of_ready hready, hfind, askLadder_fun]

theorem laneLadder_refused (h : Taken 0x0201 c s) (hlen : c.payload.length = 3) (hready : ∀ o ∈ c.mask64 1, LaneReady s o)
    (ho : (c.mask64 1).head? = some o) (hrung : rungCarries c s o = false) : Refuses (.laneLadder c) 0x0201 c s stBudget 0 [0, w32 o] := by
  obtain ⟨os, hos⟩ := List.head?_eq_some_iff.1 ho
  have hfind : ((c.mask64 1).find? fun o => !rungCarries c (s.dequeue 0x0201 c) o) = some o := by
    rw [hos, rungCarries_dequeue, List.find?_cons_of_pos (by rw [hrung]; rfl)]
  have hst : stBudget ≠ stSignature := by decide
  refine refuses_of_body (b := ⟨stBudget, 0, [0, w32 o]⟩) (exec_laneLadder s c) h (needLen_of_eq hlen) ?_ hst
  unfold rungCarries at hfind
  dsimp only
  rw [laneRefuse_of_ready hready, hfind]
  rfl

/-! ### LANE_SLEEP (R99) -/

theorem flag_ctlWake (s : State) (o p : Nat) {f : Fld} (hf : SL_OCT_CTL_CTL_SLEEP.apart f) :
    (s.ctlWake o).flag (SL_OCT_CTL p) f = s.flag (SL_OCT_CTL p) f := by
  refine State.flag_of_rf (Eq.trans ?_ (?_ : (s.setF (SL_OCT_CTL o) SL_OCT_CTL_CTL_SLEEP 0).rf (SL_OCT_CTL p) f = _))
  · unfold State.ctlWake
    split <;> exact State.rf_setOct _ _ _ _ _
  · by_cases e : p = o
    · rw [e]
      exact s.rf_setF_apart _ _ _ _ (by decide) hf
    · exact s.rf_setF_ne _ _ _ fun h => e (octCtl_inj.1 h)

/-- A wake is a write of CTL_SLEEP and a mark of its octet. -/
theorem ctlWake_eq (s : State) (o : Nat) : ∃ y, s.ctlWake o = (s.setF (SL_OCT_CTL o) SL_OCT_CTL_CTL_SLEEP 0).setOct o y ∧
    (s.ctlAsleep o = true → y.waking = true) := by
  unfold State.ctlWake
  split
  next h => exact ⟨_, rfl, fun _ => rfl⟩
  next h => exact ⟨_, rfl, fun h' => absurd h' h⟩

/-- An octet's control direction has been told to wake. -/
def Woken (asleep : Bool) (o : Nat) (s : State) : Prop :=
  s.flag (SL_OCT_CTL o) SL_OCT_CTL_CTL_SLEEP = false ∧ (asleep = true → (s.oct o).waking = true)

theorem woken_ctlWake (s : State) (o : Nat) : Woken (s.ctlAsleep o) o (s.ctlWake o) := by
  obtain ⟨y, hy, hw⟩ := ctlWake_eq s o
  rw [hy]
  refine ⟨?_, fun h => by rw [State.oct_setOct_same, hw h]⟩
  rw [State.flag_of_reg (State.reg_setOct _ _ _ _), State.flag_setF_same _ _ _ _ (by decide)]
  rfl

theorem reg_ctlWake_ne (s : State) {o a : Nat} (ha : a ≠ SL_OCT_CTL o) : (s.ctlWake o).reg a = s.reg a := by
  obtain ⟨y, hy, -⟩ := ctlWake_eq s o
  rw [hy, State.reg_setOct, State.reg_setF_ne _ _ _ ha]

theorem oct_ctlWake_ne (s : State) {o p : Nat} (h : p ≠ o) : (s.ctlWake o).oct p = s.oct p := by
  obtain ⟨y, hy, -⟩ := ctlWake_eq s o
  rw [hy, State.oct_setOct_ne _ _ h, State.oct_setF]

theorem ctlAsleep_ctlWake_ne (s : State) {o p : Nat} (h : p ≠ o) : (s.ctlWake o).ctlAsleep p = s.ctlAsleep p := by
  rw [State.ctlAsleep, State.ctlAsleep, oct_ctlWake_ne s h, State.flag_of_reg (reg_ctlWake_ne s fun e => h (octCtl_inj.1 e))]

/-- Of the sample lanes' state the octets alone have changed, and registers. -/
def OctsRegs (s t : State) : Prop := t = { s with regs := t.regs, sl := { s.sl with octs := t.sl.octs } }

theorem OctsRegs.refl (s : State) : OctsRegs s s := rfl

theorem OctsRegs.setF (h : OctsRegs s t) (a : Nat) (f : Fld) (v : Nat) : OctsRegs s (t.setF a f v) := by
  unfold OctsRegs at *
  rw [State.setF, State.setReg, h]

theorem OctsRegs.setOct (h : OctsRegs s t) (o : Nat) (x : OctSt) : OctsRegs s (t.setOct o x) := by
  unfold OctsRegs at *
  rw [State.setOct, h]

theorem OctsRegs.shape (h : OctsRegs s t) : t = { s with regs := t.regs, sl := t.sl } ∧ t.sl.lanes = s.sl.lanes := by
  have hl : t.sl.lanes = s.sl.lanes := by rw [h]
  refine ⟨Eq.trans h ?_, hl⟩
  rw [h]

theorem OctsRegs.ctlWake (h : OctsRegs s t) (o : Nat) : OctsRegs s (t.ctlWake o) := by
  obtain ⟨y, hy, -⟩ := ctlWake_eq t o
  rw [hy]
  exact (h.setF _ _ _).setOct _ _

/-- An octet whose receive direction is awake and stays so only wakes its control direction. -/
theorem sleepOct_wake (h : s.flag (SL_OCT_CTL o) SL_OCT_CTL_RX_SLEEP = false) : s.sleepOct false false o = s.ctlWake o := by
  rw [State.sleepOct]
  simp only [h, Bool.false_and, Bool.not_false, Bool.and_true, Bool.false_eq_true, if_false]

theorem sleepOct_wakes {os : List Nat} (h : ∀ o ∈ os, s.flag (SL_OCT_CTL o) SL_OCT_CTL_RX_SLEEP = false) :
    os.foldl (State.sleepOct · false false) s = os.foldl State.ctlWake s := by
  induction os generalizing s with
  | nil => rw [List.foldl_nil, List.foldl_nil]
  | cons o os ih =>
    rw [List.foldl_cons, List.foldl_cons, sleepOct_wake (h o (by simp))]
    exact ih fun p hp => (flag_ctlWake s o p (.inl (by decide))).trans (h p (by simp [hp]))

theorem ctlWake_all {os : List Nat} (hos : os.Nodup) (s : State) : OctsRegs s (os.foldl State.ctlWake s) ∧
    (∀ o ∈ os, Woken (s.ctlAsleep o) o (os.foldl State.ctlWake s)) ∧
    ∀ a, (∀ o ∈ os, a ≠ SL_OCT_CTL o) → (os.foldl State.ctlWake s).reg a = s.reg a := by
  refine ⟨List.foldlRecOn os _ (motive := OctsRegs s) (.refl s) fun u hu o _ => hu.ctlWake o, fun o ho => ?_, fun a ha => ?_⟩
  · refine foldl_local (P := fun o u => Woken (s.ctlAsleep o) o u) (Q := fun o u => u.ctlAsleep o = s.ctlAsleep o) hos (fun _ _ => rfl)
      (fun u k _ hk => hk ▸ woken_ctlWake u k) (fun u k _ i hi hq => (ctlAsleep_ctlWake_ne u hi).trans hq) (fun u k _ i hi h => ?_) ho
    obtain ⟨hflag, hwaking⟩ := h
    refine ⟨(State.flag_of_reg (reg_ctlWake_ne u fun e => hi (octCtl_inj.1 e)) _).trans hflag, fun ha => ?_⟩
    rw [oct_ctlWake_ne u hi, hwaking ha]
  · exact List.foldlRecOn os _ (motive := fun u : State => u.reg a = s.reg a) rfl fun u hu o ho => (reg_ctlWake_ne u (ha o ho)).trans hu

theorem exec_laneSleep (s : State) (c : Cmd) : exec (.laneSleep c) s = execLaneSleep c s := (rfl)

theorem laneSleep_wakes (h : Taken 0x0202 c s) (hlen : c.payload.length = 3) (hfits : Fits 0 c s) (hrx : bit (c.w 0).toNat 1 = false)
    (hctl : bit (c.w 0).toNat 0 = false) (hos : ∀ o ∈ c.mask64 1, s.flag (SL_OCT_CTL o) SL_OCT_CTL_RX_SLEEP = false ∧ s.laddering o = false) :
    ∃ e, Answers (.laneSleep c) 0x0202 c s [] e ∧ OctsRegs (s.dequeue 0x0202 c) e ∧ (∀ o ∈ c.mask64 1, Woken (s.ctlAsleep o) o e) ∧
      ∀ a, a ≠ CP_Q_STAT → (∀ o ∈ c.mask64 1, a ≠ SL_OCT_CTL o) → e.reg a = s.reg a := by
  have hasleep : ∀ o, (s.dequeue 0x0202 c).ctlAsleep o = s.ctlAsleep o := fun o => by
    obtain ⟨hc, -⟩ := octReg_ne_qStat o
    rw [State.ctlAsleep, State.ctlAsleep, oct_dequeue, flag_dequeue s _ c hc]
  have hflag : ∀ o ∈ c.mask64 1, (s.dequeue 0x0202 c).flag (SL_OCT_CTL o) SL_OCT_CTL_RX_SLEEP = false := fun o ho => by
    obtain ⟨hc, -⟩ := octReg_ne_qStat o
    rw [flag_dequeue s _ c hc, (hos o ho).1]
  have hrefuse : (s.dequeue 0x0202 c).laneRefuse (c.mask64 1) false
      (fun o => bit (c.w 0).toNat 1 != (s.dequeue 0x0202 c).flag (SL_OCT_CTL o) SL_OCT_CTL_RX_SLEEP) = none := by
    refine laneRefuse_none fun o ho => ⟨?_, Bool.false_and _, ?_⟩
    · rw [hrx, hflag o ho]
      rfl
    · rw [laddering_dequeue, (hos o ho).2]
  obtain ⟨hocts, hwoken, hother⟩ := ctlWake_all (mask64_nodup c 1) (s.dequeue 0x0202 c)
  refine ⟨_, answers_of_body (exec_laneSleep s c) h (needLen_of_eq hlen) ?_ hfits, hocts, fun o ho => hasleep o ▸ hwoken o ho,
    fun a ha hne => (hother a hne).trans (s.reg_dequeue _ c ha)⟩
  dsimp only
  rw [hrefuse, hrx, hctl, sleepOct_wakes hflag]

theorem laneSleep_refused (h : Taken 0x0202 c s) (hlen : c.payload.length = 3) (ho : o ∈ c.mask64 1)
    (hrx : bit (c.w 0).toNat 1 ≠ s.flag (SL_OCT_CTL o) SL_OCT_CTL_RX_SLEEP) (hfault : s.flag (SL_OCT_STAT o) SL_OCT_STAT_CTL_FAULT = true) :
    Refuses (.laneSleep c) 0x0202 c s stWrongState 0 [] := by
  have hrefuse : (s.dequeue 0x0202 c).laneRefuse (c.mask64 1) false
      (fun o => bit (c.w 0).toNat 1 != (s.dequeue 0x0202 c).flag (SL_OCT_CTL o) SL_OCT_CTL_RX_SLEEP) = some (bad stWrongState []) := by
    obtain ⟨hc, hstat, -⟩ := octReg_ne_qStat o
    refine if_pos (List.any_eq_true.2 ⟨o, ho, ?_⟩)
    dsimp only
    rw [flag_dequeue s _ c hstat, flag_dequeue s _ c hc, hfault, bne_iff_ne.2 hrx]
    rfl
  have hst : stWrongState ≠ stSignature := by decide
  refine refuses_of_body (b := ⟨stWrongState, 0, []⟩) (exec_laneSleep s c) h (needLen_of_eq hlen) ?_ hst
  dsimp only
  rw [hrefuse]
  rfl

/-! ### LANE_PRBS (R97) -/

/-- A message sent after a change of lanes, octets and registers. -/
theorem CtlOnly.shape (hu : ∃ r l, u = { s with regs := r, sl := l }) (h : CtlOnly o u t) : t = { s with regs := t.regs, sl := t.sl, out := t.out } := by
  obtain ⟨r, l, rfl⟩ := hu
  rw [h.eq]

theorem exec_lanePrbs (s : State) (c : Cmd) : exec (.lanePrbs c) s = execLanePrbs c s := (rfl)

theorem octPrbs_inj {o p : Nat} : SL_OCT_PRBS p = SL_OCT_PRBS o ↔ p = o := by
  unfold SL_OCT_PRBS
  omega

theorem lanePrbs_sends (h : Taken 0x0203 c s) (hlen : c.payload.length = 2) (hfits : Fits 0 c s) (hready : LaneReady s (c.f 1 5 0)) :
    ∃ e, Answers (.lanePrbs c) 0x0203 c s [] e ∧ e.reg (SL_OCT_PRBS (c.f 1 5 0)) = (c.w 0 &&& 0xF70000FF) ∧
      e = { s.dequeue 0x0203 c with regs := e.regs, sl := e.sl, out := e.out } ∧
      ∀ p, p ≠ c.f 1 5 0 → e.oct p = s.oct p ∧ e.reg (SL_OCT_PRBS p) = s.reg (SL_OCT_PRBS p) := by
  have hrefuse : (s.dequeue 0x0203 c).laneRefuse [c.f 1 5 0] true (fun _ => true) = none :=
    laneRefuse_of_ready (fun o ho => List.mem_singleton.1 ho ▸ hready) 0x0203 c
  obtain ⟨w, hw⟩ : ∃ w : Word, c.w 0 &&& 0xF70000FF = w := ⟨_, rfl⟩
  obtain ⟨d, hd⟩ : ∃ d, s.dequeue 0x0203 c = d := ⟨_, rfl⟩
  obtain ⟨o, ho⟩ : ∃ o, c.f 1 5 0 = o := ⟨_, rfl⟩
  obtain ⟨s1, hs1⟩ : ∃ u, (if bit w.toNat 28 then d.setReg (SL_OCT_PRBS o) w else (d.setReg (SL_OCT_PRBS o) w).prbsLanes o) = u := ⟨_, rfl⟩
  have hset : ∃ ls, s1 = { d with regs := (d.setReg (SL_OCT_PRBS o) w).regs, sl := { d.sl with lanes := ls } } := by
    cases hen : bit w.toNat 28 with
    | true => exact ⟨_, by rw [← hs1, hen]; rfl⟩
    | false =>
      have hflag : (d.setReg (SL_OCT_PRBS o) w).flag (SL_OCT_PRBS o) SL_OCT_PRBS_CHK_EN = false := by
        rw [State.flag, State.rf, State.reg_setReg_same]
        exact hen
      obtain ⟨-, ls, hls⟩ := prbsLanes_off hflag
      exact ⟨ls, by rw [← hs1, hen, if_neg (by decide), hls]; rfl⟩
  obtain ⟨ls, hls⟩ := hset
  have hctl : CtlOnly o s1 (s1.ctlSend o .prbs 0x05 (be 1 (c.f 0 31 30) ++ be 1 (c.f 0 7 0) ++ be 1 (b2n (bit w.toNat 28)))) :=
    (CtlOnly.refl o s1).ctlSend _ _ _
  have hreg : ∀ a, s1.reg a = (d.setReg (SL_OCT_PRBS o) w).reg a := fun a => by
    rw [hls]
    rfl
  have hoct : ∀ p, s1.oct p = d.oct p := fun p => by
    rw [hls]
    rfl
  have hbody : Answers (.lanePrbs c) 0x0203 c s []
      (s1.ctlSend o .prbs 0x05 (be 1 (c.f 0 31 30) ++ be 1 (c.f 0 7 0) ++ be 1 (b2n (bit w.toNat 28)))) := by
    refine answers_of_body (exec_lanePrbs s c) h (needLen_of_eq hlen) ?_ hfits
    dsimp only
    rw [hrefuse, ← hs1, ← hw, ← hd, ← ho]
  refine ⟨_, hbody, ?_, ?_, fun p hp => ⟨?_, ?_⟩⟩
  · rw [hctl.reg, hreg, ho, hw, State.reg_setReg_same]
  · rw [hd]
    exact CtlOnly.shape ⟨_, _, hls⟩ hctl
  · rw [hctl.oct p (ho ▸ hp), hoct, ← hd, oct_dequeue]
  · obtain ⟨-, -, hq, -⟩ := octReg_ne_qStat p
    rw [ho] at hp
    rw [hctl.reg, hreg, State.reg_setReg_ne _ _ fun e => hp (octPrbs_inj.1 e), ← hd, s.reg_dequeue _ c hq]

/-! ### LANE_STATUS and ADC_ACCESS (R101) -/

theorem exec_laneStatus (s : State) (c : Cmd) : exec (.laneStatus c) s = execLaneStatus c s := (rfl)

theorem laneStat_ne_qStat (o j : Nat) : SL_LANE_STAT o j ≠ CP_Q_STAT := by
  unfold SL_LANE_STAT CP_Q_STAT
  omega

theorem laneStatus_reads (h : Taken 0x0204 c s) (hlen : c.payload.length = 1) (hfits : Fits 10 c s) :
    Answers (.laneStatus c) 0x0204 c s ([s.reg (SL_OCT_STAT (c.f 0 5 0)), s.reg (SL_OCT_MAP (c.f 0 5 0))] ++
      (List.range 8).map fun j => s.reg (SL_LANE_STAT (c.f 0 5 0) j)) (s.dequeue 0x0204 c) := by
  obtain ⟨-, hstat, -, hmap⟩ := octReg_ne_qStat (c.f 0 5 0)
  have hlanes : (fun j => (s.dequeue 0x0204 c).reg (SL_LANE_STAT (c.f 0 5 0) j)) = fun j => s.reg (SL_LANE_STAT (c.f 0 5 0) j) :=
    funext fun j => s.reg_dequeue _ c (laneStat_ne_qStat _ j)
  refine answers_of_body (exec_laneStatus s c) h (needLen_of_eq hlen) ?_ ?_
  · dsimp only
    rw [s.reg_dequeue _ c hstat, s.reg_dequeue _ c hmap, hlanes]
  · rw [List.length_append, List.length_map, List.length_range]
    exact hfits

theorem exec_adcAccess (s : State) (c : Cmd) : exec (.adcAccess c) s = execAdcAccess c s := (rfl)

/-- A message sent behind a running exchange waits. -/
theorem ctlSend_waits (hx : (s.oct o).x.isSome = true) (why : CtlFor) (msg : Nat) (args : List Byte) :
    ((s.ctlSend o why msg args).oct o).todo = (s.oct o).todo ++ [{ why := why, msg := msg, tag := 0, args := args, attempt := 0 }] := by
  obtain ⟨m, hm⟩ := Option.isSome_iff_exists.1 hx
  obtain ⟨y, hy⟩ : ∃ y : OctSt, { s.oct o with
    todo := (s.oct o).todo ++ [{ why := why, msg := msg, tag := 0, args := args, attempt := 0 }] } = y := ⟨_, rfl⟩
  have hxy : ((s.setOct o y).oct o).x = some m := by rw [State.oct_setOct_same, ← hy, hm]
  have hnext : (s.setOct o y).ctlNext o = s.setOct o y := by
    rw [State.ctlNext]
    simp only [hxy]
  rw [State.ctlSend, hy, hnext, State.oct_setOct_same, ← hy]

theorem adcAccess_waits (h : Taken 0x0205 c s) (hlen : c.payload.length = 3)
    (hfault : s.flag (SL_OCT_STAT (c.f 0 5 0)) SL_OCT_STAT_CTL_FAULT = false) :
    ∃ e, exec (.adcAccess c) s = .next e ∧ CtlOnly (c.f 0 5 0) (s.dequeue 0x0205 c) e ∧ ((s.oct (c.f 0 5 0)).x.isSome = true →
      (e.oct (c.f 0 5 0)).todo.map (fun m => m.why) = ((s.oct (c.f 0 5 0)).todo.map fun m => m.why) ++ [.access c]) := by
  obtain ⟨-, hstat, -⟩ := octReg_ne_qStat (c.f 0 5 0)
  have hsent : ∃ msg args, exec (.adcAccess c) s = .next ((s.dequeue 0x0205 c).ctlSend (c.f 0 5 0) (.access c) msg args) := by
    cases hw : bit (c.w 0).toNat 31 with
    | true =>
      refine ⟨0x09, be 2 (c.f 1 15 0) ++ be 4 (c.w 2).toNat, next_of_body (exec_adcAccess s c) h (needLen_of_eq hlen) ?_⟩
      dsimp only
      rw [flag_dequeue s _ c hstat, hfault, hw, if_neg (by decide), if_pos rfl]
    | false =>
      refine ⟨0x0A, be 2 (c.f 1 15 0), next_of_body (exec_adcAccess s c) h (needLen_of_eq hlen) ?_⟩
      dsimp only
      rw [flag_dequeue s _ c hstat, hfault, hw, if_neg (by decide), if_neg (by decide)]
  obtain ⟨msg, args, hexec⟩ := hsent
  refine ⟨_, hexec, (CtlOnly.refl _ _).ctlSend _ _ _, fun hx => ?_⟩
  rw [ctlSend_waits (by rw [oct_dequeue, hx]), oct_dequeue, List.map_append]
  rfl

/-! ### RELEASE_SET (R83) -/

theorem exec_releaseSet (s : State) (c : Cmd) : exec (.releaseSet c) s = execReleaseSet c s := (rfl)

/-- SKEW_RANGE of every lane of the octet is cleared. -/
def clearSkew (s : State) (o : Nat) : State := (List.range 8).foldl (fun s j => s.setF (SL_LANE_STAT o j) SL_LANE_STAT_SKEW_RANGE 0) s

/-- The octet's offset is to be stored again, and its lanes stand within the window. -/
def unaligned (s : State) (o : Nat) : State := clearSkew (s.setOct o { s.oct o with ofsSet := false }) o

theorem OctsRegs.clearSkew (h : OctsRegs s t) (o : Nat) : OctsRegs s (clearSkew t o) :=
  List.foldlRecOn (List.range 8) _ (motive := OctsRegs s) h fun _ hu _ _ => hu.setF _ _ _

theorem OctsRegs.unaligned (h : OctsRegs s t) (o : Nat) : OctsRegs s (unaligned t o) := (h.setOct _ _).clearSkew o

theorem clearSkew_sl (s : State) (o : Nat) : (clearSkew s o).sl = s.sl :=
  List.foldlRecOn (List.range 8) _ (motive := fun u : State => u.sl = s.sl) rfl fun u hu _ _ => (u.setF_sl _ _ _).trans hu

theorem reg_clearSkew_ne (s : State) {o a : Nat} (ha : ∀ j < 8, a ≠ SL_LANE_STAT o j) : (clearSkew s o).reg a = s.reg a :=
  List.foldlRecOn (List.range 8) _ (motive := fun u : State => u.reg a = s.reg a) rfl fun u hu k hk =>
    (u.reg_setF_ne _ _ (ha k (List.mem_range.1 hk))).trans hu

theorem skew_clearSkew (s : State) (o : Nat) {j : Nat} (hj : j < 8) : (clearSkew s o).flag (SL_LANE_STAT o j) SL_LANE_STAT_SKEW_RANGE = false := by
  refine foldl_local (P := fun j u => u.flag (SL_LANE_STAT o j) SL_LANE_STAT_SKEW_RANGE = false) (Q := fun _ _ => True) List.nodup_range
    (fun _ _ => trivial) (fun u k _ _ => u.flag_setF_same _ _ 0 (by decide)) (fun _ _ _ _ _ _ => trivial) (fun u k _ i hi h => ?_) (List.mem_range.2 hj)
  exact (State.flag_of_rf (u.rf_setF_ne _ _ _ (by unfold SL_LANE_STAT; omega))).trans h

/-- Nothing of an octet holds to the release point that is to be set again. -/
def Unaligned (o : Nat) (s : State) : Prop := (s.oct o).ofsSet = false ∧ ∀ j < 8, s.flag (SL_LANE_STAT o j) SL_LANE_STAT_SKEW_RANGE = false

theorem unaligned_self (s : State) (o : Nat) : Unaligned o (unaligned s o) := by
  refine ⟨?_, fun j hj => skew_clearSkew _ o hj⟩
  rw [unaligned, State.oct_of_octs (congrArg SlSt.octs (clearSkew_sl _ o)), State.oct_setOct_same]

theorem Unaligned.of_unaligned {p : Nat} (h : Unaligned p s) (hne : p ≠ o) : Unaligned p (unaligned s o) := by
  obtain ⟨hofs, hskew⟩ := h
  refine ⟨?_, fun j hj => ?_⟩
  · rw [unaligned, State.oct_of_octs (congrArg SlSt.octs (clearSkew_sl _ o)), State.oct_setOct_ne _ _ hne, hofs]
  · rw [← hskew j hj]
    refine State.flag_of_reg ((reg_clearSkew_ne _ fun k hk => ?_).trans (State.reg_setOct _ _ _ _)) _
    unfold SL_LANE_STAT
    omega

theorem relStat_ne_laneStat (o j : Nat) : SL_REL_STAT ≠ SL_LANE_STAT o j := by
  unfold SL_REL_STAT SL_LANE_STAT
  omega

theorem relSet_unaligned (s : State) (o : Nat) : (unaligned s o).relSet = s.relSet :=
  State.flag_of_reg ((reg_clearSkew_ne _ fun k _ => relStat_ne_laneStat o k).trans (State.reg_setOct _ _ _ _)) _

theorem releaseSet_unsets (h : Taken 0x0206 c s) (hlen : c.payload.length = 0) (hfits : Fits 0 c s) (hint : s.integrating = false) :
    ∃ e, Answers (.releaseSet c) 0x0206 c s [] e ∧ e.relSet = false ∧ OctsRegs (s.dequeue 0x0206 c) e ∧ ∀ o < 64, Unaligned o e := by
  obtain ⟨s1, hs1⟩ : ∃ u, (s.dequeue 0x0206 c).setF SL_REL_STAT SL_REL_STAT_SET 0 = u := ⟨_, rfl⟩
  have hearly : (s.dequeue 0x0206 c).endEarly = s.dequeue 0x0206 c := by
    have hrun : (s.dequeue 0x0206 c).integrating = false := (flag_dequeue s _ c (by decide) _).trans hint
    rw [State.endEarly, hrun, if_neg (by decide)]
  have hbody : Answers (.releaseSet c) 0x0206 c s [] ((List.range 64).foldl unaligned s1) := by
    refine answers_of_body (exec_releaseSet s c) h (needLen_of_eq hlen) ?_ hfits
    dsimp only
    rw [hearly, hs1]
    unfold unaligned clearSkew
    rfl
  refine ⟨_, hbody, ?_, ?_, fun o ho => ?_⟩
  · refine List.foldlRecOn (List.range 64) _ (motive := fun u : State => u.relSet = false) ?_ fun u hu k _ => (relSet_unaligned u k).trans hu
    rw [← hs1, State.relSet, State.flag_setF_same _ _ _ _ (by decide)]
    rfl
  · refine List.foldlRecOn (List.range 64) _ (motive := OctsRegs (s.dequeue 0x0206 c)) ?_ fun u hu k _ => hu.unaligned k
    rw [← hs1]
    exact (OctsRegs.refl _).setF _ _ _
  · exact foldl_local (P := Unaligned) (Q := fun _ _ => True) List.nodup_range (fun _ _ => trivial) (fun u k _ _ => unaligned_self u k)
      (fun _ _ _ _ _ _ => trivial) (fun u k _ i hi h => h.of_unaligned hi) (List.mem_range.2 ho)

/-- Settles O15: each lane command passes its checks, and its effect is a change of its octets' registers and state that its reply finds. -/
theorem laneCommandsTakeEffect : Obligations.LaneCommandsTakeEffect := by
  unfold Obligations.LaneCommandsTakeEffect
  intro s c
  refine ⟨fun h hlen hfits hready => ⟨fun hrung => laneLadder_asks h hlen hfits hready hrung,
    fun o ho hrung => laneLadder_refused h hlen hready ho hrung⟩, fun h hlen hfits hrx hctl hos => ?_,
    fun h hlen o ho hrx hfault => laneSleep_refused h hlen ho hrx hfault, fun h hlen hfits hfault hrx hlad => ?_,
    fun h hlen hfits => laneStatus_reads h hlen hfits, fun h hlen hfault => ?_, fun h hlen hfits hint => ?_⟩
  · obtain ⟨e, hans, hocts, hwoken, hother⟩ := laneSleep_wakes h hlen hfits hrx hctl hos
    obtain ⟨hshape, hlanes⟩ := hocts.shape
    exact ⟨e, hans, hshape, hlanes.trans (congrArg SlSt.lanes (s.dequeue_sl 0x0202 c)), hwoken, hother⟩
  · obtain ⟨e, hans, hreg, hshape, hother⟩ := lanePrbs_sends h hlen hfits ⟨hfault, hrx, hlad⟩
    exact ⟨e, hans, hreg, hshape, fun p _ hp => hother p hp⟩
  · obtain ⟨e, hexec, hctl, htodo⟩ := adcAccess_waits h hlen hfault
    have hshape : e = { s.dequeue 0x0205 c with sl := e.sl, out := e.out } := by rw [hctl.eq]
    exact ⟨e, hexec, hshape, hctl.lanes.trans (congrArg SlSt.lanes (s.dequeue_sl _ c)), fun p _ hp => (hctl.oct p hp).trans (oct_dequeue s _ c p), htodo⟩
  · obtain ⟨e, hans, hrel, hocts, hun⟩ := releaseSet_unsets h hlen hfits hint
    obtain ⟨hshape, hlanes⟩ := hocts.shape
    exact ⟨e, hans, hrel, hshape, hlanes.trans (congrArg SlSt.lanes (s.dequeue_sl 0x0206 c)), fun o j ho hj => ⟨(hun o ho).1, (hun o ho).2 j hj⟩⟩

end Sys2Proof.Machine
end

-- ==== Sample lanes: Saffron and the slices leave the samples as they are ====
section

namespace Sys2Proof.Machine

-- One thread: with a thread for each of so many lemmas Lean runs out of the stack memory that the check leaves it.
set_option Elab.async false

variable {s t : State}

/-- Whatever the fields apart from the lanes and the slices are given. -/
theorem SamplesKept.others (h : SamplesKept s t) {regs : Tbl Word} {shadow staged : Tbl (Option Word)} {fresh : Tbl Word} {time : TimeSt} {cp : CpSt}
    {events : List Event} {et : Tbl PortSt} {mem : Tbl Byte} {ch : ChSt} {ix : IxSt} {wd : WdSt} {sf : SfSt} {ct : CtSt} {dr : DrSt} {tm : TmSt}
    {dm : DmSt} {ml : MlSt} {pw : PwSt} {lc : LcSt} {log : List LogEntry} {out : List Out} {free : Nat} {pending : List Instr} :
    SamplesKept s (State.mk regs shadow staged fresh time cp events et mem t.sl t.md ch ix wd sf ct dr tm dm ml pw lc log out free pending) :=
  h.congr rfl rfl

/-- A state on the way to the goal, named once. -/
theorem SamplesKept.andThen {p : Prop} (h : SamplesKept s t) (k : SamplesKept s t → p) : p := k h

/-! ### Configuration, memory and slices -/

theorem SamplesKept.config (h : SamplesKept s t) (a : Nat) (v : Word) : SamplesKept s (t.config a v) := h.congr (t.config_sl _ _) (t.config_md _ _)

theorem SamplesKept.configAll (h : SamplesKept s t) (l : List (Nat × Word)) : SamplesKept s (t.configAll l) :=
  h.congr (t.configAll_sl _) (t.configAll_md _)

theorem SamplesKept.violation (h : SamplesKept s t) (src kind addr data : Nat) : SamplesKept s (t.violation src kind addr data) :=
  h.congr (t.violation_sl _ _ _ _) (t.violation_md _ _ _ _)

theorem SamplesKept.drUe (h : SamplesKept s t) (a : Nat) : SamplesKept s (t.drUe a) := (((h.bump _).setReg64 _ _).logEvent _ _ _).seen _ _ _

theorem SamplesKept.drWrite (h : SamplesKept s t) (a : Nat) (bs : List Byte) : SamplesKept s (t.drWrite a bs) :=
  (h.memWrite a bs).others.foldl fun _ _ hu => hu.drUe _

theorem SamplesKept.drStore (h : SamplesKept s t) (a : Nat) (bs : List Byte) : SamplesKept s (t.drStore a bs) :=
  .ite (h.drWrite a bs) (h.violation _ _ _ _)

theorem SamplesKept.setSlice (h : SamplesKept s t) (k : Nat) (m : MdSlice) : SamplesKept s (t.setSlice k m) := h.trans ⟨rfl, rfl, rfl⟩

theorem SamplesKept.ringBlock (h : SamplesKept s t) (k path st flags : Nat) (last : Bool) (data : List Byte) :
    SamplesKept s (t.ringBlock k path st flags last data) := ((h.drStore _ _).setSlice _ _).setReg _ _

theorem SamplesKept.blockOut (h : SamplesKept s t) (k : Nat) (w : OutWait) : SamplesKept s (t.blockOut k w) :=
  .ite (h.ringBlock _ _ _ _ _ _) (h.setSlice _ _)

theorem SamplesKept.portDrain (h : SamplesKept s t) (k : Nat) : SamplesKept s (t.portDrain k) :=
  (h.setSlice _ _).foldl fun _ _ hu => hu.blockOut _ _

theorem SamplesKept.zeroSpectra (h : SamplesKept s t) (k st n : Nat) : SamplesKept s (t.zeroSpectra k st n) := h.trans ⟨rfl, rfl, rfl⟩

theorem SamplesKept.fills (h : SamplesKept s t) (l : List Fill) : SamplesKept s { t with md := { t.md with fills := l } } := h.trans ⟨rfl, rfl, rfl⟩

/-- A slice that raises an exception takes its samples no further, and changes none. -/
theorem SamplesKept.sliceExc (h : SamplesKept s t) (k code : Nat) : SamplesKept s (t.sliceExc k code) := by
  unfold State.sliceExc
  extract_lets _ _ _ _ _ _ _ s3
  have h3 : SamplesKept s s3 := (((((h.setSlice _ _).setF _ _ _).setF _ _ _).setF _ _ _).setSeenB _ _ _).raise _
  exact (((SamplesKept.ite (h3.logEvent _ _ _) h3).portDrain k).fills _).zeroSpectra _ _ _

theorem SamplesKept.lateCheck (h : SamplesKept s t) : SamplesKept s t.lateCheck := h.foldl fun _ _ hu => .ite (hu.sliceExc _ _) hu

/-! ### Swaps at a spectrum boundary -/

theorem SamplesKept.setScale (h : SamplesKept s t) (p : Nat) (x : ScaleSt) : SamplesKept s (t.setScale p x) := h.others

theorem SamplesKept.seedNow (h : SamplesKept s t) (p : Nat) : SamplesKept s (t.seedNow p) :=
  .ite (h.setScale _ _) (((h.setScale _ _).setFB _ _ _ _).bump _)

theorem SamplesKept.queuedFlags (h : SamplesKept s t) : SamplesKept s t.queuedFlags :=
  ((h.setF _ _ _).setF _ _ _).foldl fun _ _ hu => hu.setF _ _ _

theorem SamplesKept.schedSync (h : SamplesKept s t) : SamplesKept s t.schedSync := (h.queuedFlags.setF _ _ _).setReg64 _ _

theorem SamplesKept.calSwitch (h : SamplesKept s t) (k : Nat) : SamplesKept s (t.calSwitch k) := ((h.others.setF _ _ _).setF _ _ _).schedSync

theorem SamplesKept.calSwap (h : SamplesKept s t) (k st : Nat) : SamplesKept s (t.calSwap k st) :=
  .ite (.ite (h.calSwitch _) ((h.calSwitch _).foldl fun _ _ hu => .ite (hu.seedNow _) hu)) h

theorem SamplesKept.swapReached (h : SamplesKept s t) (k st : Nat) : SamplesKept s (t.swapReached k st) := (h.setSlice _ _).setF _ _ _

theorem SamplesKept.spectrumEnd (h : SamplesKept s t) (st : Nat) : SamplesKept s (t.spectrumEnd st) :=
  h.foldl fun _ _ hu => .ite ((SamplesKept.ite hu ((hu.calSwap _ _).swapReached _ _)).zeroSpectra _ _ _)
    (SamplesKept.ite hu ((hu.calSwap _ _).swapReached _ _))

/-! ### Saffron, one sample period -/

theorem SamplesKept.setTb (h : SamplesKept s t) (k : Nat) (x : TbSt) : SamplesKept s (t.setTb k x) := h.others.setF _ _ _

theorem SamplesKept.train (h : SamplesKept s t) (k : Nat) : SamplesKept s (t.train k) := (h.setTb _ _).setF _ _ _

theorem SamplesKept.configTable (h : SamplesKept s t) : SamplesKept s t.configTable := h.foldl fun _ _ hu => hu.setReg _ _

theorem SamplesKept.trigApply (h : SamplesKept s t) (ws : List Word) : SamplesKept s (t.trigApply ws) :=
  (h.configAll _).configTable.foldl fun _ _ hu => .ite (hu.train _) hu

theorem SamplesKept.trigCfgs (h : SamplesKept s t) (n : Nat) : SamplesKept s (t.trigCfgs n) := h.others.foldl fun _ _ hu => hu.trigApply _

theorem SamplesKept.sfTake (h : SamplesKept s t) (smp : Nat → Smp) : SamplesKept s (t.sfTake smp) := by
  unfold State.sfTake
  extract_lets _ _ _ _ s1
  have h1 : SamplesKept s s1 := h.others
  exact .ite h1 ((h1.bumpBy _ _ _).seen _ _ _)

theorem SamplesKept.tbLive (h : SamplesKept s t) (k : Nat) : SamplesKept s (t.tbLive k) :=
  .ite ((SamplesKept.ite h (h.train _)).setTb _ _) (((h.setTb _ _).setF _ _ _).setF _ _ _)

theorem SamplesKept.tbStep (h : SamplesKept s t) (k : Nat) : SamplesKept s (t.tbStep k) :=
  .ite (h.tbLive _) (.ite (((h.tbLive _).setTb _ _).setF _ _ _)
    (.ite ((((h.tbLive _).setTb _ _).setF _ _ _).bump _) (((h.tbLive _).setTb _ _).setF _ _ _)))

theorem SamplesKept.tbReplaced (h : SamplesKept s t) (repl : Tbl Bool) (k : Nat) : SamplesKept s (t.tbReplaced repl k) := by
  unfold State.tbReplaced
  extract_lets _ _ s1
  have h1 : SamplesKept s s1 := h.setF _ _ _
  exact .ite ((h1.train _).seen _ _ _) h1

theorem SamplesKept.cuTake (h : SamplesKept s t) (c : Nat) : SamplesKept s (t.cuTake c) := .ite h h.others

theorem SamplesKept.cuStep (h : SamplesKept s t) (c : Nat) : SamplesKept s (t.cuStep c) := .ite ((h.cuTake _).bump _) (h.cuTake _)

theorem SamplesKept.outStep (h : SamplesKept s t) (n : Nat) : SamplesKept s (t.outStep n).1 := h.others.setF _ _ _

theorem SamplesKept.c0Offer (h : SamplesKept s t) (n : Nat) (f : TxFrame) : SamplesKept s (t.c0Offer n f) := .ite ((h.setPort _ _).txPut _ _) (h.c0Wait _ _)

theorem SamplesKept.trigOffer (h : SamplesKept s t) (m : TrigMsg) : SamplesKept s (t.trigOffer m) := by
  refine .ite h ?_
  extract_lets s1
  have h1 : SamplesKept s s1 := (h.bump _).foldl fun _ _ hu => .ite (hu.c0Offer _ _) hu
  exact .ite (h1.seen _ _ _) h1

theorem SamplesKept.trigFlush (h : SamplesKept s t) (ms : List TrigMsg) : SamplesKept s (t.trigFlush ms) := by
  induction ms generalizing t with
  | nil => exact h.others
  | cons m ms ih => exact .ite (ih (h.trigOffer m)) h.others

theorem SamplesKept.msgEvent (h : SamplesKept s t) (m : TrigMsg) : SamplesKept s (t.msgEvent m) := .ite h (.ite h.others (h.others.others.trigFlush _))

theorem SamplesKept.ubFrozenNow (h : SamplesKept s t) : SamplesKept s t.ubFrozenNow := (((h.setF _ _ _).setReg _ _).setReg _ _).others.raise _

theorem SamplesKept.ubCutShort (h : SamplesKept s t) : SamplesKept s t.ubCutShort := by
  unfold State.ubCutShort
  split
  · exact h.others
  · exact h.ubFrozenNow

theorem SamplesKept.freeze (h : SamplesKept s t) (at_ : Nat) : SamplesKept s (t.freeze at_) :=
  ((h.setReg64 _ _).setF _ _ _).andThen fun h1 => .ite (.ite h1.ubCutShort h1.others) (h.bump _)

theorem SamplesKept.triggers (h : SamplesKept s t) (n mask : Nat) : SamplesKept s (t.triggers n mask) :=
  (SamplesKept.ite (h.freeze _) h).andThen fun h1 => .ite h (.ite h1 (h1.msgEvent _))

theorem SamplesKept.ubFill (h : SamplesKept s t) (n : Nat) : SamplesKept s (t.ubFill n) := by
  unfold State.ubFill
  split
  · exact h
  · exact .ite h.others h

theorem SamplesKept.ubReach (h : SamplesKept s t) (next b : Nat) (c : UbChange) : SamplesKept s (t.ubReach next b c) :=
  .ite (h.others.setF _ _ _) (.ite h.others.others (.ite h.others.others h.others))

theorem SamplesKept.ubRegsWrite (h : SamplesKept s t) (c : UbChange) : SamplesKept s (t.ubRegsWrite c) := by
  unfold State.ubRegsWrite
  extract_lets s1 s2
  have h1 : SamplesKept s s1 := (h.setReg64 _ _).setF _ _ _
  have h2 : SamplesKept s s2 := by
    unfold s2
    split
    · exact h1.configAll _
    · exact h1
  split
  · exact (h2.config _ _).config _ _
  · exact h2

theorem SamplesKept.ubWrite (h : SamplesKept s t) (c : UbChange) : SamplesKept s (t.ubWrite c) := (h.ubRegsWrite _).setF _ _ _

theorem SamplesKept.ubCut (h : SamplesKept s t) (span : Nat) : SamplesKept s (t.ubCut span) :=
  .ite (((h.setReg _ _).bumpBy _ _ _).seen _ _ _) (h.setReg _ _)

theorem SamplesKept.ubTurn (h : SamplesKept s t) (c : UbChange) : SamplesKept s (t.ubTurn c) := by
  unfold State.ubTurn
  extract_lets _ _ _ s2
  have h2 : SamplesKept s s2 := .ite (((h.ubWrite _).setF _ _ _).ubCut _) ((((h.ubWrite _).setF _ _ _).ubCut _).setReg _ _)
  exact .ite (h2.setF _ _ _) (.ite (h2.setF _ _ _) h2)

theorem SamplesKept.ubLoaded (h : SamplesKept s t) : SamplesKept s t.ubLoaded := ((h.setReg _ _).setF _ _ _).others

theorem SamplesKept.takeTurn (h : SamplesKept s t) (c : UbTurn) : SamplesKept s (t.takeTurn c) := by
  unfold State.takeTurn
  split
  · exact h.ubTurn _
  · exact h.ubLoaded

theorem SamplesKept.ubTurns (h : SamplesKept s t) : SamplesKept s t.ubTurns := (h.others.foldl fun _ _ hu => hu.takeTurn _).setF _ _ _

theorem SamplesKept.ubChanges (h : SamplesKept s t) (next : Nat) : SamplesKept s (t.ubChanges next) :=
  (h.others.foldl fun _ _ hu => hu.ubReach _ _ _).ubTurns

/-- Saffron takes a sample period's samples, and leaves them. -/
theorem SamplesKept.saffron (h : SamplesKept s t) (n : Nat) (smp : Nat → Smp) : SamplesKept s (t.saffron n smp) := by
  unfold State.saffron
  extract_lets _ s1 s' s2 s3 r
  have h1 : SamplesKept s s1 := ((h.trigCfgs n).sfTake smp).foldl fun _ k hu => hu.tbReplaced _ k
  have h2 : SamplesKept s s2 := h1.others.foldl fun _ k hu => hu.tbStep k
  have h3 : SamplesKept s s3 := h2.foldl fun _ c hu => hu.cuStep c
  have hr : SamplesKept s r.1 := h3.outStep n
  exact (((hr.triggers n r.2).ubFill n).ubChanges (n + 1)).others

end Sys2Proof.Machine
end

-- ==== Sample lanes: lock, the release point, release, rejoin and PRBS ====
section

namespace Sys2Proof.Machine

variable {s t u : State} {o j : Nat}

/-! ### PRBS checking (R97) -/

/-- A 32-bit counter after `n` more events: at all ones it stays (R21). -/
theorem State.reg_bumpBy_same (s : State) (a n : Nat) : (s.bumpBy a counter32 n).reg a = w32 (min (2 ^ 32 - 1) ((s.reg a).toNat + n)) := by
  have hc : s.rf a counter32 = (s.reg a).toNat := by simp [State.rf, fget, counter32, Nat.mod_eq_of_lt (s.reg a).isLt]
  rw [State.bumpBy, State.reg_note, State.setF, State.reg_setReg_same, fput_whole, hc]
  rfl

/-- The lane's checker has run on to `p`, and `n` more bits have differed. -/
def checkerRun (s : State) (o j : Nat) (p : List Bool) (n : Nat) : State :=
  (s.setLane o j { s.lane o j with prbs := some p }).bumpBy (SL_LANE_PRBSERR o j) counter32 n

theorem checkerRun_shape (s : State) (o j : Nat) (p : List Bool) (n : Nat) :
    checkerRun s o j p n = { s with sl := (checkerRun s o j p n).sl, regs := (checkerRun s o j p n).regs, fresh := (checkerRun s o j p n).fresh } := (rfl)

theorem prbsPattern_checks (hon : s.on = true) (bs : List Bool) {last : List Bool} (hen : s.flag (SL_OCT_PRBS o) SL_OCT_PRBS_CHK_EN = true)
    (hlane : s.rfb (SL_OCT_PRBS o) SL_OCT_PRBS_CHK_LANES j = true) (hne : last ≠ []) (hp : (s.lane o j).prbs = some last) :
    let q := prbsRun (s.rf (SL_OCT_PRBS o) SL_OCT_PRBS_PAT) last (bs.map (Bool.xor (s.lane o j).inv))
    exec (.prbsPatternReceived o j bs) s = .next (checkerRun s o j q.1 q.2) := by
  intro q
  obtain ⟨b, l, rfl⟩ := List.exists_cons_of_ne_nil hne
  have hi : exec (.prbsPatternReceived o j bs) s = execPrbsPatternReceived o j bs s := rfl
  rw [hi, execPrbsPatternReceived, whenOn_on hon]
  simp only [hen, hlane, hp, Bool.and_self, Bool.not_true, Bool.false_eq_true, if_false]
  rfl

/-! ### Rejoin (R94) -/

theorem seedNow_keeps (s : State) (p o : Nat) :
    (s.seedNow p).sl = s.sl ∧ (s.seedNow p).md = s.md ∧ (s.seedNow p).reg (SL_OCT_STAT o) = s.reg (SL_OCT_STAT o) := by
  unfold State.seedNow
  split
  · exact ⟨rfl, rfl, rfl⟩
  · refine ⟨by simp [State.setScale], by simp [State.setScale], ?_⟩
    rw [State.reg_bump_ne _ (by unfold SL_OCT_STAT MD_CH_SL_SEEDS; omega), State.reg_setFB_ne _ _ _ _ (by unfold SL_OCT_STAT MD_CH_SL_STAT; omega)]
    rfl

/-- The lane that carries path `i` serves it again. -/
def servesAgain (s : State) (o j i : Nat) : State :=
  (s.setFB (SL_OCT_STAT o) SL_OCT_STAT_IN_SERVICE i true).setLane o j { s.lane o j with wait := false }

/-- The slice of path `i` takes its samples from array time `b` on. -/
def backFrom (s : State) (o i b : Nat) : State := s.setSlice o { s.slice o with back := tblSet 0 (s.slice o).back i b }

theorem rejoin_cases {i : Nat} (hlane : s.laneOf o i = some j) (hwait : (s.lane o j).wait = true) (b : Nat) :
    let w := backFrom (servesAgain s o j i) o i (b + 1)
    s.rejoin o i b = w ∨ (∃ x, s.rejoin o i b = w.setScale (8 * o + i) x) ∨ s.rejoin o i b = w.seedNow (8 * o + i) := by
  intro w
  rw [State.rejoin, hlane]
  simp only [hwait, if_true]
  split
  · exact .inl rfl
  · split
    · exact .inr (.inl ⟨_, rfl⟩)
    · exact .inr (.inr rfl)

theorem rejoin_keeps {i : Nat} (hlane : s.laneOf o i = some j) (hwait : (s.lane o j).wait = true) (b : Nat) :
    (s.rejoin o i b).sl = (servesAgain s o j i).sl ∧ (s.rejoin o i b).md = (backFrom (servesAgain s o j i) o i (b + 1)).md ∧
      (s.rejoin o i b).reg (SL_OCT_STAT o) = (servesAgain s o j i).reg (SL_OCT_STAT o) := by
  rcases rejoin_cases hlane hwait b with h | ⟨x, h⟩ | h <;> rw [h]
  · exact ⟨rfl, rfl, rfl⟩
  · exact ⟨rfl, rfl, rfl⟩
  · exact seedNow_keeps _ _ _

theorem pathRejoin_serves {i : Nat} (hon : s.on = true) (hi8 : i < 8) (hrun : s.running = true) (hlane : s.laneOf o i = some j)
    (hwait : (s.lane o j).wait = true) (hmay : s.mayServe o j = true) (hclean : 64 ≤ (s.lane o j).clean) (hat : s.rejoinAt s.sl.next = s.sl.next) :
    ∃ t, exec (.pathRejoin o i) s = .next t ∧ t.inService o i = true ∧ (t.lane o j).wait = false ∧ tblGet 0 (t.slice o).back i = s.sl.next + 1 := by
  have hi : exec (.pathRejoin o i) s = execPathRejoin o i s := rfl
  have hready : s.rejoinReady o i = true := by
    unfold State.rejoinReady
    rw [hlane]
    simp only [hwait, hmay, hclean, if_true, Bool.true_and, decide_true]
  have hats : s.rejoinsAt s.sl.next = true := by rw [State.rejoinsAt, hat, beq_self_eq_true, Bool.true_or]
  obtain ⟨hsl, hmd, hreg⟩ := rejoin_keeps hlane hwait s.sl.next
  refine ⟨s.rejoin o i s.sl.next, ?_, ?_, ?_, ?_⟩
  · rw [hi, execPathRejoin, whenOn_on hon, hrun, hready, hats]
    rfl
  · rw [State.inService, State.rfb_of_reg hreg]
    exact s.rfb_setFB_same _ true (by decide) hi8
  · rw [State.lane_of_lanes (congrArg SlSt.lanes hsl), servesAgain, State.lane_setLane_same]
  · obtain ⟨v, hv⟩ : ∃ v, servesAgain s o j i = v := ⟨_, rfl⟩
    have hs : (s.rejoin o i s.sl.next).slice o = { v.slice o with back := tblSet 0 (v.slice o).back i (s.sl.next + 1) } := by
      rw [State.slice, hmd, hv]
      exact tblGet_set_same _ _ _ _
    rw [hs]
    dsimp only
    exact tblGet_set_same 0 _ _ _

/-! ### The release point (R79, R80) -/

/-- A register of an octet's offset. -/
def offsetReg (a : Nat) : Prop := ∃ p, a = SL_OCT_OFS_LO p ∨ a = SL_OCT_OFS_LO p + 4

theorem not_offsetReg_relStat : ¬ offsetReg SL_REL_STAT := by
  rintro ⟨p, h | h⟩ <;> simp only [SL_REL_STAT, SL_OCT_OFS_LO] at h <;> omega

theorem not_offsetReg_octStat (o : Nat) : ¬ offsetReg (SL_OCT_STAT o) := by
  rintro ⟨p, h | h⟩ <;> simp only [SL_OCT_STAT, SL_OCT_OFS_LO] at h <;> omega

theorem not_offsetReg_laneStat (o j : Nat) : ¬ offsetReg (SL_LANE_STAT o j) := by
  rintro ⟨p, h | h⟩ <;> simp only [SL_LANE_STAT, SL_OCT_OFS_LO] at h <;> omega

/-- The octets store their offsets; lanes and other registers stand. -/
theorem rederive_keeps (s : State) (d : Int) : (s.rederive d).sl.lanes = s.sl.lanes ∧ ∀ a, ¬ offsetReg a → (s.rederive d).reg a = s.reg a := by
  refine List.foldlRecOn (List.range 64) _ (motive := fun u : State => u.sl.lanes = s.sl.lanes ∧ ∀ a, ¬ offsetReg a → u.reg a = s.reg a)
    ⟨rfl, fun _ _ => rfl⟩ fun u hu p _ => ?_
  obtain ⟨hl, hr⟩ := hu
  dsimp only
  split
  · refine ⟨hl, fun a ha => ?_⟩
    rw [State.reg_setReg64_ne _ _ (fun e => ha ⟨p, .inl e⟩) (fun e => ha ⟨p, .inr e⟩), State.reg_setOct, hr a ha]
  · exact ⟨hl, hr⟩

theorem putLead_sl (s : State) (o j : Nat) (d : Int) : (s.putLead o j d).sl = s.sl := by
  obtain ⟨v, h | h⟩ := putLead_eq s o j d <;> rw [h]
  · exact State.setF_sl _ _ _ _
  · exact (State.draw_sl _).trans (State.setF_sl _ _ _ _)

theorem reg_putLead_ne (s : State) {o j a : Nat} (d : Int) (h : a ≠ SL_LANE_STAT o j) : (s.putLead o j d).reg a = s.reg a := by
  obtain ⟨v, e | e⟩ := putLead_eq s o j d <;> rw [e]
  · exact s.reg_setF_ne _ _ h
  · exact s.reg_setF_ne _ _ h

theorem rf_putLead_apart (s : State) (o j : Nat) (d : Int) {f : Fld} (h : SL_LANE_STAT_LEAD.apart f) :
    (s.putLead o j d).rf (SL_LANE_STAT o j) f = s.rf (SL_LANE_STAT o j) f := by
  obtain ⟨v, e | e⟩ := putLead_eq s o j d <;> rw [e]
  · exact s.rf_setF_apart _ _ _ _ (by decide) h
  · exact s.rf_setF_apart _ _ _ _ (by decide) h

/-- A lane outside the lead window leaves service (R80). -/
def skewed (s : State) (o j : Nat) (d : Int) : State := ((s.putLead o j d).setF (SL_LANE_STAT o j) SL_LANE_STAT_SKEW_RANGE 1).outOfService o j

theorem leadSet_eq (s : State) (q : Nat × Int) : s.leadSet q =
    if s.locked (q.1 / 8) (q.1 % 8) && leadOut q.2 then skewed s (q.1 / 8) (q.1 % 8) q.2 else s.putLead (q.1 / 8) (q.1 % 8) q.2 := (rfl)

theorem leadOut_eq_false {d : Int} (h0 : 0 ≤ d) (h1 : d ≤ 1600) : leadOut d = false := by
  rw [leadOut, decide_eq_false (by omega), decide_eq_false (by omega), Bool.or_self]

theorem leadOut_eq_true {d : Int} (h : d < 0 ∨ 1600 < d) : leadOut d = true := by
  rw [leadOut, Bool.or_eq_true, decide_eq_true_eq, decide_eq_true_eq]
  exact h

theorem lanes_leadSet {q : Nat × Int} (h0 : 0 ≤ q.2) (h1 : q.2 ≤ 1600) : (s.leadSet q).sl.lanes = s.sl.lanes := by
  rw [leadSet_eq, leadOut_eq_false h0 h1, Bool.and_false, if_neg Bool.false_ne_true, putLead_sl]

theorem relSet_skewed (s : State) (o j : Nat) (d : Int) : (skewed s o j d).relSet = s.relSet :=
  State.flag_of_reg (by
    rw [skewed, State.outOfService, State.reg_setLane, State.reg_setFB_ne _ _ _ _ (by unfold SL_REL_STAT SL_OCT_STAT; omega),
      State.reg_setF_ne _ _ _ (relStat_ne_laneStat o j), reg_putLead_ne _ _ (relStat_ne_laneStat o j)]) _

theorem relSet_leadSet (s : State) (q : Nat × Int) : (s.leadSet q).relSet = s.relSet := by
  rw [leadSet_eq]
  split
  · exact relSet_skewed _ _ _ _
  · exact State.flag_of_reg (reg_putLead_ne _ _ (relStat_ne_laneStat _ _)) _

/-- A lane taken out of service for its lead: its path, its wait to rejoin, SKEW_RANGE and the lead that LEAD can hold. -/
theorem skewed_leaves (s : State) (o j : Nat) (d : Int) (hidx : (s.lane o j).idx < 8) : (skewed s o j d).inService o (s.lane o j).idx = false ∧
    ((skewed s o j d).lane o j).wait = true ∧ (skewed s o j d).rf (SL_LANE_STAT o j) SL_LANE_STAT_SKEW_RANGE = 1 ∧
    (0 ≤ d → d < 65536 → (skewed s o j d).rf (SL_LANE_STAT o j) SL_LANE_STAT_LEAD = d.toNat) := by
  obtain ⟨v, hv⟩ : ∃ v, (s.putLead o j d).setF (SL_LANE_STAT o j) SL_LANE_STAT_SKEW_RANGE 1 = v := ⟨_, rfl⟩
  have hlane : v.lane o j = s.lane o j := by rw [← hv, State.lane_setF, State.lane_of_lanes (congrArg SlSt.lanes (putLead_sl s o j d))]
  have hreg : (v.outOfService o j).reg (SL_LANE_STAT o j) = v.reg (SL_LANE_STAT o j) := by
    rw [State.outOfService, State.reg_setLane, State.reg_setFB_ne _ _ _ _ (laneStat_ne_octStat o j o)]
  rw [skewed, hv]
  refine ⟨?_, ?_, ?_, fun h0 h1 => ?_⟩
  · rw [State.outOfService, State.inService, State.rfb_of_reg (State.reg_setLane _ _ _ _ _), hlane]
    exact v.rfb_setFB_same _ false (by decide) hidx
  · rw [State.outOfService, State.lane_setLane_same]
  · rw [State.rf_of_reg hreg, ← hv, State.rf_setF_same _ _ _ _ (by decide)]
    rfl
  · rw [State.rf_of_reg hreg, ← hv, State.rf_setF_apart _ _ _ _ _ (by decide) (.inr (by decide)), putLead_held s o j h0 h1,
      State.rf_setF_same _ _ _ _ (by decide)]
    exact Nat.mod_eq_of_lt (show d.toNat < 65536 by omega)

/-- The release point stands, set from rung `r`. -/
def pointSet (s : State) (r : Nat) : State := (s.setF SL_REL_STAT SL_REL_STAT_SET 1).setF SL_REL_STAT SL_REL_STAT_REL_RUNG r

theorem relSet_pointSet (s : State) (r : Nat) : (pointSet s r).relSet = true := by
  rw [State.relSet, pointSet, State.flag_of_rf (State.rf_setF_apart _ _ _ _ _ (by decide) (.inl (by decide))), State.flag_setF_same _ _ _ _ (by decide)]
  rfl

theorem pointSet_sl (s : State) (r : Nat) : (pointSet s r).sl = s.sl := by rw [pointSet, State.setF_sl, State.setF_sl]

theorem reg_pointSet_ne (s : State) {a : Nat} (r : Nat) (h : a ≠ SL_REL_STAT) : (pointSet s r).reg a = s.reg a := by
  rw [pointSet, State.reg_setF_ne _ _ _ h, State.reg_setF_ne _ _ _ h]

/-- The offsets follow once the release point is set. -/
def offsetsStored (s : State) : State := if s.running then s.rederive (s.now - s.latency) else s

theorem offsetsStored_keeps (s : State) : (offsetsStored s).sl.lanes = s.sl.lanes ∧ ∀ a, ¬ offsetReg a → (offsetsStored s).reg a = s.reg a := by
  unfold offsetsStored
  split
  · exact rederive_keeps _ _
  · exact ⟨rfl, fun _ _ => rfl⟩

theorem exec_releasePointSet (hon : s.on = true) (ho : o < 64) (leads : List (Nat × Int)) (hrel : s.relSet = false)
    (hended : ∀ k < 64, (s.oct k).first = true ∨ s.flag (SL_OCT_CTL k) SL_OCT_CTL_RX_SLEEP = true) (hserve : s.rf (SL_OCT_STAT o) SL_OCT_STAT_IN_SERVICE ≠ 0) :
    ∃ r, exec (.releasePointSet leads) s = .next (offsetsStored (leads.foldl State.leadSet (pointSet s r))) := by
  have hi : exec (.releasePointSet leads) s = execReleasePointSet leads s := rfl
  have hend : s.laddersEnded = true := List.all_eq_true.2 fun k hk => by
    rw [Bool.or_eq_true]
    exact hended k (List.mem_range.1 hk)
  have hmem : o ∈ (List.range 64).filter fun o => s.rf (SL_OCT_STAT o) SL_OCT_STAT_IN_SERVICE != 0 :=
    List.mem_filter.2 ⟨List.mem_range.2 ho, bne_iff_ne.2 hserve⟩
  have hne : ((List.range 64).filter fun o => s.rf (SL_OCT_STAT o) SL_OCT_STAT_IN_SERVICE != 0).isEmpty = false :=
    List.isEmpty_eq_false_iff.2 (List.ne_nil_of_mem hmem)
  rw [hi, execReleasePointSet, whenOn_on hon]
  dsimp only
  rw [hrel, hend, hne, if_neg (by decide)]
  exact ⟨_, rfl⟩

theorem releasePointSet_sets (hon : s.on = true) (ho : o < 64) (hj : j < 8) (leads : List (Nat × Int)) (hrel : s.relSet = false)
    (hended : ∀ k < 64, (s.oct k).first = true ∨ s.flag (SL_OCT_CTL k) SL_OCT_CTL_RX_SLEEP = true) (hserve : s.rf (SL_OCT_STAT o) SL_OCT_STAT_IN_SERVICE ≠ 0) :
    ∃ t, exec (.releasePointSet leads) s = .next t ∧ t.relSet = true ∧ ((∀ q ∈ leads, 0 ≤ q.2 ∧ q.2 ≤ 1600) → t.sl.lanes = s.sl.lanes) ∧
      (∀ lead, leads = [(8 * o + j, lead)] → s.locked o j = true → (s.lane o j).idx < 8 → lead < 0 ∨ 1600 < lead →
        t.inService o (s.lane o j).idx = false ∧ (t.lane o j).wait = true ∧ t.rf (SL_LANE_STAT o j) SL_LANE_STAT_SKEW_RANGE = 1 ∧
        (0 ≤ lead → lead < 65536 → t.rf (SL_LANE_STAT o j) SL_LANE_STAT_LEAD = lead.toNat)) := by
  obtain ⟨r, hr⟩ := exec_releasePointSet hon ho leads hrel hended hserve
  obtain ⟨v, hv⟩ : ∃ v, pointSet s r = v := ⟨_, rfl⟩
  have hvlanes : v.sl.lanes = s.sl.lanes := by
    rw [← hv, pointSet_sl]
  rw [hv] at hr
  obtain ⟨hlanes, hregs⟩ := offsetsStored_keeps (leads.foldl State.leadSet v)
  refine ⟨_, hr, ?_, fun hin => ?_, fun lead hleads hlock hidx hout => ?_⟩
  · rw [State.relSet, State.flag_of_reg (hregs _ not_offsetReg_relStat)]
    refine List.foldlRecOn leads State.leadSet (motive := fun u : State => u.relSet = true) ?_ fun u hu q _ => (relSet_leadSet u q).trans hu
    rw [← hv, relSet_pointSet]
  · refine hlanes.trans (List.foldlRecOn leads State.leadSet (motive := fun u : State => u.sl.lanes = s.sl.lanes) hvlanes fun u hu q hq => ?_)
    obtain ⟨h0, h1⟩ := hin q hq
    exact (lanes_leadSet h0 h1).trans hu
  · have hvlock : v.locked o j = true := by
      rw [← hv, locked_of_reg (reg_pointSet_ne s r (relStat_ne_laneStat o j).symm), hlock]
    have hvlane : v.lane o j = s.lane o j := State.lane_of_lanes hvlanes o j
    have hfold : leads.foldl State.leadSet v = skewed v o j lead := by
      rw [hleads, List.foldl_cons, List.foldl_nil, leadSet_eq]
      dsimp only
      rw [show (8 * o + j) / 8 = o by omega, show (8 * o + j) % 8 = j by omega, hvlock, leadOut_eq_true hout]
      exact if_pos rfl
    obtain ⟨hserv, hwait, hskew, hlead⟩ := skewed_leaves v o j lead (by rw [hvlane]; exact hidx)
    rw [hfold] at hlanes hregs
    rw [hvlane] at hserv
    rw [hfold, State.inService, State.rfb_of_reg (hregs _ (not_offsetReg_octStat o)), State.lane_of_lanes hlanes,
      State.rf_of_reg (hregs _ (not_offsetReg_laneStat o j)), State.rf_of_reg (hregs _ (not_offsetReg_laneStat o j))]
    exact ⟨hserv, hwait, hskew, hlead⟩

/-! ### Lock (R74, R76, R77) -/

theorem sendHello_keeps (s : State) (o : Nat) :
    (s.sendHello o).sl.lanes = s.sl.lanes ∧ ∀ a, a ≠ SL_OCT_STAT o → (s.sendHello o).reg a = s.reg a := by
  obtain ⟨v, hv⟩ : ∃ v, (s.setOct o { s.oct o with step := .hello }).setOctState o ocNegotiate = v := ⟨_, rfl⟩
  have h : CtlOnly o v (v.ctlSend o .hello 0x01 (be 1 3 ++ be 1 3)) := (CtlOnly.refl o v).ctlSend _ _ _
  have hl : v.sl.lanes = s.sl.lanes := by
    rw [← hv, State.setOctState, State.setF_sl]
    rfl
  rw [State.sendHello, hv]
  refine ⟨h.lanes.trans hl, fun a ha => ?_⟩
  rw [h.reg a, ← hv, State.setOctState, State.reg_setF_ne _ _ _ ha, State.reg_setOct]

/-- Lanes that have lock at step 0 send the first message, or nothing yet. -/
theorem lanesDone_keeps (h : (s.oct o).step = .lock0) :
    (s.lanesDone o).sl.lanes = s.sl.lanes ∧ ∀ a, a ≠ SL_OCT_STAT o → (s.lanesDone o).reg a = s.reg a := by
  have hne : ¬ ((s.oct o).step = .lanes ∧ s.allLocked o = true) := by simp [h]
  unfold State.lanesDone
  dsimp only
  rw [if_neg hne]
  split
  · exact sendHello_keeps s o
  · exact ⟨rfl, fun _ _ => rfl⟩

/-- A lane with lock: its state `l`, its polarity and index in SL_OCT_MAP, its lead, and SKEW_RANGE. -/
def lockHeld (s : State) (o j : Nat) (l : LaneSt) (lead : Int) (skew : Nat) : State :=
  (((((s.setLane o j l).setF (SL_LANE_STAT o j) SL_LANE_STAT_LOCK 1).setFB (SL_OCT_MAP o) SL_OCT_MAP_POL j l.inv).setF (SL_OCT_MAP o) ⟨3 * j, 3⟩ l.idx).putLead o j
    lead).setF (SL_LANE_STAT o j) SL_LANE_STAT_SKEW_RANGE skew

theorem octMap_ne_laneStat (o p j : Nat) : SL_OCT_MAP o ≠ SL_LANE_STAT p j := by
  unfold SL_OCT_MAP SL_LANE_STAT
  omega

theorem octMap_ne_octStat (o p : Nat) : SL_OCT_MAP o ≠ SL_OCT_STAT p := by
  unfold SL_OCT_MAP SL_OCT_STAT
  omega

theorem lockHeld_lanes (s : State) (o j : Nat) (l : LaneSt) (lead : Int) (skew : Nat) : (lockHeld s o j l lead skew).sl = (s.setLane o j l).sl := by
  rw [lockHeld, State.setF_sl, putLead_sl, State.setF_sl, State.setFB_sl, State.setF_sl]

theorem reg_lockHeld_ne (s : State) {o j a : Nat} (l : LaneSt) (lead : Int) (skew : Nat) (h1 : a ≠ SL_LANE_STAT o j) (h2 : a ≠ SL_OCT_MAP o) :
    (lockHeld s o j l lead skew).reg a = s.reg a := by
  rw [lockHeld, State.reg_setF_ne _ _ _ h1, reg_putLead_ne _ _ h1, State.reg_setF_ne _ _ _ h2, State.reg_setFB_ne _ _ _ _ h2, State.reg_setF_ne _ _ _ h1,
    State.reg_setLane]

theorem locked_lockHeld (s : State) (o j : Nat) (l : LaneSt) (lead : Int) (skew : Nat) : (lockHeld s o j l lead skew).locked o j = true := by
  have hmap := (octMap_ne_laneStat o o j).symm
  rw [lockHeld, locked_of_rf (State.rf_setF_apart _ _ _ _ _ (by decide) (.inl (by decide))), locked_of_rf (rf_putLead_apart _ _ _ _ (.inl (by decide))),
    locked_of_reg (State.reg_setF_ne _ _ _ hmap), locked_of_reg (State.reg_setFB_ne _ _ _ _ hmap), State.locked, State.flag_setF_same _ _ _ _ (by decide)]
  rfl

theorem map_lockHeld (s : State) (o : Nat) (hj : j < 8) {l : LaneSt} (hl : l.idx < 8) (lead : Int) (skew : Nat) :
    (lockHeld s o j l lead skew).rfb (SL_OCT_MAP o) SL_OCT_MAP_POL j = l.inv ∧ (lockHeld s o j l lead skew).rf (SL_OCT_MAP o) ⟨3 * j, 3⟩ = l.idx := by
  have hstat := octMap_ne_laneStat o o j
  obtain ⟨v, hv⟩ : ∃ v, (s.setLane o j l).setF (SL_LANE_STAT o j) SL_LANE_STAT_LOCK 1 = v := ⟨_, rfl⟩
  have hreg : (lockHeld s o j l lead skew).reg (SL_OCT_MAP o) =
      ((v.setFB (SL_OCT_MAP o) SL_OCT_MAP_POL j l.inv).setF (SL_OCT_MAP o) ⟨3 * j, 3⟩ l.idx).reg (SL_OCT_MAP o) := by
    rw [lockHeld, hv, State.reg_setF_ne _ _ _ hstat, reg_putLead_ne _ _ hstat]
  have hfit : 3 * j + 3 ≤ 32 := by omega
  have hap : Fld.apart ⟨3 * j, 3⟩ SL_OCT_MAP_POL := .inl (show 3 * j + 3 ≤ 24 by omega)
  constructor
  · rw [State.rfb_of_reg hreg, State.rfb, State.rf_setF_apart _ _ _ _ _ hfit hap]
    exact v.rfb_setFB_same _ _ (by decide) hj
  · rw [State.rf_of_reg hreg, State.rf_setF_same _ _ _ _ hfit]
    exact Nat.mod_eq_of_lt hl

/-- The lane that the 64 blocks of a lock give. -/
def lockLane (s : State) (o j : Nat) (b7 : Bool) (lane seq count idx : Nat) : LaneSt :=
  { laneReset with
    inv := !b7, idx := lane % 8, seq := seq % 8, count := count % 2 ^ 48, frameCount := count % 2 ^ 48, fmt8 := (s.lockFormat o).1
    fmtNext := (s.lockFormat o).2, head := idx, frameIdx := idx, arrived := s.time.cycles, wait := (s.lane o j).wait, fails := (s.lane o j).fails }

theorem storeOfs_unset (h : s.relSet = false) (o ofs : Nat) : s.storeOfs o ofs = s := by
  rw [State.storeOfs, h, Bool.and_false]
  rfl

theorem exec_blockLockGained (hon : s.on = true) (ho : o < 64) (b7 : Bool) (lane seq count idx ofs : Nat) (lead : Int)
    (hlock : s.locked o j = false) (hlos : s.flag (SL_LANE_STAT o j) SL_LANE_STAT_LOS = false) (hfck : (s.oct o).fck = true) (hdue : s.due o j = true)
    (hstate : s.octState o = ocL0Lock) (hprbs : (s.lane o j).prbs = none) (hrel : s.relSet = false) :
    ∃ skew, exec (.blockLockGained o j b7 lane seq count idx lead ofs) s =
      .next ((((lockHeld s o j (lockLane s o j b7 lane seq count idx) lead skew).orderCheck o).serveAll o).lanesDone o) := by
  have hi : exec (.blockLockGained o j b7 lane seq count idx lead ofs) s = execBlockLockGained o j b7 lane seq count idx lead ofs s := rfl
  have hrx : s.rxOff o = false := by
    have h1 : s.rf (SL_OCT_STAT o) SL_OCT_STAT_STATE = 1 := hstate
    rw [State.rxOff, h1]
    rfl
  have hdown : (s.octState o != ocDown) = true := by
    rw [hstate]
    rfl
  rw [hi, execBlockLockGained, whenOn_on hon]
  dsimp only
  rw [if_neg (by omega), hlock, hlos, hfck, hdue, hrx, hdown, hprbs, if_neg (by simp), storeOfs_unset]
  · exact ⟨_, rfl⟩
  · refine (State.flag_of_reg ?_ _).trans hrel
    exact reg_lockHeld_ne s (lockLane s o j b7 lane seq count idx) lead _ (relStat_ne_laneStat o j) (by unfold SL_REL_STAT SL_OCT_MAP; omega)

theorem blockLockGained_locks (hon : s.on = true) (ho : o < 64) (hj : j < 8) (b7 : Bool) {lane : Nat} (seq count idx ofs : Nat) (lead : Int)
    (hlock : s.locked o j = false) (hlos : s.flag (SL_LANE_STAT o j) SL_LANE_STAT_LOS = false) (hfck : (s.oct o).fck = true) (hdue : s.due o j = true)
    (hstate : s.octState o = ocL0Lock) (hstep : (s.oct o).step = .lock0) (hprbs : (s.lane o j).prbs = none) (hlane : lane < 8) (hrel : s.relSet = false) :
    ∃ t, exec (.blockLockGained o j b7 lane seq count idx lead ofs) s = .next t ∧ t.locked o j = true ∧ t.rfb (SL_OCT_MAP o) SL_OCT_MAP_POL j = !b7 ∧
      t.rf (SL_OCT_MAP o) ⟨3 * j, 3⟩ = lane ∧ (t.lane o j).idx = lane ∧ (t.lane o j).inv = !b7 ∧ (t.lane o j).count = count % 2 ^ 48 ∧ (t.lane o j).fifo = [] ∧
      ∀ o' j', o' < 64 → j' < 8 → (o', j') ≠ (o, j) → (t.lane o' j').fifo = (s.lane o' j').fifo := by
  obtain ⟨skew, hexec⟩ := exec_blockLockGained hon ho b7 lane seq count idx ofs lead hlock hlos hfck hdue hstate hprbs hrel
  obtain ⟨l, hl⟩ : ∃ l, lockLane s o j b7 lane seq count idx = l := ⟨_, rfl⟩
  have hidx : l.idx = lane := by
    rw [← hl]
    exact Nat.mod_eq_of_lt hlane
  have hinv : l.inv = !b7 := by rw [← hl, lockLane]
  have hcount : l.count = count % 2 ^ 48 := by rw [← hl, lockLane]
  have hfifo : l.fifo = [] := by
    rw [← hl]
    rfl
  rw [hl] at hexec
  obtain ⟨v, hv⟩ : ∃ v, lockHeld s o j l lead skew = v := ⟨_, rfl⟩
  have hvsl : v.sl = (s.setLane o j l).sl := by rw [← hv, lockHeld_lanes]
  obtain ⟨hpol, hmap⟩ := map_lockHeld s o hj (l := l) (by omega) lead skew
  have hvlock := locked_lockHeld s o j l lead skew
  rw [hv] at hexec hpol hmap hvlock
  have hserv : ServiceOnly o v ((v.orderCheck o).serveAll o) := (ServiceOnly.refl o v).orderCheck.serveAll
  obtain ⟨w, hw⟩ : ∃ w, (v.orderCheck o).serveAll o = w := ⟨_, rfl⟩
  rw [hw] at hexec hserv
  have hwstep : (w.oct o).step = .lock0 := by
    rw [hserv.oct o, State.oct_of_octs (congrArg SlSt.octs hvsl), State.oct_setLane, hstep]
  obtain ⟨hlanes, hregs⟩ := lanesDone_keeps hwstep
  have hreg : ∀ a, a ≠ SL_OCT_STAT o → (w.lanesDone o).reg a = v.reg a := fun a ha => (hregs a ha).trans (hserv.regs a ha)
  have hlaneEq : ∀ p q, (w.lanesDone o).lane p q = { v.lane p q with wait := (w.lane p q).wait, clean := (w.lane p q).clean } := fun p q =>
    (State.lane_of_lanes hlanes p q).trans (hserv.lanes p q)
  have hvlane : v.lane o j = l := by rw [State.lane_of_lanes (congrArg SlSt.lanes hvsl), State.lane_setLane_same]
  refine ⟨_, hexec, ?_, ?_, ?_, ?_, ?_, ?_, ?_, fun p q _ hq hne => ?_⟩
  · rw [locked_of_reg (hreg _ (laneStat_ne_octStat o j o)), hvlock]
  · rw [State.rfb_of_reg (hreg _ (octMap_ne_octStat o o)), hpol, hinv]
  · rw [State.rf_of_reg (hreg _ (octMap_ne_octStat o o)), hmap, hidx]
  · rw [hlaneEq, hvlane, hidx]
  · rw [hlaneEq, hvlane, hinv]
  · rw [hlaneEq, hvlane, hcount]
  · rw [hlaneEq, hvlane, hfifo]
  · rw [hlaneEq, State.lane_of_lanes (congrArg SlSt.lanes hvsl), State.lane_setLane_ne _ _ (laneIdx_ne hj hq hne)]

/-! ### Release (R78, R79, R127) -/

theorem released_unset (h : s.relSet = false) (n p : Nat) : s.released n p = smpLost n := by
  unfold State.released
  split
  · rfl
  · dsimp only
    split
    · rw [if_neg (by simp [h])]
    · rfl

/-- One sample of each path of a list enters its ring. -/
def ringPut (n : Nat) (smp : Nat → Smp) (st : Tbl (Option Smp)) (p : Nat) : Tbl (Option Smp) := tblSet none st (ringKey p n) (some (smp p))

theorem ringPut_eq (n : Nat) (smp : Nat → Smp) : ringPut n smp = fun st p => tblSet none st (p * 131072 + n % 131072) (some (smp p)) := (rfl)

theorem storeSamples_store (s : State) (n : Nat) (smp : Nat → Smp) : (s.storeSamples n smp).md.store = (List.range 512).foldl (ringPut n smp) s.md.store := by
  rw [State.storeSamples, ringPut_eq]

theorem storeSamples_w (s : State) (n : Nat) (smp : Nat → Smp) : (s.storeSamples n smp).md.w = n + 1 := (rfl)

theorem tblGet_foldl_ringPut_other {n k : Nat} (smp : Nat → Smp) {l : List Nat} (st : Tbl (Option Smp)) (h : ∀ p ∈ l, k ≠ ringKey p n) :
    tblGet none (l.foldl (ringPut n smp) st) k = tblGet none st k :=
  List.foldlRecOn l (ringPut n smp) (motive := fun u => tblGet none u k = tblGet none st k) rfl fun u hu p hp =>
    (tblGet_set_ne none _ u (h p hp)).trans hu

theorem tblGet_foldl_ringPut_mem {n p : Nat} (smp : Nat → Smp) {l : List Nat} (st : Tbl (Option Smp)) (hp : p ∈ l) :
    tblGet none (l.foldl (ringPut n smp) st) (ringKey p n) = some (smp p) := by
  induction l generalizing st with
  | nil => cases hp
  | cons q l ih =>
    rw [List.foldl_cons]
    by_cases hl : p ∈ l
    · exact ih _ hl
    · obtain rfl := (List.mem_cons.1 hp).resolve_right hl
      refine (tblGet_foldl_ringPut_other smp _ fun r hr e => hl ?_).trans (tblGet_set_same _ _ _ _)
      rw [(ringKey_inj e).1]
      exact hr

theorem lanesPop_md (s : State) (n : Nat) (x : Nat → Smp) : (s.lanesPop n x).md = s.md :=
  List.foldlRecOn (List.range 512) _ (motive := fun u : State => u.md = s.md) rfl fun u hu _ _ => by
    split
    · exact hu
    · exact hu

/-- The next sample period due is `n`. -/
def nextDue (s : State) (n : Nat) : State := { s with sl := { s.sl with next := n } }

theorem nextDue_next (s : State) (n : Nat) : (nextDue s n).sl.next = n := (rfl)

theorem nextDue_md (s : State) (n : Nat) : (nextDue s n).md = s.md := (rfl)

/-- A sample period's samples have left the lanes, and the next period is due. -/
def popped (s : State) (n : Nat) (x : Nat → Smp) : State := nextDue (s.lanesPop n x) (n + 1)

theorem popped_next (s : State) (n : Nat) (x : Nat → Smp) : (popped s n x).sl.next = n + 1 := by rw [popped, nextDue_next]

theorem popped_md (s : State) (n : Nat) (x : Nat → Smp) : (popped s n x).md = s.md := by rw [popped, nextDue_md, lanesPop_md]

/-- A spectrum may end with the sample period. -/
def periodEnd (s : State) (n : Nat) : State := if (n + 1) % 8192 = 0 then s.lateCheck.spectrumEnd (n + 1 - 8192) else s.lateCheck

theorem samplesKept_periodEnd (s : State) (n : Nat) : SamplesKept s (periodEnd s n) :=
  .ite ((SamplesKept.refl s).lateCheck.spectrumEnd _) (SamplesKept.refl s).lateCheck

theorem exec_sampleRelease (s : State) : exec .sampleRelease s = execSampleRelease s := (rfl)

theorem sampleRelease_stopped (hon : s.on = true) (hrel : s.relSet = false) (hrun : s.running = false) : exec .sampleRelease s = .next s := by
  rw [exec_sampleRelease, execSampleRelease, whenOn_on hon, hrun, hrel]
  rfl

theorem sampleRelease_early (hon : s.on = true) (hrun : s.running = true) (h : s.now < s.sl.next + (if s.relSet then s.latency else 0)) :
    exec .sampleRelease s = .next s := by
  rw [exec_sampleRelease, execSampleRelease, whenOn_on hon, hrun, if_neg (by decide)]
  dsimp only
  rw [if_pos (by rw [decide_eq_true h, Bool.true_or])]

theorem sampleRelease_eq (hon : s.on = true) (hrun : s.running = true) (h : s.sl.next + (if s.relSet then s.latency else 0) ≤ s.now)
    (harr : s.arrived s.sl.next = true) : exec .sampleRelease s = .next (periodEnd (popped
      ((s.storeSamples s.sl.next (s.released s.sl.next)).saffron s.sl.next (s.released s.sl.next)) s.sl.next (s.released s.sl.next)) s.sl.next) := by
  rw [exec_sampleRelease, execSampleRelease, whenOn_on hon, hrun, if_neg (by decide)]
  dsimp only
  rw [if_neg (by rw [decide_eq_false (by omega), harr]; decide)]
  rfl

theorem sampleRelease_stores (hon : s.on = true) (hrun : s.running = true) (h : s.sl.next + (if s.relSet then s.latency else 0) ≤ s.now)
    (harr : s.arrived s.sl.next = true) : ∃ t, exec .sampleRelease s = .next t ∧ t.sl.next = s.sl.next + 1 ∧ t.md.w = s.sl.next + 1 ∧
      t.md.store = (List.range 512).foldl (ringPut s.sl.next (s.released s.sl.next)) s.md.store := by
  obtain ⟨x, hx⟩ : ∃ x, s.released s.sl.next = x := ⟨_, rfl⟩
  have hexec := sampleRelease_eq hon hrun h harr
  rw [hx] at hexec ⊢
  obtain ⟨n, hn⟩ : ∃ n, s.sl.next = n := ⟨_, rfl⟩
  rw [hn] at hexec ⊢
  have h1 : SamplesKept (s.storeSamples n x) ((s.storeSamples n x).saffron n x) := (SamplesKept.refl _).saffron n x
  obtain ⟨v, hv⟩ : ∃ v, (s.storeSamples n x).saffron n x = v := ⟨_, rfl⟩
  rw [hv] at hexec h1
  have h2 := samplesKept_periodEnd (popped v n x) n
  refine ⟨_, hexec, ?_, ?_, ?_⟩
  · rw [h2.sl, popped_next]
  · rw [h2.w, popped_md, h1.w, storeSamples_w]
  · rw [h2.store, popped_md, h1.store, storeSamples_store]

/-- Settles O14: lock and the release point by what each writes; a sample release through what Saffron and the slices leave of the samples. -/
theorem lockReleaseRejoinAndPrbs : Obligations.LockReleaseRejoinAndPrbs := by
  unfold Obligations.LockReleaseRejoinAndPrbs
  intro s o j hon ho hj
  refine ⟨fun b7 lane seq count idx ofs lead hlock hlos hfck hdue hstate hstep hprbs hlane hrel =>
      blockLockGained_locks hon ho hj b7 seq count idx ofs lead hlock hlos hfck hdue hstate hstep hprbs hlane hrel,
    fun leads hrel hended hserve => releasePointSet_sets hon ho hj leads hrel hended hserve,
    fun hrel hrun => sampleRelease_stopped hon hrel hrun, fun hrun h => sampleRelease_early hon hrun h, fun hrun h harr => ?_,
    fun i hi8 hrun hlane hwait hmay hclean hat => pathRejoin_serves hon hi8 hrun hlane hwait hmay hclean hat,
    fun bs last hen hlane hne hp => ?_⟩
  · obtain ⟨t, hexec, hnext, hw, hstore⟩ := sampleRelease_stores hon hrun h harr
    refine ⟨t, hexec, hnext, hw, fun p hp => ?_, fun hrel p _ => released_unset hrel _ p, fun k hk => ?_⟩
    · rw [hstore]
      exact tblGet_foldl_ringPut_mem _ _ (List.mem_range.2 hp)
    · rw [hstore]
      exact tblGet_foldl_ringPut_other _ _ fun p hp => hk p (List.mem_range.1 hp)
  · refine ⟨_, prbsPattern_checks hon bs hen hlane hne hp, ?_, State.reg_bumpBy_same _ _ _, checkerRun_shape _ _ _ _ _, fun a ha => ?_⟩
    · rw [checkerRun, State.lane_of_lanes (congrArg SlSt.lanes (State.bumpBy_sl _ _ _ _)), State.lane_setLane_same]
    · rw [checkerRun, State.reg_bumpBy_ne _ _ _ ha, State.reg_setLane]

end Sys2Proof.Machine
end

-- ==== Madder slices: the issue of a bundle ====
section

namespace Sys2Proof.Machine

variable {s t u : State} {k b : Nat}

/-! ### Slices after a write -/

@[simp] theorem State.slice_setSlice_same (s : State) (k : Nat) (m : MdSlice) : (s.setSlice k m).slice k = m := tblGet_set_same sliceReset m s.md.sl k

theorem State.slice_setSlice_ne (s : State) {k q : Nat} (m : MdSlice) (h : q ≠ k) : (s.setSlice k m).slice q = s.slice q :=
  tblGet_set_ne sliceReset m s.md.sl h

@[simp] theorem State.reg_setSlice (s : State) (k : Nat) (m : MdSlice) (a : Nat) : (s.setSlice k m).reg a = s.reg a := (rfl)
@[simp] theorem State.sliceState_setSlice (s : State) (k : Nat) (m : MdSlice) (q : Nat) : (s.setSlice k m).sliceState q = s.sliceState q := (rfl)

theorem State.slice_of_md (h : t.md = s.md) (q : Nat) : t.slice q = s.slice q := congrArg (fun md : MdSt => tblGet sliceReset md.sl q) h

theorem State.sliceState_of_reg (h : t.reg (MD_SL_STAT k) = s.reg (MD_SL_STAT k)) : t.sliceState k = s.sliceState k := State.rf_of_reg h _

/-! ### What a bundle counts (R116, R117) -/

theorem State.mdCounts_zero (s : State) (k : Nat) : s.mdCounts k 0 0 = s := by
  simp only [State.mdCounts, if_true]

theorem State.mdCounts_gov (s : State) (k : Nat) {n : Nat} (hn : n ≠ 0) :
    s.mdCounts k n 0 = (s.bumpBy (MD_SL_GOVCNT k) counter32 n).setSeen (MD_SL_STAT k) MD_SL_STAT_GOV 1 := by
  simp only [State.mdCounts, if_neg hn, if_true]

theorem State.mdCounts_md (s : State) (k gov sat : Nat) : (s.mdCounts k gov sat).md = s.md := by
  unfold State.mdCounts
  dsimp only
  split <;> split <;> simp

/-- The sticky bits of MD_SL_STAT leave STATE. -/
theorem State.sliceState_setSeen (s : State) (k : Nat) {f : Fld} (v : Nat) (hf : f.lo + f.w ≤ 32) (ha : f.apart MD_SL_STAT_STATE) :
    (s.setSeen (MD_SL_STAT k) f v).sliceState k = s.sliceState k := s.rf_setF_apart _ _ _ _ hf ha

theorem State.sliceState_mdCounts (s : State) (k gov sat : Nat) : (s.mdCounts k gov sat).sliceState k = s.sliceState k := by
  have hgov : ∀ u : State, ∀ n, ((u.bumpBy (MD_SL_GOVCNT k) counter32 n).setSeen (MD_SL_STAT k) MD_SL_STAT_GOV 1).sliceState k = u.sliceState k := fun u n =>
    (State.sliceState_setSeen _ k 1 (by decide) (.inl (by decide))).trans (State.sliceState_of_reg (u.reg_bumpBy_ne _ _ (by unfold MD_SL_STAT MD_SL_GOVCNT; omega)))
  have hsat : ∀ u : State, ∀ n, ((u.bumpBy (MD_SL_SATCNT k) counter32 n).setSeen (MD_SL_STAT k) MD_SL_STAT_SSAT 1).sliceState k = u.sliceState k := fun u n =>
    (State.sliceState_setSeen _ k 1 (by decide) (.inl (by decide))).trans (State.sliceState_of_reg (u.reg_bumpBy_ne _ _ (by unfold MD_SL_STAT MD_SL_SATCNT; omega)))
  unfold State.mdCounts
  dsimp only
  split <;> split <;> simp only [hgov, hsat]

/-! ### The issue of a bundle (R107) -/

theorem eccSeen_clean (s : State) (k : Nat) : s.eccSeen k .clean = s := (rfl)

/-- A bundle's register and memory slots, each reading the slice as it stands before the bundle. -/
def slotsRun (b : Nat) (m : MdSlice) : MdEff :=
  computeSlot (slotC2 b) m (computeSlot (slotC1 b) m (memSlot false (slotY b) m (memSlot true (slotX b) m
    { m := flowSlot (slotF b) m { m with cyc := m.cyc + 1, stall := false }, gov := 0, sat := 0 })))

/-- The slice that the slots leave, with the sticky bits of SR. -/
def slotsSlice (b : Nat) (m : MdSlice) : MdSlice :=
  let e := slotsRun b m
  { e.m with sr := Nat.lor e.m.sr ((if e.gov = 0 then 0 else 1) + (if e.sat = 0 then 0 else 2)) }

theorem exec_bundleIssue (h : Issues k b s) (e : Ecc) : exec (.bundleIssue ⟨k, e⟩) s = .next (s.issue k e) := by
  have hi : exec (.bundleIssue ⟨k, e⟩) s = whenOn s fun s => if (s.slice k).stall then s else s.issueSlice k e := rfl
  have hstd : s.runsStd k = false := beq_eq_false_iff_ne.2 h.prog
  rw [hi, whenOn_on h.on, h.stall, State.issueSlice, h.state, h.time, h.awaits, hstd]
  rfl

/-- A bundle without loop entry, NEXT, EVT, HALT or OUT, whose CALL and RET find room and a return address, raises no exception. -/
theorem bundleExc_none {m : MdSlice} (hop : fOp (slotF b) ∉ [0x01, 0x02, 0x16, 0x18, 0x19]) (hcall : fOp (slotF b) = 0x07 → m.calls.length < 8)
    (hret : fOp (slotF b) = 0x08 → m.calls ≠ []) (hy : mOp (slotY b) ≠ 0xB) : bundleExc m b = none := by
  simp only [List.mem_cons, List.not_mem_nil, or_false, not_or] at hop
  obtain ⟨h1, h2, h16, -, h19⟩ := hop
  have hc : ¬ (fOp (slotF b) = 0x07 ∧ 8 ≤ m.calls.length) := fun ⟨h, hl⟩ => absurd (hcall h) (Nat.not_lt.2 hl)
  have hr : ¬ (fOp (slotF b) = 0x08 ∧ m.calls.isEmpty = true) := fun ⟨h, hl⟩ => hret h (List.isEmpty_iff.1 hl)
  simp only [bundleExc, h1, h2, h16, h19, hy, hc, hr, or_self, false_and, if_false]

/-- A bundle of register and memory slots alone leaves what its slots leave, and what they count. -/
theorem exec_bundleIssue_slots (h : Issues k b s) (hop : fOp (slotF b) ∉ [0x01, 0x02, 0x16, 0x18, 0x19]) (hx : mOp (slotX b) ≠ 0xA)
    (hy : mOp (slotY b) ≠ 0xB) (hcall : fOp (slotF b) = 0x07 → (s.slice k).calls.length < 8) (hret : fOp (slotF b) = 0x08 → (s.slice k).calls ≠ [])
    (hst : (slotsRun b (s.slice k)).m.st = (s.slice k).st) :
    exec (.bundleIssue ⟨k, .clean⟩) s =
      .next ((s.setSlice k (slotsSlice b (s.slice k))).mdCounts k (slotsRun b (s.slice k)).gov (slotsRun b (s.slice k)).sat) := by
  obtain ⟨e, he⟩ : ∃ e, slotsRun b (s.slice k) = e := ⟨_, rfl⟩
  have hlate : ((s.setSlice k (slotsSlice b (s.slice k))).mdCounts k e.gov e.sat).isLate k = false := by
    have hl := h.late
    have hs : (slotsSlice b (s.slice k)).st = (s.slice k).st := hst
    unfold State.isLate at *
    rw [State.sliceState_mdCounts, State.slice_of_md (State.mdCounts_md _ _ _ _), State.mdCounts_md, State.slice_setSlice_same,
      State.sliceState_setSlice, hs]
    exact hl
  have hvl : s.vldsStalls k (slotX b) = false := by
    rw [State.vldsStalls, beq_eq_false_iff_ne.2 hx, Bool.false_and]
  have hos : outStalls (s.slice k) (slotY b) = false := by
    rw [outStalls, beq_eq_false_iff_ne.2 hy, Bool.false_and]
  have hexc : (if Ecc.clean.double then some excEcc else bundleExc (s.slice k) b) = none := bundleExc_none hop hcall hret hy
  simp only [List.mem_cons, List.not_mem_nil, or_false, not_or] at hop
  obtain ⟨-, -, hnext, hevt, -⟩ := hop
  rw [exec_bundleIssue h]
  unfold State.issue
  extract_lets b' _ s0 m0 m1 m2 e1 e2 e3 _ m3 s1 s2 s3 s4
  obtain rfl : b' = b := h.bundle
  rw [if_neg (by rw [hvl]; decide), if_neg (by rw [hos]; decide)]
  have hs0 : s0 = s := eccSeen_clean s k
  have he3 : e3 = e := he ▸ (by unfold e3 e2 e1 m2; rw [if_neg hx]; rfl)
  have hm3 : m3 = slotsSlice b' (s.slice k) := by rw [slotsSlice, he, ← he3]
  have hs4 : s4 = (s.setSlice k (slotsSlice b' (s.slice k))).mdCounts k e.gov e.sat := by
    unfold s4 s3 s2 s1
    rw [if_neg hnext, if_neg hevt, if_neg hy, hm3, he3, hs0]
  have hm0 : (if Ecc.clean.double then some excEcc else bundleExc m0 b') = none := hexc
  rw [hm0]
  dsimp only
  rw [hs4, hlate, he, if_neg (by decide)]

/-! ### The F slot (R124, R126) -/

section
variable {f : Nat} {m0 m : MdSlice}

/-- On to the next bundle, or where the loops that end here go. -/
def MdSlice.onward (m0 m : MdSlice) : MdSlice :=
  { m with pc := (loopStep m0.pc m.loops).1 % 4096, loops := (loopStep m0.pc m.loops).2 }

theorem MdSlice.onward_of_noLoop (h : m.loops = []) : m0.onward m = { m with pc := (m0.pc + 1) % 4096 } := by
  rw [MdSlice.onward, h, loopStep, ← h]

theorem MdSlice.onward_at_loopEnd {l : LoopSt} {ls : List LoopSt} (h : m.loops = l :: ls) (hlast : l.last = m0.pc) (hleft : 1 < l.left) (hfirst : l.first < 4096) :
    m0.onward m = { m with pc := l.first, loops := { l with left := l.left - 1 } :: ls } := by
  rw [MdSlice.onward, h, loopStep, if_pos hlast, if_pos hleft, Nat.mod_eq_of_lt hfirst]

theorem flowSlot_nop (h : fOp f = 0x00) : flowSlot f m0 m = m0.onward m := by simp only [flowSlot, h]; rfl

theorem flowSlot_sli (h : fOp f = 0x09) : flowSlot f m0 m = m0.onward (m.setS (bits f 17 14) (toBits 32 (sext 14 (bits f 13 0)))) := by
  simp only [flowSlot, h]; rfl

theorem flowSlot_saddi (h : fOp f = 0x0B) :
    flowSlot f m0 m = m0.onward (m.setS (bits f 17 14) (m0.sget (bits f 17 14) + toBits 32 (sext 14 (bits f 13 0)))) := by
  simp only [flowSlot, h]; rfl

theorem flowSlot_scalar (h : 0x0C ≤ fOp f ∧ fOp f ≤ 0x12) :
    flowSlot f m0 m = m0.onward (m.setS (bits f 17 14) (scalarOp (fOp f) (m0.sget (bits f 13 10)) (m0.sget (bits f 9 6)))) := by
  obtain ⟨hlo, hhi⟩ := h
  unfold flowSlot
  generalize fOp f = op at hlo hhi ⊢
  interval_cases op <;> rfl

/-- A branch goes to its target, or on. -/
theorem flowSlot_branch {p : Prop} [Decidable p] (h : (fOp f = 0x03 ∧ p) ∨ (fOp f = 0x04 ∧ (m0.sget (bits f 17 14) = 0 ↔ p)) ∨
      (fOp f = 0x05 ∧ (m0.sget (bits f 17 14) ≠ 0 ↔ p)) ∨ (fOp f = 0x06 ∧ (sext 32 (m0.sget (bits f 17 14)) < 0 ↔ p))) :
    flowSlot f m0 m = if p then { m with pc := bits f 11 0 } else m0.onward m := by
  rcases h with ⟨h, hp⟩ | ⟨h, hp⟩ | ⟨h, hp⟩ | ⟨h, hp⟩
  · rw [if_pos hp]
    simp only [flowSlot, h]
    rfl
  all_goals
    simp only [flowSlot, h, ← hp, beq_iff_eq, bne_iff_ne, decide_eq_true_eq]
    rfl

theorem flowSlot_call (h : fOp f = 0x07) : flowSlot f m0 m = { m with pc := bits f 11 0, calls := (m0.pc + 1) % 4096 :: m.calls } := by
  simp only [flowSlot, h]; rfl

theorem flowSlot_ret (h : fOp f = 0x08) {r : Nat} {rs : List Nat} (hc : m.calls = r :: rs) : flowSlot f m0 m = { m with pc := r, calls := rs } := by
  simp only [flowSlot, h, hc]

end

/-- A bundle of an F slot alone leaves what the F slot does, and one cycle counted. -/
theorem exec_bundleIssue_flow (h : Issues k b s) (hX : slotX b = 0) (hY : slotY b = 0) (hC1 : slotC1 b = 0) (hC2 : slotC2 b = 0)
    (hop : fOp (slotF b) ∉ [0x01, 0x02, 0x16, 0x18, 0x19]) (hcall : fOp (slotF b) = 0x07 → (s.slice k).calls.length < 8)
    (hret : fOp (slotF b) = 0x08 → (s.slice k).calls ≠ []) {m' : MdSlice} (hst : m'.st = (s.slice k).st)
    (hflow : flowSlot (slotF b) (s.slice k) { s.slice k with cyc := (s.slice k).cyc + 1 } = { m' with cyc := (s.slice k).cyc + 1 }) :
    exec (.bundleIssue ⟨k, .clean⟩) s = .next (s.setSlice k { m' with cyc := (s.slice k).cyc + 1 }) := by
  have hrun : slotsRun b (s.slice k) = ⟨{ m' with cyc := (s.slice k).cyc + 1 }, 0, 0⟩ := by
    rw [slotsRun, hX, hY, hC1, hC2, ← hflow, ← h.stall]
    rfl
  have hslice : slotsSlice b (s.slice k) = { m' with cyc := (s.slice k).cyc + 1 } := by
    rw [slotsSlice, hrun]
    exact congrArg (fun sr => { m' with cyc := (s.slice k).cyc + 1, sr := sr }) (Nat.or_zero m'.sr)
  rw [exec_bundleIssue_slots h hop (by rw [hX]; decide) (by rw [hY]; decide) hcall hret (by rw [hrun]; exact hst), hslice, hrun, State.mdCounts_zero]

/-! ### Scalars modulo 2^32 -/

theorem toBits_mod (x : Int) : toBits 32 x % 2 ^ 32 = (x % 2 ^ 32).toNat := by
  unfold toBits
  omega

theorem add_toBits_mod (a : Nat) (x : Int) : (a + toBits 32 x) % 2 ^ 32 = ((a + x) % 2 ^ 32).toNat := by
  unfold toBits
  omega

theorem scalarOp_sub_mod (a : Nat) {c : Nat} (hc : c < 2 ^ 32) : scalarOp 0x0D a c % 2 ^ 32 = (((a : Int) - c) % 2 ^ 32).toNat := by
  have e : scalarOp 0x0D a c = a + 2 ^ 32 - c := rfl
  omega

theorem sext32_neg_iff {a : Nat} (ha : a < 2 ^ 32) : sext 32 a < 0 ↔ 2 ^ 31 ≤ a := by
  unfold sext
  split <;> omega

/-- Settles O16: a bundle of an F slot alone leaves what `flowSlot` does, by its equation for each operation. -/
theorem bundleFlowSlotMovesScalarsAndPc : Obligations.BundleFlowSlotMovesScalarsAndPc := by
  unfold Obligations.BundleFlowSlotMovesScalarsAndPc
  intro s k b h hX hY hC1 hC2 m f d imm gives
  have hflow : ∀ m' : MdSlice, fOp f ∉ [0x01, 0x02, 0x16, 0x18, 0x19] → (fOp f = 0x07 → m.calls.length < 8) → (fOp f = 0x08 → m.calls ≠ []) → m'.st = m.st →
      flowSlot f m { m with cyc := m.cyc + 1 } = { m' with cyc := m.cyc + 1 } → gives m' := fun m' hop hcall hret hst hf =>
    exec_bundleIssue_flow h hX hY hC1 hC2 hop hcall hret hst hf
  have hplain : ∀ {n} (m' : MdSlice), fOp f = n → n ∉ [0x01, 0x02, 0x16, 0x18, 0x19] ∧ n ≠ 0x07 ∧ n ≠ 0x08 → m'.st = m.st →
      flowSlot f m { m with cyc := m.cyc + 1 } = { m' with cyc := m.cyc + 1 } → gives m' := by
    rintro _ m' rfl ⟨hop, hcall, hret⟩ hst hf
    exact hflow m' hop (fun hc => absurd hc hcall) (fun hr => absurd hr hret) hst hf
  refine ⟨fun hl => ?_, fun l ls hop hl hlast hleft hfirst =>
    hplain _ hop (by decide) rfl ((flowSlot_nop hop).trans (MdSlice.onward_at_loopEnd hl hlast hleft hfirst))⟩
  have hset : ∀ v, m.onward (MdSlice.setS { m with cyc := m.cyc + 1 } d v) =
      { m with pc := (m.pc + 1) % 4096, s := tblSet 0 m.s d (v % 2 ^ 32), cyc := m.cyc + 1 } := fun v => MdSlice.onward_of_noLoop hl
  have hbranch : ∀ {n} (p : Prop) [Decidable p], fOp f = n → n ∉ [0x01, 0x02, 0x16, 0x18, 0x19] ∧ n ≠ 0x07 ∧ n ≠ 0x08 →
      flowSlot f m { m with cyc := m.cyc + 1 } = (if p then { m with cyc := m.cyc + 1, pc := bits f 11 0 } else m.onward { m with cyc := m.cyc + 1 }) →
      gives { m with pc := if p then bits f 11 0 else (m.pc + 1) % 4096 } := by
    intro n p _ hop hn hf
    refine hplain _ hop hn rfl (hf.trans ?_)
    split
    · rfl
    · exact MdSlice.onward_of_noLoop hl
  refine ⟨fun hop => ?_, fun hop => ?_, fun hop => ?_, fun hop => ?_, fun hop hb => ?_, fun hop => ?_, fun hop => ?_, fun hop => ?_, fun hop => ?_,
    fun hop hd => ?_, fun hop hc => ?_, fun r rs hop hc => ?_⟩
  · exact hplain _ hop (by decide) rfl ((flowSlot_nop hop).trans (MdSlice.onward_of_noLoop hl))
  · exact hplain _ hop (by decide) rfl (by rw [flowSlot_sli hop, hset, toBits_mod])
  · exact hplain _ hop (by decide) rfl (by rw [flowSlot_saddi hop, hset, add_toBits_mod])
  · exact hplain _ hop (by decide) rfl (by rw [flowSlot_scalar (by rw [hop]; decide), hset, hop]; rfl)
  · exact hplain _ hop (by decide) rfl (by rw [flowSlot_scalar (by rw [hop]; decide), hset, hop, scalarOp_sub_mod _ hb])
  · exact hplain _ hop (by decide) rfl (by rw [flowSlot_scalar (by rw [hop]; decide), hset, hop]; rfl)
  · exact hplain _ hop (by decide) rfl (flowSlot_branch (.inl ⟨hop, trivial⟩))
  · exact hbranch (m.sget d = 0) hop (by decide) (flowSlot_branch (.inr (.inl ⟨hop, .rfl⟩)))
  · have hb := hbranch (m.sget d ≠ 0) hop (by decide) (flowSlot_branch (.inr (.inr (.inl ⟨hop, .rfl⟩))))
    rwa [ite_not] at hb
  · exact hbranch (2 ^ 31 ≤ m.sget d) hop (by decide) (flowSlot_branch (.inr (.inr (.inr ⟨hop, sext32_neg_iff hd⟩))))
  · exact hflow _ (by rw [hop]; decide) (fun _ => hc) (fun hr => absurd (hop.symm.trans hr) (by decide)) rfl (flowSlot_call hop)
  · exact hflow _ (by rw [hop]; decide) (fun hr => absurd (hop.symm.trans hr) (by decide)) (fun _ => hc ▸ List.cons_ne_nil r rs) rfl (flowSlot_ret hop hc)

end Sys2Proof.Machine
end

-- ==== Madder slices: compute and memory slots ====
section

namespace Sys2Proof.Machine

variable {s t u : State} {k b : Nat}

/-! ### Bundles whose F slot is a NOP (R107) -/

/-- A slice that has gone on to its next bundle. -/
def MdSlice.ticked (m : MdSlice) : MdSlice := { m with pc := (m.pc + 1) % 4096, cyc := m.cyc + 1 }

/-- Outside a loop, a NOP beside the other slots goes on to the next bundle. -/
theorem slotsRun_nop {m : MdSlice} (hF : slotF b = 0) (hl : m.loops = []) (hst : m.stall = false) :
    slotsRun b m = computeSlot (slotC2 b) m (computeSlot (slotC1 b) m (memSlot false (slotY b) m (memSlot true (slotX b) m ⟨m.ticked, 0, 0⟩))) := by
  have hflow : flowSlot (slotF b) m { m with cyc := m.cyc + 1, stall := false } = m.ticked := by
    rw [hF, ← hst]
    exact (flowSlot_nop (by decide)).trans (MdSlice.onward_of_noLoop hl)
  rw [slotsRun, hflow]

theorem memSlot_nop (isX : Bool) (m0 : MdSlice) (e : MdEff) : memSlot isX 0 m0 e = e := (rfl)

theorem computeSlot_nop (m0 : MdSlice) (e : MdEff) : computeSlot 0 m0 e = e := (rfl)

/-- A slice whose slots have counted nothing has no new sticky bit. -/
theorem slotsSlice_of_run {m m' : MdSlice} (h : slotsRun b m = ⟨m', 0, 0⟩) : slotsSlice b m = m' := by
  rw [slotsSlice, h]
  exact congrArg (fun sr => { m' with sr := sr }) (Nat.or_zero m'.sr)

/-- What a bundle without flow leaves. -/
theorem exec_bundleIssue_nop (h : Issues k b s) (hF : slotF b = 0) (hx : mOp (slotX b) ≠ 0xA) (hy : mOp (slotY b) ≠ 0xB) {e : MdEff}
    (hrun : slotsRun b (s.slice k) = e) (hst : e.m.st = (s.slice k).st) :
    exec (.bundleIssue ⟨k, .clean⟩) s = .next ((s.setSlice k (slotsSlice b (s.slice k))).mdCounts k e.gov e.sat) := by
  subst hrun
  have hop : fOp (slotF b) = 0 := by rw [hF]; decide
  exact exec_bundleIssue_slots h (by rw [hop]; decide) hx hy (fun hc => absurd (hop.symm.trans hc) (by decide))
    (fun hr => absurd (hop.symm.trans hr) (by decide)) hst

/-! ### Vector additions (R113, R114) -/

/-- Lane sums saturated to 18 bits. -/
def vaddLanes (va vb : List Int) : List Int := List.zipWith (fun x y => max (-(2 ^ 17)) (min (2 ^ 17 - 1) (x + y))) va vb

theorem computeSlot_vadd {w : Nat} (hop : cOp w = 0x0B) (hM : cM w = 0) (m0 : MdSlice) (e : MdEff) :
    computeSlot w m0 e = { e with m := e.m.setV (cD w) (vaddLanes (m0.vr (cA w)) (m0.vr (cB w))) } := by
  simp only [computeSlot, hop, hM]
  rfl

/-- Both additions of a bundle read the registers as they stood before it. -/
theorem bundle_vadds (h : Issues k b s) (hF : slotF b = 0) (hl : (s.slice k).loops = []) (hX : slotX b = 0) (hY : slotY b = 0)
    (h1 : cOp (slotC1 b) = 0x0B) (h2 : cOp (slotC2 b) = 0x0B) (hM1 : cM (slotC1 b) = 0) (hM2 : cM (slotC2 b) = 0) :
    let m := s.slice k
    let sum := fun w => vaddLanes (m.vr (cA w)) (m.vr (cB w))
    exec (.bundleIssue ⟨k, .clean⟩) s = .next (s.setSlice k ((m.setV (cD (slotC1 b)) (sum (slotC1 b))).setV (cD (slotC2 b)) (sum (slotC2 b))).ticked) := by
  intro m sum
  have hrun : slotsRun b m = ⟨((m.setV (cD (slotC1 b)) (sum (slotC1 b))).setV (cD (slotC2 b)) (sum (slotC2 b))).ticked, 0, 0⟩ := by
    rw [slotsRun_nop hF hl h.stall, hX, hY, memSlot_nop, memSlot_nop, computeSlot_vadd h1 hM1, computeSlot_vadd h2 hM2]
    rfl
  rw [exec_bundleIssue_nop h hF (by rw [hX]; decide) (by rw [hY]; decide) hrun rfl, slotsSlice_of_run hrun, State.mdCounts_zero]

/-! ### Multiply and accumulate (R116) -/

theorem MdSlice.ar_setA_same (m : MdSlice) (r : Nat) (l : List (Int × Bool)) : (m.setA r l).ar r = l := tblGet_set_same aZero l m.a (r % 8)

theorem MdSlice.ar_setA_ne (m : MdSlice) {r q : Nat} (l : List (Int × Bool)) (h : q % 8 ≠ r % 8) : (m.setA r l).ar q = m.ar q :=
  tblGet_set_ne aZero l m.a h

/-- The accumulator that a MAC leaves. -/
def macLanes (m : MdSlice) (w : Nat) : List (Int × Bool) := List.zipWith accAdd (m.ar (cD w)) (vprod (m.vr (cA w)) (m.vr (cB w)))

theorem computeSlot_mac {w : Nat} (hop : cOp w = 0x02) (m0 : MdSlice) (e : MdEff) :
    computeSlot w m0 e = { e with m := e.m.setA (cD w) (macLanes m0 w), gov := e.gov + govCount (m0.ar (cD w)) (macLanes m0 w) } := by
  simp only [computeSlot, hop]
  rfl

/-- A W1C bit that has been set now reads 1. -/
theorem State.flag_setSeen_same (s : State) (a : Nat) {f : Fld} (hf : f.lo + f.w ≤ 32) (hw : 1 < 2 ^ f.w) : (s.setSeen a f 1).flag a f = true := by
  have hset : (s.setSeen a f 1).flag a f = (s.setF a f 1).flag a f := rfl
  rw [hset, State.flag_setF_same _ _ _ _ hf, Nat.mod_eq_of_lt hw]
  rfl

/-- What counting newly clamped lanes leaves (R116). -/
theorem mdCounts_gov_counts (s : State) {k : Nat} (n : Nat) :
    (s.mdCounts k n 0).reg (MD_SL_GOVCNT k) = w32 (min (2 ^ 32 - 1) ((s.reg (MD_SL_GOVCNT k)).toNat + n)) ∧
      (0 < n → (s.mdCounts k n 0).flag (MD_SL_STAT k) MD_SL_STAT_GOV = true) ∧ (n = 0 → (s.mdCounts k n 0).regs = s.regs) := by
  by_cases hn : n = 0
  · subst hn
    have hlt := (s.reg (MD_SL_GOVCNT k)).isLt
    rw [State.mdCounts_zero]
    refine ⟨?_, fun h => absurd h (by decide), fun _ => rfl⟩
    rw [Nat.add_zero, Nat.min_eq_right (Nat.le_sub_one_of_lt hlt), w32, BitVec.ofNat_toNat, BitVec.setWidth_eq]
  · rw [State.mdCounts_gov _ _ hn]
    refine ⟨?_, fun _ => State.flag_setSeen_same _ _ (by decide) (by decide), fun h => absurd h hn⟩
    rw [State.reg_setSeen_ne _ _ _ (by unfold MD_SL_GOVCNT MD_SL_STAT; omega), State.reg_bumpBy_same]

theorem bundle_mac (h : Issues k b s) (hF : slotF b = 0) (hl : (s.slice k).loops = []) (hX : slotX b = 0) (hY : slotY b = 0)
    (h2 : slotC2 b = 0) (h1 : cOp (slotC1 b) = 0x02) :
    let m := s.slice k
    let new := macLanes m (slotC1 b)
    let n := govCount (m.ar (cD (slotC1 b))) new
    ∃ t, exec (.bundleIssue ⟨k, .clean⟩) s = .next t ∧ (t.slice k).ar (cD (slotC1 b)) = new ∧
      (∀ r < 8, r ≠ cD (slotC1 b) % 8 → (t.slice k).ar r = m.ar r) ∧
      (t.slice k).v = m.v ∧ t.reg (MD_SL_GOVCNT k) = w32 (min (2 ^ 32 - 1) ((s.reg (MD_SL_GOVCNT k)).toNat + n)) ∧
      (0 < n → t.flag (MD_SL_STAT k) MD_SL_STAT_GOV = true) ∧ (n = 0 → t.regs = s.regs) ∧ ∀ q < 64, q ≠ k → t.slice q = s.slice q := by
  intro m new n
  have hrun : slotsRun b m = ⟨m.ticked.setA (cD (slotC1 b)) new, n, 0⟩ := by
    rw [slotsRun_nop hF hl h.stall, hX, hY, h2, memSlot_nop, memSlot_nop, computeSlot_nop, computeSlot_mac h1]
    simp only [Nat.zero_add]
    rfl
  obtain ⟨sr, hsl⟩ : ∃ sr, slotsSlice b m = { m.ticked.setA (cD (slotC1 b)) new with sr := sr } := ⟨_, by rw [slotsSlice, hrun]⟩
  obtain ⟨hcnt, hgov, hregs⟩ := mdCounts_gov_counts (s.setSlice k (slotsSlice b m)) (k := k) n
  have hslice : ∀ q, ((s.setSlice k (slotsSlice b m)).mdCounts k n 0).slice q = (s.setSlice k (slotsSlice b m)).slice q :=
    fun q => State.slice_of_md (State.mdCounts_md _ _ _ _) q
  refine ⟨_, exec_bundleIssue_nop h hF (by rw [hX]; decide) (by rw [hY]; decide) hrun rfl, ?_, fun r _ hr => ?_, ?_, hcnt, hgov, hregs, fun q _ hq => ?_⟩
  · rw [hslice, State.slice_setSlice_same, hsl]
    exact MdSlice.ar_setA_same _ _ _
  · rw [hslice, State.slice_setSlice_same, hsl]
    exact MdSlice.ar_setA_ne m.ticked new (by omega)
  · rw [hslice, State.slice_setSlice_same, hsl]
    rfl
  · rw [hslice, State.slice_setSlice_ne _ _ hq]

/-! ### A scalar stored through X (R113) -/

theorem memSlot_sst {w : Nat} (hop : mOp w = 0x9) (m0 : MdSlice) (e : MdEff) :
    memSlot true w m0 e = { e with m := bumpPtr m0 (hwWrite e.m true (accessAddrs m0 w 2) (words16 [m0.sget (mReg w)])) w 2 } := by
  simp only [memSlot, hop]

/-- Without modulo addressing, the two halfwords of a scalar lie at the pointer's address and the next. -/
theorem accessAddrs_two {w : Nat} (hmode : mMode w = 0) (m : MdSlice) :
    accessAddrs m w 2 = [tblGet 0 m.i (mIdx w) % 262144, (tblGet 0 m.i (mIdx w) + 1) % 262144] := by
  simp only [accessAddrs, hmode]
  rfl

theorem bundle_sst (h : Issues k b s) (hF : slotF b = 0) (hl : (s.slice k).loops = []) (hY : slotY b = 0) (h1 : slotC1 b = 0) (h2 : slotC2 b = 0)
    (hop : mOp (slotX b) = 0x9) (hmode : mMode (slotX b) = 0) :
    let m := s.slice k
    let a := tblGet 0 m.i (mIdx (slotX b))
    let v := m.sget (mReg (slotX b))
    ∃ t, exec (.bundleIssue ⟨k, .clean⟩) s = .next t ∧ tblGet 0 (t.slice k).x (a % 262144) = v % 65536 ∧
      tblGet 0 (t.slice k).x ((a + 1) % 262144) = v / 65536 % 65536 ∧
      (∀ x, x ≠ a % 262144 → x ≠ (a + 1) % 262144 → tblGet 0 (t.slice k).x x = tblGet 0 m.x x) ∧ (t.slice k).y = m.y ∧ t.regs = s.regs ∧
      ∀ q < 64, q ≠ k → t.slice q = s.slice q := by
  intro m a v
  have hrun : slotsRun b m = ⟨bumpPtr m (hwWrite m.ticked true (accessAddrs m (slotX b) 2) (words16 [v])) (slotX b) 2, 0, 0⟩ := by
    rw [slotsRun_nop hF hl h.stall, hY, h1, h2, computeSlot_nop, computeSlot_nop, memSlot_nop, memSlot_sst hop]
  have hx : (slotsSlice b m).x = tblSet 0 (tblSet 0 m.x (a % 262144) (v % 65536)) ((a + 1) % 262144) (v / 65536 % 65536) := by
    rw [slotsSlice_of_run hrun, accessAddrs_two hmode]
    rfl
  refine ⟨_, exec_bundleIssue_nop h hF (by rw [hop]; decide) (by rw [hY]; decide) hrun (by rfl), ?_, ?_, ?_, ?_, ?_, ?_⟩
  all_goals rw [State.mdCounts_zero]
  · rw [State.slice_setSlice_same, hx, tblGet_set_ne _ _ _ (by omega), tblGet_set_same]
  · rw [State.slice_setSlice_same, hx, tblGet_set_same]
  · intro x hx1 hx2
    rw [State.slice_setSlice_same, hx, tblGet_set_ne _ _ _ hx2, tblGet_set_ne _ _ _ hx1]
  · rw [State.slice_setSlice_same, slotsSlice_of_run hrun]
    rfl
  · rfl
  · exact fun q _ hq => State.slice_setSlice_ne _ _ hq

/-- Settles O17: every slot's function reads the slice as it stands before the bundle. -/
theorem bundleSlotsReadBeforeTheyWrite : Obligations.BundleSlotsReadBeforeTheyWrite := by
  unfold Obligations.BundleSlotsReadBeforeTheyWrite
  intro s k b h hF hl
  exact ⟨fun hX hY h1 h2 hM1 hM2 _ => bundle_vadds h hF hl hX hY h1 h2 hM1 hM2, fun hX hY h2 h1 => bundle_mac h hF hl hX hY h2 h1,
    fun hY h1 h2 hop hmode => bundle_sst h hF hl hY h1 h2 hop hmode⟩

end Sys2Proof.Machine
end

-- ==== Madder slices: a HALT that lets a block of the ring go ====
section

namespace Sys2Proof.Machine

/-! ### A HALT that lets a block of the ring go (R134 to R136) -/

/-- A bundle of HALT alone. -/
def haltBundle : Nat := 0x19 * 2 ^ 18 * 2 ^ 104

/-- What waits in the output port of a slice that is about to halt: a last block of the spectrum in progress for staging, and behind it a block for the
ring, whose base lies 4 GiB up in a device with 1 GiB of DRAM. -/
def portAtHalt : List OutWait :=
  [{ path := 0, ring := false, last := true, flags := 0, data := [], st := 0, reads := [], newest := 1 },
    { path := 0, ring := true, last := false, flags := 0, data := [], st := 0, reads := [], newest := 0 }]

/-- A running device whose slice 0 is at a HALT with these blocks waiting. -/
def haltsBeforeRing : State :=
  { State.reset with
    regs := [(MD_SL_STAT 0, 0x20000000#32), (MD_SL_RING_BASE_HI 0, 1#32), (TM_ATC_STAT, 0x80000000#32)]
    pw := { State.reset.pw with power := .on }
    md := { State.reset.md with sl := [(0, { sliceReset with imem := [(0, haltBundle)], waits := portAtHalt })] } }

theorem haltsBeforeRing_issues : Issues 0 haltBundle haltsBeforeRing where
  on := by decide
  slice := by decide
  state := by decide
  time := by decide
  awaits := by decide
  prog := by decide
  stall := by decide
  bundle := by decide
  late := by decide

/-- The exception cuts the staging block away, the ring block behind it leaves the port, and its write past the installed DRAM is logged. -/
theorem haltsBeforeRing_logs : (match exec (.bundleIssue ⟨0, .clean⟩) haltsBeforeRing with
    | .next t => t.log.length
    | _ => 0) = 1 := by decide

/-- Refutes O18: a HALT may write to the log, where a ring block that it lets out of the port is past the installed DRAM (R335, R551). -/
theorem not_programEventsHaltAndSampleReads : ¬ Obligations.ProgramEventsHaltAndSampleReads := by
  unfold Obligations.ProgramEventsHaltAndSampleReads
  intro h
  obtain ⟨-, hhalt, -⟩ := h haltsBeforeRing 0 haltBundle (by decide)
  obtain ⟨t, ht, -, -, -, -, -, -, -, -, hlog⟩ := hhalt haltsBeforeRing_issues (by decide) (by decide) (by decide)
  have hlen := haltsBeforeRing_logs
  rw [ht] at hlen
  dsimp only at hlen
  rw [hlog] at hlen
  exact absurd hlen (by decide)

end Sys2Proof.Machine
end

-- ==== Madder slices: outputs through the port ====
section

namespace Sys2Proof.Machine

variable {s t u : State} {k q n st : Nat}

/-! ### What the channeliser's operations touch (R156, R162 to R166) -/

/-- Nothing but the channeliser's state and registers from MD_CH_TARGET up has changed. -/
structure ChKept (s t : State) : Prop where
  rest : { t with ch := s.ch, regs := s.regs, fresh := s.fresh } = s
  reg : ∀ a < 0x240000, t.reg a = s.reg a

theorem ChKept.refl (s : State) : ChKept s s := ⟨rfl, fun _ _ => rfl⟩

theorem ChKept.trans (h : ChKept s t) (h' : ChKept t u) : ChKept s u :=
  ⟨Eq.trans (congrArg (fun v : State => { v with ch := s.ch, regs := s.regs, fresh := s.fresh }) h'.rest) h.rest, fun a ha => (h'.reg a ha).trans (h.reg a ha)⟩

theorem ChKept.md (h : ChKept s t) : t.md = s.md := (congrArg State.md h.rest :)

theorem ChKept.slice (h : ChKept s t) (q : Nat) : t.slice q = s.slice q := State.slice_of_md h.md q

theorem ChKept.ite {c : Prop} [Decidable c] (ht : ChKept s t) (hu : ChKept s u) : ChKept s (if c then t else u) := by
  split
  · exact ht
  · exact hu

theorem ChKept.foldl {β : Type} {f : State → β → State} {l : List β} (h : ChKept s t) (hf : ∀ u b, ChKept s u → ChKept s (f u b)) :
    ChKept s (l.foldl f t) := List.foldlRecOn l f h fun u hu b _ => hf u b hu

theorem ChKept.withCh (h : ChKept s t) (c : ChSt) : ChKept s { t with ch := c } := ⟨h.rest, h.reg⟩

theorem ChKept.setScale (h : ChKept s t) (p : Nat) (x : ScaleSt) : ChKept s (t.setScale p x) := h.withCh _

theorem ChKept.setReg (h : ChKept s t) {a : Nat} (ha : 0x240000 ≤ a) (v : Word) : ChKept s (t.setReg a v) :=
  ⟨h.rest, fun o ho => (t.reg_setReg_ne _ (by omega)).trans (h.reg o ho)⟩

theorem ChKept.setF (h : ChKept s t) {a : Nat} (ha : 0x240000 ≤ a) (f : Fld) (v : Nat) : ChKept s (t.setF a f v) := h.setReg ha _

theorem ChKept.setFB (h : ChKept s t) {a : Nat} (ha : 0x240000 ≤ a) (f : Fld) (i : Nat) (b : Bool) : ChKept s (t.setFB a f i b) := h.setReg ha _

theorem ChKept.setReg64 (h : ChKept s t) {a : Nat} (ha : 0x240000 ≤ a) (v : Nat) : ChKept s (t.setReg64 a v) :=
  (h.setReg ha _).setReg (Nat.le_add_right_of_le ha) _

theorem ChKept.bumpBy (h : ChKept s t) {a : Nat} (ha : 0x240000 ≤ a) (f : Fld) (n : Nat) : ChKept s (t.bumpBy a f n) :=
  ⟨h.rest, fun o ho => (t.reg_bumpBy_ne _ _ (by omega)).trans (h.reg o ho)⟩

theorem ChKept.bump (h : ChKept s t) {a : Nat} (ha : 0x240000 ≤ a) : ChKept s (t.bump a) := h.bumpBy ha _ _

/-- The channeliser's registers lie above those of the slices. -/
theorem chReg_high (k : Nat) : 0x240000 ≤ MD_CH_SL_STAT k ∧ 0x240000 ≤ MD_CH_SL_SEEDS k := by
  unfold MD_CH_SL_STAT MD_CH_SL_SEEDS
  omega

theorem ChKept.schedSync (h : ChKept s t) : ChKept s t.schedSync := by
  have hq : ChKept s t.queuedFlags := ((h.setF (by decide) _ _).setF (by decide) _ _).foldl fun _ k hu => hu.setF (chReg_high k).1 _ _
  exact (hq.setF (by decide) _ _).setReg64 (by decide) _

theorem ChKept.seedNow (h : ChKept s t) (p : Nat) : ChKept s (t.seedNow p) :=
  .ite (h.setScale _ _) (((h.setScale _ _).setFB (chReg_high _).1 _ _ _).bump (chReg_high _).2)

theorem ChKept.calSwitch (h : ChKept s t) (k : Nat) : ChKept s (t.calSwitch k) :=
  (((h.withCh _).setF (chReg_high k).1 _ _).setF (chReg_high k).1 _ _).schedSync

theorem ChKept.calSwap (h : ChKept s t) (k st : Nat) : ChKept s (t.calSwap k st) :=
  .ite (.ite (h.calSwitch k) ((h.calSwitch k).foldl fun _ _ hu => .ite (hu.seedNow _) hu)) h

theorem ChKept.scaleLost (h : ChKept s t) (k : Nat) : ChKept s (t.scaleLost k) :=
  (ChKept.foldl (h.withCh _) fun _ _ hu => hu.setScale _ _).setF (chReg_high k).1 _ _

theorem ChKept.scaleFill (h : ChKept s t) (k : Nat) : ChKept s (t.scaleFill k) := h.foldl fun _ _ hu => hu.setScale _ _

theorem ChKept.seedSlice (h : ChKept s t) (k b : Nat) : ChKept s (t.seedSlice k b) :=
  (((ChKept.foldl (h.withCh _) fun _ _ hu => hu.setScale _ _).setF (chReg_high k).1 _ _).bumpBy (chReg_high k).2 _ _).setReg64 (by decide) _

theorem ChKept.epochStart (h : ChKept s t) (k st : Nat) : ChKept s (t.epochStart k st) := .ite (h.seedSlice _ _) h

theorem ChKept.epochPath (h : ChKept s t) (k b j : Nat) : ChKept s (t.epochPath k b j) := by
  unfold State.epochPath
  extract_lets _ _ _ _ _ s1 _ _ s2 s3
  have h2 : ChKept s s2 := (h.withCh _).setScale _ _
  exact .ite ((h2.setFB (chReg_high k).1 _ _ _).bump (chReg_high k).2) (h2.setFB (chReg_high k).1 _ _ _)

theorem ChKept.epochCross (h : ChKept s t) (k b : Nat) : ChKept s (t.epochCross k b) :=
  .ite ((ChKept.withCh (h.foldl fun _ j hu => hu.epochPath k b j) _).setReg64 (by decide) _) h

/-! ### What the starts of slices touch (R137, R141 to R143) -/

/-- Nothing but the slices, the fills for staging, the channeliser's state and registers has changed. -/
structure MdKept (s t : State) : Prop where
  rest : { t with md := { t.md with sl := s.md.sl, fills := s.md.fills }, ch := s.ch, regs := s.regs, fresh := s.fresh } = s

theorem MdKept.refl (s : State) : MdKept s s := ⟨rfl⟩

theorem MdKept.trans (h : MdKept s t) (h' : MdKept t u) : MdKept s u :=
  ⟨Eq.trans (congrArg (fun v : State => { v with md := { v.md with sl := s.md.sl, fills := s.md.fills }, ch := s.ch, regs := s.regs, fresh := s.fresh }) h'.rest :)
    h.rest⟩

theorem ChKept.mdKept (h : ChKept s t) : MdKept s t :=
  ⟨(congrArg (fun v : State => { v with md := { v.md with sl := s.md.sl, fills := s.md.fills } }) h.rest :)⟩

theorem mdKept_setSlice (s : State) (k : Nat) (m : MdSlice) : MdKept s (s.setSlice k m) := ⟨rfl⟩
theorem mdKept_setF (s : State) (a : Nat) (f : Fld) (v : Nat) : MdKept s (s.setF a f v) := ⟨rfl⟩
theorem mdKept_setReg64 (s : State) (a v : Nat) : MdKept s (s.setReg64 a v) := ⟨rfl⟩
theorem mdKept_zeroSpectra (s : State) (k st n : Nat) : MdKept s (s.zeroSpectra k st n) := ⟨rfl⟩

theorem MdKept.progs (h : MdKept s t) : t.md.progs = s.md.progs := (congrArg (fun v : State => v.md.progs) h.rest :)
theorem MdKept.w (h : MdKept s t) : t.md.w = s.md.w := (congrArg (fun v : State => v.md.w) h.rest :)
theorem MdKept.time (h : MdKept s t) : t.time = s.time := (congrArg State.time h.rest :)

theorem MdKept.prog (h : MdKept s t) (n : Nat) : t.prog n = s.prog n := congrArg (tblGet progEmpty · n) h.progs

theorem MdKept.hdrOf (h : MdKept s t) (n : Nat) : t.hdrOf n = s.hdrOf n := by
  rw [State.hdrOf, State.hdrOf, h.prog]

/-- The state after it, as a change of those parts. -/
theorem MdKept.eq (h : MdKept s t) : t = { s with md := t.md, ch := t.ch, regs := t.regs, fresh := t.fresh } := by
  have hr := h.rest
  rw [← hr]

end Sys2Proof.Machine
end

-- ==== Madder slices: starts, swaps and restarts ====
section

namespace Sys2Proof.Machine

variable {s t u : State} {k q n st : Nat}

/-! ### Delay changes that are due (R130) -/

theorem applyDelays_eq (s : State) (k : Nat) : ∃ xj due, s.applyDelays k =
    due.foldl (fun s d => s.setF (MD_PATH_DELAY k d.2.1) MD_PATH_DELAY_DELAY d.2.2)
      (s.setSlice k { s.slice k with delays := (s.slice k).delays.filter fun d => !decide (d.1 ≤ (s.slice k).st), xj := xj }) ∧
    due = (s.slice k).delays.filter fun d => decide (d.1 ≤ (s.slice k).st) := ⟨_, _, rfl, rfl⟩

/-- Delays written leave every slice, and every register that is no path's delay. -/
theorem foldl_pathDelay (k : Nat) (due : List (Nat × Nat × Nat)) (s : State) :
    let t := due.foldl (fun s d => s.setF (MD_PATH_DELAY k d.2.1) MD_PATH_DELAY_DELAY d.2.2) s
    MdKept s t ∧ t.md = s.md ∧ ∀ a, (∀ j, a ≠ MD_PATH_DELAY k j) → t.reg a = s.reg a :=
  List.foldlRecOn (motive := fun t => MdKept s t ∧ t.md = s.md ∧ ∀ a, (∀ j, a ≠ MD_PATH_DELAY k j) → t.reg a = s.reg a) due _
    ⟨.refl s, rfl, fun _ _ => rfl⟩ fun t ⟨hk, hmd, hreg⟩ _ _ =>
      ⟨hk.trans (mdKept_setF t _ _ _), hmd, fun a ha => (t.reg_setF_ne _ _ (ha _)).trans (hreg a ha)⟩

theorem mdKept_applyDelays (s : State) (k : Nat) : MdKept s (s.applyDelays k) := by
  obtain ⟨xj, due, hd, -⟩ := applyDelays_eq s k
  rw [hd]
  exact (mdKept_setSlice s k _).trans (foldl_pathDelay k due _).1

theorem slice_applyDelays_ne (s : State) (h : q ≠ k) : (s.applyDelays k).slice q = s.slice q := by
  obtain ⟨xj, due, hd, -⟩ := applyDelays_eq s k
  rw [hd, State.slice_of_md (foldl_pathDelay k due _).2.1, State.slice_setSlice_ne _ _ h]

theorem slice_applyDelays_same (s : State) (k : Nat) : ∃ ds xj, (s.applyDelays k).slice k = { s.slice k with delays := ds, xj := xj } := by
  obtain ⟨xj, due, hd, -⟩ := applyDelays_eq s k
  exact ⟨_, xj, by rw [hd, State.slice_of_md (foldl_pathDelay k due _).2.1, State.slice_setSlice_same]⟩

theorem reg_applyDelays (s : State) {k a : Nat} (h : ∀ j, a ≠ MD_PATH_DELAY k j) : (s.applyDelays k).reg a = s.reg a := by
  obtain ⟨xj, due, hd, -⟩ := applyDelays_eq s k
  rw [hd, (foldl_pathDelay k due _).2.2 a h, State.reg_setSlice]

/-! ### The start of a program (R137, R141 to R143) -/

theorem mdKept_scaleHand (s : State) (k n : Nat) : MdKept s (s.scaleHand k n) := by
  unfold State.scaleHand
  dsimp only
  split
  · exact mdKept_setSlice s k _
  · split
    · exact ((ChKept.refl s).scaleFill k).mdKept
    · exact .refl s

theorem slice_scaleHand_ne (s : State) (n : Nat) (h : q ≠ k) : (s.scaleHand k n).slice q = s.slice q := by
  unfold State.scaleHand
  dsimp only
  split
  · exact State.slice_setSlice_ne s _ h
  · split
    · exact ((ChKept.refl s).scaleFill k).slice q
    · rfl

theorem slice_scaleHand_same (s : State) (k n : Nat) : ∃ y, (s.scaleHand k n).slice k = { s.slice k with y := y } := by
  unfold State.scaleHand
  dsimp only
  split
  · exact ⟨_, State.slice_setSlice_same s k _⟩
  · split
    · exact ⟨_, ((ChKept.refl s).scaleFill k).slice k⟩
    · exact ⟨_, rfl⟩

theorem reg_scaleHand (s : State) (k n : Nat) {a : Nat} (ha : a < 0x240000) : (s.scaleHand k n).reg a = s.reg a := by
  unfold State.scaleHand
  dsimp only
  split
  · rfl
  · split
    · exact ((ChKept.refl s).scaleFill k).reg a ha
    · rfl

/-- A start before the channeliser's part in it: the slice loaded, its registers, and the delay changes that are due. -/
def State.loadStart (s : State) (k n st : Nat) : State :=
  ((((s.setSlice k (s.loadedSlice k n st)).setF (MD_SL_CTL k) MD_SL_CTL_SLOT n).setF (MD_SL_STAT k) MD_SL_STAT_STATE mdRunning).setReg64
    (MD_SL_ST_LO k) st).applyDelays k

theorem chKept_startSlice (s : State) (k n st : Nat) : ChKept ((s.scaleHand k n).loadStart k n st) (s.startSlice k n st) := by
  have h : ChKept ((s.scaleHand k n).loadStart k n st) ((s.scaleHand k n).loadStart k n st) := .refl _
  have h2 := ChKept.calSwap (.ite (c := (s.hdrOf n).keepsScale = true) h (h.scaleLost k)) k st
  exact .ite (h2.epochStart _ _) h2

/-- Slice `k` has been started on program `n` with the spectrum at `st`: it runs from ENTRY on, its registers say so, and no other slice has changed. -/
structure Started (k n st : Nat) (s t : State) : Prop where
  kept : MdKept s t
  others : ∀ q < 64, q ≠ k → t.slice q = s.slice q ∧ t.reg (MD_SL_STAT q) = s.reg (MD_SL_STAT q)
  spectrum : (t.slice k).st = st
  entry : (t.slice k).pc = (s.hdrOf n).entry
  vectors : (t.slice k).v = []
  restarts : (t.slice k).rst = (s.slice k).rst
  swaps : (t.slice k).swap = (s.slice k).swap.filter fun x => decide (st < x.1)
  runs : t.sliceState k = mdRunning
  slot : n < 32 → t.rf (MD_SL_CTL k) MD_SL_CTL_SLOT = n
  stReg : t.reg64 (MD_SL_ST_LO k) = st % 2 ^ 64

/-- The registers of a slice that a start writes lie below the channeliser's. -/
theorem startReg_low (hk : k < 64) : MD_SL_STAT k < 0x240000 ∧ MD_SL_CTL k < 0x240000 ∧ MD_SL_ST_LO k < 0x240000 ∧ MD_SL_ST_LO k + 4 < 0x240000 := by
  unfold MD_SL_STAT MD_SL_CTL MD_SL_ST_LO
  omega

theorem Started.chKept (h : Started k n st s t) (hk : k < 64) (hc : ChKept t u) : Started k n st s u := by
  obtain ⟨hstat, hctl, hlo, hhi⟩ := startReg_low hk
  refine ⟨h.kept.trans hc.mdKept, fun q hq hne => ?_, ?_, ?_, ?_, ?_, ?_, ?_, fun hn => ?_, ?_⟩
  · rw [hc.slice, hc.reg _ (startReg_low hq).1]
    exact h.others q hq hne
  · rw [hc.slice, h.spectrum]
  · rw [hc.slice, h.entry]
  · rw [hc.slice, h.vectors]
  · rw [hc.slice, h.restarts]
  · rw [hc.slice, h.swaps]
  · rw [State.sliceState_of_reg (hc.reg _ hstat), h.runs]
  · rw [State.rf_of_reg (hc.reg _ hctl), h.slot hn]
  · rw [← h.stReg, State.reg64, State.reg64, hc.reg _ hlo, hc.reg _ hhi]

/-- A slice's registers that no delay write reaches. -/
theorem ne_pathDelay (q k : Nat) : (∀ j, MD_SL_STAT q ≠ MD_PATH_DELAY k j) ∧ (∀ j, MD_SL_CTL k ≠ MD_PATH_DELAY k j) ∧
    (∀ j, MD_SL_ST_LO k ≠ MD_PATH_DELAY k j) ∧ ∀ j, MD_SL_ST_LO k + 4 ≠ MD_PATH_DELAY k j := by
  unfold MD_SL_STAT MD_SL_CTL MD_SL_ST_LO MD_PATH_DELAY
  refine ⟨?_, ?_, ?_, ?_⟩ <;> intro j <;> omega

/-- The registers of a slice that a start writes, apart from one another. -/
theorem startReg_apart (k q : Nat) : MD_SL_CTL k ≠ MD_SL_STAT q ∧ MD_SL_CTL k ≠ MD_SL_ST_LO k ∧ MD_SL_CTL k ≠ MD_SL_ST_LO k + 4 ∧
    MD_SL_STAT q ≠ MD_SL_ST_LO k ∧ MD_SL_STAT q ≠ MD_SL_ST_LO k + 4 ∧ (q ≠ k → MD_SL_STAT q ≠ MD_SL_STAT k) := by
  unfold MD_SL_CTL MD_SL_STAT MD_SL_ST_LO
  omega

theorem started_loadStart (s : State) (k n st : Nat) : Started k n st s (s.loadStart k n st) := by
  obtain ⟨u, hu⟩ : ∃ u, (((s.setSlice k (s.loadedSlice k n st)).setF (MD_SL_CTL k) MD_SL_CTL_SLOT n).setF (MD_SL_STAT k) MD_SL_STAT_STATE mdRunning).setReg64
    (MD_SL_ST_LO k) st = u := ⟨_, rfl⟩
  have hslice : ∀ q, u.slice q = (s.setSlice k (s.loadedSlice k n st)).slice q := fun q => hu ▸ rfl
  have hkept : MdKept s u := hu ▸ ((((mdKept_setSlice s k _).trans (mdKept_setF _ _ _ _)).trans (mdKept_setF _ _ _ _)).trans (mdKept_setReg64 _ _ _))
  obtain ⟨ds, xj, hk⟩ := slice_applyDelays_same u k
  rw [hslice, State.slice_setSlice_same] at hk
  obtain ⟨hstat, hctl, hlo, hhi⟩ := ne_pathDelay k k
  obtain ⟨hcs, hcl, hch, hsl, hsh, -⟩ := startReg_apart k k
  rw [State.loadStart, hu]
  refine ⟨hkept.trans (mdKept_applyDelays u k), fun q hq hne => ⟨?_, ?_⟩, ?_, ?_, ?_, ?_, ?_, ?_, fun hn => ?_, ?_⟩
  · rw [slice_applyDelays_ne u hne, hslice, State.slice_setSlice_ne _ _ hne]
  · obtain ⟨hcs, -, -, hsl, hsh, hss⟩ := startReg_apart k q
    rw [reg_applyDelays u (ne_pathDelay q k).1, ← hu, State.reg_setReg64_ne _ _ hsl hsh, State.reg_setF_ne _ _ _ (hss hne), State.reg_setF_ne _ _ _ hcs.symm,
      State.reg_setSlice]
  · rw [hk]; rfl
  · rw [hk]; rfl
  · rw [hk]; rfl
  · rw [hk]; rfl
  · rw [hk]; rfl
  · rw [State.sliceState_of_reg (reg_applyDelays u hstat), ← hu, State.sliceState_of_reg (State.reg_setReg64_ne _ _ hsl hsh)]
    exact State.rf_setF_same _ _ _ _ (by decide)
  · rw [State.rf_of_reg (reg_applyDelays u hctl), ← hu, State.rf_of_reg (State.reg_setReg64_ne _ _ hcl hch), State.rf_setF_ne _ _ _ _ hcs,
      State.rf_setF_same _ _ _ _ (by decide)]
    exact Nat.mod_eq_of_lt hn
  · rw [State.reg64, reg_applyDelays u hlo, reg_applyDelays u hhi, ← hu]
    exact State.reg64_setReg64 _ _ _

/-- What went before a start, where it touches nothing of the other slices and of the slice itself neither restarts nor swaps. -/
theorem Started.after (h : Started k n st u t) (hu : MdKept s u)
    (hothers : ∀ q < 64, q ≠ k → u.slice q = s.slice q ∧ u.reg (MD_SL_STAT q) = s.reg (MD_SL_STAT q)) (hrst : (u.slice k).rst = (s.slice k).rst)
    (hswap : (u.slice k).swap = (s.slice k).swap) : Started k n st s t := by
  refine ⟨hu.trans h.kept, fun q hq hne => ?_, h.spectrum, h.entry.trans (by rw [hu.hdrOf]), h.vectors, h.restarts.trans hrst,
    h.swaps.trans (by rw [hswap]), h.runs, h.slot, h.stReg⟩
  obtain ⟨h1, h2⟩ := h.others q hq hne
  obtain ⟨h3, h4⟩ := hothers q hq hne
  exact ⟨h1.trans h3, h2.trans h4⟩

theorem started_startSlice (s : State) {k : Nat} (hk : k < 64) (n st : Nat) : Started k n st s (s.startSlice k n st) := by
  obtain ⟨y, hy⟩ := slice_scaleHand_same s k n
  exact ((started_loadStart (s.scaleHand k n) k n st).chKept hk (chKept_startSlice s k n st)).after (mdKept_scaleHand s k n)
    (fun q hq hne => ⟨slice_scaleHand_ne s n hne, reg_scaleHand s k n (startReg_low hq).1⟩) (by rw [hy]) (by rw [hy])

/-! ### Restarts (R136, R137, R144) -/

theorem started_restartSlice (hk : k < 64) (hn : s.programAt k (spectrumAt s.md.w) = n) (hl : s.loadable n = true) :
    Started k n (spectrumAt s.md.w) s (s.restartSlice k) := by
  unfold State.restartSlice
  extract_lets st n' a
  have hn' : n' = n := hn
  rw [hn', if_pos hl]
  have hslice : ∀ q, ((s.setSlice k { s.slice k with back := [] }).zeroSpectra k a ((st - a) / 8192)).slice q =
      (s.setSlice k { s.slice k with back := [] }).slice q := fun _ => rfl
  refine (started_startSlice _ hk n st).after ((mdKept_setSlice s k _).trans (mdKept_zeroSpectra _ _ _ _)) (fun q _ hne => ⟨?_, rfl⟩) ?_ ?_
  · rw [hslice, State.slice_setSlice_ne _ _ hne]
  · rw [hslice, State.slice_setSlice_same]
  · rw [hslice, State.slice_setSlice_same]

theorem exec_sliceAutoRestart (h : s.on = true) (hst : s.sliceState k = mdIdle) (hc : s.rf (MD_SL_EXC k) MD_SL_EXC_CODE ≠ 0)
    (hh : s.rf (MD_SL_EXC k) MD_SL_EXC_CODE ≠ excHalt) (ha : s.flag (MD_SL_CTL k) MD_SL_CTL_AUTO_RESTART = true) (hr : s.running = true)
    (hcs : s.coreStopped = false) (hl : s.loadable (s.programAt k (spectrumAt s.md.w)) = true) :
    exec (.sliceAutoRestart k) s = .next ((s.restartSlice k).setSlice k { (s.restartSlice k).slice k with
      rst := (s.time.cycles :: ((s.restartSlice k).slice k).rst).filter fun c => decide (s.time.cycles < c + sixtySeconds) }) := by
  have hi : exec (.sliceAutoRestart k) s = execSliceAutoRestart k s := rfl
  rw [hi, execSliceAutoRestart, whenOn_on h]
  dsimp only
  rw [hl, hst, ha, hr, hcs, if_pos]
  simp [hc, hh]

/-- RESTARTS of MD_SL_EXC as it reads (R144). -/
theorem readReg_mdSlExc (s : State) (hk : k < 64) : s.readReg (MD_SL_EXC k) = fput (s.reg (MD_SL_EXC k)) MD_SL_EXC_RESTARTS (s.restarts k) := by
  have hexc : isSliceExc (MD_SL_EXC k) = true := by
    simp only [isSliceExc, MD_SL_EXC, Bool.and_eq_true, beq_iff_eq]
    exact ⟨⟨decide_eq_true (by omega), decide_eq_true (by omega)⟩, by omega⟩
  have hidx : (MD_SL_EXC k - 0x201000) / 0x400 = k := by
    unfold MD_SL_EXC
    omega
  have hne : ∀ a, a < 0x201000 ∨ 0x240000 ≤ a → MD_SL_EXC k ≠ a := by
    unfold MD_SL_EXC
    omega
  rw [State.readReg, if_neg (hne _ (by decide)), if_neg (hne _ (by decide)), if_neg (hne _ (by decide)), if_neg (hne _ (by decide)),
    if_neg (hne _ (by decide)), if_neg (hne _ (by decide)), if_pos hexc, hidx]

theorem slice_restarts (h : s.on = true) (hk : k < 64) (hst : s.sliceState k = mdIdle) (hc : s.rf (MD_SL_EXC k) MD_SL_EXC_CODE ≠ 0)
    (hh : s.rf (MD_SL_EXC k) MD_SL_EXC_CODE ≠ excHalt) (ha : s.flag (MD_SL_CTL k) MD_SL_CTL_AUTO_RESTART = true) (hr : s.running = true)
    (hcs : s.coreStopped = false) (hn : s.programAt k (spectrumAt s.md.w) = n) (hl : s.loadable n = true) :
    ∃ t, exec (.sliceAutoRestart k) s = .next t ∧ MdKept s t ∧
      (∀ q < 64, q ≠ k → t.slice q = s.slice q ∧ t.reg (MD_SL_STAT q) = s.reg (MD_SL_STAT q)) ∧
      (t.slice k).st = spectrumAt s.md.w ∧ (t.slice k).pc = (s.hdrOf n).entry ∧ (t.slice k).v = [] ∧ t.sliceState k = mdRunning ∧
      (n < 32 → t.rf (MD_SL_CTL k) MD_SL_CTL_SLOT = n) ∧ t.reg64 (MD_SL_ST_LO k) = spectrumAt s.md.w % 2 ^ 64 ∧
      (t.slice k).rst.head? = some s.time.cycles ∧ fget (t.readReg (MD_SL_EXC k)) MD_SL_EXC_RESTARTS = min 15 (t.slice k).rst.length := by
  have hs := started_restartSlice hk hn hl
  subst hn
  obtain ⟨u, hu⟩ : ∃ u, s.restartSlice k = u := ⟨_, rfl⟩
  have hexec := exec_sliceAutoRestart h hst hc hh ha hr hcs hl
  rw [hu] at hs hexec
  obtain ⟨cs, hcs⟩ : ∃ cs, (s.time.cycles :: (u.slice k).rst).filter (fun c => decide (s.time.cycles < c + sixtySeconds)) = cs := ⟨_, rfl⟩
  rw [hcs] at hexec
  have hcs' : cs.filter (fun c => decide (s.time.cycles < c + sixtySeconds)) = cs := by rw [← hcs, List.filter_filter]; simp only [Bool.and_self]
  obtain ⟨t, ht⟩ : ∃ t, u.setSlice k { u.slice k with rst := cs } = t := ⟨_, rfl⟩
  have htk : t.slice k = { u.slice k with rst := cs } := by rw [← ht, State.slice_setSlice_same]
  have hkept : MdKept s t := hs.kept.trans (ht ▸ mdKept_setSlice u k _)
  have hreg : ∀ a, t.reg a = u.reg a := fun a => ht ▸ u.reg_setSlice k _ a
  rw [ht] at hexec
  refine ⟨t, hexec, hkept, fun q hq hne => ?_, ?_, ?_, ?_, ?_, fun hn => ?_, ?_, ?_, ?_⟩
  · obtain ⟨h1, h2⟩ := hs.others q hq hne
    rw [← ht, State.slice_setSlice_ne _ _ hne, State.reg_setSlice]
    exact ⟨h1, h2⟩
  · rw [htk]; exact hs.spectrum
  · rw [htk]; exact hs.entry
  · rw [htk]; exact hs.vectors
  · rw [State.sliceState_of_reg (hreg _), hs.runs]
  · rw [State.rf_of_reg (hreg _), hs.slot hn]
  · rw [← hs.stReg, State.reg64, State.reg64, hreg, hreg]
  · have hnow : decide (s.time.cycles < s.time.cycles + sixtySeconds) = true := decide_eq_true (Nat.lt_add_of_pos_right (by decide))
    rw [htk]
    dsimp only
    rw [← hcs, List.filter_cons, if_pos hnow]
    rfl
  · rw [readReg_mdSlExc t hk, fget_fput_same _ _ _ (by decide), State.restarts, htk, hkept.time, hcs']
    exact Nat.mod_eq_of_lt (by simp [MD_SL_EXC_RESTARTS])

/-! ### Swaps (R142, R162) -/

theorem slice_swaps (h : s.on = true) (hk : k < 64) {b : Nat} {qs : List (Nat × Nat)} (hst : s.sliceState k = mdSwapping)
    (hsw : (s.slice k).swap = (b, n) :: qs) (haw : s.awaits b = false) :
    ∃ t, exec (.programSwapLoadDone k) s = .next t ∧ Started k n b s t := by
  have hi : exec (.programSwapLoadDone k) s = execProgramSwapLoadDone k s := rfl
  obtain ⟨u, hc, hu⟩ : ∃ u, ChKept s u ∧ exec (.programSwapLoadDone k) s = .next (u.startSlice k n b) := by
    rw [hi, execProgramSwapLoadDone, whenOn_on h, hsw]
    dsimp only
    rw [hst, haw, if_pos (by decide)]
    cases s.epochDue k b with
    | none => exact ⟨s, .refl s, rfl⟩
    | some q => exact ⟨s.epochCross k q, (ChKept.refl s).epochCross k q, rfl⟩
  exact ⟨_, hu, (started_startSlice u hk n b).after hc.mdKept (fun q hq _ => ⟨hc.slice q, hc.reg _ (startReg_low hq).1⟩) (by rw [hc.slice]) (by rw [hc.slice])⟩

end Sys2Proof.Machine
end

-- ==== Madder slices: outputs completed ====
section

namespace Sys2Proof.Machine

variable {s t u : State} {k q : Nat}

/-! ### Runs of a table, bytes, and blocks of a ring (R22, R134) -/

theorem tblGet_setRun_in {α : Type} [DecidableEq α] (d : α) (vs : List α) : ∀ (t : Tbl α) (a i : Nat), i < vs.length →
    tblGet d (tblSetRun d t a vs) (a + i) = vs.getD i d := by
  induction vs with
  | nil => intro t a i h; exact absurd h (Nat.not_lt_zero i)
  | cons v vs ih =>
    intro t a i h
    cases i with
    | zero => rw [Nat.add_zero, tblSetRun, tblGet_setRun_out _ _ _ _ _ (.inl (Nat.lt_succ_self a)), tblGet_set_same, List.getD_cons_zero]
    | succ i =>
      rw [tblSetRun, Nat.add_comm i 1, ← Nat.add_assoc, Nat.add_comm 1 i, List.getD_cons_succ]
      exact ih _ _ _ (Nat.lt_of_succ_lt_succ h)

theorem le_length (n v : Nat) : (le n v).length = n := by
  induction n generalizing v with
  | zero => rfl
  | succ n ih => rw [le, List.length_cons, ih]

/-- The 32 header bytes of a block in a slice's ring (R134). -/
def ringHeader (path st flags : Nat) (last : Bool) (seq len : Nat) : List Byte :=
  le 8 st ++ le 2 path ++ le 1 (if last then flags else 0) ++ le 1 (b2n last) ++ le 4 seq ++ le 4 len ++ le 12 0

theorem ringHeader_length (path st flags : Nat) (last : Bool) (seq len : Nat) : (ringHeader path st flags last seq len).length = 32 := by
  simp only [ringHeader, List.length_append, le_length]

/-- A block of a slice's ring: the header, and the data padded to 32 bytes (R134). -/
def ringBytes (path st flags : Nat) (last : Bool) (seq : Nat) (data : List Byte) : List Byte :=
  ringHeader path st flags last seq data.length ++ data ++ List.replicate ((32 - data.length % 32) % 32) 0

theorem ringBytes_length (path st flags : Nat) (last : Bool) (seq : Nat) (data : List Byte) :
    (ringBytes path st flags last seq data).length = 32 + data.length + (32 - data.length % 32) % 32 := by
  rw [ringBytes, List.length_append, List.length_append, ringHeader_length, List.length_replicate]

theorem ringBytes_data (path st flags : Nat) (last : Bool) (seq : Nat) (data : List Byte) {i : Nat} (hi : i < data.length) :
    (ringBytes path st flags last seq data).getD (32 + i) 0 = data.getD i 0 := by
  have hh := ringHeader_length path st flags last seq data.length
  rw [ringBytes, List.append_assoc, List.getD_append_right _ _ _ _ (by omega), hh, Nat.add_sub_cancel_left, List.getD_append _ _ _ _ hi]

/-! ### A block's own writes to DRAM (R335 to R339) -/

/-- The registers of the Madder slices. -/
def mdReg (a : Nat) : Prop := 0x200000 ≤ a ∧ a < 0x240000

theorem mdReg.not_intReg {a : Nat} (h : mdReg a) : ¬ intReg a := by
  unfold mdReg at h
  unfold intReg EV_INT_STAT
  omega

/-- The slices, the fills, their registers and DRAM stand as they did. -/
structure StoreKept (s t : State) : Prop where
  md : t.md = s.md
  reg : ∀ a, mdReg a → t.reg a = s.reg a
  mem : t.mem = s.mem

theorem StoreKept.refl (s : State) : StoreKept s s := ⟨rfl, fun _ _ => rfl, rfl⟩

theorem StoreKept.trans (h : StoreKept s t) (h' : StoreKept t u) : StoreKept s u :=
  ⟨h'.md.trans h.md, fun a ha => (h'.reg a ha).trans (h.reg a ha), h'.mem.trans h.mem⟩

theorem storeKept_drUe (s : State) (a : Nat) : StoreKept s (s.drUe a) := by
  refine ⟨by simp [State.drUe], fun o ho => ?_, by simp [State.drUe]⟩
  obtain ⟨hlo, hhi⟩ := ho
  have h1 : o ≠ DR_STAT ∧ o ≠ PW_LOG_SEQ := by
    unfold DR_STAT PW_LOG_SEQ
    omega
  have h2 : ∀ n, o ≠ DR_CH_UEADDR_LO n ∧ o ≠ DR_CH_UEADDR_LO n + 4 ∧ o ≠ DR_CH_UE n := by
    intro n
    unfold DR_CH_UEADDR_LO DR_CH_UE
    omega
  unfold State.drUe
  extract_lets n
  obtain ⟨hl, hh, hu⟩ := h2 n
  rw [State.reg_seen _ _ _ _ (by decide) (mdReg.not_intReg ⟨hlo, hhi⟩) h1.1, State.reg_logEvent _ _ _ _ h1.2, State.reg_setReg64_ne _ _ hl hh,
    State.reg_bump_ne _ hu]

theorem reg_noteViolation (s : State) (stat : Word) (addr data o : Nat) : (s.noteViolation stat addr data).reg o = s.reg o := by
  unfold State.noteViolation
  split
  · simp only [State.reg_note]
  · rfl

theorem reg_logViolation (s : State) {o : Nat} (h : o ≠ PW_LOG_SEQ) : s.logViolation.reg o = s.reg o := State.reg_logEvent _ _ _ _ h

/-- A violation writes its own registers, the log's and the interrupts' (R551). -/
theorem reg_violation (s : State) (src kind addr data : Nat) {o : Nat} (ho : mdReg o) : (s.violation src kind addr data).reg o = s.reg o := by
  have hav : o ≠ GLB_AV_COUNT ∧ o ≠ GLB_AV_STAT ∧ o ≠ GLB_AV_ADDR_LO ∧ o ≠ GLB_AV_ADDR_LO + 4 ∧ o ≠ GLB_AV_DATA ∧ o ≠ PW_LOG_SEQ := by
    unfold mdReg at ho
    unfold GLB_AV_COUNT GLB_AV_STAT GLB_AV_ADDR_LO GLB_AV_DATA PW_LOG_SEQ
    omega
  obtain ⟨hcount, hstat, hlo, hhi, hdata, hseq⟩ := hav
  have h1 (stat : Word) : ((s.bump GLB_AV_COUNT).noteViolation stat addr data).reg o = s.reg o := (reg_noteViolation _ _ _ _ _).trans (s.reg_bump_ne hcount)
  rw [State.violation, State.reg_raise _ _ (by decide) ho.not_intReg]
  split
  · rw [← h1 (w32 (2 ^ 31 + src % 8 * 2 ^ 28 + kind % 16 * 2 ^ 24))]
    rfl
  · rw [reg_logViolation _ hseq, State.reg_setReg_ne _ _ hdata, State.reg_setReg64_ne _ _ hlo hhi, State.reg_setReg_ne _ _ hstat, h1]

theorem storeKept_drBad (s : State) (src a : Nat) : StoreKept s (s.drBad src a) :=
  ⟨s.violation_md _ _ _ _, fun _ ho => reg_violation s _ _ _ _ ho, s.violation_mem _ _ _ _⟩

/-- A write of DRAM that finds no uncorrectable error, or finds some, changes memory by the bytes written. -/
theorem drWrite_kept (s : State) (a : Nat) (bs : List Byte) : StoreKept (s.memWrite a bs) (s.drWrite a bs) := by
  unfold State.drWrite
  extract_lets part bad s1 s2
  exact List.foldlRecOn bad _ (motive := StoreKept s1) ⟨rfl, fun _ _ => rfl, rfl⟩ fun u hu c _ => hu.trans (storeKept_drUe u _)

theorem drStore_in {a : Nat} {bs : List Byte} (h : s.drIn a bs.length = true) : StoreKept (s.memWrite a bs) (s.drStore a bs) := by
  rw [State.drStore, if_pos h]
  exact drWrite_kept s a bs

theorem drStore_out {a : Nat} {bs : List Byte} (h : s.drIn a bs.length = false) : StoreKept s (s.drStore a bs) := by
  rw [State.drStore, if_neg (by rw [h]; decide)]
  exact storeKept_drBad s 0 a

theorem drStore_md (s : State) (a : Nat) (bs : List Byte) : (s.drStore a bs).md = s.md := by
  cases h : s.drIn a bs.length with
  | true => exact (drStore_in h).md
  | false => exact (drStore_out h).md

theorem reg_drStore (s : State) (a : Nat) (bs : List Byte) {o : Nat} (ho : mdReg o) : (s.drStore a bs).reg o = s.reg o := by
  cases h : s.drIn a bs.length with
  | true => exact (drStore_in h).reg o ho
  | false => exact (drStore_out h).reg o ho

/-! ### The ring of a slice (R134) -/

/-- Where a block of `n` bytes goes in a slice's ring: at the next place, or at the ring's start where it would cross the end. -/
def State.blockPlace (s : State) (k n : Nat) : Nat := if (s.slice k).ringPos + n ≤ (s.reg (MD_SL_RING_LEN k)).toNat then (s.slice k).ringPos else 0

theorem blockPlace_or (s : State) (k n : Nat) : s.blockPlace k n = 0 ∨ s.blockPlace k n = (s.slice k).ringPos := by
  unfold State.blockPlace
  split
  · exact .inr rfl
  · exact .inl rfl

theorem ringBlock_eq (s : State) (k path st flags : Nat) (last : Bool) (data : List Byte) :
    ∃ blk pos, blk = ringBytes path st flags last (s.reg (MD_SL_RING_SEQ k)).toNat data ∧ (pos = 0 ∨ pos = (s.slice k).ringPos) ∧
      s.ringBlock k path st flags last data =
        ((s.drStore (s.reg64 (MD_SL_RING_BASE_LO k) + pos) blk).setSlice k { s.slice k with ringPos := pos + blk.length }).setReg (MD_SL_RING_SEQ k)
          (w32 ((s.reg (MD_SL_RING_SEQ k)).toNat + 1)) :=
  ⟨_, s.blockPlace k _, rfl, blockPlace_or s k _, rfl⟩

/-- A block leaves slice `k`'s port: the other slices, the queue, and the Madder's registers but MD_SL_RING_SEQ stand as they did. -/
structure PortKept (k : Nat) (s t : State) : Prop where
  slice : ∀ q, q ≠ k → t.slice q = s.slice q
  waits : (t.slice k).waits = (s.slice k).waits
  reg : ∀ a, mdReg a → a ≠ MD_SL_RING_SEQ k → t.reg a = s.reg a

theorem PortKept.refl (k : Nat) (s : State) : PortKept k s s := ⟨fun _ _ => rfl, rfl, fun _ _ _ => rfl⟩

theorem PortKept.trans (h : PortKept k s t) (h' : PortKept k t u) : PortKept k s u :=
  ⟨fun q hq => (h'.slice q hq).trans (h.slice q hq), h'.waits.trans h.waits, fun a ha hne => (h'.reg a ha hne).trans (h.reg a ha hne)⟩

theorem portKept_setSlice (s : State) (k : Nat) {m : MdSlice} (hm : m.waits = (s.slice k).waits) : PortKept k s (s.setSlice k m) :=
  ⟨fun _ hq => s.slice_setSlice_ne m hq, by rw [State.slice_setSlice_same, hm], fun a _ _ => s.reg_setSlice k m a⟩

theorem portKept_ringBlock (s : State) (k path st flags : Nat) (last : Bool) (data : List Byte) : PortKept k s (s.ringBlock k path st flags last data) := by
  obtain ⟨blk, pos, -, -, h⟩ := ringBlock_eq s k path st flags last data
  rw [h]
  refine ⟨fun q hq => ?_, ?_, fun a ha hne => ?_⟩
  · exact (State.slice_setSlice_ne _ _ hq).trans (State.slice_of_md (drStore_md _ _ _) q)
  · exact (congrArg MdSlice.waits (State.slice_setSlice_same (s.drStore _ blk) k _) :)
  · rw [State.reg_setReg_ne _ _ hne, State.reg_setSlice, reg_drStore _ _ _ ha]

theorem fills_ringBlock (s : State) (k path st flags : Nat) (last : Bool) (data : List Byte) : (s.ringBlock k path st flags last data).md.fills = s.md.fills := by
  obtain ⟨blk, pos, -, -, h⟩ := ringBlock_eq s k path st flags last data
  rw [h]
  exact (congrArg MdSt.fills (drStore_md s _ blk) :)

theorem ringSeq_ringBlock (s : State) (k path st flags : Nat) (last : Bool) (data : List Byte) :
    (s.ringBlock k path st flags last data).reg (MD_SL_RING_SEQ k) = w32 ((s.reg (MD_SL_RING_SEQ k)).toNat + 1) := State.reg_setReg_same _ _ _

/-- A ring that starts past the installed size is not written. -/
theorem mem_ringBlock_out (path st flags : Nat) (last : Bool) (data : List Byte) (h : s.drIn (s.reg64 (MD_SL_RING_BASE_LO k)) 1 = false) :
    (s.ringBlock k path st flags last data).mem = s.mem := by
  obtain ⟨blk, pos, hblk, -, heq⟩ := ringBlock_eq s k path st flags last data
  have hlen : 1 ≤ blk.length := by
    rw [hblk, ringBytes_length]
    omega
  have hout : s.drIn (s.reg64 (MD_SL_RING_BASE_LO k) + pos) blk.length = false := by
    have hlt := of_decide_eq_false h
    exact decide_eq_false (by omega)
  rw [heq]
  exact (drStore_out hout).mem

/-- A block within the installed DRAM has its bytes 32 bytes after its place, and changes none but its own. -/
theorem mem_ringBlock_in (path st flags : Nat) (last : Bool) (data : List Byte)
    (h : s.drIn (s.reg64 (MD_SL_RING_BASE_LO k)) ((s.slice k).ringPos + data.length + 64) = true) :
    ∃ at', (at' = s.reg64 (MD_SL_RING_BASE_LO k) ∨ at' = s.reg64 (MD_SL_RING_BASE_LO k) + (s.slice k).ringPos) ∧
      (∀ i < data.length, (s.ringBlock k path st flags last data).memByte (at' + 32 + i) = data.getD i 0) ∧
      ∀ a, a < at' ∨ at' + 32 + data.length + 31 ≤ a → (s.ringBlock k path st flags last data).memByte a = s.memByte a := by
  obtain ⟨blk, pos, hblk, hpos, heq⟩ := ringBlock_eq s k path st flags last data
  have hlen : blk.length = 32 + data.length + (32 - data.length % 32) % 32 := by rw [hblk, ringBytes_length]
  have hin : s.drIn (s.reg64 (MD_SL_RING_BASE_LO k) + pos) blk.length = true := by
    have hle := of_decide_eq_true h
    exact decide_eq_true (by omega)
  have hmem : (s.ringBlock k path st flags last data).mem = tblSetRun 0 s.mem (s.reg64 (MD_SL_RING_BASE_LO k) + pos) blk := by
    rw [heq]
    exact (drStore_in hin).mem
  refine ⟨s.reg64 (MD_SL_RING_BASE_LO k) + pos, by omega, fun i hi => ?_, fun a ha => ?_⟩
  · rw [State.memByte, hmem, Nat.add_assoc, tblGet_setRun_in _ _ _ _ _ (by omega), hblk, ringBytes_data _ _ _ _ _ _ hi]
  · rw [State.memByte, hmem, tblGet_setRun_out _ _ _ _ _ (by omega)]
    rfl

/-! ### Blocks leave the port (R132 to R134) -/

theorem portKept_blockOut (s : State) (k : Nat) (w : OutWait) : PortKept k s (s.blockOut k w) := by
  unfold State.blockOut
  split
  · exact portKept_ringBlock _ _ _ _ _ _ _
  · exact portKept_setSlice s k rfl

theorem fills_blockOut (s : State) (k : Nat) (w : OutWait) : (s.blockOut k w).md.fills = s.md.fills := by
  unfold State.blockOut
  split
  · exact fills_ringBlock _ _ _ _ _ _ _
  · rfl

theorem mem_blockOut (s : State) (k : Nat) {w : OutWait} (h : w.ring = false) : (s.blockOut k w).mem = s.mem := by
  rw [State.blockOut, h]
  rfl

theorem fills_portDrain (s : State) (k : Nat) : (s.portDrain k).md.fills = s.md.fills :=
  List.foldlRecOn _ _ (motive := fun u : State => u.md.fills = s.md.fills) rfl fun u hu w _ => (fills_blockOut u k w).trans hu

/-- The blocks up to the next last one have gone, and nothing else of the port. -/
theorem portKept_portDrain (s : State) (k : Nat) :
    PortKept k (s.setSlice k { s.slice k with waits := (s.slice k).waits.dropWhile fun w => !w.last }) (s.portDrain k) :=
  List.foldlRecOn _ _ (motive := PortKept k _) (PortKept.refl k _) fun u hu w _ => hu.trans (portKept_blockOut u k w)

theorem mem_portDrain (s : State) (k : Nat) (h : ∀ x ∈ (s.slice k).waits, x.ring = false) : (s.portDrain k).mem = s.mem :=
  List.foldlRecOn _ _ (motive := fun u : State => u.mem = s.mem) rfl fun u hu w hw => (mem_blockOut u k (h w ((List.takeWhile_sublist _).subset hw))).trans hu

/-- A port without blocks stays as it is. -/
theorem portDrain_nil (h : (s.slice k).waits = []) : s.portDrain k = s.setSlice k (s.slice k) := by
  have hm : { s.slice k with waits := [] } = s.slice k := by rw [← h]
  rw [State.portDrain, h]
  exact congrArg (s.setSlice k) hm

/-! ### The flags of a spectrum that goes out (R129, R133, R144) -/

theorem fwCrc_eq (fw : Nat) : fwCrc fw = bit fw 1 := by
  have h : Nat.land fw 0x02 = (fw.testBit 1).toNat * 2 ^ 1 := Nat.and_two_pow fw 1
  rw [fwCrc, bit_eq_testBit, h]
  cases fw.testBit 1 <;> rfl

theorem fwWarm_eq (fw : Nat) : fwWarm fw = (bit fw 3 || bit fw 4) := by
  have h : Nat.land fw 0x18 = (fw.testBit 3).toNat * 2 ^ 3 ||| (fw.testBit 4).toNat * 2 ^ 4 := by
    rw [← Nat.and_two_pow, ← Nat.and_two_pow, ← Nat.and_or_distrib_left]
    rfl
  rw [fwWarm, bit_eq_testBit, bit_eq_testBit, h]
  cases fw.testBit 3 <;> cases fw.testBit 4 <;> rfl

/-- What a delivered flag word leaves alone (R144). -/
structure FlagsNoted (k j : Nat) (s t : State) : Prop where
  md : t.md = s.md
  mem : t.mem = s.mem
  reg : ∀ a, a ≠ MD_PATH_STAT k j → a ≠ MD_SL_MARKCNT k → t.reg a = s.reg a

theorem flagsNoted_pathSeen (s : State) (k j fw : Nat) (stage : Bool) : FlagsNoted k j s (s.pathSeen k j fw stage) := by
  have hset {u : State} (hu : FlagsNoted k j s u) (f : Fld) : FlagsNoted k j s (u.setSeen (MD_PATH_STAT k j) f 1) :=
    ⟨hu.md, hu.mem, fun a ha hne => (u.reg_setSeen_ne f 1 ha).trans (hu.reg a ha hne)⟩
  have hite {c : Prop} [Decidable c] {u v : State} (hu : FlagsNoted k j s u) (hv : FlagsNoted k j s v) : FlagsNoted k j s (if c then u else v) := by
    split
    · exact hu
    · exact hv
  unfold State.pathSeen
  extract_lets s1 s2 s3
  have h0 : FlagsNoted k j s s := ⟨rfl, rfl, fun _ _ _ => rfl⟩
  have h1 : FlagsNoted k j s s1 := hite (hset h0 _) h0
  have h2 : FlagsNoted k j s s2 := hite (hset h1 _) h1
  have h3 : FlagsNoted k j s s3 := hite (hset h2 _) h2
  exact hite ⟨h3.md, h3.mem, fun a ha hne => (s3.reg_bump_ne hne).trans (h3.reg a ha hne)⟩ h3

/-- A spectrum that is not for staging counts no zeros (R144). -/
theorem markCnt_pathSeen (s : State) (k fw : Nat) {j : Nat} (hj : j < 8) :
    (s.pathSeen k j fw false).reg (MD_SL_MARKCNT k) = s.reg (MD_SL_MARKCNT k) := by
  have hne : MD_SL_MARKCNT k ≠ MD_PATH_STAT k j := by
    unfold MD_SL_MARKCNT MD_PATH_STAT
    omega
  have hset (u : State) (f : Fld) (c : Bool) :
      (if c then u.setSeen (MD_PATH_STAT k j) f 1 else u).reg (MD_SL_MARKCNT k) = u.reg (MD_SL_MARKCNT k) := by
    split
    · exact u.reg_setSeen_ne f 1 hne
    · rfl
  exact ((hset _ _ _).trans (hset _ _ _)).trans (hset _ _ _)

/-- The sticky bits of a flag word that goes out (R144). -/
theorem flag_pathSeen (s : State) (k fw : Nat) (stage : Bool) {j : Nat} (hj : j < 8) :
    (bit fw 6 = true → (s.pathSeen k j fw stage).flag (MD_PATH_STAT k j) MD_PATH_STAT_ARITH_SEEN = true) ∧
      (bit fw 5 = true → (s.pathSeen k j fw stage).flag (MD_PATH_STAT k j) MD_PATH_STAT_STALE_SEEN = true) ∧
      (bit fw 4 = true → (s.pathSeen k j fw stage).flag (MD_PATH_STAT k j) MD_PATH_STAT_DCONT_SEEN = true) := by
  have hne : MD_PATH_STAT k j ≠ MD_SL_MARKCNT k := by
    unfold MD_SL_MARKCNT MD_PATH_STAT
    omega
  have hkeep (u : State) (c : Bool) (f g : Fld) (hf : f.lo + f.w ≤ 32) (hg : f.apart g) :
      (if c then u.setSeen (MD_PATH_STAT k j) f 1 else u).flag (MD_PATH_STAT k j) g = u.flag (MD_PATH_STAT k j) g := by
    split
    · exact State.flag_of_rf (u.rf_setF_apart _ _ _ _ hf hg)
    · rfl
  have hbump (u : State) (c : Bool) (g : Fld) : (if c then u.bump (MD_SL_MARKCNT k) else u).flag (MD_PATH_STAT k j) g = u.flag (MD_PATH_STAT k j) g := by
    split
    · exact State.flag_of_reg (u.reg_bump_ne hne) g
    · rfl
  unfold State.pathSeen
  extract_lets s1 s2 s3
  refine ⟨fun h => ?_, fun h => ?_, fun h => ?_⟩
  · rw [hbump, hkeep _ _ _ _ (by decide) (.inl (by decide)), hkeep _ _ _ _ (by decide) (.inl (by decide))]
    exact (congrArg (fun u : State => u.flag _ _) (if_pos h)).trans (State.flag_setSeen_same _ _ (by decide) (by decide))
  · rw [hbump, hkeep _ _ _ _ (by decide) (.inl (by decide))]
    exact (congrArg (fun u : State => u.flag _ _) (if_pos h)).trans (State.flag_setSeen_same _ _ (by decide) (by decide))
  · rw [hbump]
    exact (congrArg (fun u : State => u.flag _ _) (if_pos h)).trans (State.flag_setSeen_same _ _ (by decide) (by decide))

/-! ### A last block goes out (R132 to R134, R136) -/

/-- The path's whole spectrum: the blocks sent before, and the last. -/
def State.sentWhole (s : State) (k : Nat) (w : OutWait) : OutWait := { w with data := tblGet [] (s.slice k).sent w.path ++ w.data }

/-- The path has nothing sent. -/
def State.sentTaken (s : State) (k : Nat) (w : OutWait) : State := s.setSlice k { s.slice k with sent := tblSet [] (s.slice k).sent w.path [] }

/-- A spectrum joins the fills for staging. -/
def State.withFill (s : State) (x : Fill) : State := { s with md := { s.md with fills := s.md.fills ++ [x] } }

theorem lastOut_ring {w : OutWait} (h : w.ring = true) (s : State) (k fw : Nat) :
    s.lastOut k w fw = s.ringBlock k (s.arrayPath (pathOf k w.path)) w.st fw true w.data := if_pos h

theorem lastOut_stage {w : OutWait} (h : w.ring = false) (s : State) (k fw : Nat) :
    s.lastOut k w fw = if (s.sentWhole k w).data.length = 4096 ∧ (s.slice k).fresh w.st = true then
      (s.sentTaken k w).withFill ((s.sentTaken k w).fillOf k (s.sentWhole k w) fw) else s.sentTaken k w := if_neg (by rw [h]; decide)

theorem portKept_lastOut (s : State) (k : Nat) (w : OutWait) (fw : Nat) : PortKept k s (s.lastOut k w fw) := by
  cases hr : w.ring with
  | true =>
    rw [lastOut_ring hr]
    exact portKept_ringBlock _ _ _ _ _ _ _
  | false =>
    have h1 : PortKept k s (s.sentTaken k w) := portKept_setSlice s k rfl
    rw [lastOut_stage hr]
    split
    · exact ⟨h1.slice, h1.waits, h1.reg⟩
    · exact h1

theorem mem_lastOut (s : State) {w : OutWait} (h : w.ring = false) (k fw : Nat) : (s.lastOut k w fw).mem = s.mem := by
  rw [lastOut_stage h]
  split <;> rfl

/-- A spectrum that zeros have replaced before the last fault does not go out again (R136). -/
theorem fills_lastOut_stale {w : OutWait} (h : w.ring = false) (hf : w.st < (s.slice k).fault) (fw : Nat) : (s.lastOut k w fw).md.fills = s.md.fills := by
  rw [lastOut_stage h, if_neg fun hc => Nat.not_le_of_lt hf (of_decide_eq_true hc.2)]
  rfl

/-- A whole spectrum for staging goes there (R133). -/
theorem fills_lastOut_fresh {w : OutWait} (h : w.ring = false) (hlen : (s.sentWhole k w).data.length = 4096) (hf : (s.slice k).fault ≤ w.st) (fw : Nat) :
    (s.lastOut k w fw).md.fills = s.md.fills ++ [(s.sentTaken k w).fillOf k (s.sentWhole k w) fw] := by
  rw [lastOut_stage h, if_pos ⟨hlen, decide_eq_true hf⟩]
  rfl

/-- A path that has not rejoined delivers zeros (R136). -/
theorem fillOf_muted (w : OutWait) (fw : Nat) (h : (s.slice k).muted w.path w.st = true) :
    (s.sentTaken k w).fillOf k (s.sentWhole k w) fw = zeroFill (pathOf k w.path) w.st := by
  rw [State.fillOf, State.sentTaken, State.slice_setSlice_same, if_pos]
  · rfl
  · exact h

theorem fillOf_delivered (w : OutWait) (fw : Nat) (h : (s.slice k).muted w.path w.st = false) :
    ∃ b, (s.sentTaken k w).fillOf k (s.sentWhole k w) fw =
      { path := pathOf k w.path, st := w.st, data := if fwLoss fw then List.replicate 4096 0 else (s.sentWhole k w).data, loss := fwLoss fw, crc := fwCrc fw,
        warm := fwWarm fw, seeded := b } := by
  rw [State.fillOf, State.sentTaken, State.slice_setSlice_same, if_neg]
  · exact ⟨_, rfl⟩
  · exact ne_true_of_eq_false h

/-! ### OUT_COMPLETE (R132) -/

/-- The flags of the oldest waiting block are noted, and it has left the queue. -/
def State.outNoted (s : State) (k : Nat) (w : OutWait) (ws : List OutWait) : State :=
  (s.setSlice k { s.slice k with waits := ws }).pathSeen k w.path (s.finalFlags k w) (!w.ring && !(s.slice k).muted w.path w.st)

/-- The block has gone out, and its path delivers from it on. -/
def State.outGone (s : State) (k : Nat) (w : OutWait) (ws : List OutWait) : State :=
  let u := (s.outNoted k w ws).lastOut k w (s.finalFlags k w)
  u.setSlice k ((u.slice k).unmute w.path w.st)

theorem exec_outComplete (h : s.on = true) {w : OutWait} {ws : List OutWait} (hw : (s.slice k).waits = w :: ws) (hc : s.coreStopped = false)
    (hcov : w.newest = 0 ∨ s.covered true (pathOf k w.path) (w.newest - 1) = true) :
    exec (.outComplete k) s = .next ((s.outGone k w ws).portDrain k) := by
  have hi : exec (.outComplete k) s = execOutComplete k s := rfl
  have hin : ¬ (w.newest != 0 && !s.covered true (pathOf k w.path) (w.newest - 1)) = true := by
    rcases hcov with h0 | h1
    · simp [h0]
    · simp [h1]
  rw [hi, execOutComplete, whenOn_on h]
  dsimp only
  rw [hw]
  dsimp only
  rw [hc, if_neg Bool.false_ne_true, if_neg hin]
  rfl

section

variable {w : OutWait} {ws : List OutWait}

theorem slice_outNoted (s : State) (k : Nat) (w : OutWait) (ws : List OutWait) : (s.outNoted k w ws).slice k = { s.slice k with waits := ws } :=
  (State.slice_of_md (flagsNoted_pathSeen _ k w.path _ _).md k).trans (State.slice_setSlice_same _ _ _)

theorem slice_outNoted_ne (s : State) (w : OutWait) (ws : List OutWait) (h : q ≠ k) : (s.outNoted k w ws).slice q = s.slice q :=
  (State.slice_of_md (flagsNoted_pathSeen _ k w.path _ _).md q).trans (State.slice_setSlice_ne _ _ h)

theorem fills_outNoted (s : State) (k : Nat) (w : OutWait) (ws : List OutWait) : (s.outNoted k w ws).md.fills = s.md.fills :=
  (congrArg MdSt.fills (flagsNoted_pathSeen (s.setSlice k { s.slice k with waits := ws }) k w.path _ _).md :)

theorem mem_outNoted (s : State) (k : Nat) (w : OutWait) (ws : List OutWait) : (s.outNoted k w ws).mem = s.mem :=
  (flagsNoted_pathSeen (s.setSlice k { s.slice k with waits := ws }) k w.path _ _).mem

theorem reg_outNoted (s : State) {k a : Nat} (w : OutWait) (ws : List OutWait) (h : a ≠ MD_PATH_STAT k w.path) (hm : a ≠ MD_SL_MARKCNT k) :
    (s.outNoted k w ws).reg a = s.reg a :=
  ((flagsNoted_pathSeen _ k w.path _ _).reg a h hm).trans (State.reg_setSlice _ _ _ _)

theorem MdSlice.waits_unmute (m : MdSlice) (j st : Nat) : (m.unmute j st).waits = m.waits := by
  unfold MdSlice.unmute
  split <;> rfl

theorem portKept_outGone (s : State) (k : Nat) (w : OutWait) (ws : List OutWait) : PortKept k (s.outNoted k w ws) (s.outGone k w ws) :=
  (portKept_lastOut _ k w _).trans (portKept_setSlice _ k (MdSlice.waits_unmute _ _ _))

theorem waits_outGone (s : State) (k : Nat) (w : OutWait) (ws : List OutWait) : ((s.outGone k w ws).slice k).waits = ws := by
  rw [(portKept_outGone s k w ws).waits, slice_outNoted]

/-- Slice k's registers and queue, and the other slices, after OUT_COMPLETE. -/
theorem portKept_outComplete (s : State) (k : Nat) (w : OutWait) (ws : List OutWait) :
    (∀ q, q ≠ k → ((s.outGone k w ws).portDrain k).slice q = s.slice q) ∧
      (((s.outGone k w ws).portDrain k).slice k).waits = ws.dropWhile (fun x => !x.last) ∧
      ∀ a, mdReg a → a ≠ MD_SL_RING_SEQ k → ((s.outGone k w ws).portDrain k).reg a = (s.outNoted k w ws).reg a := by
  have hd := portKept_portDrain (s.outGone k w ws) k
  have hg := portKept_outGone s k w ws
  refine ⟨fun q hq => ?_, ?_, fun a ha hne => ?_⟩
  · rw [hd.slice q hq, State.slice_setSlice_ne _ _ hq, hg.slice q hq, slice_outNoted_ne _ _ _ hq]
  · rw [hd.waits, State.slice_setSlice_same, waits_outGone]
  · rw [hd.reg a ha hne, State.reg_setSlice, hg.reg a ha hne]

theorem fills_outComplete (s : State) (k : Nat) (w : OutWait) (ws : List OutWait) :
    ((s.outGone k w ws).portDrain k).md.fills = ((s.outNoted k w ws).lastOut k w (s.finalFlags k w)).md.fills := fills_portDrain _ _

/-- Where the block is the only one, it alone has gone. -/
theorem outComplete_alone (s : State) (k : Nat) (w : OutWait) :
    ((s.outGone k w []).portDrain k).mem = ((s.outNoted k w []).lastOut k w (s.finalFlags k w)).mem ∧
      ∀ a, ((s.outGone k w []).portDrain k).reg a = ((s.outNoted k w []).lastOut k w (s.finalFlags k w)).reg a := by
  rw [portDrain_nil (waits_outGone s k w [])]
  exact ⟨rfl, fun a => (State.reg_setSlice _ _ _ _).trans (State.reg_setSlice _ _ _ _)⟩

/-- Registers that the note of a path's flags does not reach. -/
theorem ne_noted (q k : Nat) {j : Nat} (hj : j < 8) {a : Nat}
    (ha : a = MD_SL_STAT q ∨ a = MD_SL_RING_SEQ k ∨ a = MD_SL_RING_BASE_LO k ∨ a = MD_SL_RING_BASE_LO k + 4 ∨ a = DR_CFG) :
    a ≠ MD_PATH_STAT k j ∧ a ≠ MD_SL_MARKCNT k := by
  unfold MD_SL_STAT MD_SL_RING_SEQ MD_SL_RING_BASE_LO DR_CFG at ha
  unfold MD_PATH_STAT MD_SL_MARKCNT
  omega

/-- The ring stands as it did when the flags have been noted. -/
theorem ring_outNoted (s : State) (k : Nat) (ws : List OutWait) (hj : w.path < 8) :
    (s.outNoted k w ws).reg64 (MD_SL_RING_BASE_LO k) = s.reg64 (MD_SL_RING_BASE_LO k) ∧
      (s.outNoted k w ws).reg (MD_SL_RING_SEQ k) = s.reg (MD_SL_RING_SEQ k) ∧ (∀ a n, (s.outNoted k w ws).drIn a n = s.drIn a n) ∧
      ((s.outNoted k w ws).slice k).ringPos = (s.slice k).ringPos := by
  have hreg {a : Nat} (ha : a = MD_SL_STAT k ∨ a = MD_SL_RING_SEQ k ∨ a = MD_SL_RING_BASE_LO k ∨ a = MD_SL_RING_BASE_LO k + 4 ∨ a = DR_CFG) :
      (s.outNoted k w ws).reg a = s.reg a := reg_outNoted s w ws (ne_noted k k hj ha).1 (ne_noted k k hj ha).2
  refine ⟨?_, hreg (by simp), fun a n => ?_, ?_⟩
  · rw [State.reg64, State.reg64, hreg (by simp), hreg (by simp)]
  · have hcfg := fun f => State.rf_of_reg (hreg (a := DR_CFG) (by simp)) f
    rw [State.drIn, State.drIn, State.drSize, State.drSize, State.drM, State.drM, State.drRanks, State.drRanks, hcfg, hcfg, hcfg]
  · rw [slice_outNoted]

/-- A block of the ring that goes out alone (R134). -/
theorem outComplete_ring (hj : w.path < 8) (hr : w.ring = true) :
    ((s.outGone k w []).portDrain k).md.fills = s.md.fills ∧
      ((s.outGone k w []).portDrain k).reg (MD_SL_RING_SEQ k) = w32 ((s.reg (MD_SL_RING_SEQ k)).toNat + 1) ∧
      (s.drIn (s.reg64 (MD_SL_RING_BASE_LO k)) 1 = false → ((s.outGone k w []).portDrain k).mem = s.mem) ∧
      (s.drIn (s.reg64 (MD_SL_RING_BASE_LO k)) ((s.slice k).ringPos + w.data.length + 64) = true →
        ∃ at', (at' = s.reg64 (MD_SL_RING_BASE_LO k) ∨ at' = s.reg64 (MD_SL_RING_BASE_LO k) + (s.slice k).ringPos) ∧
          (∀ i < w.data.length, ((s.outGone k w []).portDrain k).memByte (at' + 32 + i) = w.data.getD i 0) ∧
          ∀ a, a < at' ∨ at' + 32 + w.data.length + 31 ≤ a → ((s.outGone k w []).portDrain k).memByte a = s.memByte a) := by
  obtain ⟨hmem, hregs⟩ := outComplete_alone s k w
  obtain ⟨hbase, hseq, hin, hpos⟩ := ring_outNoted s k [] hj
  have hnoted : (s.outNoted k w []).mem = s.mem := mem_outNoted s k w []
  rw [fills_outComplete, hregs, hmem]
  simp only [State.memByte, hmem]
  rw [lastOut_ring hr, ringSeq_ringBlock, fills_ringBlock, fills_outNoted, hseq]
  refine ⟨rfl, rfl, fun hout => ?_, fun hfits => ?_⟩
  · rw [mem_ringBlock_out _ _ _ _ _ (by rw [hbase, hin, hout]), hnoted]
  · rw [← hbase, ← hin, ← hpos] at hfits
    have hw := mem_ringBlock_in ((s.outNoted k w []).arrayPath (pathOf k w.path)) w.st (s.finalFlags k w) true w.data hfits
    rw [hbase, hpos] at hw
    simp only [State.memByte, hnoted] at hw
    exact hw

/-- A whole spectrum for staging goes out (R133, R136). -/
theorem outComplete_stage (ws : List OutWait) (hr : w.ring = false) (hlen : (tblGet [] (s.slice k).sent w.path ++ w.data).length = 4096) :
    (w.st < (s.slice k).fault → ((s.outGone k w ws).portDrain k).md.fills = s.md.fills) ∧
      ((s.slice k).fault ≤ w.st → (s.slice k).muted w.path w.st = true →
        ((s.outGone k w ws).portDrain k).md.fills = s.md.fills ++ [zeroFill (pathOf k w.path) w.st]) ∧
      ((s.slice k).fault ≤ w.st → (s.slice k).muted w.path w.st = false →
        ∃ x, ((s.outGone k w ws).portDrain k).md.fills = s.md.fills ++ [x] ∧ x.path = 8 * k + w.path ∧ x.st = w.st ∧
          x.data = (if fwLoss (s.finalFlags k w) then List.replicate 4096 0 else tblGet [] (s.slice k).sent w.path ++ w.data) ∧
          x.loss = fwLoss (s.finalFlags k w) ∧ x.crc = bit (s.finalFlags k w) 1 ∧ x.warm = (bit (s.finalFlags k w) 3 || bit (s.finalFlags k w) 4)) := by
  have hsl := slice_outNoted s k w ws
  have hfault : ((s.outNoted k w ws).slice k).fault = (s.slice k).fault := by rw [hsl]
  have hmuted : ((s.outNoted k w ws).slice k).muted w.path w.st = (s.slice k).muted w.path w.st := by
    rw [hsl]
    rfl
  have hwhole : ((s.outNoted k w ws).sentWhole k w).data = tblGet [] (s.slice k).sent w.path ++ w.data := by rw [State.sentWhole, hsl]
  rw [fills_outComplete]
  refine ⟨fun hf => ?_, fun hf hm => ?_, fun hf hm => ?_⟩
  · rw [fills_lastOut_stale hr (by rw [hfault]; exact hf), fills_outNoted]
  · rw [fills_lastOut_fresh hr (by rw [hwhole]; exact hlen) (by rw [hfault]; exact hf), fills_outNoted, fillOf_muted w _ (hmuted.trans hm)]
  · obtain ⟨b, hb⟩ := fillOf_delivered w (s.finalFlags k w) (hmuted.trans hm)
    rw [fills_lastOut_fresh hr (by rw [hwhole]; exact hlen) (by rw [hfault]; exact hf), fills_outNoted, hb]
    exact ⟨_, rfl, rfl, rfl, by rw [hwhole], rfl, fwCrc_eq _, fwWarm_eq _⟩

end

/-- Registers of slice `k` lie within the Madder's. -/
theorem mdReg_of_slice {k j a : Nat} (hk : k < 64) (hj : j < 8) (ha : a = MD_SL_STAT k ∨ a = MD_SL_MARKCNT k ∨ a = MD_PATH_STAT k j) : mdReg a := by
  unfold MD_SL_STAT MD_SL_MARKCNT MD_PATH_STAT at ha
  unfold mdReg
  omega

/-- MD_SL_RING_SEQ lies apart from a slice's status, counts and flags. -/
theorem ne_ringSeq {k q a : Nat} (ha : a = MD_SL_STAT q ∨ a = MD_SL_MARKCNT q ∨ ∃ j, a = MD_PATH_STAT q j) : a ≠ MD_SL_RING_SEQ k := by
  unfold MD_SL_STAT MD_SL_MARKCNT MD_PATH_STAT at ha
  unfold MD_SL_RING_SEQ
  omega

/-- Settles O19: a start's facts (`slice_restarts`, `slice_swaps`), and what a block's leaving the port keeps, with the block's own effect on staging or the ring. -/
theorem slicesRestartSwapAndDeliver : Obligations.SlicesRestartSwapAndDeliver := by
  intro s k hon hk
  refine ⟨fun n hst hc hh ha hr hcs hn hl hn17 => ?_, fun b n qs hst hsw haw hn17 => ?_, fun w ws hw hj hcs hcov => ?_⟩
  · obtain ⟨t, hexec, hkept, hothers, hspec, hentry, hvec, hruns, hslot, hreg, hhead, hcount⟩ := slice_restarts hon hk hst hc hh ha hr hcs hn hl
    exact ⟨t, hexec, hruns, hspec, hentry, hreg, hvec, hhead, hcount, hslot (by omega), hothers, hkept.eq⟩
  · obtain ⟨t, hexec, ht⟩ := slice_swaps hon hk hst hsw haw
    have hswaps : (t.slice k).swap = qs.filter fun q => decide (b < q.1) := by
      rw [ht.swaps, hsw, List.filter_cons_of_neg (by simp)]
    exact ⟨t, hexec, ht.runs, ht.spectrum, ht.entry, hswaps, ht.slot (by omega), ht.others, ht.kept.eq⟩
  · obtain ⟨hslice, hwaits, hreg⟩ := portKept_outComplete s k w ws
    obtain ⟨hstat, hstale, hdcont⟩ := flag_pathSeen (s.setSlice k { s.slice k with waits := ws }) k (s.finalFlags k w)
      (!w.ring && !(s.slice k).muted w.path w.st) hj
    have hflag {f : Fld} := State.flag_of_reg (hreg _ (mdReg_of_slice hk hj (.inr (.inr rfl))) (ne_ringSeq (.inr (.inr ⟨_, rfl⟩)))) f
    refine ⟨_, exec_outComplete hon hw hcs hcov, hwaits, fun q hq hne => ⟨hslice q hne, ?_⟩, fun h => hflag.trans (hstat h), fun h => hflag.trans (hstale h),
      fun h => hflag.trans (hdcont h), fun hr hws => ?_, fun hr => ?_, fun hr hlen => (outComplete_stage ws hr hlen).1,
      fun hr hlen => (outComplete_stage ws hr hlen).2.1, fun hr hlen => (outComplete_stage ws hr hlen).2.2, fun hr hws => ?_, fun hr hws hfits => ?_⟩
    · obtain ⟨h1, h2⟩ := ne_noted q k hj (.inl rfl)
      rw [hreg _ (mdReg_of_slice hq hj (.inl rfl)) (ne_ringSeq (.inl rfl)), reg_outNoted _ _ _ h1 h2]
    · rw [mem_portDrain _ _ (by rw [waits_outGone]; exact hws)]
      exact (mem_lastOut _ hr _ _).trans (mem_outNoted s k w ws)
    · rw [hreg _ (mdReg_of_slice hk hj (.inr (.inl rfl))) (ne_ringSeq (.inr (.inl rfl))), State.outNoted, hr]
      exact (markCnt_pathSeen _ k _ hj).trans (State.reg_setSlice _ _ _ _)
    · subst hws
      exact (outComplete_ring hj hr).2.2.1
    · subst hws
      obtain ⟨hfills, hseq, -, hbytes⟩ := outComplete_ring (s := s) (k := k) hj hr
      obtain ⟨at', hat, hdata, hrest⟩ := hbytes hfits
      exact ⟨at', hat, hfills, hseq, hdata, hrest⟩

end Sys2Proof.Machine
end

-- ==== Madder commands ====
section

namespace Sys2Proof.Machine

variable {s t u : State} {k j : Nat} {c : Cmd}

/-! ### A mailbox reply leaves the slices (R395) -/

theorem md_slotReply (s : State) (k : Nat) (r : Reply) : (s.slotReply k r).md = s.md := by
  unfold State.slotReply
  dsimp only
  split
  · exact State.raise_md _ _
  · rfl

theorem md_mlSend (s : State) (m : MlMsg) : (s.mlSend m).md = s.md := by
  unfold State.mlSend State.mlPump
  dsimp only
  split
  · exact List.foldlRecOn _ _ (motive := fun u : State => u.md = s.md) rfl fun _ hu _ _ => hu
  · rfl

theorem md_deltaSend (s : State) : s.deltaSend.md = s.md := by
  unfold State.deltaSend
  split
  · exact md_mlSend _ _
  · rfl

theorem md_answer (s : State) (op : Nat) (hc : c.transport = .slot k) (query : Bool) (r : Reply) (changed : Bool) :
    (s.answer op c query r changed).md = s.md := by
  have h1 : (if query then s else s.cacheReply r (c.transport == .script)).md = s.md := by
    unfold State.cacheReply
    split
    · rfl
    · split <;> rfl
  unfold State.answer
  generalize (if query then s else s.cacheReply r (c.transport == .script)) = s1 at h1
  rw [hc]
  dsimp only [State.sendNow]
  rw [← h1]
  split
  · split
    · exact md_deltaSend s1
    · exact (md_slotReply _ _ _).trans (md_deltaSend s1)
  · exact md_slotReply _ _ _

/-! ### A delay change that a start applies (R130) -/

/-- The register that a start writes for the only delay change it finds due. -/
theorem reg_startSlice_delay {k n st b j d : Nat} (hd : (s.slice k).delays = [(b, j, d)]) (hb : b ≤ st) (hlow : MD_PATH_DELAY k j < 0x240000) :
    (s.startSlice k n st).reg (MD_PATH_DELAY k j) = fput (s.reg (MD_PATH_DELAY k j)) MD_PATH_DELAY_DELAY d := by
  obtain ⟨hstat, hctl, hlo, hhi⟩ := ne_pathDelay k k
  obtain ⟨y, hy⟩ := slice_scaleHand_same s k n
  obtain ⟨u, hu⟩ : ∃ u, s.scaleHand k n = u := ⟨_, rfl⟩
  have hreg : u.reg (MD_PATH_DELAY k j) = s.reg (MD_PATH_DELAY k j) := by rw [← hu, reg_scaleHand s k n hlow]
  rw [(chKept_startSlice s k n st).reg _ hlow, State.loadStart, hu]
  obtain ⟨v, hv⟩ : ∃ v, (((u.setSlice k (u.loadedSlice k n st)).setF (MD_SL_CTL k) MD_SL_CTL_SLOT n).setF (MD_SL_STAT k) MD_SL_STAT_STATE mdRunning).setReg64
    (MD_SL_ST_LO k) st = v := ⟨_, rfl⟩
  have hvslice : v.slice k = u.loadedSlice k n st := by
    rw [← hv]
    exact State.slice_setSlice_same u k _
  have hvreg : v.reg (MD_PATH_DELAY k j) = s.reg (MD_PATH_DELAY k j) := by
    rw [← hv, State.reg_setReg64_ne _ _ (hlo j).symm (hhi j).symm, State.reg_setF_ne _ _ _ (hstat j).symm, State.reg_setF_ne _ _ _ (hctl j).symm, State.reg_setSlice,
      hreg]
  have hdelays : (v.slice k).delays = [(b, j, d)] ∧ (v.slice k).st = st := by
    rw [hvslice, State.loadedSlice, ← hu, hy]
    exact ⟨hd, rfl⟩
  obtain ⟨xj, due, happly, hdue⟩ := applyDelays_eq v k
  have hone : due = [(b, j, d)] := by
    rw [hdue, hdelays.1, hdelays.2]
    exact List.filter_cons_of_pos (decide_eq_true hb)
  rw [hv, happly, hone]
  exact (State.reg_setReg_same _ _ _).trans (congrArg (fput · MD_PATH_DELAY_DELAY d) hvreg)

theorem reg_restartSlice_delay {k n b j d : Nat} (hn : s.programAt k (spectrumAt s.md.w) = n) (hl : s.loadable n = true) (hd : (s.slice k).delays = [(b, j, d)])
    (hb : b ≤ spectrumAt s.md.w) (hlow : MD_PATH_DELAY k j < 0x240000) :
    (s.restartSlice k).reg (MD_PATH_DELAY k j) = fput (s.reg (MD_PATH_DELAY k j)) MD_PATH_DELAY_DELAY d := by
  unfold State.restartSlice
  extract_lets st n' a
  rw [if_pos (by rw [show n' = n from hn]; exact hl)]
  refine (reg_startSlice_delay (s := (s.setSlice k { s.slice k with back := [] }).zeroSpectra k a ((st - a) / 8192)) ?_ hb hlow).trans rfl
  exact (congrArg MdSlice.delays (State.slice_setSlice_same s k _)).trans hd

/-- A slice whose program is not there to be loaded does not restart. -/
theorem restartSlice_unsound (h : s.loadable (s.programAt k (spectrumAt s.md.w)) = false) : s.restartSlice k = s := by
  rw [State.restartSlice, h]
  rfl

/-- MD_SLICE_RESTART of slices that are HALTED or DEAD, their programs there to be loaded, restarts them in order (R145). -/
theorem answers_mdSliceRestart {ks : List Nat} (ht : Taken 0x0304 c s) (hf : Fits 0 c s) (hlen : c.payload.length = 2) (hq : s.dequeue 0x0304 c = s)
    (hks : (List.range 64).filter (bit (c.q 0)) = ks)
    (hstopped : (!s.coreStopped && ks.all fun k => s.sliceState k == mdHalted || s.sliceState k == mdDead) = true)
    (hload : ks.findSome? (fun k => s.loadBad (s.programAt k (spectrumAt s.md.w))) = none) :
    Answers (.mdSliceRestart c) 0x0304 c s [] (ks.foldl State.restartSlice s) := by
  have hi : exec (.mdSliceRestart c) s = execMdSliceRestart c s := rfl
  refine answers_of_body hi ht (needLen_of_eq hlen) ?_ hf
  rw [hq]
  dsimp only
  rw [hks, if_pos hstopped, hload]

/-! ### MD_SLICE_RESTART of two slices, one with a delay change beyond its paths (R130, R145) -/

/-- MD_SLICE_RESTART of slices 0 and 1, through request slot 0. -/
def restartPair : Cmd :=
  { source := 1, seq := 1, ack := false, scheduled := false, relayed := false, transport := .slot 0, crc := 0, payload := [0, 3] }

/-- Slices 0 and 1 HALTED with the standard program assigned, W at 1, and a delay of 3 samples due on slice 0 for path number 48, whose
MD_PATH_DELAY would stand where MD_SL_CTL of slice 1 does. -/
def haltedPair : State :=
  { State.reset with
    regs := [(MD_SL_CTL 0, 16#32), (MD_SL_STAT 0, 0x60000000#32), (MD_SL_CTL 1, 16#32), (MD_SL_STAT 1, 0x60000000#32)]
    pw := { State.reset.pw with power := .on }
    time := { State.reset.time with rateN := 200 }
    cp := { State.reset.cp with serving := true }
    md := { State.reset.md with w := 1, sl := [(0, { sliceReset with delays := [(0, 48, 3)] })] } }

theorem haltedPair_taken : Taken 0x0304 restartPair haltedPair where
  takes := by decide
  permits := by decide
  flag2 := by decide
  role := by decide

theorem haltedPair_programs : ∀ k < 64, bit (restartPair.q 0) k = true →
    (haltedPair.sliceState k = mdHalted ∨ haltedPair.sliceState k = mdDead) ∧ haltedPair.programAt k (spectrumAt haltedPair.md.w) = stdProgram := by decide

theorem haltedPair_loadable : haltedPair.loadable stdProgram = true := by decide

/-- Restarting slice 0 rewrites the program of slice 1, whose store slot is empty. -/
theorem haltedPair_restarts : [0, 1].foldl State.restartSlice haltedPair = haltedPair.restartSlice 0 := by
  have hprog : haltedPair.programAt 0 (spectrumAt haltedPair.md.w) = stdProgram := (haltedPair_programs 0 (by decide) (by decide)).2
  have hs := started_restartSlice (k := 0) (by decide) hprog haltedPair_loadable
  have hctl := reg_restartSlice_delay (j := 48) hprog haltedPair_loadable rfl (Nat.zero_le _) (by decide)
  obtain ⟨u, hu⟩ : ∃ u, haltedPair.restartSlice 0 = u := ⟨_, rfl⟩
  rw [hu] at hs hctl
  rw [List.foldl_cons, List.foldl_cons, List.foldl_nil, hu]
  have hslice : u.slice 1 = sliceReset := (hs.others 1 (by decide) (by decide)).1
  have hthree : u.programAt 1 (spectrumAt u.md.w) = 3 := by
    rw [State.programAt, hslice]
    exact (congrArg (fget · MD_SL_CTL_SLOT) hctl).trans (by decide)
  refine restartSlice_unsound ?_
  rw [hthree, State.loadable, State.sound, hs.kept.prog]
  rfl

theorem haltedPair_fits : Fits 0 restartPair haltedPair := by
  unfold Fits
  decide

/-- Both programs may be loaded, so the command restarts slice 0 and then slice 1. -/
theorem haltedPair_answers : Answers (.mdSliceRestart restartPair) 0x0304 restartPair haltedPair [] ([0, 1].foldl State.restartSlice haltedPair) :=
  answers_mdSliceRestart haltedPair_taken haltedPair_fits rfl rfl (by decide) (by decide) (by decide)

/-- Refutes O21: of two slices that MD_SLICE_RESTART restarts, the second stays HALTED where a delay change of the first names a path beyond its eight. -/
theorem not_madderAndChannelCommandsTakeEffect : ¬ Obligations.MadderAndChannelCommandsTakeEffect := by
  unfold Obligations.MadderAndChannelCommandsTakeEffect
  intro h
  obtain ⟨-, -, hrestart, -⟩ := h haltedPair restartPair
  obtain ⟨hall, -⟩ := hrestart haltedPair_taken haltedPair_fits rfl (by decide) fun k hk hb => (haltedPair_programs k hk hb).1
  obtain ⟨e, he, -, hruns⟩ := hall fun k hk hb => by
    rw [(haltedPair_programs k hk hb).2]
    rfl
  have hst := (hruns 1 (by decide) (by decide) (by rw [(haltedPair_programs 1 (by decide) (by decide)).2]; exact haltedPair_loadable)).2
  have hmd : e.md = (haltedPair.restartSlice 0).md := by
    have hnext := Host.Outcome.next.inj (he.symm.trans haltedPair_answers)
    rw [haltedPair_restarts] at hnext
    exact (md_answer e _ rfl _ _ _).symm.trans ((congrArg State.md hnext).trans (md_answer _ _ rfl _ _ _))
  have hprog : haltedPair.programAt 0 (spectrumAt haltedPair.md.w) = stdProgram := (haltedPair_programs 0 (by decide) (by decide)).2
  have hstays := ((started_restartSlice (by decide) hprog haltedPair_loadable).others 1 (by decide) (by decide)).1
  rw [State.slice_of_md hmd, hstays] at hst
  exact absurd hst (by decide)

end Sys2Proof.Machine
end

-- ==== The channeliser: scale epochs and calibration copies ====
section

namespace Sys2Proof.Machine

variable {s t : State} {k : Nat}

/-! ### One path crosses an epoch boundary (R162 to R164, R166) -/

/-- A path's scale state `x` before boundary `b`, its state `y` from there on, and the record that closes its epoch. -/
structure Crosses (b p : Nat) (x y : ScaleSt) (r : ScaleRec) : Prop where
  n : y.n = 0
  sums : y.sums = []
  clips : y.clips = []
  opened : y.opened = false
  seeded : y.seeded = (x.seedNext || x.n == 0 || (x.seeded && !x.found))
  seedNext : y.seedNext = false
  path : r.path = p
  st : r.st = b - 8192
  closing : r.closing = true
  bytes : r.bytes = y.closing

/-- A crossing sends one record and replaces the scale state of its path. -/
theorem ch_epochPath (s : State) (k b j : Nat) : ∃ y r, Crosses b (pathOf k j) (s.scale (pathOf k j)) y r ∧
    (s.epochPath k b j).ch = { s.ch with recs := s.ch.recs ++ [r], paths := tblSet scaleReset s.ch.paths (pathOf k j) y } := by
  unfold State.epochPath
  extract_lets p x noData first rec0 s1 seeded y s2 s3
  have hch : (if seeded then s3.bump (MD_CH_SL_SEEDS k) else s3).ch = s2.ch := by
    split
    · exact (s3.bump_ch _).trans (s2.setFB_ch _ _ _ _)
    · exact s2.setFB_ch _ _ _ _
  rw [hch]
  refine ⟨_, _, ?_, rfl⟩
  exact ⟨rfl, rfl, rfl, rfl, (Bool.or_assoc _ _ _).symm, rfl, rfl, rfl, rfl, rfl⟩

theorem scale_epochPath_ne (s : State) {k b j p : Nat} (hp : p ≠ pathOf k j) : (s.epochPath k b j).scale p = s.scale p := by
  obtain ⟨y, r, -, hch⟩ := ch_epochPath s k b j
  rw [State.scale, hch]
  exact tblGet_set_ne _ _ _ hp

/-- Path `p`, which stood as `x`, has crossed boundary `b`, and its closing record is on its way. -/
def Crossed (b p : Nat) (x : ScaleSt) (t : State) : Prop := ∃ r ∈ t.ch.recs, Crosses b p x (t.scale p) r

theorem crossed_epochPath (s : State) (k b j : Nat) : Crossed b (pathOf k j) (s.scale (pathOf k j)) (s.epochPath k b j) := by
  obtain ⟨y, r, hcross, hch⟩ := ch_epochPath s k b j
  refine ⟨r, by simp [hch], ?_⟩
  have hscale : (s.epochPath k b j).scale (pathOf k j) = y := by rw [State.scale, hch, tblGet_set_same]
  rwa [hscale]

/-- Another path's crossing leaves a path that has crossed. -/
theorem Crossed.epochPath {b p j : Nat} {x : ScaleSt} (h : Crossed b p x t) (hp : p ≠ pathOf k j) : Crossed b p x (t.epochPath k b j) := by
  obtain ⟨r, hr, hcross⟩ := h
  obtain ⟨y, r', -, hch⟩ := ch_epochPath t k b j
  exact ⟨r, by simp [hch, hr], by rwa [scale_epochPath_ne t hp]⟩

/-! ### A slice crosses the boundary (R162, R163) -/

theorem pathOf_ne {i j : Nat} (h : i ≠ j) : pathOf k i ≠ pathOf k j := fun e => h (Nat.add_left_cancel e)

/-- The eight paths of a slice have crossed. -/
def State.pathsCross (s : State) (k b : Nat) : State := (List.range 8).foldl (fun s j => s.epochPath k b j) s

theorem crossed_pathsCross (s : State) (k b : Nat) {j : Nat} (hj : j < 8) : Crossed b (pathOf k j) (s.scale (pathOf k j)) (s.pathsCross k b) := by
  refine foldl_local (Q := fun i u => u.scale (pathOf k i) = s.scale (pathOf k i)) (P := fun i u => Crossed b (pathOf k i) (s.scale (pathOf k i)) u)
    List.nodup_range (fun _ _ => rfl) (fun u i _ hu => ?_) (fun u i _ q hq hu => ?_) (fun u i _ q hq hu => ?_) (List.mem_range.2 hj)
  · rw [← hu]
    exact crossed_epochPath u k b i
  · rw [scale_epochPath_ne u (pathOf_ne hq), hu]
  · exact hu.epochPath (pathOf_ne hq)

theorem scale_pathsCross_ne (s : State) (b : Nat) {p : Nat} (hp : p / 8 ≠ k) : (s.pathsCross k b).scale p = s.scale p := by
  refine List.foldlRecOn _ _ (motive := fun u : State => u.scale p = s.scale p) rfl fun u hu j hj => (scale_epochPath_ne u ?_).trans hu
  have hj8 := List.mem_range.1 hj
  unfold pathOf
  omega

/-- A path that has crossed stays so where neither the records nor the scale states change. -/
theorem Crossed.congr {b p : Nat} {x : ScaleSt} {u : State} (h : Crossed b p x t) (hrecs : u.ch.recs = t.ch.recs) (hpaths : u.ch.paths = t.ch.paths) :
    Crossed b p x u := by
  unfold Crossed State.scale at *
  rwa [hrecs, hpaths]

/-- A slice that runs the standard program in an epoch crosses the boundary with its eight paths, and its next epoch starts there. -/
theorem epochCross_eq {b : Nat} (hstd : s.rf (MD_SL_CTL k) MD_SL_CTL_SLOT = stdProgram) (hst : s.sliceState k ∈ [mdRunning, mdSwapping])
    (he : tblGet 0 s.ch.epoch k ≠ 0) : ∃ u : State, s.epochCross k b = u.setReg64 MD_CH_EPOCH_LO b ∧
      u.ch = { (s.pathsCross k b).ch with epoch := tblSet 0 (s.pathsCross k b).ch.epoch k (b + 1) } := by
  have hrun : s.runsStd k = true := beq_iff_eq.2 hstd
  have hstate : (s.sliceState k == mdRunning || s.sliceState k == mdSwapping) = true := by simpa using hst
  have hepoch : (tblGet 0 s.ch.epoch k != 0) = true := bne_iff_ne.2 he
  refine ⟨{ s.pathsCross k b with ch := { (s.pathsCross k b).ch with epoch := tblSet 0 (s.pathsCross k b).ch.epoch k (b + 1) } }, ?_, rfl⟩
  rw [State.epochCross, hrun, hstate, hepoch, Bool.and_true, Bool.and_true, if_pos rfl, State.pathsCross]

/-- The state after an operation of the channeliser, as a change of those parts. -/
theorem ChKept.eq (h : ChKept s t) : t = { s with ch := t.ch, regs := t.regs, fresh := t.fresh } := by
  have hr := h.rest
  rw [← hr]

theorem exec_scaleEpochBoundary {b : Nat} (hon : s.on = true) (hdue : s.epochDue k (s.slice k).st = some b) (haw : s.awaits b = false) :
    exec (.scaleEpochBoundary k) s = .next (s.epochCross k b) := by
  have hi : exec (.scaleEpochBoundary k) s = execScaleEpochBoundary k s := rfl
  rw [hi, execScaleEpochBoundary, whenOn_on hon, hdue]
  dsimp only
  rw [haw]
  rfl

/-! ### Runs of a table -/

theorem tblRun_length {α : Type} (d : α) (t : Tbl α) (a n : Nat) : (tblRun d t a n).length = n := by
  induction n generalizing a with
  | zero => rfl
  | succ n ih => rw [tblRun, List.length_cons, ih]

theorem tblRun_getD {α : Type} (d : α) (t : Tbl α) {n i : Nat} (a : Nat) (hi : i < n) : (tblRun d t a n).getD i d = tblGet d t (a + i) := by
  induction n generalizing a i with
  | zero => exact absurd hi (Nat.not_lt_zero i)
  | succ n ih =>
    cases i with
    | zero => rfl
    | succ i => rw [tblRun, List.getD_cons_succ, ih _ (Nat.lt_of_succ_lt_succ hi), Nat.add_assoc, Nat.add_comm 1 i]

/-! ### A calibration bank copied into the other (R155, R156) -/

/-- An entry's place in its bank. -/
theorem calAddr_eq (bank : Bool) (j c : Nat) : calAddr bank j c = calAddr bank 0 0 + 2 * (4096 * j + c) := by
  unfold calAddr
  omega

/-- The two banks, of 65,536 halfwords each, lie apart. -/
theorem calAddr_apart (bank : Bool) {i : Nat} (hi : i < 65536) :
    calAddr bank 0 0 + i < calAddr (!bank) 0 0 ∨ calAddr (!bank) 0 0 + 65536 ≤ calAddr bank 0 0 + i := by
  unfold calAddr
  cases bank
  · exact .inl (by simp only [Bool.not_false, if_true, Bool.false_eq_true, if_false]; omega)
  · exact .inr (by simp only [Bool.not_true, if_true, Bool.false_eq_true, if_false]; omega)

theorem calCopy_loading (m : MdSlice) (bank : Bool) {i : Nat} (hi : i < 65536) :
    tblGet 0 (calCopy m bank).y (calAddr (!bank) 0 0 + i) = tblGet 0 m.y (calAddr bank 0 0 + i) := by
  rw [calCopy, tblGet_setRun_in _ _ _ _ _ (by rwa [tblRun_length]), tblRun_getD _ _ _ hi]

theorem calCopy_active (m : MdSlice) (bank : Bool) {i : Nat} (hi : i < 65536) :
    tblGet 0 (calCopy m bank).y (calAddr bank 0 0 + i) = tblGet 0 m.y (calAddr bank 0 0 + i) := by
  rw [calCopy, tblGet_setRun_out _ _ _ _ _ (by rw [tblRun_length]; exact calAddr_apart bank hi)]

theorem calCopy_x (m : MdSlice) (bank : Bool) : (calCopy m bank).x = m.x := by
  rw [calCopy]

theorem exec_calBankCopyDone (hon : s.on = true) (hc : s.flag (MD_CH_SL_STAT k) MD_CH_SL_STAT_COPYING = true) :
    exec (.calBankCopyDone k) s = .next ((s.setSlice k (calCopy (s.slice k) (s.calBank k))).setF (MD_CH_SL_STAT k) MD_CH_SL_STAT_COPYING 0) := by
  have hi : exec (.calBankCopyDone k) s = execCalBankCopyDone k s := rfl
  rw [hi, execCalBankCopyDone, whenOn_on hon, if_pos hc]

/-! ### A final reply leaves the slices and the channeliser (R402, R407) -/

/-- The slices, the channeliser and the table of running operations. -/
def State.worked (s : State) : MdSt × ChSt × List QEntry := (s.md, s.ch, s.cp.running)

theorem worked_setF (s : State) (a : Nat) (f : Fld) (v : Nat) : (s.setF a f v).worked = s.worked := rfl

theorem worked_bufWrite (s : State) (a : Nat) (bs : List Byte) : (s.bufWrite a bs).worked = s.worked := rfl

theorem worked_raise (s : State) (i : Nat) : (s.raise i).worked = s.worked := by
  rw [State.worked, State.raise_md, State.raise_ch, State.raise_cp]
  rfl

theorem worked_ite {c : Prop} [Decidable c] {u : State} (ht : t.worked = s.worked) (hu : u.worked = s.worked) : (if c then t else u).worked = s.worked := by
  split
  · exact ht
  · exact hu

theorem worked_txBegin (s : State) (n c : Nat) (f : TxFrame) (cut : Option TxFrame) : (s.txBegin n c f cut).worked = s.worked := by
  unfold State.txBegin State.stampTx
  split <;> rfl

theorem worked_txStart (s : State) (n : Nat) : (s.txStart n).worked = s.worked := by
  unfold State.txStart
  dsimp only
  refine worked_ite rfl ?_
  split
  · exact worked_ite (worked_txBegin _ _ _ _ _) rfl
  · rfl
  · exact worked_txBegin _ _ _ _ _
  · rfl
  · split
    · rfl
    · exact worked_txBegin _ _ _ _ _

theorem worked_txQueue (s : State) (n : Nat) (f : TxFrame) : (s.txQueue n f).worked = s.worked :=
  worked_ite (worked_ite rfl rfl) (worked_ite (worked_txStart _ n) (worked_txStart _ n))

theorem worked_mlSend (s : State) (m : MlMsg) : (s.mlSend m).worked = s.worked :=
  worked_ite (List.foldlRecOn _ _ (motive := fun u : State => u.worked = s.worked) rfl fun _ hu _ _ => hu) rfl

theorem worked_deltaSend (s : State) : s.deltaSend.worked = s.worked := worked_ite (worked_mlSend _ _) rfl

theorem worked_cacheReply (s : State) (r : Reply) (script : Bool) : (s.cacheReply r script).worked = s.worked := worked_ite rfl rfl

theorem worked_hostNotice (s : State) (r : Reply) : (s.hostNotice r).worked = s.worked :=
  worked_ite (worked_setF _ _ _ _) ((worked_raise _ _).trans ((worked_setF _ _ _ _).trans (worked_bufWrite _ _ _)))

theorem worked_mgmtNotice (s : State) (r : Reply) : (s.mgmtNotice r).worked = s.worked :=
  worked_ite (worked_setF _ _ _ _) ((worked_setF _ _ _ _).trans (worked_bufWrite _ _ _))

theorem worked_sendLater (s : State) (x : Transport) (r : Reply) : (s.sendLater x r).worked = s.worked := by
  cases x with
  | slot k => exact worked_ite (worked_hostNotice s r) (worked_mgmtNotice s r)
  | udp n mac ip port => exact worked_ite (worked_txQueue s.draw _ _) rfl
  | miltia => exact worked_ite (worked_mlSend _ _) rfl
  | script => rfl
  | muted => rfl

/-- The final reply of a running operation takes it off the table. -/
theorem worked_final {q : QEntry} (hq : q ∈ s.cp.running) (status : Nat) (words : List Word) :
    (s.final q status words).worked = (s.md, s.ch, s.cp.running.erase q) := by
  unfold State.final
  rw [if_neg (by simp [hq])]
  extract_lets r _ s1 s2
  have h2 : s2.worked = (s.md, s.ch, s.cp.running.erase q) := by
    rw [worked_cacheReply, State.worked, State.queueSync_md, State.queueSync_ch, State.queueSync_cp]
  rw [← h2]
  exact worked_ite (worked_deltaSend s2) ((worked_sendLater _ _ _).trans (worked_ite (worked_deltaSend s2) rfl))

theorem runningOp_mem {op : Nat} {q : QEntry} (h : s.runningOp op = some q) : q ∈ s.cp.running := List.mem_of_find?_eq_some h

/-! ### A stored set in the loading banks (R157, R170) -/

theorem getD_flatMap_pair (f g : Nat → Nat) {l : List Nat} {i : Nat} (hi : i < l.length) :
    (l.flatMap fun e => [f e, g e]).getD (2 * i) 0 = f (l.getD i 0) := by
  induction l generalizing i with
  | nil => exact absurd hi (Nat.not_lt_zero i)
  | cons e l ih =>
    cases i with
    | zero => rfl
    | succ i => exact ih (Nat.lt_of_succ_lt_succ hi)

theorem length_flatMap_pair (f g : Nat → Nat) (l : List Nat) : (l.flatMap fun e => [f e, g e]).length = 2 * l.length := by
  simp [List.length_flatMap, Nat.mul_comm]

theorem calSet_length (s : State) (set k : Nat) : (s.calSet set k).length = 65536 := by
  rw [State.calSet, length_flatMap_pair, tblRun_length]

/-- The real halfword of an entry of a stored set. -/
theorem calSet_real (s : State) (set k : Nat) {i : Nat} (hi : i < 32768) :
    (s.calSet set k).getD (2 * i) 0 = tblGet 0 s.ch.cal (set * 2 ^ 21 + k * 32768 + i) % 65536 := by
  rw [State.calSet, getD_flatMap_pair _ _ (by rwa [tblRun_length]), tblRun_getD _ _ _ hi]

/-- Each slice of a list takes its entries of a stored set into its loading bank. -/
def State.calFetched (s : State) (set : Nat) (ks : List Nat) : State := ks.foldl (fun s k => s.calLoadSet set k (!s.calBank k)) s

/-- Nothing but the slices changes. -/
theorem calFetched_eq (s : State) (set : Nat) (ks : List Nat) : s.calFetched set ks = { s with md := (s.calFetched set ks).md } :=
  List.foldlRecOn ks _ (motive := fun u : State => u = { s with md := u.md }) rfl fun u hu _ _ => by
    rw [State.calLoadSet, State.setSlice, hu]

theorem slice_calLoadSet_ne (s : State) (set : Nat) {q k : Nat} (bank : Bool) (h : q ≠ k) : (s.calLoadSet set k bank).slice q = s.slice q :=
  s.slice_setSlice_ne _ h

theorem slice_calFetched_notMem (s : State) (set : Nat) {ks : List Nat} (hk : k ∉ ks) : (s.calFetched set ks).slice k = s.slice k :=
  List.foldlRecOn ks _ (motive := fun u : State => u.slice k = s.slice k) rfl fun u hu _ hq =>
    (slice_calLoadSet_ne u set _ (ne_of_mem_of_not_mem hq hk).symm).trans hu

/-- What a slice's Y memory takes depends on the slice, the stored sets and the active bank alone. -/
theorem slice_calLoadSet_congr {u : State} {set q : Nat} (hch : u.ch = s.ch) (hregs : u.regs = s.regs) (hslice : u.slice q = s.slice q) :
    (u.calLoadSet set q (!u.calBank q)).slice q = (s.calLoadSet set q (!s.calBank q)).slice q := by
  have hbank : u.calBank q = s.calBank q := State.flag_of_reg (congrArg (tblGet 0 · (MD_CH_SL_STAT q)) hregs) MD_CH_SL_STAT_BANK
  rw [State.calLoadSet, State.calLoadSet, State.slice_setSlice_same, State.slice_setSlice_same, hslice, hbank, State.calSet, State.calSet, hch]

theorem slice_calFetched_mem (s : State) (set : Nat) {ks : List Nat} (hks : ks.Nodup) (hk : k ∈ ks) :
    (s.calFetched set ks).slice k = (s.calLoadSet set k (!s.calBank k)).slice k := by
  refine foldl_local (Q := fun q u => u.ch = s.ch ∧ u.regs = s.regs ∧ u.slice q = s.slice q)
    (P := fun q u => u.slice q = (s.calLoadSet set q (!s.calBank q)).slice q) hks (fun _ _ => ⟨rfl, rfl, rfl⟩) (fun u q _ hu => ?_)
    (fun u q _ i hi hu => ?_) (fun u q _ i hi hu => (slice_calLoadSet_ne u set _ hi).trans hu) hk
  · obtain ⟨hch, hregs, hslice⟩ := hu
    exact slice_calLoadSet_congr hch hregs hslice
  · obtain ⟨hch, hregs, hslice⟩ := hu
    exact ⟨hch, hregs, (slice_calLoadSet_ne u set _ hi).trans hslice⟩

/-- The real halfwords of a fetched set in a slice's loading bank. -/
theorem y_calFetched (s : State) (set : Nat) {ks : List Nat} (hks : ks.Nodup) (hk : k ∈ ks) {i : Nat} (hi : i < 32768) :
    tblGet 0 ((s.calFetched set ks).slice k).y (calAddr (!s.calBank k) 0 0 + 2 * i) = tblGet 0 s.ch.cal (set * 2 ^ 21 + k * 32768 + i) % 65536 := by
  rw [slice_calFetched_mem s set hks hk, State.calLoadSet, State.slice_setSlice_same, tblGet_setRun_in _ _ _ _ _ (by rw [calSet_length]; omega),
    calSet_real s set k hi]

/-- The slices of a mask. -/
def maskSlices (mask : Nat) : List Nat := (List.range 64).filter (bit mask)

theorem mem_maskSlices {mask n : Nat} (hn : n < 64) : n ∈ maskSlices mask ↔ bit mask n = true := by
  simp [maskSlices, hn]

theorem exec_chCalFetchDone {set mask : Nat} {fs : List (Nat × Nat)} {q : QEntry} (hon : s.on = true) (hf : s.ch.fetch = (set, mask) :: fs)
    (hq : s.runningOp 0x0313 = some q) : exec .chCalFetchDone s =
      .next ({ s.calFetched set (maskSlices mask) with ch := { (s.calFetched set (maskSlices mask)).ch with fetch := fs } }.final q stOk []) := by
  have hi : exec .chCalFetchDone s = execChCalFetchDone s := rfl
  rw [hi, execChCalFetchDone, whenOn_on hon, hf, hq]
  rfl

/-! ### The active banks as a stored set (R157, R170) -/

/-- Blocks of a table written one after another, each at its own place: what stands in one of them. -/
theorem tblGet_foldSetRun (f : Nat → List Nat) (hf : ∀ q, (f q).length = 32768) (base : Nat) {l : List Nat} (t : Tbl Nat) (hk : k ∈ l) {i : Nat}
    (hi : i < 32768) : tblGet 0 (l.foldl (fun t q => tblSetRun 0 t (base + q * 32768) (f q)) t) (base + k * 32768 + i) = (f k).getD i 0 := by
  induction l generalizing t with
  | nil => cases hk
  | cons q l ih =>
    rw [List.foldl_cons]
    by_cases hl : k ∈ l
    · exact ih _ hl
    · obtain rfl : k = q := (List.mem_cons.1 hk).resolve_right hl
      refine List.foldlRecOn l _ (motive := fun t => tblGet 0 t (base + k * 32768 + i) = (f k).getD i 0)
        (tblGet_setRun_in _ _ _ _ _ (by rwa [hf])) fun t ht p hp => ?_
      have hpk : p ≠ k := ne_of_mem_of_not_mem hp hl
      rw [tblGet_setRun_out _ _ _ _ _ (by rw [hf]; omega), ht]

theorem calActive_length (s : State) (k : Nat) : (s.calActive k).length = 32768 := by
  rw [State.calActive, List.length_map, List.length_range]

theorem calActive_getD (s : State) (k : Nat) {i : Nat} (hi : i < 32768) : (s.calActive k).getD i 0 =
    tblGet 0 (s.slice k).y (calAddr (s.calBank k) 0 0 + 2 * i) + 65536 * tblGet 0 (s.slice k).y (calAddr (s.calBank k) 0 0 + 2 * i + 1) := by
  rw [State.calActive, List.getD_eq_getElem?_getD, List.getElem?_map, List.getElem?_range hi]
  rfl

/-- Every slice's active bank stands as a set's entries in the stored sets. -/
def State.calStored (s : State) (set : Nat) : Tbl Nat :=
  (List.range 64).foldl (fun t k => tblSetRun 0 t (set * 2 ^ 21 + k * 32768) (s.calActive k)) s.ch.cal

theorem calStored_get (s : State) (set : Nat) (hk : k < 64) {i : Nat} (hi : i < 32768) : tblGet 0 (s.calStored set) (set * 2 ^ 21 + k * 32768 + i) =
    tblGet 0 (s.slice k).y (calAddr (s.calBank k) 0 0 + 2 * i) + 65536 * tblGet 0 (s.slice k).y (calAddr (s.calBank k) 0 0 + 2 * i + 1) := by
  rw [State.calStored, tblGet_foldSetRun _ (calActive_length s) _ _ (List.mem_range.2 hk) hi, calActive_getD s k hi]

theorem exec_chCalStoreDone {set : Nat} {q : QEntry} (hon : s.on = true) (hs : s.ch.store = some set) (hq : s.runningOp 0x0314 = some q) :
    exec .chCalStoreDone s = .next ({ s with ch := { s.ch with cal := s.calStored set, store := none } }.final q stOk []) := by
  have hi : exec .chCalStoreDone s = execChCalStoreDone s := rfl
  rw [hi, execChCalStoreDone, whenOn_on hon, hs, hq]
  rfl

/-! ### What each of them leaves -/

theorem scaleEpochBoundary_crosses {b : Nat} (hon : s.on = true) (hstd : s.rf (MD_SL_CTL k) MD_SL_CTL_SLOT = stdProgram)
    (hst : s.sliceState k ∈ [mdRunning, mdSwapping]) (he : tblGet 0 s.ch.epoch k ≠ 0) (hdue : s.epochDue k (s.slice k).st = some b)
    (haw : s.awaits b = false) : ∃ t, exec (.scaleEpochBoundary k) s = .next t ∧ tblGet 0 t.ch.epoch k = b + 1 ∧ t.reg64 MD_CH_EPOCH_LO = b % 2 ^ 64 ∧
      t = { s with ch := t.ch, regs := t.regs, fresh := t.fresh } ∧ (∀ j < 8, Crossed b (pathOf k j) (s.scale (pathOf k j)) t) ∧
      ∀ p, p / 8 ≠ k → t.scale p = s.scale p := by
  obtain ⟨u, hcross, hch⟩ := epochCross_eq (b := b) hstd hst he
  have hkept := (ChKept.refl s).epochCross k b
  have hexec := exec_scaleEpochBoundary hon hdue haw
  rw [hcross] at hkept hexec
  refine ⟨_, hexec, ?_, State.reg64_setReg64 _ _ _, hkept.eq, fun j hj => (crossed_pathsCross s k b hj).congr ?_ ?_, fun p hp => ?_⟩
  · rw [State.setReg64_ch, hch, tblGet_set_same]
  · rw [State.setReg64_ch, hch]
  · rw [State.setReg64_ch, hch]
  · rw [← scale_pathsCross_ne s b hp, State.scale, State.setReg64_ch, hch, State.scale]

theorem calBankCopyDone_copies (hon : s.on = true) (hc : s.flag (MD_CH_SL_STAT k) MD_CH_SL_STAT_COPYING = true) :
    ∃ t, exec (.calBankCopyDone k) s = .next t ∧ t.flag (MD_CH_SL_STAT k) MD_CH_SL_STAT_COPYING = false ∧ t.calBank k = s.calBank k ∧
      t.slice k = calCopy (s.slice k) (s.calBank k) ∧ t = { s with md := t.md, regs := t.regs } ∧ ∀ q, q ≠ k → t.slice q = s.slice q := by
  obtain ⟨m, hm⟩ : ∃ m, calCopy (s.slice k) (s.calBank k) = m := ⟨_, rfl⟩
  have hexec := exec_calBankCopyDone hon hc
  rw [hm] at hexec ⊢
  refine ⟨_, hexec, State.flag_setF_same _ _ _ 0 (by decide), ?_, ?_, ?_, fun q hq => ?_⟩
  · exact (State.flag_of_rf (State.rf_setF_apart _ _ _ _ _ (by decide) (.inl (by decide)))).trans (State.flag_of_reg (s.reg_setSlice k m _) _)
  · exact (State.slice_of_md (State.setF_md _ _ _ _) k).trans (s.slice_setSlice_same k m)
  · rfl
  · exact (State.slice_of_md (State.setF_md _ _ _ _) q).trans (s.slice_setSlice_ne m hq)

theorem chCalFetchDone_loads {set mask : Nat} {fs : List (Nat × Nat)} {q : QEntry} (hon : s.on = true) (hf : s.ch.fetch = (set, mask) :: fs)
    (hq : s.runningOp 0x0313 = some q) : ∃ t, exec .chCalFetchDone s = .next t ∧ t.ch.fetch = fs ∧
      (∀ n, t.slice n = (s.calFetched set (maskSlices mask)).slice n) ∧ t.cp.running = s.cp.running.erase q := by
  obtain ⟨u, hu⟩ : ∃ u, s.calFetched set (maskSlices mask) = u := ⟨_, rfl⟩
  have hcp : u.cp = s.cp := hu ▸ (congrArg State.cp (calFetched_eq s set (maskSlices mask)) :)
  have hrun : q ∈ u.cp.running := hcp ▸ runningOp_mem hq
  have hw := worked_final (s := { u with ch := { u.ch with fetch := fs } }) hrun stOk []
  obtain ⟨hmd, hch, hrunning⟩ : _ ∧ _ ∧ _ := by simpa only [State.worked, Prod.mk.injEq] using hw
  refine ⟨_, exec_chCalFetchDone hon hf hq, ?_, fun n => ?_, ?_⟩ <;> rw [hu]
  · rw [hch]
  · exact State.slice_of_md hmd n
  · rw [hrunning, hcp]

theorem chCalStoreDone_stores {set : Nat} {q : QEntry} (hon : s.on = true) (hs : s.ch.store = some set) (hq : s.runningOp 0x0314 = some q) :
    ∃ t, exec .chCalStoreDone s = .next t ∧ t.ch.cal = s.calStored set ∧ t.ch.store = none ∧ t.md = s.md ∧
      t.cp.running = s.cp.running.erase q := by
  have hrun : q ∈ s.cp.running := runningOp_mem hq
  have hw := worked_final (s := { s with ch := { s.ch with cal := s.calStored set, store := none } }) hrun stOk []
  obtain ⟨hmd, hch, hrunning⟩ : _ ∧ _ ∧ _ := by simpa only [State.worked, Prod.mk.injEq] using hw
  exact ⟨_, exec_chCalStoreDone hon hs hq, by rw [hch], by rw [hch], hmd, hrunning⟩

/-- Settles O20: the eight paths of a slice cross one by one, and a copy, a fetch and a store by what a run of a table reads after it is written. -/
theorem scaleEpochsAndCalibrationCopies : Obligations.ScaleEpochsAndCalibrationCopies := by
  intro s k hon hk
  refine ⟨fun b hstd hst he hdue haw => ?_, fun hc => ?_, fun set mask fs q hf hq => ?_, fun set q hs hq => ?_⟩
  · obtain ⟨t, hexec, hepoch, hreg, hkept, hpaths, hothers⟩ := scaleEpochBoundary_crosses hon hstd hst he hdue haw
    refine ⟨t, hexec, hepoch, hreg, hkept, fun j hj => ?_, fun p _ hp => hothers p hp⟩
    obtain ⟨r, hr, h⟩ := hpaths j hj
    exact ⟨h.n, h.sums, h.clips, h.opened, h.seeded, h.seedNext, r, hr, h.path, h.st, h.closing, h.bytes⟩
  · obtain ⟨t, hexec, hcopying, hbank, hslice, hkept, hothers⟩ := calBankCopyDone_copies hon hc
    refine ⟨t, hexec, hcopying, hbank, fun j hj c hc => ?_, by rw [hslice, calCopy_x], hkept, fun q _ hq => hothers q hq⟩
    rw [hslice, calAddr_eq, calAddr_eq (s.calBank k)]
    exact ⟨calCopy_loading _ _ (by omega), calCopy_active _ _ (by omega)⟩
  · obtain ⟨t, hexec, hfetch, hslices, hrunning⟩ := chCalFetchDone_loads hon hf hq
    refine ⟨t, hexec, hfetch, fun n hn hb i hi => ?_, fun n hn hb => ?_, hrunning⟩
    · rw [hslices n]
      exact y_calFetched s set (List.nodup_range.filter _) ((mem_maskSlices hn).2 hb) hi
    · rw [hslices n, slice_calFetched_notMem s set fun hm => absurd ((mem_maskSlices hn).1 hm) (by simp [hb])]
  · obtain ⟨t, hexec, hcal, hstore, hmd, hrunning⟩ := chCalStoreDone_stores hon hs hq
    refine ⟨t, hexec, hstore, hmd, hrunning, fun i hi => ?_⟩
    rw [hcal, calStored_get s set hk hi]

end Sys2Proof.Machine
end

-- ==== The correlator's commands ====
section

namespace Sys2Proof.Machine

variable {s t : State} {c : Cmd}

/-! ### What the queue's registers do not touch -/

/-- Two states with the same sample rate and the same registers, that of the command queue apart: all that the checks of a product set read. -/
structure SameSetup (s t : State) : Prop where
  time : t.time = s.time
  reg : ∀ o, o ≠ CP_Q_STAT → t.reg o = s.reg o

theorem sameSetup_dequeue (s : State) (op : Nat) (c : Cmd) : SameSetup s (s.dequeue op c) :=
  ⟨s.dequeue_time op c, fun _ ho => s.reg_dequeue op c ho⟩

theorem SameSetup.rf (h : SameSetup s t) {o : Nat} (ho : o ≠ CP_Q_STAT) (f : Fld) : t.rf o f = s.rf o f := State.rf_of_reg (h.reg o ho) f

theorem SameSetup.flag (h : SameSetup s t) {o : Nat} (ho : o ≠ CP_Q_STAT) (f : Fld) : t.flag o f = s.flag o f := State.flag_of_reg (h.reg o ho) f

theorem SameSetup.reg64 (h : SameSetup s t) {o : Nat} (ho : o ≠ CP_Q_STAT) (ho' : o + 4 ≠ CP_Q_STAT) : t.reg64 o = s.reg64 o := by
  rw [State.reg64, State.reg64, h.reg o ho, h.reg (o + 4) ho']

theorem SameSetup.mode (h : SameSetup s t) : t.mode = s.mode := h.rf (by decide) _

theorem SameSetup.member (h : SameSetup s t) : t.member = s.member := h.rf (by decide) _

theorem SameSetup.selFirst (h : SameSetup s t) : t.selFirst = s.selFirst := h.rf (by decide) _

theorem SameSetup.selCount (h : SameSetup s t) : t.selCount = s.selCount := h.rf (by decide) _

theorem SameSetup.ctRuns (h : SameSetup s t) : t.ctRuns = s.ctRuns := by
  rw [State.ctRuns, State.ctRuns, h.flag (by decide), h.mode]

theorem SameSetup.setReg (h : SameSetup s t) (o : Nat) (w : Word) : SameSetup (s.setReg o w) (t.setReg o w) :=
  ⟨h.time, fun a ha => by rw [State.reg_setReg, State.reg_setReg, h.reg a ha]⟩

theorem SameSetup.setF (h : SameSetup s t) {o : Nat} (ho : o ≠ CP_Q_STAT) (f : Fld) (v : Nat) : SameSetup (s.setF o f v) (t.setF o f v) := by
  rw [State.setF, State.setF, h.reg o ho]
  exact h.setReg o _

theorem SameSetup.clearRegs (h : SameSetup s t) (l : List Nat) : SameSetup (s.clearRegs l) (t.clearRegs l) :=
  ⟨h.time, fun a ha => by rw [State.reg_clearRegs, State.reg_clearRegs, h.reg a ha]⟩

theorem SameSetup.foldl {f : State → Nat → State} (hf : ∀ u v k, SameSetup u v → SameSetup (f u k) (f v k)) (l : List Nat) :
    ∀ {s t : State}, SameSetup s t → SameSetup (l.foldl f s) (l.foldl f t) := by
  induction l with
  | nil => exact fun h => h
  | cons k l ih => exact fun h => ih (hf _ _ k h)

/-! ### The checks of a product set (R181, R184, R187, R207, R209) -/

theorem SameSetup.regionRegs (h : SameSetup s t) (d : SetDesc) : SameSetup (s.regionRegs d) (t.regionRegs d) := by
  refine SameSetup.foldl (fun u v i huv => ?_) _ h
  cases hi : d.regions[i]? with
  | some r => exact ((((huv.setReg _ _).setReg _ _).setReg _ _).setReg _ _).setReg _ _
  | none => exact huv.clearRegs _

theorem SameSetup.withIx (h : SameSetup s t) (x y : IxSt) : SameSetup { s with ix := x } { t with ix := y } := ⟨h.time, h.reg⟩

theorem SameSetup.setConfig (h : SameSetup s t) (b : Nat) (d : SetDesc) : SameSetup (s.setConfig b d) (t.setConfig b d) := by
  unfold State.setConfig
  rw [h.mode, h.time]
  refine SameSetup.withIx (SameSetup.setF (SameSetup.regionRegs ?_ d) (by decide) _ _) _ _
  exact ((((((h.setF (by decide) _ _).setF (by decide) _ _).setF (by decide) _ _).setF (by decide) _ _).setReg _ _).setReg _ _).setReg _ _

theorem beamRegs_ne_qStat (b : Nat) : WD_BM_CTL b ≠ CP_Q_STAT ∧ WD_BM_PKT b ≠ CP_Q_STAT ∧ WD_BM_DMAC_LO b ≠ CP_Q_STAT ∧ WD_BM_DMAC_HI b ≠ CP_Q_STAT ∧
    WD_BM_DIP b ≠ CP_Q_STAT ∧ WD_BM_UDP b ≠ CP_Q_STAT := by
  unfold WD_BM_CTL WD_BM_PKT WD_BM_DMAC_LO WD_BM_DMAC_HI WD_BM_DIP WD_BM_UDP CP_Q_STAT
  omega

theorem portCtl_ne_qStat (n : Nat) : ET_P_CTL n ≠ CP_Q_STAT := by
  unfold ET_P_CTL CP_Q_STAT
  omega

theorem SameSetup.bmRegs (h : SameSetup s t) (b : Nat) : t.bmRegs b = s.bmRegs b := by
  obtain ⟨h0, h1, h2, h3, h4, h5⟩ := beamRegs_ne_qStat b
  simp only [State.bmRegs, List.map_cons, List.map_nil, h.reg _ h0, h.reg _ h1, h.reg _ h2, h.reg _ h3, h.reg _ h4, h.reg _ h5]

theorem SameSetup.wdRegs (h : SameSetup s t) : t.wdRegs = s.wdRegs := by
  have hen (b : Nat) : t.flag (WD_BM_CTL b) WD_BM_CTL_EN = s.flag (WD_BM_CTL b) WD_BM_CTL_EN := h.flag (beamRegs_ne_qStat b).1 _
  simp only [State.wdRegs, hen, h.bmRegs, h.flag (o := WD_CTL) (by decide), h.rf (o := WD_CH) (by decide),
    h.reg64 (o := WD_FREQ_LO) (by decide) (by decide)]

theorem SameSetup.portC1Ok (h : SameSetup s t) : t.portC1Ok = s.portC1Ok := by
  funext n line
  rw [State.portC1Ok, State.portC1Ok, State.portCeiling, State.portCeiling, h.time, h.flag (portCtl_ne_qStat n)]

theorem SameSetup.ctLineNow (h : SameSetup s t) : t.ctLineNow = s.ctLineNow := by
  funext n
  rw [State.ctLineNow, State.ctLineNow, h.ctRuns, h.mode, h.rf (by decide)]

theorem SameSetup.egressOver (h : SameSetup s t) (c : WdCfg) : t.egressOver c = s.egressOver c := by
  rw [State.egressOver, State.egressOver, h.portC1Ok, h.ctLineNow]

theorem SameSetup.wdOnDie (h : SameSetup s t) (c : WdCfg) : t.wdOnDie c = s.wdOnDie c := by
  funext d
  rw [State.wdOnDie, State.wdOnDie, h.selFirst, h.selCount]

theorem SameSetup.wdBudget (h : SameSetup s t) (c : WdCfg) : t.wdBudget c = s.wdBudget c := by
  rw [State.wdBudget, State.wdBudget, State.wdFits, State.wdFits, h.mode, h.time, h.wdOnDie, h.egressOver]

theorem SameSetup.setBudget (h : SameSetup s t) (d : SetDesc) : t.setBudget d = s.setBudget d := by
  simp only [State.setBudget, h.mode, h.time, h.ctRuns, h.rf (o := ET_CT_GRACE) (by decide), h.reg IX_DUMP_LEN (by decide)]

theorem SameSetup.setOver (h : SameSetup s t) (d : SetDesc) : t.setOver d = s.setOver d := by
  have hcfg : SameSetup (s.setConfig 0 d) (t.setConfig 0 d) := h.setConfig 0 d
  simp only [State.setOver, h.setBudget, hcfg.wdBudget, hcfg.wdRegs]

theorem SameSetup.regionBad (h : SameSetup s t) : t.regionBad = s.regionBad := by
  funext r
  rw [State.regionBad, State.regionBad, h.mode, h.member]

theorem SameSetup.beamUncovered (h : SameSetup s t) (d : SetDesc) : t.beamUncovered d = s.beamUncovered d := by
  rw [State.beamUncovered, State.beamUncovered, h.flag (by decide), h.rf (o := WD_CH) (by decide), h.rf (o := WD_CH) (by decide)]

theorem SameSetup.setBad (h : SameSetup s t) (d : SetDesc) (wordOf : Nat → Nat) : t.setBad d wordOf = s.setBad d wordOf := by
  rw [State.setBad, State.setBad, h.regionBad, h.time, h.beamUncovered]

theorem SameSetup.setReply (h : SameSetup s t) (d : SetDesc) : t.setReply d = s.setReply d := by
  simp only [State.setReply, h.mode, h.time]

/-- A set that breaks a parameter rule is refused with BAD_PARAM. -/
theorem setBad_status {d : SetDesc} {wordOf : Nat → Nat} {b : Bad} (h : s.setBad d wordOf = some b) : b.status = stBadParam := by
  unfold State.setBad at h
  extract_lets sel at h
  split at h
  · obtain rfl := Option.some.inj h
    rfl
  · split at h
    · obtain rfl := Option.some.inj h
      rfl
    · split at h
      · obtain rfl := Option.some.inj h
        rfl
      · split at h
        · obtain rfl := Option.some.inj h
          rfl
        · cases h

/-! ### The SAT_RISK mask (R189) -/

/-- A sum of rising powers of two has the bits that it lists. -/
theorem bit_sum_two_pow {l : List Nat} (hl : l.SortedLT) (q : Nat) : bit (l.map (2 ^ ·)).sum q = true ↔ q ∈ l := by
  rw [bit_eq_testBit, ← Nat.mem_bitIndices, Nat.bitIndices_sum_map_two_pow hl]

theorem sum_map_flagged {α : Type} (p : α → Bool) (f : α → Nat) (l : List α) :
    (l.map fun x => if p x = true then f x else 0).sum = ((l.filter p).map f).sum := by
  induction l with
  | nil => rfl
  | cons x l ih =>
    cases hp : p x with
    | true => rw [List.filter_cons_of_pos hp, List.map_cons, List.map_cons, List.sum_cons, List.sum_cons, ih, if_pos hp]
    | false => rw [List.filter_cons_of_neg (by rw [hp]; decide), List.map_cons, List.sum_cons, ih, if_neg (by rw [hp]; decide), Nat.zero_add]

theorem sortedLT_zipIdx_filter {α : Type} (p : α × Nat → Bool) (l : List α) : ((l.zipIdx.filter p).map Prod.snd).SortedLT := by
  have hsub : ((l.zipIdx.filter p).map Prod.snd).Sublist (List.range' 0 l.length) := by
    rw [← List.zipIdx_map_snd]
    exact List.filter_sublist.map _
  exact List.sortedLT_iff_pairwise.2 (List.Pairwise.sublist hsub List.pairwise_lt_range')

theorem bit_satRisk {nspec r : Nat} {rs : List Region} {rg : Region} (h : rs[r]? = some rg) :
    bit (satRisk nspec rs) r = true ↔ (2 ^ 31 - 1) / (98 * rg.binW) < nspec := by
  have hsum : satRisk nspec rs = (((rs.zipIdx.filter fun q => decide (nsat q.1.binW < nspec)).map Prod.snd).map (2 ^ ·)).sum := by
    rw [List.map_map, ← sum_map_flagged]
    simp only [satRisk, decide_eq_true_eq, Function.comp]
  rw [hsum, bit_sum_two_pow (sortedLT_zipIdx_filter _ _), List.mem_map]
  constructor
  · rintro ⟨q, hq, rfl⟩
    obtain ⟨hmem, hlt⟩ := List.mem_filter.1 hq
    obtain rfl : rg = q.1 := Option.some.inj (h.symm.trans (List.mem_zipIdx_iff_getElem?.1 hmem))
    exact of_decide_eq_true hlt
  · exact fun hlt => ⟨(rg, r), List.mem_filter.2 ⟨List.mem_zipIdx_iff_getElem?.2 h, decide_eq_true hlt⟩, rfl⟩

/-! ### IX_BUDGET_CHECK -/

theorem exec_ixBudgetCheck (s : State) (c : Cmd) : exec (.ixBudgetCheck c) s = execIxBudgetCheck c s := (rfl)

/-- A command that a check of its own refuses. -/
theorem refuses_of_params {i : Instr} {op : Nat} {params : State → Option Bad} {body : State → CmdRes} {b : Bad}
    (hi : exec i s = .next (s.command op c params body)) (h : Taken op c s) (hp : params (s.dequeue op c) = some b) (hs : b.status ≠ stSignature) :
    Refuses i op c s b.status b.word b.words :=
  hi.trans (congrArg _ (State.command_refuse h hp hs))

theorem ixBudgetCheck_bad (h : Taken 0x0402 c s) (hlen : c.payload.length = setLen c.payload) {b : Bad}
    (hb : s.setBad (setDesc c.payload) (fun r => 2 + 4 * r) = some b) : Refuses (.ixBudgetCheck c) 0x0402 c s b.status b.word b.words := by
  refine refuses_of_params (exec_ixBudgetCheck s c) h ?_ (by rw [setBad_status hb]; decide)
  rw [needLen_of_eq hlen, (sameSetup_dequeue s _ c).setBad, hb]
  rfl

theorem ixBudgetCheck_params (s : State) (hlen : c.payload.length = setLen c.payload) (hb : s.setBad (setDesc c.payload) (fun r => 2 + 4 * r) = none) :
    (needLen (setLen c.payload) c).or ((s.dequeue 0x0402 c).setBad (setDesc c.payload) fun r => 2 + 4 * r) = none := by
  rw [needLen_of_eq hlen, (sameSetup_dequeue s _ c).setBad, hb]
  rfl

theorem ixBudgetCheck_over (h : Taken 0x0402 c s) (hlen : c.payload.length = setLen c.payload)
    (hb : s.setBad (setDesc c.payload) (fun r => 2 + 4 * r) = none) {q : Nat × Nat} (hq : s.setOver (setDesc c.payload) = some q) :
    Refuses (.ixBudgetCheck c) 0x0402 c s stBudget 0 [w32 q.1, w32 q.2] := by
  refine refuses_of_body (b := ⟨stBudget, 0, [w32 q.1, w32 q.2]⟩) (exec_ixBudgetCheck s c) h (ixBudgetCheck_params s hlen hb) ?_
    (show stBudget ≠ stSignature by decide)
  rw [(sameSetup_dequeue s _ c).setOver, hq]
  rfl

theorem ixBudgetCheck_ok (h : Taken 0x0402 c s) (hlen : c.payload.length = setLen c.payload)
    (hb : s.setBad (setDesc c.payload) (fun r => 2 + 4 * r) = none) (hq : s.setOver (setDesc c.payload) = none) (hf : Fits 3 c s) :
    Answers (.ixBudgetCheck c) 0x0402 c s (s.setReply (setDesc c.payload)) (s.dequeue 0x0402 c) := by
  refine answers_of_body (exec_ixBudgetCheck s c) h (ixBudgetCheck_params s hlen hb) ?_ hf
  rw [(sameSetup_dequeue s _ c).setOver, hq, ← (sameSetup_dequeue s 0x0402 c).setReply]

/-! ### IX_STATUS, IX_TILE_MAP and IX_DUMP_RELEASE -/

theorem exec_ixStatus (s : State) (c : Cmd) : exec (.ixStatus c) s = execIxStatus c s := (rfl)

theorem ixStatus_reads (h : Taken 0x0404 c s) (hlen : c.payload = []) (hf : Fits 11 c s) : Answers (.ixStatus c) 0x0404 c s (([IX_STAT, IX_BANK_STAT,
    IX_INT_SEQ, IX_NEXT_CLOSE_LO, IX_NEXT_CLOSE_HI, IX_SHED, IX_OVERRUNS, IX_SHED_PASSES, IX_STAGE_DROPS, IX_SAT_ENTRIES, IX_LOST_INTEG]).map s.reg)
    (s.dequeue 0x0404 c) := by
  have hregs : ∀ o ∈ [IX_STAT, IX_BANK_STAT, IX_INT_SEQ, IX_NEXT_CLOSE_LO, IX_NEXT_CLOSE_HI, IX_SHED, IX_OVERRUNS, IX_SHED_PASSES, IX_STAGE_DROPS,
      IX_SAT_ENTRIES, IX_LOST_INTEG], (s.dequeue 0x0404 c).reg o = s.reg o := fun o ho => s.reg_dequeue _ c (ne_of_mem_of_not_mem ho (by decide))
  refine answers_of_body (exec_ixStatus s c) h (needLen_of_eq (by rw [hlen]; rfl)) ?_ hf
  rw [List.map_congr_left hregs]

theorem exec_ixTileMap (s : State) (c : Cmd) : exec (.ixTileMap c) s = execIxTileMap c s := (rfl)

/-- A group as IX_TILE_MAP answers it. -/
def groupWords (g : Group × Nat) : List Word := [w32 (g.1.region.getD 0xFF), w32 g.1.m, w32 g.1.n, w32 g.1.ch]

theorem length_flatMap_groupWords (gs : List (Group × Nat)) : (gs.flatMap groupWords).length = 4 * gs.length := by
  induction gs with
  | nil => rfl
  | cons g gs ih =>
    rw [List.flatMap_cons, List.length_append, ih, List.length_cons, groupWords]
    exact (Nat.add_comm _ _).trans rfl

theorem ixTileMap_reads (h : Taken 0x0406 c s) (hlen : c.payload.length = 1) {gs : List (Group × Nat)}
    (hgs : gs = (dieGroups (modePaths s.mode) s.selFirst s.selCount (c.f 0 9 0 / 512) s.ix.regions).zipIdx.filter fun g =>
      tileOf (c.f 0 9 0 / 512) g.2 == c.f 0 9 0) (hf : Fits (4 * gs.length) c s) :
    Answers (.ixTileMap c) 0x0406 c s (gs.flatMap groupWords) (s.dequeue 0x0406 c) := by
  have hq := sameSetup_dequeue s 0x0406 c
  refine answers_of_body (exec_ixTileMap s c) h (needLen_of_eq hlen) ?_ (by rw [length_flatMap_groupWords]; exact hf)
  dsimp only
  rw [hgs, hq.mode, hq.selFirst, hq.selCount, s.dequeue_ix]
  rfl

theorem exec_ixDumpRelease (s : State) (c : Cmd) : exec (.ixDumpRelease c) s = execIxDumpRelease c s := (rfl)

theorem ixDumpRelease_unknown (h : Taken 0x0405 c s) (hlen : c.payload.length = 1) (hn : ∀ r ∈ s.ix.ring, r.seq ≠ (c.w 0).toNat) :
    Refuses (.ixDumpRelease c) 0x0405 c s stBadParam 0 [] := by
  refine refuses_of_params (b := ⟨stBadParam, 0, []⟩) (exec_ixDumpRelease s c) h ?_ (by decide)
  have hany : (s.ix.ring.any fun r => r.seq == (c.w 0).toNat) = false := List.any_eq_false.2 fun r hr => by simpa using hn r hr
  rw [needLen_of_eq hlen, s.dequeue_ix, hany]
  rfl

/-- The records behind the oldest one with a SEQ. -/
theorem ringAfter_of_first {seq : Nat} {before after : List DumpRec} {r : DumpRec} (hr : r.seq = seq) (hn : ∀ x ∈ before, x.seq ≠ seq) :
    ringAfter seq (before ++ r :: after) = after := by
  have hany : ((before ++ r :: after).any fun x => x.seq == seq) = true := List.any_eq_true.2 ⟨r, by simp, by simp [hr]⟩
  rw [ringAfter, if_pos hany, List.dropWhile_append_of_pos (by simpa using hn), List.dropWhile_cons_of_neg (by simp [hr])]
  rfl

/-- What IX_DUMP_RD reads with the records `rs` in the ring: the oldest one's offset, or where the next is written. -/
def ringHead (wr : Word) : List DumpRec → Word
  | [] => wr
  | r :: _ => w32 r.off

theorem ringTrim_eq (s : State) (rs : List DumpRec) : s.ringTrim rs =
    ({ s with ix := { s.ix with ring := rs.dropWhile (·.freed) } } : State).setReg IX_DUMP_RD (ringHead (s.reg IX_DUMP_WR) (rs.dropWhile (·.freed))) := by
  rw [State.ringTrim, State.ringRd]
  cases rs.dropWhile (·.freed) with
  | nil => rw [ringHead, w32, BitVec.ofNat_toNat, BitVec.setWidth_eq]
  | cons r rs => rfl

theorem ixDumpRelease_releases (h : Taken 0x0405 c s) (hlen : c.payload.length = 1) {before after : List DumpRec} {r : DumpRec}
    (hring : s.ix.ring = before ++ r :: after) (hr : r.seq = (c.w 0).toNat) (hn : ∀ x ∈ before, x.seq ≠ (c.w 0).toNat) (hf : Fits 0 c s) :
    Answers (.ixDumpRelease c) 0x0405 c s [] ((s.dequeue 0x0405 c).ringTrim after) := by
  refine answers_of_body (exec_ixDumpRelease s c) h ?_ ?_ hf
  · have hany : (s.ix.ring.any fun x => x.seq == (c.w 0).toNat) = true := List.any_eq_true.2 ⟨r, by simp [hring], by simp [hr]⟩
    rw [needLen_of_eq hlen, s.dequeue_ix, hany]
    rfl
  · rw [State.ringRelease, s.dequeue_ix, hring, ringAfter_of_first hr hn]

/-! ### IX_DUMP_RING (R193, R205) -/

theorem exec_ixDumpRing (s : State) (c : Cmd) : exec (.ixDumpRing c) s = execIxDumpRing c s := (rfl)

/-- The ring set to a base and a length and emptied. -/
def State.ringSet (s : State) (base : Nat) (len : Word) : State :=
  { (((s.setReg64 IX_DUMP_BASE_LO base).setReg IX_DUMP_LEN len).setReg IX_DUMP_WR 0).setReg IX_DUMP_RD 0 with ix := { s.ix with ring := [] } }

theorem State.reg64_of_reg {a : Nat} (h : t.reg a = s.reg a) (h' : t.reg (a + 4) = s.reg (a + 4)) : t.reg64 a = s.reg64 a := by
  rw [State.reg64, State.reg64, h, h']

theorem ringSet_eq (s : State) (base : Nat) (len : Word) :
    s.ringSet base len = { s with regs := (s.ringSet base len).regs, ix := { s.ix with ring := [] } } := rfl

theorem reg_ringSet (s : State) (base : Nat) (len : Word) (o : Nat) : (s.ringSet base len).reg o =
    if o = IX_DUMP_RD ∨ o = IX_DUMP_WR then 0 else if o = IX_DUMP_LEN then len else (s.setReg64 IX_DUMP_BASE_LO base).reg o := by
  have h : (s.ringSet base len).reg o =
      ((((s.setReg64 IX_DUMP_BASE_LO base).setReg IX_DUMP_LEN len).setReg IX_DUMP_WR 0).setReg IX_DUMP_RD 0).reg o := rfl
  rw [h, State.reg_setReg, State.reg_setReg, State.reg_setReg, ite_or]

theorem base_ringSet (s : State) {base : Nat} (hbase : base < 2 ^ 64) (len : Word) : (s.ringSet base len).reg64 IX_DUMP_BASE_LO = base := by
  have h : (s.ringSet base len).reg64 IX_DUMP_BASE_LO = (s.setReg64 IX_DUMP_BASE_LO base).reg64 IX_DUMP_BASE_LO :=
    State.reg64_of_reg ((reg_ringSet s base len _).trans (by rw [if_neg (by decide), if_neg (by decide)]))
      ((reg_ringSet s base len _).trans (by rw [if_neg (by decide), if_neg (by decide)]))
  rw [h, State.reg64_setReg64, Nat.mod_eq_of_lt hbase]

theorem reg_ringSet_other (s : State) (base : Nat) (len : Word) {o : Nat}
    (ho : o ∉ [IX_DUMP_BASE_LO, IX_DUMP_BASE_LO + 4, IX_DUMP_LEN, IX_DUMP_WR, IX_DUMP_RD]) : (s.ringSet base len).reg o = s.reg o := by
  simp only [List.mem_cons, List.not_mem_nil, or_false, not_or] at ho
  obtain ⟨hlo, hhi, hlen, hwr, hrd⟩ := ho
  rw [reg_ringSet, if_neg (by rw [not_or]; exact ⟨hrd, hwr⟩), if_neg hlen, State.reg_setReg64_ne _ _ hlo hhi]

/-- Bits [63:0] of a payload's two words. -/
theorem Cmd.q_lt (c : Cmd) (i : Nat) : c.q i < 2 ^ 64 := by
  have h0 := (c.w i).isLt
  have h1 := (c.w (i + 1)).isLt
  unfold Cmd.q
  omega

theorem ixDumpRing_params (hlen : c.payload.length = 3) : (needLen 3 c).or ((badIf (c.q 0 % 4096 != 0) 0).or (badIf ((c.w 2).toNat % 4096 != 0) 2)) =
    if c.q 0 % 4096 ≠ 0 then some ⟨stBadParam, 0, []⟩ else if (c.w 2).toNat % 4096 ≠ 0 then some ⟨stBadParam, 2, []⟩ else none := by
  rw [needLen_of_eq hlen, Option.none_or, badIf, badIf]
  by_cases h0 : c.q 0 % 4096 = 0 <;> by_cases h2 : (c.w 2).toNat % 4096 = 0 <;> simp [h0, h2]

theorem ixDumpRing_base (h : Taken 0x0407 c s) (hlen : c.payload.length = 3) (h0 : c.q 0 % 4096 ≠ 0) :
    Refuses (.ixDumpRing c) 0x0407 c s stBadParam 0 [] :=
  refuses_of_params (b := ⟨stBadParam, 0, []⟩) (exec_ixDumpRing s c) h ((ixDumpRing_params hlen).trans (if_pos h0)) (by decide)

theorem ixDumpRing_length (h : Taken 0x0407 c s) (hlen : c.payload.length = 3) (h0 : c.q 0 % 4096 = 0) (h2 : (c.w 2).toNat % 4096 ≠ 0) :
    Refuses (.ixDumpRing c) 0x0407 c s stBadParam 2 [] :=
  refuses_of_params (b := ⟨stBadParam, 2, []⟩) (exec_ixDumpRing s c) h
    ((ixDumpRing_params hlen).trans ((if_neg (not_not.2 h0)).trans (if_pos h2))) (by decide)

section
variable (h : Taken 0x0407 c s) (hlen : c.payload.length = 3) (h0 : c.q 0 % 4096 = 0) (h2 : (c.w 2).toNat % 4096 = 0)
include hlen h0 h2

theorem ixDumpRing_aligned : (needLen 3 c).or ((badIf (c.q 0 % 4096 != 0) 0).or (badIf ((c.w 2).toNat % 4096 != 0) 2)) = none :=
  (ixDumpRing_params hlen).trans ((if_neg (not_not.2 h0)).trans (if_neg (not_not.2 h2)))

include h

theorem ixDumpRing_busy (hst : s.rf IX_STAT IX_STAT_STATE ≠ 0) : Refuses (.ixDumpRing c) 0x0407 c s stWrongState 0 [] := by
  refine refuses_of_body (b := ⟨stWrongState, 0, []⟩) (exec_ixDumpRing s c) h (ixDumpRing_aligned hlen h0 h2) ?_ (by decide)
  dsimp only
  rw [s.rf_dequeue _ c _ (by decide), if_pos hst]
  rfl

theorem ixDumpRing_small (hst : s.rf IX_STAT IX_STAT_STATE = 0) (hset : s.ix.regions ≠ []) (hsmall : (c.w 2).toNat < 2 * setRecordLen s.mode
    { nspec := s.rf IX_INT_LEN IX_INT_LEN_NSPEC, fmt := s.rf IX_CTL IX_CTL_FMT, regions := s.ix.regions }) :
    Refuses (.ixDumpRing c) 0x0407 c s stBudget 0 [6, 0] := by
  refine refuses_of_body (b := ⟨stBudget, 0, [6, 0]⟩) (exec_ixDumpRing s c) h (ixDumpRing_aligned hlen h0 h2) ?_ (by decide)
  have hempty : s.ix.regions.isEmpty = false := by simpa using hset
  dsimp only
  rw [s.rf_dequeue _ c _ (by decide), s.rf_dequeue _ c _ (by decide), s.rf_dequeue _ c _ (by decide), (sameSetup_dequeue s _ c).mode, s.dequeue_ix,
    if_neg (not_not.2 hst), hempty, decide_eq_true hsmall]
  rfl

theorem ixDumpRing_sets (hst : s.rf IX_STAT IX_STAT_STATE = 0) (hset : s.ix.regions = []) (hf : Fits 0 c s) :
    Answers (.ixDumpRing c) 0x0407 c s [] ((s.dequeue 0x0407 c).ringSet (c.q 0) (c.w 2)) := by
  refine answers_of_body (exec_ixDumpRing s c) h (ixDumpRing_aligned hlen h0 h2) ?_ hf
  dsimp only
  rw [s.rf_dequeue _ c _ (by decide), if_neg (not_not.2 hst), s.dequeue_ix, hset, List.isEmpty_nil, Bool.not_true, Bool.false_and,
    if_neg (by decide), State.ringSet, State.setReg_ix, State.setReg64_ix, s.dequeue_ix]

end

/-- Settles O40: each command's checks and effect on the state that taking it from the queue leaves, which differs in CP_Q_STAT alone among the registers. -/
theorem correlatorCommandsTakeEffect : Obligations.CorrelatorCommandsTakeEffect := by
  intro s c
  refine ⟨fun d h hd hlen => ?_, fun h hlen hf => ixStatus_reads h hlen hf, fun h hlen => ?_, fun gs h hlen hgs hf => ixTileMap_reads h hlen hgs hf,
    fun h hlen => ?_⟩
  · subst hd
    refine ⟨fun b hb => ixBudgetCheck_bad h hlen hb, fun hb => ⟨fun q hq => ixBudgetCheck_over h hlen hb hq, fun hq hf => ?_⟩⟩
    exact ⟨_, ixBudgetCheck_ok h hlen hb hq hf, fun r rg hr => bit_satRisk hr⟩
  · refine ⟨ixDumpRelease_unknown h hlen, fun before r after hring hr hn hf => ⟨_, ixDumpRelease_releases h hlen hring hr hn hf, ?_, ?_, fun o ho => ?_⟩⟩
    · rw [ringTrim_eq, s.dequeue_ix]
      rfl
    · rw [ringTrim_eq, State.reg_setReg_same, s.reg_dequeue _ c (by decide)]
      rfl
    · simp only [List.mem_cons, List.not_mem_nil, or_false, not_or] at ho
      obtain ⟨hrd, hq⟩ := ho
      rw [ringTrim_eq, State.reg_setReg_ne _ _ hrd]
      exact s.reg_dequeue _ c hq
  · refine ⟨fun h0 => ixDumpRing_base h hlen h0, fun h0 h2 => ixDumpRing_length h hlen h0 h2, fun h0 h2 => ⟨fun hst => ixDumpRing_busy h hlen h0 h2 hst,
      fun hst hset hsmall => ixDumpRing_small h hlen h0 h2 hst hset hsmall, fun hst hset hf =>
      ⟨_, ixDumpRing_sets h hlen h0 h2 hst hset hf, base_ringSet _ (c.q_lt 0) _, ?_, ?_, ?_, ?_, fun o ho => ?_⟩⟩⟩
    · rw [reg_ringSet, if_neg (by decide), if_pos rfl]
    · rw [reg_ringSet, if_pos (.inr rfl)]
    · rw [reg_ringSet, if_pos (.inl rfl)]
    · rw [← s.dequeue_ix 0x0407 c]
      exact ringSet_eq _ _ _
    · rw [reg_ringSet_other _ _ _ (by simp only [List.mem_cons] at ho ⊢; tauto), s.reg_dequeue _ c (by simp only [List.mem_cons] at ho; tauto)]

end Sys2Proof.Machine
end

-- ==== Staging: halves, banks and arrivals ====
section

namespace Sys2Proof.Machine

variable {s t : State} {st : Nat}

/-! ### Halves and banks after a write -/

@[simp] theorem State.half_setHalf_same (s : State) (h : Bool) (x : Half) : (s.setHalf h x).half h = x := by cases h <;> rfl

@[simp] theorem State.half_setHalf_not (s : State) (h : Bool) (x : Half) : (s.setHalf h x).half (!h) = s.half (!h) := by cases h <;> rfl

theorem State.setHalf_half (s : State) (h : Bool) : s.setHalf h (s.half h) = s := by cases h <;> rfl

theorem State.setHalf_setHalf (s : State) (h : Bool) (x y : Half) : (s.setHalf h x).setHalf h y = s.setHalf h y := by cases h <;> rfl

/-- A half written changes staging alone. -/
theorem State.setHalf_eq (s : State) (h : Bool) (x : Half) : s.setHalf h x = { s with ix := (s.setHalf h x).ix } := by cases h <;> rfl

@[simp] theorem State.bank_setBank_same (s : State) (b : Bool) (x : Bank) : (s.setBank b x).bank b = x := by cases b <;> rfl

@[simp] theorem State.bank_setBank_not (s : State) (b : Bool) (x : Bank) : (s.setBank b x).bank (!b) = s.bank (!b) := by cases b <;> rfl

/-- A bank written changes the banks alone. -/
theorem State.setBank_eq (s : State) (b : Bool) (x : Bank) :
    s.setBank b x = { s with ix := { s.ix with bankA := (s.setBank b x).ix.bankA, bankB := (s.setBank b x).ix.bankB } } := by cases b <;> rfl

@[simp] theorem State.reg_setBank (s : State) (b : Bool) (x : Bank) (o : Nat) : (s.setBank b x).reg o = s.reg o := by cases b <;> rfl

@[simp] theorem State.reg_setHalf (s : State) (h : Bool) (x : Half) (o : Nat) : (s.setHalf h x).reg o = s.reg o := by cases h <;> rfl

/-- A bank is read from the two banks' letters alone. -/
theorem State.bank_of_ix (h : t.ix = s.ix) (b : Bool) : t.bank b = s.bank b := by rw [State.bank, State.bank, h]

theorem State.bankAt_of_banks (ha : t.ix.bankA = s.ix.bankA) (hb : t.ix.bankB = s.ix.bankB) (st : Nat) : t.bankAt st = s.bankAt st := by
  rw [State.bankAt, State.bankAt, ha, hb]

theorem State.halfOf_of_halves (h0 : t.ix.half0 = s.ix.half0) (h1 : t.ix.half1 = s.ix.half1) (st : Nat) : t.halfOf st = s.halfOf st := by
  rw [State.halfOf, State.halfOf, h0, h1]

/-! ### A scale record arrives (R166, R176) -/

/-- Where no corner-turn configuration has been replaced, that of every spectrum is the one in force. -/
theorem ctView_ctAt (h : s.ct.olds = []) (t : State) (st : Nat) : t.ctView (s.ctAt st) = t := by
  rw [State.ctAt, h]
  rfl

theorem exec_stagingFillArrival (s : State) (rec : Bool) : exec (.stagingFillArrival rec) s = execStagingFillArrival rec s := (rfl)

theorem stagingFillArrival_none (hon : s.on = true) (rec : Bool) (hrec : rec = true → s.ch.recs = []) (hfill : rec = false → s.md.fills = []) :
    exec (.stagingFillArrival rec) s = .next s := by
  rw [exec_stagingFillArrival, execStagingFillArrival, whenOn_on hon]
  cases rec with
  | true => simp only [hrec rfl, if_true]
  | false => simp only [hfill rfl, Bool.false_eq_true, if_false]

/-- The oldest scale record in its array path's place. -/
def State.recTaken (s : State) (r : ScaleRec) (rs : List ScaleRec) : State :=
  { s with ch := { s.ch with recs := rs }, ix := { s.ix with recs := ({ r with path := s.arrayPath r.path } :: s.ix.recs).take 65536 } }

theorem stagingFillArrival_record (hon : s.on = true) {r : ScaleRec} {rs : List ScaleRec} (hr : s.ch.recs = r :: rs) (hct : s.ctRuns = false)
    (holds : s.ct.olds = []) : exec (.stagingFillArrival true) s = .next (s.recTaken r rs) := by
  have hrun : (s.recTaken r rs).ctRuns = false := hct
  rw [exec_stagingFillArrival, execStagingFillArrival, whenOn_on hon]
  simp only [if_true, hr, ctView_ctAt holds]
  rw [← State.recTaken, ctView_ctAt (s := s.recTaken r rs) holds, hrun, Bool.false_and, if_neg Bool.false_ne_true]

/-! ### A fill arrives in a half that takes it (R173, R176) -/

/-- The oldest staging fill taken from the slices. -/
def State.fillTaken (s : State) (fs : List Fill) : State := { s with md := { s.md with fills := fs } }

theorem stagingFillArrival_fill (hon : s.on = true) {f : Fill} {fs : List Fill} (hf : s.md.fills = f :: fs) (hct : s.ctRuns = false)
    (holds : s.ct.olds = []) (hcomp : s.pw.compOn = true) : exec (.stagingFillArrival false) s = .next ((s.fillTaken fs).stageFill f) := by
  have hrun : (s.fillTaken fs).ctRuns = false := hct
  have hpw : (s.fillTaken fs).pw.compOn = true := hcomp
  rw [exec_stagingFillArrival, execStagingFillArrival, whenOn_on hon, if_neg Bool.false_ne_true]
  simp only [hf]
  rw [← State.fillTaken, ctView_ctAt (s := s.fillTaken fs) holds, hrun, Bool.false_and, if_neg Bool.false_ne_true, if_pos hpw]

theorem openFor_covered (h : st < s.ix.nextBase) : s.openFor st = s := if_pos (.inl h)

theorem stageRoom_covered (h : st < s.ix.nextBase) : s.stageRoom st = s := by
  rw [State.stageRoom, openFor_covered h, openFor_covered h]
  exact if_pos (.inl h)

/-- Seeing whether a half is complete sets at most its mark. -/
theorem completeHalf_eq (s : State) (h : Bool) : ∃ full, s.completeHalf h = s.setHalf h { s.half h with full := full } := by
  unfold State.completeHalf
  extract_lets x
  split
  · exact ⟨true, rfl⟩
  · exact ⟨x.full, (s.setHalf_half h).symm⟩

/-- A spectrum that a half takes changes that half's list alone. -/
theorem stageUpd_eq {h : Bool} (f : Half → StSpec → StSpec) (hh : s.halfOf st = some h) (hst : st < s.ix.nextBase) :
    ∃ full, s.stageUpd st f = s.setHalf h { s.half h with specs := specUpd st (f (s.half h)) (s.half h).specs, full := full } := by
  rw [State.stageUpd, stageRoom_covered hst, hh]
  obtain ⟨full, hfull⟩ := completeHalf_eq (s.setHalf h { s.half h with specs := specUpd st (f (s.half h)) (s.half h).specs }) h
  exact ⟨full, hfull.trans (by rw [State.half_setHalf_same, State.setHalf_setHalf])⟩

/-- The spectrum changed stands in the list, as what stood for its array time there or as a new one. -/
theorem mem_specUpd (st : Nat) (f : StSpec → StSpec) (l : List StSpec) : ∃ x, x.st = st ∧ f x ∈ specUpd st f l := by
  induction l with
  | nil => exact ⟨specNone st, rfl, List.mem_singleton_self _⟩
  | cons x xs ih =>
    by_cases heq : x.st = st
    · exact ⟨x, heq, by rw [specUpd, if_pos heq]; exact List.mem_cons_self⟩
    · by_cases hlt : st < x.st
      · exact ⟨specNone st, rfl, by rw [specUpd, if_neg heq, if_pos hlt]; exact List.mem_cons_self⟩
      · obtain ⟨y, hy, hmem⟩ := ih
        exact ⟨y, hy, by rw [specUpd, if_neg heq, if_neg hlt]; exact List.mem_cons_of_mem _ hmem⟩

/-- Bytes placed from channel `k` on stand at the selected channels they reach, and nothing else changes. -/
theorem tblGet_placeBytes (first count : Nat) (bs : List Byte) (c : Nat) : ∀ (t : Tbl Byte) (k : Nat), tblGet 0 (placeBytes first count t k bs) c =
    if k ≤ c ∧ c < k + bs.length ∧ first ≤ c ∧ c < first + count then bs.getD (c - k) 0 else tblGet 0 t c := by
  induction bs with
  | nil => 
    intro t k
    rw [if_neg (by rw [List.length_nil]; omega)]
    rfl
  | cons b bs ih =>
    intro t k
    have hcons : placeBytes first count t k (b :: bs) =
        placeBytes first count (if first ≤ k ∧ k < first + count then tblSet 0 t k b else t) (k + 1) bs := rfl
    rw [hcons, ih]
    by_cases hck : c = k
    · subst hck
      rw [if_neg (by omega)]
      by_cases hsel : first ≤ c ∧ c < first + count
      · rw [if_pos hsel, if_pos ⟨le_refl c, by rw [List.length_cons]; omega, hsel⟩, tblGet_set_same, Nat.sub_self, List.getD_cons_zero]
      · rw [if_neg hsel, if_neg fun h => hsel h.2.2]
    · have hother : tblGet 0 (if first ≤ k ∧ k < first + count then tblSet 0 t k b else t) c = tblGet 0 t c := by
        split
        · exact tblGet_set_ne _ _ _ hck
        · rfl
      rw [hother, List.length_cons]
      by_cases hin : k + 1 ≤ c ∧ c < k + 1 + bs.length ∧ first ≤ c ∧ c < first + count
      · obtain ⟨d, rfl⟩ := Nat.exists_eq_add_of_le hin.1
        rw [if_pos hin, if_pos (by omega), show k + 1 + d - k = d + 1 by omega, List.getD_cons_succ, Nat.add_sub_cancel_left]
      · rw [if_neg hin, if_neg (by omega)]

/-- A path's spectrum once a fill has brought its bytes and flags. -/
def fillPath (h : Half) (f : Fill) (p : StPath) : StPath :=
  { p with data := placeBytes h.first h.count [] 0 f.data, here := true, loss := f.loss, crc := f.crc, warm := f.warm, seeded := f.seeded }

/-- A spectrum in staging once a fill has brought one of its paths. -/
def fillSpec (f : Fill) (h : Half) (x : StSpec) : StSpec := { x with paths := tblUpd stPathNone x.paths (512 * h.member + f.path) (fillPath h f) }

theorem stageFill_eq (s : State) (f : Fill) : s.stageFill f = s.stageUpd f.st (fillSpec f) := rfl

theorem path_fillSpec (f : Fill) (h : Half) (x : StSpec) :
    tblGet stPathNone (fillSpec f h x).paths (512 * h.member + f.path) = fillPath h f (tblGet stPathNone x.paths (512 * h.member + f.path)) :=
  tblGet_upd_same _ _ _ _

theorem data_fillPath (h : Half) (f : Fill) (p : StPath) {c : Nat} (hfirst : h.first ≤ c) (hlast : c < h.first + h.count) (hc : c < f.data.length) :
    tblGet 0 (fillPath h f p).data c = f.data.getD c 0 := by
  have hplace := tblGet_placeBytes h.first h.count f.data c [] 0
  rw [if_pos ⟨Nat.zero_le c, by omega, hfirst, hlast⟩] at hplace
  exact hplace

/-- A fill of a spectrum that a half takes is stored there. -/
theorem stagingFillArrival_stores (hon : s.on = true) {f : Fill} {fs : List Fill} (hf : s.md.fills = f :: fs) (hct : s.ctRuns = false)
    (holds : s.ct.olds = []) (hcomp : s.pw.compOn = true) {h : Bool} (hh : s.halfOf f.st = some h) (hst : f.st < s.ix.nextBase) :
    ∃ t, exec (.stagingFillArrival false) s = .next t ∧ t = { s with md := { s.md with fills := fs }, ix := t.ix } ∧ t.half (!h) = s.half (!h) ∧
      ∃ x, x.st = f.st ∧ fillSpec f (s.half h) x ∈ (t.half h).specs := by
  have hexec := stagingFillArrival_fill hon hf hct holds hcomp
  obtain ⟨full, hfull⟩ := stageUpd_eq (s := s.fillTaken fs) (fillSpec f) hh hst
  rw [stageFill_eq, hfull] at hexec
  obtain ⟨x, hx, hmem⟩ := mem_specUpd f.st (fillSpec f (s.half h)) (s.half h).specs
  exact ⟨_, hexec, State.setHalf_eq _ _ _, State.half_setHalf_not _ _ _, x, hx, by rw [State.half_setHalf_same]; exact hmem⟩

/-! ### W1C bits that are set (R553, R554) -/

theorem State.flag_seen_same (s : State) (a : Nat) (f : Fld) (i : Nat) (hi : i < 96) (h : ¬ intReg a) (hf : f.lo + f.w ≤ 32) (hw : 0 < f.w) :
    (s.seen a f i).flag a f = true := by
  have hlt : 1 < 2 ^ f.w := Nat.one_lt_two_pow (Nat.pos_iff_ne_zero.1 hw)
  rw [State.flag, s.rf_seen_same a f i hi h hf, Nat.mod_eq_of_lt hlt]
  rfl

theorem State.reg_signal_intStat (s : State) {v : Nat} (hv : v < 128) : (s.signal v).reg EV_INT_STAT = s.reg EV_INT_STAT := by
  have hp : EV_INT_STAT ≠ msixPba v := by unfold EV_INT_STAT msixPba; omega
  unfold State.signal
  split
  · exact s.reg_setF_ne _ _ hp
  · rfl

/-- An interrupt bit that is raised is set. -/
theorem State.rfb_raise_same (s : State) {i : Nat} (hi : i < 16) : (s.raise i).rfb EV_INT_STAT EV_INT_STAT_PEND i = true := by
  have hset : (s.setSeenB EV_INT_STAT EV_INT_STAT_PEND i).rfb EV_INT_STAT EV_INT_STAT_PEND i = true :=
    s.rfb_setFB_same EV_INT_STAT true (by decide) hi
  unfold State.raise
  extract_lets was s'
  split
  · exact (State.rfb_of_reg (s'.reg_signal_intStat (by omega)) _ _).trans hset
  · exact hset

theorem State.rfb_seen_raised (s : State) (a : Nat) (f : Fld) {i : Nat} (hi : i < 16) : (s.seen a f i).rfb EV_INT_STAT EV_INT_STAT_PEND i = true :=
  State.rfb_raise_same _ hi

/-! ### A fill that finds no room (R177) -/

theorem openFor_full (h0 : s.ix.half0.base.isSome = true) (h1 : s.ix.half1.base.isSome = true) (st : Nat) : s.openFor st = s := by
  have h0' : s.ix.half0.base.isNone = false := by rw [← Option.not_isSome, h0]; rfl
  have h1' : s.ix.half1.base.isNone = false := by rw [← Option.not_isSome, h1]; rfl
  rw [State.openFor, h0', h1']
  split <;> rfl

/-- The spectra from the next base on, `n` of them, discarded one by one. -/
def State.dropMany (s : State) (n : Nat) : State := (List.range n).foldl (fun t _ => t.dropSpec) s

theorem dropMany_succ (s : State) (n : Nat) : s.dropMany (n + 1) = (s.dropMany n).dropSpec := by
  rw [State.dropMany, List.range_succ, List.foldl_append, ← State.dropMany, List.foldl_cons, List.foldl_nil]

theorem stageRoom_full (h0 : s.ix.half0.base.isSome = true) (h1 : s.ix.half1.base.isSome = true) {n : Nat} (hst : st = s.ix.nextBase + 8192 * n)
    (ht : (s.stCfg s.ix.nextBase).t ≠ 0) : s.stageRoom st = s.dropMany (n + 1) := by
  have hroom : ¬ (st < s.ix.nextBase ∨ (s.stCfg s.ix.nextBase).t = 0) := not_or.2 ⟨by omega, ht⟩
  have hn : (st - s.ix.nextBase) / 8192 + 1 = n + 1 := by omega
  rw [State.stageRoom, openFor_full h0 h1, openFor_full h0 h1, if_neg hroom, hn, State.dropMany]

/-- Counting a discarded spectrum changes the banks alone. -/
theorem countDrop_eq (s : State) (st : Nat) :
    s.countDrop st = { s with ix := { s.ix with bankA := (s.countDrop st).ix.bankA, bankB := (s.countDrop st).ix.bankB } } := by
  unfold State.countDrop
  split
  · exact State.setBank_eq _ _ _
  · rfl

theorem State.reg_withIx (s : State) (x : IxSt) (o : Nat) : ({ s with ix := x } : State).reg o = s.reg o := rfl

@[simp] theorem reg_countDrop (s : State) (st o : Nat) : (s.countDrop st).reg o = s.reg o := by
  rw [countDrop_eq]
  exact State.reg_withIx _ _ _

theorem countDrop_bank {b : Bool} (h : s.bankAt st = some b) :
    (s.countDrop st).bank b = { s.bank b with stageDrops := (s.bank b).stageDrops + 1 } := by
  rw [State.countDrop, h]
  exact State.bank_setBank_same _ _ _

/-- The discarded spectrum counted and signalled, before its integration counts it. -/
def State.dropShown (s : State) : State := (s.dropNext.bump IX_STAGE_DROPS).seen IX_STAT IX_STAT_DROP_SEEN evIndigo

theorem dropSpec_eq (s : State) : s.dropSpec = s.dropShown.countDrop s.ix.nextBase := by rw [State.dropSpec, State.dropShown]

theorem dropShown_ix (s : State) : s.dropShown.ix = s.dropNext.ix := by rw [State.dropShown, State.seen_ix, State.bump_ix]

theorem dropNext_ix (s : State) : ∃ ds, s.dropNext.ix = { s.ix with drops := s.ix.nextBase :: ds, nextBase := s.ix.nextBase + 8192 } := by
  rw [State.dropNext]
  exact ⟨_, Eq.refl _⟩

theorem countDrop_ix (s : State) (st : Nat) : ∃ a b, (s.countDrop st).ix = { s.ix with bankA := a, bankB := b } := by
  rw [countDrop_eq]
  exact ⟨_, _, Eq.refl _⟩

/-- Staging once the spectrum at the next base is discarded: the banks' counts apart, the next base moves on. -/
theorem dropSpec_ix (s : State) : ∃ a b ds, s.dropSpec.ix =
    { s.ix with bankA := a, bankB := b, drops := s.ix.nextBase :: ds, nextBase := s.ix.nextBase + 8192 } := by
  obtain ⟨ds, hds⟩ := dropNext_ix s
  obtain ⟨a, b, hab⟩ := countDrop_ix s.dropShown s.ix.nextBase
  exact ⟨a, b, ds, by rw [dropSpec_eq, hab, dropShown_ix, hds]⟩

theorem reg_dropNext (s : State) (o : Nat) : s.dropNext.reg o = s.reg o := State.reg_withIx _ _ _

/-- What discarding a spectrum shows: its count, DROP_SEEN and the correlator's interrupt bit. -/
theorem dropSpec_shows (s : State) : s.dropSpec.flag IX_STAT IX_STAT_DROP_SEEN = true ∧ s.dropSpec.rfb EV_INT_STAT EV_INT_STAT_PEND evIndigo = true ∧
    s.dropSpec.reg IX_STAGE_DROPS = w32 (min (2 ^ 32 - 1) ((s.reg IX_STAGE_DROPS).toNat + 1)) := by
  have hreg (o : Nat) : s.dropSpec.reg o = s.dropShown.reg o := by rw [dropSpec_eq, reg_countDrop]
  refine ⟨(State.flag_of_reg (hreg _) _).trans (State.flag_seen_same _ _ _ _ (by decide) (by unfold intReg; decide) (by decide) (by decide)),
    (State.rfb_of_reg (hreg _) _ _).trans (State.rfb_seen_raised _ _ _ (by decide)), ?_⟩
  rw [hreg, State.dropShown, State.reg_seen _ _ _ _ (by decide) (by unfold intReg; decide) (by decide), State.reg_bump_same, reg_dropNext]

/-- `t` is `s` once `n` spectra from the next base on have been discarded. -/
structure Dropped (n : Nat) (s t : State) : Prop where
  half0 : t.ix.half0 = s.ix.half0
  half1 : t.ix.half1 = s.ix.half1
  next : t.ix.nextBase = s.ix.nextBase + 8192 * n
  count : t.reg IX_STAGE_DROPS = w32 (min (2 ^ 32 - 1) ((s.reg IX_STAGE_DROPS).toNat + n))

theorem Dropped.dropSpec {n : Nat} {u : State} (h : Dropped n s u) : Dropped (n + 1) s u.dropSpec := by
  obtain ⟨a, b, ds, hix⟩ := dropSpec_ix u
  obtain ⟨-, -, hcount⟩ := dropSpec_shows u
  refine ⟨by rw [hix, ← h.half0], by rw [hix, ← h.half1], by rw [hix, Nat.mul_succ, ← Nat.add_assoc, ← h.next], ?_⟩
  have hr := (s.reg IX_STAGE_DROPS).isLt
  rw [hcount, h.count, w32, w32, w32, BitVec.toNat_ofNat]
  congr 1
  omega

theorem dropped_dropMany (s : State) (n : Nat) : Dropped n s (s.dropMany n) := by
  induction n with
  | zero =>
    have hr := (s.reg IX_STAGE_DROPS).isLt
    refine ⟨rfl, rfl, rfl, ?_⟩
    rw [Nat.add_zero, min_eq_right (by omega), w32, BitVec.ofNat_toNat, BitVec.setWidth_eq]
    rfl
  | succ n ih => rw [dropMany_succ]; exact ih.dropSpec

theorem stageUpd_none (f : Half → StSpec → StSpec) (h : (s.stageRoom st).halfOf st = none) : s.stageUpd st f = s.stageRoom st := by
  rw [State.stageUpd, h]

theorem dropSpec_drops (s : State) : s.dropSpec.ix.drops.head? = some s.ix.nextBase := by
  obtain ⟨a, b, ds, hix⟩ := dropSpec_ix s
  rw [hix]
  exact List.head?_cons

/-- The integration that a discarded spectrum belongs to counts it. -/
theorem dropSpec_stageDrops {b : Bool} (h : s.bankAt s.ix.nextBase = some b) : (s.dropSpec.bank b).stageDrops = (s.bank b).stageDrops + 1 := by
  obtain ⟨ds, hds⟩ := dropNext_ix s
  have hix : s.dropShown.ix = { s.ix with drops := s.ix.nextBase :: ds, nextBase := s.ix.nextBase + 8192 } := (dropShown_ix s).trans hds
  have hat : s.dropShown.bankAt s.ix.nextBase = some b := (State.bankAt_of_banks (by rw [hix]) (by rw [hix]) _).trans h
  have hbank : s.dropShown.bank b = s.bank b := by rw [State.bank, State.bank, hix]
  rw [dropSpec_eq, countDrop_bank hat, hbank]

/-- A fill of a spectrum that finds both halves taken is discarded, with the run of spectra before it. -/
theorem stageFill_dropped {f : Fill} {n : Nat} (hh : s.halfOf f.st = none) (h0 : s.ix.half0.base.isSome = true) (h1 : s.ix.half1.base.isSome = true)
    (hst : f.st = s.ix.nextBase + 8192 * n) (ht : (s.stCfg s.ix.nextBase).t ≠ 0) : s.stageFill f = (s.dropMany n).dropSpec := by
  have hroom := stageRoom_full h0 h1 hst ht
  obtain ⟨k0, k1, -, -⟩ := dropped_dropMany s (n + 1)
  have hnone : (s.stageRoom f.st).halfOf f.st = none := by rw [hroom, State.halfOf_of_halves k0 k1, hh]
  rw [stageFill_eq, stageUpd_none _ hnone, hroom, dropMany_succ]

theorem stageFill_drops {f : Fill} {n : Nat} (hh : s.halfOf f.st = none) (h0 : s.ix.half0.base.isSome = true) (h1 : s.ix.half1.base.isSome = true)
    (hst : f.st = s.ix.nextBase + 8192 * n) (ht : (s.stCfg s.ix.nextBase).t ≠ 0) :
    let t := s.stageFill f
    t.ix.half0 = s.ix.half0 ∧ t.ix.half1 = s.ix.half1 ∧ t.ix.drops.head? = some f.st ∧ t.ix.nextBase = f.st + 8192 ∧
      t.reg IX_STAGE_DROPS = w32 (min (2 ^ 32 - 1) ((s.reg IX_STAGE_DROPS).toNat + n + 1)) ∧
      t.flag IX_STAT IX_STAT_DROP_SEEN = true ∧ t.rfb EV_INT_STAT EV_INT_STAT_PEND evIndigo = true ∧
      ∀ b, n = 0 → s.bankAt f.st = some b → (t.bank b).stageDrops = (s.bank b).stageDrops + 1 := by
  intro t
  have heq : t = (s.dropMany n).dropSpec := stageFill_dropped hh h0 h1 hst ht
  obtain ⟨-, -, knext, -⟩ := dropped_dropMany s n
  obtain ⟨k0, k1, k2, k3⟩ := (dropped_dropMany s n).dropSpec
  obtain ⟨hseen, hint, -⟩ := dropSpec_shows (s.dropMany n)
  rw [heq]
  refine ⟨k0, k1, ?_, ?_, k3, hseen, hint, ?_⟩
  · rw [dropSpec_drops, knext, hst]
  · rw [k2, hst, Nat.mul_succ, Nat.add_assoc]
  · rintro b rfl hb
    rw [hst] at hb
    exact dropSpec_stageDrops hb

end Sys2Proof.Machine
end

-- ==== Indigo passes: starting ====
section

namespace Sys2Proof.Machine

variable {s t u : State} {d : Nat}

/-! ### What counting and signalling change -/

/-- `t` is `s` but for registers, what the present cycle notes of them, and outputs. -/
def RegsMoved (s t : State) : Prop := ∃ r f o, t = { s with regs := r, fresh := f, out := o }

theorem RegsMoved.trans (h : RegsMoved s t) (h' : RegsMoved t u) : RegsMoved s u := by
  obtain ⟨r, f, o, rfl⟩ := h
  obtain ⟨r', f', o', rfl⟩ := h'
  exact ⟨r', f', o', Eq.refl _⟩

theorem RegsMoved.eq (h : RegsMoved s t) : t = { s with regs := t.regs, fresh := t.fresh, out := t.out } := by
  obtain ⟨r, f, o, rfl⟩ := h
  exact Eq.refl _

theorem RegsMoved.ix (h : RegsMoved s t) : t.ix = s.ix := by
  obtain ⟨r, f, o, rfl⟩ := h
  exact Eq.refl _

theorem regsMoved_setReg (s : State) (a : Nat) (w : Word) : RegsMoved s (s.setReg a w) := ⟨_, _, _, Eq.refl _⟩

theorem regsMoved_setF (s : State) (a : Nat) (f : Fld) (v : Nat) : RegsMoved s (s.setF a f v) := ⟨_, _, _, Eq.refl _⟩

theorem regsMoved_bump (s : State) (a : Nat) : RegsMoved s (s.bump a) := ⟨_, _, _, Eq.refl _⟩

theorem regsMoved_setSeenB (s : State) (a : Nat) (f : Fld) (i : Nat) : RegsMoved s (s.setSeenB a f i) := ⟨_, _, _, Eq.refl _⟩

theorem regsMoved_signal (s : State) (v : Nat) : RegsMoved s (s.signal v) := by
  unfold State.signal
  split
  · exact regsMoved_setF _ _ _ _
  · exact ⟨_, _, _, Eq.refl _⟩

theorem regsMoved_raise (s : State) (i : Nat) : RegsMoved s (s.raise i) := by
  unfold State.raise
  extract_lets was u
  split
  · exact (regsMoved_setSeenB _ _ _ _).trans (regsMoved_signal _ _)
  · exact regsMoved_setSeenB _ _ _ _

theorem regsMoved_seen (s : State) (a : Nat) (f : Fld) (i : Nat) : RegsMoved s (s.seen a f i) := by
  have hset : RegsMoved s (s.setSeen a f 1) := ⟨_, _, _, Eq.refl _⟩
  exact hset.trans (regsMoved_raise _ _)

/-! ### Which half a pass takes (R177) -/

theorem oldestHalf_none {f : Half → Bool} (h0 : f s.ix.half0 = false) (h1 : f s.ix.half1 = false) : s.oldestHalf f = none := by
  rw [State.oldestHalf, h0, h1]

theorem oldestHalf_first {f : Half → Bool} (h0 : f s.ix.half0 = true) (h1 : f s.ix.half1 = false) : s.oldestHalf f = some false := by
  rw [State.oldestHalf, h0, h1]

/-- A half is complete and waits for a die's pass. -/
def Half.ready (d : Nat) (h : Half) : Bool := h.full && h.pass d == .waiting

theorem Half.ready_iff (d : Nat) (h : Half) : h.ready d = true ↔ h.full = true ∧ h.pass d = .waiting := by
  rw [Half.ready, Bool.and_eq_true, beq_iff_eq]

theorem Half.pass_setPass (h : Half) (d : Nat) (p : PassSt) (m : Nat) : (h.setPass d p m).pass d = p := by
  unfold Half.setPass Half.pass
  split <;> rfl

theorem Half.shedOf_setPass (h : Half) (d : Nat) (p : PassSt) (m : Nat) : (h.setPass d p m).shedOf d = m := by
  unfold Half.setPass Half.shedOf
  split <;> rfl

/-! ### What a die sheds (R190, R191) -/

/-- The least priority from which on a die's capacity holds the work, 3 where none does. -/
def State.fitsFrom (s : State) (d : Nat) (h : Half) : Nat := ((List.range 3).find? fun q => s.fits d q h).getD 3

/-- Some region of a priority has bins on a die. -/
def State.sheds (s : State) (d : Nat) (h : Half) (q : Nat) : Bool :=
  (s.halfRegions h).any fun r => r.prio == q && !(binsOn h.first h.count d r).isEmpty

theorem sheds_iff (s : State) (d : Nat) (h : Half) (q : Nat) :
    s.sheds d h q = true ↔ ∃ r ∈ s.halfRegions h, r.prio = q ∧ binsOn h.first h.count d r ≠ [] := by
  unfold State.sheds
  simp

theorem shedMask_eq (s : State) (d : Nat) (h : Half) :
    s.shedMask d h = (((List.range (s.fitsFrom d h)).filter (s.sheds d h)).map (2 ^ ·)).sum := by
  rw [State.shedMask]
  rfl

theorem fitsFrom_eq {h : Half} {p : Nat} (hp : p ≤ 3) (hlow : ∀ q < p, s.fits d q h = false) (hfit : p = 3 ∨ s.fits d p h = true) :
    s.fitsFrom d h = p := by
  unfold State.fitsFrom
  rcases hfit with rfl | hfit
  · rw [List.find?_eq_none.2 fun q hq => Bool.eq_false_iff.1 (hlow q (List.mem_range.1 hq))]
    rfl
  · by_cases h3 : p = 3
    · subst h3
      rw [List.find?_eq_none.2 fun q hq => Bool.eq_false_iff.1 (hlow q (List.mem_range.1 hq))]
      rfl
    · have hfind : (List.range 3).find? (fun q => s.fits d q h) = some p :=
        List.find?_range_eq_some.2 ⟨hfit, List.mem_range.2 (by omega), fun q hq => by rw [hlow q hq]; rfl⟩
      rw [hfind]
      rfl

/-- A die sheds the priorities below the least whose work fits, of those that its regions have. -/
theorem bit_shedMask {h : Half} {p : Nat} (hp : p ≤ 3) (hlow : ∀ q < p, s.fits d q h = false) (hfit : p = 3 ∨ s.fits d p h = true) (q : Nat) :
    bit (s.shedMask d h) q = true ↔ q < p ∧ ∃ r ∈ s.halfRegions h, r.prio = q ∧ binsOn h.first h.count d r ≠ [] := by
  have hsorted : ((List.range p).filter (s.sheds d h)).SortedLT := ((List.pairwise_lt_range (n := p)).sublist List.filter_sublist).sortedLT
  rw [shedMask_eq, fitsFrom_eq hp hlow hfit, bit_sum_two_pow hsorted, List.mem_filter, List.mem_range, sheds_iff]

theorem fitsFrom_le (s : State) (d : Nat) (h : Half) : s.fitsFrom d h ≤ 3 := by
  unfold State.fitsFrom
  cases hf : (List.range 3).find? fun q => s.fits d q h with
  | none => exact le_refl 3
  | some q => exact (List.mem_range.1 (List.mem_of_find?_eq_some hf)).le

theorem shedMask_lt (s : State) (d : Nat) (h : Half) : s.shedMask d h < 2 ^ 3 := by
  have hsorted : ((List.range (s.fitsFrom d h)).filter (s.sheds d h)).SortedLT := (List.pairwise_lt_range.sublist List.filter_sublist).sortedLT
  refine Nat.lt_pow_two_of_testBit _ fun q hq => Bool.eq_false_iff.2 fun hbit => ?_
  rw [← bit_eq_testBit, shedMask_eq, bit_sum_two_pow hsorted, List.mem_filter, List.mem_range] at hbit
  have hle := fitsFrom_le s d h
  omega

/-! ### A pass starts (R177, R190, R191) -/

/-- The field of IX_SHED for a die. -/
def shedFld (d : Nat) : Fld := if d = 0 then IX_SHED_DIE0 else IX_SHED_DIE1

theorem shedFld_width (d : Nat) : (shedFld d).w = 4 := by
  unfold shedFld
  split <;> rfl

theorem shedFld_fits (d : Nat) : (shedFld d).lo + (shedFld d).w ≤ 32 := by
  unfold shedFld
  split <;> decide

/-- The pass of a die over a half stands as busy, and IX_SHED names what it sheds. -/
def State.passBegun (s : State) (d : Nat) (b : Bool) : State :=
  (s.setHalf b ((s.half b).setPass d .busy (s.shedMask d (s.half b)))).setF IX_SHED (shedFld d) (s.shedMask d (s.half b))

/-- A shedding pass is counted and signalled. -/
def State.shedShown (s : State) (m : Nat) : State := if m = 0 then s else (s.bump IX_SHED_PASSES).seen IX_STAT IX_STAT_SHED_SEEN evIndigo

theorem exec_indigoPassStart (s : State) (d : Nat) : exec (.indigoPassStart d) s = execIndigoPassStart d s := (rfl)

/-- A die on which no pass is busy may start one. -/
theorem passStart_guard (hd : d < 2) (hcomp : s.pw.compOn = true) (h0 : s.ix.half0.pass d ≠ .busy) (h1 : s.ix.half1.pass d ≠ .busy) :
    ¬ (!s.pw.compOn || decide (1 < d) || s.ix.half0.pass d == .busy || s.ix.half1.pass d == .busy) = true := by
  rw [hcomp, beq_eq_false_iff_ne.2 h0, beq_eq_false_iff_ne.2 h1, decide_eq_false (by omega)]
  decide

theorem indigoPassStart_none (hon : s.on = true) (hd : d < 2) (hcomp : s.pw.compOn = true) (h0 : s.ix.half0.pass d ≠ .busy)
    (h1 : s.ix.half1.pass d ≠ .busy) (hnone : s.oldestHalf (Half.ready d) = none) : exec (.indigoPassStart d) s = .next s := by
  have hnone' : (s.oldestHalf fun h => h.full && h.pass d == .waiting) = none := hnone
  rw [exec_indigoPassStart, execIndigoPassStart, whenOn_on hon, if_neg (passStart_guard hd hcomp h0 h1), hnone']

theorem indigoPassStart_some (hon : s.on = true) (hd : d < 2) (hcomp : s.pw.compOn = true) (h0 : s.ix.half0.pass d ≠ .busy)
    (h1 : s.ix.half1.pass d ≠ .busy) {b : Bool} (hsome : s.oldestHalf (Half.ready d) = some b) :
    exec (.indigoPassStart d) s = .next ((s.passBegun d b).shedShown (s.shedMask d (s.half b))) := by
  have hsome' : (s.oldestHalf fun h => h.full && h.pass d == .waiting) = some b := hsome
  rw [exec_indigoPassStart, execIndigoPassStart, whenOn_on hon, if_neg (passStart_guard hd hcomp h0 h1), hsome']
  rfl

theorem regsMoved_shedShown (s : State) (m : Nat) : RegsMoved s (s.shedShown m) := by
  unfold State.shedShown
  split
  · exact ⟨_, _, _, Eq.refl _⟩
  · exact (regsMoved_bump _ _).trans (regsMoved_seen _ _ _ _)

theorem reg_shedShown (s : State) (m : Nat) {o : Nat} (hint : ¬ intReg o) (hp : o ≠ IX_SHED_PASSES) (hs : o ≠ IX_STAT) :
    (s.shedShown m).reg o = s.reg o := by
  unfold State.shedShown
  split
  · rfl
  · rw [State.reg_seen _ _ _ _ (by decide) hint hs, State.reg_bump_ne _ hp]

/-- What a shedding pass shows: its count and SHED_SEEN. -/
theorem shedShown_shows (s : State) {m : Nat} (hm : m ≠ 0) :
    (s.shedShown m).reg IX_SHED_PASSES = w32 (min (2 ^ 32 - 1) ((s.reg IX_SHED_PASSES).toNat + 1)) ∧
      (s.shedShown m).flag IX_STAT IX_STAT_SHED_SEEN = true := by
  rw [State.shedShown, if_neg hm]
  exact ⟨(State.reg_seen _ _ _ _ (by decide) (by unfold intReg; decide) (by decide)).trans (State.reg_bump_same _ _),
    State.flag_seen_same _ _ _ _ (by decide) (by unfold intReg; decide) (by decide) (by decide)⟩

theorem reg_passBegun (s : State) (d : Nat) (b : Bool) {o : Nat} (h : o ≠ IX_SHED) : (s.passBegun d b).reg o = s.reg o := by
  rw [State.passBegun, State.reg_setF_ne _ _ _ h, State.reg_setHalf]

theorem rf_passBegun (s : State) (d : Nat) (b : Bool) : (s.passBegun d b).rf IX_SHED (shedFld d) = s.shedMask d (s.half b) := by
  have hlt := shedMask_lt s d (s.half b)
  rw [State.passBegun, State.rf_setF_same _ _ _ _ (shedFld_fits d), shedFld_width, Nat.mod_eq_of_lt (by omega)]

theorem indigoPassStart_first (hon : s.on = true) (hd : d < 2) (hcomp : s.pw.compOn = true) (h0 : s.ix.half0.pass d ≠ .busy)
    (h1 : s.ix.half1.pass d ≠ .busy) (hr0 : s.ix.half0.ready d = true) (hr1 : s.ix.half1.ready d = false) :
    ∃ t, exec (.indigoPassStart d) s = .next t ∧ t.ix.half0.pass d = .busy ∧ t.ix.half1 = s.ix.half1 ∧
      t = { s with regs := t.regs, fresh := t.fresh, out := t.out, ix := { s.ix with half0 := t.ix.half0 } } ∧
      t.rf IX_SHED (shedFld d) = t.ix.half0.shedOf d ∧ t.ix.half0.shedOf d = s.shedMask d s.ix.half0 ∧
      (t.ix.half0.shedOf d = 0 → t.reg IX_SHED_PASSES = s.reg IX_SHED_PASSES ∧ t.reg IX_STAT = s.reg IX_STAT) ∧
      (t.ix.half0.shedOf d ≠ 0 → t.reg IX_SHED_PASSES = w32 (min (2 ^ 32 - 1) ((s.reg IX_SHED_PASSES).toNat + 1)) ∧
        t.flag IX_STAT IX_STAT_SHED_SEEN = true) := by
  have hexec := indigoPassStart_some hon hd hcomp h0 h1 (oldestHalf_first hr0 hr1)
  have hhalf : s.half false = s.ix.half0 := (rfl)
  rw [hhalf] at hexec
  have hrf := rf_passBegun s d false
  rw [hhalf] at hrf
  have hregs : RegsMoved (s.setHalf false (s.ix.half0.setPass d .busy (s.shedMask d s.ix.half0)))
      ((s.passBegun d false).shedShown (s.shedMask d s.ix.half0)) := (regsMoved_setF _ _ _ _).trans (regsMoved_shedShown _ _)
  have hpasses := reg_passBegun s d false (o := IX_SHED_PASSES) (by decide)
  have hstat := reg_passBegun s d false (o := IX_STAT) (by decide)
  generalize s.shedMask d s.ix.half0 = m at *
  generalize s.passBegun d false = v at *
  have hix := hregs.ix
  have hshed : (v.shedShown m).ix.half0.shedOf d = m := by rw [hix]; exact Half.shedOf_setPass _ _ _ _
  refine ⟨_, hexec, ?_, ?_, ?_, ?_, hshed, ?_, ?_⟩
  · rw [hix]
    exact Half.pass_setPass _ _ _ _
  · rw [hix]
    rfl
  · obtain ⟨r, f, o, heq⟩ := hregs
    rw [heq]
    rfl
  · rw [hshed, ← hrf]
    exact State.rf_of_reg (reg_shedShown _ _ (by unfold intReg; decide) (by decide) (by decide)) _
  · rw [hshed]
    rintro rfl
    exact ⟨hpasses, hstat⟩
  · rw [hshed]
    intro hm
    obtain ⟨hcount, hflag⟩ := shedShown_shows v hm
    exact ⟨by rw [hcount, hpasses], hflag⟩

end Sys2Proof.Machine
end

-- ==== Indigo passes: the sums ====
section

namespace Sys2Proof.Machine

variable {s t u : State} {b : Bool} {d : Nat}

/-! ### Additions to the entries of a bank (R173, R188) -/

/-- A complex sum added to an entry of a bank's VAT. -/
def vatPlus (v : Tbl Int) (e : Nat) (z : Int × Int) : Tbl Int :=
  tblSet 0 (tblSet 0 v (2 * e) (satAddC (tblGet 0 v (2 * e)) z.1).1) (2 * e + 1) (satAddC (tblGet 0 v (2 * e + 1)) z.2).1

theorem vatPlus_same (v : Tbl Int) (e : Nat) (z : Int × Int) :
    tblGet 0 (vatPlus v e z) (2 * e) = (satAddC (tblGet 0 v (2 * e)) z.1).1 ∧
      tblGet 0 (vatPlus v e z) (2 * e + 1) = (satAddC (tblGet 0 v (2 * e + 1)) z.2).1 :=
  ⟨(tblGet_set_ne _ _ _ (by omega)).trans (tblGet_set_same _ _ _ _), tblGet_set_same _ _ _ _⟩

theorem vatPlus_other (v : Tbl Int) {e k : Nat} (z : Int × Int) (h : k / 2 ≠ e) : tblGet 0 (vatPlus v e z) k = tblGet 0 v k :=
  (tblGet_set_ne _ _ _ (by omega)).trans (tblGet_set_ne _ _ _ (by omega))

/-- A sum added to a spectrometer entry. -/
def specPlus (v : Tbl Int) (i : Nat) (z : Int) : Tbl Int := tblSet 0 v i (satAddC (tblGet 0 v i) z).1

/-- `t` is `s` while a pass adds to bank `b`, which holds the entries `vat` and `spec`. -/
structure Adding (b : Bool) (s t : State) (vat spec : Tbl Int) : Prop where
  frame : ∃ r f o x y, t = { s with regs := r, fresh := f, out := o, ix := { s.ix with bankA := x, bankB := y } }
  other : t.bank (!b) = s.bank (!b)
  bank : ∃ sat tiles, t.bank b = { s.bank b with vat := vat, spec := spec, sat := sat, tiles := tiles }
  woad : t.reg WD_CTL = s.reg WD_CTL

variable {vat spec : Tbl Int}

theorem Adding.start (b : Bool) (s : State) : Adding b s s (s.bank b).vat (s.bank b).spec :=
  ⟨⟨_, _, _, _, _, Eq.refl _⟩, rfl, ⟨_, _, Eq.refl _⟩, rfl⟩

theorem Adding.regs (h : Adding b s t vat spec) (hr : RegsMoved t u) (hw : u.reg WD_CTL = t.reg WD_CTL) : Adding b s u vat spec := by
  have hix := hr.ix
  obtain ⟨⟨r, f, o, x, y, hf⟩, hother, ⟨sat, tiles, hbank⟩, hwoad⟩ := h
  refine ⟨?_, (State.bank_of_ix hix _).trans hother, ⟨sat, tiles, (State.bank_of_ix hix _).trans hbank⟩, hw.trans hwoad⟩
  obtain ⟨r', f', o', rfl⟩ := hr
  rw [hf]
  exact ⟨r', f', o', x, y, Eq.refl _⟩

theorem Adding.setBank (h : Adding b s t vat spec) {x : Bank} {vat' spec' : Tbl Int}
    (hx : ∃ sat tiles, x = { t.bank b with vat := vat', spec := spec', sat := sat, tiles := tiles }) : Adding b s (t.setBank b x) vat' spec' := by
  obtain ⟨⟨r, f, o, y, z, hf⟩, hother, ⟨sat, tiles, hbank⟩, hwoad⟩ := h
  obtain ⟨sat', tiles', rfl⟩ := hx
  refine ⟨?_, by rw [State.bank_setBank_not, hother], ⟨sat', tiles', by rw [State.bank_setBank_same, hbank]⟩, by rw [State.reg_setBank, hwoad]⟩
  rw [State.setBank_eq]
  generalize (t.setBank b _).ix.bankA = p
  generalize (t.setBank b _).ix.bankB = q
  rw [hf]
  exact ⟨r, f, o, p, q, Eq.refl _⟩

theorem woad_ne_tileSat {tile : Nat} (h : tile < 1024) : WD_CTL ≠ IX_TILE_SAT (tile / 32) := by
  unfold IX_TILE_SAT WD_CTL
  omega

theorem Adding.saturate (h : Adding b s t vat spec) (e : Nat) {tile : Nat} (ht : tile < 1024) : Adding b s (t.saturate b e tile) vat spec := by
  unfold State.saturate
  extract_lets x again s1 s2
  have hbank := h.bank
  have h1 : Adding b s s1 vat spec := h.setBank (by
    obtain ⟨sat, tiles, heq⟩ := hbank
    unfold x
    rw [heq]
    exact ⟨_, _, Eq.refl _⟩)
  have h2 : Adding b s s2 vat spec := h1.regs ((regsMoved_setSeenB _ _ _ _).trans (regsMoved_seen _ _ _ _)) (by
    unfold s2
    rw [State.reg_seen _ _ _ _ (by decide) (by unfold intReg; decide) (by decide)]
    exact State.reg_setF_ne _ _ _ (woad_ne_tileSat ht))
  split
  · exact h2
  · exact h2.regs (regsMoved_bump _ _) (State.reg_bump_ne _ (by decide))

theorem Adding.vatAdd (h : Adding b s t vat spec) (e : Nat) {tile : Nat} (ht : tile < 1024) (z : Int × Int) :
    Adding b s (t.vatAdd b e tile z) (vatPlus vat e z) spec := by
  obtain ⟨sat, tiles, hbank⟩ := h.bank
  unfold State.vatAdd
  extract_lets x re im s1
  have h1 : Adding b s s1 (vatPlus vat e z) spec := h.setBank ⟨sat, tiles, by
    unfold re im x
    rw [hbank]
    rfl⟩
  split
  · exact h1.saturate _ ht
  · exact h1

theorem Adding.specAdd (h : Adding b s t vat spec) (i : Nat) {tile : Nat} (ht : tile < 1024) (z : Int) :
    Adding b s (t.specAdd b i tile z) vat (specPlus spec i z) := by
  obtain ⟨sat, tiles, hbank⟩ := h.bank
  unfold State.specAdd
  extract_lets x r s1
  have h1 : Adding b s s1 vat (specPlus spec i z) := h.setBank ⟨sat, tiles, by
    unfold r x
    rw [hbank]
    rfl⟩
  split
  · exact h1.saturate _ ht
  · exact h1

/-! ### What the groups of a die add (R173, R179, R191) -/

/-- The block pair of a group, as pairs of paths. -/
def Group.pairs (g : Group) : List (Nat × Nat) := (List.range 16).flatMap fun y => (List.range 16).map fun x => (16 * g.m + x, 16 * g.n + y)

/-- A region holds the baseline of a pair of paths. -/
def Region.holds (rg : Region) (q : Nat × Nat) : Bool :=
  decide (q.1 < q.2 ∧ rg.bFirst ≤ baseline q.1 q.2 ∧ baseline q.1 q.2 < rg.bFirst + rg.bCount)

/-- The VAT entry of a region's bin for a pair of paths. -/
def vatEntry (rs : List Region) (r : Nat) (rg : Region) (n : Nat) (q : Nat × Nat) : Nat :=
  vatBase rs r + (baseline q.1 q.2 - rg.bFirst) * rg.nBins + n

/-- What a group adds to the VAT: entries and sums. -/
def groupTerms (rs : List Region) (h : Half) (d : Nat) (g : Group) : List (Nat × (Int × Int)) :=
  match g.region with
  | none => []
  | some r =>
    match rs[r]? with
    | none => []
    | some rg =>
      if bit (h.shedOf d) rg.prio then []
      else (g.pairs.filter rg.holds).map fun q => (vatEntry rs r rg g.bin q, crossSum h.specs q.1 q.2 g.ch g.width)

/-- Entries and sums added to a VAT, one after another. -/
def vatPlusAll (v : Tbl Int) (l : List (Nat × (Int × Int))) : Tbl Int := l.foldl (fun v z => vatPlus v z.1 z.2) v

theorem groupTerms_none {rs : List Region} {h : Half} {g : Group} (hg : g.region = none) : groupTerms rs h d g = [] := by
  rw [groupTerms, hg]

theorem groupTerms_some {rs : List Region} {h : Half} {g : Group} {r : Nat} {rg : Region} (hg : g.region = some r) (hr : rs[r]? = some rg) :
    groupTerms rs h d g = if bit (h.shedOf d) rg.prio then []
      else (g.pairs.filter rg.holds).map fun q => (vatEntry rs r rg g.bin q, crossSum h.specs q.1 q.2 g.ch g.width) := by
  simp only [groupTerms, hg, hr]

theorem Adding.regions (h : Adding b s t vat spec) : (t.bank b).regions = (s.bank b).regions := by
  obtain ⟨sat, tiles, hbank⟩ := h.bank
  rw [hbank]

theorem Adding.vatAddAll {α : Type} {tile : Nat} (ht : tile < 1024) (e : α → Nat) (z : α → Int × Int) (l : List α) :
    ∀ {t : State} {vat : Tbl Int}, Adding b s t vat spec →
      Adding b s (l.foldl (fun u q => u.vatAdd b (e q) tile (z q)) t) (vatPlusAll vat (l.map fun q => (e q, z q))) spec := by
  induction l with
  | nil => exact fun h => h
  | cons q l ih => exact fun h => ih (h.vatAdd (e q) ht (z q))

theorem Adding.groupAdd (ha : Adding b s t vat spec) (h : Half) (d : Nat) (g : Group) {tile : Nat} (ht : tile < 1024) :
    Adding b s (t.groupAdd b h d g tile) (vatPlusAll vat (groupTerms (s.bank b).regions h d g)) spec := by
  rw [← ha.regions]
  unfold State.groupAdd
  extract_lets bank pairs s1
  unfold s1
  cases hg : g.region with
  | none =>
    rw [groupTerms_none hg]
    exact ha
  | some r =>
    cases hr : (t.bank b).regions[r]? with
    | none =>
      have hnil : groupTerms (t.bank b).regions h d g = [] := by simp only [groupTerms, hg, hr]
      have hr' : bank.regions[r]? = none := hr
      rw [hnil]
      simp only [hr']
      exact ha
    | some rg =>
      have hr' : bank.regions[r]? = some rg := hr
      rw [groupTerms_some hg hr]
      simp only [hr']
      split
      · exact ha
      · have hadd := Adding.vatAddAll ht (vatEntry bank.regions r rg g.bin) (fun q => crossSum h.specs q.1 q.2 g.ch g.width) (g.pairs.filter rg.holds) ha
        rw [List.foldl_filter] at hadd
        simp only [Region.holds, decide_eq_true_eq] at hadd
        exact hadd

/-- What a list of groups, with their tiles, adds. -/
theorem Adding.groupAddAll (h : Half) (d : Nat) {f : Nat → Nat} (hf : ∀ i, f i < 1024) (gs : List (Group × Nat)) :
    ∀ {t : State} {vat : Tbl Int}, Adding b s t vat spec →
      Adding b s (gs.foldl (fun u g => u.groupAdd b h d g.1 (f g.2)) t)
        (vatPlusAll vat ((gs.map Prod.fst).flatMap (groupTerms (s.bank b).regions h d))) spec := by
  induction gs with
  | nil => exact fun h => h
  | cons g gs ih =>
    intro t vat ha
    have hnext := ih (ha.groupAdd h d g.1 (hf g.2))
    rw [List.map_cons, List.flatMap_cons, vatPlusAll, List.foldl_append]
    exact hnext

/-! ### What the spectrometer adds (R183) -/

/-- Entries and sums added to a spectrometer, one after another. -/
def specPlusAll (v : Tbl Int) (l : List (Nat × Int)) : Tbl Int := l.foldl (fun v z => specPlus v z.1 z.2) v

theorem Adding.specAddAll {α : Type} (i : α → Nat) {tile : α → Nat} (ht : ∀ q, tile q < 1024) (z : α → Int) (l : List α) :
    ∀ {t : State} {spec : Tbl Int}, Adding b s t vat spec →
      Adding b s (l.foldl (fun u q => u.specAdd b (i q) (tile q) (z q)) t) vat (specPlusAll spec (l.map fun q => (i q, z q))) := by
  induction l with
  | nil => exact fun h => h
  | cons q l ih => exact fun h => ih (h.specAdd (i q) (ht q) (z q))

/-- The sums that a half brings to the spectrometer entries of a path. -/
def specTerms (h : Half) (cs : List Nat) (p : Nat) : List (Nat × Int) := cs.map fun c => (p * h.count + (c - h.first), autoSum h.specs p c)

theorem Adding.specPaths (h : Half) (cs : List Nat) {tile : Nat → Nat → Nat} (ht : ∀ p c, tile p c < 1024) (ps : List Nat) :
    ∀ {t : State} {spec : Tbl Int}, Adding b s t vat spec →
      Adding b s (ps.foldl (fun u q => cs.foldl (fun u c => u.specAdd b (q * h.count + (c - h.first)) (tile q c) (autoSum h.specs q c)) u) t) vat
        (specPlusAll spec (ps.flatMap (specTerms h cs))) := by
  induction ps with
  | nil => exact fun h => h
  | cons q ps ih =>
    intro t spec ha
    have hnext := ih (ha.specAddAll (fun c => q * h.count + (c - h.first)) (ht q) (autoSum h.specs q) cs)
    rw [List.flatMap_cons, specPlusAll, List.foldl_append]
    exact hnext

end Sys2Proof.Machine
end

-- ==== Indigo passes: each entry takes its sum once ====
section

namespace Sys2Proof.Machine

/-! ### Additions under different keys -/

theorem vatPlusAll_absent {e : Nat} {l : List (Nat × (Int × Int))} (he : e ∉ l.map Prod.fst) (v : Tbl Int) {k : Nat} (hk : k / 2 = e) :
    tblGet 0 (vatPlusAll v l) k = tblGet 0 v k := by
  induction l generalizing v with
  | nil => rfl
  | cons z l ih =>
    rw [List.map_cons, List.mem_cons, not_or] at he
    exact (ih he.2 _).trans (vatPlus_other v z.2 (by rw [hk]; exact he.1))

theorem vatPlusAll_mem {e : Nat} {z : Int × Int} {l : List (Nat × (Int × Int))} (hl : (l.map Prod.fst).Nodup) (he : (e, z) ∈ l) (v : Tbl Int) :
    tblGet 0 (vatPlusAll v l) (2 * e) = (satAddC (tblGet 0 v (2 * e)) z.1).1 ∧
      tblGet 0 (vatPlusAll v l) (2 * e + 1) = (satAddC (tblGet 0 v (2 * e + 1)) z.2).1 := by
  induction l generalizing v with
  | nil => cases he
  | cons y l ih =>
    rw [List.map_cons, List.nodup_cons] at hl
    have hcons : vatPlusAll v (y :: l) = vatPlusAll (vatPlus v y.1 y.2) l := rfl
    rw [hcons]
    rcases List.mem_cons.1 he with rfl | hmem
    · rw [vatPlusAll_absent hl.1 _ (by omega), vatPlusAll_absent hl.1 _ (by omega)]
      exact vatPlus_same v e z
    · have hne : e ≠ y.1 := fun h => hl.1 (h ▸ List.mem_map_of_mem hmem)
      obtain ⟨hre, him⟩ := ih hl.2 hmem (vatPlus v y.1 y.2)
      rw [hre, him, vatPlus_other v y.2 (by omega), vatPlus_other v y.2 (by omega)]
      exact ⟨rfl, rfl⟩

theorem specPlusAll_absent {i : Nat} {l : List (Nat × Int)} (hi : i ∉ l.map Prod.fst) (v : Tbl Int) : tblGet 0 (specPlusAll v l) i = tblGet 0 v i := by
  induction l generalizing v with
  | nil => rfl
  | cons z l ih =>
    rw [List.map_cons, List.mem_cons, not_or] at hi
    exact (ih hi.2 _).trans (tblGet_set_ne _ _ _ hi.1)

theorem specPlusAll_mem {i : Nat} {z : Int} {l : List (Nat × Int)} (hl : (l.map Prod.fst).Nodup) (hi : (i, z) ∈ l) (v : Tbl Int) :
    tblGet 0 (specPlusAll v l) i = (satAddC (tblGet 0 v i) z).1 := by
  induction l generalizing v with
  | nil => cases hi
  | cons y l ih =>
    rw [List.map_cons, List.nodup_cons] at hl
    have hcons : specPlusAll v (y :: l) = specPlusAll (specPlus v y.1 y.2) l := rfl
    rw [hcons]
    rcases List.mem_cons.1 hi with rfl | hmem
    · rw [specPlusAll_absent hl.1]
      exact tblGet_set_same _ _ _ _
    · have hne : i ≠ y.1 := fun h => hl.1 (h ▸ List.mem_map_of_mem hmem)
      rw [ih hl.2 hmem]
      exact congrArg (fun w => (satAddC w z).1) (tblGet_set_ne _ _ _ hne)

/-- Lists joined without repetition: none of them repeats, and an element is in that of one index only. -/
theorem nodup_flatMap_of_eq {α β : Type} {l : List α} {f : α → List β} (hl : l.Nodup) (hf : ∀ a ∈ l, (f a).Nodup)
    (heq : ∀ a ∈ l, ∀ a' ∈ l, ∀ x, x ∈ f a → x ∈ f a' → a = a') : (l.flatMap f).Nodup :=
  List.nodup_flatMap.2 ⟨hf, hl.pairwise_of_forall_ne fun a ha a' ha' hne x hx hx' => hne (heq a ha a' ha' x hx hx')⟩

/-! ### An entry belongs to one bin of one region and one pair of paths (R172, R182) -/

/-- R172: a baseline number is that of one pair of paths. -/
theorem baseline_inj {i j i' j' : Nat} (h : i < j) (h' : i' < j') (heq : baseline i j = baseline i' j') : i = i' ∧ j = j' := by
  have hmono : Monotone fun k : Nat => k * (k - 1) / 2 := monotone_nat_of_le_succ fun k => by rw [Nat.triangle_succ]; exact Nat.le_add_right _ _
  unfold baseline at heq
  rcases Nat.lt_trichotomy j j' with hlt | rfl | hlt
  · have hle : (j + 1) * (j + 1 - 1) / 2 ≤ j' * (j' - 1) / 2 := hmono hlt
    rw [Nat.triangle_succ] at hle
    omega
  · omega
  · have hle : (j' + 1) * (j' + 1 - 1) / 2 ≤ j * (j - 1) / 2 := hmono hlt
    rw [Nat.triangle_succ] at hle
    omega

theorem vatBase_succ {rs : List Region} {r : Nat} {rg : Region} (h : rs[r]? = some rg) : vatBase rs (r + 1) = vatBase rs r + rg.entries := by
  rw [vatBase, vatBase, List.take_add_one, h, Option.toList_some, List.map_append, List.sum_append, List.map_singleton, List.sum_singleton]

theorem vatBase_mono (rs : List Region) : Monotone (vatBase rs) := by
  refine monotone_nat_of_le_succ fun r => ?_
  cases h : rs[r]? with
  | some rg => rw [vatBase_succ h]; exact Nat.le_add_right _ _
  | none => rw [vatBase, vatBase, List.take_add_one, h, Option.toList_none, List.append_nil]

theorem Region.holds_iff (rg : Region) (q : Nat × Nat) :
    rg.holds q = true ↔ q.1 < q.2 ∧ rg.bFirst ≤ baseline q.1 q.2 ∧ baseline q.1 q.2 < rg.bFirst + rg.bCount := by
  rw [Region.holds, decide_eq_true_eq]

/-- An entry of a region lies among the region's own. -/
theorem vatEntry_lt {rs : List Region} {r n : Nat} {rg : Region} {q : Nat × Nat} (hr : rs[r]? = some rg) (hn : n < rg.nBins)
    (hq : rg.holds q = true) : vatEntry rs r rg n q < vatBase rs (r + 1) := by
  obtain ⟨-, hfirst, hlast⟩ := (rg.holds_iff q).1 hq
  have hrow : (baseline q.1 q.2 - rg.bFirst + 1) * rg.nBins ≤ rg.bCount * rg.nBins := Nat.mul_le_mul_right _ (by omega)
  rw [Nat.add_one_mul] at hrow
  rw [vatBase_succ hr, vatEntry, Region.entries]
  omega

/-- R182: an entry is that of one region, one bin and one pair of paths. -/
theorem vatEntry_inj {rs : List Region} {r n r' n' : Nat} {rg rg' : Region} {q q' : Nat × Nat} (hr : rs[r]? = some rg) (hr' : rs[r']? = some rg')
    (hn : n < rg.nBins) (hn' : n' < rg'.nBins) (hq : rg.holds q = true) (hq' : rg'.holds q' = true)
    (heq : vatEntry rs r rg n q = vatEntry rs r' rg' n' q') : r = r' ∧ n = n' ∧ q = q' := by
  have hlt := vatEntry_lt hr hn hq
  have hlt' := vatEntry_lt hr' hn' hq'
  have hge : vatBase rs r ≤ vatEntry rs r rg n q := by rw [vatEntry]; omega
  have hge' : vatBase rs r' ≤ vatEntry rs r' rg' n' q' := by rw [vatEntry]; omega
  have hrr : r = r' := by
    rcases Nat.lt_trichotomy r r' with h | h | h
    · have hle : vatBase rs (r + 1) ≤ vatBase rs r' := vatBase_mono rs h
      omega
    · exact h
    · have hle : vatBase rs (r' + 1) ≤ vatBase rs r := vatBase_mono rs h
      omega
  subst hrr
  obtain rfl : rg = rg' := Option.some.inj (hr.symm.trans hr')
  obtain ⟨hlo, hfirst, -⟩ := (rg.holds_iff q).1 hq
  obtain ⟨hlo', hfirst', -⟩ := (rg.holds_iff q').1 hq'
  have hflat : n + (baseline q.1 q.2 - rg.bFirst) * rg.nBins = n' + (baseline q'.1 q'.2 - rg.bFirst) * rg.nBins := by
    rw [vatEntry, vatEntry] at heq
    omega
  have hpos : 0 < rg.nBins := by omega
  have hdiv := congrArg (· / rg.nBins) hflat
  have hmod := congrArg (· % rg.nBins) hflat
  simp only [Nat.add_mul_div_right _ _ hpos, Nat.add_mul_mod_self_right, Nat.div_eq_of_lt hn, Nat.div_eq_of_lt hn', Nat.mod_eq_of_lt hn,
    Nat.mod_eq_of_lt hn'] at hdiv hmod
  obtain ⟨hi, hj⟩ := baseline_inj hlo hlo' (by omega)
  exact ⟨rfl, hmod, Prod.ext hi hj⟩

/-! ### The groups of a die (R178, R179) -/

theorem mem_blockPairs {p : Nat} {mn : Nat × Nat} : mn ∈ blockPairs p ↔ mn.2 < p / 16 ∧ mn.1 ≤ mn.2 := by
  obtain ⟨m, n⟩ := mn
  simp only [blockPairs, List.mem_flatMap, List.mem_range, List.mem_map, Prod.mk.injEq]
  constructor
  · rintro ⟨n', hn, m', hm, rfl, rfl⟩
    omega
  · rintro ⟨hn, hm⟩
    exact ⟨n, hn, m, by omega, rfl, rfl⟩

theorem nodup_blockPairs (p : Nat) : (blockPairs p).Nodup := by
  refine nodup_flatMap_of_eq List.nodup_range (fun n _ => List.nodup_range.map fun m m' h => (Prod.mk.inj h).1) ?_
  intro n _ n' _ x hx hx'
  obtain ⟨m, -, rfl⟩ := List.mem_map.1 hx
  obtain ⟨m', -, heq⟩ := List.mem_map.1 hx'
  exact (Prod.mk.inj heq).2.symm

/-- A region's group of a bin and a block pair. -/
def groupOf (rg : Region) (r n : Nat) (mn : Nat × Nat) : Group :=
  { region := some r, bin := n, m := mn.1, n := mn.2, ch := rg.binFirst n, width := rg.binW }

theorem mem_regionGroups {p first count d : Nat} {rs : List Region} {g : Group} : g ∈ regionGroups p first count d rs ↔
    ∃ r rg n mn, rs[r]? = some rg ∧ n ∈ binsOn first count d rg ∧ mn ∈ blockPairs p ∧ pairIn rg mn.1 mn.2 = true ∧ g = groupOf rg r n mn := by
  simp only [regionGroups, List.mem_flatMap, List.mem_map, List.mem_filter, Prod.exists, List.mem_zipIdx_iff_getElem?]
  constructor
  · rintro ⟨rg, r, hr, n, hn, m, n', ⟨hmn, hin⟩, rfl⟩
    exact ⟨r, rg, n, m, n', hr, hn, hmn, hin, rfl⟩
  · rintro ⟨r, rg, n, m, n', hr, hn, hmn, hin, rfl⟩
    exact ⟨rg, r, hr, n, hn, m, n', ⟨hmn, hin⟩, rfl⟩

theorem mem_binsOn {first count d n : Nat} {rg : Region} : n ∈ binsOn first count d rg ↔ n < rg.nBins ∧ dieOf first count (rg.binFirst n) = d := by
  rw [binsOn, List.mem_filter, List.mem_range, beq_iff_eq]

theorem nodup_regionGroups (p first count d : Nat) (rs : List Region) : (regionGroups p first count d rs).Nodup := by
  have hmap {q : Region × Nat} {n : Nat} {x : Group}
      (hx : x ∈ ((blockPairs p).filter fun mn => pairIn q.1 mn.1 mn.2).map (groupOf q.1 q.2 n)) : x.region = some q.2 ∧ x.bin = n := by
    obtain ⟨mn, -, rfl⟩ := List.mem_map.1 hx
    exact ⟨rfl, rfl⟩
  have hzip : rs.zipIdx.Nodup := by
    refine List.Nodup.of_map Prod.snd ?_
    rw [List.zipIdx_map_snd]
    exact List.nodup_range'
  refine nodup_flatMap_of_eq hzip (fun q _ => nodup_flatMap_of_eq (List.nodup_range.filter _) (fun n _ => ?_) ?_) ?_
  · exact ((nodup_blockPairs p).filter _).map fun mn mn' h => Prod.ext (congrArg Group.m h) (congrArg Group.n h)
  · exact fun n _ n' _ x hx hx' => (hmap hx).2.symm.trans (hmap hx').2
  · intro q hq q' hq' x hx hx'
    obtain ⟨n, -, hn⟩ := List.mem_flatMap.1 hx
    obtain ⟨n', -, hn'⟩ := List.mem_flatMap.1 hx'
    have hidx : q.2 = q'.2 := Option.some.inj ((hmap hn).1.symm.trans (hmap hn').1)
    have hget := List.mem_zipIdx_iff_getElem?.1 hq
    have hget' := List.mem_zipIdx_iff_getElem?.1 hq'
    rw [hidx] at hget
    exact Prod.ext (Option.some.inj (hget.symm.trans hget')) hidx

theorem mem_pairs {g : Group} {q : Nat × Nat} : q ∈ g.pairs ↔ q.1 / 16 = g.m ∧ q.2 / 16 = g.n := by
  obtain ⟨i, j⟩ := q
  simp only [Group.pairs, List.mem_flatMap, List.mem_range, List.mem_map, Prod.mk.injEq]
  constructor
  · rintro ⟨y, hy, x, hx, rfl, rfl⟩
    omega
  · rintro ⟨hi, hj⟩
    exact ⟨j % 16, by omega, i % 16, by omega, by omega, by omega⟩

theorem nodup_pairs (g : Group) : g.pairs.Nodup := by
  refine nodup_flatMap_of_eq List.nodup_range (fun y _ => List.nodup_range.map fun x x' h => ?_) ?_
  · have := (Prod.mk.inj h).1
    omega
  · intro y _ y' _ q hq hq'
    obtain ⟨x, -, rfl⟩ := List.mem_map.1 hq
    obtain ⟨x', -, heq⟩ := List.mem_map.1 hq'
    have := (Prod.mk.inj heq).2
    omega

/-! ### What a die adds in a pass (R173, R191) -/

variable {rs : List Region} {h : Half} {d p r n : Nat} {rg : Region}

/-- All that the groups of a die add to the VAT. -/
def dieTerms (p : Nat) (rs : List Region) (h : Half) (d : Nat) : List (Nat × (Int × Int)) :=
  (dieGroups p h.first h.count d rs).flatMap (groupTerms rs h d)

theorem spectroGroups_region {first count : Nat} {g : Group} (hg : g ∈ spectroGroups p first count d rs) : g.region = none := by
  obtain ⟨q, -, hq⟩ := List.mem_flatMap.1 hg
  extract_lets c at hq
  split at hq
  · obtain ⟨m, -, rfl⟩ := List.mem_map.1 hq
    rfl
  · cases hq

/-- The spectrometer's groups add nothing to the VAT. -/
theorem dieTerms_eq (p : Nat) (rs : List Region) (h : Half) (d : Nat) :
    dieTerms p rs h d = (regionGroups p h.first h.count d rs).flatMap (groupTerms rs h d) := by
  rw [dieTerms, dieGroups, List.flatMap_append, List.flatMap_eq_nil_iff.2 fun g hg => groupTerms_none (spectroGroups_region hg), List.append_nil]

/-- What a region's group adds: the sum of each of its pairs whose baseline the region holds, unless the region is shed. -/
theorem mem_groupTerms (hr : rs[r]? = some rg) {mn : Nat × Nat} {z : Nat × (Int × Int)} : z ∈ groupTerms rs h d (groupOf rg r n mn) ↔
    bit (h.shedOf d) rg.prio = false ∧ ∃ q, q.1 / 16 = mn.1 ∧ q.2 / 16 = mn.2 ∧ rg.holds q = true ∧
      z = (vatEntry rs r rg n q, crossSum h.specs q.1 q.2 (rg.binFirst n) rg.binW) := by
  rw [groupTerms_some (g := groupOf rg r n mn) rfl hr]
  cases hshed : bit (h.shedOf d) rg.prio with
  | true => simp
  | false =>
    simp only [Bool.false_eq_true, if_false, List.mem_map, List.mem_filter, mem_pairs, true_and]
    constructor
    · rintro ⟨q, ⟨⟨hi, hj⟩, hq⟩, rfl⟩
      exact ⟨q, hi, hj, hq, rfl⟩
    · rintro ⟨q, hi, hj, hq, rfl⟩
      exact ⟨q, ⟨⟨hi, hj⟩, hq⟩, rfl⟩

theorem mem_dieTerms {z : Nat × (Int × Int)} : z ∈ dieTerms p rs h d ↔
    ∃ r rg n q, rs[r]? = some rg ∧ n < rg.nBins ∧ dieOf h.first h.count (rg.binFirst n) = d ∧ bit (h.shedOf d) rg.prio = false ∧ q.2 / 16 < p / 16 ∧
      rg.holds q = true ∧ z = (vatEntry rs r rg n q, crossSum h.specs q.1 q.2 (rg.binFirst n) rg.binW) := by
  rw [dieTerms_eq, List.mem_flatMap]
  constructor
  · rintro ⟨g, hg, hz⟩
    obtain ⟨r, rg, n, mn, hr, hn, hmn, -, rfl⟩ := mem_regionGroups.1 hg
    obtain ⟨hshed, q, -, hj, hq, rfl⟩ := (mem_groupTerms hr).1 hz
    obtain ⟨hbin, hdie⟩ := mem_binsOn.1 hn
    exact ⟨r, rg, n, q, hr, hbin, hdie, hshed, hj ▸ (mem_blockPairs.1 hmn).1, hq, rfl⟩
  · rintro ⟨r, rg, n, q, hr, hn, hdie, hshed, hp, hq, rfl⟩
    obtain ⟨hlt, hfirst, hlast⟩ := (rg.holds_iff q).1 hq
    exact ⟨groupOf rg r n (q.1 / 16, q.2 / 16),
      mem_regionGroups.2 ⟨r, rg, n, (q.1 / 16, q.2 / 16), hr, mem_binsOn.2 ⟨hn, hdie⟩, mem_blockPairs.2 ⟨hp, Nat.div_le_div_right hlt.le⟩,
        (pairIn_iff _ _ _).2 ⟨q.1, q.2, rfl, rfl, hlt, hfirst, hlast⟩, rfl⟩,
      (mem_groupTerms hr).2 ⟨hshed, q, rfl, rfl, hq, rfl⟩⟩

theorem nodup_groupTerms (hr : rs[r]? = some rg) (hn : n < rg.nBins) (mn : Nat × Nat) :
    ((groupTerms rs h d (groupOf rg r n mn)).map Prod.fst).Nodup := by
  rw [groupTerms_some (g := groupOf rg r n mn) rfl hr]
  split
  · exact List.nodup_nil
  · rw [List.map_map]
    refine List.Nodup.map_on (fun q hq q' hq' heq => ?_) ((nodup_pairs _).filter _)
    obtain ⟨-, -, hqq⟩ := vatEntry_inj hr hr hn hn (List.mem_filter.1 hq).2 (List.mem_filter.1 hq').2 heq
    exact hqq

/-- A pass adds to an entry at most once. -/
theorem nodup_dieTerms (p : Nat) (rs : List Region) (h : Half) (d : Nat) : ((dieTerms p rs h d).map Prod.fst).Nodup := by
  rw [dieTerms_eq, List.map_flatMap]
  refine nodup_flatMap_of_eq (nodup_regionGroups _ _ _ _ _) (fun g hg => ?_) fun g hg g' hg' e he he' => ?_
  · obtain ⟨r, rg, n, mn, hr, hn, -, -, rfl⟩ := mem_regionGroups.1 hg
    exact nodup_groupTerms hr (mem_binsOn.1 hn).1 mn
  · obtain ⟨r, rg, n, mn, hr, hn, -, -, rfl⟩ := mem_regionGroups.1 hg
    obtain ⟨r', rg', n', mn', hr', hn', -, -, rfl⟩ := mem_regionGroups.1 hg'
    obtain ⟨z, hz, rfl⟩ := List.mem_map.1 he
    obtain ⟨z', hz', heq⟩ := List.mem_map.1 he'
    obtain ⟨-, q, hi, hj, hq, rfl⟩ := (mem_groupTerms hr).1 hz
    obtain ⟨-, q', hi', hj', hq', rfl⟩ := (mem_groupTerms hr').1 hz'
    obtain ⟨hrr, hnn, hqq⟩ := vatEntry_inj hr hr' (mem_binsOn.1 hn).1 (mem_binsOn.1 hn').1 hq hq' heq.symm
    subst hrr hnn hqq
    obtain rfl : rg = rg' := Option.some.inj (hr.symm.trans hr')
    rw [show mn = mn' from Prod.ext (hi.symm.trans hi') (hj.symm.trans hj')]

/-- The entry of a bin on the die, of a region that is not shed, gains the sum of its pair; the others stay. -/
theorem vatPlusAll_dieTerms (v : Tbl Int) {m i j : Nat} (hr : rs[r]? = some rg) (hij : i < j) (hj : j < modePaths m)
    (hfirst : rg.bFirst ≤ baseline i j) (hlast : baseline i j < rg.bFirst + rg.bCount) (hn : n < rg.nBins) :
    let e := vatEntry rs r rg n (i, j)
    let z := crossSum h.specs i j (rg.binFirst n) rg.binW
    let w := vatPlusAll v (dieTerms (modePaths m) rs h d)
    if dieOf h.first h.count (rg.binFirst n) = d ∧ bit (h.shedOf d) rg.prio = false then
      tblGet 0 w (2 * e) = (satAddC (tblGet 0 v (2 * e)) z.1).1 ∧ tblGet 0 w (2 * e + 1) = (satAddC (tblGet 0 v (2 * e + 1)) z.2).1
    else tblGet 0 w (2 * e) = tblGet 0 v (2 * e) ∧ tblGet 0 w (2 * e + 1) = tblGet 0 v (2 * e + 1) := by
  intro e z w
  have hholds : rg.holds (i, j) = true := (rg.holds_iff (i, j)).2 ⟨hij, hfirst, hlast⟩
  split
  · next hin =>
    have hp : j / 16 < modePaths m / 16 := by
      unfold modePaths at hj ⊢
      omega
    exact vatPlusAll_mem (nodup_dieTerms _ _ _ _) (mem_dieTerms.2 ⟨r, rg, n, (i, j), hr, hn, hin.1, hin.2, hp, hholds, rfl⟩) v
  · next hout =>
    have habsent : e ∉ (dieTerms (modePaths m) rs h d).map Prod.fst := by
      intro he
      obtain ⟨y, hy, heq⟩ := List.mem_map.1 he
      obtain ⟨r', rg', n', q, hr', hn', hdie, hshed, -, hq, rfl⟩ := mem_dieTerms.1 hy
      obtain ⟨hrr, hnn, -⟩ := vatEntry_inj hr' hr hn' hn hq hholds heq
      subst hrr hnn
      obtain rfl : rg' = rg := Option.some.inj (hr'.symm.trans hr)
      exact hout ⟨hdie, hshed⟩
    exact ⟨vatPlusAll_absent habsent v (by omega), vatPlusAll_absent habsent v (by omega)⟩

/-! ### What the spectrometer takes in a pass (R183) -/

/-- The channels of a half that lie on a die. -/
def Half.chansOn (h : Half) (d : Nat) : List Nat := ((List.range h.count).map (h.first + ·)).filter fun c => dieOf h.first h.count c == d

theorem mem_chansOn {c : Nat} : c ∈ h.chansOn d ↔ (h.first ≤ c ∧ c < h.first + h.count) ∧ dieOf h.first h.count c = d := by
  rw [Half.chansOn, List.mem_filter, List.mem_map, beq_iff_eq]
  refine and_congr_left fun _ => ⟨?_, fun hc => ⟨c - h.first, List.mem_range.2 (by omega), by omega⟩⟩
  rintro ⟨k, hk, rfl⟩
  have := List.mem_range.1 hk
  omega

theorem nodup_chansOn (h : Half) (d : Nat) : (h.chansOn d).Nodup := (List.nodup_range.map fun a b hab => by omega).filter _

/-- A spectrometer entry is that of one path and one channel. -/
theorem specEntry_inj {q q' c c' : Nat} (hc : h.first ≤ c ∧ c < h.first + h.count) (hc' : h.first ≤ c' ∧ c' < h.first + h.count)
    (heq : q * h.count + (c - h.first) = q' * h.count + (c' - h.first)) : q = q' ∧ c = c' := by
  have hpos : 0 < h.count := by omega
  have hflat : (c - h.first) + q * h.count = (c' - h.first) + q' * h.count := by omega
  have hdiv := congrArg (· / h.count) hflat
  have hmod := congrArg (· % h.count) hflat
  have hk : c - h.first < h.count := by omega
  have hk' : c' - h.first < h.count := by omega
  simp only [Nat.add_mul_div_right _ _ hpos, Nat.add_mul_mod_self_right, Nat.div_eq_of_lt hk, Nat.div_eq_of_lt hk', Nat.mod_eq_of_lt hk,
    Nat.mod_eq_of_lt hk'] at hdiv hmod
  omega

/-- All that a pass adds to the spectrometer. -/
def spectroTerms (p : Nat) (h : Half) (d : Nat) : List (Nat × Int) := (List.range p).flatMap (specTerms h (h.chansOn d))

theorem mem_spectroTerms {z : Nat × Int} : z ∈ spectroTerms p h d ↔
    ∃ q c, q < p ∧ (h.first ≤ c ∧ c < h.first + h.count) ∧ dieOf h.first h.count c = d ∧
      z = (q * h.count + (c - h.first), autoSum h.specs q c) := by
  simp only [spectroTerms, specTerms, List.mem_flatMap, List.mem_range, List.mem_map, mem_chansOn]
  constructor
  · rintro ⟨q, hq, c, ⟨hc, hd⟩, rfl⟩
    exact ⟨q, c, hq, hc, hd, rfl⟩
  · rintro ⟨q, c, hq, hc, hd, rfl⟩
    exact ⟨q, hq, c, ⟨hc, hd⟩, rfl⟩

theorem nodup_spectroTerms (p : Nat) (h : Half) (d : Nat) : ((spectroTerms p h d).map Prod.fst).Nodup := by
  rw [spectroTerms, List.map_flatMap]
  refine nodup_flatMap_of_eq List.nodup_range (fun q _ => ?_) fun q _ q' _ i hi hi' => ?_
  · rw [specTerms, List.map_map]
    exact List.Nodup.map_on (fun c hc c' hc' heq => (specEntry_inj (mem_chansOn.1 hc).1 (mem_chansOn.1 hc').1 heq).2) (nodup_chansOn h d)
  · rw [specTerms, List.map_map, List.mem_map] at hi hi'
    obtain ⟨c, hc, rfl⟩ := hi
    obtain ⟨c', hc', heq⟩ := hi'
    exact (specEntry_inj (mem_chansOn.1 hc).1 (mem_chansOn.1 hc').1 heq.symm).1

/-- The spectrometer entry of a channel on the die gains the sum of squares; the others stay. -/
theorem specPlusAll_spectroTerms (v : Tbl Int) {q c : Nat} (hq : q < p) (hc : h.first ≤ c ∧ c < h.first + h.count) :
    tblGet 0 (specPlusAll v (spectroTerms p h d)) (q * h.count + (c - h.first)) =
      if dieOf h.first h.count c = d then (satAddC (tblGet 0 v (q * h.count + (c - h.first))) (autoSum h.specs q c)).1
      else tblGet 0 v (q * h.count + (c - h.first)) := by
  split
  · next hin => exact specPlusAll_mem (nodup_spectroTerms _ _ _) (mem_spectroTerms.2 ⟨q, c, hq, hc, hin, rfl⟩) v
  · next hout =>
    refine specPlusAll_absent (fun hi => ?_) v
    obtain ⟨y, hy, heq⟩ := List.mem_map.1 hi
    obtain ⟨q', c', -, hc', hd, rfl⟩ := mem_spectroTerms.1 hy
    obtain ⟨-, rfl⟩ := specEntry_inj hc' hc heq
    exact hout hd

end Sys2Proof.Machine
end

-- ==== Indigo passes: ending ====
section

namespace Sys2Proof.Machine

variable {s t u : State} {b : Bool} {d : Nat} {h : Half}

/-! ### The spectra that a pass counts (R200) -/

/-- A pass's spectra counted for one region, unless the die shed it. -/
def accPlus (h : Half) (d : Nat) (a : Tbl Nat) (r : Region × Nat) : Tbl Nat :=
  if bit (h.shedOf d) r.1.prio then a else tblUpd 0 a (2 * r.2 + d) (· + h.specs.length)

theorem accPlus_absent {l : List (Region × Nat)} {k : Nat} (hk : ∀ r ∈ l, r.2 ≠ k) (a : Tbl Nat) :
    tblGet 0 (l.foldl (accPlus h d) a) (2 * k + d) = tblGet 0 a (2 * k + d) := by
  refine List.foldlRecOn l (accPlus h d) (motive := fun v => tblGet 0 v (2 * k + d) = tblGet 0 a (2 * k + d)) rfl fun v hv r hr => ?_
  unfold accPlus
  split
  · exact hv
  · exact (tblGet_upd_ne _ _ _ (by have := hk r hr; omega)).trans hv

theorem accPlus_mem {l : List (Region × Nat)} (hl : (l.map Prod.snd).Nodup) {rg : Region} {k : Nat} (hk : (rg, k) ∈ l) (a : Tbl Nat) :
    tblGet 0 (l.foldl (accPlus h d) a) (2 * k + d) = tblGet 0 a (2 * k + d) + (if bit (h.shedOf d) rg.prio = true then 0 else h.specs.length) := by
  induction l generalizing a with
  | nil => cases hk
  | cons y l ih =>
    rw [List.map_cons, List.nodup_cons] at hl
    rw [List.foldl_cons]
    rcases List.mem_cons.1 hk with rfl | hmem
    · rw [accPlus_absent fun r hr heq => hl.1 (List.mem_map.2 ⟨r, hr, heq⟩), accPlus]
      split
      · rfl
      · exact tblGet_upd_same _ _ _ _
    · have hne : k ≠ y.2 := fun heq => hl.1 (heq ▸ List.mem_map_of_mem hmem)
      rw [ih hl.2 hmem]
      congr 1
      unfold accPlus
      split
      · rfl
      · exact tblGet_upd_ne _ _ _ (by omega)

/-- The spectra counted for every region of an integration. -/
def accAll (h : Half) (d : Nat) (rs : List Region) (a : Tbl Nat) : Tbl Nat := rs.zipIdx.foldl (accPlus h d) a

theorem accAll_region {rs : List Region} {r : Nat} {rg : Region} (hr : rs[r]? = some rg) (a : Tbl Nat) :
    tblGet 0 (accAll h d rs a) (2 * r + d) = tblGet 0 a (2 * r + d) + (if bit (h.shedOf d) rg.prio = true then 0 else h.specs.length) := by
  refine accPlus_mem ?_ (List.mem_zipIdx_iff_getElem?.2 hr) a
  rw [List.zipIdx_map_snd]
  exact List.nodup_range'

/-! ### A pass added to its bank (R173, R183) -/

/-- `t` is `s` but for registers, what the present cycle notes of them, outputs and the correlator. -/
def IxMoved (s t : State) : Prop := ∃ r f o x, t = { s with regs := r, fresh := f, out := o, ix := x }

theorem IxMoved.trans (h : IxMoved s t) (h' : IxMoved t u) : IxMoved s u := by
  obtain ⟨r, f, o, x, rfl⟩ := h
  obtain ⟨r', f', o', x', rfl⟩ := h'
  exact ⟨r', f', o', x', Eq.refl _⟩

theorem IxMoved.eq (h : IxMoved s t) : t = { s with regs := t.regs, fresh := t.fresh, out := t.out, ix := t.ix } := by
  obtain ⟨r, f, o, x, rfl⟩ := h
  exact Eq.refl _

theorem IxMoved.wd (h : IxMoved s t) : t.wd = s.wd := by
  obtain ⟨r, f, o, x, rfl⟩ := h
  exact Eq.refl _

theorem RegsMoved.ixMoved (h : RegsMoved s t) : IxMoved s t := by
  obtain ⟨r, f, o, rfl⟩ := h
  exact ⟨r, f, o, s.ix, Eq.refl _⟩

theorem ixMoved_setBank (s : State) (b : Bool) (x : Bank) : IxMoved s (s.setBank b x) := by cases b <;> exact ⟨_, _, _, _, Eq.refl _⟩

theorem ixMoved_setHalf (s : State) (b : Bool) (x : Half) : IxMoved s (s.setHalf b x) := by cases b <;> exact ⟨_, _, _, _, Eq.refl _⟩

/-- A pass of a die over a half, once its sums are in bank `b`. -/
structure PassAdded (b : Bool) (h : Half) (d : Nat) (s t : State) : Prop where
  moved : IxMoved s t
  half1 : t.ix.half1 = s.ix.half1
  other : t.bank (!b) = s.bank (!b)
  woad : t.reg WD_CTL = s.reg WD_CTL
  vat : (t.bank b).vat = vatPlusAll (s.bank b).vat (dieTerms (modePaths (s.bank b).mode) (s.bank b).regions h d)
  spec : (t.bank b).spec = specPlusAll (s.bank b).spec (spectroTerms (modePaths (s.bank b).mode) h d)
  acc : (t.bank b).acc = accAll h d (s.bank b).regions (s.bank b).acc

theorem tileOf_lt (hd : d < 2) (i : Nat) : tileOf d i < 1024 := by
  unfold tileOf
  omega

theorem autoTile_lt (hd : d < 2) (gs : List Group) (p c : Nat) : autoTile d gs p c < 1024 := by
  unfold autoTile
  split
  · exact tileOf_lt hd _
  · omega

theorem passAdded_passAdd (s : State) (b : Bool) (h : Half) (hd : d < 2) :
    PassAdded b h d s (s.passAdd b h d) ∧ (s.passAdd b h d).ix.done = s.ix.done := by
  unfold State.passAdd
  extract_lets x p gs s1 cs s2 y shed acc rg
  have h1 : Adding b s s1 (vatPlusAll x.vat (dieTerms p x.regions h d)) x.spec := by
    have hadd := Adding.groupAddAll h d (tileOf_lt hd) gs.zipIdx (Adding.start b s)
    rwa [List.zipIdx_map_fst] at hadd
  have h2 : Adding b s s2 (vatPlusAll x.vat (dieTerms p x.regions h d)) (specPlusAll x.spec (spectroTerms p h d)) :=
    Adding.specPaths h cs (autoTile_lt hd gs) (List.range p) h1
  obtain ⟨⟨r, f, o, ba, bb, hf⟩, hother, ⟨sat, tiles, hbank⟩, hwoad⟩ := h2
  have hmoved : IxMoved s s2 := ⟨r, f, o, _, hf⟩
  have hbx : (s2.setBank b { y with acc := acc, shedRg := rg }).bank b = { y with acc := acc, shedRg := rg } := State.bank_setBank_same _ _ _
  refine ⟨⟨hmoved.trans (ixMoved_setBank _ _ _), ?_, (State.bank_setBank_not _ _ _).trans hother, (State.reg_setBank _ _ _ _).trans hwoad, ?_, ?_, ?_⟩,
    ?_⟩
  · rw [State.setBank_eq, hf]
  · rw [hbx]
    exact congrArg Bank.vat hbank
  · rw [hbx]
    exact congrArg Bank.spec hbank
  · rw [hbx]
    have hy : y = { s.bank b with
        vat := vatPlusAll x.vat (dieTerms p x.regions h d), spec := specPlusAll x.spec (spectroTerms p h d), sat := sat, tiles := tiles } := hbank
    unfold acc
    rw [hy]
    rfl
  · rw [State.setBank_eq, hf]

/-! ### A pass ends (R177, R200) -/

/-- The half once a die's pass over it has ended. -/
def Half.passed (h : Half) (d : Nat) : Half := h.setPass d .over (h.shedOf d)

/-- Both dies have passed over a half. -/
def Half.bothOver (h : Half) : Bool := h.die0 == .over && h.die1 == .over

theorem bothOver_passed (hd : d < 2) (h : Half) : (h.passed d).bothOver = true ↔ h.pass (1 - d) = .over := by
  unfold Half.bothOver Half.passed Half.setPass Half.pass
  obtain rfl | rfl : d = 0 ∨ d = 1 := by omega
  · simp
  · simp

/-- The half once both dies have passed over it: its flags are counted. -/
def State.halfCounted (s : State) (b : Bool) (h : Half) (d : Nat) : State :=
  let s1 := s.passCount b (h.passed d)
  { s1 with ix := { s1.ix with done := max s1.ix.done (h.base.getD 0 + 8192 * h.cap) } }

/-- What the end of a pass over the first half leaves, from the state with its sums. -/
def State.passClosed (s : State) (b : Bool) (h : Half) (d : Nat) : State :=
  let s1 := s.setHalf false (h.passed d)
  ((if (h.passed d).bothOver then s1.halfCounted b h d else s1).setF IX_SHED (shedFld d) 0).releaseHalf false

theorem exec_indigoPassEnd (s : State) (d : Nat) : exec (.indigoPassEnd d) s = execIndigoPassEnd d s := (rfl)

theorem indigoPassEnd_none (hon : s.on = true) (h0 : s.ix.half0.pass d ≠ .busy) (h1 : s.ix.half1.pass d ≠ .busy) :
    exec (.indigoPassEnd d) s = .next s := by
  have hnone : (s.oldestHalf fun h => h.pass d == .busy && decide (d < 2)) = none :=
    oldestHalf_none (by rw [beq_eq_false_iff_ne.2 h0, Bool.false_and]) (by rw [beq_eq_false_iff_ne.2 h1, Bool.false_and])
  rw [exec_indigoPassEnd, execIndigoPassEnd, whenOn_on hon, hnone]

theorem indigoPassEnd_first (hon : s.on = true) (hd : d < 2) (h0 : s.ix.half0.pass d = .busy) (h1 : s.ix.half1.pass d ≠ .busy)
    (hb : s.bankAt (s.ix.half0.base.getD 0) = some b) :
    exec (.indigoPassEnd d) s = .next ((s.passAdd b s.ix.half0 d).passClosed b s.ix.half0 d) := by
  have hsome : (s.oldestHalf fun h => h.pass d == .busy && decide (d < 2)) = some false :=
    oldestHalf_first (by rw [h0, decide_eq_true hd]; rfl) (by rw [beq_eq_false_iff_ne.2 h1, Bool.false_and])
  have hhalf : s.half false = s.ix.half0 := (rfl)
  rw [exec_indigoPassEnd, execIndigoPassEnd, whenOn_on hon, hsome]
  simp only [hhalf, hb]
  rw [State.passClosed, State.halfCounted, Half.bothOver, Half.passed, shedFld]
  split <;> rfl

/-- What closing a pass keeps: the sums, the other bank and the other half. -/
structure PassKept (b : Bool) (s t : State) : Prop where
  moved : IxMoved s t
  half1 : t.ix.half1 = s.ix.half1
  other : t.bank (!b) = s.bank (!b)
  vat : (t.bank b).vat = (s.bank b).vat
  spec : (t.bank b).spec = (s.bank b).spec
  acc : (t.bank b).acc = (s.bank b).acc
  woad : t.reg WD_CTL = s.reg WD_CTL

theorem PassKept.trans (h : PassKept b s t) (h' : PassKept b t u) : PassKept b s u :=
  ⟨h.moved.trans h'.moved, h'.half1.trans h.half1, h'.other.trans h.other, h'.vat.trans h.vat, h'.spec.trans h.spec, h'.acc.trans h.acc,
    h'.woad.trans h.woad⟩

theorem PassKept.of_regs (hr : RegsMoved s t) (hw : t.reg WD_CTL = s.reg WD_CTL) : PassKept b s t := by
  have hbank (c : Bool) : t.bank c = s.bank c := State.bank_of_ix hr.ix c
  exact ⟨hr.ixMoved, by rw [hr.ix], hbank _, by rw [hbank], by rw [hbank], by rw [hbank], hw⟩

theorem passKept_setHalf (s : State) (b : Bool) (x : Half) : PassKept b s (s.setHalf false x) := by
  cases b <;> exact ⟨ixMoved_setHalf _ _ _, rfl, rfl, rfl, rfl, rfl, rfl⟩

theorem passKept_passCount (s : State) (b : Bool) (h : Half) : PassKept b s (s.passCount b h) := by
  unfold State.passCount
  extract_lets x start one
  refine ⟨ixMoved_setBank _ _ _, ?_, State.bank_setBank_not _ _ _, ?_, ?_, ?_, State.reg_setBank _ _ _ _⟩
  · rw [State.setBank_eq]
  all_goals
    rw [State.bank_setBank_same]

theorem passKept_done (s : State) (b : Bool) (n : Nat) : PassKept b s { s with ix := { s.ix with done := n } } := by
  cases b <;> exact ⟨⟨_, _, _, _, Eq.refl _⟩, Eq.refl _, Eq.refl _, Eq.refl _, Eq.refl _, Eq.refl _, Eq.refl _⟩

theorem passKept_halfCounted (s : State) (b : Bool) (h : Half) (d : Nat) : PassKept b s (s.halfCounted b h d) :=
  (passKept_passCount s b _).trans (passKept_done _ b _)

theorem passKept_releaseHalf (s : State) (b : Bool) : PassKept b s (s.releaseHalf false) := by
  unfold State.releaseHalf
  extract_lets x
  split
  · exact passKept_setHalf _ _ _
  · exact .of_regs ⟨_, _, _, Eq.refl _⟩ rfl

theorem passKept_passClosed (s : State) (b : Bool) (h : Half) (d : Nat) : PassKept b s (s.passClosed b h d) := by
  unfold State.passClosed
  extract_lets s1
  have h1 : PassKept b s s1 := passKept_setHalf _ _ _
  have hset (u : State) : PassKept b u (u.setF IX_SHED (shedFld d) 0) := .of_regs (regsMoved_setF _ _ _ _) (State.reg_setF_ne _ _ _ (by decide))
  split
  · exact ((h1.trans (passKept_halfCounted _ _ _ _)).trans (hset _)).trans (passKept_releaseHalf _ _)
  · exact (h1.trans (hset _)).trans (passKept_releaseHalf _ _)

theorem releaseHalf_kept (hx : s.ix.half0.bothOver = false) : s.releaseHalf false = s := by
  rw [State.releaseHalf, if_neg]
  rintro ⟨h0, h1, -⟩
  have hhalf : s.half false = s.ix.half0 := (rfl)
  rw [hhalf] at h0 h1
  rw [Half.bothOver, h0, h1] at hx
  cases hx

theorem releaseHalf_free (hx : s.ix.half0.bothOver = true) (hw : s.ix.half0.woad = .over ∨ s.wdRuns = false) :
    s.releaseHalf false = s.setHalf false halfFree := by
  rw [Half.bothOver, Bool.and_eq_true, beq_iff_eq, beq_iff_eq] at hx
  rw [State.releaseHalf]
  exact if_pos ⟨hx.1, hx.2, hw⟩

/-- The other die has not passed over the half: it stays, its pass ended. -/
theorem passClosed_waits (hd : d < 2) (s : State) (b : Bool) {h : Half} (hp : h.pass (1 - d) ≠ .over) :
    (s.passClosed b h d).ix.half0 = h.passed d := by
  have hboth : (h.passed d).bothOver = false := Bool.eq_false_iff.2 fun hb => hp ((bothOver_passed hd h).1 hb)
  rw [State.passClosed, hboth, if_neg Bool.false_ne_true, releaseHalf_kept]
  · rfl
  · exact hboth

theorem half0_halfCounted (s : State) (b : Bool) (h : Half) (d : Nat) : (s.halfCounted b h d).ix.half0 = s.ix.half0 := by
  unfold State.halfCounted State.passCount
  extract_lets x start one s1
  cases b <;> rfl

theorem done_halfCounted (s : State) (b : Bool) (h : Half) (d : Nat) : (s.halfCounted b h d).ix.done = max s.ix.done (h.base.getD 0 + 8192 * h.cap) := by
  unfold State.halfCounted State.passCount
  extract_lets x start one s1
  cases b <;> rfl

theorem wdRuns_of_kept (hw : t.wd = s.wd) (hr : t.reg WD_CTL = s.reg WD_CTL) : t.wdRuns = s.wdRuns := by
  rw [State.wdRuns, State.wdRuns, hw, State.flag_of_reg hr]

/-- Both dies and Woad have read the half: it is free. -/
theorem passClosed_frees (hd : d < 2) (s : State) (b : Bool) {h : Half} (hp : h.pass (1 - d) = .over) (hw : h.woad = .over ∨ s.wdRuns = false) :
    (s.passClosed b h d).ix.half0 = halfFree ∧ (s.passClosed b h d).ix.done = max s.ix.done (h.base.getD 0 + 8192 * h.cap) := by
  have hboth : (h.passed d).bothOver = true := (bothOver_passed hd h).2 hp
  have hwoad : (h.passed d).woad = h.woad := by
    unfold Half.passed Half.setPass
    split <;> rfl
  have hkept : PassKept b s ((s.setHalf false (h.passed d)).halfCounted b h d) := (passKept_setHalf s b _).trans (passKept_halfCounted _ _ _ _)
  have hhalf : ((s.setHalf false (h.passed d)).halfCounted b h d).ix.half0 = h.passed d := half0_halfCounted _ _ _ _
  have hdone : ((s.setHalf false (h.passed d)).halfCounted b h d).ix.done = max s.ix.done (h.base.getD 0 + 8192 * h.cap) := done_halfCounted _ _ _ _
  rw [State.passClosed, hboth, if_pos rfl]
  generalize (s.setHalf false (h.passed d)).halfCounted b h d = v at *
  have hruns : (v.setF IX_SHED (shedFld d) 0).wdRuns = s.wdRuns :=
    wdRuns_of_kept hkept.moved.wd ((State.reg_setF_ne _ _ _ (by decide)).trans hkept.woad)
  rw [releaseHalf_free (s := v.setF IX_SHED (shedFld d) 0)]
  · exact ⟨rfl, hdone⟩
  · rw [State.setF_ix, hhalf]
    exact hboth
  · rw [State.setF_ix, hhalf, hwoad, hruns]
    exact hw

theorem PassAdded.closed (h' : PassAdded b h d s t) (hk : PassKept b t u) : PassAdded b h d s u :=
  ⟨h'.moved.trans hk.moved, hk.half1.trans h'.half1, hk.other.trans h'.other, hk.woad.trans h'.woad, hk.vat.trans h'.vat, hk.spec.trans h'.spec,
    hk.acc.trans h'.acc⟩

/-- A pass over the first half ends: its sums are in the bank, and the half is released once all have read it. -/
theorem indigoPassEnd_adds (hon : s.on = true) (hd : d < 2) (h0 : s.ix.half0.pass d = .busy) (h1 : s.ix.half1.pass d ≠ .busy)
    (hb : s.bankAt (s.ix.half0.base.getD 0) = some b) :
    ∃ t, exec (.indigoPassEnd d) s = .next t ∧ PassAdded b s.ix.half0 d s t ∧
      (s.ix.half0.pass (1 - d) ≠ .over → t.ix.half0 = s.ix.half0.passed d) ∧
      (s.ix.half0.pass (1 - d) = .over → (s.ix.half0.woad = .over ∨ s.wdRuns = false) →
        t.ix.half0 = halfFree ∧ t.ix.done = max s.ix.done (s.ix.half0.base.getD 0 + 8192 * s.ix.half0.cap)) := by
  obtain ⟨hadd, hdone⟩ := passAdded_passAdd s b s.ix.half0 hd
  have hruns : (s.passAdd b s.ix.half0 d).wdRuns = s.wdRuns := wdRuns_of_kept hadd.moved.wd hadd.woad
  refine ⟨_, indigoPassEnd_first hon hd h0 h1 hb, hadd.closed (passKept_passClosed _ _ _ _), fun hp => passClosed_waits hd _ _ hp, fun hp hw => ?_⟩
  rw [← hdone]
  exact passClosed_frees hd _ _ hp (by rw [hruns]; exact hw)

/-! ### The obligation -/

/-- Settles O38: staging by `stagingFillArrival_stores` and `stageFill_drops`, shedding by `bit_shedMask`. A pass adds to an entry at most once because
an entry is that of one bin of one region and one pair of paths (`vatEntry_inj`), and the groups of a die cover each pair of a region's bin
(`mem_dieTerms`). -/
theorem stagingPassesAndTheirSums : Obligations.StagingPassesAndTheirSums := by
  unfold Obligations.StagingPassesAndTheirSums
  intro s hon
  refine ⟨stagingFillArrival_none hon, ?_, ?_, ?_, fun d _ => indigoPassEnd_none hon, ?_⟩
  · intro r rs hr hct holds
    exact ⟨_, stagingFillArrival_record hon hr hct holds, rfl, rfl, rfl⟩
  · intro f fs hf hct holds hcomp
    refine ⟨fun h hh hst => ?_, fun n hh h0 h1 hst ht => ?_⟩
    · obtain ⟨t, hexec, hframe, hother, x, hx, hmem⟩ := stagingFillArrival_stores hon hf hct holds hcomp hh hst
      refine ⟨t, hexec, hframe, hother, fillSpec f (s.half h) x, hmem, hx, ?_⟩
      rw [path_fillSpec]
      exact ⟨rfl, rfl, rfl, rfl, rfl, fun c hfirst hlast hc => data_fillPath _ _ _ hfirst hlast hc⟩
    · have hexec := stagingFillArrival_fill hon hf hct holds hcomp
      exact ⟨_, hexec, stageFill_drops (s := s.fillTaken fs) hh h0 h1 hst ht⟩
  · intro d hd hcomp h0 h1 ready
    refine ⟨fun hr0 hr1 => ?_, fun hr0 hr1 => ?_⟩
    · exact indigoPassStart_none hon hd hcomp h0 h1
        (oldestHalf_none (Bool.eq_false_iff.2 fun h => hr0 ((Half.ready_iff _ _).1 h)) (Bool.eq_false_iff.2 fun h => hr1 ((Half.ready_iff _ _).1 h)))
    · obtain ⟨t, hexec, hbusy, hhalf1, hframe, hrf, hshed, hnone, hsome⟩ := indigoPassStart_first hon hd hcomp h0 h1 ((Half.ready_iff _ _).2 hr0)
        (Bool.eq_false_iff.2 fun h => hr1 ((Half.ready_iff _ _).1 h))
      refine ⟨t, hexec, hbusy, hhalf1, hframe, hrf, fun p hp hlow hfit q _ => ?_, hnone, hsome⟩
      rw [hshed]
      exact bit_shedMask hp hlow hfit q
  · intro d hd b h0 h1 hb h x shed
    obtain ⟨t, hexec, hadd, hwaits, hfrees⟩ := indigoPassEnd_adds hon hd h0 h1 hb
    refine ⟨t, hexec, hadd.moved.eq, hadd.other, hadd.half1, ?_, ?_, ?_, hwaits, hfrees⟩
    · intro r rg i j n hr hij hj hfirst hlast hn
      rw [hadd.vat]
      exact vatPlusAll_dieTerms _ hr hij hj hfirst hlast hn
    · intro p c hp hfirst hlast
      rw [hadd.spec]
      exact specPlusAll_spectroTerms _ hp ⟨hfirst, hlast⟩
    · intro r rg hr
      rw [hadd.acc]
      exact accAll_region hr _

end Sys2Proof.Machine
end

-- ==== The correlator left alone by replies and stores ====
section

namespace Sys2Proof.Machine

variable {s t u : State} {hi : Nat}

/-- The correlator's state, time and the queue stand as they did, and the registers from 0x300000 to `hi`. -/
structure CorrKept (hi : Nat) (s t : State) : Prop where
  ix : t.ix = s.ix
  time : t.time = s.time
  events : t.events = s.events
  reg : ∀ a, 0x300000 ≤ a → a < hi → t.reg a = s.reg a

theorem CorrKept.refl (hi : Nat) (s : State) : CorrKept hi s s := ⟨rfl, rfl, rfl, fun _ _ _ => rfl⟩

theorem CorrKept.trans (h : CorrKept hi s t) (h' : CorrKept hi t u) : CorrKept hi s u :=
  ⟨h'.ix.trans h.ix, h'.time.trans h.time, h'.events.trans h.events, fun a ha hb => (h'.reg a ha hb).trans (h.reg a ha hb)⟩

/-- An operation that touches neither the registers nor what the correlator reads keeps the correlator. -/
theorem CorrKept.congr (h : CorrKept hi s t) (hix : u.ix = t.ix) (htime : u.time = t.time) (hev : u.events = t.events) (hregs : u.regs = t.regs) :
    CorrKept hi s u :=
  h.trans ⟨hix, htime, hev, fun a _ _ => congrArg (tblGet 0 · a) hregs⟩

theorem CorrKept.ite {c : Prop} [Decidable c] (ht : CorrKept hi s t) (hu : CorrKept hi s u) : CorrKept hi s (if c then t else u) := by
  split
  · exact ht
  · exact hu

theorem CorrKept.foldl {β : Type} {f : State → β → State} {l : List β} (h : CorrKept hi s t)
    (hf : ∀ u, ∀ b ∈ l, CorrKept hi s u → CorrKept hi s (f u b)) :
    CorrKept hi s (l.foldl f t) :=
  List.foldlRecOn l f h fun u hu b hb => hf u b hb hu

/-! ### Registers and interrupts -/

theorem CorrKept.setReg (h : CorrKept hi s t) {a : Nat} (ha : a < 0x300000 ∨ hi ≤ a) (v : Word) : CorrKept hi s (t.setReg a v) :=
  h.trans ⟨rfl, rfl, rfl, fun o ho hb => t.reg_setReg_ne v (by omega)⟩

theorem CorrKept.setF (h : CorrKept hi s t) {a : Nat} (ha : a < 0x300000 ∨ hi ≤ a) (f : Fld) (v : Nat) : CorrKept hi s (t.setF a f v) := h.setReg ha _

theorem CorrKept.setFB (h : CorrKept hi s t) {a : Nat} (ha : a < 0x300000 ∨ hi ≤ a) (f : Fld) (i : Nat) (b : Bool) : CorrKept hi s (t.setFB a f i b) :=
  h.setF ha _ _

theorem CorrKept.setReg64 (h : CorrKept hi s t) {a : Nat} (ha : a + 4 < 0x300000 ∨ hi ≤ a) (v : Nat) : CorrKept hi s (t.setReg64 a v) :=
  (h.setReg (by omega) _).setReg (by omega) _

theorem CorrKept.setSeenB (h : CorrKept hi s t) {a : Nat} (ha : a < 0x300000 ∨ hi ≤ a) (f : Fld) (i : Nat) : CorrKept hi s (t.setSeenB a f i) :=
  (h.setFB ha f i true).congr rfl rfl rfl rfl

theorem CorrKept.bump (h : CorrKept hi s t) {a : Nat} (ha : a < 0x300000 ∨ hi ≤ a) : CorrKept hi s (t.bump a) :=
  (h.setF ha counter32 _).congr rfl rfl rfl rfl

theorem CorrKept.raise (h : CorrKept hi s t) (hhi : hi ≤ 0xE00000) {i : Nat} (hi' : i < 96) : CorrKept hi s (t.raise i) :=
  h.trans ⟨t.raise_ix i, t.raise_time i, t.raise_events i, fun a ha hb => t.reg_raise i hi' (by unfold intReg EV_INT_STAT; omega)⟩

theorem CorrKept.seen (h : CorrKept hi s t) (hhi : hi ≤ 0xE00000) {a : Nat} (ha : a < 0x300000 ∨ hi ≤ a) (f : Fld) {i : Nat} (hi' : i < 96) :
    CorrKept hi s (t.seen a f i) :=
  CorrKept.raise (t := t.setSeen a f 1) ((h.setF ha f 1).congr rfl rfl rfl rfl) hhi hi'

/-! ### Ports, the Miltia link, notices and the queue's bits -/

theorem CorrKept.setPort (h : CorrKept hi s t) (n : Nat) (p : PortSt) : CorrKept hi s (t.setPort n p) := h.congr rfl rfl rfl rfl

theorem CorrKept.stampTx (h : CorrKept hi s t) (n : Nat) (f : TxFrame) : CorrKept hi s (t.stampTx n f) := by
  unfold State.stampTx
  split
  · exact h
  · exact h.congr rfl rfl rfl rfl

theorem CorrKept.txBegin (h : CorrKept hi s t) (n c : Nat) (f : TxFrame) (cut : Option TxFrame) : CorrKept hi s (t.txBegin n c f cut) :=
  CorrKept.stampTx (h.setPort _ _) _ _

theorem portCounter_high (n : Nat) : 0x600000 ≤ ET_P_TX_PREEMPT n ∧ 0x600000 ≤ ET_P_C0_OVERFLOW n := by
  unfold ET_P_TX_PREEMPT ET_P_C0_OVERFLOW
  omega

theorem CorrKept.txStart (h : CorrKept hi s t) (hhi : hi ≤ 0x600000) (n : Nat) : CorrKept hi s (t.txStart n) := by
  obtain ⟨hpre, -⟩ := portCounter_high n
  unfold State.txStart
  dsimp only
  refine .ite h ?_
  split
  · exact .ite ((h.txBegin _ _ _ _).bump (.inr (hhi.trans hpre))) h
  · exact h
  · exact h.txBegin _ _ _ _
  · exact h.setPort _ _
  · split
    · exact h
    · exact h.txBegin _ _ _ _

theorem CorrKept.txQueue (h : CorrKept hi s t) (hhi : hi ≤ 0x600000) (n : Nat) (f : TxFrame) : CorrKept hi s (t.txQueue n f) := by
  obtain ⟨-, hover⟩ := portCounter_high n
  exact .ite (.ite (h.setPort _ _) (h.bump (.inr (hhi.trans hover))))
    (.ite (CorrKept.txStart (h.setPort _ _) hhi n) (CorrKept.txStart (h.setPort _ _) hhi n))

theorem CorrKept.mlSend (h : CorrKept hi s t) (m : MlMsg) : CorrKept hi s (t.mlSend m) :=
  .ite (CorrKept.foldl (h.congr rfl rfl rfl rfl) fun _ _ _ hu => hu.congr rfl rfl rfl rfl) (h.congr rfl rfl rfl rfl)

theorem CorrKept.deltaSend (h : CorrKept hi s t) : CorrKept hi s t.deltaSend := .ite (h.mlSend _) h

theorem CorrKept.hostNotice (h : CorrKept hi s t) (hhi : hi ≤ 0x600000) (r : Reply) : CorrKept hi s (t.hostNotice r) := by
  have hmb : hi ≤ CP_MB_STAT := hhi.trans (by decide)
  have hwr : hi ≤ CP_NT_WR := hhi.trans (by decide)
  refine .ite (.setF ?_ (.inr hmb) _ _) (.raise (.setF ?_ (.inr hwr) _ _) (by omega) (i := evNotice) (by decide))
  · exact h.congr rfl rfl rfl rfl
  · exact h.congr rfl rfl rfl rfl

theorem CorrKept.mgmtNotice (h : CorrKept hi s t) (hhi : hi ≤ 0x600000) (r : Reply) : CorrKept hi s (t.mgmtNotice r) := by
  have hmb : hi ≤ CP_MB_STAT := hhi.trans (by decide)
  have hwr : hi ≤ CP_NT_WR := hhi.trans (by decide)
  refine .ite (.setF ?_ (.inr hmb) _ _) (.setF ?_ (.inr hwr) _ _)
  · exact h.congr rfl rfl rfl rfl
  · exact h.congr rfl rfl rfl rfl

theorem CorrKept.udpReply (h : CorrKept hi s t) (hhi : hi ≤ 0x600000) (n mac : Nat) (ip : Word) (port : Nat) (r : Reply) :
    CorrKept hi s (t.udpReply n mac ip port r) :=
  CorrKept.txQueue (t := t.draw) (h.congr rfl rfl rfl rfl) hhi _ _

theorem CorrKept.notify (h : CorrKept hi s t) (hhi : hi ≤ 0x600000) (e : Event) (status : Nat) (words : List Word) :
    CorrKept hi s (t.notify e status words) := by
  refine .ite (h.congr rfl rfl rfl rfl) ?_
  unfold State.notice
  cases e.cmd.transport with
  | slot k => exact .ite (h.hostNotice hhi _) (h.mgmtNotice hhi _)
  | udp n mac ip port => exact .ite (h.udpReply hhi _ _ _ _ _) h
  | miltia => exact .ite (h.mlSend _) h
  | script => exact h
  | muted => exact h

theorem CorrKept.schedSync (h : CorrKept 0x302000 s t) : CorrKept 0x302000 s t.schedSync := by
  have hmd (k : Nat) (hk : k ∈ List.range 64) : MD_CH_SL_STAT k < 0x300000 ∨ 0x302000 ≤ MD_CH_SL_STAT k := by
    have := List.mem_range.1 hk
    unfold MD_CH_SL_STAT
    omega
  have hq : CorrKept 0x302000 s t.queuedFlags :=
    ((h.setF (.inr (by decide)) _ _).setF (.inr (by decide)) _ _).foldl fun _ k hk hu => hu.setF (hmd k hk) _ _
  exact (hq.setF (.inr (by decide)) _ _).setReg64 (.inr (by decide)) _

/-! ### A block's own store (R335 to R339) -/

theorem corrKept_drUe (s : State) (a : Nat) : CorrKept 0x800000 s (s.drUe a) := by
  have haddr (n : Nat) : 0x800000 ≤ DR_CH_UEADDR_LO n ∧ 0x800000 ≤ DR_CH_UE n := by
    unfold DR_CH_UEADDR_LO DR_CH_UE
    omega
  unfold State.drUe
  extract_lets n
  obtain ⟨hlo, hue⟩ := haddr n
  refine CorrKept.seen ?_ (by decide) (.inr (by decide)) _ (by decide)
  have h1 := (((CorrKept.refl 0x800000 s).bump (.inr hue)).setReg64 (.inr hlo) a)
  exact h1.trans ⟨State.logEvent_ix _ _ _ _, State.logEvent_time _ _ _ _, State.logEvent_events _ _ _ _,
    fun o _ ho => State.reg_logEvent _ _ _ _ (by unfold PW_LOG_SEQ; omega)⟩

/-- The registers that a violation writes, the interrupts' apart (R551). -/
def violationRegs : List Nat := [GLB_AV_COUNT, GLB_AV_STAT, GLB_AV_ADDR_LO, GLB_AV_ADDR_LO + 4, GLB_AV_DATA, PW_LOG_SEQ]

/-- A violation writes its own registers, the log's and the interrupts' (R551). -/
theorem reg_violation_of_bump (s : State) (src kind addr data : Nat) {o : Nat} (hint : ¬ intReg o) (ho : o ∉ violationRegs.tail) :
    (s.violation src kind addr data).reg o = (s.bump GLB_AV_COUNT).reg o := by
  obtain ⟨hstat, hlo, hhi, hdata, hseq⟩ : o ≠ GLB_AV_STAT ∧ o ≠ GLB_AV_ADDR_LO ∧ o ≠ GLB_AV_ADDR_LO + 4 ∧ o ≠ GLB_AV_DATA ∧ o ≠ PW_LOG_SEQ := by
    simpa only [violationRegs, List.tail_cons, List.mem_cons, not_or, List.not_mem_nil, not_false_eq_true, and_true] using ho
  have h1 (stat : Word) : ((s.bump GLB_AV_COUNT).noteViolation stat addr data).reg o = (s.bump GLB_AV_COUNT).reg o := reg_noteViolation _ _ _ _ _
  rw [State.violation, State.reg_raise _ _ (by decide) hint]
  split
  · rw [← h1 (w32 (2 ^ 31 + src % 8 * 2 ^ 28 + kind % 16 * 2 ^ 24))]
    rfl
  · rw [reg_logViolation _ hseq, State.reg_setReg_ne _ _ hdata, State.reg_setReg64_ne _ _ hlo hhi, State.reg_setReg_ne _ _ hstat, h1]

theorem corrKept_violation (s : State) (src kind addr data : Nat) : CorrKept 0x800000 s (s.violation src kind addr data) := by
  refine ⟨s.violation_ix _ _ _ _, s.violation_time _ _ _ _, s.violation_events _ _ _ _, fun o hlo hhi => ?_⟩
  have hne : o ∉ violationRegs := by
    simp only [violationRegs, List.mem_cons, List.not_mem_nil, or_false, GLB_AV_COUNT, GLB_AV_STAT, GLB_AV_ADDR_LO, GLB_AV_DATA, PW_LOG_SEQ]
    omega
  rw [reg_violation_of_bump _ _ _ _ _ (by unfold intReg EV_INT_STAT; omega) fun h => hne (List.mem_of_mem_tail h)]
  exact State.reg_bump_ne _ fun h => hne (h ▸ List.mem_cons_self)

theorem corrKept_drStore (s : State) (a : Nat) (bs : List Byte) : CorrKept 0x800000 s (s.drStore a bs) := by
  refine .ite ?_ (corrKept_violation _ _ _ _ _)
  unfold State.drWrite
  extract_lets part bad s1 s2
  exact CorrKept.foldl ((CorrKept.refl _ s).congr rfl rfl rfl rfl) fun u c _ hu => hu.trans (corrKept_drUe u _)

/-- A store past the installed size is counted as a violation (R335). -/
theorem drStore_out_counted {a : Nat} {bs : List Byte} (h : s.drIn a bs.length = false) :
    (s.drStore a bs).reg GLB_AV_COUNT = w32 (min (2 ^ 32 - 1) ((s.reg GLB_AV_COUNT).toNat + 1)) := by
  rw [State.drStore, if_neg (by rw [h]; decide), State.drBad, reg_violation_of_bump _ _ _ _ _ (by unfold intReg; decide) (by decide),
    State.reg_bump_same]

end Sys2Proof.Machine
end

-- ==== Integrations: banks, closes and starts ====
section

namespace Sys2Proof.Machine

variable {s t u : State} {b c : Bool} {e fl : Nat}

/-! ### The open bank and the free one -/

theorem curBank_some (h : s.curBank = some c) : (s.bank c).start.isSome = true ∧ (s.bank c).stop = none := by
  unfold State.curBank at h
  split at h
  · next ha =>
    obtain rfl := Option.some.inj h
    rw [Bool.and_eq_true] at ha
    exact ⟨ha.1, Option.isNone_iff_eq_none.1 ha.2⟩
  · split at h
    · next hb =>
      obtain rfl := Option.some.inj h
      rw [Bool.and_eq_true] at hb
      exact ⟨hb.1, Option.isNone_iff_eq_none.1 hb.2⟩
    · cases h

/-- The only bank with an open integration is the open bank. -/
theorem curBank_eq (hc : (s.bank c).start.isSome = true) (hstop : (s.bank c).stop = none) (hother : (s.bank (!c)).start = none) :
    s.curBank = some c := by
  unfold State.bank at hc hstop hother
  cases c <;> simp_all [State.curBank]

/-- Of two banks, one in use, the other is the free one. -/
theorem freeBank_eq (hc : (s.bank c).start.isSome = true) (hother : (s.bank (!c)).start = none) : s.freeBank = some (!c) := by
  unfold State.bank at hc hother
  cases c <;> simp_all [State.freeBank, Option.isSome_iff_ne_none]

theorem freeBank_none (hc : (s.bank c).start.isSome = true) (hother : (s.bank (!c)).start ≠ none) : s.freeBank = none := by
  unfold State.bank at hc hother
  cases c <;> simp_all [State.freeBank, Option.isSome_iff_ne_none]

theorem freeBank_first (h : s.ix.bankA.start = none) : s.freeBank = some false := by
  rw [State.freeBank, h]
  rfl

/-- What the two banks hold decides which is open and which is free. -/
theorem curBank_of_banks (ha : t.ix.bankA = s.ix.bankA) (hb : t.ix.bankB = s.ix.bankB) : t.curBank = s.curBank := by
  rw [State.curBank, State.curBank, ha, hb]

theorem freeBank_of_banks (ha : t.ix.bankA = s.ix.bankA) (hb : t.ix.bankB = s.ix.bankB) : t.freeBank = s.freeBank := by
  rw [State.freeBank, State.freeBank, ha, hb]

theorem State.bank_of_banks (ha : t.ix.bankA = s.ix.bankA) (hb : t.ix.bankB = s.ix.bankB) (c : Bool) : t.bank c = s.bank c := by
  rw [State.bank, State.bank, ha, hb]

/-! ### What closes and starts change -/

/-- The registers that a close and a start write, an interrupt's apart. -/
def gridRegs : List Nat := [IX_STAT, IX_BANK_STAT, IX_NEXT_CLOSE_LO, IX_NEXT_CLOSE_LO + 4, IX_INT_START_LO, IX_INT_START_LO + 4, IX_OVERRUNS]

/-- `t` is `s` but for what a close or a start of an integration changes. -/
structure GridMoved (s t : State) : Prop where
  frame : ∃ r f o x y, t = { s with regs := r, fresh := f, out := o, ix := x, ch := { s.ch with bounds := y } }
  anchor : t.ix.anchor = s.ix.anchor
  regions : t.ix.regions = s.ix.regions
  ring : t.ix.ring = s.ix.ring
  reg : ∀ a, ¬ intReg a → a ∉ gridRegs → t.reg a = s.reg a

theorem GridMoved.trans (h : GridMoved s t) (h' : GridMoved t u) : GridMoved s u := by
  obtain ⟨⟨r, f, o, x, y, hf⟩, ha, hr, hg, hreg⟩ := h
  obtain ⟨⟨r', f', o', x', y', hf'⟩, ha', hr', hg', hreg'⟩ := h'
  refine ⟨⟨r', f', o', x', y', ?_⟩, ha'.trans ha, hr'.trans hr, hg'.trans hg, fun a hi hl => (hreg' a hi hl).trans (hreg a hi hl)⟩
  rw [hf', hf]

theorem GridMoved.refl (s : State) : GridMoved s s := ⟨⟨_, _, _, _, _, Eq.refl _⟩, rfl, rfl, rfl, fun _ _ _ => rfl⟩

/-- What a close or a start leaves of the other blocks. -/
theorem GridMoved.others (h : GridMoved s t) : t.mem = s.mem ∧ t.events = s.events ∧ t.log = s.log ∧ t.time = s.time ∧ t.ml = s.ml := by
  obtain ⟨r, f, o, x, y, rfl⟩ := h.frame
  exact ⟨Eq.refl _, Eq.refl _, Eq.refl _, Eq.refl _, Eq.refl _⟩

theorem GridMoved.regs (hr : RegsMoved s t) (hreg : ∀ a, ¬ intReg a → a ∉ gridRegs → t.reg a = s.reg a) : GridMoved s t := by
  have hix := hr.ix
  obtain ⟨r, f, o, hf⟩ := hr
  exact ⟨⟨r, f, o, s.ix, s.ch.bounds, hf⟩, by rw [hix], by rw [hix], by rw [hix], hreg⟩

theorem gridMoved_setReg (s : State) {a : Nat} (ha : a ∈ gridRegs) (v : Word) : GridMoved s (s.setReg a v) :=
  .regs (regsMoved_setReg _ _ _) fun _ _ ho => s.reg_setReg_ne v fun h => ho (h ▸ ha)

theorem gridMoved_setF (s : State) {a : Nat} (ha : a ∈ gridRegs) (f : Fld) (v : Nat) : GridMoved s (s.setF a f v) := gridMoved_setReg s ha _

theorem gridMoved_setReg64 (s : State) {a : Nat} (ha : a ∈ gridRegs) (ha' : a + 4 ∈ gridRegs) (v : Nat) : GridMoved s (s.setReg64 a v) :=
  (gridMoved_setReg s ha _).trans (gridMoved_setReg _ ha' _)

theorem gridMoved_setBank (s : State) (c : Bool) (x : Bank) : GridMoved s (s.setBank c x) := by
  cases c <;> exact ⟨⟨_, _, _, _, _, Eq.refl _⟩, rfl, rfl, rfl, fun _ _ _ => rfl⟩

theorem gridMoved_cutAt (s : State) (e : Nat) : GridMoved s (s.cutAt e) := ⟨⟨_, _, _, _, _, Eq.refl _⟩, rfl, rfl, rfl, fun _ _ _ => rfl⟩

theorem gridMoved_epochBound (s : State) (e : Nat) (runs : Bool) : GridMoved s (s.epochBound e runs) :=
  ⟨⟨_, _, _, _, _, Eq.refl _⟩, rfl, rfl, rfl, fun _ _ _ => rfl⟩

theorem State.bank_cutAt (s : State) (e : Nat) (b : Bool) : (s.cutAt e).bank b = s.bank b := by cases b <;> rfl

/-! ### The open integration ends (R185) -/

/-- The open integration of bank `c` has its closing boundary at `e`. -/
structure Ended (c : Bool) (e : Nat) (s t : State) : Prop where
  moved : GridMoved s t
  bank : t.bank c = { s.bank c with stop := some e }
  other : t.bank (!c) = s.bank (!c)
  bounds : (e, true) ∈ t.ch.bounds
  regs : t.regs = s.regs

theorem mem_epochBound (s : State) (e : Nat) (runs : Bool) : (e, runs) ∈ (s.epochBound e runs).ch.bounds := by
  show (e, runs) ∈ ((e, runs) :: _).take 64
  rw [List.take_succ_cons]
  exact List.mem_cons_self

theorem ended_endIntegration (h : s.curBank = some c) (e : Nat) : Ended c e s (s.endIntegration e) := by
  have heq : s.endIntegration e = ((s.setBank c { s.bank c with stop := some e }).cutAt e).epochBound e true := by rw [State.endIntegration, h]
  rw [heq]
  refine ⟨((gridMoved_setBank _ _ _).trans (gridMoved_cutAt _ _)).trans (gridMoved_epochBound _ _ _), ?_, ?_, mem_epochBound _ _ _, ?_⟩
  · exact (State.bank_of_ix rfl c).trans ((State.bank_cutAt _ _ _).trans (State.bank_setBank_same _ _ _))
  · exact (State.bank_of_ix rfl (!c)).trans ((State.bank_cutAt _ _ _).trans (State.bank_setBank_not _ _ _))
  · cases c <;> rfl

/-! ### An integration starts (R185) -/

/-- An integration has started in bank `f` at `e`. -/
structure Opened (f : Bool) (e fl : Nat) (s t : State) : Prop where
  moved : GridMoved s t
  ix : t.ix = (s.setBank f (s.freshBank e fl)).ix
  state : t.rf IX_STAT IX_STAT_STATE = 1
  close : t.dueAt = s.nextGrid e % 2 ^ 64
  bounds : t.ch = s.ch

theorem Opened.bank (h : Opened b e fl s t) : t.bank b = s.freshBank e fl := (State.bank_of_ix h.ix b).trans (State.bank_setBank_same _ _ _)

theorem Opened.other (h : Opened b e fl s t) : t.bank (!b) = s.bank (!b) := (State.bank_of_ix h.ix (!b)).trans (State.bank_setBank_not _ _ _)

/-- A bank takes an integration, and IX_STAT.STATE is RUNNING. -/
def State.bankOpened (s : State) (b : Bool) (x : Bank) : State := (s.setBank b x).setF IX_STAT IX_STAT_STATE 1

theorem bankOpened_ix (s : State) (b : Bool) (x : Bank) : (s.bankOpened b x).ix = (s.setBank b x).ix ∧ (s.bankOpened b x).ch = s.ch := by
  rw [State.bankOpened, State.setF_ix, State.setF_ch]
  cases b <;> exact ⟨Eq.refl _, Eq.refl _⟩

theorem gridMoved_bankOpened (s : State) (b : Bool) (x : Bank) : GridMoved s (s.bankOpened b x) := by
  rw [State.bankOpened]
  exact (gridMoved_setBank _ _ _).trans (gridMoved_setF _ (by decide) _ _)

theorem rf_bankOpened (s : State) (b : Bool) (x : Bank) : (s.bankOpened b x).rf IX_STAT IX_STAT_STATE = 1 := by
  rw [State.bankOpened, State.rf_setF_same _ _ _ _ (by decide)]
  rfl

/-- The registers that name the due close, and where no other bank is in use the open bank and its start. -/
def State.startNamed (s : State) (g e k : Nat) (only : Bool) : State :=
  if only then ((s.setReg64 IX_NEXT_CLOSE_LO g).setF IX_BANK_STAT IX_BANK_STAT_OPEN k).setReg64 IX_INT_START_LO e else s.setReg64 IX_NEXT_CLOSE_LO g

theorem startNamed_ix (s : State) (g e k : Nat) (only : Bool) : (s.startNamed g e k only).ix = s.ix ∧ (s.startNamed g e k only).ch = s.ch := by
  cases only <;> simp [State.startNamed]

theorem gridMoved_startNamed (s : State) (g e k : Nat) (only : Bool) : GridMoved s (s.startNamed g e k only) := by
  have h1 : GridMoved s (s.setReg64 IX_NEXT_CLOSE_LO g) := gridMoved_setReg64 _ (by decide) (by decide) _
  rw [State.startNamed]
  cases only with
  | false => exact h1
  | true => exact (h1.trans (gridMoved_setF _ (by decide) _ _)).trans (gridMoved_setReg64 _ (by decide) (by decide) _)

theorem reg_startNamed (s : State) (g e k : Nat) (only : Bool) :
    (s.startNamed g e k only).reg IX_STAT = s.reg IX_STAT ∧ (s.startNamed g e k only).dueAt = g % 2 ^ 64 := by
  have hg : (s.setReg64 IX_NEXT_CLOSE_LO g).reg64 IX_NEXT_CLOSE_LO = g % 2 ^ 64 := State.reg64_setReg64 _ _ _
  have hstat : (s.setReg64 IX_NEXT_CLOSE_LO g).reg IX_STAT = s.reg IX_STAT := State.reg_setReg64_ne _ _ (by decide) (by decide)
  unfold State.startNamed State.dueAt
  generalize s.setReg64 IX_NEXT_CLOSE_LO g = v at hg hstat ⊢
  cases only with
  | false => exact ⟨hstat, hg⟩
  | true =>
    refine ⟨(State.reg_setReg64_ne _ _ (by decide) (by decide)).trans ((State.reg_setF_ne _ _ _ (by decide)).trans hstat), ?_⟩
    rw [if_pos rfl, State.reg64_setReg64_ne _ _ (by decide) (by decide) (by decide)]
    exact (State.reg64_of_reg (State.reg_setF_ne _ _ _ (by decide)) (State.reg_setF_ne _ _ _ (by decide))).trans hg

theorem opened_startIntegration (h : s.freeBank = some b) (e fl : Nat) : Opened b e fl s (s.startIntegration e fl) := by
  have heq : s.startIntegration e fl =
      (s.bankOpened b (s.freshBank e fl)).startNamed (s.nextGrid e) e (b2n b) (s.bank (!b)).start.isNone := by
    rw [State.startIntegration, h, State.startNamed, State.bankOpened]
  rw [heq]
  obtain ⟨hix, hch⟩ := bankOpened_ix s b (s.freshBank e fl)
  have hstate := rf_bankOpened s b (s.freshBank e fl)
  have hmoved := gridMoved_bankOpened s b (s.freshBank e fl)
  generalize s.bankOpened b (s.freshBank e fl) = v at *
  obtain ⟨hix', hch'⟩ := startNamed_ix v (s.nextGrid e) e (b2n b) (s.bank (!b)).start.isNone
  obtain ⟨hstat, hdue⟩ := reg_startNamed v (s.nextGrid e) e (b2n b) (s.bank (!b)).start.isNone
  exact ⟨hmoved.trans (gridMoved_startNamed _ _ _ _ _), hix'.trans hix, (State.rf_of_reg hstat _).trans hstate, hdue, hch'.trans hch⟩

theorem startIntegration_none (h : s.freeBank = none) (e fl : Nat) : s.startIntegration e fl = s := by rw [State.startIntegration, h]

/-! ### A close at a boundary (R185, R194) -/

theorem closeAt_free (h : s.freeBank.isSome = true) (e fl : Nat) : s.closeAt e fl = (s.endIntegration e).startIntegration e fl := if_pos h

/-- The open integration of bank `c` closes at `e`, and the next opens there in the other bank. -/
structure ClosedAt (c : Bool) (e fl : Nat) (s t : State) : Prop where
  moved : GridMoved s t
  bank : t.bank c = { s.bank c with stop := some e }
  next : ∃ v : State, t.bank (!c) = v.freshBank e fl
  state : t.rf IX_STAT IX_STAT_STATE = 1
  bounds : (e, true) ∈ t.ch.bounds
  close : t.dueAt = s.nextGrid e % 2 ^ 64
  deferred : t.ix.deferred = s.ix.deferred

theorem nextGrid_of_kept (hreg : t.reg IX_INT_LEN = s.reg IX_INT_LEN) (ha : t.ix.anchor = s.ix.anchor) (ht : t.time = s.time) (e : Nat) :
    t.nextGrid e = s.nextGrid e := by
  have hlen : t.intLen = s.intLen := by rw [State.intLen, State.intLen, State.rf_of_reg hreg]
  rw [State.nextGrid, State.nextGrid, hlen, ha, ht]

/-- The integration that opens starts empty, with the flags given. -/
theorem freshBank_new (s : State) (e fl : Nat) : (s.freshBank e fl).start = some e ∧ (s.freshBank e fl).stop = none ∧ (s.freshBank e fl).vat = [] ∧
    (s.freshBank e fl).spec = [] ∧ (s.freshBank e fl).flags = fl ∧ (s.freshBank e fl).regions = s.ix.regions := ⟨rfl, rfl, rfl, rfl, rfl, rfl⟩

theorem deferred_endIntegration (s : State) (e : Nat) : (s.endIntegration e).ix.deferred = s.ix.deferred := by
  unfold State.endIntegration
  split
  · next c _ => cases c <;> rfl
  · rfl

theorem closedAt_closeAt (hc : s.curBank = some c) (hfree : (s.bank (!c)).start = none) (e fl : Nat) : ClosedAt c e fl s (s.closeAt e fl) := by
  obtain ⟨hstart, -⟩ := curBank_some hc
  have hend := ended_endIntegration hc e
  have hdef := deferred_endIntegration s e
  rw [closeAt_free (by rw [freeBank_eq hstart hfree]; rfl)]
  generalize s.endIntegration e = v at hend hdef ⊢
  have hv : v.freeBank = some (!c) := freeBank_eq (by rw [hend.bank]; exact hstart) (by rw [hend.other, hfree])
  have hopen := opened_startIntegration hv e fl
  obtain ⟨-, -, -, htime, -⟩ := hend.moved.others
  refine ⟨hend.moved.trans hopen.moved, ?_, ⟨v, hopen.bank⟩, hopen.state, ?_, ?_, ?_⟩
  · have hother := hopen.other
    rw [Bool.not_not] at hother
    exact hother.trans hend.bank
  · rw [hopen.bounds]
    exact hend.bounds
  · rw [hopen.close, nextGrid_of_kept (hend.moved.reg _ (by unfold intReg; decide) (by decide)) hend.moved.anchor htime]
  · rw [hopen.ix, State.setBank_eq]
    exact hdef

/-- With the other bank in use the close is deferred, and the integration flagged and counted an overrun. -/
structure Deferred (c : Bool) (s t : State) : Prop where
  moved : GridMoved s t
  deferred : t.ix.deferred = true
  bank : t.bank c = { s.bank c with flags := setBit (s.bank c).flags fOverrun }
  other : t.bank (!c) = s.bank (!c)
  count : t.reg IX_OVERRUNS = w32 (min (2 ^ 32 - 1) ((s.reg IX_OVERRUNS).toNat + 1))
  seen : t.flag IX_STAT IX_STAT_OVERRUN_SEEN = true

/-- The close of bank `c`'s integration deferred, before it is counted. -/
def State.deferClose (s : State) (c : Bool) : State :=
  { s.bankFlag c fOverrun with ix := { (s.bankFlag c fOverrun).ix with deferred := true } }

theorem deferClose_bank (s : State) (c : Bool) :
    (s.deferClose c).bank c = { s.bank c with flags := setBit (s.bank c).flags fOverrun } ∧ (s.deferClose c).bank (!c) = s.bank (!c) := by
  cases c <;> exact ⟨rfl, rfl⟩

theorem gridMoved_deferClose (s : State) (c : Bool) : GridMoved s (s.deferClose c) := by
  cases c <;> exact ⟨⟨_, _, _, _, _, Eq.refl _⟩, rfl, rfl, rfl, fun _ _ _ => rfl⟩

/-- A deferred close is counted and signalled. -/
def State.overrunShown (s : State) : State := (s.bump IX_OVERRUNS).seen IX_STAT IX_STAT_OVERRUN_SEEN evIndigo

theorem regsMoved_overrunShown (s : State) : RegsMoved s s.overrunShown := (regsMoved_bump _ _).trans (regsMoved_seen _ _ _ _)

theorem gridMoved_overrunShown (s : State) : GridMoved s s.overrunShown := by
  refine .regs (regsMoved_overrunShown s) fun a hi hl => ?_
  have hne (x : Nat) (hx : x ∈ gridRegs) : a ≠ x := fun h => hl (h ▸ hx)
  rw [State.overrunShown, State.reg_seen _ _ _ _ (by decide) hi (hne _ (by decide)), State.reg_bump_ne _ (hne _ (by decide))]

theorem closeAt_full (hfree : s.freeBank = none) (hdef : s.ix.deferred = false) (hc : s.curBank = some c) (e fl : Nat) :
    s.closeAt e fl = (s.deferClose c).overrunShown := by
  rw [State.closeAt, hfree, hdef, if_neg (by decide), if_neg (by decide), hc, State.overrunShown, State.deferClose]

theorem deferred_closeAt (hc : s.curBank = some c) (hfree : (s.bank (!c)).start ≠ none) (hdef : s.ix.deferred = false) (e fl : Nat) :
    Deferred c s (s.closeAt e fl) := by
  obtain ⟨hstart, -⟩ := curBank_some hc
  obtain ⟨hbank, hother⟩ := deferClose_bank s c
  have hix := (regsMoved_overrunShown (s.deferClose c)).ix
  have hreg : (s.deferClose c).reg IX_OVERRUNS = s.reg IX_OVERRUNS := by cases c <;> rfl
  rw [closeAt_full (freeBank_none hstart hfree) hdef hc]
  refine ⟨(gridMoved_deferClose s c).trans (gridMoved_overrunShown _), by rw [hix]; rfl, (State.bank_of_ix hix c).trans hbank,
    (State.bank_of_ix hix (!c)).trans hother, ?_, ?_⟩
  · rw [State.overrunShown, State.reg_seen _ _ _ _ (by decide) (by unfold intReg; decide) (by decide), State.reg_bump_same, hreg]
  · rw [State.overrunShown]
    exact State.flag_seen_same _ _ _ _ (by decide) (by unfold intReg; decide) (by decide) (by decide)

theorem gridMoved_endIntegration (s : State) (e : Nat) : GridMoved s (s.endIntegration e) := by
  cases hc : s.curBank with
  | some c => exact (ended_endIntegration hc e).moved
  | none =>
    rw [State.endIntegration, hc]
    exact gridMoved_epochBound _ _ _

theorem gridMoved_startIntegration (s : State) (e fl : Nat) : GridMoved s (s.startIntegration e fl) := by
  cases hf : s.freeBank with
  | some f => exact (opened_startIntegration hf e fl).moved
  | none =>
    rw [startIntegration_none hf]
    exact .refl s

/-- What a close at a boundary leaves alone, whether it falls, is deferred or finds no open integration. -/
theorem gridMoved_closeAt (s : State) (e fl : Nat) : GridMoved s (s.closeAt e fl) := by
  cases hf : s.freeBank with
  | some f =>
    rw [closeAt_free (by rw [hf]; rfl)]
    exact (gridMoved_endIntegration _ _).trans (gridMoved_startIntegration _ _ _)
  | none =>
    cases hdef : s.ix.deferred with
    | true =>
      rw [State.closeAt, hf, hdef, if_neg (by decide), if_pos rfl]
      exact .refl s
    | false =>
      cases hc : s.curBank with
      | some c =>
        rw [closeAt_full hf hdef hc]
        exact (gridMoved_deferClose s c).trans (gridMoved_overrunShown _)
      | none =>
        rw [State.closeAt, hf, hdef, if_neg (by decide), if_neg (by decide), hc]
        exact .refl s

end Sys2Proof.Machine
end

-- ==== Integrations: boundaries and bank closes ====
section

namespace Sys2Proof.Machine

variable {s t u : State} {b c : Bool} {e fl : Nat}

/-! ### A grid boundary falls due (R185, R194) -/

theorem exec_integrationBoundary (s : State) : exec .integrationBoundary s = execIntegrationBoundary s := (rfl)

/-- A unit without checkpoints sends no state record. -/
theorem recordSend_off (h : s.ckptOn = false) : s.recordSend = s := by rw [State.recordSend, h, if_neg Bool.false_ne_true]

theorem ckptOn_of_kept (hml : t.ml = s.ml) (hreg : t.reg ML_STAT = s.reg ML_STAT) : t.ckptOn = s.ckptOn := by
  rw [State.ckptOn, State.ckptOn, State.role, State.role, State.linkUp, State.linkUp, hml, State.rf_of_reg hreg, State.flag_of_reg hreg]

theorem GridMoved.ckptOn (h : GridMoved s t) : t.ckptOn = s.ckptOn := by
  obtain ⟨-, -, -, -, hml⟩ := h.others
  exact ckptOn_of_kept hml (h.reg _ (by unfold intReg; decide) (by decide))

theorem closeDue_iff (hc : s.curBank = some c) : s.closeDue = true ↔
    s.integrating = true ∧ s.running = true ∧ s.pw.compOn = true ∧ s.ix.deferred = false ∧ s.dueAt ≤ s.now := by
  rw [State.closeDue, hc]
  simp [and_assoc]

theorem integrationBoundary_idle (hon : s.on = true) (h : s.closeDue = false) : exec .integrationBoundary s = .next s := by
  rw [exec_integrationBoundary, execIntegrationBoundary, whenOn_on hon, h, if_neg Bool.false_ne_true]

theorem integrationBoundary_due (hon : s.on = true) (hck : s.ckptOn = false) (h : s.closeDue = true) :
    exec .integrationBoundary s = .next (s.closeAt s.dueAt 0) := by
  rw [exec_integrationBoundary, execIntegrationBoundary, whenOn_on hon, h, if_pos rfl, recordSend_off ((gridMoved_closeAt _ _ _).ckptOn.trans hck)]

/-- The first grid boundary after one of the grid is one integration later. -/
theorem nextGrid_on_grid {n : Nat} (hn : s.ix.anchor + n * s.intLen = e) (hlen : 0 < s.intLen) : s.nextGrid e = e + s.intLen := by
  have hdiv : (e - s.ix.anchor) / s.intLen = n := by rw [← hn, Nat.add_sub_cancel_left, Nat.mul_div_cancel _ hlen]
  rw [State.nextGrid]
  simp only [hdiv, hn, Nat.ne_of_gt hlen, if_false, if_true]

theorem integrationBoundary_closes (hon : s.on = true) (hck : s.ckptOn = false) (hc : s.curBank = some c) (hdue : s.closeDue = true)
    (hfree : (s.bank (!c)).start = none) :
    ∃ t, exec .integrationBoundary s = .next t ∧ (t.bank c).stop = some s.dueAt ∧ (t.bank c).vat = (s.bank c).vat ∧
      (t.bank (!c)).start = some s.dueAt ∧ (t.bank (!c)).stop = none ∧ (t.bank (!c)).vat = [] ∧ (t.bank (!c)).spec = [] ∧
      t.rf IX_STAT IX_STAT_STATE = 1 ∧ (s.dueAt, true) ∈ t.ch.bounds ∧ t.mem = s.mem ∧ t.events = s.events ∧ t.log = s.log ∧
      ∀ n, s.ix.anchor + n * s.intLen = s.dueAt → 0 < s.intLen → s.dueAt + s.intLen < 2 ^ 64 → t.dueAt = s.dueAt + s.intLen := by
  have hclose := closedAt_closeAt hc hfree s.dueAt 0
  obtain ⟨v, hnext⟩ := hclose.next
  obtain ⟨hstart, hstop, hvat, hspec, -, -⟩ := freshBank_new v s.dueAt 0
  obtain ⟨hmem, hev, hlog, -, -⟩ := hclose.moved.others
  refine ⟨_, integrationBoundary_due hon hck hdue, ?_, ?_, ?_, ?_, ?_, ?_, hclose.state, hclose.bounds, hmem, hev, hlog, ?_⟩
  · rw [hclose.bank]
  · rw [hclose.bank]
  · rw [hnext, hstart]
  · rw [hnext, hstop]
  · rw [hnext, hvat]
  · rw [hnext, hspec]
  · intro n hn hlen hlt
    rw [hclose.close, nextGrid_on_grid hn hlen, Nat.mod_eq_of_lt hlt]

theorem integrationBoundary_defers (hon : s.on = true) (hck : s.ckptOn = false) (hc : s.curBank = some c) (hdue : s.closeDue = true)
    (hdef : s.ix.deferred = false) (hfree : (s.bank (!c)).start ≠ none) :
    ∃ t, exec .integrationBoundary s = .next t ∧ t.ix.deferred = true ∧ bit (t.bank c).flags 0 = true ∧ (t.bank c).stop = none ∧
      t.bank (!c) = s.bank (!c) ∧ t.reg IX_OVERRUNS = w32 (min (2 ^ 32 - 1) ((s.reg IX_OVERRUNS).toNat + 1)) ∧
      t.flag IX_STAT IX_STAT_OVERRUN_SEEN = true ∧ t.mem = s.mem ∧ t.events = s.events := by
  have hd := deferred_closeAt hc hfree hdef s.dueAt 0
  obtain ⟨-, hstop⟩ := curBank_some hc
  obtain ⟨hmem, hev, -, -, -⟩ := hd.moved.others
  refine ⟨_, integrationBoundary_due hon hck hdue, hd.deferred, ?_, ?_, hd.other, hd.count, hd.seen, hmem, hev⟩
  · rw [hd.bank]
    exact bit_setBit _ _
  · rw [hd.bank]
    exact hstop

/-! ### A bank closes (R185, R192, R193) -/

theorem exec_bankClose (s : State) : exec .bankClose s = execBankClose s := (rfl)

theorem bankClose_none (hon : s.on = true) (h : s.closing = none) : exec .bankClose s = .next s := by
  rw [exec_bankClose, execBankClose, whenOn_on hon, h]

/-- Where a record goes depends on the role and the ring alone. -/
theorem recordPlace_of_kept (hml : t.ml = s.ml) (hring : t.ix.ring = s.ix.ring) (hstat : t.reg ML_STAT = s.reg ML_STAT)
    (hlen : t.reg IX_DUMP_LEN = s.reg IX_DUMP_LEN) (hwr : t.reg IX_DUMP_WR = s.reg IX_DUMP_WR) (x : Bank) (lost : Bool) :
    t.recordPlace x lost = s.recordPlace x lost := by
  have hrole : t.role = s.role := State.rf_of_reg hstat _
  have hout : t.recordOut x = s.recordOut x := by
    rw [State.recordOut, State.recordOut, State.outputsAt, State.outputsAt, State.outputs, State.outputs, hrole, hml]
  have hplace : t.ringPlace = s.ringPlace := by
    funext n
    rw [State.ringPlace, State.ringPlace, hring, hlen, hwr]
  rw [State.recordPlace, State.recordPlace, hout, hplace]

/-- A bank whose drain begins. -/
def State.drainStart (s : State) (c : Bool) : Bank := { s.bank c with draining := true, packed := s.flag IX_CTL IX_CTL_FMT }

/-- The registers that name the open bank and its start. -/
def State.openNamed (s : State) (c : Bool) : Option Nat → State
  | some a => (s.setF IX_BANK_STAT IX_BANK_STAT_OPEN (b2n c)).setReg64 IX_INT_START_LO a
  | none => s

/-- The bank closed, with its drain in the status register. -/
def State.drainNamed (s : State) (c : Bool) (x : Bank) : State :=
  ((s.setBank c x).setF IX_BANK_STAT IX_BANK_STAT_DRAINING 1).setF IX_BANK_STAT IX_BANK_STAT_DRAIN_LEFT (recordLen x false / 64)

theorem bankClose_some (hon : s.on = true) (h : s.closing = some c) : exec .bankClose s =
    .next (((s.drainNamed c (s.drainStart c)).drainWait (s.drainStart c)).openNamed (!c) (s.bank (!c)).start) := by
  have hother : (((s.drainNamed c (s.drainStart c)).drainWait (s.drainStart c)).bank (!c)).start = (s.bank (!c)).start := by
    have hbank : ((s.drainNamed c (s.drainStart c)).drainWait (s.drainStart c)).bank (!c) = (s.setBank c (s.drainStart c)).bank (!c) :=
      State.bank_of_ix (by rw [State.drainWait, State.setF_ix, State.drainNamed, State.setF_ix, State.setF_ix]) _
    rw [hbank, State.bank_setBank_not]
  rw [exec_bankClose, execBankClose, whenOn_on hon, h]
  simp only
  rw [← State.drainStart, ← State.drainNamed]
  cases hs : (s.bank (!c)).start with
  | some a =>
    rw [hs] at hother
    simp only [hother]
    rw [State.openNamed]
  | none =>
    rw [hs] at hother
    simp only [hother]
    rw [State.openNamed]

/-- `t` is `s` but for registers and the correlator. -/
def RegsIx (s t : State) : Prop := ∃ r x, t = { s with regs := r, ix := x }

theorem RegsIx.trans (h : RegsIx s t) (h' : RegsIx t u) : RegsIx s u := by
  obtain ⟨r, x, rfl⟩ := h
  obtain ⟨r', x', rfl⟩ := h'
  exact ⟨r', x', Eq.refl _⟩

theorem RegsIx.eq (h : RegsIx s t) : t = { s with regs := t.regs, ix := t.ix } := by
  obtain ⟨r, x, rfl⟩ := h
  exact Eq.refl _

theorem RegsIx.ml (h : RegsIx s t) : t.ml = s.ml := by
  obtain ⟨r, x, rfl⟩ := h
  exact Eq.refl _

theorem regsIx_setF (s : State) (a : Nat) (f : Fld) (v : Nat) : RegsIx s (s.setF a f v) := ⟨_, _, Eq.refl _⟩

theorem regsIx_setReg64 (s : State) (a v : Nat) : RegsIx s (s.setReg64 a v) := ⟨_, _, Eq.refl _⟩

theorem regsIx_setBank (s : State) (c : Bool) (x : Bank) : RegsIx s (s.setBank c x) := by cases c <;> exact ⟨_, _, Eq.refl _⟩

/-- Bank `c` replaced by `x`, and IX_BANK_STAT, with DRAINING set, the one register written. -/
structure DrainNamed (c : Bool) (x : Bank) (s t : State) : Prop where
  moved : RegsIx s t
  ix : t.ix = (s.setBank c x).ix
  draining : t.rf IX_BANK_STAT IX_BANK_STAT_DRAINING = 1
  reg : ∀ o, o ≠ IX_BANK_STAT → t.reg o = s.reg o

theorem drainNamed_named (s : State) (c : Bool) (x : Bank) : DrainNamed c x s (s.drainNamed c x) := by
  rw [State.drainNamed]
  refine ⟨((regsIx_setBank _ _ _).trans (regsIx_setF _ _ _ _)).trans (regsIx_setF _ _ _ _), ?_, ?_, fun o ho => ?_⟩
  · rw [State.setF_ix, State.setF_ix]
  · rw [State.rf_setF_apart _ _ _ _ _ (by decide) (by unfold Fld.apart; decide), State.rf_setF_same _ _ _ _ (by decide)]
    rfl
  · rw [State.reg_setF_ne _ _ _ ho, State.reg_setF_ne _ _ _ ho, State.reg_setBank]

theorem lostQ_setBank (s : State) (c : Bool) (x : Bank) : (s.setBank c x).ix.lostQ = s.ix.lostQ := by rw [State.setBank_eq]

theorem ring_setBank (s : State) (c : Bool) (x : Bank) : (s.setBank c x).ix.ring = s.ix.ring := by rw [State.setBank_eq]

/-- DRAIN_WAIT says whether a record waits for room. -/
theorem rf_drainWait (s : State) (x : Bank) :
    (s.drainWait x).rf IX_BANK_STAT IX_BANK_STAT_DRAIN_WAIT = b2n (!s.ix.lostQ.isEmpty || (s.recordPlace x false).isNone) := by
  rw [State.drainWait, State.rf_setF_same _ _ _ _ (by decide)]
  generalize (!s.ix.lostQ.isEmpty || (s.recordPlace x false).isNone) = w
  cases w <;> rfl

/-- The bank closed, its drain and the wait for room named in IX_BANK_STAT. -/
theorem drainWait_named (s : State) (c : Bool) (x : Bank) : DrainNamed c x s ((s.drainNamed c x).drainWait x) ∧
    ((s.drainNamed c x).drainWait x).rf IX_BANK_STAT IX_BANK_STAT_DRAIN_WAIT = b2n (!s.ix.lostQ.isEmpty || (s.recordPlace x false).isNone) := by
  obtain ⟨hmoved, hix, hdrain, hreg⟩ := drainNamed_named s c x
  have hplace : (s.drainNamed c x).recordPlace x false = s.recordPlace x false :=
    recordPlace_of_kept hmoved.ml (by rw [hix, ring_setBank]) (hreg _ (by decide)) (hreg _ (by decide)) (hreg _ (by decide)) _ _
  have hwait := rf_drainWait (s.drainNamed c x) x
  rw [hplace, hix, lostQ_setBank] at hwait
  refine ⟨⟨?_, ?_, ?_, fun o ho => ?_⟩, hwait⟩
  · rw [State.drainWait]
    exact hmoved.trans (regsIx_setF _ _ _ _)
  · rw [State.drainWait, State.setF_ix, hix]
  · rw [State.drainWait, State.rf_setF_apart _ _ _ _ _ (by decide) (by unfold Fld.apart; decide), hdrain]
  · rw [State.drainWait, State.reg_setF_ne _ _ _ ho, hreg o ho]

/-- What naming the open bank writes. -/
theorem openNamed_named (s : State) (c : Bool) (a : Option Nat) : RegsIx s (s.openNamed c a) ∧ (s.openNamed c a).ix = s.ix ∧
    (∀ o, o ∉ [IX_BANK_STAT, IX_INT_START_LO, IX_INT_START_LO + 4] → (s.openNamed c a).reg o = s.reg o) ∧
    (∀ f, IX_BANK_STAT_OPEN.apart f → (s.openNamed c a).rf IX_BANK_STAT f = s.rf IX_BANK_STAT f) ∧
    ∀ n, a = some n → (s.openNamed c a).rf IX_BANK_STAT IX_BANK_STAT_OPEN = b2n c ∧ (s.openNamed c a).reg64 IX_INT_START_LO = n % 2 ^ 64 := by
  cases a with
  | none => exact ⟨⟨_, _, Eq.refl _⟩, rfl, fun _ _ => rfl, fun _ _ => rfl, fun n h => by cases h⟩
  | some n =>
    have hbank (f : Fld) : (s.openNamed c (some n)).rf IX_BANK_STAT f = (s.setF IX_BANK_STAT IX_BANK_STAT_OPEN (b2n c)).rf IX_BANK_STAT f :=
      State.rf_of_reg (State.reg_setReg64_ne _ _ (by decide) (by decide)) _
    refine ⟨(regsIx_setF _ _ _ _).trans (regsIx_setReg64 _ _ _), ?_, fun o ho => ?_, fun f hf => ?_, fun m hm => ⟨?_, ?_⟩⟩
    · rw [State.openNamed, State.setReg64_ix, State.setF_ix]
    · simp only [List.mem_cons, List.not_mem_nil, or_false, not_or] at ho
      rw [State.openNamed, State.reg_setReg64_ne _ _ ho.2.1 ho.2.2, State.reg_setF_ne _ _ _ ho.1]
    · rw [hbank, State.rf_setF_apart _ _ _ _ _ (by decide) hf]
    · rw [hbank, State.rf_setF_same _ _ _ _ (by decide)]
      cases c <;> rfl
    · obtain rfl := Option.some.inj hm
      rw [State.openNamed, State.reg64_setReg64]

theorem bankClose_drains (hon : s.on = true) (h : s.closing = some c) :
    ∃ t, exec .bankClose s = .next t ∧ t.bank c = { s.bank c with draining := true, packed := s.flag IX_CTL IX_CTL_FMT } ∧
    t.bank (!c) = s.bank (!c) ∧ t.rf IX_BANK_STAT IX_BANK_STAT_DRAINING = 1 ∧
    t.rf IX_BANK_STAT IX_BANK_STAT_DRAIN_WAIT = b2n (!s.ix.lostQ.isEmpty || (s.recordPlace (t.bank c) false).isNone) ∧
    (∀ a, (s.bank (!c)).start = some a → t.rf IX_BANK_STAT IX_BANK_STAT_OPEN = b2n (!c) ∧ t.reg64 IX_INT_START_LO = a % 2 ^ 64) ∧
    t = { s with regs := t.regs, ix := t.ix } ∧ t.ix.half0 = s.ix.half0 ∧ t.ix.half1 = s.ix.half1 ∧
    ∀ o, o ∉ [IX_BANK_STAT, IX_INT_START_LO, IX_INT_START_LO + 4] → t.reg o = s.reg o := by
  obtain ⟨⟨hmoved, hix, hdrain, hreg⟩, hwait⟩ := drainWait_named s c (s.drainStart c)
  have hexec := bankClose_some hon h
  generalize (s.drainNamed c (s.drainStart c)).drainWait (s.drainStart c) = v at *
  obtain ⟨hmoved', hix', hreg', hfld, hopen⟩ := openNamed_named v (!c) (s.bank (!c)).start
  generalize v.openNamed (!c) (s.bank (!c)).start = t at *
  have hbank : t.bank c = s.drainStart c := (State.bank_of_ix (hix'.trans hix) c).trans (State.bank_setBank_same _ _ _)
  refine ⟨t, hexec, hbank, (State.bank_of_ix (hix'.trans hix) (!c)).trans (State.bank_setBank_not _ _ _), ?_, ?_, hopen, (hmoved.trans hmoved').eq,
    ?_, ?_, fun o ho => ?_⟩
  · rw [hfld _ (by unfold Fld.apart; decide), hdrain]
  · rw [hfld _ (by unfold Fld.apart; decide), hwait, hbank]
  · rw [hix', hix, State.setBank_eq]
  · rw [hix', hix, State.setBank_eq]
  · rw [hreg' o ho, hreg o (List.ne_of_not_mem_cons ho)]

end Sys2Proof.Machine
end

-- ==== Integrations: drains and lost records ====
section

namespace Sys2Proof.Machine

variable {s t u : State} {b c : Bool} {e fl off : Nat}

/-! ### A record enters the ring (R193) -/

theorem ringRd_eq (s : State) (wr : Nat) : ∃ v, s.ringRd wr = s.setReg IX_DUMP_RD v := ⟨_, rfl⟩

/-- The ring's entry for a record. -/
def State.ringEntry (s : State) (off len : Nat) : DumpRec :=
  { seq := (s.reg IX_INT_SEQ).toNat, off := off, len := len, sent := 0, stream := s.flag IX_CTL IX_CTL_EXPORT_ETH }

/-- The ring with a record at its end. -/
def State.ringAdd (s : State) (r : DumpRec) : State := { s with ix := { s.ix with ring := s.ix.ring ++ [r] } }

theorem ringAdd_regs (s : State) (r : DumpRec) (a : Nat) : (s.ringAdd r).reg a = s.reg a := State.reg_withIx _ _ _

theorem dumpPut_eq (s : State) (off : Nat) (bs : List Byte) : ∃ v, s.ringPut off bs =
    ((((s.drStore (s.reg64 IX_DUMP_BASE_LO + off) bs).ringAdd (s.ringEntry off bs.length)).setReg IX_INT_SEQ (w32 ((s.reg IX_INT_SEQ).toNat + 1))).setReg
      IX_DUMP_WR (w32 (off + bs.length))).setReg IX_DUMP_RD v := by
  rw [State.ringPut]
  exact ringRd_eq _ _

/-- A record written, or its number passed over: what stays of the correlator, and IX_INT_SEQ. -/
structure RecordPut (s t : State) : Prop where
  ix : t.ix = { s.ix with ring := t.ix.ring }
  time : t.time = s.time
  events : t.events = s.events
  seq : t.reg IX_INT_SEQ = s.reg IX_INT_SEQ + 1
  reg : ∀ a, 0x300000 ≤ a → a < 0x800000 → a ∉ [IX_INT_SEQ, IX_DUMP_WR, IX_DUMP_RD] → t.reg a = s.reg a

/-- A record written into the ring at an offset. -/
structure RingPut (off : Nat) (bs : List Byte) (s t : State) : Prop where
  bytes : s.drIn (s.reg64 IX_DUMP_BASE_LO + off) bs.length = true → ∀ i < bs.length, t.memByte (s.reg64 IX_DUMP_BASE_LO + off + i) = bs.getD i 0
  missed : s.drIn (s.reg64 IX_DUMP_BASE_LO + off) bs.length = false →
    t.mem = s.mem ∧ t.reg GLB_AV_COUNT = w32 (min (2 ^ 32 - 1) ((s.reg GLB_AV_COUNT).toNat + 1))
  beyond : ∀ a, (a < s.reg64 IX_DUMP_BASE_LO + off ∨ s.reg64 IX_DUMP_BASE_LO + off + bs.length ≤ a) → t.memByte a = s.memByte a
  wr : t.reg IX_DUMP_WR = w32 (off + bs.length)
  ring : t.ix.ring = s.ix.ring ++ [s.ringEntry off bs.length]

theorem w32_toNat_succ (v : Word) : w32 (v.toNat + 1) = v + 1 := by
  rw [w32]
  bv_omega

theorem ringPut_put (s : State) (off : Nat) (bs : List Byte) : RecordPut s (s.ringPut off bs) ∧ RingPut off bs s (s.ringPut off bs) := by
  obtain ⟨v, heq⟩ := dumpPut_eq s off bs
  have hkept := corrKept_drStore s (s.reg64 IX_DUMP_BASE_LO + off) bs
  have hin (h : s.drIn (s.reg64 IX_DUMP_BASE_LO + off) bs.length = true) := (drStore_in (s := s) h).mem
  have hout (h : s.drIn (s.reg64 IX_DUMP_BASE_LO + off) bs.length = false) := (drStore_out (s := s) h).mem
  have hcount (h : s.drIn (s.reg64 IX_DUMP_BASE_LO + off) bs.length = false) := drStore_out_counted (s := s) h
  rw [heq]
  generalize s.drStore (s.reg64 IX_DUMP_BASE_LO + off) bs = w at *
  have hix : ((((w.ringAdd (s.ringEntry off bs.length)).setReg IX_INT_SEQ (w32 ((s.reg IX_INT_SEQ).toNat + 1))).setReg IX_DUMP_WR (w32 (off + bs.length))).setReg
      IX_DUMP_RD v).ix = { s.ix with ring := s.ix.ring ++ [s.ringEntry off bs.length] } := by
    rw [State.setReg_ix, State.setReg_ix, State.setReg_ix, State.ringAdd, hkept.ix]
  refine ⟨⟨by rw [hix], hkept.time, hkept.events, ?_, fun a hlo hhi hne => ?_⟩, ⟨fun h i hi => ?_, fun h => ⟨hout h, ?_⟩, fun a ha => ?_, ?_, by rw [hix]⟩⟩
  · rw [State.reg_setReg_ne _ _ (by decide), State.reg_setReg_ne _ _ (by decide), State.reg_setReg_same, w32_toNat_succ]
  · simp only [List.mem_cons, List.not_mem_nil, or_false, not_or] at hne
    rw [State.reg_setReg_ne _ _ hne.2.2, State.reg_setReg_ne _ _ hne.2.1, State.reg_setReg_ne _ _ hne.1, ringAdd_regs, hkept.reg a hlo hhi]
  · have hmem : w.memByte (s.reg64 IX_DUMP_BASE_LO + off + i) = bs.getD i 0 := by
      rw [State.memByte, hin h]
      exact tblGet_setRun_in _ _ _ _ _ hi
    exact hmem
  · rw [State.reg_setReg_ne _ _ (by decide), State.reg_setReg_ne _ _ (by decide), State.reg_setReg_ne _ _ (by decide), ringAdd_regs, hcount h]
  · have hmem : w.memByte a = s.memByte a := by
      cases hd : s.drIn (s.reg64 IX_DUMP_BASE_LO + off) bs.length with
      | true => rw [State.memByte, hin hd]; exact s.memByte_memWrite_out _ _ _ ha
      | false => rw [State.memByte, hout hd]; rfl
    exact hmem
  · rw [State.reg_setReg_ne _ _ (by decide), State.reg_setReg_same]

theorem recordPut_put (s : State) (x : Bank) (off : Nat) (bs : List Byte) : RecordPut s (s.recordPut x off bs) ∧
    (s.recordOut x = true → RingPut off bs s (s.recordPut x off bs)) ∧
    (s.recordOut x = false → (s.recordPut x off bs).mem = s.mem ∧ (s.recordPut x off bs).ix.ring = s.ix.ring ∧
      (s.recordPut x off bs).reg IX_DUMP_WR = s.reg IX_DUMP_WR) := by
  cases hout : s.recordOut x with
  | true =>
    obtain ⟨hrec, hring⟩ := ringPut_put s off bs
    rw [State.recordPut, if_pos hout]
    exact ⟨hrec, fun _ => hring, fun h => by cases h⟩
  | false =>
    rw [State.recordPut, if_neg (by rw [hout]; decide)]
    refine ⟨⟨rfl, rfl, rfl, State.reg_setReg_same _ _ _, fun a _ _ hne => State.reg_setReg_ne _ _ (List.ne_of_not_mem_cons hne)⟩, fun h => (by cases h),
      fun _ => ⟨rfl, rfl, State.reg_setReg_ne _ _ (by decide)⟩⟩

/-! ### Records of lost integrations (R193, R195) -/

theorem exec_drainRingSpace (s : State) : exec .drainRingSpace s = execDrainRingSpace s := (rfl)

theorem lostFlush_empty (h : s.ix.lostQ = []) : s.lostFlush = s := by
  rw [State.lostFlush, h, lostWrite, ← h]

theorem lostFlush_waits {x : Bank} {which : Bool} {rest : List (Bank × Bool)} (h : s.ix.lostQ = (x, which) :: rest)
    (hplace : s.recordPlace x true = none) : s.lostFlush = s := by
  rw [State.lostFlush, h, lostWrite]
  simp only [hplace]
  rw [← h]

/-- A record of a lost integration is written, counted and signalled. -/
def State.lostPut (s : State) (x : Bank) (which : Bool) (off : Nat) : State :=
  (((s.recordPut x off (s.record x which true)).recsDone x).bump IX_LOST_INTEG).seen IX_STAT IX_STAT_LOST_SEEN evIndigo

/-- No record of a lost integration waits. -/
def State.noneLost (s : State) : State := { s with ix := { s.ix with lostQ := [] } }

theorem noneLost_mem (s : State) : s.noneLost.mem = s.mem := (rfl)

theorem recsDone_mem (s : State) (x : Bank) : (s.recsDone x).mem = s.mem := by rw [State.recsDone]

theorem lostFlush_last {x : Bank} {which : Bool} (h : s.ix.lostQ = [(x, which)]) (hplace : s.recordPlace x true = some off) :
    s.lostFlush = (s.lostPut x which off).noneLost := by
  rw [State.lostFlush, h, lostWrite]
  simp only [hplace]
  rw [lostWrite, State.noneLost, State.lostPut]

/-- DRAIN_WAIT after records have been offered room: set while one waits. -/
theorem drainRingSpace_eq (hon : s.on = true) : ∃ v, exec .drainRingSpace s = .next (s.lostFlush.setF IX_BANK_STAT IX_BANK_STAT_DRAIN_WAIT (b2n v)) ∧
    (s.lostFlush.drainBank = none → v = !s.lostFlush.ix.lostQ.isEmpty) ∧
    (∀ c, s.lostFlush.drainBank = some c → v = (!s.lostFlush.ix.lostQ.isEmpty || (s.lostFlush.recordPlace (s.lostFlush.bank c) false).isNone)) := by
  rw [exec_drainRingSpace, execDrainRingSpace, whenOn_on hon]
  simp only
  generalize s.lostFlush = t
  cases hd : t.drainBank with
  | none => exact ⟨_, rfl, fun _ => rfl, fun c h => by cases h⟩
  | some c => exact ⟨_, rfl, fun h => (by cases h), fun c' h => by cases h; rfl⟩

theorem rf_waits (s : State) (v : Bool) :
    (s.setF IX_BANK_STAT IX_BANK_STAT_DRAIN_WAIT (b2n v)).rf IX_BANK_STAT IX_BANK_STAT_DRAIN_WAIT = b2n v := by
  rw [State.rf_setF_same _ _ _ _ (by decide)]
  cases v <;> rfl

theorem drainRingSpace_waits (hon : s.on = true) {x : Bank} {which : Bool} {rest : List (Bank × Bool)} (h : s.ix.lostQ = (x, which) :: rest)
    (hplace : s.recordPlace x true = none) :
    ∃ t, exec .drainRingSpace s = .next t ∧ t.rf IX_BANK_STAT IX_BANK_STAT_DRAIN_WAIT = 1 ∧ OnlyRegs [IX_BANK_STAT] s t := by
  obtain ⟨v, hexec, hnone, hsome⟩ := drainRingSpace_eq hon
  rw [lostFlush_waits h hplace] at hexec hnone hsome
  have hv : v = true := by
    cases hd : s.drainBank with
    | none => rw [hnone hd, h]; rfl
    | some c => rw [hsome c hd, h]; rfl
  subst hv
  exact ⟨_, hexec, rf_waits s true, onlyRegs_setF _ _ _ _⟩

theorem drainRingSpace_empty (hon : s.on = true) (hd : s.drainBank = none) (h : s.ix.lostQ = []) :
    ∃ t, exec .drainRingSpace s = .next t ∧ t.rf IX_BANK_STAT IX_BANK_STAT_DRAIN_WAIT = 0 ∧ OnlyRegs [IX_BANK_STAT] s t := by
  obtain ⟨v, hexec, hnone, -⟩ := drainRingSpace_eq hon
  rw [lostFlush_empty h] at hexec hnone
  have hv : v = false := by rw [hnone hd, h]; rfl
  subst hv
  exact ⟨_, hexec, rf_waits s false, onlyRegs_setF _ _ _ _⟩

theorem drainRingSpace_drain (hon : s.on = true) (hd : s.drainBank = some c) (h : s.ix.lostQ = []) :
    ∃ t, exec .drainRingSpace s = .next t ∧ OnlyRegs [IX_BANK_STAT] s t ∧
      t.rf IX_BANK_STAT IX_BANK_STAT_DRAIN_WAIT = b2n (s.recordPlace (s.bank c) false).isNone := by
  obtain ⟨v, hexec, -, hsome⟩ := drainRingSpace_eq hon
  rw [lostFlush_empty h] at hexec hsome
  have hv : v = (s.recordPlace (s.bank c) false).isNone := by rw [hsome c hd, h]; rfl
  exact ⟨_, hexec, onlyRegs_setF _ _ _ _, by rw [← hv]; exact rf_waits s v⟩

theorem drainRingSpace_lost (hon : s.on = true) {x : Bank} {which : Bool} (h : s.ix.lostQ = [(x, which)]) (hplace : s.recordPlace x true = some off) :
    ∃ t, exec .drainRingSpace s = .next t ∧ t.ix.lostQ = [] ∧
      t.reg IX_INT_SEQ = s.reg IX_INT_SEQ + 1 ∧ t.reg IX_LOST_INTEG = w32 (min (2 ^ 32 - 1) ((s.reg IX_LOST_INTEG).toNat + 1)) ∧
      t.flag IX_STAT IX_STAT_LOST_SEEN = true ∧ t.rfb EV_INT_STAT EV_INT_STAT_PEND evIndigo = true ∧
      (s.recordOut x = true → s.drIn (s.reg64 IX_DUMP_BASE_LO + off) (s.record x which true).length = true →
        ∀ i < (s.record x which true).length, t.memByte (s.reg64 IX_DUMP_BASE_LO + off + i) = (s.record x which true).getD i 0) := by
  obtain ⟨v, hexec, -, -⟩ := drainRingSpace_eq hon
  rw [lostFlush_last h hplace] at hexec
  obtain ⟨hput, hring, -⟩ := recordPut_put s x off (s.record x which true)
  rw [State.lostPut] at hexec
  generalize s.record x which true = bs at *
  generalize s.recordPut x off bs = p at *
  have hreg (a : Nat) : (p.recsDone x).reg a = p.reg a := State.reg_withIx _ _ _
  have hmem : (((p.recsDone x).bump IX_LOST_INTEG).seen IX_STAT IX_STAT_LOST_SEEN evIndigo).mem = p.mem := by
    rw [State.seen_mem, State.bump_mem, recsDone_mem]
  have hseq : (((p.recsDone x).bump IX_LOST_INTEG).seen IX_STAT IX_STAT_LOST_SEEN evIndigo).reg IX_INT_SEQ = s.reg IX_INT_SEQ + 1 := by
    rw [State.reg_seen _ _ _ _ (by decide) (by unfold intReg; decide) (by decide), State.reg_bump_ne _ (by decide), hreg, hput.seq]
  have hcount : (((p.recsDone x).bump IX_LOST_INTEG).seen IX_STAT IX_STAT_LOST_SEEN evIndigo).reg IX_LOST_INTEG =
      w32 (min (2 ^ 32 - 1) ((s.reg IX_LOST_INTEG).toNat + 1)) := by
    rw [State.reg_seen _ _ _ _ (by decide) (by unfold intReg; decide) (by decide), State.reg_bump_same, hreg,
      hput.reg _ (by decide) (by decide) (by decide)]
  have hseen : (((p.recsDone x).bump IX_LOST_INTEG).seen IX_STAT IX_STAT_LOST_SEEN evIndigo).flag IX_STAT IX_STAT_LOST_SEEN = true :=
    State.flag_seen_same _ _ _ _ (by decide) (by unfold intReg; decide) (by decide) (by decide)
  have hraised : (((p.recsDone x).bump IX_LOST_INTEG).seen IX_STAT IX_STAT_LOST_SEEN evIndigo).rfb EV_INT_STAT EV_INT_STAT_PEND evIndigo = true :=
    State.rfb_seen_raised _ _ _ (by decide)
  generalize ((p.recsDone x).bump IX_LOST_INTEG).seen IX_STAT IX_STAT_LOST_SEEN evIndigo = q at *
  have hregs (a : Nat) (ha : a ≠ IX_BANK_STAT) : (q.noneLost.setF IX_BANK_STAT IX_BANK_STAT_DRAIN_WAIT (b2n v)).reg a = q.reg a :=
    (State.reg_setF_ne _ _ _ ha).trans (State.reg_withIx _ _ _)
  refine ⟨_, hexec, ?_, (hregs _ (by decide)).trans hseq, (hregs _ (by decide)).trans hcount, (State.flag_of_reg (hregs _ (by decide)) _).trans hseen,
    (State.rfb_of_reg (hregs _ (by decide)) _ _).trans hraised, fun hout hin i hi => ?_⟩
  · rw [State.setF_ix]
    rfl
  · rw [← (hring hout).bytes hin i hi, State.memByte, State.memByte, State.setF_mem, noneLost_mem, hmem]

end Sys2Proof.Machine
end

-- ==== Integrations: the end of a drain ====
section

namespace Sys2Proof.Machine

variable {s t u : State} {b c : Bool} {e fl off : Nat}

/-! ### Events move to the new grid (R55, R194) -/

/-- `t` is `s` but for the queue and SC_NEXT. -/
structure Regridded (s t : State) : Prop where
  frame : ∃ r es, t = { s with regs := r, events := es }
  reg : ∀ a, a ∉ [SC_NEXT_LO, SC_NEXT_LO + 4] → t.reg a = s.reg a

theorem regridded_regrid (s : State) (e : Nat) : Regridded s (s.regrid e) := by
  rw [State.regrid, State.nextSync]
  refine ⟨⟨_, _, Eq.refl _⟩, fun a ha => ?_⟩
  simp only [List.mem_cons, List.not_mem_nil, or_false, not_or] at ha
  exact State.reg_setReg64_ne _ _ ha.1 ha.2

theorem Regridded.ix (h : Regridded s t) : t.ix = s.ix := by
  obtain ⟨r, es, rfl⟩ := h.frame
  exact Eq.refl _

theorem Regridded.mem (h : Regridded s t) : t.mem = s.mem := by
  obtain ⟨r, es, rfl⟩ := h.frame
  exact Eq.refl _

/-! ### After a drain (R186, R194) -/

/-- The registers that may change once a drain has ended, an interrupt's apart. -/
def afterRegs : List Nat := gridRegs ++ [SC_NEXT_LO, SC_NEXT_LO + 4]

/-- What is left alone once a drain has ended: memory, the ring and the other registers. -/
structure AfterKept (s t : State) : Prop where
  mem : t.mem = s.mem
  ring : t.ix.ring = s.ix.ring
  reg : ∀ a, ¬ intReg a → a ∉ afterRegs → t.reg a = s.reg a

theorem AfterKept.trans (h : AfterKept s t) (h' : AfterKept t u) : AfterKept s u :=
  ⟨h'.mem.trans h.mem, h'.ring.trans h.ring, fun a hi ha => (h'.reg a hi ha).trans (h.reg a hi ha)⟩

theorem AfterKept.refl (s : State) : AfterKept s s := ⟨rfl, rfl, fun _ _ _ => rfl⟩

theorem GridMoved.afterKept (h : GridMoved s t) : AfterKept s t := by
  obtain ⟨hmem, -, -, -, -⟩ := h.others
  exact ⟨hmem, h.ring, fun a hi ha => h.reg a hi fun hg => ha (List.mem_append_left _ hg)⟩

theorem Regridded.afterKept (h : Regridded s t) : AfterKept s t :=
  ⟨h.mem, by rw [h.ix], fun a _ ha => h.reg a fun hg => ha (List.mem_append_right _ hg)⟩

/-- The deferred close is no longer awaited. -/
def State.deferDone (s : State) : State := { s with ix := { s.ix with deferred := false } }

theorem bank_deferDone (s : State) (b : Bool) : s.deferDone.bank b = s.bank b := by cases b <;> rfl

theorem gridMoved_deferDone (s : State) : GridMoved s s.deferDone := ⟨⟨_, _, _, _, _, Eq.refl _⟩, rfl, rfl, rfl, fun _ _ _ => rfl⟩

/-- A deferred close falls at the next spectrum boundary. -/
theorem afterDrain_deferred (hdef : s.ix.deferred = true) :
    s.afterDrain = (s.deferDone.closeAt (spectrumAt s.now) (2 ^ fRealigned)).regrid (spectrumAt s.now) := by
  rw [State.afterDrain, hdef, if_pos rfl, State.deferDone]

/-- With no close deferred, the banks stand; the queue moves only where a stop waited for the drain of the other bank's integration, and
IX_STAT.STATE becomes IDLE once a stop has no integration left. -/
structure Settled (s t : State) : Prop where
  ix : t.ix = s.ix
  drain : t.reg IX_BANK_STAT = s.reg IX_BANK_STAT
  events : s.integrating = true ∨ (s.ix.bankA.start = none ∧ s.ix.bankB.start = none) → t.events = s.events
  state : t.rf IX_STAT IX_STAT_STATE =
    if s.rf IX_STAT IX_STAT_STATE = 2 ∧ s.ix.bankA.start = none ∧ s.ix.bankB.start = none then 0 else s.rf IX_STAT IX_STAT_STATE

theorem settled_afterDrain (hdef : s.ix.deferred = false) : Settled s s.afterDrain := by
  rw [State.afterDrain]
  simp only [hdef, Bool.false_eq_true, if_false]
  split
  · next h =>
    have hg := regridded_regrid s (spectrumAt s.now)
    have hstart : ¬ (s.ix.bankA.start = none ∧ s.ix.bankB.start = none) := by
      rintro ⟨ha, hb⟩
      simp [ha, hb] at h
    have hint : s.integrating = false := by simpa using h.1
    refine ⟨hg.ix, hg.reg _ (by decide), fun hor => ?_, ?_⟩
    · rcases hor with h' | h'
      · rw [hint] at h'; cases h'
      · exact absurd h' hstart
    · rw [if_neg fun hst => hstart hst.2]
      exact State.rf_of_reg (hg.reg _ (by decide)) _
  · split
    · next h =>
      refine ⟨State.setF_ix _ _ _ _, State.reg_setF_ne _ _ _ (by decide),
        fun _ => State.setF_events _ _ _ _, ?_⟩
      rw [if_pos h, State.rf_setF_same _ _ _ _ (by decide)]
      rfl
    · next h => exact ⟨rfl, rfl, fun _ => rfl, (if_neg h).symm⟩

/-- What the end of a drain leaves alone, whatever waited for it. -/
theorem afterKept_afterDrain (s : State) : AfterKept s s.afterDrain := by
  cases hdef : s.ix.deferred with
  | true =>
    rw [afterDrain_deferred hdef]
    exact ((gridMoved_deferDone s).trans (gridMoved_closeAt _ _ _)).afterKept.trans (regridded_regrid _ _).afterKept
  | false =>
    rw [State.afterDrain, hdef, if_neg (by decide)]
    split
    · exact (regridded_regrid _ _).afterKept
    · split
      · exact (gridMoved_setF s (by decide) _ _).afterKept
      · exact .refl s

/-- A deferred close falls at the next spectrum boundary, and the integration that opens is REALIGNED. -/
structure Realigned (c : Bool) (s t : State) : Prop where
  deferred : t.ix.deferred = false
  bank : (t.bank (!c)).stop = some (spectrumAt s.now)
  next : (t.bank c).start = some (spectrumAt s.now) ∧ (t.bank c).vat = [] ∧ bit (t.bank c).flags 1 = true

theorem realigned_afterDrain (hdef : s.ix.deferred = true) (hcur : s.curBank = some (!c)) (hfree : (s.bank c).start = none) :
    Realigned c s s.afterDrain := by
  have hcur' : s.deferDone.curBank = some (!c) := (curBank_of_banks rfl rfl).trans hcur
  have hclose := closedAt_closeAt (s := s.deferDone) hcur' (by rw [Bool.not_not, bank_deferDone, hfree]) (spectrumAt s.now) (2 ^ fRealigned)
  have hd : s.deferDone.ix.deferred = false := rfl
  rw [afterDrain_deferred hdef]
  generalize s.deferDone.closeAt (spectrumAt s.now) (2 ^ fRealigned) = v at *
  have hg := regridded_regrid v (spectrumAt s.now)
  obtain ⟨w, hnext⟩ := hclose.next
  rw [Bool.not_not] at hnext
  obtain ⟨hstart, -, hvat, -, hflags, -⟩ := freshBank_new w (spectrumAt s.now) (2 ^ fRealigned)
  refine ⟨?_, ?_, ?_⟩
  · rw [hg.ix, hclose.deferred, hd]
  · rw [State.bank_of_ix hg.ix, hclose.bank]
  · rw [State.bank_of_ix hg.ix, hnext, hstart, hvat, hflags]
    exact ⟨rfl, rfl, by decide⟩

/-! ### A drain ends (R192 to R194) -/

theorem exec_drainEnd (s : State) : exec .drainEnd s = execDrainEnd s := (rfl)

/-- The bank emptied and its drain over, once its record is complete. -/
def State.drainDone (s : State) (c : Bool) (x : Bank) : State :=
  (((((s.recsDone x).setBank c bankFree).setF IX_BANK_STAT IX_BANK_STAT_DRAINING 0).setF IX_BANK_STAT IX_BANK_STAT_DRAIN_LEFT 0).setF
    IX_BANK_STAT IX_BANK_STAT_DRAIN_WAIT 0)

/-- No close is put off to the end of the drain. -/
theorem noDeferral (hdue : s.closeDue = false ∨ s.freeBank.isSome = true) : (s.closeDue && s.freeBank.isNone) = false := by
  rcases hdue with h | h
  · rw [h, Bool.false_and]
  · rw [← Option.not_isSome, h, Bool.not_true, Bool.and_false]

section
variable (hon : s.on = true) (hq : s.ix.lostQ = []) (hdue : s.closeDue = false ∨ s.freeBank.isSome = true)
include hon hq hdue

theorem drainEnd_none (hd : s.drainBank = none) : exec .drainEnd s = .next s := by
  rw [exec_drainEnd, execDrainEnd, whenOn_on hon]
  simp only [noDeferral hdue, Bool.false_eq_true, if_false, lostFlush_empty hq, hd]

theorem drainEnd_waits (hd : s.drainBank = some c) (hplace : s.recordPlace (s.bank c) false = none) : exec .drainEnd s = .next s := by
  rw [exec_drainEnd, execDrainEnd, whenOn_on hon]
  simp only [noDeferral hdue, Bool.false_eq_true, if_false, lostFlush_empty hq, hd, hq, hplace]

theorem drainEnd_writes (hd : s.drainBank = some c) (hplace : s.recordPlace (s.bank c) false = some off) :
    exec .drainEnd s = .next ((s.recordPut (s.bank c) off (s.record (s.bank c) c false)).drainDone c (s.bank c)).afterDrain := by
  rw [exec_drainEnd, execDrainEnd, whenOn_on hon]
  simp only [noDeferral hdue, Bool.false_eq_true, if_false, lostFlush_empty hq, hd, hq, hplace]
  rw [State.drainDone]

end

/-- The drain of bank `c` is over: the bank is empty, and IX_BANK_STAT the one register written. -/
structure DrainDone (c : Bool) (s t : State) : Prop where
  moved : RegsIx s t
  bank : t.bank c = bankFree
  other : t.bank (!c) = s.bank (!c)
  deferred : t.ix.deferred = s.ix.deferred
  ring : t.ix.ring = s.ix.ring
  draining : t.rf IX_BANK_STAT IX_BANK_STAT_DRAINING = 0
  reg : ∀ o, o ≠ IX_BANK_STAT → t.reg o = s.reg o

theorem drainDone_done (s : State) (c : Bool) (x : Bank) : DrainDone c s (s.drainDone c x) := by
  have hrecs : RegsIx s (s.recsDone x) ∧ (s.recsDone x).bank (!c) = s.bank (!c) ∧ (s.recsDone x).ix.deferred = s.ix.deferred ∧
      (s.recsDone x).ix.ring = s.ix.ring ∧ ∀ o, (s.recsDone x).reg o = s.reg o := by
    rw [State.recsDone]
    exact ⟨⟨_, _, Eq.refl _⟩, by cases c <;> exact Eq.refl _, Eq.refl _, Eq.refl _, fun _ => State.reg_withIx _ _ _⟩
  obtain ⟨hmoved, hother, hdef, hring, hreg⟩ := hrecs
  rw [State.drainDone]
  generalize s.recsDone x = p at *
  have hix : ((((p.setBank c bankFree).setF IX_BANK_STAT IX_BANK_STAT_DRAINING 0).setF IX_BANK_STAT IX_BANK_STAT_DRAIN_LEFT 0).setF
      IX_BANK_STAT IX_BANK_STAT_DRAIN_WAIT 0).ix = (p.setBank c bankFree).ix := by rw [State.setF_ix, State.setF_ix, State.setF_ix]
  refine ⟨?_, ?_, ?_, ?_, ?_, ?_, fun o ho => ?_⟩
  · exact (((hmoved.trans (regsIx_setBank _ _ _)).trans (regsIx_setF _ _ _ _)).trans (regsIx_setF _ _ _ _)).trans (regsIx_setF _ _ _ _)
  · rw [State.bank_of_ix hix, State.bank_setBank_same]
  · rw [State.bank_of_ix hix, State.bank_setBank_not, hother]
  · rw [hix, State.setBank_eq, ← hdef]
  · rw [hix, ring_setBank, hring]
  · rw [State.rf_setF_apart _ _ _ _ _ (by decide) (by unfold Fld.apart; decide), State.rf_setF_apart _ _ _ _ _ (by decide) (by unfold Fld.apart; decide),
      State.rf_setF_same _ _ _ _ (by decide)]
    rfl
  · rw [State.reg_setF_ne _ _ _ ho, State.reg_setF_ne _ _ _ ho, State.reg_setF_ne _ _ _ ho, State.reg_setBank, hreg]

theorem RegsIx.others (h : RegsIx s t) : t.mem = s.mem ∧ t.events = s.events ∧ t.time = s.time := by
  obtain ⟨r, x, rfl⟩ := h
  exact ⟨Eq.refl _, Eq.refl _, Eq.refl _⟩

theorem now_of_kept (ht : t.time = s.time) (hr : t.reg TM_ATC_STAT = s.reg TM_ATC_STAT) : t.now = s.now := by
  rw [State.now, State.now, State.running, State.running, State.rf_of_reg hr, ht]

/-- A bank with an integration and one without: none is left when both start times are absent. -/
theorem starts_none_iff (hc : (t.bank c).start = none) : (t.ix.bankA.start = none ∧ t.ix.bankB.start = none) ↔ (t.bank (!c)).start = none := by
  unfold State.bank at hc ⊢
  cases c with
  | false => exact ⟨fun h => h.2, fun h => ⟨hc, h⟩⟩
  | true => exact ⟨fun h => h.1, fun h => ⟨h, hc⟩⟩

/-- What a drain that has ended leaves, before what waited for it goes on: from the state before the record was written. -/
structure Emptied (c : Bool) (s v : State) : Prop where
  bank : v.bank c = bankFree
  other : v.bank (!c) = s.bank (!c)
  deferred : v.ix.deferred = s.ix.deferred
  events : v.events = s.events
  now : v.now = s.now
  draining : v.rf IX_BANK_STAT IX_BANK_STAT_DRAINING = 0
  stat : v.reg IX_STAT = s.reg IX_STAT
  ctl : v.reg IX_CTL = s.reg IX_CTL

theorem emptied_of_put {p v : State} (hp : RecordPut s p) (hd : DrainDone c p v) : Emptied c s v := by
  obtain ⟨-, hev, htime⟩ := hd.moved.others
  have hother : p.bank (!c) = s.bank (!c) := State.bank_of_banks (by rw [hp.ix]) (by rw [hp.ix]) _
  have hdef : p.ix.deferred = s.ix.deferred := by rw [hp.ix]
  refine ⟨hd.bank, hd.other.trans hother, hd.deferred.trans hdef, hev.trans hp.events, ?_, hd.draining, ?_, ?_⟩
  · exact now_of_kept (htime.trans hp.time) ((hd.reg _ (by decide)).trans (hp.reg _ (by decide) (by decide) (by decide)))
  · exact (hd.reg _ (by decide)).trans (hp.reg _ (by decide) (by decide) (by decide))
  · exact (hd.reg _ (by decide)).trans (hp.reg _ (by decide) (by decide) (by decide))

/-- A drain that ends with no close deferred. -/
theorem emptied_settles {v : State} (h : Emptied c s v) (hdef : s.ix.deferred = false) :
    v.afterDrain.bank c = bankFree ∧ v.afterDrain.bank (!c) = s.bank (!c) ∧ v.afterDrain.rf IX_BANK_STAT IX_BANK_STAT_DRAINING = 0 ∧
      (s.integrating = true ∨ (s.bank (!c)).start = none → v.afterDrain.events = s.events) ∧
      v.afterDrain.rf IX_STAT IX_STAT_STATE =
        if s.rf IX_STAT IX_STAT_STATE = 2 ∧ (s.bank (!c)).start = none then 0 else s.rf IX_STAT IX_STAT_STATE := by
  have hset := settled_afterDrain (h.deferred.trans hdef)
  have hstarts := starts_none_iff (t := v) (c := c) (by rw [h.bank]; rfl)
  rw [h.other] at hstarts
  have hint : v.integrating = s.integrating := State.flag_of_reg h.ctl _
  refine ⟨(State.bank_of_ix hset.ix c).trans h.bank, (State.bank_of_ix hset.ix (!c)).trans h.other, (State.rf_of_reg hset.drain _).trans h.draining,
    fun hor => ?_, ?_⟩
  · rw [← h.events]
    refine hset.events (hor.imp (fun hi => hint.trans hi) hstarts.2)
  · rw [hset.state]
    simp only [hstarts, State.rf_of_reg h.stat]

/-- A drain that ends with a close deferred. -/
theorem emptied_realigns {v : State} (h : Emptied c s v) (hdef : s.ix.deferred = true) (hcur : s.curBank = some (!c)) :
    v.afterDrain.ix.deferred = false ∧ (v.afterDrain.bank (!c)).stop = some (spectrumAt s.now) ∧ (v.afterDrain.bank c).start = some (spectrumAt s.now) ∧
      (v.afterDrain.bank c).vat = [] ∧ bit (v.afterDrain.bank c).flags 1 = true := by
  obtain ⟨hstart, hstop⟩ := curBank_some hcur
  have hcur' : v.curBank = some (!c) := curBank_eq (by rw [h.other, hstart]) (by rw [h.other, hstop]) (by rw [Bool.not_not, h.bank]; rfl)
  have hre := realigned_afterDrain (h.deferred.trans hdef) hcur' (by rw [h.bank]; rfl)
  obtain ⟨hnext, hvat, hflag⟩ := hre.next
  have hbank := hre.bank
  rw [h.now] at hnext hbank
  exact ⟨hre.deferred, hbank, hnext, hvat, hflag⟩

/-- From the record in the ring to what waited for the drain: memory, the ring and the registers of the ring stand. -/
structure RingKept (s t : State) : Prop where
  mem : t.mem = s.mem
  ring : t.ix.ring = s.ix.ring
  seq : t.reg IX_INT_SEQ = s.reg IX_INT_SEQ
  wr : t.reg IX_DUMP_WR = s.reg IX_DUMP_WR
  count : t.reg GLB_AV_COUNT = s.reg GLB_AV_COUNT

theorem ringKept_afterDrain {p v : State} (hd : DrainDone c p v) : RingKept p v.afterDrain := by
  have hkept := afterKept_afterDrain v
  obtain ⟨hmem, -, -⟩ := hd.moved.others
  exact ⟨hkept.mem.trans hmem, hkept.ring.trans hd.ring, (hkept.reg _ (by unfold intReg; decide) (by decide)).trans (hd.reg _ (by decide)),
    (hkept.reg _ (by unfold intReg; decide) (by decide)).trans (hd.reg _ (by decide)),
    (hkept.reg _ (by unfold intReg; decide) (by decide)).trans (hd.reg _ (by decide))⟩

theorem RingPut.kept {bs : List Byte} (h : RingPut off bs s t) (hk : RingKept t u) : RingPut off bs s u := by
  have hmem (a : Nat) : u.memByte a = t.memByte a := congrArg (tblGet 0 · a) hk.mem
  refine ⟨fun hin i hi => (hmem _).trans (h.bytes hin i hi), fun hout => ?_, fun a ha => (hmem a).trans (h.beyond a ha), hk.wr.trans h.wr, hk.ring.trans h.ring⟩
  obtain ⟨hm, hcount⟩ := h.missed hout
  exact ⟨hk.mem.trans hm, hk.count.trans hcount⟩

/-- A drain ends: the record is in the ring where the unit writes it, the bank is empty, and what waited goes on. -/
theorem drainEnd_drained (hon : s.on = true) (hq : s.ix.lostQ = []) (hdue : s.closeDue = false ∨ s.freeBank.isSome = true) (hd : s.drainBank = some c)
    (hplace : s.recordPlace (s.bank c) false = some off) :
    ∃ t, exec .drainEnd s = .next t ∧ t.reg IX_INT_SEQ = s.reg IX_INT_SEQ + 1 ∧
      (s.recordOut (s.bank c) = false → t.mem = s.mem ∧ t.ix.ring = s.ix.ring ∧ t.reg IX_DUMP_WR = s.reg IX_DUMP_WR) ∧
      (s.recordOut (s.bank c) = true → RingPut off (s.record (s.bank c) c false) s t) ∧
      (s.ix.deferred = false → t.bank c = bankFree ∧ t.bank (!c) = s.bank (!c) ∧ t.rf IX_BANK_STAT IX_BANK_STAT_DRAINING = 0 ∧
        (s.integrating = true ∨ (s.bank (!c)).start = none → t.events = s.events) ∧
        t.rf IX_STAT IX_STAT_STATE = if s.rf IX_STAT IX_STAT_STATE = 2 ∧ (s.bank (!c)).start = none then 0 else s.rf IX_STAT IX_STAT_STATE) ∧
      (s.ix.deferred = true → s.curBank = some (!c) → t.ix.deferred = false ∧ (t.bank (!c)).stop = some (spectrumAt s.now) ∧
        (t.bank c).start = some (spectrumAt s.now) ∧ (t.bank c).vat = [] ∧ bit (t.bank c).flags 1 = true) := by
  have hexec := drainEnd_writes hon hq hdue hd hplace
  obtain ⟨hput, hwritten, hpassed⟩ := recordPut_put s (s.bank c) off (s.record (s.bank c) c false)
  generalize s.record (s.bank c) c false = bs at *
  generalize s.recordPut (s.bank c) off bs = p at *
  have hdone := drainDone_done p c (s.bank c)
  generalize p.drainDone c (s.bank c) = v at *
  have hempty := emptied_of_put hput hdone
  have hkept := ringKept_afterDrain hdone
  refine ⟨_, hexec, hkept.seq.trans hput.seq, fun hout => ?_, fun hout => (hwritten hout).kept hkept, emptied_settles hempty, emptied_realigns hempty⟩
  obtain ⟨hmem, hring, hwr⟩ := hpassed hout
  exact ⟨hkept.mem.trans hmem, hkept.ring.trans hring, hkept.wr.trans hwr⟩

end Sys2Proof.Machine
end

-- ==== Integrations: product sets and stops fire ====
section

namespace Sys2Proof.Machine

variable {s t u : State} {b c : Bool} {e fl : Nat} {d : SetDesc}

/-! ### An event fires (R57, R412) -/

theorem exec_eventFire (s : State) : exec .eventFire s = execEventFire s := (rfl)

theorem eventFire_fires (hon : s.on = true) {v : Event} (hnext : s.nextFire = some v) (hrun : s.running = true) (hcom : v.committed = true)
    (hf : v.f ≤ s.now) (hop : v.op ≠ 0x0D04) : exec .eventFire s = .next (s.fireEvent v) := by
  have hguard : (s.running && v.committed && decide (v.f ≤ s.now) && !(s.cp.scriptRun && v.op == 0x0D04)) = true := by
    rw [hrun, hcom, decide_eq_true hf, beq_eq_false_iff_ne.2 hop, Bool.and_false]
    rfl
  rw [exec_eventFire, execEventFire, whenOn_on hon, hnext]
  simp only [hguard, if_true]

/-- The registers that follow the queue of scheduled events. -/
def queueReg (a : Nat) : Prop := a ∈ [CP_FW_STAT, WD_TABLE, SC_STAT, SC_NEXT_LO, SC_NEXT_LO + 4] ∨ ∃ k < 64, a = MD_CH_SL_STAT k

theorem reg_schedSync (s : State) {a : Nat} (ha : ¬ queueReg a) : s.schedSync.reg a = s.reg a := by
  obtain ⟨hlist, hmd⟩ := not_or.1 ha
  simp only [List.mem_cons, List.not_mem_nil, or_false, not_or] at hlist
  obtain ⟨hfw, hwd, hstat, hlo, hhi⟩ := hlist
  rw [State.schedSync, State.nextSync, State.reg_setReg64_ne _ _ hlo hhi, State.reg_setF_ne _ _ _ hstat, State.queuedFlags]
  refine List.foldlRecOn (List.range 64) _ (motive := fun u : State => u.reg a = s.reg a) ?_ fun u hu k hk => ?_
  · rw [State.reg_setF_ne _ _ _ hwd, State.reg_setF_ne _ _ _ hfw]
  · rw [State.reg_setF_ne _ _ _ fun h => hmd ⟨k, List.mem_range.1 hk, h⟩, hu]

/-- What the correlator reads stands while an event leaves the queue. -/
structure Unqueued (s t : State) : Prop where
  ix : t.ix = s.ix
  reg : ∀ a, 0x300000 ≤ a → a < 0x302000 → t.reg a = s.reg a
  ct : t.reg ET_CT_CTL = s.reg ET_CT_CTL

theorem unqueued_dropEvent (s : State) (h : Nat) : Unqueued s (s.dropEvent h) := by
  have hkept : CorrKept 0x302000 { s with events := s.events.filter fun v => v.handle != h } (s.dropEvent h) := (CorrKept.refl _ _).schedSync
  refine ⟨hkept.ix, hkept.reg, ?_⟩
  rw [State.dropEvent, reg_schedSync]
  · rfl
  · rintro (h | ⟨k, hk, h⟩)
    · revert h
      decide
    · unfold ET_CT_CTL MD_CH_SL_STAT at h
      omega

/-- What follows an event's action: it is counted, the queue's bits follow, and a checkpoint goes out where one is due. -/
def State.firedShown (s : State) : State := (s.bump SC_FIRED).schedSync.deltaSend

theorem corrKept_firedShown (s : State) : CorrKept 0x302000 s s.firedShown :=
  (((CorrKept.refl 0x302000 s).bump (.inr (by decide))).schedSync).deltaSend

/-- A refusal of the script's command that has been reported. -/
def State.failReported (s : State) (h : Nat) : State := { s with cp := { s.cp with scriptFails := s.cp.scriptFails.filter fun y => y.1 != h } }

theorem corrKept_failReported (s : State) (h : Nat) : CorrKept 0x302000 s (s.failReported h) := (CorrKept.refl _ s).congr rfl rfl rfl rfl

/-- An event with an action is applied, counted and reported. -/
theorem fireEvent_kept {v : Event} (hno : s.noAction v = false) (hop : v.op ≠ 0x0C11) :
    CorrKept 0x302000 ((s.dropEvent v.handle).applyEvent v) (s.fireEvent v) := by
  rw [State.fireEvent, hno, if_neg Bool.false_ne_true]
  generalize (s.dropEvent v.handle).applyEvent v = w
  have hshown := corrKept_firedShown w
  rw [State.firedShown] at hshown
  generalize (w.bump SC_FIRED).schedSync.deltaSend = x at *
  split
  · next y _ =>
    have hrep := hshown.trans (corrKept_failReported x v.handle)
    rw [State.failReported] at hrep
    exact hrep.notify (by decide) _ _ _
  · rw [if_neg hop]
    exact hshown.notify (by decide) _ _ _

theorem applyEvent_set {v : Event} (hop : v.op = 0x0401) : s.applyEvent v = s.applySet v.f (setDesc (v.cmd.payload.drop 2)) := by
  unfold State.applyEvent
  simp only [hop]

theorem applyEvent_stop {v : Event} (hop : v.op = 0x0403) : s.applyEvent v = s.applyStop v.f := by
  unfold State.applyEvent
  simp only [hop]

/-! ### The configuration of a product set (R184, R204) -/

theorem reg_regionRegs (s : State) (d : SetDesc) {a : Nat} (ha : a < 0x301000) : (s.regionRegs d).reg a = s.reg a := by
  have hne (i : Nat) : a ∉ [IX_RG_CTL i, IX_RG_BL_FIRST i, IX_RG_BL_COUNT i, IX_RG_CH i, IX_RG_VATBASE i] := by
    simp only [List.mem_cons, List.not_mem_nil, or_false, IX_RG_CTL, IX_RG_BL_FIRST, IX_RG_BL_COUNT, IX_RG_CH, IX_RG_VATBASE]
    omega
  refine List.foldlRecOn (List.range 16) _ (motive := fun u : State => u.reg a = s.reg a) rfl fun u hu i _ => ?_
  have hi := hne i
  split
  · simp only [List.mem_cons, List.not_mem_nil, or_false, not_or] at hi
    obtain ⟨h0, h1, h2, h3, h4⟩ := hi
    rw [State.reg_setReg_ne _ _ h4, State.reg_setReg_ne _ _ h3, State.reg_setReg_ne _ _ h2, State.reg_setReg_ne _ _ h1, State.reg_setReg_ne _ _ h0, hu]
  · rw [State.reg_clearRegs, if_neg hi, hu]

theorem RegsMoved.refl (s : State) : RegsMoved s s := ⟨_, _, _, Eq.refl _⟩

theorem regsMoved_regionRegs (s : State) (d : SetDesc) : RegsMoved s (s.regionRegs d) := by
  unfold State.regionRegs
  extract_lets sel
  refine List.foldlRecOn (List.range 16) _ (motive := RegsMoved s) (.refl s) fun u hu i _ => ?_
  split
  · exact ((((hu.trans (regsMoved_setReg _ _ _)).trans (regsMoved_setReg _ _ _)).trans (regsMoved_setReg _ _ _)).trans (regsMoved_setReg _ _ _)).trans
      (regsMoved_setReg _ _ _)
  · exact hu.trans ⟨_, _, _, Eq.refl _⟩

/-- A product set's configuration in force: its registers, regions and grid. -/
structure Configured (e : Nat) (d : SetDesc) (s t : State) : Prop where
  ix : t.ix = { s.ix with regions := d.regions, anchor := e }
  run : t.flag IX_CTL IX_CTL_RUN = true
  fmt : t.rf IX_CTL IX_CTL_FMT = d.fmt % 2
  nspec : t.rf IX_INT_LEN IX_INT_LEN_NSPEC = d.nspec % 2 ^ 25
  stage : t.rf IX_STAGE IX_STAGE_T = stageT (modePaths s.mode) (selection d.regions).2 % 2 ^ 13
  chans : t.reg IX_STAGE_CH = w32 ((selection d.regions).1 * 65536 + (selection d.regions).2)

/-- The registers that name how a set integrates and stages (R204). -/
def State.setRegs (s : State) (d : SetDesc) : State :=
  ((((s.setF IX_CTL IX_CTL_RUN 1).setF IX_CTL IX_CTL_FMT d.fmt).setF IX_INT_LEN IX_INT_LEN_NSPEC d.nspec).setF IX_STAGE IX_STAGE_T
    (stageT (modePaths s.mode) (selection d.regions).2)).setReg IX_STAGE_CH (w32 ((selection d.regions).1 * 65536 + (selection d.regions).2))

/-- The regions and the grid's anchor of a set. -/
def State.setGrid (s : State) (e : Nat) (rs : List Region) : State := { s with ix := { s.ix with regions := rs, anchor := e } }

/-- The registers of a set's use and regions, and IX_STAT (R204). -/
def State.setUse (s : State) (d : SetDesc) (w0 w1 : Word) : State :=
  ((((s.setReg (IX_UTIL 0) w0).setReg (IX_UTIL 1) w1).regionRegs d).setF IX_STAT IX_STAT_STATE 1)

theorem setConfig_eq (s : State) (e : Nat) (d : SetDesc) : ∃ w0 w1, s.setConfig e d = ((s.setRegs d).setUse d w0 w1).setGrid e d.regions := by
  rw [State.setConfig, State.setRegs]
  exact ⟨_, _, rfl⟩

theorem regsMoved_setUse (s : State) (d : SetDesc) (w0 w1 : Word) : RegsMoved s (s.setUse d w0 w1) := by
  rw [State.setUse]
  exact (((regsMoved_setReg _ _ _).trans (regsMoved_setReg _ _ _)).trans (regsMoved_regionRegs _ _)).trans (regsMoved_setF _ _ _ _)

theorem reg_setUse (s : State) (d : SetDesc) (w0 w1 : Word) {a : Nat} (ha : a ∈ [IX_CTL, IX_INT_LEN, IX_STAGE, IX_STAGE_CH]) :
    (s.setUse d w0 w1).reg a = s.reg a := by
  have hne : a ≠ IX_STAT ∧ a < 0x301000 ∧ a ≠ IX_UTIL 1 ∧ a ≠ IX_UTIL 0 := by
    revert a
    decide
  obtain ⟨hstat, hlt, h1, h0⟩ := hne
  rw [State.setUse, State.reg_setF_ne _ _ _ hstat, reg_regionRegs _ _ hlt, State.reg_setReg_ne _ _ h1, State.reg_setReg_ne _ _ h0]

theorem regsMoved_setRegs (s : State) (d : SetDesc) : RegsMoved s (s.setRegs d) := by
  rw [State.setRegs]
  exact ((((regsMoved_setF _ _ _ _).trans (regsMoved_setF _ _ _ _)).trans (regsMoved_setF _ _ _ _)).trans (regsMoved_setF _ _ _ _)).trans
    (regsMoved_setReg _ _ _)

theorem setRegs_set (s : State) (d : SetDesc) : (s.setRegs d).flag IX_CTL IX_CTL_RUN = true ∧ (s.setRegs d).rf IX_CTL IX_CTL_FMT = d.fmt % 2 ∧
    (s.setRegs d).rf IX_INT_LEN IX_INT_LEN_NSPEC = d.nspec % 2 ^ 25 ∧
    (s.setRegs d).rf IX_STAGE IX_STAGE_T = stageT (modePaths s.mode) (selection d.regions).2 % 2 ^ 13 ∧
    (s.setRegs d).reg IX_STAGE_CH = w32 ((selection d.regions).1 * 65536 + (selection d.regions).2) := by
  unfold State.setRegs
  generalize stageT (modePaths s.mode) (selection d.regions).2 = n
  generalize w32 ((selection d.regions).1 * 65536 + (selection d.regions).2) = w
  have hctl (f : Fld) : ((((((s.setF IX_CTL IX_CTL_RUN 1).setF IX_CTL IX_CTL_FMT d.fmt).setF IX_INT_LEN IX_INT_LEN_NSPEC d.nspec).setF IX_STAGE IX_STAGE_T
      n).setReg IX_STAGE_CH w)).rf IX_CTL f = ((s.setF IX_CTL IX_CTL_RUN 1).setF IX_CTL IX_CTL_FMT d.fmt).rf IX_CTL f := by
    rw [State.rf_of_reg (State.reg_setReg_ne _ _ (by decide)), State.rf_of_reg (State.reg_setF_ne _ _ _ (by decide)),
      State.rf_of_reg (State.reg_setF_ne _ _ _ (by decide))]
  refine ⟨?_, ?_, ?_, ?_, State.reg_setReg_same _ _ _⟩
  · rw [State.flag_of_rf (hctl _), State.flag_of_rf (State.rf_setF_apart _ _ _ _ _ (by decide) (by unfold Fld.apart; decide)),
      State.flag_setF_same _ _ _ _ (by decide)]
    rfl
  · rw [hctl, State.rf_setF_same _ _ _ _ (by decide)]
    rfl
  · rw [State.rf_of_reg (State.reg_setReg_ne _ _ (by decide)), State.rf_of_reg (State.reg_setF_ne _ _ _ (by decide)),
      State.rf_setF_same _ _ _ _ (by decide)]
    rfl
  · rw [State.rf_of_reg (State.reg_setReg_ne _ _ (by decide)), State.rf_setF_same _ _ _ _ (by decide)]
    rfl

theorem configured_setConfig (s : State) (e : Nat) (d : SetDesc) : Configured e d s (s.setConfig e d) := by
  obtain ⟨w0, w1, heq⟩ := setConfig_eq s e d
  obtain ⟨hrun, hfmt, hnspec, hstage, hchans⟩ := setRegs_set s d
  have hix := ((regsMoved_setRegs s d).trans (regsMoved_setUse _ d w0 w1)).ix
  have hreg (a : Nat) (ha : a ∈ [IX_CTL, IX_INT_LEN, IX_STAGE, IX_STAGE_CH]) := reg_setUse (s.setRegs d) d w0 w1 ha
  rw [heq]
  generalize (s.setRegs d).setUse d w0 w1 = v at *
  have hgrid (a : Nat) (ha : a ∈ [IX_CTL, IX_INT_LEN, IX_STAGE, IX_STAGE_CH]) : (v.setGrid e d.regions).reg a = (s.setRegs d).reg a :=
    (State.reg_withIx _ _ _).trans (hreg a ha)
  refine ⟨?_, (State.flag_of_reg (hgrid _ (by decide)) _).trans hrun, (State.rf_of_reg (hgrid _ (by decide)) _).trans hfmt,
    (State.rf_of_reg (hgrid _ (by decide)) _).trans hnspec, (State.rf_of_reg (hgrid _ (by decide)) _).trans hstage, (hgrid _ (by decide)).trans hchans⟩
  rw [State.setGrid, hix]

/-! ### A product set is applied (R57, R174, R184, R186) -/

/-- The staging configuration changes at `e` from that of `s` to that of `t`: what stands of `t`, and where the old one is kept. -/
structure Staged (e : Nat) (s t u : State) : Prop where
  regs : u.regs = t.regs
  bankA : u.ix.bankA = t.ix.bankA
  bankB : u.ix.bankB = t.ix.bankB
  regions : u.ix.regions = t.ix.regions
  anchor : u.ix.anchor = t.ix.anchor
  first : s.stNow.t = 0 → u.ix.nextBase = e
  later : s.stNow.t ≠ 0 → (e, s.stNow) ∈ u.ix.olds

theorem mem_olds_keepCfg (s : State) (e : Nat) : (e, s.stNow) ∈ (s.keepCfg e).ix.olds := by
  rw [State.keepCfg]
  exact List.mem_append_right _ (List.mem_singleton_self _)

theorem staged_stageFrom (s t : State) (e : Nat) : Staged e s t (s.stageFrom t e) := by
  rw [State.stageFrom]
  split
  · next h => exact ⟨Eq.refl _, Eq.refl _, Eq.refl _, Eq.refl _, Eq.refl _, fun _ => Eq.refl _, fun h' => absurd h h'⟩
  · next h =>
    have hmem := mem_olds_keepCfg s e
    generalize s.keepCfg e = u at *
    exact ⟨Eq.refl _, Eq.refl _, Eq.refl _, Eq.refl _, Eq.refl _, fun h' => absurd h' h, fun _ => hmem⟩

/-- The open integration, if any, ended where a set fires at `e`, and the boundary noted. -/
def State.setEnd (s : State) (e : Nat) : State := (if s.integrating then s.endAt e else s).epochBound e true

theorem applySet_eq (s : State) (e : Nat) (d : SetDesc) : s.applySet e d =
    ((((s.setEnd e).stageFrom ((s.setEnd e).setConfig e d) e).startIntegration e (2 ^ fConfigChange)).regrid e) := by
  rw [State.applySet, State.setEnd]

theorem regs_endAt (s : State) (e : Nat) : (s.endAt e).regs = s.regs := by
  rw [State.endAt]
  split
  · next c hc =>
    split
    · cases c <;> exact Eq.refl _
    · exact (ended_endIntegration hc e).regs
  · rfl

theorem regs_epochBound (s : State) (e : Nat) (runs : Bool) : (s.epochBound e runs).regs = s.regs := (rfl)

theorem regs_setEnd (s : State) (e : Nat) : (s.setEnd e).regs = s.regs := by
  rw [State.setEnd, regs_epochBound]
  split
  · exact regs_endAt s e
  · rfl

theorem stNow_of_regs (h : ∀ a ∈ [IX_STAGE, IX_STAGE_CH, ET_CT_CTL], t.reg a = s.reg a) : t.stNow = s.stNow := by
  rw [State.stNow, State.stNow, State.selFirst, State.selFirst, State.selCount, State.selCount, State.mode, State.mode, State.member, State.member,
    State.rf_of_reg (h IX_STAGE (by decide)), State.rf_of_reg (h IX_STAGE_CH (by decide)), State.rf_of_reg (h IX_STAGE_CH (by decide)),
    State.rf_of_reg (h ET_CT_CTL (by decide)), State.rf_of_reg (h ET_CT_CTL (by decide))]

/-- What a product set leaves in force, whether or not a bank was free. -/
structure SetInForce (e : Nat) (d : SetDesc) (s t : State) : Prop where
  run : t.flag IX_CTL IX_CTL_RUN = true
  fmt : t.rf IX_CTL IX_CTL_FMT = d.fmt % 2
  nspec : t.rf IX_INT_LEN IX_INT_LEN_NSPEC = d.nspec % 2 ^ 25
  stage : t.rf IX_STAGE IX_STAGE_T = stageT (modePaths s.mode) (selection d.regions).2 % 2 ^ 13
  chans : t.reg IX_STAGE_CH = w32 ((selection d.regions).1 * 65536 + (selection d.regions).2)
  regions : t.ix.regions = d.regions
  anchor : t.ix.anchor = e
  first : s.stNow.t = 0 → t.ix.nextBase = e
  later : s.stNow.t ≠ 0 → (e, s.stNow) ∈ t.ix.olds

theorem SetInForce.of_kept (h : SetInForce e d s t) (hreg : ∀ a ∈ [IX_CTL, IX_INT_LEN, IX_STAGE, IX_STAGE_CH], u.reg a = t.reg a)
    (hr : u.ix.regions = t.ix.regions) (ha : u.ix.anchor = t.ix.anchor) (hn : u.ix.nextBase = t.ix.nextBase) (ho : u.ix.olds = t.ix.olds) :
    SetInForce e d s u :=
  ⟨(State.flag_of_reg (hreg _ (by decide)) _).trans h.run, (State.rf_of_reg (hreg _ (by decide)) _).trans h.fmt,
    (State.rf_of_reg (hreg _ (by decide)) _).trans h.nspec, (State.rf_of_reg (hreg _ (by decide)) _).trans h.stage, (hreg _ (by decide)).trans h.chans,
    hr.trans h.regions, ha.trans h.anchor, fun h0 => hn.trans (h.first h0), fun h0 => by rw [ho]; exact h.later h0⟩

/-- The state whose staging follows the set, before the first integration under it starts. -/
def State.setStaged (s : State) (e : Nat) (d : SetDesc) : State := (s.setEnd e).stageFrom ((s.setEnd e).setConfig e d) e

theorem setInForce_setStaged (s : State) (e : Nat) (d : SetDesc) : SetInForce e d s (s.setStaged e d) ∧
    (s.setStaged e d).ix.bankA = (s.setEnd e).ix.bankA ∧ (s.setStaged e d).ix.bankB = (s.setEnd e).ix.bankB := by
  have hregs (a : Nat) : (s.setEnd e).reg a = s.reg a := congrArg (tblGet 0 · a) (regs_setEnd s e)
  have hnow : (s.setEnd e).stNow = s.stNow := stNow_of_regs fun a _ => hregs a
  have hmode : (s.setEnd e).mode = s.mode := State.rf_of_reg (hregs _) _
  rw [State.setStaged]
  generalize s.setEnd e = v at *
  have hconf := configured_setConfig v e d
  have hstage := staged_stageFrom v (v.setConfig e d) e
  have hix := hconf.ix
  generalize v.setConfig e d = w at *
  generalize v.stageFrom w e = x at *
  have hreg (a : Nat) : x.reg a = w.reg a := congrArg (tblGet 0 · a) hstage.regs
  refine ⟨⟨(State.flag_of_reg (hreg _) _).trans hconf.run, (State.rf_of_reg (hreg _) _).trans hconf.fmt, (State.rf_of_reg (hreg _) _).trans hconf.nspec,
    (State.rf_of_reg (hreg _) _).trans (by rw [← hmode]; exact hconf.stage), (hreg _).trans hconf.chans, ?_, ?_, ?_, ?_⟩, ?_, ?_⟩
  · rw [hstage.regions, hix]
  · rw [hstage.anchor, hix]
  · rw [← hnow]
    exact hstage.first
  · rw [← hnow]
    exact hstage.later
  · rw [hstage.bankA, hix]
  · rw [hstage.bankB, hix]

theorem startIntegration_ix (s : State) (e fl : Nat) :
    (s.startIntegration e fl).ix.nextBase = s.ix.nextBase ∧ (s.startIntegration e fl).ix.olds = s.ix.olds := by
  cases hf : s.freeBank with
  | some f =>
    rw [(opened_startIntegration hf e fl).ix, State.setBank_eq]
    exact ⟨Eq.refl _, Eq.refl _⟩
  | none =>
    rw [startIntegration_none hf]
    exact ⟨rfl, rfl⟩

theorem setInForce_applySet (s : State) (e : Nat) (d : SetDesc) : SetInForce e d s (s.applySet e d) := by
  obtain ⟨hset, -, -⟩ := setInForce_setStaged s e d
  rw [applySet_eq, ← State.setStaged]
  generalize s.setStaged e d = v at *
  obtain ⟨hnext, holds⟩ := startIntegration_ix v e (2 ^ fConfigChange)
  have hgrid := gridMoved_startIntegration v e (2 ^ fConfigChange)
  generalize v.startIntegration e (2 ^ fConfigChange) = w at *
  have hre := regridded_regrid w e
  refine hset.of_kept (fun a ha => ?_) (by rw [hre.ix, hgrid.regions]) (by rw [hre.ix, hgrid.anchor]) (by rw [hre.ix, hnext]) (by rw [hre.ix, holds])
  have hne : a ∉ [SC_NEXT_LO, SC_NEXT_LO + 4] ∧ a ∉ gridRegs ∧ ¬ intReg a := by
    revert a
    unfold intReg
    decide
  exact (hre.reg a hne.1).trans (hgrid.reg a hne.2.2 hne.2.1)

/-- The first integration under a set starts in the free bank. -/
theorem applySet_opens {f : Bool} (hf : (s.setEnd e).freeBank = some f) : ((s.applySet e d).bank f).start = some e ∧
    ((s.applySet e d).bank f).regions = d.regions ∧ ((s.applySet e d).bank f).vat = [] ∧ bit ((s.applySet e d).bank f).flags fConfigChange = true ∧
    (s.applySet e d).bank (!f) = (s.setEnd e).bank (!f) := by
  obtain ⟨hset, hA, hB⟩ := setInForce_setStaged s e d
  have hfree : (s.setStaged e d).freeBank = some f := (freeBank_of_banks hA hB).trans hf
  have hother : (s.setStaged e d).bank (!f) = (s.setEnd e).bank (!f) := State.bank_of_banks hA hB _
  have hregions := hset.regions
  rw [applySet_eq, ← State.setStaged]
  generalize s.setStaged e d = v at *
  have hopen := opened_startIntegration hfree e (2 ^ fConfigChange)
  generalize v.startIntegration e (2 ^ fConfigChange) = w at *
  have hre := (regridded_regrid w e).ix
  obtain ⟨hstart, -, hvat, -, hflags, hrs⟩ := freshBank_new v e (2 ^ fConfigChange)
  rw [State.bank_of_ix hre, State.bank_of_ix hre, hopen.bank, hstart, hvat, hflags, hrs, hregions, hopen.other, hother]
  exact ⟨rfl, rfl, rfl, by decide, rfl⟩

theorem bank_epochBound (s : State) (e : Nat) (runs : Bool) (b : Bool) : (s.epochBound e runs).bank b = s.bank b := State.bank_of_ix rfl b

/-- An open integration that began before `e` has its closing boundary there. -/
theorem ended_endAt (hc : s.curBank = some c) (hne : (s.bank c).start ≠ some e) : Ended c e s (s.endAt e) := by
  have heq : s.endAt e = s.endIntegration e := by
    rw [State.endAt, hc]
    exact if_neg hne
  rw [heq]
  exact ended_endIntegration hc e

/-- Without an integration, the first set opens bank A. -/
theorem applySet_first (hrun : s.integrating = false) (ha : s.ix.bankA.start = none) : (s.applySet e d).ix.bankA.start = some e ∧
    (s.applySet e d).ix.bankA.regions = d.regions ∧ (s.applySet e d).ix.bankA.vat = [] ∧ bit (s.applySet e d).ix.bankA.flags fConfigChange = true := by
  have hend : s.setEnd e = s.epochBound e true := by rw [State.setEnd, hrun, if_neg Bool.false_ne_true]
  have hfree : (s.setEnd e).freeBank = some false := by
    rw [hend]
    exact freeBank_first (s := s.epochBound e true) ha
  obtain ⟨hstart, hregions, hvat, hflag, -⟩ := applySet_opens (d := d) hfree
  exact ⟨hstart, hregions, hvat, hflag⟩

/-- A set that fires while an integration is open ends it and opens the other bank. -/
theorem applySet_next (hrun : s.integrating = true) (hc : s.curBank = some c) (hne : (s.bank c).start ≠ some e) (hfree : (s.bank (!c)).start = none) :
    ((s.applySet e d).bank c).stop = some e ∧ ((s.applySet e d).bank (!c)).start = some e ∧ ((s.applySet e d).bank (!c)).regions = d.regions ∧
      bit ((s.applySet e d).bank (!c)).flags fConfigChange = true := by
  have hend : s.setEnd e = (s.endAt e).epochBound e true := by rw [State.setEnd, hrun, if_pos rfl]
  have hended := ended_endAt hc hne
  obtain ⟨hstart, -⟩ := curBank_some hc
  have hbank : (s.setEnd e).bank c = { s.bank c with stop := some e } := by rw [hend, bank_epochBound, hended.bank]
  have hother : (s.setEnd e).bank (!c) = s.bank (!c) := by rw [hend, bank_epochBound, hended.other]
  have hf : (s.setEnd e).freeBank = some (!c) := freeBank_eq (by rw [hbank]; exact hstart) (by rw [hother, hfree])
  obtain ⟨hopen, hregions, -, hflag, hkeep⟩ := applySet_opens (d := d) hf
  rw [Bool.not_not] at hkeep
  exact ⟨by rw [hkeep, hbank], hopen, hregions, hflag⟩

/-! ### A stop is applied (R186) -/

/-- The open integration, if any, ended where a stop fires at `e`, and the boundary noted. -/
def State.stopEnd (s : State) (e : Nat) : State := if s.curBank.isSome || s.integrating then (s.endAt e).epochBound e false else s

/-- RUN cleared and IX_STAT.STATE STOPPING, the queue on its new grid. -/
def State.stopped (s : State) (e : Nat) : State := ((s.setF IX_CTL IX_CTL_RUN 0).setF IX_STAT IX_STAT_STATE 2).regrid e

theorem applyStop_eq (s : State) (e : Nat) : s.applyStop e =
    if ((s.stopEnd e).stopped e).ix.bankA.start = none ∧ ((s.stopEnd e).stopped e).ix.bankB.start = none then
      ((s.stopEnd e).stopped e).setF IX_STAT IX_STAT_STATE 0 else (s.stopEnd e).stopped e := by
  rw [State.applyStop, State.stopEnd, State.stopped]

theorem stopped_stops (s : State) (e : Nat) : (s.stopped e).ix = s.ix ∧ (s.stopped e).flag IX_CTL IX_CTL_RUN = false ∧
    (s.stopped e).rf IX_STAT IX_STAT_STATE = 2 := by
  rw [State.stopped]
  have hrun : ((s.setF IX_CTL IX_CTL_RUN 0).setF IX_STAT IX_STAT_STATE 2).flag IX_CTL IX_CTL_RUN = false := by
    rw [State.flag_of_reg (State.reg_setF_ne _ _ _ (by decide)), State.flag_setF_same _ _ _ _ (by decide)]
    rfl
  have hstate : ((s.setF IX_CTL IX_CTL_RUN 0).setF IX_STAT IX_STAT_STATE 2).rf IX_STAT IX_STAT_STATE = 2 := by
    rw [State.rf_setF_same _ _ _ _ (by decide)]
    rfl
  have hix : ((s.setF IX_CTL IX_CTL_RUN 0).setF IX_STAT IX_STAT_STATE 2).ix = s.ix := by rw [State.setF_ix, State.setF_ix]
  generalize (s.setF IX_CTL IX_CTL_RUN 0).setF IX_STAT IX_STAT_STATE 2 = v at *
  have hre := regridded_regrid v e
  exact ⟨hre.ix.trans hix, (State.flag_of_reg (hre.reg _ (by decide)) _).trans hrun, (State.rf_of_reg (hre.reg _ (by decide)) _).trans hstate⟩

/-- A stop clears RUN and leaves the banks as the end of the open integration does; STATE is IDLE once no bank holds one. -/
theorem applyStop_stops (s : State) (e : Nat) : (s.applyStop e).ix = (s.stopEnd e).ix ∧ (s.applyStop e).flag IX_CTL IX_CTL_RUN = false ∧
    (s.applyStop e).rf IX_STAT IX_STAT_STATE =
      if (s.stopEnd e).ix.bankA.start = none ∧ (s.stopEnd e).ix.bankB.start = none then 0 else 2 := by
  obtain ⟨hix, hrun, hstate⟩ := stopped_stops (s.stopEnd e) e
  rw [applyStop_eq, hix]
  generalize (s.stopEnd e).stopped e = v at *
  split
  · refine ⟨(State.setF_ix _ _ _ _).trans hix, (State.flag_of_reg (State.reg_setF_ne _ _ _ (by decide)) _).trans hrun, ?_⟩
    rw [State.rf_setF_same _ _ _ _ (by decide)]
    rfl
  · exact ⟨hix, hrun, hstate⟩

theorem applyStop_ends (hc : s.curBank = some c) (hne : (s.bank c).start ≠ some e) : ((s.applyStop e).bank c).stop = some e ∧
    (s.applyStop e).rf IX_STAT IX_STAT_STATE = 2 := by
  obtain ⟨hix, -, hstate⟩ := applyStop_stops s e
  have hended := ended_endAt hc hne
  obtain ⟨hstart, -⟩ := curBank_some hc
  have hend : s.stopEnd e = (s.endAt e).epochBound e false := by rw [State.stopEnd, hc, Option.isSome_some, Bool.true_or, if_pos rfl]
  have hbank : (s.stopEnd e).bank c = { s.bank c with stop := some e } := by rw [hend, bank_epochBound, hended.bank]
  have hsome : ¬ ((s.stopEnd e).ix.bankA.start = none ∧ (s.stopEnd e).ix.bankB.start = none) := by
    rintro ⟨ha, hb⟩
    have hnone : ((s.stopEnd e).bank c).start = none := by cases c <;> assumption
    rw [hbank] at hnone
    rw [hnone] at hstart
    cases hstart
  exact ⟨by rw [State.bank_of_ix hix, hbank], hstate.trans (if_neg hsome)⟩

theorem applyStop_idle (ha : s.ix.bankA.start = none) (hb : s.ix.bankB.start = none) : (s.applyStop e).rf IX_STAT IX_STAT_STATE = 0 := by
  obtain ⟨-, -, hstate⟩ := applyStop_stops s e
  have hcur : s.curBank = none := by rw [State.curBank, ha, hb]; rfl
  have hend : (s.stopEnd e).ix = s.ix := by
    rw [State.stopEnd, State.endAt, hcur]
    split <;> rfl
  rw [hstate, hend]
  exact if_pos ⟨ha, hb⟩

/-! ### The obligation -/

theorem SetInForce.kept (h : SetInForce e d s t) (hk : CorrKept 0x302000 t u) : SetInForce e d s u :=
  h.of_kept (fun a ha => hk.reg a (by revert a; decide) (by revert a; decide)) (by rw [hk.ix]) (by rw [hk.ix]) (by rw [hk.ix]) (by rw [hk.ix])

/-- A product set that fires. -/
theorem eventFire_set (hon : s.on = true) {v : Event} (hnext : s.nextFire = some v) (hrun : s.running = true) (hcom : v.committed = true)
    (hf : v.f ≤ s.now) (hno : s.noAction v = false) (hop : v.op = 0x0401) :
    ∃ w t, Unqueued s w ∧ exec .eventFire s = .next t ∧ CorrKept 0x302000 (w.applySet v.f (setDesc (v.cmd.payload.drop 2))) t := by
  refine ⟨s.dropEvent v.handle, _, unqueued_dropEvent s _, eventFire_fires hon hnext hrun hcom hf (by rw [hop]; decide), ?_⟩
  have hkept := fireEvent_kept hno (by rw [hop]; decide)
  rwa [applyEvent_set hop] at hkept

/-- A stop that fires. -/
theorem eventFire_stop (hon : s.on = true) {v : Event} (hnext : s.nextFire = some v) (hrun : s.running = true) (hcom : v.committed = true)
    (hf : v.f ≤ s.now) (hno : s.noAction v = false) (hop : v.op = 0x0403) :
    ∃ w t, Unqueued s w ∧ exec .eventFire s = .next t ∧ CorrKept 0x302000 (w.applyStop v.f) t := by
  refine ⟨s.dropEvent v.handle, _, unqueued_dropEvent s _, eventFire_fires hon hnext hrun hcom hf (by rw [hop]; decide), ?_⟩
  have hkept := fireEvent_kept hno (by rw [hop]; decide)
  rwa [applyEvent_stop hop] at hkept

theorem Unqueued.stNow (h : Unqueued s t) : t.stNow = s.stNow := stNow_of_regs fun a ha => by
  by_cases hct : a = ET_CT_CTL
  · rw [hct, h.ct]
  · exact h.reg a (by revert a; decide) (by revert a; decide)

theorem Unqueued.inForce {w : State} (h : Unqueued s w) (hs : SetInForce e d w t) : SetInForce e d s t := by
  have hmode : w.mode = s.mode := State.rf_of_reg h.ct _
  exact ⟨hs.run, hs.fmt, hs.nspec, by rw [← hmode]; exact hs.stage, hs.chans, hs.regions, hs.anchor, by rw [← h.stNow]; exact hs.first,
    by rw [← h.stNow]; exact hs.later⟩

end Sys2Proof.Machine
end

-- ==== Integrations: the obligation ====
section

namespace Sys2Proof.Machine

variable {s t u : State} {c : Bool}

theorem integrationBoundary_open (hon : s.on = true) (hc : s.curBank = none) : exec .integrationBoundary s = .next s := by
  refine integrationBoundary_idle hon ?_
  rw [State.closeDue, hc]
  simp

theorem Unqueued.integrating (h : Unqueued s t) : t.integrating = s.integrating := State.flag_of_reg (h.reg _ (by decide) (by decide)) _

theorem Unqueued.curBank (h : Unqueued s t) : t.curBank = s.curBank := curBank_of_banks (by rw [h.ix]) (by rw [h.ix])

/-- Settles O39: boundaries by `closedAt_closeAt` and `deferred_closeAt`, closes by `drainWait_named`, records by `recordPut_put`, the end of a drain by
`settled_afterDrain` and `realigned_afterDrain`, sets and stops by `setInForce_applySet` and `applyStop_stops`. -/
theorem integrationsCloseDrainAndChange : Obligations.IntegrationsCloseDrainAndChange := by
  unfold Obligations.IntegrationsCloseDrainAndChange
  intro s hon hck count
  refine ⟨?_, integrationBoundary_open hon, bankClose_none hon, fun c => bankClose_drains hon, ?_, ?_, ?_, ?_⟩
  · intro c hc due
    have hiff : s.closeDue = true ↔ due := closeDue_iff hc
    refine ⟨fun hnot => integrationBoundary_idle hon (Bool.eq_false_iff.2 fun h => hnot (hiff.1 h)), fun hdue hfree => ?_, fun hdue hfull => ?_⟩
    · exact integrationBoundary_closes hon hck hc (hiff.2 hdue) hfree
    · have hclose := hiff.2 hdue
      obtain ⟨-, -, -, hdef, -⟩ := hdue
      exact integrationBoundary_defers hon hck hc hclose hdef hfull
  · exact fun hd hq => ⟨fun hdue => drainEnd_none hon hq hdue hd, drainRingSpace_empty hon hd hq⟩
  · intro x which rest hq
    refine ⟨drainRingSpace_waits hon hq, fun off hrest hplace => ?_⟩
    subst hrest
    exact drainRingSpace_lost hon hq hplace
  · intro c hd hq hdue rec' base
    refine ⟨drainRingSpace_drain hon hd hq, drainEnd_waits hon hq hdue hd, fun off hplace => ?_⟩
    obtain ⟨t, hexec, hseq, hpassed, hwritten, hsettled, hrealigned⟩ := drainEnd_drained hon hq hdue hd hplace
    refine ⟨t, hexec, hseq, hpassed, fun hout => ?_, hsettled, hrealigned⟩
    obtain ⟨hbytes, hmissed, hbeyond, hwr, hring⟩ := hwritten hout
    exact ⟨hbytes, hmissed, hbeyond, hwr, hring⟩
  · intro v hnext hrun hcom hf hno d
    refine ⟨fun hop _ => ?_, fun hop => ?_⟩
    · obtain ⟨w, t, hw, hexec, hkept⟩ := eventFire_set hon hnext hrun hcom hf hno hop
      have hset := hw.inForce ((setInForce_applySet w v.f d).kept hkept)
      have hbank (b : Bool) : t.bank b = (w.applySet v.f d).bank b := State.bank_of_ix hkept.ix b
      have hwbank (b : Bool) : w.bank b = s.bank b := State.bank_of_ix hw.ix b
      refine ⟨t, hexec, hset.run, hset.fmt, hset.nspec, hset.stage, hset.chans, hset.regions, hset.anchor, hset.first, hset.later, ?_, ?_⟩
      · intro hint hfree
        rw [hkept.ix]
        exact applySet_first (hw.integrating.trans hint) (by rw [hw.ix, hfree])
      · intro c hint hc hne hfree
        rw [hbank, hbank]
        exact applySet_next (hw.integrating.trans hint) (hw.curBank.trans hc) (by rw [hwbank]; exact hne) (by rw [hwbank, hfree])
    · obtain ⟨w, t, hw, hexec, hkept⟩ := eventFire_stop hon hnext hrun hcom hf hno hop
      have hbank (b : Bool) : t.bank b = (w.applyStop v.f).bank b := State.bank_of_ix hkept.ix b
      have hwbank (b : Bool) : w.bank b = s.bank b := State.bank_of_ix hw.ix b
      have hstate : t.rf IX_STAT IX_STAT_STATE = (w.applyStop v.f).rf IX_STAT IX_STAT_STATE :=
        State.rf_of_reg (hkept.reg _ (by decide) (by decide)) _
      obtain ⟨-, hstop, -⟩ := applyStop_stops w v.f
      refine ⟨t, hexec, (State.flag_of_reg (hkept.reg _ (by decide) (by decide)) _).trans hstop, ?_, ?_⟩
      · intro c hc hne
        rw [hbank, hstate]
        exact applyStop_ends (hw.curBank.trans hc) (by rw [hwbank]; exact hne)
      · intro ha hb
        rw [hstate]
        exact applyStop_idle (by rw [hw.ix, ha]) (by rw [hw.ix, hb])

end Sys2Proof.Machine
end
